-- ==== Sys2Proof/Word.lean ====
section
/-! DEFINITION. The word types of Difin and the small closed enumerations the syntax is written in
(in-flight paths R97, agents R335, scheduling of agents). -/

namespace Sys2Proof

/-- A byte of any memory (R2). -/
abbrev Byte := BitVec 8
/-- A 16-bit half word. -/
abbrev W16 := BitVec 16
/-- A 32-bit register, lane or memory word. -/
abbrev W32 := BitVec 32
/-- A 64-bit register pair, instruction word or address. -/
abbrev W64 := BitVec 64

/-- A scalar-register field of 7 bits naming s0–s127 (Word formats, R108–R118). -/
abbrev SReg := BitVec 7
/-- A vector-register field of 8 bits naming v0–v255. -/
abbrev VReg := BitVec 8
/-- A 9-bit operand selector (R119). -/
abbrev Sel := BitVec 9

/-- Second operand of a scalar ALU word (R108): register SB with I = 0, IMM32 with I = 1. -/
inductive SOp where
  | reg (r : SReg)
  | imm (v : W32)
  deriving DecidableEq, Repr

/-- The eight in-flight paths, in the order of their codes (R97). -/
inductive Path where
  | lp | cs | cp | gl | gs | en | ts | at
  deriving DecidableEq, Repr

/-- The path code of R97. -/
def Path.code : Path → Nat
  | .lp => 0 | .cs => 1 | .cp => 2 | .gl => 3 | .gs => 4 | .en => 5 | .ts => 6 | .at => 7

/-- The path a 3-bit code names (R97). -/
def Path.ofCode (c : Nat) : Path :=
  match c % 8 with
  | 0 => .lp | 1 => .cs | 2 => .cp | 3 => .gl | 4 => .gs | 5 => .en | 6 => .ts | _ => .at

/-- An agent that issues words: a wave, named by its core and its lowest wave slot there, or the
matrix sequencer stream of a core (R335, R441). -/
inductive Agent where
  | wave (core slot : Nat)
  | stream (core : Nat)
  deriving DecidableEq, Repr

/-- The core an agent runs on. -/
def Agent.core : Agent → Nat
  | .wave c _ => c
  | .stream c => c

/-- A store whose power state Fredusin moves (R306): the column of a core, or bank `b` of a die's
chip scratchpad. -/
inductive PowerStore where
  | column (core : Nat)
  | bank (die b : Nat)
  deriving DecidableEq, Repr

/-- The power states of a column or bank (R306). -/
inductive PowerState where
  | active | clockGated | retention | off
  deriving DecidableEq, Repr

/-- The scope field of AGENTCMD (R524): the named agent, its team, or every agent of the core. -/
inductive CmdScope where
  | agent | team | core
  deriving DecidableEq, Repr

end Sys2Proof
end

