-- ==== Sys2Proof/Config.lean ====
section
/-! DEFINITION. What one implementation fixes, and the free values: constants without a body, one for each place where the
spec leaves a value open. No proof can learn what they are. -/

namespace Sys2Proof.Config

/-- A value of 32 bits the spec leaves unspecified (R8): the nonce of the step and an index within it. -/
opaque freeW32 : Nat → Nat → W32
/-- One of two outcomes the spec leaves unspecified (R106, R135): the nonce of the step and an index within it. -/
opaque freeBit : Nat → Nat → Bool

/-- Which of the results a special function's bound admits it returns (R92, R93): a fixed function of the opcode, the input
bits and the wave's flush state. -/
opaque specialPick : Nat → W32 → Nat → Nat
/-- The device's private identity key, made at manufacture (R496). -/
opaque identityKey : List Byte
/-- The public keys above the device's own in the chain that ends at a Lystia root (R496). -/
opaque rootKeys : List (List Byte)
/-- The firmware image both slots hold before the first update (R495), and the device firmware it loads (R497). -/
opaque factoryImage : List Byte
opaque deviceFirmware : List Byte

/-- MXIDLE at reset (R212). -/
def mxidleReset : Nat := 2048
/-- CAP_MXWAKE, read-only (R212). -/
def capMxwake : Nat := 64
/-- CPLIMIT at reset, 48 MiB (R273). -/
def cplimitReset : Nat := 0x03000000
/-- PF_CTL at reset: trackers on, 4 lines (R304). -/
def pfctlReset : Nat := 0x9
/-- BINFLUSH at reset (R381). -/
def binflushReset : Nat := 65536
/-- PLACE_THOT at reset, in °C (R49). -/
def thotReset : Nat := 95
/-- PLACE_DMAX at reset (R49). -/
def dmaxReset : Nat := 4
/-- VDD at reset, in mV (R485). -/
def vddReset : Nat := 450
/-- The first temperature reading of every core, in units of 0.125 °C (R485 leaves it to the sensor): DESIGN CHOICE,
log entry 5. -/
def tempFirst : Nat := 0
end Sys2Proof.Config
end

