-- ==== Sys2Proof/Machine/Identity.lean ====
section
/-! DEFINITION. The signatures of firmware images and attestation reports (R496, R497): SHAKE256, and Ed448 as RFC 8032 defines it. The
spec names both and prints neither: their tables and constants are the standards' own (PRESUMED, log entry 141). -/

namespace Sys2Proof.Machine

/-! ### SHAKE256 -/

def rotWord (x : BitVec 64) (n : Nat) : BitVec 64 := x.rotateLeft n
/-- The round constants. -/
def keccakConsts : List (BitVec 64) :=
  [0x0000000000000001, 0x0000000000008082, 0x800000000000808A, 0x8000000080008000, 0x000000000000808B, 0x0000000080000001,
   0x8000000080008081, 0x8000000000008009, 0x000000000000008A, 0x0000000000000088, 0x0000000080008009, 0x000000008000000A,
   0x000000008000808B, 0x800000000000008B, 0x8000000000008089, 0x8000000000008003, 0x8000000000008002, 0x8000000000000080,
   0x000000000000800A, 0x800000008000000A, 0x8000000080008081, 0x8000000000008080, 0x0000000080000001, 0x8000000080008008]
/-- How far lane x + 5y is rotated. -/
def keccakTurns : List Nat := [0, 1, 62, 28, 27, 36, 44, 6, 55, 20, 3, 10, 43, 25, 39, 41, 45, 15, 21, 8, 18, 2, 61, 56, 14]
/-- One round on the 25 lanes. -/
def keccakRound (a : List (BitVec 64)) (rc : BitVec 64) : List (BitVec 64) :=
  let cs := (List.range 5).map (fun x =>
    a.getD x 0 ^^^ a.getD (x + 5) 0 ^^^ a.getD (x + 10) 0 ^^^ a.getD (x + 15) 0 ^^^ a.getD (x + 20) 0)
  let t := (List.range 25).map (fun i =>
    rotWord (a.getD i 0 ^^^ cs.getD ((i + 4) % 5) 0 ^^^ rotWord (cs.getD ((i + 1) % 5) 0) 1) (keccakTurns.getD i 0))
  let b := (List.range 25).map (fun i => t.getD ((i % 5 + 3 * (i / 5)) % 5 + 5 * (i % 5)) 0)
  (List.range 25).map (fun i =>
    let y := i / 5 * 5
    let z := b.getD i 0 ^^^ (~~~(b.getD (y + (i + 1) % 5) 0) &&& b.getD (y + (i + 2) % 5) 0)
    if i = 0 then z ^^^ rc else z)
/-- The permutation of 1,600 bits. -/
def keccak (a : List (BitVec 64)) : List (BitVec 64) := keccakConsts.foldl keccakRound a

/-- A number from little-endian bytes, and back. -/
def leNat (b : List (BitVec 8)) : Nat := b.foldr (fun x n => x.toNat + 256 * n) 0
def leBytes (n x : Nat) : List (BitVec 8) := (List.range n).map (fun i => BitVec.ofNat 8 (x / 256 ^ i))
/-- The message padded to whole blocks of 136 bytes. -/
def shakePad (m : List (BitVec 8)) : List (BitVec 8) :=
  let k := 135 - m.length % 136
  if k = 0 then m ++ [0x9F] else m ++ 0x1F :: List.replicate (k - 1) 0 ++ [0x80]
/-- Take in `n` blocks. -/
def absorb : Nat → List (BitVec 64) → List (BitVec 8) → List (BitVec 64)
  | 0, a, _ => a
  | n + 1, a, m =>
    absorb n (keccak ((List.range 25).map (fun i =>
      if i < 17 then a.getD i 0 ^^^ BitVec.ofNat 64 (leNat ((m.drop (8 * i)).take 8)) else a.getD i 0))) (m.drop 136)
/-- Give out `n` blocks. -/
def squeeze : Nat → List (BitVec 64) → List (BitVec 8)
  | 0, _ => []
  | n + 1, a => (a.take 17).flatMap (fun x => leBytes 8 x.toNat) ++ squeeze n (keccak a)
/-- SHAKE256: `n` bytes of output. -/
def shake256 (m : List (BitVec 8)) (n : Nat) : List (BitVec 8) :=
  let p := shakePad m
  let out := squeeze ((n + 135) / 136) (absorb (p.length / 136) (List.replicate 25 0) p)
  (out ++ List.replicate n 0).take n
/-- The measurement of some bytes: 64 bytes (R497). -/
def measure (m : List (BitVec 8)) : List (BitVec 8) := shake256 m 64

/-! ### Ed448 -/

/-- The field's prime, the curve's constant negated, and the order of its base point. -/
def edPrime : Nat := 2 ^ 448 - 2 ^ 224 - 1
def edMinusD : Nat := 39081
def edOrder : Nat := 2 ^ 446 - 13818066809895115352007386748515426880336692474882178609894547503885
def edSub (a b : Nat) : Nat := (a + edPrime - b % edPrime) % edPrime
/-- a to the power e, e below 2^k. -/
def edPow (a : Nat) : Nat → Nat → Nat
  | 0, _ => 1
  | k + 1, e =>
    let h := edPow a k (e / 2)
    if e % 2 = 1 then h * h % edPrime * a % edPrime else h * h % edPrime

/-- A point of the curve x² + y² = 1 + d x² y², in projective coordinates. -/
structure EdPoint where
  x : Nat
  y : Nat
  z : Nat
  deriving DecidableEq, Repr

def EdPoint.zero : EdPoint := ⟨0, 1, 1⟩
def EdPoint.base : EdPoint :=
  ⟨224580040295924300187604334099896036246789641632564134246125461686950415467406032909029192869357953282578032075146446173674602635247710,
   298819210078481492676017930443930673437544040154080242095928241372331506189835876003536878655418784733982303233503462500531545062832660,
   1⟩
/-- The sum of two points, equal ones too. -/
def EdPoint.add (p q : EdPoint) : EdPoint :=
  let a := p.z * q.z % edPrime
  let b := a * a % edPrime
  let c := p.x * q.x % edPrime
  let d := p.y * q.y % edPrime
  let e := edMinusD * (c * d % edPrime) % edPrime
  let f := (b + e) % edPrime
  let g := edSub b e
  let h := edSub (edSub ((p.x + p.y) * (q.x + q.y) % edPrime) c) d
  ⟨a * f % edPrime * h % edPrime, a * g % edPrime * edSub d c % edPrime, f * g % edPrime⟩
/-- n times a point, n below 2^k. -/
def EdPoint.mul (p : EdPoint) : Nat → Nat → EdPoint
  | 0, _ => EdPoint.zero
  | k + 1, n =>
    let h := p.mul k (n / 2)
    if n % 2 = 1 then (h.add h).add p else h.add h
/-- Equal points. -/
def EdPoint.same (p q : EdPoint) : Bool :=
  decide (p.x * q.z % edPrime = q.x * p.z % edPrime) && decide (p.y * q.z % edPrime = q.y * p.z % edPrime)
/-- The 57 bytes of a point: y, with the low bit of x at the top. -/
def EdPoint.encode (p : EdPoint) : List (BitVec 8) :=
  let inv := edPow p.z 448 (edPrime - 2)
  leBytes 57 (p.y * inv % edPrime + p.x * inv % edPrime % 2 * 2 ^ 455)
/-- The point 57 bytes name. -/
def edDecode (b : List (BitVec 8)) : Option EdPoint :=
  let n := leNat b
  let y := n % 2 ^ 455
  let sign := n / 2 ^ 455 % 2
  let yy := y * y % edPrime
  let u := edSub yy 1
  let v := edSub (edPrime - edMinusD * yy % edPrime) 1
  let u3v := u * u % edPrime * u % edPrime * v % edPrime
  let x := u3v * edPow (u3v * (u * u % edPrime) % edPrime * (v * v % edPrime) % edPrime) 448 ((edPrime - 3) / 4) % edPrime
  if b.length ≠ 57 ∨ edPrime ≤ y ∨ v * (x * x % edPrime) % edPrime ≠ u ∨ (x = 0 ∧ sign = 1) then none
  else some ⟨if x % 2 = sign then x else edPrime - x, y, 1⟩

/-- "SigEd448", a zero for a message that is not hashed first, and an empty context. -/
def edDomain : List (BitVec 8) := [0x53, 0x69, 0x67, 0x45, 0x64, 0x34, 0x34, 0x38, 0, 0]
def edHash (m : List (BitVec 8)) : Nat := leNat (shake256 (edDomain ++ m) 114) % edOrder
/-- The secret scalar and the prefix of a 57-byte private key. -/
def edSecret (key : List (BitVec 8)) : Nat × List (BitVec 8) :=
  let h := shake256 key 114
  (leNat (h.take 55) / 4 * 4 % 2 ^ 447 + (h.getD 55 0).toNat % 128 * 2 ^ 440 + 2 ^ 447, h.drop 57)
/-- The public key of a private one. -/
def edPublic (key : List (BitVec 8)) : List (BitVec 8) := (EdPoint.base.mul 448 (edSecret key).1).encode
/-- The 114-byte signature of a message. -/
def edSign (key msg : List (BitVec 8)) : List (BitVec 8) :=
  let s := edSecret key
  let r := edHash (s.2 ++ msg)
  let rb := (EdPoint.base.mul 448 r).encode
  rb ++ leBytes 57 ((r + edHash (rb ++ edPublic key ++ msg) * s.1) % edOrder)
/-- Whether a signature of a message verifies under a public key. RFC 8032 lets the equation be checked with or without the cofactor 4:
it is checked with it (DESIGN CHOICE, log entry 141). -/
def edVerify (pub msg sig : List (BitVec 8)) : Bool :=
  match edDecode pub, edDecode (sig.take 57) with
  | some a, some r =>
    let s := leNat (sig.drop 57)
    decide (sig.length = 114) && decide (s < edOrder) &&
      (EdPoint.base.mul 450 (4 * s)).same ((r.mul 3 4).add (a.mul 450 (4 * edHash (sig.take 57 ++ pub ++ msg))))
  | _, _ => false

end Sys2Proof.Machine
end

