-- ==== Sys2Proof/Syntax.lean ====
section
/-! DEFINITION. The whole Difin syntax: one record per word format (R108–R118), and `Instr`, one constructor per row of
spec/opcode_table.json. The first 221 constructors are instruction words; the rest are the device's own steps (events). -/

namespace Sys2Proof

/-- Format S, scalar ALU (R108). -/
structure FmtS where
  la : BitVec 4
  fn : BitVec 4
  sd : SReg
  sa : SReg
  b  : SOp
  deriving DecidableEq, Repr

/-- Format V, vector (R109). -/
structure FmtV where
  la : BitVec 4
  fn : BitVec 4
  vd : VReg
  a  : Sel
  b  : Sel
  c  : Sel
  negA : Bool
  negB : Bool
  abs  : Bool
  sat  : Bool
  rnd  : BitVec 2
  deriving DecidableEq, Repr

/-- Format VI, vector with immediate (R110). -/
structure FmtVI where
  la  : BitVec 4
  fn  : BitVec 4
  vd  : VReg
  a   : Sel
  imm : BitVec 31
  deriving DecidableEq, Repr

/-- Format M, memory (R111). -/
structure FmtM where
  la    : BitVec 4
  fn    : BitVec 4
  data  : BitVec 8
  base  : SReg
  voff  : VReg
  sem   : BitVec 3
  scope : BitVec 3
  imm   : BitVec 19
  deriving DecidableEq, Repr

/-- Format X, matrix sequencer (R112). -/
structure FmtX where
  la     : BitVec 4
  fn     : BitVec 4
  tile   : BitVec 6
  cha    : BitVec 4
  chb    : BitVec 4
  fb     : BitVec 4
  accf   : BitVec 2
  ksteps : BitVec 4
  flags  : BitVec 8
  imm    : BitVec 16
  deriving DecidableEq, Repr

/-- Format E, channels and engines (R113). -/
structure FmtE where
  la    : BitVec 4
  fn    : BitVec 4
  ch    : BitVec 4
  ch2   : BitVec 4
  desc  : SReg
  cnt   : SReg
  flags : BitVec 10
  imm   : BitVec 16
  deriving DecidableEq, Repr

/-- Format C, control (R114). -/
structure FmtC where
  la   : BitVec 4
  fn   : BitVec 4
  cond : BitVec 4
  ca   : SReg
  cx   : BitVec 5
  off  : W32
  deriving DecidableEq, Repr

/-- Format Q, queues and synchronisation (R115). Bits 19:16 are reserved. -/
structure FmtQ where
  la  : BitVec 4
  fn  : BitVec 4
  qd  : BitVec 8
  id  : BitVec 4
  lvl : BitVec 2
  sa  : SReg
  sb  : SReg
  imm : BitVec 16
  deriving DecidableEq, Repr

/-- Format T, tuple plan (R116). Bits 26:24 are reserved. -/
structure FmtT where
  la    : BitVec 4
  fn    : BitVec 4
  space : SReg
  blk   : SReg
  sd    : SReg
  flags : BitVec 8
  imm   : BitVec 16
  deriving DecidableEq, Repr

/-- Format T, Gear train plan (R116). Bits 21:16 are reserved. -/
structure FmtGT where
  la    : BitVec 4
  fn    : BitVec 4
  chain : BitVec 4
  tile  : BitVec 6
  row0  : BitVec 6
  nrow  : BitVec 6
  mreg  : BitVec 4
  imm   : BitVec 16
  deriving DecidableEq, Repr

/-- Format G, graphics (R117). -/
structure FmtG where
  la  : BitVec 4
  fn  : BitVec 4
  vd  : VReg
  va  : VReg
  vb  : VReg
  sa  : SReg
  idx : BitVec 5
  imm : BitVec 12
  deriving DecidableEq, Repr

/-- Format Y, system (R118). Bits 33:32 are reserved. -/
structure FmtY where
  la   : BitVec 4
  fn   : BitVec 4
  sd   : SReg
  sa   : SReg
  sreg : BitVec 16
  imm  : BitVec 16
  deriving DecidableEq, Repr

/-- The instructions and steps of the opcode table. -/
inductive Instr where
  /-- SADD (R150): Adds two 32-bit scalars, with optional carry in and carry out through SCC. -/
  | sadd (f : FmtS)
  /-- SSUB (R150): Subtracts two 32-bit scalars, with optional borrow in and borrow out through SCC. -/
  | ssub (f : FmtS)
  /-- SMUL (R150): Writes the low 32 bits of a scalar product. -/
  | smul (f : FmtS)
  /-- SMULHI (R150): Writes the high 32 bits of a signed or unsigned scalar product. -/
  | smulhi (f : FmtS)
  /-- SDIV (R151): Writes a scalar quotient or remainder 34 ck after issue. -/
  | sdiv (f : FmtS)
  /-- SAND (R150): Scalar bitwise AND. -/
  | sand (f : FmtS)
  /-- SOR (R150): Scalar bitwise OR. -/
  | sor (f : FmtS)
  /-- SXOR (R150): Scalar bitwise XOR. -/
  | sxor (f : FmtS)
  /-- SSHL (R150): Scalar left shift by the amount modulo 32. -/
  | sshl (f : FmtS)
  /-- SSHR (R150): Scalar logical or arithmetic right shift. -/
  | sshr (f : FmtS)
  /-- SROT (R150): Scalar left rotate. -/
  | srot (f : FmtS)
  /-- SCMP (R150): Compares two scalars and writes the result to the destination and to SCC. -/
  | scmp (f : FmtS)
  /-- SSEL (R150): Selects one of two scalars according to SCC. -/
  | ssel (f : FmtS)
  /-- SMOV (R150): Copies a scalar register or an immediate into a scalar register. -/
  | smov (f : FmtS)
  /-- SMIN (R150): Writes the signed or unsigned scalar minimum. -/
  | smin (f : FmtS)
  /-- SMAX (R150): Writes the signed or unsigned scalar maximum. -/
  | smax (f : FmtS)
  /-- SBFX (R152): Extracts a scalar bit field, zero- or sign-extended. -/
  | sbfx (f : FmtS)
  /-- SBFI (R152): Inserts a bit field into the scalar destination. -/
  | sbfi (f : FmtS)
  /-- SBITC (R153): Counts set bits, leading zeros or trailing zeros of a scalar. -/
  | sbitc (f : FmtS)
  /-- SADD64 (R154): Adds 64-bit scalar pairs. -/
  | sadd64 (f : FmtS)
  /-- SSUB64 (R154): Subtracts 64-bit scalar pairs. -/
  | ssub64 (f : FmtS)
  /-- SMAD64 (R154): Adds a 32 × 32-bit product into a 64-bit scalar pair. -/
  | smad64 (f : FmtS)
  /-- SLI (R154): Loads an immediate into a pair, sign- or zero-extended, or into its high half. -/
  | sli (f : FmtS)
  /-- VADD (R157): Lane-wise integer addition in format V. -/
  | vadd (f : FmtV)
  /-- VADD_IMM (R157): Lane-wise integer addition with an immediate in format VI. -/
  | vaddImm (f : FmtVI)
  /-- VSUB (R157): Lane-wise integer subtraction in format V. -/
  | vsub (f : FmtV)
  /-- VSUB_IMM (R157): Lane-wise integer subtraction with an immediate in format VI. -/
  | vsubImm (f : FmtVI)
  /-- VMUL (R157): Lane-wise integer multiplication in format V. -/
  | vmul (f : FmtV)
  /-- VMUL_IMM (R157): Lane-wise integer multiplication with an immediate in format VI. -/
  | vmulImm (f : FmtVI)
  /-- VMULHI (R157): Lane-wise high half of an integer product in format V. -/
  | vmulhi (f : FmtV)
  /-- VMULHI_IMM (R157): Lane-wise high half of an integer product with an immediate in format VI. -/
  | vmulhiImm (f : FmtVI)
  /-- VMAD (R157): Lane-wise integer multiply-add. -/
  | vmad (f : FmtV)
  /-- VAND (R157): Lane-wise bitwise AND in format V. -/
  | vand (f : FmtV)
  /-- VAND_IMM (R157): Lane-wise bitwise AND with an immediate in format VI. -/
  | vandImm (f : FmtVI)
  /-- VOR (R157): Lane-wise bitwise OR in format V. -/
  | vor (f : FmtV)
  /-- VOR_IMM (R157): Lane-wise bitwise OR with an immediate in format VI. -/
  | vorImm (f : FmtVI)
  /-- VXOR (R157): Lane-wise bitwise XOR in format V. -/
  | vxor (f : FmtV)
  /-- VXOR_IMM (R157): Lane-wise bitwise XOR with an immediate in format VI. -/
  | vxorImm (f : FmtVI)
  /-- VSHL (R157): Lane-wise left shift in format V. -/
  | vshl (f : FmtV)
  /-- VSHL_IMM (R157): Lane-wise left shift by an immediate in format VI. -/
  | vshlImm (f : FmtVI)
  /-- VSHR (R157): Lane-wise logical or arithmetic right shift in format V. -/
  | vshr (f : FmtV)
  /-- VSHR_IMM (R157): Lane-wise right shift by an immediate in format VI. -/
  | vshrImm (f : FmtVI)
  /-- VROT (R157): Lane-wise rotate in format V. -/
  | vrot (f : FmtV)
  /-- VROT_IMM (R157): Lane-wise rotate by an immediate in format VI. -/
  | vrotImm (f : FmtVI)
  /-- VMIN (R157): Lane-wise integer minimum in format V. -/
  | vmin (f : FmtV)
  /-- VMIN_IMM (R157): Lane-wise integer minimum with an immediate in format VI. -/
  | vminImm (f : FmtVI)
  /-- VMAX (R157): Lane-wise integer maximum in format V. -/
  | vmax (f : FmtV)
  /-- VMAX_IMM (R157): Lane-wise integer maximum with an immediate in format VI. -/
  | vmaxImm (f : FmtVI)
  /-- VCMP (R158): Writes lane comparison results as mask words into a scalar run and sets SCC. -/
  | vcmp (f : FmtV)
  /-- VCMP_IMM (R158): Lane comparison against an immediate, written as mask words, in format VI. -/
  | vcmpImm (f : FmtVI)
  /-- VSEL (R159): Selects per lane between two operands by a mask run or a nonzero condition. -/
  | vsel (f : FmtV)
  /-- VMOV (R157): Copies an operand into a vector register in active lanes. -/
  | vmov (f : FmtV)
  /-- VBFX (R160): Extracts a bit field in each lane. -/
  | vbfx (f : FmtV)
  /-- VBFI (R160): Inserts a bit field in each lane. -/
  | vbfi (f : FmtV)
  /-- VBITC (R160): Counts bits in each lane. -/
  | vbitc (f : FmtV)
  /-- VSAD (R161): Accumulates the sum of absolute byte differences in each lane. -/
  | vsad (f : FmtV)
  /-- VADD64 (R163): Lane-wise 64-bit addition into a register pair in format V. -/
  | vadd64 (f : FmtV)
  /-- VADD64_IMM (R163): Lane-wise 64-bit addition of an immediate in format VI. -/
  | vadd64Imm (f : FmtVI)
  /-- VMAD64 (R163): Lane-wise 32 × 32-bit multiply added into a 64-bit pair. -/
  | vmad64 (f : FmtV)
  /-- VDOT4 (R161): Lane-wise four-byte dot product with accumulation. -/
  | vdot4 (f : FmtV)
  /-- VPERM (R162): Selects bytes from two operands under nibble control in each lane. -/
  | vperm (f : FmtV)
  /-- FADD (R169): Lane-wise FP32 addition in format V. -/
  | fadd (f : FmtV)
  /-- FADD_IMM (R169): Lane-wise FP32 addition of an immediate in format VI. -/
  | faddImm (f : FmtVI)
  /-- FSUB (R169): Lane-wise FP32 subtraction in format V. -/
  | fsub (f : FmtV)
  /-- FSUB_IMM (R169): Lane-wise FP32 subtraction of an immediate in format VI. -/
  | fsubImm (f : FmtVI)
  /-- FMUL (R169): Lane-wise FP32 multiplication in format V. -/
  | fmul (f : FmtV)
  /-- FMUL_IMM (R169): Lane-wise FP32 multiplication by an immediate in format VI. -/
  | fmulImm (f : FmtVI)
  /-- FFMA (R169): Lane-wise fused FP32 multiply-add with one rounding. -/
  | ffma (f : FmtV)
  /-- FMIN (R169): Lane-wise FP32 minimum in format V. -/
  | fmin (f : FmtV)
  /-- FMIN_IMM (R169): Lane-wise FP32 minimum with an immediate in format VI. -/
  | fminImm (f : FmtVI)
  /-- FMAX (R169): Lane-wise FP32 maximum in format V. -/
  | fmax (f : FmtV)
  /-- FMAX_IMM (R169): Lane-wise FP32 maximum with an immediate in format VI. -/
  | fmaxImm (f : FmtVI)
  /-- FCMP (R170): Writes FP32 lane comparison results as mask words and sets SCC. -/
  | fcmp (f : FmtV)
  /-- FCMP_IMM (R170): FP32 lane comparison against an immediate in format VI. -/
  | fcmpImm (f : FmtVI)
  /-- FRND (R171): Rounds each lane to an integral FP32 value. -/
  | frnd (f : FmtV)
  /-- FFRACT (R171): Writes the fractional part of each lane. -/
  | ffract (f : FmtV)
  /-- FCLASS (R172): Writes a one-hot class word for each lane's FP32 value. -/
  | fclass (f : FmtV)
  /-- FLDEXP (R173): Scales each lane by a power of two in format V. -/
  | fldexp (f : FmtV)
  /-- FLDEXP_IMM (R173): Scales each lane by a power of two given as an immediate in format VI. -/
  | fldexpImm (f : FmtVI)
  /-- FFREXP (R173): Writes the mantissa or the exponent of each lane. -/
  | ffrexp (f : FmtV)
  /-- HADD2 (R175): Packed 16-bit addition. -/
  | hadd2 (f : FmtV)
  /-- HMUL2 (R175): Packed 16-bit multiplication. -/
  | hmul2 (f : FmtV)
  /-- HFMA2 (R175): Packed 16-bit fused multiply-add. -/
  | hfma2 (f : FmtV)
  /-- HDOT2 (R175): Two-element 16-bit dot product added to an FP32 value with one rounding. -/
  | hdot2 (f : FmtV)
  /-- CVTFI (R177): Converts FP32 to an integer type with clamping. -/
  | cvtfi (f : FmtV)
  /-- CVTIF (R178): Converts an integer to FP32, FP16 or BF16. -/
  | cvtif (f : FmtV)
  /-- CVTFF (R178): Converts between FP32 and the 16-bit floating formats. -/
  | cvtff (f : FmtV)
  /-- CVTPK (R179): Converts FP32 into one field of a packed register. -/
  | cvtpk (f : FmtV)
  /-- CVTUNP (R179): Unpacks one field of a packed register to FP32. -/
  | cvtunp (f : FmtV)
  /-- CVTQB (R180): Quantises a block of lanes and produces its scale. -/
  | cvtqb (f : FmtV)
  /-- FRCP (R181): Reciprocal of each lane, released after 10 ck. -/
  | frcp (f : FmtV)
  /-- FRSQ (R181): Reciprocal square root of each lane. -/
  | frsq (f : FmtV)
  /-- FSQRT (R181): Square root of each lane. -/
  | fsqrt (f : FmtV)
  /-- FEXP2 (R181): Base-2 exponential of each lane. -/
  | fexp2 (f : FmtV)
  /-- FLOG2 (R181): Base-2 logarithm of each lane. -/
  | flog2 (f : FmtV)
  /-- FSIN (R181): Sine of each lane. -/
  | fsin (f : FmtV)
  /-- FCOS (R181): Cosine of each lane. -/
  | fcos (f : FmtV)
  /-- FTANH (R181): Hyperbolic tangent of each lane. -/
  | ftanh (f : FmtV)
  /-- LBCAST (R185): Broadcasts one lane's value to every active lane. -/
  | lbcast (f : FmtV)
  /-- LSHUF (R185): Reads each lane's value from a lane chosen per lane. -/
  | lshuf (f : FmtV)
  /-- LROT (R185): Rotates values across the lanes by a uniform amount. -/
  | lrot (f : FmtV)
  /-- LQUAD (R186): Exchanges or broadcasts values within quads. -/
  | lquad (f : FmtV)
  /-- LBALLOT (R187): Writes the nonzero active lanes as mask words. -/
  | lballot (f : FmtV)
  /-- LRED (R188): Reduces the active lanes in ascending order into a scalar. -/
  | lred (f : FmtV)
  /-- LSCAN (R188): Inclusive or exclusive prefix combination across the active lanes. -/
  | lscan (f : FmtV)
  /-- LMATCH (R189): Writes for each lane the set of active lanes with an equal key. -/
  | lmatch (f : FmtV)
  /-- LHIST (R190): Adds into per-lane histogram bins. -/
  | lhist (f : FmtV)
  /-- LMERGE (R191): Sums each histogram bin across the active lanes. -/
  | lmerge (f : FmtV)
  /-- LFIRST (R187): Writes the value or the index of the lowest active lane. -/
  | lfirst (f : FmtV)
  /-- LDERIV (R186): Computes quad screen-space differences. -/
  | lderiv (f : FmtV)
  /-- LCOUNT (R187): Counts the active lanes, or the active lanes with a nonzero value. -/
  | lcount (f : FmtV)
  /-- BRA (R196): Conditional relative transfer to a clause header. -/
  | bra (f : FmtC)
  /-- BRS (R196): Transfers into a table of equal-sized clauses by an index. -/
  | brs (f : FmtC)
  /-- BRM (R200): Splits the mask by a condition run, pushing a pending-path entry when the lanes diverge. -/
  | brm (f : FmtC)
  /-- BRX (R196): Transfers to an absolute address held in a pair. -/
  | brx (f : FmtC)
  /-- MARK (R199): Pushes a rejoin entry holding the current mask. -/
  | mark (f : FmtC)
  /-- JOIN (R201): Pops the top divergence entry, restores its mask and transfers to its header. -/
  | join (f : FmtC)
  /-- CALL (R196): Records a return offset and transfers. -/
  | call (f : FmtC)
  /-- RET (R196): Transfers to the header recorded in a link register. -/
  | ret (f : FmtC)
  /-- LOOP (R196): Decrements a counter and transfers while it is nonzero. -/
  | loop (f : FmtC)
  /-- WAITC (R464): Blocks until an in-flight counter falls to a threshold. -/
  | waitc (f : FmtC)
  /-- YIELD (R205): Ends the clause and makes the wave youngest at its next choice. -/
  | yield (f : FmtC)
  /-- HALT (R207): Ends the wave when its condition holds. -/
  | halt (f : FmtC)
  /-- TRAP (R208): Raises a SOFTWARE trap when its condition holds. -/
  | trap (f : FmtC)
  /-- NOP (R205): Takes one issue ck and has no other effect. -/
  | nop (f : FmtC)
  /-- MASK (R203): Rewrites the mask words from a scalar run or sets every lane. -/
  | mask (f : FmtC)
  /-- SLEEP (R206): Blocks the wave for a count of ck. -/
  | sleep (f : FmtC)
  /-- LDL (R313): Loads from the lane-private slice. -/
  | ldl (f : FmtM)
  /-- STL (R313): Stores to the lane-private slice. -/
  | stl (f : FmtM)
  /-- LDS (R313): Loads from the team's core scratchpad allotment. -/
  | lds (f : FmtM)
  /-- STS (R313): Stores to the team's core scratchpad allotment. -/
  | sts (f : FmtM)
  /-- LDC (R313): Loads from cluster-shared memory. -/
  | ldc (f : FmtM)
  /-- STC (R313): Stores to cluster-shared memory. -/
  | stc (f : FmtM)
  /-- LDP (R313): Loads from the chip scratchpad. -/
  | ldp (f : FmtM)
  /-- STP (R313): Stores to the chip scratchpad. -/
  | stp (f : FmtM)
  /-- LDG (R314): Loads from global memory through the column and cluster caches. -/
  | ldg (f : FmtM)
  /-- STG (R314): Stores to global memory. -/
  | stg (f : FmtM)
  /-- SLD (R315): Loads a scalar run from global memory once for the wave. -/
  | sld (f : FmtM)
  /-- SST (R315): Stores a scalar run to global memory once for the wave. -/
  | sst (f : FmtM)
  /-- LDQ (R318): Loads one value per lane into a stream-queue entry. -/
  | ldq (f : FmtM)
  /-- PFG (R319): Asks for lines to be prefetched into the cluster cache. -/
  | pfg (f : FmtM)
  /-- TLD (R322): Loads an aligned tile, optionally with version-word checking. -/
  | tld (f : FmtM)
  /-- TST (R321): Stores an aligned tile, optionally all-or-nothing under a version word. -/
  | tst (f : FmtM)
  /-- CLEAN (R323): Writes the column's dirty RC and UO bytes to their homes. -/
  | clean (f : FmtM)
  /-- INVAL (R323): Writes back and invalidates RC and UO lines of the column. -/
  | inval (f : FmtM)
  /-- DISCARD (R324): Drops lines without writing their data back. -/
  | discard (f : FmtM)
  /-- ATOM (R326): Performs an indivisible read-modify-write at the home slice and returns the old value. -/
  | atom (f : FmtM)
  /-- ACAS (R326): Compare-and-swap at the home slice. -/
  | acas (f : FmtM)
  /-- RED (R327): Contributes to an update-only reduction at the cluster cache. -/
  | red (f : FmtM)
  /-- FENCE (R329): Waits for the wave's accesses, performs its scope's column actions and optionally records ACKTAG. -/
  | fence (f : FmtM)
  /-- MFMT (R220): Copies a 32-byte format block from the scratchpad into a format-block register. -/
  | mfmt (f : FmtX)
  /-- MZERO (R221): Zeroes an accumulator tile. -/
  | mzero (f : FmtX)
  /-- MMA (R223): Queues a matrix multiply-accumulate of two channel slabs into a tile. -/
  | mma (f : FmtX)
  /-- MMAT (R223): Queues a matrix multiply-accumulate with transposed slab layouts. -/
  | mmat (f : FmtX)
  /-- MLD (R225): Queues a load of a tile from a channel or from memory. -/
  | mld (f : FmtX)
  /-- MST (R226): Queues a store of a tile to a channel or to memory, with band scaling and conversion. -/
  | mst (f : FmtX)
  /-- MCVT (R229): Queues a conversion of one tile into another, optionally scaled. -/
  | mcvt (f : FmtX)
  /-- MSET (R230): Sets a sequencer register from an immediate. -/
  | mset (f : FmtX)
  /-- MADD (R230): Adds into a sequencer register. -/
  | madd (f : FmtX)
  /-- MLOOP (R231): Decrements a sequencer register and branches while it is nonzero. -/
  | mloop (f : FmtX)
  /-- MBR (R231): Branches the stream, unconditionally or on a register. -/
  | mbr (f : FmtX)
  /-- MARR (R232): Waits for the stream's earlier words to end, then arrives at a team barrier with release. -/
  | marr (f : FmtX)
  /-- MWAIT (R232): Blocks the stream until a team barrier phase completes, then acquires. -/
  | mwait (f : FmtX)
  /-- MHALT (R231): Ends issue of the sequencer stream. -/
  | mhalt (f : FmtX)
  /-- CHDEF (R360): Defines or undefines a channel from a descriptor. -/
  | chdef (f : FmtE)
  /-- CHRES (R360): Reserves channel elements, blocking until there is room. -/
  | chres (f : FmtE)
  /-- CHCOM (R360): Commits channel elements with team-scope release. -/
  | chcom (f : FmtE)
  /-- CHACQ (R360): Acquires committed channel elements, blocking until they are available. -/
  | chacq (f : FmtE)
  /-- CHREL (R360): Releases acquired channel elements. -/
  | chrel (f : FmtE)
  /-- CHQRY (R360): Reads a channel count or pointer into a scalar. -/
  | chqry (f : FmtE)
  /-- CPYIN (R367): Issues an engine copy from memory into channel elements, optionally expanding to BF16. -/
  | cpyin (f : FmtE)
  /-- CPYOUT (R368): Issues an engine copy of channel elements to memory. -/
  | cpyout (f : FmtE)
  /-- CPYG (R368): Issues an engine copy from global memory to global memory. -/
  | cpyg (f : FmtE)
  /-- IDXWALK (R369): Issues an engine walk of a sparse mask into coordinate records. -/
  | idxwalk (f : FmtE)
  /-- GATHER (R370): Issues an engine gather of table rows named by coordinate records. -/
  | gather (f : FmtE)
  /-- PUBLISH (R371): Issues a flip of a published buffer's current copy. -/
  | publish (f : FmtE)
  /-- ECPL_DEP (R372): Sets a pending completion action that deposits a tuple. -/
  | ecplDep (f : FmtE)
  /-- ECPL_ARR (R372): Sets a pending completion action that makes a phase arrival. -/
  | ecplArr (f : FmtE)
  /-- SQPUSH (R374): Pushes a vector register into a stream-queue entry. -/
  | sqpush (f : FmtQ)
  /-- SQPOP (R374): Pops the head stream-queue entry into a vector register. -/
  | sqpop (f : FmtQ)
  /-- BARR (R467): Arrives at a barrier with release. -/
  | barr (f : FmtQ)
  /-- BARW (R467): Waits for the phase of the wave's last arrival to complete, then acquires. -/
  | barw (f : FmtQ)
  /-- BARRW (R467): Arrives at a barrier and waits for that phase. -/
  | barrw (f : FmtQ)
  /-- PHBEG (R474): Opens a new phase with expected arrival counts. -/
  | phbeg (f : FmtQ)
  /-- PHWAIT (R476): Blocks until the team's current phase is complete, then acquires. -/
  | phwait (f : FmtQ)
  /-- LAUNCH (R377): Releases and enqueues a copy of a launch record into a launch queue. -/
  | launch (f : FmtQ)
  /-- RSUB (R379): Submits a raster batch, optionally closing the frame. -/
  | rsub (f : FmtQ)
  /-- TSDEP (R394): Sends a tuple deposit to its home slice with device-scope release. -/
  | tsdep (f : FmtT)
  /-- TSCPY (R394): Copies a fitting tuple, parking until one exists. -/
  | tscpy (f : FmtT)
  /-- TSTAKE (R394): Takes a fitting tuple, parking until one exists. -/
  | tstake (f : FmtT)
  /-- TSCPYN (R394): Copies a fitting tuple, or reports none without parking. -/
  | tscpyn (f : FmtT)
  /-- TSTAKEN (R394): Takes a fitting tuple, or reports none without parking. -/
  | tstaken (f : FmtT)
  /-- TSCAN (R395): Cancels another team wave's open tuple request. -/
  | tscan (f : FmtT)
  /-- GTCFG_SEND (R408): Configures a Gear train chain entry as a sender to a resolved destination core. -/
  | gtcfgSend (f : FmtGT)
  /-- GTCFG_DEST (R408): Configures a chain entry as a destination with a local tile and rule. -/
  | gtcfgDest (f : FmtGT)
  /-- GTRSV (R409): Reserves tile rows and receive entries for a destination chain. -/
  | gtrsv (f : FmtGT)
  /-- GTSEND (R410): Checks the destination chain and sends tile rows as flits. -/
  | gtsend (f : FmtGT)
  /-- GTDRAIN (R411): Blocks the stream until the chain's expected arrivals have been added. -/
  | gtdrain (f : FmtGT)
  /-- GTDRAIN_PHASE (R411): Blocks the stream until the core's phase Gear train count reaches zero. -/
  | gtdrainPhase (f : FmtGT)
  /-- GTREL (R411): Releases a chain entry after its flits are acknowledged or its buffers are freed. -/
  | gtrel (f : FmtGT)
  /-- RBOX (R245): Tests a ray against the four children of a box node. -/
  | rbox (f : FmtG)
  /-- RTRI (R246): Tests a ray against a triangle record. -/
  | rtri (f : FmtG)
  /-- RPUSH (R247): Pushes traversal entries onto a per-lane stack. -/
  | rpush (f : FmtG)
  /-- RPOP (R247): Pops a traversal entry from a per-lane stack. -/
  | rpop (f : FmtG)
  /-- RHIT (R251): Deposits hit records into material bins. -/
  | rhit (f : FmtG)
  /-- AFETCH (R252): Fetches the attributes of a triangle's three vertices. -/
  | afetch (f : FmtG)
  /-- ABARY (R253): Computes barycentrics and their derivatives for a pixel or a ray. -/
  | abary (f : FmtG)
  /-- AINTERP (R254): Interpolates vertex values with derivatives. -/
  | ainterp (f : FmtG)
  /-- VISLD (R255): Reads a pixel's identifier and depth from a held visibility tile. -/
  | visld (f : FmtG)
  /-- SMPL (R256): Samples a texture with derivatives. -/
  | smpl (f : FmtG)
  /-- SMPLL (R256): Samples a texture at an explicit level of detail. -/
  | smpll (f : FmtG)
  /-- PXOUT (R259): Writes colour to the covered pixels of a target. -/
  | pxout (f : FmtG)
  /-- TRET (R260): Releases the wave's tile references after its AT requests return. -/
  | tret (f : FmtG)
  /-- SRD (R445): Reads a system register into a scalar. -/
  | srd (f : FmtY)
  /-- SWR (R445): Writes a scalar into a system register. -/
  | swr (f : FmtY)
  /-- ERET (R447): Clears INTRAP and resumes at the point the trap record names. -/
  | eret (f : FmtY)
  /-- BRK (R448): Raises a BREAKPOINT trap. -/
  | brk (f : FmtY)
  /-- CNTRD (R482): Reads a measurement counter into a scalar pair. -/
  | cntrd (f : FmtY)
  /-- CNTCFG (R484): Configures and zeroes a programmable core counter. -/
  | cntcfg (f : FmtY)
  /-- TIME (R486): Reads platform time in ns into a scalar pair. -/
  | time (f : FmtY)
  /-- ISYNC (R449): Fences, drops the instruction cache and refetches. -/
  | isync (f : FmtY)
  /-- CLAUSE_FETCH (R102): Fetches and checks the next clause header and words. -/
  | clauseFetch (a : Agent)
  /-- CLAUSE_WAIT_MET (R99): A waiting clause's in-flight waits are met and its first word may issue. -/
  | clauseWaitMet (a : Agent)
  /-- PROMOTION (R51): A wave ready for 64 ck without being chosen is promoted. -/
  | promotion (a : Agent)
  /-- REQUEST_RETURN (R462): A path request returns or is acknowledged, writes its destinations and lowers its counter in issue order. -/
  | requestReturn (a : Agent) (p : Path)
  /-- PENDING_FAULT_DELIVERY (R442): A filled pending-fault record is delivered at a clause boundary. -/
  | pendingFaultDelivery (a : Agent)
  /-- POISON_STOP (R333): A wave that received bad data under POISONTRAP stops at the next clause boundary. -/
  | poisonStop (a : Agent)
  /-- LAUNCH_QUEUE_REFETCH (R376): A write to a launch queue's control line makes the Regulator refetch it and acquire new records. -/
  | launchQueueRefetch (q : Nat)
  /-- LAUNCH_RECORD_READ (R46): The Regulator reads a queued record and enters it in the launch dependency table. -/
  | launchRecordRead (q : Nat)
  /-- LAUNCH_ACTIVATION (R46): A record becomes active once its queue predecessor and named predecessors allow. -/
  | launchActivation (l : Nat)
  /-- PLACEMENT_DECISION (R48): The master Regulator places the next team, pair, group or grid on eligible cores. -/
  | placementDecision
  /-- LAUNCH_COMPLETION (R58): A launch whose teams have halted and accesses completed releases at system scope and writes STATUS. -/
  | launchCompletion (l : Nat)
  /-- VACATE_WAVE_STOP (R63): A wave of a core being vacated stops at its next clause boundary. -/
  | vacateWaveStop (a : Agent)
  /-- TEAM_SAVE (R63): A vacated team, its accesses completed, is saved to context slots and the core-state area. -/
  | teamSave (t : Nat)
  /-- VACATE_COMPLETE (R66): Every named core is empty and saved, and the set is reported. -/
  | vacateComplete
  /-- DROOP_EVENT (R23): A core's droop sensor records a droop, and every compute die stretches its next periods. -/
  | droopEvent (core : Nat)
  /-- DROOP_WINDOW_CLOSE (R485): A 1 ms window closes, copying droop counts and re-evaluating eligibility. -/
  | droopWindowClose (meanPower : Nat)
  /-- TEMP_SAMPLE (R485): A core temperature sample is taken every 10 µs. -/
  | tempSample (core : Nat) (reading : W16)
  /-- OVERTEMP (R499): A die reaching 110 °C makes Fredusin remove power. -/
  | overtemp (die : Nat)
  /-- TIME_SLICE_EXPIRY (R452): The running context's time slice expires and every core of it is vacated. -/
  | timeSliceExpiry
  /-- WATCHDOG (R451): A wave or stream blocked on one word for WDTIME ms traps WATCHDOG. -/
  | watchdog (a : Agent)
  /-- SLEEP_WAKE (R206): A sleeping wave becomes ready after its count. -/
  | sleepWake (a : Agent)
  /-- CHANNEL_WAIT_SERVED (R360): A blocked CHRES or CHACQ is served once its condition holds. -/
  | channelWaitServed (a : Agent)
  /-- STREAM_QUEUE_WAIT_SERVED (R374): A blocked SQPUSH, SQPOP or LDQ proceeds when an entry frees or becomes ready. -/
  | streamQueueWaitServed (a : Agent)
  /-- PHASE_COMPLETE (R476): The tree sees every core's line high and completes the phase. -/
  | phaseComplete (t : Nat)
  /-- PHASE_WATCH_REGISTER (R474): A phase watch is registered at the watched tag's home slice. -/
  | phaseWatchRegister (t : Nat)
  /-- ENGINE_FIRE (R363): An engine command at the head of its channel queues fires and reserves its outputs. -/
  | engineFire (c : Nat)
  /-- ENGINE_COMPLETE (R364): An engine command completes, commits outputs, releases inputs and runs its completion action. -/
  | engineComplete (c : Nat)
  /-- PUBLISH_FLIP (R371): A PUBLISH fires, releases and flips the buffer entry in every cluster in one ck. -/
  | publishFlip (c : Nat)
  /-- LAUNCH_ENQUEUE (R376): A LAUNCH's record is written to its slot and TAIL advanced once the queue allows. -/
  | launchEnqueue (c : Nat)
  /-- MMA_FIRE (R222): An MMA or MMAT at the head of the array queue fires when its slabs and quarters are ready. -/
  | mmaFire (core : Nat)
  /-- ARRAY_WORD_END (R216): An array-queue word ends and releases its slabs and slots. -/
  | arrayWordEnd (core : Nat)
  /-- TRANSFER_WORD_BEGIN (R216): An MLD or MST at the head of the transfer queue begins. -/
  | transferWordBegin (core : Nat)
  /-- TRANSFER_WORD_END (R228): An MLD or MST ends, committing its element or acknowledging its writes. -/
  | transferWordEnd (core : Nat)
  /-- MFMT_COMPLETE (R216): An MFMT completes 8 ck after issue. -/
  | mfmtComplete (core fb : Nat)
  /-- QUARTER_GATED (R233): A matrix quarter idle for MXIDLE ck is power-gated. -/
  | quarterGated (core q : Nat)
  /-- QUARTER_AWAKE (R233): A waking quarter becomes usable CAP_MXWAKE ck after waking starts. -/
  | quarterAwake (core q : Nat)
  /-- GT_CHECK_ANSWER (R410): The destination's answer to a GTSEND check arrives. -/
  | gtCheckAnswer (core : Nat)
  /-- GT_FLIT_ARRIVAL (R412): A flit arrives at a chain and is added or held under its rule. -/
  | gtFlitArrival (f : Nat)
  /-- GT_FLIT_ACK (R410): A sender receives the acceptance or refusal of a flit. -/
  | gtFlitAck (f : Nat)
  /-- TUPLE_DEPOSIT (R396): A deposit at the home slice serves parked copies, hands off to a taker or is stored. -/
  | tupleDeposit (r : Nat)
  /-- TUPLE_MATCH (R394): A copy or take request at the home slice is served, reported NONE or parked. -/
  | tupleMatch (r : Nat)
  /-- TUPLE_RETRY (R397): A request refused a park entry is resent every 256 ck. -/
  | tupleRetry (r : Nat)
  /-- TUPLE_CANCEL (R395): A cancel reaches the slice or wave and ends an open request with status 2. -/
  | tupleCancel (r : Nat)
  /-- TUPLE_TIMEOUT (R401): A park limit expires and the request ends with status 3. -/
  | tupleTimeout (r : Nat)
  /-- TS_FULL (R400): A deposit waiting at a full slice is refused after 4,096 ck. -/
  | tsFull (r : Nat)
  /-- HOME_WRITE (R288): A write performs at its home slice, invalidating other copies and taking a SEQ. -/
  | homeWrite (a : Agent) (rq i : Nat)
  /-- HOME_READ (R282): A read reaches its home slice and is served. -/
  | homeRead (a : Agent) (rq i : Nat)
  /-- ATOMIC_AT_HOME (R326): An atomic performs as one read-modify-write at its home slice. -/
  | atomicAtHome (a : Agent) (rq i : Nat)
  /-- RED_CONTRIBUTION (R327): A reduction contribution is combined into the cluster cache's update-only partial. -/
  | redContribution (a : Agent) (rq i : Nat)
  /-- GDDR7_FILL (R275): A home slice's miss is filled from GDDR 7 or the host. -/
  | gddr7Fill (line : Nat)
  /-- COLUMN_EVICTION (R286): A column evicts a line, writing its dirty bytes to the home. -/
  | columnEviction (core line : Nat)
  /-- PEER_PROBE (R299): A predicted peer cluster answers a probe with the line or a miss. -/
  | peerProbe (cluster line : Nat)
  /-- REDIRECTED_READ (R302): A redirected read is served at a helper slice or passed to the home. -/
  | redirectedRead (cluster line : Nat)
  /-- PAGE_WALK (R418): A walker reads page-table entries and ends in a translation or a fault. -/
  | pageWalk (cluster : Nat) (va : W64)
  /-- HOST_WRITE (R277): A host CXL.mem write is ordered at its home slice. -/
  | hostWrite (pa : Nat) (data : List Byte)
  /-- HOST_READ (R489): A host CXL.mem read of device memory is served at the home slice. -/
  | hostRead (pa n : Nat)
  /-- HOST_INVALIDATE (R277): A host write invalidates the device's copy of a host line. -/
  | hostInvalidate (line : Nat) (data : List Byte)
  /-- RASTER_BATCH (R380): A raster unit rasterises a batch into the die's tiles. -/
  | rasterBatch (die : Nat)
  /-- FRAME_CLOSE (R380): A frame's CLOSE takes effect and its tiles become CLOSED. -/
  | frameClose (die : Nat)
  /-- CLASSIFY_TILE (R382): A classify engine turns a closed tile into quad groups in material bins. -/
  | classifyTile (die engine : Nat)
  /-- BIN_WAVE_CLOSE (R384): A bin wave is closed, its tiles gain references and a team becomes pending. -/
  | binWaveClose (die material : Nat)
  /-- BINFLUSH_TIMEOUT (R384): A bin's oldest entry waits BINFLUSH ck and the wave is closed. -/
  | binflushTimeout (die material : Nat)
  /-- TLBINV (R421): The window command drops matching TLB entries. -/
  | tlbinv
  /-- TLBINV_COMPLETE (R421): Every TLB has dropped the entries and earlier walks have ended. -/
  | tlbinvComplete
  /-- VACATE (R62): The window command asks the Regulator to vacate cores by mask or count. -/
  | vacate
  /-- TSCLEAR (R389): The window command removes every tuple of a bag. -/
  | tsclear
  /-- WRESUME (R440): Resumes a STOPPED wave or stream as ERET would. -/
  | wresume (core slot : Nat) (sc : CmdScope)
  /-- WEND (R440): Ends a STOPPED or halted agent as HALT would. -/
  | wend (core slot : Nat) (sc : CmdScope)
  /-- DBGHALT (R452): Stops named agents into DBGHALT at their next boundary. -/
  | dbghalt (core slot : Nat) (sc : CmdScope)
  /-- DRESUME (R452): Lets agents in DBGHALT continue and makes pending deliveries. -/
  | dresume (core slot : Nat) (sc : CmdScope)
  /-- CTXID (R452): Writing CTXID makes the running context and starts its time slice. -/
  | ctxid (v : W64)
  /-- TSLICE (R452): Writing TSLICE resets the expiry from the context's start. -/
  | tslice (v : W64)
  /-- TRAPQ (R441): Writing the trap ring registers sets the ring and writes held reports. -/
  | trapq (reg : Nat) (v : W64)
  /-- LAUNCH_QUEUE_ENABLE (R524): Enabling or disabling a launch queue through its ENABLE word. -/
  | launchQueueEnable (q : Nat) (v : W64)
  /-- BUFFER_ENTRY_WRITE (R422): A write of a buffer map entry reaches every cluster copy in one ck. -/
  | bufferEntryWrite (b word : Nat) (v : W64)
  /-- MATERIAL_ENTRY_WRITE (R432): A write of a material entry makes or ends a standing bin launch. -/
  | materialEntryWrite (m word : Nat) (v : W64)
  /-- REGISTER_WRITE (R490): A write to a window register without behaviour of its own. -/
  | registerWrite (off : Nat) (v : W64)
  /-- DEBUG_READ (R307): A debug read of a column or bank, raising it to ACTIVE if retained. -/
  | debugRead (st : PowerStore) (addr n : Nat)
  /-- POWER_ON_RESET (R492): Power-on or reset starts Fredusin's start-up stages, full or minimal. -/
  | powerOnReset
  /-- BOOT_STAGE (R492): A start-up stage completes or fails and is recorded. -/
  | bootStage (failed : Option Byte)
  /-- BOOTOK (R492): The mailbox word BOOTOK marks the start as successful. -/
  | bootok (v : W64)
  /-- BOOTOK_TIMEOUT (R492): No BOOTOK within 30 s of READY fails the start. -/
  | bootokTimeout
  /-- FULLRETRY (R493): The mailbox command clears the failure count and makes the next start full. -/
  | fullretry
  /-- BOOTSTAT (R494): The mailbox returns BOOTSTAT. -/
  | bootstat
  /-- ATTEST (R497): The mailbox command returns a signed attestation report for a nonce. -/
  | attest (nonce : BitVec 256)
  /-- CKPT (R498): The mailbox command vacates, writes back and streams device memory to a host target. -/
  | ckpt (target : Nat)
  /-- CKPT_COMPLETE (R498): The checkpoint copy completes and held host writes proceed. -/
  | ckptComplete
  /-- RESTORE (R498): The mailbox command copies the host image back into device memory. -/
  | restore (source : Nat)
  /-- SUPPLY_SET (R22): Fredusin moves a compute die's supply within 420–520 mV as temperature and load change, updating the VDD sensor. -/
  | supplySet (die mv : Nat)
  /-- COLUMN_POWER_STATE (R306): Fredusin moves a column or chip-scratchpad bank between ACTIVE, CLOCK-GATED, RETENTION and OFF, writing back dirty bytes before OFF. -/
  | columnPowerState (st : PowerStore) (p : PowerState)
  /-- DEBUG_SESSION_RELEASE (R307): The debug session releases a store that a debug read raised to ACTIVE. -/
  | debugSessionRelease (st : PowerStore)
  /-- DEBUG_REGISTER_WRITE (R452): The debugger writes registers of an agent in DBGHALT through the window's debug port. -/
  | debugRegisterWrite (a : Agent) (reg : Nat) (v : W64)
  /-- CLUSTER_CACHE_EVICTION (R283): A cluster cache evicts a line at any time, writing an owned dirty line back and updating the home directory. -/
  | clusterCacheEviction (cluster line : Nat)
  /-- L2_EVICTION (R324): A home slice evicts a line or a helper evicts a replica, writing dirty data to GDDR 7 at times the device does not state. -/
  | l2Eviction (line : Nat)
  /-- VERSION_WORD_RETRY (R321): A TST with AON = 1 retries the version word at its home every 64 ck until it finds the word even. -/
  | versionWordRetry (a : Agent) (rq : Nat)
  /-- COUNTER_MIRROR_REFRESH (R481): Each core's mirror of the cluster, slice, die and device counters is refreshed, at least every 256 ck. -/
  | counterMirrorRefresh (core : Nat)
  /-- FIRMWARE_UPDATE (R495): A firmware update is written to Fredusin's inactive image slot and takes effect at the next start. -/
  | firmwareUpdate (image sig : List Byte)
  /-- LOST_CXL_LINK (R500): The CXL link to the host is lost. -/
  | lostCxlLink
  /-- LINK_FAILURE (R500): A die-to-die or GDDR 7 link fails after retry. -/
  | linkFailure (die : Nat) (loop : Bool)
  deriving DecidableEq, Repr

end Sys2Proof
end

