-- ==== Sys2Proof/WellFormed.lean ====
section
/-! DEFINITION. Well-formed instructions: every condition under which a word traps ILLEGAL_OPCODE that the word alone
decides (R104, R105, R123 and the encoding table of each group). Conditions that read the wave's state (its width, its
registers, its FPCOMPAT) are in the meanings. -/

namespace Sys2Proof

/-! ### Shared field checks -/

/-- A selector an integer operand may use: 464–479 are FP32 constants, 480–511 reserved (R119, R120). -/
def selInt (s : Sel) : Bool := decide (s.toNat < 464)
/-- A selector a floating-point or raw operand may use (R119). -/
def selAny (s : Sel) : Bool := decide (s.toNat < 480)
/-- A vector selector. -/
def selVec (s : Sel) : Bool := decide (s.toNat < 256)
/-- A scalar register or a constant: no vector selector. -/
def selUniform (s : Sel) : Bool := decide (256 ≤ s.toNat)
/-- A pair operand: an integer constant, or an even register (R71, R120). -/
def selPair (s : Sel) : Bool := selInt s && (decide (384 ≤ s.toNat) || decide (s.toNat % 2 = 0))
/-- An even register number (R71). -/
def even (n : Nat) : Bool := decide (n % 2 = 0)

/-- LA is zero, as every class but L requires (R105). -/
def la0 (la : BitVec 4) : Bool := decide (la = 0)

/-- The format-V fields every vector word shares (R109, R155, R167): FN below `nfn`, unused selectors zero, and the
modifiers, SAT and RND zero where they are not allowed. -/
def vForm (f : FmtV) (nfn srcs : Nat) (sat negA negB abs rnd : Bool) : Bool :=
  decide (f.fn.toNat < nfn) && (sat || !f.sat) && (negA || !f.negA) && (negB || !f.negB) && (abs || !f.abs)
    && (rnd || decide (f.rnd = 0)) && (decide (2 ≤ srcs) || decide (f.b = 0)) && (decide (3 ≤ srcs) || decide (f.c = 0))

/-- A format-VI word: FN bit 3 set and FN bits 2:0 below `n` (R110). -/
def viForm (f : FmtVI) (n : Nat) : Bool := la0 f.la && decide (8 ≤ f.fn.toNat) && decide (f.fn.toNat < 8 + n)

/-- A vector integer word of format V with integer operands (R155, R156). -/
def vInt (f : FmtV) (nfn srcs : Nat) (sat neg : Bool) : Bool :=
  la0 f.la && vForm f nfn srcs sat (neg && decide (f.fn = 0)) (neg && decide (f.fn = 0) && decide (2 ≤ srcs))
      (neg && decide (f.fn = 0)) false
    && selInt f.a && (decide (srcs < 2) || selInt f.b) && (decide (srcs < 3) || selInt f.c)

/-- VI with an integer A (R155). -/
def viInt (f : FmtVI) (n : Nat) : Bool := viForm f n && selInt f.a
/-- VI with a floating-point A (R167). -/
def viFlt (f : FmtVI) (n : Nat) : Bool := viForm f n && selAny f.a

/-- A floating-point word of format V (R167, R174). -/
def vFlt (f : FmtV) (nfn srcs : Nat) (sat negA negB abs rnd : Bool) : Bool :=
  la0 f.la && vForm f nfn srcs sat negA negB abs rnd && selAny f.a && (decide (srcs < 2) || selAny f.b)
    && (decide (srcs < 3) || selAny f.c)

/-- A special function (R181, R182): class L, so LA is free. -/
def vSpecial (f : FmtV) (rnd : Bool) : Bool := vForm f 1 1 true true false true rnd && selAny f.a

/-- Bit 47 of a VD that names a scalar register is zero (R109). -/
def vdScalar (v : VReg) : Bool := decide (v.toNat < 128)

/-! ### Memory words (R308–R310, R320, R325) -/

/-- Registers of the run of an access size (R309). -/
def sizeRun (size : Nat) : Nat :=
  match size with
  | 5 => 2 | 6 => 4 | 7 => 16 | _ => 1
/-- Bytes of an access size (R309). -/
def sizeBytes (size : Nat) : Nat :=
  match size with
  | 0 => 1 | 1 => 1 | 2 => 2 | 3 => 2 | 4 => 4 | 5 => 8 | 6 => 16 | _ => 64
/-- A size a store accepts: not the sign-extending ones (R309). -/
def storeSize (size : Nat) : Bool := !(decide (size = 1) || decide (size = 3))

/-- BASE names an even register, or 126 for a base of zero (R111). -/
def baseOk (f : FmtM) : Bool := even f.base.toNat
/-- VOFF under A64 names a pair; 255 means none (R310). -/
def voffOk (f : FmtM) (a64 : Bool) : Bool := !a64 || decide (f.voff = 255) || even f.voff.toNat
def semIn (f : FmtM) (l : List Nat) : Bool := decide (f.sem.toNat ∈ l)
def scopeIn (f : FmtM) (lo hi : Nat) : Bool := decide (lo ≤ f.scope.toNat) && decide (f.scope.toNat ≤ hi)
/-- DATA is a multiple of the run length, which is a power of two (R309). -/
def dataAligned (f : FmtM) (run : Nat) : Bool := decide (f.data.toNat % run = 0)

/-- A vector load or store of a level, with or without A64 (R308). -/
def mVec (f : FmtM) (a64 store : Bool) (sems : List Nat) (hi : Nat) : Bool :=
  (a64 || decide (f.fn.toNat < 8)) && baseOk f && voffOk f (a64 && decide (8 ≤ f.fn.toNat)) && semIn f sems
    && scopeIn f 0 hi && dataAligned f (sizeRun (f.fn.toNat % 8)) && (!store || storeSize (f.fn.toNat % 8))

/-- No VOFF. -/
def noVoff (f : FmtM) : Bool := decide (f.voff = 255)
/-- No address operand at all (R310): VOFF 255, BASE 126, IMM19 0. -/
def noAddr (f : FmtM) : Bool := noVoff f && decide (f.base = 126) && decide (f.imm = 0)

def mSld (f : FmtM) : Bool :=
  decide (f.fn.toNat < 7) && baseOk f && noVoff f && semIn f [0, 1, 4] && scopeIn f 0 4
    && dataAligned f (sizeRun f.fn.toNat) && decide (f.data.toNat + sizeRun f.fn.toNat ≤ 104)
def mSst (f : FmtM) : Bool :=
  decide (f.fn.toNat < 7) && storeSize f.fn.toNat && baseOk f && noVoff f && semIn f [0, 2, 4] && scopeIn f 0 4
    && dataAligned f (sizeRun f.fn.toNat) && decide (f.data.toNat + sizeRun f.fn.toNat ≤ 128)
def mLdq (f : FmtM) : Bool :=
  decide (f.fn.toNat % 8 < 5) && baseOk f && voffOk f (decide (8 ≤ f.fn.toNat)) && semIn f [0] && scopeIn f 0 0
    && decide (f.data.toNat < 8)
def mAddrOnly (f : FmtM) : Bool :=
  decide (f.fn.toNat % 8 = 0) && baseOk f && voffOk f (decide (8 ≤ f.fn.toNat)) && semIn f [0] && scopeIn f 0 0
    && decide (f.data = 0)
def mTile (f : FmtM) (sems : List Nat) : Bool :=
  decide (f.fn.toNat % 8 < 7) && baseOk f && noVoff f && semIn f sems && scopeIn f 0 4
    && (decide (f.fn.toNat < 8) || (decide (f.base.toNat % 4 = 0) && decide (f.base.toNat ≤ 100)))
def mColumn (f : FmtM) : Bool :=
  la0 f.la && decide (f.fn.toNat < 2) && decide (f.data = 0) && semIn f [0] && scopeIn f 1 4 && baseOk f
    && (decide (f.fn = 1) || noAddr f)
def mAtom (f : FmtM) : Bool :=
  decide (f.fn.toNat < 14) && baseOk f && semIn f [1, 2, 3, 4] && scopeIn f 0 4
    && dataAligned f (if f.fn.toNat < 12 then 1 else 2)
def mAcas (f : FmtM) : Bool :=
  decide (f.fn.toNat < 2) && baseOk f && semIn f [1, 2, 3, 4] && scopeIn f 0 4
    && dataAligned f (if f.fn = 0 then 2 else 4)
def mRed (f : FmtM) : Bool :=
  decide (f.fn.toNat < 14) && !decide (f.fn = 0) && !decide (f.fn = 12) && baseOk f && semIn f [2, 4] && scopeIn f 0 4
    && dataAligned f (if f.fn.toNat < 12 then 1 else 2)
def mFence (f : FmtM) : Bool :=
  la0 f.la && decide (f.fn = 0) && decide (f.data.toNat < 128) && semIn f [1, 2, 3] && scopeIn f 1 4 && noAddr f

/-! ### Scalar words (R148, R149) -/

def sWord (f : FmtS) (nfn : Nat) : Bool := la0 f.la && decide (f.fn.toNat < nfn)
/-- The second operand of a pair word: an even register, or an immediate. -/
def sPairB (f : FmtS) : Bool :=
  match f.b with
  | .reg r => even r.toNat
  | .imm _ => true
def sIsImm (f : FmtS) : Bool :=
  match f.b with
  | .reg _ => false
  | .imm _ => true

/-! ### Control words (R195) -/

def cWord (f : FmtC) : Bool := la0 f.la && decide (f.fn = 0)
def condIn (f : FmtC) (l : List Nat) : Bool := decide (f.cond.toNat ∈ l)
/-- COND 0–6 with CA zero unless COND 3 or 4 tests it. -/
def condCa (f : FmtC) : Bool :=
  decide (f.cond.toNat ≤ 6) && (decide (f.cond = 3) || decide (f.cond = 4) || decide (f.ca = 0))
def off0 (f : FmtC) : Bool := decide (f.off = 0)
def cx0 (f : FmtC) : Bool := decide (f.cx = 0)
def ca0 (f : FmtC) : Bool := decide (f.ca = 0)

/-! ### Sequencer words (R218, R219) -/

/-- Accumulator slots of a tile of format ACCF (R145). -/
def tileSlots (accf : Nat) : Nat := if accf = 0 then 4 else 2
def tileOk (f : FmtX) : Bool := decide (f.accf.toNat < 3) && decide (f.tile.toNat % tileSlots f.accf.toNat = 0)
def xWord (f : FmtX) (nfn : Nat) : Bool := la0 f.la && decide (f.fn.toNat < nfn)
def tile0 (f : FmtX) : Bool := decide (f.tile = 0)
def cha0 (f : FmtX) : Bool := decide (f.cha = 0)
def chb0 (f : FmtX) : Bool := decide (f.chb = 0)
def fb0 (f : FmtX) : Bool := decide (f.fb = 0)
def accf0 (f : FmtX) : Bool := decide (f.accf = 0)
def ks0 (f : FmtX) : Bool := decide (f.ksteps = 0)
def flags0 (f : FmtX) : Bool := decide (f.flags = 0)
/-- Only the FLAGS bits of `m` may be set. -/
def flagsIn (f : FmtX) (m : BitVec 8) : Bool := decide (f.flags &&& ~~~m = 0)
def ximm0 (f : FmtX) : Bool := decide (f.imm = 0)

def xMfmt (f : FmtX) : Bool :=
  xWord f 1 && tile0 f && chb0 f && accf0 f && ks0 f && flagsIn f 1 && (f.flags.getLsbD 0 || cha0 f)
def xMma (f : FmtX) : Bool :=
  xWord f 1 && tileOk f && even f.fb.toNat && !decide (f.cha = f.chb) && flagsIn f 0xF7
    && !decide (f.flags.toNat / 16 = 15) && decide (f.imm.toNat < 32)
/-- The register fields of MLD and MST that the word does not use are zero. -/
def xMemRegs (f : FmtX) : Bool :=
  let mem := f.flags.getLsbD 0
  let off := f.flags.getLsbD 1
  (if mem then cha0 f else true) && (mem || !off) && (off || decide (f.imm.toNat % 16 = 0))
def xMld (f : FmtX) : Bool :=
  xWord f 1 && tileOk f && chb0 f && ks0 f && flagsIn f 3 && xMemRegs f && decide (f.imm.toNat < 16)
def xMst (f : FmtX) : Bool :=
  xWord f 1 && tileOk f && chb0 f && ks0 f && flagsIn f 15 && xMemRegs f && (f.flags.getLsbD 0 || !f.flags.getLsbD 3)
    && decide (f.imm.toNat < 4096) && (f.flags.getLsbD 2 || decide (f.imm.toNat < 16))
def mcvtSrc (f : FmtX) : Nat := f.imm.toNat % 64
def mcvtFmt (f : FmtX) : Nat := f.imm.toNat / 64 % 4
def xMcvt (f : FmtX) : Bool :=
  let s := mcvtSrc f
  let ns := tileSlots (mcvtFmt f)
  let nd := tileSlots f.accf.toNat
  let t := f.tile.toNat
  xWord f 1 && tileOk f && cha0 f && chb0 f && fb0 f && ks0 f && flagsIn f 1 && decide (mcvtFmt f < 3)
    && decide (s % ns = 0) && decide (f.imm.toNat < 4096) && (f.flags.getLsbD 0 || decide (f.imm.toNat < 256))
    && (decide (s = t) || decide (s + ns ≤ t) || decide (t + nd ≤ s))
def xRegs (f : FmtX) : Bool := tile0 f && accf0 f && ks0 f && flags0 f

/-! ### Channel and engine words (R359, R362) -/

def eWord (f : FmtE) (nfn : Nat) : Bool := decide (f.fn.toNat < nfn)
def ech0 (f : FmtE) : Bool := decide (f.ch = 0)
def ech20 (f : FmtE) : Bool := decide (f.ch2 = 0)
def ecnt0 (f : FmtE) : Bool := decide (f.cnt = 0)
def edesc0 (f : FmtE) : Bool := decide (f.desc = 0)
def eflags (f : FmtE) (m : BitVec 10) : Bool := decide (f.flags &&& ~~~m = 0)
def eimm0 (f : FmtE) : Bool := decide (f.imm = 0)
/-- The count of R359: IMM16 with IMMN, otherwise CNT; the field not used is zero. -/
def eCount (f : FmtE) : Bool := if f.flags.getLsbD 0 then ecnt0 f else eimm0 f
def eDescPair (f : FmtE) : Bool := even f.desc.toNat

/-! ### Queue words (R374, R377, R379, R466, R473) -/

def qWord (f : FmtQ) : Bool := decide (f.fn = 0)
def qRegs0 (f : FmtQ) : Bool := decide (f.sa = 0) && decide (f.sb = 0) && decide (f.imm = 0)
/-- A barrier name: tb0–tb15, cb0–cb7, gb0–gb3 (R115, R469). -/
def barrierOk (f : FmtQ) : Bool :=
  match f.lvl.toNat with
  | 0 => true
  | 1 => decide (f.id.toNat < 8)
  | 2 => decide (f.id.toNat < 4)
  | _ => false
def qBarrier (f : FmtQ) : Bool := la0 f.la && qWord f && decide (f.qd = 0) && qRegs0 f && barrierOk f

/-! ### Tuple and Gear train words (R393, R403, R407, R415) -/

def tStatus (f : FmtT) : Bool := decide (f.sd.toNat < 104) || decide (f.sd = 127)
def tWord (f : FmtT) : Bool := decide (f.fn = 0) && even f.space.toNat && tStatus f && decide (f.flags = 0)
def gWord (f : FmtGT) (fn : Nat) : Bool := la0 f.la && decide (f.fn.toNat = fn)
def gTile (f : FmtGT) : Bool := decide (f.tile.toNat % 4 = 0)
def gTile0 (f : FmtGT) : Bool := decide (f.tile = 0)
def gRows (f : FmtGT) : Bool := decide (f.row0.toNat + f.nrow.toNat ≤ 63)
def gRows0 (f : FmtGT) : Bool := decide (f.row0 = 0) && decide (f.nrow = 0)
def gM0 (f : FmtGT) : Bool := decide (f.mreg = 0)
def gImm0 (f : FmtGT) : Bool := decide (f.imm = 0)

/-! ### Graphics words (R239, R240) -/

def gfx (f : FmtG) (nfn : Nat) : Bool := decide (f.fn.toNat < nfn)
def gfxSa0 (f : FmtG) : Bool := decide (f.sa = 0)
def gfxIdx0 (f : FmtG) : Bool := decide (f.idx = 0)
def gfxImm0 (f : FmtG) : Bool := decide (f.imm = 0)
def gfxVb0 (f : FmtG) : Bool := decide (f.vb = 0)

/-! ### System words (R444, R482, R486) -/

def yWord (f : FmtY) : Bool := la0 f.la && decide (f.fn = 0)
/-- A counter id R483 lists. -/
def counterListed (id : Nat) : Bool :=
  let i := id % 4096
  match id / 4096 with
  | 0 => decide (i < 8)
  | 1 => decide (i < 8) || decide (i = 0x10) || decide (i = 0x11)
  | 2 => decide (i < 4) || decide (i ∈ [0x10, 0x11, 0x12, 0x20, 0x21, 0x30, 0x31, 0x32, 0x40, 0x41])
  | 3 => decide (i < 3) || decide (i ∈ [0x10, 0x11, 0x12, 0x20, 0x30, 0x31, 0x32, 0x33, 0x34, 0x35, 0x36])
  | 4 => decide (i < 7) || decide (i ∈ [0x10, 0x11, 0x12, 0x13])
  | 5 => decide (i < 12)
  | 6 => decide (i < 4) || decide (i = 0x10)
  | _ => false

/-- The static conditions of each instruction; the device's own steps have none. LMATCH.b32 with an FP32-constant selector in A, of which
R189 does not say whether its key is the constant's bits, is refused as R120 refuses it of an integer operand (DESIGN CHOICE, log
entry 117). -/
def Instr.wf (i : Instr) : Bool :=
  match i with
  | .sadd f => sWord f 3
  | .ssub f => sWord f 3
  | .smul f => sWord f 1
  | .smulhi f => sWord f 2
  | .sdiv f => decide (f.fn.toNat < 4)
  | .sand f => sWord f 1
  | .sor f => sWord f 1
  | .sxor f => sWord f 1
  | .sshl f => sWord f 1
  | .sshr f => sWord f 2
  | .srot f => sWord f 1
  | .scmp f => sWord f 10
  | .ssel f => sWord f 1
  | .smov f => sWord f 1 && decide (f.sa = 0)
  | .smin f => sWord f 2
  | .smax f => sWord f 2
  | .sbfx f => sWord f 2
  | .sbfi f => sWord f 1
  | .sbitc f => sWord f 3 && decide (f.b = .reg 0)
  | .sadd64 f => sWord f 1 && even f.sd.toNat && even f.sa.toNat && sPairB f
  | .ssub64 f => sWord f 1 && even f.sd.toNat && even f.sa.toNat && sPairB f
  | .smad64 f => sWord f 2 && even f.sd.toNat
  | .sli f => sWord f 3 && even f.sd.toNat && decide (f.sa = 0) && sIsImm f
  | .vadd f => vInt f 2 2 true true
  | .vaddImm f => viInt f 2
  | .vsub f => vInt f 2 2 true true
  | .vsubImm f => viInt f 2
  | .vmul f => vInt f 2 2 true true
  | .vmulImm f => viInt f 2
  | .vmulhi f => vInt f 2 2 false false
  | .vmulhiImm f => viInt f 2
  | .vmad f => vInt f 2 3 true true
  | .vand f => vInt f 1 2 false false
  | .vandImm f => viInt f 1
  | .vor f => vInt f 1 2 false false
  | .vorImm f => viInt f 1
  | .vxor f => vInt f 1 2 false false
  | .vxorImm f => viInt f 1
  | .vshl f => vInt f 1 2 false false
  | .vshlImm f => viInt f 1
  | .vshr f => vInt f 2 2 false false
  | .vshrImm f => viInt f 2
  | .vrot f => vInt f 1 2 false false
  | .vrotImm f => viInt f 1
  | .vmin f => vInt f 2 2 false true
  | .vminImm f => viInt f 2
  | .vmax f => vInt f 2 2 false true
  | .vmaxImm f => viInt f 2
  | .vcmp f => vInt f 8 2 false false && vdScalar f.vd
  | .vcmpImm f => viInt f 8 && vdScalar f.vd
  | .vsel f => vInt f 1 3 false false
  | .vmov f => vInt f 1 1 false false
  | .vbfx f => vInt f 2 3 false false
  | .vbfi f => vInt f 1 3 false false
  | .vbitc f => vInt f 3 1 false false
  | .vsad f => vInt f 1 3 true false
  | .vadd64 f => vInt f 3 2 false false && even f.vd.toNat && selPair f.a && (!decide (f.fn = 0) || selPair f.b)
  | .vadd64Imm f => viInt f 1 && even f.vd.toNat && selPair f.a
  | .vmad64 f => vInt f 2 3 false false && even f.vd.toNat && selPair f.c
  | .vdot4 f => vInt f 3 3 true false
  | .vperm f => vInt f 1 3 false false
  | .fadd f => vFlt f 1 2 true true true true true
  | .faddImm f => viFlt f 1
  | .fsub f => vFlt f 1 2 true true true true true
  | .fsubImm f => viFlt f 1
  | .fmul f => vFlt f 1 2 true true true true true
  | .fmulImm f => viFlt f 1
  | .ffma f => vFlt f 1 3 true true true true true
  | .fmin f => vFlt f 1 2 true true true true false
  | .fminImm f => viFlt f 1
  | .fmax f => vFlt f 1 2 true true true true false
  | .fmaxImm f => viFlt f 1
  | .fcmp f => vFlt f 8 2 false true true true false && vdScalar f.vd
  | .fcmpImm f => viFlt f 8 && vdScalar f.vd
  | .frnd f => vFlt f 1 1 true true false true true
  | .ffract f => vFlt f 1 1 false true false true false
  | .fclass f => vFlt f 1 1 false false false false false
  | .fldexp f => vFlt f 1 2 true true false true true && selInt f.b
  | .fldexpImm f => viFlt f 1
  | .ffrexp f => vFlt f 2 1 false false false false false
  | .hadd2 f => vFlt f 2 2 true true true true true
  | .hmul2 f => vFlt f 2 2 true true true true true
  | .hfma2 f => vFlt f 2 3 true true true true true
  | .hdot2 f => vFlt f 2 3 true true true true true
  | .cvtfi f => vFlt f 6 1 false false false false true
  | .cvtif f => vFlt f 6 1 false false false false true && selInt f.a
  | .cvtff f => vFlt f 6 1 false false false false (decide (2 ≤ f.fn.toNat))
  | .cvtpk f => vFlt f 7 2 false false false false true && selInt f.b
  | .cvtunp f => vFlt f 7 2 false false false false false && selInt f.b
  | .cvtqb f => vFlt f 9 1 false false false false true
  | .frcp f => vSpecial f true
  | .frsq f => vSpecial f true
  | .fsqrt f => vSpecial f true
  | .fexp2 f => vSpecial f false
  | .flog2 f => vSpecial f false
  | .fsin f => vSpecial f false
  | .fcos f => vSpecial f false
  | .ftanh f => vSpecial f false
  | .lbcast f => vFlt f 1 2 false false false false false && selUniform f.b
  | .lshuf f => vFlt f 1 2 false false false false false
  | .lrot f => vFlt f 1 2 false false false false false && selUniform f.b
  | .lquad f => vFlt f 4 2 false false false false false && (if f.fn = 3 then selUniform f.b else decide (f.b = 0))
  | .lballot f => vFlt f 1 1 false false false false false && vdScalar f.vd
  | .lred f => vFlt f 11 1 false false false false (decide (f.fn = 8)) && vdScalar f.vd && (decide (8 ≤ f.fn.toNat) || selInt f.a)
  | .lscan f => vFlt f 11 2 false false false false (decide (f.fn = 8)) && (decide (f.b = 384) || decide (f.b = 385)) && (decide (8 ≤ f.fn.toNat) || selInt f.a)
  | .lmatch f => vForm f 2 1 false false false false false && (if f.fn = 1 then selAny f.a else selInt f.a)
  | .lhist f => vForm f 2 3 true false false false (decide (f.fn = 1)) && selInt f.a && (if f.fn = 1 then selAny f.b else selInt f.b) && selUniform f.c && selInt f.c
  | .lmerge f => vForm f 4 3 true false false false (decide (2 ≤ f.fn.toNat)) && selVec f.a && decide (f.b = 0) && selUniform f.c && selInt f.c && (if f.fn.toNat % 2 = 1 then vdScalar f.vd else decide (f.vd = 0))
  | .lfirst f => vFlt f 2 1 false false false false false && vdScalar f.vd
  | .lderiv f => vFlt f 4 1 false false false false true
  | .lcount f => vFlt f 2 1 false false false false false && vdScalar f.vd && (decide (f.fn = 1) || decide (f.a = 384))
  | .bra f => cWord f && condCa f && cx0 f
  | .brs f => cWord f && condIn f [0] && !cx0 f
  | .brm f => cWord f && condIn f [0] && decide (f.cx.toNat < 2)
  | .brx f => cWord f && condIn f [0, 1, 2, 5, 6] && even f.ca.toNat && cx0 f && off0 f
  | .mark f => cWord f && condIn f [0] && ca0 f && cx0 f
  | .join f => cWord f && condIn f [0] && ca0 f && cx0 f && off0 f
  | .call f => cWord f && condIn f [0] && decide (f.ca.toNat < 104) && cx0 f
  | .ret f => cWord f && condIn f [0, 1, 2] && cx0 f && off0 f
  | .loop f => cWord f && condIn f [0] && decide (f.ca.toNat < 104) && cx0 f
  | .waitc f => cWord f && condIn f [0] && decide (f.cx.toNat < 8) && off0 f
  | .yield f => cWord f && condIn f [0] && ca0 f && cx0 f && off0 f
  | .halt f => cWord f && condCa f && cx0 f && off0 f
  | .trap f => cWord f && condCa f && cx0 f && decide (f.off.toNat < 256)
  | .nop f => cWord f && condIn f [0] && ca0 f && cx0 f && off0 f
  | .mask f => cWord f && condIn f [0] && decide (f.cx.toNat < 5) && (!decide (f.cx = 4) || ca0 f) && off0 f
  | .sleep f => cWord f && condIn f [0] && cx0 f
  | .ldl f => mVec f false false [0] 0
  | .stl f => mVec f false true [0] 0
  | .lds f => mVec f false false [0, 1] 1
  | .sts f => mVec f false true [0, 2] 1
  | .ldc f => mVec f false false [0, 1] 2
  | .stc f => mVec f false true [0, 2] 2
  | .ldp f => mVec f false false [0, 1] 3
  | .stp f => mVec f false true [0, 2] 3
  | .ldg f => mVec f true false [0, 1, 4] 4
  | .stg f => mVec f true true [0, 2, 4] 4
  | .sld f => mSld f
  | .sst f => mSst f
  | .ldq f => mLdq f
  | .pfg f => mAddrOnly f
  | .tld f => mTile f [0, 1]
  | .tst f => mTile f [0, 2]
  | .clean f => mColumn f
  | .inval f => mColumn f
  | .discard f => mAddrOnly f
  | .atom f => mAtom f
  | .acas f => mAcas f
  | .red f => mRed f
  | .fence f => mFence f
  | .mfmt f => xMfmt f
  | .mzero f => xWord f 1 && tileOk f && cha0 f && chb0 f && fb0 f && ks0 f && flags0 f && ximm0 f
  | .mma f => xMma f
  | .mmat f => xMma f
  | .mld f => xMld f
  | .mst f => xMst f
  | .mcvt f => xMcvt f
  | .mset f => xWord f 3 && xRegs f && chb0 f && fb0 f
  | .madd f => xWord f 2 && xRegs f && (if f.fn = 0 then fb0 f else ximm0 f)
  | .mloop f => xWord f 1 && xRegs f && chb0 f && fb0 f
  | .mbr f => xWord f 3 && xRegs f && chb0 f && fb0 f && (!decide (f.fn = 0) || cha0 f)
  | .marr f => xWord f 1 && xRegs f && cha0 f && chb0 f && fb0 f && decide (f.imm.toNat < 16)
  | .mwait f => xWord f 1 && xRegs f && cha0 f && chb0 f && fb0 f && decide (f.imm.toNat < 16)
  | .mhalt f => xWord f 1 && xRegs f && cha0 f && chb0 f && fb0 f && ximm0 f
  | .chdef f => la0 f.la && eWord f 1 && ech20 f && eDescPair f && ecnt0 f && eflags f 0 && eimm0 f
  | .chres f => la0 f.la && eWord f 1 && ech20 f && decide (f.desc.toNat < 104) && eflags f 1 && eCount f
  | .chcom f => la0 f.la && eWord f 1 && ech20 f && eflags f 1 && eCount f
  | .chacq f => la0 f.la && eWord f 1 && ech20 f && decide (f.desc.toNat < 104) && eflags f 1 && eCount f
  | .chrel f => la0 f.la && eWord f 1 && ech20 f && eflags f 1 && eCount f
  | .chqry f => la0 f.la && eWord f 4 && ech20 f && decide (f.desc.toNat < 104) && ecnt0 f && eflags f 0 && eimm0 f
  | .cpyin f => eWord f 1 && ech20 f && eDescPair f && eflags f 3 && eCount f
  | .cpyout f => eWord f 1 && ech20 f && eDescPair f && eflags f 1 && eCount f
  | .cpyg f => eWord f 1 && ech0 f && ech20 f && eDescPair f && ecnt0 f && eflags f 0 && eimm0 f
  | .idxwalk f => eWord f 1 && ech20 f && eDescPair f && ecnt0 f && eflags f 0 && eimm0 f
  | .gather f => eWord f 1 && eDescPair f && eflags f 13 && eCount f
  | .publish f => eWord f 1 && ech0 f && ech20 f && eDescPair f && ecnt0 f && eflags f 0 && eimm0 f
  | .ecplDep f => la0 f.la && decide (f.fn = 0) && ech0 f && ech20 f && eDescPair f && even f.cnt.toNat && eflags f 16 && eimm0 f
  | .ecplArr f => la0 f.la && decide (f.fn = 1) && ech0 f && ech20 f && edesc0 f && ecnt0 f && eflags f 16 && eimm0 f
  | .sqpush f => la0 f.la && qWord f && decide (f.id.toNat < 8) && decide (f.lvl = 0) && qRegs0 f
  | .sqpop f => la0 f.la && qWord f && decide (f.id.toNat < 8) && decide (f.lvl = 0) && qRegs0 f
  | .barr f => qBarrier f
  | .barw f => qBarrier f
  | .barrw f => qBarrier f
  | .phbeg f => la0 f.la && qWord f && decide (f.qd = 0) && decide (f.id = 0) && decide (f.lvl.toNat < 3) && decide (f.sb = 0) && decide (f.imm = 0)
  | .phwait f => la0 f.la && qWord f && decide (f.qd = 0) && decide (f.id = 0) && decide (f.lvl = 0) && qRegs0 f
  | .launch f => qWord f && decide (f.qd.toNat < 104) && decide (f.id = 0) && decide (f.lvl = 0) && decide (f.sb = 0) && even f.sa.toNat && decide (f.imm.toNat < 64)
  | .rsub f => qWord f && decide (f.qd = 0) && decide (f.id = 0) && decide (f.lvl = 0) && decide (f.sb = 0) && even f.sa.toNat && decide (f.imm.toNat < 16)
  | .tsdep f => tWord f && decide (f.imm = 0)
  | .tscpy f => tWord f && la0 f.la
  | .tstake f => tWord f && la0 f.la
  | .tscpyn f => tWord f && decide (f.imm = 0)
  | .tstaken f => tWord f && decide (f.imm = 0)
  | .tscan f => tWord f && la0 f.la && decide (f.space = 0) && decide (f.imm = 0)
  | .gtcfgSend f => gWord f 0 && gTile f && gRows0 f && decide (f.mreg.toNat < 15) && gImm0 f
  | .gtcfgDest f => gWord f 1 && gTile f && gRows0 f && gM0 f && decide (f.imm.toNat < 2)
  | .gtrsv f => gWord f 0 && gTile0 f && gRows f && gImm0 f
  | .gtsend f => gWord f 0 && gTile f && gRows f && gM0 f && gImm0 f
  | .gtdrain f => gWord f 0 && gTile0 f && gRows0 f && gM0 f && gImm0 f
  | .gtdrainPhase f => gWord f 1 && decide (f.chain = 0) && gTile0 f && gRows0 f && gM0 f && gImm0 f
  | .gtrel f => gWord f 0 && gTile0 f && gRows0 f && gM0 f && gImm0 f
  | .rbox f => gfx f 1 && even f.vb.toNat && gfxSa0 f && gfxIdx0 f && gfxImm0 f
  | .rtri f => gfx f 3 && even f.vb.toNat && gfxSa0 f && gfxIdx0 f && gfxImm0 f
  | .rpush f => gfx f 1 && even f.va.toNat && gfxIdx0 f && gfxImm0 f
  | .rpop f => gfx f 1 && even f.vd.toNat && gfxVb0 f && gfxIdx0 f && gfxImm0 f
  | .rhit f => gfx f 1 && even f.vb.toNat && gfxSa0 f && gfxIdx0 f && gfxImm0 f
  | .afetch f => gfx f 3 && even f.va.toNat && gfxVb0 f && even f.sa.toNat && decide (f.idx.toNat < 8) && decide (f.imm.toNat < 16)
  | .abary f => gfx f 2 && gfxSa0 f && gfxIdx0 f && gfxImm0 f
  | .ainterp f => gfx f 2 && gfxSa0 f && gfxIdx0 f && decide (f.imm.toNat < 16)
  | .visld f => gfx f 1 && gfxVb0 f && gfxIdx0 f && gfxImm0 f
  | .smpl f => gfx f 1 && gfxVb0 f && even f.sa.toNat && gfxImm0 f
  | .smpll f => gfx f 1 && gfxVb0 f && even f.sa.toNat && gfxImm0 f
  | .pxout f => gfx f 1 && even f.sa.toNat && gfxImm0 f
  | .tret f => la0 f.la && gfx f 1 && decide (f.vd = 0) && decide (f.va = 0) && gfxVb0 f && gfxSa0 f && gfxIdx0 f && gfxImm0 f
  | .srd f => yWord f && decide (f.sa = 0) && decide (f.imm = 0)
  | .swr f => yWord f && decide (f.sd = 0) && decide (f.imm = 0)
  | .eret f => yWord f && decide (f.sd = 0) && decide (f.sa = 0) && decide (f.sreg = 0) && decide (f.imm = 0)
  | .brk f => yWord f && decide (f.sd = 0) && decide (f.sa = 0) && decide (f.sreg = 0) && decide (f.imm.toNat < 256)
  | .cntrd f => yWord f && decide (f.sreg = 0) && even f.sd.toNat && decide (f.sd.toNat ≤ 102) && counterListed f.imm.toNat
  | .cntcfg f => yWord f && decide (f.sreg = 0) && decide (f.sd = 0) && decide (f.imm.toNat < 8)
  | .time f => yWord f && decide (f.sreg = 0) && decide (f.sa = 0) && decide (f.imm = 0) && even f.sd.toNat && decide (f.sd.toNat ≤ 102)
  | .isync f => yWord f && decide (f.sd = 0) && decide (f.sa = 0) && decide (f.sreg = 0) && decide (f.imm = 0)
  | .clauseFetch _ => true
  | .clauseWaitMet _ => true
  | .promotion _ => true
  | .requestReturn _ _ => true
  | .pendingFaultDelivery _ => true
  | .poisonStop _ => true
  | .launchQueueRefetch _ => true
  | .launchRecordRead _ => true
  | .launchActivation _ => true
  | .placementDecision => true
  | .launchCompletion _ => true
  | .vacateWaveStop _ => true
  | .teamSave _ => true
  | .vacateComplete => true
  | .droopEvent _ => true
  | .droopWindowClose _ => true
  | .tempSample _ _ => true
  | .overtemp _ => true
  | .timeSliceExpiry => true
  | .watchdog _ => true
  | .sleepWake _ => true
  | .channelWaitServed _ => true
  | .streamQueueWaitServed _ => true
  | .phaseComplete _ => true
  | .phaseWatchRegister _ => true
  | .engineFire _ => true
  | .engineComplete _ => true
  | .publishFlip _ => true
  | .launchEnqueue _ => true
  | .mmaFire _ => true
  | .arrayWordEnd _ => true
  | .transferWordBegin _ => true
  | .transferWordEnd _ => true
  | .mfmtComplete _ _ => true
  | .quarterGated _ _ => true
  | .quarterAwake _ _ => true
  | .gtCheckAnswer _ => true
  | .gtFlitArrival _ => true
  | .gtFlitAck _ => true
  | .tupleDeposit _ => true
  | .tupleMatch _ => true
  | .tupleRetry _ => true
  | .tupleCancel _ => true
  | .tupleTimeout _ => true
  | .tsFull _ => true
  | .homeWrite _ _ _ => true
  | .homeRead _ _ _ => true
  | .atomicAtHome _ _ _ => true
  | .redContribution _ _ _ => true
  | .gddr7Fill _ => true
  | .columnEviction _ _ => true
  | .peerProbe _ _ => true
  | .redirectedRead _ _ => true
  | .pageWalk _ _ => true
  | .hostWrite _ _ => true
  | .hostRead _ _ => true
  | .hostInvalidate _ _ => true
  | .rasterBatch _ => true
  | .frameClose _ => true
  | .classifyTile _ _ => true
  | .binWaveClose _ _ => true
  | .binflushTimeout _ _ => true
  | .tlbinv => true
  | .tlbinvComplete => true
  | .vacate => true
  | .tsclear => true
  | .wresume _ _ _ => true
  | .wend _ _ _ => true
  | .dbghalt _ _ _ => true
  | .dresume _ _ _ => true
  | .ctxid _ => true
  | .tslice _ => true
  | .trapq _ _ => true
  | .launchQueueEnable _ _ => true
  | .bufferEntryWrite _ _ _ => true
  | .materialEntryWrite _ _ _ => true
  | .registerWrite _ _ => true
  | .debugRead _ _ _ => true
  | .powerOnReset => true
  | .bootStage _ => true
  | .bootok _ => true
  | .bootokTimeout => true
  | .fullretry => true
  | .bootstat => true
  | .attest _ => true
  | .ckpt _ => true
  | .ckptComplete => true
  | .restore _ => true
  | .supplySet _ _ => true
  | .columnPowerState _ _ => true
  | .debugSessionRelease _ => true
  | .debugRegisterWrite _ _ _ => true
  | .clusterCacheEviction _ _ => true
  | .l2Eviction _ => true
  | .versionWordRetry _ _ => true
  | .counterMirrorRefresh _ => true
  | .firmwareUpdate _ _ => true
  | .lostCxlLink => true
  | .linkFailure _ _ => true

end Sys2Proof
end

