-- ==== Sys2Proof/Decode.lean ====
section
/-! DEFINITION. Decoding and encoding of instruction words (R96, R104–R118, R122): total on any word, refusing by name; and
decoding of clause headers (R97). -/

namespace Sys2Proof

/-- Why a word is no instruction. All trap ILLEGAL_OPCODE when the word issues (R104, R123). -/
inductive DecodeError where
  /-- an OP outside the opcode map (R122, R123) -/
  | unassignedOpcode
  /-- a nonzero bit the word's format reserves (R104) -/
  | reservedBits
  /-- a field value the instruction's encoding table does not allow (R104, R105) -/
  | illFormed
  /-- fewer than eight bytes -/
  | truncated
  deriving DecidableEq, Repr

/-- Bits `hi:lo` of a word, as a bit vector of `n` bits. -/
def bits (w : W64) (lo n : Nat) : BitVec n := w.extractLsb' lo n

def opOf (w : W64) : Nat := (bits w 56 8).toNat
def laOf (w : W64) : BitVec 4 := bits w 52 4
def fnOf (w : W64) : BitVec 4 := bits w 48 4

/-- Accept the word when its reserved bits are zero. -/
def accept {α : Type} (ok : Bool) (x : α) : Except DecodeError α := if ok then .ok x else .error .reservedBits

/-- Format S (R108). -/
def fmtS (w : W64) (k : FmtS → Instr) : Except DecodeError Instr :=
  if w.getLsbD 33 then
    accept (!w.getLsbD 32) (k ⟨laOf w, fnOf w, bits w 41 7, bits w 34 7, .imm (bits w 0 32)⟩)
  else
    accept (decide (bits w 0 26 = 0)) (k ⟨laOf w, fnOf w, bits w 41 7, bits w 34 7, .reg (bits w 26 7)⟩)

/-- Format V (R109). -/
def fmtV (w : W64) (k : FmtV → Instr) : Except DecodeError Instr :=
  accept (decide (bits w 0 7 = 0))
    (k ⟨laOf w, fnOf w, bits w 40 8, bits w 31 9, bits w 22 9, bits w 13 9, w.getLsbD 12, w.getLsbD 11, w.getLsbD 10,
      w.getLsbD 9, bits w 7 2⟩)

/-- Format VI (R110). -/
def fmtVI (w : W64) (k : FmtVI → Instr) : Except DecodeError Instr :=
  accept true (k ⟨laOf w, fnOf w, bits w 40 8, bits w 31 9, bits w 0 31⟩)

/-- Format M (R111). -/
def fmtM (w : W64) (k : FmtM → Instr) : Except DecodeError Instr :=
  accept true (k ⟨laOf w, fnOf w, bits w 40 8, bits w 33 7, bits w 25 8, bits w 22 3, bits w 19 3, bits w 0 19⟩)

/-- Format X (R112). -/
def fmtX (w : W64) (k : FmtX → Instr) : Except DecodeError Instr :=
  accept true (k ⟨laOf w, fnOf w, bits w 42 6, bits w 38 4, bits w 34 4, bits w 30 4, bits w 28 2, bits w 24 4,
    bits w 16 8, bits w 0 16⟩)

/-- Format E (R113). -/
def fmtE (w : W64) (k : FmtE → Instr) : Except DecodeError Instr :=
  accept true (k ⟨laOf w, fnOf w, bits w 44 4, bits w 40 4, bits w 33 7, bits w 26 7, bits w 16 10, bits w 0 16⟩)

/-- Format C (R114). -/
def fmtC (w : W64) (k : FmtC → Instr) : Except DecodeError Instr :=
  accept true (k ⟨laOf w, fnOf w, bits w 44 4, bits w 37 7, bits w 32 5, bits w 0 32⟩)

/-- Format Q (R115). -/
def fmtQ (w : W64) (k : FmtQ → Instr) : Except DecodeError Instr :=
  accept (decide (bits w 16 4 = 0))
    (k ⟨laOf w, fnOf w, bits w 40 8, bits w 36 4, bits w 34 2, bits w 27 7, bits w 20 7, bits w 0 16⟩)

/-- Format T, tuple plan (R116). -/
def fmtT (w : W64) (k : FmtT → Instr) : Except DecodeError Instr :=
  accept (decide (bits w 24 3 = 0))
    (k ⟨laOf w, fnOf w, bits w 41 7, bits w 34 7, bits w 27 7, bits w 16 8, bits w 0 16⟩)

/-- Format T, Gear train plan (R116). -/
def fmtGT (w : W64) (k : FmtGT → Instr) : Except DecodeError Instr :=
  accept (decide (bits w 16 6 = 0))
    (k ⟨laOf w, fnOf w, bits w 44 4, bits w 38 6, bits w 32 6, bits w 26 6, bits w 22 4, bits w 0 16⟩)

/-- Format G (R117). -/
def fmtG (w : W64) (k : FmtG → Instr) : Except DecodeError Instr :=
  accept true (k ⟨laOf w, fnOf w, bits w 40 8, bits w 32 8, bits w 24 8, bits w 17 7, bits w 12 5, bits w 0 12⟩)

/-- Format Y (R118). -/
def fmtY (w : W64) (k : FmtY → Instr) : Except DecodeError Instr :=
  accept (decide (bits w 32 2 = 0))
    (k ⟨laOf w, fnOf w, bits w 41 7, bits w 34 7, bits w 16 16, bits w 0 16⟩)

/-- FN bit 3 selects format V or VI (R110). -/
def byBit3 (w : W64) (v vi : W64 → Except DecodeError Instr) : Except DecodeError Instr :=
  if w.getLsbD 51 then vi w else v w

/-- FN 1 selects the second of two instructions that share an OP; FN 0 the first; any other FN is unlisted. -/
def byFn (w : W64) (a b : W64 → Except DecodeError Instr) : Except DecodeError Instr :=
  if fnOf w = 0 then a w else if fnOf w = 1 then b w else .error .illFormed

/-- The opcode map (R122): the instruction that OP `op` makes of the word's other fields. -/
def parseOp (op : Nat) (w : W64) : Except DecodeError Instr :=
  match op with
  | 0x01 => fmtS w .sadd
  | 0x02 => fmtS w .ssub
  | 0x03 => fmtS w .smul
  | 0x04 => fmtS w .smulhi
  | 0x05 => fmtS w .sdiv
  | 0x06 => fmtS w .sand
  | 0x07 => fmtS w .sor
  | 0x08 => fmtS w .sxor
  | 0x09 => fmtS w .sshl
  | 0x0A => fmtS w .sshr
  | 0x0B => fmtS w .srot
  | 0x0C => fmtS w .scmp
  | 0x0D => fmtS w .ssel
  | 0x0E => fmtS w .smov
  | 0x0F => fmtS w .smin
  | 0x10 => fmtS w .smax
  | 0x11 => fmtS w .sbfx
  | 0x12 => fmtS w .sbfi
  | 0x13 => fmtS w .sbitc
  | 0x14 => fmtS w .sadd64
  | 0x15 => fmtS w .ssub64
  | 0x16 => fmtS w .smad64
  | 0x17 => fmtS w .sli
  | 0x20 => byBit3 w (fun w => fmtV w .vadd) (fun w => fmtVI w .vaddImm)
  | 0x21 => byBit3 w (fun w => fmtV w .vsub) (fun w => fmtVI w .vsubImm)
  | 0x22 => byBit3 w (fun w => fmtV w .vmul) (fun w => fmtVI w .vmulImm)
  | 0x23 => byBit3 w (fun w => fmtV w .vmulhi) (fun w => fmtVI w .vmulhiImm)
  | 0x24 => fmtV w .vmad
  | 0x25 => byBit3 w (fun w => fmtV w .vand) (fun w => fmtVI w .vandImm)
  | 0x26 => byBit3 w (fun w => fmtV w .vor) (fun w => fmtVI w .vorImm)
  | 0x27 => byBit3 w (fun w => fmtV w .vxor) (fun w => fmtVI w .vxorImm)
  | 0x28 => byBit3 w (fun w => fmtV w .vshl) (fun w => fmtVI w .vshlImm)
  | 0x29 => byBit3 w (fun w => fmtV w .vshr) (fun w => fmtVI w .vshrImm)
  | 0x2A => byBit3 w (fun w => fmtV w .vrot) (fun w => fmtVI w .vrotImm)
  | 0x2B => byBit3 w (fun w => fmtV w .vmin) (fun w => fmtVI w .vminImm)
  | 0x2C => byBit3 w (fun w => fmtV w .vmax) (fun w => fmtVI w .vmaxImm)
  | 0x2D => byBit3 w (fun w => fmtV w .vcmp) (fun w => fmtVI w .vcmpImm)
  | 0x2E => fmtV w .vsel
  | 0x2F => fmtV w .vmov
  | 0x30 => fmtV w .vbfx
  | 0x31 => fmtV w .vbfi
  | 0x32 => fmtV w .vbitc
  | 0x33 => fmtV w .vsad
  | 0x34 => byBit3 w (fun w => fmtV w .vadd64) (fun w => fmtVI w .vadd64Imm)
  | 0x35 => fmtV w .vmad64
  | 0x36 => fmtV w .vdot4
  | 0x37 => fmtV w .vperm
  | 0x40 => byBit3 w (fun w => fmtV w .fadd) (fun w => fmtVI w .faddImm)
  | 0x41 => byBit3 w (fun w => fmtV w .fsub) (fun w => fmtVI w .fsubImm)
  | 0x42 => byBit3 w (fun w => fmtV w .fmul) (fun w => fmtVI w .fmulImm)
  | 0x43 => fmtV w .ffma
  | 0x44 => byBit3 w (fun w => fmtV w .fmin) (fun w => fmtVI w .fminImm)
  | 0x45 => byBit3 w (fun w => fmtV w .fmax) (fun w => fmtVI w .fmaxImm)
  | 0x46 => byBit3 w (fun w => fmtV w .fcmp) (fun w => fmtVI w .fcmpImm)
  | 0x47 => fmtV w .frnd
  | 0x48 => fmtV w .ffract
  | 0x49 => fmtV w .fclass
  | 0x4A => byBit3 w (fun w => fmtV w .fldexp) (fun w => fmtVI w .fldexpImm)
  | 0x4B => fmtV w .ffrexp
  | 0x4C => fmtV w .hadd2
  | 0x4D => fmtV w .hmul2
  | 0x4E => fmtV w .hfma2
  | 0x4F => fmtV w .hdot2
  | 0x50 => fmtV w .cvtfi
  | 0x51 => fmtV w .cvtif
  | 0x52 => fmtV w .cvtff
  | 0x53 => fmtV w .cvtpk
  | 0x54 => fmtV w .cvtunp
  | 0x55 => fmtV w .cvtqb
  | 0x58 => fmtV w .frcp
  | 0x59 => fmtV w .frsq
  | 0x5A => fmtV w .fsqrt
  | 0x5B => fmtV w .fexp2
  | 0x5C => fmtV w .flog2
  | 0x5D => fmtV w .fsin
  | 0x5E => fmtV w .fcos
  | 0x5F => fmtV w .ftanh
  | 0x60 => fmtV w .lbcast
  | 0x61 => fmtV w .lshuf
  | 0x62 => fmtV w .lrot
  | 0x63 => fmtV w .lquad
  | 0x64 => fmtV w .lballot
  | 0x65 => fmtV w .lred
  | 0x66 => fmtV w .lscan
  | 0x67 => fmtV w .lmatch
  | 0x68 => fmtV w .lhist
  | 0x69 => fmtV w .lmerge
  | 0x6A => fmtV w .lfirst
  | 0x6B => fmtV w .lderiv
  | 0x6C => fmtV w .lcount
  | 0x70 => fmtC w .bra
  | 0x71 => fmtC w .brs
  | 0x72 => fmtC w .brm
  | 0x73 => fmtC w .brx
  | 0x74 => fmtC w .mark
  | 0x75 => fmtC w .join
  | 0x76 => fmtC w .call
  | 0x77 => fmtC w .ret
  | 0x78 => fmtC w .loop
  | 0x79 => fmtC w .waitc
  | 0x7A => fmtC w .yield
  | 0x7B => fmtC w .halt
  | 0x7C => fmtC w .trap
  | 0x7D => fmtC w .nop
  | 0x7E => fmtC w .mask
  | 0x7F => fmtC w .sleep
  | 0x80 => fmtM w .ldl
  | 0x81 => fmtM w .stl
  | 0x82 => fmtM w .lds
  | 0x83 => fmtM w .sts
  | 0x84 => fmtM w .ldc
  | 0x85 => fmtM w .stc
  | 0x86 => fmtM w .ldp
  | 0x87 => fmtM w .stp
  | 0x88 => fmtM w .ldg
  | 0x89 => fmtM w .stg
  | 0x8A => fmtM w .sld
  | 0x8B => fmtM w .sst
  | 0x8C => fmtM w .ldq
  | 0x8D => fmtM w .pfg
  | 0x8E => fmtM w .tld
  | 0x8F => fmtM w .tst
  | 0x90 => fmtM w .clean
  | 0x91 => fmtM w .inval
  | 0x92 => fmtM w .discard
  | 0x93 => fmtM w .atom
  | 0x94 => fmtM w .acas
  | 0x95 => fmtM w .red
  | 0x96 => fmtM w .fence
  | 0xA0 => fmtX w .mfmt
  | 0xA1 => fmtX w .mzero
  | 0xA2 => fmtX w .mma
  | 0xA3 => fmtX w .mmat
  | 0xA4 => fmtX w .mld
  | 0xA5 => fmtX w .mst
  | 0xA6 => fmtX w .mcvt
  | 0xA7 => fmtX w .mset
  | 0xA8 => fmtX w .madd
  | 0xA9 => fmtX w .mloop
  | 0xAA => fmtX w .mbr
  | 0xAB => fmtX w .marr
  | 0xAC => fmtX w .mwait
  | 0xAD => fmtX w .mhalt
  | 0xB0 => fmtE w .chdef
  | 0xB1 => fmtE w .chres
  | 0xB2 => fmtE w .chcom
  | 0xB3 => fmtE w .chacq
  | 0xB4 => fmtE w .chrel
  | 0xB5 => fmtE w .chqry
  | 0xB6 => fmtE w .cpyin
  | 0xB7 => fmtE w .cpyout
  | 0xB8 => fmtE w .cpyg
  | 0xB9 => fmtE w .idxwalk
  | 0xBA => fmtE w .gather
  | 0xBB => fmtE w .publish
  | 0xBC => byFn w (fun w => fmtE w .ecplDep) (fun w => fmtE w .ecplArr)
  | 0xC0 => fmtQ w .sqpush
  | 0xC1 => fmtQ w .sqpop
  | 0xC2 => fmtQ w .barr
  | 0xC3 => fmtQ w .barw
  | 0xC4 => fmtQ w .barrw
  | 0xC5 => fmtQ w .phbeg
  | 0xC6 => fmtQ w .phwait
  | 0xC7 => fmtQ w .launch
  | 0xC8 => fmtQ w .rsub
  | 0xD0 => fmtT w .tsdep
  | 0xD1 => fmtT w .tscpy
  | 0xD2 => fmtT w .tstake
  | 0xD3 => fmtT w .tscpyn
  | 0xD4 => fmtT w .tstaken
  | 0xD5 => fmtT w .tscan
  | 0xD8 => byFn w (fun w => fmtGT w .gtcfgSend) (fun w => fmtGT w .gtcfgDest)
  | 0xD9 => fmtGT w .gtrsv
  | 0xDA => fmtGT w .gtsend
  | 0xDB => byFn w (fun w => fmtGT w .gtdrain) (fun w => fmtGT w .gtdrainPhase)
  | 0xDC => fmtGT w .gtrel
  | 0xE0 => fmtG w .rbox
  | 0xE1 => fmtG w .rtri
  | 0xE2 => fmtG w .rpush
  | 0xE3 => fmtG w .rpop
  | 0xE4 => fmtG w .rhit
  | 0xE5 => fmtG w .afetch
  | 0xE6 => fmtG w .abary
  | 0xE7 => fmtG w .ainterp
  | 0xE8 => fmtG w .visld
  | 0xE9 => fmtG w .smpl
  | 0xEA => fmtG w .smpll
  | 0xEB => fmtG w .pxout
  | 0xEC => fmtG w .tret
  | 0xF0 => fmtY w .srd
  | 0xF1 => fmtY w .swr
  | 0xF2 => fmtY w .eret
  | 0xF3 => fmtY w .brk
  | 0xF4 => fmtY w .cntrd
  | 0xF5 => fmtY w .cntcfg
  | 0xF6 => fmtY w .time
  | 0xF7 => fmtY w .isync
  | _ => .error .unassignedOpcode
/-- The instruction whose fields the word holds, before its own field rules. -/
def parseWord (w : W64) : Except DecodeError Instr := parseOp (opOf w) w

/-- The instruction of a word, or why it is none. -/
def decodeWord (w : W64) : Except DecodeError Instr :=
  match parseWord w with
  | .ok i => if i.wf then .ok i else .error .illFormed
  | .error e => .error e

/-- Eight bytes, the lowest address first, as a word (R2, R96). -/
def wordOfBytes (b : List Byte) : W64 :=
  BitVec.ofNat 64 (b.foldr (fun x acc => x.toNat + 256 * acc) 0)

/-- Decode the next word of a list of bytes: the instruction and the rest. -/
def decodeBytes (b : List Byte) : Except DecodeError (Instr × List Byte) :=
  if b.length < 8 then .error .truncated
  else
    match decodeWord (wordOfBytes (b.take 8)) with
    | .ok i => .ok (i, b.drop 8)
    | .error e => .error e

/-- The eight bytes of a word, the lowest address first. -/
def bytesOfWord (w : W64) : List Byte := (List.range 8).map (fun k => w.extractLsb' (8 * k) 8)

/-- What the decoder reads from the bits `w` of a table row (64-bit words: bit 0 is bit 0 of the word). -/
def decodeTableWord (nbits w : Nat) : Option Instr :=
  if nbits ≤ 64 then
    match decodeBytes (bytesOfWord (BitVec.ofNat 64 w)) with
    | .ok (i, _) => some i
    | .error _ => none
  else none

/-! ### The encoder, from the same tables -/

/-- OP, LA and FN (R104). -/
def encHead (op : BitVec 8) (la fn : BitVec 4) : BitVec 16 := op ++ la ++ fn

def encS (op : BitVec 8) (f : FmtS) : W64 :=
  match f.b with
  | .reg r => encHead op f.la f.fn ++ f.sd ++ f.sa ++ (0 : BitVec 1) ++ r ++ (0 : BitVec 26)
  | .imm v => encHead op f.la f.fn ++ f.sd ++ f.sa ++ (1 : BitVec 1) ++ (0 : BitVec 1) ++ v

def encV (op : BitVec 8) (f : FmtV) : W64 :=
  encHead op f.la f.fn ++ f.vd ++ f.a ++ f.b ++ f.c ++ BitVec.ofBool f.negA ++ BitVec.ofBool f.negB ++ BitVec.ofBool f.abs
    ++ BitVec.ofBool f.sat ++ f.rnd ++ (0 : BitVec 7)

def encVI (op : BitVec 8) (f : FmtVI) : W64 := encHead op f.la f.fn ++ f.vd ++ f.a ++ f.imm

def encM (op : BitVec 8) (f : FmtM) : W64 :=
  encHead op f.la f.fn ++ f.data ++ f.base ++ f.voff ++ f.sem ++ f.scope ++ f.imm

def encX (op : BitVec 8) (f : FmtX) : W64 :=
  encHead op f.la f.fn ++ f.tile ++ f.cha ++ f.chb ++ f.fb ++ f.accf ++ f.ksteps ++ f.flags ++ f.imm

def encE (op : BitVec 8) (f : FmtE) : W64 :=
  encHead op f.la f.fn ++ f.ch ++ f.ch2 ++ f.desc ++ f.cnt ++ f.flags ++ f.imm

def encC (op : BitVec 8) (f : FmtC) : W64 := encHead op f.la f.fn ++ f.cond ++ f.ca ++ f.cx ++ f.off

def encQ (op : BitVec 8) (f : FmtQ) : W64 :=
  encHead op f.la f.fn ++ f.qd ++ f.id ++ f.lvl ++ f.sa ++ f.sb ++ (0 : BitVec 4) ++ f.imm

def encT (op : BitVec 8) (f : FmtT) : W64 :=
  encHead op f.la f.fn ++ f.space ++ f.blk ++ f.sd ++ (0 : BitVec 3) ++ f.flags ++ f.imm

def encGT (op : BitVec 8) (f : FmtGT) : W64 :=
  encHead op f.la f.fn ++ f.chain ++ f.tile ++ f.row0 ++ f.nrow ++ f.mreg ++ (0 : BitVec 6) ++ f.imm

def encG (op : BitVec 8) (f : FmtG) : W64 :=
  encHead op f.la f.fn ++ f.vd ++ f.va ++ f.vb ++ f.sa ++ f.idx ++ f.imm

def encY (op : BitVec 8) (f : FmtY) : W64 :=
  encHead op f.la f.fn ++ f.sd ++ f.sa ++ (0 : BitVec 2) ++ f.sreg ++ f.imm

/-- The word of an instruction; a step of the device has none. -/
def encode (i : Instr) : Option W64 :=
  match i with
  | .sadd f => some (encS 0x01 f)
  | .ssub f => some (encS 0x02 f)
  | .smul f => some (encS 0x03 f)
  | .smulhi f => some (encS 0x04 f)
  | .sdiv f => some (encS 0x05 f)
  | .sand f => some (encS 0x06 f)
  | .sor f => some (encS 0x07 f)
  | .sxor f => some (encS 0x08 f)
  | .sshl f => some (encS 0x09 f)
  | .sshr f => some (encS 0x0A f)
  | .srot f => some (encS 0x0B f)
  | .scmp f => some (encS 0x0C f)
  | .ssel f => some (encS 0x0D f)
  | .smov f => some (encS 0x0E f)
  | .smin f => some (encS 0x0F f)
  | .smax f => some (encS 0x10 f)
  | .sbfx f => some (encS 0x11 f)
  | .sbfi f => some (encS 0x12 f)
  | .sbitc f => some (encS 0x13 f)
  | .sadd64 f => some (encS 0x14 f)
  | .ssub64 f => some (encS 0x15 f)
  | .smad64 f => some (encS 0x16 f)
  | .sli f => some (encS 0x17 f)
  | .vadd f => some (encV 0x20 f)
  | .vaddImm f => some (encVI 0x20 f)
  | .vsub f => some (encV 0x21 f)
  | .vsubImm f => some (encVI 0x21 f)
  | .vmul f => some (encV 0x22 f)
  | .vmulImm f => some (encVI 0x22 f)
  | .vmulhi f => some (encV 0x23 f)
  | .vmulhiImm f => some (encVI 0x23 f)
  | .vmad f => some (encV 0x24 f)
  | .vand f => some (encV 0x25 f)
  | .vandImm f => some (encVI 0x25 f)
  | .vor f => some (encV 0x26 f)
  | .vorImm f => some (encVI 0x26 f)
  | .vxor f => some (encV 0x27 f)
  | .vxorImm f => some (encVI 0x27 f)
  | .vshl f => some (encV 0x28 f)
  | .vshlImm f => some (encVI 0x28 f)
  | .vshr f => some (encV 0x29 f)
  | .vshrImm f => some (encVI 0x29 f)
  | .vrot f => some (encV 0x2A f)
  | .vrotImm f => some (encVI 0x2A f)
  | .vmin f => some (encV 0x2B f)
  | .vminImm f => some (encVI 0x2B f)
  | .vmax f => some (encV 0x2C f)
  | .vmaxImm f => some (encVI 0x2C f)
  | .vcmp f => some (encV 0x2D f)
  | .vcmpImm f => some (encVI 0x2D f)
  | .vsel f => some (encV 0x2E f)
  | .vmov f => some (encV 0x2F f)
  | .vbfx f => some (encV 0x30 f)
  | .vbfi f => some (encV 0x31 f)
  | .vbitc f => some (encV 0x32 f)
  | .vsad f => some (encV 0x33 f)
  | .vadd64 f => some (encV 0x34 f)
  | .vadd64Imm f => some (encVI 0x34 f)
  | .vmad64 f => some (encV 0x35 f)
  | .vdot4 f => some (encV 0x36 f)
  | .vperm f => some (encV 0x37 f)
  | .fadd f => some (encV 0x40 f)
  | .faddImm f => some (encVI 0x40 f)
  | .fsub f => some (encV 0x41 f)
  | .fsubImm f => some (encVI 0x41 f)
  | .fmul f => some (encV 0x42 f)
  | .fmulImm f => some (encVI 0x42 f)
  | .ffma f => some (encV 0x43 f)
  | .fmin f => some (encV 0x44 f)
  | .fminImm f => some (encVI 0x44 f)
  | .fmax f => some (encV 0x45 f)
  | .fmaxImm f => some (encVI 0x45 f)
  | .fcmp f => some (encV 0x46 f)
  | .fcmpImm f => some (encVI 0x46 f)
  | .frnd f => some (encV 0x47 f)
  | .ffract f => some (encV 0x48 f)
  | .fclass f => some (encV 0x49 f)
  | .fldexp f => some (encV 0x4A f)
  | .fldexpImm f => some (encVI 0x4A f)
  | .ffrexp f => some (encV 0x4B f)
  | .hadd2 f => some (encV 0x4C f)
  | .hmul2 f => some (encV 0x4D f)
  | .hfma2 f => some (encV 0x4E f)
  | .hdot2 f => some (encV 0x4F f)
  | .cvtfi f => some (encV 0x50 f)
  | .cvtif f => some (encV 0x51 f)
  | .cvtff f => some (encV 0x52 f)
  | .cvtpk f => some (encV 0x53 f)
  | .cvtunp f => some (encV 0x54 f)
  | .cvtqb f => some (encV 0x55 f)
  | .frcp f => some (encV 0x58 f)
  | .frsq f => some (encV 0x59 f)
  | .fsqrt f => some (encV 0x5A f)
  | .fexp2 f => some (encV 0x5B f)
  | .flog2 f => some (encV 0x5C f)
  | .fsin f => some (encV 0x5D f)
  | .fcos f => some (encV 0x5E f)
  | .ftanh f => some (encV 0x5F f)
  | .lbcast f => some (encV 0x60 f)
  | .lshuf f => some (encV 0x61 f)
  | .lrot f => some (encV 0x62 f)
  | .lquad f => some (encV 0x63 f)
  | .lballot f => some (encV 0x64 f)
  | .lred f => some (encV 0x65 f)
  | .lscan f => some (encV 0x66 f)
  | .lmatch f => some (encV 0x67 f)
  | .lhist f => some (encV 0x68 f)
  | .lmerge f => some (encV 0x69 f)
  | .lfirst f => some (encV 0x6A f)
  | .lderiv f => some (encV 0x6B f)
  | .lcount f => some (encV 0x6C f)
  | .bra f => some (encC 0x70 f)
  | .brs f => some (encC 0x71 f)
  | .brm f => some (encC 0x72 f)
  | .brx f => some (encC 0x73 f)
  | .mark f => some (encC 0x74 f)
  | .join f => some (encC 0x75 f)
  | .call f => some (encC 0x76 f)
  | .ret f => some (encC 0x77 f)
  | .loop f => some (encC 0x78 f)
  | .waitc f => some (encC 0x79 f)
  | .yield f => some (encC 0x7A f)
  | .halt f => some (encC 0x7B f)
  | .trap f => some (encC 0x7C f)
  | .nop f => some (encC 0x7D f)
  | .mask f => some (encC 0x7E f)
  | .sleep f => some (encC 0x7F f)
  | .ldl f => some (encM 0x80 f)
  | .stl f => some (encM 0x81 f)
  | .lds f => some (encM 0x82 f)
  | .sts f => some (encM 0x83 f)
  | .ldc f => some (encM 0x84 f)
  | .stc f => some (encM 0x85 f)
  | .ldp f => some (encM 0x86 f)
  | .stp f => some (encM 0x87 f)
  | .ldg f => some (encM 0x88 f)
  | .stg f => some (encM 0x89 f)
  | .sld f => some (encM 0x8A f)
  | .sst f => some (encM 0x8B f)
  | .ldq f => some (encM 0x8C f)
  | .pfg f => some (encM 0x8D f)
  | .tld f => some (encM 0x8E f)
  | .tst f => some (encM 0x8F f)
  | .clean f => some (encM 0x90 f)
  | .inval f => some (encM 0x91 f)
  | .discard f => some (encM 0x92 f)
  | .atom f => some (encM 0x93 f)
  | .acas f => some (encM 0x94 f)
  | .red f => some (encM 0x95 f)
  | .fence f => some (encM 0x96 f)
  | .mfmt f => some (encX 0xA0 f)
  | .mzero f => some (encX 0xA1 f)
  | .mma f => some (encX 0xA2 f)
  | .mmat f => some (encX 0xA3 f)
  | .mld f => some (encX 0xA4 f)
  | .mst f => some (encX 0xA5 f)
  | .mcvt f => some (encX 0xA6 f)
  | .mset f => some (encX 0xA7 f)
  | .madd f => some (encX 0xA8 f)
  | .mloop f => some (encX 0xA9 f)
  | .mbr f => some (encX 0xAA f)
  | .marr f => some (encX 0xAB f)
  | .mwait f => some (encX 0xAC f)
  | .mhalt f => some (encX 0xAD f)
  | .chdef f => some (encE 0xB0 f)
  | .chres f => some (encE 0xB1 f)
  | .chcom f => some (encE 0xB2 f)
  | .chacq f => some (encE 0xB3 f)
  | .chrel f => some (encE 0xB4 f)
  | .chqry f => some (encE 0xB5 f)
  | .cpyin f => some (encE 0xB6 f)
  | .cpyout f => some (encE 0xB7 f)
  | .cpyg f => some (encE 0xB8 f)
  | .idxwalk f => some (encE 0xB9 f)
  | .gather f => some (encE 0xBA f)
  | .publish f => some (encE 0xBB f)
  | .ecplDep f => some (encE 0xBC f)
  | .ecplArr f => some (encE 0xBC f)
  | .sqpush f => some (encQ 0xC0 f)
  | .sqpop f => some (encQ 0xC1 f)
  | .barr f => some (encQ 0xC2 f)
  | .barw f => some (encQ 0xC3 f)
  | .barrw f => some (encQ 0xC4 f)
  | .phbeg f => some (encQ 0xC5 f)
  | .phwait f => some (encQ 0xC6 f)
  | .launch f => some (encQ 0xC7 f)
  | .rsub f => some (encQ 0xC8 f)
  | .tsdep f => some (encT 0xD0 f)
  | .tscpy f => some (encT 0xD1 f)
  | .tstake f => some (encT 0xD2 f)
  | .tscpyn f => some (encT 0xD3 f)
  | .tstaken f => some (encT 0xD4 f)
  | .tscan f => some (encT 0xD5 f)
  | .gtcfgSend f => some (encGT 0xD8 f)
  | .gtcfgDest f => some (encGT 0xD8 f)
  | .gtrsv f => some (encGT 0xD9 f)
  | .gtsend f => some (encGT 0xDA f)
  | .gtdrain f => some (encGT 0xDB f)
  | .gtdrainPhase f => some (encGT 0xDB f)
  | .gtrel f => some (encGT 0xDC f)
  | .rbox f => some (encG 0xE0 f)
  | .rtri f => some (encG 0xE1 f)
  | .rpush f => some (encG 0xE2 f)
  | .rpop f => some (encG 0xE3 f)
  | .rhit f => some (encG 0xE4 f)
  | .afetch f => some (encG 0xE5 f)
  | .abary f => some (encG 0xE6 f)
  | .ainterp f => some (encG 0xE7 f)
  | .visld f => some (encG 0xE8 f)
  | .smpl f => some (encG 0xE9 f)
  | .smpll f => some (encG 0xEA f)
  | .pxout f => some (encG 0xEB f)
  | .tret f => some (encG 0xEC f)
  | .srd f => some (encY 0xF0 f)
  | .swr f => some (encY 0xF1 f)
  | .eret f => some (encY 0xF2 f)
  | .brk f => some (encY 0xF3 f)
  | .cntrd f => some (encY 0xF4 f)
  | .cntcfg f => some (encY 0xF5 f)
  | .time f => some (encY 0xF6 f)
  | .isync f => some (encY 0xF7 f)
  | .clauseFetch _ => none
  | .clauseWaitMet _ => none
  | .promotion _ => none
  | .requestReturn _ _ => none
  | .pendingFaultDelivery _ => none
  | .poisonStop _ => none
  | .launchQueueRefetch _ => none
  | .launchRecordRead _ => none
  | .launchActivation _ => none
  | .placementDecision => none
  | .launchCompletion _ => none
  | .vacateWaveStop _ => none
  | .teamSave _ => none
  | .vacateComplete => none
  | .droopEvent _ => none
  | .droopWindowClose _ => none
  | .tempSample _ _ => none
  | .overtemp _ => none
  | .timeSliceExpiry => none
  | .watchdog _ => none
  | .sleepWake _ => none
  | .channelWaitServed _ => none
  | .streamQueueWaitServed _ => none
  | .phaseComplete _ => none
  | .phaseWatchRegister _ => none
  | .engineFire _ => none
  | .engineComplete _ => none
  | .publishFlip _ => none
  | .launchEnqueue _ => none
  | .mmaFire _ => none
  | .arrayWordEnd _ => none
  | .transferWordBegin _ => none
  | .transferWordEnd _ => none
  | .mfmtComplete _ _ => none
  | .quarterGated _ _ => none
  | .quarterAwake _ _ => none
  | .gtCheckAnswer _ => none
  | .gtFlitArrival _ => none
  | .gtFlitAck _ => none
  | .tupleDeposit _ => none
  | .tupleMatch _ => none
  | .tupleRetry _ => none
  | .tupleCancel _ => none
  | .tupleTimeout _ => none
  | .tsFull _ => none
  | .homeWrite _ _ _ => none
  | .homeRead _ _ _ => none
  | .atomicAtHome _ _ _ => none
  | .redContribution _ _ _ => none
  | .gddr7Fill _ => none
  | .columnEviction _ _ => none
  | .peerProbe _ _ => none
  | .redirectedRead _ _ => none
  | .pageWalk _ _ => none
  | .hostWrite _ _ => none
  | .hostRead _ _ => none
  | .hostInvalidate _ _ => none
  | .rasterBatch _ => none
  | .frameClose _ => none
  | .classifyTile _ _ => none
  | .binWaveClose _ _ => none
  | .binflushTimeout _ _ => none
  | .tlbinv => none
  | .tlbinvComplete => none
  | .vacate => none
  | .tsclear => none
  | .wresume _ _ _ => none
  | .wend _ _ _ => none
  | .dbghalt _ _ _ => none
  | .dresume _ _ _ => none
  | .ctxid _ => none
  | .tslice _ => none
  | .trapq _ _ => none
  | .launchQueueEnable _ _ => none
  | .bufferEntryWrite _ _ _ => none
  | .materialEntryWrite _ _ _ => none
  | .registerWrite _ _ => none
  | .debugRead _ _ _ => none
  | .powerOnReset => none
  | .bootStage _ => none
  | .bootok _ => none
  | .bootokTimeout => none
  | .fullretry => none
  | .bootstat => none
  | .attest _ => none
  | .ckpt _ => none
  | .ckptComplete => none
  | .restore _ => none
  | .supplySet _ _ => none
  | .columnPowerState _ _ => none
  | .debugSessionRelease _ => none
  | .debugRegisterWrite _ _ _ => none
  | .clusterCacheEviction _ _ => none
  | .l2Eviction _ => none
  | .versionWordRetry _ _ => none
  | .counterMirrorRefresh _ => none
  | .firmwareUpdate _ _ => none
  | .lostCxlLink => none
  | .linkFailure _ _ => none

/-- A word of an instruction: one of the opcode map, not a step of the device. -/
def Instr.isWord (i : Instr) : Bool := (encode i).isSome

/-! ### Clause headers (R97) and what a clause admits (R100, R103, R122, R124) -/

def hdrMarker (h : W64) : Nat := (bits h 56 8).toNat
/-- COUNT: number of words minus one. -/
def hdrCount (h : W64) : Nat := (bits h 52 4).toNat
def hdrClass (h : W64) : Nat := (bits h 48 4).toNat
def hdrW0Path (h : W64) : Nat := (bits h 45 3).toNat
def hdrW0Thr (h : W64) : Nat := (bits h 39 6).toNat
def hdrW1Path (h : W64) : Nat := (bits h 36 3).toNat
def hdrW1Thr (h : W64) : Nat := (bits h 30 6).toNat
def hdrW0En (h : W64) : Bool := h.getLsbD 29
def hdrW1En (h : W64) : Bool := h.getLsbD 28
def hdrStable (h : W64) : Bool := h.getLsbD 27
def hdrYield (h : W64) : Bool := h.getLsbD 26

/-- An assigned opcode (R122). -/
def opAssigned (op : Nat) : Bool :=
  (decide (0x01 ≤ op) && decide (op ≤ 0x17)) || (decide (0x20 ≤ op) && decide (op ≤ 0x37))
    || (decide (0x40 ≤ op) && decide (op ≤ 0x55)) || (decide (0x58 ≤ op) && decide (op ≤ 0x6C))
    || (decide (0x70 ≤ op) && decide (op ≤ 0x96)) || (decide (0xA0 ≤ op) && decide (op ≤ 0xAD))
    || (decide (0xB0 ≤ op) && decide (op ≤ 0xBC)) || (decide (0xC0 ≤ op) && decide (op ≤ 0xC8))
    || (decide (0xD0 ≤ op) && decide (op ≤ 0xD5)) || (decide (0xD8 ≤ op) && decide (op ≤ 0xDC))
    || (decide (0xE0 ≤ op) && decide (op ≤ 0xEC)) || (decide (0xF0 ≤ op) && decide (op ≤ 0xF7))

/-- A word that may stand in any class except MSEQ (R100): scalar ALU and control. -/
def opAnyClass (op : Nat) : Bool :=
  (decide (0x01 ≤ op) && decide (op ≤ 0x17)) || (decide (0x70 ≤ op) && decide (op ≤ 0x7F))

/-- The classes of R100; an unassigned opcode belongs to none and is admitted. -/
def opAdmitted (cls op : Nat) : Bool :=
  !opAssigned op ||
  match cls with
  | 0 => decide (op ≤ 0x7F)
  | 1 => opAnyClass op || (decide (0x80 ≤ op) && decide (op ≤ 0x96))
  | 2 => opAnyClass op || (decide (0xB0 ≤ op) && decide (op ≤ 0xC8)) || (decide (0xD0 ≤ op) && decide (op ≤ 0xD5))
  | 3 => opAnyClass op || (decide (0xE0 ≤ op) && decide (op ≤ 0xEC))
  | 4 => (decide (0xA0 ≤ op) && decide (op ≤ 0xAD)) || (decide (0xD8 ≤ op) && decide (op ≤ 0xDC))
  | 5 => opAnyClass op || (decide (0xF0 ≤ op) && decide (op ≤ 0xF7))
  | _ => false

/-- The front ends of R122: 0 vec waves, 1 adr waves, 2 the sequencer. -/
inductive FrontEnd where
  | vec | adr | seq
  deriving DecidableEq, Repr

def opFrontEnd (fe : FrontEnd) (op : Nat) : Bool :=
  !opAssigned op ||
  match fe with
  | .seq => (decide (0xA0 ≤ op) && decide (op ≤ 0xAD)) || (decide (0xD8 ≤ op) && decide (op ≤ 0xDC))
  | .vec => !((decide (0xA0 ≤ op) && decide (op ≤ 0xAD)) || (decide (0xD8 ≤ op) && decide (op ≤ 0xDC)))
  | .adr =>
    !((decide (0xA0 ≤ op) && decide (op ≤ 0xAD)) || (decide (0xD8 ≤ op) && decide (op ≤ 0xDC))
      || (decide (0x40 ≤ op) && decide (op ≤ 0x6C) && !decide (op ∈ [0x64, 0x6A, 0x6C]))
      || (decide (0xE0 ≤ op) && decide (op ≤ 0xEC)) || decide (op = 0xF4) || decide (op = 0xF5))

/-- A word that may stand only last in its clause (R100, R122). -/
def opLast (cls op : Nat) : Bool :=
  if cls = 4 then decide (op ∈ [0xA9, 0xAA, 0xAD])
  else (decide (0x70 ≤ op) && decide (op ≤ 0x7F) && !decide (op ∈ [0x74, 0x7D, 0x7E])) || decide (op = 0xF2)
    || decide (op = 0xF3)

/-- The stable class (R124). -/
def opStable (op : Nat) : Bool :=
  (decide (0x01 ≤ op) && decide (op ≤ 0x7F)) || (decide (0x80 ≤ op) && decide (op ≤ 0x96) && !decide (op = 0x92))
    || (decide (0xE0 ≤ op) && decide (op ≤ 0xEC))

/-- A failed clause check: whether it is STABLE_VIOLATION, the sub-code, and the offending word's index, `none` for the
header. -/
structure ClauseFault where
  stable : Bool
  sub : Nat
  word : Option Nat
  deriving DecidableEq, Repr

/-- The header's own checks, in the order of R103. -/
def checkHeader (fe : FrontEnd) (h : W64) : Option ClauseFault :=
  if hdrMarker h ≠ 0xFF then some ⟨false, 1, none⟩
  else if 6 ≤ hdrClass h then some ⟨false, 2, none⟩
  else if bits h 0 26 ≠ 0 then some ⟨false, 3, none⟩
  else if (decide (hdrClass h = 4)) != (decide (fe = .seq)) then some ⟨false, 4, none⟩
  else none

/-- The lowest index whose word breaks `ok`, counting from `n`. -/
def firstBad (ok : Nat → Nat → Bool) : Nat → List W64 → Option Nat
  | _, [] => none
  | n, w :: r => if ok n (opOf w) then firstBad ok (n + 1) r else some n

/-- The words' checks, in the order of R103: row by row, and within a row the lowest index. -/
def checkWords (fe : FrontEnd) (h : W64) (ws : List W64) : Option ClauseFault :=
  match firstBad (fun _ op => opAdmitted (hdrClass h) op) 0 ws with
  | some n => some ⟨false, 5, some n⟩
  | none =>
    match firstBad (fun _ op => opFrontEnd fe op) 0 ws with
    | some n => some ⟨false, 6, some n⟩
    | none =>
      match firstBad (fun n op => !(opAssigned op && opLast (hdrClass h) op) || decide (n = hdrCount h)) 0 ws with
      | some n => some ⟨false, 7, some n⟩
      | none =>
        if hdrStable h then
          match firstBad (fun _ op => !opAssigned op || opStable op) 0 ws with
          | some n => some ⟨true, 1, some n⟩
          | none => none
        else none

/-- All checks of R103 on a fetched clause. -/
def checkClause (fe : FrontEnd) (h : W64) (ws : List W64) : Option ClauseFault :=
  match checkHeader fe h with
  | some f => some f
  | none => checkWords fe h ws

end Sys2Proof
end

