-- ==== Sys2Proof/Machine/Num.lean ====
section
/-! DEFINITION. Numbers (R67–R94): integers and their ranges, floating-point formats, exact values, one rounding, and the
conversions between formats. Every result is the exact rational value rounded once. -/

namespace Sys2Proof.Machine

/-! ### Integers (R71, R94) -/

/-- The value of a 32-bit word as s32. -/
def sval (x : W32) : Int := x.toInt
/-- The value of a 32-bit word as z32. -/
def zval (x : W32) : Nat := x.toNat
/-- An integer modulo 2^32. -/
def wrap32 (x : Int) : W32 := BitVec.ofInt 32 x
/-- An integer modulo 2^64. -/
def wrap64 (x : Int) : W64 := BitVec.ofInt 64 x
/-- The nearest value of [lo, hi]. -/
def clampInt (lo hi x : Int) : Int := if x < lo then lo else if hi < x then hi else x
/-- The nearest s32 or z32 value (R88). -/
def satInt (signed : Bool) (x : Int) : W32 :=
  if signed then wrap32 (clampInt (-2147483648) 2147483647 x) else wrap32 (clampInt 0 4294967295 x)

/-- The number of set bits among the low `n`. -/
def popc : Nat → Nat → Nat
  | 0, _ => 0
  | n + 1, x => x % 2 + popc n (x / 2)
/-- Zero bits above the highest set bit of the low `n`. -/
def clzN : Nat → Nat → Nat
  | 0, _ => 0
  | n + 1, x => if x / 2 ^ n % 2 = 1 then 0 else 1 + clzN n x
/-- Zero bits below the lowest set bit, at most `n`. -/
def ctzN : Nat → Nat → Nat
  | 0, _ => 0
  | n + 1, x => if x % 2 = 1 then 0 else 1 + ctzN n (x / 2)

/-! ### Rounding directions and formats (R67, R83) -/

/-- The four roundings of R83, in the coding of WSTAT.MODE. -/
inductive RMode where
  | rne | rz | rd | ru
  deriving DecidableEq, Repr

def rmode (n : Nat) : RMode :=
  match n % 4 with
  | 0 => .rne | 1 => .rz | 2 => .rd | _ => .ru

/-- A storage format (R67): exponent bits, fraction bits, bias, and whether it has infinities; E4M3 has one NaN code and no
infinity. -/
structure Fmt where
  ebits : Nat
  fbits : Nat
  bias : Nat
  inf : Bool
  e4m3 : Bool
  deriving DecidableEq, Repr

def Fmt.f32 : Fmt := ⟨8, 23, 127, true, false⟩
def Fmt.f16 : Fmt := ⟨5, 10, 15, true, false⟩
def Fmt.bf16 : Fmt := ⟨8, 7, 127, true, false⟩
def Fmt.fE4M3 : Fmt := ⟨4, 3, 7, false, true⟩
def Fmt.fE5M2 : Fmt := ⟨5, 2, 15, true, false⟩
def Fmt.fE3M2 : Fmt := ⟨3, 2, 3, false, false⟩
def Fmt.fE2M3 : Fmt := ⟨2, 3, 1, false, false⟩
def Fmt.fE2M1 : Fmt := ⟨2, 1, 1, false, false⟩

/-- Width of a code in bits. -/
def Fmt.width (f : Fmt) : Nat := 1 + f.ebits + f.fbits
/-- The canonical NaN (R69); a format without a NaN converts it to +0 (R81). -/
def Fmt.nan (f : Fmt) : Nat :=
  if f.e4m3 then 0x7F
  else if f.inf then (2 ^ f.ebits - 1) * 2 ^ f.fbits + 2 ^ (f.fbits - 1)
  else 0
/-- The code of the largest finite magnitude. -/
def Fmt.maxCode (f : Fmt) : Nat :=
  if f.e4m3 then 0x7E
  else if f.inf then (2 ^ f.ebits - 1) * 2 ^ f.fbits - 1
  else 2 ^ (f.ebits + f.fbits) - 1
/-- The code of infinity. -/
def Fmt.infCode (f : Fmt) : Nat := (2 ^ f.ebits - 1) * 2 ^ f.fbits
/-- The sign bit of a code. -/
def Fmt.signBit (f : Fmt) (neg : Bool) : Nat := if neg then 2 ^ (f.ebits + f.fbits) else 0

/-- An exact floating-point value: NaN, an infinity, or a sign and a magnitude. -/
inductive FVal where
  | nan
  | inf (neg : Bool)
  | fin (neg : Bool) (mag : Rat)
  deriving DecidableEq, Repr

/-- 2 to an integer power. -/
def pow2 (e : Int) : Rat :=
  match e with
  | .ofNat n => mkRat ((2 ^ n : Nat) : Int) 1
  | .negSucc n => mkRat 1 (2 ^ (n + 1))

/-- A sign and an exact value as a rational. -/
def signed (neg : Bool) (m : Rat) : Rat := if neg then -m else m

/-- The value of a code (R67). -/
def Fmt.value (f : Fmt) (code : Nat) : FVal :=
  let neg := decide (code / 2 ^ (f.ebits + f.fbits) % 2 = 1)
  let e := code / 2 ^ f.fbits % 2 ^ f.ebits
  let m := code % 2 ^ f.fbits
  if f.inf && decide (e = 2 ^ f.ebits - 1) then (if m = 0 then .inf neg else .nan)
  else if f.e4m3 && decide (e = 15) && decide (m = 7) then .nan
  else if e = 0 then .fin neg (mkRat (m : Int) 1 * pow2 (1 - f.bias - f.fbits))
  else .fin neg (mkRat ((2 ^ f.fbits + m : Nat) : Int) 1 * pow2 ((e : Int) - f.bias - f.fbits))

/-- floor(log2 (n / d)) for positive n and d. -/
def ilog2 (n d : Nat) : Int :=
  let e : Int := (Nat.log2 n : Int) - (Nat.log2 d : Int)
  let ge := match e with
    | .ofNat k => decide (d * 2 ^ k ≤ n)
    | .negSucc k => decide (d ≤ n * 2 ^ (k + 1))
  if ge then e else e - 1

/-- n / d scaled by 2^(-q), as a numerator and denominator. -/
def scaleDown (n d : Nat) (q : Int) : Nat × Nat :=
  match q with
  | .ofNat k => (n, d * 2 ^ k)
  | .negSucc k => (n * 2 ^ (k + 1), d)

/-- Whether a magnitude of floor `m` with remainder `r` of `d` rounds up, for a value of sign `neg`. -/
def roundsUp (mode : RMode) (neg : Bool) (m r d : Nat) : Bool :=
  match mode with
  | .rne => decide (d < 2 * r) || (decide (2 * r = d) && decide (m % 2 = 1))
  | .rz => false
  | .rd => neg && decide (r ≠ 0)
  | .ru => !neg && decide (r ≠ 0)

/-- The nearest integer of a nonnegative rational of sign `neg`, under a rounding. -/
def roundNat (mode : RMode) (neg : Bool) (q : Rat) : Nat :=
  let n := q.num.toNat
  let m := n / q.den
  if roundsUp mode neg m (n % q.den) q.den then m + 1 else m

/-- A rational rounded to an integer (R82, R83). -/
def roundInt (mode : RMode) (q : Rat) : Int :=
  if q < 0 then -((roundNat mode true (-q) : Nat) : Int) else ((roundNat mode false q : Nat) : Int)

/-- The result of a rounding: the code and whether the value lay beyond the largest finite one (R81). -/
structure Rounded where
  code : Nat
  ovf : Bool
  deriving DecidableEq, Repr

/-- Round a sign and magnitude to a format's code (R81, R83, R84). -/
def Fmt.roundMag (f : Fmt) (mode : RMode) (neg : Bool) (q : Rat) : Rounded :=
  if q = 0 then ⟨f.signBit neg, false⟩
  else
    let n := q.num.toNat
    let e := ilog2 n q.den
    let emin : Int := 1 - f.bias
    let e' := if e < emin then emin else e
    let (a, b) := scaleDown n q.den (e' - f.fbits)
    let m := a / b
    let m' := if roundsUp mode neg m (a % b) b then m + 1 else m
    -- the code grows by one ulp across a binade, so the sum is right when m' = 2^(f+1) too
    let code := ((e' - emin).toNat) * 2 ^ f.fbits + m'
    if code ≤ f.maxCode then ⟨f.signBit neg + code, false⟩
    else if f.inf then
      let toInf := match mode with
        | .rne => true | .rz => false | .rd => neg | .ru => !neg
      ⟨f.signBit neg + (if toInf then f.infCode else f.maxCode), true⟩
    else ⟨f.signBit neg + f.maxCode, true⟩

/-- Convert an exact value to a format's code; `over` says that SATURATE counts when the format has no infinity (R81). -/
def Fmt.convert (f : Fmt) (mode : RMode) (v : FVal) : Rounded :=
  match v with
  | .nan => ⟨f.nan, !f.inf && !f.e4m3⟩
  | .inf neg => if f.inf then ⟨f.signBit neg + f.infCode, false⟩ else ⟨f.signBit neg + f.maxCode, true⟩
  | .fin neg q => f.roundMag mode neg q

/-- Whether SATURATE counts for a conversion into this format (R81). -/
def Fmt.saturates (f : Fmt) (r : Rounded) : Bool := !f.inf && r.ovf

/-- Whether a code is subnormal. -/
def Fmt.subnormal (f : Fmt) (code : Nat) : Bool :=
  decide (code / 2 ^ f.fbits % 2 ^ f.ebits = 0) && decide (code % 2 ^ f.fbits ≠ 0)

/-- A subnormal code becomes the zero of its sign (R86). -/
def Fmt.flush (f : Fmt) (on : Bool) (code : Nat) : Nat :=
  if on && f.subnormal code then code / 2 ^ (f.ebits + f.fbits) * 2 ^ (f.ebits + f.fbits) else code

/-! ### Exact arithmetic -/

def FVal.neg : FVal → FVal
  | .nan => .nan
  | .inf s => .inf (!s)
  | .fin s q => .fin (!s) q
def FVal.abs : FVal → FVal
  | .nan => .nan
  | .inf _ => .inf false
  | .fin _ q => .fin false q
def FVal.isZero : FVal → Bool
  | .fin _ q => decide (q = 0)
  | _ => false

/-- The exact product; `zeroInf` is FPCOMPAT.LZEROINF (R89, R169). -/
def FVal.mul (zeroInf : Bool) (a b : FVal) : FVal :=
  match a, b with
  | .nan, _ => .nan
  | _, .nan => .nan
  | .inf s, .inf t => .inf (s != t)
  | .inf s, .fin t q => if q = 0 then (if zeroInf then .fin (s != t) 0 else .nan) else .inf (s != t)
  | .fin s q, .inf t => if q = 0 then (if zeroInf then .fin (s != t) 0 else .nan) else .inf (s != t)
  | .fin s p, .fin t q => .fin (s != t) (p * q)

/-- Whether every term is a zero of sign `s`, or any term has sign `s`. -/
def FVal.sign : FVal → Bool
  | .nan => false
  | .inf s => s
  | .fin s _ => s

/-- The exact sum of terms under the zero-sign rule of R79 and R84: NaN, an infinity, or an exact value; a zero sum of terms
of one sign keeps it, and otherwise is -0 under RD and +0 under the other roundings. -/
def FVal.sum (mode : RMode) (ts : List FVal) : FVal :=
  let nan := ts.any (fun t => decide (t = .nan))
  let pinf := ts.any (fun t => decide (t = .inf false))
  let ninf := ts.any (fun t => decide (t = .inf true))
  if nan || (pinf && ninf) then .nan
  else if pinf then .inf false
  else if ninf then .inf true
  else
    let x := ts.foldl (fun acc t => match t with | .fin s q => acc + signed s q | _ => acc) (0 : Rat)
    if x = 0 then
      .fin (if ts.all FVal.sign then true else if ts.any FVal.sign then decide (mode = .rd) else false) 0
    else if x < 0 then .fin true (-x)
    else .fin false x

/-- A floating-point comparison of values that are not NaN: a rational order with infinities at the ends. -/
def FVal.lt (a b : FVal) : Bool :=
  match a, b with
  | .nan, _ => false
  | _, .nan => false
  | .inf s, .inf t => s && !t
  | .inf s, .fin _ _ => s
  | .fin _ _, .inf t => !t
  | .fin s p, .fin t q => decide (signed s p < signed t q)
/-- Equality of values: -0 equals +0, NaN equals nothing. -/
def FVal.eqv (a b : FVal) : Bool :=
  match a, b with
  | .nan, _ => false
  | _, .nan => false
  | .inf s, .inf t => decide (s = t)
  | .fin s p, .fin t q => decide (signed s p = signed t q)
  | _, _ => false
def FVal.isNan (a : FVal) : Bool := decide (a = .nan)

/-- minimumNumber (R87): -0 below +0, a NaN gives the other operand. -/
def FVal.minNum (a b : FVal) : FVal :=
  if a.isNan then b else if b.isNan then a
  else if a.lt b then a else if b.lt a then b else if a.sign then a else b
/-- maximumNumber (R87). -/
def FVal.maxNum (a b : FVal) : FVal :=
  if a.isNan then b else if b.isNan then a
  else if a.lt b then b else if b.lt a then a else if a.sign then b else a
/-- Legacy FMIN and FMAX (R90). -/
def FVal.minLegacy (a b : FVal) : FVal := if a.lt b then a else b
def FVal.maxLegacy (a b : FVal) : FVal := if b.lt a then a else b

/-! ### FP32 shorthands -/

def f32Val (x : W32) : FVal := Fmt.f32.value x.toNat
def f32Round (mode : RMode) (v : FVal) : W32 := BitVec.ofNat 32 (Fmt.f32.convert mode v).code
def f32Nan : W32 := 0x7FC00000
/-- The value of the low `w` bits of a code of format f. -/
def f32OfInt (mode : RMode) (x : Int) : W32 :=
  f32Round mode (if x < 0 then .fin true (mkRat (-x) 1) else .fin false (mkRat x 1))

/-- An exact rational as a value; `zneg` is the sign of a zero. -/
def FVal.ofRat (zneg : Bool) (x : Rat) : FVal := if x = 0 then .fin zneg 0 else if x < 0 then .fin true (-x) else .fin false x

/-- The rational of a finite value, 0 otherwise. -/
def FVal.toRat : FVal → Rat
  | .fin s q => signed s q
  | _ => 0
def FVal.isFin : FVal → Bool
  | .fin _ _ => true
  | _ => false

/-- A value rounded to an integer; an infinity is beyond every type, NaN is 0 (R82). -/
def FVal.toInt (m : RMode) : FVal → Int
  | .nan => 0
  | .inf s => if s then -(2 ^ 40) else 2 ^ 40
  | .fin s q => roundInt m (signed s q)

/-- Clamp a result to [+0.0, 1.0], NaN and -0 becoming +0 (R88). -/
def sat01 (x : W32) : W32 :=
  match f32Val x with
  | .nan => 0
  | .inf s => if s then 0 else 0x3F800000
  | .fin s q => if s then 0 else if 1 < q then 0x3F800000 else x

/-- The same on a 16-bit format. -/
def Fmt.sat01 (f : Fmt) (x : Nat) : Nat :=
  match f.value x with
  | .nan => 0
  | .inf s => if s then 0 else f.bias * 2 ^ f.fbits
  | .fin s q => if s then 0 else if 1 < q then f.bias * 2 ^ f.fbits else x

/-! ### Atomic and reduction arithmetic (R325, R326) -/

/-- Whether an operation of R325 works on 8 bytes. -/
def atomBytes (fn : Nat) : Nat := if fn < 12 then 4 else 8

/-- The value an atomic or reduction leaves (R325, R326): `old` in memory, `x` the operand. -/
def atomOp (fn old x : Nat) : Nat :=
  let a := BitVec.ofNat 32 old
  let b := BitVec.ofNat 32 x
  match fn with
  | 0 => x
  | 1 => (a + b).toNat
  | 2 => (a &&& b).toNat
  | 3 => (a ||| b).toNat
  | 4 => (a ^^^ b).toNat
  | 5 => if sval a ≤ sval b then a.toNat else b.toNat
  | 6 => if sval b ≤ sval a then a.toNat else b.toNat
  | 7 => if zval a ≤ zval b then a.toNat else b.toNat
  | 8 => if zval b ≤ zval a then a.toNat else b.toNat
  | 9 => (f32Round .rne (FVal.sum .rne [f32Val a, f32Val b])).toNat
  | 10 => (f32Round .rne (FVal.minNum (f32Val a) (f32Val b))).toNat
  | 11 => (f32Round .rne (FVal.maxNum (f32Val a) (f32Val b))).toNat
  | 12 => x
  | 13 => (old + x) % 2 ^ 64
  | _ => old

/-! ### Roots and reciprocals (R92) -/

/-- floor(sqrt n) for n < 4^k, digit by digit. -/
def isqrtAux : Nat → Nat → Nat → Nat
  | 0, _, r => r
  | k + 1, n, r => isqrtAux k n (if (r + 2 ^ k) * (r + 2 ^ k) ≤ n then r + 2 ^ k else r)

/-- √(n / d) rounded once to FP32: the root is taken at 80 bits below the leading bit with a sticky bit, which no rounding of
24 bits can tell from the exact root. -/
def sqrtRat (q : Rat) : Rat :=
  let n := q.num.toNat
  let d := q.den
  -- scale n/d by an even power of two so that the integer root has at least 40 bits
  let k := 128 + Nat.log2 d
  let m := n * 4 ^ k / d
  let r := isqrtAux (Nat.log2 m / 2 + 1) m 0
  let sticky := if r * r * d = n * 4 ^ k then 0 else 1
  mkRat ((2 * r + sticky : Nat) : Int) (2 * 2 ^ k)

/-- FRCP (R92). -/
def frcpVal : FVal → FVal
  | .nan => .nan
  | .inf s => .fin s 0
  | .fin s q => if q = 0 then .inf s else .fin s (1 / q)
/-- FSQRT (R92). -/
def fsqrtVal : FVal → FVal
  | .nan => .nan
  | .inf s => if s then .nan else .inf false
  | .fin s q => if q = 0 then .fin s 0 else if s then .nan else .fin false (sqrtRat q)
/-- FRSQ (R92). -/
def frsqVal : FVal → FVal
  | .nan => .nan
  | .inf s => if s then .nan else .fin false 0
  | .fin s q => if q = 0 then .inf s else if s then .nan else .fin false (sqrtRat (1 / q))

end Sys2Proof.Machine
end

