-- ==== Sys2Proof/Machine/Tbl.lean ====
section
/-! DEFINITION. Tables keyed by a number, and byte memories, as lists in one canonical form: keys strictly rising, and in a
memory no entry equal to what an unlisted address reads as. -/

namespace Sys2Proof.Machine

/-- A table: rows of a key and a value, the keys strictly rising. -/
abbrev Tbl (α : Type) := List (Nat × α)

/-- The row of key `n`. -/
def Tbl.get? {α : Type} : Tbl α → Nat → Option α
  | [], _ => none
  | (k, v) :: r, n => if n = k then some v else Tbl.get? r n

/-- The row of key `n`, or `d`. -/
def Tbl.getD {α : Type} (t : Tbl α) (n : Nat) (d : α) : α := (Tbl.get? t n).getD d

/-- Write the row of key `n`. -/
def Tbl.set {α : Type} : Tbl α → Nat → α → Tbl α
  | [], n, x => [(n, x)]
  | (k, v) :: r, n, x =>
    if n = k then (k, x) :: r
    else if n < k then (n, x) :: (k, v) :: r
    else (k, v) :: Tbl.set r n x

/-- Remove the row of key `n`. -/
def Tbl.del {α : Type} (t : Tbl α) (n : Nat) : Tbl α := List.filter (fun r => !(r.1 == n)) t

/-- Write the row of key `n`, keeping no row that equals the default `d`. -/
def Tbl.put {α : Type} [DecidableEq α] (t : Tbl α) (n : Nat) (d x : α) : Tbl α :=
  if x = d then Tbl.del t n else Tbl.set t n x

/-- Change the row of key `n`, if there is one. -/
def Tbl.upd {α : Type} (t : Tbl α) (n : Nat) (f : α → α) : Tbl α :=
  match Tbl.get? t n with
  | some v => Tbl.set t n (f v)
  | none => t

/-- The values of a table, in key order. -/
def Tbl.vals {α : Type} (t : Tbl α) : List α := List.map Prod.snd t

/-- The keys of a table, rising. -/
def Tbl.keys {α : Type} (t : Tbl α) : List Nat := List.map Prod.fst t

/-- Keys strictly rising. -/
def Tbl.wf {α : Type} : Tbl α → Bool
  | [] => true
  | [_] => true
  | (a, _) :: (b, y) :: r => decide (a < b) && Tbl.wf ((b, y) :: r)

/-- A byte memory: the listed cells; every unlisted address reads as zero. For GDDR 7 and
the host window, whose contents the spec leaves undefined (R275), that zero is a DESIGN CHOICE, log entry 1. -/
abbrev Mem := List Host.Cell

/-- The byte at address `a`. -/
def Mem.read (m : Mem) (a : Nat) : Byte := Tbl.getD m a 0

/-- Write the byte at address `a`, keeping the canonical form. -/
def Mem.write (m : Mem) (a : Nat) (b : Byte) : Mem := Tbl.put m a 0 b

/-- The canonical form: addresses strictly rising and no cell equal to the value of an unlisted address. -/
def Memory.wf (m : Mem) : Bool := Tbl.wf m && List.all m (fun c => !(c.2 == 0))

/-- The `n` bytes from `a`, little-endian (R2). -/
def Mem.readN (m : Mem) (a : Nat) : Nat → Nat
  | 0 => 0
  | n + 1 => (Mem.read m a).toNat + 256 * Mem.readN m (a + 1) n

/-- Write the low `n` bytes of `x` from `a`, little-endian (R2). -/
def Mem.writeN (m : Mem) (a : Nat) : Nat → Nat → Mem
  | 0, _ => m
  | n + 1, x => Mem.writeN (Mem.write m a (BitVec.ofNat 8 x)) (a + 1) n (x / 256)

/-- Drop every cell of [a, a + n), so that it reads as an unlisted address does. -/
def Mem.clear (m : Mem) (a n : Nat) : Mem := List.filter (fun c => decide (c.1 < a) || decide (a + n ≤ c.1)) m

/-- The cells of [a, a + n), with `a` moved to `b`. -/
def Mem.slice (m : Mem) (a n b : Nat) : Mem :=
  List.map (fun c => (c.1 - a + b, c.2)) (List.filter (fun c => decide (a ≤ c.1) && decide (c.1 < a + n)) m)

/-- Write every cell of `src` into `m`. -/
def Mem.overlay (m src : Mem) : Mem := List.foldl (fun acc c => Mem.write acc c.1 c.2) m src

end Sys2Proof.Machine
end

