-- ==== Sys2Proof/Machine/State.lean ====
section
/-! DEFINITION. The state of the Cororord S4 as plain data: everything the spec gives the machine, grouped by its owner
(R28), the outcomes of a step that are no next state, and the state after reset. -/

namespace Sys2Proof.Machine

/-! ### The wave (R28: core front ends) -/

/-- A divergence-stack entry (R142): KIND, WOFF and the three mask words. -/
structure DEntry where
  pending : Bool
  woff : BitVec 31
  mask : BitVec 96
  deriving DecidableEq, Repr

/-- A trap's record before delivery, or the pending-fault record of a wave (R442): cause, ESTAT and EADDR. -/
structure PendRec where
  cause : W32
  estat : W32
  eaddr : W64
  deriving DecidableEq, Repr

/-- A pending or attached ECPL action (R372): its form, STREAM, the tuple-space address, the captured tuple and the address
of the ECPL word. -/
structure Ecpl where
  arr : Bool
  stream : Bool
  space : W64
  tuple : List W64
  word : W64
  deriving DecidableEq, Repr

/-- The memory levels of R265. -/
inductive Level where
  | lp | spad | csm | chip | glob
  deriving DecidableEq, Repr

/-- The page kinds of R278, in the coding of R417. -/
inductive PKind where
  | rc | so | uo | ts
  deriving DecidableEq, Repr

/-- What one access does to its bytes (R313, R325–R328). -/
inductive AccOp where
  | read
  | write (data : Nat)
  | atom (fn x : Nat)
  | cas (cmp new : Nat)
  | red (fn x : Nat)
  | discard
  | prefetch
  deriving DecidableEq, Repr

/-- One single-copy access of a request: the lane it serves, its virtual address and its translated place (a physical
address, or an offset in its level's store), its size, and once performed its result. `got` counts the bytes of a wide access in
the host window that have performed, which are single-copy atomic only eight at a time (R312). -/
structure Access where
  lane : Nat
  va : W64
  pa : Nat
  n : Nat
  lvl : Level
  kind : PKind
  buf : Bool
  op : AccOp
  done : Bool
  res : Nat
  bad : Bool
  got : Nat
  deriving DecidableEq, Repr

/-- A material-bin entry (R381), with the ck it was appended and the place its 32 bytes take in the chip scratchpad (R273). -/
structure BinEntry where
  word : W32
  cover : W32
  id : W64
  depth : W32
  tile : Nat
  kind : Nat
  pos : Nat
  when : Nat
  place : Nat
  deriving DecidableEq, Repr

/-- What a request writes at its single return (R106, R311), the bin records an RHIT has still to place (R251), or the tile
references a TRET releases (R260). A command's or tuple word's `val` is the value on its way to SD, once it is known. -/
inductive Ret where
  | none
  | vload (data size fmt : Nat) (mask : BitVec 96)
  | sload (data size fmt : Nat)
  | queue (sq entry size fmt : Nat) (mask : BitVec 96)
  | tile (data t : Nat) (ver : Bool)
  | atomRet (data size : Nat) (mask : BitVec 96)
  | regs (vs : List (Nat × Nat × W32)) (ss : List (Nat × W32))
  | cmd (c : Nat) (sd : Option Nat) (val : Option W32)
  | tuple (r sd : Nat) (dep : Bool) (val : Option Nat)
  | rhit (hits : List (Nat × BinEntry))
  | tret (tiles : List Nat)
  deriving DecidableEq, Repr

/-- A request in flight on one of the eight paths (R143, R462). `phase` is the step of a TLD or TST protocol (R321, R322),
`sent` says that the release actions of R316 are done; `clob` names the
destinations a later word has written since (R135): scalar r as r, lane l of vector n as 128 + 128n + l. -/
structure Req where
  id : Nat
  path : Path
  word : W64
  sem : Nat
  scope : Nat
  sent : Bool
  accs : List Access
  ret : Ret
  phase : Nat
  clob : List Nat
  deriving DecidableEq, Repr

/-- An open lookahead window of an L instruction without a path (R106): the words left, its opcode, and the withheld writes. -/
structure Win where
  left : Nat
  op : Nat
  vs : List (Nat × Nat × W32)
  ss : List (Nat × W32)
  deriving DecidableEq, Repr

/-- Why a wave or stream does not issue its next word (R53): nothing, or a blocked word with the platform time it blocked at
(R451), how far the word has gone, and the ck a sleeper wakes at. -/
inductive Block where
  | none
  | word (since stage wake : Nat)
  deriving DecidableEq, Repr

/-- A fetched clause (R97): its header's address, the header and its words. -/
structure Clause where
  addr : W64
  header : W64
  words : List W64
  deriving DecidableEq, Repr

/-- An arrival whose release is still completing (R467): level, barrier number. -/
structure Arrival where
  lvl : Nat
  id : Nat
  after : Nat
  deriving DecidableEq, Repr

/-- The state of one wave (R131–R143, R242, R330, R372, R442), with the pipe the Escapement has given it (R28, R50). `badW` are the
64-bit words of its register files and lane-private slices that hold an uncorrectable error (R291), `stands` the address of a
cancelled BARRW whose arrival has been made and that replays next, `standsTrap` the same while a trap's handler runs (R470), `replay`
the cancelled TST words that replay on resume (R455), and `ahead` the writes the words of a path word's window are to make, while that
word issues (R106). -/
structure Wave where
  team : Nat
  role : Nat
  idx : Nat
  pos : Nat
  adr : Bool
  beats : Nat
  vregs : Nat
  lanePriv : Nat
  slots : Nat
  codeBase : W64
  s : Tbl W32
  v : Tbl W32
  lp : Mem
  wstat : W32
  fpcompat : W32
  epc : W64
  ecause : W32
  eaddr : W64
  estat : W32
  dstack : List DEntry
  pc : W64
  clause : Option Clause
  widx : Nat
  waitMet : Bool
  eretWord : Option Nat
  block : Block
  reqs : List Req
  wins : List Win
  ahead : List Win
  acktag : W32
  hmask : BitVec 96
  hit : BitVec 96
  tref : Tbl Nat
  ecpl : Option Ecpl
  pend : Option PendRec
  poison : Option (W64 × BitVec 96)
  treq : Option Nat
  arrivals : List Arrival
  trapPending : Bool
  stopped : Bool
  dbg : Bool
  dbgReq : Bool
  halted : Bool
  yielded : Bool
  readySince : Option Nat
  promoted : Option Nat
  pipe : Option Nat
  badW : List Nat
  stands : Option W64
  standsTrap : Option W64
  replay : List Req
  born : Nat
  nonce : Nat
  deriving DecidableEq, Repr

/-! ### The matrix sequencer stream (R144, R212) -/

/-- A word of the array or transfer queue with the values it captured at issue (R216): the format record, the m registers
and format blocks it uses, its band values, its tile tags and its engine requests. `rowBad` are the 64-bit words of a row-buffer slab in error (R291). -/
structure QWord where
  id : Nat
  op : Nat
  pc : W64
  f : FmtX
  offs : Nat
  fbA : Nat
  fbB : Nat
  scale : Nat
  row0 : Nat
  nrow : Nat
  chain : Nat
  begun : Bool
  sent : Nat
  start : Nat
  accs : List Access
  ecpls : List (Agent × Ecpl)
  rowBad : List Nat
  deriving DecidableEq, Repr

/-- The power state of one quarter of the array (R212, R233). -/
inductive Quarter where
  | gated
  | waking (since : Nat)
  | awake (idleSince : Nat)
  deriving DecidableEq, Repr

/-- The state of one sequencer stream. -/
structure Stream where
  team : Nat
  /-- pending ECPL actions of waves that have ended (R372) -/
  ecpls : List (Agent × Ecpl)
  pos : Nat
  mpc : W64
  clause : Option Clause
  widx : Nat
  m : Tbl W32
  fb : Mem
  tags : Tbl Nat
  mfault : W32
  /-- the page-table level of the fault in `mfault` (R418, R437) -/
  mlevel : Nat
  mfpc : W64
  mfaddr : W64
  arrayQ : List QWord
  xferQ : List QWord
  quarters : List Quarter
  mfmt : List (Nat × Nat)
  block : Block
  check : Option Nat
  /-- a POISON stop to come (R236): the consuming word, and the failing address -/
  poisonPc : Option (W64 × W64)
  poisonStop : Bool
  stopped : Bool
  reported : Bool
  halted : Bool
  dbg : Bool
  dbgReq : Bool
  stopReq : Bool
  nonce : Nat
  deriving DecidableEq, Repr

/-! ### Teams: channels, stream queues, barriers, phases (R355, R373, R465, R472) -/

/-- A channel (R355) with its per-element bits, its queue of commands and words (R363) and its waiting words (R360). -/
structure Chan where
  defd : Bool
  base : Nat
  esize : Nat
  cap : Nat
  back : Nat
  row0 : Nat
  res : W32
  com : W32
  acq : W32
  rel : W32
  committed : List Nat
  released : List Nat
  queue : List Nat
  resWait : List Agent
  acqWait : List Agent
  deriving DecidableEq, Repr

/-- An entry of a stream queue (R373): READY and 96 lanes. -/
structure SQEntry where
  ready : Bool
  data : Tbl W32
  deriving DecidableEq, Repr

/-- A stream queue: head number (3 bits) and the entries in order, and the words waiting in issue order (R374). -/
structure SQueue where
  head : Nat
  entries : List SQEntry
  pushWait : List Agent
  popWait : List Agent
  deriving DecidableEq, Repr

/-- One member's part of a barrier (R465). `ever` says that it has arrived in some phase. -/
structure BMember where
  last : Nat
  early : Bool
  ever : Bool
  deriving DecidableEq, Repr

/-- A barrier (R465). -/
structure Barrier where
  gen : Nat
  arrived : Nat
  members : Nat
  mem : Tbl BMember
  deriving DecidableEq, Repr

/-- The phase state of a team (R472), with the watched bag and tag and whether the watch has registered. -/
structure Phase where
  phn : Nat
  opened : Bool
  ever : Bool
  lvl : Nat
  broken : Bool
  cgt : Tbl Nat
  cen : Tbl Nat
  cts : Nat
  watch : Option (Nat × W64)
  watchSeen : Bool
  deriving DecidableEq, Repr

/-- A team (R32): its place, its identity, and the state it owns. -/
structure Team where
  launch : Nat
  launchId : W32
  index : Nat
  paired : Bool
  core : Nat
  excl : Bool
  group : Nat
  groupTeams : Nat
  groupPos : Nat
  coop : Bool
  poisonTrap : Bool
  shrate : W32
  spad : Nat
  p : Nat
  mseq : Bool
  idem : Bool
  idemLost : Bool
  bin : Bool
  waves : Nat
  ended : List Nat
  ch : Tbl Chan
  sq : Tbl SQueue
  tb : Tbl Barrier
  phase : Phase
  deriving DecidableEq, Repr

/-- A cluster group held exclusively: cb0–cb7 (R465), and whether a team of it that has ended lost idempotence (R61). -/
structure Group where
  launch : Nat
  teams : List Nat
  lost : Bool
  cb : Tbl Barrier
  deriving DecidableEq, Repr

/-! ### Launches (R35–R38, R434) -/

/-- A role entry (R37). -/
structure Role where
  entry : W64
  kind : Nat
  width : Nat
  vregs : Nat
  lanePriv : Nat
  waves : Nat
  deriving DecidableEq, Repr

/-- A launch record as read (R35, R36). -/
structure LaunchRec where
  ctl : W64
  launchId : W32
  fpcompat : W32
  gridX : Nat
  gridY : Nat
  gridZ : Nat
  spad : Nat
  preds : List W32
  args : W64
  codeBase : W64
  shrate : W32
  roles : List Role
  deriving DecidableEq, Repr

/-- STATE of a launch entry (R434). -/
inductive LState where
  | waiting | active | standing
  deriving DecidableEq, Repr

/-- A bin wave waiting to become a team (R384): its records by lane and its tiles in order of first use. -/
structure BinLane where
  lane : Nat
  kind : Nat
  word : W32
  cover : W32
  id : W64
  depth : W32
  tile : Nat
  status : Nat
  deriving DecidableEq, Repr

/-- A pending team of a standing launch (R385). -/
structure BinTeam where
  index : Nat
  die : Nat
  material : Nat
  lanes : List BinLane
  tiles : List Nat
  deriving DecidableEq, Repr

/-- An entry of the launch dependency table (R434) with the record it was made from; `bound` are the entries its predecessor ids
named when it was read (R57), `ctx` the context it belongs to, `child` says that a LAUNCH word enqueued it (R59). -/
structure Launch where
  record : LaunchRec
  bound : List Nat
  child : Bool
  ctx : Nat
  recAddr : Nat
  queue : Option Nat
  seqno : Nat
  material : Option Nat
  prio : Nat
  eprio : Nat
  state : LState
  total : Nat
  nextTeam : Nat
  again : List Nat
  saved : List Nat
  resident : List Nat
  lastCore : Nat
  placedAny : Bool
  ending : Bool
  fault : Option Nat
  binNext : Nat
  binTeams : List BinTeam
  gb : Tbl Barrier
  deriving DecidableEq, Repr

/-- A launch queue (R375, R524), with the TAIL and HEAD its read-only copy of the control line holds (R376), and the sequence
numbers of its unread records that LAUNCH words enqueued (R59). -/
structure LQueue where
  enable : Bool
  base : W64
  size : W64
  ctl : W64
  fresh : Bool
  tail : Nat
  next : Nat
  head : Nat
  started : Bool
  kids : List Nat
  deriving DecidableEq, Repr

/-! ### Engine commands (R362–R372), tuple requests (R392–R401), flits (R405) -/

/-- A copy descriptor (R366). -/
structure CopyDesc where
  addr : W64
  addr2 : W64
  step : Nat
  step2 : Nat
  stride : Nat
  stride2 : Nat
  rowBytes : Nat
  rows : Nat
  srowBytes : Nat
  srows : Nat
  conv : Nat
  fmtc : Nat
  deriving DecidableEq, Repr

/-- An index descriptor (R369). -/
structure IndexDesc where
  ptr : W64
  idx : W64
  count : Nat
  form : Nat
  parts : Nat
  part : Nat
  deriving DecidableEq, Repr

/-- A gather descriptor (R370). -/
structure GatherDesc where
  table : W64
  stride : Nat
  rowBytes : Nat
  deriving DecidableEq, Repr

/-- What an engine command does, with the values its word captured at issue. -/
inductive CmdKind where
  | cpyin (d : CopyDesc) (layb : Bool)
  | cpyout (d : CopyDesc)
  | cpyg (d : CopyDesc)
  | idxwalk (d : IndexDesc)
  | gather (d : GatherDesc) (keep col : Bool)
  | publish (buf : Nat) (waits : List Nat)
  | launch (queue : Nat) (va : W64) (sd : Nat)
  | rsub (desc : W64) (die : Nat) (close : Bool)
  deriving DecidableEq, Repr

/-- How far a command has gone; `acting` waits for the tuple its completion action deposits. -/
inductive CmdStage where
  | issued | fired | acting | done
  deriving DecidableEq, Repr

/-- A page an engine command translated when it fired: its virtual and its physical number. -/
structure EngPage where
  vp : Nat
  pp : Nat
  deriving DecidableEq, Repr

/-- An engine, LAUNCH or RSUB command of the EN path (R363). `tags` counts the engine tags of its core that a fired command's requests
in flight hold (R26); `progress` counts an IDXWALK's elements, the steps of a LAUNCH or RSUB, and 1 for a PUBLISH whose buffer entry was
made invalid after it issued (R424). -/
structure Cmd where
  agent : Agent
  team : Nat
  word : W64
  kind : CmdKind
  ch : Nat
  ch2 : Nat
  n : Nat
  stage : CmdStage
  outFirst : Nat
  inFirst : Nat
  rpages : List EngPage
  wpages : List EngPage
  progress : Nat
  tags : Nat
  ecpl : Option Ecpl
  fault : Option PendRec
  seqno : Option Nat
  recBytes : List Byte
  ctx : Nat
  deriving DecidableEq, Repr

/-- The tuple operations of R393, and a deposit made by ECPL.dep for a command. -/
inductive TOp where
  | dep | cpy | take | cpyn | taken
  | ecpl (cmd : Nat)
  deriving DecidableEq, Repr

/-- Where a tuple request stands (R394–R401). -/
inductive TStage where
  | travelling
  | waitingFull (since : Nat)
  | parked (stamp : Nat)
  | retrying (since : Nat)
  | ended (status : Nat)
  deriving DecidableEq, Repr

/-- A tuple request: the word's operands and its stage. `data` is the tuple or the match block's 16 words; `got` the tuple
received, `gotBad` whether a field of it was uncorrectable (R402), `fault` the cause of a refused deposit (R401). -/
structure TReq where
  op : TOp
  agent : Agent
  team : Nat
  word : W64
  bag : Nat
  uniq : Bool
  slice : Nat
  data : List W64
  block : Nat
  sd : Nat
  deadline : Option Nat
  timedOut : Bool
  cancelled : Bool
  stage : TStage
  got : List W64
  gotBad : Bool
  fault : Nat
  deriving DecidableEq, Repr

/-- A stored tuple (R392). -/
structure Tuple where
  bag : Nat
  uniq : Bool
  stamp : Nat
  words : List W64
  bad : List Nat
  deriving DecidableEq, Repr

/-- STATE of a chain entry (R406). -/
inductive ChainState where
  | free | send | dest | reserved | broken
  deriving DecidableEq, Repr

/-- A contribution held in a receive entry (R412). -/
structure Held where
  row : Nat
  src : Nat
  dropped : Bool
  data : List W32
  deriving DecidableEq, Repr

/-- A chain entry (R406) with the contributions it holds and, for a sender, its team and refusals; `stamp` places its latest
GTRSV among the stream's words (R409). -/
structure Chain where
  state : ChainState
  sorted : Bool
  dst : Nat
  dstTeam : Nat
  tile : Nat
  row0 : Nat
  nrow : Nat
  count : Nat
  remain : Nat
  entries : Nat
  held : List Held
  arrived : Tbl Nat
  refusedGone : Bool
  refusedOther : Bool
  poisoned : Bool
  stamp : Nat
  deriving DecidableEq, Repr

/-- A flit on the Gear train (R405) with the destination team its chain resolved, or the acknowledgement of one, which finds its
sender, a team and a position, where it stands or is saved (R410, R414). -/
structure Flit where
  chain : Nat
  sender : Nat
  spos : Nat
  team : Nat
  src : Nat
  dst : Nat
  row : Nat
  data : List W32
  bad : Bool
  answer : Option Nat
  deriving DecidableEq, Repr

/-! ### Core, cluster, slice, die -/

/-- A programmable counter (R484): configuration, value, and the launch and team recorded at CNTCFG. -/
structure Pmc where
  cfg : W32
  val : W64
  launch : Nat
  team : Nat
  deriving DecidableEq, Repr

/-- A core's own state beside its agents' (R49, R406, R485, R306): its instruction cache by line (R449), and the row its row buffer
took last (R284). -/
structure Core where
  chains : Tbl Chain
  temp : Int
  droopCur : Nat
  droopPrev : Nat
  held : Bool
  /-- a whole clean window has closed since the core became held; the present window began after it became held -/
  cleanWindow : Bool
  wholeWindow : Bool
  powerhold : Bool
  powered : PowerState
  dbgRead : Bool
  vacating : Bool
  pmc : Tbl Pmc
  mirror : Tbl Nat
  icache : Tbl Nat
  rowBuf : List Byte
  /-- the ck at which the core's cycle counter was last zeroed (R481) -/
  ckBase : Nat
  deriving DecidableEq, Repr

/-- One line of a column cache (R284): which bytes are present, which are dirty, the page kind, the bytes, and which 64-bit words
hold an uncorrectable error (R291). -/
structure ColLine where
  valid : BitVec 128
  dirty : BitVec 128
  uo : Bool
  data : Nat
  bad : BitVec 16
  deriving DecidableEq, Repr

/-- The state of a cluster's copy of a line (R283), with the peers' forwardees (R300). -/
inductive CState where
  | readOnly | owned | updateOnly
  deriving DecidableEq, Repr

/-- A cluster cache's copy of a line: its state, the clusters it forwarded to, whether it came from a peer, and whether it
was prefetched and not yet used (R305), and the ck it was taken at (R327). -/
structure CLine where
  state : CState
  forwardees : List Nat
  fromPeer : Option Nat
  prefetched : Bool
  since : Nat
  deriving DecidableEq, Repr

/-- The partial of one 8-byte word of an update-only copy (R327): operation, size and value. -/
structure Partial where
  fn : Nat
  x : Nat
  deriving DecidableEq, Repr

/-- A stream tracker of a cluster (R304). -/
structure Tracker where
  core : Nat
  line : Nat
  up : Bool
  misses : Nat
  deriving DecidableEq, Repr

/-- A cached leaf (R417, R419): the entry and its level. -/
structure TlbEntry where
  ctx : Nat
  base : Nat
  level : Nat
  entry : W64
  deriving DecidableEq, Repr

/-- A miss-status entry (R303): the line, the requests that wait for it (wave key and request), and whether a prefetch took it. -/
structure Miss where
  line : Nat
  reqs : List (Nat × Nat)
  prefetch : Bool
  deriving DecidableEq, Repr

/-- A cluster's tables (R17, R298, R301, R303, R304, R419); redirects are kept most recently used first. -/
structure Cluster where
  tlb : List TlbEntry
  peers : Tbl Nat
  redirects : List (Nat × Nat)
  trackers : List Tracker
  lines : Tbl CLine
  partials : Tbl Partial
  misses : List Miss
  deriving DecidableEq, Repr

/-- A resident line of an L2 slice: dirty and POISON (R288). -/
structure L2Line where
  dirty : Bool
  poison : Bool
  deriving DecidableEq, Repr

/-- A slice's state beside its lines (R288, R301, R392): SEQ, stamps, tuples, and reads of its lines in the window. -/
structure Slice where
  seq : Nat
  depStamp : Nat
  parkStamp : Nat
  tuples : List Tuple
  watches : List (Nat × W64 × Nat)
  reads : Tbl (List Nat)
  deriving DecidableEq, Repr

/-- STATE of a tile entry (R426). -/
inductive TileState where
  | free | raster | closed | shading | retired
  deriving DecidableEq, Repr

/-- A tile entry (R426), with the quad groups its classification has still to append (R383): each its material and four
entries; and the 64-bit words of its pinned lines that hold an uncorrectable error (R428). -/
structure Tile where
  state : TileState
  frame : W64
  tx : Nat
  ty : Nat
  refs : Nat
  cls : Bool
  todo : List (Nat × List BinEntry)
  bad : List Nat
  deriving DecidableEq, Repr

/-- A pixel entry of a visibility tile (R380, R425). -/
structure Pix where
  id : W64
  depth : W32
  deriving DecidableEq, Repr

/-- A batch in a die's raster queue (R378): the RSUB command it came from, the cluster array, COUNT, FRAME and CLOSE. -/
structure Batch where
  cmd : Nat
  clusters : W64
  count : Nat
  frame : W64
  close : Bool
  shrate : W32
  ctx : Nat
  deriving DecidableEq, Repr

/-- A frame live on a die (R427): the RSUB that closes it, whether its CLOSE waits to take effect or has taken effect, and the
per-draw rate of each cluster rasterised into it (R379). -/
structure Frame where
  desc : W64
  closeCmd : Option Nat
  closing : Bool
  closed : Bool
  draws : List (Nat × Nat)
  ctx : Nat
  deriving DecidableEq, Repr

/-- A die's state (R18, R378, R381, R419, R426); `walks` are the page walks under way, context and
leaf, of which the first 512 hold a walker and the others wait for one (R27). -/
structure Die where
  tlb : List TlbEntry
  walks : List (Nat × Nat)
  rasterQ : List Batch
  frames : List Frame
  closedOrder : List Nat
  bins : Tbl (List BinEntry)
  cplimit : Nat
  vdd : Nat
  bankPower : Tbl Nat
  bankDbg : List Nat
  loopUp : Bool
  memUp : Bool
  deriving DecidableEq, Repr

/-- A buffer entry (R422). -/
structure Buffer where
  valid : Bool
  cur : Bool
  size : Nat
  vbase : W64
  pa0 : W64
  pa1 : W64
  deriving DecidableEq, Repr

/-- A material-table entry (R432). -/
structure Material where
  launch : W64
  valid : Bool
  deriving DecidableEq, Repr

/-! ### Device registers, window commands, Fredusin -/

/-- A STOP report (R441) held or written. -/
structure Report where
  epc : W64
  eaddr : W64
  ecause : W32
  estat : W32
  launchId : W32
  core : Nat
  slot : Nat
  deriving DecidableEq, Repr

/-- The registers of the device register window (R446, R490) and its command blocks (R524). -/
structure Window where
  thot : Nat
  dmax : Nat
  tslice : Nat
  wdtime : Nat
  errpol : W32
  tvbase : W64
  trapq : W64
  trapqSize : Nat
  trapqTail : Nat
  trapqNext : Nat
  held : List Report
  ctxid : Nat
  ptbase : W64
  mxidle : Nat
  pfctl : W32
  binflush : Nat
  invCtx : W64
  invVa : W64
  invPages : W64
  invStatus : Nat
  invRun : Bool
  vacMask : BitVec 192
  vacCount : W64
  vacStatus : Nat
  vacRun : Bool
  vacSet : BitVec 192
  agentCmd : W64
  bagAddr : W64
  bagStatus : Nat
  vectors : List Nat
  reports : List Nat
  /-- what system software last selected in the mailbox and in the debug port (R490; the words are the model's, log entry 104) -/
  ownSel : W64
  dbgSel : W64
  deriving DecidableEq, Repr

/-- The progress of a vacate (R63): the cores of the set and whether a time-slice expiry or CKPT asked for it. -/
structure Vac where
  cores : List Nat
  why : Nat
  deriving DecidableEq, Repr

/-- MODE of BOOTSTAT (R494). -/
inductive BootMode where
  | full | minimal | failed
  deriving DecidableEq, Repr

/-- Fredusin: start-up, firmware slots, mailbox, checkpoint (R492–R498), supply (R499) and links (R500). -/
structure Fred where
  mode : BootMode
  stage : Nat
  running : Bool
  fails : Nat
  causes : List Nat
  bootDeadline : Option Nat
  booted : Bool
  active : Nat
  /-- the image in each slot and its signature (R495, R496); a slot never written holds the factory's -/
  images : Tbl (List Byte × List Byte)
  newImage : Bool
  pendingImage : Bool
  swap : Bool
  replies : List W64
  report : List Byte
  ckpt : Option (Nat × Nat)
  heldWrites : List (Nat × List Byte)
  overtemp : Bool
  powerOff : Bool
  cxlUp : Bool
  /-- what the debug port answers, and the window registers as they stood at READY (R307, R497) -/
  dbgReplies : List W64
  config : List Byte
  deriving DecidableEq, Repr

/-- A saved team (R65, R458–R459): the context slots and the core-state area as structured data. `phys` are the scratchpads of the
cores of a cluster held exclusively, by position (R269). -/
structure Saved where
  team : Team
  cores : List Nat
  waves : List (Nat × Wave)
  streams : List (Nat × Stream)
  scratch : Mem
  phys : List (Nat × Mem)
  acc : List (Nat × Mem)
  chains : List (Nat × Tbl Chain)
  rows : List (Nat × Mem)
  cmds : List (Nat × Cmd)
  watched : Nat
  deriving DecidableEq, Repr

/-- The stores whose SEC-DED words are kept by address (R291). -/
inductive Store where
  | scratch | chip | acc | rows
  deriving DecidableEq, Repr

/-- A 64-bit word of a store that holds an uncorrectable error (R291, R293): its bytes read as zero until it is written. -/
structure BadWord where
  store : Store
  word : Nat
  deriving DecidableEq, Repr

/-- The memory system: every byte store, and the tags of the caches (R265–R292). -/
structure MemSys where
  /-- the coherent view at the home slices, by physical address -/
  home : Mem
  /-- the backing data of the home view: GDDR 7 and host memory -/
  dram : Mem
  l2 : Tbl L2Line
  cols : Tbl ColLine
  scratch : Mem
  rows : Mem
  chip : Mem
  acc : Mem
  replicas : List (Nat × Nat)
  bad : List BadWord
  deriving DecidableEq, Repr

/-- Where an error arises (R291): a line on its way from GDDR 7, an L2 line, a cluster cache's line, a column's word, a word of a
store, of a wave's register files or slices, of a tile's pinned lines, of an array word's row-buffer slab, a held contribution, a
flit of the Gear train, a field of a tuple, a line of an instruction cache, a TLB entry; or an error that was corrected, or a ring
flit that was sent again, on a die. -/
inductive Upset where
  | gddr (line : Nat)
  | l2 (line : Nat)
  | cluster (c line : Nat)
  | column (core line word : Nat)
  | store (st : Store) (word : Nat)
  | wave (core slot word : Nat)
  | tile (slot word : Nat)
  | rowBuf (core word : Nat)
  | held (core chain n : Nat)
  | flit (f : Nat)
  | tuple (slice stamp field : Nat)
  | icache (core line : Nat)
  | clusterTlb (c n : Nat)
  | sharedTlb (die n : Nat)
  | corrected (die : Nat)
  | resent (die : Nat)
  deriving DecidableEq, Repr

/-- A turn of the agenda: which agent moves next, which step of the device happens, or which error arises, as the environment and
the unspecified timing decide. -/
inductive Turn where
  | agent (a : Agent)
  | event (i : Instr)
  | upset (u : Upset)
  deriving DecidableEq, Repr

/-- What a turn finds none of, so that it waits and is tried again: a page walker of a die, for the walk of a leaf (R27, R419); a
miss-status entry of a cluster, for a line and a requester (R26, R303); or a link that has failed (R500; log entry 138). -/
inductive Lack where
  | walker (die : Nat) (walk : Nat × Nat)
  | entry (cluster line : Nat) (who : Nat × Nat)
  | link
  deriving DecidableEq, Repr

/-- The machine. `lack` is set within a turn alone: the turn then waits. -/
structure State where
  ck : Nat
  /-- platform time in units of 1/17 ns: one ck is 10 units, a stretched one more (R23, R486) -/
  time : Nat
  stretch : Nat
  window : Nat
  ctxStart : Option Nat
  expired : Bool
  fresh : Nat
  nextId : Nat
  agenda : List Turn
  cur : Option Agent
  waves : Tbl Wave
  streams : Tbl Stream
  teams : Tbl Team
  groups : Tbl Group
  launches : Tbl Launch
  lqs : Tbl LQueue
  cmds : Tbl Cmd
  treqs : Tbl TReq
  flits : Tbl Flit
  cores : Tbl Core
  clusters : Tbl Cluster
  slices : Tbl Slice
  dies : Tbl Die
  tiles : Tbl Tile
  pix : Tbl Pix
  buffers : Tbl Buffer
  materials : Tbl Material
  counters : Tbl Nat
  mem : MemSys
  win : Window
  fred : Fred
  vac : Option Vac
  saved : Tbl Saved
  /-- ids of refused records, for reason 0x08 of R38 -/
  refused : List Nat
  /-- the 4 KiB leaves the device has walked since their last invalidation (R420) -/
  walked : List TlbEntry
  lack : Option Lack
  deriving DecidableEq, Repr

/-- Why the machine stops with a fault. -/
inductive Fault where
  /-- Raised by every instruction word and agent step when no agent is current: the spec gives a word no effect outside an
  agent's program order (R335, R336). Safe. -/
  | noAgent
  deriving DecidableEq, Repr

/-- Why an instruction has no meaning. -/
inductive Refusal where
  /-- Raised by `exec` alone, for an opcode-table row whose meaning is not written. Safe. -/
  | notModelled (mnemonic : String)
  deriving DecidableEq, Repr

/-! ### Default rows: what a table's missing row stands for -/

def Chan.undef : Chan := ⟨false, 0, 0, 0, 0, 0, 0, 0, 0, 0, [], [], [], [], []⟩
def SQueue.empty : SQueue := ⟨0, [], [], []⟩
def Barrier.fresh (members : Nat) : Barrier := ⟨0, 0, members, []⟩
def Phase.none : Phase := ⟨0, false, false, 0, false, [], [], 0, .none, false⟩
def Chain.free : Chain := ⟨.free, false, 0, 0, 0, 0, 0, 0, 0, 0, [], [], false, false, false, 0⟩
/-- A core at reset. The spec gives no power state at reset: a column, like a bank, starts ACTIVE (DESIGN CHOICE, log entry 137). -/
def Core.idle : Core := ⟨[], Config.tempFirst, 0, 0, false, false, false, false, .active, false, false, [], [], [], [], 0⟩
def Cluster.empty : Cluster := ⟨[], [], [], [], [], [], []⟩
def Slice.empty : Slice := ⟨0, 0, 0, [], [], []⟩
def Tile.free : Tile := ⟨.free, 0, 0, 0, 0, false, [], []⟩
def Pix.empty : Pix := ⟨0xFFFFFFFFFFFFFFFF, 0x7F800000⟩
def Buffer.invalid : Buffer := ⟨false, false, 0, 0, 0, 0⟩
def Material.invalid : Material := ⟨0, false⟩
def Die.idle : Die := ⟨[], [], [], [], [], [], Config.cplimitReset, Config.vddReset, [], [], true, true⟩
def LQueue.off : LQueue := ⟨false, 0, 0, 0, false, 0, 0, 0, false, []⟩
def Pmc.zero : Pmc := ⟨0, 0, 0, 0⟩

/-- The window registers after reset (R49, R212, R304, R381, R446). -/
def Window.reset : Window :=
  ⟨Config.thotReset, Config.dmaxReset, 0, 0, 0, 0, 0, 0, 0, 0, [], 0, 0, Config.mxidleReset,
   BitVec.ofNat 32 Config.pfctlReset, Config.binflushReset, 0, 0, 0, 0, false, 0, 0, 0, false, 0, 0, 0, 0, [], [], 0, 0⟩

/-- Fredusin at power-on: stage 0 of a full start (R492). -/
def Fred.reset : Fred :=
  ⟨.full, 0, true, 0, [], none, false, 0, [], false, false, false, [], [], none, [], false, false, true, [], []⟩

/-- Every memory and cache empty (R273, R275, R283, R284, R288). -/
def MemSys.reset : MemSys := ⟨[], [], [], [], [], [], [], [], [], []⟩

/-- The machine right after power-on or reset: Fredusin about to run its start-up stages, no team resident. -/
def State.reset : State :=
  { ck := 0, time := 0, stretch := 0, window := 0, ctxStart := none, expired := false, fresh := 0, nextId := 0,
    agenda := [], cur := none, waves := [], streams := [], teams := [], groups := [], launches := [], lqs := [],
    cmds := [], treqs := [], flits := [], cores := [], clusters := [], slices := [], dies := [], tiles := [], pix := [],
    buffers := [], materials := [], counters := [], mem := MemSys.reset, win := Window.reset, fred := Fred.reset,
    vac := none, saved := [], refused := [], walked := [], lack := none }

end Sys2Proof.Machine
end

