-- ==== Sys2Proof/Machine/Regs.lean ====
section
/-! DEFINITION. The registers of a wave (R131–R135): reads and writes with the special registers' rules, the mask words, and
the old or new values while a return or a lookahead window is open (R106, R135). -/

namespace Sys2Proof.Machine

/-- Lanes of the wave's width (R33). -/
def Wave.width (w : Wave) : Nat := 32 * w.beats

/-- Vector registers a load of `size` writes (R309), or a tile of `t` bytes (R320). -/
def Ret.destV : Ret → List Nat
  | .vload d size _ _ => (List.range (sizeRun size)).map (d + ·)
  | .tile d t _ => (List.range (max 1 (t / 128))).map (d + ·)
  | .atomRet d size _ => (List.range (if size = 8 then 2 else 1)).map (d + ·)
  | .regs vs _ => vs.map (fun x => x.1)
  | _ => []

/-- Scalar registers a return writes. SCC is s126; TSDEP leaves it (R394). -/
def Ret.destS : Ret → List Nat
  | .sload d size _ => (List.range (sizeRun size)).map (d + ·)
  | .tile _ _ ver => if ver then [126] else []
  | .regs _ ss => ss.map (fun x => x.1)
  | .cmd _ sd _ => sd.toList
  | .tuple _ sd dep _ => if dep then [sd] else [sd, 126]
  | _ => []

/-- The stored bits of scalar register `r`: mask words above the width and s127 read zero (R33, R133). -/
def Wave.rawS (w : Wave) (r : Nat) : W32 :=
  if r = 127 then 0
  else if 120 ≤ r ∧ r ≤ 122 ∧ w.beats ≤ r - 120 then 0
  else Tbl.getD w.s r 0

/-- The stored bits of lane `l` of vector register `n`. -/
def Wave.rawV (w : Wave) (n l : Nat) : W32 := Tbl.getD w.v (128 * n + l) 0

/-- The write an open lookahead window withholds from scalar register `r`. -/
def Win.newS (n : Win) (r : Nat) : Option W32 := (n.ss.find? (fun x => x.1 == r)).map (fun x => x.2)
/-- The write an open lookahead window withholds from lane `l` of vector register `n`. -/
def Win.newV (k : Win) (n l : Nat) : Option W32 := (k.vs.find? (fun x => x.1 == n && x.2.1 == l)).map (fun x => x.2.2)

/-- A loaded value extended to its run (R309): the words of the run, lowest first. -/
def loadWords (size x : Nat) : List W32 :=
  match size with
  | 1 => [(BitVec.ofNat 8 x).signExtend 32]
  | 3 => [(BitVec.ofNat 16 x).signExtend 32]
  | _ => (List.range (sizeRun size)).map (fun i => BitVec.ofNat 32 (x / 2 ^ (32 * i)))
/-- Word `i` of the run an access loads, once it has performed. -/
def Access.word (a : Access) (size i : Nat) : Option W32 := if a.done then (loadWords size a.res)[i]? else none
/-- The access of a lane. -/
def Req.laneAcc (q : Req) (l : Nat) : Option Access := q.accs.find? (fun a => a.lane == l)
/-- Every access of a request has performed. -/
def Req.allDone (q : Req) : Bool := q.accs.all (fun a => a.done)

/-- The new value a request's return is to write to scalar register `r`, once it is known. -/
def Req.newS (q : Req) (r : Nat) : Option W32 :=
  match q.ret with
  | .sload d size _ => if d ≤ r then (q.accs.head?).bind (fun a => a.word size (r - d)) else none
  | .tile _ _ true =>
    if r = 126 ∧ q.allDone then
      let v := fun (a : Option Access) => (a.map (fun x => x.res)).getD 0
      some (if v q.accs.head? = v q.accs.getLast? ∧ v q.accs.head? % 2 = 0 then 1 else 0)
    else none
  | .regs _ ss => (ss.reverse.find? (fun x => x.1 == r)).map (fun x => x.2)
  | .cmd _ sd val => if sd = some r then val else none
  | .tuple _ sd dep val =>
    if r = 126 ∧ !dep then val.map (fun v => if v = 0 then 1 else 0)
    else if r = sd then val.map (fun v => BitVec.ofNat 32 v)
    else none
  | _ => none

/-- The new value a request's return is to write to lane `l` of vector register `n`, once it is known. -/
def Req.newV (q : Req) (n l : Nat) : Option W32 :=
  match q.ret with
  | .vload d size _ _ => if d ≤ n then (q.laneAcc l).bind (fun a => a.word size (n - d)) else none
  | .atomRet d size _ => if d ≤ n then (q.laneAcc l).bind (fun a => a.word (if size = 8 then 5 else 4) (n - d)) else none
  | .tile d t ver =>
    let i := 32 * (n - d) + l
    if d ≤ n ∧ l < 32 ∧ i < t / 4 then
      ((if ver then (if q.allDone then (q.accs.drop 1).dropLast else []) else q.accs)[i / 16]?).bind (fun a =>
        if a.done then some (BitVec.ofNat 32 (a.res / 2 ^ (32 * (i % 16)))) else none)
    else none
  | .regs vs _ => (vs.reverse.find? (fun x => x.1 == n && x.2.1 == l)).map (fun x => x.2.2)
  | _ => none

/-- One of the old value and the new ones, which is unspecified (R106): a choice of the step and the register. -/
def oneOf (old : W32) (news : List W32) (nonce key : Nat) : W32 :=
  match news with
  | [] => old
  | _ :: _ => (old :: news).getD ((Config.freeW32 nonce key).toNat % (news.length + 1)) old

/-- Whether a write to scalar register `r` is discarded (R40, R33, R133). -/
def Wave.discards (w : Wave) (r : Nat) : Bool :=
  (decide (104 ≤ r) && decide (r ≤ 119)) || decide (127 ≤ r)
    || (decide (120 ≤ r) && decide (r ≤ 122) && decide (w.beats ≤ r - 120))

/-- Read scalar register `r`: while a window withholds its new value, or a return is outstanding whose value has arrived, the
old or the new one; the same of a path word's source that a word of its own window is to write (R106). -/
def Wave.readS (w : Wave) (r : Nat) : W32 :=
  if w.discards r then w.rawS r
  else
    oneOf (w.rawS r) ((w.wins ++ w.ahead).filterMap (fun n => n.newS r) ++ w.reqs.filterMap (fun q => q.newS r)) w.nonce r

/-- Read lane `l` of vector register `n`. -/
def Wave.readV (w : Wave) (n l : Nat) : W32 :=
  oneOf (w.rawV n l) ((w.wins ++ w.ahead).filterMap (fun k => k.newV n l) ++ w.reqs.filterMap (fun q => q.newV n l)) w.nonce
    (128 + 128 * n + l)

/-- The 64-bit value of an even scalar pair (R154). -/
def Wave.readS64 (w : Wave) (r : Nat) : W64 := w.readS (r + 1) ++ w.readS r
/-- The 64-bit value of lane `l` of an even vector pair. -/
def Wave.readV64 (w : Wave) (n l : Nat) : W64 := w.readV (n + 1) l ++ w.readV n l

/-- Note in the outstanding requests that a later word has written a destination of theirs (R135). -/
def clobber (reqs : List Req) (hit : Req → Bool) (key : Nat) : List Req :=
  reqs.map (fun q => if hit q then { q with clob := key :: q.clob } else q)

/-- The 64-bit word of the register files a scalar register lies in: an even pair (R291; DESIGN CHOICE, log entry 79). -/
def badKeyS (r : Nat) : Nat := r / 2
/-- The 64-bit word a lane of a vector register lies in: two neighbouring lanes. -/
def badKeyV (n l : Nat) : Nat := 64 + 64 * n + l / 2

/-- The 64-bit word a byte of the lane-private slices lies in. -/
def badKeyLp (a : Nat) : Nat := 2 ^ 20 + a / 8
/-- The words of [a, a + n) of the slices that are in error (R291). -/
def Wave.lpHits (w : Wave) (a n : Nat) : List Nat :=
  w.badW.filter (fun k => decide (badKeyLp a ≤ k) && decide (k ≤ badKeyLp (a + n - 1)))
/-- Whether a read of the slices meets an error. -/
def Wave.lpBad (w : Wave) (a n : Nat) : Bool := !(w.lpHits a n).isEmpty
/-- The words in error a write of the slices is narrower than (R293). -/
def Wave.lpNarrow (w : Wave) (a n : Nat) : Nat :=
  ((w.lpHits a n).filter (fun k => decide (8 * (k - 2 ^ 20) < a) || decide (a + n < 8 * (k - 2 ^ 20) + 8))).length
/-- The words a write of the slices touches have fresh codes. -/
def Wave.lpFresh (w : Wave) (a n : Nat) : Wave := { w with badW := w.badW.filter (fun k => !(w.lpHits a n).contains k) }

/-- The bits of scalar register `r` change: an outstanding return notes it (R135), and its 64-bit word has a fresh code (R293). -/
def Wave.putS (w : Wave) (r : Nat) (x : W32) : Wave :=
  { w with
    s := Tbl.put w.s r 0 x
    reqs := clobber w.reqs (fun q => q.ret.destS.contains r) r
    badW := w.badW.filter (fun k => !(k == badKeyS r)) }
/-- The bits of lane `l` of vector register `n` change. -/
def Wave.putV (w : Wave) (n l : Nat) (x : W32) : Wave :=
  { w with
    v := Tbl.put w.v (128 * n + l) 0 x
    reqs := clobber w.reqs (fun q => q.ret.destV.contains n) (128 + 128 * n + l)
    badW := w.badW.filter (fun k => !(k == badKeyV n l)) }

/-- Write scalar register `r`: discarded for s104–s119, s127 and the mask words above the width. A write that an open window
withholds from the register (SDIV's to its SD among them, R151) stays withheld, or is overtaken by this one: which is left open, a free
choice (R106, R135; DESIGN CHOICE, log entry 119). -/
def Wave.writeS (w : Wave) (r : Nat) (x : W32) : Wave :=
  if w.discards r then w
  else
    { w.putS r x with
      wins := w.wins.map (fun n =>
        { n with ss := n.ss.filter (fun y => !(y.1 == r && Config.freeBit w.nonce (y.1 + 70000))) }) }

/-- Write lane `l` of vector register `n`. -/
def Wave.writeV (w : Wave) (n l : Nat) (x : W32) : Wave :=
  { w.putV n l x with
    wins := w.wins.map (fun k =>
      { k with vs := k.vs.filter (fun y => !(y.1 == n && y.2.1 == l && Config.freeBit w.nonce (70200 + 128 * n + l))) }) }

/-- Write a scalar pair, both halves in the same ck (R154). -/
def Wave.writeS64 (w : Wave) (r : Nat) (x : W64) : Wave :=
  (w.writeS r (x.extractLsb' 0 32)).writeS (r + 1) (x.extractLsb' 32 32)
/-- Write a vector pair in lane `l`. -/
def Wave.writeV64 (w : Wave) (n l : Nat) (x : W64) : Wave :=
  (w.writeV n l (x.extractLsb' 0 32)).writeV (n + 1) l (x.extractLsb' 32 32)

/-- Write a list of scalar registers, in order. -/
def Wave.writeSs (w : Wave) (ws : List (Nat × W32)) : Wave := ws.foldl (fun a x => a.writeS x.1 x.2) w
/-- Write a list of vector lanes, in order: register, lane, value. -/
def Wave.writeVs (w : Wave) (ws : List (Nat × Nat × W32)) : Wave := ws.foldl (fun a x => a.writeV x.1 x.2.1 x.2.2) w

/-- Mask word b (R33, R133): as the scalar register, so that a mask write withheld by a window, or on its way in a return, governs
a word of the window or does not, a free choice (R106, R134, R165; DESIGN CHOICE, log entry 11). -/
def Wave.em (w : Wave) (b : Nat) : W32 := w.readS (120 + b)
/-- The three mask words, em2 on top. -/
def Wave.mask (w : Wave) : BitVec 96 := w.em 2 ++ w.em 1 ++ w.em 0
/-- Write the mask words. -/
def Wave.setMask (w : Wave) (m : BitVec 96) : Wave :=
  ((w.writeS 120 (m.extractLsb' 0 32)).writeS 121 (m.extractLsb' 32 32)).writeS 122 (m.extractLsb' 64 32)
/-- Whether lane `l` is active. -/
def Wave.active (w : Wave) (l : Nat) : Bool := w.mask.getLsbD l
/-- The active lanes, ascending. -/
def Wave.lanes (w : Wave) : List Nat := (List.range w.width).filter w.active
/-- Every lane of the width. -/
def Wave.allLanes (w : Wave) : List Nat := List.range w.width
/-- The mask with a bit for each lane of the width. -/
def fullMask (beats : Nat) : BitVec 96 := BitVec.ofNat 96 (2 ^ (32 * beats) - 1)
/-- The mask of a list of lanes. -/
def maskOf (ls : List Nat) : BitVec 96 := ls.foldl (fun m l => m ||| BitVec.ofNat 96 (2 ^ l)) 0

/-- SCC (s126). -/
def Wave.scc (w : Wave) : W32 := w.readS 126
/-- Write SCC: 1 for true, 0 for false (R133). -/
def Wave.setScc (w : Wave) (b : Bool) : Wave := w.writeS 126 (if b then 1 else 0)

/-! ### Lookahead windows of words without a path (R106) -/

/-- Close a lookahead window: its withheld writes take effect (R106). -/
def Wave.closeWin (w : Wave) (n : Win) : Wave :=
  n.vs.foldl (fun w x => w.putV x.1 x.2.1 x.2.2) (n.ss.foldl (fun w x => w.putS x.1 x.2) w)

/-- The ck from its issue at which a word without a path is released, where the spec states one: SDIV (R151), the special functions
(R181), LMERGE (R191). -/
def releaseCk (op : Nat) : Option Nat :=
  if op = 0x05 then some 34
  else if op = 0x58 ∨ op = 0x59 then some 10
  else if op = 0x5A then some 14
  else if op = 0x5B ∨ op = 0x5C then some 12
  else if 0x5D ≤ op ∧ op ≤ 0x5F then some 16
  else if op = 0x69 then some 16
  else none
/-- Whether a word is surely released before another that issued after it: its release comes no later after its own issue. -/
def releasedFirst (older newer : Nat) : Bool :=
  decide (older = newer) ||
    match releaseCk older, releaseCk newer with
    | some a, some b => decide (a ≤ b)
    | _, _ => false

/-- What is left of a window's writes when another makes its own, the order of the two being open: a write to the same register has
been made before and is gone, or is still to come (R106; DESIGN CHOICE, log entry 119). -/
def Win.shed (k n : Win) (nonce : Nat) : Win :=
  { k with
    vs := k.vs.filter (fun y => !(n.vs.any (fun x => x.1 == y.1 && x.2.1 == y.2.1) && Config.freeBit nonce (70200 + 128 * y.1 + y.2.1)))
    ss := k.ss.filter (fun y => !(n.ss.any (fun x => x.1 == y.1) && Config.freeBit nonce (y.1 + 70000))) }
/-- The windows that close and those that stay open, newest first: a window closes with its last word, and with a newer one that closes
and is surely released after it. `newer` are the newer ones that close. -/
def splitWins (nonce : Nat) : List Win → List Win → List Win × List Win
  | [], _ => ([], [])
  | n :: rest, newer =>
    if n.left = 0 || newer.any (fun m => releasedFirst n.op m.op) then
      let r := splitWins nonce rest (n :: newer)
      (n :: r.1, r.2)
    else
      let r := splitWins nonce rest newer
      (r.1, (newer ++ r.1.filter (fun m => !releasedFirst m.op n.op)).foldl (fun k m => k.shed m nonce) n :: r.2)

/-- One word has issued: every window counts it, and those whose words have all issued close, in the order their instructions
issued (R106); a window closes no later than a newer one whose release comes after its own (R151). -/
def Wave.tickWins (w : Wave) : Wave :=
  let r := splitWins w.nonce (w.wins.map (fun n => { n with left := n.left - 1 })) []
  { r.1.reverse.foldl Wave.closeWin w with wins := r.2 }

/-- Every window closes, in the order their instructions issued: at the clause's end and before a trap stops the wave (R106,
R107). Of two that write one register the later-issued one's value stands (DESIGN CHOICE, log entry 118, where R151 and R181 do not fix
which is released first). -/
def Wave.closeWins (w : Wave) : Wave := { w.wins.reverse.foldl Wave.closeWin w with wins := [] }

/-- The mask a trap at issue names: it stops the wave only when every earlier instruction has been released (R107, R164). -/
def Wave.trapMask (w : Wave) : BitVec 96 := w.closeWins.mask

/-- The older windows that are surely released before the word at `op` close, when it is released before the next word issues. -/
def Wave.closeOlder (w : Wave) (op : Nat) : Wave :=
  let r := splitWins w.nonce w.wins [⟨0, op, [], []⟩]
  { r.1.reverse.foldl Wave.closeWin w with wins := r.2 }
/-- The writes of a word of opcode `op` without a path: withheld for the next `la` words, or made at once when `la` is 0 (R106). The
window counts its own word too. -/
def Wave.longWrite (w : Wave) (op la : Nat) (vs : List (Nat × Nat × W32)) (ss : List (Nat × W32)) : Wave :=
  if la = 0 then ((w.closeOlder op).writeVs vs).writeSs ss
  else { w with wins := ⟨la + 1, op, vs, ss.filter (fun x => !w.discards x.1)⟩ :: w.wins }


end Sys2Proof.Machine
end

