-- ==== Sys2Proof/Machine/Operands.lean ====
section
/-! DEFINITION. Operand forms: the second operand of a scalar word (R108), the 9-bit selectors of vector words in each
operand type (R119, R120), pairs (R71), and the register range a word names (R121). -/

namespace Sys2Proof.Machine

/-- The second operand of a format-S word. -/
def Wave.sop (w : Wave) (b : SOp) : W32 :=
  match b with
  | .reg r => w.readS r.toNat
  | .imm v => v

/-- The second operand of a pair word: a pair, or IMM32 sign-extended (R108, R154). -/
def Wave.sop64 (w : Wave) (b : SOp) : W64 :=
  match b with
  | .reg r => w.readS64 r.toNat
  | .imm v => v.signExtend 64

/-- The FP32 constants of selectors 464–479 (R119). -/
def selConst (s : Nat) : W32 :=
  match s with
  | 464 => 0x3F000000 | 465 => 0x3F800000 | 466 => 0x40000000 | 467 => 0x40800000
  | 468 => 0x41000000 | 469 => 0xBF000000 | 470 => 0xBF800000 | 471 => 0xC0000000
  | 472 => 0xC0800000 | 473 => 0xC1000000 | 474 => 0x3E22F983 | 475 => 0x3F317218
  | 476 => 0x3FB8AA3B | 477 => 0x3E800000 | 478 => 0xBE800000 | _ => 0x7F800000

/-- The integer of a constant selector 384–463 (R119). -/
def selNum (s : Nat) : Int := if s < 448 then (s : Int) - 384 else 447 - (s : Int)

/-- A selector as 32 raw or integer bits in lane `l`: registers, integers in two's complement, FP32 constants as their
bits. -/
def Wave.selW (w : Wave) (sel : Sel) (l : Nat) : W32 :=
  let s := sel.toNat
  if s < 256 then w.readV s l
  else if s < 384 then w.readS (s - 256)
  else if s < 464 then wrap32 (selNum s)
  else selConst s

/-- A selector as the bits of an FP32 operand: an integer selector gives that integer exactly (R120). -/
def Wave.selF (w : Wave) (sel : Sel) (l : Nat) : W32 :=
  let s := sel.toNat
  if 384 ≤ s ∧ s < 464 then f32OfInt .rne (selNum s) else w.selW sel l

/-- A selector as a packed 16-bit operand: constants rounded RNE into the format fill both halves (R120, R174). -/
def Wave.selH (w : Wave) (f : Fmt) (sel : Sel) (l : Nat) : W32 :=
  let s := sel.toNat
  if s < 384 then w.selW sel l
  else
    let v := if s < 464 then FVal.ofRat false (mkRat (selNum s) 1) else f32Val (selConst s)
    let h := BitVec.ofNat 16 (f.convert .rne v).code
    h ++ h

/-- A selector as a 64-bit pair in lane `l` (R120, R163). -/
def Wave.selP (w : Wave) (sel : Sel) (l : Nat) : W64 :=
  let s := sel.toNat
  if s < 256 then w.readV64 s l
  else if s < 384 then w.readS64 (s - 256)
  else wrap64 (selNum s)

/-- IMM31 of a VI word as an integer, sign-extended from bit 30 (R110). -/
def imm31Int (v : BitVec 31) : W32 := v.signExtend 32
/-- IMM31 of a VI word as FP32: bits 31:1, with bit 0 clear (R110). -/
def imm31F (v : BitVec 31) : W32 := v ++ (0 : BitVec 1)

/-- The vector register a selector names, if it names one. -/
def selReg (sel : Sel) : List Nat := if sel.toNat < 256 then [sel.toNat] else []
/-- The registers a selector names as a pair. -/
def selRegPair (sel : Sel) : List Nat := if sel.toNat < 256 then [sel.toNat, sel.toNat + 1] else []

/-- A run of `n` registers from `r`. -/
def run (r n : Nat) : List Nat := (List.range n).map (r + ·)

/-- Whether a named vector register lies at or above VREGS, or past v255 (R121). -/
def Wave.regRange (w : Wave) (rs : List Nat) : Bool := rs.any (fun r => decide (w.vregs ≤ r) || decide (256 ≤ r))

/-- A count or offset register read as z32. -/
def Wave.z (w : Wave) (r : SReg) : Nat := (w.readS r.toNat).toNat

/-- The address a base pair holds; BASE 126 means zero (R111, R310). -/
def Wave.baseAddr (w : Wave) (r : SReg) : W64 := if r = 126 then 0 else w.readS64 r.toNat

end Sys2Proof.Machine
end

