-- ==== Sys2Proof/Machine/Flags.lean ====
section
/-! DEFINITION. Conditions and the number state: the comparisons of SCMP and VCMP (R150), of FCMP (R170), COND of the control
words (R114), WSTAT and FPCOMPAT with flushing, rounding and the legacy requests (R83–R91), and the mask runs that comparisons
write (R158). -/

namespace Sys2Proof.Machine

/-- Cond(FN, a, b) of R150. -/
def intCond (fn : Nat) (a b : W32) : Bool :=
  match fn with
  | 0 => decide (a = b)
  | 1 => !decide (a = b)
  | 2 => decide (sval a < sval b)
  | 3 => decide (sval b ≤ sval a)
  | 4 => decide (zval a < zval b)
  | 5 => decide (zval b ≤ zval a)
  | 6 => decide (sval b < sval a)
  | 7 => decide (zval b < zval a)
  | 8 => decide (sval a ≤ sval b)
  | 9 => decide (zval a ≤ zval b)
  | _ => false

/-- The conditions of FCMP (R170), in FN order: eq, ne, lt, ge, gt, le, ord, uno. -/
def fltCond (fn : Nat) (a b : FVal) : Bool :=
  let n := a.isNan || b.isNan
  match fn with
  | 0 => a.eqv b
  | 1 => n || !a.eqv b
  | 2 => a.lt b
  | 3 => !n && !a.lt b
  | 4 => b.lt a
  | 5 => !n && !b.lt a
  | 6 => !n
  | _ => n

/-- COND of R114 for control words. -/
def Wave.cond (w : Wave) (c : BitVec 4) (ca : SReg) : Bool :=
  match c.toNat with
  | 0 => true
  | 1 => !decide (w.scc = 0)
  | 2 => decide (w.scc = 0)
  | 3 => !decide (w.readS ca.toNat = 0)
  | 4 => decide (w.readS ca.toNat = 0)
  | 5 => !decide (w.mask = 0)
  | 6 => decide (w.mask = 0)
  | _ => false

/-! ### WSTAT and FPCOMPAT (R85, R89) -/

def Wave.modeField (w : Wave) : RMode := rmode (w.wstat.toNat % 4)
def Wave.denorm (w : Wave) : Nat := w.fpcompat.toNat % 4
/-- Inputs are flushed (R86). -/
def Wave.flushIn (w : Wave) : Bool := w.wstat.getLsbD 2 || decide (w.denorm = 1) || decide (w.denorm = 3)
/-- Outputs are flushed (R86). -/
def Wave.flushOut (w : Wave) : Bool := w.wstat.getLsbD 3 || decide (w.denorm = 2) || decide (w.denorm = 3)
def Wave.lminmax (w : Wave) : Bool := w.fpcompat.getLsbD 2
def Wave.lzeroinf (w : Wave) : Bool := w.fpcompat.getLsbD 3
def Wave.f2i (w : Wave) : Nat := w.fpcompat.toNat / 16 % 4
def Wave.lrcp (w : Wave) : Bool := w.fpcompat.getLsbD 6

/-- The direction of a word: its RND override, or MODE (R83). -/
def Wave.rnd (w : Wave) (r : BitVec 2) : RMode :=
  match r.toNat with
  | 1 => .rne | 2 => .rz | 3 => .rd | _ => w.modeField

/-- The kinds of instruction the requests of R91 distinguish. -/
structure LegacyUse where
  xprec : Bool := false
  zeroNan : Bool := false
  cvtfi : Bool := false
  trig : Bool := false
  fp16 : Bool := false
  deriving DecidableEq, Repr

/-- The sub-code of the lowest set request that governs the instruction, if any (R91). XMINNORM, XNANPAY and the unassigned
requests govern every instruction of R86 and the FP32 lane forms. -/
def Wave.legacy (w : Wave) (u : LegacyUse) : Option Nat :=
  let b := fun n => w.fpcompat.getLsbD n
  if u.xprec && b 7 then some 0x01
  else if b 8 then some 0x02
  else if u.zeroNan && b 9 then some 0x03
  else if u.cvtfi && decide (w.f2i = 3) then some 0x04
  else if u.trig && b 10 then some 0x05
  else if u.fp16 && b 11 then some 0x06
  else if b 12 then some 0x07
  else if b 13 then some 0x20
  else if b 14 then some 0x21
  else if b 15 then some 0x22
  else none

/-! ### FP32 operands and results -/

/-- An FP32 operand: flushed, then ABS, then NEG (R86, R88, R168). -/
def Wave.fin (w : Wave) (abs neg : Bool) (x : W32) : FVal :=
  let v := f32Val (BitVec.ofNat 32 (Fmt.f32.flush w.flushIn x.toNat))
  let v := if abs then v.abs else v
  if neg then v.neg else v

/-- An FP32 result: rounded once, flushed, saturated (R83, R86, R88). -/
def Wave.fout (w : Wave) (mode : RMode) (sat : Bool) (v : FVal) : W32 :=
  let y := BitVec.ofNat 32 (Fmt.f32.flush w.flushOut (f32Round mode v).toNat)
  if sat then sat01 y else y

/-! ### Mask runs (R158) -/

/-- The bits of a lane predicate over the lanes of beat `b`, active lanes only. -/
def Wave.beatBits (w : Wave) (p : Nat → Bool) (b : Nat) : W32 :=
  BitVec.ofNat 32 ((List.range 32).foldl
    (fun acc n => if w.active (32 * b + n) && p (32 * b + n) then acc + 2 ^ n else acc) 0)

/-- Whether s_d … s_(d+B-1) may receive mask words: within s0–s103, or em0 (R158). -/
def Wave.maskRunOk (w : Wave) (d : Nat) : Bool := decide (d + w.beats ≤ 104) || decide (d = 120)

/-- Write a lane predicate as mask words from s_d and set SCC (R158). -/
def Wave.writeMaskRun (w : Wave) (d : Nat) (p : Nat → Bool) : Wave :=
  let ws := (List.range w.beats).map (fun b => (d + b, w.beatBits p b))
  (w.writeSs ws).setScc (ws.any (fun x => !decide (x.2 = 0)))

/-- Bit of lane `l` in a mask run from s_k (R159, R200). -/
def Wave.runBit (w : Wave) (k l : Nat) : Bool := (w.readS (k + l / 32)).getLsbD (l % 32)

end Sys2Proof.Machine
end

