-- ==== Sys2Proof/Machine/Memory.lean ====
section
/-! DEFINITION. The memory system: places and numbers (R13, R272, R274, R289), counters (R481–R484), the home slices
(R282–R288, R292, R301, R328, R342), the column caches (R284–R286), page walks and TLBs (R416–R423). -/

namespace Sys2Proof.Machine

/-! ### Rows of the state's tables -/

def State.cluster (s : State) (c : Nat) : Cluster := Tbl.getD s.clusters c Cluster.empty
def State.setCluster (s : State) (c : Nat) (x : Cluster) : State :=
  { s with clusters := Tbl.put s.clusters c Cluster.empty x }
def State.slice (s : State) (h : Nat) : Slice := Tbl.getD s.slices h Slice.empty
def State.setSlice (s : State) (h : Nat) (x : Slice) : State := { s with slices := Tbl.put s.slices h Slice.empty x }
def State.core (s : State) (c : Nat) : Core := Tbl.getD s.cores c Core.idle
def State.setCore (s : State) (c : Nat) (x : Core) : State := { s with cores := Tbl.put s.cores c Core.idle x }
def State.die (s : State) (d : Nat) : Die := Tbl.getD s.dies d Die.idle
def State.setDie (s : State) (d : Nat) (x : Die) : State := { s with dies := Tbl.put s.dies d Die.idle x }
def State.buffer (s : State) (b : Nat) : Buffer := Tbl.getD s.buffers b Buffer.invalid
def State.material (s : State) (m : Nat) : Material := Tbl.getD s.materials m Material.invalid
def State.tile (s : State) (t : Nat) : Tile := Tbl.getD s.tiles t Tile.free
def State.setTile (s : State) (t : Nat) (x : Tile) : State := { s with tiles := Tbl.put s.tiles t Tile.free x }

/-! ### Numbers of units (R13) -/

def clusterOf (core : Nat) : Nat := core / 4
def dieOfCore (core : Nat) : Nat := core / 48
def dieOfCluster (c : Nat) : Nat := c / 12
def dieOfSlice (h : Nat) : Nat := h / 16
/-- Minimal mode (R31). -/
def State.minimal (s : State) : Bool := decide (s.fred.mode = .minimal)
/-- The start has reached READY and stands (R492): the window answers and launches may run. -/
def State.up (s : State) : Bool := s.fred.running && decide (s.fred.stage = 7) && !s.fred.powerOff
/-- The host reaches the device: over the CXL link, once it is ready (R492, R500). -/
def State.hostUp (s : State) : Bool := s.up && s.fred.cxlUp
/-- Cores that exist: 192, or 48 in minimal mode (R13, R31). -/
def State.coreCount (s : State) : Nat := if s.minimal then 48 else 192

/-! ### Counters (R481–R484) -/

/-- The key of a counter: domain, instance, index. -/
def ctrKey (dom inst idx : Nat) : Nat := dom * 2 ^ 32 + inst * 2 ^ 16 + idx
/-- Count `n` events, modulo 2^64. -/
def State.count (s : State) (dom inst idx n : Nat) : State :=
  let k := ctrKey dom inst idx
  { s with counters := Tbl.put s.counters k 0 ((Tbl.getD s.counters k 0 + n) % 2 ^ 64) }
/-- An error event on a die (R483 domain 5). -/
def State.countErr (s : State) (die idx : Nat) : State := s.count 5 die idx 1

/-- A core's mirror takes the counters of the clusters, slices and dies as they stand (R481). -/
def State.mirrorCore (s : State) (core : Nat) : State :=
  s.setCore core { s.core core with mirror := s.counters.filter (fun r => decide (2 * 2 ^ 32 ≤ r.1) && decide (r.1 < 6 * 2 ^ 32)) }

/-- The launch of a team. -/
def State.launchOf (s : State) (team : Nat) : Nat :=
  match Tbl.get? s.teams team with
  | some t => t.launch
  | none => 0

/-- Whether a programmable counter of a core counts an event of a team, or of no team's own (team 0), under its FILTER: the recorded
launch or team counts only while it is on the core (R484). What FILTER 3 does is not stated: free. -/
def State.pmcTakes (s : State) (core : Nat) (p : Pmc) (ev team : Nat) : Bool :=
  let here := fun (q : Nat → Team → Bool) => s.teams.any (fun r =>
    (decide (team = 0) || decide (r.1 = team)) && q r.1 r.2 && (decide (core = r.2.core) || (r.2.paired && decide (core = r.2.core + 1))))
  decide (p.cfg.toNat % 256 = ev) &&
    match p.cfg.toNat / 256 % 4 with
    | 0 => true
    | 1 => here (fun _ t => decide (t.launch = p.launch))
    | 2 => here (fun id _ => decide (id = p.team))
    | _ => Config.freeBit s.fresh 900300
/-- Count `n` of PMC event `ev` made on a core by an agent of a team (R484). -/
def State.pmcCount (s : State) (core ev n team : Nat) : State :=
  let c := s.core core
  if c.pmc.any (fun r => s.pmcTakes core r.2 ev team) then
    s.setCore core
      { c with pmc := List.map (fun r => if s.pmcTakes core r.2 ev team then (r.1, { r.2 with val := r.2.val + BitVec.ofNat 64 n }) else r) c.pmc }
  else s

/-! ### Device error reports and vectors (R491) -/

def State.vector (s : State) (n : Nat) : State := { s with win := { s.win with vectors := s.win.vectors ++ [n] } }
/-- A device error report in the mailbox: a code of the model's own for what it names. -/
def State.errorReport (s : State) (code : Nat) : State :=
  { s with win := { s.win with reports := s.win.reports ++ [code], vectors := s.win.vectors ++ [2] } }

/-! ### The SEC-DED words of the stores (R291–R293) -/

/-- The bytes of a store. -/
def MemSys.store (m : MemSys) : Store → Mem
  | .scratch => m.scratch
  | .chip => m.chip
  | .acc => m.acc
  | .rows => m.rows
def MemSys.setStore (m : MemSys) (st : Store) (x : Mem) : MemSys :=
  match st with
  | .scratch => { m with scratch := x }
  | .chip => { m with chip := x }
  | .acc => { m with acc := x }
  | .rows => { m with rows := x }
/-- The die a byte of a store lies on. -/
def Store.die (st : Store) (a : Nat) : Nat :=
  match st with
  | .scratch => a / 2 ^ 19 / 48
  | .chip => a / 2 ^ 26
  | .acc => a / 2 ^ 18 / 48
  | .rows => a / 2 ^ 26 / 48
/-- A 64-bit word shares a byte with [a, a + n). -/
def wordTouches (word a n : Nat) : Bool := decide (8 * word < a + n) && decide (a < 8 * word + 8)
/-- Whether a read of [a, a + n) of a store meets an uncorrectable error: its bytes then read as zero (R292). -/
def State.badIn (s : State) (st : Store) (a n : Nat) : Bool :=
  s.mem.bad.any (fun b => decide (b.store = st) && wordTouches b.word a n)
/-- The bytes of a word that some ranges of addresses cover. -/
def coveredBytes (word : Nat) (rs : List (Nat × Nat)) : Nat :=
  (rs.map (fun r => min (r.1 + r.2) (8 * word + 8) - max r.1 (8 * word))).sum
/-- Ranges of a store, each an address and a length, are written by one access: every word they touch gets a fresh code, and a word
in error that they cover only in part is counted (R293). -/
def State.freshCode (s : State) (st : Store) (rs : List (Nat × Nat)) : State :=
  let hit := s.mem.bad.filter (fun b => decide (b.store = st) && decide (0 < coveredBytes b.word rs))
  match hit with
  | [] => s
  | b :: _ =>
    let narrow := hit.filter (fun b => decide (coveredBytes b.word rs < 8))
    State.count { s with mem := { s.mem with bad := s.mem.bad.filter (fun b => !hit.contains b) } } 5 (st.die (8 * b.word)) 2 narrow.length

/-- Write bytes of a store. -/
def State.storeWrite (s : State) (st : Store) (a : Nat) (bs : List Byte) : State :=
  let s := s.freshCode st [(a, bs.length)]
  { s with mem := s.mem.setStore st (Mem.overlay (s.mem.store st) ((List.range bs.length).map (fun i => (a + i, bs.getD i 0)))) }
/-- Bytes of a store become zero, or are lost: no error is left in them. -/
def State.storeClear (s : State) (st : Store) (a n : Nat) : State :=
  let s := s.freshCode st [(a, n)]
  { s with mem := s.mem.setStore st (Mem.clear (s.mem.store st) a n) }
/-- The `n` bytes of a store from `a` take an image, whose byte 0 is byte 0 of `m`. -/
def State.storeFill (s : State) (st : Store) (a n : Nat) (m : Mem) : State :=
  let s := s.storeClear st a n
  { s with mem := s.mem.setStore st (Mem.overlay (s.mem.store st) (Mem.slice m 0 n a)) }
/-- An uncorrectable error in a word of a store (R291): it delivers zero until it is written. -/
def State.upsetStore (s : State) (st : Store) (word : Nat) : State :=
  let m := s.mem.setStore st (Mem.clear (s.mem.store st) (8 * word) 8)
  { s with mem := { m with bad := if ⟨st, word⟩ ∈ m.bad then m.bad else ⟨st, word⟩ :: m.bad } }

/-! ### Free choices -/

/-- One of the values below `n`, left open by the spec; a fresh choice at each `idx` of each step. -/
def State.choose (s : State) (idx n : Nat) : Nat := if n ≤ 1 then 0 else (Config.freeW32 s.fresh idx).toNat % n
def State.flip (s : State) (idx : Nat) : Bool := Config.freeBit s.fresh idx

/-! ### Physical places -/

def devWindow (pa : Nat) : Bool := decide (pa < 2 ^ 38)
def hostWindow (pa : Nat) : Bool := decide (2 ^ 46 ≤ pa) && decide (pa < 2 ^ 47)
/-- A physical address that names a byte (R274). -/
def State.backed (s : State) (pa : Nat) : Bool :=
  (devWindow pa && (!s.minimal || decide (pa < 2 ^ 36))) || hostWindow pa
/-- Field `k` of six bits of a line number. -/
def lineField (l k : Nat) : Nat := l / 2 ^ (6 * k) % 64
/-- The home slice of a line (R289). -/
def homeSlice (minimal : Bool) (l : Nat) : Nat :=
  let h := (lineField l 0).xor ((lineField l 1).xor ((lineField l 2).xor ((lineField l 3).xor
    ((lineField l 4).xor ((lineField l 5).xor (l / 2 ^ 36 % 32))))))
  if minimal then h % 16 else h
def State.home (s : State) (line : Nat) : Nat := homeSlice s.minimal line
/-- The device channel behind a physical address: die and channel of the die (R276). -/
def gddrChannel (minimal : Bool) (pa : Nat) : Nat × Nat :=
  let c := (pa / 256 % 32).xor (pa / 8192 % 32)
  if minimal then (0, c % 8) else (c / 8, c % 8)

/-! ### Bytes of a 128-byte line as a number -/

def byteAt (x i : Nat) : Nat := x / 256 ^ i % 256
def setByteAt (x i b : Nat) : Nat := x - byteAt x i * 256 ^ i + b % 256 * 256 ^ i
/-- The `n` low bytes of a number, the lowest first. -/
def bytesOf (n x : Nat) : List Byte := (List.range n).map (fun i => BitVec.ofNat 8 (x / 256 ^ i))
/-- A list of bytes as a little-endian number (R2). -/
def ofBytes (bs : List Byte) : Nat := bs.foldr (fun b acc => b.toNat + 256 * acc) 0
/-- The cells of `bs` from address `a`. -/
def cellsAt (a : Nat) (bs : List Byte) : List Host.Cell := (List.range bs.length).map (fun i => (a + i, bs.getD i 0))

/-! ### L2 lines (R288, R290, R292) -/

def State.l2line (s : State) (line : Nat) : Option L2Line := Tbl.get? s.mem.l2 line
def State.poisoned (s : State) (line : Nat) : Bool :=
  match s.l2line line with
  | some l => l.poison
  | none => false
/-- A resident line is evicted: dirty data go to GDDR 7 or the host; a poisoned line stays (R288, R292, R324). -/
def State.l2Evict (s : State) (line : Nat) : State :=
  match s.l2line line with
  | some l =>
    if l.poison then s
    else
      let data := Mem.slice s.mem.home (line * 128) 128 (line * 128)
      { s with mem := { s.mem with
          dram := if l.dirty then Mem.overlay (Mem.clear s.mem.dram (line * 128) 128) data else s.mem.dram
          l2 := Tbl.del s.mem.l2 line } }
  | none => s
/-- The lines a slice has left for ordinary ones: 131,072, less the pinned lines of its die's tiles, of which each tile has 24 at
each slice (R425), the tuples' lines and the replicas (R288, R290). -/
def State.sliceRoom (s : State) (h : Nat) : Nat :=
  131072 - 24 * (s.tiles.filter (fun r => decide (r.1 / 1024 = dieOfSlice h) && !decide (r.2.state = .free))).length
    - ((s.slice h).tuples.length + 1) / 2 - (s.mem.replicas.filter (fun r => decide (r.2 = h))).length
/-- The ordinary lines a slice holds. -/
def State.sliceLines (s : State) (h : Nat) : List (Nat × L2Line) := s.mem.l2.filter (fun r => decide (s.home r.1 = h))
/-- A slice evicts a line that is not poisoned; which one is not stated (R288, R290, R292). -/
def State.sliceEvict (s : State) (h : Nat) : State :=
  let may := (s.sliceLines h).filter (fun r => !r.2.poison)
  match may[s.choose (900010 + h) may.length]? with
  | some r => s.l2Evict r.1
  | none => s
/-- A slice evicts lines until its ordinary ones, with `spare` more to come, fit what its 16 MiB leave them (R19, R288, R290). -/
def State.sliceTrim (s : State) (h spare : Nat) : State :=
  (List.range ((s.sliceLines h).length + spare - s.sliceRoom h)).foldl (fun s _ => s.sliceEvict h) s
/-- Whether the link behind a line answers: the CXL link for host memory, the GDDR 7 link of the line's die for device memory
(R276, R500). -/
def State.linked (s : State) (line : Nat) : Bool :=
  if hostWindow (line * 128) then s.fred.cxlUp else (s.die (gddrChannel s.minimal (line * 128)).1).memUp
/-- Whether a cluster, or the host with none, reaches the home of a line: its own die's always, another's while the die loop links
of both stand (R500). -/
def State.joined (s : State) (c : Option Nat) (line : Nat) : Bool :=
  match c with
  | some c =>
    decide (dieOfCluster c = dieOfSlice (s.home line)) || ((s.die (dieOfCluster c)).loopUp && (s.die (dieOfSlice (s.home line))).loopUp)
  | none => true
/-- Over a failed die loop link nothing passes: the access waits (R500). -/
def State.needLoop (s : State) (c : Option Nat) (line : Nat) : State := if s.joined c line then s else { s with lack := some .link }
/-- A miss is filled: the line becomes resident (R275, R282). Over a failed link nothing comes: the access waits (R500). -/
def State.fill (s : State) (line : Nat) : State :=
  match s.l2line line with
  | some _ => s
  | none =>
    let s := if s.linked line then s else { s with lack := some .link }
    let s := s.sliceTrim (s.home line) 1
    { s with mem := { s.mem with l2 := Tbl.set s.mem.l2 line ⟨false, false⟩ } }.count 3 (s.home line) 2 1
/-- The bytes of the home view, a poisoned line reading as zero, and whether any was bad (R292). -/
def State.homeBytes (s : State) (pa n : Nat) : List Byte × Bool :=
  let one := fun i => if s.poisoned ((pa + i) / 128) then (0 : Byte) else Mem.read s.mem.home (pa + i)
  ((List.range n).map one, (List.range n).any (fun i => s.poisoned ((pa + i) / 128)))

/-! ### Update-only partials (R327, R328) -/

/-- The clusters that hold a line, ascending. -/
def State.holders (s : State) (line : Nat) : List Nat :=
  (Tbl.keys s.clusters).filter (fun c => (Tbl.get? (s.cluster c).lines line).isSome)
def State.updateOnly (s : State) (line : Nat) : List Nat :=
  (s.holders line).filter (fun c =>
    match Tbl.get? (s.cluster c).lines line with
    | some l => decide (l.state = .updateOnly)
    | none => false)

/-- A cluster's copy of a line leaves its cache: a prefetched line never used counts as wasted (R305). -/
def State.dropCopy (s : State) (c line : Nat) : State :=
  let k := s.cluster c
  match Tbl.get? k.lines line with
  | some l =>
    let s := s.setCluster c { k with lines := Tbl.del k.lines line
                                     partials := List.filter (fun r => !decide (r.1 / 32 = line)) k.partials }
    if l.prefetched then s.count 2 c 3 1 else s
  | none => s

/-- Every redirect entry that names a line and every replica of it go before a write to it performs (R302). -/
def State.dropReplicas (s : State) (line : Nat) : State :=
  let reps := s.mem.replicas.filter (fun r => decide (r.1 = line))
  let s := { s with mem := { s.mem with replicas := s.mem.replicas.filter (fun r => !decide (r.1 = line)) } }
  let s := if reps.isEmpty then s else s.count 3 (s.home line) 0x12 reps.length
  (Tbl.keys s.clusters).foldl (fun s c =>
    let k := s.cluster c
    if k.redirects.any (fun r => decide (r.1 = line)) then
      s.setCluster c { k with redirects := k.redirects.filter (fun r => !decide (r.1 = line)) }
    else s) s

/-- Combine the partial of one unit of one cluster into the home (R328). -/
def State.combine (s : State) (unit : Nat) (p : Partial) : State :=
  let n := atomBytes p.fn
  let pa := unit * 4
  { s with mem := { s.mem with
      home := Mem.writeN s.mem.home pa n (atomOp p.fn (Mem.readN s.mem.home pa n) p.x) } }

/-- One write has performed at the line's home: its SEQ (R288, R342). -/
def State.bumpSeq (s : State) (line : Nat) : State :=
  let h := s.home line
  let k := s.slice h
  (s.setSlice h { k with seq := (k.seq + 1) % 2 ^ 16 }).count 3 h 1 1

/-- The home collects the update-only copies of the clusters `cs` and combines their partials: for each 8-byte word, the
clusters ascending, one write a word (R328). -/
def State.recallFrom (s : State) (line : Nat) (cs : List Nat) : State :=
  if cs.isEmpty then s
  else
    let s := ((s.dropReplicas line).fill line).count 3 (s.home line) 0x20 1
    let words := (List.range 16).map (fun w => line * 16 + w)
    let s := words.foldl (fun s w =>
      let parts := cs.flatMap (fun c => [2 * w, 2 * w + 1].flatMap (fun u =>
        match Tbl.get? (s.cluster c).partials u with
        | some p => [(u, p)]
        | none => []))
      if parts.isEmpty then s
      else ((parts.foldl (fun s up => s.combine up.1 up.2) s).bumpSeq line)) s
    let s := cs.foldl (fun s c => s.dropCopy c line) s
    match s.l2line line with
    | some l => { s with mem := { s.mem with l2 := Tbl.set s.mem.l2 line { l with dirty := true } } }
    | none => s
/-- A recall of every update-only copy of a line. -/
def State.recall (s : State) (line : Nat) : State := s.recallFrom line (s.updateOnly line)

/-! ### Writes at the home (R283, R288, R302, R342) -/

/-- Every cluster's copy of a line but the writer's is invalidated, with every redirect entry and replica; the writer's own is then
the only one (R283, R300, R302). -/
def State.dropOthers (s : State) (line : Nat) (writer : Option Nat) : State :=
  let s := ((s.holders line).filter (fun c => !decide (some c = writer))).foldl (fun s c => s.dropCopy c line) s
  let s := match writer with
    | none => s
    | some c =>
      let k := s.cluster c
      s.setCluster c { k with lines := Tbl.upd k.lines line (fun l => { l with forwardees := [], fromPeer := none }) }
  s.dropReplicas line
/-- The home grants the writing cluster ownership of a line of an RC or UO page, or leaves its copy as it is: which is not
stated (R283). -/
def State.grantOwned (s : State) (c line : Nat) : State :=
  let k := s.cluster c
  if s.flip (283000 + c) then
    s.setCluster c { k with lines := Tbl.upd k.lines line (fun l => { l with state := .owned }) }
  else s

/-- One write performs at its home: the cells of one line, in one step; a write of all 128 bytes clears POISON (R292). -/
def State.homeWriteCells (s : State) (line : Nat) (cs : List Host.Cell) (writer : Option Nat) : State :=
  let s := (((s.needLoop writer line).recall line).dropOthers line writer).fill line
  let s := { s with mem := { s.mem with home := Mem.overlay s.mem.home cs } }
  let s := match s.l2line line with
    | some l => { s with mem := { s.mem with
        l2 := Tbl.set s.mem.l2 line { dirty := true, poison := l.poison && decide (cs.length < 128) } } }
    | none => s
  s.bumpSeq line

/-- The ACKTAG of a write that has just performed on a line (R330). -/
def State.ackTag (s : State) (line : Nat) : W32 :=
  let h := s.home line
  BitVec.ofNat 32 (2 ^ 31 + h * 2 ^ 16 + (s.slice h).seq)

/-- Write `bs` at physical address `pa`, one write for each line touched. -/
def State.homeWriteBytes (s : State) (pa : Nat) (bs : List Byte) (writer : Option Nat) : State :=
  if bs.isEmpty then s
  else
    let lines := (List.range ((pa + bs.length - 1) / 128 - pa / 128 + 1)).map (pa / 128 + ·)
    lines.foldl (fun s l =>
      s.homeWriteCells l ((cellsAt pa bs).filter (fun c => decide (c.1 / 128 = l))) writer) s

/-- A line is read at its home: update-only partials are recalled first, and the line is filled (R275, R328, R483). -/
def State.homeTouch (s : State) (line : Nat) : State := ((s.recall line).fill line).count 3 (s.home line) 0 1

/-- Set POISON on a line, within the limits of R292; beyond them the line is written back as zeros. Which lines share a set
is not stated, so the limit of 2 in a set is a free choice once a slice holds two. -/
def State.setPoison (s : State) (line : Nat) : State :=
  let s := s.fill line
  let h := s.home line
  let n := (s.mem.l2.filter (fun r => r.2.poison && decide (s.home r.1 = h))).length
  if s.poisoned line then s
  else if 256 ≤ n ∨ (2 ≤ n ∧ s.flip 900001) then
    ({ s with mem := { s.mem with
        home := Mem.clear s.mem.home (line * 128) 128
        dram := Mem.clear s.mem.dram (line * 128) 128
        l2 := Tbl.del s.mem.l2 line } }.countErr (dieOfSlice h) 3).errorReport 0x292
  else
    match s.l2line line with
    | some l => { s with mem := { s.mem with l2 := Tbl.set s.mem.l2 line { l with poison := true } } }
    | none => s

/-- DISCARD at the home: its update-only copies are recalled (R328), and the line takes the value GDDR 7 holds, with its POISON gone
and every copy dropped (R324). -/
def State.homeDiscard (s : State) (line : Nat) : State :=
  let s := s.recall line
  let s := (s.holders line).foldl (fun s c => s.dropCopy c line) s
  let s := s.dropOthers line none
  let back := Mem.slice s.mem.dram (line * 128) 128 (line * 128)
  let s := { s with mem := { s.mem with home := Mem.overlay (Mem.clear s.mem.home (line * 128) 128) back
                                        l2 := Tbl.del s.mem.l2 line } }
  s.bumpSeq line

/-! ### The column caches (R284–R286) -/

def colKey (core line : Nat) : Nat := core * 2 ^ 41 + line
def State.colLine (s : State) (core line : Nat) : Option ColLine := Tbl.get? s.mem.cols (colKey core line)
def State.setCol (s : State) (core line : Nat) (c : ColLine) : State :=
  { s with mem := { s.mem with cols := Tbl.set s.mem.cols (colKey core line) c } }
def State.dropCol (s : State) (core line : Nat) : State :=
  { s with mem := { s.mem with cols := Tbl.del s.mem.cols (colKey core line) } }
/-- The lines a core's column holds. -/
def State.colLines (s : State) (core : Nat) : List Nat :=
  (s.mem.cols.filter (fun r => decide (r.1 / 2 ^ 41 = core))).map (fun r => r.1 % 2 ^ 41)
/-- The dirty bytes of a column line as cells. -/
def ColLine.dirtyCells (c : ColLine) (line : Nat) : List Host.Cell :=
  ((List.range 128).filter c.dirty.getLsbD).map (fun i => (line * 128 + i, BitVec.ofNat 8 (byteAt c.data i)))
/-- Whether a column's copy of [off, off + n) of a line meets an uncorrectable error. -/
def ColLine.badAt (c : ColLine) (off n : Nat) : Bool :=
  (List.range 16).any (fun w => c.bad.getLsbD w && wordTouches w off n)
/-- Whether a dirty byte of a column line lies in a word in error. -/
def ColLine.badDirty (c : ColLine) : Bool :=
  (List.range 128).any (fun i => c.dirty.getLsbD i && c.bad.getLsbD (i / 8))
/-- The dirty bytes of a line are written to the home, those in error as zero with the line's POISON set there, and then no cluster
keeps a copy of them (R291, R333); the line stays, clean. -/
def State.colClean (s : State) (core line : Nat) : State :=
  match s.colLine core line with
  | some c =>
    if c.dirty = 0 then s
    else
      let cl := clusterOf core
      let s := ((s.homeWriteCells line (c.dirtyCells line) (some cl)).grantOwned cl line).setCol core line { c with dirty := 0 }
      let s := s.pmcCount core 0x14 1 0
      if c.badDirty then ((s.setPoison line).dropCopy cl line).countErr (dieOfCore core) 2 else s
  | none => s
/-- One 8-byte word of a line of the host window is written back, its other dirty bytes staying in the column: a wide access there is
single-copy atomic only eight bytes at a time (R312). -/
def State.colCleanWord (s : State) (core line word : Nat) : State :=
  match s.colLine core line with
  | some c =>
    let cs := (c.dirtyCells line).filter (fun x => decide (x.1 / 8 = 16 * line + word))
    if cs.isEmpty || c.badDirty then s
    else
      let keep := BitVec.ofNat 128 (2 ^ 128 - 1 - 0xFF * 2 ^ (8 * word))
      (s.homeWriteCells line cs (some (clusterOf core))).setCol core line { c with dirty := c.dirty &&& keep }
  | none => s
/-- The dirty bytes are written and the copy dropped. -/
def State.colEvict (s : State) (core line : Nat) : State := (s.colClean core line).dropCol core line
/-- The lines of a column in the order a sweep takes them: which is last is a free choice. -/
def State.sweepOrder (s : State) (core : Nat) : List Nat :=
  let ls := s.colLines core
  let n := s.choose (286000 + core) ls.length
  ls.drop n ++ ls.take n
/-- Clean, and with `inv` drop, every line of a column that `p` picks. -/
def State.colSweep (s : State) (core : Nat) (p : ColLine → Bool) (inv : Bool) : State :=
  (s.sweepOrder core).foldl (fun s l =>
    match s.colLine core l with
    | some c => if p c then (if inv then s.colEvict core l else s.colClean core l) else s
    | none => s) s
/-- Whether an acquire or release at a scope acts on the column (R285): team scope does in a paired team. -/
def columnScope (paired : Bool) (scope : Nat) : Bool := decide (2 ≤ scope) || (decide (scope = 1) && paired)
/-- Release at a scope: dirty bytes of RC and UO lines of the issuing core's column go home (R285). -/
def State.columnRelease (s : State) (paired : Bool) (scope core : Nat) : State :=
  if columnScope paired scope then s.colSweep core (fun _ => true) false else s
/-- Acquire at a scope: dirty bytes of RC lines of the issuing core's column go home and RC lines are invalidated (R285). -/
def State.columnAcquire (s : State) (paired : Bool) (scope core : Nat) : State :=
  if columnScope paired scope then s.colSweep core (fun l => !l.uo) true else s

/-! The rows of a column (R284, R287): 2,048 of sixteen lines, less those the channels of the core hold. -/

/-- Column rows of one element (R357). -/
def rowsOf (esize : Nat) : Nat := (esize + 2047) / 2048
/-- The core whose column backs a channel. -/
def Team.backCore (t : Team) (c : Chan) : Nat := if c.back = 2 then t.core + 1 else t.core
/-- The column rows the channels of every team hold on a core, as first row and count. -/
def State.rowsHeld (s : State) (core : Nat) : List (Nat × Nat) :=
  s.teams.flatMap (fun r => (r.2.ch.filter (fun c => c.2.defd && decide (0 < c.2.back) && decide (r.2.backCore c.2 = core))).map
    (fun c => (c.2.row0, c.2.cap * rowsOf c.2.esize)))
/-- Column rows reserved on a core. -/
def rowTotal (held : List (Nat × Nat)) : Nat := (held.map (fun h => h.2)).sum
/-- The lines a column has room for beside the rows its core's channels hold. -/
def State.colRoom (s : State) (core : Nat) : Nat := 16 * (2048 - rowTotal (s.rowsHeld core))
/-- A column gives up one of its lines; which is not stated (R286). -/
def State.colEvictOne (s : State) (core : Nat) : State :=
  let ls := s.colLines core
  match ls[s.choose (284000 + core) ls.length]? with
  | some l => s.colEvict core l
  | none => s
/-- A line new to a full column first takes the place of another (R286). -/
def State.colMakeRoom (s : State) (core line : Nat) : State :=
  if (s.colLine core line).isSome || decide ((s.colLines core).length < s.colRoom core) then s else s.colEvictOne core

/-- A core's column passes accesses through: in minimal mode (R31), and in OFF, where it holds nothing (R306). -/
def State.noColumn (s : State) (core : Nat) : Bool := s.minimal || decide ((s.core core).powered = .off)
/-- A plain store into the column: the line is allocated without a fill, and the bytes written become dirty (R286, R314). A word
in error it touches gets a fresh code, and is counted when the store is narrower (R293). -/
def State.colStore (s : State) (core pa : Nat) (bs : List Byte) (uo : Bool) : State :=
  let line := pa / 128
  let off := pa % 128
  let s := s.colMakeRoom core line
  let c := (s.colLine core line).getD ⟨0, 0, uo, 0, 0⟩
  let hit := (List.range 16).filter (fun w => c.bad.getLsbD w && wordTouches w off bs.length)
  let narrow := hit.filter (fun w => decide (8 * w < off) || decide (off + bs.length < 8 * w + 8))
  let c := { c with bad := hit.foldl (fun b w => b &&& ~~~(BitVec.ofNat 16 (2 ^ w))) c.bad }
  let put := fun (c : ColLine) (i : Nat) =>
    let j := off + i
    let bit := BitVec.ofNat 128 (2 ^ j)
    { c with valid := c.valid ||| bit, dirty := c.dirty ||| bit, data := setByteAt c.data j (bs.getD i 0).toNat }
  let s := if narrow.isEmpty then s else s.count 5 (dieOfCore core) 2 narrow.length
  s.setCol core line ((List.range bs.length).foldl put c)

/-- A load miss fills the bytes the column does not hold (R286). -/
def State.colFill (s : State) (core line : Nat) (uo : Bool) : State :=
  let s := s.colMakeRoom core line
  let c := (s.colLine core line).getD ⟨0, 0, uo, 0, 0⟩
  let data := (List.range 128).foldl (fun d i =>
    if c.valid.getLsbD i then d else setByteAt d i (Mem.read s.mem.home (line * 128 + i)).toNat) c.data
  s.setCol core line { c with valid := BitVec.ofNat 128 (2 ^ 128 - 1), data := data }

/-- An uncorrectable error in a word of a column line (R291): it delivers zero until it is written. -/
def State.upsetCol (s : State) (core line word : Nat) : State :=
  match s.colLine core line with
  | some c =>
    if 16 ≤ word then s
    else s.setCol core line { c with data := (List.range 8).foldl (fun d i => setByteAt d (8 * word + i) 0) c.data
                                     bad := c.bad ||| BitVec.ofNat 16 (2 ^ word) }
  | none => s

/-- Whether the column holds every byte of [pa, pa + n). -/
def State.colHit (s : State) (core pa n : Nat) : Bool :=
  match s.colLine core (pa / 128) with
  | some c => (List.range n).all (fun i => c.valid.getLsbD (pa % 128 + i))
  | none => false
/-- The column's bytes. -/
def State.colBytes (s : State) (core pa n : Nat) : List Byte :=
  match s.colLine core (pa / 128) with
  | some c => (List.range n).map (fun i => BitVec.ofNat 8 (byteAt c.data (pa % 128 + i)))
  | none => (List.range n).map (fun _ => 0)
/-- Whether they meet an uncorrectable error. -/
def State.colBad (s : State) (core pa n : Nat) : Bool :=
  match s.colLine core (pa / 128) with
  | some c => c.badAt (pa % 128) n
  | none => false

/-! ### The cluster cache's copies, peers and the Repeater (R283, R298–R302) -/

/-- A line new to a full cluster cache first takes the place of another that holds no partials, or, where all hold them, the
oldest is recalled; which lines share a set is not stated (R283, R327). -/
def State.clusterMakeRoom (s : State) (c : Nat) : State :=
  let ls := (s.cluster c).lines
  if ls.length < 8192 then s
  else
    let may := ls.filter (fun r => !decide (r.2.state = .updateOnly))
    match may[s.choose (283100 + c) may.length]? with
    | some r => s.dropCopy c r.1
    | none =>
      match ls.foldl (fun (b : Option (Nat × CLine)) r =>
          match b with | none => some r | some o => if r.2.since < o.2.since then some r else b) none with
      | some r => s.recall r.1
      | none => s
/-- A copy enters a cluster cache. -/
def State.takeCopy (s : State) (c line : Nat) (x : CLine) : State :=
  let s := s.clusterMakeRoom c
  let k := s.cluster c
  s.setCluster c { k with lines := Tbl.set k.lines line x }
/-- A copy held owned elsewhere becomes read-only before another cluster reads the line (R283). -/
def State.shareLine (s : State) (line : Nat) : State :=
  (s.holders line).foldl (fun s c =>
    let k := s.cluster c
    s.setCluster c { k with lines := Tbl.upd k.lines line (fun l => if l.state = .owned then { l with state := .readOnly } else l) }) s
/-- A read-only copy enters a cluster cache, or a demand access uses the copy there is. -/
def State.installCopy (s : State) (c line : Nat) (pf : Bool) (peer : Option Nat) : State :=
  let k := s.cluster c
  match Tbl.get? k.lines line with
  | some l => if pf then s else s.setCluster c { k with lines := Tbl.set k.lines line { l with prefetched := false } }
  | none => (s.shareLine line).takeCopy c line ⟨.readOnly, [], peer, pf, s.ck⟩

/-- A demand access counts a hit or a miss of the cluster cache and the use of a prefetch (R305, R483). -/
def State.clusterLookup (s : State) (c line : Nat) : State :=
  match Tbl.get? (s.cluster c).lines line with
  | some l =>
    let s := s.count 2 c 0x30 1
    if l.prefetched then
      (s.count 2 c 1 1).installCopy c line false none
    else s
  | none => s.count 2 c 0x31 1

/-- The peer-prediction entry of a line (R298). -/
def peerIndex (line : Nat) : Nat := (line % 4096).xor (line / 4096 % 4096)
/-- The prediction a slice's response writes: the lowest other cluster that holds the line read-only (R298). -/
def State.learnPeer (s : State) (c line : Nat) : State :=
  match (s.holders line).filter (fun d => !decide (d = c) &&
      (match Tbl.get? (s.cluster d).lines line with | some l => decide (l.state = .readOnly) | none => false)) with
  | d :: _ => let k := s.cluster c
              s.setCluster c { k with peers := Tbl.set k.peers (peerIndex line) d }
  | [] => s

/-- The helper slices of a line: one in each other quadrant of the home's die, at the home's stop (R301). -/
def helperSlices (h : Nat) : List Nat :=
  ((List.range 4).filter (fun q => !decide (q = h / 4 % 4))).map (fun q => 16 * (h / 16) + 4 * q + h % 4)
/-- The helper a cluster's redirect entry names, if it gets one (R301). -/
def helperFor (h c : Nat) : Option Nat :=
  let q := c % 12 / 3
  if q = h / 4 % 4 then none else some (16 * (h / 16) + 4 * q + h % 4)

/-- A line no cluster holds but read-only. -/
def State.heldReadOnly (s : State) (line : Nat) : Bool :=
  (s.holders line).all (fun c =>
    match Tbl.get? (s.cluster c).lines line with | some l => decide (l.state = .readOnly) | none => true)

/-- Replicas of a line enter its helper slices, which evict lines for them (R19, R301). -/
def State.pushReplicas (s : State) (line : Nat) : State :=
  let h := s.home line
  let new := (helperSlices h).filter (fun p => !decide ((line, p) ∈ s.mem.replicas))
  let s := { s with mem := { s.mem with replicas := s.mem.replicas ++ new.map (fun p => (line, p)) } }
  (new.foldl (fun s p => s.sliceTrim p 0) s).count 3 h 0x10 3
/-- The number a slice keeps for the reader of a line: its cluster's, or 63 for one outside the clusters. -/
def readerOf (c : Option Nat) : Nat := c.getD 63
/-- A slice counts a read of a read-only line; at 64 reads from 4 clusters within 1,024 cache-die cycles the Repeater pushes
replicas and redirects (R301). The times are kept in ck; 1,024 cache-die cycles are 1,200 ck. -/
def State.repeaterCount (s : State) (c line : Nat) : State :=
  if !s.heldReadOnly line then s
  else
  let h := s.home line
  let k := s.slice h
  let recent := ((Tbl.getD k.reads line []).filter (fun r => decide (s.ck ≤ r / 64 + 1200)))
  let now := recent ++ [s.ck * 64 + c]
  let cs := ((now.map (fun r => r % 64)).eraseDups).filter (fun c => decide (c < 48))
  if 64 ≤ now.length ∧ 4 ≤ cs.length then
    let s := (s.setSlice h { k with reads := Tbl.del k.reads line }).pushReplicas line
    cs.foldl (fun s c =>
      match helperFor h c with
      | some p =>
        let k := s.cluster c
        s.setCluster c { k with redirects := (((line, p) :: k.redirects.filter (fun r => !decide (r.1 = line))).take 256) }
      | none => s) s
  else s.setSlice h { k with reads := Tbl.set k.reads line now }

/-! ### The answer to a read that misses the cluster cache (R282 steps 3 and 4) -/

/-- A slice answers a read of a line by a cluster, or by the host or a unit outside the clusters: its partials recalled, the
prediction written and the Repeater's window kept (R282, R298, R301). -/
def State.homeServe (s : State) (c : Option Nat) (line : Nat) : State :=
  let s := (s.needLoop c line).homeTouch line
  (match c with | some c => s.learnPeer c line | none => s).repeaterCount (readerOf c) line
/-- Bytes read at their homes, past every cache. -/
def State.homeReadBytes (s : State) (c : Option Nat) (pa n : Nat) : State × List Byte × Bool :=
  let lines := (List.range ((pa + n - 1) / 128 - pa / 128 + 1)).map (pa / 128 + ·)
  let s := lines.foldl (fun s l => s.homeServe c l) s
  (s, s.homeBytes pa n)

/-- The home answers a cluster: a good line enters the cluster cache (R282). -/
def State.homeAnswer (s : State) (c line : Nat) (pf : Bool) : State × Bool :=
  let s := s.homeServe (some c) line
  if s.poisoned line then (s, true) else (s.installCopy c line pf none, false)
/-- A redirected read: the entry becomes the one used last; the replica serves, or the helper passes the read on to the home
(R301, R302). -/
def State.redirectedRead (s : State) (c line helper : Nat) (pf : Bool) : State × Bool :=
  let k := s.cluster c
  let s := s.setCluster c { k with redirects := (line, helper) :: k.redirects.filter (fun r => !decide (r.1 = line)) }
  let s := s.count 2 c 0x41 1
  if (line, helper) ∈ s.mem.replicas then ((s.count 3 helper 0x11 1).installCopy c line pf none, false)
  else s.homeAnswer c line pf
/-- A probe of the predicted peer: it forwards its read-only line, or misses; the entry is then cleared and the home asked. A
forwardee forwards nothing, and a peer with eight of them misses. The saved hops counter's increment is not stated: a free value
(R299, R300). -/
def State.probePeer (s : State) (c line p : Nat) (pf : Bool) : State × Bool :=
  match Tbl.get? (s.cluster p).lines line with
  | some l =>
    if l.state = .readOnly ∧ l.fromPeer.isNone ∧ l.forwardees.length < 8 then
      let q := s.cluster p
      let s := s.setCluster p { q with lines := Tbl.set q.lines line { l with forwardees := l.forwardees ++ [c] } }
      (((s.installCopy c line pf (some p)).count 2 c 0x10 1).count 2 c 0x12 (s.choose 900600 64), false)
    else clearAndAsk s
  | none => clearAndAsk s
where
  clearAndAsk (s : State) : State × Bool :=
    let k := s.cluster c
    ((s.setCluster c { k with peers := Tbl.del k.peers (peerIndex line) }).count 2 c 0x11 1).homeAnswer c line pf
/-- The answer to a read of a line: for a plain load or a prefetch of an RC or UO line a redirect entry or a valid prediction is
used before the home; where both stand, the redirect (DESIGN CHOICE, log entry 107). The answer says whether the line was bad. -/
def State.serveLine (s : State) (c line : Nat) (plain pf : Bool) : State × Bool :=
  let k := s.cluster c
  if plain then
    match k.redirects.find? (fun r => decide (r.1 = line)) with
    | some r => s.redirectedRead c line r.2 pf
    | none =>
      match Tbl.get? k.peers (peerIndex line) with
      | some p => s.probePeer c line p pf
      | none => s.homeAnswer c line pf
  else s.homeAnswer c line pf

/-! ### Miss-status entries (R26, R303) -/

/-- Whether row `i` of a cluster's misses holds an entry: it is among the first 1,024 and no earlier row is of its line; a row
that holds none waits (R26, R303). -/
def Cluster.holdsEntry (k : Cluster) (i : Nat) : Bool :=
  decide (i < 1024) && match k.misses[i]? with
    | some m => (k.misses.take i).all (fun x => !decide (x.line = m.line))
    | none => false
/-- The row of a request for a line. -/
def Cluster.missRow (k : Cluster) (who : Nat × Nat) (line : Nat) : Option Nat :=
  k.misses.findIdx? (fun m => decide (m.line = line) && m.reqs.contains who)
/-- A miss joins the entry of its line, while it has fewer than 16 requests; it takes a free entry; or it waits, and is counted. A
demand miss that joins a prefetch makes it late and useful (R303, R305). -/
def State.takeMiss (s : State) (c line : Nat) (who : Nat × Nat) : State :=
  let k := s.cluster c
  match (k.misses.take 1024).findIdx? (fun m => decide (m.line = line) && decide (m.reqs.length < 16)) with
  | some i =>
    let late := match k.misses[i]? with | some m => m.prefetch | none => false
    let s := s.setCluster c { k with misses := k.misses.modify i (fun m => { m with reqs := m.reqs ++ [who], prefetch := false }) }
    if late then (s.count 2 c 2 1).count 2 c 1 1 else s
  | none =>
    let waits := decide (1024 ≤ k.misses.length) || k.misses.any (fun m => decide (m.line = line))
    let s := s.setCluster c { k with misses := k.misses ++ [⟨line, [who], false⟩] }
    if waits then s.count 2 c 0x32 1 else s
/-- A prefetch takes an entry, or waits for one; a line that is in the cluster cache, or on its way, is not sent for (R304). -/
def State.takePrefetch (s : State) (c line : Nat) : State :=
  let k := s.cluster c
  if (Tbl.get? k.lines line).isSome || k.misses.any (fun m => decide (m.line = line)) then s
  else
    let waits := decide (1024 ≤ k.misses.length)
    let s := (s.setCluster c { k with misses := k.misses ++ [⟨line, [], true⟩] }).count 2 c 0 1
    if waits then s.count 2 c 0x32 1 else s
/-- A request of a line is answered: it leaves the rows of the line, and a row without requests goes. -/
def State.endMiss (s : State) (c line : Nat) (who : Nat × Nat) : State :=
  let k := s.cluster c
  let ms := k.misses.map (fun m => if m.line = line then { m with reqs := m.reqs.filter (fun r => !decide (r = who)) } else m)
  s.setCluster c { k with misses := ms.filter (fun m => m.prefetch || !m.reqs.isEmpty) }
/-- The line has come: the row that held its entry goes with every request that joined it. -/
def State.endEntry (s : State) (c line : Nat) : State :=
  let k := s.cluster c
  match k.misses.findIdx? (fun m => decide (m.line = line)) with
  | some i => s.setCluster c { k with misses := k.misses.eraseIdx i }
  | none => s
/-- Whether an access of a request that misses the cluster cache may go on: its row holds an entry. -/
def State.missReady (s : State) (c line : Nat) (who : Nat × Nat) : Bool :=
  match (s.cluster c).missRow who line with
  | some i => (s.cluster c).holdsEntry i
  | none => false
/-- Whether an access that performs at once finds an entry to take or to join. -/
def State.missFree (s : State) (c line : Nat) : Bool :=
  let k := s.cluster c
  (Tbl.get? k.lines line).isSome || (decide (k.misses.length < 1024) && !k.misses.any (fun m => decide (m.line = line)))
    || (k.misses.take 1024).any (fun m => decide (m.line = line) && decide (m.reqs.length < 16))
/-- A request that performs at once takes an entry, or joins one, as a miss does, and leaves it when it is answered; where there is
none for it, its turn waits (R26, R303). -/
def State.passMiss (s : State) (c line : Nat) (who : Nat × Nat) : State :=
  if s.missReady c line who then s
  else if s.missFree c line then s.takeMiss c line who
  else { s with lack := some (.entry c line who) }
/-- The prefetch of a line is answered: its entry goes, and a good line enters the cluster cache as prefetched; a bad one is not
kept, and counts as wasted (R304, R305). -/
def State.fillPrefetch (s : State) (c line : Nat) : State :=
  let k := s.cluster c
  match k.misses.findIdx? (fun m => decide (m.line = line) && m.prefetch) with
  | some i =>
    if k.holdsEntry i then
      let r := (s.endEntry c line).serveLine c line true true
      if r.2 then r.1.count 2 c 3 1 else r.1
    else s
  | none => s

/-! ### Page tables (R416–R418) -/

/-- Why an address does not translate: cause, sub-code and level. -/
structure XErr where
  cause : Nat
  sub : Nat
  level : Nat
  deriving DecidableEq, Repr

def pageFault (sub level : Nat) : XErr := ⟨0x05, sub, level⟩
def protection (sub level : Nat) : XErr := ⟨0x06, sub, level⟩

/-- Bits 63:48 equal bit 47 (R6). -/
def canonical (va : W64) : Bool :=
  let h := va.toNat / 2 ^ 47
  decide (h = 0) || decide (h = 2 ^ 17 - 1)

def pteValid (e : W64) : Bool := e.getLsbD 0
def pteLeaf (e : W64) : Bool := e.getLsbD 1
def pteW (e : W64) : Bool := e.getLsbD 3
def pteKind (e : W64) : PKind :=
  match e.toNat / 16 % 4 with
  | 0 => .rc | 1 => .so | 2 => .uo | _ => .ts
def pteX (e : W64) : Bool := e.getLsbD 6
def pteUniq (e : W64) : Bool := e.getLsbD 7
def pteContig (e : W64) : Bool := e.getLsbD 8
def pteBuf (e : W64) : Bool := e.getLsbD 9
def ptePa (e : W64) : Nat := e.toNat / 4096 % 2 ^ 36 * 4096

/-- A valid entry whose reserved or required-zero fields are zero (R417). -/
def pteFieldsOk (e : W64) (level : Nat) : Bool :=
  let n := e.toNat
  decide (n / 2 ^ 48 = 0) && decide (n / 1024 % 4 = 0) && decide (n / 4 % 2 = 0) &&
    if pteLeaf e then
      (!decide (level = 1) || decide (n / 4096 % 512 = 0)) && (!decide (level = 2) || decide (n / 4096 % 2 ^ 18 = 0))
        && (!pteUniq e || decide (pteKind e = .ts)) && (!pteBuf e || decide (pteKind e = .rc) || decide (pteKind e = .uo))
        && (!pteContig e || (decide (level = 0) && !decide (pteKind e = .ts)))
    else decide (n / 8 % 2 ^ 7 = 0)

/-- The table index of a level (R416). -/
def vaIndex (va : W64) (level : Nat) : Nat := va.toNat / 2 ^ (12 + 9 * level) % 512

/-- The entry of one level of a walk, checked in the order of R418. -/
def State.walkRead (s : State) (va : W64) (level table : Nat) : Except XErr W64 :=
  if !s.backed table then .error (pageFault 7 level)
  else
    let pa := table + 8 * vaIndex va level
    let v := (s.recall (pa / 128)).homeBytes pa 8
    let e : W64 := BitVec.ofNat 64 (ofBytes v.1)
    if v.2 then .error (pageFault 6 level)
    else if !pteValid e then .error (pageFault 1 level)
    else if (pteLeaf e && decide (level = 3)) || (!pteLeaf e && decide (level = 0)) then .error (pageFault 3 level)
    else if !pteFieldsOk e level then .error (pageFault 2 level)
    else .ok e

/-- A walk from a table at a level: the leaf's level and entry. -/
def State.walkAt (s : State) (va : W64) : Nat → Nat → Except XErr (Nat × W64)
  | 0, table => (s.walkRead va 0 table).map (fun e => (0, e))
  | n + 1, table =>
    match s.walkRead va (n + 1) table with
    | .error x => .error x
    | .ok e => if pteLeaf e then .ok (n + 1, e) else s.walkAt va n (ptePa e)

/-- A page walk (R418). -/
def State.walk (s : State) (va : W64) : Except XErr (Nat × W64) :=
  if !canonical va then .error (pageFault 4 3) else s.walkAt va 3 s.win.ptbase.toNat

/-- The lines of the table entries a walk reads. -/
def State.walkLines (s : State) (va : W64) : Nat → Nat → List Nat
  | 0, table => if s.backed table then [(table + 8 * vaIndex va 0) / 128] else []
  | n + 1, table =>
    if s.backed table then
      ((table + 8 * vaIndex va (n + 1)) / 128) ::
        (match s.walkRead va (n + 1) table with
        | .ok e => if pteLeaf e then [] else s.walkLines va n (ptePa e)
        | .error _ => [])
    else []
/-- A walk reads its entries at their homes, a faulting one to the entry that stops it: update-only copies of the lines are recalled
(R328, R483). -/
def State.commitWalk (s : State) (va : W64) : State :=
  if canonical va then (s.walkLines va 3 s.win.ptbase.toNat).foldl State.homeTouch s else s

/-- Bytes a leaf of a level maps (R416). -/
def leafSize (level : Nat) : Nat := 2 ^ (12 + 9 * level)
/-- The base of the leaf's virtual range. -/
def leafBase (va : W64) (level : Nat) : Nat := va.toNat / leafSize level * leafSize level

/-! ### TLBs (R419–R421) -/

def TlbEntry.covers (t : TlbEntry) (ctx : Nat) (va : W64) : Bool :=
  decide (t.ctx = ctx) && decide (leafBase va t.level = t.base)
/-- The TLB row of an address: the cluster's, then its die's. -/
def State.tlbFind (s : State) (cl : Nat) (va : W64) : Option TlbEntry :=
  match (s.cluster cl).tlb.find? (fun t => t.covers s.win.ctxid va) with
  | some t => some t
  | none => (s.die (dieOfCluster cl)).tlb.find? (fun t => t.covers s.win.ctxid va)

/-- The leaf an access uses: a TLB's, or a walk's. -/
def State.leaf (s : State) (cl : Nat) (va : W64) : Except XErr (Nat × W64) :=
  if !canonical va then .error (pageFault 4 3)
  else
    match s.tlbFind cl va with
    | some t => .ok (t.level, t.entry)
    | none => s.walk va

/-- The 16 leaves of a contiguous group agree (R420). -/
def State.contigOk (s : State) (va : W64) : Bool :=
  let g := va.toNat / 2 ^ 16 * 2 ^ 16
  let es := (List.range 16).map (fun i => s.walk (BitVec.ofNat 64 (g + 4096 * i)))
  match es.getD 0 (.error (pageFault 1 0)) with
  | .ok (_, e0) =>
    decide (ptePa e0 % 2 ^ 16 = 0) && (List.range 16).all (fun i =>
      match es.getD i (.error (pageFault 1 0)) with
      | .ok (0, e) => pteContig e && decide (ptePa e = ptePa e0 + 4096 * i) && decide (pteKind e = pteKind e0)
          && decide (pteW e = pteW e0) && decide (pteX e = pteX e0) && decide (pteBuf e = pteBuf e0)
      | _ => false)
  | _ => false

/-- The leaves of one contiguous group that the device has walked since their last invalidation (R420). -/
def State.groupLeaves (s : State) (va : W64) : List W64 :=
  s.walked.filterMap (fun t =>
    if t.ctx = s.win.ctxid ∧ t.level = 0 ∧ t.base / 2 ^ 16 = va.toNat / 2 ^ 16 then some t.entry else none)

/-- The leaf after R420: when a leaf of the page's group has CONTIG set and the group breaks its conditions, the page's own, or any
leaf of the group the device has walked, a free choice. -/
def State.leafUsed (s : State) (cl : Nat) (va : W64) : Except XErr (Nat × W64) :=
  let own := s.leaf cl va
  let small := match own with | .ok (n, _) => decide (n = 0) | .error _ => canonical va
  if !small then own
  else
    let mine := match own with | .ok (_, e) => [e] | .error _ => []
    let es := s.groupLeaves va
    if (mine ++ es).any pteContig && !s.contigOk va then
      match es[s.choose (910000 + va.toNat / 4096 % 4096) (es.length + 1)]? with
      | some e => .ok (0, e)
      | none => own
    else own

/-- What an access does, for the checks of R418 and R423. -/
inductive Intent where
  | read | write | exec | engWrite
  deriving DecidableEq, Repr

/-- A translation: physical address, page kind, BUF and UNIQ. -/
structure Xlat where
  pa : Nat
  kind : PKind
  buf : Bool
  uniq : Bool
  deriving DecidableEq, Repr

/-- The lowest valid buffer entry whose range holds an address (R422). -/
def State.bufferOf (s : State) (va : W64) : Option Buffer :=
  (s.buffers.map (fun r => r.2)).find? (fun b =>
    b.valid && decide (b.vbase.toNat ≤ va.toNat % 2 ^ 48) && decide (va.toNat % 2 ^ 48 < b.vbase.toNat + b.size * 65536))

/-- The translation of an address for an access by a cluster (R418, R423). -/
def State.translate (s : State) (cl : Nat) (va : W64) (i : Intent) : Except XErr Xlat :=
  match s.leafUsed cl va with
  | .error e => .error e
  | .ok (level, e) =>
    let pa : Except XErr Nat :=
      if pteBuf e then
        match s.bufferOf va with
        | some b =>
          let second := if i = .engWrite then !b.cur else b.cur
          .ok ((if second then b.pa1 else b.pa0).toNat + (va.toNat % 2 ^ 48 - b.vbase.toNat))
        | none => .error (pageFault 5 level)
      else .ok (ptePa e + va.toNat % leafSize level)
    match pa with
    | .error x => .error x
    | .ok p =>
      if !s.backed p then .error (protection 0x12 level)
      else if (decide (i = .write) || decide (i = .engWrite)) && !pteW e then .error (protection 0x10 level)
      else if decide (i = .exec) && !pteX e then .error (protection 0x11 level)
      else .ok ⟨p, pteKind e, pteBuf e, pteUniq e⟩

/-- A walk has found a 4 KiB leaf: it is among those R420 may use. -/
def State.noteWalk (s : State) (t : TlbEntry) : State :=
  if t.level ≠ 0 then s
  else { s with walked := t :: s.walked.filter (fun x => !(decide (x.ctx = t.ctx) && decide (x.base = t.base))) }
/-- The leaf a walk of an address ends in, as the walks under way name it: the base of its range, and its level in the low bits. -/
def State.walkName (s : State) (va : W64) : Nat :=
  match s.walk va with
  | .ok (level, _) => leafBase va level + level
  | .error _ => leafBase va 0
/-- A walk of a die ends: its leaf enters the shared TLB, but a faulting walk leaves nothing, one whose page has no buffer entry included
(R418, R419). -/
def State.endWalk (s : State) (d : Nat) (va : W64) : State :=
  let ctx := s.win.ctxid
  let found := s.walk va
  let s := s.commitWalk va
  match found with
  | .ok (level, e) =>
    if pteBuf e && (s.bufferOf va).isNone then s
    else
      let t : TlbEntry := ⟨ctx, leafBase va level, level, e⟩
      let q := s.die d
      (s.setDie d { q with tlb := (t :: q.tlb).take 131072 }).noteWalk t
  | .error _ => s
/-- Whether a walk under way ends in the leaf of an address. -/
def walkCovers (va : W64) (x : Nat × Nat) : Bool := decide (leafBase va (x.2 % 4096) = x.2 / 4096 * 4096)
/-- The walks of an address's leaf leave their walkers. -/
def State.leaveWalk (s : State) (d : Nat) (va : W64) : State :=
  let q := s.die d
  s.setDie d { q with walks := q.walks.filter (fun x => !walkCovers va x) }
/-- A walk: it joins one of the same leaf that holds a walker, or takes a walker; when all 512 are busy its turn waits for one
(R27, R419). -/
def State.walkFill (s : State) (d : Nat) (va : W64) : State :=
  let ws := (s.die d).walks
  let me := (s.win.ctxid, s.walkName va)
  if (ws.take 512).any (fun x => decide (x.1 = s.win.ctxid) && walkCovers va x) then (s.endWalk d va).leaveWalk d va
  else if ws.length < 512 then (s.count 4 d 0x12 1).endWalk d va
  else { s with lack := some (.walker d me) }

/-- A translation that the shared TLB of a die is asked for, by a cluster that misses its own or by a unit of the die: it counts there,
and a miss walks (R419, R483). -/
def State.touchShared (s : State) (d : Nat) (va : W64) : State :=
  if !canonical va then s
  else if (s.die d).tlb.any (fun t => t.covers s.win.ctxid va) then s.count 4 d 0x10 1
  else (s.count 4 d 0x11 1).walkFill d va
/-- A leaf of the shared TLB enters a cluster's (R419). -/
def State.takeLeaf (s : State) (cl : Nat) (va : W64) : State :=
  match (s.die (dieOfCluster cl)).tlb.find? (fun t => t.covers s.win.ctxid va) with
  | some t =>
    let k := s.cluster cl
    s.setCluster cl { k with tlb := (t :: k.tlb).take 512 }
  | none => s
/-- A translation by a cluster leaves its leaf in the TLBs and counts there (R419, R483). -/
def State.touchTlb (s : State) (cl : Nat) (va : W64) : State :=
  if !canonical va then s
  else if (s.cluster cl).tlb.any (fun t => t.covers s.win.ctxid va) then s.count 2 cl 0x20 1
  else ((s.count 2 cl 0x21 1).touchShared (dieOfCluster cl) va).takeLeaf cl va

/-! ### Turns that wait for a walker, an entry or a link (R26, R27, R303, R500) -/

/-- A waiting walk or request stands in its list, once, and is counted (R483). -/
def State.queueFor (s : State) (x : Lack) : State :=
  match x with
  | .walker d me =>
    let q := s.die d
    if q.walks.contains me then s else ((s.setDie d { q with walks := q.walks ++ [me] }).count 4 d 0x12 1).count 4 d 0x13 1
  | .entry c line who => if ((s.cluster c).missRow who line).isSome then s else s.takeMiss c line who
  | .link => s
/-- The end of a turn that began at `s`: where it lacked something, nothing of it has happened and it waits. -/
def State.orWait (s t : State) : State :=
  match t.lack with
  | some x => s.queueFor x
  | none => t

/-! ### Local levels (R265, R269, R272) -/

def lpKey (lane off : Nat) : Nat := lane * 8192 + off
def scratchKey (core off : Nat) : Nat := core * 2 ^ 19 + off
/-- The scratchpad byte of a cluster-shared address in a cluster (R269). -/
def csmKey (cl a : Nat) : Nat :=
  let g := a / 4096
  scratchKey (4 * cl + g % 4) (g / 4 * 4096 + a % 4096)
/-- CSM_BASE of an allotment at physical offset `p` on position `k` of its cluster (R270). -/
def csmBase (p k : Nat) : Nat := p / 4096 * 2 ^ 14 + k * 4096
def chipKey (die off : Nat) : Nat := die * 2 ^ 26 + off
/-- The byte addresses of a bank: granules of 4 KiB in turn (R272). -/
def bankOf (off : Nat) : Nat := off / 4096 % 16
/-- The die and offset a chip address names (R272, R273). -/
def State.chipPlace (s : State) (core : Nat) (a : W64) : Except XErr Nat :=
  let n := a.toNat
  let abs := n / 2 ^ 28 % 2
  let field := n / 2 ^ 26 % 4
  if n / 2 ^ 29 ≠ 0 ∨ (abs = 0 ∧ field ≠ 0) ∨ (s.minimal = true ∧ abs = 1 ∧ field ≠ 0) then .error (protection 0 0)
  else
    let d := if abs = 1 then field else dieOfCore core
    if (s.die d).cplimit ≤ n % 2 ^ 26 then .error (protection 0 0) else .ok (chipKey d (n % 2 ^ 26))

end Sys2Proof.Machine
end

