-- ==== Sys2Proof/Machine/Ops.lean ====
section
/-! DEFINITION. The shared operations: agents and their places, how a word ends, taking a trap and returning from one (R140,
R436–R443, R447), deferred and stream faults, STOP reports, idempotence (R60), the end of a wave (R207, R435), and the
requests of the in-flight paths (R143, R311, R316). -/

namespace Sys2Proof.Machine

abbrev Out := Host.Outcome State Fault Refusal

/-! ### Agents -/

def waveKey (core slot : Nat) : Nat := core * 32 + slot
def State.wave? (s : State) (core slot : Nat) : Option Wave := Tbl.get? s.waves (waveKey core slot)
def State.setWave (s : State) (core slot : Nat) (w : Wave) : State :=
  { s with waves := Tbl.set s.waves (waveKey core slot) w }
def State.updWave (s : State) (core slot : Nat) (f : Wave → Wave) : State :=
  { s with waves := Tbl.upd s.waves (waveKey core slot) f }
def State.stream? (s : State) (core : Nat) : Option Stream := Tbl.get? s.streams core
def State.setStream (s : State) (core : Nat) (m : Stream) : State := { s with streams := Tbl.set s.streams core m }
def State.updStream (s : State) (core : Nat) (f : Stream → Stream) : State := { s with streams := Tbl.upd s.streams core f }
def State.team? (s : State) (t : Nat) : Option Team := Tbl.get? s.teams t
def State.setTeam (s : State) (t : Nat) (x : Team) : State := { s with teams := Tbl.set s.teams t x }
def State.updTeam (s : State) (t : Nat) (f : Team → Team) : State := { s with teams := Tbl.upd s.teams t f }
def State.launch? (s : State) (l : Nat) : Option Launch := Tbl.get? s.launches l
def State.setLaunch (s : State) (l : Nat) (x : Launch) : State := { s with launches := Tbl.set s.launches l x }
def State.updLaunch (s : State) (l : Nat) (f : Launch → Launch) : State := { s with launches := Tbl.upd s.launches l f }

/-- The resident waves of a team, as core, slot and wave. -/
def State.teamWaves (s : State) (t : Nat) : List (Nat × Nat × Wave) :=
  (s.waves.filter (fun r => decide (r.2.team = t))).map (fun r => (r.1 / 32, r.1 % 32, r.2))
/-- The cores a team occupies (R14). -/
def Team.cores (t : Team) : List Nat := if t.paired then [t.core, t.core + 1] else [t.core]
/-- Whether a team is paired. -/
def State.paired (s : State) (t : Nat) : Bool :=
  match s.team? t with
  | some x => x.paired
  | none => false
/-- Whether the context of a team is the running one. The device runs one context at a time on a core (R488): while CTXID names another, no
agent of the team issues and no command of it translates (DESIGN CHOICE, log entry 140). -/
def State.ctxRuns (s : State) (t : Nat) : Bool :=
  match s.team? t with
  | some x => (match s.launch? x.launch with | some l => decide (l.ctx = s.win.ctxid) | none => true)
  | none => true
/-- Whether bad data trap POISON in a team's agents (R461). -/
def State.poisonTraps (s : State) (t : Nat) : Bool :=
  s.win.errpol.getLsbD 0 ||
    match s.team? t with
    | some x => x.poisonTrap
    | none => (match Tbl.get? s.saved t with | some x => x.team.poisonTrap | none => false)

/-- Run a meaning on the current wave. -/
def withWave (s : State) (f : Nat → Nat → Wave → State) : Out :=
  match s.cur with
  | some (.wave c k) =>
    match s.wave? c k with
    | some w => .next (f c k w)
    | none => .fault .noAgent
  | _ => .fault .noAgent
/-- Run a meaning on the current stream. -/
def withStream (s : State) (f : Nat → Stream → State) : Out :=
  match s.cur with
  | some (.stream c) =>
    match s.stream? c with
    | some m => .next (f c m)
    | none => .fault .noAgent
  | _ => .fault .noAgent

/-! ### Where a word stands, and its end -/

/-- The clause's header address, or the next header's when no clause is held. -/
def Wave.hdrAddr (w : Wave) : W64 :=
  match w.clause with
  | some c => c.addr
  | none => w.pc
/-- A, the address of the current word (R194). -/
def Wave.wordAddr (w : Wave) : W64 := w.hdrAddr + BitVec.ofNat 64 (8 * (w.widx + 1))
/-- F, the fall-through address (R98, R194). -/
def Wave.fallAddr (w : Wave) : W64 :=
  match w.clause with
  | some c => c.addr + BitVec.ofNat 64 (8 * (c.words.length + 1))
  | none => w.pc
/-- The clause ends and the next header is `h`; every lookahead window ends with the clause (R101, R106). -/
def Wave.goTo (w : Wave) (h : W64) : Wave :=
  { w.closeWins with
    pc := h, clause := none, widx := 0, waitMet := false, block := .none, eretWord := none, pipe := none, stands := none
    yielded := w.yielded || (match w.clause with | some c => hdrYield c.header | none => false) }
/-- The word has issued and completed: on to the next word of the clause, or to the fall-through header. -/
def Wave.done (w : Wave) : Wave :=
  let w := w.tickWins
  match w.clause with
  | some c => if w.widx + 1 < c.words.length then { w with widx := w.widx + 1, block := .none } else w.goTo w.fallAddr
  | none => w
/-- The opcodes of latency class B (R105, R122), and BARR, whose stall R467 treats alike: the wave takes no pipe while such a word blocks
it (R53). -/
def opBlocks (op : Nat) : Bool := [0x79, 0x7F, 0xB1, 0xB3, 0xC0, 0xC1, 0xC2, 0xC3, 0xC4, 0xC6, 0xD1, 0xD2].contains op
/-- The word the wave is at, as bits. -/
def Wave.curWord (w : Wave) : W64 :=
  match w.clause with
  | some c => c.words.getD w.widx 0
  | none => 0
/-- The word blocks at `stage`, keeping the platform time it first blocked (R451); a word of class B or a BARR gives up the pipe, any other keeps
it to the clause's last word (R50, R53). While it waits, an open lookahead window may close (R106). -/
def Wave.blockAt (w : Wave) (now stage wake : Nat) : Wave :=
  let w := if Config.freeBit w.nonce 70300 then w.closeWins else w
  let w := if opBlocks (opOf w.curWord) then { w with pipe := none } else w
  match w.block with
  | .word since _ _ => { w with block := .word since stage wake }
  | .none => { w with block := .word now stage wake }
def Wave.stage (w : Wave) : Nat :=
  match w.block with
  | .word _ st _ => st
  | .none => 0

/-- A BARRW whose wait is cancelled after it has arrived: its arrival stands, and its replay only waits (R470). -/
def Wave.keepArrival (w : Wave) : Wave :=
  if opOf w.curWord = 0xC4 ∧ w.stage = 1 then { w with stands := some w.wordAddr } else w

/-! ### Idempotence (R60) -/

def State.idemLost (s : State) (team : Nat) : State := s.updTeam team (fun t => { t with idemLost := true })

/-! ### STOP reports (R441) -/

/-- The 32 bytes of record `n` of the ring. -/
def Report.bytes (r : Report) (n size : Nat) : List Byte :=
  bytesOf 8 r.epc.toNat ++ bytesOf 8 r.eaddr.toNat ++ bytesOf 4 r.ecause.toNat ++ bytesOf 4 r.estat.toNat
    ++ bytesOf 4 r.launchId.toNat ++ bytesOf 1 r.core ++ bytesOf 1 r.slot ++ [0] ++ bytesOf 1 (n / size % 2)
/-- The ring is full, or not set up. -/
def Window.ringFull (w : Window) : Bool :=
  decide (w.trapqSize = 0) || decide (w.trapq = 0)
    || decide (w.trapqSize ≤ (w.trapqNext + 2 ^ 32 - w.trapqTail) % 2 ^ 32)
/-- Write held reports while the ring has room, each with release at system scope by its core, whose TLBs its pages are looked up in
(R419); one that cannot be translated, in either page it lies in, leaves the ring full, and behind a lost link it is held (R500). -/
def State.drainReports : Nat → State → State
  | 0, s => s
  | n + 1, s =>
    match s.win.held with
    | [] => s
    | r :: rest =>
      if s.win.ringFull then s
      else
        let va := s.win.trapq + BitVec.ofNat 64 (32 * (s.win.trapqNext % s.win.trapqSize))
        let room := min 32 (4096 - va.toNat % 4096)
        let at_ := s.translate (clusterOf r.core) va .write
        let next := s.translate (clusterOf r.core) (va + BitVec.ofNat 64 room) .write
        let s := s.touchTlb (clusterOf r.core) va
        let s := if room < 32 then s.touchTlb (clusterOf r.core) (va + BitVec.ofNat 64 room) else s
        match at_ with
        | .error _ => s.errorReport 0x441
        | .ok x =>
          let bs := r.bytes s.win.trapqNext s.win.trapqSize
          let tail := match next with | .ok y => some y | .error _ => none
          if !s.linked (x.pa / 128) then s
          else if x.kind = .ts || (decide (room < 32) && !tail.any (fun y => !decide (y.kind = .ts))) then s.errorReport 0x441
          else
            let s := s.columnRelease false 4 r.core
            let s := s.homeWriteBytes x.pa (bs.take room) none
            let s := match tail with | some y => s.homeWriteBytes y.pa (bs.drop room) none | none => s
            State.drainReports n
              ({ s with win := { s.win with held := rest, trapqNext := s.win.trapqNext + 1 } }.vector 0)
/-- A stopping agent is reported: in order, after the reports already held. -/
def State.report (s : State) (r : Report) : State :=
  let s := { s with win := { s.win with held := s.win.held ++ [r] } }
  if s.win.held.length = 1 then s.drainReports 1 else s

/-! ### The trap record (R140, R437, R438) -/

/-- A trap: its cause, sub-code, page-table level, origin, address and lanes. -/
structure Trap where
  cause : Nat
  sub : Nat := 0
  level : Nat := 0
  origin : Nat := 0
  eaddr : W64 := 0
  fm : BitVec 96
  deferred : Bool := false
  more : Bool := false
  deriving DecidableEq, Repr

def bitAt (b : Bool) (n : Nat) : Nat := if b then 2 ^ n else 0
/-- ESTAT as a trap writes it (R437): INTRAP keeps its value until delivery. -/
def Trap.estat (t : Trap) (inclause : Bool) (word : Nat) (intrap : Bool) : W32 :=
  BitVec.ofNat 32 (t.origin * 2 ^ 24 + bitAt t.more 20 + bitAt inclause 18 + bitAt intrap 15 + t.level * 2 ^ 13
    + bitAt t.deferred 12 + word * 2 ^ 8 + t.sub % 256)
def Wave.intrap (w : Wave) : Bool := w.estat.getLsbD 15

/-- Write the trap registers and fm0–fm2 together (R140): the wave stops where it stands. -/
def Wave.record (w : Wave) (t : Trap) (epc : W64) (inclause : Bool) (word : Nat) : Wave :=
  let w := w.closeWins
  let fm := t.fm &&& fullMask w.beats
  { w with
    s := Tbl.put (Tbl.put (Tbl.put w.s 123 0 (fm.extractLsb' 0 32)) 124 0 (fm.extractLsb' 32 32)) 125 0 (fm.extractLsb' 64 32)
    epc := epc, ecause := BitVec.ofNat 32 t.cause, eaddr := t.eaddr, estat := t.estat inclause word w.intrap, stands := none
    standsTrap := if w.intrap then w.standsTrap else w.stands
    clause := none, widx := 0, waitMet := false, block := .none, eretWord := none, pipe := none, trapPending := true }

/-! ### Delivery (R439, R440) -/

/-- The vector entry of a cause: STOP, a handler, or invalid. -/
inductive Vector where
  | stop
  | handler (h : W64)
  | invalid
  deriving DecidableEq, Repr

def State.vectorOf (s : State) (core cause : Nat) : Vector :=
  if s.win.tvbase = 0 then .invalid
  else
    match s.translate (clusterOf core) (s.win.tvbase + BitVec.ofNat 64 (16 * cause)) .read with
    | .error _ => .invalid
    | .ok x =>
      if x.kind = .ts then .invalid
      else
        let b := (s.recall (x.pa / 128)).homeBytes x.pa 16
        let h : W64 := BitVec.ofNat 64 (ofBytes (b.1.take 8))
        let action := (b.1.getD 8 0).toNat
        if b.2 || !(b.1.drop 9).all (fun y => decide (y = 0)) || decide (2 ≤ action) then .invalid
        else if action = 0 then .stop
        else if canonical h && decide (h.toNat % 8 = 0) then .handler h
        else .invalid

/-- The read of a vector entry: its page is looked up in the TLBs (R419), and the read at its home recalls the update-only copies of its
line and is counted (R328, R439). -/
def State.vectorRead (s : State) (core cause : Nat) : State :=
  if s.win.tvbase = 0 then s
  else
    let va := s.win.tvbase + BitVec.ofNat 64 (16 * cause)
    match s.translate (clusterOf core) va .read with
    | .error _ => s.touchTlb (clusterOf core) va
    | .ok x => if x.kind = .ts then s.touchTlb (clusterOf core) va else (s.homeTouch (x.pa / 128)).touchTlb (clusterOf core) va

def estatSet (e : W32) (n : Nat) : W32 := e ||| BitVec.ofNat 32 (2 ^ n)
def estatClr (e : W32) (n : Nat) : W32 := e &&& ~~~(BitVec.ofNat 32 (2 ^ n))

/-- The wave enters STOPPED and is reported (R440, R441). -/
def State.stopWave (s : State) (core slot : Nat) (w : Wave) : State :=
  let id := match s.team? w.team with | some t => t.launchId | none => 0
  (s.setWave core slot { w with stopped := true, trapPending := false }).report
    ⟨w.epc, w.eaddr, w.ecause, estatSet w.estat 19, id, core, slot⟩

/-- A trap is delivered as its vector entry says (R440). -/
def State.deliverAs (s : State) (core slot : Nat) (w : Wave) (v : Vector) : State :=
  match v with
  | .invalid => s.stopWave core slot { w with estat := estatSet w.estat 16 }
  | v =>
    if w.intrap then s.stopWave core slot { w with estat := estatSet w.estat 17 }
    else
      match v with
      | .handler h => s.setWave core slot { w with estat := estatSet w.estat 15, pc := h, trapPending := false }
      | _ => s.stopWave core slot w
/-- The pending trap of a wave is delivered: the vector entry of its cause is read, and says how. -/
def State.deliver (s : State) (core slot : Nat) (w : Wave) : State :=
  (s.vectorRead core w.ecause.toNat).deliverAs core slot w (s.vectorOf core w.ecause.toNat)

/-- TAKING A TRAP: the record, then its delivery, once no debug halt holds the wave (R440, R453). -/
def State.takeTrap (s : State) (core slot : Nat) (w : Wave) (t : Trap) (epc : W64) (inclause : Bool) (word : Nat) : State :=
  let w := w.record t epc inclause word
  if w.dbgReq then s.setWave core slot { w with dbg := true, dbgReq := false }
  else s.deliver core slot w

/-- A trap at issue of the current word (R438, ORIGIN 0 or 6). -/
def State.trapAt (s : State) (core slot : Nat) (w : Wave) (t : Trap) : State :=
  s.takeTrap core slot w t w.wordAddr true w.widx
/-- A trap at a header: fetch, boundary, or the fall-through of TRAP and BRK (R438). -/
def State.trapHeader (s : State) (core slot : Nat) (w : Wave) (t : Trap) (epc : W64) (word : Nat) : State :=
  s.takeTrap core slot w t epc false word

def Wave.illegal (w : Wave) : Trap := { cause := 0x01, fm := w.trapMask }
def Wave.regRangeTrap (w : Wave) : Trap := { cause := 0x03, fm := w.trapMask }
def Wave.protTrap (w : Wave) (sub : Nat) : Trap := { cause := 0x06, sub := sub, fm := w.trapMask }

/-- RETURN FROM A TRAP (R447): INTRAP clears and the next header, and word, come from the record. The arrival of a cancelled BARRW
stands when the wave resumes at that very word (R470). -/
def Wave.eret (w : Wave) : Wave :=
  let w := { w with estat := estatClr w.estat 15 }
  if w.estat.getLsbD 18 then
    let n := w.estat.toNat / 256 % 16
    { w.goTo (w.epc - BitVec.ofNat 64 (8 * (n + 1))) with
      eretWord := some n, stands := if w.standsTrap = some w.epc then w.standsTrap else none, standsTrap := none }
  else { w.goTo w.epc with standsTrap := none }

/-! ### The shapes of a wave's words -/

/-- A word that computes on the wave alone: traps at issue, or completes. -/
def aluWord (i : Instr) (s : State) (run : Wave → Except Trap Wave) : Out :=
  withWave s (fun c k w =>
    if !i.wf then s.trapAt c k w w.illegal
    else
      match run w with
      | .ok w' => s.setWave c k w'.done
      | .error t => s.trapAt c k w t)

/-- A word that acts on the whole state, given its wave; ill-formed words trap first. -/
def sysWord (i : Instr) (s : State) (run : Nat → Nat → Wave → State) : Out :=
  withWave s (fun c k w => if !i.wf then s.trapAt c k w w.illegal else run c k w)

/-- The wave at a place ends its word. -/
def State.doneWave (s : State) (core slot : Nat) : State := s.updWave core slot Wave.done

/-! ### ERRSEEN (R137) -/

def Wave.errSeen (w : Wave) : Wave := { w with wstat := w.wstat ||| 0x10 }
/-- ERRSEEN in every wave of a team resident on a core (R137). -/
def State.errSeenCore (s : State) (team core : Nat) : State :=
  (s.teamWaves team).foldl (fun s x => if x.1 = core then s.setWave x.1 x.2.1 x.2.2.errSeen else s) s

/-- Bad data reach a wave (R292, R461): ERRSEEN, the counter, and under POISONTRAP a stop at the next boundary with the address and
lanes of the first of them. -/
def State.sawBad (s : State) (core slot : Nat) (addr : W64) (lanes : BitVec 96) : State :=
  let s := (s.updWave core slot Wave.errSeen).countErr (dieOfCore core) 2
  match s.wave? core slot with
  | none => s
  | some w =>
    if s.poisonTraps w.team && w.poison.isNone then s.setWave core slot { w with poison := some (addr, lanes) } else s

/-! ### Deferred faults (R365, R442) -/

/-- A fault is put in a wave's pending-fault record, or counted with MORE when it is full (R442). -/
def State.pendFault (s : State) (core slot : Nat) (r : PendRec) : State :=
  match s.wave? core slot with
  | none => s
  | some w =>
    match w.pend with
    | none => s.setWave core slot { w with pend := some r }
    | some p =>
      (s.setWave core slot { w with pend := some { p with estat := estatSet p.estat 20 } }).countErr (dieOfCore core) 0x0B

/-- The first deferred fault of a launch whose wave has ended (R365). -/
def State.launchFault (s : State) (team : Nat) (cause : Nat) : State :=
  s.updLaunch (s.launchOf team) (fun l => { l with fault := some (l.fault.getD cause) })

/-- ESTAT of a deferred record: DEFERRED, its origin, level and sub-code. -/
def deferStat (origin level sub : Nat) : W32 :=
  BitVec.ofNat 32 (origin * 2 ^ 24 + level * 2 ^ 13 + 2 ^ 12 + sub % 256)

/-- The key a wave of a saved team has there: its position and slot. -/
def Saved.waveKey (x : Saved) (core slot : Nat) : Nat := x.cores.findIdx (fun c => decide (c = core)) * 32 + slot
/-- A saved wave by the place it left. -/
def Saved.wave? (x : Saved) (core slot : Nat) : Option Wave :=
  if core ∈ x.cores then Tbl.get? x.waves (x.waveKey core slot) else none
def Saved.setWave (x : Saved) (core slot : Nat) (w : Wave) : Saved :=
  { x with waves := Tbl.set x.waves (x.waveKey core slot) w }
/-- A fault of a saved wave fills its saved record (R453), or its launch's when it has halted. -/
def State.deferSaved (s : State) (core slot team : Nat) (r : PendRec) : State :=
  match Tbl.get? s.saved team with
  | none => s.launchFault team r.cause.toNat
  | some x =>
    match x.wave? core slot with
    | none => s
    | some w =>
      if w.halted then s.updLaunch x.team.launch (fun l => { l with fault := some (l.fault.getD r.cause.toNat) })
      else
        match w.pend with
        | none => { s with saved := Tbl.set s.saved team (x.setWave core slot { w with pend := some r }) }
        | some p =>
          State.countErr { s with saved := Tbl.set s.saved team (x.setWave core slot
            { w with pend := some { p with estat := estatSet p.estat 20 } }) } (dieOfCore core) 0x0B

/-- A deferred fault goes to the agent that issued the word, or to its launch when the wave has halted (R365). -/
def State.deferTo (s : State) (a : Agent) (team : Nat) (r : PendRec) : State :=
  match a with
  | .wave c k =>
    match s.wave? c k with
    | some w => if w.team = team then (if w.halted then s.launchFault team r.cause.toNat else s.pendFault c k r) else s.deferSaved c k team r
    | none => s.deferSaved c k team r
  | .stream _ => s.launchFault team r.cause.toNat

/-! ### Stream faults (R234, R443) -/

/-- The address of the stream's current word, and its fall-through. -/
def Stream.hdrAddr (m : Stream) : W64 :=
  match m.clause with
  | some c => c.addr
  | none => m.mpc
def Stream.wordAddr (m : Stream) : W64 :=
  match m.clause with
  | some c => c.addr + BitVec.ofNat 64 (8 * (m.widx + 1))
  | none => m.mpc
def Stream.fallAddr (m : Stream) : W64 :=
  match m.clause with
  | some c => c.addr + BitVec.ofNat 64 (8 * (c.words.length + 1))
  | none => m.mpc
/-- The stream's next header is `h` (R231). -/
def Stream.goTo (m : Stream) (h : W64) : Stream := { m with mpc := h, clause := none, widx := 0, block := .none }
/-- The stream issues next from address `h`: a word of the clause it stands in, or a header (R443). -/
def Stream.resumeAt (m : Stream) (h : W64) : Stream :=
  match m.clause with
  | some c =>
    let n := ((h - c.addr).toNat) / 8
    if h.toNat % 8 = 0 ∧ 1 ≤ n ∧ n ≤ c.words.length then { m with mpc := h, widx := n - 1, block := .none }
    else m.goTo h
  | none => m.goTo h
/-- The word has issued: on to the next word, or to the fall-through header. -/
def Stream.done (m : Stream) : Stream :=
  match m.clause with
  | some c =>
    if m.widx + 1 < c.words.length then
      { m with widx := m.widx + 1, mpc := c.addr + BitVec.ofNat 64 (8 * (m.widx + 2)), block := .none }
    else m.goTo m.fallAddr
  | none => m

/-- The wave a stream's faults go to: the lowest wave index of the team on the stream's core that has not halted (R443). -/
def State.designated (s : State) (team core : Nat) : Option (Nat × Nat × Wave) :=
  ((s.teamWaves team).filter (fun x => decide (x.1 = core) && !x.2.2.halted)).foldl
    (fun best x => match best with
      | none => some x
      | some b => if x.2.2.idx < b.2.2.idx then some x else some b) none

/-- A stopped stream is delivered to its designated wave, or reported (R443). -/
def State.assignStream (s : State) (core : Nat) (m : Stream) : State :=
  match s.designated m.team core with
  | some (c, k, _) =>
    s.pendFault c k ⟨BitVec.ofNat 32 (m.mfault.toNat % 256), deferStat 4 m.mlevel (m.mfault.toNat / 256), m.mfpc⟩
  | none =>
    let id := match s.team? m.team with | some t => t.launchId | none => 0
    (((s.updStream core (fun x => { x with reported := true })).launchFault m.team (m.mfault.toNat % 256))).report
      ⟨m.mfpc, m.mfaddr, BitVec.ofNat 32 (m.mfault.toNat % 256),
        estatSet (deferStat 4 m.mlevel (m.mfault.toNat / 256)) 19, id, core, 0xFF⟩

/-- A stream stops with a fault: MFAULT, MFPC and MFADDR in one ck, then its delivery (R234, R443); `level` is the page-table level
of a translation fault (R418). -/
def State.streamFault (s : State) (core : Nat) (m : Stream) (cause sub level : Nat) (pc addr : W64) : State :=
  let m := { m with mfault := BitVec.ofNat 32 (sub * 256 + cause), mlevel := level, mfpc := pc, mfaddr := addr, stopped := true,
                    block := .none }
  (s.setStream core m).assignStream core m
/-- A fault of the stream's current word at issue. -/
def State.streamTrap (s : State) (core : Nat) (m : Stream) (cause sub : Nat) (addr : W64) : State :=
  s.streamFault core m cause sub 0 m.wordAddr addr
/-- The same where an address of the word fails to translate. -/
def State.streamXlat (s : State) (core : Nat) (m : Stream) (e : XErr) (addr : W64) : State :=
  s.streamFault core m e.cause e.sub e.level m.wordAddr addr

/-- A sequencer word: ill-formed words trap at issue (R219, R415). -/
def seqWord (i : Instr) (s : State) (run : Nat → Stream → State) : Out :=
  withStream s (fun c m => if !i.wf then s.streamTrap c m 0x01 0 0 else run c m)

/-! ### Barriers (R465, R467) and members leaving (R435) -/

/-- Phases whose arrivals are all in complete; held arrivals may complete the next one too (R467). -/
def Barrier.complete : Nat → Barrier → Barrier
  | 0, b => b
  | n + 1, b =>
    if 0 < b.arrived ∧ b.members ≤ b.arrived then
      let g := (b.gen + 1) % 2 ^ 16
      let held := b.mem.filter (fun r => r.2.early)
      let mem := List.map (fun r => (r.1, if r.2.early then { r.2 with early := false, last := g } else r.2)) b.mem
      Barrier.complete n { b with gen := g, arrived := held.length, mem := mem }
    else b
def Barrier.member (b : Barrier) (m : Nat) : BMember :=
  Tbl.getD b.mem m ⟨(b.gen + 2 ^ 16 - 1) % 2 ^ 16, false, false⟩
/-- An arrival of member `m`: the barrier after it, or none when it must stall (R467). -/
def Barrier.arrive (b : Barrier) (m : Nat) : Option Barrier :=
  let x := b.member m
  if x.last ≠ b.gen ∨ !x.ever then
    some (Barrier.complete 4 { b with arrived := b.arrived + 1, mem := Tbl.set b.mem m ⟨b.gen, x.early, true⟩ })
  else if !x.early then some { b with mem := Tbl.set b.mem m { x with early := true } }
  else none
/-- A wait of member `m` is over (R467). -/
def Barrier.waitOver (b : Barrier) (m : Nat) : Bool :=
  let x := b.member m
  !x.ever || !decide (x.last = b.gen)
/-- Member `m` leaves: it is a member no longer, an arrival it held early with it, and one arrival fewer is awaited (R435, R467). -/
def Barrier.leave (b : Barrier) (m : Nat) : Barrier :=
  Barrier.complete 4 { b with members := b.members - 1, mem := Tbl.del b.mem m }

/-- The barriers a name reaches from a team: its own, its group's, its launch's. -/
def State.barrier? (s : State) (team lvl id : Nat) : Option Barrier :=
  match s.team? team with
  | none => none
  | some t =>
    match lvl with
    | 0 => Tbl.get? t.tb id
    | 1 => (Tbl.get? s.groups t.group).bind (fun g => Tbl.get? g.cb id)
    | _ => (s.launch? t.launch).bind (fun l => Tbl.get? l.gb id)
def State.setBarrier (s : State) (team lvl id : Nat) (b : Barrier) : State :=
  match s.team? team with
  | none => s
  | some t =>
    match lvl with
    | 0 => s.setTeam team { t with tb := Tbl.set t.tb id b }
    | 1 => { s with groups := Tbl.upd s.groups t.group (fun g => { g with cb := Tbl.set g.cb id b }) }
    | _ => s.updLaunch t.launch (fun l => { l with gb := Tbl.set l.gb id b })
/-- The member number of an agent at a level: a wave's index, or 40 plus a stream's position, made unique in the level. -/
def State.memberId (s : State) (team lvl local_ : Nat) : Nat :=
  match s.team? team with
  | none => local_
  | some t =>
    match lvl with
    | 0 => local_
    | 1 => t.groupPos * 64 + local_
    | _ => t.index * 64 + local_

/-- One member of a team leaves every barrier it belongs to (R435). -/
def State.leaveBarriers (s : State) (team local_ : Nat) : State :=
  let go := fun (lvl : Nat) (r : Nat × Barrier) => (r.1, r.2.leave (s.memberId team lvl local_))
  match s.team? team with
  | none => s
  | some t =>
    let s := s.setTeam team { t with tb := List.map (go 0) t.tb }
    let s := if t.excl then
        { s with groups := Tbl.upd s.groups t.group (fun g => { g with cb := List.map (go 1) g.cb }) }
      else s
    if t.coop then s.updLaunch t.launch (fun l => { l with gb := List.map (go 2) l.gb }) else s

/-! ### Tile references (R260, R427) -/

/-- The tile slots of a frame on a die. -/
def State.frameTiles (s : State) (die : Nat) (frame : W64) : List Nat :=
  (s.tiles.filter (fun r => decide (r.1 / 1024 = die) && decide (r.2.frame = frame) && !decide (r.2.state = .free))).map (fun r => r.1)
/-- Every tile of a frame on a die is RETIRED: its slots become FREE together, and its CLOSE RSUB may complete (R379, R427). -/
def State.retireFrame (s : State) (die : Nat) (frame : W64) : State :=
  let ts := s.frameTiles die frame
  if ts.all (fun t => decide ((s.tile t).state = .retired)) then
    let d := s.die die
    let s := ts.foldl (fun s t => s.setTile t Tile.free) s
    let s := s.setDie die { d with frames := d.frames.filter (fun f => !decide (f.desc = frame)) }
    (d.frames.filter (fun f => decide (f.desc = frame))).foldl (fun s f =>
      match f.closeCmd with
      | some id => { s with cmds := Tbl.upd s.cmds id (fun c => { c with progress := 1 }) }
      | none => s) s
  else s
/-- A tile's references fall by one; at none with classification finished it is RETIRED (R427). -/
def State.unrefTile (s : State) (t : Nat) : State :=
  let x := s.tile t
  let x := { x with refs := x.refs - 1 }
  if x.state = .shading ∧ x.refs = 0 ∧ x.cls then (s.setTile t { x with state := .retired }).retireFrame (t / 1024) x.frame
  else s.setTile t x
/-- A wave's tile references are released and its TREF registers cleared (R260). -/
def State.dropRefs (s : State) (core slot : Nat) : State :=
  match s.wave? core slot with
  | none => s
  | some w => (w.tref.foldl (fun s r => s.unrefTile r.2) s).setWave core slot { w with tref := [] }

/-- The mark of a request that holds only the ordering actions of a word without active lanes (R311), or tile references a
TRET is to release (R260). -/
def orderOnly : Nat := 99
/-- TRET (R260): the references go once every earlier AT request of the wave has returned; its entries are invalid at once. -/
def State.releaseRefs (s : State) (core slot : Nat) : State :=
  match s.wave? core slot with
  | none => s
  | some w =>
    if w.tref.isEmpty then s
    else if w.reqs.any (fun q => decide (q.path = .at)) then
      State.setWave { s with nextId := s.nextId + 1 } core slot
        { w with tref := [], reqs := w.reqs ++ [(⟨s.nextId, .at, 0, 0, 0, false, [], .tret (w.tref.map (fun r => r.2)), orderOnly, []⟩ : Req)] }
    else s.dropRefs core slot

/-! ### The end of a wave (R207, R435) -/

/-- A wave ends: it issues nothing more, leaves its barriers and releases its tiles (R207, R260, R435). A pending action for its
team's stream stays for the next MST that begins (R372). -/
def State.endWave (s : State) (core slot : Nat) (w : Wave) : State :=
  let s := s.setWave core slot { w.closeWins with
    halted := true, stopped := false, dbg := false, dbgReq := false, trapPending := false, clause := none, block := .none,
    pipe := none, pend := none, poison := none, ecpl := none }
  let s := match w.ecpl with
    | some e => if e.stream then s.updStream core (fun m => if m.team = w.team then { m with ecpls := m.ecpls ++ [(Agent.wave core slot, e)] } else m) else s
    | none => s
  let s := match w.pend with
    | some p => s.launchFault w.team p.cause.toNat
    | none => s
  let s := s.updTeam w.team (fun t => { t with ended := w.idx :: t.ended })
  (s.releaseRefs core slot).leaveBarriers w.team w.idx

/-- A stream has halted and both queues are empty (R231). -/
def Stream.quiet (m : Stream) : Bool := m.halted && m.arrayQ.isEmpty && m.xferQ.isEmpty
/-- A change of a stream; when it makes a stream quiet, the stream leaves its barriers (R231, R435). -/
def State.stepStream (s : State) (core : Nat) (m : Stream) : State :=
  let was := match s.stream? core with | some o => o.quiet | none => false
  let s := s.setStream core m
  if m.quiet && !was then s.leaveBarriers m.team (40 + m.pos) else s
/-- A stream ends as at MHALT (R231, R443). -/
def State.endStream (s : State) (core : Nat) (m : Stream) : State :=
  s.stepStream core { m with halted := true, stopped := false, dbg := false, dbgReq := false, block := .none,
                             clause := none }

/-! ### Requests in flight (R106, R143, R311, R316, R317) -/

/-- Whether a path is one of the memory paths that release waits for (R316). -/
def pathMemory : Path → Bool
  | .lp => true | .cs => true | .cp => true | .gl => true | .gs => true
  | .en => false | .ts => false | .at => false

/-- Requests of a path that count (R143): those that only order do not. -/
def Wave.count (w : Wave) (p : Path) : Nat :=
  (w.reqs.filter (fun q => decide (q.path = p) && !decide (q.phase = orderOnly))).length

/-- Put a request in flight. -/
def State.issueReq (s : State) (core slot : Nat) (w : Wave) (p : Path) (word : W64) (sem scope : Nat) (accs : List Access)
    (ret : Ret) (phase : Nat) : State :=
  State.setWave { s with nextId := s.nextId + 1 } core slot
    { w with reqs := w.reqs ++ [(⟨s.nextId, p, word, sem, scope, false, accs, ret, phase, []⟩ : Req)] }

/-- The requests of a wave before one of its own. A cancelled TST, which replays on resume as if it had not issued, is none: every
other request completes before the save (R63, R264, R455). -/
def Wave.before (w : Wave) (id : Nat) : List Req := w.reqs.takeWhile (fun q => !decide (q.id = id))
/-- The request of a wave by number. -/
def Wave.req? (w : Wave) (id : Nat) : Option Req := w.reqs.find? (fun q => decide (q.id = id))
/-- Change a request. -/
def Wave.updReq (w : Wave) (id : Nat) (f : Req → Req) : Wave :=
  { w with reqs := w.reqs.map (fun q => if q.id = id then f q else q) }

/-- A request in flight that acquires: a memory word with SEM 1 or 3, or a TSCPYN or TSTAKEN, whose acquire takes place when it is
served (R317, R341). -/
def Req.acquires (r : Req) : Bool :=
  (pathMemory r.path && (decide (r.sem = 1) || decide (r.sem = 3))) ||
    match r.ret with
    | .tuple _ _ dep _ => !dep
    | _ => false
/-- Whether an acquire of the wave is outstanding (R317). -/
def Wave.acquiring (w : Wave) : Bool := w.reqs.any Req.acquires
/-- Whether a request may be sent: no lookahead window is open before it, no earlier acquire is outstanding, and before a
release every earlier memory request has completed (R107, R316, R317). A tuple request does not wait for one of the same path. -/
def Wave.maySend (w : Wave) (q : Req) : Bool :=
  let b := w.before q.id
  q.sent || (w.wins.isEmpty && b.all (fun r => !r.acquires || (decide (q.path = .ts) && decide (r.path = .ts)))
    && (!(decide (q.sem = 2) || decide (q.sem = 3)) || b.all (fun r => !pathMemory r.path)))

/-- Whether a column's copy of a line has dirty bytes. -/
def State.colDirty (s : State) (core line : Nat) : Bool :=
  match s.colLine core line with | some x => !decide (x.dirty = 0) | none => false
/-- The homes acknowledge write-backs to the wave whose own word caused them; the last acknowledgement leaves its tag in ACKTAG
(R330, R518). -/
def State.tagLast (s : State) (core slot : Nat) (lines : List Nat) : State :=
  match lines.getLast? with
  | some l => s.updWave core slot (fun w => { w with acktag := s.ackTag l })
  | none => s
/-- The column action of a wave's own release, fence or ISYNC (R285, R518). -/
def State.releaseFor (s : State) (core slot : Nat) (paired : Bool) (scope : Nat) : State :=
  if columnScope paired scope then
    (s.columnRelease paired scope core).tagLast core slot ((s.sweepOrder core).filter (s.colDirty core))
  else s

/-- A sweep of the column that a wave's own word makes, acknowledged to the wave (R518). -/
def State.sweepFor (s : State) (core slot : Nat) (p : ColLine → Bool) (inv : Bool) : State :=
  (s.colSweep core p inv).tagLast core slot
    ((s.sweepOrder core).filter (fun l => s.colDirty core l && (s.colLine core l).any p))
/-- The column action of the acquire of a wave's own FENCE or ISYNC (R285, R518). -/
def State.acquireFor (s : State) (core slot : Nat) (paired : Bool) (scope : Nat) : State :=
  if columnScope paired scope then s.sweepFor core slot (fun l => !l.uo) true else s

/-- A request is sent; a release first performs its column action (R316). -/
def State.sendReq (s : State) (core slot : Nat) (w : Wave) (q : Req) : State :=
  if q.sent then s
  else
    let s := s.setWave core slot (w.updReq q.id (fun r => { r with sent := true }))
    if q.sem = 2 ∨ q.sem = 3 then s.releaseFor core slot (s.paired w.team) q.scope else s

/-! ### The team's scratchpad allotment, read at issue (R267, R337) -/

/-- Whether [off, off + n) lies in a team's allotment (R265). -/
def Team.fits (t : Team) (off n : Nat) : Bool := decide (off + n ≤ t.spad * 4096)
/-- The scratchpad as a wave's own earlier stores in flight leave it (R337). -/
def Wave.ownSpad (w : Wave) (m : Mem) : Mem :=
  w.reqs.foldl (fun m q => q.accs.foldl (fun m a =>
    if (a.lvl = .spad ∨ a.lvl = .csm) ∧ !a.done then (match a.op with | .write x => Mem.writeN m a.pa a.n x | _ => m) else m) m) m
/-- `n` bytes of the allotment from team offset `off`, as a wave reads them at issue. -/
def State.teamBytes (s : State) (w : Wave) (t : Team) (off n : Nat) : List Byte :=
  let m := w.ownSpad s.mem.scratch
  (List.range n).map (fun i => Mem.read m (scratchKey t.core (t.p + off + i)))
/-- The same read by an agent that has no stores of its own in flight. -/
def State.spadBytes (s : State) (t : Team) (off n : Nat) : List Byte :=
  (List.range n).map (fun i => Mem.read s.mem.scratch (scratchKey t.core (t.p + off + i)))
/-- Write bytes of the allotment. -/
def State.spadWrite (s : State) (t : Team) (off : Nat) (bs : List Byte) : State :=
  s.storeWrite .scratch (scratchKey t.core (t.p + off)) bs
/-- A little-endian field of a block of bytes. -/
def fieldOf (b : List Byte) (off n : Nat) : Nat := ofBytes ((b.drop off).take n)
/-- Whether the bytes [a, b) of a block are zero. -/
def zeroField (b : List Byte) (a n : Nat) : Bool := ((b.drop a).take n).all (fun x => decide (x = 0))

end Sys2Proof.Machine
end

