-- ==== Sys2Proof/Machine/SysWords.lean ====
section
/-! DEFINITION. The system words (R444–R450, R482–R486): SRD, SWR, ERET, BRK, CNTRD, CNTCFG, TIME, ISYNC. -/

namespace Sys2Proof.Machine

/-! ### System registers (R138, R446) -/

def halfLo (x : W64) : W32 := x.extractLsb' 0 32
def halfHi (x : W64) : W32 := x.extractLsb' 32 32
/-- Replace one half of a 64-bit register (R445). -/
def putHalf (x : W64) (hi : Bool) (v : W32) : W64 := if hi then v ++ halfLo x else halfHi x ++ v

/-- The stream of a wave's team on the wave's core, if the team has an mseq role (R446). -/
def State.ownStream (s : State) (core : Nat) (w : Wave) : Option Stream :=
  match s.team? w.team with
  | some t => if t.mseq then (s.stream? core).bind (fun m => if m.team = w.team then some m else none) else none
  | none => none

/-- CSM_BASE (R270). -/
def State.csmBaseReg (s : State) (w : Wave) : W32 :=
  match s.team? w.team with
  | some t => if t.excl then BitVec.ofNat 32 (csmBase t.p (t.core % 4)) else 0xFFFFFFFF
  | none => 0xFFFFFFFF

/-- The value SRD reads from a system register, or none where no register has the number (R138, R446). -/
def State.sysRead (s : State) (core : Nat) (w : Wave) (n : Nat) : Option W32 :=
  let st := fun (f : Stream → W32) => some (match s.ownStream core w with | some m => f m | none => 0)
  match n with
  | 0x0000 => some w.wstat
  | 0x0001 => some w.fpcompat
  | 0x0002 => some (halfLo w.epc)
  | 0x0003 => some (halfHi w.epc)
  | 0x0004 => some w.ecause
  | 0x0005 => some (halfLo w.eaddr)
  | 0x0006 => some (halfHi w.eaddr)
  | 0x0007 => some w.estat
  | 0x0008 => some (BitVec.ofNat 32 w.dstack.length)
  | 0x0100 => some (BitVec.ofNat 32 s.win.mxidle)
  | 0x0101 => some (BitVec.ofNat 32 Config.capMxwake)
  | 0x0102 => st (fun m => m.mfault)
  | 0x0103 => st (fun m => halfLo m.mfpc)
  | 0x0104 => st (fun m => halfHi m.mfpc)
  | 0x0105 => st (fun m => halfLo m.mfaddr)
  | 0x0106 => st (fun m => halfHi m.mfaddr)
  | 0x0107 => some 0
  | 0x0110 => some (s.csmBaseReg w)
  | 0x0120 => some (BitVec.ofNat 32 core)
  | 0x8000 => some (BitVec.ofNat 32 s.win.thot)
  | 0x8001 => some (BitVec.ofNat 32 s.win.dmax)
  | 0x8002 => some (BitVec.ofNat 32 s.win.tslice)
  | 0x8003 => some (BitVec.ofNat 32 s.win.wdtime)
  | 0x8004 => some s.win.errpol
  | 0x8005 => some (halfLo s.win.tvbase)
  | 0x8006 => some (halfHi s.win.tvbase)
  | 0x8007 => some (halfLo s.win.trapq)
  | 0x8008 => some (halfHi s.win.trapq)
  | 0x8009 => some (BitVec.ofNat 32 s.win.trapqSize)
  | 0x800A => some (BitVec.ofNat 32 s.win.trapqTail)
  | _ => none

/-- ESTAT bits that SWR writes (R437): not the reserved ones, nor STOPPED, which reads 0 in a running wave. -/
def estatMask : W32 := 0x0F17FFFF

/-- The wave after an SWR to one of its own registers, with reserved bits written as zero (R138, R445). -/
def Wave.sysWrite (w : Wave) (n : Nat) (v : W32) : Option Wave :=
  match n with
  | 0x0000 => some { w with wstat := v &&& 0x1F }
  | 0x0001 => some { w with fpcompat := v &&& 0xFFFF }
  | 0x0002 => some { w with epc := putHalf w.epc false v }
  | 0x0003 => some { w with epc := putHalf w.epc true v }
  | 0x0004 => some { w with ecause := v &&& 0xFF }
  | 0x0005 => some { w with eaddr := putHalf w.eaddr false v }
  | 0x0006 => some { w with eaddr := putHalf w.eaddr true v }
  | 0x0007 => some { w with estat := v &&& estatMask }
  | _ => none

/-- MSRESUME (R443): 1 issues again from MFPC, or after a POISON stop at MPC; 2 ends the stream. -/
def State.msResume (s : State) (core : Nat) (m : Stream) (v : Nat) : State :=
  if !m.stopped then s
  else if v = 1 then
    if m.poisonStop then
      s.setStream core { m with stopped := false, poisonStop := false, reported := false }
    else s.setStream core { (m.resumeAt m.mfpc) with stopped := false, reported := false }
  else s.endStream core m

/-- SRD (R445): a read of a system register; a number that names none traps PROTECTION. -/
def execSrd (f : FmtY) (s : State) : Out :=
  sysWord (.srd f) s (fun c k w =>
    match s.sysRead c w f.sreg.toNat with
    | some v => s.setWave c k (w.writeS f.sd.toNat v).done
    | none => s.trapAt c k w (w.protTrap 0))

/-- SWR (R445, R443): a write of a writable system register; any other traps PROTECTION. It sets IDEM_LOST (R60). -/
def execSwr (f : FmtY) (s : State) : Out :=
  sysWord (.swr f) s (fun c k w =>
    let v := w.readS f.sa.toNat
    match w.sysWrite f.sreg.toNat v with
    | some w' => (s.setWave c k w'.done).idemLost w.team
    | none =>
      match s.ownStream c w with
      | none => s.trapAt c k w (w.protTrap 0)
      | some m =>
        match f.sreg.toNat with
        | 0x0102 => ((s.setStream c { m with mfault := v &&& 0xFFFF }).setWave c k w.done).idemLost w.team
        | 0x0103 => ((s.setStream c { m with mfpc := putHalf m.mfpc false v }).setWave c k w.done).idemLost w.team
        | 0x0104 => ((s.setStream c { m with mfpc := putHalf m.mfpc true v }).setWave c k w.done).idemLost w.team
        | 0x0107 =>
          if v = 1 ∨ v = 2 then ((s.msResume c m v.toNat).doneWave c k).idemLost w.team
          else s.trapAt c k w (w.protTrap 0)
        | _ => s.trapAt c k w (w.protTrap 0))

/-- ERET (R447): INTRAP clears and the record names the next header and word. -/
def execEret (f : FmtY) (s : State) : Out :=
  sysWord (.eret f) s (fun c k w => s.setWave c k w.tickWins.eret)

/-- BRK (R448): a BREAKPOINT trap at the fall-through header. -/
def execBrk (f : FmtY) (s : State) : Out :=
  sysWord (.brk f) s (fun c k w =>
    s.trapHeader c k w { cause := 0x14, sub := f.imm.toNat % 256, origin := 7, eaddr := w.wordAddr, fm := w.trapMask }
      w.fallAddr 0)

/-! ### Counters (R481–R485) -/

/-- Temperature, droop and supply sensors (R485), 16 bits wide and sign-extended (R481, R482). -/
def State.sensor (s : State) (inst idx : Nat) : Option Int :=
  if idx = 0x010 then (if inst < (if s.minimal then 1 else 4) then some (BitVec.ofNat 16 (s.die inst).vdd).toInt else none)
  else if inst < s.coreCount then
    let c := s.core inst
    some (match idx with
      | 0 => c.temp
      | 1 => (BitVec.ofNat 16 c.droopCur).toInt
      | 2 => (BitVec.ofNat 16 c.droopPrev).toInt
      | _ => if c.held then 1 else 0)
  else none

/-- The gauges of a slice (R483). -/
def State.sliceGauge (s : State) (h idx : Nat) : Nat :=
  if idx = 0x34 then (s.slice h).tuples.length
  else (s.mem.l2.filter (fun r => r.2.poison && decide (s.home r.1 = h))).length

/-- The value CNTRD reads: none where the instance does not exist (R482, R483). Counters of other units are read from the
core's mirror, which lies between its last refresh and now; the gauges are current values. -/
def State.counterRead (s : State) (core : Nat) (w : Wave) (id sa : Nat) : Option W64 :=
  let idx := id % 4096
  let own := decide (sa = 127)
  let reg := (w.readS sa).toNat
  let mir := fun (dom inst : Nat) =>
    let k := ctrKey dom inst idx
    let old := Tbl.getD (s.core core).mirror k 0
    let now := Tbl.getD s.counters k 0
    some (BitVec.ofNat 64 (if s.flip 900200 then old else now))
  let clusters := s.coreCount / 4
  let dies := s.coreCount / 48
  match id / 4096 with
  | 0 => some (BitVec.ofNat 64 (w.count (Path.ofCode idx)))
  | 1 =>
    if idx < 8 then some (Tbl.getD (s.core core).pmc idx Pmc.zero).val
    else if idx = 0x10 then some (BitVec.ofNat 64 (s.ck - (s.core core).ckBase))
    else some (BitVec.ofNat 64 (Tbl.getD s.counters (ctrKey 1 core idx) 0))
  | 2 => let n := if own then clusterOf core else reg
         if n < clusters then mir 2 n else none
  | 3 => if own then none
         else if reg < 16 * dies then
           (if idx = 0x34 ∨ idx = 0x36 then some (BitVec.ofNat 64 (s.sliceGauge reg idx)) else mir 3 reg)
         else none
  | 4 => let n := if own then dieOfCore core else reg
         if n < dies then mir 4 n else none
  | 5 => let n := if own then dieOfCore core else reg
         if n < dies then mir 5 n else none
  | _ => let n := if own then (if idx = 0x010 then dieOfCore core else core) else reg
         (s.sensor n idx).map (fun x => BitVec.ofInt 64 x)

/-- CNTRD (R482): the counter to a pair and SCC := 1; an instance that does not exist gives 0 and SCC := 0. -/
def execCntrd (f : FmtY) (s : State) : Out :=
  sysWord (.cntrd f) s (fun c k w =>
    match s.counterRead c w f.imm.toNat f.sa.toNat with
    | some v =>
      let id := f.imm.toNat
      let s := if 2 ≤ id / 4096 ∧ id / 4096 ≤ 5 then
          let d := id / 4096
          let inst := if f.sa = 127 then (if d = 2 then clusterOf c else dieOfCore c) else (w.readS f.sa.toNat).toNat
          let k := ctrKey d inst (id % 4096)
          let q := s.core c
          s.setCore c { q with mirror := Tbl.put q.mirror k 0 (if id = 0x3034 ∨ id = 0x3036 then Tbl.getD q.mirror k 0 else v.toNat) }
        else s
      s.setWave c k ((w.writeS64 f.sd.toNat v).setScc true).done
    | none => s.setWave c k ((w.writeS64 f.sd.toNat 0).setScc false).done)

/-- CNTCFG (R484): configure and zero a programmable counter; a bad event or reserved bits trap PROTECTION. -/
def execCntcfg (f : FmtY) (s : State) : Out :=
  sysWord (.cntcfg f) s (fun c k w =>
    let v := w.readS f.sa.toNat
    if v.toNat / 1024 ≠ 0 ∨ 0x20 < v.toNat % 256 then s.trapAt c k w (w.protTrap 0x31)
    else
      let q := s.core c
      (s.setCore c { q with pmc := Tbl.put q.pmc f.imm.toNat Pmc.zero ⟨v, 0, s.launchOf w.team, w.team⟩ }).setWave c k w.done)

/-- TIME (R486): platform time in ns; within 20 ns of the common time, never falling at one wave (DESIGN CHOICE, log entry 8: the model's
common time itself). -/
def execTime (f : FmtY) (s : State) : Out :=
  sysWord (.time f) s (fun c k w => s.setWave c k (w.writeS64 f.sd.toNat (BitVec.ofNat 64 (s.time / 17))).done)

/-- The wait of FENCE and ISYNC: every memory path of the wave is empty (R329). -/
def Wave.memQuiet (w : Wave) : Bool := w.reqs.all (fun q => !pathMemory q.path) && w.wins.isEmpty

/-- ISYNC (R449): FENCE.ar.dev, then every line of the core's instruction cache is dropped; it blocks while the wave's
accesses are outstanding. -/
def execIsync (f : FmtY) (s : State) : Out :=
  sysWord (.isync f) s (fun c k w =>
    if !w.memQuiet then s.setWave c k (w.blockAt s.time 1 0)
    else
      let s := s.releaseFor c k false 3
      let s := s.sweepFor c k (fun l => l.uo) true
      let s := s.sweepFor c k (fun l => !l.uo) true
      let q := s.core c
      (s.setCore c { q with icache := [] }).doneWave c k)

end Sys2Proof.Machine
end

