-- ==== Sys2Proof/Machine/MemWords.lean ====
section
/-! DEFINITION. The memory words at issue (R308–R334): addresses and checks, the requests they put in flight, and FENCE,
CLEAN, INVAL and PFG, which act at once. -/

namespace Sys2Proof.Machine

/-! ### Addresses (R310) -/

/-- The address of lane `l` (R310). -/
def Wave.laneAddr (w : Wave) (f : FmtM) (a64 : Bool) (l : Nat) : W64 :=
  let off : W64 :=
    if f.voff = 255 then 0
    else if a64 then w.readV64 f.voff.toNat l
    else (w.readV f.voff.toNat l).signExtend 64
  w.baseAddr f.base + off + f.imm.signExtend 64
/-- The address of a scalar or tile word (R315, R320). -/
def Wave.wordBase (w : Wave) (f : FmtM) : W64 := w.baseAddr f.base + f.imm.signExtend 64

/-- Vector registers VOFF names (R121). -/
def voffRegs (f : FmtM) (a64 : Bool) : List Nat :=
  if f.voff = 255 then [] else if a64 then [f.voff.toNat, f.voff.toNat + 1] else [f.voff.toNat]

/-! ### Checks of one access (R332) -/

/-- Where an access lands, with its page kind and BUF. -/
structure Place where
  pa : Nat
  kind : PKind
  buf : Bool
  deriving DecidableEq, Repr

def accessKind : XErr := ⟨0x07, 0, 0⟩
def misaligned : XErr := ⟨0x04, 0, 0⟩

/-- Translate and check one access of lane `l`: MISALIGNED, PAGE_FAULT, PROTECTION, ACCESS_KIND, in that order (R332). -/
def State.check (s : State) (core : Nat) (w : Wave) (lvl : Level) (i : Intent) (l : Nat) (va : W64) (n : Nat) :
    Except XErr Place :=
  if va.toNat % n ≠ 0 then .error misaligned
  else
    match lvl with
    | .lp => if va.toNat + n ≤ w.lanePriv then .ok ⟨lpKey l va.toNat, .rc, false⟩ else .error (protection 0 0)
    | .spad =>
      match s.team? w.team with
      | some t => if t.fits va.toNat n then .ok ⟨scratchKey t.core (t.p + va.toNat), .rc, false⟩ else .error (protection 0 0)
      | none => .error (protection 0 0)
    | .csm =>
      match s.team? w.team with
      | some t => if t.excl ∧ va.toNat + n ≤ 0x200000 then .ok ⟨csmKey (clusterOf core) va.toNat, .rc, false⟩
                  else .error (protection 0 0)
      | none => .error (protection 0 0)
    | .chip => (s.chipPlace core va).map (fun pa => ⟨pa, .rc, false⟩)
    | .glob =>
      match s.translate (clusterOf core) va i with
      | .error e => .error e
      | .ok x => if x.kind = .ts then .error accessKind else .ok ⟨x.pa, x.kind, x.buf⟩

/-- The trap of a vector word: the lowest failing lane's cause and address, and every failing lane (R332). -/
def lanesTrap (bad : List (Nat × W64 × XErr)) : Option Trap :=
  match bad with
  | [] => none
  | (_, va, e) :: _ =>
    some { cause := e.cause, sub := e.sub, level := e.level, eaddr := va, fm := maskOf (bad.map (fun b => b.1)) }

/-- The failing lanes of a list of checks. -/
def failures (xs : List (Nat × W64 × Except XErr Place)) : List (Nat × W64 × XErr) :=
  xs.filterMap (fun x => match x.2.2 with | .error e => some (x.1, x.2.1, e) | .ok _ => none)
/-- The places of the lanes that pass. -/
def placesOf (xs : List (Nat × W64 × Except XErr Place)) : List (Nat × W64 × Place) :=
  xs.filterMap (fun x => match x.2.2 with | .ok p => some (x.1, x.2.1, p) | .error _ => none)

/-- Translations by a core leave their leaves in the TLBs (R419). -/
def State.touchAll (s : State) (core : Nat) (lvl : Level) (vas : List W64) : State :=
  if lvl = .glob then vas.foldl (fun s va => s.touchTlb (clusterOf core) va) s else s

/-- An address that fails to translate, or whose page refuses the access, has been looked up in the TLBs too; a misaligned one has not
(R419, R483). -/
def State.touchFault (s : State) (core : Nat) (va : W64) (e : XErr) : State :=
  if e.cause = 0x05 ∨ e.cause = 0x06 ∨ e.cause = 0x07 then s.touchTlb (clusterOf core) va else s

/-! ### Vector words -/

/-- The low `n` bytes of a run of registers in lane `l`, little-endian (R309). -/
def Wave.runValue (w : Wave) (d n l : Nat) : Nat :=
  ((List.range ((n + 3) / 4)).foldr (fun i acc => (w.readV (d + i) l).toNat + 2 ^ 32 * acc) 0) % 256 ^ n
/-- The low `n` bytes of a scalar run. -/
def Wave.srunValue (w : Wave) (d n : Nat) : Nat :=
  ((List.range ((n + 3) / 4)).foldr (fun i acc => (w.readS (d + i)).toNat + 2 ^ 32 * acc) 0) % 256 ^ n

/-- What a memory word does in each lane. -/
structure MemPlan where
  lvl : Level
  path : Path
  a64 : Bool
  n : Nat
  regs : List Nat
  intent : Intent
  lost : Bool
  op : Nat → AccOp
  ret : BitVec 96 → Ret

/-- A word whose path counter stands at 63 waits to issue (R143). -/
def Wave.full (w : Wave) (p : Path) : Bool := decide (63 ≤ w.count p)

/-- The lanes a vector memory word accesses memory for: the active ones, and of these, for a store, an atomic or a reduction, those
whose HMASK bit is 0 (R242, R311). -/
def Wave.memLanes (w : Wave) (i : Intent) : List Nat :=
  if i = .write then w.lanes.filter (fun l => !w.hmask.getLsbD l) else w.lanes

/-- Issue a vector memory word: range, then the lanes' checks, then its request (R311, R332). LDC or STC with no active lane in a
team that does not hold its cluster checks no lane, and completes without PROTECTION (DESIGN CHOICE, log entry 108). Where a
word of its window is to write a source register, what is read here is the old value or the new one (R106; log entry 109). -/
def State.issueVec (s : State) (c k : Nat) (w : Wave) (f : FmtM) (p : MemPlan) : State :=
  if w.regRange (p.regs ++ voffRegs f p.a64) then s.trapAt c k w w.regRangeTrap
  else if w.full p.path then s.setWave c k (w.blockAt s.time 0 0)
  else
    let xs := (w.memLanes p.intent).map (fun l =>
      let va := w.laneAddr f p.a64 l
      (l, va, s.check c w p.lvl p.intent l va p.n))
    let s := s.touchAll c p.lvl (xs.map (fun x => x.2.1))
    match lanesTrap (failures xs) with
    | some t => s.trapAt c k w t
    | none =>
      let s := if p.lost then s.idemLost w.team else s
      let accs := (placesOf xs).map (fun x =>
        (⟨x.1, x.2.1, x.2.2.pa, p.n, p.lvl, x.2.2.kind, x.2.2.buf, p.op x.1, false, 0, false, 0⟩ : Access))
      let sem := f.sem.toNat
      if accs.isEmpty then
        if sem = 0 ∨ sem = 4 then s.setWave c k w.done
        else s.issueReq c k w.done p.path w.curWord sem f.scope.toNat [] .none orderOnly
      else s.issueReq c k w.done p.path w.curWord sem f.scope.toNat accs (p.ret w.mask) 0

/-- A load of a level (R313). -/
def loadPlan (lvl : Level) (path : Path) (a64 : Bool) (f : FmtM) : MemPlan :=
  let size := f.fn.toNat % 8
  ⟨lvl, path, a64, sizeBytes size, run f.data.toNat (sizeRun size), .read, false, fun _ => .read,
    fun m => .vload f.data.toNat size 0 m⟩
/-- A store of a level (R313). -/
def storePlan (w : Wave) (lvl : Level) (path : Path) (a64 lost : Bool) (f : FmtM) : MemPlan :=
  let size := f.fn.toNat % 8
  ⟨lvl, path, a64, sizeBytes size, run f.data.toNat (sizeRun size), .write, lost,
    fun l => .write (w.runValue f.data.toNat (sizeBytes size) l), fun _ => .none⟩

def execLdl (f : FmtM) (s : State) : Out := sysWord (.ldl f) s (fun c k w => s.issueVec c k w f (loadPlan .lp .lp false f))
def execStl (f : FmtM) (s : State) : Out :=
  sysWord (.stl f) s (fun c k w => s.issueVec c k w f (storePlan w .lp .lp false false f))
def execLds (f : FmtM) (s : State) : Out := sysWord (.lds f) s (fun c k w => s.issueVec c k w f (loadPlan .spad .lp false f))
def execSts (f : FmtM) (s : State) : Out :=
  sysWord (.sts f) s (fun c k w => s.issueVec c k w f (storePlan w .spad .lp false false f))
def execLdc (f : FmtM) (s : State) : Out := sysWord (.ldc f) s (fun c k w => s.issueVec c k w f (loadPlan .csm .cs false f))
def execStc (f : FmtM) (s : State) : Out :=
  sysWord (.stc f) s (fun c k w => s.issueVec c k w f (storePlan w .csm .cs false true f))
def execLdp (f : FmtM) (s : State) : Out := sysWord (.ldp f) s (fun c k w => s.issueVec c k w f (loadPlan .chip .cp false f))
def execStp (f : FmtM) (s : State) : Out :=
  sysWord (.stp f) s (fun c k w => s.issueVec c k w f (storePlan w .chip .cp false true f))
/-- LDG (R314). -/
def execLdg (f : FmtM) (s : State) : Out :=
  sysWord (.ldg f) s (fun c k w => s.issueVec c k w f (loadPlan .glob .gl (f.fn.getLsbD 3) f))
/-- STG (R314). -/
def execStg (f : FmtM) (s : State) : Out :=
  sysWord (.stg f) s (fun c k w => s.issueVec c k w f (storePlan w .glob .gs (f.fn.getLsbD 3) true f))

/-! ### Scalar words (R315) -/

/-- Issue one access made once for the wave. -/
def State.issueScalar (s : State) (c k : Nat) (w : Wave) (f : FmtM) (path : Path) (n : Nat) (i : Intent) (lost : Bool)
    (op : AccOp) (ret : Ret) : State :=
  if w.full path then s.setWave c k (w.blockAt s.time 0 0)
  else
    let va := w.wordBase f
    match s.check c w .glob i 0 va n with
    | .error e => (s.touchFault c va e).trapAt c k w { cause := e.cause, sub := e.sub, level := e.level, eaddr := va, fm := w.trapMask }
    | .ok p =>
      let s := if lost then s.idemLost w.team else s
      (s.touchTlb (clusterOf c) va).issueReq c k w.done path w.curWord f.sem.toNat f.scope.toNat
        [⟨0, va, p.pa, n, .glob, p.kind, p.buf, op, false, 0, false, 0⟩] ret 0

/-- SLD (R315). -/
def execSld (f : FmtM) (s : State) : Out :=
  sysWord (.sld f) s (fun c k w =>
    s.issueScalar c k w f .gl (sizeBytes f.fn.toNat) .read false .read (.sload f.data.toNat f.fn.toNat 0))
/-- SST (R315). -/
def execSst (f : FmtM) (s : State) : Out :=
  sysWord (.sst f) s (fun c k w =>
    let n := sizeBytes f.fn.toNat
    s.issueScalar c k w f .gs n .write true (.write (w.srunValue f.data.toNat n)) .none)

/-! ### LDQ (R318) and the stream queues' places (R373, R374) -/

def Team.queue (t : Team) (q : Nat) : SQueue := Tbl.getD t.sq q SQueue.empty
def Team.setQueue (t : Team) (q : Nat) (x : SQueue) : Team := { t with sq := Tbl.put t.sq q SQueue.empty x }
/-- Whether agent `a` may take the next entry: one is free and nobody waits before it (R374). -/
def SQueue.mayPush (q : SQueue) (a : Agent) : Bool :=
  decide (q.entries.length < 8) && (match q.pushWait with | [] => true | b :: _ => decide (b = a))
/-- Take the next entry. -/
def SQueue.take (q : SQueue) (a : Agent) (e : SQEntry) : SQueue :=
  { q with entries := q.entries ++ [e], pushWait := q.pushWait.filter (fun b => !decide (b = a)) }
/-- Wait to push, once. -/
def SQueue.waitPush (q : SQueue) (a : Agent) : SQueue :=
  if a ∈ q.pushWait then q else { q with pushWait := q.pushWait ++ [a] }

/-- LDQ (R318): a load that takes the queue's next entry at issue; a full queue blocks the wave. -/
def execLdq (f : FmtM) (s : State) : Out :=
  sysWord (.ldq f) s (fun c k w =>
    let a64 := f.fn.getLsbD 3
    let size := f.fn.toNat % 8
    let qn := f.data.toNat
    match s.team? w.team with
    | none => s.trapAt c k w (w.protTrap 0)
    | some t =>
      let q := t.queue qn
      if w.regRange (voffRegs f a64) then s.trapAt c k w w.regRangeTrap
      else if w.full .gl then s.setWave c k (w.blockAt s.time 0 0)
      else
        let xs := w.lanes.map (fun l =>
          let va := w.laneAddr f a64 l
          (l, va, s.check c w .glob .read l va (sizeBytes size)))
        let s := s.touchAll c .glob (xs.map (fun x => x.2.1))
        match lanesTrap (failures xs) with
        | some tr => (s.setTeam w.team (t.setQueue qn { q with pushWait := q.pushWait.filter (fun b => !decide (b = .wave c k)) })).trapAt c k w tr
        | none =>
          if !q.mayPush (.wave c k) then
            (s.setTeam w.team (t.setQueue qn (q.waitPush (.wave c k)))).setWave c k (w.blockAt s.time 1 0)
          else
            let id := q.head + q.entries.length
            let accs := (placesOf xs).map (fun x =>
              (⟨x.1, x.2.1, x.2.2.pa, sizeBytes size, .glob, x.2.2.kind, x.2.2.buf, .read, false, 0, false, 0⟩ : Access))
            let s := s.setTeam w.team (t.setQueue qn (q.take (.wave c k) ⟨accs.isEmpty, []⟩))
            if accs.isEmpty then s.setWave c k w.done
            else s.issueReq c k w.done .gl w.curWord 0 0 accs (.queue qn id size 0 w.mask) 0)

/-! ### Prefetch (R304, R319) -/

/-- A prefetch of one line by a cluster: dropped, and counted as issued and wasted, when it would fault or names an SO or TS page;
otherwise it takes a miss-status entry, unless the line is there or on its way (R304, R305). -/
def State.prefetch (s : State) (cl : Nat) (va : W64) : State :=
  match s.translate cl va .read with
  | .error _ => ((s.touchTlb cl va).count 2 cl 0 1).count 2 cl 3 1
  | .ok x =>
    if x.kind = .rc ∨ x.kind = .uo then (s.touchTlb cl va).takePrefetch cl (x.pa / 128)
    else ((s.touchTlb cl va).count 2 cl 0 1).count 2 cl 3 1

/-- PFG (R319): never traps on an address, writes nothing and raises no counter; it asks for nothing while an acquire of the wave is
outstanding (R317). -/
def execPfg (f : FmtM) (s : State) : Out :=
  sysWord (.pfg f) s (fun c k w =>
    let a64 := f.fn.getLsbD 3
    if w.regRange (voffRegs f a64) then s.trapAt c k w w.regRangeTrap
    else if w.acquiring then s.setWave c k (w.blockAt s.time 0 0)
    else (w.lanes.foldl (fun s l => s.prefetch (clusterOf c) (w.laneAddr f a64 l)) s).setWave c k w.done)

/-! ### Tiles (R320–R322) -/

def tileBytes (f : FmtM) : Nat := 64 * 2 ^ (f.fn.toNat % 8)
/-- The registers of a tile: one for each 128 bytes, at least one (R320). -/
def tileRegs (f : FmtM) : List Nat := run f.data.toNat (max 1 (tileBytes f / 128))

/-- Check a tile word: the alignment of the tile and of its version word, then the translation and kind of the 64-byte pieces,
ascending, and of the version word: the first failure and its address (R332). -/
def State.tileCheck (s : State) (c : Nat) (w : Wave) (va : W64) (t : Nat) (ver : Option W64) (i vi : Intent) :
    Except (W64 × XErr) (List Access × List Access) :=
  if va.toNat % t ≠ 0 then .error (va, misaligned)
  else if (ver.getD 0).toNat % 8 ≠ 0 then .error (ver.getD 0, misaligned)
  else
    let ps := (List.range (t / 64)).map (fun j =>
      let a := va + BitVec.ofNat 64 (64 * j)
      (j, a, s.check c w .glob i 0 a 64))
    match failures ps with
    | (_, a, e) :: _ => .error (a, e)
    | [] =>
      let pieces := (placesOf ps).map (fun x =>
        (⟨x.1, x.2.1, x.2.2.pa, 64, .glob, x.2.2.kind, x.2.2.buf, .read, false, 0, false, 0⟩ : Access))
      match ver with
      | none => .ok (pieces, [])
      | some v =>
        match s.check c w .glob vi 0 v 8 with
        | .error e => .error (v, e)
        | .ok p => .ok (pieces, [⟨0, v, p.pa, 8, .glob, p.kind, p.buf, .read, false, 0, false, 0⟩])

/-- Byte piece `j` of a tile from the registers: word w in lane w mod 32 of register DATA + w / 32 (R320). -/
def Wave.tilePiece (w : Wave) (d j : Nat) : Nat :=
  (List.range 16).foldr (fun i acc =>
    let n := 16 * j + i
    (w.readV (d + n / 32) (n % 32)).toNat + 2 ^ 32 * acc) 0

/-- TLD (R322): with VER = 1, up to 16 attempts of version word, tile and version word again. -/
def execTld (f : FmtM) (s : State) : Out :=
  sysWord (.tld f) s (fun c k w =>
    let ver := f.fn.getLsbD 3
    let va := w.wordBase f
    if w.regRange (tileRegs f) then s.trapAt c k w w.regRangeTrap
    else if w.full .gl then s.setWave c k (w.blockAt s.time 0 0)
    else
      match s.tileCheck c w va (tileBytes f) (if ver then some (w.readS64 (f.base.toNat + 2)) else none) .read .read with
      | .error (a, e) => (s.touchFault c a e).trapAt c k w { cause := e.cause, sub := e.sub, level := e.level, eaddr := a, fm := w.trapMask }
      | .ok (ps, vs) =>
        (s.touchAll c .glob ((ps ++ vs).map (fun a => a.va))).issueReq c k w.done .gl w.curWord f.sem.toNat f.scope.toNat
          (vs ++ ps ++ vs) (.tile f.data.toNat (tileBytes f) ver) 0)

/-- The phase of a TST with AON = 1: its version word is not yet odd. -/
def aonPhase : Nat := 50

/-- TST (R321): with AON = 1, the version word is made odd, the pieces written, and the version made even again. -/
def execTst (f : FmtM) (s : State) : Out :=
  sysWord (.tst f) s (fun c k w =>
    let aon := f.fn.getLsbD 3
    let va := w.wordBase f
    if w.regRange (tileRegs f) then s.trapAt c k w w.regRangeTrap
    else if w.full .gs then s.setWave c k (w.blockAt s.time 0 0)
    else
      match s.tileCheck c w va (tileBytes f) (if aon then some (w.readS64 (f.base.toNat + 2)) else none) .write .write with
      | .error (a, e) => (s.touchFault c a e).trapAt c k w { cause := e.cause, sub := e.sub, level := e.level, eaddr := a, fm := w.trapMask }
      | .ok (ps, vs) =>
        let ws := ps.map (fun a => { a with op := .write (w.tilePiece f.data.toNat a.lane) })
        let inc := vs.map (fun a => { a with op := .atom 13 1 })
        ((s.idemLost w.team).touchAll c .glob ((ps ++ vs).map (fun a => a.va))).issueReq c k w.done .gs w.curWord f.sem.toNat
          f.scope.toNat (inc ++ ws ++ inc) .none (if aon then aonPhase else 0))

/-! ### Column maintenance, DISCARD (R323, R324) -/

/-- The lines of an FN 1 form: each active lane's, translated and checked as a load's (R323). -/
def State.namedLines (s : State) (c : Nat) (w : Wave) (f : FmtM) : Except Trap (List Nat) :=
  let xs := w.lanes.map (fun l =>
    let va := w.laneAddr f false l
    (l, va, s.check c w .glob .read l va 1))
  match lanesTrap (failures xs) with
  | some t => .error t
  | none => .ok ((placesOf xs).map (fun x => x.2.2.pa / 128))

/-- CLEAN and INVAL: they act by scope on every line, or on the named ones (R323), once the wave's lookahead windows are closed and
its acquires have returned (R107, R317). -/
def State.columnWord (s : State) (c k : Nat) (w : Wave) (f : FmtM) (inv : Bool) : State :=
  if w.regRange (voffRegs f false) then s.trapAt c k w w.regRangeTrap
  else if !w.wins.isEmpty || w.acquiring then s.setWave c k (w.blockAt s.time 0 0)
  else
    let acts := columnScope (s.paired w.team) f.scope.toNat
    if f.fn = 0 then
      (if acts then (s.colSweep c (fun _ => true) inv).tagLast c k ((s.sweepOrder c).filter (s.colDirty c)) else s).doneWave c k
    else
      let vas := w.lanes.map (fun l => w.laneAddr f false l)
      match s.namedLines c w f with
      | .error t => (s.touchAll c .glob vas).trapAt c k w t
      | .ok ls =>
        let s := s.touchAll c .glob vas
        let n := s.choose 323000 ls.length
        let ls := ls.drop n ++ ls.take n
        (if acts then (ls.foldl (fun s l => if inv then s.colEvict c l else s.colClean c l) s).tagLast c k (ls.filter (s.colDirty c))
         else s).doneWave c k

/-- CLEAN (R323). -/
def execClean (f : FmtM) (s : State) : Out := sysWord (.clean f) s (fun c k w => s.columnWord c k w f false)
/-- INVAL (R323). -/
def execInval (f : FmtM) (s : State) : Out := sysWord (.inval f) s (fun c k w => s.columnWord c k w f true)

/-- The check of one lane of a DISCARD: a store's, with PROTECTION for a host-window address before ACCESS_KIND (R324, R332). -/
def State.discardCheck (s : State) (c : Nat) (va : W64) : Except XErr Place :=
  match s.translate (clusterOf c) va .write with
  | .error e => .error e
  | .ok x =>
    if hostWindow x.pa then .error (protection 0 0)
    else if x.kind = .ts then .error accessKind
    else .ok ⟨x.pa, x.kind, x.buf⟩

/-- DISCARD (R324): each active lane's line; a host-window address traps PROTECTION. -/
def execDiscard (f : FmtM) (s : State) : Out :=
  sysWord (.discard f) s (fun c k w =>
    let a64 := f.fn.getLsbD 3
    if w.regRange (voffRegs f a64) then s.trapAt c k w w.regRangeTrap
    else if w.full .gs then s.setWave c k (w.blockAt s.time 0 0)
    else
      let xs := w.lanes.map (fun l =>
        let va := w.laneAddr f a64 l
        (l, va, s.discardCheck c va))
      let s := s.touchAll c .glob (xs.map (fun x => x.2.1))
      match lanesTrap (failures xs) with
      | some t => s.trapAt c k w t
      | none =>
        let s := s.idemLost w.team
        let accs := (placesOf xs).map (fun x =>
          (⟨x.1, x.2.1, x.2.2.pa / 128 * 128, 128, .glob, x.2.2.kind, x.2.2.buf, .discard, false, 0, false, 0⟩ : Access))
        if accs.isEmpty then s.setWave c k w.done
        else s.issueReq c k w.done .gs w.curWord 0 0 accs .none 0)

/-! ### Atomics and reductions (R325–R327) -/

/-- ATOM (R326). -/
def execAtom (f : FmtM) (s : State) : Out :=
  sysWord (.atom f) s (fun c k w =>
    let fn := f.fn.toNat
    let n := atomBytes fn
    s.issueVec c k w f ⟨.glob, .gs, false, n, run f.data.toNat (n / 4), .write, true,
      fun l => .atom fn (w.runValue f.data.toNat n l), fun m => .atomRet f.data.toNat n m⟩)

/-- ACAS (R326): compare and new value in the run of DATA. -/
def execAcas (f : FmtM) (s : State) : Out :=
  sysWord (.acas f) s (fun c k w =>
    let n := if f.fn = 0 then 4 else 8
    s.issueVec c k w f ⟨.glob, .gs, false, n, run f.data.toNat (n / 2), .write, true,
      fun l => .cas (w.runValue f.data.toNat n l) (w.runValue (f.data.toNat + n / 4) n l),
      fun m => .atomRet f.data.toNat n m⟩)

/-- RED (R327): contributions, or atomics whose result is discarded on an SO page or in the host window. -/
def execRed (f : FmtM) (s : State) : Out :=
  sysWord (.red f) s (fun c k w =>
    let fn := f.fn.toNat
    let n := atomBytes fn
    s.issueVec c k w f ⟨.glob, .gs, false, n, run f.data.toNat (n / 4), .write, true,
      fun l => .red fn (w.runValue f.data.toNat n l), fun _ => .none⟩)

/-! ### FENCE (R329, R330) -/

/-- FENCE (R329): wait for the memory paths, perform the column actions of its scope, whose write-backs are acknowledged to the wave
(R518), and read ACKTAG. -/
def execFence (f : FmtM) (s : State) : Out :=
  sysWord (.fence f) s (fun c k w =>
    if !w.memQuiet then s.setWave c k (w.blockAt s.time 1 0)
    else
      let sem := f.sem.toNat
      let scope := f.scope.toNat
      let pair := s.paired w.team
      let s := if sem = 2 ∨ sem = 3 ∨ scope = 1 then s.releaseFor c k pair scope else s
      let s := if 3 ≤ scope then s.sweepFor c k (fun l => l.uo) true else s
      let s := if sem = 1 ∨ sem = 3 then s.acquireFor c k pair scope else s
      s.updWave c k (fun w => (if f.data = 127 then w else w.writeS f.data.toNat w.acktag).done))

end Sys2Proof.Machine
end

