-- ==== Sys2Proof/Machine/Channels.lean ====
section
/-! DEFINITION. Channels (R355–R361), stream queues (R373, R374), their words, and the steps that serve a waiting word. -/

namespace Sys2Proof.Machine

def Team.chan (t : Team) (n : Nat) : Chan := Tbl.getD t.ch n Chan.undef
def Team.setChan (t : Team) (n : Nat) (x : Chan) : Team := { t with ch := Tbl.put t.ch n Chan.undef x }
def State.chan (s : State) (team n : Nat) : Chan :=
  match s.team? team with
  | some t => t.chan n
  | none => Chan.undef
def State.updChan (s : State) (team n : Nat) (g : Chan → Chan) : State :=
  s.updTeam team (fun t => t.setChan n (g (t.chan n)))

/-! ### Pointers (R355, R360) -/

/-- Elements from `a` up to `b`, modulo 2^32. -/
def span (b a : W32) : Nat := (b - a).toNat
def Chan.avail (c : Chan) : Nat := span c.com c.acq
def Chan.room (c : Chan) : Nat := c.cap - span c.res c.rel
/-- The n indices from `a`, modulo 2^32. -/
def indices (a : W32) (n : Nat) : List Nat := (List.range n).map (fun i => (a + BitVec.ofNat 32 i).toNat)
/-- COM passes every element marked COMMITTED. -/
def Chan.advanceCom : Nat → Chan → Chan
  | 0, c => c
  | n + 1, c =>
    if c.com.toNat ∈ c.committed then
      Chan.advanceCom n { c with committed := c.committed.filter (fun x => !decide (x = c.com.toNat)), com := c.com + 1 }
    else c
/-- REL passes every element marked RELEASED. -/
def Chan.advanceRel : Nat → Chan → Chan
  | 0, c => c
  | n + 1, c =>
    if c.rel.toNat ∈ c.released then
      Chan.advanceRel n { c with released := c.released.filter (fun x => !decide (x = c.rel.toNat)), rel := c.rel + 1 }
    else c
def Chan.commit (c : Chan) (a : W32) (n : Nat) : Chan :=
  Chan.advanceCom c.cap { c with committed := c.committed ++ indices a n }
def Chan.release (c : Chan) (a : W32) (n : Nat) : Chan :=
  Chan.advanceRel c.cap { c with released := c.released ++ indices a n }
def Chan.reserve (c : Chan) (n : Nat) : Chan := { c with res := c.res + BitVec.ofNat 32 n }
/-- Inputs are consumed: ACQ and REL advance by n (R363). -/
def Chan.consume (c : Chan) (n : Nat) : Chan :=
  ({ c with acq := c.acq + BitVec.ofNat 32 n } : Chan).release c.acq n
/-- The firing conditions of an input and of an output channel (R363). -/
def Chan.inputReady (c : Chan) (n : Nat) : Bool := decide (n ≤ c.avail) && decide (c.acq = c.rel)
def Chan.outputReady (c : Chan) (n : Nat) : Bool := decide (n ≤ c.room)
def Chan.heads (c : Chan) (id : Nat) : Bool := decide (c.queue.head? = some id)
def Chan.leave (c : Chan) (id : Nat) : Chan := { c with queue := c.queue.filter (fun x => !decide (x = id)) }

/-! ### Elements (R357) -/

/-- The byte of a reserved column row. -/
def rowKey (core byte : Nat) : Nat := core * 2 ^ 26 + byte
/-- Where element `i` begins in its store. -/
def Team.elemAt (t : Team) (c : Chan) (i : W32) : Nat :=
  let slot := i.toNat % c.cap
  if c.back = 0 then scratchKey t.core (t.p + c.base + slot * c.esize)
  else rowKey (t.backCore c) ((c.row0 + slot * rowsOf c.esize) * 2048)
/-- `n` bytes of element `i` from offset `off`. -/
def State.elemBytes (s : State) (t : Team) (c : Chan) (i : W32) (off n : Nat) : List Byte :=
  let m := if c.back = 0 then s.mem.scratch else s.mem.rows
  (List.range n).map (fun j => Mem.read m (t.elemAt c i + off + j))
/-- Whether they meet an uncorrectable error (R291). -/
def State.elemBad (s : State) (t : Team) (c : Chan) (i : W32) (off n : Nat) : Bool :=
  s.badIn (if c.back = 0 then .scratch else .rows) (t.elemAt c i + off) n
/-- Write bytes of element `i` from offset `off`; rows of a column in OFF keep nothing (R306). -/
def State.elemWrite (s : State) (t : Team) (c : Chan) (i : W32) (off : Nat) (bs : List Byte) : State :=
  if decide (c.back ≠ 0) && decide ((s.core (t.backCore c)).powered = .off) then s
  else s.storeWrite (if c.back = 0 then .scratch else .rows) (t.elemAt c i + off) bs

/-- A wave that has ended with its in-flight counters at zero: its slots are free (R207). -/
def Wave.gone (w : Wave) : Bool := w.halted && w.reqs.isEmpty && w.arrivals.isEmpty && w.treq.isNone
/-- The wave-slot line of R44 and R457, with `rows` column rows reserved: the resident waves' slots, one for each team whose
queues the core holds, and one for each 80 rows or part of 80. -/
def State.slotLine (s : State) (core rows : Nat) : Nat :=
  ((s.waves.filter (fun r => decide (r.1 / 32 = core) && !r.2.gone)).map (fun r => r.2.slots)).sum
    + (s.teams.filter (fun r => decide (r.2.core = core))).length + (rows + 79) / 80
/-- The lowest row at which `n` rows are free. Which rows a channel takes is not visible (R287). -/
def freeRow (held : List (Nat × Nat)) (n : Nat) : Nat :=
  let free := fun (r : Nat) => held.all (fun h => decide (r + n ≤ h.1) || decide (h.1 + h.2 ≤ r))
  let ends := held.map (fun h => h.1 + h.2)
  if free 0 then 0
  else
    (ends.filter free).foldl (fun (b : Nat) e => if b = 0 ∨ e < b then e else b) 0
/-- The lines of a core's column that rows newly reserved held are written back and dropped: which they are is free, but no more lines
stay than the rows left have room for (R287). -/
def State.evictForRows (s : State) (core : Nat) : State :=
  let s := (s.colLines core).foldl (fun s l => if s.flip (930000 + l) then s.colEvict core l else s) s
  (List.range ((s.colLines core).length - s.colRoom core)).foldl (fun s _ => s.colEvictOne core) s

/-! ### CHDEF (R356, R360) -/

/-- A channel is busy: elements in use, or an engine command or sequencer word that names it has not completed (R360); a GTSEND
names none. -/
def State.chanBusy (s : State) (team n : Nat) (c : Chan) : Bool :=
  c.defd && (!decide (c.res = c.rel) || !c.queue.isEmpty ||
    s.cmds.any (fun r => decide (r.2.team = team) && !decide (r.2.stage = .done) &&
      match r.2.kind with
      | .cpyin _ _ => decide (r.2.ch = n)
      | .cpyout _ => decide (r.2.ch = n)
      | .idxwalk _ => decide (r.2.ch = n)
      | .gather _ _ _ => decide (r.2.ch = n) || decide (r.2.ch2 = n)
      | _ => false) ||
    s.streams.any (fun r => decide (r.2.team = team) && r.2.xferQ.any (fun q =>
      !decide (q.op = 0xDA) && !q.f.flags.getLsbD 0 && decide (q.f.cha.toNat = n))))

def Wave.boundsTrap (w : Wave) (sub : Nat) : Trap := { cause := 0x08, sub := sub, fm := w.trapMask }
def Wave.formatTrap (w : Wave) (sub : Nat) : Trap := { cause := 0x09, sub := sub, fm := w.trapMask }

/-- A block of `n` bytes aligned to `al` at a team offset: its bytes, or the trap (R265, R387). -/
def State.descriptor (s : State) (w : Wave) (off : W64) (al n : Nat) : Except Trap (List Byte) :=
  match s.team? w.team with
  | none => .error (w.protTrap 0)
  | some t =>
    if off.toNat % al ≠ 0 then .error { cause := 0x04, eaddr := off, fm := w.trapMask }
    else if !t.fits off.toNat n then .error { cause := 0x06, eaddr := off, fm := w.trapMask }
    else .ok (s.teamBytes w t off.toNat n)

/-- The channel a descriptor describes, or none where it is invalid (R356, R357). -/
def Team.chanFrom (t : Team) (b : List Byte) : Option Chan :=
  let base := fieldOf b 0 4
  let esize := fieldOf b 4 4
  let cap := fieldOf b 8 2
  let back := fieldOf b 10 1
  if !zeroField b 11 21 || decide (2 < back) || decide (4096 < cap) || (decide (back = 2) && !t.paired) then none
  else if cap = 0 then some Chan.undef
  else if esize % 16 ≠ 0 ∨ esize < 16 ∨ 65536 < esize then none
  else if (if back = 0 then decide (base % 16 ≠ 0) || decide (t.spad * 4096 < base + cap * esize) else decide (base ≠ 0)) then none
  else some { Chan.undef with defd := true, base := base, esize := esize, cap := cap, back := back }

/-- CHDEF (R356, R360): define or undefine a channel, whose descriptor is read once the wave's acquires have returned (R343); column rows are reserved, their lines written back (R287). Words that wait on
the channel keep their places. -/
def execChdef (f : FmtE) (s : State) : Out :=
  sysWord (.chdef f) s (fun c k w =>
    match s.team? w.team with
    | none => s.trapAt c k w (w.protTrap 0)
    | some t =>
      if w.acquiring then s.setWave c k (w.blockAt s.time 0 0) else
      match s.descriptor w (w.readS64 f.desc.toNat) 32 32 with
      | .error e => s.trapAt c k w e
      | .ok b =>
        match t.chanFrom b with
        | none => s.trapAt c k w (w.boundsTrap 0x23)
        | some x =>
          let n := f.ch.toNat
          let old := t.chan n
          let bare := s.setTeam w.team (t.setChan n Chan.undef)
          let core := t.backCore x
          let held := bare.rowsHeld core
          let rows := x.cap * rowsOf x.esize
          if decide (0 < x.back) && decide (1536 < rows + rowTotal held) then s.trapAt c k w (w.boundsTrap 0x23)
          else if s.chanBusy w.team n old then s.trapAt c k w (w.boundsTrap 0x25)
          else if decide (0 < x.back) && decide (32 < s.slotLine core (rows + rowTotal held)) then s.trapAt c k w (w.boundsTrap 0x28)
          else
          let x := { x with acqWait := old.acqWait, resWait := old.resWait }
          if x.back = 0 then (bare.setTeam w.team (t.setChan n x)).setWave c k w.done
          else
            let row0 := freeRow held rows
            let s := (bare.setTeam w.team (t.setChan n { x with row0 := row0 })).evictForRows core
            let s := s.storeClear .rows (rowKey core (row0 * 2048)) (rows * 2048)
            s.setWave c k w.done)

/-! ### CHRES, CHCOM, CHACQ, CHREL, CHQRY (R359, R360) -/

/-- The count of R359. -/
def Wave.eCountOf (w : Wave) (f : FmtE) : Nat := if f.flags.getLsbD 0 then f.imm.toNat else w.z f.cnt

/-- The checks every counted channel word shares (R387). -/
def chanCheck (w : Wave) (ch : Chan) (n : Nat) (waits : Bool) : Option Trap :=
  if !ch.defd then some (w.boundsTrap 0x22)
  else if ch.cap < n then some (w.boundsTrap 0x20)
  else if waits && decide (0 < ch.back) then some (w.boundsTrap 0x24)
  else none

/-- Whether an agent is first among those waiting. -/
def firstOf (q : List Agent) (a : Agent) : Bool :=
  match q with
  | [] => true
  | b :: _ => decide (b = a)
def joinQ (q : List Agent) (a : Agent) : List Agent := if a ∈ q then q else q ++ [a]
def leaveQ (q : List Agent) (a : Agent) : List Agent := q.filter (fun b => !decide (b = a))

/-- CHRES at a wave: reserve once there is room and no earlier word waits; otherwise wait. -/
def State.chresStep (s : State) (f : FmtE) (c k : Nat) (w : Wave) : State :=
  let a := Agent.wave c k
  let n := w.eCountOf f
  let ch := s.chan w.team f.ch.toNat
  match chanCheck w ch n true with
  | some e => (s.updChan w.team f.ch.toNat (fun x => { x with resWait := leaveQ x.resWait a })).trapAt c k w e
  | none =>
    if n = 0 ∨ (firstOf ch.resWait a = true ∧ n ≤ ch.room) then
      (s.updChan w.team f.ch.toNat (fun x => { x.reserve n with resWait := leaveQ x.resWait a })).setWave c k
        (w.writeS f.desc.toNat ch.res).done
    else
      (s.updChan w.team f.ch.toNat (fun x => { x with resWait := joinQ x.resWait a })).setWave c k (w.blockAt s.time 1 0)
/-- CHACQ at a wave: acquire committed elements, then act as an acquire at team scope (R341, R361). -/
def State.chacqStep (s : State) (f : FmtE) (c k : Nat) (w : Wave) : State :=
  let a := Agent.wave c k
  let n := w.eCountOf f
  let ch := s.chan w.team f.ch.toNat
  match chanCheck w ch n true with
  | some e => (s.updChan w.team f.ch.toNat (fun x => { x with acqWait := leaveQ x.acqWait a })).trapAt c k w e
  | none =>
    if n = 0 ∨ (firstOf ch.acqWait a = true ∧ n ≤ ch.avail) then
      ((s.updChan w.team f.ch.toNat
          (fun x => { x with acq := x.acq + BitVec.ofNat 32 n, acqWait := leaveQ x.acqWait a })).setWave c k
        (w.writeS f.desc.toNat ch.acq).done).columnAcquire (s.paired w.team) 1 c
    else
      (s.updChan w.team f.ch.toNat (fun x => { x with acqWait := joinQ x.acqWait a })).setWave c k (w.blockAt s.time 1 0)

/-- CHRES (R360). -/
def execChres (f : FmtE) (s : State) : Out := sysWord (.chres f) s (fun c k w => s.chresStep f c k w)
/-- CHACQ (R360). -/
def execChacq (f : FmtE) (s : State) : Out := sysWord (.chacq f) s (fun c k w => s.chacqStep f c k w)

/-- CHCOM (R360, R361): a release at team scope, which waits for the wave's accesses, then the commit. -/
def execChcom (f : FmtE) (s : State) : Out :=
  sysWord (.chcom f) s (fun c k w =>
    let n := w.eCountOf f
    let ch := s.chan w.team f.ch.toNat
    let a := w.readS f.desc.toNat
    match chanCheck w ch n false with
    | some e => s.trapAt c k w e
    | none =>
      if n ≠ 0 ∧ (span ch.res ch.com < span a ch.com + n ∨ (indices a n).any (fun i => decide (i ∈ ch.committed)) = true) then
        s.trapAt c k w (w.boundsTrap 0x26)
      else if !w.memQuiet then s.setWave c k (w.blockAt s.time 0 0)
      else ((s.releaseFor c k (s.paired w.team) 1).updChan w.team f.ch.toNat (fun x => x.commit a n)).doneWave c k)

/-- CHREL (R360). -/
def execChrel (f : FmtE) (s : State) : Out :=
  sysWord (.chrel f) s (fun c k w =>
    let n := w.eCountOf f
    let ch := s.chan w.team f.ch.toNat
    let a := w.readS f.desc.toNat
    match chanCheck w ch n false with
    | some e => s.trapAt c k w e
    | none =>
      if n ≠ 0 ∧ (span ch.acq ch.rel < span a ch.rel + n ∨ (indices a n).any (fun i => decide (i ∈ ch.released)) = true) then
        s.trapAt c k w (w.boundsTrap 0x26)
      else (s.updChan w.team f.ch.toNat (fun x => x.release a n)).doneWave c k)

/-- CHQRY (R360): 0 for an undefined channel. -/
def execChqry (f : FmtE) (s : State) : Out :=
  sysWord (.chqry f) s (fun c k w =>
    let ch := s.chan w.team f.ch.toNat
    let v : W32 := if !ch.defd then 0 else match f.fn.toNat with
      | 0 => BitVec.ofNat 32 ch.avail
      | 1 => BitVec.ofNat 32 ch.room
      | 2 => ch.com
      | _ => ch.rel
    s.setWave c k (w.writeS f.desc.toNat v).done)

/-- A wave that may continue a blocked word: it is blocked, and nothing holds it. -/
def Wave.mayServe (w : Wave) : Bool := !w.halted && !w.stopped && !w.dbg && !decide (w.block = .none)

/-- CHANNEL_WAIT_SERVED (R360): a blocked CHRES or CHACQ goes on once its condition holds. -/
def execChannelWaitServed (a : Agent) (s : State) : Out :=
  match a with
  | .stream _ => .next s
  | .wave c k =>
    match s.wave? c k with
    | none => .next s
    | some w =>
      if !w.mayServe then .next s
      else
        match decodeWord w.curWord with
        | .ok (.chres f) => .next (s.chresStep f c k w)
        | .ok (.chacq f) => .next (s.chacqStep f c k w)
        | _ => .next s

/-! ### Stream queues (R373, R374) -/

/-- SQPUSH at a wave: take the next entry when one is free, in issue order. -/
def State.sqpushStep (s : State) (f : FmtQ) (c k : Nat) (w : Wave) : State :=
  match s.team? w.team with
  | none => s.setWave c k w.done
  | some t =>
    let q := t.queue f.id.toNat
    if w.regRange [f.qd.toNat] then s.trapAt c k w w.regRangeTrap
    else if q.mayPush (.wave c k) then
      let data := w.lanes.foldl (fun (d : Tbl W32) l => Tbl.put d l 0 (w.readV f.qd.toNat l)) []
      (s.setTeam w.team (t.setQueue f.id.toNat (q.take (.wave c k) ⟨true, data⟩))).setWave c k w.done
    else (s.setTeam w.team (t.setQueue f.id.toNat (q.waitPush (.wave c k)))).setWave c k (w.blockAt s.time 1 0)
/-- SQPOP at a wave: the head entry, once it is READY, in issue order. -/
def State.sqpopStep (s : State) (f : FmtQ) (c k : Nat) (w : Wave) : State :=
  match s.team? w.team with
  | none => s.setWave c k w.done
  | some t =>
    let q := t.queue f.id.toNat
    let a := Agent.wave c k
    if w.regRange [f.qd.toNat] then s.trapAt c k w w.regRangeTrap
    else
      match q.entries with
      | e :: rest =>
        if e.ready && firstOf q.popWait a then
          (s.setTeam w.team (t.setQueue f.id.toNat { q with
            head := q.head + 1, entries := rest, popWait := leaveQ q.popWait a })).setWave c k
            (w.writeVs (w.lanes.map (fun l => (f.qd.toNat, l, Tbl.getD e.data l 0)))).done
        else (s.setTeam w.team (t.setQueue f.id.toNat { q with popWait := joinQ q.popWait a })).setWave c k (w.blockAt s.time 1 0)
      | [] => (s.setTeam w.team (t.setQueue f.id.toNat { q with popWait := joinQ q.popWait a })).setWave c k (w.blockAt s.time 1 0)

/-- SQPUSH (R374). -/
def execSqpush (f : FmtQ) (s : State) : Out := sysWord (.sqpush f) s (fun c k w => s.sqpushStep f c k w)
/-- SQPOP (R374). -/
def execSqpop (f : FmtQ) (s : State) : Out := sysWord (.sqpop f) s (fun c k w => s.sqpopStep f c k w)

/-- STREAM_QUEUE_WAIT_SERVED (R374): a blocked SQPUSH, SQPOP or LDQ goes on. -/
def execStreamQueueWaitServed (a : Agent) (s : State) : Out :=
  match a with
  | .stream _ => .next s
  | .wave c k =>
    match s.wave? c k with
    | none => .next s
    | some w =>
      if !w.mayServe then .next s
      else
        match decodeWord w.curWord with
        | .ok (.sqpush f) => .next (s.sqpushStep f c k w)
        | .ok (.sqpop f) => .next (s.sqpopStep f c k w)
        | .ok (.ldq f) => execLdq f { s with cur := some a }
        | _ => .next s

end Sys2Proof.Machine
end

