-- ==== Sys2Proof/Machine/Expand.lean ====
section
/-! DEFINITION. Matrix operands: the format codes (R74), slabs (R215), expansion to BF16 parts (R75, R76), the accumulation step
(R78, R79), and tiles (R145). -/

namespace Sys2Proof.Machine

/-- An element of a matrix operand. -/
inductive ElemKind where
  | flt (f : Fmt)
  | int (bits : Nat) (signed : Bool)
  deriving DecidableEq, Repr

/-- A row of R74: element, block size (0 without a block scale), E3M5 scales, band. -/
structure OpCode where
  elem : ElemKind
  block : Nat
  e3m5 : Bool
  band : Bool
  deriving DecidableEq, Repr

/-- The operand format codes of R74; the others are reserved. -/
def opCode (c : Nat) : Option OpCode :=
  match c with
  | 0x00 => some ⟨.flt .bf16, 0, false, false⟩
  | 0x01 => some ⟨.flt .f16, 0, false, false⟩
  | 0x02 => some ⟨.flt .f32, 0, false, false⟩
  | 0x03 => some ⟨.flt .fE4M3, 0, false, false⟩
  | 0x04 => some ⟨.flt .fE5M2, 0, false, false⟩
  | 0x05 => some ⟨.flt .fE3M2, 0, false, false⟩
  | 0x06 => some ⟨.flt .fE2M3, 0, false, false⟩
  | 0x07 => some ⟨.flt .fE2M1, 0, false, false⟩
  | 0x08 => some ⟨.int 8 true, 0, false, false⟩
  | 0x09 => some ⟨.int 8 false, 0, false, false⟩
  | 0x0A => some ⟨.int 4 true, 0, false, false⟩
  | 0x0B => some ⟨.int 4 false, 0, false, false⟩
  | 0x0C => some ⟨.flt .fE2M1, 8, true, false⟩
  | 0x0D => some ⟨.flt .fE2M1, 8, true, true⟩
  | 0x0E => some ⟨.flt .fE2M1, 16, true, false⟩
  | 0x0F => some ⟨.flt .fE2M1, 16, true, true⟩
  | 0x10 => some ⟨.flt .fE2M1, 32, false, false⟩
  | 0x11 => some ⟨.flt .fE3M2, 32, false, false⟩
  | 0x12 => some ⟨.flt .fE2M3, 32, false, false⟩
  | 0x13 => some ⟨.flt .fE4M3, 32, false, false⟩
  | 0x14 => some ⟨.flt .fE5M2, 32, false, false⟩
  | 0x15 => some ⟨.int 8 true, 32, false, false⟩
  | 0x16 => some ⟨.flt .fE4M3, 0, false, true⟩
  | 0x17 => some ⟨.flt .fE5M2, 0, false, true⟩
  | 0x18 => some ⟨.int 8 true, 0, false, true⟩
  | 0x19 => some ⟨.int 4 true, 0, false, true⟩
  | 0x1A => some ⟨.flt .bf16, 0, false, true⟩
  | 0x1B => some ⟨.int 4 true, 32, false, false⟩
  | 0x1C => some ⟨.flt .fE3M2, 0, false, true⟩
  | 0x1D => some ⟨.flt .fE2M1, 32, false, true⟩
  | _ => none

def ElemKind.width : ElemKind → Nat
  | .flt f => f.width
  | .int b _ => b
/-- The exact value of an element code. -/
def ElemKind.value : ElemKind → Nat → FVal
  | .flt f, c => f.value c
  | .int b sg, c => FVal.ofRat false (mkRat (if sg && decide (2 ^ (b - 1) ≤ c) then (c : Int) - 2 ^ b else c) 1)
/-- Scale bytes for 32 elements (R215). -/
def OpCode.scales (o : OpCode) : Nat := if o.block = 0 then 0 else 32 / o.block
/-- The slab size S of R215. -/
def OpCode.slab (o : OpCode) : Nat := 256 * o.elem.width + 64 * o.scales
/-- The passes of R74. -/
def OpCode.passes (o : OpCode) : Nat := if o.elem = .flt .f16 then 2 else if o.elem = .flt .f32 then 3 else 1

/-- Bits [pos, pos + w) of a little-endian bit stream (R72). -/
def bitsAt (x pos w : Nat) : Nat := x / 2 ^ pos % 2 ^ w

/-- The value of a scale byte, NaN for E8M0 0xFF (R67, R68). -/
def OpCode.scaleVal (o : OpCode) (b : Nat) : FVal :=
  if o.e3m5 then .fin false (if b / 32 = 0 then mkRat (b % 32 : Nat) 1 * pow2 (-8) else mkRat (32 + b % 32 : Nat) 1 * pow2 ((b / 32 : Nat) - 9))
  else if b = 255 then .nan else .fin false (pow2 ((b : Int) - 127))

def bf16Max : Rat := (Fmt.bf16.value Fmt.bf16.maxCode).toRat
/-- The BF16 value a single-pass element delivers, and whether it saturates (R75). -/
def deliver (x scale : FVal) : FVal × Bool :=
  match x, scale with
  | _, .nan => (.nan, false)
  | .fin s q, .fin _ k =>
    let y := q * k
    if bf16Max < y then (.fin s bf16Max, true)
    else if y < pow2 (-126) then (Fmt.bf16.value (Fmt.bf16.convert .rne (.fin s y)).code, false)
    else (.fin s y, false)
  | x, _ => (x, false)
/-- The BF16 nearest under a rounding. -/
def toBf16 (m : RMode) (v : FVal) : FVal := Fmt.bf16.value (Fmt.bf16.convert m v).code
/-- The parts of a multi-pass element, hi first (R76). -/
def splitParts (n : Nat) (x : FVal) : List FVal :=
  match x with
  | .fin s q =>
    let v := signed s q
    let hi := toBf16 .rz x
    let r1 := v - hi.toRat
    if n = 2 then [hi, FVal.ofRat false r1]
    else
      let mid := toBf16 .rz (FVal.ofRat false r1)
      [hi, mid, toBf16 .rne (FVal.ofRat false (r1 - mid.toRat))]
  | v => toBf16 .rne v :: List.replicate (n - 1) (.fin false 0)

/-- Expand one element: its parts, and whether it saturates. -/
def OpCode.expand (o : OpCode) (code scaleByte : Nat) : List FVal × Bool :=
  let x := o.elem.value code
  if o.passes = 1 then
    let r := deliver x (if o.block = 0 then .fin false 1 else o.scaleVal scaleByte)
    ([r.1], r.2)
  else (splitParts o.passes x, false)

/-- Element (line, kk) of a slab held as a number: `line` a row of A or column of B, `byLine` when a line's 32 elements are
contiguous (R215). -/
def OpCode.slabElem (o : OpCode) (slab line kk : Nat) (byLine : Bool) : List FVal × Bool :=
  let w := o.elem.width
  let code := bitsAt slab ((if byLine then 32 * line + kk else 64 * kk + line) * w) w
  let sc := if o.block = 0 then 0 else bitsAt slab (8 * (256 * w + line * o.scales + kk / o.block)) 8
  o.expand code sc

/-! ### Accumulation (R77–R79) -/

/-- The tile formats of ACCF. -/
def accFmt (accf : Nat) : Fmt := match accf with | 0 => .f32 | 1 => .f16 | _ => .bf16
def accBytes (accf : Nat) : Nat := if accf = 0 then 4 else 2
/-- One rounding step of the array. -/
def accStep (f : Fmt) (acc : Nat) (ps : List FVal) : Nat := (f.convert .rne (FVal.sum .rne (f.value acc :: ps))).code
/-- One pass over the contracted dimension: two products a step (R79). -/
def accPass (f : Fmt) : Nat → List FVal → List FVal → Nat
  | acc, a0 :: a1 :: as, b0 :: b1 :: bs =>
    accPass f (accStep f acc [FVal.mul false a0 b0, FVal.mul false a1 b1]) as bs
  | acc, [a0], [b0] => accStep f acc [FVal.mul false a0 b0]
  | acc, _, _ => acc
/-- The passes in order: i + j descending, then i ascending (R77). -/
def passOrder (pa pb : Nat) : List (Nat × Nat) :=
  ((List.range (pa + pb - 1)).reverse).flatMap (fun t =>
    ((List.range pa).filter (fun i => decide (i ≤ t) && decide (t - i < pb))).map (fun i => (i, t - i)))
/-- One output element: every pass over its operands' parts. -/
def accElem (f : Fmt) (acc : Nat) (a b : List (List FVal)) (passes : List (Nat × Nat)) : Nat :=
  passes.foldl (fun acc p =>
    accPass f acc (a.map (fun x => x.getD p.1 (.fin false 0))) (b.map (fun x => x.getD p.2 (.fin false 0)))) acc

/-! ### Tiles (R145) -/

def accKey (core slot byte : Nat) : Nat := core * 2 ^ 18 + slot * 4096 + byte
/-- The code of element (i, j) of a tile. -/
def State.tileElem (s : State) (core slot accf i j : Nat) : Nat :=
  Mem.readN s.mem.acc (accKey core slot (accBytes accf * (64 * i + j))) (accBytes accf)
/-- Every (i, j) of a tile. -/
def tileCells : List (Nat × Nat) := (List.range 64).flatMap (fun i => (List.range 64).map (fun j => (i, j)))
/-- Whether elements of a tile meet an uncorrectable error (R236). -/
def State.tileBad (s : State) (core slot accf : Nat) (es : List (Nat × Nat)) : Bool :=
  s.mem.bad.any (fun b => decide (b.store = .acc) && es.any (fun e =>
    wordTouches b.word (accKey core slot (accBytes accf * (64 * e.1 + e.2))) (accBytes accf)))
/-- Write elements of a tile. -/
def State.tileWrite (s : State) (core slot accf : Nat) (es : List (Nat × Nat × Nat)) : State :=
  let s := if s.mem.bad.isEmpty then s
    else s.freshCode .acc (es.map (fun e => (accKey core slot (accBytes accf * (64 * e.1 + e.2.1)), accBytes accf)))
  { s with mem := { s.mem with acc := es.foldl (fun m e =>
      Mem.writeN m (accKey core slot (accBytes accf * (64 * e.1 + e.2.1))) (accBytes accf) e.2.2) s.mem.acc } }
/-- The slots of a tile. -/
def slotsOf (tile accf : Nat) : List Nat := run tile (tileSlots accf)

end Sys2Proof.Machine
end

