-- ==== Sys2Proof/Machine/Bins.lean ====
section
/-! DEFINITION. Tiles and material bins on a die (R381, R385, R425–R427): room, appending, discarding, and what ends a tile. -/

namespace Sys2Proof.Machine

/-- The key of a pixel entry. -/
def pixKey (tile p : Nat) : Nat := tile * 4096 + p
/-- The die of a tile slot number (R425). -/
def dieOfTile (tile : Nat) : Nat := tile / 1024
/-- Entries the region above CPLIMIT holds (R381). -/
def Die.binRoom (d : Die) : Nat := (2 ^ 26 - d.cplimit) / 32 - ((d.bins.map (fun r => r.2.length)).sum)

/-- The standing launch of a material (R385). -/
def State.standing (s : State) (m : Nat) : Option (Nat × Launch) :=
  s.launches.find? (fun r => decide (r.2.material = some m))

/-- Every record of a tile is in a closed wave or discarded: its classify reference goes (R427). -/
def State.classified (s : State) (t : Nat) : State :=
  let x := s.tile t
  let waiting := (s.die (dieOfTile t)).bins.any (fun r => r.2.any (fun e => decide (e.kind < 2) && decide (e.tile = t)))
  if x.state = .shading ∧ !x.cls ∧ x.todo.isEmpty ∧ !waiting then (s.setTile t { x with cls := true }).unrefTile t else s
/-- The tiles of some entries are classified when nothing of them is left. -/
def State.classifiedAll (s : State) (es : List BinEntry) : State :=
  (((es.filter (fun e => decide (e.kind < 2))).map (fun e => e.tile)).eraseDups).foldl State.classified s

/-- The 32 bytes of an entry (R381). -/
def BinEntry.bytes (e : BinEntry) : List Byte :=
  bytesOf 4 e.word.toNat ++ bytesOf 4 e.cover.toNat ++ bytesOf 8 e.id.toNat ++ bytesOf 4 e.depth.toNat ++ bytesOf 2 e.tile
    ++ bytesOf 1 e.kind ++ bytesOf 1 e.pos ++ bytesOf 8 0
/-- Where a new entry lies, in units of 32 bytes: which place at or above CPLIMIT is not stated, so a free choice of one that holds
no entry (DESIGN CHOICE, log entry 122). -/
def State.binPlace (s : State) (die : Nat) : Nat :=
  let d := s.die die
  let used := d.bins.flatMap (fun r => r.2.map (fun e => e.place))
  let room := 2 ^ 21 - d.cplimit / 32
  let from_ := s.choose (273000000 + used.length) room
  let at_ := fun (i : Nat) => d.cplimit / 32 + (from_ + i) % room
  (((List.range (used.length + 1)).map at_).find? (fun p => !used.contains p)).getD (at_ 0)
/-- Whether the bank of a chip-scratchpad byte has lost its contents (R306). -/
def State.bankOff (s : State) (pa : Nat) : Bool :=
  decide (Tbl.getD (s.die (pa / 2 ^ 26)).bankPower (bankOf (pa % 2 ^ 26)) 0 = 3)
/-- An entry in a bank that keeps nothing: what the bins read there is a free value (R306; DESIGN CHOICE, log entry 110). -/
def BinEntry.lost (e : BinEntry) (nonce p : Nat) : BinEntry :=
  let v := fun (i : Nat) => Config.freeW32 nonce (306200000 + 8 * p + i)
  { e with word := v 0, cover := v 1, id := v 2 ++ v 3, depth := v 4 }
/-- One entry enters a bin: its bytes enter the chip scratchpad (R273, R381), unless their bank is OFF and keeps none (R306). -/
def State.binPut (die m : Nat) (s : State) (e : BinEntry) : State :=
  let p := s.binPlace die
  let d := s.die die
  if s.bankOff (die * 2 ^ 26 + 32 * p) then
    s.setDie die { d with bins := Tbl.set d.bins m (Tbl.getD d.bins m [] ++ [{ e.lost s.fresh p with place := p }]) }
  else
  (s.setDie die { d with bins := Tbl.set d.bins m (Tbl.getD d.bins m [] ++ [{ e with place := p }]) }).storeWrite .chip
    (die * 2 ^ 26 + 32 * p) e.bytes

/-- An error in a word of the chip scratchpad that an entry's pixel word, identifier or depth lies in: they deliver zero (R291). The
formation keeps the tile, the kind and the quad position of an entry. -/
def BinEntry.upset (e : BinEntry) (n : Nat) : BinEntry :=
  match n with
  | 0 => { e with word := 0, cover := 0 }
  | 1 => { e with id := 0 }
  | 2 => { e with depth := 0 }
  | _ => e
/-- A word of the chip scratchpad goes bad, and with it what the bins keep there. -/
def State.upsetChip (s : State) (word : Nat) : State :=
  let die := word / 2 ^ 23
  let d := s.die die
  let hit := fun (e : BinEntry) => if word % 2 ^ 23 / 4 = e.place then e.upset (word % 4) else e
  (s.upsetStore .chip word).setDie die { d with bins := List.map (fun r => (r.1, r.2.map hit)) d.bins }
/-- Entries whose bytes hold an error, as their wave takes them. -/
def State.badEntries (s : State) (die : Nat) (es : List BinEntry) : Nat :=
  (es.filter (fun e => s.badIn .chip (die * 2 ^ 26 + 32 * e.place) 24)).length

/-- Append entries to a die's bin, or discard and count them when no launch stands for the material (R385, R432). -/
def State.binAppend (s : State) (die m : Nat) (es : List BinEntry) : State :=
  match s.standing m with
  | none => s.count 4 die 5 es.length
  | some _ => (es.foldl (State.binPut die m) s).count 4 die 3 es.length
/-- Whether entries find room, or need none. -/
def State.binFits (s : State) (die m n : Nat) : Bool := (s.standing m).isNone || decide (n ≤ (s.die die).binRoom)

/-- Place hit records in order while they find room: the state and the records left (R251). -/
def State.placeHits (die : Nat) : State → List (Nat × BinEntry) → State × List (Nat × BinEntry)
  | s, [] => (s, [])
  | s, (m, e) :: rest =>
    if s.binFits die m 1 then State.placeHits die ((s.binAppend die m [{ e with when := s.ck }]).count 4 die 6 1) rest
    else (s, (m, e) :: rest)

/-- Discard every entry of a material's bins, as when its record is refused or its entry made invalid (R385). -/
def State.discardBins (s : State) (m : Nat) : State :=
  (List.range 4).foldl (fun s d =>
    let x := s.die d
    let es := Tbl.getD x.bins m []
    if es.isEmpty then s
    else ((s.setDie d { x with bins := Tbl.del x.bins m }).count 4 d 5 es.length).classifiedAll es) s

end Sys2Proof.Machine
end

