-- ==== Sys2Proof/Machine/Sync.lean ====
section
/-! DEFINITION. Barrier words (R465–R470), phases and their words (R471–R479), and the steps of the device that complete a
phase and register its watch. -/

namespace Sys2Proof.Machine

/-! ### Arrivals -/

/-- The scope of a barrier's release and acquire (R341). -/
def barrierScope (lvl : Nat) : Nat := lvl + 1

/-- An arrival of a wave counts, its release having completed: the column action, then the count (R467). None when the
member already holds an early arrival. -/
def State.arriveNow (s : State) (core slot : Nat) (w : Wave) (lvl id : Nat) : Option State :=
  match s.barrier? w.team lvl id with
  | none => some s
  | some b =>
    match b.arrive (s.memberId w.team lvl w.idx) with
    | none => none
    | some b' =>
      let s := s.releaseFor core slot (s.paired w.team) (barrierScope lvl)
      some ((s.setBarrier w.team lvl id b').pmcCount core 0x1E 1 w.team)

/-- Count the queued arrivals of a wave whose earlier accesses have completed, in issue order (R467). -/
def State.flushArrivals : Nat → State → Nat → Nat → State
  | 0, s, _, _ => s
  | n + 1, s, core, slot =>
    match s.wave? core slot with
    | none => s
    | some w =>
      match w.arrivals with
      | [] => s
      | a :: rest =>
        if w.reqs.any (fun q => pathMemory q.path && decide (q.id < a.after)) then s
        else
          match s.arriveNow core slot w a.lvl a.id with
          | none => s
          | some s' => State.flushArrivals n (s'.updWave core slot (fun w => { w with arrivals := rest })) core slot

/-- Count every queued arrival that may count now. -/
def State.flushAll (s : State) : State :=
  (s.waves.filter (fun r => !r.2.arrivals.isEmpty)).foldl
    (fun s r => State.flushArrivals r.2.arrivals.length s (r.1 / 32) (r.1 % 32)) s

/-- Arrivals of a wave at a barrier that have not completed their phase: counted, held or queued. -/
def State.openArrivals (s : State) (w : Wave) (lvl id : Nat) : Nat :=
  let x := match s.barrier? w.team lvl id with
    | some b => let m := b.member (s.memberId w.team lvl w.idx)
                (if m.ever ∧ m.last = b.gen then 1 else 0) + (if m.early then 1 else 0)
    | none => 0
  x + (w.arrivals.filter (fun a => decide (a.lvl = lvl) && decide (a.id = id))).length

/-- Whether a wave may name a barrier of a level: R43 for clusters, R55 for grids. -/
def State.levelOk (s : State) (w : Wave) (lvl : Nat) : Bool :=
  match s.team? w.team with
  | none => decide (lvl = 0)
  | some t =>
    match lvl with
    | 0 => true
    | 1 => t.excl
    | _ => t.coop

/-- An arrival by the current word of a wave: queued behind its release, or stalled (R467). Arrivals at cluster and grid
barriers set IDEM_LOST (R469). -/
def State.arriveWord (s : State) (core slot : Nat) (w : Wave) (lvl id : Nat) : Option State :=
  if 2 ≤ s.openArrivals w lvl id then none
  else
    let s := if lvl = 0 then s else s.idemLost w.team
    let s := s.setWave core slot { w with arrivals := w.arrivals ++ [⟨lvl, id, s.nextId⟩] }
    some s.flushAll

/-- Whether a wave's wait at a barrier is over: its arrivals have counted and their phase is complete (R467). -/
def State.waitOver (s : State) (w : Wave) (lvl id : Nat) : Bool :=
  w.arrivals.isEmpty &&
    match s.barrier? w.team lvl id with
    | some b => b.waitOver (s.memberId w.team lvl w.idx)
    | none => true

/-- BARR (R467): an arrival with release; the wave goes on while the release completes. -/
def execBarr (f : FmtQ) (s : State) : Out :=
  sysWord (.barr f) s (fun c k w =>
    if !s.levelOk w f.lvl.toNat then s.trapAt c k w (w.protTrap 0)
    else
      match s.arriveWord c k w f.lvl.toNat f.id.toNat with
      | none => s.setWave c k (w.blockAt s.time 0 0)
      | some s' => s'.doneWave c k)

/-- The wait of BARW and of BARRW's second half, then the acquire (R341, R467). -/
def State.barrierWait (s : State) (core slot : Nat) (lvl id : Nat) : State :=
  let s := s.flushAll
  match s.wave? core slot with
  | none => s
  | some w =>
    if s.waitOver w lvl id then (s.columnAcquire (s.paired w.team) (barrierScope lvl) core).doneWave core slot
    else s.setWave core slot (w.blockAt s.time 1 0)

/-- BARW (R467): wait for the phase of the last arrival. -/
def execBarw (f : FmtQ) (s : State) : Out :=
  sysWord (.barw f) s (fun c k w =>
    if !s.levelOk w f.lvl.toNat then s.trapAt c k w (w.protTrap 0)
    else s.barrierWait c k f.lvl.toNat f.id.toNat)

/-- BARRW (R467): arrive, then wait; once it has arrived, it only waits, after a replay too (R470). -/
def execBarrw (f : FmtQ) (s : State) : Out :=
  sysWord (.barrw f) s (fun c k w =>
    if !s.levelOk w f.lvl.toNat then s.trapAt c k w (w.protTrap 0)
    else if w.stage = 1 ∨ w.stands = some w.wordAddr then
      (s.setWave c k { w with stands := none }).barrierWait c k f.lvl.toNat f.id.toNat
    else
      match s.arriveWord c k w f.lvl.toNat f.id.toNat with
      | none => s.setWave c k (w.blockAt s.time 0 0)
      | some s' => s'.barrierWait c k f.lvl.toNat f.id.toNat)

/-! ### Phases (R471–R479) -/

/-- Which count of a phase an arrival lowers. -/
inductive PhaseItem where
  | gt | en | ts
  deriving DecidableEq, Repr

/-- An arrival for a team's phase, counted at a core position, or dropped as stray (R475). The Regulator holds a watched deposit
of a saved team (R478). -/
def State.phaseArrive (s : State) (team pos : Nat) (it : PhaseItem) : State :=
  match s.team? team with
  | none => if it = .ts then { s with saved := Tbl.upd s.saved team (fun x => { x with watched := x.watched + 1 }) } else s
  | some t =>
    let core := t.core + pos
    let p := t.phase
    let n := match it with
      | .gt => Tbl.getD p.cgt pos 0
      | .en => Tbl.getD p.cen pos 0
      | .ts => p.cts
    if p.opened ∧ 0 < n then
      let p' := match it with
        | .gt => { p with cgt := Tbl.put p.cgt pos 0 (n - 1) }
        | .en => { p with cen := Tbl.put p.cen pos 0 (n - 1) }
        | .ts => { p with cts := n - 1 }
      (s.setTeam team { t with phase := p' }).pmcCount core 0x1F 1 team
    else s.count 1 core 0x11 1

/-- Remove a team's watch from its home slices (R476). -/
def State.dropWatch (s : State) (team : Nat) : State :=
  { s with slices := List.map (fun r => (r.1, { r.2 with watches := r.2.watches.filter (fun x => !decide (x.2.2 = team)) })) s.slices }

/-- PHBEG (R474, R479): open a phase with the counts of a header, read once the wave's acquires have returned (R343); the watch of a BROKEN
phase before it goes. -/
def execPhbeg (f : FmtQ) (s : State) : Out :=
  sysWord (.phbeg f) s (fun c k w =>
    match s.team? w.team with
    | none => s.trapAt c k w (w.protTrap 0)
    | some t =>
      let off := w.z f.sa
      let lvl := f.lvl.toNat
      let b := s.teamBytes w t off 32
      let gt0 := fieldOf b 0 4
      let gt1 := fieldOf b 4 4
      let en0 := fieldOf b 8 2
      let en1 := fieldOf b 10 2
      let ts := fieldOf b 12 2
      let bag : W64 := BitVec.ofNat 64 (fieldOf b 16 8)
      let tag : W64 := BitVec.ofNat 64 (fieldOf b 24 8)
      if w.acquiring then s.setWave c k (w.blockAt s.time 0 0)
      else if off % 32 ≠ 0 then s.trapAt c k w { cause := 0x04, eaddr := BitVec.ofNat 64 off, fm := w.trapMask }
      else if !t.fits off 32 then s.trapAt c k w { cause := 0x06, eaddr := BitVec.ofNat 64 off, fm := w.trapMask }
      else if !s.levelOk w lvl then s.trapAt c k w (w.protTrap 0)
      else if t.phase.opened && !t.phase.broken then s.trapAt c k w (w.protTrap 0x30)
      else if !zeroField b 14 2 || (!t.paired && (decide (gt1 ≠ 0) || decide (en1 ≠ 0)))
          || !(decide (bag = 0) == decide (ts = 0)) || (decide (ts = 0) && !decide (tag = 0)) then
        s.trapAt c k w { cause := 0x09, sub := 0x0A, fm := w.trapMask }
      else
        let x : Except XErr (Option Nat) :=
          if ts = 0 then .ok none
          else match s.translate (clusterOf c) bag .read with
            | .ok y => if y.kind = .ts then .ok (some (y.pa / 4096)) else .error ⟨0x07, 0, 0⟩
            | .error e => .error e
        match x with
        | .error e => (s.touchTlb (clusterOf c) bag).trapAt c k w
            { cause := e.cause, sub := e.sub, level := e.level, eaddr := bag, fm := w.trapMask }
        | .ok watch =>
          let s := s.dropWatch w.team
          let s := if ts = 0 then s else s.touchTlb (clusterOf c) bag
          let s := if lvl = 0 then s else s.idemLost w.team
          (s.updTeam w.team (fun t => { t with phase :=
            { phn := (t.phase.phn + 1) % 2 ^ 16, opened := true, ever := true, lvl := lvl, broken := false,
              cgt := Tbl.put (Tbl.put [] 0 0 gt0) 1 0 gt1, cen := Tbl.put (Tbl.put [] 0 0 en0) 1 0 en1, cts := ts,
              watch := watch.map (fun g => (g, tag)), watchSeen := false } })).setWave c k w.done)

/-- PHWAIT (R476, R477): wait for the current phase, then acquire at device scope; a BROKEN phase traps (R478). -/
def execPhwait (f : FmtQ) (s : State) : Out :=
  sysWord (.phwait f) s (fun c k w =>
    match s.team? w.team with
    | none => s.setWave c k w.done
    | some t =>
      if t.phase.broken then s.trapAt c k w { cause := 0x10, sub := 0x04, fm := w.trapMask }
      else if t.phase.opened then s.setWave c k (w.blockAt s.time 1 0)
      else (s.columnAcquire t.paired 3 c).doneWave c k)

/-- Whether every wave and stream of a team has halted. -/
def State.teamHalted (s : State) (id : Nat) (t : Team) : Bool :=
  decide (t.waves ≤ t.ended.length) &&
    t.cores.all (fun c => match s.stream? c with | some m => !decide (m.team = id) || m.quiet | none => true)

/-- Whether phase number `m` is later than `n`: PHN has 16 bits, and numbers are compared modulo 2^16, which R476 does not say (DESIGN
CHOICE, log entry 126). -/
def laterPhase (n m : Nat) : Bool :=
  let d := (m + 2 ^ 16 - n) % 2 ^ 16
  decide (0 < d) && decide (d < 2 ^ 15)
/-- The line of a core position of a team for phase `n` (R476). -/
def State.lineHigh (s : State) (id : Nat) (t : Team) (pos n : Nat) : Bool :=
  let p := t.phase
  s.teamHalted id t || (p.ever && laterPhase n p.phn)
    || (p.ever && decide (p.phn = n) && decide (Tbl.getD p.cgt pos 0 = 0) && decide (Tbl.getD p.cen pos 0 = 0)
      && (!decide (pos = 0) || decide (p.cts = 0)))

/-- The teams a phase's level covers (R476). -/
def State.levelTeams (s : State) (id : Nat) (t : Team) : List Nat :=
  match t.phase.lvl with
  | 0 => [id]
  | 1 => (s.teams.filter (fun r => decide (r.2.group = t.group) && decide (r.2.launch = t.launch))).map (fun r => r.1)
  | _ => (s.teams.filter (fun r => decide (r.2.launch = t.launch))).map (fun r => r.1)

/-- PHASE_COMPLETE (R476): the lines of every core of the level are high; OPEN clears and the watch goes. -/
def execPhaseComplete (t : Nat) (s : State) : Out :=
  match s.team? t with
  | none => .next s
  | some x =>
    if x.phase.opened && !x.phase.broken && (x.phase.watch.isNone || x.phase.watchSeen) &&
        (s.levelTeams t x).all (fun id => match s.team? id with
          | some y => (List.range (if y.paired then 2 else 1)).all (fun pos => s.lineHigh id y pos x.phase.phn)
          | none => true) then
      .next ((s.dropWatch t).setTeam t { x with phase := { x.phase with opened := false, watch := none } })
    else .next s

/-- XOR of the six-bit fields of a number, from bit 0 (R391). -/
def fold6 : Nat → Nat → Nat
  | 0, _ => 0
  | n + 1, x => (x % 64).xor (fold6 n (x / 64))
/-- The home slice of a tag in a bag (R391); the bag is its granule number. -/
def State.tupleHome (s : State) (bag : Nat) (tag : W64) : Nat :=
  let h := (fold6 11 tag.toNat).xor (fold6 6 bag)
  if s.minimal then h % 16 else h

/-- PHASE_WATCH_REGISTER (R474): the watch reaches the home slice of its tag; deposits count from now on. -/
def execPhaseWatchRegister (t : Nat) (s : State) : Out :=
  match s.team? t with
  | none => .next s
  | some x =>
    match x.phase.watch with
    | some (bag, tag) =>
      if x.phase.watchSeen then .next s
      else
        let h := s.tupleHome bag tag
        let q := s.slice h
        .next ((s.setSlice h { q with watches := q.watches ++ [(bag, tag, t)] }).setTeam t
          { x with phase := { x.phase with watchSeen := true } })
    | none => .next s

end Sys2Proof.Machine
end

