-- ==== Sys2Proof/Machine/Return.lean ====
section
/-! DEFINITION. The steps that perform accesses and bring requests back: HOME_READ, HOME_WRITE, ATOMIC_AT_HOME,
RED_CONTRIBUTION, VERSION_WORD_RETRY and REQUEST_RETURN (R282, R311, R314, R321, R322, R326, R327, R462). -/

namespace Sys2Proof.Machine

/-! ### Which access may perform (R311, R316, R337, R346) -/

def Access.writes (a : Access) : Bool :=
  match a.op with
  | .read => false
  | .prefetch => false
  | _ => true
/-- Two accesses touch a byte in common. -/
def Access.overlaps (a b : Access) : Bool := decide (a.pa < b.pa + b.n) && decide (b.pa < a.pa + a.n)
/-- Access `b`, not yet performed, must perform before the later access `a` of the wave: both on SO pages (R281, R346), or to one
location of a page that is not UO, one of them a write (R337). -/
def mustPrecede (b a : Access) : Bool :=
  !b.done && decide (b.lvl = .glob) &&
    ((decide (a.kind = .so) && decide (b.kind = .so))
      || (!decide (a.kind = .uo) && a.overlaps b && (a.writes || b.writes)))

/-- The version-word forms of TLD and TST. -/
def Req.versioned (q : Req) : Bool :=
  match q.ret with
  | .tile _ _ v => v
  | _ => decide (q.phase = aonPhase)
def Req.aon (q : Req) : Bool := decide (q.phase = aonPhase)
/-- A tile store without a version word: its pieces go in ascending order (R321). -/
def Req.tileStore (q : Req) : Bool :=
  match q.ret with
  | .none => decide (opOf q.word = 0x8F)
  | _ => false

/-- Whether access `i` of a request may perform now. -/
def Wave.mayPerform (w : Wave) (q : Req) (i : Nat) (a : Access) : Bool :=
  !a.done && decide (a.lvl = .glob) && w.maySend q
    && (w.before q.id).all (fun r => r.accs.all (fun b => !mustPrecede b a))
    && (q.accs.take i).all (fun b => b.done || !(mustPrecede b a || (a.overlaps b && (a.writes || b.writes))))
    && (!q.versioned || (decide (i = 0) || ((q.accs.take 1).all (fun b => b.done)
          && (!decide (i + 1 = q.accs.length) || (q.accs.take i).all (fun b => b.done)))))
    && (!(q.tileStore || q.aon) || (q.accs.take i).all (fun b => b.done))

/-- Two places name one local store: the slices, the scratchpads of R270, or the chip scratchpad. -/
def sameStore : Level → Level → Bool
  | .lp, .lp => true
  | .chip, .chip => true
  | .spad, .spad => true
  | .spad, .csm => true
  | .csm, .spad => true
  | .csm, .csm => true
  | _, _ => false
/-- A local request performs only after every earlier local access of the wave to one of its bytes, loads among themselves too, and
on another path too: a scratchpad and a cluster-shared address may name one byte (R270, R271, R313, R337). -/
def Wave.localReady (w : Wave) (q : Req) : Bool :=
  (w.before q.id).all (fun r => r.accs.all (fun b => b.done ||
    q.accs.all (fun a => a.done || !(sameStore b.lvl a.lvl && a.overlaps b))))
/-- No access of some requests to the `n` scratchpad bytes from `a` is still to perform. -/
def spadClear (rs : List Req) (a n : Nat) : Bool :=
  rs.all (fun r => r.accs.all (fun b => b.done || !(sameStore b.lvl .spad && decide (b.pa < a + n) && decide (a < b.pa + b.n))))
/-- A received tuple is written to its block after the wave's earlier accesses to those bytes (R313, R337). -/
def State.blockReady (s : State) (rs : List Req) (t : TReq) : Bool :=
  match s.team? t.team with
  | some tm => t.op = .dep || spadClear rs (scratchKey tm.core (tm.p + t.block + 0x80)) 64
  | none => true

/-- The bytes access `a` performs next: all of them, but in the host window, where a wide access is single-copy atomic only eight at
a time, the next eight (R312). -/
def Access.piece (a : Access) : Nat :=
  if hostWindow a.pa && decide (8 < a.n) && !decide (a.op = .discard) then min 8 (a.n - a.got) else a.n - a.got
/-- Access `i` of a request performs its next `n` bytes; `x` is what they read. -/
def Req.perform (q : Req) (i n x : Nat) (bad : Bool) : Req :=
  { q with accs := q.accs.modify i (fun a =>
      { a with done := decide (a.n ≤ a.got + n), res := a.res + x * 256 ^ a.got, bad := a.bad || bad, got := a.got + n }) }

/-- A plain access that the column may serve (R282, R314, R351). -/
def State.columnServes (s : State) (core : Nat) (q : Req) (a : Access) : Bool :=
  !s.noColumn core && !decide (a.kind = .so) && !a.buf && !q.versioned && !decide (a.op = .discard)

/-! ### Reads (R282, R303, R314) -/

/-- A miss by a core to a line of an RC or UO page moves the cluster's stream trackers: after three misses to consecutive
lines of one 4 KiB page, up to PF_DIST lines ahead are prefetched, to the page's end; a stream goes on with the core's next miss among
those lines or just past them, since the lines that came in time miss no more (R304). -/
def State.trackMiss (s : State) (cl core line : Nat) : State :=
  if !s.win.pfctl.getLsbD 0 then s
  else
    let k := s.cluster cl
    let dist := s.win.pfctl.toNat / 2 % 16
    let near := fun (t : Tracker) => decide (t.core = core) && decide (t.line / 32 = line / 32) &&
      (if t.misses = 1 then decide (line = t.line + 1) || decide (line + 1 = t.line)
       else
        let reach := if t.misses < 3 then 1 else dist + 1
        if t.up then decide (t.line < line) && decide (line ≤ t.line + reach) else decide (line < t.line) && decide (t.line ≤ line + reach))
    match k.trackers.find? near with
    | none => s.setCluster cl { k with trackers := ((⟨core, line, true, 1⟩ : Tracker) :: k.trackers).take 16 }
    | some t =>
      let t' : Tracker := ⟨core, line, decide (t.line < line), t.misses + 1⟩
      let s := s.setCluster cl { k with trackers := t' :: k.trackers.filter (fun x => !decide (x = t)) }
      if t'.misses < 3 then s
      else
        let ahead := ((List.range dist).map (fun i => if t'.up then line + i + 1 else line - (i + 1))).filter
          (fun l => decide (l / 32 = line / 32) && (t'.up || decide (l < line)))
        ahead.foldl (fun s l => if s.backed (l * 128) then s.takePrefetch cl l else s) s

/-- Whether a cluster's cache holds a readable copy of a line. -/
def State.clusterHas (s : State) (cl line : Nat) : Bool :=
  match Tbl.get? (s.cluster cl).lines line with
  | some l => decide (l.state = .readOnly) || decide (l.state = .owned)
  | none => false

/-- What the column shows of bytes the home gives: its own where it holds them (R286, R337). -/
def State.colView (s : State) (core pa : Nat) (bs : List Byte) : List Byte :=
  match s.colLine core (pa / 128) with
  | some c => (List.range bs.length).map (fun i =>
      if c.valid.getLsbD (pa % 128 + i) then BitVec.ofNat 8 (byteAt c.data (pa % 128 + i)) else bs.getD i 0)
  | none => bs

/-- A load that passes the column, its line in the cluster cache or answered: the bytes, and whether they are bad. The column takes a
good line when it may serve the access, and shows its own bytes in any case. -/
def State.deliverLine (s : State) (core pa n : Nat) (col uo bad : Bool) : State × List Byte × Bool :=
  if col then
    if bad then (s, s.colView core pa (List.replicate n 0), true)
    else
      let s := s.colFill core (pa / 128) uo
      (s, s.colBytes core pa n, s.colBad core pa n)
  else if bad then (s, List.replicate n 0, true)
  else (s, (List.range n).map (fun i => Mem.read s.mem.home (pa + i)), false)

/-- The requester a core's unit is in the rows of misses: its clause fetch, its sequencer stream or its graphics units. -/
def unitWho (core unit : Nat) : Nat × Nat := (2 ^ 20 + core, unit)
/-- A load below the column that its unit makes at once (R282 steps 2 to 4). On a miss it takes or joins a miss-status entry, or its
turn waits for one (R26, R303); an engine's, `who` none, holds an engine tag instead. -/
def State.readAtOnce (s : State) (core pa n : Nat) (who : Option (Nat × Nat)) (col uo plain : Bool) : State × List Byte × Bool :=
  let cl := clusterOf core
  let line := pa / 128
  let had := s.clusterHas cl line
  let s := s.clusterLookup cl line
  if had then s.deliverLine core pa n col uo false
  else
    let s := match who with | some x => s.passMiss cl line x | none => s
    let r := s.serveLine cl line plain false
    (match who with | some x => r.1.endMiss cl line x | none => r.1).deliverLine core pa n col uo r.2
/-- A read past the column, which writes the line back and drops it first (R282). -/
def State.readThrough (s : State) (core pa n : Nat) (who : Option (Nat × Nat)) : State × List Byte × Bool :=
  (s.colEvict core (pa / 128)).readAtOnce core pa n who false false false
/-- A plain read through the column, made at once. -/
def State.readColumn (s : State) (core team pa n : Nat) (who : Option (Nat × Nat)) (uo : Bool) : State × List Byte × Bool :=
  if s.colHit core pa n then (s.pmcCount core 0x12 1 team, s.colBytes core pa n, s.colBad core pa n)
  else
    let cl := clusterOf core
    let s := s.pmcCount core 0x13 1 team
    let s := if s.clusterHas cl (pa / 128) then s else s.trackMiss cl core (pa / 128)
    s.readAtOnce core pa n who true uo true

/-- A load of a wave below the column (R282 steps 2 to 4): served by the cluster cache's copy, or, on a miss, in two turns: it takes or
joins a miss-status entry, or waits for one, and then its line is answered (R303). `who` is the wave and request. -/
def State.readBelow (s : State) (core pa n : Nat) (who : Nat × Nat) (col uo so plain : Bool) :
    State × Option (List Byte × Bool) :=
  let cl := clusterOf core
  let line := pa / 128
  let row := ((s.cluster cl).missRow who line).isSome
  let give := fun (r : State × List Byte × Bool) => (r.1, some r.2)
  if s.clusterHas cl line then
    give ((if row then s.endMiss cl line who else s.clusterLookup cl line).deliverLine core pa n col uo false)
  else if row then
    if s.missReady cl line who then
      let r := s.serveLine cl line plain false
      give ((r.1.endMiss cl line who).deliverLine core pa n col uo r.2)
    else (s, none)
  else
    let s := (s.clusterLookup cl line).takeMiss cl line who
    (if so then s else s.trackMiss cl core line, none)

/-- A column hit or miss of a request's access is counted at its first turn there (R484). -/
def State.countColumn (s : State) (core team : Nat) (x : Access) (who : Nat × Nat) (ev : Nat) : State :=
  if x.got = 0 && ((s.cluster (clusterOf core)).missRow who (x.pa / 128)).isNone then s.pmcCount core ev 1 team else s
/-- A read access of a wave's request (R282, R314): TLD with VER = 1 reads at the home alone (R322); a plain load reads the column
first; every other read first makes the column write the line back and drop it. In the host window a wide access reads eight bytes a
turn, wherever they are (R312). -/
def State.readAccess (s : State) (core team who : Nat) (q : Req) (x : Access) : State × Option (List Byte × Bool) :=
  let pa := x.pa + x.got
  let n := x.piece
  let so := decide (x.kind = .so)
  let plain := decide (q.sem = 0) && !so && !q.versioned
  let me := (who, q.id)
  if s.columnServes core q x && !decide (q.sem = 4) then
    if s.colHit core pa n then
      ((s.countColumn core team x me 0x12).endMiss (clusterOf core) (pa / 128) me, some (s.colBytes core pa n, s.colBad core pa n))
    else (s.countColumn core team x me 0x13).readBelow core pa n me true (decide (x.kind = .uo)) so plain
  else
    let s := s.colEvict core (x.pa / 128)
    if q.versioned then
      let r := s.homeReadBytes (some (clusterOf core)) pa n
      (r.1, some r.2)
    else s.readBelow core pa n (who, q.id) false false so plain

/-- A finished attempt of a TLD with VER = 1: it stands, or up to 16 attempts start over (R322). -/
def Req.attempt (q : Req) : Req :=
  match q.ret with
  | .tile _ _ true =>
    if q.accs.all (fun a => a.done) then
      let v1 := (q.accs.headD ⟨0, 0, 0, 0, .glob, .rc, false, .read, false, 0, false, 0⟩).res
      let v2 := (q.accs.getLastD ⟨0, 0, 0, 0, .glob, .rc, false, .read, false, 0, false, 0⟩).res
      if (v1 = v2 ∧ v1 % 2 = 0) ∨ 15 ≤ q.phase then q
      else { q with phase := q.phase + 1,
                    accs := q.accs.map (fun a => { a with done := false, res := 0, bad := false, got := 0 }) }
    else q
  | _ => q

/-- HOME_READ (R282): an access that reads is served at the column, in the cluster, by a peer or a helper, or at the home. -/
def execHomeRead (a : Agent) (rq i : Nat) (s : State) : Out :=
  match a with
  | .stream _ => .next s
  | .wave c k =>
    match s.wave? c k with
    | none => .next s
    | some w =>
      match w.req? rq with
      | none => .next s
      | some q =>
        match q.accs[i]? with
        | none => .next s
        | some x =>
          if w.mayPerform q i x && decide (x.op = .read) then
            let s := s.sendReq c k w q
            let r := s.readAccess c w.team (waveKey c k) q x
            match r.2 with
            | none => .next r.1
            | some (bs, bad) =>
              .next (r.1.updWave c k (fun w => w.updReq rq (fun q => (q.perform i bs.length (ofBytes bs) bad).attempt)))
          else .next s

/-! ### Writes (R288, R314, R324, R330) -/

/-- The acknowledgement of a write that performed at a home sets ACKTAG (R330). -/
def State.tagWave (s : State) (c k line : Nat) : State := s.updWave c k (fun w => { w with acktag := s.ackTag line })

/-- An access that performs at its home needs a miss-status entry unless the cluster cache holds the line; without one it waits
(R26, R303). A TST with AON = 1 passes the cluster cache by (R321). -/
def State.entryReady (s : State) (core : Nat) (who : Nat) (q : Req) (x : Access) : Bool :=
  let cl := clusterOf core
  q.versioned || s.missFree cl (x.pa / 128) || s.missReady cl (x.pa / 128) (who, q.id)
/-- An access that performs at its home meets the cluster cache: it uses a prefetched copy, or misses and moves the trackers; it is
counted at its first turn there (R304, R305, R483). -/
def State.meetCluster (s : State) (core : Nat) (who : Nat) (q : Req) (x : Access) : State :=
  let cl := clusterOf core
  let line := x.pa / 128
  if q.versioned || decide (x.got ≠ 0) || ((s.cluster cl).missRow (who, q.id) line).isSome then s
  else
    let s := s.clusterLookup cl line
    if s.clusterHas cl line || decide (x.kind = .so) then s else s.trackMiss cl core line
/-- It takes an entry or joins one, a prefetch's, which it makes late, among them, and leaves it as it performs (R303, R305). -/
def State.throughEntry (s : State) (core : Nat) (who : Nat) (q : Req) (x : Access) : State :=
  let cl := clusterOf core
  let line := x.pa / 128
  if q.versioned || (Tbl.get? (s.cluster cl).lines line).isSome || ((s.cluster cl).missRow (who, q.id) line).isSome then
    s.endMiss cl line (who, q.id)
  else (s.takeMiss cl line (who, q.id)).endMiss cl line (who, q.id)
def State.awaitEntry (s : State) (core : Nat) (who : Nat) (q : Req) (x : Access) : State :=
  let cl := clusterOf core
  if ((s.cluster cl).missRow (who, q.id) (x.pa / 128)).isSome then s
  else (s.meetCluster core who q x).takeMiss cl (x.pa / 128) (who, q.id)

/-- A write of a request performs at its home; for an RC or UO line the writing cluster may be granted ownership (R283, R288). -/
def State.writeHome (s : State) (core who : Nat) (q : Req) (x : Access) (n d : Nat) : State :=
  let cl := clusterOf core
  let line := x.pa / 128
  let s := ((s.meetCluster core who q x).throughEntry core who q x).homeWriteBytes (x.pa + x.got) (bytesOf n d) (some cl)
  if x.kind = .so ∨ q.versioned then s else s.grantOwned cl line

/-- HOME_WRITE (R288): a store performs in the column or at its home; a DISCARD takes the backing value. -/
def execHomeWrite (a : Agent) (rq i : Nat) (s : State) : Out :=
  match a with
  | .stream _ => .next s
  | .wave c k =>
    match s.wave? c k with
    | none => .next s
    | some w =>
      match w.req? rq with
      | none => .next s
      | some q =>
        match q.accs[i]? with
        | none => .next s
        | some x =>
          if w.mayPerform q i x then
            let finish := fun (n : Nat) (s : State) => s.updWave c k (fun w => w.updReq rq (fun q => q.perform i n 0 false))
            match x.op with
            | .write d =>
              let s := s.sendReq c k w q
              if s.columnServes c q x && decide (q.sem = 0) then
                let ev := if (s.colLine c (x.pa / 128)).isSome then 0x12 else 0x13
                let s := if x.got = 0 then s.pmcCount c ev 1 w.team else s
                .next (finish x.piece (s.colStore c (x.pa + x.got) (bytesOf x.piece (d / 256 ^ x.got)) (decide (x.kind = .uo))))
              else if s.entryReady c (waveKey c k) q x then
                let s := (s.colEvict c (x.pa / 128)).writeHome c (waveKey c k) q x x.piece (d / 256 ^ x.got)
                .next (finish x.piece (s.tagWave c k (x.pa / 128)))
              else .next (s.awaitEntry c (waveKey c k) q x)
            | .discard =>
              let s := s.sendReq c k w q
              let s := (s.dropCol c (x.pa / 128)).homeDiscard (x.pa / 128)
              .next (finish x.n (s.tagWave c k (x.pa / 128)))
            | .atom _ y =>
              if q.aon && decide (i + 1 = q.accs.length) then
                let s := s.colEvict c (x.pa / 128)
                let r := s.homeReadBytes (some (clusterOf c)) x.pa 8
                let s := r.1.homeWriteBytes x.pa (bytesOf 8 (ofBytes r.2.1 + y)) none
                .next (finish x.n (s.tagWave c k (x.pa / 128)))
              else .next s
            | _ => .next s
          else .next s

/-- VERSION_WORD_RETRY (R321): a TST with AON = 1 finds its version word even and makes it odd, or finds it odd and waits. -/
def execVersionWordRetry (a : Agent) (rq : Nat) (s : State) : Out :=
  match a with
  | .stream _ => .next s
  | .wave c k =>
    match s.wave? c k with
    | none => .next s
    | some w =>
      match w.req? rq with
      | none => .next s
      | some q =>
        match q.accs[0]? with
        | none => .next s
        | some x =>
          if q.aon && w.mayPerform q 0 x then
            let s := (s.sendReq c k w q).colEvict c (x.pa / 128)
            let r := s.homeReadBytes (some (clusterOf c)) x.pa 8
            let v := ofBytes r.2.1
            if v % 2 = 0 then
              let s := r.1.homeWriteBytes x.pa (bytesOf 8 (v + 1)) none
              .next ((s.tagWave c k (x.pa / 128)).updWave c k (fun w => w.updReq rq (fun q => q.perform 0 x.n v false)))
            else .next r.1
          else .next s

/-! ### Atomics (R326) and contributions (R327) -/

/-- One indivisible read-modify-write at the home: the old value, and whether it wrote. -/
def AccOp.modify (op : AccOp) (old : Nat) : Option Nat :=
  match op with
  | .atom fn x => some (atomOp fn old x)
  | .red fn x => some (atomOp fn old x)
  | .cas cmp new => if old = cmp then some new else none
  | _ => none

/-- A RED that performs at the home as an atomic: on an SO page or in the host window (R327). -/
def Access.redAtHome (x : Access) : Bool := decide (x.kind = .so) || hostWindow x.pa

/-- ATOMIC_AT_HOME (R326). -/
def execAtomicAtHome (a : Agent) (rq i : Nat) (s : State) : Out :=
  match a with
  | .stream _ => .next s
  | .wave c k =>
    match s.wave? c k with
    | none => .next s
    | some w =>
      match w.req? rq with
      | none => .next s
      | some q =>
        match q.accs[i]? with
        | none => .next s
        | some x =>
          let home := match x.op with
            | .atom _ _ => !q.aon
            | .cas _ _ => true
            | .red _ _ => x.redAtHome
            | _ => false
          if home && w.mayPerform q i x then
            let s := s.sendReq c k w q
            if s.entryReady c (waveKey c k) q x then
              let s := ((s.colEvict c (x.pa / 128)).meetCluster c (waveKey c k) q x).throughEntry c (waveKey c k) q x
              let r := s.homeReadBytes (some (clusterOf c)) x.pa x.n
              let old := ofBytes r.2.1
              let s := match x.op.modify old with
                | some v => (r.1.homeWriteBytes x.pa (bytesOf x.n v) (some (clusterOf c))).tagWave c k (x.pa / 128)
                | none => r.1
              let received := match x.op with | .red _ _ => false | _ => r.2.2
              .next (s.updWave c k (fun w => w.updReq rq (fun q => q.perform i x.n old received)))
            else .next (s.awaitEntry c (waveKey c k) q x)
          else .next s

/-- Unit keys of the 8-byte word of a physical address. -/
def wordUnits (pa : Nat) : List Nat := [pa / 8 * 2, pa / 8 * 2 + 1]

/-- The oldest update-only line of a set of sixteen: fifteen others were taken after it (R327). Which lines share a set is not
stated, so whether they do is a free choice. -/
def Cluster.oldestOfSet (k : Cluster) (n : Nat) : Option Nat :=
  let mine := k.lines.filter (fun r => decide (r.2.state = .updateOnly))
  let old := mine.filter (fun r => decide (15 ≤ (mine.filter (fun x => decide (r.2.since < x.2.since))).length))
  (old[n % (old.length + 1)]?).map (fun r => r.1)

/-- A cluster cache takes a line update-only: the other clusters' readable copies go, with every redirect entry and replica; their
update-only copies stay (R302, R327). When the sixteen ways of its set all hold update-only lines, the oldest is recalled first. -/
def State.takeUpdateOnly (s : State) (cl line : Nat) : State :=
  match Tbl.get? (s.cluster cl).lines line with
  | some l => if l.state = .updateOnly then s else takeIt s
  | none => takeIt s
where
  takeIt (s : State) : State :=
    let s := match (s.cluster cl).oldestOfSet (s.choose 900501 9000) with
      | some l => s.recall l
      | none => s
    let keep := s.updateOnly line
    let s := ((s.holders line).filter (fun d => !decide (d ∈ keep))).foldl (fun s d => s.dropCopy d line) s
    (s.dropReplicas line).takeCopy cl line ⟨.updateOnly, [], none, false, s.ck⟩

/-- One lane's contribution combines with its word's partial (R327). -/
def State.contribute (s : State) (cl pa fn x : Nat) : State :=
  let s := s.takeUpdateOnly cl (pa / 128)
  let clash := (wordUnits pa).any (fun u =>
    match Tbl.get? (s.cluster cl).partials u with
    | some p => !decide (p.fn = fn)
    | none => false)
  let s := if clash then (s.recall (pa / 128)).takeUpdateOnly cl (pa / 128) else s
  let q := s.cluster cl
  let v := match Tbl.get? q.partials (pa / 4) with
    | some p => atomOp fn p.x x
    | none => x
  (s.setCluster cl { q with partials := Tbl.set q.partials (pa / 4) ⟨fn, v⟩ }).count 2 cl 0x40 1

/-- RED_CONTRIBUTION (R327): a line the cluster does not hold takes a miss-status entry, or waits for one (R26, R303). -/
def execRedContribution (a : Agent) (rq i : Nat) (s : State) : Out :=
  match a with
  | .stream _ => .next s
  | .wave c k =>
    match s.wave? c k with
    | none => .next s
    | some w =>
      match w.req? rq with
      | none => .next s
      | some q =>
        match q.accs[i]? with
        | none => .next s
        | some x =>
          match x.op with
          | .red fn y =>
            if !x.redAtHome && w.mayPerform q i x && (q.accs.take i).all (fun b => b.done)
                && (w.before q.id).all (fun r => r.accs.all (fun b => b.done || !(match b.op with | .red _ _ => true | _ => false))) then
              let s := (s.sendReq c k w q).colEvict c (x.pa / 128)
              if !s.entryReady c (waveKey c k) q x then .next (s.awaitEntry c (waveKey c k) q x) else
              let s := (s.meetCluster c (waveKey c k) q x).throughEntry c (waveKey c k) q x
              .next ((s.contribute (clusterOf c) x.pa fn y).updWave c k (fun w => w.updReq rq (fun q => q.perform i x.n 0 false)))
            else .next s
          | _ => .next s

/-! ### The return (R106, R135, R311, R462) -/

/-- A return's write of a scalar register: one of two values when a later word has written it (R135). -/
def Wave.retS (w : Wave) (q : Req) (r : Nat) (x : W32) : Wave :=
  if w.discards r then w
  else if r ∈ q.clob ∧ Config.freeBit w.nonce (71000 + r) then w
  else { w with s := Tbl.put w.s r 0 x, badW := w.badW.filter (fun k => !(k == badKeyS r)) }
/-- The same for lane `l` of vector register `n`. -/
def Wave.retV (w : Wave) (q : Req) (n l : Nat) (x : W32) : Wave :=
  let key := 128 + 128 * n + l
  if key ∈ q.clob ∧ Config.freeBit w.nonce (71000 + key) then w
  else { w with v := Tbl.put w.v (128 * n + l) 0 x, badW := w.badW.filter (fun k => !(k == badKeyV n l)) }

/-- Write one lane's run of registers. -/
def Wave.retRun (w : Wave) (q : Req) (d l : Nat) (ws : List W32) : Wave :=
  (List.range ws.length).foldl (fun w i => w.retV q (d + i) l (ws.getD i 0)) w

/-- The lanes of an atomic, ascending: each lane's result is its own access's. -/
def Wave.retLanes (w : Wave) (q : Req) (f : Access → Wave → Wave) : Wave := q.accs.foldl (fun w a => f a w) w

/-- `n` bytes nobody fixes. -/
def State.freeBytes (s : State) (key n : Nat) : Nat :=
  ((List.range ((n + 3) / 4)).foldl (fun x i => x + (Config.freeW32 s.fresh (key + i)).toNat * 2 ^ (32 * i)) 0) % 256 ^ n

/-- A local access performs (R313): the state after it, what it read, and whether that was bad (R291). A bank that is OFF keeps
nothing and reads as a free value, and in CLOCK-GATED or RETENTION, where what it holds is retained, the access performs as in ACTIVE
(R306; DESIGN CHOICE, log entry 110). -/
def State.localPerform (s : State) (c k : Nat) (a : Access) : State × Nat × Bool :=
  match a.lvl with
  | .glob => (s, 0, false)
  | .lp =>
    match s.wave? c k with
    | none => (s, 0, false)
    | some w =>
      match a.op with
      | .write d =>
        let s := s.setWave c k ({ w with lp := Mem.writeN w.lp a.pa a.n d }.lpFresh a.pa a.n)
        let narrow := w.lpNarrow a.pa a.n
        (if narrow = 0 then s else s.count 5 (dieOfCore c) 2 narrow, 0, false)
      | _ => (s, Mem.readN w.lp a.pa a.n, w.lpBad a.pa a.n)
  | .chip =>
    if s.bankOff a.pa then (s, match a.op with | .write _ => 0 | _ => s.freeBytes (306000 + 4 * a.lane) a.n, false)
    else
      match a.op with
      | .write d => (s.storeWrite .chip a.pa (bytesOf a.n d), 0, false)
      | _ => (s, Mem.readN s.mem.chip a.pa a.n, s.badIn .chip a.pa a.n)
  | _ =>
    match a.op with
    | .write d => (s.storeWrite .scratch a.pa (bytesOf a.n d), 0, false)
    | _ => (s, Mem.readN s.mem.scratch a.pa a.n, s.badIn .scratch a.pa a.n)

/-- The local accesses of a request perform in lane order. -/
def State.performLocal (s : State) (c k : Nat) (q : Req) : State :=
  (List.range q.accs.length).foldl (fun s i =>
    match q.accs[i]? with
    | none => s
    | some a =>
      if a.done || decide (a.lvl = .glob) then s
      else
        let r := s.localPerform c k a
        r.1.updWave c k (fun w => w.updReq q.id (fun q => q.perform i a.n r.2.1 r.2.2))) s

/-- The lanes that received bad data, and the address of the lowest (R292, R333). -/
def Req.badLanes (q : Req) : List Access := q.accs.filter (fun a => a.bad)

/-- Whether every enabled wait of a wave's clause is met (R99). -/
def Wave.waitsMet (w : Wave) : Bool :=
  match w.clause with
  | none => false
  | some c =>
    (!hdrW0En c.header || decide (w.count (Path.ofCode (hdrW0Path c.header)) ≤ hdrW0Thr c.header) || decide (hdrW0Thr c.header = 63))
      && (!hdrW1En c.header || decide (w.count (Path.ofCode (hdrW1Path c.header)) ≤ hdrW1Thr c.header)
        || decide (hdrW1Thr c.header = 63))
/-- Note when a wave becomes ready (R50, R51). -/
def Wave.markReady (w : Wave) (now : Nat) : Wave :=
  if w.clause.isSome && !w.waitMet && w.waitsMet then { w with readySince := some (w.readySince.getD now) }
  else { w with readySince := none, promoted := none }

/-- The status a tuple request ended with. -/
def TReq.status (t : TReq) : Option Nat :=
  match t.stage with
  | .ended n => some n
  | _ => none

/-- Whether a request has come back: every access performed, its command complete, its tuple request ended. -/
def State.cameBack (s : State) (w : Wave) (q : Req) : Bool :=
  w.maySend q && q.accs.all (fun a => a.done) &&
    match q.ret with
    | .cmd n _ _ => (match Tbl.get? s.cmds n with | some x => decide (x.stage = .done) | none => true)
    | .tuple r _ _ _ => (match Tbl.get? s.treqs r with | some t => t.status.isSome && s.blockReady (w.before q.id) t | none => true)
    | .rhit hits => hits.isEmpty
    | _ => true

/-- An ended tuple request reaches its wave (R394, R401): the status to SD and, for a match word, SCC; a received tuple to the
block, with an acquire at device scope; a refused deposit's fault is deferred. -/
def State.deliverTuple (s : State) (c k : Nat) (q : Req) (t : TReq) : State :=
  let st := t.status.getD 0
  let dep := decide (t.op = .dep)
  let s := s.updWave c k (fun w =>
    let w := if t.sd = 127 then w else w.retS q t.sd (BitVec.ofNat 32 st)
    if dep then w else w.retS q 126 (if st = 0 then 1 else 0))
  if dep then
    if st = 4 then s.deferTo t.agent t.team ⟨BitVec.ofNat 32 t.fault, deferStat 3 0 0, t.word⟩ else s
  else if st = 0 then
    let s := match s.team? t.team with
      | some tm => s.spadWrite tm (t.block + 0x80) (t.got.flatMap (fun (x : W64) => bytesOf 8 x.toNat))
      | none => s
    let s := if t.gotBad then (match s.wave? c k with | some w => s.sawBad c k 0 w.mask | none => s) else s
    s.columnAcquire (s.paired t.team) 3 c
  else s

/-- Write the destinations of a returned request. -/
def State.writeRet (s : State) (c k : Nat) (q : Req) : State :=
  match q.ret with
  | .none => s
  | .vload d size _ _ => s.updWave c k (fun w => w.retLanes q (fun a w => w.retRun q d a.lane (loadWords size a.res)))
  | .sload d size _ => s.updWave c k (fun w =>
      w.retLanes q (fun a w =>
        let ws := loadWords size a.res
        (List.range ws.length).foldl (fun w i => w.retS q (d + i) (ws.getD i 0)) w))
  | .atomRet d size _ => s.updWave c k (fun w =>
      w.retLanes q (fun a w => w.retRun q d a.lane (loadWords (if size = 8 then 5 else 4) a.res)))
  | .tile d t ver =>
    let ps := if ver then (q.accs.drop 1).dropLast else q.accs
    let v1 := (q.accs.headD ⟨0, 0, 0, 0, .glob, .rc, false, .read, false, 0, false, 0⟩).res
    let v2 := (q.accs.getLastD ⟨0, 0, 0, 0, .glob, .rc, false, .read, false, 0, false, 0⟩).res
    s.updWave c k (fun w =>
      let w := (List.range (t / 4)).foldl (fun w n =>
        match ps[n / 16]? with
        | some a => w.retV q (d + n / 32) (n % 32) (BitVec.ofNat 32 (a.res / 2 ^ (32 * (n % 16))))
        | none => w) w
      if ver then w.retS q 126 (if v1 = v2 ∧ v1 % 2 = 0 then 1 else 0) else w)
  | .queue sq id size _ _ =>
    match s.wave? c k with
    | none => s
    | some w => s.updTeam w.team (fun t =>
        let x := t.queue sq
        let e : SQEntry := ⟨true, q.accs.foldl (fun d a => Tbl.put d a.lane 0 ((loadWords size a.res).getD 0 0)) []⟩
        t.setQueue sq { x with entries := x.entries.set (id - x.head) e })
  | .regs vs ss => s.updWave c k (fun w =>
      ss.foldl (fun w x => w.retS q x.1 x.2) (vs.foldl (fun w x => w.retV q x.1 x.2.1 x.2.2) w))
  | .cmd n _ _ =>
    let s := match Tbl.get? s.cmds n with
      | some x =>
        (match x.kind with
        | .launch _ _ sd => s.updWave c k (fun w => w.retS q sd (BitVec.ofNat 32 (x.seqno.getD 0)))
        | _ => s)
      | none => s
    { s with cmds := Tbl.del s.cmds n }
  | .tuple r _ _ _ =>
    match Tbl.get? s.treqs r with
    | none => s
    | some t => { s.deliverTuple c k q t with treqs := Tbl.del (s.deliverTuple c k q t).treqs r }
  | .rhit _ => s
  | .tret ts => ts.foldl State.unrefTile s

/-- Bad data delivered to a wave: ERRSEEN, the counter, and a POISON stop under POISONTRAP with the lowest bad lane's address (R292,
R333). -/
def State.deliverBad (s : State) (c k : Nat) (q : Req) : State :=
  match q.badLanes with
  | [] => s
  | a :: rest =>
    match s.wave? c k with
    | none => s
    | some w =>
      s.sawBad c k a.va (match q.ret with
        | .sload _ _ _ => w.mask
        | .tile _ _ _ => w.mask
        | _ => maskOf ((a :: rest).map (fun x => x.lane)))

/-- The records of an RHIT enter their bins while there is room; those left stay held (R251). -/
def State.feedBins (s : State) (c k : Nat) (q : Req) : State :=
  match q.ret with
  | .rhit hits =>
    let r := State.placeHits (dieOfCore c) s hits
    r.1.updWave c k (fun w => w.updReq q.id (fun q => { q with ret := .rhit r.2 }))
  | _ => s

/-- Local accesses of a request that are still to perform. -/
def Req.localDue (q : Req) : Bool := q.accs.any (fun a => !a.done && !decide (a.lvl = .glob))
/-- REQUEST_RETURN (R462): the oldest request of a path returns, writes its destinations, and its counter falls; an acquire's
column action follows (R317). Its local accesses perform in a turn of their own before (R106, R313). -/
def execRequestReturn (a : Agent) (p : Path) (s : State) : Out :=
  match a with
  | .stream _ => .next s
  | .wave c k =>
    match s.wave? c k with
    | none => .next s
    | some w =>
      match w.reqs.find? (fun q => decide (q.path = p)) with
      | none => .next s
      | some q =>
        let s := s.feedBins c k q
        let q := (match s.wave? c k with | some w => (w.req? q.id).getD q | none => q)
        if q.localDue then .next (if w.maySend q && w.localReady q then (s.sendReq c k w q).performLocal c k q else s)
        else if !s.cameBack w q then .next s
        else
          let s := (s.sendReq c k w q).updWave c k (fun w => { w with nonce := s.fresh })
          let q' := (match s.wave? c k with | some w => (w.req? q.id).getD q | none => q)
          let s := s.updWave c k (fun w => { w with reqs := w.reqs.filter (fun r => !decide (r.id = q.id)) })
          let s := (s.writeRet c k q').deliverBad c k q'
          let s := if q.sem = 1 ∨ q.sem = 3 then s.columnAcquire (s.paired w.team) q.scope c else s
          .next ((s.flushAll).updWave c k (fun w => w.markReady s.ck))

end Sys2Proof.Machine
end

