-- ==== Sys2Proof/Machine/Fetch.lean ====
section
/-! DEFINITION. The steps at a clause boundary: fetching and checking a clause (R96–R103, R449), its waits (R99), promotion
(R51), deferred faults (R442), POISON stops (R236, R333), debug halts and vacates of agents (R63, R237, R452), the watchdog
(R451) and the wake of a sleeper (R206). -/

namespace Sys2Proof.Machine

/-! ### Fetch -/

/-- Why a fetch fails: the cause, sub-code, level and failing address. -/
structure FetchErr where
  cause : Nat
  sub : Nat
  level : Nat
  addr : W64
  deriving DecidableEq, Repr

/-- Fetch the 8-byte word at a virtual address through the instruction cache: a word of a line it holds is the held value or
memory's (R449); memory's bad words are never run (R291). -/
def State.fetchWord (s : State) (core : Nat) (va : W64) : Except FetchErr W64 :=
  match s.translate (clusterOf core) va .exec with
  | .error e => .error ⟨e.cause, e.sub, e.level, va⟩
  | .ok x =>
    if x.kind = .ts then .error ⟨0x07, 0, 0, va⟩
    else
      let b := (s.recall (x.pa / 128)).homeBytes x.pa 8
      let now : Except FetchErr W64 := if b.2 then .error ⟨0x12, 0, 0, va⟩ else .ok (BitVec.ofNat 64 (ofBytes b.1))
      match Tbl.get? (s.core core).icache (x.pa / 128) with
      | some line => if s.flip (920000 + x.pa / 8 % 4096) then .ok (BitVec.ofNat 64 (line / 256 ^ (x.pa % 128))) else now
      | none => now

/-- The words of a clause after its header, or the first failure. -/
def State.fetchWords (s : State) (core : Nat) (va : W64) : Nat → Except FetchErr (List W64)
  | 0 => .ok []
  | n + 1 =>
    match s.fetchWord core va with
    | .error e => .error e
    | .ok x => (s.fetchWords core (va + 8) n).map (fun r => x :: r)

/-- A full instruction cache, of 1,024 lines, gives up a line for a new one; which is not stated (R16). -/
def Core.keepLine (q : Core) (line x pick : Nat) : Core :=
  match Tbl.get? q.icache line with
  | some _ => q
  | none =>
    let keep := if q.icache.length < 1024 then q.icache
      else match q.icache[pick % q.icache.length]? with
        | some r => Tbl.del q.icache r.1
        | none => q.icache
    { q with icache := Tbl.set keep line x }
/-- What the fetch of a word does, one that fails too: its leaf enters the TLBs; where the instruction cache holds no line for it, the
line is read through the cluster cache, a miss in it taking or joining a miss-status entry (R303, R449), and enters the instruction
cache; a poisoned one is counted (R291). -/
def State.keepFetched (s : State) (core : Nat) (va : W64) : State :=
  let cl := clusterOf core
  match s.translate cl va .exec with
  | .error _ => if va.toNat % 8 = 0 then s.touchTlb cl va else s
  | .ok y =>
    let s := s.touchTlb cl va
    let line := y.pa / 128
    if y.kind = .ts || (Tbl.get? (s.core core).icache line).isSome then s
    else
      let s := (s.readAtOnce core (line * 128) 128 (some (unitWho core 0)) false false false).1
      let b := s.homeBytes (line * 128) 128
      if b.2 then s.countErr (dieOfCore core) 2
      else s.setCore core ((s.core core).keepLine line (ofBytes b.1) (s.choose 920900 1024))
/-- Whether the fetch of a word succeeds. -/
def State.fetches (s : State) (core : Nat) (va : W64) : Bool := match s.fetchWord core va with | .ok _ => true | .error _ => false
/-- What the fetches of `n` words from an address do, as far as the first that fails. -/
def State.keepWords (s : State) (core : Nat) (va : W64) : Nat → State
  | 0 => s
  | n + 1 => if s.fetches core va then (s.keepFetched core va).keepWords core (va + 8) n else s.keepFetched core va

/-- A fetched clause, or the trap of its fetch: cause, sub-code, level, address and word index. -/
structure ClauseErr where
  cause : Nat
  sub : Nat
  level : Nat
  addr : W64
  word : Nat
  deriving DecidableEq, Repr

/-- Fetch the clause at `h` for a front end and check it: the fetch checks of R96 for the header and every word its COUNT names, and
then the checks of R103 (R102). -/
def State.fetchClause (s : State) (core : Nat) (fe : FrontEnd) (h : W64) : Except ClauseErr Clause :=
  if h.toNat % 8 ≠ 0 then .error ⟨0x04, 0, 0, h, 0⟩
  else
    match s.fetchWord core h with
    | .error e => .error ⟨e.cause, e.sub, e.level, e.addr, 0⟩
    | .ok hd =>
      match s.fetchWords core (h + 8) (hdrCount hd + 1) with
      | .error e => .error ⟨e.cause, e.sub, e.level, e.addr, 0⟩
      | .ok ws =>
        match checkHeader fe hd with
        | some x => .error ⟨if x.stable then 0x0B else 0x02, x.sub, 0, h, 0⟩
        | none =>
          match checkWords fe hd ws with
          | some x =>
            let n := x.word.getD 0
            .error ⟨if x.stable then 0x0B else 0x02, x.sub, 0, h + BitVec.ofNat 64 (8 * (n + 1)), n⟩
          | none => .ok ⟨h, hd, ws⟩

/-- The words a fetch of the clause at `h` asks for: its header and, once that has come, those its COUNT names. -/
def State.clauseSpan (s : State) (core : Nat) (h : W64) : Nat :=
  if h.toNat % 8 ≠ 0 then 0
  else match s.fetchWord core h with | .ok hd => hdrCount hd + 2 | .error _ => 1
/-- What the fetch of the clause at `h` does, whether or not it succeeds (R328, R449, R483). -/
def State.keepClause (s : State) (core : Nat) (h : W64) : State := s.keepWords core h (s.clauseSpan core h)

/-- A wave stands at a clause boundary: its next clause is not begun, and no ERET is on its way into the middle of one. -/
def Wave.atBoundary (w : Wave) : Bool := (w.clause.isNone || !w.waitMet) && w.eretWord.isNone && decide (w.block = .none)
/-- A fetched clause that is not begun is let go. -/
def Wave.unfetch (w : Wave) : Wave :=
  { w with pc := w.hdrAddr, clause := none, widx := 0, readySince := none, promoted := none, pipe := none }

/-- The same for a clause whose waits are not yet met, which may be resumed within. -/
def Wave.refetch (w : Wave) : Wave := { w.unfetch with eretWord := w.eretWord.map (fun _ => w.widx) }
/-- The wave enters DBGHALT (R452). -/
def Wave.haltDbg (w : Wave) : Wave := { w with dbg := true, dbgReq := false }

/-- A core that is being vacated. -/
def State.vacating (s : State) (core : Nat) : Bool := (s.core core).vacating
/-- A filled pending-fault record that may be delivered (R442). -/
def Wave.faultDue (w : Wave) : Bool := w.pend.isSome && !w.intrap

/-- Requests in the order their words issued. -/
def mergeReqs : Nat → List Req → List Req → List Req
  | 0, _, b => b
  | _, [], b => b
  | _, a, [] => a
  | n + 1, x :: a, y :: b => if x.id < y.id then x :: mergeReqs n a (y :: b) else y :: mergeReqs n (x :: a) b
/-- The cancelled TST words of a wave replay: their requests go out anew, in the order they were issued (R455). -/
def Wave.replayed (w : Wave) : Wave :=
  if w.replay.isEmpty then w
  else { w with reqs := mergeReqs (w.replay.length + w.reqs.length) w.replay w.reqs, replay := [] }

/-- CLAUSE_FETCH (R102): a wave or stream without a clause fetches and checks its next one. -/
def execClauseFetch (a : Agent) (s : State) : Out :=
  match a with
  | .wave c k =>
    match s.wave? c k with
    | none => .next s
    | some w =>
      if w.halted || w.stopped || w.dbg || w.clause.isSome then .next s
      else if w.eretWord.isNone && (w.faultDue || w.poison.isSome) then .next s
      else if w.dbgReq then .next (s.setWave c k w.haltDbg)
      else if s.vacating c then .next s
      else
        match s.fetchClause c (if w.adr then .adr else .vec) w.pc with
        | .error e =>
          .next ((s.keepClause c w.pc).trapHeader c k w
            { cause := e.cause, sub := e.sub, level := e.level, origin := 1, eaddr := e.addr, fm := w.trapMask } w.pc e.word)
        | .ok cl =>
          let s := s.keepClause c w.pc
          let w := w.replayed
          match w.eretWord with
          | some n =>
            if cl.words.length ≤ n then
              .next (s.trapHeader c k w { cause := 0x02, sub := 8, origin := 1, eaddr := w.pc, fm := w.trapMask } w.pc 0)
            else .next (s.setWave c k ({ w with clause := some cl, widx := n, waitMet := false }.markReady s.ck))
          | none => .next (s.setWave c k ({ w with clause := some cl, widx := 0, waitMet := false }.markReady s.ck))
  | .stream c =>
    match s.stream? c with
    | none => .next s
    | some m =>
      if m.halted || m.stopped || m.dbg || m.clause.isSome || m.poisonPc.isSome || s.vacating c then .next s
      else
        match s.fetchClause c .seq m.mpc with
        | .error e => .next ((s.keepClause c m.mpc).streamFault c m e.cause e.sub e.level m.mpc e.addr)
        | .ok cl =>
          .next ((s.keepClause c m.mpc).setStream c { m with clause := some cl, widx := 0, mpc := m.mpc + 8 })

/-! ### The Escapement (R28, R50–R53) -/

/-- A wave that stands at a boundary with the waits of its next clause met, and nothing else to do there first (R50). -/
def State.ready (s : State) (core : Nat) (w : Wave) : Bool :=
  w.clause.isSome && !w.waitMet && w.waitsMet && !w.halted && !w.stopped && !w.dbg && !w.dbgReq && !s.vacating core
    && (w.eretWord.isSome || (!w.faultDue && w.poison.isNone))
/-- Of two waves promoted alike, or not at all: higher effective priority first, then older, a wave that has yielded being the youngest
of its priority, then the lower slot (R50). -/
def olderBefore (a b : Nat × Wave × Nat) : Bool :=
  if a.2.2 ≠ b.2.2 then decide (b.2.2 < a.2.2)
  else if a.2.1.yielded ≠ b.2.1.yielded then b.2.1.yielded
  else if a.2.1.born ≠ b.2.1.born then decide (a.2.1.born < b.2.1.born)
  else decide (a.1 < b.1)
/-- Whether a ready wave is chosen before another: promoted, the earliest first, then as `olderBefore` says (R50). -/
def chosenBefore (a b : Nat × Wave × Nat) : Bool :=
  match a.2.1.promoted, b.2.1.promoted with
  | some x, some y => if x = y then olderBefore a b else decide (x < y)
  | some _, none => true
  | none, some _ => false
  | none, none => olderBefore a b
/-- The effective priority of a wave's launch. -/
def State.waveEprio (s : State) (w : Wave) : Nat := match s.launch? (s.launchOf w.team) with | some l => l.eprio | none => 0
/-- The waves of one front end of a core: slot, wave and effective priority. -/
def State.frontEnd (s : State) (core : Nat) (adr : Bool) : List (Nat × Wave × Nat) :=
  (s.waves.filter (fun r => decide (r.1 / 32 = core) && (r.2.adr == adr))).map (fun r => (r.1 % 32, r.2, s.waveEprio r.2))
/-- The idle pipe of a front end that is taken next: of the four vector pipes, or of the one address pipe (R50, R52). -/
def State.idlePipe (s : State) (core : Nat) (adr : Bool) : Option Nat :=
  let used := (s.frontEnd core adr).filterMap (fun x => x.2.1.pipe)
  (List.range (if adr then 1 else 4)).find? (fun p => !used.contains p)
/-- The ready wave the Escapement chooses (R50). -/
def State.chosen (s : State) (core : Nat) (adr : Bool) : Option Nat :=
  (((s.frontEnd core adr).filter (fun x => s.ready core x.2.1)).foldl (fun (b : Option (Nat × Wave × Nat)) x =>
    match b with
    | none => some x
    | some y => if chosenBefore x y then some x else some y) none).map (fun x => x.1)

/-- CLAUSE_WAIT_MET (R99): the waits of a fetched clause are met; the wave is chosen for an idle pipe and its first word may
issue. -/
def execClauseWaitMet (a : Agent) (s : State) : Out :=
  match a with
  | .stream _ => .next s
  | .wave c k =>
    match s.wave? c k with
    | none => .next s
    | some w =>
      if w.halted || w.stopped || w.dbg || w.waitMet || !w.waitsMet then .next s
      else if w.eretWord.isNone && (w.faultDue || w.poison.isSome) then .next s
      else if w.dbgReq then .next (s.setWave c k w.refetch.haltDbg)
      else if s.vacating c then .next s
      else if s.chosen c w.adr ≠ some k then .next s
      else
        match s.idlePipe c w.adr with
        | none => .next s
        | some p =>
          .next (s.setWave c k
            { w with waitMet := true, eretWord := none, readySince := none, promoted := none, yielded := false, pipe := some p })

/-- A wave ready for 64 ck without being chosen is promoted at that ck (R51). -/
def State.promote (s : State) (c k : Nat) : State :=
  match s.wave? c k with
  | none => s
  | some w =>
    match w.readySince with
    | some t =>
      if t + 64 ≤ s.ck ∧ w.promoted.isNone then
        (s.pmcCount c 0x11 1 w.team).setWave c k { w with promoted := some (t + 64) }
      else s
    | none => s

/-- PROMOTION (R51): it happens of itself when the 64 ck have passed. -/
def execPromotion (a : Agent) (s : State) : Out :=
  match a with
  | .stream _ => .next s
  | .wave c k => .next (s.promote c k)

/-- PENDING_FAULT_DELIVERY (R442): at a boundary reached with INTRAP = 0, after any POISON stop, the record is delivered. -/
def execPendingFaultDelivery (a : Agent) (s : State) : Out :=
  match a with
  | .stream _ => .next s
  | .wave c k =>
    match s.wave? c k with
    | none => .next s
    | some w =>
      if w.halted || w.stopped || w.dbg || !w.atBoundary || w.poison.isSome || !w.faultDue then .next s
      else
        match w.pend with
        | none => .next s
        | some p =>
          let e := p.estat.toNat
          .next (s.trapHeader c k { w.unfetch with pend := none }
            { cause := p.cause.toNat % 256, sub := e % 256, level := e / 2 ^ 13 % 4, origin := e / 2 ^ 24 % 16, eaddr := p.eaddr,
              fm := w.trapMask, deferred := true, more := p.estat.getLsbD 20 } w.hdrAddr 0)

/-- POISON_STOP (R333, R236): a wave stops at the boundary after bad data; a stream when the word that consumed them has run
to its end. -/
def execPoisonStop (a : Agent) (s : State) : Out :=
  match a with
  | .wave c k =>
    match s.wave? c k with
    | none => .next s
    | some w =>
      if w.halted || w.stopped || w.dbg || !w.atBoundary then .next s
      else
        match w.poison with
        | none => .next s
        | some (addr, lanes) =>
          .next (s.trapHeader c k { w.unfetch with poison := none } { cause := 0x12, origin := 5, eaddr := addr, fm := lanes }
            w.hdrAddr 0)
  | .stream c =>
    match s.stream? c with
    | none => .next s
    | some m =>
      match m.poisonPc with
      | none => .next s
      | some (pc, addr) =>
        if m.stopped then .next (s.setStream c { m with poisonPc := none })
        else if (m.arrayQ ++ m.xferQ).any (fun q => decide (q.pc = pc)) then .next s
        else .next (s.streamFault c { m with poisonPc := none, poisonStop := true } 0x12 0 0 pc addr)

/-! ### Cancelling a wait (R63, R388, R404, R470) -/

/-- A wave blocked at a word of its clause. -/
def Wave.blocked (w : Wave) : Bool := w.clause.isSome && !decide (w.block = .none)
/-- A blocked wave goes back to the word it waits at, which replays; a BARRW that has arrived only waits again (R470). Its open windows
close, as before a trap (R107): the words that opened them are wholly done and do not replay (R166, R193; log entry 30). -/
def Wave.cancelBlock (w : Wave) : Wave :=
  match w.block with
  | .none => w
  | .word _ _ _ =>
    let w := w.keepArrival
    let w := w.closeWins
    { w.unfetch with eretWord := some w.widx, waitMet := false, block := .none }

/-- Take an agent out of every wait list of its team (R388). -/
def State.dropWaits (s : State) (a : Agent) (team : Nat) : State :=
  let rm := fun (l : List Agent) => l.filter (fun b => !decide (b = a))
  s.updTeam team (fun t => { t with
    ch := List.map (fun r => (r.1, { r.2 with resWait := rm r.2.resWait, acqWait := rm r.2.acqWait })) t.ch
    sq := List.map (fun r => (r.1, { r.2 with pushWait := rm r.2.pushWait, popWait := rm r.2.popWait })) t.sq })

/-- The park of a wave whose request the slice has served or ended before any cancel (R404): its tuple and status are written
and the wave goes on after the word. -/
def State.servedPark (s : State) (c k : Nat) (w : Wave) : Option State :=
  w.treq.bind (fun r => (Tbl.get? s.treqs r).bind (fun t =>
    if t.status.isSome && s.blockReady w.reqs t then
      let q : Req := ⟨0, .ts, w.curWord, 0, 0, true, [], .none, 0, []⟩
      let s := { s with treqs := Tbl.del s.treqs r }
      some (((s.deliverTuple c k q t).updWave c k (fun w => { w with treq := none })).updWave c k Wave.done)
    else none))
/-- A cancel of a wave's own park or retry, for an event (R404): the request ends and the word replays. -/
def State.cancelPark (s : State) (w : Wave) : State :=
  match w.treq with
  | some r => { s with treqs := Tbl.del s.treqs r }
  | none => s

/-- Stop a blocked wave's wait: the word replays on resume (R63). -/
def State.cancelWait (s : State) (c k : Nat) (w : Wave) : State :=
  match s.servedPark c k w with
  | some s' => s'
  | none => ((s.dropWaits (.wave c k) w.team).cancelPark w).setWave c k { w.cancelBlock with treq := none }

/-- WATCHDOG (R451): a wave or stream blocked on one word for WDTIME ms of platform time traps WATCHDOG there; SLEEP is exempt. The
wait is cancelled as an event cancels it, so an arrival of the word stands (R470). -/
def execWatchdog (a : Agent) (s : State) : Out :=
  let due := fun (since : Nat) => decide (s.win.wdtime ≠ 0) && decide (s.win.wdtime * 1000000 * 17 ≤ s.time - since)
  match a with
  | .wave c k =>
    match s.wave? c k with
    | none => .next s
    | some w =>
      match w.block with
      | .none => .next s
      | .word since _ _ =>
        if w.halted || w.stopped || w.dbg || !due since || decide (opOf w.curWord = 0x7F)
            || !decide (opOf w.curWord ∈ [0x79, 0x8C, 0xB1, 0xB3, 0xC0, 0xC1, 0xC3, 0xC4, 0xC6, 0xD1, 0xD2]) then .next s
        else
          match s.servedPark c k w with
          | some s' => .next s'
          | none =>
            let s := (s.dropWaits (.wave c k) w.team).cancelPark w
            .next (s.trapAt c k { w.keepArrival with treq := none } { cause := 0x15, origin := 6, fm := w.trapMask })
  | .stream c =>
    match s.stream? c with
    | none => .next s
    | some m =>
      match m.block, m.clause with
      | .word since _ _, some cl =>
        let op := opOf (cl.words.getD m.widx 0)
        if m.halted || m.stopped || m.dbg || !due since || !decide (op ∈ [0xAC, 0xDB, 0xDC]) then .next s
        else .next (s.streamTrap c m 0x15 0 0)
      | _, _ => .next s

/-- SLEEP_WAKE (R206): a sleeper whose time has come continues after its word. -/
def execSleepWake (a : Agent) (s : State) : Out :=
  match a with
  | .stream _ => .next s
  | .wave c k =>
    match s.wave? c k with
    | none => .next s
    | some w =>
      match w.block with
      | .word _ 1 wake =>
        if opOf w.curWord = 0x7F ∧ wake ≤ s.ck ∧ !w.halted ∧ !w.stopped ∧ !w.dbg then .next (s.setWave c k w.done) else .next s
      | _ => .next s

/-! ### Stops for a vacate (R63, R237) -/

/-- A stopped wave's TST with AON = 1 that waits for an even version word is cancelled with nothing written, to replay on resume
(R455). -/
def Wave.cancelAon (w : Wave) : Wave :=
  let waits := fun (q : Req) => decide (q.phase = aonPhase) && q.accs.all (fun a => !a.done)
  { w with replay := w.replay ++ (w.reqs.filter waits).map (fun q => { q with sent := false }), reqs := w.reqs.filter (fun q => !waits q) }

/-- VACATE_WAVE_STOP (R63): on a core being vacated, a wave at a boundary or blocked on a word stops there, and a stream
stops at its next word. -/
def execVacateWaveStop (a : Agent) (s : State) : Out :=
  match a with
  | .wave c k =>
    match s.wave? c k with
    | none => .next s
    | some w =>
      if !s.vacating c || w.dbg then .next s
      else if w.halted then .next (s.setWave c k w.cancelAon)
      else
        match w.blocked with
        | true => .next (s.cancelWait c k w)
        | false =>
          if w.clause.isNone && w.dbgReq && !w.stopped then .next (s.setWave c k w.haltDbg)
          else if w.clause.isSome && !w.waitMet then .next (s.setWave c k w.refetch)
          else if w.clause.isNone then .next (s.setWave c k w.cancelAon)
          else .next s
  | .stream c =>
    match s.stream? c with
    | none => .next s
    | some m =>
      if !s.vacating c || m.halted || m.dbg then .next s
      else .next (s.setStream c { m with stopReq := true, block := .none, check := none })

end Sys2Proof.Machine
end

