-- ==== Sys2Proof/Machine/Tuples.lean ====
section
/-! DEFINITION. Tuple bags (R389–R404): the tuple words, what a home slice does with their requests, and ECPL's deposits. -/

namespace Sys2Proof.Machine

/-! ### Requests (R390, R394) -/

/-- Eight-byte words of a block. -/
def wordsOf (n : Nat) (b : List Byte) : List W64 := (List.range n).map (fun i => BitVec.ofNat 64 (fieldOf b (8 * i) 8))
/-- Translate a space address: the bag and its unique-tag mark, or the trap (R394, R403). -/
def State.spaceOf (s : State) (core : Nat) (va : W64) (i : Intent) : Except XErr (Nat × Bool) :=
  match s.translate (clusterOf core) va i with
  | .error e => .error e
  | .ok x => if x.kind = .ts then .ok (x.pa / 4096, x.uniq) else .error ⟨0x07, 0, 0⟩

/-- The request of a tuple word, or its trap: block offset, then block, then space (R403). -/
def State.tupleReq (s : State) (c k : Nat) (w : Wave) (f : FmtT) (op : TOp) : Except Trap TReq :=
  let dep := decide (op = .dep)
  let size := if dep then 64 else 192
  let off := w.z f.blk
  match s.descriptor w (BitVec.ofNat 64 off) 64 size with
  | .error e => .error e
  | .ok b =>
    let va := w.readS64 f.space.toNat
    match s.spaceOf c va (if op = .cpy ∨ op = .cpyn then .read else .write) with
    | .error e => .error { cause := e.cause, sub := e.sub, level := e.level, eaddr := va, fm := w.trapMask }
    | .ok (bag, uniq) =>
      let data := wordsOf (if dep then 8 else 16) b
      .ok { op := op, agent := .wave c k, team := w.team, word := w.wordAddr, bag := bag, uniq := uniq,
            slice := s.tupleHome bag (data.getD 0 0), data := data, block := off, sd := f.sd.toNat,
            deadline := if f.imm = 0 then none else some (s.ck + 256 * f.imm.toNat), timedOut := false, cancelled := false,
            stage := .travelling, got := [], gotBad := false, fault := 0 }
/-- The trap of a tuple word whose request failed; a space address that fails to translate has been looked up in the TLBs (R483). -/
def State.tupleTrap (s : State) (c k : Nat) (w : Wave) (f : FmtT) (op : TOp) (t : Trap) : State :=
  let s := match s.descriptor w (BitVec.ofNat 64 (w.z f.blk)) 64 (if op = .dep then 64 else 192) with
    | .ok _ => s.touchTlb (clusterOf c) (w.readS64 f.space.toNat)
    | .error _ => s
  s.trapAt c k w t
/-- A request is on its way. -/
def State.sendTuple (s : State) (t : TReq) : State :=
  { s with treqs := Tbl.set s.treqs s.nextId t, nextId := s.nextId + 1 }

/-- A tuple word of path TS (R394): its request and its return under the TS counter. Its block is read once the wave's acquires, an
earlier TSCPYN's or TSTAKEN's among them, have returned (R341, R343). -/
def State.tupleL (s : State) (c k : Nat) (w : Wave) (f : FmtT) (op : TOp) : State :=
  if w.acquiring then s.setWave c k (w.blockAt s.time 0 0) else
  match s.tupleReq c k w f op with
  | .error e => s.tupleTrap c k w f op e
  | .ok t =>
    if w.full .ts then s.setWave c k (w.blockAt s.time 0 0)
    else
      let dep := decide (op = .dep)
      let r := s.nextId
      (((s.idemLost w.team).touchTlb (clusterOf c) (w.readS64 f.space.toNat)).sendTuple t).issueReq c k w.done .ts w.curWord
        (if dep then 2 else 0) 3 [] (.tuple r f.sd.toNat dep none) 0

/-- A blocking tuple word (R394, R397): it waits at the word until its request has ended. -/
def State.tupleB (s : State) (c k : Nat) (w : Wave) (f : FmtT) (op : TOp) : State :=
  match w.treq with
  | some r =>
    match s.servedPark c k w with
    | some s' => s'
    | none => s.setWave c k (if (Tbl.get? s.treqs r).isSome then w.blockAt s.time 1 0 else { w with treq := none })
  | none =>
    if w.acquiring then s.setWave c k (w.blockAt s.time 0 0) else
    match s.tupleReq c k w f op with
    | .error e => s.tupleTrap c k w f op e
    | .ok t =>
      (((s.idemLost w.team).touchTlb (clusterOf c) (w.readS64 f.space.toNat)).sendTuple t).setWave c k
        { w.blockAt s.time 1 0 with treq := some s.nextId }

/-- TSDEP (R394): with a release at device scope before the deposit. -/
def execTsdep (f : FmtT) (s : State) : Out := sysWord (.tsdep f) s (fun c k w => s.tupleL c k w f .dep)
/-- TSCPY (R394). -/
def execTscpy (f : FmtT) (s : State) : Out := sysWord (.tscpy f) s (fun c k w => s.tupleB c k w f .cpy)
/-- TSTAKE (R394). -/
def execTstake (f : FmtT) (s : State) : Out := sysWord (.tstake f) s (fun c k w => s.tupleB c k w f .take)
/-- TSCPYN (R394). -/
def execTscpyn (f : FmtT) (s : State) : Out := sysWord (.tscpyn f) s (fun c k w => s.tupleL c k w f .cpyn)
/-- TSTAKEN (R394). -/
def execTstaken (f : FmtT) (s : State) : Out := sysWord (.tstaken f) s (fun c k w => s.tupleL c k w f .taken)

def State.updTreq (s : State) (r : Nat) (g : TReq → TReq) : State := { s with treqs := Tbl.upd s.treqs r g }
def TReq.open (t : TReq) : Bool := t.status.isNone
def TReq.retrying (t : TReq) : Bool := match t.stage with | .retrying _ => true | _ => false
def TReq.parkStamp (t : TReq) : Option Nat := match t.stage with | .parked n => some n | _ => none

/-- TSCAN (R395): cancel the open request of another wave of the team: open until its word ends, though a cancel of one that has been
served or has ended has no effect. -/
def execTscan (f : FmtT) (s : State) : Out :=
  sysWord (.tscan f) s (fun c k w =>
    let idx := w.z f.blk
    let exists_ := match s.team? w.team with | some t => decide (idx < t.waves) | none => false
    if !exists_ then s.trapAt c k w (w.protTrap 0)
    else
      let s := s.idemLost w.team
      let target := ((s.teamWaves w.team).find? (fun x => decide (x.2.2.idx = idx))).bind (fun x => x.2.2.treq)
      let live := match target with
        | some r => (Tbl.get? s.treqs r).isSome
        | none => false
      let s := match target with
        | some r => s.updTreq r (fun t =>
            if t.timedOut || !t.open then t
            else { t with cancelled := true, stage := if t.retrying then .ended 2 else t.stage })
        | none => s
      s.updWave c k (fun w =>
        (if f.sd = 127 then w else w.writeS f.sd.toNat (if live then 1 else 0)).done))

/-! ### At the home slice (R392, R396, R397, R399, R400) -/

/-- Whether a tuple fits a match block (R390). -/
def fitsPattern (tuple pattern : List W64) : Bool :=
  decide (tuple.getD 0 0 = pattern.getD 0 0) && (List.range 7).all (fun f =>
    decide ((tuple.getD (f + 1) 0 &&& pattern.getD (2 + 2 * f) 0) = pattern.getD (3 + 2 * f) 0))
/-- A stored tuple as the slice reads it: a field in error reads as zero (R402). -/
def Tuple.read (t : Tuple) : List W64 := (List.range 8).map (fun i => if i ∈ t.bad then 0 else t.words.getD i 0)
/-- The parked requests of a slice in park order. -/
def State.parked (s : State) (h : Nat) : List (Nat × TReq) :=
  let ps := s.treqs.filter (fun r => decide (r.2.slice = h) && r.2.parkStamp.isSome)
  (List.range ps.length).foldl (fun acc _ =>
    match (ps.filter (fun r => !acc.any (fun a => decide (a.1 = r.1)))).foldl (fun (b : Option (Nat × TReq)) r =>
      match b with
      | none => some r
      | some x => if r.2.parkStamp.getD 0 < x.2.parkStamp.getD 0 then some r else some x) none with
    | some r => acc ++ [r]
    | none => acc) []
/-- A request takes part in its wave's flow to a slice in issue order (R398). -/
def State.flowFirst (s : State) (r : Nat) (t : TReq) : Bool :=
  !s.treqs.any (fun x => decide (x.1 < r) && decide (x.2.agent = t.agent) && decide (x.2.slice = t.slice)
    && decide (x.2.stage = .travelling))
/-- The wave's path request behind a tuple request may be sent: its release first (R316, R394). -/
def State.tupleMaySend (s : State) (r : Nat) (t : TReq) : Option State :=
  match t.op, t.agent with
  | .ecpl _, _ => some s
  | _, .stream _ => some s
  | _, .wave c k =>
    match s.wave? c k with
    | none => some s
    | some w =>
      match w.reqs.find? (fun q => match q.ret with | .tuple n _ _ _ => decide (n = r) | _ => false) with
      | none => if w.wins.isEmpty then some s else none
      | some q => if w.maySend q then some (s.sendReq c k w q) else none

/-- Tuples of a bag whose tag is uncorrectable are removed and counted when the slice reads them (R402). -/
def State.dropBadTags (s : State) (h bag : Nat) : State :=
  let q := s.slice h
  let bad := q.tuples.filter (fun t => decide (t.bag = bag) && decide (0 ∈ t.bad))
  if bad.isEmpty then s
  else (s.setSlice h { q with tuples := q.tuples.filter (fun t => !(decide (t.bag = bag) && decide (0 ∈ t.bad))) }).count 5
    (dieOfSlice h) 9 bad.length

/-- A tuple request ends at the slice with a status, which is now on its way to the SD of its word (R106, R394). -/
def State.endTreq (s : State) (r : Nat) (t : TReq) (status : Nat) (g : TReq → TReq) : State :=
  let s := s.updTreq r (fun t => { g t with stage := .ended status })
  match t.agent with
  | .stream _ => s
  | .wave c k => s.updWave c k (fun w => { w with reqs := w.reqs.map (fun q =>
      match q.ret with
      | .tuple n sd dep _ => if n = r then { q with ret := .tuple n sd dep (some status) } else q
      | _ => q) })
/-- A request is served with a tuple. -/
def State.serveTuple (s : State) (r : Nat) (t : TReq) (words : List W64) (bad : Bool) : State :=
  ((s.endTreq r t 0 (fun t => { t with got := words, gotBad := bad })).count 3 t.slice 0x31 1).pmcCount
    t.agent.core 0x1A 1 t.team

/-- A deposit ends: an ECPL action's command completes with it (R364, R365). -/
def State.endDeposit (s : State) (r : Nat) (t : TReq) (status fault : Nat) : State :=
  match t.op with
  | .ecpl n =>
    let s := { s with treqs := Tbl.del s.treqs r }
    let s := { s with cmds := Tbl.upd s.cmds n (fun c => { c with stage := .done }) }
    let s := s.pmcCount t.agent.core 0x20 1 t.team
    if fault = 0 then s else s.deferTo t.agent t.team ⟨BitVec.ofNat 32 fault, deferStat 2 0 0, t.word⟩
  | _ => s.endTreq r t status (fun t => { t with fault := fault })

/-- The phase watches a deposit counts for (R474). -/
def State.watchDeposit (s : State) (h bag : Nat) (tag : W64) : State :=
  ((s.slice h).watches.filter (fun x => decide (x.1 = bag) && decide (x.2.1 = tag))).foldl
    (fun s x => s.phaseArrive x.2.2 0 .ts) s

/-- The three steps of R396, indivisible; a stored tuple takes its place in the slice's 16 MiB (R19). -/
def State.depositSteps (s : State) (r : Nat) (t : TReq) : State :=
  let h := t.slice
  let fits := (s.parked h).filter (fun x => decide (x.2.bag = t.bag) && fitsPattern t.data x.2.data)
  let s := (fits.filter (fun x => decide (x.2.op = .cpy))).foldl (fun s x => s.serveTuple x.1 x.2 t.data false) s
  let s := match fits.find? (fun x => decide (x.2.op = .take)) with
    | some x => s.serveTuple x.1 x.2 t.data false
    | none =>
      let q := s.slice h
      (s.setSlice h { q with depStamp := q.depStamp + 1
                             tuples := q.tuples ++ [(⟨t.bag, t.uniq, q.depStamp, t.data, []⟩ : Tuple)] }).sliceTrim h 0
  ((s.count 3 h 0x30 1).watchDeposit h t.bag (t.data.getD 0 0)).endDeposit r t 0 0

/-- A unique-tag bag stores a tuple with this deposit's tag (R399). -/
def State.duplicate (s : State) (t : TReq) : Bool :=
  t.uniq && (s.slice t.slice).tuples.any (fun x => decide (x.bag = t.bag) && decide (x.words.getD 0 0 = t.data.getD 0 0))
/-- A deposit at its home slice: refused for a present unique tag, waiting at a full slice, or performed (R399, R400). -/
def State.depositAt (s : State) (r : Nat) (t : TReq) : State :=
  let h := t.slice
  let taker := (s.parked h).any (fun x => decide (x.2.bag = t.bag) && decide (x.2.op = .take) && fitsPattern t.data x.2.data)
  if s.duplicate t then s.endDeposit r t 4 0x0D
  else if 65536 ≤ (s.slice h).tuples.length && !taker then s.updTreq r (fun t => { t with stage := .waitingFull s.ck })
  else s.depositSteps r t

/-- The deposit that has waited longest at a slice, among those within their 4,096 ck (R400). -/
def State.nextWaiting (s : State) (h : Nat) : Option (Nat × TReq) :=
  ((s.treqs.filter (fun r => decide (r.2.slice = h) && (match r.2.stage with
    | .waitingFull n => decide (s.ck < n + 4096)
    | _ => false))).foldl (fun (b : Option (Nat × TReq × Nat)) r =>
      match r.2.stage, b with
      | .waitingFull n, none => some (r.1, r.2, n)
      | .waitingFull n, some x => if n < x.2.2 then some (r.1, r.2, n) else some x
      | _, b => b) none).map (fun x => (x.1, x.2.1))
/-- Tuples have left a slice: while it has room, the deposits that wait there perform, the longest waiting first (R400). -/
def State.roomAt : Nat → State → Nat → State
  | 0, s, _ => s
  | n + 1, s, h =>
    if 65536 ≤ (s.slice h).tuples.length then s
    else
      match s.nextWaiting h with
      | none => s
      | some (r, t) =>
        let s := if s.duplicate t then s.endDeposit r t 4 0x0D else s.depositSteps r t
        State.roomAt n s h
def State.makeRoomAt (s : State) (h : Nat) : State := State.roomAt s.treqs.length s h
/-- The slice reads a bag: its tuples with an uncorrectable tag go, and make room (R400, R402). -/
def State.readBag (s : State) (h bag : Nat) : State :=
  let n := (s.slice h).tuples.length
  let s := s.dropBadTags h bag
  if (s.slice h).tuples.length < n then s.makeRoomAt h else s

def TOp.deposit : TOp → Bool
  | .dep => true
  | .ecpl _ => true
  | _ => false

/-- TUPLE_DEPOSIT (R396): a deposit arrives at its home slice, and performs there or waits. -/
def execTupleDeposit (r : Nat) (s : State) : Out :=
  match Tbl.get? s.treqs r with
  | none => .next s
  | some t =>
    if !t.op.deposit then .next s
    else
      match t.stage with
      | .travelling =>
        (match s.tupleMaySend r t with
        | some s' => .next (if s.flowFirst r t then (s'.readBag t.slice t.bag).depositAt r t else s)
        | none => .next s)
      | _ => .next s

/-- TS_FULL (R400): a deposit that has waited 4,096 ck at a full slice is refused. -/
def execTsFull (r : Nat) (s : State) : Out :=
  match Tbl.get? s.treqs r with
  | none => .next s
  | some t =>
    match t.stage with
    | .waitingFull since =>
      if since + 4096 ≤ s.ck then
        .next ((s.count 3 t.slice 0x35 1).endDeposit r t 4 0x0E)
      else .next s
    | _ => .next s

/-- Park a blocking request, or send it back for a retry when the table is full (R397). -/
def State.parkTuple (s : State) (r : Nat) (t : TReq) : State :=
  let h := t.slice
  if 4096 ≤ (s.parked h).length then
    (s.count 3 h 0x33 1).updTreq r (fun t =>
      { t with stage := if t.cancelled then .ended 2 else if t.timedOut then .ended 3 else .retrying s.ck })
  else
    let q := s.slice h
    (((s.setSlice h { q with parkStamp := q.parkStamp + 1 }).updTreq r (fun t => { t with stage := .parked q.parkStamp })).count 3 h
      0x32 1).pmcCount t.agent.core 0x1B 1 t.team

/-- TUPLE_MATCH (R394): a copy or take at its home slice: the oldest tuple that fits, or NONE, or a park. -/
def execTupleMatch (r : Nat) (s : State) : Out :=
  match Tbl.get? s.treqs r with
  | none => .next s
  | some t =>
    if t.op.deposit || !decide (t.stage = .travelling) || !s.flowFirst r t then .next s
    else
      match s.tupleMaySend r t with
      | none => .next s
      | some s =>
        let h := t.slice
        let s := s.readBag h t.bag
        let q := s.slice h
        match q.tuples.find? (fun x => decide (x.bag = t.bag) && fitsPattern x.read t.data) with
        | some x =>
          let s := if t.op = .take ∨ t.op = .taken then
              s.setSlice h { q with tuples := q.tuples.filter (fun y => !decide (y.stamp = x.stamp)) } else s
          .next ((s.serveTuple r t x.read (!x.bad.isEmpty)).makeRoomAt h)
        | none =>
          if t.op = .cpyn ∨ t.op = .taken then .next (s.endTreq r t 1 id)
          else .next (s.parkTuple r t)

/-- TUPLE_RETRY (R397): a refused park is sent again after 256 ck. -/
def execTupleRetry (r : Nat) (s : State) : Out :=
  match Tbl.get? s.treqs r with
  | none => .next s
  | some t =>
    match t.stage with
    | .retrying since =>
      if since + 256 ≤ s.ck then .next (s.updTreq r (fun t => { t with stage := .travelling })) else .next s
    | _ => .next s

/-- TUPLE_CANCEL (R395, R401): a cancel reaches a parked or retrying request. -/
def execTupleCancel (r : Nat) (s : State) : Out :=
  match Tbl.get? s.treqs r with
  | none => .next s
  | some t =>
    if (t.cancelled || t.timedOut) && (t.retrying || t.parkStamp.isSome) then
      .next (s.updTreq r (fun t => { t with stage := .ended (if t.cancelled then 2 else 3) }))
    else .next s

/-- TUPLE_TIMEOUT (R401): a park limit expires and the wave cancels its own request. -/
def execTupleTimeout (r : Nat) (s : State) : Out :=
  match Tbl.get? s.treqs r with
  | none => .next s
  | some t =>
    match t.deadline with
    | none => .next s
    | some d =>
      if d ≤ s.ck ∧ t.open ∧ !t.cancelled then
        .next (s.updTreq r (fun t => { t with timedOut := true, stage := if t.retrying then .ended 3 else t.stage }))
      else .next s

/-! ### Completion actions (R365, R372) -/

/-- Perform an ECPL action for a command: an arrival at once, or a deposit on its way (true), or its deferred fault. -/
def State.runEcpl (s : State) (a : Agent) (team : Nat) (e : Ecpl) (cmd : Nat) : State × Bool :=
  let core := a.core
  let s := s.columnRelease (s.paired team) 3 core
  if e.arr then
    let pos := match s.team? team with | some t => core - t.core | none => 0
    ((s.phaseArrive team pos .en).pmcCount core 0x20 1 team, false)
  else
    match s.spaceOf core e.space .write with
    | .error x => ((s.touchTlb (clusterOf core) e.space).deferTo a team ⟨BitVec.ofNat 32 x.cause, deferStat 2 x.level x.sub, e.word⟩, false)
    | .ok (bag, uniq) =>
      ((s.touchTlb (clusterOf core) e.space).sendTuple
        { op := .ecpl cmd, agent := a, team := team, word := e.word, bag := bag, uniq := uniq,
          slice := s.tupleHome bag (e.tuple.getD 0 0), data := e.tuple, block := 0, sd := 127, deadline := none, timedOut := false,
          cancelled := false, stage := .travelling, got := [], gotBad := false, fault := 0 }, true)

end Sys2Proof.Machine
end

