-- ==== Sys2Proof/Machine/Engines.lean ====
section
/-! DEFINITION. Engine commands (R362–R372) and LAUNCH (R375–R377): their words, their firing and their completion. -/

namespace Sys2Proof.Machine

/-! ### Issue (R363, R387) -/

/-- Engine commands of a team issued and not fired, and its LAUNCH and RSUB words not completed (R363). -/
def State.engHeld (s : State) (team : Nat) : Nat :=
  (s.cmds.filter (fun r => decide (r.2.team = team) && (match r.2.kind with
    | .launch _ _ _ => !decide (r.2.stage = .done)
    | .rsub _ _ _ => !decide (r.2.stage = .done)
    | _ => decide (r.2.stage = .issued)))).length

/-- A command as its word issues it. -/
def Cmd.fresh (c k : Nat) (w : Wave) (kind : CmdKind) (ch ch2 n ctx : Nat) : Cmd :=
  { agent := .wave c k, team := w.team, word := w.wordAddr, kind := kind, ch := ch, ch2 := ch2, n := n, stage := .issued,
    outFirst := 0, inFirst := 0, rpages := [], wpages := [], progress := 0, tags := 0, ecpl := none, fault := none, seqno := none,
    recBytes := [], ctx := ctx }

/-- An engine word reads its descriptor at issue, so it waits for an acquire of its wave that is still outstanding (R341, R343). -/
def engWord (i : Instr) (s : State) (f : Nat → Nat → Wave → State) : Out :=
  sysWord i s (fun c k w => if w.acquiring then s.setWave c k (w.blockAt s.time 0 0) else f c k w)

/-- Issue an EN word: its command, its channels' queues, and its return. `act` says that it takes the pending ECPL action. -/
def State.issueCmd (s : State) (c k : Nat) (w : Wave) (cmd : Cmd) (chans : List Nat) (act lost : Bool) (sem : Nat) : State :=
  if decide (1280 ≤ s.engHeld w.team) then s.setWave c k { w.blockAt s.time 0 0 with pipe := none }
  else if w.full .en then s.setWave c k (w.blockAt s.time 0 0)
  else
    let id := s.nextId
    let e := if act then w.ecpl.bind (fun e => if e.stream then none else some e) else none
    let w := if e.isSome then { w with ecpl := none } else w
    let s := if lost then s.idemLost w.team else s
    let s := chans.foldl (fun s n => s.updChan w.team n (fun x => { x with queue := x.queue ++ [id] })) s
    State.issueReq { s with cmds := Tbl.set s.cmds id { cmd with ecpl := e }, nextId := id + 1 } c k w.done .en w.curWord sem 3 []
      (.cmd id (match cmd.kind with | .launch _ _ sd => some sd | _ => none) none) 0

/-- The checks of a channel an engine word names; `fmt` is its size check (R387). -/
def engChan (w : Wave) (ch : Chan) (fmtOk : Bool) : Option Trap :=
  if !ch.defd then some (w.boundsTrap 0x22) else if !fmtOk then some (w.formatTrap 3) else none

/-- A copy descriptor (R366). -/
def copyDesc (b : List Byte) : CopyDesc :=
  { addr := BitVec.ofNat 64 (fieldOf b 0 8), addr2 := BitVec.ofNat 64 (fieldOf b 8 8), step := fieldOf b 0x10 4,
    step2 := fieldOf b 0x14 4, stride := fieldOf b 0x18 4, stride2 := fieldOf b 0x1C 4, rowBytes := fieldOf b 0x20 4,
    rows := fieldOf b 0x24 2, srowBytes := fieldOf b 0x26 2, srows := fieldOf b 0x28 2, conv := fieldOf b 0x2A 1,
    fmtc := fieldOf b 0x2B 1 }
/-- The fields every copy word uses are in range and the reserved bytes are zero (R366). -/
def copyOk (b : List Byte) (d : CopyDesc) : Bool :=
  zeroField b 0x2C 20 && decide (1 ≤ d.rowBytes) && decide (d.rowBytes ≤ 65536) && decide (1 ≤ d.rows)
/-- The scale and conversion fields are zero. -/
def noScale (b : List Byte) : Bool := zeroField b 0x26 6
/-- T of R367. -/
def CopyDesc.total (d : CopyDesc) : Nat := d.rows * d.rowBytes + d.srows * d.srowBytes

/-- CPYIN (R367). -/
def execCpyin (f : FmtE) (s : State) : Out :=
  engWord (.cpyin f) s (fun c k w =>
    match s.descriptor w (w.readS64 f.desc.toNat) 64 64 with
    | .error e => s.trapAt c k w e
    | .ok b =>
      let d := copyDesc b
      let n := w.eCountOf f
      let ch := s.chan w.team f.ch.toNat
      let conv := decide (d.conv = 1)
      if !copyOk b d || decide (2 ≤ d.conv) || decide (64 ≤ d.fmtc) || (!conv && !decide (d.fmtc = 0)) then s.trapAt c k w (w.formatTrap 8)
      else
        match opCode d.fmtc with
        | none => s.trapAt c k w (w.formatTrap 4)
        | some o =>
          if conv && !decide (o.passes = 1) then s.trapAt c k w (w.formatTrap 4)
          else
            match engChan w ch (if conv then decide (d.total = o.slab) && decide (ch.esize = 4096) else decide (d.total = ch.esize)) with
            | some e => s.trapAt c k w e
            | none =>
              if ch.cap < n then s.trapAt c k w (w.boundsTrap 0x20)
              else
                s.issueCmd c k w (Cmd.fresh c k w (.cpyin d (f.flags.getLsbD 1)) f.ch.toNat 0 n s.win.ctxid) [f.ch.toNat] true false
                  0)

/-- CPYOUT (R368). -/
def execCpyout (f : FmtE) (s : State) : Out :=
  engWord (.cpyout f) s (fun c k w =>
    match s.descriptor w (w.readS64 f.desc.toNat) 64 64 with
    | .error e => s.trapAt c k w e
    | .ok b =>
      let d := copyDesc b
      let n := w.eCountOf f
      let ch := s.chan w.team f.ch.toNat
      if !copyOk b d || !noScale b || !decide (d.addr2 = 0) || !decide (d.step2 = 0) || !decide (d.stride2 = 0) then
        s.trapAt c k w (w.formatTrap 8)
      else
        match engChan w ch (decide (d.total = ch.esize)) with
        | some e => s.trapAt c k w e
        | none =>
          if ch.cap < n then s.trapAt c k w (w.boundsTrap 0x20)
          else s.issueCmd c k w (Cmd.fresh c k w (.cpyout d) f.ch.toNat 0 n s.win.ctxid) [f.ch.toNat] true true 0)

/-- CPYG (R368). -/
def execCpyg (f : FmtE) (s : State) : Out :=
  engWord (.cpyg f) s (fun c k w =>
    match s.descriptor w (w.readS64 f.desc.toNat) 64 64 with
    | .error e => s.trapAt c k w e
    | .ok b =>
      let d := copyDesc b
      if !copyOk b d || !noScale b || !decide (d.step = 0) || !decide (d.step2 = 0) then s.trapAt c k w (w.formatTrap 8)
      else s.issueCmd c k w (Cmd.fresh c k w (.cpyg d) 0 0 0 s.win.ctxid) [] true true 0)

/-- IDXWALK (R369). -/
def execIdxwalk (f : FmtE) (s : State) : Out :=
  engWord (.idxwalk f) s (fun c k w =>
    match s.descriptor w (w.readS64 f.desc.toNat) 64 64 with
    | .error e => s.trapAt c k w e
    | .ok b =>
      let d : IndexDesc := { ptr := BitVec.ofNat 64 (fieldOf b 0 8), idx := BitVec.ofNat 64 (fieldOf b 8 8),
                             count := fieldOf b 0x10 4, form := fieldOf b 0x14 1, parts := fieldOf b 0x15 1,
                             part := fieldOf b 0x16 1 }
      if !zeroField b 0x17 41 || decide (2 ≤ d.form) || decide (d.parts = 0) || decide (64 < d.parts) || decide (d.parts ≤ d.part)
          || (decide (d.form = 1) && !decide (d.idx = 0)) then s.trapAt c k w (w.formatTrap 8)
      else
        match engChan w (s.chan w.team f.ch.toNat) true with
        | some e => s.trapAt c k w e
        | none => s.issueCmd c k w (Cmd.fresh c k w (.idxwalk d) f.ch.toNat 0 1 s.win.ctxid) [f.ch.toNat] true true 0)

/-- GATHER (R370). -/
def execGather (f : FmtE) (s : State) : Out :=
  engWord (.gather f) s (fun c k w =>
    match s.descriptor w (w.readS64 f.desc.toNat) 64 64 with
    | .error e => s.trapAt c k w e
    | .ok b =>
      let d : GatherDesc := { table := BitVec.ofNat 64 (fieldOf b 0 8), stride := fieldOf b 8 4, rowBytes := fieldOf b 0xC 4 }
      let n := w.eCountOf f
      let out := s.chan w.team f.ch.toNat
      let inp := s.chan w.team f.ch2.toNat
      if !zeroField b 0x10 48 then s.trapAt c k w (w.formatTrap 8)
      else if !inp.defd then s.trapAt c k w (w.boundsTrap 0x22)
      else
        match engChan w out (decide (out.esize = inp.esize / 16 * d.rowBytes)) with
        | some e => s.trapAt c k w e
        | none =>
          if out.cap < n ∨ inp.cap < n then s.trapAt c k w (w.boundsTrap 0x20)
          else
            s.issueCmd c k w (Cmd.fresh c k w (.gather d (f.flags.getLsbD 2) (f.flags.getLsbD 3)) f.ch.toNat f.ch2.toNat n
              s.win.ctxid) [f.ch.toNat, f.ch2.toNat] true false 0)

/-- Whether a command is one of the engine words of R362. -/
def CmdKind.engine : CmdKind → Bool
  | .launch _ _ _ => false
  | .rsub _ _ _ => false
  | _ => true

/-- The valid buffer entry whose base is an address (R371, R422). -/
def State.bufferAt (s : State) (va : W64) : Option Nat :=
  (s.buffers.find? (fun r => r.2.valid && decide (r.2.vbase.toNat = va.toNat % 2 ^ 48) && canonical va)).map (fun r => r.1)

/-- PUBLISH (R371): its buffer is checked at issue, with what it must wait for; it is a release at device scope (R341). -/
def execPublish (f : FmtE) (s : State) : Out :=
  sysWord (.publish f) s (fun c k w =>
    let va := w.readS64 f.desc.toNat
    match s.bufferAt va with
    | none => s.trapAt c k w { cause := 0x06, eaddr := va, fm := w.trapMask }
    | some b =>
      match s.translate (clusterOf c) va .read with
      | .error e => (s.touchFault c va e).trapAt c k w { cause := e.cause, sub := e.sub, level := e.level, eaddr := va, fm := w.trapMask }
      | .ok x =>
        if x.kind = .ts then (s.touchTlb (clusterOf c) va).trapAt c k w { cause := 0x07, eaddr := va, fm := w.trapMask }
        else
          let mine := (s.cmds.filter (fun r => decide (r.2.agent = .wave c k) && decide (r.2.team = w.team) && r.2.kind.engine
            && !decide (r.2.stage = .done))).map (fun r => r.1)
          let msts := (s.streams.filter (fun r => decide (r.2.team = w.team))).flatMap (fun r =>
            (r.2.xferQ.filter (fun q => decide (q.op = 0xA5) && q.begun)).map (fun q => q.id))
          (s.touchTlb (clusterOf c) va).issueCmd c k w
            { Cmd.fresh c k w (.publish b (mine ++ msts)) 0 0 0 s.win.ctxid with rpages := [⟨va.toNat / 4096, x.pa / 4096⟩] } []
            true true 2)

/-- ECPL.dep (R372): the pending action deposits the tuple read now. -/
def execEcplDep (f : FmtE) (s : State) : Out :=
  engWord (.ecplDep f) s (fun c k w =>
    match s.descriptor w (w.readS64 f.desc.toNat) 64 64 with
    | .error e => s.trapAt c k w e
    | .ok b =>
      (s.idemLost w.team).setWave c k { w with
        ecpl := some ⟨false, f.flags.getLsbD 4, w.readS64 f.cnt.toNat, wordsOf 8 b, w.wordAddr⟩ }.done)
/-- ECPL.arr (R372): the pending action arrives at the team's phase. -/
def execEcplArr (f : FmtE) (s : State) : Out :=
  sysWord (.ecplArr f) s (fun c k w =>
    (s.idemLost w.team).setWave c k { w with ecpl := some ⟨true, f.flags.getLsbD 4, 0, [], w.wordAddr⟩ }.done)

/-! ### Engine accesses to global memory (R282, R350, R364) -/

/-- Cut [va, va + n) at the lines it crosses: `k` bounds the pieces. -/
def linePieces (va : W64) : Nat → Nat → List (W64 × Nat)
  | 0, _ => []
  | k + 1, n =>
    if n = 0 then []
    else
      let m := min n (128 - va.toNat % 128)
      (va, m) :: linePieces (va + BitVec.ofNat 64 m) k (n - m)
def piecesOf (va : W64) (n : Nat) : List (W64 × Nat) := linePieces va (n / 128 + 2) n

/-- Translate the pages of some ranges for a cluster: the state after it, and the pages or the first failure. -/
def State.engPages (s : State) (cl : Nat) (i : Intent) (ranges : List (W64 × Nat)) : State × Except (W64 × XErr) (List EngPage) :=
  (ranges.flatMap (fun r => piecesOf r.1 r.2)).foldl (fun (r : State × Except (W64 × XErr) (List EngPage)) p =>
    match r.2 with
    | .error _ => r
    | .ok ps =>
      let vp := p.1.toNat / 4096
      if ps.any (fun x => decide (x.vp = vp)) then r
      else
        match r.1.translate cl p.1 i with
        | .error e => (r.1.touchTlb cl p.1, .error (p.1, e))
        | .ok x =>
          if x.kind = .ts then (r.1.touchTlb cl p.1, .error (p.1, ⟨0x07, 0, 0⟩))
          else (r.1.touchTlb cl p.1, .ok (ps ++ [⟨vp, x.pa / 4096⟩]))) (s, .ok [])

/-- The physical address of a byte on a translated page. -/
def pagesAt (ps : List EngPage) (va : W64) : Nat :=
  match ps.find? (fun p => decide (p.vp = va.toNat / 4096)) with
  | some p => p.pp * 4096 + va.toNat % 4096
  | none => 0

/-- What an engine read gives: the state, the bytes, and the address of the first bad piece. -/
structure EngRead where
  s : State
  bytes : List Byte
  bad : Option W64

/-- Read a range on translated pages by an engine of a core: its requests hold engine tags and no miss-status entry (R26). -/
def State.engRead (s : State) (core : Nat) (ps : List EngPage) (va : W64) (n : Nat) : EngRead :=
  (piecesOf va n).foldl (fun (r : EngRead) p =>
    let x := r.s.readThrough core (pagesAt ps p.1) p.2 none
    ⟨if x.2.2 then x.1.countErr (dieOfCore core) 2 else x.1, r.bytes ++ x.2.1, if x.2.2 then some (r.bad.getD p.1) else r.bad⟩)
    ⟨s, [], none⟩
/-- Read several ranges, one after the other. -/
def State.engReads (s : State) (core : Nat) (ps : List EngPage) (ranges : List (W64 × Nat)) : EngRead :=
  ranges.foldl (fun (r : EngRead) x =>
    let y := r.s.engRead core ps x.1 x.2
    ⟨y.s, r.bytes ++ y.bytes, if r.bad.isSome then r.bad else y.bad⟩) ⟨s, [], none⟩
/-- Write bytes on translated pages by an engine of a core. -/
def State.engWrite (s : State) (core : Nat) (ps : List EngPage) (va : W64) (bs : List Byte) : State :=
  ((piecesOf va bs.length).foldl (fun (r : State × Nat) p =>
    let pa := pagesAt ps p.1
    ((r.1.colEvict core (pa / 128)).homeWriteBytes pa ((bs.drop r.2).take p.2) (some (clusterOf core)), r.2 + p.2)) (s, 0)).1

/-- An engine fault: a translation's, or POISON where the launch traps it (R365). -/
def engFault (va : W64) (e : XErr) : PendRec := ⟨BitVec.ofNat 32 e.cause, deferStat 2 e.level e.sub, va⟩
def State.poisonFault (s : State) (team : Nat) (bad : Option W64) : Option PendRec :=
  bad.bind (fun va => if s.poisonTraps team then some ⟨0x12, deferStat 2 0 0, va⟩ else none)

/-! ### Rows of the commands -/

def off64 (a : W64) (n : Nat) : W64 := a + BitVec.ofNat 64 n
/-- The source rows of element `e` of a CPYIN (R367). -/
def CopyDesc.inRows (d : CopyDesc) (e : Nat) : List (W64 × Nat) :=
  (List.range d.rows).map (fun r => (off64 d.addr (e * d.step + r * d.stride), d.rowBytes))
    ++ (List.range d.srows).map (fun r => (off64 d.addr2 (e * d.step2 + r * d.stride2), d.srowBytes))
/-- The destination rows of element `e` of a CPYOUT (R368). -/
def CopyDesc.outRows (d : CopyDesc) (e : Nat) : List (W64 × Nat) :=
  (List.range d.rows).map (fun r => (off64 d.addr (e * d.step + r * d.stride), d.rowBytes))
/-- The source and destination rows of a CPYG (R368). -/
def CopyDesc.srcRows (d : CopyDesc) : List (W64 × Nat) :=
  (List.range d.rows).map (fun r => (off64 d.addr (r * d.stride), d.rowBytes))
def CopyDesc.dstRows (d : CopyDesc) : List (W64 × Nat) :=
  (List.range d.rows).map (fun r => (off64 d.addr2 (r * d.stride2), d.rowBytes))
/-- The rows a GATHER reads for one input element's records: none for an end marker (R370). -/
def GatherDesc.rowsFor (d : GatherDesc) (col : Bool) (elem : List Byte) : List (Option W64) :=
  (List.range (elem.length / 16)).map (fun i =>
    let x := (elem.drop (16 * i)).take 16
    if x.all (fun b => decide (b = 0xFF)) then none
    else some (off64 d.table (fieldOf x (if col then 4 else 0) 4 * d.stride)))
/-- The input elements of a command. -/
def State.inputElems (s : State) (c : Cmd) (chn : Nat) : List (List Byte) :=
  match s.team? c.team with
  | none => []
  | some t =>
    let ch := t.chan chn
    (List.range c.n).map (fun e => s.elemBytes t ch (BitVec.ofNat 32 (c.inFirst + e)) 0 ch.esize)

/-! ### Firing (R363) -/

/-- Take the pages of a fired command, or its deferred fault. -/
def Cmd.took (c : Cmd) (r : Except (W64 × XErr) (List EngPage)) (write : Bool) : Cmd :=
  match r with
  | .ok ps => if write then { c with wpages := ps } else { c with rpages := ps }
  | .error e => { c with fault := some (c.fault.getD (engFault e.1 e.2)) }

/-- A command fires: its pages are translated. -/
def State.fireCmd (s : State) (id : Nat) (c : Cmd) (reads writes : List (W64 × Nat)) : State :=
  let cl := clusterOf c.agent.core
  let r := s.engPages cl .read reads
  let q := r.1.engPages cl .engWrite writes
  { q.1 with cmds := Tbl.set q.1.cmds id { ((c.took r.2 false).took q.2 true) with stage := .fired } }

/-- Reserve a fired command's output elements and leave the channel's queue (R363). -/
def State.takeOutputs (s : State) (team ch id n : Nat) : State := s.updChan team ch (fun x => (x.reserve n).leave id)

/-- The wave's request behind a command. -/
def Req.isCmd (q : Req) (id : Nat) : Bool := match q.ret with | .cmd n _ _ => decide (n = id) | _ => false
/-- The wave's request behind a command may act: its own release goes first (R59, R316, R341). -/
def State.cmdMaySend (s : State) (id : Nat) (c : Cmd) : Option State :=
  match c.agent with
  | .stream _ => some s
  | .wave core slot =>
    match s.wave? core slot with
    | none => some s
    | some w =>
      match w.reqs.find? (fun q => q.isCmd id) with
      | none => some s
      | some q => if w.maySend q then some (s.sendReq core slot w q) else none

/-- A request that releases and has not done its column action. -/
def Req.toRelease (r : Req) : Bool := !r.sent && (decide (r.sem = 2) || decide (r.sem = 3))
/-- The request behind a PUBLISH of a wave. -/
def State.isPublish (s : State) (r : Req) : Bool :=
  s.cmds.any (fun x => r.isCmd x.1 && (match x.2.kind with | .publish _ _ => true | _ => false))
/-- The wave's requests before the one behind a command. -/
def Wave.beforeCmd (w : Wave) (id : Nat) : List Req := w.reqs.takeWhile (fun q => !q.isCmd id)

/-- An engine command may fire as far as its wave's program order goes: every earlier acquire of the wave has taken place, and every
earlier release has done its column action, so that what the release covers is seen (R343, R350); a release of BARR at cluster scope or
wider is done when its arrival counts (R467). A PUBLISH that has not fired holds a later command only until the wave's accesses before
the PUBLISH are complete, for commands on disjoint channels fire in any order (R363). -/
def State.cmdOrdered (s : State) (id : Nat) (c : Cmd) : Bool :=
  match c.agent with
  | .stream _ => true
  | .wave core slot =>
    match s.wave? core slot with
    | none => true
    | some w =>
      match w.reqs.find? (fun q => q.isCmd id) with
      | none => true
      | some q => (w.beforeCmd id).all (fun r =>
            !r.acquires && (!r.toRelease || (s.isPublish r && (w.before r.id).all (fun x => !pathMemory x.path))))
          && w.arrivals.all (fun a => decide (a.lvl = 0) || decide (q.id < a.after))
/-- What a command does before it fires for a PUBLISH of its wave that has not: the column action of that release, so that it sees the
wave's accesses before the PUBLISH (R350). -/
def State.cmdRelease (s : State) (id : Nat) (c : Cmd) : State :=
  match c.agent with
  | .stream _ => s
  | .wave core slot =>
    match s.wave? core slot with
    | none => s
    | some w =>
      if w.reqs.any (fun q => q.isCmd id) && (w.beforeCmd id).any (fun r => r.toRelease && s.isPublish r) then
        s.releaseFor core slot (s.paired w.team) 3
      else s

/-- The engine tags that the fired commands of a core hold; 512 may be held (R16, R26). -/
def State.tagsHeld (s : State) (core : Nat) : Nat :=
  ((s.cmds.filter (fun r => decide (r.2.agent.core = core))).map (fun r => r.2.tags)).sum

/-- PUBLISH may fire: every command and MST it waits for has ended (R371). -/
def State.publishReady (s : State) (team : Nat) (waits : List Nat) : Bool :=
  waits.all (fun i =>
    (match Tbl.get? s.cmds i with | some c => decide (c.stage = .done) | none => true)
    && !s.streams.any (fun r => decide (r.2.team = team) && r.2.xferQ.any (fun q => decide (q.id = i))))

/-- ENGINE_FIRE (R363): a command fires at the head of its channels' queues, its inputs committed and its room free. -/
def execEngineFire (id : Nat) (s : State) : Out :=
  match Tbl.get? s.cmds id with
  | none => .next s
  | some c =>
    if c.stage ≠ .issued ∨ !s.cmdOrdered id c ∨ !s.ctxRuns c.team then .next s
    else
      let x := s.chan c.team c.ch
      let r := s.cmdRelease id c
      match c.kind with
      | .cpyin d _ =>
        if x.heads id && x.outputReady c.n then
          .next ((r.fireCmd id { c with outFirst := x.res.toNat } ((List.range c.n).flatMap d.inRows) []).takeOutputs c.team c.ch id c.n)
        else .next s
      | .cpyout d =>
        if x.heads id && x.inputReady c.n then
          .next (r.fireCmd id { c with inFirst := x.acq.toNat } [] ((List.range c.n).flatMap d.outRows))
        else .next s
      | .cpyg d => .next (r.fireCmd id c d.srcRows d.dstRows)
      | .idxwalk _ =>
        if x.heads id && x.outputReady 1 then
          .next (State.updChan { r with cmds := Tbl.set r.cmds id { c with stage := .fired } } c.team c.ch (fun x => x.leave id))
        else .next s
      | .gather d _ col =>
        let y := s.chan c.team c.ch2
        if x.heads id && y.heads id && x.outputReady c.n && y.inputReady c.n then
          let c := { c with outFirst := x.res.toNat, inFirst := y.acq.toNat }
          let rows := ((s.inputElems c c.ch2).flatMap (d.rowsFor col)).filterMap (fun r => r.map (fun a => (a, d.rowBytes)))
          .next ((r.fireCmd id c rows []).takeOutputs c.team c.ch id c.n)
        else .next s
      | .publish _ _ => .next s
      | .launch _ _ _ => .next s
      | .rsub _ _ _ => .next s

/-! ### Completion (R364, R365) -/

/-- A command has done its work: its fault is deferred, or its completion action runs and may hold it until its deposit
performs. -/
def State.finishCmd (s : State) (id : Nat) (c : Cmd) (fault : Option PendRec) : State :=
  let s := if c.kind.engine then s.pmcCount c.agent.core 0x15 1 c.team else s
  let put := fun (s : State) (st : CmdStage) => { s with cmds := Tbl.set s.cmds id { c with stage := st, tags := 0, ecpl := none } }
  match fault with
  | some r => put (s.deferTo c.agent c.team r) .done
  | none =>
    match c.ecpl with
    | none => put s .done
    | some e =>
      let r := s.runEcpl c.agent c.team e id
      put r.1 (if r.2 then .acting else .done)

/-- Inputs of a completed command are consumed, unless kept, and their channel's queue is left (R363). -/
def State.freeInputs (s : State) (team ch id n : Nat) (keep : Bool) : State :=
  s.updChan team ch (fun x => (if keep then x else x.consume n).leave id)
/-- Write and commit the output elements of a command (R364). -/
def State.putOutputs (s : State) (c : Cmd) (elems : List (List Byte)) : State :=
  match s.team? c.team with
  | none => s
  | some t =>
    let ch := t.chan c.ch
    let s := (List.range elems.length).foldl (fun s e =>
      s.elemWrite t ch (BitVec.ofNat 32 (c.outFirst + e)) 0 (elems.getD e [])) s
    s.updChan c.team c.ch (fun x => x.commit (BitVec.ofNat 32 c.outFirst) elems.length)
/-- Elements of zeros, for a faulted command (R365). -/
def State.zeroElems (s : State) (c : Cmd) : List (List Byte) :=
  List.replicate c.n (List.replicate (s.chan c.team c.ch).esize 0)

/-- Expand an assembled slab into the BF16 slab of the same layout, with its SATURATE count (R367). -/
def expandSlab (o : OpCode) (slab : List Byte) (byLine : Bool) : List Byte × Nat :=
  let x := ofBytes slab
  let order : List (Nat × Nat) :=
    if byLine then (List.range 64).flatMap (fun l => (List.range 32).map (fun k => (l, k)))
    else (List.range 32).flatMap (fun k => (List.range 64).map (fun l => (l, k)))
  let es := order.map (fun p => o.slabElem x p.1 p.2 byLine)
  (es.flatMap (fun e => bytesOf 2 (Fmt.bf16.convert .rne (e.1.getD 0 (.fin false 0))).code), (es.filter (fun e => e.2)).length)

/-- The elements of a CPYIN: the state after its reads, the elements, and its fault. -/
def State.cpyinElems (s : State) (c : Cmd) (d : CopyDesc) (layb : Bool) : State × List (List Byte) × Option PendRec :=
  let core := c.agent.core
  let r := (List.range c.n).foldl (fun (r : State × List (List Byte) × Option W64) e =>
    let y := r.1.engReads core c.rpages (d.inRows e)
    (y.s, r.2.1 ++ [y.bytes], if r.2.2.isSome then r.2.2 else y.bad)) (s, [], none)
  match s.poisonFault c.team r.2.2 with
  | some f => (r.1, s.zeroElems c, some f)
  | none =>
    if d.conv = 0 then (r.1, r.2.1, none)
    else
      match opCode d.fmtc with
      | none => (r.1, r.2.1, none)
      | some o =>
        let es := r.2.1.map (fun b => expandSlab o b (!layb))
        let n := (es.map (fun e => e.2)).sum
        (if n = 0 then r.1 else r.1.count 5 (dieOfCore core) 7 n, es.map (fun e => e.1), none)

/-- A byte of a CPYG source that the command also writes holds its old or its new value, which is not specified (R368): follow
the writes back `k` times at most. `from` gives the source byte of a written place. -/
def mixedByte (s : State) (src : Nat → Option Nat) (old : Nat → Byte) : Nat → Nat → Byte
  | 0, pa => old pa
  | k + 1, pa =>
    match src pa with
    | some p => if s.flip (940000 + pa) then mixedByte s src old k p else old pa
    | none => old pa

/-- The work of a CPYG: its state and its fault. -/
def State.cpygWork (s : State) (c : Cmd) (d : CopyDesc) : State × Option PendRec :=
  let core := c.agent.core
  let r := s.engReads core c.rpages d.srcRows
  match s.poisonFault c.team r.bad with
  | some f => (r.s, some f)
  | none =>
    let place := fun (ps : List EngPage) (rows : List (W64 × Nat)) =>
      rows.flatMap (fun x => (List.range x.2).map (fun i => pagesAt ps (off64 x.1 i)))
    let bytes :=
      if c.rpages.any (fun p => c.wpages.any (fun q => decide (p.pp = q.pp))) then
        let from_ := place c.rpages d.srcRows
        let to_ := place c.wpages d.dstRows
        let pairs : Tbl Nat := (List.range to_.length).foldl (fun t i => Tbl.set t (to_.getD i 0) (from_.getD i 0)) []
        let olds : Tbl Byte := (List.range from_.length).foldl (fun t i => Tbl.set t (from_.getD i 0) (r.bytes.getD i 0)) []
        from_.map (fun pa => mixedByte s (Tbl.get? pairs) (fun p => Tbl.getD olds p 0) from_.length pa)
      else r.bytes
    ((List.range d.rows).foldl (fun s i =>
      s.engWrite core c.wpages (off64 d.addr2 (i * d.stride2)) ((bytes.drop (i * d.rowBytes)).take d.rowBytes)) r.s, none)

/-- An engine consumes input elements in which an uncorrectable error lies: zeros, counted, or under POISONTRAP the deferred fault
(R291, R365). The failing address is that of a store without addresses of its own, 0 (log entry 114). -/
def State.takeInputs (s : State) (c : Cmd) (chn : Nat) : State × Option PendRec :=
  match s.team? c.team with
  | none => (s, none)
  | some t =>
    let ch := t.chan chn
    if (List.range c.n).any (fun e => s.elemBad t ch (BitVec.ofNat 32 (c.inFirst + e)) 0 ch.esize) then
      let s := s.countErr (dieOfCore c.agent.core) 2
      (s, s.poisonFault c.team (some 0))
    else (s, none)
/-- The work of a CPYOUT: each element's rows are written. -/
def State.cpyoutWork (s : State) (c : Cmd) (d : CopyDesc) : State × Option PendRec :=
  let p := s.takeInputs c c.ch
  if p.2.isSome then p
  else
    let es := s.inputElems c c.ch
    ((List.range es.length).foldl (fun s e =>
      let b := es.getD e []
      (List.range d.rows).foldl (fun s r =>
        s.engWrite c.agent.core c.wpages (off64 d.addr (e * d.step + r * d.stride)) ((b.drop (r * d.rowBytes)).take d.rowBytes)) s) p.1,
      none)

/-- The elements of a GATHER. -/
def State.gatherElems (s : State) (c : Cmd) (d : GatherDesc) (col : Bool) : State × List (List Byte) × Option PendRec :=
  let p := s.takeInputs c c.ch2
  let s := p.1
  let r := (s.inputElems c c.ch2).foldl (fun (r : State × List (List Byte) × Option W64) b =>
    let y := (d.rowsFor col b).foldl (fun (y : EngRead) a =>
      match a with
      | none => ⟨y.s, y.bytes ++ List.replicate d.rowBytes 0, y.bad⟩
      | some va =>
        let z := y.s.engRead c.agent.core c.rpages va d.rowBytes
        ⟨z.s, y.bytes ++ z.bytes, if y.bad.isSome then y.bad else z.bad⟩) (⟨r.1, [], r.2.2⟩ : EngRead)
    (y.s, r.2.1 ++ [y.bytes], y.bad)) (s, [], none)
  match p.2.or (s.poisonFault c.team r.2.2) with
  | some f => (r.1, s.zeroElems c, some f)
  | none => (r.1, r.2.1, none)

/-! ### IDXWALK (R369) -/

/-- A read of an IDXWALK, translated as it is made: the state, the bytes, and its fault. -/
def State.walkBytes (s : State) (c : Cmd) (va : W64) (n : Nat) : State × List Byte × Option PendRec :=
  let p := s.engPages (clusterOf c.agent.core) .read [(va, n)]
  match p.2 with
  | .error e => (p.1, [], some (engFault e.1 e.2))
  | .ok ps =>
    let r := p.1.engRead c.agent.core ps va n
    (r.s, r.bytes, s.poisonFault c.team r.bad)

/-- The entries of a CSR mask by row: row, first position in the column array, count. -/
def csrRows (ptr : List Byte) (nrows : Nat) : List (Nat × Nat × Nat) :=
  ((List.range nrows).map (fun r =>
    let a := fieldOf ptr (4 * r) 4
    (r, a, fieldOf ptr (4 * r + 4) 4 - a))).filter (fun x => decide (0 < x.2.2))
/-- The row and position of entry `g`. -/
def csrEntry : List (Nat × Nat × Nat) → Nat → Nat × Nat
  | [], _ => (0, 0)
  | (r, a, n) :: rest, g => if g < n then (r, a + g) else csrEntry rest (g - n)

/-- One element of an IDXWALK: the state after its reads, the element, whether it is the last, and a fault. -/
def State.idxElem (s : State) (c : Cmd) (d : IndexDesc) : State × List Byte × Bool × Option PendRec :=
  let esize := (s.chan c.team c.ch).esize
  let per := esize / 16
  let csr := decide (d.form = 0)
  let p := if csr then s.walkBytes c d.ptr (4 * (d.count + 1)) else (s, [], none)
  match p.2.2 with
  | some f => (p.1, [], true, some f)
  | none =>
    let rows := csrRows p.2.1 d.count
    let total := if csr then (rows.map (fun r => r.2.2)).sum else d.count
    let lo := d.part * total / d.parts
    let m := (d.part + 1) * total / d.parts - lo
    let last := decide (m / per ≤ c.progress)
    let js := ((List.range per).map (fun i => c.progress * per + i))
    let r := js.foldl (fun (r : State × List Byte × Option PendRec) j =>
      if r.2.2.isSome then r
      else if m ≤ j then (r.1, r.2.1 ++ List.replicate 16 0xFF, none)
      else
        let g := lo + j
        let at_ := csrEntry rows g
        let x := if csr then r.1.walkBytes c (off64 d.idx (4 * at_.2)) 4 else r.1.walkBytes c (off64 d.ptr (8 * g)) 8
        let row := if csr then at_.1 else fieldOf x.2.1 0 4
        let col := if csr then fieldOf x.2.1 0 4 else fieldOf x.2.1 4 4
        (x.1, r.2.1 ++ bytesOf 4 row ++ bytesOf 4 col ++ bytesOf 4 g ++ bytesOf 4 j, x.2.2)) (p.1, [], none)
    (r.1, r.2.1, last, r.2.2)

/-- One step of a fired IDXWALK: reserve an element, fill it, commit it; the last one ends the command (R363, R369). -/
def State.idxStep (s : State) (id : Nat) (c : Cmd) (d : IndexDesc) : State :=
  let ch := s.chan c.team c.ch
  if !ch.outputReady 1 then s
  else
    let r := s.idxElem c d
    let c := { c with outFirst := ch.res.toNat, progress := c.progress + 1, tags := 0 }
    let elem := if r.2.2.2.isSome then List.replicate ch.esize 0 else r.2.1
    let s := (r.1.updChan c.team c.ch (fun x => x.reserve 1)).putOutputs c [elem]
    if r.2.2.1 || r.2.2.2.isSome then s.finishCmd id c r.2.2.2 else { s with cmds := Tbl.set s.cmds id c }

/-- How many requests some ranges make: one for each piece of a line (R364). -/
def requestsOf (ranges : List (W64 × Nat)) : Nat := (ranges.map (fun r => (piecesOf r.1 r.2).length)).sum
/-- How many requests the work of a fired command makes, each of which needs a tag: its rows, or for an IDXWALK the entries of one element
and a CSR mask's row array. -/
def State.cmdRequests (s : State) (c : Cmd) : Nat :=
  match c.kind with
  | .cpyin d _ => requestsOf ((List.range c.n).flatMap d.inRows)
  | .cpyout d => requestsOf ((List.range c.n).flatMap d.outRows)
  | .cpyg d => requestsOf d.srcRows + requestsOf d.dstRows
  | .gather d _ col =>
    requestsOf (((s.inputElems c c.ch2).flatMap (d.rowsFor col)).filterMap (fun r => r.map (fun a => (a, d.rowBytes))))
  | .idxwalk d => (s.chan c.team c.ch).esize / 16 + (if d.form = 0 then requestsOf [(d.ptr, 4 * (d.count + 1))] else 0)
  | _ => 0
/-- A fired command makes requests: it copies, gathers or walks, its translation stands, and an IDXWALK has room; a GATHER of end markers alone
makes none. Without a free
engine tag they wait at the engine (R26). -/
def State.wantsTag (s : State) (c : Cmd) : Bool :=
  decide (c.tags = 0) && c.kind.engine && c.fault.isNone &&
    match c.kind with
    | .idxwalk _ => (s.chan c.team c.ch).outputReady 1
    | .gather _ _ _ => decide (0 < s.cmdRequests c)
    | _ => true
/-- A fired command takes engine tags for the requests it has in flight, at least one and no more than it makes or than are free, which is
not stated otherwise; with none free its requests wait at the engine, counted (R26, R484). -/
def State.takeTag (s : State) (id : Nat) (c : Cmd) : State :=
  if s.tagsHeld c.agent.core < 512 then
    let most := min (s.cmdRequests c) (512 - s.tagsHeld c.agent.core)
    { s with cmds := Tbl.set s.cmds id { c with tags := 1 + s.choose 70264 most } }
  else s.pmcCount c.agent.core 0x16 1 c.team

/-- A fired command still translates: an IDXWALK, and the deposit of a completion action (R365, R369). -/
def Cmd.translates (c : Cmd) : Bool := c.ecpl.isSome || (match c.kind with | .idxwalk _ => true | _ => false)
/-- ENGINE_COMPLETE (R364, R365): a fired command takes an engine tag; then its accesses perform, its elements are committed and
released, and it ends. -/
def execEngineComplete (id : Nat) (s : State) : Out :=
  match Tbl.get? s.cmds id with
  | none => .next s
  | some c =>
    if c.stage ≠ .fired ∨ (c.translates && !s.ctxRuns c.team) then .next s
    else if s.wantsTag c then .next (s.takeTag id c)
    else
      match c.kind with
      | .cpyin d layb =>
        let r := if c.fault.isSome then (s, s.zeroElems c, c.fault) else s.cpyinElems c d layb
        .next ((r.1.putOutputs c r.2.1).finishCmd id c r.2.2)
      | .cpyout d =>
        let r := if c.fault.isSome then (s, c.fault) else s.cpyoutWork c d
        .next ((r.1.freeInputs c.team c.ch id c.n false).finishCmd id c r.2)
      | .cpyg d =>
        let r := if c.fault.isSome then (s, c.fault) else s.cpygWork c d
        .next (r.1.finishCmd id c r.2)
      | .gather d keep col =>
        let r := if c.fault.isSome then (s, s.zeroElems c, c.fault) else s.gatherElems c d col
        .next (((r.1.putOutputs c r.2.1).freeInputs c.team c.ch2 id c.n keep).finishCmd id c r.2.2)
      | .idxwalk d => .next (s.idxStep id c d)
      | .publish _ _ => .next s
      | .launch _ _ _ => .next s
      | .rsub _ _ _ =>
        if c.progress = 1 && (c.fault.isSome || (s.team? c.team).isSome) then .next (s.finishCmd id c c.fault) else .next s

/-- PUBLISH_FLIP (R371, R424): a PUBLISH whose waits are over fires: the release at device scope, the flip of the entry in
every cluster, and the command's end; an entry made invalid since its issue is a deferred PROTECTION fault instead. -/
def execPublishFlip (id : Nat) (s : State) : Out :=
  match Tbl.get? s.cmds id with
  | none => .next s
  | some c =>
    match c.kind with
    | .publish b waits =>
      if c.stage ≠ .issued ∨ !s.publishReady c.team waits then .next s
      else
        let x := s.buffer b
        if !x.valid || decide (c.progress = 1) then .next (s.finishCmd id c (some ⟨0x06, deferStat 2 0 0, BitVec.ofNat 64 ((c.rpages.headD ⟨0, 0⟩).vp * 4096)⟩))
        else
          match s.cmdMaySend id c with
          | none => .next s
          | some s =>
            .next (State.finishCmd { s with buffers := Tbl.put s.buffers b Buffer.invalid { x with cur := !x.cur } } id c none)
    | _ => .next s

/-! ### LAUNCH (R376, R377) -/

def State.lq (s : State) (q : Nat) : LQueue := Tbl.getD s.lqs q LQueue.off
def State.setLq (s : State) (q : Nat) (x : LQueue) : State := { s with lqs := Tbl.put s.lqs q LQueue.off x }

/-- LAUNCH (R377): the record's page is checked at issue; its release and its steps follow under the EN counter. -/
def execLaunch (f : FmtQ) (s : State) : Out :=
  sysWord (.launch f) s (fun c k w =>
    let va := w.readS64 f.sa.toNat
    let q := f.imm.toNat % 64
    if va.toNat % 256 ≠ 0 then s.trapAt c k w { cause := 0x04, eaddr := va, fm := w.trapMask }
    else if !(s.lq q).enable then s.trapAt c k w (w.protTrap 0)
    else
      match s.translate (clusterOf c) va .read with
      | .error e => (s.touchFault c va e).trapAt c k w { cause := e.cause, sub := e.sub, level := e.level, eaddr := va, fm := w.trapMask }
      | .ok x =>
        if x.kind = .ts then (s.touchTlb (clusterOf c) va).trapAt c k w { cause := 0x07, eaddr := va, fm := w.trapMask }
        else
          (s.touchTlb (clusterOf c) va).issueCmd c k w
            { Cmd.fresh c k w (.launch q va f.qd.toNat) 0 0 0 s.win.ctxid with rpages := [⟨va.toNat / 4096, x.pa / 4096⟩] } [] false
            true 2)

/-- A read that the queues make at a line's home recalls what update-only bits hold of it (R328); an address that names no byte has no
home. -/
def State.homeRead (s : State) (pa : Nat) : State := if s.backed pa then s.homeTouch (pa / 128) else s
/-- A control line is read at its home. -/
def State.ctlRead (s : State) (q : Nat) : State := s.homeRead (s.lq q).ctl.toNat
/-- An 8-byte word of a control line at its home. -/
def State.ctlWord (s : State) (q off : Nat) : Nat := ofBytes ((s.homeBytes ((s.lq q).ctl.toNat + off) 8).1)
/-- A write of the queues' own at a physical address; one that names no byte has no place to go. -/
def State.devWrite (s : State) (pa : Nat) (bs : List Byte) : State := if s.backed pa then s.homeWriteBytes pa bs none else s
/-- A write to a control line: the Regulator's copy of it is invalidated (R376). -/
def State.ctlWrite (s : State) (q off x : Nat) : State :=
  let s := s.devWrite ((s.lq q).ctl.toNat + off) (bytesOf 8 x)
  s.setLq q { s.lq q with fresh := false }
/-- Byte address of the slot of record `n` (R375). -/
def LQueue.slot (x : LQueue) (n : Nat) : Nat := x.base.toNat + 256 * (n % x.size.toNat)

/-- The sequence number of a LAUNCH is known: it is on its way to SD (R106, R377). -/
def State.knowSeqno (s : State) (id : Nat) (c : Cmd) (n : Nat) : State :=
  match c.agent with
  | .stream _ => s
  | .wave core slot => s.updWave core slot (fun w => { w with reqs := w.reqs.map (fun q =>
      match q.ret with
      | .cmd m sd _ => if m = id then { q with ret := .cmd m sd (some (BitVec.ofNat 32 n)) } else q
      | _ => q) })

/-- LAUNCH_ENQUEUE (R376): the next of LAUNCH's steps that can be taken: reserve, write the record, raise TAIL. -/
def execLaunchEnqueue (id : Nat) (s : State) : Out :=
  match Tbl.get? s.cmds id with
  | none => .next s
  | some c =>
    match c.kind with
    | .launch q va _ =>
      (match c.stage with
      | .issued =>
        (match s.cmdMaySend id c with
        | none => .next s
        | some s =>
          let r := if c.recBytes.isEmpty then
              (let y := s.engRead c.agent.core c.rpages va 256; (y.s, y.bytes)) else (s, c.recBytes)
          let s := r.1
          let s := s.ctlRead q
          let n := s.ctlWord q 0
          let s := s.ctlWrite q 0 ((n + 1) % 2 ^ 64)
          .next (State.knowSeqno { s with cmds := Tbl.set s.cmds id { c with stage := .fired, seqno := some n, recBytes := r.2 } } id c n))
      | .fired =>
        let n := c.seqno.getD 0
        let s := s.ctlRead q
        if c.progress = 0 then
          if (n + 2 ^ 64 - s.ctlWord q 0x10) % 2 ^ 64 < (s.lq q).size.toNat then
            let bytes := c.recBytes.take 0x3C ++ [0, 0, 0, 0] ++ c.recBytes.drop 0x40
            .next (State.devWrite { s with cmds := Tbl.set s.cmds id { c with progress := 1 } } ((s.lq q).slot n) bytes)
          else .next s
        else if s.ctlWord q 8 = n then
          let s := s.setLq q { s.lq q with kids := n :: (s.lq q).kids }
          .next (State.ctlWrite { s with cmds := Tbl.set s.cmds id { c with stage := .done } } q 8 ((n + 1) % 2 ^ 64))
        else .next s
      | _ => .next s)
    | _ => .next s

end Sys2Proof.Machine
end

