-- ==== Sys2Proof/Machine/Matrix.lean ====
section
/-! DEFINITION. The matrix sequencer's words (R216–R232) and the steps that run its queues: array words, transfers, MFMT, and the
power state of the quarters (R233). -/

namespace Sys2Proof.Machine

/-! ### m registers, format blocks, tags -/

def Stream.mreg (m : Stream) (k : Nat) : W32 := Tbl.getD m.m k 0
def Stream.setM (m : Stream) (k : Nat) (x : W32) : Stream := { m with m := Tbl.put m.m k 0 x }
/-- The 32 bytes of fb n. -/
def Stream.fbBlock (m : Stream) (n : Nat) : Nat := Mem.readN m.fb (32 * n) 32
def fbField (b off n : Nat) : Nat := b / 256 ^ off % 256 ^ n
def fbAddr (b : Nat) : W64 := BitVec.ofNat 64 (fbField b 0 8)
def fbBand (b : Nat) : W64 := BitVec.ofNat 64 (fbField b 8 8)
def fbStride (b : Nat) : Nat := fbField b 0x10 4
def fbFmt (b : Nat) : Nat := fbField b 0x14 1
def fbRnd (b : Nat) : RMode := rmode (fbField b 0x15 1 % 4)
/-- Every reserved field of a block is zero (R214); bits 7:6 of FMT are reserved too. -/
def fbOk (b : Nat) : Bool := decide (fbFmt b < 64) && decide (fbField b 0x15 1 < 4) && decide (fbField b 0x16 10 = 0)
/-- BANDADDR agrees with FMT (R214). -/
def fbBandOk (b : Nat) : Bool :=
  match opCode (fbFmt b) with
  | some o => decide (fbBand b = 0) != o.band
  | none => true
/-- An MFMT of one of these blocks has not completed (R217). -/
def Stream.fbPending (m : Stream) (ns : List Nat) : Bool := m.mfmt.any (fun x => decide (x.1 ∈ ns))

/-! ### The order of words on slots (R217, R409) -/

def QWord.slots (q : QWord) : List Nat :=
  if q.op = 0xDA then ((run q.row0 (q.nrow + 1)).map (fun r => q.f.tile.toNat + r / 16)).eraseDups
  else slotsOf q.f.tile.toNat q.f.accf.toNat
def QWord.writes (q : QWord) : List Nat := if q.op = 0xA5 ∨ q.op = 0xDA then [] else q.slots
def QWord.reads (q : QWord) : List Nat :=
  if q.op = 0xA6 then slotsOf (mcvtSrc q.f) (mcvtFmt q.f)
  else if q.op = 0xA2 ∨ q.op = 0xA3 ∨ q.op = 0xA5 ∨ q.op = 0xDA then q.slots
  else []
def meets (a b : List Nat) : Bool := a.any (fun x => decide (x ∈ b))
/-- The slots a chain's reserved rows lie in. -/
def Chain.slots (c : Chain) : List Nat := (run c.row0 (c.nrow + 1)).map (fun r => c.tile + r / 16)
/-- A word may begin: no earlier word of the other queue conflicts with it, and no earlier reservation waits on its slots. -/
def State.mayBegin (s : State) (core : Nat) (m : Stream) (q : QWord) : Bool :=
  ((m.arrayQ ++ m.xferQ).filter (fun e => decide (e.id < q.id))).all (fun e =>
    !meets e.writes (q.reads ++ q.writes) && !meets e.reads q.writes)
  && (s.core core).chains.all (fun r => !decide (r.2.state = .reserved) || decide (r.2.remain = 0) || decide (q.id < r.2.stamp)
    || !meets r.2.slots (q.reads ++ q.writes))

/-! ### Gear train additions at the destination (R409, R412, R413) -/

def State.chain (s : State) (core c : Nat) : Chain := Tbl.getD (s.core core).chains c Chain.free
def State.setChain (s : State) (core c : Nat) (x : Chain) : State :=
  let q := s.core core
  s.setCore core { q with chains := Tbl.put q.chains c Chain.free x }
/-- Add a row of 64 FP32 values into the tile row of a chain, element by element (R79, R412). -/
def State.addRow (s : State) (core : Nat) (x : Chain) (row : Nat) (data : List W32) : State :=
  s.tileWrite core x.tile 0 ((List.range 64).map (fun j =>
    (row, j, accStep .f32 (s.tileElem core x.tile 0 row j) [f32Val (data.getD j 0)])))
/-- No earlier word of the stream still reads or writes the slots of a chain's reserved rows (R409). -/
def State.chainOpen (s : State) (core : Nat) (x : Chain) : Bool :=
  match s.stream? core with
  | some m => (m.arrayQ ++ m.xferQ).all (fun q => !decide (q.id < x.stamp) || !meets x.slots (q.reads ++ q.writes))
  | none => true
/-- Contributions of one row in ascending source core, equal sources in arrival order (R412). -/
def bySource (hs : List Held) : List Held :=
  (List.range 192).flatMap (fun c => hs.filter (fun h => decide (h.src = c)))
/-- The sorted rows of a chain that hold all their contributions are added (R412). -/
def State.settleChain (s : State) (core c : Nat) : State :=
  let x := s.chain core c
  if x.state ≠ .reserved ∨ !x.sorted ∨ !s.chainOpen core x then s
  else
    (run x.row0 (x.nrow + 1)).foldl (fun s r =>
      let x := s.chain core c
      let hs := x.held.filter (fun h => decide (h.row = r))
      if hs.length < x.count ∨ x.count = 0 then s
      else
        let s := (bySource hs).foldl (fun s h =>
          let s := if h.dropped then s else (s.addRow core x r h.data).pmcCount core 0x18 1 (((s.stream? core).map (fun m => m.team)).getD 0)
          match s.stream? core with
          | some m => s.phaseArrive m.team m.pos .gt
          | none => s) s
        s.setChain core c { x with remain := x.remain - x.count, held := x.held.filter (fun h => !decide (h.row = r)) }) s
/-- Every addition of a core that may be made now. -/
def State.settleCore (s : State) (core : Nat) : State :=
  ((s.core core).chains.map (fun r => r.1)).foldl (fun s c => s.settleChain core c) s
/-- A stream that has met an error it is to stop for, or has stopped: what its queued words consume from then on is zero and counted
alone (R234, R236). -/
def Stream.stopping (m : Stream) : Bool := m.stopped || m.poisonPc.isSome
/-- The stop of R236 to come, for the word at `pc`. -/
def Stream.poisonAt (m : Stream) (pc addr : W64) : Stream := if m.stopping then m else { m with poisonPc := some (pc, addr) }
/-- A word that had to wait for a reservation in which a bad flit was dropped consumes it: under POISONTRAP the stream stops
(R413, R236). -/
def State.consumePoison (s : State) (core : Nat) (q : QWord) : State :=
  let hit := (s.core core).chains.filter (fun r =>
    r.2.poisoned && decide (r.2.stamp ≤ q.id) && meets r.2.slots (q.reads ++ q.writes))
  hit.foldl (fun s r =>
    (s.setChain core r.1 { r.2 with poisoned := false }).updStream core (fun m => m.poisonAt q.pc 0)) s

/-- A queue has its four entries taken: a word leaves its entry as it begins (R212). -/
def waiting4 (qs : List QWord) : Bool := decide (4 ≤ (qs.filter (fun q => !q.begun)).length)
def Stream.arrayFull (m : Stream) : Bool := waiting4 m.arrayQ
def Stream.xferFull (m : Stream) : Bool := waiting4 m.xferQ

/-- Put a word into one of the queues, its stream going on. -/
def State.pushArray (s : State) (core : Nat) (m : Stream) (q : QWord) : State :=
  State.setStream { s with nextId := s.nextId + 1 } core { m.done with arrayQ := m.arrayQ ++ [q] }
def State.pushXfer (s : State) (core : Nat) (m : Stream) (q : QWord) : State :=
  State.setStream { s with nextId := s.nextId + 1 } core { m.done with xferQ := m.xferQ ++ [q] }
def State.blockStream (s : State) (core : Nat) (m : Stream) (stage : Nat) : State :=
  s.setStream core { m with block := match m.block with
    | .word t _ w => .word t stage w
    | .none => .word s.time stage 0 }
def QWord.of (s : State) (op : Nat) (m : Stream) (f : FmtX) : QWord :=
  { id := s.nextId, op := op, pc := m.wordAddr, f := f, offs := 0, fbA := 0, fbB := 0, scale := 0, row0 := 0, nrow := 0, chain := 0,
    begun := false, sent := 0, start := 0, accs := [], ecpls := [], rowBad := [] }
def Stream.setTags (m : Stream) (slots : List Nat) (v : Nat) : Stream :=
  { m with tags := slots.foldl (fun t x => Tbl.put t x 0 v) m.tags }
/-- VALID of some slots' tags clears, PAIR staying as it is (R221). -/
def Stream.clearValid (m : Stream) (slots : List Nat) : Stream :=
  { m with tags := slots.foldl (fun t x => Tbl.put t x 0 (Tbl.getD t x 0 % 8)) m.tags }

/-- Bad data consumed by a stream's word: the count, and ERRSEEN, or in its place the stop of R236, once (R137). -/
def State.streamBad (s : State) (core : Nat) (m : Stream) (pc addr : W64) : State :=
  let s := s.countErr (dieOfCore core) 2
  if s.poisonTraps m.team then s.updStream core (fun x => x.poisonAt pc addr)
  else s.errSeenCore m.team core

/-! ### MFMT, MZERO (R220, R221) -/

/-- MFMT (R220): the block is read at issue and lands when MFMT completes. -/
def execMfmt (f : FmtX) (s : State) : Out :=
  seqWord (.mfmt f) s (fun c m =>
    match s.team? m.team with
    | none => s.streamTrap c m 0x06 0 0
    | some t =>
      let o := 8 * f.imm.toNat + (if f.flags.getLsbD 0 then (m.mreg f.cha.toNat).toNat else 0)
      if o % 32 ≠ 0 then s.streamTrap c m 0x04 0 (BitVec.ofNat 64 o)
      else if !t.fits o 32 then s.streamTrap c m 0x06 0 (BitVec.ofNat 64 o)
      else
        let s' := s.setStream c { m.done with mfmt := m.mfmt ++ [(f.fb.toNat, ofBytes (s.spadBytes t o 32))] }
        if s.badIn .scratch (scratchKey t.core (t.p + o)) 32 then s'.streamBad c m m.wordAddr 0 else s')

/-- MFMT_COMPLETE (R216): the oldest pending MFMT of a block lands. -/
def execMfmtComplete (core fb : Nat) (s : State) : Out :=
  match s.stream? core with
  | none => .next s
  | some m =>
    match m.mfmt.find? (fun x => decide (x.1 = fb)) with
    | none => .next s
    | some x => .next (s.setStream core { m with
        fb := Mem.writeN m.fb (32 * fb) 32 x.2
        mfmt := (m.mfmt.takeWhile (fun y => !decide (y.1 = fb))) ++ ((m.mfmt.dropWhile (fun y => !decide (y.1 = fb))).drop 1) })

/-- MZERO (R221). -/
def execMzero (f : FmtX) (s : State) : Out :=
  seqWord (.mzero f) s (fun c m =>
    if m.arrayFull then s.blockStream c m 0
    else s.pushArray c (m.clearValid (slotsOf f.tile.toNat f.accf.toNat)) (QWord.of s 0xA1 m f))

/-! ### MMA and MMAT (R222, R223) -/

/-- The quarters a word uses (R223). -/
def quartersOf (f : FmtX) : List Nat := (List.range 4).filter (fun q => !f.flags.getLsbD (4 + q))
/-- The gated quarters among some start to wake (R233). -/
def Stream.wake (m : Stream) (qs : List Nat) (now : Nat) : Stream :=
  { m with quarters := (List.range 4).map (fun q =>
      match m.quarters.getD q .gated with
      | .gated => if q ∈ qs then .waking now else .gated
      | x => x) }
/-- The trap of an MMA at issue, in the order of R235: cause and sub-code. -/
def State.mmaTrap (s : State) (c : Nat) (m : Stream) (f : FmtX) (a b : Nat) : Option (Nat × Nat) :=
  match s.team? m.team with
  | none => some (0x08, 0x22)
  | some t =>
    let ca := t.chan f.cha.toNat
    let cb := t.chan f.chb.toNat
    let n := f.ksteps.toNat + 1
    if !fbOk a || !fbOk b then some (0x09, 2)
    else
      match opCode (fbFmt a), opCode (fbFmt b) with
      | some oa, some ob =>
        if !fbBandOk a || !fbBandOk b then some (0x09, 5)
        else if !ca.defd || !cb.defd then some (0x08, 0x22)
        else if ca.esize ≠ oa.slab ∨ cb.esize ≠ ob.slab then some (0x09, 3)
        else if cb.back = 0 ∨ t.backCore cb ≠ c then some (0x08, 0x21)
        else if ca.cap < n ∨ cb.cap < n then some (0x08, 0x20)
        else none
      | _, _ => some (0x09, 1)

/-- Issue an MMA or MMAT: its blocks are captured and its tags written (R216, R222). -/
def State.mmaIssue (s : State) (op c : Nat) (m : Stream) (f : FmtX) : State :=
  let p := f.fb.toNat
  if m.fbPending [p, p + 1] then s.blockStream c m 0
  else
    let a := m.fbBlock p
    let b := m.fbBlock (p + 1)
    match s.mmaTrap c m f a b with
    | some e => s.streamTrap c m e.1 e.2 0
    | none =>
      if m.arrayFull then s.blockStream c m 0
      else
        let q := { QWord.of s op m f with fbA := a, fbB := b }
        let s := (s.updChan m.team f.cha.toNat (fun x => { x with queue := x.queue ++ [s.nextId] })).updChan m.team f.chb.toNat
          (fun x => { x with queue := x.queue ++ [s.nextId] })
        s.pushArray c ((m.setTags (slotsOf f.tile.toNat f.accf.toNat) (8 + p / 2)).wake (quartersOf f) s.ck) q

/-- MMA (R223). -/
def execMma (f : FmtX) (s : State) : Out := seqWord (.mma f) s (fun c m => s.mmaIssue 0xA2 c m f)
/-- MMAT (R223). -/
def execMmat (f : FmtX) (s : State) : Out := seqWord (.mmat f) s (fun c m => s.mmaIssue 0xA3 c m f)

def QWord.isMma (q : QWord) : Bool := decide (q.op = 0xA2) || decide (q.op = 0xA3)
def Stream.isAwake (m : Stream) (q : Nat) : Bool :=
  match m.quarters.getD q .gated with
  | .awake _ => true
  | _ => false
/-- Mark quarters busy now (R233). -/
def Stream.touchQuarters (m : Stream) (qs : List Nat) (now : Nat) : Stream :=
  { m with quarters := (List.range 4).map (fun q =>
      match m.quarters.getD q .gated with
      | .awake t => .awake (if q ∈ qs then now else t)
      | x => x) }

/-- Operand B passes through the row buffer: it holds the last row of the last slab (R24, R222). -/
def State.loadRow (s : State) (core : Nat) (t : Team) (c : Chan) (first n : Nat) : State :=
  let off := c.esize / 2048 * 2048
  let at_ := if off = c.esize then off - 2048 else off
  let x := s.core core
  s.setCore core { x with rowBuf := s.elemBytes t c (BitVec.ofNat 32 (first + n - 1)) at_ (c.esize - at_) }

/-- MMA_FIRE (R216, R222, R233): the head of the array queue fires, or, an MZERO or MCVT, begins; a gated quarter it uses starts to wake
first. The elements an MMA holds are noted by their first indices. -/
def execMmaFire (core : Nat) (s : State) : Out :=
  match s.stream? core with
  | none => .next s
  | some m =>
    match m.arrayQ with
    | [] => .next s
    | q :: rest =>
      let m := m.wake (if q.isMma then quartersOf q.f else []) s.ck
      let ca := s.chan m.team q.f.cha.toNat
      let cb := s.chan m.team q.f.chb.toNat
      let n := q.f.ksteps.toNat + 1
      if q.isMma && !q.begun && ca.heads q.id && cb.heads q.id && ca.inputReady n && cb.inputReady n
          && (quartersOf q.f).all m.isAwake && s.mayBegin core m q then
        let s' := s.setStream core { m.touchQuarters (quartersOf q.f) s.ck with
          arrayQ := { q with begun := true, start := s.ck, row0 := ca.acq.toNat, nrow := cb.acq.toNat } :: rest }
        let s' := match s.team? m.team with | some t => s'.loadRow core t cb cb.acq.toNat n | none => s'
        .next (s'.consumePoison core q)
      else if !q.isMma && !q.begun && s.mayBegin core m q then
        .next ((s.setStream core { m with arrayQ := { q with begun := true, start := s.ck } :: rest }).consumePoison core q)
      else .next (s.setStream core m)

/-- The contracted length of R223. -/
def contracted (f : FmtX) : Nat := 32 * f.ksteps.toNat + (if f.imm.toNat % 32 = 0 then 32 else f.imm.toNat % 32)
/-- The expanded values of one line (row of A or column of B) over k < K, and its saturations. -/
def lineValues (o : OpCode) (slabs : List Nat) (line k : Nat) (byLine : Bool) : List (List FVal × Bool) :=
  (List.range k).map (fun kk => o.slabElem (slabs.getD (kk / 32) 0) line (kk % 32) byLine)
/-- The slabs a word holds in a channel; the 64-bit words `bad` of them, counted over all the slabs, read as zero. -/
def State.slabs (s : State) (t : Team) (c : Chan) (first n : Nat) (bad : List Nat) : List Nat :=
  (List.range n).map (fun e =>
    let bs := s.elemBytes t c (BitVec.ofNat 32 (first + e)) 0 c.esize
    ofBytes (if bad.isEmpty then bs
      else (List.range bs.length).map (fun i => if bad.contains ((e * c.esize + i) / 8) then 0 else bs.getD i 0)))
/-- Whether the slabs meet an uncorrectable error. -/
def State.slabsBad (s : State) (t : Team) (c : Chan) (first n : Nat) : Bool :=
  (List.range n).any (fun e => s.elemBad t c (BitVec.ofNat 32 (first + e)) 0 c.esize)

/-- The sums of an MMA (R79, R223): the tile's new elements and the SATURATE count. -/
def State.mmaResult (s : State) (core : Nat) (t : Team) (q : QWord) : List (Nat × Nat × Nat) × Nat :=
  match opCode (fbFmt q.fbA), opCode (fbFmt q.fbB) with
  | some oa, some ob =>
    let n := q.f.ksteps.toNat + 1
    let k := contracted q.f
    let sa := s.slabs t (t.chan q.f.cha.toNat) q.row0 n []
    let sb := s.slabs t (t.chan q.f.chb.toNat) q.nrow n q.rowBad
    let trans := decide (q.op = 0xA3)
    let cols := (List.range 64).filter (fun j => j / 16 ∈ quartersOf q.f)
    let rows := (List.range 64).map (fun i => lineValues oa sa i k (!trans))
    let colv := cols.map (fun j => (j, lineValues ob sb j k trans))
    let accf := q.f.accf.toNat
    let order := passOrder oa.passes ob.passes
    let es := (List.range 64).flatMap (fun i => colv.map (fun b =>
      let acc := if q.f.flags.getLsbD 0 then 0 else s.tileElem core q.f.tile.toNat accf i b.1
      (i, b.1, accElem (accFmt accf) acc ((rows.getD i []).map (fun x => x.1)) (b.2.map (fun x => x.1)) order)))
    let sat := fun (ls : List (List (List FVal × Bool))) => (ls.map (fun l => (l.filter (fun x => x.2)).length)).sum
    (es, sat rows + sat (colv.map (fun b => b.2)))
  | _, _ => ([], 0)

/-- Whether an MMA consumes bad data: a slab's, the row buffer's, or, unless it zeroes its tile, the tile's (R236). -/
def State.mmaBad (s : State) (core : Nat) (t : Team) (q : QWord) : Bool :=
  let n := q.f.ksteps.toNat + 1
  !q.rowBad.isEmpty || s.slabsBad t (t.chan q.f.cha.toNat) q.row0 n || s.slabsBad t (t.chan q.f.chb.toNat) q.nrow n
    || (!q.f.flags.getLsbD 0 && s.tileBad core q.f.tile.toNat q.f.accf.toNat
        (tileCells.filter (fun x => (quartersOf q.f).contains (x.2 / 16))))

/-! ### MCVT (R229) -/

/-- MCVT (R229): the destination tags become the source slot's at issue. -/
def execMcvt (f : FmtX) (s : State) : Out :=
  seqWord (.mcvt f) s (fun c m =>
    if m.arrayFull then s.blockStream c m 0
    else
      let scale := if f.flags.getLsbD 0 then (m.mreg (f.imm.toNat / 256 % 16)).toNat else 0
      s.pushArray c (m.setTags (slotsOf f.tile.toNat f.accf.toNat) (Tbl.getD m.tags (mcvtSrc f) 0))
        { QWord.of s 0xA6 m f with scale := scale })
/-- FP32 value of an accumulator code, as bits. -/
def accToF32 (accf code : Nat) : W32 := f32Round .rne ((accFmt accf).value code)
/-- MCVT's elements, every source element read first. With equal formats and SCL = 0 the bits are copied but for a NaN, which becomes
canonical: the rule says both (R229; DESIGN CHOICE, log entry 131). -/
def State.mcvtResult (s : State) (core : Nat) (q : QWord) : List (Nat × Nat × Nat) :=
  let b := mcvtFmt q.f
  tileCells.map (fun ij =>
    let x := s.tileElem core (mcvtSrc q.f) b ij.1 ij.2
    let v := if q.f.flags.getLsbD 0 then
        f32Val (f32Round .rne (FVal.mul false (f32Val (accToF32 b x)) (f32Val (BitVec.ofNat 32 q.scale))))
      else (accFmt b).value x
    (ij.1, ij.2, ((accFmt q.f.accf.toNat).convert .rne v).code))

/-- ARRAY_WORD_END (R216, R222): the head of the array queue ends: its tile is written and its elements are released. -/
def execArrayWordEnd (core : Nat) (s : State) : Out :=
  match s.stream? core with
  | none => .next s
  | some m =>
    match m.arrayQ with
    | [] => .next s
    | q :: rest =>
      let pop := { m with arrayQ := rest }
      let accf := q.f.accf.toNat
      if q.isMma then
        match s.team? m.team with
        | none => .next s
        | some t =>
          if !q.begun then .next s
          else
            let r := s.mmaResult core t q
            let bad := s.mmaBad core t q
            let n := q.f.ksteps.toNat + 1
            let free := fun (keep : Bool) (x : Chan) => (if keep then x else x.consume n).leave q.id
            let s := (s.tileWrite core q.f.tile.toNat accf r.1).updChan m.team q.f.cha.toNat (free (q.f.flags.getLsbD 1))
            let s := s.updChan m.team q.f.chb.toNat (free (q.f.flags.getLsbD 2))
            let s := if r.2 = 0 then s else s.count 5 (dieOfCore core) 7 r.2
            let s := s.stepStream core (pop.touchQuarters (quartersOf q.f) s.ck)
            .next ((if bad then s.streamBad core m q.pc 0 else s).settleCore core)
      else if !q.begun && !s.mayBegin core m q then .next s
      else if q.op = 0xA1 then
        .next ((((s.tileWrite core q.f.tile.toNat accf (tileCells.map (fun x => (x.1, x.2, 0)))).stepStream core
          pop).consumePoison core q).settleCore core)
      else
        let bad := s.tileBad core (mcvtSrc q.f) (mcvtFmt q.f) tileCells
        let s := ((s.tileWrite core q.f.tile.toNat accf (s.mcvtResult core q)).stepStream core pop).consumePoison core q
        .next ((if bad then s.streamBad core m q.pc 0 else s).settleCore core)

/-! ### MLD and MST (R225–R228) -/

/-- Bits of a tile element in memory under a code. -/
def codeWidth (c : Nat) : Nat := match opCode c with | some o => o.elem.width | none => 0
/-- The 16-byte pieces of a memory tile, row by row (R227): virtual addresses. -/
def tilePieces (base : W64) (stride w : Nat) : List W64 :=
  (List.range 64).flatMap (fun i => (List.range (64 * w / 8 / 16)).map (fun p => base + BitVec.ofNat 64 (i * stride + 16 * p)))
/-- Translate the pieces for an access by a stream: the accesses, or the first failure (R227). -/
def State.streamPieces (s : State) (core : Nat) (i : Intent) (n : Nat) (vas : List W64) : Except (W64 × XErr) (List Access) :=
  let xs := vas.map (fun va => (va, s.translate (clusterOf core) va i))
  match xs.findSome? (fun x => match x.2 with
    | .error e => some (x.1, e)
    | .ok y => if y.kind = .ts then some (x.1, ⟨0x07, 0, 0⟩) else none) with
  | some e => .error e
  | none => .ok (xs.filterMap (fun x => match x.2 with
    | .ok y => some ⟨0, x.1, y.pa, n, .glob, y.kind, y.buf, .read, false, 0, false, 0⟩
    | .error _ => none))
/-- The checks of the format blocks `bs` a word uses, the first of them the tile's, in the order of R235. -/
def blockTrap (bs codes : List Nat) : Option XErr :=
  if bs.any (fun b => !fbOk b) then some ⟨0x09, 2, 0⟩
  else if bs.any (fun b => (opCode (fbFmt b)).isNone) then some ⟨0x09, 1, 0⟩
  else if !decide (fbFmt (bs.headD 0) ∈ codes) then some ⟨0x09, 4, 0⟩
  else if bs.any (fun b => !fbBandOk b) then some ⟨0x09, 5, 0⟩
  else none
/-- The checks of MLD and MST in the order of R235, and the accesses of the memory form: the trap and its address, or those. A STRIDE
below the row size is no cause of R235: the rows overlap, and a later one stands (DESIGN CHOICE, log entry 113). -/
def State.xferCheck (s : State) (c : Nat) (m : Stream) (f : FmtX) (bs codes : List Nat) (i : Intent) :
    Except (XErr × W64) (List Access) :=
  let b := bs.headD 0
  let w := codeWidth (fbFmt b)
  match blockTrap bs codes with
  | some e => .error (e, 0)
  | none =>
    if f.flags.getLsbD 0 then
      let base := fbAddr b + (if f.flags.getLsbD 1 then (m.mreg (f.imm.toNat % 16)).zeroExtend 64 else 0)
      if base.toNat % 16 ≠ 0 ∨ fbStride b % 16 ≠ 0 then .error (misaligned, base)
      else
        match s.streamPieces c i 16 (tilePieces base (fbStride b) w) with
        | .error e => .error (e.2, e.1)
        | .ok as => .ok as
    else
      let ch := s.chan m.team f.cha.toNat
      if !ch.defd then .error (⟨0x08, 0x22, 0⟩, 0)
      else if ch.esize ≠ 4096 * w / 8 then .error (⟨0x09, 3, 0⟩, 0)
      else .ok []
/-- Translations by a stream leave their leaves in the TLBs (R419). -/
def State.touchAccs (s : State) (core : Nat) (as : List Access) : State :=
  ((as.map (fun a => BitVec.ofNat 64 (a.va.toNat / 4096 * 4096))).eraseDups).foldl (fun s va => s.touchTlb (clusterOf core) va) s
/-- Enter the transfer queue, and the channel's in the channel form. -/
def State.xferIssue (s : State) (c : Nat) (m : Stream) (q : QWord) : State :=
  let s' := if q.f.flags.getLsbD 0 then s else s.updChan m.team q.f.cha.toNat (fun x => { x with queue := x.queue ++ [s.nextId] })
  s'.pushXfer c m q

/-- MLD (R225). -/
def execMld (f : FmtX) (s : State) : Out :=
  seqWord (.mld f) s (fun c m =>
    if m.fbPending [f.fb.toNat] then s.blockStream c m 0
    else
      let b := m.fbBlock f.fb.toNat
      match s.xferCheck c m f [b] [0, 1, 2] .read with
      | .error e => (s.touchFault c e.2 e.1).streamXlat c m e.1 e.2
      | .ok as =>
        if m.xferFull then s.blockStream c m 0
        else (s.touchAccs c as).xferIssue c (m.setTags (slotsOf f.tile.toNat f.accf.toNat) 0)
          { QWord.of s 0xA4 m f with fbA := b, accs := as })

/-- Read bytes by a unit of a core, its sequencer stream or its graphics units, as a plain access through the column cache (R225, R248). -/
def State.unitRead (s : State) (unit core team : Nat) (a : Access) : State × List Byte × Bool :=
  if s.noColumn core || a.kind = .so || a.buf then s.readThrough core a.pa a.n (some (unitWho core unit))
  else s.readColumn core team a.pa a.n (some (unitWho core unit)) (decide (a.kind = .uo))
/-- Read bytes by a stream. -/
def State.streamRead (s : State) (core team : Nat) (a : Access) : State × List Byte × Bool := s.unitRead 1 core team a
/-- Write bytes by a stream as a plain access. -/
def State.streamWrite (s : State) (core : Nat) (a : Access) (bs : List Byte) : State :=
  if s.noColumn core || a.kind = .so || a.buf then (s.colEvict core (a.pa / 128)).homeWriteBytes a.pa bs (some (clusterOf core))
  else s.colStore core a.pa bs (decide (a.kind = .uo))
/-- The accesses of a band value (R226), or its trap and address. The words raise no MISALIGNED for a band (R235): at an odd address the
two bytes there are read one by one (DESIGN CHOICE, log entry 112). -/
def State.bandAccs (s : State) (c b : Nat) (idx : W32) : Except (XErr × W64) (List Access) :=
  let va := fbBand b + BitVec.ofNat 64 (2 * idx.toNat)
  match (if va.toNat % 2 = 0 then s.streamPieces c .read 2 [va] else s.streamPieces c .read 1 [va, va + 1]) with
  | .error e => .error (e.2, e.1)
  | .ok as => .ok as
/-- A band value read at MST's issue (R226): the state after the read, its BF16 code, or the trap and its address. -/
def State.bandRead (s : State) (c : Nat) (m : Stream) (b : Nat) (idx : W32) : Except (XErr × W64) (State × Nat) :=
  match s.bandAccs c b idx with
  | .error e => .error e
  | .ok as =>
    let r := as.foldl (fun (r : State × List Byte) a =>
      let x := (r.1.touchTlb (clusterOf c) a.va).streamRead c m.team a
      (if x.2.2 then x.1.streamBad c m m.wordAddr a.va else x.1, r.2 ++ x.2.1)) (s, [])
    .ok (r.1, ofBytes r.2)
/-- The band operands of an MST (R80, R226): for each operand of the tile that has a band, its block and index. -/
def Stream.mstBands (m : Stream) (f : FmtX) : List (Option (Nat × W32)) :=
  let tag := Tbl.getD m.tags f.tile.toNat 0
  if !f.flags.getLsbD 2 || decide (tag < 8) then []
  else
    let p := 2 * (tag - 8)
    let one := fun (n : Nat) (idx : W32) =>
      if (opCode (fbFmt (m.fbBlock n))).any (fun o => o.band) then some (m.fbBlock n, idx) else none
    [one p (m.mreg (f.imm.toNat / 16 % 16)), one (p + 1) (m.mreg (f.imm.toNat / 256 % 16))]
/-- One band value, 1.0 where the operand has none. -/
def State.bandOne (s : State) (c : Nat) (m : Stream) (x : Option (Nat × W32)) : Except (XErr × W64) (State × Nat) :=
  match x with
  | some p => s.bandRead c m p.1 p.2
  | none => .ok (s, 0x3F80)
/-- The scale of R80 and R226 as FP32 bits: the band values of the tile's operands, 1.0 where there is none. -/
def State.mstScale (s : State) (c : Nat) (m : Stream) (f : FmtX) : Except (XErr × W64) (State × Nat) :=
  match m.mstBands f with
  | a :: b :: _ =>
    match s.bandOne c m a with
    | .error e => .error e
    | .ok (s, x) =>
      match s.bandOne c m b with
      | .error e => .error e
      | .ok (s, y) => .ok (s, (f32Round .rne (FVal.mul false (Fmt.bf16.value x) (Fmt.bf16.value y))).toNat)
  | _ => .ok (s, 0x3F800000)
/-- A band read of an MST waits for the accesses of the transfers queued before it that it may not pass: those to SO pages where its
own is, and stores to its bytes (R337, R346). -/
def State.bandWaits (s : State) (c : Nat) (m : Stream) (f : FmtX) : Bool :=
  (m.mstBands f).any (fun x => match x with
    | none => false
    | some p => match s.bandAccs c p.1 p.2 with
      | .error _ => false
      | .ok as => as.any (fun b => m.xferQ.any (fun q => q.accs.any (fun a =>
          (decide (a.kind = .so) && decide (b.kind = .so)) || (decide (q.op = 0xA5) && !decide (b.kind = .uo) && a.overlaps b)))))

/-- The blocks an MST uses. -/
def Stream.mstBlocks (m : Stream) (f : FmtX) : List Nat :=
  let tag := Tbl.getD m.tags f.tile.toNat 0
  f.fb.toNat :: (if f.flags.getLsbD 2 && decide (8 ≤ tag) then [2 * (tag - 8), 2 * (tag - 8) + 1] else [])

/-- MST (R226): the destination and the scale are read and checked at issue. Of several memory traps the first is reported in this
order: the alignment of ADDR and STRIDE, the tile's pieces row by row, band A, band B (DESIGN CHOICE, log entry 132). -/
def execMst (f : FmtX) (s : State) : Out :=
  seqWord (.mst f) s (fun c m =>
    if m.fbPending (m.mstBlocks f) then s.blockStream c m 0
    else
      let bs := (m.mstBlocks f).map m.fbBlock
      match s.xferCheck c m f bs [0, 1, 2, 3, 4, 8] .engWrite with
      | .error e => (s.touchFault c e.2 e.1).streamXlat c m e.1 e.2
      | .ok as =>
        if m.xferFull || s.bandWaits c m f then s.blockStream c m 0
        else
          match s.mstScale c m f with
          | .error e => (s.touchFault c e.2 e.1).streamXlat c m e.1 e.2
          | .ok (s', scale) =>
            let s' := if f.flags.getLsbD 0 then s'.idemLost m.team else s'
            let m' := (s'.stream? c).getD m
            (s'.touchAccs c as).xferIssue c m' { QWord.of s' 0xA5 m f with fbA := bs.headD 0, scale := scale, accs := as })

/-- The pending ECPL actions for a stream: those of waves that have ended, and those of the waves on its core, in index order (R372). -/
def State.streamEcpls (s : State) (team core : Nat) : List (Agent × Ecpl) :=
  (match s.stream? core with | some m => m.ecpls | none => []) ++ (s.teamWaves team).filterMap (fun x =>
    if x.1 = core then
      match x.2.2.ecpl with
      | some e => if e.stream then some (.wave x.1 x.2.1, e) else none
      | none => none
    else none)
def State.clearEcpls (s : State) (as : List (Agent × Ecpl)) : State :=
  as.foldl (fun s a => match a.1 with
    | .wave c k => s.updWave c k (fun w => { w with ecpl := none })
    | .stream _ => s) s

/-- TRANSFER_WORD_BEGIN (R216, R363): the head of the transfer queue begins. An MST takes the pending stream actions; its
channel form reserves its element and leaves the channel's queue. -/
def execTransferWordBegin (core : Nat) (s : State) : Out :=
  match s.stream? core with
  | none => .next s
  | some m =>
    match m.xferQ with
    | [] => .next s
    | q :: rest =>
      let mem := q.f.flags.getLsbD 0 || decide (q.op = 0xDA)
      let n := q.f.cha.toNat
      let ch := s.chan m.team n
      let ready := mem || (ch.heads q.id && (if q.op = 0xA4 then ch.inputReady 1 else ch.outputReady 1))
      if q.begun || !ready || !s.mayBegin core m q then .next s
      else
        let es := if q.op = 0xA5 then s.streamEcpls m.team core else []
        let first := if q.op = 0xA4 then ch.acq.toNat else ch.res.toNat
        let s := (s.clearEcpls es).setStream core { m with
          xferQ := { q with begun := true, start := first, ecpls := es } :: rest, ecpls := if q.op = 0xA5 then [] else m.ecpls }
        let s := s.consumePoison core q
        .next (if mem || decide (q.op = 0xA4) then s else s.updChan m.team n (fun x => (x.reserve 1).leave q.id))

/-- MLD's elements from row-major source bytes (R225). -/
def mldElems (f : FmtX) (b : Nat) (bytes : List Byte) : List (Nat × Nat × Nat) :=
  match opCode (fbFmt b) with
  | some o =>
    let w := o.elem.width
    tileCells.map (fun x =>
      (x.1, x.2, ((accFmt f.accf.toNat).convert .rne (o.elem.value (fieldOf bytes ((64 * x.1 + x.2) * (w / 8)) (w / 8)))).code))
  | none => []
/-- One element of MST (R80, R226): its code, and whether SATURATE counts. -/
def mstElem (accf fmtc : Nat) (rnd : RMode) (scale acc : Nat) : Nat × Bool :=
  let y := f32Round .rne (FVal.mul false ((accFmt accf).value acc) (f32Val (BitVec.ofNat 32 scale)))
  match opCode fmtc with
  | some ⟨.flt f, _, _, _⟩ => 
    let r := f.convert rnd (f32Val y)
    if f = .f32 then (y.toNat, false) else (r.code, f.saturates r)
  | _ => ((BitVec.ofInt 8 (clampInt (-128) 127 ((f32Val y).toInt rnd))).toNat, false)
/-- The bytes of MST's 64 rows, and its SATURATE count. -/
def State.mstBytes (s : State) (core : Nat) (q : QWord) : List Byte × Nat :=
  let accf := q.f.accf.toNat
  let es := tileCells.map (fun x =>
    mstElem accf (fbFmt q.fbA) (fbRnd q.fbA) q.scale (s.tileElem core q.f.tile.toNat accf x.1 x.2))
  (es.flatMap (fun e => bytesOf (codeWidth (fbFmt q.fbA) / 8) e.1), (es.filter (fun e => e.2)).length)

end Sys2Proof.Machine
end

