-- ==== Sys2Proof/Machine/ScalarAlu.lean ====
section
/-! DEFINITION. The scalar ALU words (R148–R154). -/

namespace Sys2Proof.Machine

/-! ### Shared computations (R150–R153) -/

/-- Rotate left by the low five bits of `b` (R150). -/
def rotl (a b : W32) : W32 := a.rotateLeft (b.toNat % 32)
/-- Shift left by the low five bits. -/
def shl (a b : W32) : W32 := a <<< (b.toNat % 32)
/-- Shift right by the low five bits: logical, or arithmetic (R150). -/
def shr (arith : Bool) (a b : W32) : W32 := if arith then a.sshiftRight (b.toNat % 32) else a >>> (b.toNat % 32)
/-- Minimum, the first operand on a tie (R150). -/
def minI (unsigned : Bool) (a b : W32) : W32 :=
  if unsigned then (if zval a ≤ zval b then a else b) else if sval a ≤ sval b then a else b
/-- Maximum, the first operand on a tie. -/
def maxI (unsigned : Bool) (a b : W32) : W32 :=
  if unsigned then (if zval b ≤ zval a then a else b) else if sval b ≤ sval a then a else b
/-- The high half of a product (R150). -/
def mulHigh (unsigned : Bool) (a b : W32) : W32 :=
  if unsigned then wrap32 ((zval a * zval b / 2 ^ 32 : Nat) : Int) else wrap32 (Int.fdiv (sval a * sval b) (2 ^ 32))
/-- Quotient or remainder of R94 and R151; division truncates towards zero. -/
def divide (unsigned rem : Bool) (a b : W32) : W32 :=
  if b = 0 then (if rem then a else 0xFFFFFFFF)
  else if unsigned then wrap32 ((if rem then zval a % zval b else zval a / zval b : Nat) : Int)
  else wrap32 (if rem then Int.tmod (sval a) (sval b) else Int.tdiv (sval a) (sval b))
/-- The width a bit-field word uses: W clipped at the top of the word (R152). -/
def fieldWidth (o w : Nat) : Nat := min w (32 - o)
/-- Extract a field at offset `o` of width field `w` (R152). -/
def bfx (sgn : Bool) (a : W32) (o w : Nat) : W32 :=
  let n := fieldWidth o w
  let f := a.toNat / 2 ^ o % 2 ^ n
  if sgn && decide (0 < n) && decide (2 ^ (n - 1) ≤ f) then wrap32 ((f : Int) - (2 ^ n : Nat)) else BitVec.ofNat 32 f
/-- Insert `a` at offset `o` into `d` (R152). -/
def bfi (d a : W32) (o w : Nat) : W32 :=
  let mask : W32 := BitVec.ofNat 32 ((2 ^ fieldWidth o w - 1) * 2 ^ o)
  (d &&& ~~~mask) ||| ((a <<< o) &&& mask)
/-- Population count, leading zeros, trailing zeros (R153). -/
def bitCount (k : Nat) (a : W32) : W32 :=
  BitVec.ofNat 32 (match k with | 0 => popc 32 a.toNat | 1 => clzN 32 a.toNat | _ => ctzN 32 a.toNat)

/-! ### Shapes -/

/-- A scalar word that writes SD from its two operands. -/
def scalarWord (i : Instr) (f : FmtS) (s : State) (g : W32 → W32 → W32) : Out :=
  aluWord i s (fun w => .ok (w.writeS f.sd.toNat (g (w.readS f.sa.toNat) (w.sop f.b))))

/-- A scalar word that writes a pair. -/
def pairWord (i : Instr) (f : FmtS) (s : State) (g : Wave → W64) : Out :=
  aluWord i s (fun w => .ok (w.writeS64 f.sd.toNat (g w)))

/-! ### The words -/

/-- SADD (R150): with carry out under FN 1 and 2, and carry in under FN 2. -/
def execSadd (f : FmtS) (s : State) : Out :=
  aluWord (.sadd f) s (fun w =>
    let t := zval (w.readS f.sa.toNat) + zval (w.sop f.b) + (if f.fn = 2 ∧ w.scc ≠ 0 then 1 else 0)
    let w' := w.writeS f.sd.toNat (BitVec.ofNat 32 t)
    .ok (if f.fn = 0 then w' else w'.setScc (decide (2 ^ 32 ≤ t))))
/-- SSUB (R150): with borrow out under FN 1 and 2, and borrow in under FN 2. -/
def execSsub (f : FmtS) (s : State) : Out :=
  aluWord (.ssub f) s (fun w =>
    let t : Int := (zval (w.readS f.sa.toNat) : Int) - (zval (w.sop f.b) : Int) - (if f.fn = 2 ∧ w.scc ≠ 0 then 1 else 0)
    let w' := w.writeS f.sd.toNat (wrap32 t)
    .ok (if f.fn = 0 then w' else w'.setScc (decide (t < 0))))
/-- SMUL (R150). -/
def execSmul (f : FmtS) (s : State) : Out := scalarWord (.smul f) f s (fun a b => a * b)
/-- SMULHI (R150). -/
def execSmulhi (f : FmtS) (s : State) : Out := scalarWord (.smulhi f) f s (mulHigh (decide (f.fn = 1)))
/-- SDIV (R151): class L, so its destination is withheld through its lookahead window (R106). -/
def execSdiv (f : FmtS) (s : State) : Out :=
  aluWord (.sdiv f) s (fun w =>
    .ok (w.longWrite 0x05 f.la.toNat []
      [(f.sd.toNat, divide (f.fn.getLsbD 0) (f.fn.getLsbD 1) (w.readS f.sa.toNat) (w.sop f.b))]))
/-- SAND (R150). -/
def execSand (f : FmtS) (s : State) : Out := scalarWord (.sand f) f s (fun a b => a &&& b)
/-- SOR (R150). -/
def execSor (f : FmtS) (s : State) : Out := scalarWord (.sor f) f s (fun a b => a ||| b)
/-- SXOR (R150). -/
def execSxor (f : FmtS) (s : State) : Out := scalarWord (.sxor f) f s (fun a b => a ^^^ b)
/-- SSHL (R150). -/
def execSshl (f : FmtS) (s : State) : Out := scalarWord (.sshl f) f s shl
/-- SSHR (R150). -/
def execSshr (f : FmtS) (s : State) : Out := scalarWord (.sshr f) f s (shr (decide (f.fn = 1)))
/-- SROT (R150). -/
def execSrot (f : FmtS) (s : State) : Out := scalarWord (.srot f) f s rotl
/-- SCMP (R150): the condition to SD and to SCC. -/
def execScmp (f : FmtS) (s : State) : Out :=
  aluWord (.scmp f) s (fun w =>
    let c := intCond f.fn.toNat (w.readS f.sa.toNat) (w.sop f.b)
    .ok ((w.writeS f.sd.toNat (if c then 1 else 0)).setScc c))
/-- SSEL (R150). -/
def execSsel (f : FmtS) (s : State) : Out :=
  aluWord (.ssel f) s (fun w =>
    .ok (w.writeS f.sd.toNat (if w.scc = 0 then w.sop f.b else w.readS f.sa.toNat)))
/-- SMOV (R150). -/
def execSmov (f : FmtS) (s : State) : Out := aluWord (.smov f) s (fun w => .ok (w.writeS f.sd.toNat (w.sop f.b)))
/-- SMIN (R150). -/
def execSmin (f : FmtS) (s : State) : Out := scalarWord (.smin f) f s (minI (decide (f.fn = 1)))
/-- SMAX (R150). -/
def execSmax (f : FmtS) (s : State) : Out := scalarWord (.smax f) f s (maxI (decide (f.fn = 1)))
/-- SBFX (R152). -/
def execSbfx (f : FmtS) (s : State) : Out :=
  scalarWord (.sbfx f) f s (fun a b => bfx (decide (f.fn = 1)) a (b.toNat % 32) (b.toNat / 256 % 64))
/-- SBFI (R152): SD is read and written. -/
def execSbfi (f : FmtS) (s : State) : Out :=
  aluWord (.sbfi f) s (fun w =>
    let b := (w.sop f.b).toNat
    .ok (w.writeS f.sd.toNat (bfi (w.readS f.sd.toNat) (w.readS f.sa.toNat) (b % 32) (b / 256 % 64))))
/-- SBITC (R153). -/
def execSbitc (f : FmtS) (s : State) : Out := scalarWord (.sbitc f) f s (fun a _ => bitCount f.fn.toNat a)
/-- SADD64 (R154). -/
def execSadd64 (f : FmtS) (s : State) : Out :=
  pairWord (.sadd64 f) f s (fun w => w.readS64 f.sa.toNat + w.sop64 f.b)
/-- SSUB64 (R154). -/
def execSsub64 (f : FmtS) (s : State) : Out :=
  pairWord (.ssub64 f) f s (fun w => w.readS64 f.sa.toNat - w.sop64 f.b)
/-- A 32-bit multiplicand extended to 64 bits, by zeros or by its sign (R154, R163). -/
def ext64 (sgn : Bool) (x : W32) : W64 := if sgn then x.signExtend 64 else x.zeroExtend 64
/-- SMAD64 (R154): SD is read and written. -/
def execSmad64 (f : FmtS) (s : State) : Out :=
  pairWord (.smad64 f) f s (fun w =>
    w.readS64 f.sd.toNat + ext64 (decide (f.fn = 1)) (w.readS f.sa.toNat) * ext64 (decide (f.fn = 1)) (w.sop f.b))
/-- SLI (R154): a pair from an immediate, or its high half alone. -/
def execSli (f : FmtS) (s : State) : Out :=
  aluWord (.sli f) s (fun w =>
    let v := w.sop f.b
    .ok (match f.fn.toNat with
      | 0 => w.writeS64 f.sd.toNat (v.signExtend 64)
      | 1 => w.writeS64 f.sd.toNat (v.zeroExtend 64)
      | _ => w.writeS (f.sd.toNat + 1) v))

end Sys2Proof.Machine
end

