-- ==== Sys2Proof/Machine/VectorInt.lean ====
section
/-! DEFINITION. The vector integer words (R155–R163): each computes per active lane. -/

namespace Sys2Proof.Machine

/-! ### Shapes -/

/-- The vector registers a format-V word with `srcs` sources reads. -/
def srcRegs (f : FmtV) (srcs : Nat) : List Nat :=
  (if 1 ≤ srcs then selReg f.a else []) ++ (if 2 ≤ srcs then selReg f.b else []) ++ (if 3 ≤ srcs then selReg f.c else [])

/-- Write `g l` to lane `l` of register `d` in every active lane, all sources read first. -/
def Wave.perLane (w : Wave) (d : Nat) (g : Nat → W32) : Wave := w.writeVs (w.lanes.map (fun l => (d, l, g l)))
/-- The same for a pair. -/
def Wave.perLane64 (w : Wave) (d : Nat) (g : Nat → W64) : Wave :=
  w.writeVs (w.lanes.flatMap (fun l => [(d, l, (g l).extractLsb' 0 32), (d + 1, l, (g l).extractLsb' 32 32)]))

/-- A vector word that writes VD lane by lane, after the register range check (R121). -/
def laneWord (i : Instr) (s : State) (regs : List Nat) (d : Nat) (g : Wave → Nat → W32) : Out :=
  aluWord i s (fun w => if w.regRange (d :: regs) then .error w.regRangeTrap else .ok (w.perLane d (g w)))
/-- A format-V word of `srcs` 32-bit sources. -/
def vecWord (i : Instr) (f : FmtV) (srcs : Nat) (s : State) (g : W32 → W32 → W32 → W32) : Out :=
  laneWord i s (srcRegs f srcs) f.vd.toNat (fun w l => g (w.selW f.a l) (w.selW f.b l) (w.selW f.c l))
/-- A format-VI word of a source and an immediate. -/
def vecImmWord (i : Instr) (f : FmtVI) (s : State) (g : W32 → W32 → W32) : Out :=
  laneWord i s (selReg f.a) f.vd.toNat (fun w l => g (w.selW f.a l) (imm31Int f.imm))

/-! ### Arithmetic (R157) -/

/-- The minor function's type: FN bit 0 is 0 for s32. -/
def fnSigned (fn : BitVec 4) : Bool := !fn.getLsbD 0
/-- An operand's value of the minor function's type. -/
def ival (sgn : Bool) (x : W32) : Int := if sgn then sval x else (zval x : Int)
/-- An operand after its modifiers (R157). -/
def modified (abs neg : Bool) (x : Int) : Int :=
  let y := if abs then (x.natAbs : Int) else x
  if neg then -y else y
/-- A result: clamped under SAT, otherwise wrapped. -/
def ires (sgn sat : Bool) (x : Int) : W32 := if sat then satInt sgn x else wrap32 x

/-- The arithmetic of R157 in format V, on exact values. -/
def arithWord (i : Instr) (f : FmtV) (srcs : Nat) (s : State) (g : Int → Int → Int → Int) : Out :=
  let sgn := fnSigned f.fn
  vecWord i f srcs s (fun a b c =>
    ires sgn f.sat (g (modified f.abs f.negA (ival sgn a)) (modified f.abs f.negB (ival sgn b)) (ival sgn c)))
/-- The same in format VI. -/
def arithImmWord (i : Instr) (f : FmtVI) (s : State) (g : Int → Int → Int) : Out :=
  let sgn := fnSigned f.fn
  vecImmWord i f s (fun a b => ires sgn false (g (ival sgn a) (ival sgn b)))

def execVadd (f : FmtV) (s : State) : Out := arithWord (.vadd f) f 2 s (fun a b _ => a + b)
def execVaddImm (f : FmtVI) (s : State) : Out := arithImmWord (.vaddImm f) f s (fun a b => a + b)
def execVsub (f : FmtV) (s : State) : Out := arithWord (.vsub f) f 2 s (fun a b _ => a - b)
def execVsubImm (f : FmtVI) (s : State) : Out := arithImmWord (.vsubImm f) f s (fun a b => a - b)
def execVmul (f : FmtV) (s : State) : Out := arithWord (.vmul f) f 2 s (fun a b _ => a * b)
def execVmulImm (f : FmtVI) (s : State) : Out := arithImmWord (.vmulImm f) f s (fun a b => a * b)
def execVmulhi (f : FmtV) (s : State) : Out := vecWord (.vmulhi f) f 2 s (fun a b _ => mulHigh (f.fn.getLsbD 0) a b)
def execVmulhiImm (f : FmtVI) (s : State) : Out := vecImmWord (.vmulhiImm f) f s (mulHigh (f.fn.getLsbD 0))
def execVmad (f : FmtV) (s : State) : Out := arithWord (.vmad f) f 3 s (fun a b c => a * b + c)
def execVmin (f : FmtV) (s : State) : Out := arithWord (.vmin f) f 2 s (fun a b _ => min a b)
def execVminImm (f : FmtVI) (s : State) : Out := arithImmWord (.vminImm f) f s (fun a b => min a b)
def execVmax (f : FmtV) (s : State) : Out := arithWord (.vmax f) f 2 s (fun a b _ => max a b)
def execVmaxImm (f : FmtVI) (s : State) : Out := arithImmWord (.vmaxImm f) f s (fun a b => max a b)

/-! ### Bitwise, shifts and moves (R157) -/

def execVand (f : FmtV) (s : State) : Out := vecWord (.vand f) f 2 s (fun a b _ => a &&& b)
def execVandImm (f : FmtVI) (s : State) : Out := vecImmWord (.vandImm f) f s (fun a b => a &&& b)
def execVor (f : FmtV) (s : State) : Out := vecWord (.vor f) f 2 s (fun a b _ => a ||| b)
def execVorImm (f : FmtVI) (s : State) : Out := vecImmWord (.vorImm f) f s (fun a b => a ||| b)
def execVxor (f : FmtV) (s : State) : Out := vecWord (.vxor f) f 2 s (fun a b _ => a ^^^ b)
def execVxorImm (f : FmtVI) (s : State) : Out := vecImmWord (.vxorImm f) f s (fun a b => a ^^^ b)
def execVshl (f : FmtV) (s : State) : Out := vecWord (.vshl f) f 2 s (fun a b _ => shl a b)
def execVshlImm (f : FmtVI) (s : State) : Out := vecImmWord (.vshlImm f) f s shl
def execVshr (f : FmtV) (s : State) : Out := vecWord (.vshr f) f 2 s (fun a b _ => shr (f.fn.getLsbD 0) a b)
def execVshrImm (f : FmtVI) (s : State) : Out := vecImmWord (.vshrImm f) f s (shr (f.fn.getLsbD 0))
def execVrot (f : FmtV) (s : State) : Out := vecWord (.vrot f) f 2 s (fun a b _ => rotl a b)
def execVrotImm (f : FmtVI) (s : State) : Out := vecImmWord (.vrotImm f) f s rotl
def execVmov (f : FmtV) (s : State) : Out := vecWord (.vmov f) f 1 s (fun a _ _ => a)

/-! ### Comparisons and selection (R158, R159) -/

/-- A comparison word: the mask run from s_d and SCC, once its registers are in range. -/
def maskWord (i : Instr) (s : State) (regs : List Nat) (d : Nat) (p : Wave → Nat → Bool) : Out :=
  aluWord i s (fun w =>
    if !w.maskRunOk d then .error w.illegal
    else if w.regRange regs then .error w.regRangeTrap
    else .ok (w.writeMaskRun d (p w)))

/-- VCMP (R158). -/
def execVcmp (f : FmtV) (s : State) : Out :=
  maskWord (.vcmp f) s (srcRegs f 2) f.vd.toNat (fun w l => intCond (f.fn.toNat % 8) (w.selW f.a l) (w.selW f.b l))
/-- VCMP with an immediate (R158). -/
def execVcmpImm (f : FmtVI) (s : State) : Out :=
  maskWord (.vcmpImm f) s (selReg f.a) f.vd.toNat
    (fun w l => intCond (f.fn.toNat % 8) (w.selW f.a l) (imm31Int f.imm))

/-- A selector that names a scalar register. -/
def selScalar (c : Sel) : Bool := decide (256 ≤ c.toNat) && decide (c.toNat < 384)

/-- VSEL (R159): by a mask run when C is a scalar register, otherwise by C ≠ 0. -/
def execVsel (f : FmtV) (s : State) : Out :=
  aluWord (.vsel f) s (fun w =>
    let k := f.c.toNat - 256
    if selScalar f.c && !decide (k + w.beats - 1 ≤ 127) then .error w.illegal
    else if w.regRange (f.vd.toNat :: srcRegs f 3) then .error w.regRangeTrap
    else .ok (w.perLane f.vd.toNat (fun l =>
      let c := if selScalar f.c then w.runBit k l else !decide (w.selW f.c l = 0)
      if c then w.selW f.a l else w.selW f.b l)))

/-! ### Bit fields, byte sums, permutation (R160–R162) -/

/-- VBFX (R160). -/
def execVbfx (f : FmtV) (s : State) : Out :=
  vecWord (.vbfx f) f 3 s (fun a b c => bfx (f.fn.getLsbD 0) a (b.toNat % 32) (c.toNat % 64))
/-- VBFI (R160): VD is read and written. -/
def execVbfi (f : FmtV) (s : State) : Out :=
  laneWord (.vbfi f) s (srcRegs f 3) f.vd.toNat (fun w l =>
    bfi (w.readV f.vd.toNat l) (w.selW f.a l) ((w.selW f.b l).toNat % 32) ((w.selW f.c l).toNat % 64))
/-- VBITC (R160). -/
def execVbitc (f : FmtV) (s : State) : Out := vecWord (.vbitc f) f 1 s (fun a _ _ => bitCount f.fn.toNat a)

/-- Byte k of a word, unsigned or as s8. -/
def byteZ (x : W32) (k : Nat) : Int := ((x.toNat / 256 ^ k % 256 : Nat) : Int)
def byteS (x : W32) (k : Nat) : Int := (BitVec.ofNat 8 (x.toNat / 256 ^ k)).toInt
/-- The sum of a function of the four byte numbers. -/
def sum4 (g : Nat → Int) : Int := g 0 + g 1 + g 2 + g 3

/-- VSAD (R161). -/
def execVsad (f : FmtV) (s : State) : Out :=
  vecWord (.vsad f) f 3 s (fun a b c =>
    ires false f.sat ((zval c : Int) + sum4 (fun k => ((byteZ a k - byteZ b k).natAbs : Int))))
/-- VDOT4 (R161). -/
def execVdot4 (f : FmtV) (s : State) : Out :=
  vecWord (.vdot4 f) f 3 s (fun a b c =>
    let sgn := !decide (f.fn = 1)
    let ak := fun k => if sgn then byteS a k else byteZ a k
    let bk := fun k => if f.fn = 0 then byteS b k else byteZ b k
    ires sgn f.sat (ival sgn c + sum4 (fun k => ak k * bk k)))

/-- Byte k of VPERM's result: governed by nibble k of C (R162). -/
def permByte (a b c : W32) (k : Nat) : Byte :=
  let n := c.toNat / 16 ^ k % 16
  if n < 8 then BitVec.ofNat 8 ((b ++ a : W64).toNat / 256 ^ n) else if n = 15 then 0xFF else 0
/-- VPERM (R162). -/
def execVperm (f : FmtV) (s : State) : Out :=
  vecWord (.vperm f) f 3 s (fun a b c => permByte a b c 3 ++ permByte a b c 2 ++ permByte a b c 1 ++ permByte a b c 0)

/-! ### Pairs (R163) -/

/-- VADD64 (R163). -/
def execVadd64 (f : FmtV) (s : State) : Out :=
  aluWord (.vadd64 f) s (fun w =>
    let d := f.vd.toNat
    let regs := [d, d + 1] ++ selRegPair f.a ++ (if f.fn = 0 then selRegPair f.b else selReg f.b)
    if w.regRange regs then .error w.regRangeTrap
    else .ok (w.perLane64 d (fun l =>
      w.selP f.a l + (if f.fn = 0 then w.selP f.b l else ext64 (decide (f.fn = 2)) (w.selW f.b l)))))
/-- VADD64 with an immediate (R163). -/
def execVadd64Imm (f : FmtVI) (s : State) : Out :=
  aluWord (.vadd64Imm f) s (fun w =>
    let d := f.vd.toNat
    if w.regRange ([d, d + 1] ++ selRegPair f.a) then .error w.regRangeTrap
    else .ok (w.perLane64 d (fun l => w.selP f.a l + f.imm.signExtend 64)))
/-- VMAD64 (R163). -/
def execVmad64 (f : FmtV) (s : State) : Out :=
  aluWord (.vmad64 f) s (fun w =>
    let d := f.vd.toNat
    let sgn := f.fn.getLsbD 0
    if w.regRange ([d, d + 1] ++ srcRegs f 2 ++ selRegPair f.c) then .error w.regRangeTrap
    else .ok (w.perLane64 d (fun l => w.selP f.c l + ext64 sgn (w.selW f.a l) * ext64 sgn (w.selW f.b l))))

end Sys2Proof.Machine
end

