-- ==== Sys2Proof/Machine/Float.lean ====
section
/-! DEFINITION. The FP32 words (R167–R173) and the packed 16-bit words (R174, R175). -/

namespace Sys2Proof.Machine

/-- LEGACY_UNSUPPORTED at issue (R91). -/
def Wave.legacyTrap (w : Wave) (sub : Nat) : Trap := { cause := 0x0C, sub := sub, fm := w.trapMask }

/-- A lane word under the legacy requests (R91, R192): registers first, then the requests, then its lanes. -/
def fltWord (i : Instr) (s : State) (u : LegacyUse) (regs : List Nat) (d : Nat) (g : Wave → Nat → W32) : Out :=
  aluWord i s (fun w =>
    if w.regRange (d :: regs) then .error w.regRangeTrap
    else
      match w.legacy u with
      | some n => .error (w.legacyTrap n)
      | none => .ok (w.perLane d (g w)))

/-! ### FP32 arithmetic (R169) -/

/-- A format-V FP32 word: its operands after flushing and modifiers, and its rounding. -/
def f32Word (i : Instr) (u : LegacyUse) (f : FmtV) (srcs : Nat) (s : State)
    (g : Wave → RMode → FVal → FVal → FVal → FVal) : Out :=
  fltWord i s u (srcRegs f srcs) f.vd.toNat (fun w l =>
    let mode := w.rnd f.rnd
    w.fout mode f.sat (g w mode (w.fin f.abs f.negA (w.selF f.a l)) (w.fin f.abs f.negB (w.selF f.b l))
      (w.fin false false (w.selF f.c l))))
/-- A format-VI FP32 word: rounding under MODE (R168). -/
def f32ImmWord (i : Instr) (u : LegacyUse) (f : FmtVI) (s : State) (g : Wave → RMode → FVal → FVal → FVal) : Out :=
  fltWord i s u (selReg f.a) f.vd.toNat (fun w l =>
    w.fout w.modeField false
      (g w w.modeField (w.fin false false (w.selF f.a l)) (w.fin false false (imm31F f.imm))))

def faddVal (_ : Wave) (m : RMode) (a b : FVal) : FVal := FVal.sum m [a, b]
def fsubVal (_ : Wave) (m : RMode) (a b : FVal) : FVal := FVal.sum m [a, b.neg]
def fmulVal (w : Wave) (_ : RMode) (a b : FVal) : FVal := FVal.mul w.lzeroinf a b
def fminVal (w : Wave) (_ : RMode) (a b : FVal) : FVal := if w.lminmax then a.minLegacy b else a.minNum b
def fmaxVal (w : Wave) (_ : RMode) (a b : FVal) : FVal := if w.lminmax then a.maxLegacy b else a.maxNum b

def useArith : LegacyUse := { xprec := true }
def useMul : LegacyUse := { xprec := true, zeroNan := true }

def execFadd (f : FmtV) (s : State) : Out := f32Word (.fadd f) useArith f 2 s (fun w m a b _ => faddVal w m a b)
def execFaddImm (f : FmtVI) (s : State) : Out := f32ImmWord (.faddImm f) useArith f s faddVal
def execFsub (f : FmtV) (s : State) : Out := f32Word (.fsub f) useArith f 2 s (fun w m a b _ => fsubVal w m a b)
def execFsubImm (f : FmtVI) (s : State) : Out := f32ImmWord (.fsubImm f) useArith f s fsubVal
def execFmul (f : FmtV) (s : State) : Out := f32Word (.fmul f) useMul f 2 s (fun w m a b _ => fmulVal w m a b)
def execFmulImm (f : FmtVI) (s : State) : Out := f32ImmWord (.fmulImm f) useMul f s fmulVal
/-- FFMA (R169): one rounding. -/
def execFfma (f : FmtV) (s : State) : Out :=
  f32Word (.ffma f) useMul f 3 s (fun w m a b c => FVal.sum m [FVal.mul w.lzeroinf a b, c])
def execFmin (f : FmtV) (s : State) : Out := f32Word (.fmin f) {} f 2 s (fun w m a b _ => fminVal w m a b)
def execFminImm (f : FmtVI) (s : State) : Out := f32ImmWord (.fminImm f) {} f s fminVal
def execFmax (f : FmtV) (s : State) : Out := f32Word (.fmax f) {} f 2 s (fun w m a b _ => fmaxVal w m a b)
def execFmaxImm (f : FmtVI) (s : State) : Out := f32ImmWord (.fmaxImm f) {} f s fmaxVal

/-- A comparison under the legacy requests: as `maskWord`, then LEGACY_UNSUPPORTED (R158, R170). -/
def fltMaskWord (i : Instr) (s : State) (regs : List Nat) (d : Nat) (p : Wave → Nat → Bool) : Out :=
  aluWord i s (fun w =>
    if !w.maskRunOk d then .error w.illegal
    else if w.regRange regs then .error w.regRangeTrap
    else
      match w.legacy {} with
      | some n => .error (w.legacyTrap n)
      | none => .ok (w.writeMaskRun d (p w)))

/-- FCMP (R170). -/
def execFcmp (f : FmtV) (s : State) : Out :=
  fltMaskWord (.fcmp f) s (srcRegs f 2) f.vd.toNat (fun w l =>
    fltCond (f.fn.toNat % 8) (w.fin f.abs f.negA (w.selF f.a l)) (w.fin f.abs f.negB (w.selF f.b l)))
/-- FCMP with an immediate (R170). -/
def execFcmpImm (f : FmtVI) (s : State) : Out :=
  fltMaskWord (.fcmpImm f) s (selReg f.a) f.vd.toNat (fun w l =>
    fltCond (f.fn.toNat % 8) (w.fin false false (w.selF f.a l)) (w.fin false false (imm31F f.imm)))

/-! ### Rounding, classes, exponents (R171–R173) -/

/-- A rounded to an integral value, a zero keeping A's sign (R171). -/
def FVal.integral (m : RMode) : FVal → FVal
  | .fin s q => .fin s (mkRat (roundNat m s q) 1)
  | v => v
/-- A − floor(A), exactly (R171). -/
def FVal.fract : FVal → FVal
  | .fin s q => let x := signed s q
                .fin false (x - mkRat x.floor 1)
  | _ => .nan
/-- FRND (R171). -/
def execFrnd (f : FmtV) (s : State) : Out := f32Word (.frnd f) {} f 1 s (fun _ m a _ _ => a.integral m)
/-- FFRACT (R171): rounded towards zero. -/
def execFfract (f : FmtV) (s : State) : Out :=
  fltWord (.ffract f) s {} (srcRegs f 1) f.vd.toNat (fun w l =>
    w.fout .rz false (w.fin f.abs f.negA (w.selF f.a l)).fract)

/-- The class bit of a stored FP32 word (R172). -/
def classBit (x : W32) : Nat :=
  let e := x.toNat / 2 ^ 23 % 256
  let m := x.toNat % 2 ^ 23
  let neg := x.getLsbD 31
  if e = 255 then (if m = 0 then (if neg then 0 else 7) else if x.getLsbD 22 then 9 else 8)
  else if e = 0 then (if m = 0 then (if neg then 3 else 4) else if neg then 2 else 5)
  else if neg then 1 else 6
/-- FCLASS (R172): the stored bits, unflushed. -/
def execFclass (f : FmtV) (s : State) : Out :=
  fltWord (.fclass f) s {} (srcRegs f 1) f.vd.toNat (fun w l => BitVec.ofNat 32 (2 ^ classBit (w.selF f.a l)))

/-- A × 2^n, exactly. Beyond ±400 the FP32 result no longer depends on n, so n is clamped there. -/
def FVal.scale (a : FVal) (n : Int) : FVal :=
  match a with
  | .fin s q => .fin s (q * pow2 (clampInt (-400) 400 n))
  | v => v
/-- FLDEXP (R173): B is an integer. -/
def execFldexp (f : FmtV) (s : State) : Out :=
  fltWord (.fldexp f) s {} (srcRegs f 2) f.vd.toNat (fun w l =>
    w.fout (w.rnd f.rnd) f.sat ((w.fin f.abs f.negA (w.selF f.a l)).scale (sval (w.selW f.b l))))
/-- FLDEXP with an integer immediate (R168, R173). -/
def execFldexpImm (f : FmtVI) (s : State) : Out :=
  fltWord (.fldexpImm f) s {} (selReg f.a) f.vd.toNat (fun w l =>
    w.fout w.modeField false ((w.fin false false (w.selF f.a l)).scale (sval (imm31Int f.imm))))

/-- The exponent e of A = m × 2^e with 0.5 ≤ |m| < 1; 0 for zeros, infinities and NaN (R173). -/
def FVal.expo : FVal → Int
  | .fin _ q => if q = 0 then 0 else ilog2 q.num.toNat q.den + 1
  | _ => 0
/-- FFREXP (R173). -/
def execFfrexp (f : FmtV) (s : State) : Out :=
  fltWord (.ffrexp f) s {} (srcRegs f 1) f.vd.toNat (fun w l =>
    let a := w.fin false false (w.selF f.a l)
    if f.fn = 0 then w.fout .rne false (a.scale (-a.expo)) else wrap32 a.expo)

/-! ### Packed 16-bit (R174, R175) -/

/-- The format FN selects. -/
def packedFmt (fn : BitVec 4) : Fmt := if fn = 0 then .f16 else .bf16
/-- Element e of a packed word. -/
def half (x : W32) (e : Nat) : Nat := x.toNat / 65536 ^ e % 65536
/-- An element operand: flushed in its format, then ABS, then NEG (R86, R88, R174). -/
def Wave.hin (w : Wave) (h : Fmt) (abs neg : Bool) (x : Nat) : FVal :=
  let v := h.value (h.flush w.flushIn x)
  let v := if abs then v.abs else v
  if neg then v.neg else v
/-- A rounded element: flushed, then saturated. -/
def Wave.hout (w : Wave) (h : Fmt) (m : RMode) (sat : Bool) (v : FVal) : Nat :=
  let y := h.flush w.flushOut (h.convert m v).code
  if sat then h.sat01 y else y
def usePacked (f : FmtV) : LegacyUse := { xprec := true, fp16 := decide (f.fn = 0) }
/-- A packed word, element by element. -/
def packedWord (i : Instr) (f : FmtV) (srcs : Nat) (s : State) (g : RMode → FVal → FVal → FVal → FVal) : Out :=
  let h := packedFmt f.fn
  fltWord i s (usePacked f) (srcRegs f srcs) f.vd.toNat (fun w l =>
    let m := w.rnd f.rnd
    let y := fun e => w.hout h m f.sat (g m (w.hin h f.abs f.negA (half (w.selH h f.a l) e))
      (w.hin h f.abs f.negB (half (w.selH h f.b l) e)) (w.hin h false false (half (w.selH h f.c l) e)))
    BitVec.ofNat 32 (y 0 + 65536 * y 1))

/-- HADD2 (R175). -/
def execHadd2 (f : FmtV) (s : State) : Out := packedWord (.hadd2 f) f 2 s (fun m a b _ => FVal.sum m [a, b])
/-- HMUL2 (R175). -/
def execHmul2 (f : FmtV) (s : State) : Out := packedWord (.hmul2 f) f 2 s (fun _ a b _ => FVal.mul false a b)
/-- HFMA2 (R175). -/
def execHfma2 (f : FmtV) (s : State) : Out :=
  packedWord (.hfma2 f) f 3 s (fun m a b c => FVal.sum m [FVal.mul false a b, c])
/-- HDOT2 (R175): an exact sum in FP32, rounded once. -/
def execHdot2 (f : FmtV) (s : State) : Out :=
  let h := packedFmt f.fn
  fltWord (.hdot2 f) s (usePacked f) (srcRegs f 3) f.vd.toNat (fun w l =>
    let m := w.rnd f.rnd
    let p := fun e => FVal.mul false (w.hin h f.abs f.negA (half (w.selH h f.a l) e))
      (w.hin h f.abs f.negB (half (w.selH h f.b l) e))
    w.fout m f.sat (FVal.sum m [p 0, p 1, w.fin false false (w.selF f.c l)]))

end Sys2Proof.Machine
end

