-- ==== Sys2Proof/Machine/Lane.lean ====
section
/-! DEFINITION. The lane words (R183–R191): movement, ballots, reductions, matching and histograms among a wave's lanes. -/

namespace Sys2Proof.Machine

/-! ### Movement (R185, R186) -/

/-- Lane j of a source, or 0 beyond the width (R184). -/
def Wave.laneOr0 (w : Wave) (a : Sel) (j : Nat) : W32 := if j < w.width then w.selW a j else 0

/-- LBCAST (R185). -/
def execLbcast (f : FmtV) (s : State) : Out :=
  laneWord (.lbcast f) s (srcRegs f 1) f.vd.toNat (fun w _ => w.laneOr0 f.a ((w.selW f.b 0).toNat % 128))
/-- LSHUF (R185). -/
def execLshuf (f : FmtV) (s : State) : Out :=
  laneWord (.lshuf f) s (srcRegs f 2) f.vd.toNat (fun w l => w.laneOr0 f.a (w.selW f.b l).toNat)
/-- LROT (R185). -/
def execLrot (f : FmtV) (s : State) : Out :=
  laneWord (.lrot f) s (srcRegs f 1) f.vd.toNat (fun w l => w.selW f.a ((l + (w.selW f.b 0).toNat) % w.width))
/-- LQUAD (R186). A hit lane has no quad, and the rule states LDERIV's +0 alone: LQUAD reads the lanes 4q to 4q + 3 about it as for
any lane (DESIGN CHOICE, log entry 128). -/
def execLquad (f : FmtV) (s : State) : Out :=
  laneWord (.lquad f) s (srcRegs f 1) f.vd.toNat (fun w l =>
    let i := l % 4
    let j := match f.fn.toNat with
      | 0 => i.xor 1
      | 1 => i.xor 2
      | 2 => i.xor 3
      | _ => (w.selW f.b 0).toNat % 4
    w.selW f.a (l - i + j))
/-- LDERIV (R186): differences within a quad; a hit lane receives +0. -/
def execLderiv (f : FmtV) (s : State) : Out :=
  fltWord (.lderiv f) s {} (srcRegs f 1) f.vd.toNat (fun w l =>
    if w.hit.getLsbD l then 0
    else
      let i := l % 4
      let pq := match f.fn.toNat with
        | 0 => if i < 2 then (1, 0) else (3, 2)
        | 1 => if i % 2 = 0 then (2, 0) else (3, 1)
        | 2 => (1, 0)
        | _ => (2, 0)
      let a := fun j => w.fin false false (w.selF f.a (l - i + j))
      w.fout (w.rnd f.rnd) false (FVal.sum (w.rnd f.rnd) [a pq.1, (a pq.2).neg]))

/-! ### Scalar results (R187) -/

/-- LBALLOT (R187). -/
def execLballot (f : FmtV) (s : State) : Out :=
  maskWord (.lballot f) s (srcRegs f 1) f.vd.toNat (fun w l => !decide (w.selW f.a l = 0))
/-- A lane word with a scalar result and SCC. -/
def laneScalar (i : Instr) (f : FmtV) (s : State) (g : Wave → W32 × Bool) : Out :=
  aluWord i s (fun w =>
    if w.regRange (srcRegs f 1) then .error w.regRangeTrap
    else let r := g w
         .ok ((w.writeS f.vd.toNat r.1).setScc r.2))
/-- LFIRST (R187). -/
def execLfirst (f : FmtV) (s : State) : Out :=
  laneScalar (.lfirst f) f s (fun w =>
    match w.lanes with
    | [] => (if f.fn = 0 then 0 else 0xFFFFFFFF, false)
    | l :: _ => (if f.fn = 0 then w.selW f.a l else BitVec.ofNat 32 l, true))
/-- LCOUNT (R187). -/
def execLcount (f : FmtV) (s : State) : Out :=
  laneScalar (.lcount f) f s (fun w =>
    let n := if f.fn = 0 then w.lanes.length else (w.lanes.filter (fun l => !decide (w.selW f.a l = 0))).length
    (BitVec.ofNat 32 n, decide (0 < n)))

/-! ### Reductions (R188) -/

/-- The integer operations FN 0–7. -/
def redOp (fn : Nat) (a b : W32) : W32 :=
  match fn with
  | 0 => a + b
  | 1 => minI false a b
  | 2 => maxI false a b
  | 3 => minI true a b
  | 4 => maxI true a b
  | 5 => a &&& b
  | 6 => a ||| b
  | _ => a ^^^ b
/-- The identities of R188. -/
def redIdentity (fn : Nat) : W32 :=
  match fn with
  | 1 => 0x7FFFFFFF | 2 => 0x80000000 | 3 => 0xFFFFFFFF | 5 => 0xFFFFFFFF
  | 9 => 0x7F800000 | 10 => 0xFF800000 | _ => 0
/-- One FP32 addition of FN 8 with its flushing and rounding, on stored bits (R86, R188). That the running sum is itself flushed on
input at the next addition is the model's choice (DESIGN CHOICE, log entry 15): the rule names the values Fold reads alone. -/
def Wave.addBits (w : Wave) (m : RMode) (a b : W32) : W32 :=
  w.fout m false (FVal.sum m [w.fin false false a, w.fin false false b])
/-- FN 9 and 10 on the values read (R87, R90): nothing between the first lane and the last is flushed. -/
def Wave.redMinMax (w : Wave) (fn : Nat) (m : RMode) (a b : FVal) : FVal := if fn = 9 then fminVal w m a b else fmaxVal w m a b
/-- Fold over lanes, ascending (R188). An FP32 fold reads every value with input flushing, the first included; what it writes is
flushed on output and canonical, with one lane too. -/
def Wave.foldLanes (w : Wave) (f : FmtV) (ls : List Nat) : W32 :=
  let fn := f.fn.toNat
  let m := w.rnd f.rnd
  match ls with
  | [] => redIdentity fn
  | l :: rest =>
    if fn < 8 then rest.foldl (fun acc j => redOp fn acc (w.selW f.a j)) (w.selW f.a l)
    else if fn = 8 ∧ !rest.isEmpty then rest.foldl (fun acc j => w.addBits m acc (w.selF f.a j)) (w.selF f.a l)
    else
      w.fout m false (rest.foldl (fun acc j => w.redMinMax fn m acc (w.fin false false (w.selF f.a j)))
        (w.fin false false (w.selF f.a l)))
/-- The legacy requests that govern a lane word: those of R91 for the FP32 forms, none otherwise. -/
def Wave.laneLegacy (w : Wave) (flt : Bool) : Option Nat := if flt then w.legacy {} else none

/-- LRED (R188). -/
def execLred (f : FmtV) (s : State) : Out :=
  aluWord (.lred f) s (fun w =>
    if w.regRange (srcRegs f 1) then .error w.regRangeTrap
    else
      match w.laneLegacy (decide (8 ≤ f.fn.toNat)) with
      | some n => .error (w.legacyTrap n)
      | none => .ok (w.writeS f.vd.toNat (w.foldLanes f w.lanes)))
/-- LSCAN (R188): B = 0 inclusive, B = 1 exclusive. -/
def execLscan (f : FmtV) (s : State) : Out :=
  aluWord (.lscan f) s (fun w =>
    if w.regRange (f.vd.toNat :: srcRegs f 1) then .error w.regRangeTrap
    else
      match w.laneLegacy (decide (8 ≤ f.fn.toNat)) with
      | some n => .error (w.legacyTrap n)
      | none => .ok (w.perLane f.vd.toNat (fun l =>
          w.foldLanes f (w.lanes.filter (fun j => if f.b = 385 then decide (j < l) else decide (j ≤ l))))))

/-! ### Matching (R189) -/

/-- Whether two lanes' keys match. -/
def Wave.keysMatch (w : Wave) (f : FmtV) (l j : Nat) : Bool :=
  if f.fn = 0 then decide (w.selW f.a l = w.selW f.a j)
  else decide (l = j) || (f32Val (w.selF f.a l)).eqv (f32Val (w.selF f.a j))
/-- LMATCH (R189): word b of the set to v[d + b]; class L. -/
def execLmatch (f : FmtV) (s : State) : Out :=
  aluWord (.lmatch f) s (fun w =>
    let d := f.vd.toNat
    if w.regRange (run d w.beats ++ srcRegs f 1) then .error w.regRangeTrap
    else .ok (w.longWrite 0x67 f.la.toNat (w.lanes.flatMap (fun l =>
      (List.range w.beats).map (fun b => (d + b, l, w.beatBits (w.keysMatch f l) b)))) []))

/-! ### Histograms (R190, R191) -/

/-- The number of bins C gives (R190). -/
def Wave.bins (w : Wave) (c : Sel) : Nat := min (w.selW c 0).toNat 64
/-- LHIST (R190): each lane adds into its own bin; class L. -/
def execLhist (f : FmtV) (s : State) : Out :=
  aluWord (.lhist f) s (fun w =>
    let d := f.vd.toNat
    let n := w.bins f.c
    if w.regRange ((d :: run d n) ++ srcRegs f 2) then .error w.regRangeTrap
    else
      match w.laneLegacy (decide (f.fn = 1)) with
      | some e => .error (w.legacyTrap e)
      | none => .ok (w.longWrite 0x68 f.la.toNat (w.lanes.flatMap (fun l =>
          let i := (w.selW f.a l).toNat
          if i < n then
            [(d + i, l,
              if f.fn = 0 then ires false f.sat ((zval (w.readV (d + i) l) : Int) + (zval (w.selW f.b l) : Int))
              else
                let y := w.addBits (w.rnd f.rnd) (w.readV (d + i) l) (w.selF f.b l)
                if f.sat then sat01 y else y)]
          else [])) []))

/-- The sum of bin k across the active lanes (R191). Its FP32 additions flush in and out one by one, which R184 and R191 leave open
(DESIGN CHOICE, log entry 129). -/
def Wave.binSum (w : Wave) (f : FmtV) (k : Nat) : W32 :=
  let r := f.a.toNat + k
  if f.fn.toNat < 2 then ires false f.sat (w.lanes.foldl (fun acc l => acc + (zval (w.readV r l) : Int)) 0)
  else
    let y := w.lanes.foldl (fun acc l => w.addBits (w.rnd f.rnd) acc (w.readV r l)) 0
    if f.sat then sat01 y else y
/-- LMERGE (R191): sums to lane 0 of the run, or to scalar registers; class L. With n = 0 it has no effect and does not trap, whatever
VD is (DESIGN CHOICE, log entry 130: the rule also asks d + n − 1 ≤ 103). -/
def execLmerge (f : FmtV) (s : State) : Out :=
  aluWord (.lmerge f) s (fun w =>
    let n := w.bins f.c
    let scalar := f.fn.getLsbD 0
    if scalar && decide (0 < n) && !decide (f.vd.toNat + n - 1 ≤ 103) then .error w.illegal
    else if w.regRange (f.a.toNat :: run f.a.toNat n) then .error w.regRangeTrap
    else
      match w.laneLegacy (decide (2 ≤ f.fn.toNat)) with
      | some e => .error (w.legacyTrap e)
      | none =>
        .ok (if scalar then w.longWrite 0x69 f.la.toNat [] ((List.range n).map (fun k => (f.vd.toNat + k, w.binSum f k)))
             else w.longWrite 0x69 f.la.toNat ((List.range n).map (fun k => (f.a.toNat + k, 0, w.binSum f k))) []))

end Sys2Proof.Machine
end

