-- ==== Sys2Proof/Machine/Sources.lean ====
section
/-! DEFINITION. The register sources of a word (R108–R118), for the uncorrectable errors it consumes (R291, R292). -/

namespace Sys2Proof.Machine

/-- The scalar registers and the vector registers a word reads, and further registers of single lanes; `across` says that lanes read
other lanes' registers. -/
structure Srcs where
  ss : List Nat
  vs : List Nat
  one : List (Nat × Nat)
  across : Bool
  deriving DecidableEq, Repr

def Srcs.none : Srcs := ⟨[], [], [], false⟩
def Srcs.of (ss vs : List Nat) : Srcs := ⟨ss, vs, [], false⟩
def Srcs.join (a b : Srcs) : Srcs := ⟨a.ss ++ b.ss, a.vs ++ b.vs, a.one ++ b.one, a.across || b.across⟩
/-- A scalar pair. -/
def pairS (r : Nat) : List Nat := [r, r + 1]
/-- The source of a selector, or of the pair it names (R119, R120). -/
def selSrc (sel : Sel) : Srcs :=
  if sel.toNat < 256 then .of [] [sel.toNat] else if sel.toNat < 384 then .of [sel.toNat - 256] [] else .none
def selSrc64 (sel : Sel) : Srcs :=
  if sel.toNat < 256 then .of [] [sel.toNat, sel.toNat + 1]
  else if sel.toNat < 384 then .of (pairS (sel.toNat - 256)) [] else .none
/-- The second operand of a scalar word. -/
def sopSrc (b : SOp) : List Nat := match b with | .reg r => [r.toNat] | .imm _ => []
def sopSrc64 (b : SOp) : List Nat := match b with | .reg r => pairS r.toNat | .imm _ => []
/-- A scalar word of two operands. -/
def srcsS (f : FmtS) : Srcs := .of (f.sa.toNat :: sopSrc f.b) []
def srcsS64 (f : FmtS) : Srcs := .of (pairS f.sa.toNat ++ sopSrc64 f.b) []
/-- A vector word of one, two or three operands. -/
def srcsV (f : FmtV) (n : Nat) : Srcs :=
  (selSrc f.a).join ((if 2 ≤ n then selSrc f.b else .none).join (if 3 ≤ n then selSrc f.c else .none))
/-- A word whose lanes read A in other lanes. -/
def crossV (f : FmtV) (n : Nat) : Srcs := { srcsV f n with across := true }
/-- The registers that test a condition (R195). -/
def condSrc (cond : BitVec 4) (ca : SReg) : List Nat :=
  match cond.toNat with
  | 1 => [126]
  | 2 => [126]
  | 3 => [ca.toNat]
  | 4 => [ca.toNat]
  | _ => []
/-- The address registers of a memory word (R310): the base pair, and VOFF or its pair. -/
def srcsAddr (f : FmtM) (a64 : Bool) : Srcs :=
  .of (if f.base = 126 then [] else pairS f.base.toNat)
    (if f.voff = 255 then [] else if a64 then pairS f.voff.toNat else [f.voff.toNat])
/-- A vector store: its addresses and its data. -/
def srcsStore (f : FmtM) (a64 : Bool) : Srcs :=
  (srcsAddr f a64).join (.of [] (run f.data.toNat (sizeRun (f.fn.toNat % 8))))
/-- A channel or engine word: its descriptor pair, and its count register where IMMN is clear. -/
def srcsCnt (f : FmtE) : List Nat := if f.flags.getLsbD 0 then [] else [f.cnt.toNat]
def srcsDesc (f : FmtE) (count : Bool) : Srcs := .of (pairS f.desc.toNat ++ (if count then srcsCnt f else [])) []

/-- The sources of an instruction word. The graphics words find their own (R263). -/
def Wave.sources (w : Wave) (i : Instr) : Srcs :=
  match i with
  | .sadd f | .ssub f => if f.fn = 2 then (srcsS f).join (.of [126] []) else (srcsS f)
  | .smul f | .smulhi f | .sdiv f | .sand f | .sor f | .sxor f | .sshl f | .sshr f | .srot f | .scmp f | .smin f | .smax f
  | .sbfx f => (srcsS f)
  | .ssel f => (srcsS f).join (.of [126] [])
  | .smov f => .of (sopSrc f.b) []
  | .sbfi f => (srcsS f).join (.of [f.sd.toNat] [])
  | .sbitc f => .of [f.sa.toNat] []
  | .sadd64 f | .ssub64 f => srcsS64 f
  | .smad64 f => (srcsS f).join (.of (pairS f.sd.toNat) [])
  | .vadd f | .vsub f | .vmul f | .vmulhi f | .vand f | .vor f | .vxor f | .vshl f | .vshr f | .vrot f | .vmin f | .vmax f
  | .vcmp f | .fadd f | .fsub f | .fmul f | .fmin f | .fmax f | .fcmp f | .fldexp f | .hadd2 f | .hmul2 f | .cvtunp f => srcsV f 2
  | .vmad f | .vbfx f | .vsad f | .vdot4 f | .vperm f | .ffma f | .hfma2 f | .hdot2 f => srcsV f 3
  | .vmov f | .vbitc f | .frnd f | .ffract f | .fclass f | .ffrexp f | .cvtfi f | .cvtif f | .cvtff f | .cvtqb f | .frcp f
  | .frsq f | .fsqrt f | .fexp2 f | .flog2 f | .fsin f | .fcos f | .ftanh f | .lballot f | .lred f | .lscan f | .lmatch f
  | .lfirst f | .lcount f => srcsV f 1
  | .vaddImm f | .vsubImm f | .vmulImm f | .vmulhiImm f | .vandImm f | .vorImm f | .vxorImm f | .vshlImm f | .vshrImm f
  | .vrotImm f | .vminImm f | .vmaxImm f | .vcmpImm f | .faddImm f | .fsubImm f | .fmulImm f | .fminImm f | .fmaxImm f
  | .fcmpImm f | .fldexpImm f => selSrc f.a
  | .vbfi f => (srcsV f 3).join (.of [] [f.vd.toNat])
  | .vadd64 f => (selSrc64 f.a).join (if f.fn = 0 then selSrc64 f.b else selSrc f.b)
  | .vadd64Imm f => selSrc64 f.a
  | .vmad64 f => (srcsV f 2).join (selSrc64 f.c)
  | .cvtpk f => (srcsV f 2).join (.of [] [f.vd.toNat])
  | .lbcast f | .lshuf f | .lrot f => crossV f 2
  | .lquad f => crossV f (if f.fn = 3 then 2 else 1)
  | .lderiv f => crossV f 1
  | .lhist f => (srcsV f 3).join ⟨[], [], w.lanes.filterMap (fun l =>
      if (w.selW f.a l).toNat < w.bins f.c then some (f.vd.toNat + (w.selW f.a l).toNat, l) else none), false⟩
  | .lmerge f => (selSrc f.c).join (.of [] (run f.a.toNat (w.bins f.c)))
  | .vsel f => (srcsV f 2).join (if selScalar f.c then .of (run (f.c.toNat - 256) w.beats) [] else selSrc f.c)
  | .bra f | .halt f | .trap f => .of (condSrc f.cond f.ca) []
  | .brs f | .loop f | .sleep f | .waitc f => .of (if f.ca = 0 then [] else [f.ca.toNat]) []
  | .brm f => .of (run f.ca.toNat w.beats) []
  | .brx f => .of (condSrc f.cond 0 ++ pairS f.ca.toNat) []
  | .ret f => .of (condSrc f.cond 0 ++ [f.ca.toNat]) []
  | .mask f => .of (if f.cx = 4 then [] else run f.ca.toNat w.beats) []
  | .ldl f | .lds f | .ldc f | .ldp f => srcsAddr f false
  | .ldg f | .ldq f | .pfg f | .discard f => srcsAddr f (decide (8 ≤ f.fn.toNat))
  | .stl f | .sts f | .stc f | .stp f => srcsStore f false
  | .stg f => srcsStore f (decide (8 ≤ f.fn.toNat))
  | .sld f | .clean f | .inval f => srcsAddr f false
  | .tld f => (srcsAddr f false).join (if 8 ≤ f.fn.toNat then .of (pairS (f.base.toNat + 2)) [] else .none)
  | .sst f => (srcsAddr f false).join (.of (run f.data.toNat (sizeRun f.fn.toNat)) [])
  | .tst f => (srcsAddr f false).join (if 8 ≤ f.fn.toNat then .of (pairS (f.base.toNat + 2)) [f.data.toNat] else .of [] [f.data.toNat])
  | .atom f | .red f => (srcsAddr f false).join (.of [] (run f.data.toNat (if f.fn.toNat < 12 then 1 else 2)))
  | .acas f => (srcsAddr f false).join (.of [] (run f.data.toNat (if f.fn = 0 then 2 else 4)))
  | .chdef f | .cpyg f | .idxwalk f | .publish f => srcsDesc f false
  | .chres f | .chacq f => .of (srcsCnt f) []
  | .chcom f | .chrel f => .of (f.desc.toNat :: srcsCnt f) []
  | .cpyin f | .cpyout f | .gather f => srcsDesc f true
  | .ecplDep f => .of (pairS f.desc.toNat ++ pairS f.cnt.toNat) []
  | .sqpush f => .of [] [f.qd.toNat]
  | .phbeg f => .of [f.sa.toNat] []
  | .launch f | .rsub f => .of (pairS f.sa.toNat) []
  | .tsdep f | .tscpy f | .tstake f | .tscpyn f | .tstaken f => .of (f.blk.toNat :: pairS f.space.toNat) []
  | .swr f | .cntcfg f => .of [f.sa.toNat] []
  | .cntrd f => .of (if f.sa = 127 then [] else [f.sa.toNat]) []
  | _ => .none

/-- The lanes of a word that meet an uncorrectable error in its source registers (R291): every active lane where a scalar source is
bad; for a word that reads across lanes, the lanes whose registers are bad. -/
def Wave.srcBad (w : Wave) (x : Srcs) : Option (BitVec 96) :=
  if w.badW.isEmpty then none
  else if x.ss.any (fun r => decide (badKeyS r ∈ w.badW)) then some w.mask
  else
    match (if x.across then w.allLanes else w.lanes).filter (fun l => x.vs.any (fun n => decide (badKeyV n l ∈ w.badW))
      || x.one.any (fun y => decide (y.2 = l) && decide (badKeyV y.1 l ∈ w.badW))) with
    | [] => none
    | ls => some (maskOf ls)

end Sys2Proof.Machine
end

