-- ==== Sys2Proof/Machine/Special.lean ====
section
/-! DEFINITION. The special functions (R92, R93, R181, R182): exact reciprocals and roots, and for the others a fixed but
unstated choice among the results within the bound of R92, measured against the function computed to some 400 bits. -/

namespace Sys2Proof.Machine

/-! ### Fixed-point series, in units of 2^-400 -/

def fixOne : Nat := 2 ^ 400
/-- Σ x^j / j! from j = k, for 0 ≤ x < 1. -/
def expSeries (x : Nat) : Nat → Nat → Nat → Nat
  | 0, _, _ => 0
  | n + 1, k, term => term + expSeries x n (k + 1) (term * x / (fixOne * (k + 1)))
/-- e^x for 0 ≤ x < 1. -/
def expFix (x : Nat) : Nat := expSeries x 100 0 fixOne
/-- Σ y^(2j+1) / (2j+1), alternating when `alt`. -/
def atanhSeries (y2 : Nat) (alt : Bool) : Nat → Nat → Nat → Int
  | 0, _, _ => 0
  | n + 1, k, pow =>
    (pow / (2 * k + 1) : Nat) + (if alt then -1 else 1) * atanhSeries y2 alt n (k + 1) (pow * y2 / fixOne)
/-- atanh of a fixed-point y with 0 ≤ y ≤ 1/3. -/
def atanhFix (y : Nat) : Int := atanhSeries (y * y / fixOne) false 140 0 y
/-- arctan of 1/n. -/
def atanInv (n : Nat) : Int := atanhSeries (fixOne / (n * n)) true 200 0 (fixOne / n)
/-- ln 2. -/
def ln2Fix : Int := 2 * atanhFix (fixOne / 3)
/-- π, by Machin's formula. -/
def piFix : Int := 16 * atanInv 5 - 4 * atanInv 239
/-- Σ (-1)^j x^(2j+k) / (2j+k)! from a first term: sine from x at k = 1, cosine from 1 at k = 0. -/
def trigSeries (x : Int) : Nat → Nat → Int → Int
  | 0, _, _ => 0
  | n + 1, k, term =>
    term + trigSeries x n (k + 2) (-(term * x / fixOne * x / fixOne) / (((k + 1) * (k + 2) : Nat) : Int))
/-- A rational as a fixed-point number. -/
def toFix (q : Rat) : Int := (q * mkRat (fixOne : Nat) 1).floor
def ofFix (x : Int) : Rat := mkRat x fixOne

/-- 2^x, for |x| at most 400. -/
def exp2Rat (x : Rat) : Rat :=
  let n := x.floor
  ofFix (expFix ((toFix (x - mkRat n 1) * ln2Fix / fixOne).toNat) : Nat) * pow2 n
/-- log2 of a positive rational. -/
def log2Rat (q : Rat) : Rat :=
  let e := ilog2 q.num.toNat q.den
  let m := q * pow2 (-e)
  mkRat e 1 + mkRat (2 * atanhFix (toFix ((m - 1) / (m + 1))).toNat) ln2Fix.toNat
/-- x reduced modulo 2π. -/
def trigArg (x : Rat) : Int := toFix x % (2 * piFix)
def sinRat (x : Rat) : Rat := ofFix (trigSeries (trigArg x) 130 1 (trigArg x))
def cosRat (x : Rat) : Rat := ofFix (trigSeries (trigArg x) 130 0 fixOne)
/-- tanh of a nonnegative rational. -/
def tanhRat (x : Rat) : Rat :=
  let y := (if 40 < x then 40 else x) * 2
  let e := exp2Rat (y * mkRat (fixOne : Nat) 1 / mkRat ln2Fix 1)
  (e - 1) / (e + 1)

/-! ### Results within a bound (R92) -/

/-- One unit in the last place of an FP32 code. -/
def ulpOf (code : Nat) : Rat := pow2 (((max 1 (code / 2 ^ 23 % 256) : Nat) : Int) - 150)
/-- FP32 codes in the order of their values; both zeros stand at 0. -/
def codeOrd (code : Nat) : Int := if 2 ^ 31 ≤ code then -((code - 2 ^ 31 : Nat) : Int) else (code : Int)
def ordCodes (o : Int) : List Nat := if o < 0 then [2 ^ 31 + o.natAbs] else if o = 0 then [0, 2 ^ 31] else [o.toNat]
/-- The codes within `k` units in the last place of the correctly rounded result of the exact value `y` (R92): below a power of two
codes lie half such a unit apart, so that up to 2k codes on either side can be within the bound. -/
def nearCodes (k : Nat) (y : Rat) : List Nat :=
  let base := (f32Round .rne (FVal.ofRat false y)).toNat
  let near := (List.range (4 * k + 1)).flatMap (fun (i : Nat) => ordCodes (codeOrd base + (i : Int) - (2 * k : Nat)))
  base :: near.filter (fun c =>
    match Fmt.f32.value c with
    | .fin s q => decide ((signed s q - y).abs ≤ (k : Int) * ulpOf base)
    | _ => false)
/-- The result a fixed function of opcode, input and flush state picks (R93). -/
def Wave.near (w : Wave) (op k : Nat) (a : FVal) (y : Rat) : FVal :=
  let cs := nearCodes k y
  f32Val (BitVec.ofNat 32
    (cs.getD (Config.specialPick op (f32Round .rne a) (bitAt w.flushIn 0 + bitAt w.flushOut 1) % cs.length) 0))

/-! ### The words -/

/-- A special function of opcode `op` (R181, R182): its writes are withheld through its lookahead window. -/
def specialWord (op : Nat) (i : Instr) (u : LegacyUse) (f : FmtV) (s : State) (g : Wave → RMode → FVal → FVal) : Out :=
  aluWord i s (fun w =>
    if w.regRange (f.vd.toNat :: srcRegs f 1) then .error w.regRangeTrap
    else
      match w.legacy u with
      | some n => .error (w.legacyTrap n)
      | none =>
        let m := w.rnd f.rnd
        .ok (w.longWrite op f.la.toNat (w.lanes.map (fun l =>
          (f.vd.toNat, l, w.fout m f.sat (g w m (w.fin f.abs f.negA (w.selF f.a l)))))) []))

/-- FRCP (R92, R182): correctly rounded, or within 1 ulp under LRCP. -/
def execFrcp (f : FmtV) (s : State) : Out :=
  specialWord 0x58 (.frcp f) {} f s (fun w _ a =>
    match a with
    | .fin _ q => if w.lrcp && !decide (q = 0) then w.near 0x58 1 a (frcpVal a).toRat else frcpVal a
    | _ => frcpVal a)
/-- FRSQ (R92, R182). -/
def execFrsq (f : FmtV) (s : State) : Out :=
  specialWord 0x59 (.frsq f) {} f s (fun w _ a =>
    match a with
    | .fin n q => if w.lrcp && !n && !decide (q = 0) then w.near 0x59 1 a (frsqVal a).toRat else frsqVal a
    | _ => frsqVal a)
/-- FSQRT (R92). -/
def execFsqrt (f : FmtV) (s : State) : Out := specialWord 0x5A (.fsqrt f) {} f s (fun _ _ a => fsqrtVal a)
/-- FEXP2 (R92): within 1 ulp. -/
def execFexp2 (f : FmtV) (s : State) : Out :=
  specialWord 0x5B (.fexp2 f) {} f s (fun w _ a =>
    match a with
    | .nan => .nan
    | .inf n => if n then .fin false 0 else .inf false
    | .fin n q =>
      let x := signed n q
      w.near 0x5B 1 a (exp2Rat (if 400 < x then 400 else if x < -400 then -400 else x)))
/-- FLOG2 (R92): within 1 ulp. -/
def execFlog2 (f : FmtV) (s : State) : Out :=
  specialWord 0x5C (.flog2 f) {} f s (fun w _ a =>
    match a with
    | .nan => .nan
    | .inf n => if n then .nan else .inf false
    | .fin n q => if q = 0 then .inf true else if n then .nan else w.near 0x5C 1 a (log2Rat q))
/-- The domain of FSIN and FCOS: |x| at most 256π. -/
def trigDomain (q : Rat) : Bool := decide (toFix q ≤ 256 * piFix)
def useTrig : LegacyUse := { trig := true }
/-- FSIN (R92): within 2 ulp, NaN outside [-256π, 256π]. -/
def execFsin (f : FmtV) (s : State) : Out :=
  specialWord 0x5D (.fsin f) useTrig f s (fun w _ a =>
    match a with
    | .fin n q => if trigDomain q then w.near 0x5D 2 a (sinRat (signed n q)) else .nan
    | _ => .nan)
/-- FCOS (R92). -/
def execFcos (f : FmtV) (s : State) : Out :=
  specialWord 0x5E (.fcos f) useTrig f s (fun w _ a =>
    match a with
    | .fin n q => if trigDomain q then w.near 0x5E 2 a (cosRat (signed n q)) else .nan
    | _ => .nan)
/-- FTANH (R92): within 2 ulp. -/
def execFtanh (f : FmtV) (s : State) : Out :=
  specialWord 0x5F (.ftanh f) {} f s (fun w _ a =>
    match a with
    | .nan => .nan
    | .inf n => .fin n 1
    | .fin n q => w.near 0x5F 2 a (signed n (tanhRat q)))

end Sys2Proof.Machine
end

