-- ==== Sys2Proof/Machine/Graphics.lean ====
section
/-! DEFINITION. The graphics words (R239–R264): traversal, hits, attributes, tiles, textures and pixel output. A word on path
AT reads its data when it issues, one of the times R241 and R248 allow, and writes its destinations at its return. -/

namespace Sys2Proof.Machine

/-! ### Reading for a lane (R248, R262, R263) -/

/-- What a lane's reads have come to: the state, the first access that fails its checks, and the address of the first that
received bad data; `so` says that a page read is SO. -/
structure GRead where
  s : State
  fail : Option (W64 × XErr)
  bad : Option W64
  so : Bool

/-- Read the `n` aligned bytes at `va` as a plain access of a wave (R248, R262): MISALIGNED, the translation, ACCESS_KIND. Once
an access has failed nothing more is read. -/
def GRead.read (r : GRead) (core team : Nat) (va : W64) (n : Nat) : GRead × List Byte :=
  let zeros := List.replicate n (0 : Byte)
  if r.fail.isSome then (r, zeros)
  else if va.toNat % n ≠ 0 then ({ r with fail := some (va, misaligned) }, zeros)
  else
    match r.s.translate (clusterOf core) va .read with
    | .error e => ({ r with fail := some (va, e) }, zeros)
    | .ok x =>
      if x.kind = .ts then ({ r with fail := some (va, accessKind) }, zeros)
      else
        let y := (r.s.touchTlb (clusterOf core) va).unitRead 2 core team ⟨0, va, x.pa, n, .glob, x.kind, x.buf, .read, false, 0, false, 0⟩
        (⟨y.1, none, if y.2.2 then some (r.bad.getD va) else r.bad, r.so || decide (x.kind = .so)⟩, y.2.1)

/-- What the lanes of a word came to: the state after their reads, the failing lanes, the lanes with bad data, whether an
SO page was read, and each lane's result. -/
structure GLanes (α : Type) where
  s : State
  so : Bool
  fails : List (Nat × W64 × XErr)
  bads : List (Nat × W64)
  outs : List (Nat × α)

/-- Run a word lane by lane, ascending. -/
def gLanes {α : Type} (s : State) (lanes : List Nat) (f : GRead → Nat → GRead × α) : GLanes α :=
  lanes.foldl (fun (r : GLanes α) l =>
    let y := f ⟨r.s, none, none, false⟩ l
    ⟨y.1.s, r.so || y.1.so, r.fails ++ (match y.1.fail with | some e => [(l, e.1, e.2)] | none => []),
      r.bads ++ (match y.1.bad with | some a => [(l, a)] | none => []), r.outs ++ [(l, y.2)]⟩) ⟨s, false, [], [], []⟩

/-- Bad data reached lanes of a word: ERRSEEN and the count of zero deliveries (R263, R292). -/
def State.gBad (s : State) (c k : Nat) (bads : List (Nat × W64)) (die idx : Nat) : State :=
  if bads.isEmpty then s else (s.updWave c k Wave.errSeen).count 5 die idx bads.length

/-- A word that names a path counter waits while it stands at 63, and while an acquire it must follow is outstanding (R143,
R317). -/
def Wave.gHolds (w : Wave) (p : Path) : Bool := w.full p || w.acquiring
/-- An earlier access of the wave to an SO page has not performed: a read of an SO page waits for it (R346). -/
def Wave.soPending (w : Wave) : Bool :=
  w.reqs.any (fun q => q.accs.any (fun a => !a.done && decide (a.lvl = .glob) && decide (a.kind = .so)))

/-- A word that read bad data, with the address and lanes: it is counted, and the word traps POISON at issue under POISONTRAP, else
ERRSEEN is set and it goes on (R261, R263, R291, R292). -/
def State.gPoison (s : State) (c k : Nat) (w : Wave) (bad : Option (W64 × BitVec 96)) (go : State → Wave → State) : State :=
  match bad with
  | none => go s w
  | some (a, m) =>
    let s := s.countErr (dieOfCore c) 2
    if s.poisonTraps w.team then s.trapAt c k w { cause := 0x12, eaddr := a, fm := m }
    else go s w.errSeen

/-- The addresses at which lanes failed have been looked up in the TLBs (R419). -/
def State.touchFails (s : State) (core : Nat) (fails : List (Nat × W64 × XErr)) : State :=
  fails.foldl (fun s x => s.touchFault core x.2.1 x.2.2) s
/-- End a word whose lanes have run: its traps (R262, R263), or its request, whose return writes `vs` (R241). `src` are the lanes whose
source registers were bad; they have no address (log entry 114). -/
def State.gFinish {α : Type} (s : State) (c k : Nat) (w : Wave) (r : GLanes α) (src : Option (BitVec 96)) (errIdx : Nat)
    (vs : List (Nat × α) → List (Nat × Nat × W32)) : State :=
  match lanesTrap r.fails with
  | some t => (s.touchFails c r.fails).trapAt c k w t
  | none =>
    if r.so && w.soPending then s.setWave c k (w.blockAt s.time 0 0)
    else
      let ret := fun (s : State) (w : Wave) => s.issueReq c k w.done .at w.curWord 0 0 [] (.regs (vs r.outs) []) 0
      match r.bads with
      | [] => r.s.gPoison c k w (src.map (fun m => (0, m))) ret
      | (_, a) :: _ =>
        if s.poisonTraps w.team then
          (r.s.count 5 (dieOfCore c) 2 r.bads.length).trapAt c k w
            { cause := 0x12, eaddr := a, fm := maskOf (r.bads.map (fun b => b.1)) ||| src.getD 0 }
        else ret (r.s.gBad c k r.bads (dieOfCore c) errIdx) w.errSeen

/-- A graphics word of path AT: range and stalls first, then its lanes. `dst` are its destination registers, `ss` and `vs` its
sources. -/
def gfxWord {α : Type} (i : Instr) (s : State) (dst ss vs : List Nat) (errIdx : Nat)
    (lane : Nat → Wave → GRead → Nat → GRead × α) (outs : List (Nat × α) → List (Nat × Nat × W32)) : Out :=
  sysWord i s (fun c k w =>
    if w.regRange (dst ++ vs) then s.trapAt c k w w.regRangeTrap
    else if w.gHolds .at then s.setWave c k (w.blockAt s.time 0 0)
    else s.gFinish c k w (gLanes s w.lanes (lane c w)) (w.srcBad (.of ss vs)) errIdx outs)

/-- The writes of per-lane values to the run from `d`. -/
def runWrites (d : Nat) (outs : List (Nat × List W32)) : List (Nat × Nat × W32) :=
  outs.flatMap (fun o => (List.range o.2.length).map (fun j => (d + j, o.1, o.2.getD j 0)))

/-! ### Exact geometry -/

/-- A point or direction. -/
structure V3 where
  x : Rat
  y : Rat
  z : Rat
  deriving DecidableEq, Repr

def V3.sub (a b : V3) : V3 := ⟨a.x - b.x, a.y - b.y, a.z - b.z⟩
def V3.dot (a b : V3) : Rat := a.x * b.x + a.y * b.y + a.z * b.z
def V3.cross (a b : V3) : V3 := ⟨a.y * b.z - a.z * b.y, a.z * b.x - a.x * b.z, a.x * b.y - a.y * b.x⟩
def V3.ofVals (l : List FVal) (i : Nat) : V3 :=
  ⟨(l.getD i .nan).toRat, (l.getD (i + 1) .nan).toRat, (l.getD (i + 2) .nan).toRat⟩
/-- RNE into FP32 of an exact value; a zero is +0. -/
def outF32 (q : Rat) : W32 := f32Round .rne (FVal.ofRat false q)
/-- The FP32 values of `n` registers of a lane from `r`. -/
def Wave.vals (w : Wave) (r n l : Nat) : List FVal := (List.range n).map (fun i => f32Val (w.readV (r + i) l))

/-! ### RBOX (R243, R245) -/

/-- One child of a node: its number, its near bound, and the pair it gives. -/
structure BoxHit where
  c : Nat
  tn : FVal
  pair : W64
  deriving DecidableEq, Repr

/-- min and max of the two slab distances; a NaN gives near −∞ and far +∞. -/
def slab (t1 t2 : FVal) : FVal × FVal :=
  if t1.isNan || t2.isNan then (.inf true, .inf false) else (t1.minNum t2, t1.maxNum t2)
def maxVal (a b : FVal) : FVal := if a.lt b then b else a
def minVal (a b : FVal) : FVal := if b.lt a then b else a

/-- An interval end of an axis, as FP32: ORIGIN + q × 2^(E − 127) rounded outwards. -/
def boxEnd (m : RMode) (origin : W32) (q e : Nat) : FVal :=
  f32Val (f32Round m (FVal.sum m [f32Val origin, .fin false (mkRat (q : Int) 1 * pow2 ((e : Int) - 127))]))

/-- The test of child `c` (R245): whether it is hit, and its near bound. R245 states no outcome for a NaN tmin or tmax: a free
one. -/
def boxTest (s : State) (ray : List FVal) (node : List Byte) (l c : Nat) : Option FVal :=
  let axes := (List.range 3).map (fun a =>
    let origin := BitVec.ofNat 32 (fieldOf node (4 * a) 4)
    let e := fieldOf node (12 + a) 1
    let o := (ray.getD a .nan).neg
    let inv := ray.getD (6 + a) .nan
    let t := fun (m : RMode) (off : Nat) => FVal.mul false (FVal.sum .rne [boxEnd m origin (fieldOf node (0x20 + 6 * c + off + a) 1) e, o]) inv
    slab (t .rd 0) (t .ru 3))
  let tmin := ray.getD 9 .nan
  let tmax := ray.getD 10 .nan
  if tmin.isNan || tmax.isNan then
    (if s.flip (945100 + 8 * l + c) then some (.fin false (mkRat (s.choose (945100 + 8 * l + c) 4096 : Nat) 1)) else none)
  else
    let tn := axes.foldl (fun a x => maxVal a x.1) tmin
    let tf := axes.foldl (fun a x => minVal a x.2) tmax
    if tf.lt tn then none else some tn

/-- Insert by near bound, an equal one after those before it. -/
def insertHit (h : BoxHit) : List BoxHit → List BoxHit
  | [] => [h]
  | x :: r => if h.tn.lt x.tn then h :: x :: r else x :: insertHit h r

/-- The children of a node that are tested (R245). -/
def boxChildren (node : List Byte) : List Nat :=
  if (List.range 3).any (fun a => decide (fieldOf node (12 + a) 1 = 255)) then []
  else (List.range 4).filter (fun c =>
    let kind := fieldOf node (0x38 + c) 1 % 4
    decide (kind = 1) || decide (kind = 2))
/-- The hits of a ray in a node, in order. -/
def boxHits (s : State) (ray : List FVal) (addr : W64) (node : List Byte) (l : Nat) : List BoxHit :=
  (boxChildren node).foldl (fun hs c =>
    match boxTest s ray node l c with
    | none => hs
    | some tn =>
      let off : W64 := (BitVec.ofNat 32 (fieldOf node (0x10 + 4 * c) 4)).signExtend 64
      insertHit ⟨c, tn, (addr + off * 64) ||| BitVec.ofNat 64 (fieldOf node (0x38 + c) 1 % 4)⟩ hs) []

/-- RBOX's nine registers in a lane. -/
def boxOut (hs : List BoxHit) : List W32 :=
  (List.range 4).flatMap (fun h =>
    let p := match hs[h]? with | some x => x.pair | none => 0
    [p.extractLsb' 0 32, p.extractLsb' 32 32]) ++ [BitVec.ofNat 32 hs.length]

/-- The address a fetch of a node or record reads. -/
def nodeAddr (w : Wave) (vb l : Nat) : W64 := w.readV64 vb l &&& ~~~(63 : W64)
/-- Count the box or triangle tests of a word (R484). -/
def State.countTests (s : State) (c team ev n : Nat) : State := if n = 0 then s else s.pmcCount c ev n team

/-- RBOX in one lane: what its reads leave, and its results. -/
def rboxLane (f : FmtG) (s : State) (c : Nat) (w : Wave) (r : GRead) (l : Nat) : GRead × List W32 :=
  let a := nodeAddr w f.vb.toNat l
  let y := r.read c w.team a 64
  if y.1.bad.isSome then ({ y.1 with bad := some (a &&& ~~~(127 : W64)) }, List.replicate 8 0 ++ [0x80000000])
  else ({ y.1 with s := y.1.s.countTests c w.team 0x1C (boxChildren y.2).length },
        boxOut (boxHits s (w.vals f.va.toNat 11 l) a y.2 l))
/-- RBOX (R245): the node is fetched whole, and a poisoned line ends the ray with LOST (R250). -/
def execRbox (f : FmtG) (s : State) : Out :=
  gfxWord (.rbox f) s (run f.vd.toNat 9) [] (run f.va.toNat 11 ++ [f.vb.toNat, f.vb.toNat + 1]) 8
    (rboxLane f s) (runWrites f.vd.toNat)

/-! ### RTRI (R243, R246) -/

/-- The exact solution of a ray and a triangle: t, u, v, and D·n, unless D·n is 0. -/
structure TriHit where
  t : Rat
  u : Rat
  v : Rat
  dn : Rat
  deriving DecidableEq, Repr

def triSolve (o d v0 v1 v2 : V3) : Option TriHit :=
  let e1 := v1.sub v0
  let e2 := v2.sub v0
  let n := e1.cross e2
  let dn := d.dot n
  if dn = 0 then none
  else
    let p := d.cross e2
    let det := e1.dot p
    let b := o.sub v0
    let q := b.cross e1
    some ⟨e2.dot q / det, b.dot p / det, d.dot q / det, dn⟩

/-- RTRI's six registers in a lane; `cull` is FN. -/
def triOut (cull : Nat) (ray : List FVal) (rec : List Byte) : List W32 :=
  let miss : List W32 := [0x7F800000, 0, 0, 0xFFFFFFFF, 0xFFFFFFFF, 0]
  let vs := (List.range 9).map (fun i => f32Val (BitVec.ofNat 32 (fieldOf rec (4 * i) 4)))
  let ins := ray.take 6 ++ ray.drop 9 ++ vs
  if ins.any (fun v => !v.isFin) then miss
  else
    match triSolve (V3.ofVals ray 0) (V3.ofVals ray 3) (V3.ofVals vs 0) (V3.ofVals vs 3) (V3.ofVals vs 6) with
    | none => miss
    | some h =>
      let tmin := (ray.getD 9 .nan).toRat
      let tmax := (ray.getD 10 .nan).toRat
      let front := decide (h.dn < 0)
      if h.u < 0 ∨ h.v < 0 ∨ 1 < h.u + h.v ∨ h.t < tmin ∨ tmax < h.t ∨ (cull = 1 ∧ !front) ∨ (cull = 2 ∧ front) then miss
      else
        [outF32 h.t, outF32 h.u, outF32 h.v, BitVec.ofNat 32 (fieldOf rec 0x28 4), BitVec.ofNat 32 (fieldOf rec 0x2C 4),
          if front then 1 else 2]

/-- RTRI in one lane: what its reads leave, and its results. -/
def rtriLane (f : FmtG) (c : Nat) (w : Wave) (r : GRead) (l : Nat) : GRead × List W32 :=
  let a := nodeAddr w f.vb.toNat l
  let y := r.read c w.team a 64
  if y.1.bad.isSome then
    ({ y.1 with bad := some (a &&& ~~~(127 : W64)) }, [0x7F800000, 0, 0, 0xFFFFFFFF, 0xFFFFFFFF, 3])
  else ({ y.1 with s := y.1.s.countTests c w.team 0x1D 1 }, triOut f.fn.toNat (w.vals f.va.toNat 11 l) y.2)
/-- RTRI (R246), with LOST as RBOX (R250). -/
def execRtri (f : FmtG) (s : State) : Out :=
  gfxWord (.rtri f) s (run f.vd.toNat 6) [] (run f.va.toNat 11 ++ [f.vb.toNat, f.vb.toNat + 1]) 8
    (rtriLane f) (runWrites f.vd.toNat)

/-! ### RPUSH and RPOP (R247) -/

/-- The bounds of the stack, or the trap of R247 for bad ones. -/
def Wave.stackBounds (w : Wave) (sa : SReg) : Option (Nat × Nat) :=
  let x := w.z sa
  let base := x % 65536
  let limit := x / 65536
  if base % 8 = 0 ∧ limit % 8 = 0 ∧ base ≤ limit ∧ limit ≤ w.lanePriv then some (base, limit) else none
/-- The offset a stack-pointer register holds. -/
def spOf (x : W32) : Nat := x.toNat % 65536
/-- The lanes whose offset is misplaced. -/
def Wave.badStacks (w : Wave) (sp : Nat) (base limit : Nat) : List (Nat × W64 × XErr) :=
  (w.lanes.map (fun l => (l, spOf (w.readV sp l)))).filterMap (fun x =>
    if x.2 % 8 = 0 ∧ base ≤ x.2 ∧ x.2 ≤ limit then none else some (x.1, BitVec.ofNat 64 x.2, protection 0 0))

/-- The pushes of one lane: entries, nearest last, and the stack pointer left. -/
def pushLane (entries : List W64) (limit : Nat) (sp0 : W32) : List (Nat × W64) × W32 :=
  let r := entries.reverse.foldl (fun (r : List (Nat × W64) × Nat × Bool) e =>
    if r.2.1 + 8 ≤ limit then (r.1 ++ [(r.2.1, e)], r.2.1 + 8, r.2.2) else (r.1, r.2.1, true)) ([], spOf sp0, sp0.getLsbD 31)
  (r.1, BitVec.ofNat 32 (r.2.1 + bitAt r.2.2 31))

/-- RPUSH (R247). -/
def execRpush (f : FmtG) (s : State) : Out :=
  sysWord (.rpush f) s (fun c k w =>
    let d := f.vd.toNat
    if w.regRange (d :: f.vb.toNat :: run f.va.toNat 8) then s.trapAt c k w w.regRangeTrap
    else if w.full .lp then s.setWave c k (w.blockAt s.time 0 0)
    else
      match w.stackBounds f.sa with
      | none => s.trapAt c k w (w.protTrap 0)
      | some (base, limit) =>
        match lanesTrap (w.badStacks d base limit) with
        | some t => s.trapAt c k w t
        | none =>
          let xs := w.lanes.map (fun l =>
            let n := min ((w.readV f.vb.toNat l).toNat % 8) 4
            (l, pushLane ((List.range n).map (fun i => w.readV64 (f.va.toNat + 2 * i) l)) limit (w.readV d l)))
          let accs := xs.flatMap (fun x => x.2.1.map (fun e =>
            (⟨x.1, BitVec.ofNat 64 e.1, lpKey x.1 e.1, 8, .lp, .rc, false, .write e.2.toNat, false, 0, false, 0⟩ : Access)))
          s.gPoison c k w ((w.srcBad (.of [f.sa.toNat] (d :: f.vb.toNat :: run f.va.toNat 8))).map (fun m => (0, m))) (fun s w =>
            s.issueReq c k w.done .lp w.curWord 0 0 accs (.regs (xs.map (fun x => (d, x.1, x.2.2))) []) 0))

/-- The lane-private store as the wave's earlier stores in flight leave it. -/
def Wave.ownLp (w : Wave) : Mem :=
  w.reqs.foldl (fun m q => q.accs.foldl (fun m a =>
    if a.lvl = .lp ∧ !a.done then (match a.op with | .write x => Mem.writeN m a.pa a.n x | _ => m) else m) m) w.lp

/-- The lanes of an RPOP whose entry holds an uncorrectable error (R263). -/
def Wave.popBad (w : Wave) (p base : Nat) : List Nat :=
  if w.badW.isEmpty then []
  else w.lanes.filter (fun l => decide (base + 8 ≤ spOf (w.readV p l)) && w.lpBad (lpKey l (spOf (w.readV p l) - 8)) 8
    && !w.reqs.any (fun q => q.accs.any (fun a => decide (a.lvl = .lp) && !a.done && decide (a.pa = lpKey l (spOf (w.readV p l) - 8)))))
/-- The lowest lane of a list, as an EADDR can be found for it, with all of them. -/
def badOf (addr : Nat → W64) (ls : List Nat) (src : Option (BitVec 96)) : Option (W64 × BitVec 96) :=
  match ls with
  | [] => src.map (fun m => (0, m))
  | l :: _ => some (addr l, maskOf ls ||| src.getD 0)

/-- RPOP (R247): an empty stack gives a pair of zeros. -/
def execRpop (f : FmtG) (s : State) : Out :=
  sysWord (.rpop f) s (fun c k w =>
    let d := f.vd.toNat
    let p := f.va.toNat
    if w.regRange [d, d + 1, p] then s.trapAt c k w w.regRangeTrap
    else if w.full .lp then s.setWave c k (w.blockAt s.time 0 0)
    else
      match w.stackBounds f.sa with
      | none => s.trapAt c k w (w.protTrap 0)
      | some (base, limit) =>
        match lanesTrap (w.badStacks p base limit) with
        | some t => s.trapAt c k w t
        | none =>
          let m := w.ownLp
          let vs := w.lanes.flatMap (fun l =>
            let x := w.readV p l
            let sp := spOf x
            let y : Nat × Nat := if base + 8 ≤ sp then (sp - 8, Mem.readN m (lpKey l (sp - 8)) 8) else (sp, 0)
            [(d, l, BitVec.ofNat 32 y.2), (d + 1, l, BitVec.ofNat 32 (y.2 / 2 ^ 32)), (p, l, (x &&& 0x80000000) ||| BitVec.ofNat 32 y.1)])
          let bad := badOf (fun l => BitVec.ofNat 64 (spOf (w.readV p l) - 8)) (w.popBad p base) (w.srcBad (.of [f.sa.toNat] [p]))
          s.gPoison c k w bad (fun s w => s.issueReq c k w.done .lp w.curWord 0 0 [] (.regs vs []) 0))

/-! ### Identifiers and their tables (R430, R431) -/

def allOnes64 : W64 := 0xFFFFFFFFFFFFFFFF
def idInst (id : W64) : Nat := id.toNat / 2 ^ 40
def idCluster (id : W64) : Nat := id.toNat / 2 ^ 7 % 2 ^ 33
def idTri (id : W64) : Nat := id.toNat % 128

/-- The instance entry and cluster record of an identifier, unless R431 gives it none, or an uncorrectable error lies in one of the two:
nothing is read through a field that is zero for that (R263). -/
def GRead.records (r : GRead) (core team : Nat) (table id : W64) : GRead × Option (List Byte × List Byte) :=
  if id = allOnes64 then (r, none)
  else
    let e := r.read core team (off64 table (32 * idInst id)) 32
    if e.1.fail.isSome || e.1.bad.isSome || !decide (fieldOf e.2 0x1A 1 % 2 = 1) || decide (fieldOf e.2 0x10 8 ≤ idCluster id) then (e.1, none)
    else
      let q := e.1.read core team (off64 (BitVec.ofNat 64 (fieldOf e.2 0 8)) (64 * idCluster id)) 64
      if q.1.fail.isSome || q.1.bad.isSome || decide (fieldOf q.2 0x0C 1 ≤ idTri id) then (q.1, none) else (q.1, some (e.2, q.2))

/-- The material of an identifier's records (R431). -/
def materialOf (recs : Option (List Byte × List Byte)) : Nat :=
  match recs with
  | none => 0
  | some (e, q) => (if fieldOf q 0x0E 2 = 0xFFFF then fieldOf e 0x18 2 else fieldOf q 0x0E 2) % 4096

/-! ### RHIT (R251) -/

/-- Frame descriptors of the frames live on a die. Which frame's instance table resolves a hit is not stated: a free choice. -/
def State.hitTable (s : State) (core : Nat) : Option W64 :=
  let fs := (s.die (dieOfCore core)).frames
  match fs[s.choose 945002 fs.length]? with
  | some f => some f.desc
  | none => none

/-- RHIT in one lane: its material and its record. -/
def rhitLane (f : FmtG) (s : State) (c : Nat) (w : Wave) (r : GRead) (l : Nat) : GRead × (Nat × BinEntry) :=
  let t := w.readV f.vd.toNat l
  let id := w.readV64 f.vb.toNat l
  let entry := fun (st : Nat) (t : W32) => (⟨w.readV f.va.toNat l, 0, id, t, 0xFFFF, 2, st, 0, 0⟩ : BinEntry)
  if (f32Val t).isNan then (r, (0, entry 2 f32Nan))
  else if id = allOnes64 then (r, (0, entry 1 t))
  else
    match s.hitTable c with
    | none => (r, (s.choose (945200 + l) 4096, entry 0 t))
    | some desc =>
      let h := r.read c w.team desc 8
      if h.1.bad.isSome then (h.1, (0, entry 0 t)) else
      let y := h.1.records c w.team (BitVec.ofNat 64 (ofBytes h.2)) id
      (y.1, (materialOf y.2, entry 0 t))
/-- RHIT (R251): one record for each active lane whose HMASK bit is 0; they enter the bins in lane order as room allows. -/
def execRhit (f : FmtG) (s : State) : Out :=
  sysWord (.rhit f) s (fun c k w =>
    let b := f.vb.toNat
    if w.regRange [f.vd.toNat, f.va.toNat, b, b + 1] then s.trapAt c k w w.regRangeTrap
    else if w.gHolds .at then s.setWave c k (w.blockAt s.time 0 0)
    else
      let r := gLanes s (w.lanes.filter (fun l => !w.hmask.getLsbD l)) (rhitLane f s c w)
      match lanesTrap r.fails with
      | some t => (s.touchFails c r.fails).trapAt c k w t
      | none =>
        if r.so && w.soPending then s.setWave c k (w.blockAt s.time 0 0)
        else
          let src := w.srcBad (.of [] [f.vd.toNat, f.va.toNat, b, b + 1])
          let bad := match r.bads with
            | [] => src.map (fun m => (0, m))
            | (_, a) :: _ => some (a, maskOf (r.bads.map (fun b => b.1)) ||| src.getD 0)
          r.s.gPoison c k w bad (fun s w =>
            (s.idemLost w.team).issueReq c k w.done .at w.curWord 0 0 [] (.rhit (r.outs.map (fun o => o.2))) 0))

/-! ### AFETCH (R252) -/

/-- The storage format of AFETCH's FN. -/
def attrFmt (fn : Nat) : Fmt := match fn with | 0 => .f32 | 1 => .f16 | _ => .bf16
/-- Widen a component exactly, a NaN to the canonical one. -/
def widen (fm : Fmt) (x : Nat) : W32 := f32Round .rne (fm.value x)

/-- The components of one vertex: a bad index or component reads zero (R263). -/
def GRead.vertex (r : GRead) (core team : Nat) (idxAt : W64) (vbase : W32) (base : W64) (stride : Nat) (fm : Fmt) (n : Nat) :
    GRead × List W32 :=
  let was := r.bad
  let x := GRead.read { r with bad := none } core team idxAt 4
  let i := (BitVec.ofNat 32 (ofBytes x.2) + vbase).toNat
  let w := fm.width / 8
  if x.1.bad.isSome then ({ x.1 with bad := if was.isSome then was else x.1.bad }, List.replicate n 0)
  else
    let y := (List.range n).foldl (fun (y : GRead × List W32) j =>
      let z := y.1.read core team (off64 base (i * stride + j * w)) w
      (z.1, y.2 ++ [widen fm (ofBytes z.2)])) (x.1, [])
    ({ y.1 with bad := if was.isSome then was else y.1.bad }, y.2)

/-- AFETCH in one lane: what its reads leave, and its results. -/
def afetchLane (f : FmtG) (c : Nat) (w : Wave) (r : GRead) (l : Nat) : GRead × List W32 :=
  let n := f.imm.toNat + 1
  let zeros : List W32 := List.replicate (3 * n) 0
  let id := w.readV64 f.va.toNat l
  let y := r.records c w.team (w.readS64 f.sa.toNat) id
  match y.2 with
  | none => (y.1, zeros)
  | some (e, q) =>
    let v := y.1.read c w.team (off64 (BitVec.ofNat 64 (fieldOf e 8 8)) (16 * f.idx.toNat)) 16
    if v.1.bad.isSome then (v.1, zeros)
    else
      (List.range 3).foldl (fun (r : GRead × List W32) i =>
        let z := r.1.vertex c w.team (off64 (BitVec.ofNat 64 (fieldOf q 0 8)) (12 * idTri id + 4 * i))
          (BitVec.ofNat 32 (fieldOf q 8 4)) (BitVec.ofNat 64 (fieldOf v.2 0 8)) (fieldOf v.2 8 4) (attrFmt f.fn.toNat) n
        (z.1, r.2 ++ z.2)) (v.1, [])
/-- AFETCH (R252). -/
def execAfetch (f : FmtG) (s : State) : Out :=
  let n := f.imm.toNat + 1
  gfxWord (.afetch f) s (run f.vd.toNat (3 * n)) [f.sa.toNat, f.sa.toNat + 1] [f.va.toNat, f.va.toNat + 1] 2
    (afetchLane f) (runWrites f.vd.toNat)

/-! ### ABARY (R253) -/

/-- A(a, b, c) of R253. -/
def area (a b c : Rat × Rat) : Rat := (b.1 - a.1) * (c.2 - a.2) - (c.1 - a.1) * (b.2 - a.2)
/-- log2 of a cell's width and height in a coverage word; a field of 3 is read as 2 (R258). -/
def coverRx (x : W32) : Nat := min 2 (x.toNat / 2 ^ 16 % 4)
def coverRy (x : W32) : Nat := min 2 (x.toNat / 2 ^ 18 % 4)

/-- Quotient and derivative of q/Σ for q and Σ with slopes. -/
def quotSlope (q dq sum ds : Rat) : Rat := (dq * sum - q * ds) / (sum * sum)

/-- .px: the six results, or none for the cases that give +0. -/
def baryPx (vs : List FVal) (pixel cover : W32) : Option (List Rat) :=
  let v := fun (i : Nat) => ((vs.getD (3 * i) .nan).toRat, (vs.getD (3 * i + 1) .nan).toRat)
  let wt := fun (i : Nat) => (vs.getD (3 * i + 2) .nan).toRat
  let p : Rat × Rat := (mkRat (pixel.toNat % 65536 : Nat) 1 + mkRat (2 ^ coverRx cover : Nat) 2,
    mkRat (pixel.toNat / 65536 : Nat) 1 + mkRat (2 ^ coverRy cover : Nat) 2)
  let lam := fun (p : Rat × Rat) => [area p (v 1) (v 2), area (v 0) p (v 2), area (v 0) (v 1) p]
  if area (v 0) (v 1) (v 2) = 0 ∨ wt 0 = 0 ∨ wt 1 = 0 ∨ wt 2 = 0 then none
  else
    let qs := fun (p : Rat × Rat) => (List.range 3).map (fun i => (lam p).getD i 0 / wt i)
    let q := qs p
    let qx := qs (p.1 + 1, p.2)
    let qy := qs (p.1, p.2 + 1)
    let sum := fun (l : List Rat) => l.getD 0 0 + l.getD 1 0 + l.getD 2 0
    if sum q = 0 then none
    else
      let b := fun (i : Nat) => q.getD i 0 / sum q
      let d := fun (g : List Rat) (i : Nat) => quotSlope (q.getD i 0) (g.getD i 0 - q.getD i 0) (sum q) (sum g - sum q)
      some [b 1, b 2, d qx 1, d qy 1, d qx 2, d qy 2]

/-- .ray: u and v as functions of the direction, with their slopes along two differentials. -/
def baryRay (vs ray : List FVal) : Option (List Rat) :=
  let v0 := V3.ofVals vs 0
  let e1 := (V3.ofVals vs 3).sub v0
  let e2 := (V3.ofVals vs 6).sub v0
  let b := (V3.ofVals ray 0).sub v0
  let u := fun (d : V3) => b.dot (d.cross e2)
  let v := fun (d : V3) => d.dot (b.cross e1)
  let det := fun (d : V3) => e1.dot (d.cross e2)
  let d := V3.ofVals ray 3
  let dx := V3.ofVals ray 11
  let dy := V3.ofVals ray 14
  if det d = 0 then none
  else
    some [u d / det d, v d / det d, quotSlope (u d) (u dx) (det d) (det dx), quotSlope (u d) (u dy) (det d) (det dy),
      quotSlope (v d) (v dx) (det d) (det dx), quotSlope (v d) (v dy) (det d) (det dy)]

/-- ABARY in one lane: what its reads leave, and its results. A lane with a NaN or infinite input and a degenerate case beside it gives the
canonical NaN, which R253 does not settle (DESIGN CHOICE, log entry 136). -/
def abaryLane (f : FmtG) (_c : Nat) (w : Wave) (r : GRead) (l : Nat) : GRead × List W32 :=
  let ray := decide (f.fn = 1)
  let vs := w.vals f.va.toNat 9 l
  let g := if ray then w.vals f.vb.toNat 17 l else []
  let ins := vs ++ g.take 6 ++ g.drop 11
  (r, if ins.any (fun x => !x.isFin) then List.replicate 6 f32Nan
      else
        match (if ray then baryRay vs g else baryPx vs (w.readV f.vb.toNat l) (w.readV (f.vb.toNat + 1) l)) with
        | none => List.replicate 6 0
        | some qs => qs.map outF32)
/-- ABARY (R253): NaN or infinite inputs give the canonical NaN; the degenerate cases +0. The inputs of .ray are the positions,
the origin, the direction and its differentials. -/
def execAbary (f : FmtG) (s : State) : Out :=
  let ray := decide (f.fn = 1)
  gfxWord (.abary f) s (run f.vd.toNat 6) [] (run f.va.toNat 9 ++ run f.vb.toNat (if ray then 17 else 2)) 2
    (abaryLane f) (runWrites f.vd.toNat)

/-! ### AINTERP (R254) -/

/-- One output: a0·[value] + b1 (a1 − a0) + b2 (a2 − a0), or the canonical NaN. -/
def interp (val : Bool) (a b1 b2 : List FVal) (j c : Nat) : W32 :=
  let a0 := a.getD j .nan
  let a1 := a.getD (c + j) .nan
  let a2 := a.getD (2 * c + j) .nan
  let x := b1.headD .nan
  let y := b2.headD .nan
  if [a0, a1, a2, x, y].any (fun v => !v.isFin) then f32Nan
  else outF32 ((if val then a0.toRat else 0) + x.toRat * (a1.toRat - a0.toRat) + y.toRat * (a2.toRat - a0.toRat))

/-- AINTERP in one lane: what its reads leave, and its results. -/
def ainterpLane (f : FmtG) (_c : Nat) (w : Wave) (r : GRead) (l : Nat) : GRead × List W32 :=
  let n := f.imm.toNat + 1
  let nod := decide (f.fn = 1)
  let a := w.vals f.va.toNat (3 * n) l
  let b := fun (i : Nat) => w.vals (f.vb.toNat + i) 1 l
  (r, (List.range n).flatMap (fun j =>
    let v := interp true a (b 0) (b 1) j n
    if nod then [v] else [v, interp false a (b 2) (b 4) j n, interp false a (b 3) (b 5) j n]))
/-- AINTERP (R254): value, ∂/∂x and ∂/∂y of each component, or with .nod the value alone. -/
def execAinterp (f : FmtG) (s : State) : Out :=
  let n := f.imm.toNat + 1
  let nod := decide (f.fn = 1)
  gfxWord (.ainterp f) s (run f.vd.toNat (if nod then n else 3 * n)) [] (run f.va.toNat (3 * n) ++ run f.vb.toNat 6) 2
    (ainterpLane f) (runWrites f.vd.toNat)

/-! ### VISLD (R255) -/

/-- The entry of a pixel word in a tile: outside its area, the empty entry. -/
def State.tilePixel (s : State) (slot : Nat) (pixel : W32) : Pix :=
  let x := pixel.toNat % 65536
  let y := pixel.toNat / 65536
  let t := s.tile slot
  if x / 64 = t.tx ∧ y / 64 = t.ty then Tbl.getD s.pix (pixKey slot (64 * (y % 64) + x % 64)) Pix.empty else Pix.empty

/-- The 64-bit words of a slot's pinned lines that entry `p` lies in, 12 bytes from 12p (R425). -/
def pixWords (p : Nat) : List Nat := [12 * p / 8, (12 * p + 11) / 8]
/-- An entry meets an uncorrectable error (R428). -/
def Tile.badPix (t : Tile) (p : Nat) : Bool := (pixWords p).any (fun k => decide (k ∈ t.bad))
/-- The lanes of a VISLD whose pixel's entry is in error. -/
def State.visBad (s : State) (w : Wave) (slot a : Nat) : List Nat :=
  let t := s.tile slot
  if t.bad.isEmpty then []
  else w.lanes.filter (fun l =>
    let x := (w.readV a l).toNat % 65536
    let y := (w.readV a l).toNat / 65536
    decide (x / 64 = t.tx) && decide (y / 64 = t.ty) && t.badPix (64 * (y % 64) + x % 64))

/-- VISLD (R255): the slot must be one the wave holds. -/
def execVisld (f : FmtG) (s : State) : Out :=
  sysWord (.visld f) s (fun c k w =>
    let d := f.vd.toNat
    let slot := w.z f.sa % 65536
    if w.regRange (run d 3 ++ [f.va.toNat]) then s.trapAt c k w w.regRangeTrap
    else if !w.tref.any (fun r => decide (r.2 = slot)) then
      s.trapAt c k w { cause := 0x06, eaddr := BitVec.ofNat 64 slot, fm := w.trapMask }
    else if w.gHolds .at then s.setWave c k (w.blockAt s.time 0 0)
    else
      let vs := w.lanes.flatMap (fun l =>
        let p := s.tilePixel slot (w.readV f.va.toNat l)
        [(d, l, p.id.extractLsb' 0 32), (d + 1, l, p.id.extractLsb' 32 32), (d + 2, l, p.depth)])
      let bad := badOf (fun _ => BitVec.ofNat 64 slot) (s.visBad w slot f.va.toNat) (w.srcBad (.of [f.sa.toNat] [f.va.toNat]))
      s.gPoison c k w bad (fun s w => s.issueReq c k w.done .at w.curWord 0 0 [] (.regs vs []) 0))

/-! ### SMPL and SMPLL (R256, R433) -/

/-- A sampler descriptor as read. -/
structure Sampler where
  base : W64
  w : Nat
  h : Nat
  levels : Nat
  format : Nat
  magf : Bool
  minf : Bool
  mipf : Nat
  addru : Nat
  addrv : Nat
  bias : FVal
  minlod : FVal
  maxlod : FVal
  deriving DecidableEq, Repr

/-- The descriptor, or none when a value of it is reserved (R433). -/
def samplerOf (b : List Byte) : Option Sampler :=
  let filt := fieldOf b 0x0E 1
  let addr := fieldOf b 0x0F 1
  let fp := fun (o : Nat) => f32Val (BitVec.ofNat 32 (fieldOf b o 4))
  let w := fieldOf b 8 2
  let h := fieldOf b 10 2
  let levels := fieldOf b 0x0C 1
  let x : Sampler := ⟨BitVec.ofNat 64 (fieldOf b 0 8), w, h, levels, fieldOf b 0x0D 1, decide (filt % 2 = 1), decide (filt / 2 % 2 = 1),
    filt / 4 % 4, addr % 4, addr / 4 % 4, fp 0x10, fp 0x14, fp 0x18⟩
  if fieldOf b 0 1 ≠ 0 ∨ w = 0 ∨ 16384 < w ∨ h = 0 ∨ 16384 < h ∨ levels = 0 ∨ 15 < levels ∨ 6 < x.format ∨ 16 ≤ filt ∨ x.mipf = 3
      ∨ 16 ≤ addr ∨ x.addru = 3 ∨ x.addrv = 3 ∨ x.bias.isNan ∨ x.minlod.isNan ∨ x.maxlod.isNan ∨ x.maxlod.lt x.minlod
      ∨ !zeroField b 0x1C 36 then none
  else some x

/-- Bytes of a texel, by FORMAT. -/
def texelBytes (fm : Nat) : Nat := match fm with | 0 => 4 | 1 => 8 | 2 => 16 | 3 => 2 | 4 => 4 | 5 => 8 | _ => 4
/-- The RGBA values of a texel: missing colours 0, missing alpha 1. -/
def texelVals (fm : Nat) (b : List Byte) : List FVal :=
  let ch := fun (f : Fmt) (n : Nat) => (List.range n).map (fun i => f.value (fieldOf b (f.width / 8 * i) (f.width / 8)))
  let l := match fm with
    | 0 => (List.range 4).map (fun i => FVal.fin false (mkRat (fieldOf b i 1 : Nat) 255))
    | 1 => ch .f16 4
    | 2 => ch .f32 4
    | 3 => ch .bf16 1
    | 4 => ch .bf16 2
    | 5 => ch .bf16 4
    | _ => ch .f32 1
  (List.range 4).map (fun i => l.getD i (.fin false (if i = 3 then 1 else 0)))

def roundUp (x n : Nat) : Nat := (x + n - 1) / n * n
def Sampler.wAt (x : Sampler) (m : Nat) : Nat := max 1 (x.w / 2 ^ m)
def Sampler.hAt (x : Sampler) (m : Nat) : Nat := max 1 (x.h / 2 ^ m)
def Sampler.pitch (x : Sampler) (m : Nat) : Nat := roundUp (x.wAt m * texelBytes x.format) 16
/-- The offset of level `m` from BASE (R433). -/
def Sampler.offset (x : Sampler) : Nat → Nat
  | 0 => 0
  | m + 1 => x.offset m + roundUp (x.pitch m * x.hAt m) 256

/-- A texel index through its axis mode: wrap, clamp, mirror. -/
def axisIndex (mode : Nat) (n : Nat) (i : Int) : Nat :=
  match mode with
  | 0 => (i % (n : Int)).toNat
  | 1 => (clampInt 0 ((n : Int) - 1) i).toNat
  | _ => let j := (i % (2 * n : Int)).toNat
         if j < n then j else 2 * n - 1 - j

/-- The weighted texels a level gives a point (R256). -/
def Sampler.taps (x : Sampler) (linear : Bool) (m : Nat) (u v : Rat) : List (Rat × Nat × Nat) :=
  let w := x.wAt m
  let h := x.hAt m
  let iu := axisIndex x.addru w
  let iv := axisIndex x.addrv h
  let uw := u * mkRat (w : Int) 1
  let vh := v * mkRat (h : Int) 1
  if !linear then [(1, iu uw.floor, iv vh.floor)]
  else
    let s := uw - mkRat 1 2
    let t := vh - mkRat 1 2
    let i0 := s.floor
    let j0 := t.floor
    let frac := fun (y : Rat) (i : Int) => mkRat (((y - mkRat i 1) * 256).floor) 256
    let a := frac s i0
    let b := frac t j0
    [((1 - a) * (1 - b), iu i0, iv j0), (a * (1 - b), iu (i0 + 1), iv j0), ((1 - a) * b, iu i0, iv (j0 + 1)),
      (a * b, iu (i0 + 1), iv (j0 + 1))]

/-- The levels and weights λ selects, and whether texels are filtered linearly; none when λ names no level that R256
describes. -/
def Sampler.mips (x : Sampler) (lam : FVal) : Option (Bool × List (Rat × Nat)) :=
  let neg := match lam with | .inf n => n | .fin n q => n || decide (q = 0) | .nan => false
  let linear := if neg then x.magf else x.minf
  match x.mipf with
  | 0 => some (linear, [(1, 0)])
  | 1 =>
    if !lam.isFin then none
    else
      let m := (lam.toRat + mkRat 1 2).floor
      if m < 0 then none else some (linear, [(1, m.toNat)])
  | _ =>
    if !lam.isFin then none
    else
      let m := lam.toRat.floor
      if m < 0 then none
      else
        let f := lam.toRat - mkRat m 1
        some (linear, [(1 - f, m.toNat), (f, min (m.toNat + 1) (x.levels - 1))])

/-- λ clamped (R256): RNE to 1/256, then within [MINLOD, min(MAXLOD, LEVELS − 1)]. Where MINLOD lies above the upper bound the upper bound
wins (DESIGN CHOICE, log entry 134), and a NaN λ of SMPLL is taken as +∞, as R256 says of SMPL (DESIGN CHOICE, log entry 135). -/
def Sampler.clampLod (x : Sampler) (lam : FVal) : FVal :=
  let l := match lam with
    | .fin n q => FVal.ofRat false (mkRat (roundInt .rne (256 * signed n q)) 256)
    | .nan => .inf false
    | v => v
  minVal (maxVal l x.minlod) (minVal x.maxlod (.fin false (mkRat (x.levels - 1 : Nat) 1)))

/-- λ of SMPL before clamping: log2 of the larger footprint axis, plus LODBIAS. -/
def Sampler.footprint (x : Sampler) (g : List FVal) : FVal :=
  if g.any (fun v => !v.isFin) then .inf false
  else
    let d := fun (i n : Nat) => let y := (g.getD i .nan).toRat * mkRat (n : Int) 1
                                y * y
    let a := d 0 x.w + d 1 x.h
    let b := d 2 x.w + d 3 x.h
    let r := if a < b then b else a
    let lg := if r = 0 then FVal.inf true else FVal.ofRat false (log2Rat r / 2)
    FVal.sum .rne [lg, x.bias]

/-- Sample at a point: the reader after its texels, and the four channels. -/
def GRead.sample (r : GRead) (core team : Nat) (x : Sampler) (linear : Bool) (ms : List (Rat × Nat)) (u v : Rat) :
    GRead × List W32 :=
  let taps := ms.flatMap (fun m => (x.taps linear m.2 u v).map (fun t => (m.1 * t.1, m.2, t.2)))
  let y := taps.foldl (fun (y : GRead × List (Rat × List FVal)) t =>
    let a := off64 x.base (x.offset t.2.1 + t.2.2.2 * x.pitch t.2.1 + t.2.2.1 * texelBytes x.format)
    let z := y.1.read core team a (texelBytes x.format)
    (z.1, y.2 ++ [(t.1, texelVals x.format z.2)])) (r, [])
  let used := y.2.filter (fun t => !decide (t.1 = 0))
  (y.1, if y.1.bad.isSome then List.replicate 4 0
        else (List.range 4).map (fun c => f32Round .rne (FVal.sum .rne (used.map (fun t => FVal.mul false (.fin false t.1) (t.2.getD c .nan))))))

/-- A texture word in one lane. -/
def sampleLane (f : FmtG) (x : Sampler) (lod : Sampler → Wave → Nat → FVal) (c : Nat) (w : Wave) (r : GRead) (l : Nat) : GRead × List W32 :=
  let u := f32Val (w.readV f.va.toNat l)
  let v := f32Val (w.readV (f.va.toNat + 1) l)
  if !u.isFin || !v.isFin then (r, [0, 0, 0, 0])
  else
    match x.mips (x.clampLod (lod x w l)) with
    | none => (r, (List.range 4).map (fun ch => Config.freeW32 w.nonce (72000 + 4 * l + ch)))
    | some m => r.sample c w.team x m.1 m.2 u.toRat v.toRat
/-- A texture word: its descriptor first (R256, R262), then its lanes. With no active lane there is no access, so neither the descriptor's read
nor its check (DESIGN CHOICE, log entry 133). -/
def sampleWord (i : Instr) (f : FmtG) (s : State) (nsrc : Nat) (lod : Sampler → Wave → Nat → FVal) : Out :=
  sysWord i s (fun c k w =>
    let d := f.vd.toNat
    if w.regRange (run d 4 ++ run f.va.toNat nsrc) then s.trapAt c k w w.regRangeTrap
    else if w.gHolds .at then s.setWave c k (w.blockAt s.time 0 0)
    else if w.lanes.isEmpty then s.issueReq c k w.done .at w.curWord 0 0 [] (.regs [] []) 0
    else
      let table := off64 (w.readS64 f.sa.toNat) (64 * f.idx.toNat)
      let b := (⟨s, none, none, false⟩ : GRead).read c w.team table 64
      let src := w.srcBad (.of [f.sa.toNat, f.sa.toNat + 1] (run f.va.toNat nsrc))
      if b.1.fail.isSome || b.1.bad.isSome then
        s.gFinish c k w (gLanes s w.lanes (fun r _ => ((r.read c w.team table 64).1, ([0, 0, 0, 0] : List W32)))) src 2 (runWrites d)
      else
        match samplerOf b.2 with
        | none => b.1.s.trapAt c k w (w.formatTrap 7)
        | some x =>
          let r := gLanes b.1.s w.lanes (sampleLane f x lod c w)
          s.gFinish c k w { r with so := r.so || b.1.so } src 2 (runWrites d))

/-- SMPL (R256): λ from the derivatives. -/
def execSmpl (f : FmtG) (s : State) : Out :=
  sampleWord (.smpl f) f s 6 (fun x w l => x.footprint (w.vals (f.va.toNat + 2) 4 l))
/-- SMPLL (R256): λ from a register. -/
def execSmpll (f : FmtG) (s : State) : Out :=
  sampleWord (.smpll f) f s 3 (fun x w l => FVal.sum .rne [f32Val (w.readV (f.va.toNat + 2) l), x.bias])

/-! ### PXOUT (R257–R259) -/

/-- Bytes of a pixel, by FORMAT. -/
def pixelBytes (fm : Nat) : Nat := match fm with | 0 => 16 | 1 => 8 | _ => 4
/-- Whether a target descriptor holds only values R257 lists. -/
def targetOk (b : List Byte) : Bool :=
  canonical (BitVec.ofNat 64 (fieldOf b 0 8)) && decide (fieldOf b 0 8 % 16 = 0) && decide (fieldOf b 8 4 % 16 = 0)
    && !decide (fieldOf b 0x0C 2 = 0) && !decide (fieldOf b 0x0E 2 = 0) && decide (fieldOf b 0x10 1 ≤ 3) && zeroField b 0x11 15
/-- RNE(255 × clamp(x, 0, 1)), a NaN giving 0. -/
def unorm8 (x : W32) : Nat := (roundInt .rne (255 * (f32Val (sat01 x)).toRat)).toNat
/-- The bytes of a colour in a format, as a number. -/
def encodePixel (fm : Nat) (cs : List W32) : Nat :=
  let part := fun (n : Nat) (g : W32 → Nat) => (List.range 4).foldr (fun i acc => g (cs.getD i 0) + 2 ^ n * acc) 0
  match fm with
  | 0 => part 32 (fun x => x.toNat)
  | 1 => part 16 (fun x => (Fmt.f16.convert .rne (f32Val x)).code)
  | 2 => part 8 unorm8
  | _ => (cs.getD 0 0).toNat
/-- The covered pixels of a cell (R259). -/
def coveredPixels (cover : W32) : List (Nat × Nat) :=
  (List.range (2 ^ coverRy cover)).flatMap (fun r =>
    ((List.range (2 ^ coverRx cover)).filter (fun c => cover.getLsbD (4 * r + c))).map (fun c => (c, r)))

/-- The pixel writes of one lane: x, y and the place. -/
def State.pixelWrites (s : State) (c : Nat) (w : Wave) (b : List Byte) (f : FmtG) (l : Nat) :
    List (W64 × Nat × Except XErr Place) :=
  let px := w.readV f.vb.toNat l
  let n := pixelBytes (fieldOf b 0x10 1)
  let data := encodePixel (fieldOf b 0x10 1) ((List.range 4).map (fun i => w.readV (f.va.toNat + i) l))
  ((coveredPixels (w.readV f.vd.toNat l)).map (fun p => (px.toNat % 65536 + p.1, px.toNat / 65536 + p.2))).filterMap (fun p =>
    if p.1 < fieldOf b 0x0C 2 ∧ p.2 < fieldOf b 0x0E 2 then
      let va := off64 (BitVec.ofNat 64 (fieldOf b 0 8)) (p.2 * fieldOf b 8 4 + p.1 * n)
      some (va, data, s.check c w .glob .write l va n)
    else none)

/-- PXOUT (R259): the covered pixels of every active lane with HMASK = 0. Writes of several lanes to one pixel are unordered:
any access may stand last. With no active lane the descriptor is not read (DESIGN CHOICE, log entry 133). -/
def execPxout (f : FmtG) (s : State) : Out :=
  sysWord (.pxout f) s (fun c k w =>
    if w.regRange (f.vd.toNat :: f.vb.toNat :: run f.va.toNat 4) then s.trapAt c k w w.regRangeTrap
    else if w.gHolds .gs then s.setWave c k (w.blockAt s.time 0 0)
    else
      let s0 := s.idemLost w.team
      if w.lanes.isEmpty then s0.issueReq c k w.done .gs w.curWord 0 0 [] .none 0
      else
        let b := (⟨s, none, none, false⟩ : GRead).read c w.team (off64 (w.readS64 f.sa.toNat) (32 * f.idx.toNat)) 32
        match b.1.fail with
        | some (va, e) => (s.touchFault c va e).trapAt c k w { cause := e.cause, sub := e.sub, level := e.level, eaddr := va, fm := w.trapMask }
        | none =>
          if b.1.so && w.soPending then s.setWave c k (w.blockAt s.time 0 0)
          else if b.1.bad.isSome && s.poisonTraps w.team then
            (b.1.s.countErr (dieOfCore c) 2).trapAt c k w { cause := 0x12, eaddr := b.1.bad.getD 0, fm := w.trapMask }
          else if !targetOk b.2 then
            (if b.1.bad.isSome then b.1.s.countErr (dieOfCore c) 2 else b.1.s).trapAt c k
              (if b.1.bad.isSome then w.errSeen else w) (w.formatTrap 6)
          else
            let s1 := b.1.s.idemLost w.team
            let xs := (w.lanes.filter (fun l => !w.hmask.getLsbD l)).map (fun l => (l, s1.pixelWrites c w b.2 f l))
            let fails := xs.filterMap (fun x => x.2.findSome? (fun p =>
              match p.2.2 with | .error e => some (x.1, p.1, e) | .ok _ => none))
            match lanesTrap fails with
            | some t => (s.touchFails c fails).trapAt c k w t
            | none =>
              let n := pixelBytes (fieldOf b.2 0x10 1)
              let accs := xs.flatMap (fun x => x.2.filterMap (fun p =>
                match p.2.2 with
                | .ok q => some (⟨x.1, p.1, q.pa, n, .glob, q.kind, q.buf, .write p.2.1, false, 0, false, 0⟩ : Access)
                | .error _ => none))
              let s2 := s1.touchAll c .glob (accs.map (fun a => a.va))
              let src := w.srcBad (.of [f.sa.toNat, f.sa.toNat + 1] (f.vd.toNat :: f.vb.toNat :: run f.va.toNat 4))
              s2.gPoison c k w (src.map (fun m => (0, m))) (fun s w =>
                s.issueReq c k w.done .gs w.curWord 0 0 (accs.rotateLeft (s.choose 945001 accs.length)) .none 0))

/-! ### TRET (R260) -/

/-- TRET (R260): the wave's tiles are released once its earlier AT requests have returned. -/
def execTret (f : FmtG) (s : State) : Out :=
  sysWord (.tret f) s (fun c k w => ((s.idemLost w.team).setWave c k w.done).releaseRefs c k)

end Sys2Proof.Machine
end

