-- ==== Sys2Proof/Machine/Raster.lean ====
section
/-! DEFINITION. RSUB and the raster queue (R378–R380), tiles (R425–R429), classification (R382, R383) and the forming of bin
waves (R384). -/

namespace Sys2Proof.Machine

/-! ### RSUB (R379) -/

/-- RSUB (R379): the die is checked and the descriptor's page translated at issue. -/
def execRsub (f : FmtQ) (s : State) : Out :=
  sysWord (.rsub f) s (fun c k w =>
    let va := w.readS64 f.sa.toNat
    let abs := f.imm.getLsbD 2
    let sel := f.imm.toNat % 4
    let die := if abs then sel else dieOfCore c
    if va.toNat % 64 ≠ 0 then s.trapAt c k w { cause := 0x04, eaddr := va, fm := w.trapMask }
    else if (!abs && !decide (sel = 0)) || (s.minimal && !decide (die = 0)) then s.trapAt c k w (w.protTrap 0)
    else
      match s.translate (clusterOf c) va .read with
      | .error e => (s.touchFault c va e).trapAt c k w { cause := e.cause, sub := e.sub, level := e.level, eaddr := va, fm := w.trapMask }
      | .ok x =>
        if x.kind = .ts then (s.touchTlb (clusterOf c) va).trapAt c k w { cause := 0x07, eaddr := va, fm := w.trapMask }
        else
          (s.touchTlb (clusterOf c) va).issueCmd c k w
            { Cmd.fresh c k w (.rsub va die (f.imm.getLsbD 3)) 0 0 0 s.win.ctxid with rpages := [⟨va.toNat / 4096, x.pa / 4096⟩] } []
            true true 0)

/-! ### Reads by the units of a die (R379, R382) -/

/-- What a unit's reads have come to: the state, the first fault, and the first address that gave bad data. -/
structure DRead where
  s : State
  fail : Option (W64 × XErr)
  bad : Option W64

/-- Read `n` bytes at `va` for the units of a die, whose translations go through its shared TLB (R419). -/
def DRead.read (r : DRead) (die : Nat) (va : W64) (n : Nat) : DRead × List Byte :=
  (piecesOf va n).foldl (fun (y : DRead × List Byte) p =>
    let zeros := List.replicate p.2 (0 : Byte)
    if y.1.fail.isSome then (y.1, y.2 ++ zeros)
    else
      match y.1.s.translate (12 * die) p.1 .read with
      | .error e => ({ y.1 with s := y.1.s.touchShared die p.1, fail := some (p.1, e) }, y.2 ++ zeros)
      | .ok x =>
        if x.kind = .ts then ({ y.1 with s := y.1.s.touchShared die p.1, fail := some (p.1, accessKind) }, y.2 ++ zeros)
        else
          let z := (y.1.s.touchShared die p.1).homeReadBytes none x.pa p.2
          (⟨if z.2.2 then z.1.countErr die 2 else z.1, none, if z.2.2 then some (y.1.bad.getD p.1) else y.1.bad⟩, y.2 ++ z.2.1))
    (r, [])
/-- A reserved or invalid field ends the reads. -/
def DRead.refuse (r : DRead) (ok : Bool) (va : W64) (sub : Nat) : DRead :=
  if ok || r.fail.isSome then r else { r with fail := some (va, ⟨0x09, sub, 0⟩) }
/-- The deferred fault of a unit's reads for a team's command. -/
def DRead.fault (r : DRead) (team : Nat) : Option PendRec :=
  match r.fail with
  | some (va, e) => some (engFault va e)
  | none => r.s.poisonFault team r.bad

/-! ### Frames (R427, R429) -/

/-- A frame descriptor as read. -/
structure FrameDesc where
  inst : W64
  rimg : W64
  rpitch : Nat
  c1 : Nat
  c2 : Nat
  tx0 : Nat
  ty0 : Nat
  tw : Nat
  th : Nat
  deriving DecidableEq, Repr

/-- The descriptor, with a die's own region. -/
def frameDesc (b : List Byte) (die : Nat) : FrameDesc :=
  let g := fun (i : Nat) => fieldOf b (0x20 + 8 * die + 2 * i) 2
  ⟨BitVec.ofNat 64 (fieldOf b 0 8), BitVec.ofNat 64 (fieldOf b 8 8), fieldOf b 0x10 4, fieldOf b 0x14 1 % 8, fieldOf b 0x14 1 / 8 % 8,
    g 0, g 1, g 2, g 3⟩
/-- Whether its fields are valid (R429). -/
def frameOk (b : List Byte) : Bool :=
  decide (fieldOf b 0 8 % 32 = 0) && decide (fieldOf b 0x14 1 % 8 ≤ 4) && decide (fieldOf b 0x14 1 / 8 % 8 ≤ 4)
    && decide (fieldOf b 0x14 1 < 64) && zeroField b 0x15 11
    && (List.range 4).all (fun d => decide (fieldOf b (0x24 + 8 * d) 2 * fieldOf b (0x26 + 8 * d) 2 ≤ 1024))
/-- Read and check a frame descriptor. -/
def DRead.frame (r : DRead) (die : Nat) (va : W64) : DRead × FrameDesc :=
  let y := r.read die va 64
  (y.1.refuse (frameOk y.2) va 9, frameDesc y.2 die)

/-- Take the slots of a frame's region on a die, if enough are FREE (R427). Which FREE slots they are is not stated: a free
choice. Their pinned lines take the place of ordinary lines of the die's slices (R19, R425). -/
def State.takeSlots (s : State) (die : Nat) (frame : W64) (fd : FrameDesc) : Option State :=
  let free := (List.range 1024).filter (fun i => decide ((s.tile (die * 1024 + i)).state = .free))
  let places := (List.range fd.th).flatMap (fun j => (List.range fd.tw).map (fun i => (fd.tx0 + i, fd.ty0 + j)))
  if free.length < places.length then none
  else
    let slots := free.rotateLeft (s.choose 951000 free.length)
    let s := (List.range places.length).foldl (fun s i =>
      let slot := die * 1024 + slots.getD i 0
      let p := places.getD i (0, 0)
      let s := s.setTile slot ⟨.raster, frame, p.1, p.2, 0, false, [], []⟩
      { s with pix := List.filter (fun r => !decide (r.1 / 4096 = slot)) s.pix }) s
    some ((List.range 16).foldl (fun s i => s.sliceTrim (16 * die + i) 0) s)

/-! ### The raster queue (R378, R379) -/

/-- An RSUB enters its die's raster queue: it waits for room, for its turn, and for the slots of a new frame; a CLOSEd frame
must be gone before its descriptor names a new one. -/
def State.admitRsub (s : State) (id : Nat) (c : Cmd) (desc : W64) (die : Nat) (close : Bool) : State :=
  if 256 ≤ (s.die die).rasterQ.length ∨ c.ctx ≠ s.win.ctxid then s
  else
    match s.cmdMaySend id c with
    | none => s
    | some s0 =>
      let b := s0.engRead c.agent.core c.rpages desc 64
      let frame : W64 := BitVec.ofNat 64 (fieldOf b.bytes 0x10 8)
      let ok := decide (fieldOf b.bytes 8 4 ≤ 65535) && zeroField b.bytes 0x0C 4 && zeroField b.bytes 0x18 40
        && decide (frame.toNat % 64 = 0)
      match b.s.poisonFault c.team b.bad with
      | some e => b.s.finishCmd id c (some e)
      | none =>
        if !ok then b.s.finishCmd id c (some (engFault desc ⟨0x09, 8, 0⟩))
        else
          let fr := (⟨b.s, none, none⟩ : DRead).frame die frame
          match fr.1.fault c.team with
          | some e => fr.1.s.finishCmd id c (some e)
          | none =>
            let live := (fr.1.s.die die).frames.find? (fun f => decide (f.desc = frame))
            let ready : Option State := match live with
              | some f => if f.closing ∨ f.ctx ≠ c.ctx then none else some fr.1.s
              | none =>
                (fr.1.s.takeSlots die frame fr.2).map (fun s =>
                  let d := s.die die
                  s.setDie die { d with frames := d.frames ++ [⟨frame, none, false, false, [], c.ctx⟩] })
            match ready with
            | none => s
            | some s =>
              let d := s.die die
              let rate : W32 := match s.team? c.team with | some t => t.shrate | none => 0
              let batch : Batch := ⟨id, BitVec.ofNat 64 (fieldOf b.bytes 0 8), fieldOf b.bytes 8 4, frame, close, rate, c.ctx⟩
              let s := s.setDie die { d with
                rasterQ := d.rasterQ ++ [batch]
                frames := d.frames.map (fun f =>
                  if f.desc = frame ∧ close then { f with closing := true, closeCmd := some id } else f) }
              { s with cmds := Tbl.set s.cmds id { c with stage := .fired } }

/-- Every RSUB waiting for a die, in issue order. -/
def State.admitAll (s : State) (die : Nat) : State :=
  (s.cmds.filter (fun r => decide (r.2.stage = .issued))).foldl (fun s r =>
    match r.2.kind with
    | .rsub desc d close => if d = die then s.admitRsub r.1 r.2 desc d close else s
    | _ => s) s

/-! ### Rasterisation (R380, R430) -/

/-- A vertex in screen pixels, with its depth. -/
structure Vert where
  x : Rat
  y : Rat
  z : Rat
  deriving DecidableEq, Repr

/-- Twice the signed area of a, b and a point. -/
def edge (a b : Vert) (px py : Rat) : Rat := (b.x - a.x) * (py - a.y) - (b.y - a.y) * (px - a.x)
/-- Whether an edge of a triangle of positive area is a top or a left edge. -/
def topLeft (a b : Vert) : Bool := decide (b.y < a.y) || (decide (b.y = a.y) && decide (a.x < b.x))

/-- Whether a triangle covers a point, and its depth there: inside, or on a top or left edge. -/
def covers (v0 v1 v2 : Vert) (px py : Rat) : Option Rat :=
  let a := edge v0 v1 v2.x v2.y
  if a = 0 then none
  else
    let w1 := if a < 0 then v2 else v1
    let w2 := if a < 0 then v1 else v2
    let ok := fun (p q : Vert) => let e := edge p q px py
                                  decide (0 < e) || (decide (e = 0) && topLeft p q)
    if ok v0 w1 && ok w1 w2 && ok w2 v0 then
      some ((edge w1 w2 px py * v0.z + edge w2 v0 px py * w1.z + edge v0 w1 px py * w2.z) / edge v0 w1 w2.x w2.y)
    else none

/-- A covered pixel takes an identifier and depth when they lie before what it holds (R380). -/
def Pix.take (p : Pix) (id : W64) (depth : W32) : Pix :=
  let d := f32Val depth
  let e := f32Val p.depth
  if d.lt e || (d.eqv e && decide (id.toNat < p.id.toNat)) then ⟨id, depth⟩ else p

def minRat (a b : Rat) : Rat := if a < b then a else b
def maxRat (a b : Rat) : Rat := if a < b then b else a

/-- A raster write to an entry with an uncorrectable error writes fresh codes (R293, R428): a word it covers in part keeps zeros in its
other bytes, which is counted. -/
def State.freshPix (s : State) (slot p : Nat) (x : Pix) : State :=
  let t := s.tile slot
  let half := if p % 2 = 0 then 12 * p / 8 + 1 else 12 * p / 8
  let s := if half ∈ t.bad then s.count 5 (dieOfTile slot) 2 1 else s
  let s := s.setTile slot { t with bad := t.bad.filter (fun k => !decide (k ∈ pixWords p)) }
  { s with pix := Tbl.put s.pix (pixKey slot p) Pix.empty x }

/-- Rasterise one triangle into one tile. The depth of a pixel is the triangle's plane at its centre; R380 does not state the
rounding of that value: up or down is a free choice. So is whether it finds an entry in error empty or as zeros (log entry 79). -/
def State.rasterTile (s : State) (slot : Nat) (id : W64) (v0 v1 v2 : Vert) : State :=
  let t := s.tile slot
  let lo := fun (f : Vert → Rat) => minRat (f v0) (minRat (f v1) (f v2))
  let hi := fun (f : Vert → Rat) => maxRat (f v0) (maxRat (f v1) (f v2))
  let x0 := max 0 ((lo Vert.x).floor - 64 * (t.tx : Int))
  let x1 := min 63 ((hi Vert.x).floor - 64 * (t.tx : Int))
  let y0 := max 0 ((lo Vert.y).floor - 64 * (t.ty : Int))
  let y1 := min 63 ((hi Vert.y).floor - 64 * (t.ty : Int))
  if x1 < x0 ∨ y1 < y0 then s
  else
    let ps := (List.range ((y1 - y0).toNat + 1)).flatMap (fun j => (List.range ((x1 - x0).toNat + 1)).map (fun i =>
      (x0.toNat + i, y0.toNat + j)))
    ps.foldl (fun s p =>
      match covers v0 v1 v2 (mkRat (2 * (64 * t.tx + p.1) + 1 : Nat) 2) (mkRat (2 * (64 * t.ty + p.2) + 1 : Nat) 2) with
      | none => s
      | some z =>
        let key := pixKey slot (64 * p.2 + p.1)
        let depth := f32Round (if s.flip (952000 + key) then .rd else .ru) (FVal.ofRat false z)
        let s := s.count 4 (dieOfTile slot) 0 1
        let p := 64 * p.2 + p.1
        let old := Tbl.getD s.pix key Pix.empty
        if !(s.tile slot).badPix p then { s with pix := Tbl.put s.pix key Pix.empty (old.take id depth) }
        else
          let seen := if s.flip (952500 + key) then Pix.empty else old
          if seen.take id depth = seen then s else s.freshPix slot p (seen.take id depth)) s

/-- The entry and record checks of the raster units (R429, R430). -/
def instOk (b : List Byte) : Bool :=
  decide (fieldOf b 0 8 % 64 = 0) && decide (fieldOf b 0x18 2 < 4096) && decide (fieldOf b 0x1A 1 < 2) && zeroField b 0x1B 5
def clusterOk (b : List Byte) : Bool :=
  decide (1 ≤ fieldOf b 0x0C 1) && decide (fieldOf b 0x0C 1 ≤ 128) && decide (fieldOf b 0x0D 1 % 4 ≤ 2)
    && decide (fieldOf b 0x0D 1 / 4 ≤ 2) && zeroField b 0x10 48

/-- One vertex of a triangle: none when a coordinate is no finite number. -/
def DRead.vert (r : DRead) (die : Nat) (idxAt : W64) (vbase : W32) (base : W64) (stride : Nat) : DRead × Option Vert :=
  let x := r.read die idxAt 4
  let y := x.1.read die (off64 base ((BitVec.ofNat 32 (ofBytes x.2) + vbase).toNat * stride)) 16
  let f := fun (i : Nat) => f32Val (BitVec.ofNat 32 (fieldOf y.2 (4 * i) 4))
  (y.1, if (f 0).isFin && (f 1).isFin && (f 2).isFin then some ⟨(f 0).toRat, (f 1).toRat, (f 2).toRat⟩ else none)

/-- Rasterise one cluster of a batch; one that is not valid or lies past NCL draws nothing (R431). -/
def DRead.rasterCluster (r : DRead) (die : Nat) (inst : W64) (tiles : List Nat) (id at_ : W64) : DRead :=
  let r := r.refuse (decide (id.toNat % 128 = 0)) at_ 9
  if r.fail.isSome then r
  else
    let ea := off64 inst (32 * idInst id)
    let e := r.read die ea 32
    let r := e.1.refuse (instOk e.2) ea 9
    if r.fail.isSome || !decide (fieldOf e.2 0x1A 1 = 1) || decide (fieldOf e.2 0x10 8 ≤ idCluster id) then r
    else
      let qa := off64 (BitVec.ofNat 64 (fieldOf e.2 0 8)) (64 * idCluster id)
      let q := r.read die qa 64
      let r := q.1.refuse (clusterOk q.2) qa 9
      let va := BitVec.ofNat 64 (fieldOf e.2 8 8)
      let v := r.read die va 16
      let r := v.1.refuse (zeroField v.2 12 4) va 9
      if r.fail.isSome then r
      else
        (List.range (fieldOf q.2 0x0C 1)).foldl (fun (r : DRead) t =>
          let vert := fun (r : DRead) (i : Nat) => r.vert die (off64 (BitVec.ofNat 64 (fieldOf q.2 0 8)) (12 * t + 4 * i))
            (BitVec.ofNat 32 (fieldOf q.2 8 4)) (BitVec.ofNat 64 (fieldOf v.2 0 8)) (fieldOf v.2 8 4)
          let a := vert r 0
          let b := vert a.1 1
          let c := vert b.1 2
          if c.1.fail.isSome then c.1
          else
            let s := c.1.s.count 4 die 1 1
            match a.2, b.2, c.2 with
            | some x, some y, some z =>
              { c.1 with s := tiles.foldl (fun s slot => s.rasterTile slot (id ||| BitVec.ofNat 64 t) x y z) s }
            | _, _, _ => { c.1 with s := s }) r

/-- RASTER_BATCH (R379, R380): waiting RSUBs enter the queue, and its oldest batch is rasterised; without CLOSE its RSUB
completes. A batch waits while its context is not the running one. -/
def execRasterBatch (die : Nat) (s : State) : Out :=
  let s := s.admitAll die
  let d := s.die die
  match d.rasterQ with
  | [] => .next s
  | b :: rest =>
    if b.ctx ≠ s.win.ctxid then .next s
    else
      let s := s.setDie die { d with rasterQ := rest }
      let team := match Tbl.get? s.cmds b.cmd with | some c => c.team | none => 0
      let fr := (⟨s, none, none⟩ : DRead).frame die b.frame
      let tiles := s.frameTiles die b.frame
      let r := (List.range b.count).foldl (fun (r : DRead) i =>
        if r.fail.isSome then r
        else
          let x := r.read die (off64 b.clusters (8 * i)) 8
          let id : W64 := BitVec.ofNat 64 (ofBytes x.2)
          let y := x.1.rasterCluster die fr.2.inst tiles id (off64 b.clusters (8 * i))
          let q := y.s.die die
          { y with s := y.s.setDie die { q with frames := q.frames.map (fun f =>
              if f.desc = b.frame ∧ (id.toNat / 128, b.shrate.toNat) ∉ f.draws then
                { f with draws := f.draws ++ [(id.toNat / 128, b.shrate.toNat)] } else f) } }) fr.1
      match Tbl.get? r.s.cmds b.cmd with
      | none => .next r.s
      | some c =>
        let e := r.fault team
        .next (if b.close || ((s.team? c.team).isNone && e.isNone) then
            { r.s with cmds := Tbl.set r.s.cmds b.cmd { c with fault := e, progress := if b.close then c.progress else 1 } }
          else r.s.finishCmd b.cmd c e)

/-- FRAME_CLOSE (R380, R427): a CLOSE takes effect once every batch of its frame queued before it has been rasterised. -/
def execFrameClose (die : Nat) (s : State) : Out :=
  let d := s.die die
  match d.frames.find? (fun f => f.closing && !f.closed && !d.rasterQ.any (fun b => decide (b.frame = f.desc))) with
  | none => .next s
  | some f =>
    let ts := s.frameTiles die f.desc
    let s := ts.foldl (fun s t => s.setTile t { s.tile t with state := .closed }) s
    let s := s.setDie die { d with
      closedOrder := d.closedOrder ++ ts
      frames := d.frames.map (fun g => if g.desc = f.desc then { g with closed := true } else g) }
    .next (s.retireFrame die f.desc)

/-! ### Classification (R382, R383) -/

/-- The classify engine of a tile. Which quadrant a tile belongs to is not stated: a free choice, fixed for the slot. -/
def tileEngine (slot : Nat) : Nat := if Config.freeBit 0 (950000 + slot) then 1 else 0

/-- A combiner of COMB. -/
def combineRate (c a b : Nat) : Nat :=
  match c with
  | 0 => a
  | 1 => b
  | 2 => min a b
  | 3 => max a b
  | _ => min (a + b) 2

/-- What a cluster's records give its pixels: the records, the primitive rate, and the draw's rates. -/
structure ClusterInfo where
  key : Nat
  recs : Option (List Byte × List Byte)
  draw : Nat
  deriving DecidableEq, Repr

/-- A record of one cell: its identifier, cell size, origin within the tile, cover, and the pixels it may take its depth
from. -/
structure Cell where
  id : W64
  rx : Nat
  ry : Nat
  x : Nat
  y : Nat
  cover : Nat
  depths : List W32
  deriving DecidableEq, Repr

/-- Add a pixel to the cells of a tile. -/
def addPixel (cs : List Cell) (id : W64) (depth : W32) (rx ry px py : Nat) : List Cell :=
  let x := px / 2 ^ rx * 2 ^ rx
  let y := py / 2 ^ ry * 2 ^ ry
  let bit := 2 ^ (4 * (py - y) + (px - x))
  let same := fun (c : Cell) => decide (c.id = id) && decide (c.rx = rx) && decide (c.ry = ry) && decide (c.x = x) && decide (c.y = y)
  if cs.any same then cs.map (fun c => if same c then { c with cover := c.cover + bit, depths := c.depths ++ [depth] } else c)
  else cs ++ [⟨id, rx, ry, x, y, bit, [depth]⟩]

/-- The block of 2 × 2 cells a cell lies in: its origin. -/
def Cell.block (c : Cell) : Nat × Nat := (c.x / 2 ^ (c.rx + 1) * 2 ^ (c.rx + 1), c.y / 2 ^ (c.ry + 1) * 2 ^ (c.ry + 1))
/-- Two cells of one quad group. -/
def Cell.mates (a b : Cell) : Bool :=
  decide (a.id = b.id) && decide (a.rx = b.rx) && decide (a.ry = b.ry) && decide (a.block = b.block)
/-- Keep the first cell of each group. -/
def firstCells : List Cell → List Cell → List Cell
  | _, [] => []
  | seen, c :: r => if seen.any (fun b => b.mates c) then firstCells seen r else c :: firstCells (c :: seen) r

/-- The four entries of a group (R381, R383). The depth of a record of several pixels is not stated: that of any of them. -/
def groupEntries (s : State) (slot : Nat) (t : Tile) (cs : List Cell) (lead : Cell) : List BinEntry :=
  let o := lead.block
  (List.range 4).map (fun pos =>
    let x := o.1 + pos % 2 * 2 ^ lead.rx
    let y := o.2 + pos / 2 * 2 ^ lead.ry
    let word := BitVec.ofNat 32 ((64 * t.tx + x) % 65536 + (64 * t.ty + y) % 65536 * 65536)
    match cs.find? (fun c => c.mates lead && decide (c.x = x) && decide (c.y = y)) with
    | some c =>
      ⟨word, BitVec.ofNat 32 (c.ry * 2 ^ 18 + c.rx * 2 ^ 16 + c.cover), c.id,
        c.depths.getD (s.choose (953000 + 64 * y + x) c.depths.length) 0x7F800000, slot, 0, pos, 0, 0⟩
    | none => ⟨word, 0, lead.id, 0x7F800000, slot, 1, pos, 0, 0⟩)

/-- Insert by a key, after equal ones. -/
def insertKey (k : Nat) (c : Cell) : List (Nat × Cell) → List (Nat × Cell)
  | [] => [(k, c)]
  | (j, d) :: r => if k < j then (k, c) :: (j, d) :: r else (j, d) :: insertKey k c r

/-- The quad groups of a tile, in row-major order of their blocks (R382, R383): each its material and entries. Groups of one
block come in any order. Tables that cannot be read give material 0 and rate 0. A pixel whose entry is in error is taken as empty,
and counted (R428). -/
def State.tileGroups (s : State) (die slot : Nat) : State × List (Nat × List BinEntry) :=
  let t := s.tile slot
  let lost := if t.bad.isEmpty then 0 else ((List.range 4096).filter t.badPix).length
  let s := if lost = 0 then s else s.count 5 die 0x0A lost
  let fr := (⟨s, none, none⟩ : DRead).frame die t.frame
  let draws := match (s.die die).frames.find? (fun f => decide (f.desc = t.frame)) with | some f => f.draws | none => []
  let ps := (s.pix.filter (fun r => decide (r.1 / 4096 = slot) && !decide (r.2.id = allOnes64) && !t.badPix (r.1 % 4096)))
  let keys := (ps.map (fun r => r.2.id.toNat / 128)).eraseDups
  let info := keys.foldl (fun (y : State × List ClusterInfo) k =>
    let id : W64 := BitVec.ofNat 64 (128 * k)
    let ea := off64 fr.2.inst (32 * idInst id)
    let e := (⟨y.1, none, none⟩ : DRead).read die ea 32
    let ok := e.1.fail.isNone && decide (fieldOf e.2 0x1A 1 % 2 = 1) && decide (idCluster id < fieldOf e.2 0x10 8)
    let q := e.1.read die (off64 (BitVec.ofNat 64 (fieldOf e.2 0 8)) (64 * idCluster id)) 64
    let ds := draws.filter (fun d => decide (d.1 = k))
    let draw := (ds.getD (y.1.choose (954000 + k % 4096) ds.length) (k, 0)).2
    if ok then (q.1.s, y.2 ++ [⟨k, if q.1.fail.isNone then some (e.2, q.2) else none, draw⟩])
    else (e.1.s, y.2 ++ [⟨k, none, draw⟩])) (fr.1.s, [])
  let blocks := if fr.2.rimg = 0 then []
    else ((ps.map (fun r => (r.1 % 4096 / 512, r.1 % 64 / 8))).eraseDups)
  let image := blocks.foldl (fun (y : State × List ((Nat × Nat) × Nat)) b =>
    let r := (⟨y.1, none, none⟩ : DRead).read die (off64 fr.2.rimg ((8 * t.ty + b.1) * fr.2.rpitch + 8 * t.tx + b.2)) 1
    (r.1.s, y.2 ++ [(b, ofBytes r.2)])) (info.1, [])
  let infoOf := fun (id : W64) => (info.2.find? (fun i => decide (i.key = id.toNat / 128))).getD ⟨0, none, 0⟩
  let cells := ps.foldl (fun cs r =>
    let p := r.1 % 4096
    let i := infoOf r.2.id
    let prim := match i.recs with | some (_, q) => fieldOf q 0x0D 1 | none => 0
    let img := match image.2.find? (fun x => decide (x.1 = (p / 512, p % 64 / 8))) with | some x => x.2 | none => 0
    let rate := fun (sh : Nat) => combineRate fr.2.c2 (combineRate fr.2.c1 (min 2 (i.draw / sh % 4)) (min 2 (prim / sh % 4))) (min 2 (img / sh % 4))
    addPixel cs r.2.id r.2.depth (rate 1) (rate 4) (p % 64) (p / 64)) []
  let leads := firstCells [] cells
  let order := (List.range leads.length).foldl (fun l n =>
    match leads[n]? with
    | some c => insertKey ((64 * c.block.2 + c.block.1) * 65536 + s.choose (955000 + n) 65536) c l
    | none => l) ([] : List (Nat × Cell))
  (image.1, order.map (fun x =>
    let i := infoOf x.2.id
    let recs := i.recs.filter (fun eq => decide (idTri x.2.id < fieldOf eq.2 0x0C 1))
    (materialOf recs, groupEntries s slot t cells x.2)))

/-- Append the groups of a tile while there is room (R383, R384); the last one ends its classification. -/
def State.appendGroups (die slot : Nat) : Nat → State → State
  | 0, s => s
  | n + 1, s =>
    let t := s.tile slot
    match t.todo with
    | [] => (s.count 4 die 2 1).classified slot
    | (m, es) :: rest =>
      if s.binFits die m es.length then
        State.appendGroups die slot n
          ((s.setTile slot { t with todo := rest }).binAppend die m (es.map (fun e => { e with when := s.ck })))
      else s

/-- CLASSIFY_TILE (R382, R427): an engine goes on with its tile, or takes the next CLOSED one of its own. -/
def execClassifyTile (die engine : Nat) (s : State) : Out :=
  let d := s.die die
  let mine := s.tiles.find? (fun r => decide (dieOfTile r.1 = die) && decide (tileEngine r.1 = engine) && decide (r.2.state = .shading)
    && !r.2.todo.isEmpty)
  match mine with
  | some r => .next (s.appendGroups die r.1 (r.2.todo.length + 1))
  | none =>
    match d.closedOrder.find? (fun t => decide (tileEngine t = engine)) with
    | none => .next s
    | some slot =>
      let frame := (s.tile slot).frame
      let ctx := match d.frames.find? (fun f => decide (f.desc = frame)) with | some f => f.ctx | none => s.win.ctxid
      if ctx ≠ s.win.ctxid then .next s
      else
        let s := s.setDie die { d with closedOrder := d.closedOrder.filter (fun t => !decide (t = slot)) }
        let g := s.tileGroups die slot
        let s := g.1.setTile slot { g.1.tile slot with state := .shading, refs := 1, cls := false, todo := g.2 }
        .next (s.appendGroups die slot (g.2.length + 1))

/-! ### Bin waves (R384) -/

/-- A wave being filled: its lanes, its tiles in order of first use, the next lane, and the entries left over. -/
structure Forming where
  lanes : List BinLane
  tiles : List Nat
  next : Nat
  rest : List BinEntry
  deriving DecidableEq, Repr

def BinEntry.lane (e : BinEntry) (l : Nat) : BinLane := ⟨l, e.kind, e.word, e.cover, e.id, e.depth, e.tile, e.pos⟩

/-- Fill lanes from the head of a bin: `n` bounds the groups and hits taken. -/
def fillLanes (width : Nat) : Nat → Forming → Forming
  | 0, f => f
  | n + 1, f =>
    match f.rest with
    | [] => f
    | e :: r =>
      if e.kind = 2 then
        if f.next < width then fillLanes width n ⟨f.lanes ++ [e.lane f.next], f.tiles, f.next + 1, r⟩ else f
      else
        let q := (f.next + 3) / 4 * 4
        let tiles := if e.tile ∈ f.tiles then f.tiles else f.tiles ++ [e.tile]
        if width < q + 4 ∨ 8 < tiles.length then f
        else fillLanes width n ⟨f.lanes ++ ((f.rest.take 4).map (fun x => x.lane (q + x.pos))), tiles, q + 4, f.rest.drop 4⟩

/-- The wave the head of a bin gives. -/
def formWave (width : Nat) (es : List BinEntry) : Forming := fillLanes width es.length ⟨[], [], 0, es⟩

/-- Every tile of a tile's frame on the die has finished classification. -/
def State.frameClassified (s : State) (t : Nat) : Bool :=
  (s.frameTiles (dieOfTile t) (s.tile t).frame).all (fun u =>
    let x := s.tile u
    (decide (x.state = .shading) && x.todo.isEmpty) || decide (x.state = .retired))

/-- A wave closes: its tiles gain a reference each, and its launch a pending team (R384, R385, R427). -/
def State.closeBinWave (s : State) (die m : Nat) (l : Nat) (x : Launch) (f : Forming) : State :=
  let d := s.die die
  let taken := (Tbl.getD d.bins m []).take ((Tbl.getD d.bins m []).length - f.rest.length)
  let bad := s.badEntries die taken
  let s := if bad = 0 then s else s.count 5 die 2 bad
  let s := s.setDie die { d with bins := if f.rest.isEmpty then Tbl.del d.bins m else Tbl.set d.bins m f.rest }
  let s := f.tiles.foldl (fun s t => s.setTile t { s.tile t with refs := (s.tile t).refs + 1 }) s
  let s := s.setLaunch l { x with binNext := (x.binNext + 1) % 2 ^ 32, binTeams := x.binTeams ++ [⟨x.binNext, die, m, f.lanes, f.tiles⟩] }
  (s.count 4 die 4 1).classifiedAll taken

/-- The bin of a material on a die with its standing launch and the wave its head gives. -/
def State.forming (s : State) (die m : Nat) : Option (Nat × Launch × Forming) :=
  let es := Tbl.getD (s.die die).bins m []
  if es.isEmpty then none
  else (s.standing m).map (fun l => (l.1, l.2, formWave (32 * ((l.2.record.roles.map (fun r => r.width)).headD 1)) es))

/-- BIN_WAVE_CLOSE (R384): the next group or hit does not fit, a group would make a ninth tile, or a frame's last tile has
finished classification. -/
def execBinWaveClose (die material : Nat) (s : State) : Out :=
  match s.forming die material with
  | none => .next s
  | some (l, x, f) =>
    if !f.rest.isEmpty || f.tiles.any s.frameClassified then .next (s.closeBinWave die material l x f) else .next s

/-- BINFLUSH_TIMEOUT (R384): the bin's oldest entry has waited BINFLUSH ck. -/
def execBinflushTimeout (die material : Nat) (s : State) : Out :=
  match s.forming die material with
  | none => .next s
  | some (l, x, f) =>
    match Tbl.getD (s.die die).bins material [] with
    | e :: _ => if e.when + s.win.binflush ≤ s.ck then .next (s.closeBinWave die material l x f) else .next s
    | [] => .next s

end Sys2Proof.Machine
end

