-- ==== Sys2Proof/Machine/Fit.lean ====
section
/-! DEFINITION. Launch records and their refusals (R35–R38, R385), and what fits on a core, pair or cluster (R42–R45, R48,
R54). -/

namespace Sys2Proof.Machine

/-! ### The record (R35–R37) -/

/-- Role entry `i` of a record. -/
def roleOf (b : List Byte) (i : Nat) : Role :=
  let o := 0x40 + 32 * i
  { entry := BitVec.ofNat 64 (fieldOf b o 8), kind := fieldOf b (o + 8) 1, width := fieldOf b (o + 9) 1,
    vregs := fieldOf b (o + 0xA) 2, lanePriv := fieldOf b (o + 0xC) 2, waves := fieldOf b (o + 0xE) 1 }
/-- ROLES + 1 (R36). -/
def roleCount (ctl : Nat) : Nat := ctl / 32 % 4 + 1
/-- A launch record's fields. -/
def launchRec (b : List Byte) : LaunchRec :=
  { ctl := BitVec.ofNat 64 (fieldOf b 0 8), launchId := BitVec.ofNat 32 (fieldOf b 8 4), fpcompat := BitVec.ofNat 32 (fieldOf b 0xC 4),
    gridX := fieldOf b 0x10 2, gridY := fieldOf b 0x12 2, gridZ := fieldOf b 0x14 2, spad := fieldOf b 0x16 2,
    preds := (List.range 4).map (fun i => BitVec.ofNat 32 (fieldOf b (0x18 + 4 * i) 4)), args := BitVec.ofNat 64 (fieldOf b 0x28 8),
    codeBase := BitVec.ofNat 64 (fieldOf b 0x30 8), shrate := BitVec.ofNat 32 (fieldOf b 0x38 4),
    roles := (List.range (roleCount (fieldOf b 0 8))).map (roleOf b) }

def LaunchRec.bit (r : LaunchRec) (n : Nat) : Bool := r.ctl.getLsbD n
def LaunchRec.prio (r : LaunchRec) : Nat := r.ctl.toNat % 4
def LaunchRec.coop (r : LaunchRec) : Bool := r.bit 2
def LaunchRec.idem (r : LaunchRec) : Bool := r.bit 3
def LaunchRec.paired (r : LaunchRec) : Bool := r.bit 4
/-- Teams per cluster group (R42). -/
def LaunchRec.perGroup (r : LaunchRec) : Nat := r.ctl.toNat / 256 % 4 + 1
/-- Groups hold their cluster exclusively (R43). -/
def LaunchRec.excl (r : LaunchRec) : Bool := decide (1 < r.perGroup) || r.bit 10
/-- Teams of the grid. -/
def LaunchRec.total (r : LaunchRec) : Nat := r.gridX * r.gridY * r.gridZ
def LaunchRec.hasSeq (r : LaunchRec) : Bool := r.roles.any (fun x => decide (x.kind = 3))

/-! ### Fitting (R44, R457) -/

/-- Wave slots of a wave of `beats` with V registers and P lane-private bytes a lane. -/
def waveSlots (beats v p : Nat) : Nat := (32 * beats * (4 * v + p) + 2048 + 163839) / 163840
/-- Row slots of column rows. -/
def rowSlots (rows : Nat) : Nat := (rows + 79) / 80

/-- What some agents take of one core; `spad` in 4 KiB units. -/
structure Need where
  slots : Nat
  vrf : Nat
  lp : Nat
  spad : Nat
  teams : Nat
  mseq : Nat
  rows : Nat
  deriving DecidableEq, Repr

/-- What a core has in use, with its allotments: base and length. -/
structure Use where
  slots : Nat
  vrf : Nat
  lp : Nat
  spads : List (Nat × Nat)
  teams : Nat
  mseq : Nat
  rows : Nat
  deriving DecidableEq, Repr

def Use.empty : Use := ⟨0, 0, 0, [], 0, 0, 0⟩

/-- Waves of a role that run on a position of the team (R41). -/
def Role.wavesAt (r : Role) (paired : Bool) : Nat := if r.kind = 3 then 0 else if paired then r.waves / 2 else r.waves
/-- What one team of a record takes of its core at a position (R44). A paired team counts as a team on its even core alone: whether its
other half counts in the odd core's line of at most 4 teams is not stated (DESIGN CHOICE, log entry 115). -/
def LaunchRec.need (r : LaunchRec) (pos : Nat) : Need :=
  let sum := fun (g : Role → Nat) => (r.roles.map (fun x => x.wavesAt r.paired * g x)).sum
  { slots := sum (fun x => waveSlots x.width x.vregs (64 * x.lanePriv)), vrf := sum (fun x => 32 * x.width * x.vregs * 4),
    lp := sum (fun x => 32 * x.width * (64 * x.lanePriv) + 512), spad := if pos = 0 then r.spad else 0,
    teams := if pos = 0 then 1 else 0, mseq := if r.hasSeq then 1 else 0, rows := 0 }
/-- What some waves take. -/
def wavesNeed (ws : List Wave) : Need :=
  { slots := (ws.map (fun w => w.slots)).sum, vrf := (ws.map (fun w => w.width * w.vregs * 4)).sum,
    lp := (ws.map (fun w => w.width * w.lanePriv + 512)).sum, spad := 0, teams := 0, mseq := 0, rows := 0 }

/-- What is in use on a core. -/
def State.use (s : State) (core : Nat) : Use :=
  let n := wavesNeed ((s.waves.filter (fun r => decide (r.1 / 32 = core))).map (fun r => r.2))
  let ts := (s.teams.filter (fun r => decide (r.2.core = core))).map (fun r => r.2)
  { slots := n.slots, vrf := n.vrf, lp := n.lp, spads := (ts.filter (fun t => !decide (t.spad = 0))).map (fun t => (t.p / 4096, t.spad)),
    teams := ts.length, mseq := if (s.stream? core).isSome then 1 else 0, rows := rowTotal (s.rowsHeld core) }

/-- 4 KiB units of the scratchpad in use. -/
def Use.spadUsed (u : Use) : Nat := (u.spads.map (fun x => x.2)).sum
/-- Bases, in 4 KiB units, at which an allotment of `n` units fits (R267). -/
def Use.bases (u : Use) (n : Nat) : List Nat :=
  if n = 0 then [0]
  else (List.range (129 - n)).filter (fun b => u.spads.all (fun x => decide (b + n ≤ x.1) || decide (x.1 + x.2 ≤ b)))
/-- Whether a need fits beside what is in use (R44). -/
def Use.fits (u : Use) (n : Need) : Bool :=
  decide (u.slots + n.slots + u.teams + n.teams + rowSlots (u.rows + n.rows) ≤ 32) && decide (u.vrf + n.vrf ≤ 1572864)
    && decide (u.lp + n.lp ≤ 786432) && decide (u.spadUsed + n.spad ≤ 128) && decide (u.mseq + n.mseq ≤ 1) && decide (u.teams + n.teams ≤ 4)
    && decide (u.rows + n.rows ≤ 1536)
/-- Take a need, its allotment at a base. -/
def Use.take (u : Use) (n : Need) (base : Nat) : Use :=
  { slots := u.slots + n.slots, vrf := u.vrf + n.vrf, lp := u.lp + n.lp,
    spads := if n.spad = 0 then u.spads else (base, n.spad) :: u.spads, teams := u.teams + n.teams, mseq := u.mseq + n.mseq,
    rows := u.rows + n.rows }

/-! ### Places for units (R42, R43, R48) -/

/-- Where a team goes: its first core and its allotment's base in 4 KiB units. -/
structure Spot where
  core : Nat
  base : Nat
  deriving DecidableEq, Repr

/-- The base of an allotment, which the Regulator chooses (R267): one of those that fit; for a team of a group held exclusively, whose
base its program can read (R270), the lowest or the highest of them, so that the rest of the group still fits. Where the room that
is left is in pieces, the allotments of the core move together first, and the new one follows them (DESIGN CHOICE, log entry
120). -/
def Use.base (u : Use) (n pick : Nat) (excl : Bool) : Nat :=
  let bs := u.bases n
  if bs.isEmpty then u.spadUsed
  else if excl then (if pick % 2 = 0 then bs.headD 0 else bs.getLastD 0)
  else bs.getD (pick % bs.length) 0

/-- Place one team, given what it needs at each position, on a core or pair; `keep` is the base it must have (R269). -/
def placeTeam (use : Nat → Use) (pick : Nat) (excl : Bool) (needs : List Need) (keep : Option Nat) (core : Nat) :
    Option ((Nat → Use) × Spot) :=
  let ok := (List.range needs.length).all (fun i => (use (core + i)).fits (needs.getD i ⟨0, 0, 0, 0, 0, 0, 0⟩))
  if !ok then none
  else
    let base := keep.getD ((use core).base ((needs.map (fun n => n.spad)).headD 0) pick excl)
    some (fun c => if core ≤ c ∧ c < core + needs.length then (use c).take (needs.getD (c - core) ⟨0, 0, 0, 0, 0, 0, 0⟩) base else use c,
      ⟨core, base⟩)

/-- Every way to place a group's teams on a cluster; a restored team keeps its position in the cluster and its base (R269). -/
def groupPlans (use : Nat → Use) (pick : Nat) (cluster : Nat) : List (List Need × Option Spot) → List (List Spot × (Nat → Use))
  | [] => [([], use)]
  | t :: rest =>
    ((List.range 4).filter (fun i => (decide (t.1.length = 1) || decide (i % 2 = 0))
        && (match t.2 with | some p => decide (p.core = i) | none => true))).flatMap (fun i =>
      match placeTeam use pick true t.1 (t.2.map (fun p => p.base)) (4 * cluster + i) with
      | none => []
      | some (use', p) => (groupPlans use' pick cluster rest).map (fun x => (p :: x.1, x.2)))

/-- A unit of placement: what its teams need, whether it takes a cluster for itself, the die it is bound to, and, for a restored group,
the position in the cluster and the base each team keeps. -/
structure Demand where
  teams : List (List Need)
  excl : Bool
  die : Option Nat
  keep : List Spot
  deriving DecidableEq, Repr

/-- What a placement looks at: the use of each core, which cores are open to new teams, which clusters are held exclusively,
the occupancy of each core, and the number of cores. -/
structure Ground where
  use : Nat → Use
  opened : Nat → Bool
  held : List Nat
  occ : Nat → Nat
  cores : Nat

/-- The candidate of least occupancy, the first of equal ones (R48). -/
def leastOcc : List (Nat × List Spot × (Nat → Use)) → Option (List Spot × (Nat → Use))
  | [] => none
  | x :: r => some ((r.foldl (fun b y => if y.1 < b.1 then y else b) x).2)

/-- Place a unit (R48): the spots of its teams in order, and the use after it. Which core of a cluster each team of a group
takes is not stated: the plan numbered `pick` of those that fit. -/
def Ground.place (g : Ground) (pick : Nat) (u : Demand) : Option (List Spot × (Nat → Use)) :=
  let inDie := fun (c : Nat) => match u.die with | some d => decide (dieOfCore c = d) | none => true
  if u.excl then
    leastOcc ((List.range (g.cores / 4)).flatMap (fun cl =>
      let cs := (List.range 4).map (4 * cl + ·)
      if cs.all (fun c => g.opened c && inDie c && decide ((g.use c).teams = 0) && decide ((g.use c).slots = 0)) && !decide (cl ∈ g.held) then
        let ps := groupPlans g.use pick cl ((List.range u.teams.length).map (fun i => (u.teams.getD i [], u.keep[i]?)))
        match ps[pick % max 1 ps.length]? with
        | some p => [((cs.map g.occ).sum, p)]
        | none => []
      else []))
  else
    let t := u.teams.headD []
    leastOcc ((List.range g.cores).flatMap (fun c =>
      let cs := (List.range t.length).map (c + ·)
      if (decide (t.length = 1) || decide (c % 2 = 0)) && cs.all (fun c => g.opened c && inDie c) && !decide (clusterOf c ∈ g.held) then
        match placeTeam g.use pick false t none c with
        | some (use', p) => [((cs.map g.occ).sum, [p], use')]
        | none => []
      else []))

/-- Place several units in one decision (R54). -/
def Ground.placeAll (pick : Nat) : List Demand → Ground → Option (List (List Spot))
  | [], _ => some []
  | u :: rest, g =>
    match g.place pick u with
    | none => none
    | some (ps, use') =>
      let held := if u.excl then (match ps with | p :: _ => clusterOf p.core :: g.held | [] => g.held) else g.held
      let occ := fun c => (use' c).slots
      (Ground.placeAll pick rest { g with use := use', held := held, occ := occ }).map (fun r => ps :: r)

/-- What a fresh team of a record needs, by position. -/
def LaunchRec.needs (r : LaunchRec) : List Need := if r.paired then [r.need 0, r.need 1] else [r.need 0]
/-- The units of `n` teams (R42). -/
def LaunchRec.units (r : LaunchRec) (n : Nat) : List Demand :=
  let per := r.perGroup
  (List.range ((n + per - 1) / per)).map (fun k => ⟨List.replicate (min per (n - k * per)) r.needs, r.excl, none, []⟩)
/-- The device with every core empty. -/
def Ground.bare (cores : Nat) : Ground := ⟨fun _ => Use.empty, fun _ => true, [], fun _ => 0, cores⟩

/-! ### Refusal (R38, R385) -/

/-- A role entry that keeps R37. -/
def Role.ok (r : Role) (paired : Bool) : Bool :=
  decide (r.entry.toNat % 8 = 0) &&
    if r.kind = 3 then decide (r.width = 0) && decide (r.vregs = 0) && decide (r.lanePriv = 0) && decide (r.waves = 1)
    else
      (decide (r.kind = 1) || decide (r.kind = 2)) && decide (1 ≤ r.width) && decide (r.width ≤ 3) && decide (8 ≤ r.vregs)
        && decide (r.vregs ≤ 256) && decide (r.vregs % 8 = 0) && decide (r.lanePriv ≤ 128)
        && (if paired then decide (2 ≤ r.waves) && decide (r.waves ≤ 32) && decide (r.waves % 2 = 0)
            else decide (1 ≤ r.waves) && decide (r.waves ≤ 16))
/-- Every role entry keeps R37, and a bin record the narrower form of R385. -/
def rolesOk (b : List Byte) (r : LaunchRec) (bin : Bool) : Bool :=
  let vs := r.roles.filter (fun x => !decide (x.kind = 3))
  r.roles.all (fun x => x.ok r.paired) && decide (r.roles.length ≤ vs.length + 1)
    && decide ((vs.map (fun x => x.waves)).sum ≤ (if r.paired then 32 else 16))
    && zeroField b (0x40 + 32 * r.roles.length) (128 - 32 * r.roles.length)
    && (!bin || (decide (r.roles.length = 1) && r.roles.all (fun x => decide (x.kind = 1) && decide (x.waves = 1)) && !r.coop && !r.paired
      && !r.excl))
/-- A reserved bit or byte is set, or SHRATE holds a 3. -/
def reservedSet (b : List Byte) (r : LaunchRec) : Bool :=
  let c := r.ctl.toNat
  let sh := r.shrate.toNat
  !decide (c / 2 ^ 12 % 2 ^ 44 = 0) || !decide (c / 128 % 2 = 0) || !decide (r.fpcompat.toNat / 65536 = 0) || decide (16 ≤ sh)
    || decide (sh % 4 = 3) || decide (sh / 4 % 4 = 3) || !zeroField b 0xC0 64
    || (List.range r.roles.length).any (fun i => !zeroField b (0x4F + 32 * i) 17)

/-- An id an entry of the launch dependency table holds. -/
def State.idHeld (s : State) (id : W32) : Bool := s.launches.any (fun r => decide (r.2.record.launchId = id))

/-- The reason to refuse a record, the lowest that applies (R38). -/
def State.refusal (s : State) (b : List Byte) (bin : Bool) : Option Nat :=
  let r := launchRec b
  let gridOk := decide (0 < r.total) && decide (r.total < 2 ^ 32) && canonical r.args && canonical r.codeBase
    && (!bin || decide (r.total = 1))
  if r.ctl.toNat / 2 ^ 56 ≠ 1 then some 1
  else if reservedSet b r then some 2
  else if !rolesOk b r bin then some 3
  else if (Ground.placeAll 0 (r.units (min r.perGroup (max 1 r.total))) (Ground.bare s.coreCount)).isNone then some 4
  else if r.coop && (decide (4 * s.coreCount < r.total) || (Ground.placeAll 0 (r.units r.total) (Ground.bare s.coreCount)).isNone) then
    some 5
  else if r.launchId = 0 ∨ s.idHeld r.launchId then some 6
  else if !gridOk then some 7
  else if r.preds.any (fun p => !decide (p = 0) && decide (p.toNat ∈ s.refused)) then some 8
  else none

end Sys2Proof.Machine
end

