-- ==== Sys2Proof/Machine/StreamCtl.lean ====
section
/-! DEFINITION. Control of the sequencer stream (R230–R232), the end of a transfer (R225–R228), and the power state of the
quarters (R233). -/

namespace Sys2Proof.Machine

/-! ### m registers and transfers of control (R230, R231) -/

/-- IMM16 sign-extended. -/
def simm (f : FmtX) : W32 := f.imm.signExtend 32
/-- A + 8 × S(IMM16). -/
def Stream.target (m : Stream) (f : FmtX) : W64 := m.wordAddr + BitVec.ofInt 64 (8 * f.imm.toInt)
/-- A sequencer word that completes at issue. -/
def seqNow (i : Instr) (s : State) (run : Stream → Stream) : Out :=
  seqWord i s (fun c m => s.setStream c (run m))

/-- MSET (R230). -/
def execMset (f : FmtX) (s : State) : Out :=
  seqNow (.mset f) s (fun m =>
    let k := f.cha.toNat
    (m.setM k (match f.fn.toNat with
      | 0 => f.imm.zeroExtend 32
      | 1 => simm f
      | _ => f.imm ++ (m.mreg k).extractLsb' 0 16)).done)

/-- MADD (R230). -/
def execMadd (f : FmtX) (s : State) : Out :=
  seqNow (.madd f) s (fun m =>
    (m.setM f.cha.toNat (m.mreg f.chb.toNat + (if f.fn = 0 then simm f else m.mreg f.fb.toNat))).done)

/-- MLOOP (R231). -/
def execMloop (f : FmtX) (s : State) : Out :=
  seqNow (.mloop f) s (fun m =>
    let n := m.mreg f.cha.toNat - 1
    (m.setM f.cha.toNat n).goTo (if n = 0 then m.fallAddr else m.target f))

/-- MBR (R231). -/
def execMbr (f : FmtX) (s : State) : Out :=
  seqNow (.mbr f) s (fun m =>
    let x := m.mreg f.cha.toNat
    let go := match f.fn.toNat with
      | 0 => true
      | 1 => !decide (x = 0)
      | _ => decide (x = 0)
    m.goTo (if go then m.target f else m.fallAddr))

/-- MHALT (R231): issue ends; the queues run out. -/
def execMhalt (f : FmtX) (s : State) : Out := seqWord (.mhalt f) s (fun c m => s.endStream c m)

/-! ### Meeting the waves at barriers (R232) -/

/-- The stream's member number at its team's barriers. -/
def Stream.member (m : Stream) : Nat := 40 + m.pos

/-- MARR (R232, R467): once every earlier word has ended, arrive at tb N with team-scope release. -/
def execMarr (f : FmtX) (s : State) : Out :=
  seqWord (.marr f) s (fun c m =>
    match s.barrier? m.team 0 f.imm.toNat with
    | none => s.streamTrap c m 0x06 0 0
    | some b =>
      if !m.arrayQ.isEmpty || !m.xferQ.isEmpty || !m.mfmt.isEmpty then s.blockStream c m 0
      else
        match b.arrive m.member with
        | none => s.blockStream c m 1
        | some b' =>
          let s := (s.columnRelease (s.paired m.team) 1 c).setBarrier m.team 0 f.imm.toNat b'
          (s.pmcCount c 0x1E 1 m.team).setStream c m.done)

/-- MWAIT (R232, R467): wait for the current phase of tb N, then acquire at team scope. -/
def execMwait (f : FmtX) (s : State) : Out :=
  seqWord (.mwait f) s (fun c m =>
    match s.barrier? m.team 0 f.imm.toNat with
    | none => s.streamTrap c m 0x06 0 0
    | some b =>
      if b.waitOver m.member then (s.columnAcquire (s.paired m.team) 1 c).setStream c m.done
      else s.blockStream c m 1)

/-! ### The end of a transfer (R225, R226, R228, R410) -/

/-- The bytes an MLD loads: of its channel element, or of memory; the state after the reads, and the address of the first
bad access. -/
def State.mldSource (s : State) (core : Nat) (m : Stream) (q : QWord) : State × List Byte × Option W64 :=
  if q.f.flags.getLsbD 0 then
    q.accs.foldl (fun r a =>
      let x := r.1.streamRead core m.team a
      (x.1, r.2.1 ++ x.2.1, if r.2.2.isNone && x.2.2 then some a.va else r.2.2)) (s, [], none)
  else
    match s.team? m.team with
    | some t =>
      let c := t.chan q.f.cha.toNat
      let i := BitVec.ofNat 32 q.start
      (s, s.elemBytes t c i 0 c.esize, if s.elemBad t c i 0 c.esize then some 0 else none)
    | none => (s, [], none)

/-- The end of an MLD: its tile, and its channel element consumed. -/
def State.mldEnd (s : State) (core : Nat) (m : Stream) (q : QWord) : State :=
  let r := s.mldSource core m q
  let s := r.1.tileWrite core q.f.tile.toNat q.f.accf.toNat (mldElems q.f q.fbA r.2.1)
  let s := match r.2.2 with | some addr => s.streamBad core m q.pc addr | none => s
  if q.f.flags.getLsbD 0 then s else s.updChan m.team q.f.cha.toNat (fun c => (c.consume 1).leave q.id)

/-- The end of an MST: its pieces in ascending address order, or its channel element committed; then its device release, and
the stream actions it took. -/
def State.mstEnd (s : State) (core : Nat) (m : Stream) (q : QWord) : State :=
  let r := s.mstBytes core q
  let s := if s.tileBad core q.f.tile.toNat q.f.accf.toNat tileCells then s.streamBad core m q.pc 0 else s
  let s := if r.2 = 0 then s else s.count 5 (dieOfCore core) 7 r.2
  let s :=
    if q.f.flags.getLsbD 0 then
      (List.range q.accs.length).foldl (fun s i =>
        match q.accs[i]? with
        | some a => s.streamWrite core a ((r.1.drop (16 * i)).take 16)
        | none => s) s
    else
      match s.team? m.team with
      | some t => (s.elemWrite t (t.chan q.f.cha.toNat) (BitVec.ofNat 32 q.start) 0 r.1).updChan m.team q.f.cha.toNat
          (fun c => c.commit (BitVec.ofNat 32 q.start) 1)
      | none => s
  let s := if q.f.flags.getLsbD 3 then s.columnRelease (s.paired m.team) 3 core else s
  q.ecpls.foldl (fun s e => (s.runEcpl e.1 m.team e.2 q.id).1) s

/-- The end of a GTSEND: its rows leave in ascending order, one flit a row (R410). -/
def State.gtsendEnd (s : State) (core : Nat) (m : Stream) (q : QWord) : State :=
  let x := s.chain core q.chain
  let cells := (run q.row0 (q.nrow + 1)).flatMap (fun r => (List.range 64).map (fun j => (r, j)))
  let s := if s.tileBad core q.f.tile.toNat 0 cells then s.streamBad core m q.pc 0 else s
  (run q.row0 (q.nrow + 1)).foldl (fun s r =>
    let data := (List.range 64).map (fun j => BitVec.ofNat 32 (s.tileElem core q.f.tile.toNat 0 r j))
    let fl : Flit := { chain := q.chain, sender := m.team, spos := m.pos, team := x.dstTeam, src := core, dst := x.dst, row := r, data := data, bad := false,
                       answer := none }
    State.pmcCount { s with flits := Tbl.set s.flits s.nextId fl, nextId := s.nextId + 1 } core 0x17 1 m.team) s

/-- TRANSFER_WORD_END (R216): the head of the transfer queue, begun, ends. -/
def execTransferWordEnd (core : Nat) (s : State) : Out :=
  match s.stream? core with
  | none => .next s
  | some m =>
    match m.xferQ with
    | [] => .next s
    | q :: _ =>
      if !q.begun || (!q.ecpls.isEmpty && !s.ctxRuns m.team) then .next s
      else
        let s := if q.op = 0xA4 then s.mldEnd core m q else if q.op = 0xA5 then s.mstEnd core m q else s.gtsendEnd core m q
        match s.stream? core with
        | none => .next s
        | some m => .next ((s.stepStream core { m with xferQ := m.xferQ.drop 1 }).settleCore core)

/-! ### Quarters (R233) -/

/-- A word in the array queue uses a quarter. -/
def Stream.quarterUsed (m : Stream) (q : Nat) : Bool := m.arrayQ.any (fun w => w.isMma && decide (q ∈ quartersOf w.f))
/-- Change the power state of a quarter. -/
def Stream.setQuarter (m : Stream) (q : Nat) (x : Quarter) : Stream := { m with quarters := m.quarters.set q x }

/-- QUARTER_GATED (R233): idle for MXIDLE ck, and no queued word uses it. -/
def execQuarterGated (core q : Nat) (s : State) : Out :=
  match s.stream? core with
  | none => .next s
  | some m =>
    match m.quarters.getD q .gated with
    | .awake t =>
      if s.win.mxidle ≠ 0 ∧ t + s.win.mxidle ≤ s.ck ∧ m.quarterUsed q = false then
        .next (s.setStream core (m.setQuarter q .gated))
      else .next s
    | _ => .next s

/-- QUARTER_AWAKE (R233): CAP_MXWAKE ck after it started to wake. -/
def execQuarterAwake (core q : Nat) (s : State) : Out :=
  match s.stream? core with
  | none => .next s
  | some m =>
    match m.quarters.getD q .gated with
    | .waking t =>
      if t + Config.capMxwake ≤ s.ck then .next (s.setStream core (m.setQuarter q (.awake s.ck))) else .next s
    | _ => .next s

end Sys2Proof.Machine
end

