-- ==== Sys2Proof/Machine/GearTrain.lean ====
section
/-! DEFINITION. The Gear train (R405–R415): its words, the answer to a GTSEND's check, and the arrival and acknowledgement of
flits. -/

namespace Sys2Proof.Machine

/-! ### Configuration and reservation (R408, R409) -/

/-- A GT_CONFIG trap of the current word. -/
def State.gtConfig (s : State) (core : Nat) (m : Stream) (sub : Nat) : State := s.streamTrap core m 0x11 sub 0
/-- An entry that GTCFG may take. -/
def Chain.configurable (x : Chain) : Bool := decide (x.state = .free) || decide (x.state = .broken)

/-- The destination of GTCFG.send: its team and core, or none where it is not resident (R408). -/
def State.gtDest (s : State) (m : Stream) (index : W32) (pos : Nat) : Option (Nat × Nat) :=
  let launch := s.launchOf m.team
  let team := if index = 0xFFFFFFFF then (s.team? m.team).map (fun t => (m.team, t))
    else s.teams.find? (fun r => decide (r.2.launch = launch) && decide (r.2.index = index.toNat))
  team.bind (fun r => if pos = 1 ∧ !r.2.paired then none else some (r.1, r.2.core + pos))

/-- GTCFG.send (R408, R415). -/
def execGtcfgSend (f : FmtGT) (s : State) : Out :=
  seqWord (.gtcfgSend f) s (fun c m =>
    let r := f.mreg.toNat
    let p := (m.mreg (r + 1)).toNat
    let x := s.chain c f.chain.toNat
    if 2 ≤ p then s.streamTrap c m 0x01 0 0
    else if !x.configurable then s.gtConfig c m 2
    else
      match s.gtDest m (m.mreg r) p with
      | none => s.gtConfig c m 3
      | some (team, core) =>
        if core = c then s.gtConfig c m 1
        else
          ((s.setChain c f.chain.toNat { Chain.free with state := .send, dst := core, dstTeam := team, tile := f.tile.toNat }).idemLost
            m.team).setStream c m.done)

/-- GTCFG.dest (R408). -/
def execGtcfgDest (f : FmtGT) (s : State) : Out :=
  seqWord (.gtcfgDest f) s (fun c m =>
    let x := s.chain c f.chain.toNat
    if !x.configurable then s.gtConfig c m 2
    else
      ((s.setChain c f.chain.toNat { Chain.free with state := .dest, tile := f.tile.toNat, sorted := f.imm.getLsbD 0 }).idemLost
        m.team).setStream c m.done)

/-- Receive entries of a core that no chain but `c` has taken (R406). -/
def State.gtFree (s : State) (core c : Nat) : Nat :=
  1024 - (((s.core core).chains.filter (fun r => !decide (r.1 = c))).map (fun r => r.2.entries)).sum

/-- GTRSV (R409, R415). -/
def execGtrsv (f : FmtGT) (s : State) : Out :=
  seqWord (.gtrsv f) s (fun c m =>
    let k := f.chain.toNat
    let x := s.chain c k
    let n := (m.mreg f.mreg.toNat).toNat
    let rows := f.nrow.toNat + 1
    let need := if x.sorted then n * rows else rows
    if x.state = .reserved ∧ x.remain ≠ 0 then s.gtConfig c m 2
    else if x.state ≠ .dest ∧ x.state ≠ .reserved then s.gtConfig c m 5
    else if n = 0 ∨ 1024 < n ∨ s.gtFree c k < need then s.gtConfig c m 4
    else
      ((s.setChain c k { x with state := .reserved, row0 := f.row0.toNat, nrow := f.nrow.toNat, count := n, remain := n * rows,
                                entries := need, held := [], arrived := [], stamp := s.nextId }).idemLost m.team).setStream c m.done)

/-! ### GTSEND (R410) -/

/-- The operand a GTSEND puts into the transfer queue. -/
def gtTile (f : FmtGT) : FmtX := ⟨0, 0, f.tile, 0, 0, 0, 0, 0, 0, 0⟩

/-- GTSEND (R410): check the destination, and enter the transfer queue once it has answered. -/
def execGtsend (f : FmtGT) (s : State) : Out :=
  seqWord (.gtsend f) s (fun c m =>
    let s := s.idemLost m.team
    let x := s.chain c f.chain.toNat
    if x.state ≠ .send then s.gtConfig c m 5
    else
      match m.check with
      | none => s.blockStream c { m with check := some 0 } 1
      | some 0 => s.blockStream c m 1
      | some 1 =>
        if m.xferFull then s.blockStream c m 1
        else
          s.pushXfer c { m with check := none } { QWord.of s 0xDA m (gtTile f) with
            chain := f.chain.toNat, row0 := f.row0.toNat, nrow := f.nrow.toNat }
      | some 2 => s.streamTrap c { m with check := none } 0x10 1 0
      | some _ => s.streamTrap c { m with check := none } 0x0F 1 0)

/-- Whether a core holds a team. -/
def State.holdsTeam (s : State) (core team : Nat) : Bool :=
  match s.team? team with
  | some t => decide (core ∈ t.cores)
  | none => false

/-- GT_CHECK_ANSWER (R410): the destination answers the check of a core's waiting GTSEND. -/
def execGtCheckAnswer (core : Nat) (s : State) : Out :=
  match s.stream? core with
  | none => .next s
  | some m =>
    match m.check, m.clause with
    | some 0, some cl =>
      (match decodeWord (cl.words.getD m.widx 0) with
      | .ok (.gtsend f) =>
        let k := f.chain.toNat
        let x := s.chain core k
        let y := s.chain x.dst k
        let a := f.row0.toNat
        let ans :=
          if !s.holdsTeam x.dst x.dstTeam || decide (y.state = .broken) then 2
          else if y.state = .reserved ∧ y.row0 ≤ a ∧ a + f.nrow.toNat ≤ y.row0 + y.nrow then 1
          else 3
        .next (s.setStream core { m with check := some ans })
      | _ => .next s)
    | _, _ => .next s

/-! ### Draining and releasing (R411) -/

/-- GTDRAIN (R411, R413). -/
def execGtdrain (f : FmtGT) (s : State) : Out :=
  seqWord (.gtdrain f) s (fun c m =>
    let s := (s.idemLost m.team).settleCore c
    let x := s.chain c f.chain.toNat
    match x.state with
    | .broken => s.streamTrap c m 0x10 3 0
    | .reserved =>
      if x.remain ≠ 0 then s.blockStream c m 1
      else if x.poisoned then
        (s.setChain c f.chain.toNat { x with poisoned := false }).setStream c (m.done.poisonAt m.wordAddr 0)
      else s.setStream c m.done
    | _ => s.gtConfig c m 5)

/-- GTDRAIN.phase (R411, R476, R478). -/
def execGtdrainPhase (f : FmtGT) (s : State) : Out :=
  seqWord (.gtdrainPhase f) s (fun c m =>
    let s := s.idemLost m.team
    match s.team? m.team with
    | none => s.setStream c m.done
    | some t =>
      if t.phase.broken then s.streamTrap c m 0x10 4 0
      else if !t.phase.opened || decide (Tbl.getD t.phase.cgt m.pos 0 = 0) then s.setStream c m.done
      else s.blockStream c m 1)

/-- GTREL (R411). -/
def execGtrel (f : FmtGT) (s : State) : Out :=
  seqWord (.gtrel f) s (fun c m =>
    let s := s.idemLost m.team
    let k := f.chain.toNat
    let x := s.chain c k
    if x.state = .send then
      if m.xferQ.any (fun q => decide (q.op = 0xDA) && decide (q.chain = k))
          || s.flits.any (fun r => decide (r.2.sender = m.team) && decide (r.2.spos = m.pos) && decide (r.2.chain = k)) then s.blockStream c m 1
      else if x.refusedGone then (s.setChain c k { Chain.free with state := .broken }).streamTrap c m 0x10 2 0
      else if x.refusedOther then (s.setChain c k { Chain.free with state := .broken }).streamTrap c m 0x0F 2 0
      else (s.setChain c k Chain.free).setStream c m.done
    else (s.setChain c k Chain.free).setStream c m.done)

/-! ### Flits (R405, R410, R412, R413) -/

/-- A flit is answered: accepted (0), refused for a vacated destination (1), refused otherwise (2). -/
def State.answerFlit (s : State) (n : Nat) (fl : Flit) (ans : Nat) : State :=
  { s with flits := Tbl.set s.flits n { fl with answer := some ans } }

/-- A contribution of a chain is dropped: counted, and ERRSEEN in the team's waves on the core, or the stop of R413. -/
def State.lostRow (s : State) (core chain team : Nat) : State :=
  let s := s.countErr (dieOfCore core) 5
  if s.poisonTraps team then s.setChain core chain { s.chain core chain with poisoned := true }
  else s.errSeenCore team core
/-- A dropped flit (R413). -/
def State.dropFlit (s : State) (fl : Flit) : State := s.lostRow fl.dst fl.chain fl.team

/-- A core's destination team was vacated from it: it is saved, or placed elsewhere since. One that has ended is not (R411, R414). -/
def State.vacatedFrom (s : State) (core team : Nat) : Bool :=
  !s.holdsTeam core team && ((s.team? team).isSome || (Tbl.get? s.saved team).isSome)

/-- GT_FLIT_ARRIVAL (R412, R413): a flit is added, held, dropped or refused at its destination. Flits of one sender's chain
arrive in the order they were sent (R405). -/
def execGtFlitArrival (n : Nat) (s : State) : Out :=
  match Tbl.get? s.flits n with
  | none => .next s
  | some fl =>
    let earlier := s.flits.any (fun r => decide (r.1 < n) && r.2.answer.isNone && decide (r.2.sender = fl.sender)
      && decide (r.2.spos = fl.spos) && decide (r.2.chain = fl.chain) && decide (r.2.dst = fl.dst))
    if fl.answer.isSome || earlier then .next s
    else
      let x := s.chain fl.dst fl.chain
      let got := Tbl.getD x.arrived fl.row 0
      let refuse := fun (a : Nat) =>
        Host.Outcome.next (((s.countErr (dieOfCore fl.dst) 6).pmcCount fl.dst 0x19 1 fl.team).answerFlit n fl a)
      if s.vacatedFrom fl.dst fl.team || (s.holdsTeam fl.dst fl.team && decide (x.state = .broken)) then refuse 1
      else if !s.holdsTeam fl.dst fl.team ∨ x.state ≠ .reserved ∨ fl.row < x.row0 ∨ x.row0 + x.nrow < fl.row ∨ x.count ≤ got then refuse 2
      else if x.sorted then
        let s := s.setChain fl.dst fl.chain { x with
          arrived := Tbl.put x.arrived fl.row 0 (got + 1), held := x.held ++ [⟨fl.row, fl.src, fl.bad, fl.data⟩] }
        let s := if fl.bad then s.dropFlit fl else s
        .next ((s.settleChain fl.dst fl.chain).answerFlit n fl 0)
      else if !s.chainOpen fl.dst x then .next s
      else
        let s := if fl.bad then s else (s.addRow fl.dst x fl.row fl.data).pmcCount fl.dst 0x18 1 fl.team
        let s := s.setChain fl.dst fl.chain { x with arrived := Tbl.put x.arrived fl.row 0 (got + 1), remain := x.remain - 1 }
        let s := if fl.bad then s.dropFlit fl else s
        let pos := match s.team? fl.team with | some t => fl.dst - t.core | none => 0
        .next ((s.phaseArrive fl.team pos .gt).answerFlit n fl 0)

/-- A refusal is noted in a SEND entry (R411). -/
def Chain.refused (x : Chain) (a : Nat) : Chain :=
  if x.state ≠ .send then x
  else { x with refusedGone := x.refusedGone || decide (a = 1), refusedOther := x.refusedOther || decide (a = 2) }
/-- GT_FLIT_ACK (R410, R411, R414): the acknowledgement reaches the sender's chain, on the core its team stands on now or in its saved
state. -/
def execGtFlitAck (n : Nat) (s : State) : Out :=
  match Tbl.get? s.flits n with
  | none => .next s
  | some fl =>
    match fl.answer with
    | none => .next s
    | some a =>
      let s := { s with flits := Tbl.del s.flits n }
      match s.team? fl.sender with
      | some t => .next (s.setChain (t.core + fl.spos) fl.chain ((s.chain (t.core + fl.spos) fl.chain).refused a))
      | none =>
        match Tbl.get? s.saved fl.sender with
        | none => .next s
        | some x => .next { s with saved := Tbl.set s.saved fl.sender { x with chains := x.chains.map (fun c =>
            (c.1, if c.1 = fl.spos then Tbl.upd c.2 fl.chain (fun y => y.refused a) else c.2)) } }

end Sys2Proof.Machine
end

