-- ==== Sys2Proof/Machine/Regulator.lean ====
section
/-! DEFINITION. The Regulator: launch queues (R375, R376), the launch dependency table (R46, R56–R58, R434), standing launches
(R385, R432), placement, start and restore of teams (R39–R49, R54, R386, R460), and completion (R58). -/

namespace Sys2Proof.Machine

/-! ### STATUS and HEAD (R38, R376) -/

/-- STATUS of a record is written. -/
def State.statusWrite (s : State) (pa v : Nat) : State := s.devWrite (pa + 0x3C) (bytesOf 4 v)
/-- STATUS of the record of sequence number `n`, as its slot holds it. -/
def State.statusAt (s : State) (q n : Nat) : Nat := ofBytes (s.homeBytes ((s.lq q).slot n + 0x3C) 4).1
/-- A STATUS that ends a record (R376). -/
def statusFinal (v : Nat) : Bool := decide (v = 2) || decide (v / 2 ^ 30 % 4 = 1) || decide (v / 2 ^ 31 % 2 = 1)
/-- HEAD moves past the ended records at the front of a queue, `k` of them at most (R376). -/
def State.advanceHead : Nat → State → Nat → State
  | 0, s, _ => s
  | k + 1, s, q =>
    let x := s.lq q
    let s := if x.head = x.next then s else s.homeRead (x.slot x.head)
    if x.head = x.next ∨ !statusFinal (s.statusAt q x.head) then s
    else
      let h := (x.head + 1) % 2 ^ 64
      State.advanceHead k ((s.setLq q { x with head := h }).ctlWrite q 0x10 h) q
/-- The records a queue has read and not passed. -/
def LQueue.open_ (x : LQueue) : Nat := (x.next + 2 ^ 64 - x.head) % 2 ^ 64
def State.headOf (s : State) (q : Nat) : State := State.advanceHead (s.lq q).open_ s q

/-- LAUNCH_QUEUE_REFETCH (R376): the Regulator refetches an enabled queue's control line and acquires its records; at first it
starts at HEAD. -/
def execLaunchQueueRefetch (q : Nat) (s : State) : Out :=
  let x := s.lq q
  if !x.enable then .next s
  else
    let s := s.ctlRead q
    let tail := s.ctlWord q 8
    let head := s.ctlWord q 0x10
    .next (s.setLq q (if x.started then { x with fresh := true, tail := tail }
                        else { x with fresh := true, started := true, tail := tail, next := head, head := head }))

/-! ### The launch dependency table (R46, R56, R57, R434) -/

/-- Raise every entry to the priorities of the entries that name it, `n` times over (R56). A standing launch counts as active here, which
R56 does not say (DESIGN CHOICE, log entry 116). -/
def raisePrio : Nat → Tbl Launch → Tbl Launch
  | 0, t => t
  | n + 1, t => raisePrio n (List.map (fun r =>
      (r.1, { r.2 with eprio := t.foldl (fun p d => if r.1 ∈ d.2.bound then max p d.2.eprio else p) r.2.prio })) t)
/-- Effective priorities are recomputed (R56). -/
def State.updPrio (s : State) : State :=
  { s with launches := raisePrio s.launches.length (List.map (fun r => (r.1, { r.2 with eprio := r.2.prio })) s.launches) }

/-- Entries made from queued records (R434). -/
def State.queuedEntries (s : State) : Nat := (s.launches.filter (fun r => !decide (r.2.state = .standing))).length

/-- The entry of a record; `child` says that a LAUNCH word enqueued it (R59). -/
def State.makeEntry (s : State) (b : List Byte) (pa : Nat) (q : Option Nat) (seq : Nat) (m : Option Nat) (st : LState) (child : Bool) :
    State :=
  let r := launchRec b
  let bound := (s.launches.filter (fun x => r.preds.any (fun p => !decide (p = 0) && decide (p = x.2.record.launchId)))).map (fun x => x.1)
  let l : Launch :=
    { record := r, bound := bound, child := child, ctx := s.win.ctxid, recAddr := pa, queue := q, seqno := seq, material := m, prio := r.prio,
      eprio := r.prio, state := st, total := if m.isSome then 0 else r.total, nextTeam := 0, again := [], saved := [], resident := [],
      lastCore := 0, placedAny := false, ending := false, fault := none, binNext := 0, binTeams := [],
      gb := if r.coop then (List.range 4).map (fun i => (i, Barrier.fresh 0)) else [] }
  State.updPrio { s with launches := Tbl.set s.launches s.nextId l, nextId := s.nextId + 1,
                         refused := s.refused.filter (fun x => !decide (x = r.launchId.toNat)) }

/-- A refused record's id is kept, so that a record naming it is refused with reason 0x08 (R38); a duplicate id names an entry. -/
def State.noteRefused (s : State) (b : List Byte) (reason : Nat) : State :=
  let id := (launchRec b).launchId.toNat
  if reason = 6 ∨ id ∈ s.refused then s else { s with refused := id :: s.refused }

/-- LAUNCH_RECORD_READ (R46): the next record of a queue is read and refused, or entered in the table. -/
def execLaunchRecordRead (q : Nat) (s : State) : Out :=
  let x := s.lq q
  if !x.enable || !x.started || decide (x.next = x.tail) || decide (1024 ≤ s.queuedEntries) then .next s
  else
    let pa := x.slot x.next
    let r := if s.backed pa then s.homeReadBytes none pa 256 else (s, List.replicate 256 0, false)
    let s := r.1.setLq q { x with next := (x.next + 1) % 2 ^ 64, kids := x.kids.filter (fun n => !decide (n = x.next)) }
    match s.refusal r.2.1 false with
    | some reason => .next (((s.noteRefused r.2.1 reason).statusWrite pa (2 ^ 31 + reason)).headOf q)
    | none => .next (s.makeEntry r.2.1 pa (some q) x.next none .waiting (decide (x.next ∈ x.kids)))

/-- LAUNCH_ACTIVATION (R46): every predecessor is gone, and no record before it in its queue waits. -/
def execLaunchActivation (l : Nat) (s : State) : Out :=
  match s.launch? l with
  | none => .next s
  | some x =>
    if x.state = .waiting ∧ x.bound.all (fun p => (s.launch? p).isNone) ∧
        s.launches.all (fun r => !decide (r.2.queue = x.queue) || !decide (r.2.state = .waiting) || decide (l ≤ r.1)) then
      .next (s.setLaunch l { x with state := .active })
    else .next s

/-! ### Standing launches (R385, R432) -/

/-- A material's entry becomes valid: its record is read and checked, and stands, or is refused (R385, R432). -/
def State.standLaunch (s : State) (m : Nat) : State :=
  let va := (s.material m).launch
  let gone := fun (s : State) => (s.discardBins m).errorReport (0x10000 + m)
  let p := (⟨s, none, none⟩ : DRead).read 0 va 256
  match p.1.fail, p.1.bad, s.translate 0 va .read with
  | none, none, .ok x =>
    (match p.1.s.refusal p.2 true with
    | some reason => ((p.1.s.noteRefused p.2 reason).statusWrite x.pa (2 ^ 31 + reason)).discardBins m
    | none => p.1.s.makeEntry p.2 x.pa none 0 (some m) .standing false)
  | _, _, _ => gone p.1.s
/-- A material's entry becomes invalid: its launch ends once its teams have finished, and its bins are discarded (R385). -/
def State.endStanding (s : State) (m : Nat) : State :=
  let s := s.discardBins m
  match s.standing m with
  | some (l, x) => s.setLaunch l { x with ending := true, material := none }
  | none => s

/-! ### Teams that have ended (R58) -/

/-- Remove the rows of waves that have halted and whose requests have all returned. -/
def State.reapWaves (s : State) : State :=
  { s with waves := List.filter (fun r => !r.2.gone) s.waves }
/-- Whether everything a team issued has ended (R58). -/
def State.teamOver (s : State) (id : Nat) (t : Team) : Bool :=
  decide (t.waves ≤ t.ended.length) && !s.waves.any (fun r => decide (r.2.team = id))
    && s.streams.all (fun r => !decide (r.2.team = id) || r.2.quiet)
    && !s.cmds.any (fun r => decide (r.2.team = id)) && !s.treqs.any (fun r => decide (r.2.team = id))
/-- A team leaves its group, the row of which goes with its last team. -/
def State.leaveGroup (s : State) (g id : Nat) : State :=
  match Tbl.get? s.groups g with
  | none => s
  | some x =>
    let rest := x.teams.filter (fun y => !decide (y = id))
    { s with groups := if rest.isEmpty then Tbl.del s.groups g else Tbl.set s.groups g { x with teams := rest } }
/-- The streams of a team and the chains of their cores are gone. -/
def State.dropStreams (s : State) (id : Nat) : State :=
  let cs := (s.streams.filter (fun r => decide (r.2.team = id))).map (fun r => r.1)
  cs.foldl (fun s c => { s.setCore c { s.core c with chains := [] } with streams := Tbl.del s.streams c }) s
/-- A team that has ended leaves its cores; its group remembers that it lost idempotence (R61). -/
def State.reapTeam (s : State) (id : Nat) (t : Team) : State :=
  let s := if t.idemLost then { s with groups := Tbl.upd s.groups t.group (fun g => { g with lost := true }) } else s
  let s := ((s.dropWatch id).dropStreams id).leaveGroup t.group id
  let s := s.updLaunch t.launch (fun l => { l with resident := l.resident.filter (fun x => !decide (x = id)) })
  { s with teams := Tbl.del s.teams id }
/-- Every team that has ended leaves. -/
def State.reap (s : State) : State :=
  let s := s.reapWaves
  s.teams.foldl (fun s r => if s.teamOver r.1 r.2 then s.reapTeam r.1 r.2 else s) s

/-! ### Starting a team (R39–R41, R386) -/

/-- The lowest wave slot of a core from which `k` slots are free; else the lowest that names no wave. -/
def State.freeSlot (s : State) (core k : Nat) : Nat :=
  let ws := (s.waves.filter (fun r => decide (r.1 / 32 = core))).map (fun r => (r.1 % 32, r.2.slots))
  let run := (List.range 32).find? (fun b => decide (b + k ≤ 32) && ws.all (fun w => decide (b + k ≤ w.1) || decide (w.1 + w.2 ≤ b)))
  match run with
  | some b => b
  | none => ((List.range 32).find? (fun b => ws.all (fun w => !decide (w.1 = b)))).getD 0

/-- A wave's place in its team: role and numbers (R40, R41). -/
structure WaveId where
  role : Nat
  idx : Nat
  roleIdx : Nat
  pos : Nat
  info : Role
  deriving DecidableEq, Repr

/-- The waves of a team, role by role. -/
def waveIds (roles : List Role) (paired : Bool) : List WaveId :=
  ((List.range roles.length).foldl (fun (r : List WaveId × Nat) i =>
    match roles[i]? with
    | none => r
    | some x =>
      if x.kind = 3 then r
      else (r.1 ++ (List.range x.waves).map (fun j => ⟨i, r.2 + j, j, if paired then j % 2 else 0, x⟩), r.2 + x.waves)) ([], 0)).1

/-- Scalars s104–s119 of a wave (R40). -/
def contextScalars (l : Launch) (t : Team) (w : WaveId) (bin : Option BinTeam) : List (Nat × W32) :=
  let r := l.record
  let n := fun (x : Nat) => BitVec.ofNat 32 x
  let i := t.index
  [(104, n (match bin with | some _ => i | none => i % r.gridX)), (105, n (match bin with | some b => b.die | none => i / r.gridX % r.gridY)),
    (106, n (match bin with | some _ => 0 | none => i / (r.gridX * r.gridY))), (107, n i), (108, n (i / r.perGroup)), (109, n (i % r.perGroup)),
    (110, n w.idx), (111, n w.roleIdx), (112, n w.role), (113, n (32 * w.info.width)),
    (114, n (match bin with | some b => b.lanes.length | none => 32 * w.info.width)), (115, r.launchId),
    (116, n (match bin with | some b => b.material | none => 0)), (117, n (match bin with | some _ => 0 | none => r.total)),
    (118, r.args.extractLsb' 0 32), (119, r.args.extractLsb' 32 32)]

/-- A wave as it starts (R39). -/
def startWave (l : Launch) (team : Nat) (t : Team) (w : WaveId) (bin : Option BinTeam) (now : Nat) : Wave :=
  let ss := contextScalars l t w bin ++ (List.range w.info.width).map (fun b => (120 + b, (0xFFFFFFFF : W32)))
  { team := team, role := w.role, idx := w.idx, pos := w.pos, adr := decide (w.info.kind = 2), beats := w.info.width, vregs := w.info.vregs,
    lanePriv := 64 * w.info.lanePriv, slots := waveSlots w.info.width w.info.vregs (64 * w.info.lanePriv), codeBase := l.record.codeBase,
    s := ss.foldl (fun m x => Tbl.put m x.1 0 x.2) [], v := [], lp := [], wstat := 0, fpcompat := l.record.fpcompat, epc := 0,
    ecause := 0, eaddr := 0, estat := 0, dstack := [], pc := l.record.codeBase + w.info.entry, clause := none, widx := 0,
    waitMet := false, eretWord := none, block := .none, reqs := [], wins := [], ahead := [], acktag := 0, hmask := 0, hit := 0, tref := [],
    ecpl := none, pend := none, poison := none, treq := none, arrivals := [], trapPending := false, stopped := false,
    dbg := false, dbgReq := false, halted := false, yielded := false, readySince := none, promoted := none, pipe := none, badW := [],
    stands := none, standsTrap := none, replay := [], born := now, nonce := 0 }

/-- The TREF index of a tile in a bin wave. -/
def trefIndex (tiles : List Nat) (t : Nat) : Nat := (tiles.takeWhile (fun x => !decide (x = t))).length
/-- The records of a bin wave reach its registers (R386). -/
def binStart (w : Wave) (b : BinTeam) : Wave :=
  let put := fun (m : Tbl W32) (n l : Nat) (x : W32) => Tbl.put m (128 * n + l) 0 x
  let v := (List.range w.width).foldl (fun m l =>
    match b.lanes.find? (fun x => decide (x.lane = l)) with
    | none => put (put (put m 2 l 3) 3 l 0xFFFFFFFF) 4 l 0xFFFFFFFF
    | some x =>
      let v2 := if x.kind = 2 then 2 + x.status * 256 else x.kind + 4 * trefIndex b.tiles x.tile
      put (put (put (put (put (put m 0 l x.word) 1 l x.cover) 2 l (BitVec.ofNat 32 v2)) 3 l (x.id.extractLsb' 0 32)) 4 l
        (x.id.extractLsb' 32 32)) 5 l x.depth) w.v
  let mask := maskOf (b.lanes.map (fun (x : BinLane) => x.lane))
  let pix := maskOf ((b.lanes.filter (fun (x : BinLane) => !decide (x.kind = 1))).map (fun (x : BinLane) => x.lane))
  let w := { w with v := v, hmask := fullMask w.beats &&& ~~~pix
                    hit := maskOf ((b.lanes.filter (fun (x : BinLane) => decide (x.kind = 2))).map (fun (x : BinLane) => x.lane))
                    tref := (List.range b.tiles.length).map (fun i => (i, b.tiles.getD i 0)) }
  w.setMask mask

/-- A sequencer stream as it starts (R39, R212). -/
def startStream (team pos : Nat) (pc : W64) : Stream :=
  { team := team, ecpls := [], pos := pos, mpc := pc, clause := none, widx := 0, m := Tbl.put [] 0 0 (BitVec.ofNat 32 pos), fb := [], tags := [],
    mfault := 0, mlevel := 0, mfpc := 0, mfaddr := 0, arrayQ := [], xferQ := [], quarters := [.gated, .gated, .gated, .gated], mfmt := [],
    block := .none, check := none, poisonPc := none, poisonStop := false, stopped := false,
    reported := false, halted := false, dbg := false, dbgReq := false, stopReq := false, nonce := 0 }

/-- The agents of a team: its waves and streams (R435). -/
def LaunchRec.agents (r : LaunchRec) : Nat :=
  (r.roles.map (fun x => if x.kind = 3 then (if r.paired then 2 else 1) else x.waves)).sum

/-- The resident allotments of a core, lowest first: team, base and length in bytes. -/
def insertAllot (x : Nat × Nat × Nat) : List (Nat × Nat × Nat) → List (Nat × Nat × Nat)
  | [] => [x]
  | y :: r => if x.2.1 < y.2.1 then x :: y :: r else y :: insertAllot x r
def State.allots (s : State) (core : Nat) : List (Nat × Nat × Nat) :=
  (s.teams.filter (fun r => decide (r.2.core = core) && decide (0 < r.2.spad))).foldl (fun l r =>
    insertAllot (r.1, r.2.p, 4096 * r.2.spad) l) []
/-- Where the allotments go when they move together: team, old base, length, new base. -/
def packAllots : Nat → List (Nat × Nat × Nat) → List (Nat × Nat × Nat × Nat)
  | _, [] => []
  | at_, (t, p, n) :: rest => (t, p, n, at_) :: packAllots (at_ + n) rest
/-- A byte of a moved allotment. -/
def movedByte (core : Nat) (ms : List (Nat × Nat × Nat × Nat)) (a : Nat) : Option Nat :=
  (ms.find? (fun m => decide (scratchKey core m.2.1 ≤ a) && decide (a < scratchKey core m.2.1 + m.2.2.1))).map (fun m =>
    a - scratchKey core m.2.1 + scratchKey core m.2.2.2)
/-- The allotments of a core move together (R44, R267): no program can see it, for none of these teams can read its base (R270). The
accesses in flight and the words in error move with them. -/
def State.compact (s : State) (core : Nat) : State :=
  let ms := packAllots 0 (s.allots core)
  let scratch := ms.foldl (fun (m : Mem) x =>
    Mem.overlay m (Mem.slice s.mem.scratch (scratchKey core x.2.1) x.2.2.1 (scratchKey core x.2.2.2)))
    (Mem.clear s.mem.scratch (scratchKey core 0) (2 ^ 19))
  let mine := fun (b : BadWord) => decide (b.store = .scratch) && decide (8 * b.word / 2 ^ 19 = core)
  let bad := (s.mem.bad.filter (fun b => !mine b)) ++
    (s.mem.bad.filter mine).filterMap (fun b => (movedByte core ms (8 * b.word)).map (fun a => ⟨.scratch, a / 8⟩))
  let move := fun (a : Access) => if a.lvl = .spad then { a with pa := (movedByte core ms a.pa).getD a.pa } else a
  { s with
    mem := { s.mem with scratch := scratch, bad := bad }
    teams := List.map (fun r => (r.1, match ms.find? (fun m => decide (m.1 = r.1)) with
      | some m => { r.2 with p := m.2.2.2 }
      | none => r.2)) s.teams
    waves := List.map (fun r => (r.1, { r.2 with reqs := r.2.reqs.map (fun q => { q with accs := q.accs.map move }) })) s.waves }
/-- Room for an allotment of `n` units at `base`, or, where another lies there, above all of them moved together. -/
def State.allotAt (s : State) (core base n : Nat) : State × Nat :=
  let taken := (s.use core).spads
  if n = 0 || taken.all (fun x => decide (base + n ≤ x.1) || decide (x.1 + x.2 ≤ base)) then (s, 4096 * base)
  else (s.compact core, 4096 * (s.use core).spadUsed)

/-- Start one team at a spot (R39). -/
def State.startTeam (s : State) (lid : Nat) (l : Launch) (id index group members pos : Nat) (spot : Spot) (bin : Option BinTeam) :
    State :=
  let r := l.record
  let n := r.agents
  let room := s.allotAt spot.core spot.base r.spad
  let s := room.1
  let t : Team :=
    { launch := lid, launchId := r.launchId, index := index, paired := r.paired, core := spot.core, excl := r.excl, group := group,
      groupTeams := members, groupPos := pos, coop := r.coop, poisonTrap := r.bit 11, shrate := r.shrate, spad := r.spad,
      p := room.2, mseq := r.hasSeq, idem := r.idem && bin.isNone, idemLost := bin.isSome, bin := bin.isSome,
      waves := (waveIds r.roles r.paired).length, ended := [], ch := [], sq := [],
      tb := (List.range 16).map (fun i => (i, Barrier.fresh n)), phase := Phase.none }
  let s := s.setTeam id t
  let s := s.storeClear .scratch (scratchKey spot.core t.p) (r.spad * 4096)
  let s := (waveIds r.roles r.paired).foldl (fun s w =>
    let core := spot.core + w.pos
    let x := startWave l id t w bin s.ck
    let x := match bin with | some b => binStart x b | none => x
    s.setWave core (s.freeSlot core x.slots) x) s
  let s := (r.roles.filter (fun x => decide (x.kind = 3))).foldl (fun s x =>
    (List.range t.cores.length).foldl (fun s p =>
      let c := spot.core + p
      let s := s.setStream c (startStream id p (r.codeBase + x.entry))
      let s := s.setCore c { s.core c with chains := [] }
      s.storeClear .acc (c * 2 ^ 18) (2 ^ 18)) s) s
  if l.bound.isEmpty && !l.child then s else t.cores.foldl (fun s c => s.columnAcquire r.paired 3 c) s

/-! ### Restoring a team (R64, R460) -/

/-- An agent's new place: waves by position and slot move with their team. -/
def reAgent (old : List (Agent × Agent)) (a : Agent) : Agent :=
  match old.find? (fun x => decide (x.1 = a)) with
  | some x => x.2
  | none => a

/-- Restore a saved team at a spot: its stores, streams, channels and waves, then the acquire of R340 for each (R460). Every core of a
cluster held exclusively gets its whole scratchpad back (R269). A TST that the vacate cancelled goes out again at once in a wave that
has ended or is stopped: no clause of it will replay it. -/
def State.restoreTeam (s : State) (id : Nat) (x : Saved) (spot : Spot) : State :=
  let room := if x.team.excl then (s, 4096 * spot.base) else s.allotAt spot.core spot.base x.team.spad
  let s := room.1
  let t := { x.team with core := spot.core, p := room.2 }
  let core := fun (pos : Nat) => spot.core + pos
  let s := x.phys.foldl (fun s y => s.storeFill .scratch (scratchKey (4 * clusterOf spot.core + y.1) 0) (2 ^ 19) y.2) s
  let s := s.storeFill .scratch (scratchKey t.core t.p) (t.spad * 4096) x.scratch
  let s := x.acc.foldl (fun s a => s.storeFill .acc (core a.1 * 2 ^ 18) (2 ^ 18) a.2) s
  let s := x.chains.foldl (fun s c => s.setCore (core c.1) { s.core (core c.1) with chains := c.2 }) s
  let s := x.streams.foldl (fun s m =>
    s.setStream (core m.1) { m.2 with quarters := [.gated, .gated, .gated, .gated], stopReq := false, dbg := m.2.dbgReq, dbgReq := false })
    s
  let bare : Tbl Chan := List.map (fun (r : Nat × Chan) =>
    let c := r.2
    (r.1, if c.defd && decide (0 < c.back) then { c with defd := false } else c)) t.ch
  let s := s.setTeam id { t with ch := bare }
  let s := t.ch.foldl (fun s r =>
    if r.2.defd && decide (0 < r.2.back) then
      let c := t.backCore r.2
      let rows := r.2.cap * rowsOf r.2.esize
      let row0 := freeRow (s.rowsHeld c) rows
      let ch : Chan := { r.2 with row0 := row0 }
      let s := (s.updTeam id (fun t => { t with ch := Tbl.set t.ch r.1 ch })).evictForRows c
      let data := match x.rows.find? (fun y => decide (y.1 = r.1)) with | some y => y.2 | none => []
      s.storeFill .rows (rowKey c (row0 * 2048)) (rows * 2048) data
    else s) s
  let r := x.waves.foldl (fun (r : State × List (Agent × Agent)) w =>
    let c := core (w.1 / 32)
    let k := r.1.freeSlot c w.2.slots
    let w2 := if w.2.halted || w.2.stopped then w.2.replayed else w.2
    (r.1.setWave c k { w2 with born := s.ck, dbg := w2.dbgReq && !w2.stopped, dbgReq := w2.dbgReq && w2.stopped }, r.2 ++ [(Agent.wave (x.cores.getD (w.1 / 32) 0) (w.1 % 32), Agent.wave c k)])) (s, [])
  let re := reAgent r.2
  let s := { r.1 with cmds := List.map (fun (c : Nat × Cmd) => (c.1, if c.2.team = id then { c.2 with agent := re c.2.agent } else c.2)) r.1.cmds }
  let s := x.cmds.foldl (fun s c => { s with cmds := Tbl.set s.cmds c.1 { c.2 with agent := re c.2.agent } }) s
  let s := x.streams.foldl (fun s m => s.updStream (core m.1) (fun y => { y with
    ecpls := y.ecpls.map (fun e => (re e.1, e.2))
    xferQ := y.xferQ.map (fun q => { q with ecpls := q.ecpls.map (fun e => (re e.1, e.2)) }) })) s
  let s := (t.cores).foldl (fun s c => (s.columnAcquire t.paired 3 c).mirrorCore c) s
  let s := (List.range x.watched).foldl (fun s _ => s.phaseArrive id 0 .ts) s
  { s with saved := Tbl.del s.saved id }

/-- What a saved team needs at a position. -/
def Saved.need (x : Saved) (pos : Nat) : Need :=
  let n := wavesNeed ((x.waves.filter (fun w => decide (w.1 / 32 = pos))).map (fun w => w.2))
  let rows := (x.team.ch.filter (fun c => c.2.defd && decide (0 < c.2.back) && decide ((if c.2.back = 2 then 1 else 0) = pos))).map
    (fun c => c.2.cap * rowsOf c.2.esize)
  { n with spad := if pos = 0 then x.team.spad else 0, teams := if pos = 0 then 1 else 0, mseq := if x.team.mseq then 1 else 0,
           rows := rows.sum }
def Saved.needs (x : Saved) : List Need := if x.team.paired then [x.need 0, x.need 1] else [x.need 0]

/-! ### Placement (R47–R49, R54) -/

/-- No team of another context is on a core (R488). -/
def State.oneContext (s : State) (core : Nat) : Bool := s.teams.all (fun r => !decide (core ∈ r.2.cores) || s.ctxRuns r.1)
/-- What placement looks at now. A core of an accepted vacate takes no team (R62), nor does one whose column is not ACTIVE (R306), nor one
that holds a team of another context (R488). -/
def State.ground (s : State) : Ground :=
  { use := s.use
    opened := fun c => decide (c < s.coreCount) && !(s.core c).held && !(s.core c).vacating && decide ((s.core c).powered = .active)
      && s.oneContext c
    held := (s.teams.filter (fun r => r.2.excl)).map (fun r => clusterOf r.2.core)
    occ := fun c => (s.use c).slots
    cores := s.coreCount }

/-- The next team indices of a launch: those discarded, then those never placed (R47, R61). -/
def Launch.nextIndex (l : Launch) : Option Nat :=
  match l.again with
  | i :: rest => some (rest.foldl (fun b j => if j < b then j else b) i)
  | [] => if l.nextTeam < l.total then some l.nextTeam else none

/-- The team indices of group `g` a launch may start now. -/
def Launch.members (l : Launch) (g : Nat) : List Nat :=
  ((List.range l.record.perGroup).map (g * l.record.perGroup + ·)).filter (fun j =>
    decide (j < l.total) && (l.again.isEmpty || decide (j ∈ l.again)))
/-- The units a launch starts next, as their indices: those discarded first; a team, a group, or every team a cooperative grid has to
start (R42, R47, R54, R61). -/
def Launch.nextUnits (l : Launch) : List (List Nat) :=
  match l.nextIndex with
  | none => []
  | some i =>
    let per := l.record.perGroup
    if l.record.coop then ((List.range ((l.total + per - 1) / per)).map l.members).filter (fun u => !u.isEmpty)
    else [l.members (i / per)]

/-- The saved teams a launch restores next, together: one, its whole group, or its whole grid (R47, R54, R62). -/
def State.nextSaved (s : State) (l : Launch) : List (Nat × Saved) :=
  let all := l.saved.filterMap (fun id => (Tbl.get? s.saved id).map (fun x => (id, x)))
  match all with
  | [] => []
  | a :: rest =>
    let b := rest.foldl (fun b y => if y.2.team.index < b.2.team.index then y else b) a
    if b.2.team.coop then all
    else if b.2.team.excl then all.filter (fun y => decide (y.2.team.group = b.2.team.group))
    else [b]
/-- Saved teams as units: those of one exclusive group together. -/
def savedUnits : Nat → List (Nat × Saved) → List (List (Nat × Saved))
  | 0, _ => []
  | _, [] => []
  | n + 1, a :: rest =>
    if a.2.team.excl then
      (a :: rest.filter (fun y => decide (y.2.team.group = a.2.team.group)))
        :: savedUnits n (rest.filter (fun y => !decide (y.2.team.group = a.2.team.group)))
    else [a] :: savedUnits n rest

/-- What a unit of saved teams asks for: a group held exclusively keeps its positions and bases (R269). A saved bin team may be restored on
any core of any die: R385 binds its placement, and its tiles stay pinned where they are (R64, R264, R503). -/
def savedDemand (u : List (Nat × Saved)) : Demand :=
  let excl := (u.map (fun x => x.2.team.excl)).headD false
  ⟨u.map (fun x => x.2.needs), excl, none,
    if excl then u.map (fun x => ⟨x.2.team.core % 4, x.2.team.p / 4096⟩) else []⟩
/-- Restore saved teams of a launch at their spots. -/
def State.restoreUnits (s : State) (lid : Nat) (us : List (List (Nat × Saved))) (spots : List (List Spot)) : State :=
  let pairs := (us.flatMap id).zip (spots.flatMap id)
  let s := pairs.foldl (fun s p => s.restoreTeam p.1.1 p.1.2 p.2) s
  let ids := pairs.map (fun p => p.1.1)
  s.updLaunch lid (fun l => { l with
    saved := l.saved.filter (fun x => !decide (x ∈ ids)), resident := l.resident ++ ids
    lastCore := (pairs.map (fun p => p.2.core)).getLastD l.lastCore })

/-- Start a unit's teams: `ids` gives each its index. -/
def State.startUnit (s : State) (lid : Nat) (l : Launch) (idxs : List Nat) (spots : List Spot) (bin : Option BinTeam) : State :=
  let first := s.nextId
  let group := first
  let per := l.record.agents
  let s := { s with nextId := first + 1 + idxs.length }
  let s := if l.record.excl then
      { s with groups := Tbl.set s.groups group ⟨lid, (List.range idxs.length).map (first + 1 + ·), false,
          (List.range 8).map (fun i => (i, Barrier.fresh (per * idxs.length)))⟩ }
    else s
  let s := (List.range idxs.length).foldl (fun s i =>
    s.startTeam lid l (first + 1 + i) (idxs.getD i 0) group idxs.length i (spots.getD i ⟨0, 0⟩) bin) s
  s.updLaunch lid (fun l => { l with
    resident := l.resident ++ (List.range idxs.length).map (first + 1 + ·)
    again := l.again.filter (fun i => !decide (i ∈ idxs))
    nextTeam := idxs.foldl (fun n i => max n (i + 1)) l.nextTeam
    lastCore := (spots.map (fun p => p.core)).getLastD l.lastCore
    placedAny := true
    gb := if l.record.coop && !l.placedAny then (List.range 4).map (fun i => (i, Barrier.fresh (per * l.record.total))) else l.gb })

/-- The first team of a record is placed: STATUS 1 (R38). -/
def State.firstPlaced (s : State) (l : Launch) : State := if l.placedAny then s else s.statusWrite l.recAddr 1

/-- Place saved and fresh units of a launch in one decision, where all of them fit. -/
def State.placeUnits (s : State) (lid : Nat) (l : Launch) (us : List (List (Nat × Saved))) (fs : List (List Nat)) : Option State :=
  let fresh := fs.map (fun f => (⟨f.map (fun _ => l.record.needs), l.record.excl, none, []⟩ : Demand))
  if us.isEmpty && fs.isEmpty then none
  else
    (Ground.placeAll (s.choose 960000 65536) (us.map savedDemand ++ fresh) s.ground).map (fun spots =>
      let s := if us.isEmpty then s else s.restoreUnits lid us (spots.take us.length)
      (List.range fs.length).foldl (fun s k =>
        s.startUnit lid ((s.launch? lid).getD l) (fs.getD k []) ((spots.drop us.length).getD k []) none)
        (if fs.isEmpty then s else s.firstPlaced l))

/-- Restore the next saved teams of a launch where they fit; a cooperative grid is placed again whole, its discarded teams with its saved
ones (R54, R61). -/
def State.placeSaved (s : State) (lid : Nat) (l : Launch) : Option State :=
  s.placeUnits lid l (savedUnits (s.nextSaved l).length (s.nextSaved l)) (if l.record.coop then l.nextUnits else [])

/-- Start the next pending unit of a launch where it fits: a bin team on its die, a whole cooperative grid, a group, or a team. -/
def State.placePending (s : State) (lid : Nat) (l : Launch) : Option State :=
  let pick := s.choose 960001 65536
  let r := l.record
  match l.binTeams with
  | b :: rest =>
    (s.ground.place pick ⟨[r.needs], false, some b.die, []⟩).map (fun p =>
      ((s.firstPlaced l).startUnit lid l [b.index] p.1 (some b)).updLaunch lid (fun x => { x with binTeams := rest }))
  | [] =>
    match l.nextIndex with
    | none => none
    | some i =>
      if r.coop then s.placeUnits lid l [] l.nextUnits
      else
        let mine := l.members (i / r.perGroup)
        (s.ground.place pick ⟨mine.map (fun _ => r.needs), r.excl, none, []⟩).map (fun p =>
          (s.firstPlaced l).startUnit lid l mine p.1 none)

/-- Whether one launch is considered before another (R47): by effective priority, then queue number, then the order read. -/
def beforeLaunch (a b : Nat × Launch) : Bool :=
  let q := fun (l : Launch) => match l.queue with | some n => n | none => 64
  if a.2.eprio ≠ b.2.eprio then decide (b.2.eprio < a.2.eprio)
  else if q a.2 ≠ q b.2 then decide (q a.2 < q b.2)
  else decide (a.1 < b.1)
def insertLaunch (a : Nat × Launch) : List (Nat × Launch) → List (Nat × Launch)
  | [] => [a]
  | b :: r => if beforeLaunch a b then a :: b :: r else b :: insertLaunch a r

/-- The first launch in order whose next unit fits places it. -/
def State.placeFirst (s : State) : List (Nat × Launch) → State
  | [] => s
  | (lid, l) :: rest =>
    match (if (s.nextSaved l).isEmpty then s.placePending lid l else s.placeSaved lid l) with
    | some s' => s'
    | none => s.placeFirst rest

/-- PLACEMENT_DECISION (R47, R48, R54): one unit of the running context is placed, unless Fredusin has stopped the start. -/
def execPlacementDecision (s : State) : Out :=
  let s := s.reap
  if !s.up then .next s
  else
    let ls := (s.launches.filter (fun r => !decide (r.2.state = .waiting) && decide (r.2.ctx = s.win.ctxid))).foldl
      (fun l r => insertLaunch r l) ([] : List (Nat × Launch))
    .next (s.placeFirst ls)

/-! ### Completion (R58) -/

/-- A launch with nothing pending, saved or resident; a standing one must also have been ended (R385). -/
def Launch.finished (l : Launch) : Bool :=
  l.nextIndex.isNone && l.saved.isEmpty && l.resident.isEmpty && l.binTeams.isEmpty &&
    (match l.state with
    | .waiting => false
    | .active => true
    | .standing => l.ending)

/-- LAUNCH_COMPLETION (R58): the release at system scope, STATUS, and the entry freed; HEAD moves past ended records. -/
def execLaunchCompletion (l : Nat) (s : State) : Out :=
  let s := s.reap
  match s.launch? l with
  | none => .next s
  | some x =>
    if !x.finished then .next s
    else
      let s := (List.range s.coreCount).foldl (fun s c => s.columnRelease false 4 c) s
      let s := s.statusWrite x.recAddr (match x.fault with | some c => 2 ^ 30 + c | none => 2)
      let s := State.updPrio { s with launches := Tbl.del s.launches l }
      .next (match x.queue with | some q => s.headOf q | none => s)

end Sys2Proof.Machine
end

