-- ==== Sys2Proof/Machine/Vacate.lean ====
section
/-! DEFINITION. Vacating cores (R62–R66, R452–R459): the set, the save or discard of a team, and the report. -/

namespace Sys2Proof.Machine

/-! ### The set (R62) -/

/-- The cores a team keeps from being vacated without it: its own, or the cluster it holds, its empty cores too (R62). -/
def Team.span (t : Team) : List Nat := if t.excl then (List.range 4).map (4 * clusterOf t.core + ·) else t.cores
/-- The cores of the unit that vacates with a team: its core or pair, its cluster, its cooperative grid. -/
def State.unitCores (s : State) (t : Team) : List Nat :=
  let ts := if t.coop then (s.teams.filter (fun r => decide (r.2.launch = t.launch))).map (fun r => r.2) else [t]
  ts.flatMap Team.span
/-- A set of cores widened to the units that stand on it, `n` times over. -/
def State.widen (s : State) : Nat → List Nat → List Nat
  | 0, cs => cs
  | n + 1, cs =>
    let more := (s.teams.filter (fun r => r.2.span.any (fun c => decide (c ∈ cs)))).flatMap (fun r => s.unitCores r.2)
    s.widen n (cs ++ (more.filter (fun c => !decide (c ∈ cs))).eraseDups)
/-- The unit of one core. -/
def State.component (s : State) (core : Nat) : List Nat := s.widen (s.teams.length + 1) [core]
/-- The cores whose core-state areas a saved team fills: those it left, or the cluster it held, of which every scratchpad is saved (R65,
R265). -/
def Saved.areas (x : Saved) : List Nat :=
  if x.team.excl then (List.range 4).map (4 * clusterOf (x.cores.headD 0) + ·) else x.cores
/-- A core whose core-state area holds a saved team of the running context. -/
def State.areaTaken (s : State) (core : Nat) : Bool :=
  s.saved.any (fun r => decide (core ∈ r.2.areas) &&
    (match s.launch? r.2.team.launch with | some l => decide (l.ctx = s.win.ctxid) | none => false))
/-- The rank of a core for a count: 0 with no resident launch, else one more than the highest effective priority. -/
def State.coreRank (s : State) (core : Nat) : Nat :=
  (s.teams.filter (fun r => decide (core ∈ r.2.cores))).foldl (fun n r =>
    max n (match s.launch? r.2.launch with | some l => l.eprio + 1 | none => 1)) 0
/-- The first `n` cores of a count: rank rising, then core number falling. -/
def State.coresByRank (s : State) (n : Nat) : List Nat :=
  let cs := (List.range s.coreCount).reverse
  ((List.range 5).flatMap (fun r => cs.filter (fun c => decide (s.coreRank c = r)))).take n
/-- The final set: the units of the cores asked for, but for those that would take a core whose area is in use. -/
def State.vacateSet (s : State) (asked : List Nat) : List Nat :=
  let ok := (asked.filter (fun c => decide (c < s.coreCount))).filterMap (fun c =>
    let u := s.component c
    if u.any s.areaTaken then none else some u)
  (List.range s.coreCount).filter (fun c => ok.any (fun u => decide (c ∈ u)))

/-- A request is accepted: its cores become held for placement (R63). `why` is 0 for the command, 1 for a time slice, 2 for a
checkpoint. -/
def State.beginVacate (s : State) (asked : List Nat) (why : Nat) : State :=
  let cs := s.vacateSet asked
  { cs.foldl (fun s c => s.setCore c { s.core c with vacating := true }) s with vac := some ⟨cs, why⟩ }
/-- The request of the window's block, by count or mask (R524). -/
def State.vacateCommand (s : State) : State :=
  let asked := if s.win.vacCount = 0 then (List.range 192).filter s.win.vacMask.getLsbD else s.coresByRank s.win.vacCount.toNat
  s.beginVacate asked 0

/-! ### When a team may be saved (R63, R455) -/

/-- A wave that stands still and has nothing left to complete: of its requests only engine commands, LAUNCH and RSUB words are left
(R147, R463). -/
def State.waveSaveReady (s : State) (w : Wave) : Bool :=
  w.reqs.all (fun q => match q.ret with | .cmd _ _ _ => true | _ => false)
    && w.treq.isNone
    && (w.halted || ((w.stopped || w.clause.isNone) && !w.dbg && !w.trapPending && (!w.dbgReq || w.stopped)
      && (w.poison.isNone || w.eretWord.isSome)))
/-- A stream that stands still, with no begun word (R237). -/
def Stream.saveReady (m : Stream) : Bool :=
  (m.halted || m.stopped || m.stopReq) && !m.dbg && (m.arrayQ ++ m.xferQ).all (fun q => !q.begun) && m.mfmt.isEmpty && m.poisonPc.isNone
/-- A command that has not fired, has ended, or is held under R455; a LAUNCH is held once its record is copied after its release, or
while a TST that is to replay stands before it. -/
def State.cmdSaveReady (s : State) (id : Nat) (c : Cmd) : Bool :=
  match c.kind, c.stage with
  | .launch _ _ _, .issued => !c.recBytes.isEmpty || (s.cmdMaySend id c).isSome
      || (match c.agent with
        | .wave core slot => (match s.wave? core slot with | some w => !w.replay.isEmpty | none => true)
        | .stream _ => true)
  | .launch _ _ _, _ => true
  | .rsub _ _ _, .acting => false
  | .rsub _ _ _, _ => true
  | _, .issued => true
  | _, .done => true
  | _, _ => false
def State.teamReady (s : State) (id : Nat) (t : Team) : Bool :=
  (s.teamWaves id).all (fun x => s.waveSaveReady x.2.2)
    && t.cores.all (fun c => match s.stream? c with | some m => !decide (m.team = id) || m.saveReady | none => true)
    && s.cmds.all (fun r => !decide (r.2.team = id) || s.cmdSaveReady r.1 r.2)
    && s.treqs.all (fun r => !decide (r.2.team = id))

/-! ### Saving and discarding (R61, R64, R65, R340, R414, R454–R459) -/

/-- The teams that are saved or discarded together: one, its group, or its grid. -/
def State.unitTeams (s : State) (id : Nat) (t : Team) : List (Nat × Team) :=
  if t.coop then s.teams.filter (fun r => decide (r.2.launch = t.launch))
  else if t.excl then s.teams.filter (fun r => decide (r.2.launch = t.launch) && decide (r.2.group = t.group))
  else [(id, t)]

/-- The rows of a team's waves and streams, and its unfired commands, leave the tables. -/
def State.dropTeamRows (s : State) (id : Nat) : State :=
  let s := s.dropStreams id
  { s with waves := List.filter (fun r => !decide (r.2.team = id)) s.waves
           cmds := List.filter (fun r => !decide (r.2.team = id) || (match r.2.kind, r.2.stage with
             | .rsub _ _ _, .fired => true
             | _, _ => false)) s.cmds
           teams := Tbl.del s.teams id }

/-- TEAM_DISCARD (R61, R456): nothing of the team is left, and its index is pending again. The agents of it that had left the barriers
of its grid are members again for the fresh start (log entry 92). -/
def State.discardTeam (s : State) (id : Nat) (t : Team) : State :=
  let left := t.ended.length + (s.streams.filter (fun r => decide (r.2.team = id) && r.2.quiet)).length
  (((s.dropWatch id).dropTeamRows id).leaveGroup t.group id).updLaunch t.launch (fun l => { l with
    resident := l.resident.filter (fun x => !decide (x = id)), again := t.index :: l.again
    gb := List.map (fun b => (b.1, { b.2 with members := b.2.members + left })) l.gb })

/-- A LAUNCH that has not copied its record does so after its release (R377, R455). -/
def State.copyRecord (s : State) (id : Nat) (c : Cmd) : State :=
  match c.kind, c.stage with
  | .launch _ va _, .issued =>
    if c.recBytes.isEmpty then
      match s.cmdMaySend id c with
      | some s =>
        let y := s.engRead c.agent.core c.rpages va 256
        { y.s with cmds := Tbl.set y.s.cmds id { c with recBytes := y.bytes } }
      | none => s
    else s
  | _, _ => s

/-- CHAIN_BROKEN (R414): a destination entry loses what it holds. -/
def Chain.vacated (x : Chain) : Chain :=
  if x.state = .dest ∨ x.state = .reserved then { x with state := .broken, entries := 0, held := [], arrived := [], poisoned := false } else x

/-- The team as it is saved: its phase is BROKEN when destination chains broke with additions due (R478). -/
def State.phaseAtSave (s : State) (t : Team) : Team :=
  let hit := t.mseq && t.phase.opened && (List.range t.cores.length).any (fun pos =>
    !decide (Tbl.getD t.phase.cgt pos 0 = 0) && (s.core (t.core + pos)).chains.any (fun r => decide (r.2.vacated ≠ r.2)))
  if hit then { t with phase := { t.phase with broken := true } } else t

/-- Errors in what a save reads are counted; the saved words are the zeros they deliver (log entry 79). -/
def State.saveErrors (s : State) (id : Nat) (t : Team) : State :=
  let regs := ((s.waves.filter (fun r => decide (r.2.team = id))).map (fun r => r.2.badW.length)).sum
  let mine := fun (b : BadWord) => match b.store with
    | .scratch => decide (scratchKey t.core t.p ≤ 8 * b.word) && decide (8 * b.word < scratchKey t.core t.p + t.spad * 4096)
    | .acc => t.mseq && decide (8 * b.word / 2 ^ 18 ∈ t.cores)
    | .rows => t.ch.any (fun c => c.2.defd && decide (0 < c.2.back)
        && decide (rowKey (t.backCore c.2) (c.2.row0 * 2048) ≤ 8 * b.word)
        && decide (8 * b.word < rowKey (t.backCore c.2) (c.2.row0 * 2048) + c.2.cap * rowsOf c.2.esize * 2048))
    | .chip => false
  let n := regs + (s.mem.bad.filter mine).length
  if n = 0 then s else s.count 5 (dieOfCore t.core) 2 n

/-- The commands of a team that have completed behind one that has not return before the save: EN then counts those saved without
completing, and nothing else (R147, R463). -/
def State.settleCmds (s : State) (id : Nat) : State :=
  (s.teamWaves id).foldl (fun s x => x.2.2.reqs.foldl (fun s q =>
    match q.ret with
    | .cmd n _ _ =>
      if ((Tbl.get? s.cmds n).map (fun y => decide (y.stage = .done))).getD true then
        (s.writeRet x.1 x.2.1 q).updWave x.1 x.2.1 (fun w => { w with reqs := w.reqs.filter (fun r => !decide (r.id = q.id)) })
      else s
    | _ => s) s) s

/-- Save a team (R63, R65, R340): after its release, everything it owns goes to its slots and its core-state area. -/
def State.saveTeam (s : State) (id : Nat) : State :=
  match s.team? id with
  | none => s
  | some t =>
    let s := (s.cmds.filter (fun r => decide (r.2.team = id))).foldl (fun s r => s.copyRecord r.1 r.2) s
    let s := s.settleCmds id
    let s := t.cores.foldl (fun s c => s.columnRelease t.paired 3 c) s
    let s := s.saveErrors id t
    let poss := List.range t.cores.length
    let cores := fun (pos : Nat) => t.core + pos
    let x : Saved :=
      { team := s.phaseAtSave t
        cores := t.cores
        waves := (s.waves.filter (fun r => decide (r.2.team = id))).map (fun r => (r.1 - t.core * 32, { r.2 with badW := [] }))
        streams := (s.streams.filter (fun r => decide (r.2.team = id))).map (fun r =>
          (r.1 - t.core, { r.2 with arrayQ := r.2.arrayQ.map (fun q => { q with rowBad := [] }) }))
        scratch := Mem.slice s.mem.scratch (scratchKey t.core t.p) (t.spad * 4096) 0
        phys := if t.excl then (List.range 4).map (fun i =>
            (i, Mem.slice s.mem.scratch (scratchKey (4 * clusterOf t.core + i) 0) (2 ^ 19) 0)) else []
        acc := if t.mseq then poss.map (fun pos => (pos, Mem.slice s.mem.acc (cores pos * 2 ^ 18) (2 ^ 18) 0)) else []
        chains := if t.mseq then poss.map (fun pos => (pos, List.map (fun (r : Nat × Chain) => (r.1, r.2.vacated)) (s.core (cores pos)).chains))
                  else []
        rows := (t.ch.filter (fun r => r.2.defd && decide (0 < r.2.back))).map (fun r =>
          (r.1, Mem.slice s.mem.rows (rowKey (t.backCore r.2) (r.2.row0 * 2048)) (r.2.cap * rowsOf r.2.esize * 2048) 0))
        cmds := s.cmds.filter (fun r => decide (r.2.team = id) && !(match r.2.kind, r.2.stage with
          | .rsub _ _ _, .fired => true
          | _, _ => false))
        watched := 0 }
    let s := t.cores.foldl (fun s c => s.setCore c { s.core c with rowBuf := [] }) s
    State.updLaunch { s.dropTeamRows id with saved := Tbl.set s.saved id x } t.launch (fun l => { l with
      resident := l.resident.filter (fun y => !decide (y = id)), saved := l.saved ++ [id] })

/-- Whether a team of a unit may be discarded: itself, or every team of its group, those that have ended among them (R61). -/
def State.mayDiscard (s : State) (unit : List (Nat × Team)) (t : Team) : Bool :=
  if t.excl then
    (unit.filter (fun r => decide (r.2.group = t.group))).all (fun r => r.2.idem && !r.2.idemLost)
      && (match Tbl.get? s.groups t.group with | some g => !g.lost | none => true)
  else t.idem && !t.idemLost

/-- TEAM_SAVE (R63): a team of cores being vacated, with its whole unit, leaves: each team, or group, is discarded where it may be, and
saved where not. Waves that have ended with nothing in flight have given up their slots before (R207). -/
def execTeamSave (t : Nat) (s : State) : Out :=
  let s := s.reap
  match s.team? t with
  | none => .next s
  | some x =>
    let unit := s.unitTeams t x
    if !x.cores.any s.vacating || !unit.all (fun r => s.teamReady r.1 r.2) then .next s
    else
      let plan := unit.map (fun r => (r, s.mayDiscard unit r.2))
      .next (plan.foldl (fun s r => if r.2 then s.discardTeam r.1.1 r.1.2 else s.saveTeam r.1.1) s)

/-! ### The report (R66, R491, R524) and time slices (R452) -/

/-- Whether nothing is left on a core. -/
def State.coreEmpty (s : State) (core : Nat) : Bool :=
  s.waves.all (fun r => !decide (r.1 / 32 = core)) && (s.stream? core).isNone && s.teams.all (fun r => !decide (core ∈ r.2.cores))

/-- VACATE_COMPLETE (R66): every core of the set is empty and saved: the set is reported; a checkpoint goes on to its copy (R498);
a command that came meanwhile begins. -/
def execVacateComplete (s : State) : Out :=
  match s.vac with
  | none => .next s
  | some v =>
    let s := s.reap
    if !v.cores.all s.coreEmpty then .next s
    else
      let s := { s with vac := none }
      if v.why = 2 then
        let f := s.fred
        let s := { s with fred := { f with ckpt := f.ckpt.map (fun (c : Nat × Nat) => (c.1, 1)) } }
        .next (if s.win.vacRun then s.vacateCommand else s)
      else
        let set := v.cores.foldl (fun m c => m ||| BitVec.ofNat 192 (2 ^ c)) (0 : BitVec 192)
        let more := decide (v.why = 1) && s.win.vacRun
        let s := State.vector { s with win := { s.win with
          vacSet := set, vacRun := more, vacStatus := if more then s.win.vacStatus else 2 } } 1
        let s := if more then s.vacateCommand else s
        .next (match s.vac, s.fred.ckpt with
          | none, some (_, 0) => s.beginVacate (List.range s.coreCount) 2
          | _, _ => s)

/-- The expiry of the running context's slice, once its time has come and no other vacate is in progress. -/
def State.expire (s : State) : State :=
  match s.ctxStart with
  | none => s
  | some t =>
    if s.win.tslice = 0 || s.expired || decide (s.time < t + s.win.tslice * 17000) || s.vac.isSome then s
    else { s with expired := true }.beginVacate (List.range s.coreCount) 1
/-- TIME_SLICE_EXPIRY (R452): the running context has had its slice: every core of it is vacated. -/
def execTimeSliceExpiry (s : State) : Out := .next s.expire

end Sys2Proof.Machine
end

