-- ==== Sys2Proof/Machine/Sensors.lean ====
section
/-! DEFINITION. Sensors, supplies and power states: droop (R23, R485), eligibility for placement (R49), POWERHOLD and the
removal of power (R499), supplies (R22), the power states of columns and banks (R306, R307), and the counters' mirrors (R481). -/

namespace Sys2Proof.Machine

/-! ### Eligible and held (R49) -/

/-- CORE_HELD (R49): a core becomes held, or eligible again. `whole` says that the present window starts now. -/
def Core.judge (c : Core) (thot dmax : Nat) (whole : Bool) : Core :=
  if c.held then
    if c.temp < 8 * (thot : Int) - 40 ∧ c.cleanWindow ∧ !c.powerhold then { c with held := false } else c
  else if 8 * (thot : Int) ≤ c.temp ∨ dmax < c.droopCur ∨ c.powerhold then
    { c with held := true, cleanWindow := false, wholeWindow := whole }
  else c
def State.judgeCore (s : State) (core : Nat) (whole : Bool) : State :=
  s.setCore core ((s.core core).judge s.win.thot s.win.dmax whole)

/-- Change Fredusin's own state. -/
def State.setFred (s : State) (f : Fred → Fred) : State := { s with fred := f s.fred }
/-- The machine with everything but Fredusin's own store and the host's memory at its reset values. -/
def State.wiped (s : State) : State :=
  let host := s.mem.dram.filter (fun c => hostWindow c.1)
  { State.reset with fresh := s.fresh, nextId := s.nextId, agenda := s.agenda, fred := s.fred
                     mem := { MemSys.reset with home := host, dram := host } }
/-- A die reached 110 °C: Fredusin removes power at once, and the failure is recorded at the next reset (R499). -/
def State.removePower (s : State) : State :=
  s.wiped.setFred (fun f => { f with overtemp := true, powerOff := true, running := false, bootDeadline := none })

/-- TEMP_SAMPLE (R485): a reading of a core, in units of 0.125 °C; at 110 °C power goes (R499). -/
def execTempSample (core : Nat) (reading : W16) (s : State) : Out :=
  if s.coreCount ≤ core ∨ s.fred.powerOff then .next s
  else if 880 ≤ reading.toInt then .next s.removePower
  else .next ((s.setCore core { s.core core with temp := reading.toInt }).judgeCore core false)

/-- DROOP_EVENT (R23, R485): the core counts it, and every compute die stretches its next periods, 32 of them at most; how many is
not stated. -/
def execDroopEvent (core : Nat) (s : State) : Out :=
  if s.coreCount ≤ core then .next s
  else
    let c := s.core core
    let s := (s.setCore core { c with droopCur := (c.droopCur + 1) % 65536 }).judgeCore core false
    .next { s with stretch := max s.stretch (1 + s.choose 970000 32) }

/-- A core's droop window closes (R485, R49). -/
def Core.closeWindow (c : Core) (dmax : Nat) : Core :=
  { c with droopPrev := c.droopCur, droopCur := 0, wholeWindow := true
           cleanWindow := c.cleanWindow || (c.held && c.wholeWindow && decide (c.droopCur ≤ dmax)) }

/-- The eligible core of the highest issue occupancy, ties to the highest number (R499). -/
def State.busiest (s : State) : Option Nat :=
  ((List.range s.coreCount).filter (fun c => !(s.core c).held && !(s.core c).powerhold)).foldl (fun (b : Option Nat) c =>
    match b with
    | none => some c
    | some d => if (s.use d).slots ≤ (s.use c).slots then some c else some d) none
/-- POWERHOLD (R499): from the mean power of the window, in milliwatts. -/
def State.powerHold (s : State) (mean : Nat) : State :=
  if 1560000 < mean then
    match s.busiest with
    | some c => s.setCore c { s.core c with powerhold := true }
    | none => s
  else if mean < 1480000 then
    match (List.range s.coreCount).find? (fun c => (s.core c).powerhold) with
    | some c => s.setCore c { s.core c with powerhold := false }
    | none => s
  else s

/-- DROOP_WINDOW_CLOSE (R485, R499): at each whole millisecond of platform time every core's window closes, Fredusin sets or
clears one POWERHOLD, and eligibility is judged again. -/
def execDroopWindowClose (meanPower : Nat) (s : State) : Out :=
  if s.time < (s.window + 1) * 17000000 then .next s
  else
    let s := s.cores.foldl (fun s r => s.setCore r.1 (r.2.closeWindow s.win.dmax)) { s with window := s.window + 1 }
    let s := s.powerHold meanPower
    .next ((List.range s.coreCount).foldl (fun s c => s.judgeCore c true) s)

/-! ### Supplies (R22) -/

/-- SUPPLY_SET (R22): Fredusin moves a compute die's supply within 420–520 mV, and the VDD sensor with it. -/
def execSupplySet (die mv : Nat) (s : State) : Out :=
  if s.coreCount / 48 ≤ die ∨ mv < 420 ∨ 520 < mv then .next s else .next (s.setDie die { s.die die with vdd := mv })

/-! ### Power states (R306) and debug reads (R307) -/

def powerCode : PowerState → Nat
  | .active => 0 | .clockGated => 1 | .retention => 2 | .off => 3
def powerOfCode : Nat → PowerState
  | 0 => .active | 1 => .clockGated | 2 => .retention | _ => .off
/-- The power state of a store. -/
def State.power (s : State) : PowerStore → PowerState
  | .column c => (s.core c).powered
  | .bank d b => powerOfCode (Tbl.getD (s.die d).bankPower b 0)
def State.setPower (s : State) (st : PowerStore) (p : PowerState) : State :=
  match st with
  | .column c => s.setCore c { s.core c with powered := p }
  | .bank d b => s.setDie d { s.die d with bankPower := Tbl.put (s.die d).bankPower b 0 (powerCode p) }
/-- A store a debug session holds ACTIVE. -/
def State.dbgHolds (s : State) : PowerStore → Bool
  | .column c => (s.core c).dbgRead
  | .bank d b => decide (b ∈ (s.die d).bankDbg)
def State.setDbgHold (s : State) (st : PowerStore) (x : Bool) : State :=
  match st with
  | .column c => s.setCore c { s.core c with dbgRead := x }
  | .bank d b => s.setDie d { s.die d with bankDbg := if x then b :: (s.die d).bankDbg else (s.die d).bankDbg.filter (fun y => !decide (y = b)) }
/-- A store of the device. -/
def State.hasStore (s : State) : PowerStore → Bool
  | .column c => decide (c < s.coreCount)
  | .bank d b => decide (d < s.coreCount / 48) && decide (b < 16)
/-- A core without a resident team, or halted by a debugger: some agent of it is in debug halt, and so is every other that has not
ended with nothing in flight (R306). -/
def State.mayGate (s : State) (core : Nat) : Bool :=
  let ws := (s.waves.filter (fun r => decide (r.1 / 32 = core))).map (fun r => r.2)
  let ms := match s.stream? core with | some m => [m] | none => []
  s.teams.all (fun r => !decide (core ∈ r.2.cores)) ||
    ((ws.any (fun w => w.dbg) || ms.any (fun m => m.dbg)) && ws.all (fun w => w.dbg || w.gone)
      && ms.all (fun m => m.dbg || m.quiet))
/-- What OFF does to a store: a column's dirty bytes go home first, its lines and the rows its channels hold go; a bank's bytes are
lost, and the bin entries kept in them (R273). -/
def State.lose (s : State) : PowerStore → State
  | .column c => ((s.colLines c).foldl (fun s l => s.colEvict c l) s).storeClear .rows (c * 2 ^ 26) (2 ^ 26)
  | .bank d b =>
    let x := s.die d
    let in_ := fun (a : Nat) => decide (a / 2 ^ 26 = d) && decide (bankOf (a % 2 ^ 26) = b)
    let gone := (x.bins.flatMap (fun r => r.2)).filter (fun e => decide (bankOf (32 * e.place) = b))
    let bins := (List.map (fun r => (r.1, r.2.filter (fun e => !decide (bankOf (32 * e.place) = b)))) x.bins).filter (fun r => !r.2.isEmpty)
    let s := (s.setDie d { x with bins := bins }).classifiedAll gone
    { s with mem := { s.mem with chip := s.mem.chip.filter (fun c => !in_ c.1)
                                 bad := s.mem.bad.filter (fun w => !(decide (w.store = .chip) && in_ (8 * w.word))) } }

/-- Whether system software has given its leave to turn a store off (R306): no register of the spec says so, a free choice (DESIGN CHOICE,
log entry 121). -/
def State.leave (s : State) : PowerStore → Bool
  | .column c => s.flip (306000 + c)
  | .bank _ _ => true
/-- COLUMN_POWER_STATE (R306): Fredusin moves a column or a bank to another power state, where R306 allows it. -/
def execColumnPowerState (st : PowerStore) (p : PowerState) (s : State) : Out :=
  let allowed := (match st with
    | .column c => decide (p = .active) || s.mayGate c
    | .bank _ _ => true) && (decide (p ≠ .off) || s.leave st)
  if !s.hasStore st || !allowed || (s.dbgHolds st && !decide (p = .active)) || decide (s.power st = .off ∧ p ≠ .active ∧ p ≠ .off) then .next s
  else .next ((if p = .off then s.lose st else s).setPower st p)

/-- DEBUG_READ (R307): `n` bytes of a column or bank; a retained store is raised to ACTIVE and held there, and one in OFF answers
0xDEAD_DEAD. What was read goes to the debug port's replies. A column is read at a physical address, or, from 2 ^ 48 on, at an
offset in the rows its channels hold; a bank at an offset. -/
def execDebugRead (st : PowerStore) (addr n : Nat) (s : State) : Out :=
  if !s.hostUp || !s.hasStore st then .next s
  else if s.power st = .off then
    .next (s.setFred (fun f => { f with dbgReplies := 1 :: List.replicate ((n + 7) / 8) 0xDEADDEADDEADDEAD }))
  else
    let bytes := match st with
      | .column c => (List.range n).map (fun i =>
          if addr + i < 2 ^ 48 then (s.colBytes c (addr + i) 1).headD 0
          else Mem.read s.mem.rows (c * 2 ^ 26 + (addr + i - 2 ^ 48) % 2 ^ 26))
      | .bank d b => (List.range n).map (fun i =>
          let o := addr + i
          Mem.read s.mem.chip (chipKey d (o / 4096 % 1024 * 65536 + b * 4096 + o % 4096)))
    let words := (List.range ((n + 7) / 8)).map (fun i => (BitVec.ofNat 64 (ofBytes ((bytes.drop (8 * i)).take 8)) : W64))
    let s := s.setFred (fun f => { f with dbgReplies := 0 :: words })
    .next (if s.power st = .active then s else (s.setPower st .active).setDbgHold st true)

/-- DEBUG_SESSION_RELEASE (R307): the store may leave ACTIVE again. -/
def execDebugSessionRelease (st : PowerStore) (s : State) : Out :=
  if s.hostUp && s.dbgHolds st then .next (s.setDbgHold st false) else .next s

/-! ### Mirrors (R481) -/

/-- COUNTER_MIRROR_REFRESH (R481): one core's mirror is refreshed. -/
def execCounterMirrorRefresh (core : Nat) (s : State) : Out := .next (if s.coreCount ≤ core then s else s.mirrorCore core)
/-- No mirror is older than 256 ck (R481). -/
def State.mirrorAll (s : State) : State :=
  if s.ck % 256 = 0 then (List.range s.coreCount).foldl State.mirrorCore s else s

end Sys2Proof.Machine
end

