-- ==== Sys2Proof/Machine/Window.lean ====
section
/-! DEFINITION. The device register window (R490, R524): its registers (R446), commands (R62, R389, R421, R440, R452) and
tables (R375, R422, R432), the mailbox's words, and the debug port's register access (R452). -/

namespace Sys2Proof.Machine

/-- Change the window's registers. -/
def State.setWin (s : State) (f : Window → Window) : State := { s with win := f s.win }
def low32 (v : W64) : Nat := v.toNat % 2 ^ 32

/-! ### TLBINV (R421) -/

/-- A write of the STATUS word of a command: 1 starts it, unless it is refused. -/
def State.startTlbinv (s : State) : State :=
  if s.win.invRun || !decide (s.win.invVa.toNat % 4096 = 0) then s.setWin (fun w => { w with invStatus := 3 })
  else s.setWin (fun w => { w with invStatus := 1, invRun := true })
/-- TLBINV (R421, R524): the command starts with its block's words. -/
def execTlbinv (s : State) : Out := .next (if s.hostUp then s.startTlbinv else s)

/-- Whether an entry holds a leaf of the context that meets the range. -/
def Window.invMatch (w : Window) (t : TlbEntry) : Bool :=
  decide (t.ctx = w.invCtx.toNat % 65536) &&
    (decide (w.invPages = 0) || (decide (t.base < w.invVa.toNat + 4096 * w.invPages.toNat)
      && decide (w.invVa.toNat < t.base + leafSize t.level)))
/-- TLBINV_COMPLETE (R421): every TLB has dropped the entries and every earlier walk has ended. -/
def execTlbinvComplete (s : State) : Out :=
  if !s.win.invRun then .next s
  else
    let keep := fun (l : List TlbEntry) => l.filter (fun t => !s.win.invMatch t)
    let s := s.clusters.foldl (fun s r => s.setCluster r.1 { r.2 with tlb := keep r.2.tlb }) s
    let s := s.dies.foldl (fun s r => s.setDie r.1 { r.2 with tlb := keep r.2.tlb, walks := [] }) s
    let s := { s with walked := keep s.walked }
    .next (s.setWin (fun w => { w with invStatus := 2, invRun := false }))

/-! ### VACATE (R62) and TSCLEAR (R389) -/

/-- VACATE starts, at once or after the vacate in progress (R62). -/
def State.startVacate (s : State) : State :=
  if s.win.vacRun || decide (192 < s.win.vacCount.toNat) then s.setWin (fun w => { w with vacStatus := 3 })
  else
    let s := s.setWin (fun w => { w with vacStatus := 1, vacRun := true })
    if s.vac.isSome then s else s.vacateCommand
/-- VACATE (R62, R524). -/
def execVacate (s : State) : Out := .next (if s.hostUp then s.startVacate else s)

/-- TSCLEAR removes every tuple of a bag, which is named by its physical address (R389); waiting deposits take the room (R400). -/
def State.clearBag (s : State) : State :=
  if 2 ^ 48 ≤ s.win.bagAddr.toNat then s.setWin (fun w => { w with bagStatus := 3 })
  else
    let bag := s.win.bagAddr.toNat / 4096
    let s := s.slices.foldl (fun s r => s.setSlice r.1 { r.2 with tuples := r.2.tuples.filter (fun t => !decide (t.bag = bag)) }) s
    let s := (Tbl.keys s.slices).foldl State.makeRoomAt s
    s.setWin (fun w => { w with bagStatus := 2 })
/-- TSCLEAR (R389, R524). -/
def execTsclear (s : State) : Out := .next (if s.hostUp then s.clearBag else s)

/-! ### AGENTCMD (R440, R452, R524) -/

/-- The agents a command names: resident ones, and those of saved teams of the running context by the place they left. -/
structure Named where
  here : List Agent
  away : List (Nat × Agent)

/-- Every resident agent that a test picks, by its team and core. -/
def State.agentsWhere (s : State) (p : Nat → Nat → Bool) : List Agent :=
  (s.waves.filter (fun r => p r.2.team (r.1 / 32))).map (fun r => Agent.wave (r.1 / 32) (r.1 % 32))
    ++ (s.streams.filter (fun r => p r.2.team r.1)).map (fun r => Agent.stream r.1)
/-- Every agent of a saved team by the place it left. -/
def Saved.agents (x : Saved) : List Agent :=
  x.waves.map (fun r => Agent.wave (x.cores.getD (r.1 / 32) 0) (r.1 % 32)) ++ x.streams.map (fun r => Agent.stream (x.cores.getD r.1 0))
/-- The team of a resident agent. -/
def State.teamOf (s : State) (a : Agent) : Option Nat :=
  match a with
  | .wave c k => (s.wave? c k).map (fun w => w.team)
  | .stream c => (s.stream? c).map (fun m => m.team)
/-- The agents of a command word (R524): a resident agent of that place comes before a saved one. -/
def State.named (s : State) (core slot : Nat) (sc : CmdScope) : Named :=
  let a : Agent := if slot = 0xFF then .stream core else .wave core slot
  let mine := s.saved.filter (fun r => match s.launch? r.2.team.launch with | some l => decide (l.ctx = s.win.ctxid) | none => false)
  match sc with
  | .core => ⟨s.agentsWhere (fun _ c => decide (c = core)),
              mine.flatMap (fun r => (r.2.agents.filter (fun b => decide (b.core = core))).map (fun b => (r.1, b)))⟩
  | .agent =>
    (match s.teamOf a with
    | some _ => ⟨[a], []⟩
    | none => ⟨[], mine.flatMap (fun r => (r.2.agents.filter (fun b => decide (b = a))).map (fun b => (r.1, b)))⟩)
  | .team =>
    match s.teamOf a with
    | some t => ⟨s.agentsWhere (fun u _ => decide (u = t)), []⟩
    | none => ⟨[], mine.flatMap (fun r => if a ∈ r.2.agents then r.2.agents.map (fun b => (r.1, b)) else [])⟩

/-- Whether a place can be named (R524). -/
def State.placeNamed (s : State) (core slot : Nat) : Bool := decide (core < s.coreCount) && (decide (slot < 32) || decide (slot = 0xFF))
/-- AGENTCMD's STATUS. -/
def State.agentStatus (s : State) (n : Nat) : State :=
  s.setWin (fun w => { w with agentCmd := BitVec.ofNat 64 (w.agentCmd.toNat % 2 ^ 32 + n * 2 ^ 32) })
/-- Run a command on each named agent to which it applies; STATUS is 3 when there is none. -/
def State.agentCommand (s : State) (core slot : Nat) (sc : CmdScope) (here : State → Agent → Option State)
    (away : State → Nat → Agent → Option State) : State :=
  if !s.hostUp then s
  else if !s.placeNamed core slot then s.agentStatus 3
  else
    let n := s.named core slot sc
    let r := n.here.foldl (fun (r : State × Bool) a => match here r.1 a with | some s => (s, true) | none => r) (s, false)
    let r := n.away.foldl (fun (r : State × Bool) a => match away r.1 a.1 a.2 with | some s => (s, true) | none => r) r
    r.1.agentStatus (if r.2 then 2 else 3)

/-- WRESUME of one agent: it acts as ERET (R440), and for a stream as MSRESUME 1 (R443). -/
def State.wresumeAgent (s : State) (a : Agent) : Option State :=
  match a with
  | .wave c k =>
    (match s.wave? c k with
    | some w => if w.stopped then some (s.setWave c k { w with stopped := false }.eret) else none
    | none => none)
  | .stream c =>
    match s.stream? c with
    | some m => if m.stopped then some (s.msResume c m 1) else none
    | none => none
/-- WRESUME (R440). -/
def execWresume (core slot : Nat) (sc : CmdScope) (s : State) : Out :=
  .next (s.agentCommand core slot sc State.wresumeAgent (fun _ _ _ => none))

/-- WEND of one agent: it acts as HALT, with TRET (R440), and for a stream as MSRESUME 2. -/
def State.wendAgent (s : State) (a : Agent) : Option State :=
  match a with
  | .wave c k =>
    (match s.wave? c k with
    | some w => if w.stopped || w.dbg then some (s.endWave c k w) else none
    | none => none)
  | .stream c =>
    match s.stream? c with
    | some m => if m.stopped || m.dbg then some (s.endStream c m) else none
    | none => none
/-- WEND (R440). -/
def execWend (core slot : Nat) (sc : CmdScope) (s : State) : Out :=
  .next (s.agentCommand core slot sc State.wendAgent (fun _ _ _ => none))

/-- DBGHALT of one agent (R452): a wave that stands at a boundary or is blocked halts now, another at its next boundary; a stream
halts at its next word. -/
def State.dbghaltAgent (s : State) (a : Agent) : Option State :=
  match a with
  | .wave c k =>
    (match s.wave? c k with
    | some w =>
      if w.halted || w.stopped || w.dbg then none
      else
        let s := if w.blocked then s.cancelWait c k w else s
        some (s.updWave c k (fun w =>
          if w.clause.isNone then w.haltDbg
          else if !w.waitMet then w.refetch.haltDbg
          else { w with dbgReq := true }))
    | none => none)
  | .stream c =>
    match s.stream? c with
    | some m =>
      if m.halted || m.stopped || m.dbg then none
      else some (s.setStream c { m with dbg := true, dbgReq := false, block := .none, check := none })
    | none => none
/-- DBGHALT of a saved agent takes effect when it is restored (R453). -/
def State.dbghaltSaved (s : State) (t : Nat) (a : Agent) : Option State :=
  match Tbl.get? s.saved t with
  | none => none
  | some x =>
    match a with
    | .wave c k =>
      (match x.wave? c k with
      | some w => if w.halted then none else some { s with saved := Tbl.set s.saved t (x.setWave c k { w with dbgReq := true }) }
      | none => none)
    | .stream c =>
      let pos := x.cores.findIdx (fun y => decide (y = c))
      match Tbl.get? x.streams pos with
      | some m =>
        if m.halted then none
        else some { s with saved := Tbl.set s.saved t { x with streams := Tbl.set x.streams pos { m with dbgReq := true } } }
      | none => none
/-- DBGHALT (R452, R453). -/
def execDbghalt (core slot : Nat) (sc : CmdScope) (s : State) : Out :=
  .next (s.agentCommand core slot sc State.dbghaltAgent State.dbghaltSaved)

/-- The column of a core whose agents go on is ACTIVE again (R306). -/
def State.wakeColumn (s : State) (core : Nat) : State :=
  if (s.core core).powered = .active then s else s.setCore core { s.core core with powered := .active }
/-- DRESUME of one agent: it continues on an ACTIVE column, and a pending trap is delivered (R306, R453). -/
def State.dresumeAgent (s : State) (a : Agent) : Option State :=
  match a with
  | .wave c k =>
    (match s.wave? c k with
    | some w =>
      if !w.dbg then none
      else
        let w := { w with dbg := false }
        let s := s.wakeColumn c
        some (if w.trapPending then s.deliver c k w else s.setWave c k w)
    | none => none)
  | .stream c =>
    match s.stream? c with
    | some m => if m.dbg then some ((s.wakeColumn c).setStream c { m with dbg := false }) else none
    | none => none
/-- DRESUME (R452, R453). -/
def execDresume (core slot : Nat) (sc : CmdScope) (s : State) : Out :=
  .next (s.agentCommand core slot sc State.dresumeAgent (fun _ _ _ => none))

/-- A write of the AGENTCMD word (R524): its fields, and the command they name. -/
def State.agentWord (s : State) (v : W64) : State :=
  let n := v.toNat
  let s := s.setWin (fun w => { w with agentCmd := v &&& 0xFF03FFFF })
  let core := n % 256
  let slot := n / 256 % 256
  let sc := match n / 65536 % 4 with | 0 => CmdScope.agent | 1 => .team | _ => .core
  let none2 := fun (_ : State) (_ : Nat) (_ : Agent) => (none : Option State)
  if n / 65536 % 4 = 3 then s.agentStatus 3
  else
    match n / 2 ^ 24 % 256 with
    | 1 => s.agentCommand core slot sc State.wresumeAgent none2
    | 2 => s.agentCommand core slot sc State.wendAgent none2
    | 3 => s.agentCommand core slot sc State.dbghaltAgent State.dbghaltSaved
    | 4 => s.agentCommand core slot sc State.dresumeAgent none2
    | _ => s.agentStatus 3

/-! ### Contexts and time slices (R452) -/

/-- CTXID is written: the context runs from now, and the cores earlier vacates emptied take its teams. -/
def State.writeCtxid (s : State) (v : W64) : State :=
  let busy := match s.vac with | some x => x.cores | none => []
  let s := s.cores.foldl (fun s r => if r.2.vacating && !decide (r.1 ∈ busy) then s.setCore r.1 { r.2 with vacating := false } else s) s
  { s with ctxStart := some s.time, expired := false }.setWin (fun w => { w with ctxid := v.toNat % 65536 })
/-- CTXID (R452). -/
def execCtxid (v : W64) (s : State) : Out := .next (if s.hostUp then s.writeCtxid v else s)
/-- TSLICE is written: a time already past expires at once. -/
def State.writeTslice (s : State) (v : W64) : State := (s.setWin (fun w => { w with tslice := low32 v })).expire
/-- TSLICE (R452). -/
def execTslice (v : W64) (s : State) : Out := .next (if s.hostUp then s.writeTslice v else s)

/-! ### The trap ring (R441) -/

/-- A ring size: a power of two in 16–65,536, else 0. -/
def ringSize (n : Nat) : Nat := if (List.range 13).any (fun i => decide (n = 16 * 2 ^ i)) then n else 0
/-- A write of TRAPQ_LO, TRAPQ_HI, TRAPQ_SIZE or TRAPQ_TAIL, by SREG number: held reports are tried again. -/
def State.writeTrapq (s : State) (reg : Nat) (v : W64) : State :=
  let x := v.extractLsb' 0 32
  let s := s.setWin (fun w =>
    match reg with
    | 0x8007 => { w with trapq := putHalf w.trapq false x }
    | 0x8008 => { w with trapq := putHalf w.trapq true x }
    | 0x8009 => { w with trapqSize := ringSize x.toNat }
    | 0x800A => { w with trapqTail := x.toNat }
    | _ => w)
  s.drainReports s.win.held.length
/-- TRAPQ (R441). -/
def execTrapq (reg : Nat) (v : W64) (s : State) : Out :=
  .next (if s.hostUp && decide (0x8007 ≤ reg) && decide (reg ≤ 0x800A) then s.writeTrapq reg v else s)

/-! ### Launch queues (R375, R524) -/

/-- ENABLE is written. -/
def State.writeEnable (s : State) (q : Nat) (v : W64) : State :=
  let x := s.lq q
  if 64 ≤ q then s
  else if v.getLsbD 0 then
    if !x.enable && decide (x.base.toNat % 256 = 0) && (List.range 16).any (fun i => decide (x.size.toNat = 2 * 2 ^ i))
        && decide (x.ctl.toNat % 128 = 0) then
      s.setLq q { x with enable := true, fresh := false, started := false }
    else s
  else s.setLq q { x with enable := false }
/-- LAUNCH_QUEUE_ENABLE (R524). -/
def execLaunchQueueEnable (q : Nat) (v : W64) (s : State) : Out := .next (if s.hostUp then s.writeEnable q v else s)
/-- A write of a queue's block. -/
def State.writeQueue (s : State) (q word : Nat) (v : W64) : State :=
  let x := s.lq q
  if word = 0 then s.writeEnable q v
  else if x.enable || decide (64 ≤ q) then s
  else
    match word with
    | 1 => s.setLq q { x with base := v }
    | 2 => s.setLq q { x with size := v }
    | 3 => s.setLq q { x with ctl := v }
    | _ => s

/-! ### Buffer and material entries (R422, R432) -/

def mask48 : W64 := 0xFFFFFFFFFFFF
/-- A buffer's entry is made invalid: a PUBLISH of it that has not fired finds it so, that of a saved team too (R388, R424). -/
def State.spoilPublish (s : State) (b : Nat) : State :=
  let spoil := fun (r : Nat × Cmd) => (r.1, match r.2.kind with
    | .publish x _ => if x = b ∧ r.2.stage = .issued then { r.2 with progress := 1 } else r.2
    | _ => r.2)
  { s with cmds := List.map spoil s.cmds
           saved := List.map (fun r => (r.1, { r.2 with cmds := List.map spoil r.2.cmds })) s.saved }
/-- One word of a buffer entry. -/
def State.writeBuffer (s : State) (b word : Nat) (v : W64) : State :=
  let x := s.buffer b
  let y := match word with
    | 0 => { x with valid := v.getLsbD 0, cur := v.getLsbD 1, size := v.toNat / 2 ^ 32 }
    | 1 => { x with vbase := v &&& mask48 }
    | 2 => { x with pa0 := v &&& mask48 }
    | 3 => { x with pa1 := v &&& mask48 }
    | _ => x
  if 256 ≤ b then s
  else
    let s := if x.valid && !y.valid then s.spoilPublish b else s
    { s with buffers := Tbl.put s.buffers b Buffer.invalid y }
/-- BUFFER_ENTRY_WRITE (R422, R524). -/
def execBufferEntryWrite (b word : Nat) (v : W64) (s : State) : Out := .next (if s.hostUp then s.writeBuffer b word v else s)

/-- One word of a material entry: setting VALID makes a standing launch, clearing it ends one (R385, R432). -/
def State.writeMaterial (s : State) (m word : Nat) (v : W64) : State :=
  let x := s.material m
  let put := fun (y : Material) => { s with materials := Tbl.put s.materials m Material.invalid y }
  if 4096 ≤ m then s
  else
    match word with
    | 0 => put { x with launch := v }
    | 1 =>
      let s := put { x with valid := v.getLsbD 0 }
      if v.getLsbD 0 && !x.valid then s.standLaunch m else if !v.getLsbD 0 && x.valid then s.endStanding m else s
    | _ => s
/-- MATERIAL_ENTRY_WRITE (R432, R524). -/
def execMaterialEntryWrite (m word : Nat) (v : W64) (s : State) : Out := .next (if s.hostUp then s.writeMaterial m word v else s)

/-! ### Registers (R446, R490) -/

/-- A half of TVBASE (R439, R446). -/
def State.writeTvbase (s : State) (hi : Bool) (v : W64) : State := s.setWin (fun w => { w with tvbase := putHalf w.tvbase hi (v.extractLsb' 0 32) })
/-- A word of the TLBINV block. -/
def State.writeInv (s : State) (word : Nat) (v : W64) : State :=
  if word = 3 then (if v = 1 then s.startTlbinv else s)
  else if s.win.invRun then s
  else s.setWin (fun w =>
    match word with
    | 0 => { w with invCtx := v &&& 0xFFFF }
    | 1 => { w with invVa := v }
    | 2 => { w with invPages := v }
    | _ => w)
/-- Word `i` of a set of cores replaced. -/
def setWord (m : BitVec 192) (i : Nat) (v : W64) : BitVec 192 :=
  let at_ := BitVec.ofNat 192 (2 ^ (64 * i))
  (m &&& ~~~(at_ * 0xFFFFFFFFFFFFFFFF)) ||| (at_ * BitVec.ofNat 192 v.toNat)
/-- A word of the VACATE block. -/
def State.writeVac (s : State) (word : Nat) (v : W64) : State :=
  if word = 4 then (if v = 1 then s.startVacate else s)
  else if s.win.vacRun then s
  else if word < 3 then s.setWin (fun w => { w with vacMask := setWord w.vacMask word v })
  else if word = 3 then s.setWin (fun w => { w with vacCount := v })
  else s
/-- Eligibility is judged again on every core (R49). -/
def State.judgeAll (s : State) : State := (List.range s.coreCount).foldl (fun s c => s.judgeCore c false) s
/-- The counter system software zeroes, by its key (R481): a core's cycle counter counts again from now. -/
def State.zeroCounter (s : State) (key : Nat) : State :=
  let core := key / 2 ^ 16 % 2 ^ 16
  if key / 2 ^ 32 = 1 ∧ key % 2 ^ 16 = 0x10 then
    (if core < s.coreCount then s.setCore core { s.core core with ckBase := s.ck } else s)
  else { s with counters := Tbl.del s.counters key }
/-- Word `word` from 0x3_0800 of the mailbox, whose words R490 does not lay out (DESIGN CHOICE, log entry 104), is written: 1 to word 0
clears the peer predictions (R298), to word 1 the redirects (R301); word 2 zeroes the counter of a key (R481), word 3 the programmable
counter 8 × core + number (R484); word 4 selects what word 5 reads of the tile and launch tables (R426, R434). -/
def State.mailWrite (s : State) (word : Nat) (v : W64) : State :=
  match word with
  | 0 => if v = 1 then { s with clusters := List.map (fun r => (r.1, { r.2 with peers := [] })) s.clusters } else s
  | 1 => if v = 1 then { s with clusters := List.map (fun r => (r.1, { r.2 with redirects := [] })) s.clusters } else s
  | 2 => s.zeroCounter v.toNat
  | 3 =>
    let core := v.toNat / 8
    let k := v.toNat % 8
    let c := s.core core
    if core < s.coreCount then
      s.setCore core { c with pmc := Tbl.put c.pmc k Pmc.zero { Tbl.getD c.pmc k Pmc.zero with val := 0 } } else s
  | 4 => s.setWin (fun w => { w with ownSel := v })
  | _ => s
/-- A tile entry as software reads it (R426): a word each for STATE, FRAME, TX, TY, REFS and CLS. -/
def Tile.word (t : Tile) (n : Nat) : W64 :=
  match n with
  | 0 => BitVec.ofNat 64 (match t.state with | .free => 0 | .raster => 1 | .closed => 2 | .shading => 3 | .retired => 4)
  | 1 => t.frame
  | 2 => BitVec.ofNat 64 t.tx
  | 3 => BitVec.ofNat 64 t.ty
  | 4 => BitVec.ofNat 64 t.refs
  | 5 => if t.cls then 1 else 0
  | _ => 0
/-- The teams of a launch that have not been placed yet. -/
def Launch.pending (l : Launch) : Nat :=
  if l.state = .standing then l.binTeams.length else l.total - l.nextTeam + l.again.length
/-- A launch entry as software reads it (R434): LAUNCH_ID, QUEUE, PRIO, EPRIO, STATE and LASTCORE in word 0, then two
predecessors a word, PENDING and SAVED, RESIDENT. -/
def Launch.word (l : Launch) (n : Nat) : W64 :=
  let pred := fun (i : Nat) => (l.record.preds.getD i 0).toNat
  BitVec.ofNat 64 (match n with
    | 0 => l.record.launchId.toNat + (l.queue.getD 0) % 64 * 2 ^ 32 + l.prio * 2 ^ 40 + l.eprio * 2 ^ 42
        + (match l.state with | .waiting => 0 | .active => 1 | .standing => 2) * 2 ^ 44 + l.lastCore * 2 ^ 48
    | 1 => pred 0 + pred 1 * 2 ^ 32
    | 2 => pred 2 + pred 3 * 2 ^ 32
    | 3 => l.pending + l.saved.length * 2 ^ 32
    | 4 => l.resident.length
    | _ => 0)
/-- The entry of the launch dependency table at a place (R434): the queued launches in the order they were read, and from 1,024 on
the standing launch of each material. -/
def State.launchAt (s : State) (n : Nat) : Option Launch :=
  if n < 1024 then (((s.launches.filter (fun r => !decide (r.2.state = .standing)))[n]?).map (fun r => r.2))
  else (s.standing (n - 1024)).map (fun r => r.2)
/-- The word of a table that system software has selected: bits 2:0 the word, 31:3 the tile entry, by die and slot, or with bit 32 set
the launch entry (R426, R434; the selection is the model's, log entry 104). -/
def State.tableWord (s : State) : W64 :=
  let n := s.win.ownSel.toNat
  let e := n % 2 ^ 32 / 8
  if n / 2 ^ 32 % 2 = 0 then (if e < 1024 * (s.coreCount / 48) then (s.tile e).word (n % 8) else 0)
  else match s.launchAt e with
    | some l => l.word (n % 8)
    | none => 0
/-- The mailbox as it reads (R490, R491): Fredusin's replies, then the selection and the selected word, then the attestation report
(R497), at places of the model's own (log entry 104). -/
def State.mailRead (s : State) (off : Nat) : W64 :=
  if off < 0x800 then s.fred.replies.getD (off / 8) 0
  else if off = 0x820 then s.win.ownSel
  else if off = 0x828 then s.tableWord
  else if 0x900 ≤ off ∧ off < 0x900 + 0x168 then BitVec.ofNat 64 (ofBytes ((s.fred.report.drop (off - 0x900)).take 8))
  else 0

/-! ### The debug port (R452, R490) -/

/-- A divergence-stack entry as two 64-bit words (R142). -/
def DEntry.low (e : DEntry) : W64 := e.mask.extractLsb' 0 64
def DEntry.high (e : DEntry) : W64 :=
  BitVec.ofNat 64 ((e.mask.extractLsb' 64 32).toNat + e.woff.toNat * 2 ^ 32 + bitAt e.pending 63)
def DEntry.setLow (e : DEntry) (v : W64) : DEntry := { e with mask := e.mask.extractLsb' 64 32 ++ v }
def DEntry.setHigh (e : DEntry) (v : W64) : DEntry :=
  ⟨v.getLsbD 63, v.extractLsb' 32 31, v.extractLsb' 0 32 ++ e.mask.extractLsb' 0 64⟩
/-- A wave's register as the debugger reads it. The numbers are the model's (DESIGN CHOICE, log entry 104): 0–127 a scalar register,
0x1000 + 128n + l lane l of vector register n, 0x10000 + SREG a system register, 0x20000 the next header, 0x20001 ACKTAG, 0x20002 and
0x20003 the helper mask, 0x20004 and 0x20005 the hit marks, 0x20010 + i TREFi, 0x20020 the depth of the divergence stack, and
0x20100 + 2n and one above it the two words of its entry n. -/
def State.debugReadWave (s : State) (core : Nat) (w : Wave) (reg : Nat) : W64 :=
  if reg < 128 then (w.rawS reg).setWidth 64
  else if 0x1000 ≤ reg ∧ reg < 0x9000 then
    (if (reg - 0x1000) / 128 < w.vregs ∧ reg % 128 < w.width then ((w.rawV ((reg - 0x1000) / 128) (reg % 128)).setWidth 64) else 0)
  else if 0x10000 ≤ reg ∧ reg < 0x20000 then (match s.sysRead core w (reg - 0x10000) with | some v => v.setWidth 64 | none => 0)
  else if 0x20010 ≤ reg ∧ reg < 0x20018 then
    (match Tbl.get? w.tref (reg - 0x20010) with | some t => BitVec.ofNat 64 (2 ^ 16 + t % 2 ^ 16) | none => 0)
  else if 0x20100 ≤ reg then
    (match w.dstack.reverse[(reg - 0x20100) / 2]? with | some e => if reg % 2 = 0 then e.low else e.high | none => 0)
  else
    match reg with
    | 0x20000 => w.hdrAddr
    | 0x20001 => w.acktag.setWidth 64
    | 0x20002 => w.hmask.extractLsb' 0 64
    | 0x20003 => (w.hmask.extractLsb' 64 32).setWidth 64
    | 0x20004 => w.hit.extractLsb' 0 64
    | 0x20005 => (w.hit.extractLsb' 64 32).setWidth 64
    | 0x20020 => BitVec.ofNat 64 w.dstack.length
    | _ => 0
/-- A wave's register as the debugger writes it, under the same numbers. A smaller depth drops entries from the top of the divergence
stack; a write to the entry just above it pushes one. -/
def Wave.debugWrite (w : Wave) (reg : Nat) (v : W64) : Wave :=
  let x := v.extractLsb' 0 32
  if reg < 128 then w.writeS reg x
  else if 0x1000 ≤ reg ∧ reg < 0x9000 then
    (if (reg - 0x1000) / 128 < w.vregs ∧ reg % 128 < w.width then w.writeV ((reg - 0x1000) / 128) (reg % 128) x else w)
  else if 0x10000 ≤ reg ∧ reg < 0x20000 then (w.sysWrite (reg - 0x10000) x).getD w
  else if 0x20010 ≤ reg ∧ reg < 0x20018 then
    { w with tref := if v.getLsbD 16 then Tbl.set w.tref (reg - 0x20010) (v.toNat % 2 ^ 16) else Tbl.del w.tref (reg - 0x20010) }
  else if 0x20100 ≤ reg then
    let n := (reg - 0x20100) / 2
    let set := fun (e : DEntry) => if reg % 2 = 0 then e.setLow v else e.setHigh v
    let up := w.dstack.reverse
    if n = up.length ∧ n < 32 then { w with dstack := (up ++ [set ⟨false, 0, 0⟩]).reverse }
    else { w with dstack := (up.modify n set).reverse }
  else
    match reg with
    | 0x20000 => { w with pc := v, eretWord := none, stands := none }
    | 0x20001 => { w with acktag := x }
    | 0x20002 => { w with hmask := w.hmask.extractLsb' 64 32 ++ v }
    | 0x20003 => { w with hmask := x ++ w.hmask.extractLsb' 0 64 }
    | 0x20004 => { w with hit := w.hit.extractLsb' 64 32 ++ v }
    | 0x20005 => { w with hit := x ++ w.hit.extractLsb' 0 64 }
    | 0x20020 => { w with dstack := w.dstack.drop (w.dstack.length - v.toNat) }
    | _ => w
/-- A stream's register as the debugger reads it: 0–15 an m register, 0x100 + 4n + j word j of format block n, 0x200 + t the tag of a
slot, 0x10000 + SREG MFAULT, MFPC or MFADDR, 0x20000 the next word or header. -/
def Stream.debugRead (m : Stream) (reg : Nat) : W64 :=
  if reg < 16 then (Tbl.getD m.m reg 0).setWidth 64
  else if 0x100 ≤ reg ∧ reg < 0x140 then BitVec.ofNat 64 (Mem.readN m.fb (8 * (reg - 0x100)) 8)
  else if 0x200 ≤ reg ∧ reg < 0x240 then BitVec.ofNat 64 (Tbl.getD m.tags (reg - 0x200) 0)
  else
    match reg with
    | 0x10102 => m.mfault.setWidth 64
    | 0x10103 => (halfLo m.mfpc).setWidth 64
    | 0x10104 => (halfHi m.mfpc).setWidth 64
    | 0x10105 => (halfLo m.mfaddr).setWidth 64
    | 0x10106 => (halfHi m.mfaddr).setWidth 64
    | 0x20000 => m.mpc
    | _ => 0
def Stream.debugWrite (m : Stream) (reg : Nat) (v : W64) : Stream :=
  let x := v.extractLsb' 0 32
  if reg < 16 then { m with m := Tbl.put m.m reg 0 x }
  else if 0x100 ≤ reg ∧ reg < 0x140 then { m with fb := Mem.writeN m.fb (8 * (reg - 0x100)) 8 v.toNat }
  else if 0x200 ≤ reg ∧ reg < 0x240 then { m with tags := Tbl.put m.tags (reg - 0x200) 0 (v.toNat % 16) }
  else
    match reg with
    | 0x10102 => { m with mfault := x &&& 0xFFFF }
    | 0x10103 => { m with mfpc := putHalf m.mfpc false x }
    | 0x10104 => { m with mfpc := putHalf m.mfpc true x }
    | 0x10105 => { m with mfaddr := putHalf m.mfaddr false x }
    | 0x10106 => { m with mfaddr := putHalf m.mfaddr true x }
    | 0x20000 => m.goTo v
    | _ => m
/-- A register of an agent in DBGHALT, read and written by the debugger (R452); of any other agent 0, and nothing. -/
def State.debugRead (s : State) (a : Agent) (reg : Nat) : W64 :=
  match a with
  | .wave c k => (match s.wave? c k with | some w => if w.dbg then s.debugReadWave c w reg else 0 | none => 0)
  | .stream c => match s.stream? c with | some m => if m.dbg then m.debugRead reg else 0 | none => 0
def State.debugWrite (s : State) (a : Agent) (reg : Nat) (v : W64) : State :=
  match a with
  | .wave c k => (match s.wave? c k with | some w => if w.dbg then s.setWave c k (w.debugWrite reg v) else s | none => s)
  | .stream c => match s.stream? c with | some m => if m.dbg then s.setStream c (m.debugWrite reg v) else s | none => s
/-- The agent and register the debug port has selected: core in bits 7:0, slot in 15:8 with 0xFF for the stream, register in 63:32 (the
model's, log entry 104). -/
def Window.dbgAgent (w : Window) : Agent :=
  let n := w.dbgSel.toNat
  if n / 256 % 256 = 0xFF then .stream (n % 256) else .wave (n % 256) (n / 256 % 256)
def Window.dbgReg (w : Window) : Nat := w.dbgSel.toNat / 2 ^ 32

/-- An aligned 8-byte write of the window (R490, R524). -/
def State.windowWrite (s : State) (off : Nat) (v : W64) : State :=
  if off % 8 ≠ 0 then s
  else if off < 0x58 then
    match off / 8 with
    | 0 => (s.setWin (fun w => { w with thot := max 60 (min 105 (v.toNat % 256)) })).judgeAll
    | 1 => (s.setWin (fun w => { w with dmax := v.toNat % 256 })).judgeAll
    | 2 => s.writeTslice v
    | 3 => s.setWin (fun w => { w with wdtime := low32 v })
    | 4 => s.setWin (fun w => { w with errpol := v.extractLsb' 0 32 &&& 1 })
    | 5 => s.writeTvbase false v
    | 6 => s.writeTvbase true v
    | n => s.writeTrapq (0x8000 + n) v
  else if off = 0x100 then s.writeCtxid v
  else if off = 0x108 then s.setWin (fun w => { w with ptbase := v &&& 0xFFFFFFFFF000 })
  else if 0x110 ≤ off ∧ off < 0x130 then s.writeInv ((off - 0x110) / 8) v
  else if 0x140 ≤ off ∧ off < 0x180 then s.writeVac ((off - 0x140) / 8) v
  else if off = 0x180 then s.agentWord v
  else if off = 0x1C0 then s.setWin (fun w => { w with mxidle := low32 v })
  else if off = 0x1C8 then
    s.setWin (fun w => { w with pfctl := BitVec.ofNat 32 (v.toNat % 2 + 2 * (max 1 (min 8 (v.toNat / 2 % 16)))) })
  else if off = 0x1D0 then s.setWin (fun w => { w with binflush := low32 v })
  else if 0x1E0 ≤ off ∧ off < 0x200 then
    let d := (off - 0x1E0) / 8
    if d < s.coreCount / 48 then s.setDie d { s.die d with cplimit := low32 v / 4096 * 4096 } else s
  else if 0x1000 ≤ off ∧ off < 0x1800 then s.writeQueue ((off - 0x1000) / 32) (off % 32 / 8) v
  else if 0x2000 ≤ off ∧ off < 0x4000 then s.writeBuffer ((off - 0x2000) / 32) (off % 32 / 8) v
  else if 0x4000 ≤ off ∧ off < 0x14000 then s.writeMaterial ((off - 0x4000) / 16) (off % 16 / 8) v
  else if off = 0x20000 then s.setWin (fun w => { w with bagAddr := v })
  else if off = 0x20008 then (if v = 1 then s.clearBag else s)
  else if 0x30800 ≤ off ∧ off < 0x30828 then s.mailWrite ((off - 0x30800) / 8) v
  else if off = 0x40000 then s.setWin (fun w => { w with dbgSel := v })
  else if off = 0x40008 then s.debugWrite s.win.dbgAgent s.win.dbgReg v
  else s
/-- REGISTER_WRITE (R446, R490, R524): a write of the window takes effect; one that names no field is ignored. -/
def execRegisterWrite (off : Nat) (v : W64) (s : State) : Out := .next (if s.hostUp then s.windowWrite off v else s)

/-- An aligned 8-byte read of the window (R490, R524): what system software sees. -/
def State.windowRead (s : State) (off : Nat) : W64 :=
  let w := s.win
  let n := fun (x : Nat) => BitVec.ofNat 64 x
  if off % 8 ≠ 0 ∨ !s.hostUp then 0
  else if off < 0x58 then
    n ([w.thot, w.dmax, w.tslice, w.wdtime, w.errpol.toNat, w.tvbase.toNat % 2 ^ 32, w.tvbase.toNat / 2 ^ 32, w.trapq.toNat % 2 ^ 32,
      w.trapq.toNat / 2 ^ 32, w.trapqSize, w.trapqTail].getD (off / 8) 0)
  else if off = 0x100 then n w.ctxid
  else if off = 0x108 then w.ptbase
  else if 0x110 ≤ off ∧ off < 0x130 then [w.invCtx, w.invVa, w.invPages, n w.invStatus].getD ((off - 0x110) / 8) 0
  else if 0x140 ≤ off ∧ off < 0x180 then
    let i := (off - 0x140) / 8
    if i < 3 then w.vacMask.extractLsb' (64 * i) 64 else if i = 3 then w.vacCount else if i = 4 then n w.vacStatus
    else w.vacSet.extractLsb' (64 * (i - 5)) 64
  else if off = 0x180 then w.agentCmd
  else if off = 0x1C0 then n w.mxidle
  else if off = 0x1C8 then n w.pfctl.toNat
  else if off = 0x1D0 then n w.binflush
  else if 0x1E0 ≤ off ∧ off < 0x200 then n (s.die ((off - 0x1E0) / 8)).cplimit
  else if 0x1000 ≤ off ∧ off < 0x1800 then
    let q := s.lq ((off - 0x1000) / 32)
    [n (if q.enable then 1 else 0), q.base, q.size, q.ctl].getD (off % 32 / 8) 0
  else if 0x2000 ≤ off ∧ off < 0x4000 then
    let b := s.buffer ((off - 0x2000) / 32)
    [n (bitAt b.valid 0 + bitAt b.cur 1 + b.size * 2 ^ 32), b.vbase, b.pa0, b.pa1].getD (off % 32 / 8) 0
  else if 0x4000 ≤ off ∧ off < 0x14000 then
    let m := s.material ((off - 0x4000) / 16)
    if off % 16 = 0 then m.launch else n (if m.valid then 1 else 0)
  else if off = 0x20000 then w.bagAddr
  else if off = 0x20008 then n w.bagStatus
  else if 0x30000 ≤ off ∧ off < 0x31000 then s.mailRead (off - 0x30000)
  else if off = 0x40000 then w.dbgSel
  else if off = 0x40008 then s.debugRead w.dbgAgent w.dbgReg
  else if 0x40100 ≤ off ∧ off < 0x41000 then s.fred.dbgReplies.getD ((off - 0x40100) / 8) 0
  else 0

/-- DEBUG_REGISTER_WRITE (R452, R490): the debug port writes a register of an agent in DBGHALT. -/
def execDebugRegisterWrite (a : Agent) (reg : Nat) (v : W64) (s : State) : Out := .next (if s.hostUp then s.debugWrite a reg v else s)

end Sys2Proof.Machine
end

