-- ==== Sys2Proof/Machine/Boot.lean ====
section
/-! DEFINITION. Fredusin: start-up and its failures (R492–R495), BOOTSTAT (R494), attestation (R496, R497), checkpoint and restore
(R498), the removal of power (R499) and lost links (R500). -/

namespace Sys2Proof.Machine

/-- A reply in the mailbox (R491). -/
def State.reply (s : State) (ws : List W64) : State := (s.setFred (fun f => { f with replies := f.replies ++ ws })).vector 3

/-! ### Starts and failures (R492, R493, R495) -/

/-- The cause a failing stage records (R492). -/
def stageCause (stage : Nat) : Nat := [1, 2, 6, 3, 4, 5, 8].getD (stage - 1) 0
/-- A failed start (R493, R495): the count and its cause; a failure at stage 1, or on a newly activated image, makes the next start
use the other slot. -/
def Fred.fail (f : Fred) (cause : Nat) : Fred :=
  { f with running := false, fails := min 3 (f.fails + 1), causes := (f.causes ++ [cause]).drop (f.causes.length - 2)
           swap := f.swap || decide (f.stage = 0) || f.newImage, bootDeadline := none
           mode := if f.mode = .minimal then .failed else f.mode }
/-- Nothing runs after a failed start: no agent, launch or request is left. -/
def State.stopAll (s : State) : State :=
  { s with cur := none, waves := [], streams := [], teams := [], groups := [], launches := [], lqs := [], cmds := [], treqs := [],
           flits := [], saved := [], vac := none, ctxStart := none }
def State.failStart (s : State) (cause : Nat) : State := s.stopAll.setFred (fun f => f.fail cause)

/-- The image a start runs: a slot that was never written holds the factory's (DESIGN CHOICE, log entry 100). -/
def Fred.image (f : Fred) : List Byte := match Tbl.get? f.images f.active with | some r => r.1 | none => Config.factoryImage
/-- The public keys of the chain from the Lystia root to the device's own (R496). -/
def chainKeys : List (List Byte) := Config.rootKeys ++ [edPublic Config.identityKey]
/-- An image is accepted when its 114-byte signature verifies under a key of the chain (R496); the factory's is a signed one (DESIGN
CHOICE, log entry 100). -/
def Fred.accepts (f : Fred) : Bool :=
  match Tbl.get? f.images f.active with
  | some r => decide (r.2.length = 114) && chainKeys.any (fun k => edVerify k r.1 r.2)
  | none => true
/-- The mailbox answers at any stage, while there is power and a link (R493, R494, R500). -/
def State.mailUp (s : State) : Bool := !s.fred.powerOff && s.fred.cxlUp
/-- Fredusin as a start begins: minimal after the third consecutive failure (R493), on the slot R495 names. -/
def Fred.start (f : Fred) : Fred :=
  let other := (f.pendingImage || f.swap)
  { f with mode := if 3 ≤ f.fails then .minimal else .full, stage := 0, running := true, bootDeadline := none, booted := false
           active := if other then 1 - f.active else f.active, newImage := f.pendingImage, pendingImage := false, swap := false
           replies := [], dbgReplies := [], config := [], ckpt := none, heldWrites := [], overtemp := false, powerOff := false
           cxlUp := true }
/-- The window registers as one string of bytes: each in eight, in the order of their offsets, as they stand whether or not the host
reaches them (the string is the model's: DESIGN CHOICE, log entry 142). -/
def State.configBytes (s : State) : List Byte :=
  let s := s.setFred (fun f => { f with stage := 7, running := true, powerOff := false, cxlUp := true })
  ((List.range 11).map (8 * ·) ++ [0x100, 0x108, 0x1C0, 0x1C8, 0x1D0, 0x1E0, 0x1E8, 0x1F0, 0x1F8]).flatMap
    (fun off => bytesOf 8 (s.windowRead off).toNat)
/-- POWER_ON_RESET (R31, R492): a start begins; the failure of a die that grew too hot is recorded first (R499). -/
def execPowerOnReset (s : State) : Out :=
  .next (s.wiped.setFred (fun f => (if f.overtemp then f.fail 7 else f).start))

/-- The chip scratchpads are cleared (R273, R492). -/
def State.clearChips (s : State) : State := { s with mem := { s.mem with chip := [] } }
/-- BOOT_STAGE (R492): the next stage completes, or the start fails with that stage's cause; when a die is too hot, power goes, and the
failure with 0x07 is recorded at the next reset (R499). Stage 1 passes exactly when the image is accepted; READY itself cannot fail, and
keeps the window registers for attestation (R497). -/
def execBootStage (failed : Option Byte) (s : State) : Out :=
  let f := s.fred
  if !f.running || decide (7 ≤ f.stage) then .next s
  else
    match failed with
    | some c =>
      if c = 7 then .next s.removePower
      else if c.toNat = stageCause (f.stage + 1) ∧ f.stage < 6 ∧ (f.stage = 0 → f.accepts = false) then .next (s.failStart c.toNat)
      else .next s
    | none =>
      if f.stage = 0 ∧ f.accepts = false then .next s
      else
        let s := if f.stage = 2 then s.clearChips else s
        let s := s.setFred (fun f => { f with stage := f.stage + 1
                                              bootDeadline := if f.stage = 6 then some (s.time + 30 * 17000000000) else none })
        .next (if f.stage = 6 then s.setFred (fun f => { f with config := s.configBytes }) else s)

/-- BOOTOK (R492): 1 within 30 s of READY makes the start a success; a full one clears the count of failures (R493). -/
def execBootok (v : W64) (s : State) : Out :=
  match s.fred.bootDeadline with
  | some d =>
    if v = 1 ∧ s.hostUp ∧ s.time ≤ d then
      .next (s.setFred (fun f => { f with booted := true, bootDeadline := none, newImage := false
                                          fails := if f.mode = .full then 0 else f.fails }))
    else .next s
  | none => .next s
/-- BOOTOK_TIMEOUT (R492): 30 s after READY the start fails with cause 0x08. -/
def execBootokTimeout (s : State) : Out :=
  match s.fred.bootDeadline with
  | some d => if s.up ∧ d < s.time then .next (s.failStart 8) else .next s
  | none => .next s

/-- FULLRETRY (R493): the count is cleared and the next start is a full one. -/
def execFullretry (s : State) : Out := .next (if s.mailUp then (s.setFred (fun f => { f with fails := 0 })).reply [0] else s)

/-- FIRMWARE_UPDATE (R495): an image for the inactive slot, used from the next start on. -/
def execFirmwareUpdate (image sig : List Byte) (s : State) : Out :=
  .next (if s.mailUp then s.setFred (fun f => { f with images := Tbl.set f.images (1 - f.active) (image, sig), pendingImage := true }) else s)

/-! ### BOOTSTAT (R494) and attestation (R497) -/

/-- BOOTSTAT. -/
def Fred.bootstat (f : Fred) : W64 :=
  let mode := match f.mode with | .full => 0 | .minimal => 1 | .failed => 2
  BitVec.ofNat 64 (mode * 2 ^ 60 + f.fails * 2 ^ 56 + f.stage * 2 ^ 24 + f.causes.headD 0 * 2 ^ 16 + f.causes.getD 1 0 * 2 ^ 8
    + f.causes.getLastD 0)
/-- BOOTSTAT (R494): read through the mailbox at any stage. -/
def execBootstat (s : State) : Out := .next (if s.mailUp then s.reply [s.fred.bootstat] else s)

/-- The first `n` of some bytes, with zeros behind them. -/
def padBytes (n : Nat) (b : List Byte) : List Byte := (b ++ List.replicate n 0).take n
/-- The three measurements: Fredusin's firmware, the device firmware, the configuration, 64 bytes of SHAKE256 output each (R497). -/
def Fred.measurements (f : Fred) : List Byte := measure f.image ++ measure Config.deviceFirmware ++ measure f.config
/-- The signed part of the report: version, BOOTSTAT, nonce, measurements. -/
def Fred.reportBody (f : Fred) (nonce : BitVec 256) : List Byte :=
  bytesOf 8 1 ++ bytesOf 8 f.bootstat.toNat ++ bytesOf 32 nonce.toNat ++ f.measurements
/-- ATTEST (R496, R497): the report, with the Ed448 signature of the device's identity key over its first 0xF0 bytes. -/
def execAttest (nonce : BitVec 256) (s : State) : Out :=
  let body := s.fred.reportBody nonce
  .next (if s.mailUp then (s.setFred (fun f => { f with report := body ++ edSign Config.identityKey body })).reply [0] else s)

/-! ### Checkpoint (R498) -/

/-- Bytes of device memory: 256 GB, or 64 GB in minimal mode (R31). -/
def State.deviceBytes (s : State) : Nat := if s.minimal then 2 ^ 36 else 2 ^ 38
/-- A target of 256 GB in the host window. -/
def ckptPlace (t : Nat) : Bool := decide (t + 2 ^ 38 ≤ 2 ^ 46)
/-- CKPT (R498): every core of the running context is vacated first, after any vacate in progress. -/
def execCkpt (target : Nat) (s : State) : Out :=
  if !s.hostUp || s.fred.ckpt.isSome then .next s
  else if !ckptPlace target then .next (s.reply [1])
  else
    let s := s.setFred (fun f => { f with ckpt := some (target, 0) })
    .next (if s.vac.isSome then s else s.beginVacate (List.range s.coreCount) 2)

/-- Every dirty column and L2 line is written back (R498). -/
def State.writeBackAll (s : State) : State :=
  let s := (List.range s.coreCount).foldl (fun s c => s.colSweep c (fun _ => true) false) s
  let dirty := (s.mem.l2.filter (fun r => r.2.dirty && !r.2.poison)).map (fun r => r.1)
  let dram := dirty.foldl (fun (m : Mem) l => Mem.overlay (Mem.clear m (l * 128) 128) (Mem.slice s.mem.home (l * 128) 128 (l * 128))) s.mem.dram
  { s with mem := { s.mem with dram := dram, l2 := List.map (fun r => (r.1, if r.2.poison then r.2 else { r.2 with dirty := false })) s.mem.l2 } }
/-- Copies of the lines of [a, a + n) leave every cache. -/
def State.forget (s : State) (a n : Nat) : State :=
  let out := fun (l : Nat) => decide (l * 128 < a) || decide (a + n ≤ l * 128)
  let s := s.clusters.foldl (fun s r => (r.2.lines.filter (fun x => !out x.1)).foldl (fun s x => s.dropCopy r.1 x.1) s) s
  { s with mem := { s.mem with l2 := s.mem.l2.filter (fun r => out r.1), replicas := s.mem.replicas.filter (fun r => out r.1)
                               cols := s.mem.cols.filter (fun r => out (r.1 % 2 ^ 41)) } }
/-- Every update-only copy is recalled. -/
def State.recallAll (s : State) : State :=
  (((s.clusters.flatMap (fun r => r.2.lines.map (fun x => x.1))).eraseDups)).foldl State.recall s
/-- Put the bytes of [a, a + n) at [b, b + n), at the homes and behind them. -/
def State.copyRange (s : State) (src : Mem) (a n b : Nat) : State :=
  let cells := Mem.slice src a n b
  let put := fun (m : Mem) => Mem.overlay (Mem.clear m b n) cells
  let s := s.forget b n
  { s with mem := { s.mem with home := put s.mem.home, dram := put s.mem.dram } }
/-- The poisoned lines of device memory. -/
def State.poisonedLines (s : State) : List Nat := (s.mem.l2.filter (fun r => r.2.poison && devWindow (r.1 * 128))).map (fun r => r.1)

/-- CKPT_COMPLETE (R498): after the vacate, what is dirty is written back and device memory streams to the target, poisoned lines as
zeros with their addresses in the reply; held host writes proceed. Over a lost link nothing streams (R500). -/
def execCkptComplete (s : State) : Out :=
  match s.fred.ckpt with
  | some (target, 1) =>
    if !s.hostUp then .next s else
    let s := s.recallAll.writeBackAll
    let bad := s.poisonedLines
    let src := bad.foldl (fun (m : Mem) l => Mem.clear m (l * 128) 128) s.mem.home
    let s := s.copyRange src 0 s.deviceBytes (2 ^ 46 + target)
    let held := s.fred.heldWrites
    let s := s.setFred (fun f => { f with ckpt := none, heldWrites := [] })
    let s := held.foldl (fun s w => s.homeWriteBytes w.1 w.2 none) s
    .next (s.reply (0 :: bad.map (fun l => BitVec.ofNat 64 (l * 128))))
  | _ => .next s

/-- RESTORE (R498): the target is read back into the home slices, before any launch queue is enabled. -/
def execRestore (source : Nat) (s : State) : Out :=
  if !s.hostUp || s.fred.ckpt.isSome then .next s
  else if !ckptPlace source || s.lqs.any (fun r => r.2.enable) then .next (s.reply [1])
  else
    let s := s.recallAll
    let src := (s.mem.l2.filter (fun r => r.2.poison)).foldl (fun (m : Mem) r => Mem.clear m (r.1 * 128) 128) s.mem.home
    .next ((s.copyRange src (2 ^ 46 + source) s.deviceBytes 0).reply [0])

/-! ### Power and links (R499, R500) -/

/-- OVERTEMP (R499): a die reaches 110 °C: during start-up the start fails with cause 0x07; in any case Fredusin removes power at
once, and the failure is recorded at the next reset. -/
def execOvertemp (die : Nat) (s : State) : Out :=
  if s.coreCount / 48 ≤ die ∨ s.fred.powerOff then .next s
  else .next s.removePower

/-- LOST_CXL_LINK (R500): the host reaches the device no longer. -/
def execLostCxlLink (s : State) : Out := .next (s.setFred (fun f => { f with cxlUp := false }))
/-- LINK_FAILURE (R500): the die loop or the GDDR 7 links of a die fail; a device error is reported. -/
def execLinkFailure (die : Nat) (loop : Bool) (s : State) : Out :=
  if s.coreCount / 48 ≤ die then .next s
  else
    let d := s.die die
    .next ((s.setDie die (if loop then { d with loopUp := false } else { d with memUp := false })).errorReport (0x500 + 2 * die + bitAt loop 0))

end Sys2Proof.Machine
end

