-- ==== Sys2Proof/Machine/Control.lean ====
section
/-! DEFINITION. The control words (R194–R210): transfers, divergence, masks, waiting and ending. -/

namespace Sys2Proof.Machine

/-- A word offset, as a byte offset (R196). -/
def offBytes (off : W32) : W64 := BitVec.ofInt 64 (8 * sval off)
/-- A + 8 × S(OFF32). -/
def Wave.target (w : Wave) (off : W32) : W64 := w.wordAddr + offBytes off

/-- A word that transfers to `h` after the change `w'`. -/
def transfer (w' : Wave) (h : W64) : Wave := w'.tickWins.goTo h

/-- A control word: it traps, or gives the wave that follows it. -/
def ctlWord (i : Instr) (s : State) (run : Wave → Except Trap Wave) : Out :=
  withWave s (fun c k w =>
    if !i.wf then s.trapAt c k w w.illegal
    else
      match run w with
      | .ok w' => s.setWave c k w'
      | .error t => s.trapAt c k w t)

/-- BRA (R196). -/
def execBra (f : FmtC) (s : State) : Out :=
  ctlWord (.bra f) s (fun w => .ok (transfer w (if w.cond f.cond f.ca then w.target f.off else w.fallAddr)))

/-- BRS (R196): into a table of clauses of CX words. -/
def execBrs (f : FmtC) (s : State) : Out :=
  ctlWord (.brs f) s (fun w =>
    .ok (transfer w (w.target f.off + BitVec.ofNat 64 (8 * (f.cx.toNat * w.z f.ca)))))

/-- BRX (R196): to the address in a pair. -/
def execBrx (f : FmtC) (s : State) : Out :=
  ctlWord (.brx f) s (fun w => .ok (transfer w (if w.cond f.cond 0 then w.readS64 f.ca.toNat else w.fallAddr)))

/-- CALL (R196): the return offset to the link register, then the transfer; an unrecordable return traps first. -/
def execCall (f : FmtC) (s : State) : Out :=
  ctlWord (.call f) s (fun w =>
    let d := w.fallAddr.toNat - w.codeBase.toNat
    if w.fallAddr.toNat < w.codeBase.toNat ∨ 2 ^ 32 ≤ d / 8 then .error w.illegal
    else .ok (transfer (w.writeS f.ca.toNat (BitVec.ofNat 32 (d / 8))) (w.target f.off)))

/-- RET (R196). -/
def execRet (f : FmtC) (s : State) : Out :=
  ctlWord (.ret f) s (fun w =>
    .ok (transfer w (if w.cond f.cond 0 then w.codeBase + BitVec.ofNat 64 (8 * w.z f.ca) else w.fallAddr)))

/-- LOOP (R196): decrement, and transfer while not zero. -/
def execLoop (f : FmtC) (s : State) : Out :=
  ctlWord (.loop f) s (fun w =>
    let n := w.readS f.ca.toNat - 1
    .ok (transfer (w.writeS f.ca.toNat n) (if n = 0 then w.fallAddr else w.target f.off)))

/-! ### Divergence (R141, R142, R199–R202) -/

/-- WOFF of an address, or none outside [CODE_BASE, CODE_BASE + 2^34) (R142). -/
def Wave.woff (w : Wave) (h : W64) : Option (BitVec 31) :=
  let d := h.toNat - w.codeBase.toNat
  if w.codeBase.toNat ≤ h.toNat ∧ d < 2 ^ 34 then some (BitVec.ofNat 31 (d / 8)) else none
def Wave.depthTrap (w : Wave) (sub : Nat) : Trap := { cause := 0x0A, sub := sub, fm := w.trapMask }
/-- Push an entry: ILLEGAL_OPCODE for an address out of range, DIVERGENCE_DEPTH for a full stack (R142, R202). Where both hold the
spec does not say which is taken: ILLEGAL_OPCODE (DESIGN CHOICE, log entry 111). -/
def Wave.push (w : Wave) (pending : Bool) (h : W64) (m : BitVec 96) : Except Trap Wave :=
  match w.woff h with
  | none => .error w.illegal
  | some o => if 32 ≤ w.dstack.length then .error (w.depthTrap 1) else .ok { w with dstack := ⟨pending, o, m⟩ :: w.dstack }

/-- The masks a run of scalar registers gives, from s_k (R158, R200). -/
def Wave.runMask (w : Wave) (k : Nat) : BitVec 96 :=
  let word := fun b => if b < w.beats then w.readS (k + b) else 0
  word 2 ++ word 1 ++ word 0
/-- The run s_k … s_(k+B-1) exists (R200). -/
def Wave.runOk (w : Wave) (k : Nat) : Bool := decide (k + w.beats - 1 ≤ 127)

/-- MARK (R199): push a rejoin entry with the current mask. -/
def execMark (f : FmtC) (s : State) : Out :=
  ctlWord (.mark f) s (fun w => (w.push false (w.target f.off) w.mask).map Wave.done)

/-- BRM (R200): the lanes that do not branch run first; the others wait on the stack. -/
def execBrm (f : FmtC) (s : State) : Out :=
  ctlWord (.brm f) s (fun w =>
    let k := f.ca.toNat
    if !w.runOk k then .error w.illegal
    else
      let c := if f.cx.getLsbD 0 then ~~~(w.runMask k) else w.runMask k
      let t := w.mask &&& c
      let n := w.mask &&& ~~~c
      if t = 0 then .ok (transfer w w.fallAddr)
      else if n = 0 then .ok (transfer w (w.target f.off))
      else (w.push true (w.target f.off) t).map (fun w' => transfer (w'.setMask n) w.fallAddr))

/-- JOIN (R201): pop the top entry, restore its mask and go to its header. -/
def execJoin (f : FmtC) (s : State) : Out :=
  ctlWord (.join f) s (fun w =>
    match w.dstack with
    | [] => .error (w.depthTrap 2)
    | e :: rest =>
      .ok (transfer ({ w with dstack := rest }.setMask e.mask) (w.codeBase + BitVec.ofNat 64 (8 * e.woff.toNat))))

/-- MASK (R203): the new mask governs from the next word. -/
def execMask (f : FmtC) (s : State) : Out :=
  ctlWord (.mask f) s (fun w =>
    let k := f.ca.toNat
    let op := f.cx.toNat
    if op ≠ 4 ∧ !w.runOk k then .error w.illegal
    else
      let r := w.runMask k
      let m := match op with
        | 0 => r
        | 1 => w.mask &&& r
        | 2 => w.mask &&& ~~~r
        | 3 => w.mask ||| r
        | _ => fullMask w.beats
      .ok (w.setMask m).done)

/-! ### Waiting, yielding and ending (R205–R208) -/

/-- WAITC (R464): block until the counter of a path is at or below the threshold read at issue. -/
def execWaitc (f : FmtC) (s : State) : Out :=
  sysWord (.waitc f) s (fun c k w =>
    let thr := match w.block with
      | .word _ 1 t => t
      | _ => min 63 (w.z f.ca)
    if 63 ≤ thr ∨ w.count (Path.ofCode f.cx.toNat) ≤ thr then s.setWave c k w.done
    else s.setWave c k (w.blockAt s.time 1 thr))

/-- YIELD (R205): the next choice counts the wave as youngest. -/
def execYield (f : FmtC) (s : State) : Out :=
  ctlWord (.yield f) s (fun w => .ok { w.done with yielded := true })

/-- NOP (R205). -/
def execNop (f : FmtC) (s : State) : Out := ctlWord (.nop f) s (fun w => .ok w.done)

/-- HALT (R207): end the wave when the condition holds. -/
def execHalt (f : FmtC) (s : State) : Out :=
  sysWord (.halt f) s (fun c k w => if w.cond f.cond f.ca then s.endWave c k w.tickWins else s.setWave c k w.done)

/-- TRAP (R208): a SOFTWARE trap at the fall-through header when the condition holds. -/
def execTrap (f : FmtC) (s : State) : Out :=
  sysWord (.trap f) s (fun c k w =>
    if w.cond f.cond f.ca then
      s.trapHeader c k w { cause := 0x13, sub := f.off.toNat % 256, origin := 7, eaddr := w.wordAddr, fm := w.trapMask }
        w.fallAddr 0
    else s.setWave c k w.done)

/-- SLEEP (R206): ready between N and N + 256 ck after issue, the exact time left open; N = 0 yields. -/
def execSleep (f : FmtC) (s : State) : Out :=
  sysWord (.sleep f) s (fun c k w =>
    match w.block with
    | .word _ 1 wake => if wake ≤ s.ck then s.setWave c k w.done else s.setWave c k w
    | _ =>
      let n := min (w.z f.ca + f.off.toNat) (2 ^ 32 - 1)
      if n = 0 then s.setWave c k { w.done with yielded := true }
      else s.setWave c k (w.blockAt s.time 1 (s.ck + n + s.choose 900400 257)))

end Sys2Proof.Machine
end

