-- ==== Sys2Proof/Machine/Convert.lean ====
section
/-! DEFINITION. The conversion words (R176–R180). -/

namespace Sys2Proof.Machine

/-- Clamp to the integer type of a CVTFI minor function (R177). -/
def clampType (fn : Nat) (x : Int) : Int :=
  match fn with
  | 0 => clampInt (-2147483648) 2147483647 x
  | 1 => clampInt 0 4294967295 x
  | 2 => clampInt (-32768) 32767 x
  | 3 => clampInt 0 65535 x
  | 4 => clampInt (-128) 127 x
  | _ => clampInt 0 255 x
/-- The direction of CVTFI (R177). -/
def Wave.f2iMode (w : Wave) (r : BitVec 2) : RMode :=
  match w.f2i with
  | 1 => .rz | 2 => .rne | _ => w.rnd r

/-- CVTFI (R177). -/
def execCvtfi (f : FmtV) (s : State) : Out :=
  fltWord (.cvtfi f) s { cvtfi := true } (srcRegs f 1) f.vd.toNat (fun w l =>
    wrap32 (clampType f.fn.toNat ((w.fin false false (w.selF f.a l)).toInt (w.f2iMode f.rnd))))

/-- CVTIF (R178): the integer rounded once. -/
def execCvtif (f : FmtV) (s : State) : Out :=
  fltWord (.cvtif f) s {} (srcRegs f 1) f.vd.toNat (fun w l =>
    let x := w.selW f.a l
    let v := FVal.ofRat false (mkRat (if f.fn.getLsbD 0 then (zval x : Int) else sval x) 1)
    let h : Fmt := match f.fn.toNat / 2 with | 0 => .f32 | 1 => .f16 | _ => .bf16
    BitVec.ofNat 32 (w.hout h (w.rnd f.rnd) false v))

/-- Source and destination formats of CVTFF (R176). -/
def cvtffFmts (fn : Nat) : Fmt × Fmt :=
  match fn with
  | 0 => (.f16, .f32)
  | 1 => (.bf16, .f32)
  | 2 => (.f32, .f16)
  | 3 => (.f32, .bf16)
  | 4 => (.f16, .bf16)
  | _ => (.bf16, .f16)
/-- CVTFF (R178). -/
def execCvtff (f : FmtV) (s : State) : Out :=
  let q := cvtffFmts f.fn.toNat
  fltWord (.cvtff f) s { fp16 := decide (q.1 = .f16) || decide (q.2 = .f16) } (srcRegs f 1) f.vd.toNat (fun w l =>
    let x := (if q.1 = .f32 then w.selF f.a l else w.selH q.1 f.a l).toNat % 2 ^ q.1.width
    BitVec.ofNat 32 (w.hout q.2 (w.rnd f.rnd) false (w.hin q.1 false false x)))

/-- The format of a packed field (R176). -/
def packFmt (fn : Nat) : Fmt :=
  match fn with
  | 0 => .f16 | 1 => .bf16 | 2 => .fE4M3 | 3 => .fE5M2 | 4 => .fE3M2 | 5 => .fE2M3 | _ => .fE2M1
/-- Fields per register (R179). -/
def packFields (fn : Nat) : Nat := if fn < 2 then 2 else if fn < 6 then 4 else 8
/-- The bit position of field k (R179). -/
def fieldPos (fn k : Nat) : Nat := (packFmt fn).width * (k % packFields fn)
/-- CVTPK's converted code (R179). -/
def Wave.pkCode (w : Wave) (f : FmtV) (l : Nat) : Rounded :=
  (packFmt f.fn.toNat).convert (w.rnd f.rnd) (w.fin false false (w.selF f.a l))

/-- Write lanes, and count SATURATE once for each saturated conversion (R75, R82): a lane word that also counts. -/
def satWord (i : Instr) (s : State) (u : LegacyUse) (regs : List Nat) (d : Nat) (g : Wave → Nat → W32) (n : Wave → Nat) : Out :=
  sysWord i s (fun c k w =>
    if w.regRange (d :: regs) then s.trapAt c k w w.regRangeTrap
    else
      match w.legacy u with
      | some e => s.trapAt c k w (w.legacyTrap e)
      | none =>
        let s := if n w = 0 then s else s.count 5 (dieOfCore c) 7 (n w)
        s.setWave c k (w.perLane d (g w)).done)

/-- CVTPK (R179): one field is replaced, the others are kept. -/
def execCvtpk (f : FmtV) (s : State) : Out :=
  let fn := f.fn.toNat
  let h := packFmt fn
  satWord (.cvtpk f) s { fp16 := decide (fn = 0) } (srcRegs f 2) f.vd.toNat
    (fun w l =>
      let p := fieldPos fn (w.selW f.b l).toNat
      let x := (w.readV f.vd.toNat l).toNat
      let q := h.flush w.flushOut (w.pkCode f l).code
      BitVec.ofNat 32 (x - x / 2 ^ p % 2 ^ h.width * 2 ^ p + q * 2 ^ p))
    (fun w => (w.lanes.filter (fun l => h.saturates (w.pkCode f l))).length)

/-- The packed operand of CVTUNP: a constant fills both 16-bit fields in their format, and otherwise stands as an FP32 operand
does (R120; DEDUCED, log entry 71). -/
def Wave.selPacked (w : Wave) (fn : Nat) (sel : Sel) (l : Nat) : W32 :=
  if fn < 2 then w.selH (packFmt fn) sel l else w.selF sel l

/-- CVTUNP (R179): exact. -/
def execCvtunp (f : FmtV) (s : State) : Out :=
  let fn := f.fn.toNat
  let h := packFmt fn
  fltWord (.cvtunp f) s { fp16 := decide (fn = 0) } (srcRegs f 2) f.vd.toNat (fun w l =>
    let x := (w.selPacked fn f.a l).toNat / 2 ^ fieldPos fn (w.selW f.b l).toNat % 2 ^ h.width
    w.fout .rne false (w.hin h false false x))

/-! ### CVTQB (R180) -/

/-- The value of an E3M5 scale code (R68). -/
def e3m5Val (c : Nat) : Rat :=
  let e := c / 32 % 8
  if e = 0 then mkRat (c % 32 : Nat) 1 * pow2 (-8) else mkRat (32 + c % 32 : Nat) 1 * pow2 ((e : Int) - 9)
/-- The value of an E8M0 scale code below 0xFF (R67). -/
def e8m0Val (c : Nat) : Rat := pow2 ((c : Int) - 127)

/-- An element format of CVTQB: floating, or an integer of some bits. -/
structure QElem where
  fmt : Option Fmt
  bits : Nat
  n : Nat
  e3m5 : Bool
  emax : Rat

/-- The rows of R180. -/
def qElem (fn : Nat) : QElem :=
  match fn with
  | 0 => ⟨some .fE2M1, 4, 8, true, 6⟩
  | 1 => ⟨some .fE2M1, 4, 16, true, 6⟩
  | 2 => ⟨some .fE2M1, 4, 32, false, 6⟩
  | 3 => ⟨some .fE3M2, 6, 32, false, 28⟩
  | 4 => ⟨some .fE2M3, 6, 32, false, mkRat 15 2⟩
  | 5 => ⟨some .fE4M3, 8, 32, false, 448⟩
  | 6 => ⟨some .fE5M2, 8, 32, false, 57344⟩
  | 7 => ⟨none, 8, 32, false, 127⟩
  | _ => ⟨none, 4, 32, false, 7⟩
def QElem.scaleVal (q : QElem) (c : Nat) : Rat := if q.e3m5 then e3m5Val c else e8m0Val c
/-- The smallest scale not below a positive value, or the largest code and saturation (R180). -/
def QElem.scaleFor (q : QElem) (m : FVal) : Nat × Bool :=
  let codes := if q.e3m5 then (List.range 255).map (· + 1) else List.range 255
  let last := if q.e3m5 then 255 else 254
  match m with
  | .fin _ x =>
    match codes.find? (fun c => decide (x ≤ q.scaleVal c * q.emax)) with
    | some c => (c, false)
    | none => (last, true)
  | _ => (last, true)
/-- The largest of the magnitudes that are not NaN. -/
def maxMag (xs : List FVal) : FVal :=
  xs.foldl (fun m x => match x with | .nan => m | _ => if m.lt x.abs then x.abs else m) (.fin false 0)
/-- One element: its code, and whether SATURATE counts. -/
def QElem.elem (q : QElem) (m : RMode) (flush : Bool) (x : FVal) (s : Rat) : Nat × Bool :=
  let y := match x with | .fin n v => .fin n (v / s) | v => v
  match q.fmt with
  | some f => let r := f.convert m y
              (f.flush flush r.code, f.saturates r)
  | none =>
    let hi : Int := 2 ^ (q.bits - 1) - 1
    ((BitVec.ofInt q.bits (clampInt (-hi - 1) hi (y.toInt m))).toNat, false)

/-- A block of CVTQB (R180): the words of its active lanes and its SATURATE count. -/
def Wave.quantBlock (w : Wave) (f : FmtV) (q : QElem) (lanes : List Nat) : List (Nat × W32) × Nat :=
  let m := w.rnd f.rnd
  let xs := lanes.map (fun l => (l, w.fin false false (w.selF f.a l)))
  let nan := xs.any (fun x => x.2.isNan)
  let big := maxMag (xs.map (fun x => x.2))
  if nan && !q.e3m5 then (lanes.map (fun l => (l, 0xFF00)), 0)
  else
    let sc : Nat × Bool := if big.isZero then (if q.e3m5 then 0x80 else 0x7F, false) else q.scaleFor big
    let es := xs.map (fun x => (x.1, if x.2.isNan then (0, true) else q.elem m w.flushOut x.2 (q.scaleVal sc.1)))
    (es.map (fun e => (e.1, BitVec.ofNat 32 (sc.1 * 256 + e.2.1))),
      (if sc.2 then 1 else 0) + (es.filter (fun e => e.2.2)).length)
/-- Every block of a wave that has an active lane. -/
def Wave.quant (w : Wave) (f : FmtV) : List (Nat × W32) × Nat :=
  let q := qElem f.fn.toNat
  let blocks := (List.range (w.width / q.n)).map (fun b =>
    w.quantBlock f q (((List.range q.n).map (q.n * b + ·)).filter w.active))
  (blocks.flatMap (fun b => b.1), (blocks.map (fun b => b.2)).sum)

/-- CVTQB (R180). -/
def execCvtqb (f : FmtV) (s : State) : Out :=
  satWord (.cvtqb f) s {} (srcRegs f 1) f.vd.toNat
    (fun w l => (((w.quant f).1.find? (fun x => x.1 == l)).map (fun x => x.2)).getD 0)
    (fun w => (w.quant f).2)

end Sys2Proof.Machine
end

