-- ==== Sys2Proof/Machine/Fabric.lean ====
section
/-! DEFINITION. The steps of the memory fabric and of the host's accesses: fills and evictions (R275, R283, R286, R324), peer
forwarding and the Repeater (R298–R302), page walks (R418), host accesses (R277, R489, R498). -/

namespace Sys2Proof.Machine

/-- GDDR7_FILL (R275): a line becomes resident at its home slice, and the prefetches of it are answered (R304). -/
def execGddr7Fill (line : Nat) (s : State) : Out :=
  if !s.backed (line * 128) then .next s
  else .next ((Tbl.keys s.clusters).foldl (fun s c => s.fillPrefetch c line) (s.fill line))

/-- COLUMN_EVICTION (R286): a column evicts a line, its dirty bytes going home; those of a line of the host window may go in 8-byte
words, one at a time (R312). -/
def execColumnEviction (core line : Nat) (s : State) : Out :=
  .next (if (s.colLine core line).isNone then s
    else if hostWindow (line * 128) && s.flip 900620 then s.colCleanWord core line (s.choose 900621 16)
    else s.colEvict core line)

/-- CLUSTER_CACHE_EVICTION (R283): a copy leaves a cluster cache; a line that holds partials is never evicted (R327). -/
def execClusterCacheEviction (cluster line : Nat) (s : State) : Out :=
  match Tbl.get? (s.cluster cluster).lines line with
  | none => .next s
  | some l => .next (if l.state = .updateOnly then s else s.dropCopy cluster line)

/-- L2_EVICTION (R288, R301, R324): a home slice evicts a line, or a helper a replica, at a time the device does not state. -/
def execL2Eviction (line : Nat) (s : State) : Out :=
  let reps := s.mem.replicas.filter (fun r => decide (r.1 = line))
  match reps[s.choose 900601 (reps.length + 1)]? with
  | some r => .next { s with mem := { s.mem with replicas := s.mem.replicas.filter (fun x => !decide (x = r)) } }
  | none => .next (s.l2Evict line)

/-- A read that may be probed for or redirected: a plain load of an RC or UO line by a core of the cluster, not performed, that holds
a miss-status entry for the line (R299, R301, R303). -/
def State.eligibleRead (s : State) (cl line : Nat) : Bool :=
  (Tbl.get? (s.cluster cl).lines line).isNone &&
    s.waves.any (fun r => decide (clusterOf (r.1 / 32) = cl) && r.2.reqs.any (fun q =>
      decide (q.sem = 0) && !q.versioned && s.missReady cl line (r.1, q.id) && q.accs.any (fun a => !a.done && decide (a.op = .read)
        && decide (a.lvl = .glob) && decide (a.pa / 128 = line) && (decide (a.kind = .rc) || decide (a.kind = .uo)))))

/-- PEER_PROBE (R299, R300): the predicted peer forwards its read-only line, or misses, and the entry is cleared and the home
asked. -/
def execPeerProbe (cluster line : Nat) (s : State) : Out :=
  let k := s.cluster cluster
  match Tbl.get? k.peers (peerIndex line) with
  | none => .next s
  | some p =>
    if s.eligibleRead cluster line && !k.redirects.any (fun r => decide (r.1 = line)) then
      .next (s.probePeer cluster line p false).1
    else .next s

/-- REDIRECTED_READ (R302): served by a replica, or passed on to the home. -/
def execRedirectedRead (cluster line : Nat) (s : State) : Out :=
  match (s.cluster cluster).redirects.find? (fun r => decide (r.1 = line)) with
  | none => .next s
  | some r => .next (if s.eligibleRead cluster line then (s.redirectedRead cluster line r.2 false).1 else s)

/-- PAGE_WALK (R27, R418, R419): a walk of a leaf, afresh, as after its entry has left the TLBs: it takes one of the die's 512
walkers, or waits for one; at a later turn, with a walker, it ends in a leaf or a fault. -/
def execPageWalk (cluster : Nat) (va : W64) (s : State) : Out :=
  if s.coreCount / 4 ≤ cluster then .next s
  else
    let n := dieOfCluster cluster
    let me := (s.win.ctxid, s.walkName va)
    let d := s.die n
    if (d.walks.take 512).any (walkCovers va) then
      let keep := fun (l : List TlbEntry) => l.filter (fun t => !t.covers s.win.ctxid va)
      let k := s.cluster cluster
      let s := s.setCluster cluster { k with tlb := keep k.tlb }
      .next (((s.setDie n { d with tlb := keep d.tlb }).touchTlb cluster va).leaveWalk n va)
    else if d.walks.any (walkCovers va) then .next s
    else if d.walks.length < 512 then .next ((s.setDie n { d with walks := d.walks ++ [me] }).count 4 n 0x12 1)
    else .next (s.queueFor (.walker n me))

/-! ### The host (R277, R489, R498) -/

/-- Whether the host reaches [pa, pa + n) of device memory. -/
def State.hostReaches (s : State) (pa n : Nat) : Bool :=
  s.fred.cxlUp && s.fred.running && decide (6 ≤ s.fred.stage) && decide (0 < n) && (List.range n).all (fun i => devWindow (pa + i) && s.backed (pa + i))

/-- HOST_WRITE (R277, R498): ordered at its home like any write; held while a checkpoint runs. -/
def execHostWrite (pa : Nat) (data : List Byte) (s : State) : Out :=
  if !s.hostReaches pa data.length then .next s
  else if (match s.fred.ckpt with | some (_, n) => decide (1 ≤ n) | none => false) then
    .next { s with fred := { s.fred with heldWrites := s.fred.heldWrites ++ [(pa, data)] } }
  else .next (s.homeWriteBytes pa data none)

/-- HOST_READ (R489): served at the home slice; what the host receives leaves the machine. Bytes of a poisoned line go as zero, and are
counted (R291, R292). -/
def execHostRead (pa n : Nat) (s : State) : Out :=
  if s.hostReaches pa n then
    let r := s.homeReadBytes none pa n
    .next (if r.2.2 then r.1.countErr (dieOfSlice (s.home (pa / 128))) 2 else r.1)
  else .next s

/-- HOST_INVALIDATE (R277): the host writes a line of its own memory; the device's copies go before its write completes; a write
of less than the line leaves its POISON set (R292). -/
def execHostInvalidate (line : Nat) (data : List Byte) (s : State) : Out :=
  if !hostWindow (line * 128) || !s.fred.cxlUp || decide (128 < data.length) then .next s
  else
    let s := (s.recall line).dropOthers line none
    let cs := cellsAt (line * 128) data
    let keep := match s.l2line line with
      | some l => l.poison && decide (data.length < 128)
      | none => false
    .next { s with mem := { s.mem with home := Mem.overlay s.mem.home cs
                                       dram := Mem.overlay (Mem.overlay (Mem.clear s.mem.dram (line * 128) 128)
                                         (Mem.slice s.mem.home (line * 128) 128 (line * 128))) cs
                                       l2 := if keep then s.mem.l2 else Tbl.del s.mem.l2 line } }

end Sys2Proof.Machine
end

