-- ==== Sys2Proof/Machine/Dispatch.lean ====
section
/-! DEFINITION. One arm for each instruction: the call of its meaning. -/

namespace Sys2Proof.Machine

def exec (i : Instr) (s : State) : Host.Outcome State Fault Refusal :=
  match i with
  | .sadd f => Sys2Proof.Machine.execSadd f s
  | .ssub f => Sys2Proof.Machine.execSsub f s
  | .smul f => Sys2Proof.Machine.execSmul f s
  | .smulhi f => Sys2Proof.Machine.execSmulhi f s
  | .sdiv f => Sys2Proof.Machine.execSdiv f s
  | .sand f => Sys2Proof.Machine.execSand f s
  | .sor f => Sys2Proof.Machine.execSor f s
  | .sxor f => Sys2Proof.Machine.execSxor f s
  | .sshl f => Sys2Proof.Machine.execSshl f s
  | .sshr f => Sys2Proof.Machine.execSshr f s
  | .srot f => Sys2Proof.Machine.execSrot f s
  | .scmp f => Sys2Proof.Machine.execScmp f s
  | .ssel f => Sys2Proof.Machine.execSsel f s
  | .smov f => Sys2Proof.Machine.execSmov f s
  | .smin f => Sys2Proof.Machine.execSmin f s
  | .smax f => Sys2Proof.Machine.execSmax f s
  | .sbfx f => Sys2Proof.Machine.execSbfx f s
  | .sbfi f => Sys2Proof.Machine.execSbfi f s
  | .sbitc f => Sys2Proof.Machine.execSbitc f s
  | .sadd64 f => Sys2Proof.Machine.execSadd64 f s
  | .ssub64 f => Sys2Proof.Machine.execSsub64 f s
  | .smad64 f => Sys2Proof.Machine.execSmad64 f s
  | .sli f => Sys2Proof.Machine.execSli f s
  | .vadd f => Sys2Proof.Machine.execVadd f s
  | .vaddImm f => Sys2Proof.Machine.execVaddImm f s
  | .vsub f => Sys2Proof.Machine.execVsub f s
  | .vsubImm f => Sys2Proof.Machine.execVsubImm f s
  | .vmul f => Sys2Proof.Machine.execVmul f s
  | .vmulImm f => Sys2Proof.Machine.execVmulImm f s
  | .vmulhi f => Sys2Proof.Machine.execVmulhi f s
  | .vmulhiImm f => Sys2Proof.Machine.execVmulhiImm f s
  | .vmad f => Sys2Proof.Machine.execVmad f s
  | .vand f => Sys2Proof.Machine.execVand f s
  | .vandImm f => Sys2Proof.Machine.execVandImm f s
  | .vor f => Sys2Proof.Machine.execVor f s
  | .vorImm f => Sys2Proof.Machine.execVorImm f s
  | .vxor f => Sys2Proof.Machine.execVxor f s
  | .vxorImm f => Sys2Proof.Machine.execVxorImm f s
  | .vshl f => Sys2Proof.Machine.execVshl f s
  | .vshlImm f => Sys2Proof.Machine.execVshlImm f s
  | .vshr f => Sys2Proof.Machine.execVshr f s
  | .vshrImm f => Sys2Proof.Machine.execVshrImm f s
  | .vrot f => Sys2Proof.Machine.execVrot f s
  | .vrotImm f => Sys2Proof.Machine.execVrotImm f s
  | .vmin f => Sys2Proof.Machine.execVmin f s
  | .vminImm f => Sys2Proof.Machine.execVminImm f s
  | .vmax f => Sys2Proof.Machine.execVmax f s
  | .vmaxImm f => Sys2Proof.Machine.execVmaxImm f s
  | .vcmp f => Sys2Proof.Machine.execVcmp f s
  | .vcmpImm f => Sys2Proof.Machine.execVcmpImm f s
  | .vsel f => Sys2Proof.Machine.execVsel f s
  | .vmov f => Sys2Proof.Machine.execVmov f s
  | .vbfx f => Sys2Proof.Machine.execVbfx f s
  | .vbfi f => Sys2Proof.Machine.execVbfi f s
  | .vbitc f => Sys2Proof.Machine.execVbitc f s
  | .vsad f => Sys2Proof.Machine.execVsad f s
  | .vadd64 f => Sys2Proof.Machine.execVadd64 f s
  | .vadd64Imm f => Sys2Proof.Machine.execVadd64Imm f s
  | .vmad64 f => Sys2Proof.Machine.execVmad64 f s
  | .vdot4 f => Sys2Proof.Machine.execVdot4 f s
  | .vperm f => Sys2Proof.Machine.execVperm f s
  | .fadd f => Sys2Proof.Machine.execFadd f s
  | .faddImm f => Sys2Proof.Machine.execFaddImm f s
  | .fsub f => Sys2Proof.Machine.execFsub f s
  | .fsubImm f => Sys2Proof.Machine.execFsubImm f s
  | .fmul f => Sys2Proof.Machine.execFmul f s
  | .fmulImm f => Sys2Proof.Machine.execFmulImm f s
  | .ffma f => Sys2Proof.Machine.execFfma f s
  | .fmin f => Sys2Proof.Machine.execFmin f s
  | .fminImm f => Sys2Proof.Machine.execFminImm f s
  | .fmax f => Sys2Proof.Machine.execFmax f s
  | .fmaxImm f => Sys2Proof.Machine.execFmaxImm f s
  | .fcmp f => Sys2Proof.Machine.execFcmp f s
  | .fcmpImm f => Sys2Proof.Machine.execFcmpImm f s
  | .frnd f => Sys2Proof.Machine.execFrnd f s
  | .ffract f => Sys2Proof.Machine.execFfract f s
  | .fclass f => Sys2Proof.Machine.execFclass f s
  | .fldexp f => Sys2Proof.Machine.execFldexp f s
  | .fldexpImm f => Sys2Proof.Machine.execFldexpImm f s
  | .ffrexp f => Sys2Proof.Machine.execFfrexp f s
  | .hadd2 f => Sys2Proof.Machine.execHadd2 f s
  | .hmul2 f => Sys2Proof.Machine.execHmul2 f s
  | .hfma2 f => Sys2Proof.Machine.execHfma2 f s
  | .hdot2 f => Sys2Proof.Machine.execHdot2 f s
  | .cvtfi f => Sys2Proof.Machine.execCvtfi f s
  | .cvtif f => Sys2Proof.Machine.execCvtif f s
  | .cvtff f => Sys2Proof.Machine.execCvtff f s
  | .cvtpk f => Sys2Proof.Machine.execCvtpk f s
  | .cvtunp f => Sys2Proof.Machine.execCvtunp f s
  | .cvtqb f => Sys2Proof.Machine.execCvtqb f s
  | .frcp f => Sys2Proof.Machine.execFrcp f s
  | .frsq f => Sys2Proof.Machine.execFrsq f s
  | .fsqrt f => Sys2Proof.Machine.execFsqrt f s
  | .fexp2 f => Sys2Proof.Machine.execFexp2 f s
  | .flog2 f => Sys2Proof.Machine.execFlog2 f s
  | .fsin f => Sys2Proof.Machine.execFsin f s
  | .fcos f => Sys2Proof.Machine.execFcos f s
  | .ftanh f => Sys2Proof.Machine.execFtanh f s
  | .lbcast f => Sys2Proof.Machine.execLbcast f s
  | .lshuf f => Sys2Proof.Machine.execLshuf f s
  | .lrot f => Sys2Proof.Machine.execLrot f s
  | .lquad f => Sys2Proof.Machine.execLquad f s
  | .lballot f => Sys2Proof.Machine.execLballot f s
  | .lred f => Sys2Proof.Machine.execLred f s
  | .lscan f => Sys2Proof.Machine.execLscan f s
  | .lmatch f => Sys2Proof.Machine.execLmatch f s
  | .lhist f => Sys2Proof.Machine.execLhist f s
  | .lmerge f => Sys2Proof.Machine.execLmerge f s
  | .lfirst f => Sys2Proof.Machine.execLfirst f s
  | .lderiv f => Sys2Proof.Machine.execLderiv f s
  | .lcount f => Sys2Proof.Machine.execLcount f s
  | .bra f => Sys2Proof.Machine.execBra f s
  | .brs f => Sys2Proof.Machine.execBrs f s
  | .brm f => Sys2Proof.Machine.execBrm f s
  | .brx f => Sys2Proof.Machine.execBrx f s
  | .mark f => Sys2Proof.Machine.execMark f s
  | .join f => Sys2Proof.Machine.execJoin f s
  | .call f => Sys2Proof.Machine.execCall f s
  | .ret f => Sys2Proof.Machine.execRet f s
  | .loop f => Sys2Proof.Machine.execLoop f s
  | .waitc f => Sys2Proof.Machine.execWaitc f s
  | .yield f => Sys2Proof.Machine.execYield f s
  | .halt f => Sys2Proof.Machine.execHalt f s
  | .trap f => Sys2Proof.Machine.execTrap f s
  | .nop f => Sys2Proof.Machine.execNop f s
  | .mask f => Sys2Proof.Machine.execMask f s
  | .sleep f => Sys2Proof.Machine.execSleep f s
  | .ldl f => Sys2Proof.Machine.execLdl f s
  | .stl f => Sys2Proof.Machine.execStl f s
  | .lds f => Sys2Proof.Machine.execLds f s
  | .sts f => Sys2Proof.Machine.execSts f s
  | .ldc f => Sys2Proof.Machine.execLdc f s
  | .stc f => Sys2Proof.Machine.execStc f s
  | .ldp f => Sys2Proof.Machine.execLdp f s
  | .stp f => Sys2Proof.Machine.execStp f s
  | .ldg f => Sys2Proof.Machine.execLdg f s
  | .stg f => Sys2Proof.Machine.execStg f s
  | .sld f => Sys2Proof.Machine.execSld f s
  | .sst f => Sys2Proof.Machine.execSst f s
  | .ldq f => Sys2Proof.Machine.execLdq f s
  | .pfg f => Sys2Proof.Machine.execPfg f s
  | .tld f => Sys2Proof.Machine.execTld f s
  | .tst f => Sys2Proof.Machine.execTst f s
  | .clean f => Sys2Proof.Machine.execClean f s
  | .inval f => Sys2Proof.Machine.execInval f s
  | .discard f => Sys2Proof.Machine.execDiscard f s
  | .atom f => Sys2Proof.Machine.execAtom f s
  | .acas f => Sys2Proof.Machine.execAcas f s
  | .red f => Sys2Proof.Machine.execRed f s
  | .fence f => Sys2Proof.Machine.execFence f s
  | .mfmt f => Sys2Proof.Machine.execMfmt f s
  | .mzero f => Sys2Proof.Machine.execMzero f s
  | .mma f => Sys2Proof.Machine.execMma f s
  | .mmat f => Sys2Proof.Machine.execMmat f s
  | .mld f => Sys2Proof.Machine.execMld f s
  | .mst f => Sys2Proof.Machine.execMst f s
  | .mcvt f => Sys2Proof.Machine.execMcvt f s
  | .mset f => Sys2Proof.Machine.execMset f s
  | .madd f => Sys2Proof.Machine.execMadd f s
  | .mloop f => Sys2Proof.Machine.execMloop f s
  | .mbr f => Sys2Proof.Machine.execMbr f s
  | .marr f => Sys2Proof.Machine.execMarr f s
  | .mwait f => Sys2Proof.Machine.execMwait f s
  | .mhalt f => Sys2Proof.Machine.execMhalt f s
  | .chdef f => Sys2Proof.Machine.execChdef f s
  | .chres f => Sys2Proof.Machine.execChres f s
  | .chcom f => Sys2Proof.Machine.execChcom f s
  | .chacq f => Sys2Proof.Machine.execChacq f s
  | .chrel f => Sys2Proof.Machine.execChrel f s
  | .chqry f => Sys2Proof.Machine.execChqry f s
  | .cpyin f => Sys2Proof.Machine.execCpyin f s
  | .cpyout f => Sys2Proof.Machine.execCpyout f s
  | .cpyg f => Sys2Proof.Machine.execCpyg f s
  | .idxwalk f => Sys2Proof.Machine.execIdxwalk f s
  | .gather f => Sys2Proof.Machine.execGather f s
  | .publish f => Sys2Proof.Machine.execPublish f s
  | .ecplDep f => Sys2Proof.Machine.execEcplDep f s
  | .ecplArr f => Sys2Proof.Machine.execEcplArr f s
  | .sqpush f => Sys2Proof.Machine.execSqpush f s
  | .sqpop f => Sys2Proof.Machine.execSqpop f s
  | .barr f => Sys2Proof.Machine.execBarr f s
  | .barw f => Sys2Proof.Machine.execBarw f s
  | .barrw f => Sys2Proof.Machine.execBarrw f s
  | .phbeg f => Sys2Proof.Machine.execPhbeg f s
  | .phwait f => Sys2Proof.Machine.execPhwait f s
  | .launch f => Sys2Proof.Machine.execLaunch f s
  | .rsub f => Sys2Proof.Machine.execRsub f s
  | .tsdep f => Sys2Proof.Machine.execTsdep f s
  | .tscpy f => Sys2Proof.Machine.execTscpy f s
  | .tstake f => Sys2Proof.Machine.execTstake f s
  | .tscpyn f => Sys2Proof.Machine.execTscpyn f s
  | .tstaken f => Sys2Proof.Machine.execTstaken f s
  | .tscan f => Sys2Proof.Machine.execTscan f s
  | .gtcfgSend f => Sys2Proof.Machine.execGtcfgSend f s
  | .gtcfgDest f => Sys2Proof.Machine.execGtcfgDest f s
  | .gtrsv f => Sys2Proof.Machine.execGtrsv f s
  | .gtsend f => Sys2Proof.Machine.execGtsend f s
  | .gtdrain f => Sys2Proof.Machine.execGtdrain f s
  | .gtdrainPhase f => Sys2Proof.Machine.execGtdrainPhase f s
  | .gtrel f => Sys2Proof.Machine.execGtrel f s
  | .rbox f => Sys2Proof.Machine.execRbox f s
  | .rtri f => Sys2Proof.Machine.execRtri f s
  | .rpush f => Sys2Proof.Machine.execRpush f s
  | .rpop f => Sys2Proof.Machine.execRpop f s
  | .rhit f => Sys2Proof.Machine.execRhit f s
  | .afetch f => Sys2Proof.Machine.execAfetch f s
  | .abary f => Sys2Proof.Machine.execAbary f s
  | .ainterp f => Sys2Proof.Machine.execAinterp f s
  | .visld f => Sys2Proof.Machine.execVisld f s
  | .smpl f => Sys2Proof.Machine.execSmpl f s
  | .smpll f => Sys2Proof.Machine.execSmpll f s
  | .pxout f => Sys2Proof.Machine.execPxout f s
  | .tret f => Sys2Proof.Machine.execTret f s
  | .srd f => Sys2Proof.Machine.execSrd f s
  | .swr f => Sys2Proof.Machine.execSwr f s
  | .eret f => Sys2Proof.Machine.execEret f s
  | .brk f => Sys2Proof.Machine.execBrk f s
  | .cntrd f => Sys2Proof.Machine.execCntrd f s
  | .cntcfg f => Sys2Proof.Machine.execCntcfg f s
  | .time f => Sys2Proof.Machine.execTime f s
  | .isync f => Sys2Proof.Machine.execIsync f s
  | .clauseFetch a => Sys2Proof.Machine.execClauseFetch a s
  | .clauseWaitMet a => Sys2Proof.Machine.execClauseWaitMet a s
  | .promotion a => Sys2Proof.Machine.execPromotion a s
  | .requestReturn a p => Sys2Proof.Machine.execRequestReturn a p s
  | .pendingFaultDelivery a => Sys2Proof.Machine.execPendingFaultDelivery a s
  | .poisonStop a => Sys2Proof.Machine.execPoisonStop a s
  | .launchQueueRefetch q => Sys2Proof.Machine.execLaunchQueueRefetch q s
  | .launchRecordRead q => Sys2Proof.Machine.execLaunchRecordRead q s
  | .launchActivation l => Sys2Proof.Machine.execLaunchActivation l s
  | .placementDecision => Sys2Proof.Machine.execPlacementDecision s
  | .launchCompletion l => Sys2Proof.Machine.execLaunchCompletion l s
  | .vacateWaveStop a => Sys2Proof.Machine.execVacateWaveStop a s
  | .teamSave t => Sys2Proof.Machine.execTeamSave t s
  | .vacateComplete => Sys2Proof.Machine.execVacateComplete s
  | .droopEvent core => Sys2Proof.Machine.execDroopEvent core s
  | .droopWindowClose meanPower => Sys2Proof.Machine.execDroopWindowClose meanPower s
  | .tempSample core reading => Sys2Proof.Machine.execTempSample core reading s
  | .overtemp die => Sys2Proof.Machine.execOvertemp die s
  | .timeSliceExpiry => Sys2Proof.Machine.execTimeSliceExpiry s
  | .watchdog a => Sys2Proof.Machine.execWatchdog a s
  | .sleepWake a => Sys2Proof.Machine.execSleepWake a s
  | .channelWaitServed a => Sys2Proof.Machine.execChannelWaitServed a s
  | .streamQueueWaitServed a => Sys2Proof.Machine.execStreamQueueWaitServed a s
  | .phaseComplete t => Sys2Proof.Machine.execPhaseComplete t s
  | .phaseWatchRegister t => Sys2Proof.Machine.execPhaseWatchRegister t s
  | .engineFire c => Sys2Proof.Machine.execEngineFire c s
  | .engineComplete c => Sys2Proof.Machine.execEngineComplete c s
  | .publishFlip c => Sys2Proof.Machine.execPublishFlip c s
  | .launchEnqueue c => Sys2Proof.Machine.execLaunchEnqueue c s
  | .mmaFire core => Sys2Proof.Machine.execMmaFire core s
  | .arrayWordEnd core => Sys2Proof.Machine.execArrayWordEnd core s
  | .transferWordBegin core => Sys2Proof.Machine.execTransferWordBegin core s
  | .transferWordEnd core => Sys2Proof.Machine.execTransferWordEnd core s
  | .mfmtComplete core fb => Sys2Proof.Machine.execMfmtComplete core fb s
  | .quarterGated core q => Sys2Proof.Machine.execQuarterGated core q s
  | .quarterAwake core q => Sys2Proof.Machine.execQuarterAwake core q s
  | .gtCheckAnswer core => Sys2Proof.Machine.execGtCheckAnswer core s
  | .gtFlitArrival f => Sys2Proof.Machine.execGtFlitArrival f s
  | .gtFlitAck f => Sys2Proof.Machine.execGtFlitAck f s
  | .tupleDeposit r => Sys2Proof.Machine.execTupleDeposit r s
  | .tupleMatch r => Sys2Proof.Machine.execTupleMatch r s
  | .tupleRetry r => Sys2Proof.Machine.execTupleRetry r s
  | .tupleCancel r => Sys2Proof.Machine.execTupleCancel r s
  | .tupleTimeout r => Sys2Proof.Machine.execTupleTimeout r s
  | .tsFull r => Sys2Proof.Machine.execTsFull r s
  | .homeWrite a rq x => Sys2Proof.Machine.execHomeWrite a rq x s
  | .homeRead a rq x => Sys2Proof.Machine.execHomeRead a rq x s
  | .atomicAtHome a rq x => Sys2Proof.Machine.execAtomicAtHome a rq x s
  | .redContribution a rq x => Sys2Proof.Machine.execRedContribution a rq x s
  | .gddr7Fill line => Sys2Proof.Machine.execGddr7Fill line s
  | .columnEviction core line => Sys2Proof.Machine.execColumnEviction core line s
  | .peerProbe cluster line => Sys2Proof.Machine.execPeerProbe cluster line s
  | .redirectedRead cluster line => Sys2Proof.Machine.execRedirectedRead cluster line s
  | .pageWalk cluster va => Sys2Proof.Machine.execPageWalk cluster va s
  | .hostWrite pa data => Sys2Proof.Machine.execHostWrite pa data s
  | .hostRead pa n => Sys2Proof.Machine.execHostRead pa n s
  | .hostInvalidate line data => Sys2Proof.Machine.execHostInvalidate line data s
  | .rasterBatch die => Sys2Proof.Machine.execRasterBatch die s
  | .frameClose die => Sys2Proof.Machine.execFrameClose die s
  | .classifyTile die engine => Sys2Proof.Machine.execClassifyTile die engine s
  | .binWaveClose die material => Sys2Proof.Machine.execBinWaveClose die material s
  | .binflushTimeout die material => Sys2Proof.Machine.execBinflushTimeout die material s
  | .tlbinv => Sys2Proof.Machine.execTlbinv s
  | .tlbinvComplete => Sys2Proof.Machine.execTlbinvComplete s
  | .vacate => Sys2Proof.Machine.execVacate s
  | .tsclear => Sys2Proof.Machine.execTsclear s
  | .wresume core slot sc => Sys2Proof.Machine.execWresume core slot sc s
  | .wend core slot sc => Sys2Proof.Machine.execWend core slot sc s
  | .dbghalt core slot sc => Sys2Proof.Machine.execDbghalt core slot sc s
  | .dresume core slot sc => Sys2Proof.Machine.execDresume core slot sc s
  | .ctxid v => Sys2Proof.Machine.execCtxid v s
  | .tslice v => Sys2Proof.Machine.execTslice v s
  | .trapq reg v => Sys2Proof.Machine.execTrapq reg v s
  | .launchQueueEnable q v => Sys2Proof.Machine.execLaunchQueueEnable q v s
  | .bufferEntryWrite b word v => Sys2Proof.Machine.execBufferEntryWrite b word v s
  | .materialEntryWrite m word v => Sys2Proof.Machine.execMaterialEntryWrite m word v s
  | .registerWrite off v => Sys2Proof.Machine.execRegisterWrite off v s
  | .debugRead st addr n => Sys2Proof.Machine.execDebugRead st addr n s
  | .powerOnReset => Sys2Proof.Machine.execPowerOnReset s
  | .bootStage failed => Sys2Proof.Machine.execBootStage failed s
  | .bootok v => Sys2Proof.Machine.execBootok v s
  | .bootokTimeout => Sys2Proof.Machine.execBootokTimeout s
  | .fullretry => Sys2Proof.Machine.execFullretry s
  | .bootstat => Sys2Proof.Machine.execBootstat s
  | .attest nonce => Sys2Proof.Machine.execAttest nonce s
  | .ckpt target => Sys2Proof.Machine.execCkpt target s
  | .ckptComplete => Sys2Proof.Machine.execCkptComplete s
  | .restore source => Sys2Proof.Machine.execRestore source s
  | .supplySet die mv => Sys2Proof.Machine.execSupplySet die mv s
  | .columnPowerState st p => Sys2Proof.Machine.execColumnPowerState st p s
  | .debugSessionRelease st => Sys2Proof.Machine.execDebugSessionRelease st s
  | .debugRegisterWrite a reg v => Sys2Proof.Machine.execDebugRegisterWrite a reg v s
  | .clusterCacheEviction cluster line => Sys2Proof.Machine.execClusterCacheEviction cluster line s
  | .l2Eviction line => Sys2Proof.Machine.execL2Eviction line s
  | .versionWordRetry a rq => Sys2Proof.Machine.execVersionWordRetry a rq s
  | .counterMirrorRefresh core => Sys2Proof.Machine.execCounterMirrorRefresh core s
  | .firmwareUpdate image sig => Sys2Proof.Machine.execFirmwareUpdate image sig s
  | .lostCxlLink => Sys2Proof.Machine.execLostCxlLink s
  | .linkFailure die loop => Sys2Proof.Machine.execLinkFailure die loop s

end Sys2Proof.Machine
end

