-- ==== Sys2Proof/Machine/Upsets.lean ====
section
/-! DEFINITION. Errors that arise in the stores (R291): what each does at once. The bytes an uncorrectable error covers read as zero
from then on and the words are marked, so that whoever consumes them sees the error (R292); and what a word consumes at issue. -/

namespace Sys2Proof.Machine

/-! ### Where an error arises (R291) -/

/-- An uncorrectable error in a line of a slice: a dirty line is poisoned; a clean one is dropped and refetched, with the value it
had. -/
def State.upsetL2 (s : State) (line : Nat) : State :=
  match s.l2line line with
  | none => s
  | some l =>
    if l.poison then s else if l.dirty then s.setPoison line else s.countErr (dieOfSlice (s.home line)) 1
/-- An uncorrectable error in a cluster's copy: a read-only copy is dropped and refetched; with any other the line is poisoned. -/
def State.upsetCopy (s : State) (c line : Nat) : State :=
  match Tbl.get? (s.cluster c).lines line with
  | none => s
  | some l =>
    if l.state = .readOnly then (s.dropCopy c line).countErr (dieOfCluster c) 1 else (s.dropCopy c line).setPoison line

/-- The number of 64-bit words of a store. -/
def State.storeWords (s : State) (st : Store) : Nat :=
  match st with
  | .scratch => s.coreCount * 2 ^ 16
  | .chip => s.coreCount / 48 * 2 ^ 23
  | .acc => s.coreCount * 2 ^ 15
  | .rows => s.coreCount * 2 ^ 23
/-- An uncorrectable error in a word of a store. -/
def State.upsetWord (s : State) (st : Store) (word : Nat) : State :=
  if s.storeWords st ≤ word then s
  else
    match st with
    | .chip => s.upsetChip word
    | _ => s.upsetStore st word

/-- An uncorrectable error in a word of a wave's register files or slices, by its key in `badW`. -/
def Wave.upset (w : Wave) (key : Nat) : Wave :=
  let bad := if key ∈ w.badW then w.badW else key :: w.badW
  if key < 64 then { w with s := Tbl.put (Tbl.put w.s (2 * key) 0 0) (2 * key + 1) 0 0, badW := bad }
  else if key < 2 ^ 20 then
    let n := (key - 64) / 64
    let l := 2 * ((key - 64) % 64)
    if n < w.vregs ∧ l < w.width then
      { w with v := Tbl.put (Tbl.put w.v (128 * n + l) 0 0) (128 * n + l + 1) 0 0, badW := bad }
    else w
  else
    let a := 8 * (key - 2 ^ 20)
    if a % 8192 < w.lanePriv ∧ a / 8192 < w.width then { w with lp := Mem.clear w.lp a 8, badW := bad } else w

/-- The 12 bytes of a pixel entry (R425). -/
def Pix.bytes (p : Pix) : List Byte := bytesOf 8 p.id.toNat ++ bytesOf 4 p.depth.toNat
/-- Those of them that a word in error covers become zero: entry `n` lies at byte 12n of its slot. -/
def Pix.upset (p : Pix) (n word : Nat) : Pix :=
  let b := (List.range 12).map (fun j => if (12 * n + j) / 8 = word then 0 else p.bytes.getD j 0)
  ⟨BitVec.ofNat 64 (ofBytes (b.take 8)), BitVec.ofNat 32 (ofBytes (b.drop 8))⟩
/-- An uncorrectable error in a word of a tile's pinned lines (R428). -/
def State.upsetTile (s : State) (slot word : Nat) : State :=
  if 1024 * (s.coreCount / 48) ≤ slot ∨ 6144 ≤ word then s
  else
    let t := s.tile slot
    let s := (([8 * word / 12, (8 * word + 7) / 12]).eraseDups).foldl (fun (s : State) n =>
      { s with pix := Tbl.put s.pix (pixKey slot n) Pix.empty ((Tbl.getD s.pix (pixKey slot n) Pix.empty).upset n word) }) s
    s.setTile slot { t with bad := if word ∈ t.bad then t.bad else word :: t.bad }

/-- An uncorrectable error in the row buffer, in a word of the slab the oldest word of the array queue reads (R236). -/
def State.upsetRowBuf (s : State) (core word : Nat) : State :=
  s.updStream core (fun m =>
    match m.arrayQ with
    | q :: rest => if q.begun then { m with arrayQ := { q with rowBad := word :: q.rowBad } :: rest } else m
    | [] => m)

/-- An uncorrectable error in a contribution held in a receive entry: it is treated as a flit with one (R413). -/
def State.upsetHeld (s : State) (core chain n : Nat) : State :=
  let x := s.chain core chain
  match x.held[n]?, s.stream? core with
  | some h, some m =>
    if h.dropped then s
    else (s.setChain core chain { x with held := x.held.set n { h with dropped := true } }).lostRow core chain m.team
  | _, _ => s

/-- An uncorrectable error in a stored field of a tuple (R402): field 0 is the tag. -/
def State.upsetTuple (s : State) (h stamp field : Nat) : State :=
  let k := s.slice h
  s.setSlice h { k with tuples := k.tuples.map (fun t => if t.stamp = stamp then { t with bad := field :: t.bad } else t) }

/-- An error arises, or one is corrected (R291). -/
def State.upset (s : State) (u : Upset) : State :=
  match u with
  | .gddr l => if (s.l2line l).isNone && devWindow (l * 128) && s.backed (l * 128) then s.setPoison l else s
  | .l2 l => s.upsetL2 l
  | .cluster c l => s.upsetCopy c l
  | .column c l w => s.upsetCol c l w
  | .store st w => s.upsetWord st w
  | .wave c k w => s.updWave c k (fun x => x.upset w)
  | .tile t w => s.upsetTile t w
  | .rowBuf c w => s.upsetRowBuf c w
  | .held c x n => s.upsetHeld c x n
  | .flit f => { s with flits := Tbl.upd s.flits f (fun x => { x with bad := true }) }
  | .tuple h st f => s.upsetTuple h st f
  | .icache c l =>
    if (Tbl.get? (s.core c).icache l).isSome then
      (s.setCore c { s.core c with icache := Tbl.del (s.core c).icache l }).countErr (dieOfCore c) 1 else s
  | .clusterTlb c n =>
    let k := s.cluster c
    if n < k.tlb.length then (s.setCluster c { k with tlb := k.tlb.eraseIdx n }).countErr (dieOfCluster c) 1 else s
  | .sharedTlb d n =>
    let x := s.die d
    if n < x.tlb.length then (s.setDie d { x with tlb := x.tlb.eraseIdx n }).countErr d 1 else s
  | .corrected d => if d < s.coreCount / 48 then s.countErr d 0 else s
  | .resent d => if d < s.coreCount / 48 then s.countErr d 4 else s

/-! ### What a word consumes at issue (R292) -/

/-- The block of its team's scratchpad a word reads at issue: offset and size (R356, R361, R394). -/
def Wave.readsBlock (w : Wave) (i : Instr) : Option (Nat × Nat) :=
  match i with
  | .chdef f => some ((w.readS64 f.desc.toNat).toNat, 32)
  | .cpyin f | .cpyout f | .cpyg f | .idxwalk f | .gather f | .ecplDep f => some ((w.readS64 f.desc.toNat).toNat, 64)
  | .phbeg f => some (w.z f.sa, 32)
  | .tsdep f => some (w.z f.blk, 64)
  | .tscpy f | .tstake f | .tscpyn f | .tstaken f => some (w.z f.blk, 192)
  | _ => none
/-- A word of a wave issues for the first time: errors in its source registers and in the block it reads are consumed. -/
def State.seeBad (s : State) (c k : Nat) (w : Wave) (word : W64) : State :=
  if (w.badW.isEmpty && s.mem.bad.isEmpty) || w.blocked then s
  else
    match decodeWord word with
    | .error _ => s
    | .ok i =>
      let s := match w.srcBad (w.sources i) with | some m => s.sawBad c k 0 m | none => s
      match w.readsBlock i, s.team? w.team with
      | some b, some t => if s.badIn .scratch (scratchKey t.core (t.p + b.1)) b.2 then s.sawBad c k 0 w.mask else s
      | _, _ => s

end Sys2Proof.Machine
end

