-- ==== Sys2Proof/Machine/Turn.lean ====
section
/-! DEFINITION. One turn of an agent, of the clock, and of the agenda: what a step is made of. -/

namespace Sys2Proof.Machine

/-! ### The clock (R23, R486) and the counters that count every ck (R484) -/

/-- Why a wave does not issue, as the PMC events number it (R484). How long a miss in the instruction cache or a wait at a lookahead
limit lasts is timing: whether one of this ck's is such a wait is free. -/
def State.stallEvents (s : State) (key : Nat) (w : Wave) : List Nat :=
  if w.halted || w.stopped || w.dbg then []
  else
    match w.block with
    | .none =>
      if w.clause.isNone then (if s.flip (1000000 + key) then [0x0B] else [])
      else if !w.waitMet then (if w.waitsMet then [] else [0x08])
      else if !w.wins.isEmpty && s.flip (1010000 + key) then [0x09]
      else []
    | .word _ _ _ =>
      match decodeWord w.curWord with
      | .ok (.chres _) => [0x0C]
      | .ok (.chacq _) => [0x0C]
      | .ok (.sqpush _) => [0x0D]
      | .ok (.sqpop _) => [0x0D]
      | .ok (.ldq _) => if w.stage = 0 then [0x0A] else [0x0D]
      | .ok (.barr _) => [0x0E]
      | .ok (.barw _) => [0x0E]
      | .ok (.barrw _) => [0x0E]
      | .ok (.phwait _) => [0x0E]
      | .ok (.tscpy _) | .ok (.tstake _) =>
        (match w.treq.bind (Tbl.get? s.treqs) with
        | some t => (match t.stage with | .parked _ => [0x0F] | _ => [])
        | none => [])
      | .ok (.sleep _) => [0x10]
      | .ok (.fence _) | .ok (.isync _) | .ok (.waitc _) => []
      | _ => if [Path.lp, .cs, .cp, .gl, .gs, .en, .ts, .at].any (fun p => decide (63 ≤ w.count p)) then [0x0A] else []

/-- Every wave that has been ready for 64 ck is promoted (R51). -/
def State.promoteAll (s : State) : State := (Tbl.keys s.waves).foldl (fun s k => s.promote (k / 32) (k % 32)) s

/-- One ck passes: platform time moves by its nominal length, or by up to twice that in a stretched period (R23); waves are promoted
(R51); the cores count what they count every ck (R484). -/
def State.tick (s : State) : State :=
  let len := if s.stretch = 0 then 10 else 10 + s.choose 900100 11
  let s := State.promoteAll { s with ck := s.ck + 1, time := s.time + len, stretch := s.stretch - 1, fresh := s.fresh + 1 }
  let counting := s.cores.filter (fun r => !r.2.pmc.isEmpty)
  counting.foldl (fun s r =>
    let s := s.pmcCount r.1 0x01 1 0
    let s := match s.stream? r.1 with
      | some m => if m.arrayQ.any (fun q => q.begun && q.isMma) then s.pmcCount r.1 0x07 1 m.team else s
      | none => s
    (s.waves.filter (fun x => decide (x.1 / 32 = r.1))).foldl (fun s x =>
      (s.stallEvents x.1 x.2).foldl (fun s e => s.pmcCount r.1 e 1 x.2.team) s) s) s.mirrorAll

/-! ### One turn of an agent -/

/-- What the core counts when a word issues, not when it goes on waiting (R484). -/
def State.countWord (s : State) (core : Nat) (w : Wave) (word : W64) : State :=
  if (s.core core).pmc.isEmpty || w.blocked then s
  else
    let op := opOf word
    let vec := (decide (0x20 ≤ op) && decide (op ≤ 0x6C))
    let on := (List.range w.beats).filter (fun b => !decide (w.em b = 0))
    let s := if w.adr then s.pmcCount core 0x05 1 w.team else s
    if vec then (s.pmcCount core 0x02 (max 1 on.length) w.team).pmcCount core 0x03 (w.beats - max 1 on.length) w.team
    else if op ≤ 0x17 ∨ (0x70 ≤ op ∧ op ≤ 0x7F) then s.pmcCount core 0x04 1 w.team
    else s

/-- A core counts a sequencer word when it issues (R484). -/
def State.countSeq (s : State) (core : Nat) (m : Stream) : State := if m.block = .none then s.pmcCount core 0x06 1 m.team else s

/-- Whether a team's agents issue on a core: the running context's do, and those of another, which the core still holds, only on their way
to the stop of a vacate (R488; DESIGN CHOICE, log entry 140). -/
def State.mayIssue (s : State) (core team : Nat) : Bool := s.ctxRuns team || s.vacating core
/-- A wave or stream that can take a turn: it exists and nothing holds it. -/
def State.canTurn (s : State) (a : Agent) : Bool :=
  match a with
  | .wave c k =>
    match s.wave? c k with
    | some w => !w.halted && !w.stopped && !w.dbg && s.mayIssue c w.team
    | none => false
  | .stream c =>
    match s.stream? c with
    | some m => !m.halted && !m.stopped && !m.dbg && !m.stopReq && m.poisonPc.isNone && s.mayIssue c m.team
    | none => false

/-- A word that is no instruction traps ILLEGAL_OPCODE at issue (R104, R123). -/
def State.illegalWord (s : State) (a : Agent) : Out :=
  match a with
  | .wave _ _ => withWave s (fun c k w => s.trapAt c k w w.illegal)
  | .stream _ => withStream s (fun c m => s.streamTrap c m 0x01 0 0)

/-- The current word of an agent issues. -/
def State.issue (s : State) (a : Agent) (word : W64) : Out :=
  match decodeWord word with
  | .ok i => exec i s
  | .error _ => s.illegalWord a

/-- The step's nonce, for the free values an agent's next word may read. -/
def State.freshen (s : State) (a : Agent) : State :=
  match a with
  | .wave c k => { s with cur := some a }.updWave c k (fun w => { w with nonce := s.fresh })
  | .stream c => { s with cur := some a }.updStream c (fun m => { m with nonce := s.fresh })

/-- The pipe a wave's next word issues in: its own; one that waits within its word needs none, and one that has waited takes an idle
one, or goes on waiting (R50, R53; DESIGN CHOICE, log entry 125). -/
def State.pipeFor (s : State) (core : Nat) (w : Wave) : Option Wave :=
  if w.pipe.isSome || w.blocked then some w else (s.idlePipe core w.adr).map (fun p => { w with pipe := some p })
/-- The opcodes of class L with an in-flight path: their words are released when their sources have been read (R106, R122). -/
def opPathLong (op : Nat) : Bool :=
  (decide (0x80 ≤ op) && decide (op ≤ 0x95) && !decide (op = 0x90) && !decide (op = 0x91)) || (decide (0xB6 ≤ op) && decide (op ≤ 0xBB))
    || [0xC7, 0xC8, 0xD0, 0xD3, 0xD4].contains op || (decide (0xE0 ≤ op) && decide (op ≤ 0xEB))
/-- The registers a wave has changed, as the writes of a window. -/
def Wave.changes (w v : Wave) : Win :=
  ⟨0, 0, (((Tbl.keys w.v ++ Tbl.keys v.v).eraseDups).filter (fun i => !decide (Tbl.getD w.v i 0 = Tbl.getD v.v i 0))).map
      (fun i => (i / 128, i % 128, Tbl.getD v.v i 0)),
    (((Tbl.keys w.s ++ Tbl.keys v.s).eraseDups).filter (fun r => !decide (Tbl.getD w.s r 0 = Tbl.getD v.s r 0))).map
      (fun r => (r, Tbl.getD v.s r 0))⟩
/-- What the next `n` words of a wave's clause would write, as far as the wave gets without a trap or a wait: a path word whose window
they make up uses the old or the new value of a source they write (R106; DESIGN CHOICE, log entry 139). -/
def State.lookAhead (s : State) (c k : Nat) : Nat → List Win
  | 0 => []
  | n + 1 =>
    match s.wave? c k with
    | none => []
    | some w =>
      match w.clause with
      | none => []
      | some cl =>
        match s.issue (.wave c k) (cl.words.getD w.widx 0) with
        | .next t =>
          (match t.wave? c k with
          | some v => if v.trapPending || v.blocked || v.halted then [] else w.closeWins.changes v.closeWins :: t.lookAhead c k n
          | none => [])
        | _ => []
/-- A word of a wave would trap at issue: tried with a debug halt asked for, which keeps the trap from its delivery (R440). -/
def State.wouldTrap (s : State) (c k : Nat) (word : W64) : Bool :=
  match (s.updWave c k (fun w => { w with dbgReq := true })).issue (.wave c k) word with
  | .next t => ((t.wave? c k).map (fun w => w.trapPending)).getD false
  | _ => false
/-- What a word consumes in error is seen when it issues, unless it traps: a trap at issue comes before any effect (R164, R292). -/
def State.consume (s : State) (c k : Nat) (w : Wave) (word : W64) : State :=
  if (w.badW.isEmpty && s.mem.bad.isEmpty) || s.wouldTrap c k word then s else s.seeBad c k w word
/-- A word issues with the writes of its lookahead window in sight: those of a path word that lets words follow it (R106). -/
def State.issueAhead (s : State) (c k : Nat) (word : W64) : Out :=
  let la := word.toNat / 2 ^ 52 % 16
  if la = 0 ∨ opPathLong (opOf word) = false then s.issue (.wave c k) word
  else
    let on := s.updWave c k (fun w => { w.done with dbgReq := true })
    let wins := on.lookAhead c k la
    match (s.updWave c k (fun w => { w with ahead := wins })).issue (.wave c k) word with
    | .next t => .next (t.updWave c k (fun w => { w with ahead := [] }))
    | o => o
/-- A word of a wave issues: it is counted, and what it consumes is seen (R292, R484). -/
def State.waveIssue (s : State) (c k : Nat) (w : Wave) (word : W64) : Out :=
  match s.pipeFor c w with
  | none => .next s
  | some w => ((((s.setWave c k w).freshen (.wave c k)).countWord c w word).consume c k w word).issueAhead c k word

/-- A turn of an agent: it fetches its next clause, tests its waits, or issues its next word. -/
def State.agentTurn (s : State) (a : Agent) : Out :=
  if !s.canTurn a then .next s
  else
    match a with
    | .wave c k =>
      match s.wave? c k with
      | none => .next s
      | some w =>
        if w.dbgReq && w.blocked then
          .next ((s.cancelWait c k w).updWave c k (fun w => if w.clause.isNone then w.haltDbg else w))
        else
        match w.clause with
        | none => exec (.clauseFetch a) s
        | some cl =>
          if !w.waitMet then exec (.clauseWaitMet a) s
          else s.waveIssue c k w (cl.words.getD w.widx 0)
    | .stream c =>
      match s.stream? c with
      | none => .next s
      | some m =>
        match m.clause with
        | none => exec (.clauseFetch a) s
        | some cl => ((s.freshen a).countSeq c m).issue a (cl.words.getD m.widx 0)

/-! ### The agenda -/

/-- One turn of the agenda. -/
def State.turn (s : State) (t : Turn) : Out :=
  match t with
  | .agent a => s.agentTurn a
  | .event i => if i.isWord then .next s else exec i s
  | .upset u => .next (s.upset u)

/-- What a turn that began at `s` comes to: it waits, with nothing done, where it lacked a walker, an entry or a link (R27, R303, R500;
DESIGN CHOICE, log entry 138). -/
def State.settle (s : State) (o : Out) : Out :=
  match o with
  | .next t => .next (s.orWait t)
  | o => o
/-- A ck passes before a turn, which then lacks nothing yet. -/
def State.begun (s : State) (rest : List Turn) : State := { s.tick with agenda := rest, lack := none }

/-! ### Placing a word where the next step fetches it -/

/-- The class of a clause that admits a word (R100). -/
def classFor (op : Nat) : Nat :=
  ((List.range 6).find? (fun c => opAdmitted c op && (decide (c = 4) == opFrontEnd .seq op))).getD 0
/-- A clause of one word: its header and the word. -/
def oneWordClause (addr word : W64) : Clause :=
  ⟨addr, BitVec.ofNat 64 (0xFF * 2 ^ 56 + classFor (opOf word) * 2 ^ 48), [word]⟩
/-- A wave of 32 lanes as R39 starts it, with 256 vector registers and a clause of one word. -/
def Wave.fresh (word : W64) : Wave :=
  { team := 0, role := 0, idx := 0, pos := 0, adr := false, beats := 1, vregs := 256, lanePriv := 0, slots := 1,
    codeBase := 0, s := [(113, 32), (114, 32), (120, 0xFFFFFFFF)], v := [], lp := [], wstat := 0, fpcompat := 0, epc := 0,
    ecause := 0, eaddr := 0, estat := 0, dstack := [], pc := 0, clause := some (oneWordClause 0 word), widx := 0,
    waitMet := true, eretWord := none, block := .none, reqs := [], wins := [], ahead := [], acktag := 0, hmask := 0, hit := 0, tref := [],
    ecpl := none, pend := none, poison := none, treq := none, arrivals := [], trapPending := false, stopped := false,
    dbg := false, dbgReq := false, halted := false, yielded := false, readySince := none, promoted := none,
    pipe := some 0, badW := [], stands := none, standsTrap := none, replay := [], born := 0, nonce := 0 }
/-- A stream as R39 and R212 start it, with a clause of one word. -/
def Stream.fresh (word : W64) : Stream :=
  { team := 0, ecpls := [], pos := 0, mpc := 8, clause := some (oneWordClause 0 word), widx := 0, m := [], fb := [], tags := [], mfault := 0, mlevel := 0,
    mfpc := 0, mfaddr := 0, arrayQ := [], xferQ := [], quarters := [.gated, .gated, .gated, .gated], mfmt := [], block := .none,
    check := none, poisonPc := none, poisonStop := false, stopped := false, reported := false, halted := false,
    dbg := false, dbgReq := false, stopReq := false, nonce := 0 }

/-- Put a word in front of an agent of its front end: the current one, or a fresh one on core 0; its turn is next. -/
def State.placeWord (s : State) (word : W64) : State :=
  if opAssigned (opOf word) && opFrontEnd .seq (opOf word) then
    let c := match s.cur with | some a => a.core | none => 0
    let s := { s with cur := some (.stream c), agenda := [.agent (.stream c)] }
    match s.stream? c with
    | some m => s.setStream c { m with
        clause := some (oneWordClause m.hdrAddr word), widx := 0, block := .none, halted := false, stopped := false, dbg := false,
        stopReq := false, poisonPc := none, poisonStop := false, check := none }
    | none => s.setStream c (Stream.fresh word)
  else
    let ck := match s.cur with
      | some (.wave c k) => (c, k)
      | some (.stream c) => (c, 0)
      | none => (0, 0)
    let s := { s with cur := some (.wave ck.1 ck.2), agenda := [.agent (.wave ck.1 ck.2)] }
    match s.wave? ck.1 ck.2 with
    | some w => s.setWave ck.1 ck.2 { w with
        clause := some (oneWordClause w.hdrAddr word), widx := 0, waitMet := true, block := .none, halted := false,
        stopped := false, dbg := false, pipe := some (w.pipe.getD 0) }
    | none => s.setWave ck.1 ck.2 (Wave.fresh word)

end Sys2Proof.Machine
end

