-- ==== Sys2Proof/Machine/Auto.lean ====
section
/-! DEFINITION. What happens next when the agenda is empty: the Escapement's choice among a core's agents (R50–R52), and the
device's own events that may be due. Which of them comes first is timing the spec leaves open: a free choice. -/

namespace Sys2Proof.Machine

/-! ### The Escapement (R50–R52) -/

/-- The agents of one front end of a core that may take a turn: those that run, are blocked or fetch, and, while a pipe is free,
the one ready wave the Escapement chooses. -/
def State.escapement (s : State) (core : Nat) (adr : Bool) : List Agent :=
  let going := (s.frontEnd core adr).filter (fun x => !s.ready core x.2.1)
  going.map (fun x => .wave core x.1) ++
    (match s.chosen core adr with
    | some k => if (s.idlePipe core adr).isSome then [.wave core k] else []
    | none => [])

/-! ### The device's own events -/

/-- The events of a wave: its requests' accesses and returns, and what may happen to it between words. -/
def waveEvents (a : Agent) (w : Wave) : List (State → Out) :=
  [execPromotion a, execPendingFaultDelivery a, execPoisonStop a, execVacateWaveStop a, execWatchdog a, execSleepWake a, execChannelWaitServed a,
    execStreamQueueWaitServed a]
    ++ [Path.lp, .cs, .cp, .gl, .gs, .en, .ts, .at].filterMap (fun p =>
      if w.reqs.any (fun q => decide (q.path = p)) then some (execRequestReturn a p) else none)
    ++ w.reqs.flatMap (fun q => (if q.aon then [execVersionWordRetry a q.id] else []) ++
      (List.range q.accs.length).flatMap (fun i =>
        if (q.accs[i]?).any (fun x => !x.done && decide (x.lvl = .glob)) then
          [execHomeRead a q.id i, execHomeWrite a q.id i, execAtomicAtHome a q.id i, execRedContribution a q.id i] else []))
/-- The events of a stream. -/
def streamEvents (c : Nat) (m : Stream) : List (State → Out) :=
  [execMmaFire c, execArrayWordEnd c, execTransferWordBegin c, execTransferWordEnd c, execGtCheckAnswer c, execPoisonStop (.stream c),
    execVacateWaveStop (.stream c), execWatchdog (.stream c)]
    ++ m.mfmt.map (fun x => execMfmtComplete c x.1) ++ (List.range 4).flatMap (fun q => [execQuarterGated c q, execQuarterAwake c q])
/-- The events of the tables of commands, requests, flits, teams, launches, dies and caches, and of the device itself. -/
def State.deviceEvents (s : State) : List (State → Out) :=
  s.cmds.flatMap (fun r => [execEngineFire r.1, execEngineComplete r.1, execPublishFlip r.1, execLaunchEnqueue r.1])
    ++ s.treqs.flatMap (fun r => [execTupleDeposit r.1, execTupleMatch r.1, execTupleRetry r.1, execTupleCancel r.1, execTupleTimeout r.1, execTsFull r.1])
    ++ s.flits.flatMap (fun r => [execGtFlitArrival r.1, execGtFlitAck r.1])
    ++ s.teams.flatMap (fun r => [execPhaseComplete r.1, execPhaseWatchRegister r.1, execTeamSave r.1])
    ++ s.lqs.flatMap (fun r => [execLaunchQueueRefetch r.1, execLaunchRecordRead r.1])
    ++ s.launches.flatMap (fun r => [execLaunchActivation r.1, execLaunchCompletion r.1])
    ++ s.dies.flatMap (fun r => [execRasterBatch r.1, execFrameClose r.1] ++ (List.range 2).map (fun e => execClassifyTile r.1 e)
      ++ r.2.bins.flatMap (fun b => [execBinWaveClose r.1 b.1, execBinflushTimeout r.1 b.1]))
    ++ s.mem.cols.map (fun r => execColumnEviction (r.1 / 2 ^ 41) (r.1 % 2 ^ 41)) ++ s.mem.l2.map (fun r => execL2Eviction r.1)
    ++ s.clusters.flatMap (fun r => r.2.lines.map (fun x => execClusterCacheEviction r.1 x.1)
      ++ r.2.redirects.map (fun x => execRedirectedRead r.1 x.1) ++ r.2.tlb.map (fun t => execPageWalk r.1 (BitVec.ofNat 64 t.base))
      ++ (s.die (dieOfCluster r.1)).walks.map (fun w => execPageWalk r.1 (BitVec.ofNat 64 w.2))
      ++ r.2.misses.map (fun m => execGddr7Fill m.line))
    ++ s.cores.map (fun r => execCounterMirrorRefresh r.1)
    ++ [execPlacementDecision, execVacateComplete, execTimeSliceExpiry, execTlbinvComplete, execCkptComplete, execBootokTimeout]

/-- Everything that may happen next without the outside world. -/
def State.candidates (s : State) : List (State → Out) :=
  let cores := (((Tbl.keys s.waves).map (fun k => k / 32)) ++ Tbl.keys s.streams).eraseDups
  let agents := cores.flatMap (fun c => s.escapement c false ++ s.escapement c true) ++ (Tbl.keys s.streams).map Agent.stream
  agents.map (fun a s => s.agentTurn a) ++ s.waves.flatMap (fun r => waveEvents (.wave (r.1 / 32) (r.1 % 32)) r.2)
    ++ s.streams.flatMap (fun r => streamEvents r.1 r.2) ++ s.deviceEvents

/-- What is done when the agenda is empty: one of the candidates, a free choice. -/
def State.autoTurn (s : State) : Option (State → Out) := s.candidates[s.choose 990000 s.candidates.length]?

end Sys2Proof.Machine
end

