-- ==== Sys2Proof/Machine/Step.lean ====
section
/-! DEFINITION. One step of the device, and the placing of a word where the next step runs it. -/

namespace Sys2Proof.Machine

/-- One step: a ck passes, and then one turn is taken: the agenda's next, or the device's own choice. -/
def step (s : State) : Host.Outcome State Fault Refusal :=
  match s.agenda with
  | t :: rest => (s.begun rest).settle ((s.begun rest).turn t)
  | [] =>
    match s.autoTurn with
    | some f => (s.begun []).settle (f (s.begun []))
    | none => .next s.tick

/-- The instruction whose bits are `w`, placed so that the next step runs it. -/
def State.withFetchWord (s : State) (nbits w : Nat) : State := s.placeWord (BitVec.ofNat 64 (w % 2 ^ nbits))

end Sys2Proof.Machine
end

