-- ==== Sys2Proof/Safety.lean ====
section
/-! DEFINITION. What counts as a safe run, in the terms the statements use: the canonical form of the memories, and what a word of a
wave or stream leaves unchanged. -/

namespace Sys2Proof.Machine

/-! ### The invariant -/

/-- Every byte store of the device is in its canonical form. -/
def MemSys.wf (m : MemSys) : Bool :=
  Memory.wf m.home && Memory.wf m.dram && Memory.wf m.scratch && Memory.wf m.rows && Memory.wf m.chip && Memory.wf m.acc
/-- The invariant every step keeps. -/
def State.Inv (s : State) : Prop := s.mem.wf = true

/-! ### The agent that issues -/

/-- The current agent is wave `w`, in slot `k` of core `c`. -/
def State.runs (s : State) (c k : Nat) (w : Wave) : Prop := s.cur = some (.wave c k) ∧ s.wave? c k = some w
/-- The current agent is stream `m` of core `c`. -/
def State.runsStream (s : State) (c : Nat) (m : Stream) : Prop := s.cur = some (.stream c) ∧ s.stream? c = some m

/-! ### What a word leaves unchanged in its wave -/

/-- A wave without its scalar and vector registers and the marks of errors in them, its place in the program and its pipe, its
lookahead windows, the arrival of a cancelled BARRW that replays next (R470), and the notes its requests keep of later writes (R135): what a word that computes on registers alone leaves as it
was. -/
def Wave.bare (w : Wave) : Wave :=
  { w with
    s := [], v := [], pc := 0, clause := none, widx := 0, waitMet := false, block := .none, eretWord := none, yielded := false,
    pipe := none, badW := [], wins := [], stands := none, reqs := w.reqs.map (fun q => { q with clob := [] }) }
/-- A stream without its m registers and its place in the program: what a control word of the sequencer leaves as it was. -/
def Stream.bare (m : Stream) : Stream := { m with m := [], mpc := 0, clause := none, widx := 0, block := .none }
/-- Where a wave stands: its next header, its clause and the word in it. -/
def Wave.spot (w : Wave) : W64 × Option Clause × Nat := (w.pc, w.clause, w.widx)
/-- Scalar register `r` after the writes `ss`, the last of them counting; a write that the register discards leaves it. -/
def Wave.sAfter (w : Wave) (ss : List (Nat × W32)) (r : Nat) : W32 :=
  match ss.reverse.find? (fun x => x.1 == r && !w.discards r) with
  | some x => x.2
  | none => w.rawS r
/-- Lane `l` of vector register `n` after the writes `vs`. -/
def Wave.vAfter (w : Wave) (vs : List (Nat × Nat × W32)) (n l : Nat) : W32 :=
  match vs.reverse.find? (fun x => x.1 == n && x.2.1 == l) with
  | some x => x.2.2
  | none => w.rawV n l

/-- `t` is `s` with the wave in its place changed by the register writes `ss` and `vs` alone, and standing where `spot` says: every
other register, every special register, the memories and the rest of the device are as they were. -/
def WaveWrote (s t : State) (c k : Nat) (w : Wave) (ss : List (Nat × W32)) (vs : List (Nat × Nat × W32))
    (spot : W64 × Option Clause × Nat) : Prop :=
  ∃ w', t = s.setWave c k w' ∧ w'.bare = w.bare ∧ w'.spot = spot ∧ (∀ r, w'.rawS r = w.sAfter ss r)
    ∧ (∀ n l, l < 96 → w'.rawV n l = w.vAfter vs n l)
/-- The word runs to its end: it makes the writes `ss` and `vs`, changes nothing else, and the wave goes on to its next word. -/
def Ends (i : Instr) (s : State) (c k : Nat) (w : Wave) (ss : List (Nat × W32)) (vs : List (Nat × Nat × W32)) : Prop :=
  ∃ t, exec i s = .next t ∧ WaveWrote s t c k w ss vs w.done.spot
/-- The word runs to its end with the register writes `ss` and `vs`, its wave goes on to the next word, and `P` holds of the state and the wave
after it: for the words that act on more than their wave. -/
def GoesOn (i : Instr) (s : State) (c k : Nat) (w : Wave) (ss : List (Nat × W32)) (vs : List (Nat × Nat × W32))
    (P : State → Wave → Prop) : Prop :=
  ∃ t w', exec i s = .next t ∧ t.wave? c k = some w' ∧ w'.spot = w.done.spot ∧ (∀ r, w'.rawS r = w.sAfter ss r)
    ∧ (∀ n l, l < 96 → w'.rawV n l = w.vAfter vs n l) ∧ P t w'
/-- The word blocks where it stands: its wave keeps its place and its registers, and `P` holds of the state after it. -/
def Waits (i : Instr) (s : State) (c k : Nat) (w : Wave) (P : State → Prop) : Prop :=
  ∃ t w', exec i s = .next t ∧ t.wave? c k = some w' ∧ w'.spot = w.spot ∧ w'.block ≠ .none ∧ w'.s = w.s ∧ w'.v = w.v ∧ P t
/-- The writes of `g l` to lane `l` of register `d`, in every active lane. -/
def Wave.each (w : Wave) (d : Nat) (g : Nat → W32) : List (Nat × Nat × W32) := w.lanes.map (fun l => (d, l, g l))
/-- The writes of a pair. -/
def Wave.each64 (w : Wave) (d : Nat) (g : Nat → W64) : List (Nat × Nat × W32) :=
  w.lanes.flatMap (fun l => [(d, l, (g l).extractLsb' 0 32), (d + 1, l, (g l).extractLsb' 32 32)])

end Sys2Proof.Machine
end

