-- ==== Sys2Proof/Certificates/Slice0/Obligations.lean ====
section
/-! DEFINITION. The statements for the provers. Each docstring names the rules of the spec a statement formalises; where a
statement rests on the model's own choice or on an inference, it names the entry of the assumption log. -/

open Sys2Proof Sys2Proof.Machine

/-! ### The scalar ALU -/

/-- R150. Each scalar word writes what the rule computes to SD, SADD and SSUB under FN 1 and 2 and SCMP also SCC (last, where SD is
s126), and changes nothing else; in a wave without an open lookahead window. The condition of each FN of SCMP, whose codes 0–7 VCMP shares. -/
def Obligations.ScalarArithmetic : Prop :=
  (∀ (s : State) (c k : Nat) (w : Wave) (f : FmtS), s.runs c k w → w.wins = [] →
    let d := f.sd.toNat
    let a := w.readS f.sa.toNat
    let b := w.sop f.b
    let n := b.toNat % 32
    let cin := if f.fn = 2 ∧ w.scc ≠ 0 then 1 else 0
    ((Instr.sadd f).wf → Ends (.sadd f) s c k w ([(d, BitVec.ofNat 32 (a.toNat + b.toNat + cin))]
        ++ if f.fn = 0 then [] else [(126, if 2 ^ 32 ≤ a.toNat + b.toNat + cin then 1 else 0)]) [])
    ∧ ((Instr.ssub f).wf → Ends (.ssub f) s c k w ([(d, BitVec.ofInt 32 ((a.toNat : Int) - b.toNat - (cin : Nat)))]
        ++ if f.fn = 0 then [] else [(126, if a.toNat < b.toNat + cin then 1 else 0)]) [])
    ∧ ((Instr.smul f).wf → Ends (.smul f) s c k w [(d, BitVec.ofNat 32 (a.toNat * b.toNat))] [])
    ∧ ((Instr.smulhi f).wf → Ends (.smulhi f) s c k w [(d, if f.fn = 0 then BitVec.ofInt 32 (Int.fdiv (a.toInt * b.toInt) (2 ^ 32))
        else BitVec.ofNat 32 (a.toNat * b.toNat / 2 ^ 32))] [])
    ∧ ((Instr.sand f).wf → Ends (.sand f) s c k w [(d, a &&& b)] [])
    ∧ ((Instr.sor f).wf → Ends (.sor f) s c k w [(d, a ||| b)] [])
    ∧ ((Instr.sxor f).wf → Ends (.sxor f) s c k w [(d, a ^^^ b)] [])
    ∧ ((Instr.sshl f).wf → Ends (.sshl f) s c k w [(d, BitVec.ofNat 32 (a.toNat * 2 ^ n))] [])
    ∧ ((Instr.sshr f).wf → Ends (.sshr f) s c k w [(d, if f.fn = 0 then BitVec.ofNat 32 (a.toNat / 2 ^ n)
        else BitVec.ofInt 32 (Int.fdiv a.toInt (2 ^ n)))] [])
    ∧ ((Instr.srot f).wf → Ends (.srot f) s c k w [(d, (a <<< n) ||| (a >>> (32 - n)))] [])
    ∧ ((Instr.scmp f).wf → Ends (.scmp f) s c k w (let r : W32 := if intCond f.fn.toNat a b then 1 else 0; [(d, r), (126, r)]) [])
    ∧ ((Instr.ssel f).wf → Ends (.ssel f) s c k w [(d, if w.scc ≠ 0 then a else b)] [])
    ∧ ((Instr.smov f).wf → Ends (.smov f) s c k w [(d, b)] [])
    ∧ ((Instr.smin f).wf → Ends (.smin f) s c k w [(d, if (if f.fn = 0 then a.toInt ≤ b.toInt else a.toNat ≤ b.toNat) then a else b)] [])
    ∧ ((Instr.smax f).wf → Ends (.smax f) s c k w [(d, if (if f.fn = 0 then a.toInt ≥ b.toInt else a.toNat ≥ b.toNat) then a else b)] []))
  ∧ (∀ a b : W32,
    (intCond 0 a b ↔ a = b) ∧ (intCond 1 a b ↔ a ≠ b) ∧ (intCond 2 a b ↔ a.toInt < b.toInt) ∧ (intCond 3 a b ↔ b.toInt ≤ a.toInt)
    ∧ (intCond 4 a b ↔ a.toNat < b.toNat) ∧ (intCond 5 a b ↔ b.toNat ≤ a.toNat) ∧ (intCond 6 a b ↔ b.toInt < a.toInt)
    ∧ (intCond 7 a b ↔ b.toNat < a.toNat) ∧ (intCond 8 a b ↔ a.toInt ≤ b.toInt) ∧ (intCond 9 a b ↔ a.toNat ≤ b.toNat))

/-- R152, R153, R154. Bit fields and counts, and the pair words, each half written under R149. -/
def Obligations.ScalarFieldsAndPairs : Prop :=
  ∀ (s : State) (c k : Nat) (w : Wave) (f : FmtS), s.runs c k w → w.wins = [] →
    let d := f.sd.toNat
    let a := w.readS f.sa.toNat
    let b := w.sop f.b
    let o := b.toNat % 32
    let n := min (b.toNat / 256 % 64) (32 - o)
    let fld := a.toNat / 2 ^ o % 2 ^ n
    let mask : W32 := BitVec.ofNat 32 ((2 ^ n - 1) * 2 ^ o)
    let pair := fun (x : W64) => [(d, x.extractLsb' 0 32), (d + 1, x.extractLsb' 32 32)]
    let P := fun (r : SReg) => BitVec.ofNat 64 ((w.readS r.toNat).toNat + 2 ^ 32 * (w.readS (r.toNat + 1)).toNat)
    let B64 := match f.b with | .reg r => P r | .imm v => BitVec.ofInt 64 v.toInt
    ((Instr.sbfx f).wf → Ends (.sbfx f) s c k w
        [(d, if f.fn = 1 ∧ 0 < n ∧ 2 ^ (n - 1) ≤ fld then BitVec.ofInt 32 ((fld : Int) - 2 ^ n) else BitVec.ofNat 32 fld)] [])
    ∧ ((Instr.sbfi f).wf → Ends (.sbfi f) s c k w [(d, (w.readS d &&& ~~~mask) ||| ((a <<< o) &&& mask))] [])
    ∧ ((Instr.sbitc f).wf → ∃ r : W32, Ends (.sbitc f) s c k w [(d, r)] []
        ∧ (f.fn = 0 → r.toNat = ((List.range 32).filter a.getLsbD).length)
        ∧ (f.fn = 1 → (a = 0 ∧ r = 32) ∨ (r.toNat < 32 ∧ 2 ^ (31 - r.toNat) ≤ a.toNat ∧ a.toNat < 2 ^ (32 - r.toNat)))
        ∧ (f.fn = 2 → (a = 0 ∧ r = 32) ∨ (r.toNat < 32 ∧ a.toNat % 2 ^ r.toNat = 0 ∧ a.toNat / 2 ^ r.toNat % 2 = 1)))
    ∧ ((Instr.sadd64 f).wf → Ends (.sadd64 f) s c k w (pair (P f.sa + B64)) [])
    ∧ ((Instr.ssub64 f).wf → Ends (.ssub64 f) s c k w (pair (P f.sa - B64)) [])
    ∧ ((Instr.smad64 f).wf → Ends (.smad64 f) s c k w (pair (P f.sd + if f.fn = 1 then BitVec.ofInt 64 (a.toInt * b.toInt)
        else BitVec.ofNat 64 (a.toNat * b.toNat))) [])
    ∧ ((Instr.sli f).wf → Ends (.sli f) s c k w
        (if f.fn = 0 then pair (b.signExtend 64) else if f.fn = 1 then pair (b.zeroExtend 64) else [(d + 1, b)]) [])

/-! ### The vector integer words -/

/-- R157. The vector arithmetic, bitwise, shift and move words, in format V and format VI: each active lane of VD takes the value the
rule computes from the lane's operands; every inactive lane and everything else stays. -/
def Obligations.VectorIntegerArithmetic : Prop :=
  ∀ (s : State) (c k : Nat) (w : Wave), s.runs c k w → w.wins = [] →
    (∀ f : FmtV, w.regRange (f.vd.toNat :: srcRegs f 3) = false →
      let sgn := f.fn = 0
      let I := fun (x : W32) => if sgn then x.toInt else (x.toNat : Int)
      let md := fun (neg : Bool) (x : Int) => (if neg then -1 else 1) * (if f.abs then (x.natAbs : Int) else x)
      let a := fun l => md f.negA (I (w.selW f.a l))
      let b := fun l => md f.negB (I (w.selW f.b l))
      let n := fun l => (w.selW f.b l).toNat % 32
      let out := fun (x : Int) => BitVec.ofInt 32 (if f.sat then (if sgn then max (-2 ^ 31) (min (2 ^ 31 - 1) x)
        else max 0 (min (2 ^ 32 - 1) x)) else x)
      let V := fun (i : Instr) (g : Nat → W32) => i.wf → Ends i s c k w [] (w.each f.vd.toNat g)
      V (.vadd f) (fun l => out (a l + b l)) ∧ V (.vsub f) (fun l => out (a l - b l)) ∧ V (.vmul f) (fun l => out (a l * b l))
      ∧ V (.vmad f) (fun l => out (a l * b l + I (w.selW f.c l))) ∧ V (.vmin f) (fun l => out (min (a l) (b l)))
      ∧ V (.vmax f) (fun l => out (max (a l) (b l)))
      ∧ V (.vmulhi f) (fun l => BitVec.ofInt 32 (Int.fdiv (I (w.selW f.a l) * I (w.selW f.b l)) (2 ^ 32)))
      ∧ V (.vand f) (fun l => w.selW f.a l &&& w.selW f.b l) ∧ V (.vor f) (fun l => w.selW f.a l ||| w.selW f.b l)
      ∧ V (.vxor f) (fun l => w.selW f.a l ^^^ w.selW f.b l)
      ∧ V (.vshl f) (fun l => BitVec.ofNat 32 ((w.selW f.a l).toNat * 2 ^ n l))
      ∧ V (.vshr f) (fun l => if f.fn = 0 then BitVec.ofNat 32 ((w.selW f.a l).toNat / 2 ^ n l)
          else BitVec.ofInt 32 (Int.fdiv (w.selW f.a l).toInt (2 ^ n l)))
      ∧ V (.vrot f) (fun l => (w.selW f.a l <<< n l) ||| (w.selW f.a l >>> (32 - n l)))
      ∧ V (.vmov f) (fun l => w.selW f.a l))
    ∧ (∀ f : FmtVI, w.regRange (f.vd.toNat :: selReg f.a) = false →
      let sgn := f.fn = 8
      let imm : W32 := BitVec.ofInt 32 f.imm.toInt
      let I := fun (x : W32) => if sgn then x.toInt else (x.toNat : Int)
      let a := fun l => I (w.selW f.a l)
      let b := I imm
      let n := imm.toNat % 32
      let V := fun (i : Instr) (g : Nat → W32) => i.wf → Ends i s c k w [] (w.each f.vd.toNat g)
      V (.vaddImm f) (fun l => BitVec.ofInt 32 (a l + b)) ∧ V (.vsubImm f) (fun l => BitVec.ofInt 32 (a l - b))
      ∧ V (.vmulImm f) (fun l => BitVec.ofInt 32 (a l * b)) ∧ V (.vminImm f) (fun l => BitVec.ofInt 32 (min (a l) b))
      ∧ V (.vmaxImm f) (fun l => BitVec.ofInt 32 (max (a l) b))
      ∧ V (.vmulhiImm f) (fun l => BitVec.ofInt 32 (Int.fdiv (a l * b) (2 ^ 32)))
      ∧ V (.vandImm f) (fun l => w.selW f.a l &&& imm) ∧ V (.vorImm f) (fun l => w.selW f.a l ||| imm)
      ∧ V (.vxorImm f) (fun l => w.selW f.a l ^^^ imm)
      ∧ V (.vshlImm f) (fun l => BitVec.ofNat 32 ((w.selW f.a l).toNat * 2 ^ n))
      ∧ V (.vshrImm f) (fun l => if f.fn = 8 then BitVec.ofNat 32 ((w.selW f.a l).toNat / 2 ^ n)
          else BitVec.ofInt 32 (Int.fdiv (w.selW f.a l).toInt (2 ^ n)))
      ∧ V (.vrotImm f) (fun l => (w.selW f.a l <<< n) ||| (w.selW f.a l >>> (32 - n))))

/-- R158, R170, R187. Comparisons and ballots write the bits of their active lanes' conditions as mask words, SCC says whether any is set,
and a register outside the run's range traps ILLEGAL_OPCODE. The eight conditions of FCMP on finite values, infinities and NaN. -/
def Obligations.MaskRuns : Prop :=
  ∀ (s : State) (c k : Nat) (w : Wave), s.runs c k w → w.wins = [] →
    let C := fun (i : Instr) (d : Nat) (regs : List Nat) (ok : Bool) (p : Nat → Bool) =>
      i.wf → regs.all (fun r => decide (r < w.vregs)) → ok →
      if d + w.beats ≤ 104 ∨ d = 120 then
        ∃ m : Nat → W32, (∀ b n, n < 32 → (m b).getLsbD n = (w.active (32 * b + n) && p (32 * b + n)))
          ∧ Ends i s c k w ((List.range w.beats).map (fun b => (d + b, m b))
              ++ [(126, if (List.range w.beats).any (fun b => decide (m b ≠ 0)) then 1 else 0)]) []
      else exec i s = .next (s.trapAt c k w w.illegal)
    (∀ f : FmtV,
      C (.vcmp f) f.vd.toNat (srcRegs f 2) true (fun l => intCond (f.fn.toNat % 8) (w.selW f.a l) (w.selW f.b l))
      ∧ C (.fcmp f) f.vd.toNat (srcRegs f 2) (w.legacy {}).isNone
          (fun l => fltCond (f.fn.toNat % 8) (w.fin f.abs f.negA (w.selF f.a l)) (w.fin f.abs f.negB (w.selF f.b l)))
      ∧ C (.lballot f) f.vd.toNat (srcRegs f 1) true (fun l => decide (w.selW f.a l ≠ 0)))
    ∧ (∀ f : FmtVI,
      C (.vcmpImm f) f.vd.toNat (selReg f.a) true (fun l => intCond (f.fn.toNat % 8) (w.selW f.a l) (BitVec.ofInt 32 f.imm.toInt))
      ∧ C (.fcmpImm f) f.vd.toNat (selReg f.a) (w.legacy {}).isNone
          (fun l => fltCond (f.fn.toNat % 8) (w.fin false false (w.selF f.a l)) (w.fin false false (f.imm ++ (0 : BitVec 1)))))
    ∧ (∀ a b : FVal, a = .nan ∨ b = .nan → ∀ j < 8, fltCond j a b = decide (j = 1 ∨ j = 7))
    ∧ (∀ (p q : Bool) (x y : Rat),
      let X := signed p x
      let Y := signed q y
      let P := fun (a b : FVal) (eq lt gt : Prop) =>
        (fltCond 0 a b ↔ eq) ∧ (fltCond 1 a b ↔ ¬eq) ∧ (fltCond 2 a b ↔ lt) ∧ (fltCond 3 a b ↔ ¬lt) ∧ (fltCond 4 a b ↔ gt)
        ∧ (fltCond 5 a b ↔ ¬gt) ∧ fltCond 6 a b = true ∧ fltCond 7 a b = false
      P (.fin p x) (.fin q y) (X = Y) (X < Y) (Y < X) ∧ P (.inf p) (.inf q) (p = q) (p = true ∧ q = false) (p = false ∧ q = true)
      ∧ P (.inf p) (.fin q y) False (p = true) (p = false) ∧ P (.fin p x) (.inf q) False (q = false) (q = true))

/-- R159–R163. Selection, bit fields and counts, byte sums, permutation and pairs; a VSEL whose mask run passes s127 traps ILLEGAL_OPCODE. -/
def Obligations.VectorIntegerOthers : Prop :=
  ∀ (s : State) (c k : Nat) (w : Wave), s.runs c k w → w.wins = [] →
    (∀ f : FmtV,
      let d := f.vd.toNat
      let A := w.selW f.a
      let B := w.selW f.b
      let C := w.selW f.c
      let o := fun l => (B l).toNat % 32
      let n := fun l => min ((C l).toNat % 64) (32 - o l)
      let E := fun (x : W32) => if f.fn.getLsbD 0 then x.toInt else (x.toNat : Int)
      let zb := fun (x : W32) (j : Nat) => ((x.extractLsb' (8 * j) 8).toNat : Int)
      let sb := fun (x : W32) (j : Nat) => (x.extractLsb' (8 * j) 8).toInt
      let sum := fun (g : Nat → Int) => g 0 + g 1 + g 2 + g 3
      let clampZ := fun (x : Int) => BitVec.ofInt 32 (if f.sat then max 0 (min (2 ^ 32 - 1) x) else x)
      let clampS := fun (x : Int) => BitVec.ofInt 32 (if f.sat then max (-2 ^ 31) (min (2 ^ 31 - 1) x) else x)
      let inRange := fun (rs : List Nat) => rs.all (fun r => decide (r < w.vregs) && decide (r < 256)) = true
      ((Instr.vsel f).wf → inRange (d :: srcRegs f 3) → (256 ≤ f.c.toNat → f.c.toNat < 384 → f.c.toNat - 256 + w.beats - 1 ≤ 127) →
        Ends (.vsel f) s c k w [] (w.each d (fun l =>
          if (if 256 ≤ f.c.toNat ∧ f.c.toNat < 384 then (w.readS (f.c.toNat - 256 + l / 32)).getLsbD (l % 32) = true else C l ≠ 0)
          then A l else B l)))
      ∧ ((Instr.vsel f).wf → 256 ≤ f.c.toNat → f.c.toNat < 384 → 127 < f.c.toNat - 256 + w.beats - 1 →
        exec (.vsel f) s = .next (s.trapAt c k w w.illegal))
      ∧ ((Instr.vbfx f).wf → inRange (d :: srcRegs f 3) → Ends (.vbfx f) s c k w [] (w.each d (fun l =>
          let x := (A l).toNat / 2 ^ o l % 2 ^ n l
          if f.fn = 1 ∧ 0 < n l ∧ 2 ^ (n l - 1) ≤ x then BitVec.ofInt 32 ((x : Int) - 2 ^ n l) else BitVec.ofNat 32 x)))
      ∧ ((Instr.vbfi f).wf → inRange (d :: srcRegs f 3) → Ends (.vbfi f) s c k w [] (w.each d (fun l =>
          let mask : W32 := BitVec.ofNat 32 ((2 ^ n l - 1) * 2 ^ o l)
          (w.readV d l &&& ~~~mask) ||| ((A l <<< o l) &&& mask))))
      ∧ ((Instr.vbitc f).wf → inRange (d :: srcRegs f 1) → ∃ g : W32 → W32, Ends (.vbitc f) s c k w [] (w.each d (fun l => g (A l)))
        ∧ ∀ x, (f.fn = 0 → (g x).toNat = ((List.range 32).filter x.getLsbD).length)
          ∧ (f.fn = 1 → (x = 0 ∧ g x = 32) ∨ ((g x).toNat < 32 ∧ 2 ^ (31 - (g x).toNat) ≤ x.toNat ∧ x.toNat < 2 ^ (32 - (g x).toNat)))
          ∧ (f.fn = 2 → (x = 0 ∧ g x = 32) ∨ ((g x).toNat < 32 ∧ x.toNat % 2 ^ (g x).toNat = 0 ∧ x.toNat / 2 ^ (g x).toNat % 2 = 1)))
      ∧ ((Instr.vsad f).wf → inRange (d :: srcRegs f 3) → Ends (.vsad f) s c k w [] (w.each d (fun l =>
          clampZ ((C l).toNat + sum (fun j => |zb (A l) j - zb (B l) j|)))))
      ∧ ((Instr.vdot4 f).wf → inRange (d :: srcRegs f 3) → Ends (.vdot4 f) s c k w [] (w.each d (fun l =>
          if f.fn = 1 then clampZ ((C l).toNat + sum (fun j => zb (A l) j * zb (B l) j))
          else clampS ((C l).toInt + sum (fun j => sb (A l) j * (if f.fn = 0 then sb (B l) j else zb (B l) j))))))
      ∧ ((Instr.vperm f).wf → inRange (d :: srcRegs f 3) →
        let byte := fun (l j : Nat) =>
          let m := ((C l).extractLsb' (4 * j) 4).toNat
          if m < 8 then (B l ++ A l).extractLsb' (8 * m) 8 else if m = 15 then (0xFF : BitVec 8) else 0
        Ends (.vperm f) s c k w [] (w.each d (fun l => byte l 3 ++ byte l 2 ++ byte l 1 ++ byte l 0)))
      ∧ ((Instr.vadd64 f).wf → inRange ([d, d + 1] ++ selRegPair f.a ++ (if f.fn = 0 then selRegPair f.b else selReg f.b)) →
        Ends (.vadd64 f) s c k w [] (w.each64 d (fun l =>
          w.selP f.a l + (if f.fn = 0 then w.selP f.b l else if f.fn = 1 then BitVec.ofNat 64 (B l).toNat else BitVec.ofInt 64 (B l).toInt))))
      ∧ ((Instr.vmad64 f).wf → inRange ([d, d + 1] ++ srcRegs f 2 ++ selRegPair f.c) →
        Ends (.vmad64 f) s c k w [] (w.each64 d (fun l => w.selP f.c l + BitVec.ofInt 64 (E (A l) * E (B l))))))
    ∧ (∀ f : FmtVI, let d := f.vd.toNat
      (Instr.vadd64Imm f).wf → ([d, d + 1] ++ selRegPair f.a).all (fun r => decide (r < w.vregs) && decide (r < 256)) →
        Ends (.vadd64Imm f) s c k w [] (w.each64 d (fun l => w.selP f.a l + BitVec.ofInt 64 f.imm.toInt)))

/-! ### The floating-point words -/

/-- R169, R83, R86, R88. The FP32 arithmetic words in both formats: operands flushed and modified, the exact result rounded once, flushed
and saturated, in every active lane, when no legacy request traps. -/
def Obligations.Fp32Arithmetic : Prop :=
  ∀ (s : State) (c k : Nat) (w : Wave), s.runs c k w → w.wins = [] →
    let lg := w.lzeroinf
    let mn := fun (a b : FVal) => if w.lminmax then (if a.lt b then a else b) else a.minNum b
    let mx := fun (a b : FVal) => if w.lminmax then (if b.lt a then a else b) else a.maxNum b
    (∀ f : FmtV, w.regRange (f.vd.toNat :: srcRegs f 3) = false →
      let m := w.rnd f.rnd
      let a := fun l => w.fin f.abs f.negA (w.selF f.a l)
      let b := fun l => w.fin f.abs f.negB (w.selF f.b l)
      let V := fun (i : Instr) (u : LegacyUse) (g : Nat → FVal) =>
        i.wf → w.legacy u = none → Ends i s c k w [] (w.each f.vd.toNat (fun l => w.fout m f.sat (g l)))
      V (.fadd f) { xprec := true } (fun l => FVal.sum m [a l, b l])
      ∧ V (.fsub f) { xprec := true } (fun l => FVal.sum m [a l, (b l).neg])
      ∧ V (.fmul f) { xprec := true, zeroNan := true } (fun l => FVal.mul lg (a l) (b l))
      ∧ V (.ffma f) { xprec := true, zeroNan := true } (fun l => FVal.sum m [FVal.mul lg (a l) (b l), w.fin false false (w.selF f.c l)])
      ∧ V (.fmin f) {} (fun l => mn (a l) (b l)) ∧ V (.fmax f) {} (fun l => mx (a l) (b l)))
    ∧ (∀ f : FmtVI, w.regRange (f.vd.toNat :: selReg f.a) = false →
      let m := w.modeField
      let a := fun l => w.fin false false (w.selF f.a l)
      let b := w.fin false false (f.imm ++ (0 : BitVec 1))
      let V := fun (i : Instr) (u : LegacyUse) (g : Nat → FVal) =>
        i.wf → w.legacy u = none → Ends i s c k w [] (w.each f.vd.toNat (fun l => w.fout m false (g l)))
      V (.faddImm f) { xprec := true } (fun l => FVal.sum m [a l, b]) ∧ V (.fsubImm f) { xprec := true } (fun l => FVal.sum m [a l, b.neg])
      ∧ V (.fmulImm f) { xprec := true, zeroNan := true } (fun l => FVal.mul lg (a l) b)
      ∧ V (.fminImm f) {} (fun l => mn (a l) b) ∧ V (.fmaxImm f) {} (fun l => mx (a l) b))

/-- R171, R172, R173, R174, R175. Rounding to integers, fractions, classes, exponents, and the packed 16-bit words. -/
def Obligations.Fp32OthersAndPacked : Prop :=
  ∀ (s : State) (c k : Nat) (w : Wave), s.runs c k w → w.wins = [] →
    (∀ f : FmtV, w.regRange (f.vd.toNat :: srcRegs f 3) = false →
      let m := w.rnd f.rnd
      let d := f.vd.toNat
      let a := fun l => w.fin f.abs f.negA (w.selF f.a l)
      let h := if f.fn = 0 then Fmt.f16 else Fmt.bf16
      let el := fun (abs neg : Bool) (x : W32) (e : Nat) => w.hin h abs neg (x.extractLsb' (16 * e) 16).toNat
      let A := fun l e => el f.abs f.negA (w.selH h f.a l) e
      let B := fun l e => el f.abs f.negB (w.selH h f.b l) e
      let pack := fun (g : Nat → Nat → FVal) (l : Nat) =>
        BitVec.ofNat 32 (w.hout h m f.sat (g l 0) + 2 ^ 16 * w.hout h m f.sat (g l 1))
      let V := fun (i : Instr) (u : LegacyUse) (g : Nat → W32) => i.wf → w.legacy u = none → Ends i s c k w [] (w.each d g)
      V (.frnd f) {} (fun l => w.fout m f.sat (match a l with | .fin n q => .fin n (mkRat (roundNat m n q) 1) | v => v))
      ∧ V (.ffract f) {} (fun l => w.fout .rz false (match a l with
          | .fin n q => .fin false (signed n q - mkRat (signed n q).floor 1) | _ => .nan))
      ∧ V (.fclass f) {} (fun l => BitVec.ofNat 32 (2 ^ classBit (w.selF f.a l)))
      ∧ V (.fldexp f) {} (fun l => w.fout m f.sat ((a l).scale (w.selW f.b l).toInt))
      ∧ V (.ffrexp f) {} (fun l => let x := w.fin false false (w.selF f.a l)
          if f.fn = 0 then w.fout .rne false (x.scale (-x.expo)) else BitVec.ofInt 32 x.expo)
      ∧ V (.hadd2 f) (usePacked f) (pack (fun l e => FVal.sum m [A l e, B l e]))
      ∧ V (.hmul2 f) (usePacked f) (pack (fun l e => FVal.mul false (A l e) (B l e)))
      ∧ V (.hfma2 f) (usePacked f) (pack (fun l e => FVal.sum m [FVal.mul false (A l e) (B l e), el false false (w.selH h f.c l) e]))
      ∧ V (.hdot2 f) (usePacked f) (fun l => w.fout m f.sat
          (FVal.sum m [FVal.mul false (A l 0) (B l 0), FVal.mul false (A l 1) (B l 1), w.fin false false (w.selF f.c l)])))
    ∧ (∀ f : FmtVI, w.regRange (f.vd.toNat :: selReg f.a) = false → (Instr.fldexpImm f).wf → w.legacy {} = none →
        Ends (.fldexpImm f) s c k w [] (w.each f.vd.toNat (fun l =>
          w.fout w.modeField false ((w.fin false false (w.selF f.a l)).scale f.imm.toInt))))

/-- R69, R86, R88. No FP32 result the number rules form is a NaN other than the canonical one; under SAT it lies in [+0, 1]; and with output
flushing it is no subnormal. -/
def Obligations.ResultsAreCanonical : Prop :=
  ∀ (w : Wave) (m : RMode) (sat : Bool) (v : FVal),
    let y := w.fout m sat v
    (f32Val y = .nan → y = 0x7FC00000)
    ∧ (sat = true → ∃ q : Rat, f32Val y = .fin false q ∧ 0 ≤ q ∧ q ≤ 1)
    ∧ (w.flushOut = true → Fmt.f32.subnormal y.toNat = false)

/-- R177, R178, R179, R180. Conversions: to and from integers, between formats, into and out of packed fields, and block quantisation
(R180: the scale of a block is the smallest code whose value is not below the largest magnitude over emax, and each element is the quotient
rounded once), with SATURATE counted in the die's error counter once for each saturated conversion.
Rests on the model's choices of log entries 14, 71. -/
def Obligations.Conversions : Prop :=
  ∀ (s : State) (c k : Nat) (w : Wave) (f : FmtV), s.runs c k w → w.wins = [] → w.regRange (f.vd.toNat :: srcRegs f 2) = false →
    let m := w.rnd f.rnd
    let d := f.vd.toNat
    let a := fun l => w.fin false false (w.selF f.a l)
    let V := fun (i : Instr) (u : LegacyUse) (g : Nat → W32) => i.wf → w.legacy u = none → Ends i s c k w [] (w.each d g)
    let S := fun (i : Instr) (u : LegacyUse) (g : Nat → W32) (n : Nat) => i.wf → w.legacy u = none →
      ∃ t, exec i s = .next t ∧
        WaveWrote (if n = 0 then s else s.count 5 (dieOfCore c) 7 n) t c k w [] (w.each d g) w.done.spot
    V (.cvtfi f) { cvtfi := true } (fun l => BitVec.ofInt 32 (clampType f.fn.toNat ((a l).toInt
        (match w.f2i with | 1 => .rz | 2 => .rne | _ => m))))
    ∧ V (.cvtif f) {} (fun l =>
        let h := if f.fn.toNat < 2 then Fmt.f32 else if f.fn.toNat < 4 then Fmt.f16 else Fmt.bf16
        let x : Int := if f.fn.toNat % 2 = 0 then (w.selW f.a l).toInt else (w.selW f.a l).toNat
        BitVec.ofNat 32 (w.hout h m false (FVal.ofRat false (mkRat x 1))))
    ∧ V (.cvtff f) { fp16 := decide ((cvtffFmts f.fn.toNat).1 = .f16) || decide ((cvtffFmts f.fn.toNat).2 = .f16) } (fun l =>
        let src := (cvtffFmts f.fn.toNat).1
        let x := if src = .f32 then (w.selF f.a l).toNat else (w.selH src f.a l).toNat % 2 ^ 16
        BitVec.ofNat 32 (w.hout (cvtffFmts f.fn.toNat).2 m false (w.hin src false false x)))
    ∧ V (.cvtunp f) { fp16 := decide (f.fn.toNat = 0) } (fun l =>
        let h := packFmt f.fn.toNat
        w.fout .rne false (w.hin h false false ((w.selPacked f.fn.toNat f.a l).toNat / 2 ^ fieldPos f.fn.toNat (w.selW f.b l).toNat % 2 ^ h.width)))
    ∧ S (.cvtpk f) { fp16 := decide (f.fn.toNat = 0) } (fun l =>
        let h := packFmt f.fn.toNat
        let p := fieldPos f.fn.toNat (w.selW f.b l).toNat
        let old := (w.readV d l).toNat
        BitVec.ofNat 32 (old % 2 ^ p + 2 ^ p * h.flush w.flushOut (h.convert m (a l)).code + old / 2 ^ (p + h.width) * 2 ^ (p + h.width)))
        (w.lanes.filter (fun l => (packFmt f.fn.toNat).saturates ((packFmt f.fn.toNat).convert m (a l)))).length
    ∧ (let fn := f.fn.toNat
      let e3 := decide (fn < 2)
      let B := fun (l : Nat) => l / (if fn = 0 then 8 else if fn = 1 then 16 else 32)
      let lanes := fun (b : Nat) => w.lanes.filter (fun l => decide (B l = b))
      let nan := fun (b : Nat) => (lanes b).any (fun l => (a l).isNan)
      let fmt : Option Fmt := match fn with
        | 0 | 1 | 2 => some .fE2M1 | 3 => some .fE3M2 | 4 => some .fE2M3 | 5 => some .fE4M3 | 6 => some .fE5M2 | _ => none
      let emax : Rat := match fn with | 0 | 1 | 2 => 6 | 3 => 28 | 4 => 15 / 2 | 5 => 448 | 6 => 57344 | 7 => 127 | _ => 7
      let hi : Int := if fn = 7 then 127 else 7
      let value := fun (x : Nat) => if e3 then (if x < 32 then mkRat (x : Nat) 1 * pow2 (-8) else mkRat (32 + x % 32 : Nat) 1 * pow2 ((x / 32 : Nat) - 9))
        else pow2 ((x : Int) - 127)
      let first := if e3 then 1 else 0
      let last := if e3 then 255 else 254
      let fits := fun (b x : Nat) => ∀ l ∈ lanes b, (∀ n, a l ≠ .inf n) ∧ ∀ n q, a l = .fin n q → q ≤ value x * emax
      let zero := fun (b : Nat) => ∀ l ∈ lanes b, a l = .nan ∨ ∃ n, a l = .fin n 0
      let elem := fun (l x : Nat) =>
        let y := match a l with | .fin n q => .fin n (q / value x) | v => v
        match fmt with
        | some h => h.flush w.flushOut (h.convert m y).code
        | none => (BitVec.ofInt (if fn = 7 then 8 else 4) (max (-hi - 1) (min hi (y.toInt m)))).toNat
      let tops := fun (l x : Nat) => match fmt with
        | some h => h.saturates (h.convert m (match a l with | .fin n q => .fin n (q / value x) | v => v))
        | none => false
      ∃ (code : Nat → Nat) (sat : Nat → Bool),
        (∀ b, (zero b → code b = (if e3 then 0x80 else 0x7F) ∧ sat b = false)
          ∧ (¬zero b → (∃ x, first ≤ x ∧ x ≤ last ∧ fits b x) →
              first ≤ code b ∧ code b ≤ last ∧ fits b (code b) ∧ (∀ x, first ≤ x → x < code b → ¬fits b x) ∧ sat b = false)
          ∧ (¬zero b → (¬∃ x, first ≤ x ∧ x ≤ last ∧ fits b x) → code b = last ∧ sat b = true))
        ∧ S (.cvtqb f) {} (fun l => if nan (B l) ∧ !e3 then 0xFF00
              else BitVec.ofNat 32 (code (B l) * 256 + if (a l).isNan then 0 else elem l (code (B l))))
            ((List.range 12).map (fun b => if nan b ∧ !e3 then 0
              else (if sat b then 1 else 0) + ((lanes b).filter (fun l => (a l).isNan || tops l (code b))).length)).sum)

/-- R181, R182, R92. The special functions, in a word without a lookahead window (LA 0): the correctly rounded ones exactly, the special
cases of each, and otherwise one of the codes within the bound of the function's value; which of them is left open (R93). A root is the rational
that stands to every multiple of 2^-128 as the exact root does, which rounds to FP32 as the exact root.
Rests on the model's choices of log entries 3, 16. -/
def Obligations.SpecialFunctions : Prop :=
  ∀ (s : State) (c k : Nat) (w : Wave) (f : FmtV), s.runs c k w → w.wins = [] → w.regRange (f.vd.toNat :: srcRegs f 1) = false → f.la = 0 →
    let m := w.rnd f.rnd
    let a := fun l => w.fin f.abs f.negA (w.selF f.a l)
    let near := fun (n : Nat) (x : Rat) (y : FVal) =>
      let base := f32Round .rne (FVal.ofRat false x)
      ∃ code : W32, y = f32Val code ∧ (code = base ∨ ∃ p q, y = .fin p q ∧ |signed p q - x| ≤ (n : Rat) * ulpOf base.toNat)
    let root := fun (x r : Rat) => ∀ j : Nat, (mkRat j (2 ^ 128) < r ↔ mkRat j (2 ^ 128) * mkRat j (2 ^ 128) < x)
      ∧ (mkRat j (2 ^ 128) = r ↔ mkRat j (2 ^ 128) * mkRat j (2 ^ 128) = x)
    let V := fun (i : Instr) (u : LegacyUse) (ok : FVal → FVal → Prop) => i.wf → w.legacy u = none →
      ∃ g : Nat → FVal, (∀ l, ok (a l) (g l)) ∧ Ends i s c k w [] (w.each f.vd.toNat (fun l => w.fout m f.sat (g l)))
    V (.frcp f) {} (fun x y => (x = .nan → y = .nan) ∧ (∀ n, x = .fin n 0 → y = .inf n) ∧ (∀ n, x = .inf n → y = .fin n 0)
        ∧ (∀ n (q : Rat), q ≠ 0 → x = .fin n q → if w.lrcp then near 1 (signed n (1 / q)) y else y = .fin n (1 / q)))
    ∧ V (.frsq f) {} (fun x y => (x = .nan → y = .nan) ∧ (∀ n, x = .fin n 0 → y = .inf n) ∧ (x = .inf false → y = .fin false 0)
        ∧ (∀ q : Rat, q ≠ 0 → x = .fin true q → y = .nan)
        ∧ (∀ q : Rat, 0 < q → x = .fin false q → ∃ r, root (1 / q) r ∧ if w.lrcp then near 1 r y else y = .fin false r))
    ∧ V (.fsqrt f) {} (fun x y => (x = .nan → y = .nan) ∧ (∀ n, x = .fin n 0 → y = .fin n 0) ∧ (x = .inf false → y = .inf false)
        ∧ (x = .inf true → y = .nan) ∧ (∀ q : Rat, q ≠ 0 → x = .fin true q → y = .nan) ∧ (∀ q : Rat, 0 < q → x = .fin false q → ∃ r, y = .fin false r ∧ root q r))
    ∧ V (.fexp2 f) {} (fun x y => (x = .nan → y = .nan) ∧ (x = .inf true → y = .fin false 0) ∧ (x = .inf false → y = .inf false)
        ∧ (∀ n q, x = .fin n q → |signed n q| ≤ 400 → near 1 (exp2Rat (signed n q)) y)
        ∧ (∀ n q, x = .fin n q → 400 < signed n q → y = .inf false)
        ∧ (∀ n q, x = .fin n q → signed n q < -400 → ∃ p r, y = .fin p r ∧ 0 ≤ r ∧ r ≤ pow2 (-149) ∧ (p = true → r = 0)))
    ∧ V (.flog2 f) {} (fun x y => (x = .nan → y = .nan) ∧ (∀ n, x = .fin n 0 → y = .inf true) ∧ (x = .inf false → y = .inf false)
        ∧ (∀ q : Rat, q ≠ 0 → x = .fin true q → y = .nan) ∧ (∀ q : Rat, q ≠ 0 → x = .fin false q → near 1 (log2Rat q) y))
    ∧ V (.fsin f) { trig := true } (fun x y => (x = .nan → y = .nan) ∧ (∀ n, x = .inf n → y = .nan)
        ∧ (∀ n q, x = .fin n q → if trigDomain q then near 2 (sinRat (signed n q)) y else y = .nan))
    ∧ V (.fcos f) { trig := true } (fun x y => (x = .nan → y = .nan) ∧ (∀ n, x = .inf n → y = .nan)
        ∧ (∀ n q, x = .fin n q → if trigDomain q then near 2 (cosRat (signed n q)) y else y = .nan))
    ∧ V (.ftanh f) {} (fun x y => (x = .nan → y = .nan) ∧ (∀ n, x = .inf n → y = .fin n 1)
        ∧ (∀ n q, x = .fin n q → near 2 (signed n (tanhRat q)) y))

/-! ### The lane words -/

/-- R185, R186, R187, R188. Movement among lanes, quads and derivatives, and the words with a scalar result.
Rests on the model's choices of log entries 15, 128. -/
def Obligations.LaneWords : Prop :=
  ∀ (s : State) (c k : Nat) (w : Wave) (f : FmtV), s.runs c k w → w.wins = [] →
    let d := f.vd.toNat
    let inRange := fun (rs : List Nat) => rs.all (fun r => decide (r < w.vregs) && decide (r < 256)) = true
    let A := w.selW f.a
    let B := w.selW f.b
    let at0 := fun (j : Nat) => if j < w.width then A j else (0 : W32)
    let V := fun (i : Instr) (g : Nat → W32) => i.wf → inRange (d :: srcRegs f 2) → Ends i s c k w [] (w.each d g)
    let D := fun (x y : W32) => w.fout (w.rnd f.rnd) false (FVal.sum (w.rnd f.rnd) [w.fin false false x, (w.fin false false y).neg])
    let F := fun (l j : Nat) => w.selF f.a (l / 4 * 4 + j)
    V (.lbcast f) (fun _ => at0 ((B 0).toNat % 128)) ∧ V (.lshuf f) (fun l => at0 (B l).toNat)
    ∧ V (.lrot f) (fun l => A ((l + (B 0).toNat) % w.width))
    ∧ V (.lquad f) (fun l => A (l / 4 * 4 + (if f.fn = 3 then (B 0).toNat % 4 else (l % 4) ^^^ (f.fn.toNat + 1))))
    ∧ ((Instr.lderiv f).wf → inRange (d :: srcRegs f 1) → w.legacy {} = none → Ends (.lderiv f) s c k w [] (w.each d (fun l =>
        if w.hit.getLsbD l then 0
        else if f.fn = 0 then (if l % 4 < 2 then D (F l 1) (F l 0) else D (F l 3) (F l 2))
        else if f.fn = 1 then (if l % 2 = 0 then D (F l 2) (F l 0) else D (F l 3) (F l 1))
        else if f.fn = 2 then D (F l 1) (F l 0) else D (F l 2) (F l 0))))
    ∧ ((Instr.lfirst f).wf → inRange (srcRegs f 1) → Ends (.lfirst f) s c k w (match w.lanes with
        | [] => [(d, if f.fn = 0 then 0 else 0xFFFFFFFF), (126, 0)]
        | l :: _ => [(d, if f.fn = 0 then A l else BitVec.ofNat 32 l), (126, 1)]) [])
    ∧ ((Instr.lcount f).wf → inRange (srcRegs f 1) →
        let n := (w.lanes.filter (fun l => f.fn = 0 || A l ≠ 0)).length
        Ends (.lcount f) s c k w [(d, BitVec.ofNat 32 n), (126, if n = 0 then 0 else 1)] [])
    ∧ ((Instr.lred f).wf → inRange (srcRegs f 1) → w.laneLegacy (decide (8 ≤ f.fn.toNat)) = none → Ends (.lred f) s c k w [(d, w.foldLanes f w.lanes)] [])
    ∧ ((Instr.lscan f).wf → inRange (d :: srcRegs f 1) → w.laneLegacy (decide (8 ≤ f.fn.toNat)) = none → Ends (.lscan f) s c k w [] (w.each d (fun l =>
        w.foldLanes f (w.lanes.filter (fun j => if f.b = 384 then j ≤ l else j < l)))))

/-- R188. A fold over none is the operation's identity, and a fold over an extended list of lanes combines the new lane last. An integer fold over one
lane is that lane's value. FN 9 and 10 combine the values as they are read, with input flushing, under R87 or R90, and flush and canonicalise what
is written alone. An FP32 sum over one lane flushes and canonicalises its value; over two it is the sum of both, rounded and flushed, and each
further lane is added to the result so far: that the running sum is itself flushed on input and on output at each addition is the model's choice.
Rests on the model's choices of log entry 15. -/
def Obligations.FoldsInLaneOrder : Prop :=
  ∀ (w : Wave) (f : FmtV) (ls : List Nat) (i j : Nat), f.fn.toNat ≤ 10 →
    let m := w.rnd f.rnd
    let A := fun l => w.fin false false (w.selF f.a l)
    let sum := fun (x y : FVal) => w.fout m false (FVal.sum m [x, y])
    let least := fun (x y : FVal) => if w.lminmax then (if x.lt y then x else y) else x.minNum y
    let most := fun (x y : FVal) => if w.lminmax then (if y.lt x then x else y) else x.maxNum y
    (w.foldLanes f [] = redIdentity f.fn.toNat)
    ∧ (f.fn.toNat < 8 → w.foldLanes f [j] = w.selW f.a j)
    ∧ (f.fn.toNat < 8 → ls ≠ [] → w.foldLanes f (ls ++ [j]) = redOp f.fn.toNat (w.foldLanes f ls) (w.selW f.a j))
    ∧ (8 ≤ f.fn.toNat → w.foldLanes f [j] = w.fout m false (A j))
    ∧ (f.fn = 8 → w.foldLanes f [i, j] = sum (A i) (A j))
    ∧ (f.fn = 8 → 2 ≤ ls.length → w.foldLanes f (ls ++ [j]) = sum (w.fin false false (w.foldLanes f ls)) (A j))
    ∧ (f.fn = 9 → w.foldLanes f (i :: ls) = w.fout m false (ls.foldl (fun acc l => least acc (A l)) (A i)))
    ∧ (f.fn = 10 → w.foldLanes f (i :: ls) = w.fout m false (ls.foldl (fun acc l => most acc (A l)) (A i)))

/-- R151, R189, R190, R191. Division, matching, histograms and merging, in a word without a lookahead window (LA 0).
Rests on the model's choices of log entries 19, 129, 130. -/
def Obligations.LongWords : Prop :=
  ∀ (s : State) (c k : Nat) (w : Wave), s.runs c k w → w.wins = [] →
    (∀ f : FmtS, (Instr.sdiv f).wf → f.la = 0 →
      let a := w.readS f.sa.toNat
      let b := w.sop f.b
      let unsigned := f.fn.toNat % 2 = 1
      let q : Int := if unsigned then (a.toNat / b.toNat : Nat) else a.toInt.tdiv b.toInt
      let r : Int := if unsigned then (a.toNat % b.toNat : Nat) else a.toInt.tmod b.toInt
      Ends (.sdiv f) s c k w [(f.sd.toNat,
        if f.fn.toNat < 2 then (if b = 0 then 0xFFFFFFFF else BitVec.ofInt 32 q) else (if b = 0 then a else BitVec.ofInt 32 r))] [])
    ∧ (∀ f : FmtV, f.la = 0 →
      let d := f.vd.toNat
      let n := min (w.selW f.c 0).toNat 64
      let A := w.selW f.a
      let B := w.selW f.b
      let inRange := fun (rs : List Nat) => rs.all (fun r => decide (r < w.vregs) && decide (r < 256)) = true
      let sum := fun (r : Nat) => if f.fn.toNat < 2
        then ires false f.sat ((w.lanes.map (fun l => ((w.readV r l).toNat : Int))).sum)
        else (fun y => if f.sat then sat01 y else y) (w.lanes.foldl (fun acc l => w.addBits (w.rnd f.rnd) acc (w.readV r l)) 0)
      ((Instr.lmatch f).wf → inRange (run d w.beats ++ srcRegs f 1) →
        ∃ g : Nat → Nat → W32,
          (∀ l ∈ w.lanes, ∀ b n, n < 32 → (g l b).getLsbD n = (w.active (32 * b + n) && (if f.fn = 0 then decide (A l = A (32 * b + n))
            else decide (l = 32 * b + n) || (f32Val (w.selF f.a l)).eqv (f32Val (w.selF f.a (32 * b + n))))))
          ∧ Ends (.lmatch f) s c k w [] (w.lanes.flatMap (fun l => (List.range w.beats).map (fun b => (d + b, l, g l b)))))
      ∧ ((Instr.lhist f).wf → w.laneLegacy (decide (f.fn = 1)) = none → inRange (d :: run d n ++ srcRegs f 2) →
        Ends (.lhist f) s c k w [] ((w.lanes.filter (fun l => decide ((A l).toNat < n))).map (fun l =>
          let i := (A l).toNat
          (d + i, l, if f.fn = 0 then ires false f.sat (((w.readV (d + i) l).toNat + (B l).toNat : Nat))
            else (fun y => if f.sat then sat01 y else y) (w.addBits (w.rnd f.rnd) (w.readV (d + i) l) (w.selF f.b l))))))
      ∧ ((Instr.lmerge f).wf → w.laneLegacy (decide (2 ≤ f.fn.toNat)) = none → inRange (f.a.toNat :: run f.a.toNat n) →
        (f.fn.toNat % 2 = 0 → Ends (.lmerge f) s c k w [] ((List.range n).map (fun j => (f.a.toNat + j, 0, sum (f.a.toNat + j)))))
        ∧ (f.fn.toNat % 2 = 1 → (n = 0 ∨ d + n ≤ 104) →
            Ends (.lmerge f) s c k w ((List.range n).map (fun j => (d + j, sum (f.a.toNat + j)))) [])))

/-- R106. With a lookahead window (LA above 0) the writes of a word of class L without a path are withheld: no register changes as the word
ends, unless it is the last of its clause, and the window holds the writes for as many words as LA says.
Rests on the model's choices of log entry 13. -/
def Obligations.LookaheadWindowsWithhold : Prop :=
  ∀ (s t : State) (c k : Nat) (w : Wave) (cl : Clause) (i : Instr) (la : Nat),
    s.runs c k w → w.wins = [] → w.clause = some cl → w.widx + 1 < cl.words.length → i.wf → exec i s = .next t →
    ((∃ f, i = .sdiv f ∧ la = f.la.toNat) ∨ (∃ f : FmtV, la = f.la.toNat ∧ i ∈ [.frcp f, .frsq f, .fsqrt f, .fexp2 f, .flog2 f, .fsin f,
      .fcos f, .ftanh f, .lmatch f, .lhist f, .lmerge f])) → 0 < la →
    ∀ w', t.wave? c k = some w' → w'.clause ≠ none →
      w'.s = w.s ∧ w'.v = w.v ∧ w'.widx = w.widx + 1 ∧ ∃ x, w'.wins = [x] ∧ x.left = la

/-! ### The control words -/

/-- R196. The transfer words: the next header each computes, the link and counter registers, and nothing else. A is the word's address and F
the fall-through address of its clause. -/
def Obligations.Transfers : Prop :=
  ∀ (s : State) (c k : Nat) (w : Wave) (cl : Clause) (f : FmtC), s.runs c k w → w.wins = [] → w.clause = some cl →
    let A := cl.addr + BitVec.ofNat 64 (8 * (w.widx + 1))
    let F := cl.addr + BitVec.ofNat 64 (8 * (cl.words.length + 1))
    let dest := A + BitVec.ofInt 64 (8 * f.off.toInt)
    let r := f.ca.toNat
    let goes := fun (i : Instr) (ss : List (Nat × W32)) (h : W64) => ∃ t, exec i s = .next t ∧ WaveWrote s t c k w ss [] (h, none, 0)
    ((Instr.bra f).wf → goes (.bra f) [] (if w.cond f.cond f.ca then dest else F))
    ∧ ((Instr.brs f).wf → goes (.brs f) [] (dest + BitVec.ofNat 64 (8 * (f.cx.toNat * (w.readS r).toNat))))
    ∧ ((Instr.brx f).wf → goes (.brx f) [] (if w.cond f.cond 0 then w.readS (r + 1) ++ w.readS r else F))
    ∧ ((Instr.call f).wf →
        if F.toNat < w.codeBase.toNat ∨ 2 ^ 32 ≤ (F.toNat - w.codeBase.toNat) / 8 then exec (.call f) s = .next (s.trapAt c k w w.illegal)
        else goes (.call f) [(r, BitVec.ofNat 32 ((F.toNat - w.codeBase.toNat) / 8))] dest)
    ∧ ((Instr.ret f).wf → goes (.ret f) [] (if w.cond f.cond 0 then w.codeBase + BitVec.ofNat 64 (8 * (w.readS r).toNat) else F))
    ∧ ((Instr.loop f).wf → goes (.loop f) [(r, w.readS r - 1)] (if w.readS r = 1 then F else dest))

/-- R199, R200, R201, R202, R203. Divergence: MARK and BRM push, JOIN pops, MASK rewrites the mask words; a full or an empty stack traps
DIVERGENCE_DEPTH. That the target's place in the code is tested before the stack's depth, where MARK or BRM fails both, is the model's choice
(log entry 111).
Rests on the model's choices of log entry 111. -/
def Obligations.Divergence : Prop :=
  ∀ (s : State) (c k : Nat) (w : Wave) (cl : Clause) (f : FmtC), s.runs c k w → w.wins = [] → w.clause = some cl →
    let A := cl.addr + BitVec.ofNat 64 (8 * (w.widx + 1))
    let F := cl.addr + BitVec.ofNat 64 (8 * (cl.words.length + 1))
    let dest := A + BitVec.ofInt 64 (8 * f.off.toInt)
    let inCode := w.codeBase.toNat ≤ dest.toNat ∧ dest.toNat - w.codeBase.toNat < 2 ^ 34
    let woff := BitVec.ofNat 31 ((dest.toNat - w.codeBase.toNat) / 8)
    let mask := fun (m : BitVec 96) => [(120, m.extractLsb' 0 32), (121, m.extractLsb' 32 32), (122, m.extractLsb' 64 32)]
    let fits := f.ca.toNat + w.beats - 1 ≤ 127
    let cnd := if f.cx.getLsbD 0 then ~~~(w.runMask f.ca.toNat) else w.runMask f.ca.toNat
    let T := w.mask &&& cnd
    let N := w.mask &&& ~~~cnd
    let depth := fun (n : Nat) => ({ cause := 0x0A, sub := n, fm := w.mask } : Trap)
    ((Instr.mark f).wf → if ¬inCode then exec (.mark f) s = .next (s.trapAt c k w w.illegal)
        else if 32 ≤ w.dstack.length then exec (.mark f) s = .next (s.trapAt c k w (depth 1))
        else ∃ t, exec (.mark f) s = .next t ∧ WaveWrote s t c k { w with dstack := ⟨false, woff, w.mask⟩ :: w.dstack } [] [] w.done.spot)
    ∧ ((Instr.brm f).wf → if ¬fits then exec (.brm f) s = .next (s.trapAt c k w w.illegal)
        else if T = 0 then ∃ t, exec (.brm f) s = .next t ∧ WaveWrote s t c k w [] [] (F, none, 0)
        else if N = 0 then ∃ t, exec (.brm f) s = .next t ∧ WaveWrote s t c k w [] [] (dest, none, 0)
        else if ¬inCode then exec (.brm f) s = .next (s.trapAt c k w w.illegal)
        else if 32 ≤ w.dstack.length then exec (.brm f) s = .next (s.trapAt c k w (depth 1))
        else ∃ t, exec (.brm f) s = .next t
          ∧ WaveWrote s t c k { w with dstack := ⟨true, woff, T⟩ :: w.dstack } (mask N) [] (F, none, 0))
    ∧ ((Instr.join f).wf → match w.dstack with
        | [] => exec (.join f) s = .next (s.trapAt c k w (depth 2))
        | e :: rest => ∃ t, exec (.join f) s = .next t ∧
            WaveWrote s t c k { w with dstack := rest } (mask e.mask) [] (w.codeBase + BitVec.ofNat 64 (8 * e.woff.toNat), none, 0))
    ∧ ((Instr.mask f).wf → if f.cx ≠ 4 ∧ ¬fits then exec (.mask f) s = .next (s.trapAt c k w w.illegal)
        else
          let R := w.runMask f.ca.toNat
          Ends (.mask f) s c k w (mask (if f.cx = 0 then R else if f.cx = 1 then w.mask &&& R else if f.cx = 2 then w.mask &&& ~~~R
            else if f.cx = 3 then w.mask ||| R else fullMask w.beats)) [])

/-- R205, R206, R207, R208. NOP, YIELD, WAITC, SLEEP, HALT and TRAP: where each goes on, and where each blocks, ends the wave or traps. -/
def Obligations.WaitingAndEnding : Prop :=
  ∀ (s : State) (c k : Nat) (w : Wave) (cl : Clause) (f : FmtC), s.runs c k w → w.wins = [] → w.clause = some cl →
    let A := cl.addr + BitVec.ofNat 64 (8 * (w.widx + 1))
    let F := cl.addr + BitVec.ofNat 64 (8 * (cl.words.length + 1))
    let blocks := fun (i : Instr) (lo hi : Nat) => ∃ w' wake, exec i s = .next (s.setWave c k w') ∧ w'.bare = w.bare ∧ w'.s = w.s
      ∧ w'.v = w.v ∧ w'.spot = w.spot ∧ w'.block = .word s.time 1 wake ∧ lo ≤ wake ∧ wake ≤ hi
    let thr := min 63 (w.readS f.ca.toNat).toNat
    let n := min ((w.readS f.ca.toNat).toNat + f.off.toNat) (2 ^ 32 - 1)
    ((Instr.nop f).wf → Ends (.nop f) s c k w [] [])
    ∧ ((Instr.yield f).wf → ∃ t w', exec (.yield f) s = .next t ∧ WaveWrote s t c k w [] [] w.done.spot ∧ t.wave? c k = some w'
        ∧ w'.yielded = true)
    ∧ ((Instr.waitc f).wf → w.block = .none → if thr = 63 ∨ w.count (Path.ofCode f.cx.toNat) ≤ thr then Ends (.waitc f) s c k w [] []
        else blocks (.waitc f) thr thr)
    ∧ ((Instr.sleep f).wf → w.block = .none → if n = 0 then ∃ t w', exec (.sleep f) s = .next t
          ∧ WaveWrote s t c k w [] [] w.done.spot ∧ t.wave? c k = some w' ∧ w'.yielded = true
        else blocks (.sleep f) (s.ck + n) (s.ck + n + 256))
    ∧ (∀ since wake, (Instr.sleep f).wf → w.block = .word since 1 wake → wake ≤ s.ck → Ends (.sleep f) s c k w [] [])
    ∧ ((Instr.halt f).wf → if w.cond f.cond f.ca then ∃ t w', exec (.halt f) s = .next t ∧ t.wave? c k = some w' ∧ w'.halted = true
          ∧ w'.s = w.s ∧ w'.v = w.v ∧ t.mem = s.mem ∧ (∀ n, n ≠ waveKey c k → Tbl.get? t.waves n = Tbl.get? s.waves n)
        else Ends (.halt f) s c k w [] [])
    ∧ ((Instr.trap f).wf → if w.cond f.cond f.ca then
          exec (.trap f) s = .next (s.takeTrap c k w ({ cause := 0x13, sub := f.off.toNat, origin := 7, eaddr := A, fm := w.mask } : Trap) F false 0)
        else Ends (.trap f) s c k w [] [])

/-! ### Traps and the system words -/

/-- R140, R437, R440. Taking a trap whose vector entry names a handler, in a wave outside a handler: EPC, ECAUSE, EADDR, ESTAT and fm0–fm2 are
written, the wave goes on at the handler's header with INTRAP set, and every other register, the mask words and the rest of the device stay, but
for what the read of the vector entry at its home recalls, counts and leaves in the L2 and the TLBs (R275, R328, R419). -/
def Obligations.TrapEntersHandler : Prop :=
  ∀ (s : State) (c k : Nat) (w : Wave) (tr : Trap) (epc h : W64) (inclause : Bool) (word : Nat),
    w.wins = [] → w.dbgReq = false → tr.cause < 32 → tr.sub < 256 → tr.level < 4 → tr.origin < 16 → word < 16 →
    s.vectorOf c tr.cause = .handler h → w.estat.getLsbD 15 = false →
    let s1 := s.vectorRead c tr.cause
    s1.waves = s.waves ∧ s1.streams = s.streams ∧ s1.teams = s.teams
    ∧ s1.mem.scratch = s.mem.scratch ∧ s1.mem.chip = s.mem.chip ∧ s1.mem.acc = s.mem.acc ∧ s1.mem.rows = s.mem.rows ∧ s1.mem.cols = s.mem.cols
    ∧ s1.mem.bad = s.mem.bad ∧ ((∀ l, s.updateOnly l = []) → s1.mem.home = s.mem.home) ∧
    ∃ w', s.takeTrap c k w tr epc inclause word = s1.setWave c k w' ∧
      w'.pc = h ∧ w'.clause = none ∧ w'.epc = epc ∧ w'.ecause.toNat = tr.cause ∧ w'.eaddr = tr.eaddr
      ∧ (w'.estat.extractLsb' 0 8).toNat = tr.sub ∧ (w'.estat.extractLsb' 8 4).toNat = word
      ∧ w'.estat.getLsbD 12 = tr.deferred ∧ (w'.estat.extractLsb' 13 2).toNat = tr.level ∧ w'.estat.getLsbD 15 = true
      ∧ w'.estat.getLsbD 16 = false ∧ w'.estat.getLsbD 17 = false ∧ w'.estat.getLsbD 18 = inclause ∧ w'.estat.getLsbD 19 = false
      ∧ w'.estat.getLsbD 20 = tr.more ∧ (w'.estat.extractLsb' 21 3).toNat = 0 ∧ (w'.estat.extractLsb' 24 4).toNat = tr.origin
      ∧ (w'.estat.extractLsb' 28 4).toNat = 0
      ∧ (∀ r, w'.rawS r = if r = 123 then ((tr.fm &&& fullMask w.beats).extractLsb' 0 32) else if r = 124 then
          ((tr.fm &&& fullMask w.beats).extractLsb' 32 32) else if r = 125 then ((tr.fm &&& fullMask w.beats).extractLsb' 64 32) else w.rawS r)
      ∧ w'.v = w.v ∧ w'.wstat = w.wstat ∧ w'.fpcompat = w.fpcompat ∧ w'.dstack = w.dstack ∧ w'.reqs = w.reqs ∧ w'.lp = w.lp
      ∧ w'.acktag = w.acktag ∧ w'.hmask = w.hmask ∧ w'.tref = w.tref ∧ w'.pend = w.pend ∧ w'.stopped = w.stopped

/-- R440. A trap taken inside a handler, or one whose vector entry is invalid or says STOP, leaves the wave STOPPED with its record, DOUBLE or
VECBAD telling why.
Rests on the model's choices of log entry 35. -/
def Obligations.TrapStops : Prop :=
  ∀ (s : State) (c k : Nat) (w : Wave) (tr : Trap) (epc : W64) (inclause : Bool) (word : Nat),
    w.wins = [] → w.dbgReq = false → tr.cause < 32 →
    let v := s.vectorOf c tr.cause
    v = .stop ∨ v = .invalid ∨ w.estat.getLsbD 15 = true →
    ∃ w', (s.takeTrap c k w tr epc inclause word).wave? c k = some w' ∧ w'.stopped = true ∧ w'.epc = epc ∧ w'.ecause.toNat = tr.cause
      ∧ w'.eaddr = tr.eaddr ∧ w'.v = w.v ∧ (v = .invalid → w'.estat.getLsbD 16 = true)
      ∧ (v ≠ .invalid → w.estat.getLsbD 15 = true → w'.estat.getLsbD 17 = true)

/-- R104, R121, R123. A word whose fields its encoding table does not allow traps ILLEGAL_OPCODE at issue, before any effect; a sequencer word
stops its stream instead (R219). -/
def Obligations.IllFormedWordsTrap : Prop :=
  ∀ (s : State) (i : Instr) (word : W64), encode i = some word → i.wf = false →
    (∀ c k w, s.runs c k w → opFrontEnd .seq (opOf word) = false → exec i s = .next (s.trapAt c k w { cause := 0x01, fm := w.trapMask }))
    ∧ (∀ c m, s.runsStream c m → opFrontEnd .seq (opOf word) = true → exec i s = .next (s.streamTrap c m 0x01 0 0))

/-- R121, R91. A word of format V or VI that names a vector register at or above VREGS traps REG_RANGE; a word that a set request of FPCOMPAT
governs traps LEGACY_UNSUPPORTED before any effect, naming every active lane, with the lowest sub-code among those of the requests that govern it.
Each word stands below with the registers it names and the requests it knows besides XMINNORM, XNANPAY and the unassigned ones. -/
def Obligations.RangeAndLegacyTraps : Prop :=
  ∀ (s : State) (c k : Nat) (w : Wave), s.runs c k w →
    let fp := fun (n : Nat) => w.fpcompat.getLsbD n
    let lowest := fun (u : LegacyUse) => (([(u.xprec && fp 7, 0x01), (fp 8, 0x02), (u.zeroNan && fp 9, 0x03), (u.cvtfi && fp 4 && fp 5, 0x04),
      (u.trig && fp 10, 0x05), (u.fp16 && fp 11, 0x06), (fp 12, 0x07), (fp 13, 0x20), (fp 14, 0x21), (fp 15, 0x22)]
      : List (Bool × Nat)).find? (fun x => x.1)).map (fun x => x.2)
    let range := fun (i : Instr) (rs : List Nat) =>
      i.wf → w.regRange rs = true → exec i s = .next (s.trapAt c k w { cause := 0x03, fm := w.trapMask })
    let flt := fun (i : Instr) (rs : List Nat) (u : LegacyUse) => range i rs ∧ (i.wf → w.regRange rs = false → ∀ n, lowest u = some n →
      exec i s = .next (s.trapAt c k w { cause := 0x0C, sub := n, fm := w.trapMask }))
    let maskRun := fun (d : Nat) => d + w.beats ≤ 104 ∨ d = 120
    (∀ f : FmtV,
      let d := f.vd.toNat
      let R := fun (n : Nat) => d :: srcRegs f n
      let S := srcRegs f 1
      let n := min (w.selW f.c 0).toNat 64
      let half : LegacyUse := { fp16 := decide (f.fn = 0) }
      let pack : LegacyUse := { xprec := true, fp16 := decide (f.fn = 0) }
      (∀ x ∈ ([(.vadd f, R 2), (.vsub f, R 2), (.vmul f, R 2), (.vmulhi f, R 2), (.vand f, R 2), (.vor f, R 2), (.vxor f, R 2), (.vshl f, R 2),
          (.vshr f, R 2), (.vrot f, R 2), (.vmin f, R 2), (.vmax f, R 2), (.lshuf f, R 2), (.vmad f, R 3), (.vbfx f, R 3), (.vbfi f, R 3),
          (.vsad f, R 3), (.vdot4 f, R 3), (.vperm f, R 3), (.vmov f, R 1), (.vbitc f, R 1), (.lbcast f, R 1), (.lrot f, R 1), (.lquad f, R 1),
          (.vadd64 f, [d, d + 1] ++ selRegPair f.a ++ (if f.fn = 0 then selRegPair f.b else selReg f.b)),
          (.vmad64 f, [d, d + 1] ++ srcRegs f 2 ++ selRegPair f.c), (.lfirst f, S), (.lcount f, S), (.lmatch f, run d w.beats ++ S)]
          : List (Instr × List Nat)), range x.1 x.2)
      ∧ (maskRun d → range (.vcmp f) (srcRegs f 2) ∧ range (.lballot f) S ∧ flt (.fcmp f) (srcRegs f 2) {})
      ∧ ((256 ≤ f.c.toNat → f.c.toNat < 384 → f.c.toNat - 256 + w.beats - 1 ≤ 127) → range (.vsel f) (R 3))
      ∧ (∀ x ∈ ([(.fadd f, R 2, { xprec := true }), (.fsub f, R 2, { xprec := true }), (.fmul f, R 2, { xprec := true, zeroNan := true }),
          (.ffma f, R 3, { xprec := true, zeroNan := true }), (.fmin f, R 2, {}), (.fmax f, R 2, {}), (.frnd f, R 1, {}), (.ffract f, R 1, {}),
          (.fclass f, R 1, {}), (.fldexp f, R 2, {}), (.ffrexp f, R 1, {}), (.hadd2 f, R 2, pack), (.hmul2 f, R 2, pack), (.hfma2 f, R 3, pack),
          (.hdot2 f, R 3, pack), (.cvtfi f, R 1, { cvtfi := true }), (.cvtif f, R 1, {}),
          (.cvtff f, R 1, { fp16 := decide (f.fn ≠ 1 ∧ f.fn ≠ 3) }), (.cvtpk f, R 2, half), (.cvtunp f, R 2, half), (.cvtqb f, R 1, {}),
          (.frcp f, R 1, {}), (.frsq f, R 1, {}), (.fsqrt f, R 1, {}), (.fexp2 f, R 1, {}), (.flog2 f, R 1, {}), (.fsin f, R 1, { trig := true }),
          (.fcos f, R 1, { trig := true }), (.ftanh f, R 1, {}), (.lderiv f, R 1, {})] : List (Instr × List Nat × LegacyUse)),
          flt x.1 x.2.1 x.2.2)
      ∧ range (.lred f) S ∧ range (.lscan f) (R 1) ∧ range (.lhist f) (d :: run d n ++ srcRegs f 2)
      ∧ (8 ≤ f.fn.toNat → flt (.lred f) S {} ∧ flt (.lscan f) (R 1) {}) ∧ (f.fn = 1 → flt (.lhist f) (d :: run d n ++ srcRegs f 2) {})
      ∧ ((f.fn.toNat % 2 = 1 → n = 0 ∨ d + n ≤ 104) →
          range (.lmerge f) (f.a.toNat :: run f.a.toNat n) ∧ (2 ≤ f.fn.toNat → flt (.lmerge f) (f.a.toNat :: run f.a.toNat n) {})))
    ∧ (∀ f : FmtVI,
      let R := f.vd.toNat :: selReg f.a
      (∀ i ∈ ([.vaddImm f, .vsubImm f, .vmulImm f, .vmulhiImm f, .vandImm f, .vorImm f, .vxorImm f, .vshlImm f, .vshrImm f, .vrotImm f, .vminImm f,
          .vmaxImm f] : List Instr), range i R)
      ∧ range (.vadd64Imm f) ([f.vd.toNat, f.vd.toNat + 1] ++ selRegPair f.a)
      ∧ (∀ x ∈ ([(.faddImm f, { xprec := true }), (.fsubImm f, { xprec := true }), (.fmulImm f, { xprec := true, zeroNan := true }),
          (.fminImm f, {}), (.fmaxImm f, {}), (.fldexpImm f, {})] : List (Instr × LegacyUse)), flt x.1 R x.2)
      ∧ (maskRun f.vd.toNat → range (.vcmpImm f) (selReg f.a) ∧ flt (.fcmpImm f) (selReg f.a) {}))

/-- R138, R445, R446. SRD reads each of the wave's own registers, of its stream's, of the device's and of the window's by its number, and traps
PROTECTION where no register has the number. -/
def Obligations.SystemRegisterReads : Prop :=
  ∀ (s : State) (c k : Nat) (w : Wave) (f : FmtY), s.runs c k w → w.wins = [] → (Instr.srd f).wf →
    (∀ v, s.sysRead c w f.sreg.toNat = some v → Ends (.srd f) s c k w [(f.sd.toNat, v)] [])
    ∧ (s.sysRead c w f.sreg.toNat = none → exec (.srd f) s = .next (s.trapAt c k w { cause := 0x06, fm := w.mask }))
    ∧ s.sysRead c w 0 = some w.wstat ∧ s.sysRead c w 1 = some w.fpcompat ∧ s.sysRead c w 2 = some (w.epc.extractLsb' 0 32)
    ∧ s.sysRead c w 3 = some (w.epc.extractLsb' 32 32) ∧ s.sysRead c w 4 = some w.ecause ∧ s.sysRead c w 5 = some (w.eaddr.extractLsb' 0 32)
    ∧ s.sysRead c w 6 = some (w.eaddr.extractLsb' 32 32) ∧ s.sysRead c w 7 = some w.estat
    ∧ s.sysRead c w 8 = some (BitVec.ofNat 32 w.dstack.length)
    ∧ (let m := fun (n : Nat) (g : Stream → W32) => s.sysRead c w n = some (match s.ownStream c w with | some x => g x | none => 0)
      s.sysRead c w 0x100 = some (BitVec.ofNat 32 s.win.mxidle) ∧ s.sysRead c w 0x101 = some 64 ∧ m 0x102 (fun x => x.mfault)
      ∧ m 0x103 (fun x => x.mfpc.extractLsb' 0 32) ∧ m 0x104 (fun x => x.mfpc.extractLsb' 32 32) ∧ m 0x105 (fun x => x.mfaddr.extractLsb' 0 32)
      ∧ m 0x106 (fun x => x.mfaddr.extractLsb' 32 32) ∧ s.sysRead c w 0x107 = some 0)
    ∧ s.sysRead c w 0x110 = some (match s.team? w.team with
        | some t => if t.excl then BitVec.ofNat 32 (t.p / 4096 * 0x4000 + t.core % 4 * 0x1000) else 0xFFFFFFFF
        | none => 0xFFFFFFFF)
    ∧ s.sysRead c w 0x120 = some (BitVec.ofNat 32 c)
    ∧ s.sysRead c w 0x8000 = some (BitVec.ofNat 32 s.win.thot) ∧ s.sysRead c w 0x8001 = some (BitVec.ofNat 32 s.win.dmax)
    ∧ s.sysRead c w 0x8002 = some (BitVec.ofNat 32 s.win.tslice) ∧ s.sysRead c w 0x8003 = some (BitVec.ofNat 32 s.win.wdtime)
    ∧ s.sysRead c w 0x8004 = some s.win.errpol ∧ s.sysRead c w 0x8005 = some (s.win.tvbase.extractLsb' 0 32)
    ∧ s.sysRead c w 0x8006 = some (s.win.tvbase.extractLsb' 32 32) ∧ s.sysRead c w 0x8007 = some (s.win.trapq.extractLsb' 0 32)
    ∧ s.sysRead c w 0x8008 = some (s.win.trapq.extractLsb' 32 32) ∧ s.sysRead c w 0x8009 = some (BitVec.ofNat 32 s.win.trapqSize)
    ∧ s.sysRead c w 0x800A = some (BitVec.ofNat 32 s.win.trapqTail)
    ∧ (∀ n, (9 ≤ n ∧ n < 0x100) ∨ (0x108 ≤ n ∧ n < 0x110) ∨ (0x111 ≤ n ∧ n < 0x120) ∨ (0x121 ≤ n ∧ n < 0x8000) ∨ 0x800B ≤ n →
        s.sysRead c w n = none)

/-- R138, R445, R443, R60. SWR writes the wave's own registers, reserved bits as zero and the other half kept, and sets IDEM_LOST; the stream's fault
registers of a team with an mseq role; MSRESUME, which lets a stopped stream issue again at MFPC, or after a POISON stop at MPC, or ends it, and
leaves one that is not stopped; and it traps PROTECTION on every other number.
Rests on the model's choices of log entry 23. -/
def Obligations.SystemRegisterWrites : Prop :=
  ∀ (s : State) (c k : Nat) (w : Wave) (f : FmtY), s.runs c k w → w.wins = [] → (Instr.swr f).wf →
    let v := w.readS f.sa.toNat
    let n := f.sreg.toNat
    let own := fun (w1 : Wave) => ∃ t, exec (.swr f) s = .next t ∧ WaveWrote (s.idemLost w.team) t c k w1 [] [] w.done.spot
    let str := fun (m1 : Stream) => ∃ t, exec (.swr f) s = .next t ∧ WaveWrote ((s.setStream c m1).idemLost w.team) t c k w [] [] w.done.spot
    let trap := exec (.swr f) s = .next (s.trapAt c k w { cause := 0x06, fm := w.mask })
    let lo := fun (x : W64) => x.extractLsb' 0 32
    let hi := fun (x : W64) => x.extractLsb' 32 32
    (n = 0 → own { w with wstat := v &&& 0x1F }) ∧ (n = 1 → own { w with fpcompat := v &&& 0xFFFF })
    ∧ (n = 2 → own { w with epc := hi w.epc ++ v }) ∧ (n = 3 → own { w with epc := v ++ lo w.epc })
    ∧ (n = 4 → own { w with ecause := v &&& 0xFF }) ∧ (n = 5 → own { w with eaddr := hi w.eaddr ++ v })
    ∧ (n = 6 → own { w with eaddr := v ++ lo w.eaddr }) ∧ (n = 7 → own { w with estat := v &&& estatMask })
    ∧ (∀ m, s.ownStream c w = some m →
        (n = 0x102 → str { m with mfault := v &&& 0xFFFF }) ∧ (n = 0x103 → str { m with mfpc := hi m.mfpc ++ v })
        ∧ (n = 0x104 → str { m with mfpc := v ++ lo m.mfpc }) ∧ (n = 0x107 → v ≠ 1 → v ≠ 2 → trap)
        ∧ (n = 0x107 → v = 1 ∨ v = 2 → m.stopped = false → ∃ t, exec (.swr f) s = .next t ∧ WaveWrote (s.idemLost w.team) t c k w [] [] w.done.spot)
        ∧ (n = 0x107 → v = 1 → m.stopped = true → m.poisonStop = true →
            str { m with stopped := false, poisonStop := false, reported := false })
        ∧ (n = 0x107 → v = 1 → m.stopped = true → m.poisonStop = false →
            ∃ m1, str m1 ∧ m1.bare = { m with stopped := false, reported := false }.bare ∧ m1.m = m.m ∧ m1.mpc = m.mfpc ∧ m1.block = .none
              ∧ (m1.clause = none ∨ ∃ cl, m.clause = some cl ∧ m1.clause = some cl ∧ m1.widx + 1 = (m.mfpc - cl.addr).toNat / 8))
        ∧ (n = 0x107 → v = 2 → m.stopped = true → ∃ t w' m', exec (.swr f) s = .next t ∧ t.wave? c k = some w' ∧ w'.spot = w.done.spot ∧ w'.s = w.s
            ∧ w'.v = w.v ∧ t.stream? c = some m' 
              ∧ m' = { m with halted := true, stopped := false, dbg := false, dbgReq := false, block := .none, clause := none }))
    ∧ (s.ownStream c w = none → 8 ≤ n → trap) ∧ (8 ≤ n → n ∉ [0x102, 0x103, 0x104, 0x107] → trap)

/-- R447, R448. ERET clears INTRAP and goes back to the recorded header, or to the clause of the recorded word; BRK traps BREAKPOINT at the
fall-through header.
Rests on the model's choices of log entry 22. -/
def Obligations.ReturnAndBreakpoint : Prop :=
  ∀ (s : State) (c k : Nat) (w : Wave) (cl : Clause) (f : FmtY), s.runs c k w → w.wins = [] → w.clause = some cl →
    ((Instr.eret f).wf →
      let n := (w.estat.extractLsb' 8 4).toNat
      ∃ w', exec (.eret f) s = .next (s.setWave c k w') ∧ w'.bare = { w with estat := w.estat &&& ~~~0x8000, standsTrap := none }.bare ∧ w'.s = w.s ∧ w'.v = w.v
        ∧ (if w.estat.getLsbD 18 then w'.spot = (w.epc - BitVec.ofNat 64 (8 * (n + 1)), none, 0) ∧ w'.eretWord = some n
           else w'.spot = (w.epc, none, 0) ∧ w'.eretWord = none))
    ∧ ((Instr.brk f).wf → exec (.brk f) s = .next (s.takeTrap c k w
        ({ cause := 0x14, sub := f.imm.toNat, origin := 7, eaddr := cl.addr + BitVec.ofNat 64 (8 * (w.widx + 1)), fm := w.mask } : Trap)
        (cl.addr + BitVec.ofNat 64 (8 * (cl.words.length + 1))) false 0))

/-- R482, R484, R486, R449. CNTRD, CNTCFG, TIME and ISYNC.
Rests on the model's choices of log entries 8, 26. -/
def Obligations.CountersAndTime : Prop :=
  ∀ (s : State) (c k : Nat) (w : Wave) (f : FmtY), s.runs c k w → w.wins = [] →
    let d := f.sd.toNat
    let pair := fun (x : W64) => [(d, x.extractLsb' 0 32), (d + 1, x.extractLsb' 32 32)]
    let v := w.readS f.sa.toNat
    ((Instr.cntrd f).wf → match s.counterRead c w f.imm.toNat f.sa.toNat with
      | some x => ∃ s' t, exec (.cntrd f) s = .next t ∧ { s' with cores := s.cores } = s
          ∧ WaveWrote s' t c k w (pair x ++ [(126, 1)]) [] w.done.spot
      | none => Ends (.cntrd f) s c k w (pair 0 ++ [(126, 0)]) [])
    ∧ (∀ p, p < 8 → s.counterRead c w p f.sa.toNat = some (BitVec.ofNat 64 (w.count (Path.ofCode p))))
    ∧ s.counterRead c w 0x1010 f.sa.toNat = some (BitVec.ofNat 64 (s.ck - (s.core c).ckBase))
    ∧ (∀ p, p < 8 → s.counterRead c w (0x1000 + p) f.sa.toNat = some (Tbl.getD (s.core c).pmc p Pmc.zero).val)
    ∧ ((Instr.cntcfg f).wf → if v.toNat / 1024 = 0 ∧ v.toNat % 256 ≤ 0x20 then
          ∃ t, exec (.cntcfg f) s = .next t ∧ WaveWrote (s.setCore c { s.core c with
            pmc := Tbl.put (s.core c).pmc f.imm.toNat Pmc.zero ⟨v, 0, s.launchOf w.team, w.team⟩ }) t c k w [] [] w.done.spot
        else exec (.cntcfg f) s = .next (s.trapAt c k w { cause := 0x06, sub := 0x31, fm := w.mask }))
    ∧ ((Instr.time f).wf → Ends (.time f) s c k w (pair (BitVec.ofNat 64 (s.time / 17))) [])
    ∧ ((Instr.isync f).wf →
        if w.reqs.any (fun q => pathMemory q.path) then ∃ w', exec (.isync f) s = .next (s.setWave c k w') ∧ w'.bare = w.bare ∧ w'.s = w.s
          ∧ w'.v = w.v ∧ w'.spot = w.spot
        else ∃ t w', exec (.isync f) s = .next t ∧ t.wave? c k = some w' ∧ w'.spot = w.done.spot ∧ w'.s = w.s ∧ w'.v = w.v
          ∧ (t.core c).icache = [])

/-! ### The memory words at issue -/

/-- R242, R310, R311, R313, R326, R327, R332. A vector load, store, atomic or reduction whose lanes all pass their checks puts one request in
flight on its path, with one access for each of its lanes (its address and place, its bytes, and what it does there), and the wave goes on;
nothing is read or written yet, and memory changes only as the page walks of the word's own translations change it. Its lanes are the active ones, for a store, atomic or reduction without the helpers (HMASK). Stores beyond the
core, atomics and reductions set IDEM_LOST (R60). A word without a lane and without SEM goes on with no request. The model's choices: that the helpers are masked
for atomics and reductions too (log entry 65), that an LDC or STC without a lane completes in a team that does not hold its cluster (108), and
that a store's or an atomic's data are those its registers read at issue, under any LA (109).
Rests on the model's choices of log entries 65, 108, 109. -/
def Obligations.VectorMemoryWords : Prop :=
  ∀ (s : State) (c k : Nat) (w : Wave) (f : FmtM), s.runs c k w → w.wins = [] →
    let size := f.fn.toNat % 8
    let d := f.data.toNat
    let issues := fun (i : Instr) (lvl : Level) (path : Path) (a64 : Bool) (n : Nat) (regs : List Nat) (it : Intent) (lost : Bool)
        (op : Nat → AccOp) (ret : Ret) =>
      let ls := w.lanes.filter (fun l => !(it == Intent.write && w.hmask.getLsbD l))
      i.wf → w.regRange (regs ++ voffRegs f a64) = false → w.count path < 63 →
      (ls = [] → f.sem = 0 → ∃ t, exec i s = .next t ∧ t.wave? c k = some w.done ∧ t.mem = s.mem)
      ∧ ∀ pl : Nat → Place, ls ≠ [] → (∀ l ∈ ls, s.check c w lvl it l (w.laneAddr f a64 l) n = .ok (pl l)) →
        ∃ t w' q, exec i s = .next t ∧ t.wave? c k = some w' ∧ w'.reqs = w.reqs ++ [q] ∧ w'.spot = w.done.spot ∧ w'.s = w.s ∧ w'.v = w.v
          ∧ q.path = path ∧ q.sem = f.sem.toNat ∧ q.scope = f.scope.toNat ∧ q.ret = ret ∧ q.sent = false
          ∧ q.accs = ls.map (fun l => ⟨l, w.laneAddr f a64 l, (pl l).pa, n, lvl, (pl l).kind, (pl l).buf, op l, false, 0, false, 0⟩)
          ∧ t.mem = (s.touchAll c lvl (ls.map (w.laneAddr f a64))).mem
          ∧ (∀ x, s.team? w.team = some x → ∃ y, t.team? w.team = some y ∧ y.idemLost = (x.idemLost || lost))
    let load := fun (i : Instr) (lvl : Level) (path : Path) (a64 : Bool) =>
      issues i lvl path a64 (sizeBytes size) (run d (sizeRun size)) .read false (fun _ => .read) (.vload d size 0 w.mask)
    let store := fun (i : Instr) (lvl : Level) (path : Path) (a64 lost : Bool) =>
      issues i lvl path a64 (sizeBytes size) (run d (sizeRun size)) .write lost (fun l => .write (w.runValue d (sizeBytes size) l)) .none
    let n := if f.fn.toNat < 12 then 4 else 8
    let cn := if f.fn = 0 then 4 else 8
    load (.ldl f) .lp .lp false ∧ load (.lds f) .spad .lp false ∧ load (.ldc f) .csm .cs false ∧ load (.ldp f) .chip .cp false
    ∧ load (.ldg f) .glob .gl (f.fn.getLsbD 3)
    ∧ store (.stl f) .lp .lp false false ∧ store (.sts f) .spad .lp false false ∧ store (.stc f) .csm .cs false true
    ∧ store (.stp f) .chip .cp false true ∧ store (.stg f) .glob .gs (f.fn.getLsbD 3) true
    ∧ issues (.atom f) .glob .gs false n (run d (n / 4)) .write true (fun l => .atom f.fn.toNat (w.runValue d n l)) (.atomRet d n w.mask)
    ∧ issues (.red f) .glob .gs false n (run d (n / 4)) .write true (fun l => .red f.fn.toNat (w.runValue d n l)) .none
    ∧ issues (.acas f) .glob .gs false cn (run d (cn / 2)) .write true
        (fun l => .cas (w.runValue d cn l) (w.runValue (d + cn / 4) cn l)) (.atomRet d cn w.mask)

/-- R121, R242, R332. A vector memory word that names a register at or above VREGS traps REG_RANGE. With failing lanes, whose checks all precede
any access, it has no effect but its trap, the cause and address of the lowest failing lane and every failing lane in fm0–fm2, and what its
translations leave in the TLBs. That a helper lane (HMASK) is no lane of an atomic or a reduction, as of a store, is the model's choice (log entry 65).
Rests on the model's choices of log entry 65. -/
def Obligations.MemoryChecksTrap : Prop :=
  ∀ (s : State) (c k : Nat) (w : Wave) (f : FmtM), s.runs c k w →
    let size := f.fn.toNat % 8
    let d := f.data.toNat
    let traps := fun (i : Instr) (lvl : Level) (path : Path) (a64 : Bool) (n : Nat) (regs : List Nat) (it : Intent) =>
      let ls := w.lanes.filter (fun l => !(it == Intent.write && w.hmask.getLsbD l))
      let va := w.laneAddr f a64
      let chk := fun (l : Nat) => s.check c w lvl it l (va l) n
      let bad := ls.filter (fun l => match chk l with | .error _ => true | .ok _ => false)
      i.wf → (w.regRange (regs ++ voffRegs f a64) = true → exec i s = .next (s.trapAt c k w { cause := 0x03, fm := w.trapMask }))
      ∧ (w.regRange (regs ++ voffRegs f a64) = false → w.count path < 63 → ∀ l0 e, bad.head? = some l0 → chk l0 = .error e →
          exec i s = .next ((s.touchAll c lvl (ls.map va)).trapAt c k w
            { cause := e.cause, sub := e.sub, level := e.level, eaddr := va l0, fm := maskOf bad }))
    let moves := fun (i : Instr) (lvl : Level) (path : Path) (a64 : Bool) => traps i lvl path a64 (sizeBytes size) (run d (sizeRun size))
    let n := if f.fn.toNat < 12 then 4 else 8
    let cn := if f.fn = 0 then 4 else 8
    moves (.ldl f) .lp .lp false .read ∧ moves (.stl f) .lp .lp false .write ∧ moves (.lds f) .spad .lp false .read
    ∧ moves (.sts f) .spad .lp false .write ∧ moves (.ldc f) .csm .cs false .read ∧ moves (.stc f) .csm .cs false .write
    ∧ moves (.ldp f) .chip .cp false .read ∧ moves (.stp f) .chip .cp false .write
    ∧ moves (.ldg f) .glob .gl (f.fn.getLsbD 3) .read ∧ moves (.stg f) .glob .gs (f.fn.getLsbD 3) .write
    ∧ traps (.atom f) .glob .gs false n (run d (n / 4)) .write ∧ traps (.red f) .glob .gs false n (run d (n / 4)) .write
    ∧ traps (.acas f) .glob .gs false cn (run d (cn / 2)) .write

/-- R265, R332. The checks of one access, in order: alignment first, then what the level allows. -/
def Obligations.AccessChecks : Prop :=
  ∀ (s : State) (c l n : Nat) (w : Wave) (it : Intent) (va : W64) (lvl : Level),
    (va.toNat % n ≠ 0 → s.check c w lvl it l va n = .error ⟨0x04, 0, 0⟩)
    ∧ (va.toNat % n = 0 → s.check c w .lp it l va n = if va.toNat + n ≤ w.lanePriv then .ok ⟨lpKey l va.toNat, .rc, false⟩ else .error ⟨0x06, 0, 0⟩)
    ∧ (∀ t, s.team? w.team = some t → va.toNat % n = 0 → s.check c w .spad it l va n =
        if va.toNat + n ≤ t.spad * 4096 then .ok ⟨scratchKey t.core (t.p + va.toNat), .rc, false⟩ else .error ⟨0x06, 0, 0⟩)
    ∧ (∀ t, s.team? w.team = some t → va.toNat % n = 0 → s.check c w .csm it l va n =
        if t.excl = true ∧ va.toNat + n ≤ 0x200000 then .ok ⟨csmKey (c / 4) va.toNat, .rc, false⟩ else .error ⟨0x06, 0, 0⟩)
    ∧ (∀ x, va.toNat % n = 0 → s.translate (c / 4) va it = .ok x →
        s.check c w .glob it l va n = if x.kind = .ts then .error ⟨0x07, 0, 0⟩ else .ok ⟨x.pa, x.kind, x.buf⟩)

/-- R315, R318, R320, R321, R322. The scalar, queue and tile words whose checks pass complete: the one access or the pieces each puts in flight,
and LDQ's entry. Nothing is read or written yet; memory changes only as the page walks of the word's own translations change it. That the data
of SST and TST are those their registers read at issue, under any LA, is the model's choice (log entry 109).
Rests on the model's choices of log entries 45, 109. -/
def Obligations.ScalarTileAndQueueLoads : Prop :=
  ∀ (s : State) (c k : Nat) (w : Wave) (f : FmtM), s.runs c k w → w.wins = [] →
    let size := f.fn.toNat % 8
    let d := f.data.toNat
    let va := w.baseAddr f.base + f.imm.signExtend 64
    let goes := fun (t : State) (q : Req) (path : Path) (walked : State) => ∃ w', t.wave? c k = some w' ∧ w'.reqs = w.reqs ++ [q]
      ∧ w'.spot = w.done.spot ∧ w'.s = w.s ∧ w'.v = w.v ∧ q.path = path ∧ q.sent = false ∧ t.mem = walked.mem
    ((Instr.sld f).wf → w.count .gl < 63 → ∀ p, s.check c w .glob .read 0 va (sizeBytes size) = .ok p →
      ∃ t q, exec (.sld f) s = .next t ∧ goes t q .gl (s.touchTlb (clusterOf c) va) ∧ q.ret = .sload d size 0
        ∧ q.accs = [⟨0, va, p.pa, sizeBytes size, .glob, p.kind, p.buf, .read, false, 0, false, 0⟩])
    ∧ ((Instr.sst f).wf → w.count .gs < 63 → ∀ p, s.check c w .glob .write 0 va (sizeBytes size) = .ok p →
      ∃ t q, exec (.sst f) s = .next t ∧ goes t q .gs ((s.idemLost w.team).touchTlb (clusterOf c) va) ∧ q.ret = .none
        ∧ q.accs = [⟨0, va, p.pa, sizeBytes size, .glob, p.kind, p.buf, .write (w.srunValue d (sizeBytes size)), false, 0, false, 0⟩])
    ∧ (∀ x, (Instr.ldq f).wf → s.team? w.team = some x → w.regRange (voffRegs f (f.fn.getLsbD 3)) = false → w.count .gl < 63 → w.lanes ≠ [] →
        (x.queue d).mayPush (.wave c k) = true →
        ∀ pl : Nat → Place, (∀ l ∈ w.lanes, s.check c w .glob .read l (w.laneAddr f (f.fn.getLsbD 3) l) (sizeBytes size) = .ok (pl l)) →
        ∃ t q y, exec (.ldq f) s = .next t ∧ goes t q .gl (s.touchAll c .glob (w.lanes.map (w.laneAddr f (f.fn.getLsbD 3)))) ∧ q.ret = .queue d ((x.queue d).head + (x.queue d).entries.length) size 0 w.mask
          ∧ t.team? w.team = some y ∧ (y.queue d).entries = (x.queue d).entries ++ [⟨false, []⟩] ∧ (y.queue d).head = (x.queue d).head)
    ∧ (∀ ps vs, (Instr.tld f).wf → w.regRange (tileRegs f) = false → w.count .gl < 63 →
        s.tileCheck c w va (tileBytes f) (if f.fn.getLsbD 3 then some (w.readS64 (f.base.toNat + 2)) else none) .read .read = .ok (ps, vs) →
        ∃ t q, exec (.tld f) s = .next t ∧ goes t q .gl (s.touchAll c .glob ((ps ++ vs).map (fun a => a.va))) ∧ q.accs = vs ++ ps ++ vs ∧ q.ret = .tile d (tileBytes f) (f.fn.getLsbD 3))
    ∧ (∀ ps vs, (Instr.tst f).wf → w.regRange (tileRegs f) = false → w.count .gs < 63 →
        s.tileCheck c w va (tileBytes f) (if f.fn.getLsbD 3 then some (w.readS64 (f.base.toNat + 2)) else none) .write .write = .ok (ps, vs) →
        ∃ t q, exec (.tst f) s = .next t ∧ goes t q .gs ((s.idemLost w.team).touchAll c .glob ((ps ++ vs).map (fun a => a.va))) ∧ q.ret = .none
          ∧ q.accs.length = ps.length + 2 * vs.length
          ∧ (∀ a ∈ ps, { a with op := .write (w.tilePiece d a.lane) } ∈ q.accs) ∧ (∀ a ∈ vs, { a with op := .atom 13 1 } ∈ q.accs))

/-- R304, R317, R319, R323, R324, R329. PFG, CLEAN, INVAL, DISCARD and FENCE complete, while no acquire of the wave is outstanding (PFG, CLEAN, INVAL)
or no memory access of it (FENCE): what each does at once, or puts in flight. PFG leaves the line of its lane on its way or present; CLEAN leaves
no dirty byte and INVAL no copy in the core's column of every line, or of the lines its lanes name, where its scope acts; DISCARD puts one
access of 128 bytes for each lane in flight; FENCE leaves the column as its semantics and scope say and reads ACKTAG.
Rests on the model's choices of log entries 27, 28. -/
def Obligations.CacheWordsAndFences : Prop :=
  ∀ (s : State) (c k : Nat) (w : Wave) (f : FmtM), s.runs c k w → w.wins = [] →
    let moved := fun (t : State) => ∃ w', t.wave? c k = some w' ∧ w'.spot = w.done.spot ∧ w'.s = w.s ∧ w'.v = w.v ∧ w'.reqs = w.reqs
    let acts := columnScope (s.paired w.team) f.scope.toNat = true
    let a64 := f.fn.getLsbD 3
    ((Instr.pfg f).wf → w.regRange (voffRegs f a64) = false → w.acquiring = false →
        ∃ t, exec (.pfg f) s = .next t ∧ moved t
          ∧ ∀ l x, w.lanes = [l] → s.translate (c / 4) (w.laneAddr f a64 l) .read = .ok x → (x.kind = .rc ∨ x.kind = .uo) →
            (Tbl.get? (t.cluster (c / 4)).lines (x.pa / 128)).isSome = true
              ∨ (t.cluster (c / 4)).misses.any (fun m => decide (m.line = x.pa / 128)) = true)
    ∧ ((Instr.clean f).wf → f.fn = 0 → w.regRange (voffRegs f false) = false → w.acquiring = false →
        ∃ t, exec (.clean f) s = .next t ∧ moved t ∧ (acts → ∀ line, line < 2 ^ 41 → t.colDirty c line = false))
    ∧ ((Instr.inval f).wf → f.fn = 0 → w.regRange (voffRegs f false) = false → w.acquiring = false →
        ∃ t, exec (.inval f) s = .next t ∧ moved t ∧ (acts → ∀ line, line < 2 ^ 41 → t.colLine c line = none))
    ∧ (∀ pl : Nat → Place, f.fn = 1 → w.regRange (voffRegs f false) = false → w.acquiring = false →
        (∀ l ∈ w.lanes, s.check c w .glob .read l (w.laneAddr f false l) 1 = .ok (pl l)) →
        ((Instr.clean f).wf → ∃ t, exec (.clean f) s = .next t ∧ moved t ∧ (acts → ∀ l ∈ w.lanes, t.colDirty c ((pl l).pa / 128) = false))
        ∧ ((Instr.inval f).wf → ∃ t, exec (.inval f) s = .next t ∧ moved t ∧ (acts → ∀ l ∈ w.lanes, t.colLine c ((pl l).pa / 128) = none)))
    ∧ (∀ x : Nat → Xlat, (Instr.discard f).wf → w.regRange (voffRegs f a64) = false → w.count .gs < 63 → w.lanes ≠ [] →
        (∀ l ∈ w.lanes, s.translate (c / 4) (w.laneAddr f a64 l) .write = .ok (x l) ∧ hostWindow (x l).pa = false ∧ (x l).kind ≠ .ts) →
        ∃ t w' q, exec (.discard f) s = .next t ∧ t.wave? c k = some w' ∧ w'.reqs = w.reqs ++ [q] ∧ w'.spot = w.done.spot ∧ w'.s = w.s
          ∧ w'.v = w.v ∧ q.path = .gs ∧ q.accs.map (fun a => (a.pa, a.n, a.op, a.done))
            = w.lanes.map (fun l => ((x l).pa / 128 * 128, 128, .discard, false)))
    ∧ ((Instr.discard f).wf → w.regRange (voffRegs f a64) = false → w.count .gs < 63 → w.lanes = [] →
        ∃ t, exec (.discard f) s = .next t ∧ t.wave? c k = some w.done ∧ t.mem = s.mem)
    ∧ ((Instr.fence f).wf → (∀ q ∈ w.reqs, pathMemory q.path = false) →
        ∃ t w', exec (.fence f) s = .next t ∧ t.wave? c k = some w' ∧ w'.spot = w.done.spot ∧ w'.v = w.v ∧ w'.reqs.length = w.reqs.length
          ∧ (∀ r, w'.rawS r = if r = f.data.toNat ∧ w.discards r = false then w'.acktag else w.rawS r)
          ∧ (∀ line x, line < 2 ^ 41 → t.colLine c line = some x →
              (acts → f.sem = 2 ∨ f.sem = 3 ∨ f.scope = 1 → x.dirty = 0) ∧ (3 ≤ f.scope.toNat → x.uo = false)
              ∧ (acts → f.sem = 1 ∨ f.sem = 3 → x.uo = true)))
    ∧ ((Instr.fence f).wf → (∃ q ∈ w.reqs, pathMemory q.path = true) →
        ∃ w', exec (.fence f) s = .next (s.setWave c k w') ∧ w'.bare = w.bare ∧ w'.s = w.s ∧ w'.v = w.v
          ∧ w'.spot = w.spot)

/-! ### The sequencer's words -/

/-- R230–R232. MSET, MADD, MLOOP and MBR: the m register each writes and the address the stream goes on at; MHALT ends the stream's issue; MARR and MWAIT
meet the waves at a barrier, once every earlier word has ended. A is the word's address and F the fall-through address. -/
def Obligations.StreamControl : Prop :=
  ∀ (s : State) (c : Nat) (m : Stream) (cl : Clause) (f : FmtX), s.runsStream c m → m.clause = some cl →
    let A := cl.addr + BitVec.ofNat 64 (8 * (m.widx + 1))
    let F := cl.addr + BitVec.ofNat 64 (8 * (cl.words.length + 1))
    let dest := A + BitVec.ofInt 64 (8 * f.imm.toInt)
    let reg := fun (j : BitVec 4) => Tbl.getD m.m j.toNat 0
    let wrote := fun (m' : Stream) (x : W32) => ∀ j, Tbl.getD m'.m j 0 = if j = f.cha.toNat then x else Tbl.getD m.m j 0
    let still := fun (m' : Stream) => m'.bare = m.bare
    let next := fun (m' : Stream) => (m'.mpc, m'.clause, m'.widx) = if m.widx + 1 < cl.words.length then (A + 8, some cl, m.widx + 1) else (F, none, 0)
    let sets := fun (i : Instr) (x : W32) => i.wf → ∃ m', exec i s = .next (s.setStream c m') ∧ wrote m' x ∧ still m' ∧ next m'
    sets (.mset f) (if f.fn = 0 then f.imm.zeroExtend 32 else if f.fn = 1 then BitVec.ofInt 32 f.imm.toInt
        else f.imm ++ (reg f.cha).extractLsb' 0 16)
    ∧ sets (.madd f) (reg f.chb + if f.fn = 0 then BitVec.ofInt 32 f.imm.toInt else reg f.fb)
    ∧ ((Instr.mloop f).wf → ∃ m', exec (.mloop f) s = .next (s.setStream c m') ∧ wrote m' (reg f.cha - 1) ∧ still m'
        ∧ (m'.mpc, m'.clause, m'.widx) = (if reg f.cha = 1 then F else dest, none, 0))
    ∧ ((Instr.mbr f).wf → ∃ m', exec (.mbr f) s = .next (s.setStream c m') ∧ m'.m = m.m ∧ still m'
        ∧ (m'.mpc, m'.clause, m'.widx) = (if f.fn = 0 ∨ (f.fn = 1 ∧ reg f.cha ≠ 0) ∨ (f.fn = 2 ∧ reg f.cha = 0) then dest else F, none, 0))
    ∧ ((Instr.mhalt f).wf → ∃ t m', exec (.mhalt f) s = .next t ∧ t.stream? c = some m' ∧ m'.halted = true ∧ m'.m = m.m ∧ m'.fb = m.fb
        ∧ m'.arrayQ = m.arrayQ ∧ m'.xferQ = m.xferQ ∧ t.mem = s.mem)
    ∧ (∀ b, (Instr.marr f).wf → s.barrier? m.team 0 f.imm.toNat = some b → if m.arrayQ = [] ∧ m.xferQ = [] ∧ m.mfmt = [] then
          match b.arrive m.member with
          | some b' => ∃ t m', exec (.marr f) s = .next t ∧ t.stream? c = some m' ∧ m' = m.done ∧ t.barrier? m.team 0 f.imm.toNat = some b'
          | none => exec (.marr f) s = .next (s.blockStream c m 1)
        else exec (.marr f) s = .next (s.blockStream c m 0))
    ∧ (∀ b, (Instr.mwait f).wf → s.barrier? m.team 0 f.imm.toNat = some b → if b.waitOver m.member then
          ∃ t, exec (.mwait f) s = .next t ∧ t.stream? c = some m.done ∧ t.barrier? m.team 0 f.imm.toNat = some b
        else exec (.mwait f) s = .next (s.blockStream c m 1))

/-- R216, R220–R229. The words that enter the queues complete: what MZERO, MCVT, MFMT, MLD and MST (here without a scale of its tile's bands) capture
at issue, and the tags they leave (MZERO clears VALID and keeps PAIR); an array queue with four entries taken, a word leaving its entry as it
begins (R212), makes MZERO and MCVT wait. The memory changes only as the page walks of the words' own
translations change it. -/
def Obligations.MatrixWordsIssue : Prop :=
  ∀ (s : State) (c : Nat) (m : Stream) (f : FmtX), s.runsStream c m →
    let slots := slotsOf f.tile.toNat f.accf.toNat
    let full := fun (qs : List QWord) => 4 ≤ (qs.filter (fun q => !q.begun)).length
    let tagged := fun (m' : Stream) (v : Nat) => ∀ j, Tbl.getD m'.tags j 0 = if j ∈ slots then v else Tbl.getD m.tags j 0
    let waits := fun (i : Instr) => ∃ m', exec i s = .next (s.setStream c m') ∧ m'.arrayQ = m.arrayQ ∧ m'.xferQ = m.xferQ ∧ m'.widx = m.widx
      ∧ m'.clause = m.clause ∧ m'.m = m.m ∧ m'.fb = m.fb ∧ m'.tags = m.tags
    let moved := fun (m' : Stream) => (m'.mpc, m'.clause, m'.widx) = (m.done.mpc, m.done.clause, m.done.widx) ∧ m'.m = m.m ∧ m'.fb = m.fb
    ((Instr.mzero f).wf → if full m.arrayQ then waits (.mzero f) else ∃ t m' q, exec (.mzero f) s = .next t ∧ t.stream? c = some m'
        ∧ m'.arrayQ = m.arrayQ ++ [q] ∧ q.op = 0xA1 ∧ q.f = f
        ∧ (∀ j, Tbl.getD m'.tags j 0 = if j ∈ slots then Tbl.getD m.tags j 0 % 8 else Tbl.getD m.tags j 0) ∧ moved m' ∧ t.mem = s.mem)
    ∧ ((Instr.mcvt f).wf → if full m.arrayQ then waits (.mcvt f) else ∃ t m' q, exec (.mcvt f) s = .next t ∧ t.stream? c = some m'
        ∧ m'.arrayQ = m.arrayQ ++ [q] ∧ q.op = 0xA6 ∧ q.f = f ∧ tagged m' (Tbl.getD m.tags (mcvtSrc f) 0) ∧ moved m' ∧ t.mem = s.mem)
    ∧ (∀ x o, (Instr.mfmt f).wf → s.team? m.team = some x →
        o = 8 * f.imm.toNat + (if f.flags.getLsbD 0 then (Tbl.getD m.m f.cha.toNat 0).toNat else 0) → o % 32 = 0 → o + 32 ≤ x.spad * 4096 →
        s.badIn .scratch (scratchKey x.core (x.p + o)) 32 = false → ∃ m', exec (.mfmt f) s = .next (s.setStream c m') ∧ m'.mfmt = m.mfmt ++ [(f.fb.toNat, ofBytes (s.spadBytes x o 32))] ∧ moved m')
    ∧ (∀ as, (Instr.mld f).wf → m.fbPending [f.fb.toNat] = false → s.xferCheck c m f [m.fbBlock f.fb.toNat] [0, 1, 2] .read = .ok as →
        ¬full m.xferQ → ∃ t m' q, exec (.mld f) s = .next t ∧ t.stream? c = some m' ∧ m'.xferQ = m.xferQ ++ [q] ∧ q.op = 0xA4 ∧ q.f = f
          ∧ q.fbA = m.fbBlock f.fb.toNat ∧ q.accs = as ∧ tagged m' 0 ∧ moved m' ∧ t.mem = (s.touchAccs c as).mem)
    ∧ (∀ as, (Instr.mst f).wf → m.fbPending (m.mstBlocks f) = false → f.flags.getLsbD 2 = false →
        s.xferCheck c m f [m.fbBlock f.fb.toNat] [0, 1, 2, 3, 4, 8] .engWrite = .ok as → ¬full m.xferQ →
        ∃ t m' q, exec (.mst f) s = .next t ∧ t.stream? c = some m' ∧ m'.xferQ = m.xferQ ++ [q] ∧ q.op = 0xA5 ∧ q.f = f
          ∧ q.fbA = m.fbBlock f.fb.toNat ∧ q.scale = 0x3F800000 ∧ q.accs = as ∧ m'.tags = m.tags ∧ moved m'
          ∧ t.mem = ((if f.flags.getLsbD 0 then s.idemLost m.team else s).touchAccs c as).mem)

/-- R216, R222, R223, R233, R235. MMA and MMAT: the traps at issue, in order; otherwise both format blocks are captured, the tile's tags name the pair,
the word enters the array queue and the queues of its channels, and every gated quarter it uses starts to wake. -/
def Obligations.MmaWordsIssue : Prop :=
  ∀ (s : State) (c : Nat) (m : Stream) (f : FmtX) (i : Instr) (op : Nat), s.runsStream c m → (i, op) ∈ [(Instr.mma f, 0xA2), (Instr.mmat f, 0xA3)] →
    i.wf → m.fbPending [f.fb.toNat, f.fb.toNat + 1] = false →
    let a := m.fbBlock f.fb.toNat
    let b := m.fbBlock (f.fb.toNat + 1)
    let slots := slotsOf f.tile.toNat f.accf.toNat
    (∀ e, s.mmaTrap c m f a b = some e → exec i s = .next (s.streamTrap c m e.1 e.2 0))
    ∧ (s.mmaTrap c m f a b = none → (m.arrayQ.filter (fun q => !q.begun)).length < 4 → ∃ t m' q, exec i s = .next t ∧ t.stream? c = some m' ∧ m'.arrayQ = m.arrayQ ++ [q]
        ∧ q.id = s.nextId ∧ q.op = op ∧ q.f = f ∧ q.fbA = a ∧ q.fbB = b
        ∧ (∀ j, Tbl.getD m'.tags j 0 = if j ∈ slots then 8 + f.fb.toNat / 2 else Tbl.getD m.tags j 0)
        ∧ (m'.mpc, m'.clause, m'.widx) = (m.done.mpc, m.done.clause, m.done.widx) ∧ m'.m = m.m ∧ m'.fb = m.fb ∧ m'.xferQ = m.xferQ
        ∧ (∀ n ∈ [f.cha.toNat, f.chb.toNat], q.id ∈ (t.chan m.team n).queue)
        ∧ (∀ n < 4, m.quarters.getD n .gated = .gated → m'.quarters.getD n .gated = if n ∈ quartersOf f then .waking s.ck else .gated)
        ∧ t.mem = s.mem ∧ t.waves = s.waves)

/-! ### Barriers and phases -/

/-- R465–R469, R341. A barrier counts: an arrival before the last leaves its member waiting; the last one opens the next phase and ends every wait of the
phase; a second early arrival must stall. BARR, BARW and BARRW: PROT where the level may not be named; BARR goes on with its arrival counted once its
release has completed; BARW goes on when the phase it waits for is complete, and otherwise blocks.
Rests on the model's choices of log entries 29, 75. -/
def Obligations.Barriers : Prop :=
  (∀ (b : Barrier) (m : Nat), ((b.member m).last ≠ b.gen ∨ (b.member m).ever = false →
      (b.arrived + 1 < b.members → ∃ b', b.arrive m = some b' ∧ b'.gen = b.gen ∧ b'.arrived = b.arrived + 1 ∧ b'.members = b.members
          ∧ b'.waitOver m = false)
      ∧ (b.arrived + 1 = b.members → (∀ r ∈ b.mem, r.2.early = false) → ∃ b', b.arrive m = some b' ∧ b'.gen = (b.gen + 1) % 2 ^ 16
          ∧ b'.arrived = 0 ∧ b'.waitOver m = true))
    ∧ ((b.member m).last = b.gen → (b.member m).ever = true →
        if (b.member m).early then b.arrive m = none
        else ∃ b', b.arrive m = some b' ∧ (b'.member m).early = true ∧ b'.arrived = b.arrived ∧ b'.gen = b.gen))
  ∧ (∀ (s : State) (c k : Nat) (w : Wave) (f : FmtQ), s.runs c k w → w.wins = [] →
    let lvl := f.lvl.toNat
    let id := f.id.toNat
    let goesOn := fun (i : Instr) => GoesOn i s c k w [] [] (fun _ _ => True)
    (∀ i ∈ [Instr.barr f, .barw f, .barrw f], i.wf → s.levelOk w lvl = false → exec i s = .next (s.trapAt c k w (w.protTrap 0)))
    ∧ ((Instr.barr f).wf → s.levelOk w lvl = true → if 2 ≤ s.openArrivals w lvl id then exec (.barr f) s = .next (s.setWave c k (w.blockAt s.time 0 0))
        else goesOn (.barr f))
    ∧ (∀ b b', (Instr.barr f).wf → s.levelOk w lvl = true → s.openArrivals w lvl id < 2 → (∀ r ∈ s.waves, r.2.arrivals = []) →
        w.reqs.all (fun q => !pathMemory q.path) = true → s.barrier? w.team lvl id = some b → b.arrive (s.memberId w.team lvl w.idx) = some b' →
        ∃ t, exec (.barr f) s = .next t ∧ t.barrier? w.team lvl id = some b')
    ∧ (∀ w1, (Instr.barw f).wf → s.levelOk w lvl = true → s.flushAll.wave? c k = some w1 →
        if s.flushAll.waitOver w1 lvl id then goesOn (.barw f)
        else exec (.barw f) s = .next (s.flushAll.setWave c k (w1.blockAt s.flushAll.time 1 0)))
    ∧ (∀ s1 w1, (Instr.barrw f).wf → s.levelOk w lvl = true → (if w.stage = 1 ∨ w.stands = some w.wordAddr then s1 = s.setWave c k { w with stands := none }
          else s.arriveWord c k w lvl id = some s1) → s1.flushAll.wave? c k = some w1 →
        if s1.flushAll.waitOver w1 lvl id then goesOn (.barrw f)
        else exec (.barrw f) s = .next (s1.flushAll.setWave c k (w1.blockAt s1.flushAll.time 1 0))))

/-- R471, R474, R476, R478. PHBEG waits for the wave's acquires, then opens a phase with the header's counts, the team's earlier watch gone; PHWAIT goes on when no phase is open, blocks while one is, and traps on a
BROKEN one; the watch registers at its home slice; a phase completes when every line of its level is high.
Rests on the model's choices of log entry 20. -/
def Obligations.PhaseWords : Prop :=
  ∀ (s : State) (c k : Nat) (w : Wave) (f : FmtQ) (x : Team), s.runs c k w → w.wins = [] → s.team? w.team = some x →
    let off := w.z f.sa
    let b := s.teamBytes w x off 32
    let bag : W64 := BitVec.ofNat 64 (fieldOf b 16 8)
    ((Instr.phbeg f).wf → w.acquiring = true → exec (.phbeg f) s = .next (s.setWave c k (w.blockAt s.time 0 0)))
    ∧ ((Instr.phbeg f).wf → w.acquiring = false → off % 32 = 0 → x.fits off 32 = true → s.levelOk w f.lvl.toNat = true → (x.phase.opened = true → x.phase.broken = true) →
      zeroField b 14 2 = true → (x.paired = true ∨ fieldOf b 4 4 = 0 ∧ fieldOf b 10 2 = 0) →
      (if fieldOf b 12 2 = 0 then fieldOf b 16 8 = 0 ∧ fieldOf b 24 8 = 0 else fieldOf b 16 8 ≠ 0 ∧
        ∃ y, s.translate (clusterOf c) bag .read = .ok y ∧ y.kind = .ts) →
      GoesOn (.phbeg f) s c k w [] [] (fun t _ => ∃ x', t.team? w.team = some x' ∧ x'.phase.phn = (x.phase.phn + 1) % 2 ^ 16 ∧ x'.phase.opened = true
        ∧ x'.phase.broken = false ∧ x'.phase.lvl = f.lvl.toNat ∧ Tbl.getD x'.phase.cgt 0 0 = fieldOf b 0 4
        ∧ Tbl.getD x'.phase.cgt 1 0 = fieldOf b 4 4 ∧ Tbl.getD x'.phase.cen 0 0 = fieldOf b 8 2 ∧ Tbl.getD x'.phase.cen 1 0 = fieldOf b 10 2
        ∧ x'.phase.cts = fieldOf b 12 2 ∧ (∀ h, ∀ y ∈ (t.slice h).watches, y.2.2 ≠ w.team)
        ∧ t.mem = (if fieldOf b 12 2 = 0 then s else (s.dropWatch w.team).touchTlb (clusterOf c) bag).mem))
    ∧ ((Instr.phwait f).wf → x.phase.broken = true → exec (.phwait f) s = .next (s.trapAt c k w { cause := 0x10, sub := 0x04, fm := w.mask }))
    ∧ ((Instr.phwait f).wf → x.phase.broken = false →
        if x.phase.opened then exec (.phwait f) s = .next (s.setWave c k (w.blockAt s.time 1 0))
        else GoesOn (.phwait f) s c k w [] [] (fun _ _ => True))
    ∧ (∀ g tag, x.phase.watch = some (g, tag) → x.phase.watchSeen = false → ∃ t x', exec (.phaseWatchRegister w.team) s = .next t
        ∧ t.team? w.team = some x' ∧ x'.phase.watchSeen = true ∧ (g, tag, w.team) ∈ (t.slice (s.tupleHome g tag)).watches ∧ t.waves = s.waves)
    ∧ (x.phase.opened = true → x.phase.broken = false → (x.phase.watch = none ∨ x.phase.watchSeen = true) →
        (∀ n ∈ s.levelTeams w.team x, ∀ y, s.team? n = some y → ∀ pos < (if y.paired then 2 else 1), s.lineHigh n y pos x.phase.phn = true) →
        ∃ t x', exec (.phaseComplete w.team) s = .next t ∧ t.team? w.team = some x' ∧ x'.phase.opened = false ∧ x'.phase.watch = none
          ∧ x'.phase.phn = x.phase.phn ∧ t.waves = s.waves ∧ t.mem = s.mem)

/-! ### Channels, stream queues, engine words -/

/-- R355–R361, R387. CHDEF, once the wave's acquires have returned (R343), defines a channel; CHRES and CHACQ advance RES and ACQ and give the first index, or wait; CHCOM commits and CHREL releases
in order; CHQRY reads; the checks of a counted word trap.
Rests on the model's choices of log entries 47, 48, 66. -/
def Obligations.ChannelWords : Prop :=
  ∀ (s : State) (c k : Nat) (w : Wave) (f : FmtE) (x : Team), s.runs c k w → w.wins = [] → s.team? w.team = some x →
    let n := w.eCountOf f
    let ch := x.chan f.ch.toNat
    let a := w.readS f.desc.toNat
    let chan := fun (t : State) => t.chan w.team f.ch.toNat
    ((Instr.chdef f).wf → w.acquiring = true → exec (.chdef f) s = .next (s.setWave c k (w.blockAt s.time 0 0)))
    ∧ (∀ b y, (Instr.chdef f).wf → w.acquiring = false → s.descriptor w (w.readS64 f.desc.toNat) 32 32 = .ok b → x.chanFrom b = some y →
      s.chanBusy w.team f.ch.toNat ch = false →
      (y.back = 0 ∨
        (let bare := s.setTeam w.team (x.setChan f.ch.toNat Chan.undef)
         let core := x.backCore y
         let rows := y.cap * rowsOf y.esize + rowTotal (bare.rowsHeld core)
         rows ≤ 1536 ∧ s.slotLine core rows ≤ 32)) →
      GoesOn (.chdef f) s c k w [] [] (fun t _ => ∃ r0, chan t = { y with row0 := r0, acqWait := ch.acqWait, resWait := ch.resWait }
        ∧ t.mem.scratch = s.mem.scratch))
    ∧ (∀ i waits e, (i, waits) ∈ [(Instr.chres f, true), (.chacq f, true), (.chcom f, false), (.chrel f, false)] → i.wf →
        chanCheck w ch n waits = some e → ch.resWait = [] → ch.acqWait = [] → ∃ s' : State, exec i s = .next (s'.trapAt c k w e) ∧ s'.mem = s.mem)
    ∧ ((Instr.chres f).wf → chanCheck w ch n true = none → ch.resWait = [] → if n = 0 ∨ n ≤ ch.room then
          GoesOn (.chres f) s c k w [(f.desc.toNat, ch.res)] [] (fun t _ => chan t = { ch with res := ch.res + BitVec.ofNat 32 n } ∧ t.mem = s.mem)
        else Waits (.chres f) s c k w (fun t => chan t = { ch with resWait := [.wave c k] }))
    ∧ ((Instr.chacq f).wf → chanCheck w ch n true = none → ch.acqWait = [] → if n = 0 ∨ n ≤ ch.avail then
          GoesOn (.chacq f) s c k w [(f.desc.toNat, ch.acq)] [] (fun t _ => chan t = { ch with acq := ch.acq + BitVec.ofNat 32 n })
        else Waits (.chacq f) s c k w (fun t => chan t = { ch with acqWait := [.wave c k] }))
    ∧ ((Instr.chcom f).wf → chanCheck w ch n false = none →
        if n ≠ 0 ∧ (span ch.res ch.com < span a ch.com + n ∨ ∃ j ∈ indices a n, j ∈ ch.committed) then
          exec (.chcom f) s = .next (s.trapAt c k w (w.boundsTrap 0x26))
        else if w.memQuiet then GoesOn (.chcom f) s c k w [] [] (fun t _ => chan t = ch.commit a n)
        else Waits (.chcom f) s c k w (fun t => chan t = ch))
    ∧ ((Instr.chrel f).wf → chanCheck w ch n false = none →
        if n ≠ 0 ∧ (span ch.acq ch.rel < span a ch.rel + n ∨ ∃ j ∈ indices a n, j ∈ ch.released) then
          exec (.chrel f) s = .next (s.trapAt c k w (w.boundsTrap 0x26))
        else GoesOn (.chrel f) s c k w [] [] (fun t _ => chan t = ch.release a n ∧ t.mem = s.mem))
    ∧ ((Instr.chqry f).wf → GoesOn (.chqry f) s c k w [(f.desc.toNat, if ch.defd = false then 0 else if f.fn = 0 then BitVec.ofNat 32 ch.avail
          else if f.fn = 1 then BitVec.ofNat 32 ch.room else if f.fn = 2 then ch.com else ch.rel)] [] (fun t _ => t.teams = s.teams ∧ t.mem = s.mem))

/-- R360, R374. A blocked CHRES, CHACQ, SQPUSH or SQPOP goes on when its turn in issue order comes and its condition holds. -/
def Obligations.WaitingWordsServed : Prop :=
  ∀ (s : State) (c k : Nat) (w : Wave) (x : Team), s.wave? c k = some w → s.team? w.team = some x → w.mayServe = true → w.wins = [] →
    let serves := fun (i : Instr) (P : State → Wave → Prop) => ∃ t w', exec i s = .next t ∧ t.wave? c k = some w' ∧ w'.spot = w.done.spot ∧ P t w'
    (∀ f, decodeWord w.curWord = .ok (.chres f) → chanCheck w (x.chan f.ch.toNat) (w.eCountOf f) true = none →
      (x.chan f.ch.toNat).resWait.head? = some (.wave c k) → w.eCountOf f ≤ (x.chan f.ch.toNat).room →
      serves (.channelWaitServed (.wave c k)) (fun t w' => (∀ r, w'.rawS r = w.sAfter [(f.desc.toNat, (x.chan f.ch.toNat).res)] r)
        ∧ (t.chan w.team f.ch.toNat).res = (x.chan f.ch.toNat).res + BitVec.ofNat 32 (w.eCountOf f)
        ∧ Agent.wave c k ∉ (t.chan w.team f.ch.toNat).resWait))
    ∧ (∀ f, decodeWord w.curWord = .ok (.chacq f) → chanCheck w (x.chan f.ch.toNat) (w.eCountOf f) true = none →
        (x.chan f.ch.toNat).acqWait.head? = some (.wave c k) → w.eCountOf f ≤ (x.chan f.ch.toNat).avail →
        serves (.channelWaitServed (.wave c k)) (fun t w' => (∀ r, w'.rawS r = w.sAfter [(f.desc.toNat, (x.chan f.ch.toNat).acq)] r)
          ∧ (t.chan w.team f.ch.toNat).acq = (x.chan f.ch.toNat).acq + BitVec.ofNat 32 (w.eCountOf f)
          ∧ Agent.wave c k ∉ (t.chan w.team f.ch.toNat).acqWait))
    ∧ (∀ f, decodeWord w.curWord = .ok (.sqpush f) → w.regRange [f.qd.toNat] = false → (x.queue f.id.toNat).mayPush (.wave c k) = true →
        serves (.streamQueueWaitServed (.wave c k)) (fun t w' => w'.s = w.s ∧ w'.v = w.v ∧ ∃ x' e, t.team? w.team = some x'
          ∧ (x'.queue f.id.toNat).entries = (x.queue f.id.toNat).entries ++ [e] ∧ e.ready = true))
    ∧ (∀ f e rest, decodeWord w.curWord = .ok (.sqpop f) → w.regRange [f.qd.toNat] = false → (x.queue f.id.toNat).entries = e :: rest →
        e.ready = true → (x.queue f.id.toNat).popWait.head? = some (.wave c k) →
        serves (.streamQueueWaitServed (.wave c k)) (fun t w' => (∀ l ∈ w.lanes, w'.rawV f.qd.toNat l = Tbl.getD e.data l 0)
          ∧ ∃ x', t.team? w.team = some x' ∧ (x'.queue f.id.toNat).entries = rest))

/-- R373, R374. SQPUSH appends a READY entry with the active lanes' values; SQPOP writes the head entry's values and removes it; each waits its turn. -/
def Obligations.StreamQueueWords : Prop :=
  ∀ (s : State) (c k : Nat) (w : Wave) (f : FmtQ) (x : Team), s.runs c k w → w.wins = [] → s.team? w.team = some x →
    let q := x.queue f.id.toNat
    (∀ i ∈ [Instr.sqpush f, .sqpop f], i.wf → w.regRange [f.qd.toNat] = true → exec i s = .next (s.trapAt c k w w.regRangeTrap))
    ∧ ((Instr.sqpush f).wf → w.regRange [f.qd.toNat] = false → if q.mayPush (.wave c k) then
          GoesOn (.sqpush f) s c k w [] [] (fun t _ => t.mem = s.mem ∧ ∃ x' e, t.team? w.team = some x' ∧ e.ready = true
            ∧ (x'.queue f.id.toNat).entries = q.entries ++ [e]
            ∧ ∀ l, Tbl.getD e.data l 0 = if l ∈ w.lanes then w.readV f.qd.toNat l else 0)
        else Waits (.sqpush f) s c k w (fun t => ∃ x', t.team? w.team = some x' ∧ (x'.queue f.id.toNat).entries = q.entries
          ∧ Agent.wave c k ∈ (x'.queue f.id.toNat).pushWait))
    ∧ (∀ e rest, (Instr.sqpop f).wf → w.regRange [f.qd.toNat] = false → q.entries = e :: rest → e.ready = true → q.popWait = [] →
        GoesOn (.sqpop f) s c k w [] (w.each f.qd.toNat (fun l => Tbl.getD e.data l 0)) (fun t _ => t.mem = s.mem ∧
          ∃ x', t.team? w.team = some x' ∧ (x'.queue f.id.toNat).entries = rest ∧ (x'.queue f.id.toNat).head = q.head + 1))
    ∧ ((Instr.sqpop f).wf → w.regRange [f.qd.toNat] = false → (q.entries = [] ∨ ∃ e, q.entries.head? = some e ∧ e.ready = false) →
        Waits (.sqpop f) s c k w (fun t => ∃ x', t.team? w.team = some x' ∧ (x'.queue f.id.toNat).entries = q.entries))

/-- R362–R372, R377, R379, R387, R343. The EN words: those with a descriptor wait for the wave's acquires; once their operands pass the checks, each issues a command with its descriptor under the EN counter, or
waits for room; ECPL sets the wave's pending action. Memory changes only as the page walk of an address operand (PUBLISH, LAUNCH, RSUB) changes it.
Rests on the model's choices of log entry 66. -/
def Obligations.EngineWordsIssue : Prop :=
  ∀ (s : State) (c k : Nat) (w : Wave) (f : FmtE) (g : FmtQ) (x : Team), s.runs c k w → w.wins = [] → s.team? w.team = some x →
    let n := w.eCountOf f
    let ch := x.chan f.ch.toNat
    let va := w.readS64 f.desc.toNat
    let qa := w.readS64 g.sa.toNat
    let issues := fun (i : Instr) (walked : State) (P : Cmd → Prop) =>
      if w.full .en ∨ 1280 ≤ s.engHeld w.team then Waits i s c k w (fun t => t.cmds = s.cmds)
      else GoesOn i s c k w [] [] (fun t w' => w'.count .en = w.count .en + 1 ∧ t.mem = walked.mem ∧ ∃ m, Tbl.get? t.cmds s.nextId = some m
        ∧ m.agent = .wave c k ∧ m.team = w.team ∧ m.word = w.wordAddr ∧ m.stage = .issued ∧ P m)
    (∀ i ∈ [Instr.cpyin f, .cpyout f, .cpyg f, .idxwalk f, .gather f, .ecplDep f], i.wf → w.acquiring = true →
      exec i s = .next (s.setWave c k (w.blockAt s.time 0 0)))
    ∧ (∀ b o, w.acquiring = false → s.descriptor w va 64 64 = .ok b → (Instr.cpyin f).wf → copyOk b (copyDesc b) = true → (copyDesc b).conv < 2 →
      ((copyDesc b).conv = 0 → (copyDesc b).fmtc = 0) → opCode (copyDesc b).fmtc = some o → ((copyDesc b).conv = 1 → o.passes = 1) → ch.defd = true →
      (if (copyDesc b).conv = 1 then (copyDesc b).total = o.slab ∧ ch.esize = 4096 else (copyDesc b).total = ch.esize) → n ≤ ch.cap →
      issues (.cpyin f) s (fun m => m.kind = .cpyin (copyDesc b) (f.flags.getLsbD 1) ∧ m.ch = f.ch.toNat ∧ m.n = n))
    ∧ (∀ b, w.acquiring = false → s.descriptor w va 64 64 = .ok b → (Instr.cpyout f).wf → copyOk b (copyDesc b) = true → noScale b = true → (copyDesc b).addr2 = 0 →
        (copyDesc b).step2 = 0 → (copyDesc b).stride2 = 0 → ch.defd = true → (copyDesc b).total = ch.esize → n ≤ ch.cap →
        issues (.cpyout f) s (fun m => m.kind = .cpyout (copyDesc b) ∧ m.ch = f.ch.toNat ∧ m.n = n))
    ∧ (∀ b, w.acquiring = false → s.descriptor w va 64 64 = .ok b → (Instr.cpyg f).wf → copyOk b (copyDesc b) = true → noScale b = true → (copyDesc b).step = 0 →
        (copyDesc b).step2 = 0 → issues (.cpyg f) s (fun m => m.kind = .cpyg (copyDesc b)))
    ∧ (∀ b d, w.acquiring = false → s.descriptor w va 64 64 = .ok b → (Instr.idxwalk f).wf → zeroField b 0x17 41 = true → ch.defd = true →
        d = (⟨BitVec.ofNat 64 (fieldOf b 0 8), BitVec.ofNat 64 (fieldOf b 8 8), fieldOf b 0x10 4, fieldOf b 0x14 1, fieldOf b 0x15 1,
          fieldOf b 0x16 1⟩ : IndexDesc) → d.form < 2 → 1 ≤ d.parts → d.parts ≤ 64 → d.part < d.parts → (d.form = 1 → d.idx = 0) →
        issues (.idxwalk f) s (fun m => m.kind = .idxwalk d ∧ m.ch = f.ch.toNat))
    ∧ (∀ b d, w.acquiring = false → s.descriptor w va 64 64 = .ok b → (Instr.gather f).wf → zeroField b 0x10 48 = true →
        d = (⟨BitVec.ofNat 64 (fieldOf b 0 8), fieldOf b 8 4, fieldOf b 0xC 4⟩ : GatherDesc) → (x.chan f.ch2.toNat).defd = true → ch.defd = true →
        ch.esize = (x.chan f.ch2.toNat).esize / 16 * d.rowBytes → n ≤ ch.cap → n ≤ (x.chan f.ch2.toNat).cap →
        issues (.gather f) s (fun m => m.kind = .gather d (f.flags.getLsbD 2) (f.flags.getLsbD 3) ∧ m.ch = f.ch.toNat ∧ m.ch2 = f.ch2.toNat ∧ m.n = n))
    ∧ (∀ b y, (Instr.publish f).wf → s.bufferAt va = some b → s.translate (clusterOf c) va .read = .ok y → y.kind ≠ .ts →
        issues (.publish f) (s.touchTlb (clusterOf c) va) (fun m => ∃ ws, m.kind = .publish b ws))
    ∧ (∀ b, w.acquiring = false → s.descriptor w va 64 64 = .ok b → (Instr.ecplDep f).wf → GoesOn (.ecplDep f) s c k w [] [] (fun t w' => t.mem = s.mem
        ∧ w'.ecpl = some ⟨false, f.flags.getLsbD 4, w.readS64 f.cnt.toNat, wordsOf 8 b, w.wordAddr⟩))
    ∧ ((Instr.ecplArr f).wf → GoesOn (.ecplArr f) s c k w [] [] (fun t w' => t.mem = s.mem
        ∧ w'.ecpl = some ⟨true, f.flags.getLsbD 4, 0, [], w.wordAddr⟩))
    ∧ (∀ y, (Instr.launch g).wf → qa.toNat % 256 = 0 → (s.lq (g.imm.toNat % 64)).enable = true → s.translate (clusterOf c) qa .read = .ok y →
        y.kind ≠ .ts → issues (.launch g) (s.touchTlb (clusterOf c) qa) (fun m => m.kind = .launch (g.imm.toNat % 64) qa g.qd.toNat))
    ∧ (∀ y, (Instr.rsub g).wf → qa.toNat % 64 = 0 → (g.imm.getLsbD 2 = false → g.imm.toNat % 4 = 0) →
        (s.minimal = true → (if g.imm.getLsbD 2 then g.imm.toNat % 4 else dieOfCore c) = 0) → s.translate (clusterOf c) qa .read = .ok y → y.kind ≠ .ts →
        issues (.rsub g) (s.touchTlb (clusterOf c) qa) (fun m => m.kind = .rsub qa (if g.imm.getLsbD 2 then g.imm.toNat % 4 else dieOfCore c) (g.imm.getLsbD 3)))

/-! ### Tuple words and the Gear train -/

/-- R390, R394, R395, R397, R343. The tuple words, which read their blocks once the wave's acquires have returned: TSDEP, TSCPYN and TSTAKEN send a request under the TS counter and go on; TSCPY and TSTAKE send one and wait, and
go on with the status and the tuple once it has ended and the wave's earlier accesses to the block are done (R337); TSCAN finds another wave's request until its word ends, and cancels it while it is open and
not past its limit. Memory changes only as the page walk of the space's address changes it, and by the block of a served tuple. -/
def Obligations.TupleWords : Prop :=
  ∀ (s : State) (c k : Nat) (w : Wave) (f : FmtT) (x : Team), s.runs c k w → w.wins = [] → s.team? w.team = some x →
    let asks := fun (op : TOp) (b : List Byte) (bag : Nat) (uniq : Bool) =>
      s.descriptor w (BitVec.ofNat 64 (w.z f.blk)) 64 (if op = .dep then 64 else 192) = .ok b
      ∧ s.spaceOf c (w.readS64 f.space.toNat) (if op = .cpy ∨ op = .cpyn then .read else .write) = .ok (bag, uniq)
    let sent := fun (op : TOp) (b : List Byte) (bag : Nat) (uniq : Bool) (t : State) => ∃ r, Tbl.get? t.treqs s.nextId = some r ∧ r.op = op
      ∧ r.agent = .wave c k ∧ r.team = w.team ∧ r.bag = bag ∧ r.uniq = uniq ∧ r.data = wordsOf (if op = .dep then 8 else 16) b
      ∧ r.slice = s.tupleHome bag (r.data.getD 0 0) ∧ r.sd = f.sd.toNat ∧ r.stage = .travelling
    let walked := ((s.idemLost w.team).touchTlb (clusterOf c) (w.readS64 f.space.toNat)).mem
    (∀ i ∈ [Instr.tsdep f, .tscpyn f, .tstaken f, .tscpy f, .tstake f], i.wf → w.acquiring = true → w.treq = none →
      exec i s = .next (s.setWave c k (w.blockAt s.time 0 0)))
    ∧ (∀ i op b bag uniq, w.acquiring = false → (i, op) ∈ [(Instr.tsdep f, TOp.dep), (.tscpyn f, .cpyn), (.tstaken f, .taken)] → i.wf → asks op b bag uniq →
      if w.full .ts then Waits i s c k w (fun t => t.treqs = s.treqs)
      else GoesOn i s c k w [] [] (fun t w' => w'.count .ts = w.count .ts + 1 ∧ t.mem = walked ∧ sent op b bag uniq t))
    ∧ (∀ i op b bag uniq, w.acquiring = false → (i, op) ∈ [(Instr.tscpy f, TOp.cpy), (.tstake f, .take)] → i.wf → w.treq = none → asks op b bag uniq →
        Waits i s c k w (fun t => (t.wave? c k).bind (fun w' => w'.treq) = some s.nextId ∧ t.mem = walked ∧ sent op b bag uniq t))
    ∧ (∀ i r t st, i ∈ [Instr.tscpy f, .tstake f] → i.wf → w.treq = some r → Tbl.get? s.treqs r = some t → t.status = some st → t.op ≠ .dep →
        t.team = w.team → t.gotBad = false → s.blockReady w.reqs t = true →
        GoesOn i s c k w [(t.sd, BitVec.ofNat 32 st), (126, if st = 0 then 1 else 0)] [] (fun t' w' => w'.treq = none ∧ Tbl.get? t'.treqs r = none
          ∧ (st = 0 → ∀ j < 64, t.got.length = 8 → Mem.read t'.mem.scratch (scratchKey x.core (x.p + (t.block + 0x80)) + j)
              = (t.got.flatMap (fun (y : W64) => bytesOf 8 y.toNat)).getD j 0)))
    ∧ ((Instr.tscan f).wf → x.waves ≤ w.z f.blk → exec (.tscan f) s = .next (s.trapAt c k w (w.protTrap 0)))
    ∧ (∀ r t c2 k2 w2, (Instr.tscan f).wf → w.z f.blk < x.waves →
        (s.teamWaves w.team).find? (fun y => decide (y.2.2.idx = w.z f.blk)) = some (c2, k2, w2) → w2.treq = some r → Tbl.get? s.treqs r = some t →
        GoesOn (.tscan f) s c k w [(f.sd.toNat, 1)] [] (fun t' _ => t'.mem = s.mem ∧ ∃ t1, Tbl.get? t'.treqs r = some t1
          ∧ if t.open = true ∧ t.timedOut = false then t1.cancelled = true ∧ t1.stage = (if t.retrying then .ended 2 else t.stage) else t1 = t))
    ∧ (∀ c2 k2 w2, (Instr.tscan f).wf → w.z f.blk < x.waves →
        (s.teamWaves w.team).find? (fun y => decide (y.2.2.idx = w.z f.blk)) = some (c2, k2, w2) → w2.treq = none →
        GoesOn (.tscan f) s c k w [(f.sd.toNat, 0)] [] (fun t' _ => t'.mem = s.mem ∧ t'.treqs = s.treqs))

/-- R406, R408–R411, R415, R476, R478. The Gear train words: the entry each writes, the checks that trap GT_CONFIG, and where GTSEND, GTDRAIN and GTREL wait.
Rests on the model's choices of log entries 67, 68. -/
def Obligations.GearTrainWords : Prop :=
  ∀ (s : State) (c : Nat) (m : Stream) (f : FmtGT) (y : Team), s.runsStream c m → s.team? m.team = some y →
    let k := f.chain.toNat
    let x := s.chain c k
    let r := f.mreg.toNat
    let goes := fun (i : Instr) (P : State → Stream → Prop) => ∃ t m', exec i s = .next t ∧ t.stream? c = some m'
      ∧ (m'.mpc, m'.clause, m'.widx) = (m.done.mpc, m.done.clause, m.done.widx) ∧ m'.m = m.m ∧ P t m'
    let waits := fun (i : Instr) (P : Stream → Prop) => ∃ t m', exec i s = .next t ∧ t.stream? c = some m' ∧ m'.block ≠ .none
      ∧ (m'.mpc, m'.clause, m'.widx) = (m.mpc, m.clause, m.widx) ∧ m'.xferQ = m.xferQ ∧ P m'
    let free := x.state = .free ∨ x.state = .broken
    (∀ team core, (Instr.gtcfgSend f).wf → (m.mreg (r + 1)).toNat < 2 → free → s.gtDest m (m.mreg r) (m.mreg (r + 1)).toNat = some (team, core) →
      if core = c then exec (.gtcfgSend f) s = .next (s.gtConfig c m 1)
      else goes (.gtcfgSend f) (fun t _ => t.mem = s.mem
        ∧ t.chain c k = { Chain.free with state := .send, dst := core, dstTeam := team, tile := f.tile.toNat }))
    ∧ ((Instr.gtcfgSend f).wf → (m.mreg (r + 1)).toNat < 2 → ¬free → exec (.gtcfgSend f) s = .next (s.gtConfig c m 2))
    ∧ ((Instr.gtcfgDest f).wf → if x.state = .free ∨ x.state = .broken then
          goes (.gtcfgDest f) (fun t _ => t.mem = s.mem
            ∧ t.chain c k = { Chain.free with state := .dest, tile := f.tile.toNat, sorted := f.imm.getLsbD 0 })
        else exec (.gtcfgDest f) s = .next (s.gtConfig c m 2))
    ∧ ((Instr.gtrsv f).wf → (x.state = .dest ∨ x.state = .reserved ∧ x.remain = 0) →
        let n := (m.mreg r).toNat
        let rows := f.nrow.toNat + 1
        let need := if x.sorted then n * rows else rows
        if n = 0 ∨ 1024 < n ∨ s.gtFree c k < need then exec (.gtrsv f) s = .next (s.gtConfig c m 4)
        else goes (.gtrsv f) (fun t _ => t.mem = s.mem ∧ t.chain c k = { x with
          state := .reserved, row0 := f.row0.toNat, nrow := f.nrow.toNat, count := n, remain := n * rows, entries := need, held := [], arrived := [],
          stamp := s.nextId }))
    ∧ ((Instr.gtrsv f).wf → x.state ≠ .dest → x.state ≠ .reserved → exec (.gtrsv f) s = .next (s.gtConfig c m 5))
    ∧ ((Instr.gtsend f).wf → x.state = .send → m.check = none → waits (.gtsend f) (fun m' => m'.check = some 0))
    ∧ ((Instr.gtsend f).wf → x.state = .send → m.check = some 1 → if 4 ≤ (m.xferQ.filter (fun q => !q.begun)).length then waits (.gtsend f) (fun m' => m'.check = some 1)
        else goes (.gtsend f) (fun t m' => t.mem = s.mem ∧ m'.check = none ∧ ∃ q, m'.xferQ = m.xferQ ++ [q] ∧ q.op = 0xDA ∧ q.chain = k
          ∧ q.row0 = f.row0.toNat ∧ q.nrow = f.nrow.toNat ∧ q.f.tile = f.tile))
    ∧ ((Instr.gtdrain f).wf →
        let z := ((s.idemLost m.team).settleCore c).chain c k
        (z.state = .reserved → z.remain = 0 → z.poisoned = false → goes (.gtdrain f) (fun t _ => t.mem = ((s.idemLost m.team).settleCore c).mem))
        ∧ (z.state = .reserved → z.remain ≠ 0 → waits (.gtdrain f) (fun _ => True)))
    ∧ ((Instr.gtdrainPhase f).wf → y.phase.broken = false → if y.phase.opened = true ∧ Tbl.getD y.phase.cgt m.pos 0 ≠ 0 then
          waits (.gtdrainPhase f) (fun _ => True)
        else goes (.gtdrainPhase f) (fun t _ => t.mem = s.mem))
    ∧ ((Instr.gtrel f).wf → x.state = .send → ((∃ q ∈ m.xferQ, q.op = 0xDA ∧ q.chain = k) ∨ ∃ a ∈ s.flits, a.2.sender = m.team ∧ a.2.spos = m.pos ∧ a.2.chain = k) →
        waits (.gtrel f) (fun _ => True))
    ∧ ((Instr.gtrel f).wf → (x.state = .send → (∀ q ∈ m.xferQ, q.op = 0xDA → q.chain ≠ k) ∧ (∀ a ∈ s.flits, a.2.sender = m.team → a.2.spos = m.pos → a.2.chain ≠ k)
          ∧ x.refusedGone = false ∧ x.refusedOther = false) →
        goes (.gtrel f) (fun t _ => t.mem = s.mem ∧ t.chain c k = Chain.free))

/-! ### The graphics words -/

/-- R239–R248, R250, R252–R254, R256, R262, R263. The words of path AT that write registers: RBOX, RTRI, AFETCH, ABARY, AINTERP, SMPL and SMPLL. A register
out of range traps, and a full AT counter or an outstanding acquire blocks the word. Else its lanes run in ascending order on what they read: a failing
read traps for its lowest lane; a read of an SO page waits for the wave's earlier SO accesses; the word then completes under the AT counter with one
request whose return writes every lane's results. With bad data, in a read or in a source register, it stops with POISON where POISONTRAP asks for
it, else completes with ERRSEEN set, and each bad lane is counted; that EADDR is 0 where the error lies in a source register is the model's choice
(log entry 114). A lane whose one read is aligned, translated and not a TS page fails nothing; ABARY and AINTERP read nothing.
SMPL and SMPLL read their descriptor first: one with a reserved value traps DESCRIPTOR_FORMAT, and a word without
active lanes completes without that read, which is the model's choice (log entry 133).
Rests on the model's choices of log entries 39, 61, 62, 64, 114, 133, 134, 135, 136. -/
def Obligations.GraphicsLaneWords : Prop :=
  ∀ (s : State) (c k : Nat) (w : Wave) (f : FmtG), s.runs c k w → w.wins = [] →
    let n := f.imm.toNat + 1
    let word := fun (i : Instr) (dst ss vs : List Nat) (r : GLanes (List W32)) => i.wf →
      let src := w.srcBad (.of ss vs)
      let done := GoesOn i s c k w [] [] (fun t w' => t.mem = r.s.mem ∧ w'.wstat = (if r.bads = [] ∧ src = none then w else w.errSeen).wstat
        ∧ ∃ q, w'.reqs = w.reqs ++ [q] ∧ q.path = .at ∧ q.ret = .regs (runWrites f.vd.toNat r.outs) [])
      (w.regRange (dst ++ vs) = true → exec i s = .next (s.trapAt c k w w.regRangeTrap))
      ∧ (w.regRange (dst ++ vs) = false → w.gHolds .at = true → exec i s = .next (s.setWave c k (w.blockAt s.time 0 0)))
      ∧ (∀ t, w.regRange (dst ++ vs) = false → w.gHolds .at = false → lanesTrap r.fails = some t → exec i s = .next ((s.touchFails c r.fails).trapAt c k w t))
      ∧ (w.regRange (dst ++ vs) = false → w.gHolds .at = false → r.fails = [] →
          if (r.so && w.soPending) = true then exec i s = .next (s.setWave c k (w.blockAt s.time 0 0))
          else
            (r.bads = [] → src = none → done) ∧ (s.poisonTraps w.team = false → r.s.poisonTraps w.team = false → done)
            ∧ (∀ l a bs, r.bads = (l, a) :: bs → s.poisonTraps w.team = true → exec i s = .next ((r.s.count 5 (dieOfCore c) 2 r.bads.length).trapAt c k w
                { cause := 0x12, eaddr := a, fm := maskOf (r.bads.map (fun b => b.1)) ||| src.getD 0 }))
            ∧ (∀ m, r.bads = [] → src = some m → r.s.poisonTraps w.team = true → exec i s = .next ((r.s.countErr (dieOfCore c) 2).trapAt c k w
              { cause := 0x12, eaddr := 0, fm := m })))
    let box := run f.va.toNat 11 ++ [f.vb.toNat, f.vb.toNat + 1]
    let pair := [f.sa.toNat, f.sa.toNat + 1]
    word (.rbox f) (run f.vd.toNat 9) [] box (gLanes s w.lanes (rboxLane f s c w))
    ∧ word (.rtri f) (run f.vd.toNat 6) [] box (gLanes s w.lanes (rtriLane f c w))
    ∧ word (.afetch f) (run f.vd.toNat (3 * n)) pair [f.va.toNat, f.va.toNat + 1] (gLanes s w.lanes (afetchLane f c w))
    ∧ word (.abary f) (run f.vd.toNat 6) [] (run f.va.toNat 9 ++ run f.vb.toNat (if f.fn = 1 then 17 else 2))
        ⟨s, false, [], [], w.lanes.map (fun l => (l, (abaryLane f c w ⟨s, none, none, false⟩ l).2))⟩
    ∧ word (.ainterp f) (run f.vd.toNat (if f.fn = 1 then n else 3 * n)) [] (run f.va.toNat (3 * n) ++ run f.vb.toNat 6)
        ⟨s, false, [], [], w.lanes.map (fun l => (l, (ainterpLane f c w ⟨s, none, none, false⟩ l).2))⟩
    ∧ (∀ l x, w.lanes = [l] → s.translate (c / 4) (nodeAddr w f.vb.toNat l) .read = .ok x → x.kind ≠ .ts →
        (gLanes s w.lanes (rboxLane f s c w)).fails = [] ∧ (gLanes s w.lanes (rtriLane f c w)).fails = []
        ∧ (gLanes s w.lanes (rboxLane f s c w)).so = decide (x.kind = .so) ∧ (gLanes s w.lanes (rtriLane f c w)).so = decide (x.kind = .so))
    ∧ ((∀ l ∈ w.lanes, w.readV64 f.va.toNat l = allOnes64) → gLanes s w.lanes (afetchLane f c w) =
        ⟨s, false, [], [], w.lanes.map (fun l => (l, List.replicate (3 * n) 0))⟩)
    ∧ (∀ i nsrc lod, (i, nsrc, lod) ∈ ([(.smpl f, 6, fun x w l => x.footprint (w.vals (f.va.toNat + 2) 4 l)),
          (.smpll f, 3, fun x w l => FVal.sum .rne [f32Val (w.readV (f.va.toNat + 2) l), x.bias])] : List (Instr × Nat × (Sampler → Wave → Nat → FVal))) →
        let b := (⟨s, none, none, false⟩ : GRead).read c w.team (off64 (w.readS64 f.sa.toNat) (64 * f.idx.toNat)) 64
        (w.lanes = [] → i.wf → w.regRange (run f.vd.toNat 4 ++ run f.va.toNat nsrc) = false → w.gHolds .at = false →
          GoesOn i s c k w [] [] (fun t w' => t.mem = s.mem ∧ ∃ q, w'.reqs = w.reqs ++ [q] ∧ q.path = .at ∧ q.ret = .regs [] []))
        ∧ (∀ x, w.lanes ≠ [] → b.1.fail = none → b.1.bad = none → samplerOf b.2 = some x →
          let r := gLanes b.1.s w.lanes (sampleLane f x lod c w)
          word i (run f.vd.toNat 4) pair (run f.va.toNat nsrc) { r with so := r.so || b.1.so }
          ∧ ((∀ l ∈ w.lanes, (f32Val (w.readV f.va.toNat l)).isFin = false) → r =
              ⟨b.1.s, false, [], [], w.lanes.map (fun l => (l, [0, 0, 0, 0]))⟩))
        ∧ (i.wf → w.regRange (run f.vd.toNat 4 ++ run f.va.toNat nsrc) = false → w.gHolds .at = false → w.lanes ≠ [] → b.1.fail = none → b.1.bad = none →
          samplerOf b.2 = none → exec i s = .next (b.1.s.trapAt c k w (w.formatTrap 7))))

/-- R242, R247, R251, R255, R257–R260, R263. RPUSH and RPOP on the lane stacks, RHIT's records, VISLD's pixels, PXOUT's pixel writes, and TRET's release of
tiles. Data without errors is assumed for RPUSH, RPOP, RHIT, VISLD and PXOUT in the clauses that complete (`srcBad` of their sources is none); with an
error in a source register and POISONTRAP, RPUSH counts it and stops with POISON instead, with EADDR 0, which is the model's choice (log entry 114).
Helpers (HMASK) write nothing with RHIT and PXOUT; a PXOUT without active lanes reads no descriptor, which is the model's choice (log entry 133).
Rests on the model's choices of log entries 39, 60, 63, 65, 114, 133. -/
def Obligations.GraphicsStoreWords : Prop :=
  ∀ (s : State) (c k : Nat) (w : Wave) (f : FmtG), s.runs c k w → w.wins = [] →
    let d := f.vd.toNat
    let pair := [f.sa.toNat, f.sa.toNat + 1]
    let asks := fun (i : Instr) (s' : State) (p : Path) (accs : List Access) (ret : Ret) => GoesOn i s c k w [] [] (fun t w' => t.mem = s'.mem
      ∧ ∃ q, w'.reqs = w.reqs ++ [q] ∧ q.path = p ∧ q.accs.Perm accs ∧ q.ret = ret)
    let up := fun (l : Nat) => pushLane ((List.range (min ((w.readV f.vb.toNat l).toNat % 8) 4)).map (fun i => w.readV64 (f.va.toNat + 2 * i) l))
    (∀ base limit, (Instr.rpush f).wf → w.regRange (d :: f.vb.toNat :: run f.va.toNat 8) = false → w.full .lp = false →
      w.stackBounds f.sa = some (base, limit) → w.badStacks d base limit = [] →
      (w.srcBad (.of [f.sa.toNat] (d :: f.vb.toNat :: run f.va.toNat 8)) = none →
        asks (.rpush f) s .lp (w.lanes.flatMap (fun l => (up l limit (w.readV d l)).1.map (fun e =>
            (⟨l, BitVec.ofNat 64 e.1, lpKey l e.1, 8, .lp, .rc, false, .write e.2.toNat, false, 0, false, 0⟩ : Access))))
          (.regs (w.lanes.map (fun l => (d, l, (up l limit (w.readV d l)).2))) []))
      ∧ (∀ m, w.srcBad (.of [f.sa.toNat] (d :: f.vb.toNat :: run f.va.toNat 8)) = some m → s.poisonTraps w.team = true →
        exec (.rpush f) s = .next ((s.countErr (dieOfCore c) 2).trapAt c k w { cause := 0x12, eaddr := 0, fm := m })))
    ∧ (∀ base limit, (Instr.rpop f).wf → w.regRange [d, d + 1, f.va.toNat] = false → w.full .lp = false → w.stackBounds f.sa = some (base, limit) →
        w.badStacks f.va.toNat base limit = [] → w.srcBad (.of [f.sa.toNat] [f.va.toNat]) = none → w.popBad f.va.toNat base = [] →
        let sp := fun (l : Nat) => spOf (w.readV f.va.toNat l)
        let top := fun (l : Nat) => if base + 8 ≤ sp l then Mem.readN w.ownLp (lpKey l (sp l - 8)) 8 else 0
        asks (.rpop f) s .lp [] (.regs (w.lanes.flatMap (fun l => [(d, l, BitVec.ofNat 32 (top l)), (d + 1, l, BitVec.ofNat 32 (top l / 2 ^ 32)),
          (f.va.toNat, l, (w.readV f.va.toNat l &&& 0x80000000) ||| BitVec.ofNat 32 (if base + 8 ≤ sp l then sp l - 8 else sp l))])) []))
    ∧ ((Instr.rhit f).wf → w.regRange [d, f.va.toNat, f.vb.toNat, f.vb.toNat + 1] = false → w.gHolds .at = false →
        w.srcBad (.of [] [d, f.va.toNat, f.vb.toNat, f.vb.toNat + 1]) = none →
        let r := gLanes s (w.lanes.filter (fun l => !w.hmask.getLsbD l)) (rhitLane f s c w)
        r.fails = [] → r.bads = [] → (r.so && w.soPending) = false → asks (.rhit f) r.s .at [] (.rhit (r.outs.map (fun o => o.2))))
    ∧ ((Instr.visld f).wf → w.regRange (run d 3 ++ [f.va.toNat]) = false →
        if w.tref.any (fun r => r.2 = w.z f.sa % 65536) then
          let p := fun (l : Nat) => s.tilePixel (w.z f.sa % 65536) (w.readV f.va.toNat l)
          if w.gHolds .at then exec (.visld f) s = .next (s.setWave c k (w.blockAt s.time 0 0))
          else w.srcBad (.of [f.sa.toNat] [f.va.toNat]) = none → s.visBad w (w.z f.sa % 65536) f.va.toNat = [] →
            asks (.visld f) s .at [] (.regs (w.lanes.flatMap (fun l =>
              [(d, l, (p l).id.extractLsb' 0 32), (d + 1, l, (p l).id.extractLsb' 32 32), (d + 2, l, (p l).depth)])) [])
        else exec (.visld f) s = .next (s.trapAt c k w { cause := 0x06, eaddr := BitVec.ofNat 64 (w.z f.sa % 65536), fm := w.trapMask }))
    ∧ ((Instr.pxout f).wf → w.regRange (d :: f.vb.toNat :: run f.va.toNat 4) = false → w.gHolds .gs = false → w.lanes = [] →
        asks (.pxout f) s .gs [] .none)
    ∧ (∀ b, (Instr.pxout f).wf → w.regRange (d :: f.vb.toNat :: run f.va.toNat 4) = false → w.gHolds .gs = false → w.lanes ≠ [] →
        w.srcBad (.of pair (d :: f.vb.toNat :: run f.va.toNat 4)) = none →
        b = (⟨s, none, none, false⟩ : GRead).read c w.team (off64 (w.readS64 f.sa.toNat) (32 * f.idx.toNat)) 32 → b.1.fail = none → b.1.bad = none →
        (b.1.so && w.soPending) = false → targetOk b.2 = true →
        let s1 := b.1.s.idemLost w.team
        let ps := fun (l : Nat) => s1.pixelWrites c w b.2 f l
        let ls := w.lanes.filter (fun l => !w.hmask.getLsbD l)
        (∀ l ∈ ls, ∀ p ∈ ps l, ∃ q, p.2.2 = .ok q) →
        let accs := ls.flatMap (fun l => (ps l).filterMap (fun p => match p.2.2 with
          | .ok q => some (⟨l, p.1, q.pa, pixelBytes (fieldOf b.2 0x10 1), .glob, q.kind, q.buf, .write p.2.1, false, 0, false, 0⟩ : Access)
          | .error _ => none))
        asks (.pxout f) (s1.touchAll c .glob (accs.map (fun a => a.va))) .gs accs .none)
    ∧ ((Instr.tret f).wf → GoesOn (.tret f) s c k w [] [] (fun t w' => w'.tref = [] ∧ t.mem = s.mem
        ∧ (w.tref = [] → t.tiles = s.tiles)
        ∧ (w.reqs.any (fun q => decide (q.path = .at)) = true → t.tiles = s.tiles ∧ (w.tref ≠ [] → ∃ q, w'.reqs = w.reqs ++ [q] ∧ q.path = .at
          ∧ q.ret = .tret (w.tref.map (fun r => r.2))))))

/-! ### What happens to a wave between its words -/

/-- R50–R52, R63, R96–R103, R206, R241, R311, R333, R440, R442, R451, R462, R470. The events of a wave: its fetch, the choice of the Escapement when the waits
of its clause are met, promotion, a deferred fault and a POISON stop at a boundary, a vacate's stop, the watchdog, a sleeper's wake, and the return
of a request that writes registers and of a load. The model's choices: a request may come back when the turns say (log entries 2, 12,
22), and a wait cancelled by a vacate first makes the writes its open windows withhold (log entry 30).
Rests on the model's choices of log entries 2, 12, 22, 30, 106. -/
def Obligations.WaveEvents : Prop :=
  ∀ (s : State) (c k : Nat) (w : Wave), s.wave? c k = some w →
    let a := Agent.wave c k
    (w.halted = false → w.stopped = false → w.dbg = false →
      (w.clause = none → w.eretWord.isSome = true ∨ w.faultDue = false ∧ w.poison = none → w.dbgReq = false → s.vacating c = false →
        match s.fetchClause c (if w.adr then .adr else .vec) w.pc with
        | .ok cl =>
          let t := s.keepClause c w.pc
          exec (.clauseFetch a) s = .next (match w.eretWord with
            | none => t.setWave c k ({ w.replayed with clause := some cl, widx := 0, waitMet := false }.markReady t.ck)
            | some n => if n < cl.words.length then
                t.setWave c k ({ w.replayed with clause := some cl, widx := n, waitMet := false }.markReady t.ck)
              else t.trapHeader c k w.replayed { cause := 0x02, sub := 8, origin := 1, eaddr := w.pc, fm := w.replayed.trapMask } w.pc 0)
        | .error e => exec (.clauseFetch a) s = .next ((s.keepClause c w.pc).trapHeader c k w
            { cause := e.cause, sub := e.sub, level := e.level, origin := 1, eaddr := e.addr, fm := w.trapMask } w.pc e.word))
      ∧ (∀ p, k < 32 → w.clause.isSome = true → w.waitMet = false → w.waitsMet = true →
        w.eretWord.isSome = true ∨ w.faultDue = false ∧ w.poison = none → w.dbgReq = false → s.vacating c = false →
        (∀ x ∈ s.frontEnd c w.adr, s.ready c x.2.1 = true → x ≠ (k, w, s.waveEprio w) → chosenBefore (k, w, s.waveEprio w) x = true) →
        s.idlePipe c w.adr = some p → exec (.clauseWaitMet a) s = .next (s.setWave c k { w with
          waitMet := true, eretWord := none, readySince := none, promoted := none, yielded := false, pipe := some p }))
      ∧ (w.dbgReq = false → s.chosen c w.adr ≠ some k ∨ s.idlePipe c w.adr = none → exec (.clauseWaitMet a) s = .next s)
      ∧ (∀ p, w.atBoundary = true → w.poison = none → w.pend = some p → if w.intrap then exec (.pendingFaultDelivery a) s = .next s
        else ∃ w' tr, exec (.pendingFaultDelivery a) s = .next (s.trapHeader c k w' tr w.hdrAddr 0) ∧ w'.pend = none ∧ w'.s = w.s ∧ w'.v = w.v
          ∧ tr.cause = p.cause.toNat % 256 ∧ tr.deferred = true ∧ tr.eaddr = p.eaddr ∧ tr.sub = p.estat.toNat % 256
          ∧ tr.level = p.estat.toNat / 8192 % 4 ∧ tr.origin = p.estat.toNat / 16777216 % 16 ∧ tr.fm = w.trapMask)
      ∧ (∀ addr lanes, w.atBoundary = true → w.poison = some (addr, lanes) → ∃ w', exec (.poisonStop a) s = .next (s.trapHeader c k w'
          { cause := 0x12, origin := 5, eaddr := addr, fm := lanes } w.hdrAddr 0) ∧ w'.poison = none ∧ w'.s = w.s ∧ w'.v = w.v)
      ∧ (s.vacating c = true → w.block = .none → w.clause.isSome = true → w.waitMet = false →
        exec (.vacateWaveStop a) s = .next (s.setWave c k w.refetch))
      ∧ (∀ since st wake, s.vacating c = true → w.block = .word since st wake → w.clause.isSome = true → w.treq = none →
        ∃ t w', exec (.vacateWaveStop a) s = .next t ∧ t.wave? c k = some w' ∧ w'.clause = none ∧ w'.pc = w.hdrAddr ∧ w'.eretWord = some w.widx
          ∧ w'.block = .none ∧ w'.wins = [] ∧ w'.s = w.closeWins.s ∧ w'.v = w.closeWins.v ∧ t.mem = s.mem)
      ∧ (∀ since st wake, w.block = .word since st wake → w.treq = none → s.win.wdtime ≠ 0 →
        opOf w.curWord ∈ [0x79, 0x8C, 0xB1, 0xB3, 0xC0, 0xC1, 0xC3, 0xC4, 0xC6, 0xD1, 0xD2] →
        if s.win.wdtime * 1000000 * 17 ≤ s.time - since then
          exec (.watchdog a) s = .next ((s.dropWaits a w.team).trapAt c k { w.keepArrival with treq := none }
            { cause := 0x15, origin := 6, fm := w.trapMask })
        else exec (.watchdog a) s = .next s)
      ∧ (∀ since wake, w.block = .word since 1 wake → opOf w.curWord = 0x7F → wake ≤ s.ck → exec (.sleepWake a) s = .next (s.setWave c k w.done)))
    ∧ (∀ t0, w.readySince = some t0 → w.promoted = none → if t0 + 64 ≤ s.ck then
          ∃ t w', exec (.promotion a) s = .next t ∧ t.wave? c k = some w' ∧ w' = { w with promoted := some (t0 + 64) } ∧ t.mem = s.mem
        else exec (.promotion a) s = .next s)
    ∧ (∀ p q, w.reqs.find? (fun q => decide (q.path = p)) = some q → w.req? q.id = some q → q.sem = 0 → q.clob = [] → w.maySend q = true →
        let returns := fun (vs : List (Nat × Nat × W32)) => ∃ t w', exec (.requestReturn a p) s = .next t ∧ t.wave? c k = some w'
          ∧ (∀ n l, l < 96 → w'.rawV n l = w.vAfter vs n l) ∧ w'.s = w.s ∧ w'.reqs = w.reqs.filter (fun r => !decide (r.id = q.id))
          ∧ w'.spot = w.spot
        (∀ vs, q.ret = .regs vs [] → q.accs = [] → (∀ x ∈ vs, x.2.1 < 96) → returns vs)
        ∧ (∀ d size fn z, q.ret = .vload d size fn z → (∀ x ∈ q.accs, x.done = true ∧ x.bad = false ∧ x.lane < 96) →
            returns (q.accs.flatMap (fun x => (List.range (loadWords size x.res).length).map (fun i =>
              (d + i, x.lane, (loadWords size x.res).getD i 0))))))

/-! ### Launches and placement -/

/-- R38, R46–R48, R58, R61–R66, R376, R452, R524. The Regulator's events: a queue is enabled, its control line and records read, a launch activated, placed
and completed; a vacate is asked for, saves or discards a team, and is reported; a time slice expires. The model's choices: a record slot
that memory does not back reads as zeros (log entry 89), a queue's BASE and CTLADDR are physical (log entry 91), and what of a team goes to
its saved state (log entry 73).
Rests on the model's choices of log entries 72, 73, 82, 85, 86, 87, 88, 89, 90, 91, 106, 120. -/
def Obligations.LaunchEvents : Prop :=
  ∀ (s : State),
    (∀ q v, s.hostUp = true → q < 64 → (s.lq q).enable = false → v.getLsbD 0 = true → (s.lq q).base.toNat % 256 = 0 → (s.lq q).ctl.toNat % 128 = 0 →
      (∃ i < 16, (s.lq q).size.toNat = 2 * 2 ^ i) → ∃ t, exec (.launchQueueEnable q v) s = .next t
        ∧ t.lq q = { s.lq q with enable := true, fresh := false, started := false } ∧ t.mem = s.mem)
    ∧ (∀ q, (s.lq q).enable = true → let r := s.ctlRead q
        ∃ t, exec (.launchQueueRefetch q) s = .next t ∧ (t.lq q).fresh = true ∧ (t.lq q).tail = r.ctlWord q 8
          ∧ (t.lq q).next = (if (s.lq q).started then (s.lq q).next else r.ctlWord q 0x10))
    ∧ (∀ q, let x := s.lq q
        let pa := x.slot x.next
        let r := if s.backed pa then s.homeReadBytes none pa 256 else (s, List.replicate 256 0, false)
        let y := { x with next := (x.next + 1) % 2 ^ 64, kids := x.kids.filter (fun n => !decide (n = x.next)) }
        x.enable = true → x.started = true → x.next ≠ x.tail → s.queuedEntries < 1024 →
        match (r.1.setLq q y).refusal r.2.1 false with
        | none => ∃ t l, exec (.launchRecordRead q) s = .next t ∧ t.launch? s.nextId = some l ∧ l.state = .waiting ∧ l.record = launchRec r.2.1
            ∧ l.queue = some q ∧ l.recAddr = pa ∧ l.total = l.record.total ∧ (l.child = true ↔ x.next ∈ x.kids) ∧ t.lq q = y
        | some reason => ∃ s'' : State, exec (.launchRecordRead q) s = .next ((s''.statusWrite pa (2 ^ 31 + reason)).headOf q)
            ∧ s''.launches = s.launches ∧ (reason ≠ 6 → (launchRec r.2.1).launchId.toNat ∈ s''.refused))
    ∧ (∀ l x, s.launch? l = some x → x.state = .waiting → (∀ p ∈ x.bound, s.launch? p = none) →
        (∀ r ∈ s.launches, r.2.queue = x.queue → r.2.state = .waiting → l ≤ r.1) →
        exec (.launchActivation l) s = .next (s.setLaunch l { x with state := .active }))
    ∧ (∀ lid l i p, s.up = true → s.reap.launches = [(lid, l)] → l.state = .active → l.ctx = s.win.ctxid → l.saved = [] → l.binTeams = [] →
        l.record.coop = false → l.record.perGroup = 1 → l.record.excl = false → l.nextIndex = some i → i < l.total →
        s.reap.ground.place (s.reap.choose 960001 65536) ⟨[l.record.needs], false, none, []⟩ = some p →
        ∃ t x, exec .placementDecision s = .next t ∧ t.team? (s.reap.nextId + 1) = some x ∧ x.index = i ∧ x.launch = lid
          ∧ x.core = (p.1.getD 0 ⟨0, 0⟩).core ∧ x.idemLost = false)
    ∧ (∀ l x, s.reap.launch? l = some x → if x.finished then ∃ t, exec (.launchCompletion l) s = .next t ∧ t.launch? l = none
        else exec (.launchCompletion l) s = .next s.reap)
    ∧ (∀ n x, s.reap.team? n = some x → x.coop = false → x.excl = false → (∃ c ∈ x.cores, s.reap.vacating c = true) → s.reap.teamReady n x = true →
        ∃ t, exec (.teamSave n) s = .next t ∧ t.team? n = none ∧ (if x.idem = true ∧ x.idemLost = false then
            ∀ l, s.reap.launch? x.launch = some l → ∃ l', t.launch? x.launch = some l' ∧ x.index ∈ l'.again
          else ∃ y, Tbl.get? t.saved n = some y ∧ y.team.index = x.index ∧ y.cores = x.cores))
    ∧ (∀ n x, s.reap.team? n = some x → (∃ c ∈ x.cores, s.reap.vacating c = true) → (∀ r ∈ s.reap.unitTeams n x, s.reap.teamReady r.1 r.2 = true) →
        ∃ t, exec (.teamSave n) s = .next t ∧ ∀ r ∈ s.reap.unitTeams n x, t.team? r.1 = none)
    ∧ (∀ v, s.vac = some v → v.why = 0 → s.fred.ckpt = none → if v.cores.all s.reap.coreEmpty then
          ∃ t, exec .vacateComplete s = .next t ∧ t.vac = none ∧ t.win.vacStatus = 2 ∧ t.win.vacRun = false
            ∧ t.win.vacSet = v.cores.foldl (fun m c => m ||| BitVec.ofNat 192 (2 ^ c)) 0
        else exec .vacateComplete s = .next s.reap)
    ∧ (∀ t0, s.ctxStart = some t0 → s.win.tslice ≠ 0 → s.expired = false → s.vac = none → if t0 + s.win.tslice * 17000 ≤ s.time then
          ∃ t, exec .timeSliceExpiry s = .next t ∧ t.expired = true ∧ t.vac = some ⟨s.vacateSet (List.range s.coreCount), 1⟩
        else exec .timeSliceExpiry s = .next s)
    ∧ (s.hostUp = true → s.vac = none → s.win.vacRun = false → s.win.vacCount.toNat ≤ 192 → ∃ t v, exec .vacate s = .next t ∧ t.vac = some v ∧ v.why = 0
        ∧ t.win.vacStatus = 1 ∧ t.win.vacRun = true ∧ ∀ c ∈ v.cores, t.vacating c = true)

/-! ### Engine commands -/

/-- R363, R364, R368, R371, R376, R377. A command fires at the head of its channels' queues, behind its wave's acquires and releases (R343); one that waits
for its turn, its elements or room stays as it is, and so does one of a context that does not run. A fired command takes engine tags, no more
than its requests and than are free of 512 (R26), or is counted as waiting; how many of them it takes is the model's choice (log entry 50). A copy
in then commits its elements and a copy out consumes its own. PUBLISH, once its commands have ended and its release may go, flips its buffer entry,
or ends with a deferred fault where the entry is invalid (when it fires is log entry 49). LAUNCH reserves a sequence number, writes the record while there is room, and raises
TAIL in its turn. That an event which is not enabled leaves the state as it was is the model's choice (log entry 106).
Rests on the model's choices of log entries 49, 50, 106. -/
def Obligations.EngineEvents : Prop :=
  ∀ (s : State) (id : Nat) (m : Cmd), Tbl.get? s.cmds id = some m →
    let stage := fun (t : State) => (Tbl.get? t.cmds id).map (fun c => c.stage)
    let stays := fun (i : Instr) => exec i s = .next s
    let fires := fun (P : State → Prop) => ∃ t, exec (.engineFire id) s = .next t ∧ stage t = some .fired ∧ t.waves = (s.cmdRelease id m).waves ∧ P t
    let ch := s.chan m.team m.ch
    (m.stage = .issued → s.cmdOrdered id m = false ∨ s.ctxRuns m.team = false → stays (.engineFire id))
    ∧ (m.stage = .issued → s.cmdOrdered id m = true → s.ctxRuns m.team = true → (s.team? m.team).isSome = true →
        (∀ d, m.kind = .cpyg d → fires (fun t => t.teams = s.teams))
        ∧ (∀ d layb, m.kind = .cpyin d layb → if ch.heads id = true ∧ ch.outputReady m.n = true then
              fires (fun t => t.chan m.team m.ch = (ch.reserve m.n).leave id)
            else stays (.engineFire id))
        ∧ (∀ d, m.kind = .cpyout d → if ch.heads id = true ∧ ch.inputReady m.n = true then fires (fun t => t.chan m.team m.ch = ch)
            else stays (.engineFire id))
        ∧ (∀ d, m.kind = .idxwalk d → if ch.heads id = true ∧ ch.outputReady 1 = true then
              fires (fun t => t.chan m.team m.ch = ch.leave id ∧ t.mem = (s.cmdRelease id m).mem)
            else stays (.engineFire id)))
    ∧ (m.stage = .fired → m.translates = false ∨ s.ctxRuns m.team = true → s.wantsTag m = true → if s.tagsHeld m.agent.core < 512 then
          ∃ g, 1 ≤ g ∧ g ≤ max 1 (min (s.cmdRequests m) (512 - s.tagsHeld m.agent.core))
            ∧ exec (.engineComplete id) s = .next { s with cmds := Tbl.set s.cmds id { m with tags := g } }
        else exec (.engineComplete id) s = .next (s.pmcCount m.agent.core 0x16 1 m.team))
    ∧ (∀ d x, m.stage = .fired → m.tags ≠ 0 → m.kind = .cpyout d → m.fault = none → m.ecpl = none → s.team? m.team = some x → s.mem.bad = [] →
        ∃ t, exec (.engineComplete id) s = .next t ∧ stage t = some .done ∧ t.chan m.team m.ch = ((x.chan m.ch).consume m.n).leave id
          ∧ t.mem.scratch = s.mem.scratch ∧ t.mem.rows = s.mem.rows ∧ t.waves = s.waves)
    ∧ (∀ d layb x, m.stage = .fired → m.tags ≠ 0 → m.kind = .cpyin d layb → m.fault = none → m.ecpl = none → s.team? m.team = some x →
        ∃ t, exec (.engineComplete id) s = .next t ∧ stage t = some .done
          ∧ t.chan m.team m.ch = (x.chan m.ch).commit (BitVec.ofNat 32 m.outFirst) m.n)
    ∧ (∀ b ws, m.stage = .issued → m.kind = .publish b ws → m.ecpl = none → if s.publishReady m.team ws then
          ((s.buffer b).valid = false ∨ m.progress = 1 → ∃ t, exec (.publishFlip id) s = .next t ∧ t.buffers = s.buffers ∧ stage t = some .done)
          ∧ (∀ c k w q, (s.buffer b).valid = true → m.progress ≠ 1 → m.agent = .wave c k → s.wave? c k = some w →
              w.reqs.find? (fun q => q.isCmd id) = some q → if w.maySend q then
                ∃ t, exec (.publishFlip id) s = .next t ∧ t.buffer b = { s.buffer b with cur := !(s.buffer b).cur } ∧ stage t = some .done
              else stays (.publishFlip id))
        else stays (.publishFlip id))
    ∧ (∀ qu va sd c k w q, m.stage = .issued → m.kind = .launch qu va sd → m.agent = .wave c k → s.wave? c k = some w →
        w.reqs.find? (fun q => q.isCmd id) = some q → if w.maySend q then
          ∃ t c', exec (.launchEnqueue id) s = .next t ∧ Tbl.get? t.cmds id = some c' ∧ c'.stage = .fired ∧ c'.seqno.isSome = true ∧ c'.kind = m.kind
            ∧ (q.sent = true → m.recBytes ≠ [] → c' = { m with stage := .fired, seqno := some ((s.ctlRead qu).ctlWord qu 0) })
        else stays (.launchEnqueue id))
    ∧ (∀ qu va sd n, m.stage = .fired → m.kind = .launch qu va sd → m.seqno = some n →
        let r := s.ctlRead qu
        (m.progress = 0 → (n + 2 ^ 64 - r.ctlWord qu 0x10) % 2 ^ 64 < (s.lq qu).size.toNat → ∃ t, exec (.launchEnqueue id) s = .next t
          ∧ Tbl.get? t.cmds id = some { m with progress := 1 }
          ∧ (s.backed ((s.lq qu).slot n) = true → m.recBytes.length = 256 → ∀ j < 256, Mem.read t.mem.home ((s.lq qu).slot n + j) =
              (if 0x3C ≤ j ∧ j < 0x40 then 0 else m.recBytes.getD j 0)))
        ∧ (m.progress = 0 → (s.lq qu).size.toNat ≤ (n + 2 ^ 64 - r.ctlWord qu 0x10) % 2 ^ 64 → exec (.launchEnqueue id) s = .next r)
        ∧ (m.progress = 1 → if r.ctlWord qu 8 = n then ∃ t, exec (.launchEnqueue id) s = .next t ∧ stage t = some .done ∧ (t.lq qu).fresh = false
            else exec (.launchEnqueue id) s = .next r))

/-! ### The queues of the sequencer and the Gear train's flits -/

/-- R216, R217, R220–R223, R225, R233, R410. The array queue and the quarters: MMA_FIRE, with which an MZERO or MCVT begins too and leaves its queue
entry, the end of an MMA and of MZERO, a transfer's begin (in the memory form, and in MLD's channel form) and end, with the tile of an MLD from
memory and the flits of a GTSEND, MFMT's completion, and a quarter's gating and waking. That an event which is not enabled leaves the state as
it was is the model's choice (log entry 106).
Rests on the model's choices of log entries 77, 106. -/
def Obligations.MatrixEvents : Prop :=
  ∀ (s : State) (c : Nat) (m : Stream), s.stream? c = some m →
    (∀ q rest, m.arrayQ = q :: rest → q.isMma = true → q.begun = false →
      let m1 := m.wake (quartersOf q.f) s.ck
      let ca := s.chan m.team q.f.cha.toNat
      let cb := s.chan m.team q.f.chb.toNat
      let n := q.f.ksteps.toNat + 1
      if (ca.heads q.id && cb.heads q.id && ca.inputReady n && cb.inputReady n && (quartersOf q.f).all m1.isAwake && s.mayBegin c m1 q) = true then
        ∃ t m', exec (.mmaFire c) s = .next t ∧ t.stream? c = some m' ∧ t.mem = s.mem
          ∧ m'.arrayQ = { q with begun := true, start := s.ck, row0 := ca.acq.toNat, nrow := cb.acq.toNat } :: rest
      else exec (.mmaFire c) s = .next (s.setStream c m1))
    ∧ (∀ q rest, m.arrayQ = q :: rest → q.isMma = false → (s.core c).chains = [] → exec (.mmaFire c) s = .next (s.setStream c
        (if q.begun = false ∧ s.mayBegin c m q = true then { m with arrayQ := { q with begun := true, start := s.ck } :: rest } else m)))
    ∧ (∀ q rest x, m.arrayQ = q :: rest → q.isMma = true → q.begun = true → s.team? m.team = some x → (s.core c).chains = [] →
        ∃ t m', exec (.arrayWordEnd c) s = .next t ∧ t.stream? c = some m' ∧ m'.arrayQ = rest ∧ m'.xferQ = m.xferQ
          ∧ t.mem = (s.tileWrite c q.f.tile.toNat q.f.accf.toNat (s.mmaResult c x q).1).mem)
    ∧ (∀ q rest, m.arrayQ = q :: rest → q.op = 0xA1 → (s.core c).chains = [] → q.begun = true ∨ s.mayBegin c m q = true → ∃ t m', exec (.arrayWordEnd c) s = .next t
        ∧ t.stream? c = some m' ∧ m'.arrayQ = rest ∧ ∀ i < 64, ∀ j < 64, t.tileElem c q.f.tile.toNat q.f.accf.toNat i j = 0)
    ∧ (∀ q rest, m.xferQ = q :: rest → q.begun = false → q.f.flags.getLsbD 0 = true → s.mayBegin c m q = true → ∃ t m' es,
        exec (.transferWordBegin c) s = .next t ∧ t.stream? c = some m' ∧ t.mem = s.mem ∧ m'.xferQ = { q with
          begun := true, start := if q.op = 0xA4 then (s.chan m.team q.f.cha.toNat).acq.toNat else (s.chan m.team q.f.cha.toNat).res.toNat, ecpls := es } :: rest)
    ∧ (∀ q rest, m.xferQ = q :: rest → q.begun = false → q.f.flags.getLsbD 0 = false → q.op = 0xA4 →
        let ch := s.chan m.team q.f.cha.toNat
        if (ch.heads q.id && ch.inputReady 1 && s.mayBegin c m q) = true then ∃ t m', exec (.transferWordBegin c) s = .next t ∧ t.stream? c = some m'
          ∧ t.mem = s.mem ∧ m'.xferQ = { q with begun := true, start := ch.acq.toNat, ecpls := [] } :: rest
        else exec (.transferWordBegin c) s = .next s)
    ∧ (∀ q rest, m.xferQ = q :: rest → q.begun = true → q.ecpls = [] ∨ s.ctxRuns m.team = true → ∃ t m', exec (.transferWordEnd c) s = .next t ∧ t.stream? c = some m' ∧ m'.xferQ = rest
        ∧ m'.arrayQ = m.arrayQ ∧ m'.m = m.m
        ∧ (q.op = 0xA4 → q.f.flags.getLsbD 0 = true → (s.core c).chains = [] →
          t.mem = ((s.mldSource c m q).1.tileWrite c q.f.tile.toNat q.f.accf.toNat (mldElems q.f q.fbA (s.mldSource c m q).2.1)).mem)
        ∧ (q.op = 0xDA → ∀ i ≤ q.nrow, ∃ fl, Tbl.get? t.flits (s.nextId + i) = some fl ∧ fl.row = q.row0 + i ∧ fl.chain = q.chain ∧ fl.src = c
          ∧ fl.dst = (s.chain c q.chain).dst ∧ fl.team = (s.chain c q.chain).dstTeam ∧ fl.answer = none))
    ∧ (∀ n x, m.mfmt.find? (fun y => decide (y.1 = n)) = some x → ∃ t m', exec (.mfmtComplete c n) s = .next t ∧ t.stream? c = some m'
        ∧ m'.fbBlock n = x.2 % 2 ^ 256 ∧ (∀ j, j < 32 * n ∨ 32 * n + 32 ≤ j → Mem.read m'.fb j = Mem.read m.fb j) ∧ m'.mfmt.length + 1 = m.mfmt.length)
    ∧ (∀ n t0, m.quarters.getD n .gated = .awake t0 → if s.win.mxidle ≠ 0 ∧ t0 + s.win.mxidle ≤ s.ck ∧ m.quarterUsed n = false then
          exec (.quarterGated c n) s = .next (s.setStream c (m.setQuarter n .gated))
        else exec (.quarterGated c n) s = .next s)
    ∧ (∀ n t0, m.quarters.getD n .gated = .waking t0 → if t0 + Config.capMxwake ≤ s.ck then
          exec (.quarterAwake c n) s = .next (s.setStream c (m.setQuarter n (.awake s.ck)))
        else exec (.quarterAwake c n) s = .next s)

/-- R405, R410–R413. The Gear train's flits: the answer to a GTSEND's check, a flit added, held or refused at its chain, waiting for
the words before its reservation, and its acknowledgement, which reaches its sender's chain where the sender now stands, or its saved state.
That a flit which must wait leaves the state as it was is the model's choice (log entry 106).
Rests on the model's choices of log entry 106. -/
def Obligations.GearTrainEvents : Prop :=
  ∀ (s : State),
    (∀ c m cl f, s.stream? c = some m → m.check = some 0 → m.clause = some cl → decodeWord (cl.words.getD m.widx 0) = .ok (.gtsend f) →
      let x := s.chain c f.chain.toNat
      let y := s.chain x.dst f.chain.toNat
      let a := f.row0.toNat
      exec (.gtCheckAnswer c) s = .next (s.setStream c { m with check := some (if s.holdsTeam x.dst x.dstTeam = false ∨ y.state = .broken then 2
        else if y.state = .reserved ∧ y.row0 ≤ a ∧ a + f.nrow.toNat ≤ y.row0 + y.nrow then 1 else 3) }))
    ∧ (∀ n fl, Tbl.get? s.flits n = some fl → fl.answer = none →
        (∀ r ∈ s.flits, r.1 < n → r.2.answer = none → r.2.sender = fl.sender → r.2.spos = fl.spos → r.2.chain = fl.chain → r.2.dst ≠ fl.dst) →
        let x := s.chain fl.dst fl.chain
        let got := Tbl.getD x.arrived fl.row 0
        let holds := s.holdsTeam fl.dst fl.team
        let gone := s.vacatedFrom fl.dst fl.team = true ∨ (holds = true ∧ x.state = .broken)
        let answered := fun (t : State) (a : Nat) => Tbl.get? t.flits n = some { fl with answer := some a }
        let good := holds = true ∧ x.state = .reserved ∧ x.row0 ≤ fl.row ∧ fl.row ≤ x.row0 + x.nrow ∧ got < x.count
        (gone → ∃ t, exec (.gtFlitArrival n) s = .next t ∧ answered t 1 ∧ t.mem = s.mem)
        ∧ (¬gone → ¬good → ∃ t, exec (.gtFlitArrival n) s = .next t ∧ answered t 2 ∧ t.mem = s.mem)
        ∧ (good → x.sorted = false → s.chainOpen fl.dst x = false → exec (.gtFlitArrival n) s = .next s)
        ∧ (good → x.sorted = false → fl.bad = false → s.chainOpen fl.dst x = true →
            ∃ t, exec (.gtFlitArrival n) s = .next t ∧ answered t 0 ∧ t.mem = (s.addRow fl.dst x fl.row fl.data).mem
              ∧ t.chain fl.dst fl.chain = { x with arrived := Tbl.put x.arrived fl.row 0 (got + 1), remain := x.remain - 1 })
        ∧ (good → x.sorted = true → fl.bad = false → s.chainOpen fl.dst x = false →
            ∃ t, exec (.gtFlitArrival n) s = .next t ∧ answered t 0 ∧ t.mem = s.mem
              ∧ (t.chain fl.dst fl.chain).held = x.held ++ [⟨fl.row, fl.src, false, fl.data⟩]))
    ∧ (∀ n fl a, Tbl.get? s.flits n = some fl → fl.answer = some a → ∃ t, exec (.gtFlitAck n) s = .next t ∧ Tbl.get? t.flits n = none ∧ t.mem = s.mem
        ∧ (∀ x, s.team? fl.sender = some x → let y := s.chain (x.core + fl.spos) fl.chain
          y.state = .send → t.chain (x.core + fl.spos) fl.chain =
            { y with refusedGone := y.refusedGone || decide (a = 1), refusedOther := y.refusedOther || decide (a = 2) })
        ∧ (∀ x, s.team? fl.sender = none → Tbl.get? s.saved fl.sender = some x → ∃ x', Tbl.get? t.saved fl.sender = some x'
          ∧ x'.cores = x.cores ∧ x'.chains.length = x.chains.length))

/-! ### Tuples at their home slice -/

/-- R390, R392, R394–R397, R400–R402. What a home slice does with a request that arrives: a deposit is stored, or waits at a full slice; a copy or take is
served with the oldest tuple that fits, reports NONE or parks; a tuple that leaves a full slice makes room for the deposit that waits there longest; a
retry, a cancel, a limit, and a refused deposit. `s1` is the state in which the request's word has done its release (R316); a stored tuple may make
the slice evict an ordinary line, and changes no memory where the slice has room (`fits`). The model's choices: the slice serves a request in one
indivisible step (log entry 40), the deposit of an ECPL ends its command at once (log entry 52), and an event that is not enabled leaves the
state as it was (log entry 106).
Rests on the model's choices of log entries 40, 52, 106. -/
def Obligations.TupleEvents : Prop :=
  ∀ (s : State) (r : Nat) (t : TReq), Tbl.get? s.treqs r = some t →
    let h := t.slice
    let now := fun (s' : State) (t' : TReq) => Tbl.get? s'.treqs r = some t'
    (∀ s1, t.stage = .travelling → s.flowFirst r t = true → s.tupleMaySend r t = some s1 → Tbl.get? s1.treqs r = some t →
      (∀ x ∈ (s1.slice h).tuples, 0 ∉ x.bad) →
      let fits := (s1.sliceLines h).length + 1 ≤ s1.sliceRoom h
      (t.op = .dep → t.uniq = false → s1.parked h = [] → (s1.slice h).watches = [] → (s1.slice h).tuples.length < 65536 →
        ∃ s', exec (.tupleDeposit r) s = .next s' ∧ now s' { t with stage := .ended 0, fault := 0 }
        ∧ (s'.slice h).tuples = (s1.slice h).tuples ++ [⟨t.bag, false, (s1.slice h).depStamp, t.data, []⟩] ∧ (fits → s'.mem = s1.mem))
      ∧ (∀ n, t.op = .ecpl n → t.uniq = false → s1.parked h = [] → (s1.slice h).watches = [] → (s1.slice h).tuples.length < 65536 →
        ∃ s', exec (.tupleDeposit r) s = .next s' ∧ Tbl.get? s'.treqs r = none
        ∧ (s'.slice h).tuples = (s1.slice h).tuples ++ [⟨t.bag, false, (s1.slice h).depStamp, t.data, []⟩] ∧ (fits → s'.mem = s1.mem)
        ∧ Tbl.get? s'.cmds n = (Tbl.get? s1.cmds n).map (fun x => { x with stage := .done }))
      ∧ (t.op.deposit = true → t.uniq = false → s1.parked h = [] → 65536 ≤ (s1.slice h).tuples.length → ∃ s', exec (.tupleDeposit r) s = .next s'
        ∧ now s' { t with stage := .waitingFull s1.ck } ∧ (s'.slice h).tuples = (s1.slice h).tuples ∧ s'.mem = s1.mem)
      ∧ (∀ x, t.op.deposit = false →
        (s1.slice h).tuples.find? (fun y => decide (y.bag = t.bag) && fitsPattern y.read t.data) = some x →
        let rest := (s1.slice h).tuples.filter (fun y => !decide (y.stamp = x.stamp))
        (s1.nextWaiting h = none → ∃ s', exec (.tupleMatch r) s = .next s'
          ∧ now s' { t with stage := .ended 0, got := x.read, gotBad := !x.bad.isEmpty }
          ∧ (s'.slice h).tuples = (if t.op = .take ∨ t.op = .taken then rest else (s1.slice h).tuples))
        ∧ (∀ r2 t2, s1.nextWaiting h = some (r2, t2) → Tbl.get? s1.treqs r2 = some t2 → t2.op = .dep → t2.uniq = false →
          t.op = .take ∨ t.op = .taken → rest.length = 65535 → s1.parked h = [] → (s1.slice h).watches = [] →
          ∃ s', exec (.tupleMatch r) s = .next s' ∧ Tbl.get? s'.treqs r2 = some { t2 with stage := .ended 0, fault := 0 }
          ∧ (s'.slice h).tuples = rest ++ [⟨t2.bag, false, (s1.slice h).depStamp, t2.data, []⟩]))
      ∧ (t.op.deposit = false → (s1.slice h).tuples.find? (fun y => decide (y.bag = t.bag) && fitsPattern y.read t.data) = none →
        ∃ s' t', exec (.tupleMatch r) s = .next s' ∧ now s' t' ∧ (s'.slice h).tuples = (s1.slice h).tuples
          ∧ t' = { t with stage := if t.op = .cpyn ∨ t.op = .taken then .ended 1
              else if (s1.parked h).length < 4096 then .parked (s1.slice h).parkStamp
              else if t.cancelled then .ended 2 else if t.timedOut then .ended 3 else .retrying s1.ck }))
    ∧ (∀ since, t.stage = .retrying since → if since + 256 ≤ s.ck then
          ∃ s', exec (.tupleRetry r) s = .next s' ∧ now s' { t with stage := .travelling } ∧ s'.mem = s.mem
        else exec (.tupleRetry r) s = .next s)
    ∧ (t.cancelled = true ∨ t.timedOut = true → t.retrying = true ∨ t.parkStamp.isSome = true → ∃ s', exec (.tupleCancel r) s = .next s'
        ∧ now s' { t with stage := .ended (if t.cancelled then 2 else 3) } ∧ s'.mem = s.mem)
    ∧ (∀ d, t.deadline = some d → t.open = true → t.cancelled = false → if d ≤ s.ck then ∃ s', exec (.tupleTimeout r) s = .next s'
          ∧ now s' { t with timedOut := true, stage := if t.retrying then .ended 3 else t.stage } ∧ s'.mem = s.mem
        else exec (.tupleTimeout r) s = .next s)
    ∧ (∀ since, t.op = .dep → t.stage = .waitingFull since → if since + 4096 ≤ s.ck then
          ∃ s', exec (.tsFull r) s = .next s' ∧ now s' { t with stage := .ended 4, fault := 0x0E } ∧ s'.mem = s.mem
        else exec (.tsFull r) s = .next s)

/-! ### Accesses at the caches and the homes -/

/-- R26, R282, R283, R286, R288, R293, R303, R312, R314, R321, R324, R326, R327. What performs an access of a wave's request, once its release has been sent
(`s1`): the bytes it leaves at the home or in the column, what it reads, and the piece of the access it marks as performed, eight bytes at a time
in the host window; an access that needs a miss-status entry takes one, or waits. A turn that sets `lack` is undone by its step (log entry 138);
the model's choices are when an access performs (log entry 38), that the home combines partials first (log entry 43), which write-back sets ACKTAG
(log entry 28), and what an access that must wait leaves (log entry 106).
Rests on the model's choices of log entries 28, 38, 43, 106, 138. -/
def Obligations.AccessesPerform : Prop :=
  ∀ (s : State) (c k : Nat) (w : Wave) (q : Req) (rq i : Nat) (x : Access), s.wave? c k = some w → w.req? rq = some q → q.accs[i]? = some x →
    w.mayPerform q i x = true →
    let a := Agent.wave c k
    let cl := clusterOf c
    let line := x.pa / 128
    let who := waveKey c k
    let s1 := s.sendReq c k w q
    let pa := x.pa + x.got
    let after := fun (t : State) (x' : Access) => ∃ w' q', t.wave? c k = some w' ∧ w'.req? rq = some q' ∧ q'.accs[i]? = some x'
    let performed := fun (t : State) (n v : Nat) (bad : Bool) =>
      after t { x with done := decide (x.n ≤ x.got + n), res := x.res + v * 256 ^ x.got, bad := x.bad || bad, got := x.got + n }
    let holds := fun (t : State) (p : Nat) (bs : List Byte) => ∀ j < bs.length, Mem.read t.mem.home (p + j) = bs.getD j 0
    let met := fun (t : State) => (t.meetCluster c who q x).throughEntry c who q x
    let atHome := (met (s1.colEvict c line)).homeReadBytes (some cl) x.pa x.n
    let old := ofBytes atHome.2.1
    let version := ofBytes ((s1.colEvict c line).homeReadBytes (some cl) x.pa 8).2.1
    (∀ d, x.op = .write d → s.columnServes c q x = false ∨ q.sem ≠ 0 → if s1.entryReady c who q x then
        ∃ t, exec (.homeWrite a rq i) s = .next t ∧ performed t x.piece 0 false ∧ holds t pa (bytesOf x.piece (d / 256 ^ x.got))
      else ∃ t, exec (.homeWrite a rq i) s = .next t ∧ after t x ∧ ((t.cluster cl).missRow (who, rq) line).isSome = true)
    ∧ (∀ d, x.op = .write d → s.columnServes c q x = true → q.sem = 0 → pa % 128 + x.piece ≤ 128 →
        ∃ t, exec (.homeWrite a rq i) s = .next t ∧ performed t x.piece 0 false ∧ t.colBytes c pa x.piece = bytesOf x.piece (d / 256 ^ x.got)
        ∧ ((s.colLine c (pa / 128)).isSome = true ∨ (s.colLines c).length < 16 * (2048 - rowTotal (s.rowsHeld c)) → t.mem.home = s.mem.home))
    ∧ (x.op = .discard → s.Inv → ∃ t, exec (.homeWrite a rq i) s = .next t ∧ performed t x.n 0 false ∧ t.l2line line = none
        ∧ t.colLine c line = none ∧ ∀ j < 128, Mem.read t.mem.home (line * 128 + j) = Mem.read s1.mem.dram (line * 128 + j))
    ∧ (x.op = .read → q.versioned = false → let column := s.columnServes c q x && decide (q.sem ≠ 4)
        let s2 := if column then s1 else s1.colEvict c line
        let rline := pa / 128
        let bytes := (List.range x.piece).map (fun j => Mem.read s2.mem.home (pa + j))
        (column = true → s1.colHit c pa x.piece = true → ∃ t, exec (.homeRead a rq i) s = .next t ∧ t.mem = s1.mem
          ∧ performed t x.piece (ofBytes (s1.colBytes c pa x.piece)) (s1.colBad c pa x.piece))
        ∧ (column = false → s2.clusterHas cl rline = true → ∃ t, exec (.homeRead a rq i) s = .next t ∧ performed t x.piece (ofBytes bytes) false)
        ∧ (column = false ∨ s1.colHit c pa x.piece = false → if s2.clusterHas cl rline || s2.missReady cl rline (who, rq) then
            ∃ t v bad, exec (.homeRead a rq i) s = .next t ∧ performed t x.piece v bad
          else ∃ t, exec (.homeRead a rq i) s = .next t ∧ after t x ∧ ((t.cluster cl).missRow (who, rq) rline).isSome = true))
    ∧ (∀ fn y, (x.op = .atom fn y ∧ q.aon = false) ∨ (x.op = .red fn y ∧ x.redAtHome = true) → if s1.entryReady c who q x then
        ∃ t bad, exec (.atomicAtHome a rq i) s = .next t ∧ performed t x.n old bad ∧ holds t x.pa (bytesOf x.n (atomOp fn old y))
      else ∃ t, exec (.atomicAtHome a rq i) s = .next t ∧ after t x)
    ∧ (∀ cmp new, x.op = .cas cmp new → s1.entryReady c who q x = true → ∃ t, exec (.atomicAtHome a rq i) s = .next t ∧ performed t x.n old atHome.2.2
        ∧ (if old = cmp then holds t x.pa (bytesOf x.n new) else t.mem.home = atHome.1.mem.home))
    ∧ (∀ fn y, x.op = .red fn y → x.redAtHome = false → (∀ b ∈ q.accs.take i, b.done = true) →
        (∀ r ∈ w.before rq, ∀ b ∈ r.accs, b.done = true ∨ ∀ g z, b.op ≠ .red g z) →
        let s2 := met (s1.colEvict c line)
        if (s1.colEvict c line).entryReady c who q x = false then
          ∃ t, exec (.redContribution a rq i) s = .next t ∧ after t x ∧ ((t.cluster cl).missRow (who, rq) line).isSome = true
        else ∃ t p, exec (.redContribution a rq i) s = .next t ∧ performed t x.n 0 false
          ∧ Tbl.get? (t.cluster cl).partials (x.pa / 4) = some p ∧ p.fn = fn
          ∧ (∀ l, Tbl.get? (s2.cluster cl).lines line = some l → l.state = .updateOnly →
              (∀ u ∈ wordUnits x.pa, ∀ p0, Tbl.get? (s2.cluster cl).partials u = some p0 → p0.fn = fn) →
              p.x = (match Tbl.get? (s2.cluster cl).partials (x.pa / 4) with | some p0 => atomOp fn p0.x y | none => y)))
    ∧ (i = 0 → q.aon = true → ∃ t, exec (.versionWordRetry a rq) s = .next t ∧ (if version % 2 = 0 then
        performed t x.n version false ∧ holds t x.pa (bytesOf 8 (version + 1)) else after t x))
    ∧ (∀ fn y, x.op = .atom fn y → q.aon = true → q.sent = true → i + 1 = q.accs.length → ∃ t, exec (.homeWrite a rq i) s = .next t ∧ performed t x.n 0 false
        ∧ holds t x.pa (bytesOf 8 (version + y)))

/-- R27, R275–R277, R282, R283, R286, R288, R291, R292, R298–R304, R324, R327, R418, R481, R489, R498. Lines and the host: a fill and the prefetch it
answers, the evictions, a peer's forward, a redirected read, the turns of a page walk, a core's mirror, and the host's reads, writes and
invalidations. A fill over a lost link sets `lack`, and its step undoes it (R500, log entry 138); that a dirty line of the host window may leave
the column word by word is R312's, and which word goes is the model's choice (log entry 32).
Rests on the model's choices of log entries 1, 32, 36, 43, 44, 138. -/
def Obligations.LinesAndHost : Prop :=
  ∀ (s : State),
    (∀ l, s.backed (l * 128) = true → s.l2line l = none → s.linked l = true → (∀ cl, ∀ m ∈ (s.cluster cl).misses, m.line = l → m.prefetch = false) →
      ∃ t, exec (.gddr7Fill l) s = .next t ∧ t.l2line l = some ⟨false, false⟩ ∧ t.mem.home = s.mem.home ∧ t.waves = s.waves)
    ∧ (∀ l, s.backed (l * 128) = true → s.l2line l = none → s.linked l = false →
        ∃ t, exec (.gddr7Fill l) s = .next t ∧ t.lack.isSome = true)
    ∧ (∀ l, s.backed (l * 128) = true →
        exec (.gddr7Fill l) s = .next ((Tbl.keys s.clusters).foldl (fun s c => s.fillPrefetch c l) (s.fill l)))
    ∧ (∀ cl l i, let k := s.cluster cl
        k.misses.findIdx? (fun m => decide (m.line = l) && m.prefetch) = some i → k.holdsEntry i = true → Tbl.get? k.lines l = none →
        k.redirects.find? (fun r => decide (r.1 = l)) = none → Tbl.get? k.peers (peerIndex l) = none → s.updateOnly l = [] → s.poisoned l = false →
        Tbl.get? ((s.fillPrefetch cl l).cluster cl).lines l = some ⟨.readOnly, [], none, true, s.ck⟩)
    ∧ (∀ c l, (s.colLine c l).isSome = true → (exec (.columnEviction c l) s = .next (s.colEvict c l)
          ∨ hostWindow (l * 128) = true ∧ ∃ n < 16, exec (.columnEviction c l) s = .next (s.colCleanWord c l n)) ∧ (s.colEvict c l).colLine c l = none
        ∧ (s.colEvict c l).waves = s.waves)
    ∧ (∀ c l x, s.colLine c l = some x → (x.badDirty = false → ∀ j < 128, x.dirty.getLsbD j = true →
          Mem.read (s.colEvict c l).mem.home (l * 128 + j) = BitVec.ofNat 8 (byteAt x.data j))
        ∧ (x.badDirty = true → (s.colEvict c l).poisoned l = true ∨ ∀ j < 128, Mem.read (s.colEvict c l).mem.home (l * 128 + j) = 0)
        ∧ (x.badDirty = true → Tbl.get? ((s.colEvict c l).cluster (clusterOf c)).lines l = none))
    ∧ (∀ cl l x, Tbl.get? (s.cluster cl).lines l = some x →
        exec (.clusterCacheEviction cl l) s = .next (if x.state = .updateOnly then s else s.dropCopy cl l)
        ∧ Tbl.get? ((s.dropCopy cl l).cluster cl).lines l = none ∧ (s.dropCopy cl l).mem = s.mem)
    ∧ (∀ l x, s.mem.replicas.filter (fun r => decide (r.1 = l)) = [] → s.l2line l = some x → ∃ t, exec (.l2Eviction l) s = .next t
        ∧ t.mem.home = s.mem.home ∧ (x.poison = true → t = s) ∧ (x.poison = false → t.l2line l = none
          ∧ (x.dirty = true → s.Inv → ∀ j < 128, Mem.read t.mem.dram (l * 128 + j) = Mem.read s.mem.home (l * 128 + j))))
    ∧ (∀ cl l p, Tbl.get? (s.cluster cl).peers (peerIndex l) = some p → s.eligibleRead cl l = true →
        (s.cluster cl).redirects.any (fun r => decide (r.1 = l)) = false → (s.cluster cl).lines.length < 8192 →
        ∃ t, exec (.peerProbe cl l) s = .next t
        ∧ (∀ x, Tbl.get? (s.cluster p).lines l = some x → x.state = .readOnly → x.fromPeer = none → x.forwardees.length < 8 → t.mem = s.mem ∧
          Tbl.get? (t.cluster cl).lines l = some ⟨.readOnly, [], some p, false, s.ck⟩
          ∧ Tbl.get? (t.cluster p).lines l = some { x with forwardees := x.forwardees ++ [cl] })
        ∧ (s.holders l = [] → s.poisoned l = false → Tbl.get? (t.cluster cl).peers (peerIndex l) = none
          ∧ Tbl.get? (t.cluster cl).lines l = some ⟨.readOnly, [], none, false, s.ck⟩))
    ∧ (∀ cl l r, (s.cluster cl).redirects.find? (fun r => decide (r.1 = l)) = some r → s.eligibleRead cl l = true → (l, r.2) ∈ s.mem.replicas →
        (s.cluster cl).lines.length < 8192 → ∃ t, exec (.redirectedRead cl l) s = .next t ∧ t.mem = s.mem
        ∧ Tbl.get? (t.cluster cl).lines l = some ⟨.readOnly, [], none, false, s.ck⟩)
    ∧ (∀ cl va, cl < s.coreCount / 4 → let n := dieOfCluster cl
        let d := s.die n
        let me := (s.win.ctxid, s.walkName va)
        let started := (s.setDie n { d with walks := d.walks ++ [me] }).count 4 n 0x12 1
        if (d.walks.take 512).any (walkCovers va) = true then
          ∃ t, exec (.pageWalk cl va) s = .next t ∧ (∀ x ∈ (t.die n).walks, walkCovers va x = false) ∧ t.waves = s.waves
        else exec (.pageWalk cl va) s = .next (if d.walks.any (walkCovers va) = true then s else if d.walks.length < 512 then started
          else started.count 4 n 0x13 1))
    ∧ (∀ c, c < s.coreCount → ∃ t, exec (.counterMirrorRefresh c) s = .next t ∧ t.counters = s.counters ∧ t.mem = s.mem
        ∧ (t.core c).mirror = s.counters.filter (fun r => decide (2 * 2 ^ 32 ≤ r.1) && decide (r.1 < 6 * 2 ^ 32)))
    ∧ (∀ pa data, s.hostReaches pa data.length = true → (s.fred.ckpt = none → ∃ t, exec (.hostWrite pa data) s = .next t
          ∧ (∀ j < data.length, Mem.read t.mem.home (pa + j) = data.getD j 0) ∧ t.waves = s.waves)
        ∧ (∀ x m, s.fred.ckpt = some (x, m) → 1 ≤ m → ∃ t, exec (.hostWrite pa data) s = .next t ∧ t.mem = s.mem
          ∧ t.fred.heldWrites = s.fred.heldWrites ++ [(pa, data)]))
    ∧ (∀ pa n, s.hostReaches pa n = true → let r := s.homeReadBytes none pa n
        exec (.hostRead pa n) s = .next (if r.2.2 = true then r.1.countErr (dieOfSlice (s.home (pa / 128))) 2 else r.1))
    ∧ (∀ l data, hostWindow (l * 128) = true → s.fred.cxlUp = true → data.length ≤ 128 → ∃ t, exec (.hostInvalidate l data) s = .next t
        ∧ (s.poisoned l = false ∨ data.length = 128 → t.l2line l = none) ∧ (s.poisoned l = true → data.length < 128 → t.poisoned l = true)
        ∧ ∀ j < data.length, Mem.read t.mem.home (l * 128 + j) = data.getD j 0 ∧ Mem.read t.mem.dram (l * 128 + j) = data.getD j 0)

/-! ### Raster, classification, bins -/

/-- R378–R385, R427. A die's batches leave its raster queue in order; a CLOSE closes its frame's tiles; a classify engine takes the next closed tile; a bin wave closes
when its head is full, its frame is classified or its oldest entry has waited BINFLUSH, and its launch gets a pending team. The model's choices: a
batch of another context waits at the head of the queue until that context runs (log entry 80), and an event that is not enabled leaves the state
as it was (log entry 106).
Rests on the model's choices of log entries 53, 54, 55, 80, 106. -/
def Obligations.RasterAndBinEvents : Prop :=
  ∀ (s : State) (die : Nat),
    (∀ b rest, ((s.admitAll die).die die).rasterQ = b :: rest → if b.ctx = (s.admitAll die).win.ctxid then
        ∃ t, exec (.rasterBatch die) s = .next t ∧ (t.die die).rasterQ = rest
      else exec (.rasterBatch die) s = .next (s.admitAll die))
    ∧ (∀ f, (s.die die).frames.find? (fun f => f.closing && !f.closed && !(s.die die).rasterQ.any (fun b => decide (b.frame = f.desc))) = some f →
        s.frameTiles die f.desc ≠ [] → ∃ t, exec (.frameClose die) s = .next t ∧ (t.die die).closedOrder = (s.die die).closedOrder ++ s.frameTiles die f.desc
          ∧ (∀ n ∈ s.frameTiles die f.desc, (t.tile n).state = .closed) ∧ t.pix = s.pix ∧ t.mem = s.mem)
    ∧ (∀ e n, s.tiles.find? (fun r => decide (dieOfTile r.1 = die) && decide (tileEngine r.1 = e) && decide (r.2.state = .shading) && !r.2.todo.isEmpty) = none →
        (s.die die).closedOrder.find? (fun t => decide (tileEngine t = e)) = some n →
        (∀ f, (s.die die).frames.find? (fun f => decide (f.desc = (s.tile n).frame)) = some f → f.ctx = s.win.ctxid) →
        ∃ t, exec (.classifyTile die e) s = .next t ∧ (t.die die).closedOrder = (s.die die).closedOrder.filter (fun t => !decide (t = n)))
    ∧ (∀ m l x f, s.forming die m = some (l, x, f) →
        let closes := fun (i : Instr) => ∃ t x', exec i s = .next t ∧ t.launch? l = some x'
          ∧ x'.binTeams = x.binTeams ++ [⟨x.binNext, die, m, f.lanes, f.tiles⟩] ∧ x'.binNext = (x.binNext + 1) % 2 ^ 32
          ∧ Tbl.getD (t.die die).bins m [] = f.rest
        if f.rest ≠ [] ∨ f.tiles.any s.frameClassified = true then closes (.binWaveClose die m) else exec (.binWaveClose die m) s = .next s)
    ∧ (∀ m l x f e es, s.forming die m = some (l, x, f) → Tbl.getD (s.die die).bins m [] = e :: es →
        if e.when + s.win.binflush ≤ s.ck then ∃ t x', exec (.binflushTimeout die m) s = .next t ∧ t.launch? l = some x'
          ∧ x'.binTeams = x.binTeams ++ [⟨x.binNext, die, m, f.lanes, f.tiles⟩] ∧ Tbl.getD (t.die die).bins m [] = f.rest
        else exec (.binflushTimeout die m) s = .next s)

/-! ### System software's commands and registers -/

/-- R49, R389, R421, R422, R424, R432, R439–R441, R443, R446, R452, R453, R524. The window's commands: TLBINV and its end, TSCLEAR, the agent commands on a resident agent,
and the writes of contexts, slices, the trap ring, tables, registers and, through the debug port, an agent's registers, which it reads too. The
model's choices: WEND and DBGHALT first make the writes stand that a wave's open windows withhold (log entry 30), the numbers of the registers at
the debug port (log entry 104), and an event that is not enabled leaves the state as it was (log entry 106).
Rests on the model's choices of log entries 6, 30, 91, 93, 94, 96, 97, 104, 106. -/
def Obligations.WindowCommands : Prop :=
  ∀ (s : State), s.hostUp = true →
    (if s.win.invRun = true ∨ s.win.invVa.toNat % 4096 ≠ 0 then exec .tlbinv s = .next (s.setWin (fun w => { w with invStatus := 3 }))
      else exec .tlbinv s = .next (s.setWin (fun w => { w with invStatus := 1, invRun := true })))
    ∧ (s.win.invRun = true → ∃ t, exec .tlbinvComplete s = .next t ∧ t.win.invStatus = 2 ∧ t.win.invRun = false ∧ t.mem = s.mem
        ∧ (∀ cl, ∀ e ∈ (t.cluster cl).tlb, s.win.invMatch e = false) ∧ (∀ d, ∀ e ∈ (t.die d).tlb, s.win.invMatch e = false)
        ∧ ∀ e ∈ t.walked, s.win.invMatch e = false)
    ∧ (s.win.bagAddr.toNat < 2 ^ 48 → (∀ r ∈ s.treqs, ∀ n, r.2.stage ≠ .waitingFull n) → ∃ t, exec .tsclear s = .next t ∧ t.win.bagStatus = 2 ∧ t.mem = s.mem
        ∧ ∀ h, ∀ x ∈ (t.slice h).tuples, x.bag ≠ s.win.bagAddr.toNat / 4096)
    ∧ (∀ c k w, c < s.coreCount → k < 32 → s.wave? c k = some w →
        let done := fun (i : Instr) (w' : Wave) => ∃ t, exec i s = .next t ∧ t.wave? c k = some w' ∧ t.mem = s.mem
          ∧ t.win.agentCmd.extractLsb' 32 32 = 2
        (if w.stopped then done (.wresume c k .agent) ({ w with stopped := false } : Wave).eret
          else ∃ t, exec (.wresume c k .agent) s = .next t ∧ t.wave? c k = some w ∧ t.win.agentCmd.extractLsb' 32 32 = 3)
        ∧ (w.stopped = true ∨ w.dbg = true → ∃ t w', exec (.wend c k .agent) s = .next t ∧ t.wave? c k = some w' ∧ w'.halted = true
            ∧ w'.s = w.closeWins.s ∧ t.win.agentCmd.extractLsb' 32 32 = 2)
        ∧ (w.halted = false → w.stopped = false → w.dbg = false → w.blocked = false →
            done (.dbghalt c k .agent) (if w.clause = none then w.haltDbg else if w.waitMet then { w with dbgReq := true } else w.refetch.haltDbg))
        ∧ (∀ since st wake, w.halted = false → w.stopped = false → w.dbg = false → w.block = .word since st wake → w.clause.isSome = true →
            w.treq = none → ∃ t w', exec (.dbghalt c k .agent) s = .next t ∧ t.wave? c k = some w' ∧ w'.dbg = true ∧ w'.clause = none
              ∧ w'.pc = w.hdrAddr ∧ w'.eretWord = some w.widx ∧ w'.s = w.closeWins.s ∧ t.mem = s.mem ∧ t.win.agentCmd.extractLsb' 32 32 = 2)
        ∧ (w.dbg = true → w.trapPending = false → done (.dresume c k .agent) { w with dbg := false }
          ∧ ∃ t, exec (.dresume c k .agent) s = .next t ∧ (t.core c).powered = .active))
    ∧ (∀ v, ∃ t, exec (.ctxid v) s = .next t ∧ t.win.ctxid = v.toNat % 65536 ∧ t.ctxStart = some s.time ∧ t.expired = false ∧ t.mem = s.mem)
    ∧ (∀ v, ∃ t, exec (.tslice v) s = .next t ∧ t.win.tslice = v.toNat % 2 ^ 32 ∧ t.mem = s.mem)
    ∧ (s.win.held = [] → ∀ v x, x = v.extractLsb' 0 32 →
        exec (.trapq 0x8007 v) s = .next (s.setWin (fun w => { w with trapq := putHalf w.trapq false x }))
        ∧ exec (.trapq 0x8008 v) s = .next (s.setWin (fun w => { w with trapq := putHalf w.trapq true x }))
        ∧ exec (.trapq 0x8009 v) s = .next (s.setWin (fun w => { w with trapqSize := ringSize x.toNat }))
        ∧ exec (.trapq 0x800A v) s = .next (s.setWin (fun w => { w with trapqTail := x.toNat })))
    ∧ (∀ b v, b < 256 → ∃ t, exec (.bufferEntryWrite b 0 v) s = .next t ∧ t.mem = s.mem
        ∧ t.buffer b = { s.buffer b with valid := v.getLsbD 0, cur := v.getLsbD 1, size := v.toNat / 2 ^ 32 }
        ∧ ∀ n x fr, Tbl.get? s.cmds n = some x → x.kind = .publish b fr → x.stage = .issued → (s.buffer b).valid = true → v.getLsbD 0 = false →
          Tbl.get? t.cmds n = some { x with progress := 1 })
    ∧ (∀ m v, m < 4096 → ∃ t, exec (.materialEntryWrite m 0 v) s = .next t ∧ t.mem = s.mem ∧ t.material m = { s.material m with launch := v })
    ∧ (∀ v, exec (.registerWrite 0 v) s = .next (s.setWin (fun w => { w with thot := max 60 (min 105 (v.toNat % 256)) })).judgeAll
        ∧ exec (.registerWrite 8 v) s = .next (s.setWin (fun w => { w with dmax := v.toNat % 256 })).judgeAll
        ∧ exec (.registerWrite 0x28 v) s = .next (s.setWin (fun w => { w with tvbase := putHalf w.tvbase false (v.extractLsb' 0 32) }))
        ∧ exec (.registerWrite 0x108 v) s = .next (s.setWin (fun w => { w with ptbase := v &&& 0xFFFFFFFFF000 })))
    ∧ (∀ c k w r v, s.wave? c k = some w → r < 128 → if w.dbg then
          exec (.debugRegisterWrite (.wave c k) r v) s = .next (s.setWave c k (w.writeS r (v.extractLsb' 0 32)))
        else exec (.debugRegisterWrite (.wave c k) r v) s = .next s)
    ∧ (∀ c k w r, s.wave? c k = some w → r < 128 → s.win.dbgAgent = .wave c k → s.win.dbgReg = r →
        s.windowRead 0x40008 = if w.dbg then (w.rawS r).setWidth 64 else 0)

/-! ### Sensors, power, debug reads -/

/-- R22, R23, R49, R306, R307, R485, R499. A temperature sample, a droop and its window, a supply, a power state, a debug read and the release of its store.
At 110 °C power goes at once. System software's leave to turn a column off is a free choice of the model's own (log entry 121), and that an event
which is not enabled leaves the state as it was is the model's choice (log entry 106).
Rests on the model's choices of log entries 9, 97, 102, 106, 121. -/
def Obligations.SensorsAndPower : Prop :=
  ∀ (s : State),
    (∀ c r, c < s.coreCount → s.fred.powerOff = false → ∃ t, exec (.tempSample c r) s = .next t ∧ if (880 : Int) ≤ r.toInt then
        t.fred.powerOff = true ∧ t.fred.overtemp = true ∧ t.fred.running = false ∧ t.waves = []
      else (t.core c).temp = r.toInt ∧ t.mem = s.mem ∧ (8 * (s.win.thot : Int) ≤ r.toInt → (t.core c).held = true))
    ∧ (∀ c, c < s.coreCount → ∃ t, exec (.droopEvent c) s = .next t ∧ (t.core c).droopCur = ((s.core c).droopCur + 1) % 65536 ∧ 1 ≤ t.stretch ∧ t.mem = s.mem)
    ∧ (∀ p, s.time < (s.window + 1) * 17000000 → exec (.droopWindowClose p) s = .next s)
    ∧ (∀ p, (s.window + 1) * 17000000 ≤ s.time → ∃ t, exec (.droopWindowClose p) s = .next t ∧ t.window = s.window + 1 ∧ t.mem = s.mem ∧ t.waves = s.waves)
    ∧ (∀ d mv, d < s.coreCount / 48 → 420 ≤ mv → mv ≤ 520 → exec (.supplySet d mv) s = .next (s.setDie d { s.die d with vdd := mv }))
    ∧ (∀ st p, s.hasStore st = true → (∀ c, st = .column c → p = .active ∨ s.mayGate c = true) → (s.dbgHolds st = true → p = .active) →
        (s.power st = .off → p = .active ∨ p = .off) → (p = .off → s.leave st = true) → ∃ t, exec (.columnPowerState st p) s = .next t ∧ t.power st = p ∧ t.waves = s.waves
          ∧ (p ≠ .off → t.mem = s.mem))
    ∧ (∀ c, s.leave (.column c) = false → exec (.columnPowerState (.column c) .off) s = .next s)
    ∧ (∀ st a n, s.hostUp = true → s.hasStore st = true → ∃ t, exec (.debugRead st a n) s = .next t ∧ t.mem = s.mem ∧ (s.power st = .off →
          t.fred.dbgReplies = 1 :: List.replicate ((n + 7) / 8) 0xDEADDEADDEADDEAD)
        ∧ (s.power st ≠ .off → t.power st = .active ∧ (s.power st ≠ .active → t.dbgHolds st = true)))
    ∧ (∀ st, s.hostUp = true → s.dbgHolds st = true → ∃ t, exec (.debugSessionRelease st) s = .next t ∧ t.dbgHolds st = false ∧ t.mem = s.mem ∧ t.power st = s.power st)

/-- R31, R491–R500. Fredusin: a reset and its stages, BOOTOK and its limit, retries and images, BOOTSTAT and the attestation report, checkpoint and restore, the removal
of power, and lost links. An image is accepted when its 114-byte signature verifies under a key of the chain. The model's choices: the slot
never written holds the factory's signed image (log entry 100), and which bytes stand for the configuration (log entry 142).
Rests on the model's choices of log entries 97, 98, 99, 100, 101, 103, 142. -/
def Obligations.FredusinEvents : Prop :=
  ∀ (s : State),
    (∃ t, exec .powerOnReset s = .next t ∧ t.fred.stage = 0 ∧ t.fred.running = true ∧ t.waves = [] ∧ t.streams = [] ∧ t.launches = [] ∧ t.mem.scratch = []
      ∧ t.fred.mode = (if 3 ≤ (if s.fred.overtemp then min 3 (s.fred.fails + 1) else s.fred.fails) then .minimal else .full))
    ∧ (s.fred.running = true → s.fred.stage < 7 → (s.fred.stage = 0 → s.fred.accepts = true) → ∃ t, exec (.bootStage none) s = .next t
        ∧ t.fred.stage = s.fred.stage + 1 ∧ (s.fred.stage = 2 → t.mem.chip = []) ∧ (s.fred.stage = 6 → t.fred.bootDeadline = some (s.time + 30 * 17000000000) ∧ t.fred.config = t.configBytes))
    ∧ (match Tbl.get? s.fred.images s.fred.active with
      | some x => s.fred.accepts = true ↔ x.2.length = 114 ∧ ∃ k ∈ chainKeys, edVerify k x.1 x.2 = true
      | none => s.fred.accepts = true)
    ∧ (s.fred.running = true → s.fred.stage < 7 → ∃ t, exec (.bootStage (some 7)) s = .next t ∧ t.fred.powerOff = true ∧ t.fred.overtemp = true
        ∧ t.fred.running = false ∧ t.waves = [])
    ∧ (∀ c : Byte, s.fred.running = true → s.fred.stage < 6 → c.toNat = stageCause (s.fred.stage + 1) → (s.fred.stage = 0 → s.fred.accepts = false) →
        c ≠ 7 → ∃ t, exec (.bootStage (some c)) s = .next t ∧ t.fred.running = false ∧ t.fred.fails = min 3 (s.fred.fails + 1) ∧ t.waves = [])
    ∧ (∀ d, s.fred.bootDeadline = some d → s.hostUp = true → s.time ≤ d → ∃ t, exec (.bootok 1) s = .next t ∧ t.fred.booted = true
        ∧ t.fred.bootDeadline = none ∧ t.mem = s.mem)
    ∧ (∀ d, s.fred.bootDeadline = some d → s.up = true → d < s.time → ∃ t, exec .bootokTimeout s = .next t ∧ t.fred.running = false
        ∧ t.fred.fails = min 3 (s.fred.fails + 1))
    ∧ (s.mailUp = true → (∃ t, exec .fullretry s = .next t ∧ t.fred.fails = 0 ∧ t.mem = s.mem)
        ∧ (∀ im sg, ∃ t, exec (.firmwareUpdate im sg) s = .next t ∧ t.fred.pendingImage = true ∧ Tbl.get? t.fred.images (1 - s.fred.active) = some (im, sg))
        ∧ (∃ t, exec .bootstat s = .next t ∧ t.fred.replies = s.fred.replies ++ [s.fred.bootstat])
        ∧ (∀ n, ∃ t, exec (.attest n) s = .next t ∧ let body := bytesOf 8 1 ++ bytesOf 8 s.fred.bootstat.toNat ++ bytesOf 32 n.toNat
            ++ (measure s.fred.image ++ measure Config.deviceFirmware ++ measure s.fred.config)
          t.fred.report = body ++ edSign Config.identityKey body))
    ∧ (∀ n, s.hostUp = true → s.fred.ckpt = none → n + 2 ^ 38 ≤ 2 ^ 46 → ∃ t, exec (.ckpt n) s = .next t ∧ t.fred.ckpt = some (n, 0) ∧ t.vac.isSome = true)
    ∧ (∀ n, s.hostUp = true → s.fred.ckpt = some (n, 1) → ∃ t, exec .ckptComplete s = .next t ∧ t.fred.ckpt = none ∧ t.fred.heldWrites = [])
    ∧ (∀ n, s.hostUp = true → s.fred.ckpt = none → n + 2 ^ 38 ≤ 2 ^ 46 → s.lqs.any (fun r => r.2.enable) = false → ∃ t, exec (.restore n) s = .next t
        ∧ t.fred.replies = s.fred.replies ++ [0] ∧ t.waves = s.waves)
    ∧ (∀ d, d < s.coreCount / 48 → s.fred.powerOff = false → ∃ t, exec (.overtemp d) s = .next t ∧ t.fred.powerOff = true ∧ t.fred.overtemp = true
        ∧ t.fred.running = false ∧ t.waves = [] ∧ t.launches = [])
    ∧ (exec .lostCxlLink s = .next (s.setFred (fun f => { f with cxlUp := false })))
    ∧ (∀ d loop, d < s.coreCount / 48 → ∃ t, exec (.linkFailure d loop) s = .next t ∧ t.mem = s.mem
        ∧ (if loop then (t.die d).loopUp = false else (t.die d).memUp = false))

/-! ### Decoding, the step and the invariant -/

/-- R96, R104, R105, R108–R118, R122, R123. Words written out from the encoding decode to their instructions: the two worked examples of the spec's first
program, one word of other formats, and words that reserved bits, unlisted fields and unassigned opcodes refuse. -/
def Obligations.WordsDecode : Prop :=
  decodeWord 0x140009DA00000100 = .ok (.sadd64 ⟨0, 0, 4, 118, .imm 256⟩)
  ∧ decodeWord 0x2D0A7803800003E8 = .ok (.vcmpImm ⟨0, 10, 120, 7, 1000⟩)
  ∧ decodeWord 0x7400000000000008 = .ok (.mark ⟨0, 0, 0, 0, 0, 8⟩)
  ∧ decodeWord 0x7200014000000004 = .ok (.brm ⟨0, 0, 0, 10, 0, 4⟩)
  ∧ decodeWord 0xF6003C0000000000 = .ok (.time ⟨0, 0, 30, 0, 0, 0⟩)
  ∧ decodeWord 0x7D00000000000000 = .ok (.nop ⟨0, 0, 0, 0, 0, 0⟩)
  ∧ decodeWord 0x1400000000000001 = .error .reservedBits
  ∧ decodeWord 0x7D10000000000000 = .error .illFormed
  ∧ decodeWord 0x0000000000000000 = .error .unassignedOpcode

/-- R50, R96, R99, R102, R104, R123, R292. A turn of an agent that stands at a word runs it: the ck passes, a wave that stands in no pipe takes an
idle one or goes on waiting, the agent gets its nonce, the core's counters count the word, errors in what the word reads are seen unless it
traps, and then the step is exec of the instruction the word decodes to; a word that decodes to none traps ILLEGAL_OPCODE. A turn that lacked a
walker, an entry or a link is undone and waits (`settle`). The model's choices: a step is one turn (log entries 2, 4), a waiting wave's pipe (log
entry 125), what a path word with a window sees of the words after it (log entry 139), which context's agents issue (log entry 140), and
that a waiting turn is undone (log entry 138).
Rests on the model's choices of log entries 2, 4, 125, 138, 139, 140. -/
def Obligations.StepRunsDecodedWord : Prop :=
  (∀ (s : State) (c k : Nat) (rest : List Turn) (w : Wave) (cl : Clause), s.agenda = .agent (.wave c k) :: rest → s.wave? c k = some w →
      w.halted = false → w.stopped = false → w.dbg = false → (w.dbgReq = true → w.block = .none) → w.clause = some cl → w.waitMet = true →
      s.mayIssue c w.team = true →
      let word := cl.words.getD w.widx 0
      let s0 := { s.tick with agenda := rest, lack := none }
      let alone := word.toNat / 2 ^ 52 % 16 = 0 ∨ opPathLong (opOf word) = false
      ∃ w1, s0.wave? c k = some w1 ∧ w1 = { w with promoted := w1.promoted } ∧
        ((w.pipe = none → w.block = .none → s0.idlePipe c w.adr = none → step s = .next s0)
        ∧ (∀ p, (if w.pipe.isSome = true ∨ w.block ≠ .none then p = w.pipe else p.isSome = true ∧ p = s0.idlePipe c w.adr) →
          let w2 := { w1 with pipe := p }
          let w3 := { w2 with nonce := s.fresh + 1 }
          let s' := (((s0.setWave c k w2).freshen (.wave c k)).countWord c w2 word).consume c k w2 word
          s'.ck = s.ck + 1 ∧ s'.mem = s.mem ∧ s'.agenda = rest ∧ s'.cur = some (.wave c k) ∧ s'.lack = none
          ∧ (w.badW = [] → s.mem.bad = [] → s'.runs c k w3)
          ∧ (∀ i, decodeWord word = .ok i → (alone → step s = s0.settle (exec i s')) ∧ (¬alone → ∃ ahead,
              step s = s0.settle (match exec i (s'.updWave c k (fun x => { x with ahead := ahead })) with
                | .next t => .next (t.updWave c k (fun x => { x with ahead := [] }))
                | o => o)))
          ∧ (∀ e, decodeWord word = .error e → s'.runs c k w3 ∧ (alone → step s = s0.settle (.next (s'.trapAt c k w3 w3.illegal))))))
        ∧ (∀ t : State, s0.settle (.next t) = .next (match t.lack with | none => t | some x => s0.queueFor x)))
  ∧ (∀ (s : State) (c : Nat) (rest : List Turn) (m : Stream) (cl : Clause), s.agenda = .agent (.stream c) :: rest → s.stream? c = some m →
      m.halted = false → m.stopped = false → m.dbg = false → m.stopReq = false → m.poisonPc = none → m.clause = some cl →
      s.mayIssue c m.team = true →
      let word := cl.words.getD m.widx 0
      let s0 := { s.tick with agenda := rest, lack := none }
      let s' := (s0.freshen (.stream c)).countSeq c m
      s'.runsStream c { m with nonce := s.fresh + 1 } ∧ s'.ck = s.ck + 1 ∧ s'.mem = s.mem ∧ s'.agenda = rest ∧ s'.lack = none
      ∧ (∀ i, decodeWord word = .ok i → step s = s0.settle (exec i s'))
      ∧ (∀ e, decodeWord word = .error e → step s = s0.settle (.next (s'.streamTrap c { m with nonce := s.fresh + 1 } 0x01 0 0))))
  ∧ (∀ (s : State) (i : Instr) (rest : List Turn), s.agenda = .event i :: rest → i.isWord = false →
      let s0 := { s.tick with agenda := rest, lack := none }
      step s = s0.settle (exec i s0))
  ∧ (∀ (s : State) (w : Nat) (i : Instr), decodeTableWord 64 w = some i → let p := s.withFetchWord 64 w
      (∃ a, p.cur = some a ∧ p.canTurn a = true) → w / 2 ^ 52 % 16 = 0 →
      ∃ s0 s' a, step p = State.settle s0 (exec i s') ∧ s'.cur = some a ∧ s'.mem = s.mem)

/-- R96, R104, R105, R108–R118, R122, R123. Encoding and decoding agree: the word of every well-formed instruction decodes to it, with every operand at every value
its encoding admits, and every word that decodes is the encoding of the well-formed instruction it decodes to, so that no bit is dropped. -/
def Obligations.DecodeEncode : Prop :=
  (∀ i w, i.wf = true → encode i = some w → decodeWord w = .ok i)
  ∧ (∀ i w, decodeWord w = .ok i → i.wf = true ∧ encode i = some w)

/-- The model's own invariant (log entry 1; R275, R265): every byte store of the reset state is in canonical form, lists nothing, and reads as zero
(the value is the model's choice, log entry 7); no agent, team, launch or request stands.
Rests on the model's choices of log entries 1, 7. -/
def Obligations.ResetInv : Prop :=
  let m := State.reset.mem
  State.reset.Inv ∧ (∀ st ∈ [m.home, m.dram, m.scratch, m.rows, m.chip, m.acc], st = [] ∧ ∀ a, Mem.read st a = 0)
  ∧ m.cols = [] ∧ m.l2 = [] ∧ m.replicas = [] ∧ m.bad = []
  ∧ State.reset.waves = [] ∧ State.reset.streams = [] ∧ State.reset.teams = [] ∧ State.reset.launches = []
  ∧ State.reset.cmds = [] ∧ State.reset.treqs = []

/-- The model's own invariant (log entry 1; R275, R265): a step that answers a next state keeps every byte store of the device in its canonical form.
Rests on the model's choices of log entry 1. -/
def Obligations.StepKeepsInv : Prop := ∀ s s', s.Inv → step s = .next s' → s'.Inv
end

