-- ==== Sys2Proof/Laws/Encoding.lean ====
section
/-! SUPPORT. The fields of an encoded word read back, format by format (R104, R108–R118). -/

namespace Sys2Proof

theorem extract_append_lo {m n : Nat} (x : BitVec m) (y : BitVec n) (lo k : Nat) (h : lo + k ≤ n) :
    (x ++ y).extractLsb' lo k = y.extractLsb' lo k := by
  ext i hi
  simp [BitVec.getLsbD_append]; omega
theorem extract_append_hi {m n : Nat} (x : BitVec m) (y : BitVec n) (lo k : Nat) (h : n ≤ lo) :
    (x ++ y).extractLsb' lo k = x.extractLsb' (lo - n) k := by
  ext i hi
  simp [BitVec.getLsbD_append]
  rw [if_neg (by omega)]; congr 1; omega
theorem getLsbD_append_lo {m n : Nat} (x : BitVec m) (y : BitVec n) (i : Nat) (h : i < n) : (x ++ y).getLsbD i = y.getLsbD i := by
  simp [BitVec.getLsbD_append, h]
theorem getLsbD_append_hi {m n : Nat} (x : BitVec m) (y : BitVec n) (i : Nat) (h : n ≤ i) :
    (x ++ y).getLsbD i = x.getLsbD (i - n) := by
  simp [BitVec.getLsbD_append, Nat.not_lt.2 h]

/-! ### Each format reads back what it encodes -/

theorem fmtS_encS (op : BitVec 8) (f : FmtS) (k : FmtS → Instr) : fmtS (encS op f) k = .ok (k f) := by
  rcases f with ⟨la, fn, sd, sa, b⟩
  cases b <;>
  (simp (disch := decide) only [fmtS, laOf, fnOf, bits, encS, encHead, extract_append_hi, extract_append_lo, accept, getLsbD_append_lo, getLsbD_append_hi]
   simp)
theorem fmtV_encV (op : BitVec 8) (f : FmtV) (k : FmtV → Instr) : fmtV (encV op f) k = .ok (k f) := by
  simp (disch := decide) only [fmtV, laOf, fnOf, bits, encV, encHead, extract_append_hi, extract_append_lo, accept, getLsbD_append_lo,
    getLsbD_append_hi]
  simp
theorem fmtVI_encVI (op : BitVec 8) (f : FmtVI) (k : FmtVI → Instr) : fmtVI (encVI op f) k = .ok (k f) := by
  simp (disch := decide) only [fmtVI, laOf, fnOf, bits, encVI, encHead, extract_append_hi, extract_append_lo, accept]
  simp
theorem fmtM_encM (op : BitVec 8) (f : FmtM) (k : FmtM → Instr) : fmtM (encM op f) k = .ok (k f) := by
  simp (disch := decide) only [fmtM, laOf, fnOf, bits, encM, encHead, extract_append_hi, extract_append_lo, accept]
  simp
theorem fmtX_encX (op : BitVec 8) (f : FmtX) (k : FmtX → Instr) : fmtX (encX op f) k = .ok (k f) := by
  simp (disch := decide) only [fmtX, laOf, fnOf, bits, encX, encHead, extract_append_hi, extract_append_lo, accept]
  simp
theorem fmtE_encE (op : BitVec 8) (f : FmtE) (k : FmtE → Instr) : fmtE (encE op f) k = .ok (k f) := by
  simp (disch := decide) only [fmtE, laOf, fnOf, bits, encE, encHead, extract_append_hi, extract_append_lo, accept]
  simp
theorem fmtC_encC (op : BitVec 8) (f : FmtC) (k : FmtC → Instr) : fmtC (encC op f) k = .ok (k f) := by
  simp (disch := decide) only [fmtC, laOf, fnOf, bits, encC, encHead, extract_append_hi, extract_append_lo, accept]
  simp
theorem fmtQ_encQ (op : BitVec 8) (f : FmtQ) (k : FmtQ → Instr) : fmtQ (encQ op f) k = .ok (k f) := by
  simp (disch := decide) only [fmtQ, laOf, fnOf, bits, encQ, encHead, extract_append_hi, extract_append_lo, accept]
  simp
theorem fmtT_encT (op : BitVec 8) (f : FmtT) (k : FmtT → Instr) : fmtT (encT op f) k = .ok (k f) := by
  simp (disch := decide) only [fmtT, laOf, fnOf, bits, encT, encHead, extract_append_hi, extract_append_lo, accept]
  simp
theorem fmtGT_encGT (op : BitVec 8) (f : FmtGT) (k : FmtGT → Instr) : fmtGT (encGT op f) k = .ok (k f) := by
  simp (disch := decide) only [fmtGT, laOf, fnOf, bits, encGT, encHead, extract_append_hi, extract_append_lo, accept]
  simp
theorem fmtG_encG (op : BitVec 8) (f : FmtG) (k : FmtG → Instr) : fmtG (encG op f) k = .ok (k f) := by
  simp (disch := decide) only [fmtG, laOf, fnOf, bits, encG, encHead, extract_append_hi, extract_append_lo, accept]
  simp
theorem fmtY_encY (op : BitVec 8) (f : FmtY) (k : FmtY → Instr) : fmtY (encY op f) k = .ok (k f) := by
  simp (disch := decide) only [fmtY, laOf, fnOf, bits, encY, encHead, extract_append_hi, extract_append_lo, accept]
  simp

/-! ### The opcode and FN of an encoded word -/

theorem opOf_encS (op : BitVec 8) (f : FmtS) : opOf (encS op f) = op.toNat := by
  rcases f with ⟨la, fn, sd, sa, b⟩
  cases b <;> (simp (disch := decide) only [opOf, bits, encS, encHead, extract_append_hi]; simp)
theorem opOf_encV (op : BitVec 8) (f : FmtV) : opOf (encV op f) = op.toNat := by
  simp (disch := decide) only [opOf, bits, encV, encHead, extract_append_hi]; simp
theorem opOf_encVI (op : BitVec 8) (f : FmtVI) : opOf (encVI op f) = op.toNat := by
  simp (disch := decide) only [opOf, bits, encVI, encHead, extract_append_hi]; simp
theorem opOf_encM (op : BitVec 8) (f : FmtM) : opOf (encM op f) = op.toNat := by
  simp (disch := decide) only [opOf, bits, encM, encHead, extract_append_hi]; simp
theorem opOf_encX (op : BitVec 8) (f : FmtX) : opOf (encX op f) = op.toNat := by
  simp (disch := decide) only [opOf, bits, encX, encHead, extract_append_hi]; simp
theorem opOf_encE (op : BitVec 8) (f : FmtE) : opOf (encE op f) = op.toNat := by
  simp (disch := decide) only [opOf, bits, encE, encHead, extract_append_hi]; simp
theorem opOf_encC (op : BitVec 8) (f : FmtC) : opOf (encC op f) = op.toNat := by
  simp (disch := decide) only [opOf, bits, encC, encHead, extract_append_hi]; simp
theorem opOf_encQ (op : BitVec 8) (f : FmtQ) : opOf (encQ op f) = op.toNat := by
  simp (disch := decide) only [opOf, bits, encQ, encHead, extract_append_hi]; simp
theorem opOf_encT (op : BitVec 8) (f : FmtT) : opOf (encT op f) = op.toNat := by
  simp (disch := decide) only [opOf, bits, encT, encHead, extract_append_hi]; simp
theorem opOf_encGT (op : BitVec 8) (f : FmtGT) : opOf (encGT op f) = op.toNat := by
  simp (disch := decide) only [opOf, bits, encGT, encHead, extract_append_hi]; simp
theorem opOf_encG (op : BitVec 8) (f : FmtG) : opOf (encG op f) = op.toNat := by
  simp (disch := decide) only [opOf, bits, encG, encHead, extract_append_hi]; simp
theorem opOf_encY (op : BitVec 8) (f : FmtY) : opOf (encY op f) = op.toNat := by
  simp (disch := decide) only [opOf, bits, encY, encHead, extract_append_hi]; simp
theorem fnOf_encE (op : BitVec 8) (f : FmtE) : fnOf (encE op f) = f.fn := by
  simp (disch := decide) only [fnOf, bits, encE, encHead, extract_append_hi, extract_append_lo]; simp
theorem fnOf_encGT (op : BitVec 8) (f : FmtGT) : fnOf (encGT op f) = f.fn := by
  simp (disch := decide) only [fnOf, bits, encGT, encHead, extract_append_hi, extract_append_lo]; simp
theorem fnTop_encV (op : BitVec 8) (f : FmtV) : (encV op f).getLsbD 51 = f.fn.getLsbD 3 := by
  simp (disch := decide) only [encV, encHead, getLsbD_append_lo, getLsbD_append_hi]
theorem fnTop_encVI (op : BitVec 8) (f : FmtVI) : (encVI op f).getLsbD 51 = f.fn.getLsbD 3 := by
  simp (disch := decide) only [encVI, encHead, getLsbD_append_lo, getLsbD_append_hi]

/-! ### The other way: a word a format accepts is the encoding of its fields -/

theorem join_fields (w : W64) (a n lo k : Nat) (h : a = lo + k) :
    w.extractLsb' a n ++ w.extractLsb' lo k = w.extractLsb' lo (n + k) := by
  subst h
  ext i hi
  simp only [← BitVec.getLsbD_eq_getElem, BitVec.getLsbD_append, BitVec.getLsbD_extractLsb']
  by_cases h : i < k
  · simp [h]; omega
  · simp only [h, if_false, show lo + k + (i - k) = lo + i by omega, show (decide (i - k < n)) = decide (i < n + k) by simp; omega]
theorem bit_field (w : W64) (i : Nat) : BitVec.ofBool (w.getLsbD i) = w.extractLsb' i 1 := by
  ext j hj; simp [show j = 0 by omega]
theorem bit_of_true {w : W64} {i : Nat} (h : w.getLsbD i = true) : (1 : BitVec 1) = w.extractLsb' i 1 := by
  rw [← bit_field, h]; rfl
theorem bit_of_false {w : W64} {i : Nat} (h : w.getLsbD i = false) : (0 : BitVec 1) = w.extractLsb' i 1 := by
  rw [← bit_field, h]; rfl

theorem encVI_of_fmtVI {w : W64} {k : FmtVI → Instr} {i : Instr} (h : fmtVI w k = .ok i) : ∃ f, i = k f ∧ encVI (bits w 56 8) f = w := by
  simp only [fmtVI, accept, if_true, Except.ok.injEq] at h
  refine ⟨_, h.symm, ?_⟩
  simp (disch := decide) only [encVI, encHead, laOf, fnOf, bits, join_fields]
  simp
theorem encM_of_fmtM {w : W64} {k : FmtM → Instr} {i : Instr} (h : fmtM w k = .ok i) : ∃ f, i = k f ∧ encM (bits w 56 8) f = w := by
  simp only [fmtM, accept, if_true, Except.ok.injEq] at h
  refine ⟨_, h.symm, ?_⟩
  simp (disch := decide) only [encM, encHead, laOf, fnOf, bits, join_fields]
  simp
theorem encX_of_fmtX {w : W64} {k : FmtX → Instr} {i : Instr} (h : fmtX w k = .ok i) : ∃ f, i = k f ∧ encX (bits w 56 8) f = w := by
  simp only [fmtX, accept, if_true, Except.ok.injEq] at h
  refine ⟨_, h.symm, ?_⟩
  simp (disch := decide) only [encX, encHead, laOf, fnOf, bits, join_fields]
  simp
theorem encE_of_fmtE {w : W64} {k : FmtE → Instr} {i : Instr} (h : fmtE w k = .ok i) : ∃ f, i = k f ∧ encE (bits w 56 8) f = w := by
  simp only [fmtE, accept, if_true, Except.ok.injEq] at h
  refine ⟨_, h.symm, ?_⟩
  simp (disch := decide) only [encE, encHead, laOf, fnOf, bits, join_fields]
  simp
theorem encC_of_fmtC {w : W64} {k : FmtC → Instr} {i : Instr} (h : fmtC w k = .ok i) : ∃ f, i = k f ∧ encC (bits w 56 8) f = w := by
  simp only [fmtC, accept, if_true, Except.ok.injEq] at h
  refine ⟨_, h.symm, ?_⟩
  simp (disch := decide) only [encC, encHead, laOf, fnOf, bits, join_fields]
  simp
theorem encG_of_fmtG {w : W64} {k : FmtG → Instr} {i : Instr} (h : fmtG w k = .ok i) : ∃ f, i = k f ∧ encG (bits w 56 8) f = w := by
  simp only [fmtG, accept, if_true, Except.ok.injEq] at h
  refine ⟨_, h.symm, ?_⟩
  simp (disch := decide) only [encG, encHead, laOf, fnOf, bits, join_fields]
  simp
theorem encV_of_fmtV {w : W64} {k : FmtV → Instr} {i : Instr} (h : fmtV w k = .ok i) : ∃ f, i = k f ∧ encV (bits w 56 8) f = w := by
  simp only [fmtV, accept] at h
  split at h
  case isFalse => cases h
  case isTrue h0 =>
  simp only [Except.ok.injEq] at h
  refine ⟨_, h.symm, ?_⟩
  have hz : (0 : BitVec 7) = w.extractLsb' 0 7 := (of_decide_eq_true h0).symm
  simp (disch := decide) only [encV, hz, encHead, laOf, fnOf, bits, bit_field, join_fields]
  simp
theorem encQ_of_fmtQ {w : W64} {k : FmtQ → Instr} {i : Instr} (h : fmtQ w k = .ok i) : ∃ f, i = k f ∧ encQ (bits w 56 8) f = w := by
  simp only [fmtQ, accept] at h
  split at h
  case isFalse => cases h
  case isTrue h0 =>
  simp only [Except.ok.injEq] at h
  refine ⟨_, h.symm, ?_⟩
  have hz : (0 : BitVec 4) = w.extractLsb' 16 4 := (of_decide_eq_true h0).symm
  simp (disch := decide) only [encQ, hz, encHead, laOf, fnOf, bits, join_fields]
  simp
theorem encT_of_fmtT {w : W64} {k : FmtT → Instr} {i : Instr} (h : fmtT w k = .ok i) : ∃ f, i = k f ∧ encT (bits w 56 8) f = w := by
  simp only [fmtT, accept] at h
  split at h
  case isFalse => cases h
  case isTrue h0 =>
  simp only [Except.ok.injEq] at h
  refine ⟨_, h.symm, ?_⟩
  have hz : (0 : BitVec 3) = w.extractLsb' 24 3 := (of_decide_eq_true h0).symm
  simp (disch := decide) only [encT, hz, encHead, laOf, fnOf, bits, join_fields]
  simp
theorem encGT_of_fmtGT {w : W64} {k : FmtGT → Instr} {i : Instr} (h : fmtGT w k = .ok i) : ∃ f, i = k f ∧ encGT (bits w 56 8) f = w := by
  simp only [fmtGT, accept] at h
  split at h
  case isFalse => cases h
  case isTrue h0 =>
  simp only [Except.ok.injEq] at h
  refine ⟨_, h.symm, ?_⟩
  have hz : (0 : BitVec 6) = w.extractLsb' 16 6 := (of_decide_eq_true h0).symm
  simp (disch := decide) only [encGT, hz, encHead, laOf, fnOf, bits, join_fields]
  simp
theorem encY_of_fmtY {w : W64} {k : FmtY → Instr} {i : Instr} (h : fmtY w k = .ok i) : ∃ f, i = k f ∧ encY (bits w 56 8) f = w := by
  simp only [fmtY, accept] at h
  split at h
  case isFalse => cases h
  case isTrue h0 =>
  simp only [Except.ok.injEq] at h
  refine ⟨_, h.symm, ?_⟩
  have hz : (0 : BitVec 2) = w.extractLsb' 32 2 := (of_decide_eq_true h0).symm
  simp (disch := decide) only [encY, hz, encHead, laOf, fnOf, bits, join_fields]
  simp
theorem encS_of_fmtS {w : W64} {k : FmtS → Instr} {i : Instr} (h : fmtS w k = .ok i) : ∃ f, i = k f ∧ encS (bits w 56 8) f = w := by
  simp only [fmtS, accept] at h
  split at h
  case isTrue h1 =>
    split at h
    case isFalse => cases h
    case isTrue h0 =>
    simp only [Except.ok.injEq] at h
    refine ⟨_, h.symm, ?_⟩
    have h0 : w.getLsbD 32 = false := by simpa only [Bool.not_eq_true'] using h0
    simp (disch := decide) only [encS, encHead, laOf, fnOf, bits, bit_of_true h1, bit_of_false h0, join_fields]
    simp
  case isFalse h1 =>
    split at h
    case isFalse => cases h
    case isTrue h0 =>
    simp only [Except.ok.injEq] at h
    refine ⟨_, h.symm, ?_⟩
    have hz : (0 : BitVec 26) = w.extractLsb' 0 26 := (of_decide_eq_true h0).symm
    simp (disch := decide) only [encS, hz, encHead, laOf, fnOf, bits, bit_of_false (Bool.eq_false_of_not_eq_true h1), join_fields]
    simp

end Sys2Proof
end

