-- ==== Sys2Proof/Laws/Exec.lean ====
section
/-! SUPPORT. The arms of exec as equations, one for each constructor, and those of Instr.wf, so that no proof
unfolds the whole match. -/

namespace Sys2Proof.Machine

theorem exec_sadd (s : State) : ∀ f, exec (.sadd f) s = execSadd f s := fun _ => rfl
theorem exec_ssub (s : State) : ∀ f, exec (.ssub f) s = execSsub f s := fun _ => rfl
theorem exec_smul (s : State) : ∀ f, exec (.smul f) s = execSmul f s := fun _ => rfl
theorem exec_smulhi (s : State) : ∀ f, exec (.smulhi f) s = execSmulhi f s := fun _ => rfl
theorem exec_sdiv (s : State) : ∀ f, exec (.sdiv f) s = execSdiv f s := fun _ => rfl
theorem exec_sand (s : State) : ∀ f, exec (.sand f) s = execSand f s := fun _ => rfl
theorem exec_sor (s : State) : ∀ f, exec (.sor f) s = execSor f s := fun _ => rfl
theorem exec_sxor (s : State) : ∀ f, exec (.sxor f) s = execSxor f s := fun _ => rfl
theorem exec_sshl (s : State) : ∀ f, exec (.sshl f) s = execSshl f s := fun _ => rfl
theorem exec_sshr (s : State) : ∀ f, exec (.sshr f) s = execSshr f s := fun _ => rfl
theorem exec_srot (s : State) : ∀ f, exec (.srot f) s = execSrot f s := fun _ => rfl
theorem exec_scmp (s : State) : ∀ f, exec (.scmp f) s = execScmp f s := fun _ => rfl
theorem exec_ssel (s : State) : ∀ f, exec (.ssel f) s = execSsel f s := fun _ => rfl
theorem exec_smov (s : State) : ∀ f, exec (.smov f) s = execSmov f s := fun _ => rfl
theorem exec_smin (s : State) : ∀ f, exec (.smin f) s = execSmin f s := fun _ => rfl
theorem exec_smax (s : State) : ∀ f, exec (.smax f) s = execSmax f s := fun _ => rfl
theorem exec_sbfx (s : State) : ∀ f, exec (.sbfx f) s = execSbfx f s := fun _ => rfl
theorem exec_sbfi (s : State) : ∀ f, exec (.sbfi f) s = execSbfi f s := fun _ => rfl
theorem exec_sbitc (s : State) : ∀ f, exec (.sbitc f) s = execSbitc f s := fun _ => rfl
theorem exec_sadd64 (s : State) : ∀ f, exec (.sadd64 f) s = execSadd64 f s := fun _ => rfl
theorem exec_ssub64 (s : State) : ∀ f, exec (.ssub64 f) s = execSsub64 f s := fun _ => rfl
theorem exec_smad64 (s : State) : ∀ f, exec (.smad64 f) s = execSmad64 f s := fun _ => rfl
theorem exec_sli (s : State) : ∀ f, exec (.sli f) s = execSli f s := fun _ => rfl
theorem exec_vadd (s : State) : ∀ f, exec (.vadd f) s = execVadd f s := fun _ => rfl
theorem exec_vaddImm (s : State) : ∀ f, exec (.vaddImm f) s = execVaddImm f s := fun _ => rfl
theorem exec_vsub (s : State) : ∀ f, exec (.vsub f) s = execVsub f s := fun _ => rfl
theorem exec_vsubImm (s : State) : ∀ f, exec (.vsubImm f) s = execVsubImm f s := fun _ => rfl
theorem exec_vmul (s : State) : ∀ f, exec (.vmul f) s = execVmul f s := fun _ => rfl
theorem exec_vmulImm (s : State) : ∀ f, exec (.vmulImm f) s = execVmulImm f s := fun _ => rfl
theorem exec_vmulhi (s : State) : ∀ f, exec (.vmulhi f) s = execVmulhi f s := fun _ => rfl
theorem exec_vmulhiImm (s : State) : ∀ f, exec (.vmulhiImm f) s = execVmulhiImm f s := fun _ => rfl
theorem exec_vmad (s : State) : ∀ f, exec (.vmad f) s = execVmad f s := fun _ => rfl
theorem exec_vand (s : State) : ∀ f, exec (.vand f) s = execVand f s := fun _ => rfl
theorem exec_vandImm (s : State) : ∀ f, exec (.vandImm f) s = execVandImm f s := fun _ => rfl
theorem exec_vor (s : State) : ∀ f, exec (.vor f) s = execVor f s := fun _ => rfl
theorem exec_vorImm (s : State) : ∀ f, exec (.vorImm f) s = execVorImm f s := fun _ => rfl
theorem exec_vxor (s : State) : ∀ f, exec (.vxor f) s = execVxor f s := fun _ => rfl
theorem exec_vxorImm (s : State) : ∀ f, exec (.vxorImm f) s = execVxorImm f s := fun _ => rfl
theorem exec_vshl (s : State) : ∀ f, exec (.vshl f) s = execVshl f s := fun _ => rfl
theorem exec_vshlImm (s : State) : ∀ f, exec (.vshlImm f) s = execVshlImm f s := fun _ => rfl
theorem exec_vshr (s : State) : ∀ f, exec (.vshr f) s = execVshr f s := fun _ => rfl
theorem exec_vshrImm (s : State) : ∀ f, exec (.vshrImm f) s = execVshrImm f s := fun _ => rfl
theorem exec_vrot (s : State) : ∀ f, exec (.vrot f) s = execVrot f s := fun _ => rfl
theorem exec_vrotImm (s : State) : ∀ f, exec (.vrotImm f) s = execVrotImm f s := fun _ => rfl
theorem exec_vmin (s : State) : ∀ f, exec (.vmin f) s = execVmin f s := fun _ => rfl
theorem exec_vminImm (s : State) : ∀ f, exec (.vminImm f) s = execVminImm f s := fun _ => rfl
theorem exec_vmax (s : State) : ∀ f, exec (.vmax f) s = execVmax f s := fun _ => rfl
theorem exec_vmaxImm (s : State) : ∀ f, exec (.vmaxImm f) s = execVmaxImm f s := fun _ => rfl
theorem exec_vcmp (s : State) : ∀ f, exec (.vcmp f) s = execVcmp f s := fun _ => rfl
theorem exec_vcmpImm (s : State) : ∀ f, exec (.vcmpImm f) s = execVcmpImm f s := fun _ => rfl
theorem exec_vsel (s : State) : ∀ f, exec (.vsel f) s = execVsel f s := fun _ => rfl
theorem exec_vmov (s : State) : ∀ f, exec (.vmov f) s = execVmov f s := fun _ => rfl
theorem exec_vbfx (s : State) : ∀ f, exec (.vbfx f) s = execVbfx f s := fun _ => rfl
theorem exec_vbfi (s : State) : ∀ f, exec (.vbfi f) s = execVbfi f s := fun _ => rfl
theorem exec_vbitc (s : State) : ∀ f, exec (.vbitc f) s = execVbitc f s := fun _ => rfl
theorem exec_vsad (s : State) : ∀ f, exec (.vsad f) s = execVsad f s := fun _ => rfl
theorem exec_vadd64 (s : State) : ∀ f, exec (.vadd64 f) s = execVadd64 f s := fun _ => rfl
theorem exec_vadd64Imm (s : State) : ∀ f, exec (.vadd64Imm f) s = execVadd64Imm f s := fun _ => rfl
theorem exec_vmad64 (s : State) : ∀ f, exec (.vmad64 f) s = execVmad64 f s := fun _ => rfl
theorem exec_vdot4 (s : State) : ∀ f, exec (.vdot4 f) s = execVdot4 f s := fun _ => rfl
theorem exec_vperm (s : State) : ∀ f, exec (.vperm f) s = execVperm f s := fun _ => rfl
theorem exec_fadd (s : State) : ∀ f, exec (.fadd f) s = execFadd f s := fun _ => rfl
theorem exec_faddImm (s : State) : ∀ f, exec (.faddImm f) s = execFaddImm f s := fun _ => rfl
theorem exec_fsub (s : State) : ∀ f, exec (.fsub f) s = execFsub f s := fun _ => rfl
theorem exec_fsubImm (s : State) : ∀ f, exec (.fsubImm f) s = execFsubImm f s := fun _ => rfl
theorem exec_fmul (s : State) : ∀ f, exec (.fmul f) s = execFmul f s := fun _ => rfl
theorem exec_fmulImm (s : State) : ∀ f, exec (.fmulImm f) s = execFmulImm f s := fun _ => rfl
theorem exec_ffma (s : State) : ∀ f, exec (.ffma f) s = execFfma f s := fun _ => rfl
theorem exec_fmin (s : State) : ∀ f, exec (.fmin f) s = execFmin f s := fun _ => rfl
theorem exec_fminImm (s : State) : ∀ f, exec (.fminImm f) s = execFminImm f s := fun _ => rfl
theorem exec_fmax (s : State) : ∀ f, exec (.fmax f) s = execFmax f s := fun _ => rfl
theorem exec_fmaxImm (s : State) : ∀ f, exec (.fmaxImm f) s = execFmaxImm f s := fun _ => rfl
theorem exec_fcmp (s : State) : ∀ f, exec (.fcmp f) s = execFcmp f s := fun _ => rfl
theorem exec_fcmpImm (s : State) : ∀ f, exec (.fcmpImm f) s = execFcmpImm f s := fun _ => rfl
theorem exec_frnd (s : State) : ∀ f, exec (.frnd f) s = execFrnd f s := fun _ => rfl
theorem exec_ffract (s : State) : ∀ f, exec (.ffract f) s = execFfract f s := fun _ => rfl
theorem exec_fclass (s : State) : ∀ f, exec (.fclass f) s = execFclass f s := fun _ => rfl
theorem exec_fldexp (s : State) : ∀ f, exec (.fldexp f) s = execFldexp f s := fun _ => rfl
theorem exec_fldexpImm (s : State) : ∀ f, exec (.fldexpImm f) s = execFldexpImm f s := fun _ => rfl
theorem exec_ffrexp (s : State) : ∀ f, exec (.ffrexp f) s = execFfrexp f s := fun _ => rfl
theorem exec_hadd2 (s : State) : ∀ f, exec (.hadd2 f) s = execHadd2 f s := fun _ => rfl
theorem exec_hmul2 (s : State) : ∀ f, exec (.hmul2 f) s = execHmul2 f s := fun _ => rfl
theorem exec_hfma2 (s : State) : ∀ f, exec (.hfma2 f) s = execHfma2 f s := fun _ => rfl
theorem exec_hdot2 (s : State) : ∀ f, exec (.hdot2 f) s = execHdot2 f s := fun _ => rfl
theorem exec_cvtfi (s : State) : ∀ f, exec (.cvtfi f) s = execCvtfi f s := fun _ => rfl
theorem exec_cvtif (s : State) : ∀ f, exec (.cvtif f) s = execCvtif f s := fun _ => rfl
theorem exec_cvtff (s : State) : ∀ f, exec (.cvtff f) s = execCvtff f s := fun _ => rfl
theorem exec_cvtpk (s : State) : ∀ f, exec (.cvtpk f) s = execCvtpk f s := fun _ => rfl
theorem exec_cvtunp (s : State) : ∀ f, exec (.cvtunp f) s = execCvtunp f s := fun _ => rfl
theorem exec_cvtqb (s : State) : ∀ f, exec (.cvtqb f) s = execCvtqb f s := fun _ => rfl
theorem exec_frcp (s : State) : ∀ f, exec (.frcp f) s = execFrcp f s := fun _ => rfl
theorem exec_frsq (s : State) : ∀ f, exec (.frsq f) s = execFrsq f s := fun _ => rfl
theorem exec_fsqrt (s : State) : ∀ f, exec (.fsqrt f) s = execFsqrt f s := fun _ => rfl
theorem exec_fexp2 (s : State) : ∀ f, exec (.fexp2 f) s = execFexp2 f s := fun _ => rfl
theorem exec_flog2 (s : State) : ∀ f, exec (.flog2 f) s = execFlog2 f s := fun _ => rfl
theorem exec_fsin (s : State) : ∀ f, exec (.fsin f) s = execFsin f s := fun _ => rfl
theorem exec_fcos (s : State) : ∀ f, exec (.fcos f) s = execFcos f s := fun _ => rfl
theorem exec_ftanh (s : State) : ∀ f, exec (.ftanh f) s = execFtanh f s := fun _ => rfl
theorem exec_lbcast (s : State) : ∀ f, exec (.lbcast f) s = execLbcast f s := fun _ => rfl
theorem exec_lshuf (s : State) : ∀ f, exec (.lshuf f) s = execLshuf f s := fun _ => rfl
theorem exec_lrot (s : State) : ∀ f, exec (.lrot f) s = execLrot f s := fun _ => rfl
theorem exec_lquad (s : State) : ∀ f, exec (.lquad f) s = execLquad f s := fun _ => rfl
theorem exec_lballot (s : State) : ∀ f, exec (.lballot f) s = execLballot f s := fun _ => rfl
theorem exec_lred (s : State) : ∀ f, exec (.lred f) s = execLred f s := fun _ => rfl
theorem exec_lscan (s : State) : ∀ f, exec (.lscan f) s = execLscan f s := fun _ => rfl
theorem exec_lmatch (s : State) : ∀ f, exec (.lmatch f) s = execLmatch f s := fun _ => rfl
theorem exec_lhist (s : State) : ∀ f, exec (.lhist f) s = execLhist f s := fun _ => rfl
theorem exec_lmerge (s : State) : ∀ f, exec (.lmerge f) s = execLmerge f s := fun _ => rfl
theorem exec_lfirst (s : State) : ∀ f, exec (.lfirst f) s = execLfirst f s := fun _ => rfl
theorem exec_lderiv (s : State) : ∀ f, exec (.lderiv f) s = execLderiv f s := fun _ => rfl
theorem exec_lcount (s : State) : ∀ f, exec (.lcount f) s = execLcount f s := fun _ => rfl
theorem exec_bra (s : State) : ∀ f, exec (.bra f) s = execBra f s := fun _ => rfl
theorem exec_brs (s : State) : ∀ f, exec (.brs f) s = execBrs f s := fun _ => rfl
theorem exec_brm (s : State) : ∀ f, exec (.brm f) s = execBrm f s := fun _ => rfl
theorem exec_brx (s : State) : ∀ f, exec (.brx f) s = execBrx f s := fun _ => rfl
theorem exec_mark (s : State) : ∀ f, exec (.mark f) s = execMark f s := fun _ => rfl
theorem exec_join (s : State) : ∀ f, exec (.join f) s = execJoin f s := fun _ => rfl
theorem exec_call (s : State) : ∀ f, exec (.call f) s = execCall f s := fun _ => rfl
theorem exec_ret (s : State) : ∀ f, exec (.ret f) s = execRet f s := fun _ => rfl
theorem exec_loop (s : State) : ∀ f, exec (.loop f) s = execLoop f s := fun _ => rfl
theorem exec_waitc (s : State) : ∀ f, exec (.waitc f) s = execWaitc f s := fun _ => rfl
theorem exec_yield (s : State) : ∀ f, exec (.yield f) s = execYield f s := fun _ => rfl
theorem exec_halt (s : State) : ∀ f, exec (.halt f) s = execHalt f s := fun _ => rfl
theorem exec_trap (s : State) : ∀ f, exec (.trap f) s = execTrap f s := fun _ => rfl
theorem exec_nop (s : State) : ∀ f, exec (.nop f) s = execNop f s := fun _ => rfl
theorem exec_mask (s : State) : ∀ f, exec (.mask f) s = execMask f s := fun _ => rfl
theorem exec_sleep (s : State) : ∀ f, exec (.sleep f) s = execSleep f s := fun _ => rfl
theorem exec_ldl (s : State) : ∀ f, exec (.ldl f) s = execLdl f s := fun _ => rfl
theorem exec_stl (s : State) : ∀ f, exec (.stl f) s = execStl f s := fun _ => rfl
theorem exec_lds (s : State) : ∀ f, exec (.lds f) s = execLds f s := fun _ => rfl
theorem exec_sts (s : State) : ∀ f, exec (.sts f) s = execSts f s := fun _ => rfl
theorem exec_ldc (s : State) : ∀ f, exec (.ldc f) s = execLdc f s := fun _ => rfl
theorem exec_stc (s : State) : ∀ f, exec (.stc f) s = execStc f s := fun _ => rfl
theorem exec_ldp (s : State) : ∀ f, exec (.ldp f) s = execLdp f s := fun _ => rfl
theorem exec_stp (s : State) : ∀ f, exec (.stp f) s = execStp f s := fun _ => rfl
theorem exec_ldg (s : State) : ∀ f, exec (.ldg f) s = execLdg f s := fun _ => rfl
theorem exec_stg (s : State) : ∀ f, exec (.stg f) s = execStg f s := fun _ => rfl
theorem exec_sld (s : State) : ∀ f, exec (.sld f) s = execSld f s := fun _ => rfl
theorem exec_sst (s : State) : ∀ f, exec (.sst f) s = execSst f s := fun _ => rfl
theorem exec_ldq (s : State) : ∀ f, exec (.ldq f) s = execLdq f s := fun _ => rfl
theorem exec_pfg (s : State) : ∀ f, exec (.pfg f) s = execPfg f s := fun _ => rfl
theorem exec_tld (s : State) : ∀ f, exec (.tld f) s = execTld f s := fun _ => rfl
theorem exec_tst (s : State) : ∀ f, exec (.tst f) s = execTst f s := fun _ => rfl
theorem exec_clean (s : State) : ∀ f, exec (.clean f) s = execClean f s := fun _ => rfl
theorem exec_inval (s : State) : ∀ f, exec (.inval f) s = execInval f s := fun _ => rfl
theorem exec_discard (s : State) : ∀ f, exec (.discard f) s = execDiscard f s := fun _ => rfl
theorem exec_atom (s : State) : ∀ f, exec (.atom f) s = execAtom f s := fun _ => rfl
theorem exec_acas (s : State) : ∀ f, exec (.acas f) s = execAcas f s := fun _ => rfl
theorem exec_red (s : State) : ∀ f, exec (.red f) s = execRed f s := fun _ => rfl
theorem exec_fence (s : State) : ∀ f, exec (.fence f) s = execFence f s := fun _ => rfl
theorem exec_mfmt (s : State) : ∀ f, exec (.mfmt f) s = execMfmt f s := fun _ => rfl
theorem exec_mzero (s : State) : ∀ f, exec (.mzero f) s = execMzero f s := fun _ => rfl
theorem exec_mma (s : State) : ∀ f, exec (.mma f) s = execMma f s := fun _ => rfl
theorem exec_mmat (s : State) : ∀ f, exec (.mmat f) s = execMmat f s := fun _ => rfl
theorem exec_mld (s : State) : ∀ f, exec (.mld f) s = execMld f s := fun _ => rfl
theorem exec_mst (s : State) : ∀ f, exec (.mst f) s = execMst f s := fun _ => rfl
theorem exec_mcvt (s : State) : ∀ f, exec (.mcvt f) s = execMcvt f s := fun _ => rfl
theorem exec_mset (s : State) : ∀ f, exec (.mset f) s = execMset f s := fun _ => rfl
theorem exec_madd (s : State) : ∀ f, exec (.madd f) s = execMadd f s := fun _ => rfl
theorem exec_mloop (s : State) : ∀ f, exec (.mloop f) s = execMloop f s := fun _ => rfl
theorem exec_mbr (s : State) : ∀ f, exec (.mbr f) s = execMbr f s := fun _ => rfl
theorem exec_marr (s : State) : ∀ f, exec (.marr f) s = execMarr f s := fun _ => rfl
theorem exec_mwait (s : State) : ∀ f, exec (.mwait f) s = execMwait f s := fun _ => rfl
theorem exec_mhalt (s : State) : ∀ f, exec (.mhalt f) s = execMhalt f s := fun _ => rfl
theorem exec_chdef (s : State) : ∀ f, exec (.chdef f) s = execChdef f s := fun _ => rfl
theorem exec_chres (s : State) : ∀ f, exec (.chres f) s = execChres f s := fun _ => rfl
theorem exec_chcom (s : State) : ∀ f, exec (.chcom f) s = execChcom f s := fun _ => rfl
theorem exec_chacq (s : State) : ∀ f, exec (.chacq f) s = execChacq f s := fun _ => rfl
theorem exec_chrel (s : State) : ∀ f, exec (.chrel f) s = execChrel f s := fun _ => rfl
theorem exec_chqry (s : State) : ∀ f, exec (.chqry f) s = execChqry f s := fun _ => rfl
theorem exec_cpyin (s : State) : ∀ f, exec (.cpyin f) s = execCpyin f s := fun _ => rfl
theorem exec_cpyout (s : State) : ∀ f, exec (.cpyout f) s = execCpyout f s := fun _ => rfl
theorem exec_cpyg (s : State) : ∀ f, exec (.cpyg f) s = execCpyg f s := fun _ => rfl
theorem exec_idxwalk (s : State) : ∀ f, exec (.idxwalk f) s = execIdxwalk f s := fun _ => rfl
theorem exec_gather (s : State) : ∀ f, exec (.gather f) s = execGather f s := fun _ => rfl
theorem exec_publish (s : State) : ∀ f, exec (.publish f) s = execPublish f s := fun _ => rfl
theorem exec_ecplDep (s : State) : ∀ f, exec (.ecplDep f) s = execEcplDep f s := fun _ => rfl
theorem exec_ecplArr (s : State) : ∀ f, exec (.ecplArr f) s = execEcplArr f s := fun _ => rfl
theorem exec_sqpush (s : State) : ∀ f, exec (.sqpush f) s = execSqpush f s := fun _ => rfl
theorem exec_sqpop (s : State) : ∀ f, exec (.sqpop f) s = execSqpop f s := fun _ => rfl
theorem exec_barr (s : State) : ∀ f, exec (.barr f) s = execBarr f s := fun _ => rfl
theorem exec_barw (s : State) : ∀ f, exec (.barw f) s = execBarw f s := fun _ => rfl
theorem exec_barrw (s : State) : ∀ f, exec (.barrw f) s = execBarrw f s := fun _ => rfl
theorem exec_phbeg (s : State) : ∀ f, exec (.phbeg f) s = execPhbeg f s := fun _ => rfl
theorem exec_phwait (s : State) : ∀ f, exec (.phwait f) s = execPhwait f s := fun _ => rfl
theorem exec_launch (s : State) : ∀ f, exec (.launch f) s = execLaunch f s := fun _ => rfl
theorem exec_rsub (s : State) : ∀ f, exec (.rsub f) s = execRsub f s := fun _ => rfl
theorem exec_tsdep (s : State) : ∀ f, exec (.tsdep f) s = execTsdep f s := fun _ => rfl
theorem exec_tscpy (s : State) : ∀ f, exec (.tscpy f) s = execTscpy f s := fun _ => rfl
theorem exec_tstake (s : State) : ∀ f, exec (.tstake f) s = execTstake f s := fun _ => rfl
theorem exec_tscpyn (s : State) : ∀ f, exec (.tscpyn f) s = execTscpyn f s := fun _ => rfl
theorem exec_tstaken (s : State) : ∀ f, exec (.tstaken f) s = execTstaken f s := fun _ => rfl
theorem exec_tscan (s : State) : ∀ f, exec (.tscan f) s = execTscan f s := fun _ => rfl
theorem exec_gtcfgSend (s : State) : ∀ f, exec (.gtcfgSend f) s = execGtcfgSend f s := fun _ => rfl
theorem exec_gtcfgDest (s : State) : ∀ f, exec (.gtcfgDest f) s = execGtcfgDest f s := fun _ => rfl
theorem exec_gtrsv (s : State) : ∀ f, exec (.gtrsv f) s = execGtrsv f s := fun _ => rfl
theorem exec_gtsend (s : State) : ∀ f, exec (.gtsend f) s = execGtsend f s := fun _ => rfl
theorem exec_gtdrain (s : State) : ∀ f, exec (.gtdrain f) s = execGtdrain f s := fun _ => rfl
theorem exec_gtdrainPhase (s : State) : ∀ f, exec (.gtdrainPhase f) s = execGtdrainPhase f s := fun _ => rfl
theorem exec_gtrel (s : State) : ∀ f, exec (.gtrel f) s = execGtrel f s := fun _ => rfl
theorem exec_rbox (s : State) : ∀ f, exec (.rbox f) s = execRbox f s := fun _ => rfl
theorem exec_rtri (s : State) : ∀ f, exec (.rtri f) s = execRtri f s := fun _ => rfl
theorem exec_rpush (s : State) : ∀ f, exec (.rpush f) s = execRpush f s := fun _ => rfl
theorem exec_rpop (s : State) : ∀ f, exec (.rpop f) s = execRpop f s := fun _ => rfl
theorem exec_rhit (s : State) : ∀ f, exec (.rhit f) s = execRhit f s := fun _ => rfl
theorem exec_afetch (s : State) : ∀ f, exec (.afetch f) s = execAfetch f s := fun _ => rfl
theorem exec_abary (s : State) : ∀ f, exec (.abary f) s = execAbary f s := fun _ => rfl
theorem exec_ainterp (s : State) : ∀ f, exec (.ainterp f) s = execAinterp f s := fun _ => rfl
theorem exec_visld (s : State) : ∀ f, exec (.visld f) s = execVisld f s := fun _ => rfl
theorem exec_smpl (s : State) : ∀ f, exec (.smpl f) s = execSmpl f s := fun _ => rfl
theorem exec_smpll (s : State) : ∀ f, exec (.smpll f) s = execSmpll f s := fun _ => rfl
theorem exec_pxout (s : State) : ∀ f, exec (.pxout f) s = execPxout f s := fun _ => rfl
theorem exec_tret (s : State) : ∀ f, exec (.tret f) s = execTret f s := fun _ => rfl
theorem exec_srd (s : State) : ∀ f, exec (.srd f) s = execSrd f s := fun _ => rfl
theorem exec_swr (s : State) : ∀ f, exec (.swr f) s = execSwr f s := fun _ => rfl
theorem exec_eret (s : State) : ∀ f, exec (.eret f) s = execEret f s := fun _ => rfl
theorem exec_brk (s : State) : ∀ f, exec (.brk f) s = execBrk f s := fun _ => rfl
theorem exec_cntrd (s : State) : ∀ f, exec (.cntrd f) s = execCntrd f s := fun _ => rfl
theorem exec_cntcfg (s : State) : ∀ f, exec (.cntcfg f) s = execCntcfg f s := fun _ => rfl
theorem exec_time (s : State) : ∀ f, exec (.time f) s = execTime f s := fun _ => rfl
theorem exec_isync (s : State) : ∀ f, exec (.isync f) s = execIsync f s := fun _ => rfl
theorem exec_clauseFetch (s : State) : ∀ a, exec (.clauseFetch a) s = execClauseFetch a s := fun _ => rfl
theorem exec_clauseWaitMet (s : State) : ∀ a, exec (.clauseWaitMet a) s = execClauseWaitMet a s := fun _ => rfl
theorem exec_promotion (s : State) : ∀ a, exec (.promotion a) s = execPromotion a s := fun _ => rfl
theorem exec_requestReturn (s : State) : ∀ a p, exec (.requestReturn a p) s = execRequestReturn a p s := fun _ _ => rfl
theorem exec_pendingFaultDelivery (s : State) : ∀ a, exec (.pendingFaultDelivery a) s = execPendingFaultDelivery a s := fun _ => rfl
theorem exec_poisonStop (s : State) : ∀ a, exec (.poisonStop a) s = execPoisonStop a s := fun _ => rfl
theorem exec_launchQueueRefetch (s : State) : ∀ q, exec (.launchQueueRefetch q) s = execLaunchQueueRefetch q s := fun _ => rfl
theorem exec_launchRecordRead (s : State) : ∀ q, exec (.launchRecordRead q) s = execLaunchRecordRead q s := fun _ => rfl
theorem exec_launchActivation (s : State) : ∀ l, exec (.launchActivation l) s = execLaunchActivation l s := fun _ => rfl
theorem exec_placementDecision (s : State) : exec .placementDecision s = execPlacementDecision s := rfl
theorem exec_launchCompletion (s : State) : ∀ l, exec (.launchCompletion l) s = execLaunchCompletion l s := fun _ => rfl
theorem exec_vacateWaveStop (s : State) : ∀ a, exec (.vacateWaveStop a) s = execVacateWaveStop a s := fun _ => rfl
theorem exec_teamSave (s : State) : ∀ t, exec (.teamSave t) s = execTeamSave t s := fun _ => rfl
theorem exec_vacateComplete (s : State) : exec .vacateComplete s = execVacateComplete s := rfl
theorem exec_droopEvent (s : State) : ∀ core, exec (.droopEvent core) s = execDroopEvent core s := fun _ => rfl
theorem exec_droopWindowClose (s : State) : ∀ meanPower, exec (.droopWindowClose meanPower) s = execDroopWindowClose meanPower s := fun _ => rfl
theorem exec_tempSample (s : State) : ∀ core reading, exec (.tempSample core reading) s = execTempSample core reading s := fun _ _ => rfl
theorem exec_overtemp (s : State) : ∀ die, exec (.overtemp die) s = execOvertemp die s := fun _ => rfl
theorem exec_timeSliceExpiry (s : State) : exec .timeSliceExpiry s = execTimeSliceExpiry s := rfl
theorem exec_watchdog (s : State) : ∀ a, exec (.watchdog a) s = execWatchdog a s := fun _ => rfl
theorem exec_sleepWake (s : State) : ∀ a, exec (.sleepWake a) s = execSleepWake a s := fun _ => rfl
theorem exec_channelWaitServed (s : State) : ∀ a, exec (.channelWaitServed a) s = execChannelWaitServed a s := fun _ => rfl
theorem exec_streamQueueWaitServed (s : State) : ∀ a, exec (.streamQueueWaitServed a) s = execStreamQueueWaitServed a s := fun _ => rfl
theorem exec_phaseComplete (s : State) : ∀ t, exec (.phaseComplete t) s = execPhaseComplete t s := fun _ => rfl
theorem exec_phaseWatchRegister (s : State) : ∀ t, exec (.phaseWatchRegister t) s = execPhaseWatchRegister t s := fun _ => rfl
theorem exec_engineFire (s : State) : ∀ c, exec (.engineFire c) s = execEngineFire c s := fun _ => rfl
theorem exec_engineComplete (s : State) : ∀ c, exec (.engineComplete c) s = execEngineComplete c s := fun _ => rfl
theorem exec_publishFlip (s : State) : ∀ c, exec (.publishFlip c) s = execPublishFlip c s := fun _ => rfl
theorem exec_launchEnqueue (s : State) : ∀ c, exec (.launchEnqueue c) s = execLaunchEnqueue c s := fun _ => rfl
theorem exec_mmaFire (s : State) : ∀ core, exec (.mmaFire core) s = execMmaFire core s := fun _ => rfl
theorem exec_arrayWordEnd (s : State) : ∀ core, exec (.arrayWordEnd core) s = execArrayWordEnd core s := fun _ => rfl
theorem exec_transferWordBegin (s : State) : ∀ core, exec (.transferWordBegin core) s = execTransferWordBegin core s := fun _ => rfl
theorem exec_transferWordEnd (s : State) : ∀ core, exec (.transferWordEnd core) s = execTransferWordEnd core s := fun _ => rfl
theorem exec_mfmtComplete (s : State) : ∀ core fb, exec (.mfmtComplete core fb) s = execMfmtComplete core fb s := fun _ _ => rfl
theorem exec_quarterGated (s : State) : ∀ core q, exec (.quarterGated core q) s = execQuarterGated core q s := fun _ _ => rfl
theorem exec_quarterAwake (s : State) : ∀ core q, exec (.quarterAwake core q) s = execQuarterAwake core q s := fun _ _ => rfl
theorem exec_gtCheckAnswer (s : State) : ∀ core, exec (.gtCheckAnswer core) s = execGtCheckAnswer core s := fun _ => rfl
theorem exec_gtFlitArrival (s : State) : ∀ f, exec (.gtFlitArrival f) s = execGtFlitArrival f s := fun _ => rfl
theorem exec_gtFlitAck (s : State) : ∀ f, exec (.gtFlitAck f) s = execGtFlitAck f s := fun _ => rfl
theorem exec_tupleDeposit (s : State) : ∀ r, exec (.tupleDeposit r) s = execTupleDeposit r s := fun _ => rfl
theorem exec_tupleMatch (s : State) : ∀ r, exec (.tupleMatch r) s = execTupleMatch r s := fun _ => rfl
theorem exec_tupleRetry (s : State) : ∀ r, exec (.tupleRetry r) s = execTupleRetry r s := fun _ => rfl
theorem exec_tupleCancel (s : State) : ∀ r, exec (.tupleCancel r) s = execTupleCancel r s := fun _ => rfl
theorem exec_tupleTimeout (s : State) : ∀ r, exec (.tupleTimeout r) s = execTupleTimeout r s := fun _ => rfl
theorem exec_tsFull (s : State) : ∀ r, exec (.tsFull r) s = execTsFull r s := fun _ => rfl
theorem exec_homeWrite (s : State) : ∀ a rq x, exec (.homeWrite a rq x) s = execHomeWrite a rq x s := fun _ _ _ => rfl
theorem exec_homeRead (s : State) : ∀ a rq x, exec (.homeRead a rq x) s = execHomeRead a rq x s := fun _ _ _ => rfl
theorem exec_atomicAtHome (s : State) : ∀ a rq x, exec (.atomicAtHome a rq x) s = execAtomicAtHome a rq x s := fun _ _ _ => rfl
theorem exec_redContribution (s : State) : ∀ a rq x, exec (.redContribution a rq x) s = execRedContribution a rq x s := fun _ _ _ => rfl
theorem exec_gddr7Fill (s : State) : ∀ line, exec (.gddr7Fill line) s = execGddr7Fill line s := fun _ => rfl
theorem exec_columnEviction (s : State) : ∀ core line, exec (.columnEviction core line) s = execColumnEviction core line s := fun _ _ => rfl
theorem exec_peerProbe (s : State) : ∀ cluster line, exec (.peerProbe cluster line) s = execPeerProbe cluster line s := fun _ _ => rfl
theorem exec_redirectedRead (s : State) : ∀ cluster line, exec (.redirectedRead cluster line) s = execRedirectedRead cluster line s := fun _ _ => rfl
theorem exec_pageWalk (s : State) : ∀ cluster va, exec (.pageWalk cluster va) s = execPageWalk cluster va s := fun _ _ => rfl
theorem exec_hostWrite (s : State) : ∀ pa data, exec (.hostWrite pa data) s = execHostWrite pa data s := fun _ _ => rfl
theorem exec_hostRead (s : State) : ∀ pa n, exec (.hostRead pa n) s = execHostRead pa n s := fun _ _ => rfl
theorem exec_hostInvalidate (s : State) : ∀ line data, exec (.hostInvalidate line data) s = execHostInvalidate line data s := fun _ _ => rfl
theorem exec_rasterBatch (s : State) : ∀ die, exec (.rasterBatch die) s = execRasterBatch die s := fun _ => rfl
theorem exec_frameClose (s : State) : ∀ die, exec (.frameClose die) s = execFrameClose die s := fun _ => rfl
theorem exec_classifyTile (s : State) : ∀ die engine, exec (.classifyTile die engine) s = execClassifyTile die engine s := fun _ _ => rfl
theorem exec_binWaveClose (s : State) : ∀ die material, exec (.binWaveClose die material) s = execBinWaveClose die material s := fun _ _ => rfl
theorem exec_binflushTimeout (s : State) : ∀ die material, exec (.binflushTimeout die material) s = execBinflushTimeout die material s := fun _ _ => rfl
theorem exec_tlbinv (s : State) : exec .tlbinv s = execTlbinv s := rfl
theorem exec_tlbinvComplete (s : State) : exec .tlbinvComplete s = execTlbinvComplete s := rfl
theorem exec_vacate (s : State) : exec .vacate s = execVacate s := rfl
theorem exec_tsclear (s : State) : exec .tsclear s = execTsclear s := rfl
theorem exec_wresume (s : State) : ∀ core slot sc, exec (.wresume core slot sc) s = execWresume core slot sc s := fun _ _ _ => rfl
theorem exec_wend (s : State) : ∀ core slot sc, exec (.wend core slot sc) s = execWend core slot sc s := fun _ _ _ => rfl
theorem exec_dbghalt (s : State) : ∀ core slot sc, exec (.dbghalt core slot sc) s = execDbghalt core slot sc s := fun _ _ _ => rfl
theorem exec_dresume (s : State) : ∀ core slot sc, exec (.dresume core slot sc) s = execDresume core slot sc s := fun _ _ _ => rfl
theorem exec_ctxid (s : State) : ∀ v, exec (.ctxid v) s = execCtxid v s := fun _ => rfl
theorem exec_tslice (s : State) : ∀ v, exec (.tslice v) s = execTslice v s := fun _ => rfl
theorem exec_trapq (s : State) : ∀ reg v, exec (.trapq reg v) s = execTrapq reg v s := fun _ _ => rfl
theorem exec_launchQueueEnable (s : State) : ∀ q v, exec (.launchQueueEnable q v) s = execLaunchQueueEnable q v s := fun _ _ => rfl
theorem exec_bufferEntryWrite (s : State) : ∀ b word v, exec (.bufferEntryWrite b word v) s = execBufferEntryWrite b word v s := fun _ _ _ => rfl
theorem exec_materialEntryWrite (s : State) : ∀ m word v, exec (.materialEntryWrite m word v) s = execMaterialEntryWrite m word v s := fun _ _ _ => rfl
theorem exec_registerWrite (s : State) : ∀ off v, exec (.registerWrite off v) s = execRegisterWrite off v s := fun _ _ => rfl
theorem exec_debugRead (s : State) : ∀ st addr n, exec (.debugRead st addr n) s = execDebugRead st addr n s := fun _ _ _ => rfl
theorem exec_powerOnReset (s : State) : exec .powerOnReset s = execPowerOnReset s := rfl
theorem exec_bootStage (s : State) : ∀ failed, exec (.bootStage failed) s = execBootStage failed s := fun _ => rfl
theorem exec_bootok (s : State) : ∀ v, exec (.bootok v) s = execBootok v s := fun _ => rfl
theorem exec_bootokTimeout (s : State) : exec .bootokTimeout s = execBootokTimeout s := rfl
theorem exec_fullretry (s : State) : exec .fullretry s = execFullretry s := rfl
theorem exec_bootstat (s : State) : exec .bootstat s = execBootstat s := rfl
theorem exec_attest (s : State) : ∀ nonce, exec (.attest nonce) s = execAttest nonce s := fun _ => rfl
theorem exec_ckpt (s : State) : ∀ target, exec (.ckpt target) s = execCkpt target s := fun _ => rfl
theorem exec_ckptComplete (s : State) : exec .ckptComplete s = execCkptComplete s := rfl
theorem exec_restore (s : State) : ∀ source, exec (.restore source) s = execRestore source s := fun _ => rfl
theorem exec_supplySet (s : State) : ∀ die mv, exec (.supplySet die mv) s = execSupplySet die mv s := fun _ _ => rfl
theorem exec_columnPowerState (s : State) : ∀ st p, exec (.columnPowerState st p) s = execColumnPowerState st p s := fun _ _ => rfl
theorem exec_debugSessionRelease (s : State) : ∀ st, exec (.debugSessionRelease st) s = execDebugSessionRelease st s := fun _ => rfl
theorem exec_debugRegisterWrite (s : State) : ∀ a reg v, exec (.debugRegisterWrite a reg v) s = execDebugRegisterWrite a reg v s := fun _ _ _ => rfl
theorem exec_clusterCacheEviction (s : State) : ∀ cluster line, exec (.clusterCacheEviction cluster line) s = execClusterCacheEviction cluster line s := fun _ _ => rfl
theorem exec_l2Eviction (s : State) : ∀ line, exec (.l2Eviction line) s = execL2Eviction line s := fun _ => rfl
theorem exec_versionWordRetry (s : State) : ∀ a rq, exec (.versionWordRetry a rq) s = execVersionWordRetry a rq s := fun _ _ => rfl
theorem exec_counterMirrorRefresh (s : State) : ∀ core, exec (.counterMirrorRefresh core) s = execCounterMirrorRefresh core s := fun _ => rfl
theorem exec_firmwareUpdate (s : State) : ∀ image signed, exec (.firmwareUpdate image signed) s = execFirmwareUpdate image signed s := fun _ _ => rfl
theorem exec_lostCxlLink (s : State) : exec .lostCxlLink s = execLostCxlLink s := rfl
theorem exec_linkFailure (s : State) : ∀ die loop, exec (.linkFailure die loop) s = execLinkFailure die loop s := fun _ _ => rfl

@[simp] theorem wf_sadd : ∀ f, (Instr.sadd f).wf = (sWord f 3) := fun _ => rfl
@[simp] theorem wf_ssub : ∀ f, (Instr.ssub f).wf = (sWord f 3) := fun _ => rfl
@[simp] theorem wf_smul : ∀ f, (Instr.smul f).wf = (sWord f 1) := fun _ => rfl
@[simp] theorem wf_smulhi : ∀ f, (Instr.smulhi f).wf = (sWord f 2) := fun _ => rfl
@[simp] theorem wf_sdiv : ∀ f, (Instr.sdiv f).wf = (decide (f.fn.toNat < 4)) := fun _ => rfl
@[simp] theorem wf_sand : ∀ f, (Instr.sand f).wf = (sWord f 1) := fun _ => rfl
@[simp] theorem wf_sor : ∀ f, (Instr.sor f).wf = (sWord f 1) := fun _ => rfl
@[simp] theorem wf_sxor : ∀ f, (Instr.sxor f).wf = (sWord f 1) := fun _ => rfl
@[simp] theorem wf_sshl : ∀ f, (Instr.sshl f).wf = (sWord f 1) := fun _ => rfl
@[simp] theorem wf_sshr : ∀ f, (Instr.sshr f).wf = (sWord f 2) := fun _ => rfl
@[simp] theorem wf_srot : ∀ f, (Instr.srot f).wf = (sWord f 1) := fun _ => rfl
@[simp] theorem wf_scmp : ∀ f, (Instr.scmp f).wf = (sWord f 10) := fun _ => rfl
@[simp] theorem wf_ssel : ∀ f, (Instr.ssel f).wf = (sWord f 1) := fun _ => rfl
@[simp] theorem wf_smov : ∀ f, (Instr.smov f).wf = (sWord f 1 && decide (f.sa = 0)) := fun _ => rfl
@[simp] theorem wf_smin : ∀ f, (Instr.smin f).wf = (sWord f 2) := fun _ => rfl
@[simp] theorem wf_smax : ∀ f, (Instr.smax f).wf = (sWord f 2) := fun _ => rfl
@[simp] theorem wf_sbfx : ∀ f, (Instr.sbfx f).wf = (sWord f 2) := fun _ => rfl
@[simp] theorem wf_sbfi : ∀ f, (Instr.sbfi f).wf = (sWord f 1) := fun _ => rfl
@[simp] theorem wf_sbitc : ∀ f, (Instr.sbitc f).wf = (sWord f 3 && decide (f.b = .reg 0)) := fun _ => rfl
@[simp] theorem wf_sadd64 : ∀ f, (Instr.sadd64 f).wf = (sWord f 1 && even f.sd.toNat && even f.sa.toNat && sPairB f) := fun _ => rfl
@[simp] theorem wf_ssub64 : ∀ f, (Instr.ssub64 f).wf = (sWord f 1 && even f.sd.toNat && even f.sa.toNat && sPairB f) := fun _ => rfl
@[simp] theorem wf_smad64 : ∀ f, (Instr.smad64 f).wf = (sWord f 2 && even f.sd.toNat) := fun _ => rfl
@[simp] theorem wf_sli : ∀ f, (Instr.sli f).wf = (sWord f 3 && even f.sd.toNat && decide (f.sa = 0) && sIsImm f) := fun _ => rfl
@[simp] theorem wf_vadd : ∀ f, (Instr.vadd f).wf = (vInt f 2 2 true true) := fun _ => rfl
@[simp] theorem wf_vaddImm : ∀ f, (Instr.vaddImm f).wf = (viInt f 2) := fun _ => rfl
@[simp] theorem wf_vsub : ∀ f, (Instr.vsub f).wf = (vInt f 2 2 true true) := fun _ => rfl
@[simp] theorem wf_vsubImm : ∀ f, (Instr.vsubImm f).wf = (viInt f 2) := fun _ => rfl
@[simp] theorem wf_vmul : ∀ f, (Instr.vmul f).wf = (vInt f 2 2 true true) := fun _ => rfl
@[simp] theorem wf_vmulImm : ∀ f, (Instr.vmulImm f).wf = (viInt f 2) := fun _ => rfl
@[simp] theorem wf_vmulhi : ∀ f, (Instr.vmulhi f).wf = (vInt f 2 2 false false) := fun _ => rfl
@[simp] theorem wf_vmulhiImm : ∀ f, (Instr.vmulhiImm f).wf = (viInt f 2) := fun _ => rfl
@[simp] theorem wf_vmad : ∀ f, (Instr.vmad f).wf = (vInt f 2 3 true true) := fun _ => rfl
@[simp] theorem wf_vand : ∀ f, (Instr.vand f).wf = (vInt f 1 2 false false) := fun _ => rfl
@[simp] theorem wf_vandImm : ∀ f, (Instr.vandImm f).wf = (viInt f 1) := fun _ => rfl
@[simp] theorem wf_vor : ∀ f, (Instr.vor f).wf = (vInt f 1 2 false false) := fun _ => rfl
@[simp] theorem wf_vorImm : ∀ f, (Instr.vorImm f).wf = (viInt f 1) := fun _ => rfl
@[simp] theorem wf_vxor : ∀ f, (Instr.vxor f).wf = (vInt f 1 2 false false) := fun _ => rfl
@[simp] theorem wf_vxorImm : ∀ f, (Instr.vxorImm f).wf = (viInt f 1) := fun _ => rfl
@[simp] theorem wf_vshl : ∀ f, (Instr.vshl f).wf = (vInt f 1 2 false false) := fun _ => rfl
@[simp] theorem wf_vshlImm : ∀ f, (Instr.vshlImm f).wf = (viInt f 1) := fun _ => rfl
@[simp] theorem wf_vshr : ∀ f, (Instr.vshr f).wf = (vInt f 2 2 false false) := fun _ => rfl
@[simp] theorem wf_vshrImm : ∀ f, (Instr.vshrImm f).wf = (viInt f 2) := fun _ => rfl
@[simp] theorem wf_vrot : ∀ f, (Instr.vrot f).wf = (vInt f 1 2 false false) := fun _ => rfl
@[simp] theorem wf_vrotImm : ∀ f, (Instr.vrotImm f).wf = (viInt f 1) := fun _ => rfl
@[simp] theorem wf_vmin : ∀ f, (Instr.vmin f).wf = (vInt f 2 2 false true) := fun _ => rfl
@[simp] theorem wf_vminImm : ∀ f, (Instr.vminImm f).wf = (viInt f 2) := fun _ => rfl
@[simp] theorem wf_vmax : ∀ f, (Instr.vmax f).wf = (vInt f 2 2 false true) := fun _ => rfl
@[simp] theorem wf_vmaxImm : ∀ f, (Instr.vmaxImm f).wf = (viInt f 2) := fun _ => rfl
@[simp] theorem wf_vcmp : ∀ f, (Instr.vcmp f).wf = (vInt f 8 2 false false && vdScalar f.vd) := fun _ => rfl
@[simp] theorem wf_vcmpImm : ∀ f, (Instr.vcmpImm f).wf = (viInt f 8 && vdScalar f.vd) := fun _ => rfl
@[simp] theorem wf_vsel : ∀ f, (Instr.vsel f).wf = (vInt f 1 3 false false) := fun _ => rfl
@[simp] theorem wf_vmov : ∀ f, (Instr.vmov f).wf = (vInt f 1 1 false false) := fun _ => rfl
@[simp] theorem wf_vbfx : ∀ f, (Instr.vbfx f).wf = (vInt f 2 3 false false) := fun _ => rfl
@[simp] theorem wf_vbfi : ∀ f, (Instr.vbfi f).wf = (vInt f 1 3 false false) := fun _ => rfl
@[simp] theorem wf_vbitc : ∀ f, (Instr.vbitc f).wf = (vInt f 3 1 false false) := fun _ => rfl
@[simp] theorem wf_vsad : ∀ f, (Instr.vsad f).wf = (vInt f 1 3 true false) := fun _ => rfl
@[simp] theorem wf_vadd64 : ∀ f, (Instr.vadd64 f).wf = (vInt f 3 2 false false && even f.vd.toNat && selPair f.a && (!decide (f.fn = 0) || selPair f.b)) := fun _ => rfl
@[simp] theorem wf_vadd64Imm : ∀ f, (Instr.vadd64Imm f).wf = (viInt f 1 && even f.vd.toNat && selPair f.a) := fun _ => rfl
@[simp] theorem wf_vmad64 : ∀ f, (Instr.vmad64 f).wf = (vInt f 2 3 false false && even f.vd.toNat && selPair f.c) := fun _ => rfl
@[simp] theorem wf_vdot4 : ∀ f, (Instr.vdot4 f).wf = (vInt f 3 3 true false) := fun _ => rfl
@[simp] theorem wf_vperm : ∀ f, (Instr.vperm f).wf = (vInt f 1 3 false false) := fun _ => rfl
@[simp] theorem wf_fadd : ∀ f, (Instr.fadd f).wf = (vFlt f 1 2 true true true true true) := fun _ => rfl
@[simp] theorem wf_faddImm : ∀ f, (Instr.faddImm f).wf = (viFlt f 1) := fun _ => rfl
@[simp] theorem wf_fsub : ∀ f, (Instr.fsub f).wf = (vFlt f 1 2 true true true true true) := fun _ => rfl
@[simp] theorem wf_fsubImm : ∀ f, (Instr.fsubImm f).wf = (viFlt f 1) := fun _ => rfl
@[simp] theorem wf_fmul : ∀ f, (Instr.fmul f).wf = (vFlt f 1 2 true true true true true) := fun _ => rfl
@[simp] theorem wf_fmulImm : ∀ f, (Instr.fmulImm f).wf = (viFlt f 1) := fun _ => rfl
@[simp] theorem wf_ffma : ∀ f, (Instr.ffma f).wf = (vFlt f 1 3 true true true true true) := fun _ => rfl
@[simp] theorem wf_fmin : ∀ f, (Instr.fmin f).wf = (vFlt f 1 2 true true true true false) := fun _ => rfl
@[simp] theorem wf_fminImm : ∀ f, (Instr.fminImm f).wf = (viFlt f 1) := fun _ => rfl
@[simp] theorem wf_fmax : ∀ f, (Instr.fmax f).wf = (vFlt f 1 2 true true true true false) := fun _ => rfl
@[simp] theorem wf_fmaxImm : ∀ f, (Instr.fmaxImm f).wf = (viFlt f 1) := fun _ => rfl
@[simp] theorem wf_fcmp : ∀ f, (Instr.fcmp f).wf = (vFlt f 8 2 false true true true false && vdScalar f.vd) := fun _ => rfl
@[simp] theorem wf_fcmpImm : ∀ f, (Instr.fcmpImm f).wf = (viFlt f 8 && vdScalar f.vd) := fun _ => rfl
@[simp] theorem wf_frnd : ∀ f, (Instr.frnd f).wf = (vFlt f 1 1 true true false true true) := fun _ => rfl
@[simp] theorem wf_ffract : ∀ f, (Instr.ffract f).wf = (vFlt f 1 1 false true false true false) := fun _ => rfl
@[simp] theorem wf_fclass : ∀ f, (Instr.fclass f).wf = (vFlt f 1 1 false false false false false) := fun _ => rfl
@[simp] theorem wf_fldexp : ∀ f, (Instr.fldexp f).wf = (vFlt f 1 2 true true false true true && selInt f.b) := fun _ => rfl
@[simp] theorem wf_fldexpImm : ∀ f, (Instr.fldexpImm f).wf = (viFlt f 1) := fun _ => rfl
@[simp] theorem wf_ffrexp : ∀ f, (Instr.ffrexp f).wf = (vFlt f 2 1 false false false false false) := fun _ => rfl
@[simp] theorem wf_hadd2 : ∀ f, (Instr.hadd2 f).wf = (vFlt f 2 2 true true true true true) := fun _ => rfl
@[simp] theorem wf_hmul2 : ∀ f, (Instr.hmul2 f).wf = (vFlt f 2 2 true true true true true) := fun _ => rfl
@[simp] theorem wf_hfma2 : ∀ f, (Instr.hfma2 f).wf = (vFlt f 2 3 true true true true true) := fun _ => rfl
@[simp] theorem wf_hdot2 : ∀ f, (Instr.hdot2 f).wf = (vFlt f 2 3 true true true true true) := fun _ => rfl
@[simp] theorem wf_cvtfi : ∀ f, (Instr.cvtfi f).wf = (vFlt f 6 1 false false false false true) := fun _ => rfl
@[simp] theorem wf_cvtif : ∀ f, (Instr.cvtif f).wf = (vFlt f 6 1 false false false false true && selInt f.a) := fun _ => rfl
@[simp] theorem wf_cvtff : ∀ f, (Instr.cvtff f).wf = (vFlt f 6 1 false false false false (decide (2 ≤ f.fn.toNat))) := fun _ => rfl
@[simp] theorem wf_cvtpk : ∀ f, (Instr.cvtpk f).wf = (vFlt f 7 2 false false false false true && selInt f.b) := fun _ => rfl
@[simp] theorem wf_cvtunp : ∀ f, (Instr.cvtunp f).wf = (vFlt f 7 2 false false false false false && selInt f.b) := fun _ => rfl
@[simp] theorem wf_cvtqb : ∀ f, (Instr.cvtqb f).wf = (vFlt f 9 1 false false false false true) := fun _ => rfl
@[simp] theorem wf_frcp : ∀ f, (Instr.frcp f).wf = (vSpecial f true) := fun _ => rfl
@[simp] theorem wf_frsq : ∀ f, (Instr.frsq f).wf = (vSpecial f true) := fun _ => rfl
@[simp] theorem wf_fsqrt : ∀ f, (Instr.fsqrt f).wf = (vSpecial f true) := fun _ => rfl
@[simp] theorem wf_fexp2 : ∀ f, (Instr.fexp2 f).wf = (vSpecial f false) := fun _ => rfl
@[simp] theorem wf_flog2 : ∀ f, (Instr.flog2 f).wf = (vSpecial f false) := fun _ => rfl
@[simp] theorem wf_fsin : ∀ f, (Instr.fsin f).wf = (vSpecial f false) := fun _ => rfl
@[simp] theorem wf_fcos : ∀ f, (Instr.fcos f).wf = (vSpecial f false) := fun _ => rfl
@[simp] theorem wf_ftanh : ∀ f, (Instr.ftanh f).wf = (vSpecial f false) := fun _ => rfl
@[simp] theorem wf_lbcast : ∀ f, (Instr.lbcast f).wf = (vFlt f 1 2 false false false false false && selUniform f.b) := fun _ => rfl
@[simp] theorem wf_lshuf : ∀ f, (Instr.lshuf f).wf = (vFlt f 1 2 false false false false false) := fun _ => rfl
@[simp] theorem wf_lrot : ∀ f, (Instr.lrot f).wf = (vFlt f 1 2 false false false false false && selUniform f.b) := fun _ => rfl
@[simp] theorem wf_lquad : ∀ f, (Instr.lquad f).wf = (vFlt f 4 2 false false false false false && (if f.fn = 3 then selUniform f.b else decide (f.b = 0))) := fun _ => rfl
@[simp] theorem wf_lballot : ∀ f, (Instr.lballot f).wf = (vFlt f 1 1 false false false false false && vdScalar f.vd) := fun _ => rfl
@[simp] theorem wf_lred : ∀ f, (Instr.lred f).wf = (vFlt f 11 1 false false false false (decide (f.fn = 8)) && vdScalar f.vd && (decide (8 ≤ f.fn.toNat) || selInt f.a)) := fun _ => rfl
@[simp] theorem wf_lscan : ∀ f, (Instr.lscan f).wf = (vFlt f 11 2 false false false false (decide (f.fn = 8)) && (decide (f.b = 384) || decide (f.b = 385)) && (decide (8 ≤ f.fn.toNat) || selInt f.a)) := fun _ => rfl
@[simp] theorem wf_lmatch : ∀ f, (Instr.lmatch f).wf = (vForm f 2 1 false false false false false && (if f.fn = 1 then selAny f.a else selInt f.a)) := fun _ => rfl
@[simp] theorem wf_lhist : ∀ f, (Instr.lhist f).wf = (vForm f 2 3 true false false false (decide (f.fn = 1)) && selInt f.a && (if f.fn = 1 then selAny f.b else selInt f.b) && selUniform f.c && selInt f.c) := fun _ => rfl
@[simp] theorem wf_lmerge : ∀ f, (Instr.lmerge f).wf = (vForm f 4 3 true false false false (decide (2 ≤ f.fn.toNat)) && selVec f.a && decide (f.b = 0) && selUniform f.c && selInt f.c && (if f.fn.toNat % 2 = 1 then vdScalar f.vd else decide (f.vd = 0))) := fun _ => rfl
@[simp] theorem wf_lfirst : ∀ f, (Instr.lfirst f).wf = (vFlt f 2 1 false false false false false && vdScalar f.vd) := fun _ => rfl
@[simp] theorem wf_lderiv : ∀ f, (Instr.lderiv f).wf = (vFlt f 4 1 false false false false true) := fun _ => rfl
@[simp] theorem wf_lcount : ∀ f, (Instr.lcount f).wf = (vFlt f 2 1 false false false false false && vdScalar f.vd && (decide (f.fn = 1) || decide (f.a = 384))) := fun _ => rfl
@[simp] theorem wf_bra : ∀ f, (Instr.bra f).wf = (cWord f && condCa f && cx0 f) := fun _ => rfl
@[simp] theorem wf_brs : ∀ f, (Instr.brs f).wf = (cWord f && condIn f [0] && !cx0 f) := fun _ => rfl
@[simp] theorem wf_brm : ∀ f, (Instr.brm f).wf = (cWord f && condIn f [0] && decide (f.cx.toNat < 2)) := fun _ => rfl
@[simp] theorem wf_brx : ∀ f, (Instr.brx f).wf = (cWord f && condIn f [0, 1, 2, 5, 6] && even f.ca.toNat && cx0 f && off0 f) := fun _ => rfl
@[simp] theorem wf_mark : ∀ f, (Instr.mark f).wf = (cWord f && condIn f [0] && ca0 f && cx0 f) := fun _ => rfl
@[simp] theorem wf_join : ∀ f, (Instr.join f).wf = (cWord f && condIn f [0] && ca0 f && cx0 f && off0 f) := fun _ => rfl
@[simp] theorem wf_call : ∀ f, (Instr.call f).wf = (cWord f && condIn f [0] && decide (f.ca.toNat < 104) && cx0 f) := fun _ => rfl
@[simp] theorem wf_ret : ∀ f, (Instr.ret f).wf = (cWord f && condIn f [0, 1, 2] && cx0 f && off0 f) := fun _ => rfl
@[simp] theorem wf_loop : ∀ f, (Instr.loop f).wf = (cWord f && condIn f [0] && decide (f.ca.toNat < 104) && cx0 f) := fun _ => rfl
@[simp] theorem wf_waitc : ∀ f, (Instr.waitc f).wf = (cWord f && condIn f [0] && decide (f.cx.toNat < 8) && off0 f) := fun _ => rfl
@[simp] theorem wf_yield : ∀ f, (Instr.yield f).wf = (cWord f && condIn f [0] && ca0 f && cx0 f && off0 f) := fun _ => rfl
@[simp] theorem wf_halt : ∀ f, (Instr.halt f).wf = (cWord f && condCa f && cx0 f && off0 f) := fun _ => rfl
@[simp] theorem wf_trap : ∀ f, (Instr.trap f).wf = (cWord f && condCa f && cx0 f && decide (f.off.toNat < 256)) := fun _ => rfl
@[simp] theorem wf_nop : ∀ f, (Instr.nop f).wf = (cWord f && condIn f [0] && ca0 f && cx0 f && off0 f) := fun _ => rfl
@[simp] theorem wf_mask : ∀ f, (Instr.mask f).wf = (cWord f && condIn f [0] && decide (f.cx.toNat < 5) && (!decide (f.cx = 4) || ca0 f) && off0 f) := fun _ => rfl
@[simp] theorem wf_sleep : ∀ f, (Instr.sleep f).wf = (cWord f && condIn f [0] && cx0 f) := fun _ => rfl
@[simp] theorem wf_ldl : ∀ f, (Instr.ldl f).wf = (mVec f false false [0] 0) := fun _ => rfl
@[simp] theorem wf_stl : ∀ f, (Instr.stl f).wf = (mVec f false true [0] 0) := fun _ => rfl
@[simp] theorem wf_lds : ∀ f, (Instr.lds f).wf = (mVec f false false [0, 1] 1) := fun _ => rfl
@[simp] theorem wf_sts : ∀ f, (Instr.sts f).wf = (mVec f false true [0, 2] 1) := fun _ => rfl
@[simp] theorem wf_ldc : ∀ f, (Instr.ldc f).wf = (mVec f false false [0, 1] 2) := fun _ => rfl
@[simp] theorem wf_stc : ∀ f, (Instr.stc f).wf = (mVec f false true [0, 2] 2) := fun _ => rfl
@[simp] theorem wf_ldp : ∀ f, (Instr.ldp f).wf = (mVec f false false [0, 1] 3) := fun _ => rfl
@[simp] theorem wf_stp : ∀ f, (Instr.stp f).wf = (mVec f false true [0, 2] 3) := fun _ => rfl
@[simp] theorem wf_ldg : ∀ f, (Instr.ldg f).wf = (mVec f true false [0, 1, 4] 4) := fun _ => rfl
@[simp] theorem wf_stg : ∀ f, (Instr.stg f).wf = (mVec f true true [0, 2, 4] 4) := fun _ => rfl
@[simp] theorem wf_sld : ∀ f, (Instr.sld f).wf = (mSld f) := fun _ => rfl
@[simp] theorem wf_sst : ∀ f, (Instr.sst f).wf = (mSst f) := fun _ => rfl
@[simp] theorem wf_ldq : ∀ f, (Instr.ldq f).wf = (mLdq f) := fun _ => rfl
@[simp] theorem wf_pfg : ∀ f, (Instr.pfg f).wf = (mAddrOnly f) := fun _ => rfl
@[simp] theorem wf_tld : ∀ f, (Instr.tld f).wf = (mTile f [0, 1]) := fun _ => rfl
@[simp] theorem wf_tst : ∀ f, (Instr.tst f).wf = (mTile f [0, 2]) := fun _ => rfl
@[simp] theorem wf_clean : ∀ f, (Instr.clean f).wf = (mColumn f) := fun _ => rfl
@[simp] theorem wf_inval : ∀ f, (Instr.inval f).wf = (mColumn f) := fun _ => rfl
@[simp] theorem wf_discard : ∀ f, (Instr.discard f).wf = (mAddrOnly f) := fun _ => rfl
@[simp] theorem wf_atom : ∀ f, (Instr.atom f).wf = (mAtom f) := fun _ => rfl
@[simp] theorem wf_acas : ∀ f, (Instr.acas f).wf = (mAcas f) := fun _ => rfl
@[simp] theorem wf_red : ∀ f, (Instr.red f).wf = (mRed f) := fun _ => rfl
@[simp] theorem wf_fence : ∀ f, (Instr.fence f).wf = (mFence f) := fun _ => rfl
@[simp] theorem wf_mfmt : ∀ f, (Instr.mfmt f).wf = (xMfmt f) := fun _ => rfl
@[simp] theorem wf_mzero : ∀ f, (Instr.mzero f).wf = (xWord f 1 && tileOk f && cha0 f && chb0 f && fb0 f && ks0 f && flags0 f && ximm0 f) := fun _ => rfl
@[simp] theorem wf_mma : ∀ f, (Instr.mma f).wf = (xMma f) := fun _ => rfl
@[simp] theorem wf_mmat : ∀ f, (Instr.mmat f).wf = (xMma f) := fun _ => rfl
@[simp] theorem wf_mld : ∀ f, (Instr.mld f).wf = (xMld f) := fun _ => rfl
@[simp] theorem wf_mst : ∀ f, (Instr.mst f).wf = (xMst f) := fun _ => rfl
@[simp] theorem wf_mcvt : ∀ f, (Instr.mcvt f).wf = (xMcvt f) := fun _ => rfl
@[simp] theorem wf_mset : ∀ f, (Instr.mset f).wf = (xWord f 3 && xRegs f && chb0 f && fb0 f) := fun _ => rfl
@[simp] theorem wf_madd : ∀ f, (Instr.madd f).wf = (xWord f 2 && xRegs f && (if f.fn = 0 then fb0 f else ximm0 f)) := fun _ => rfl
@[simp] theorem wf_mloop : ∀ f, (Instr.mloop f).wf = (xWord f 1 && xRegs f && chb0 f && fb0 f) := fun _ => rfl
@[simp] theorem wf_mbr : ∀ f, (Instr.mbr f).wf = (xWord f 3 && xRegs f && chb0 f && fb0 f && (!decide (f.fn = 0) || cha0 f)) := fun _ => rfl
@[simp] theorem wf_marr : ∀ f, (Instr.marr f).wf = (xWord f 1 && xRegs f && cha0 f && chb0 f && fb0 f && decide (f.imm.toNat < 16)) := fun _ => rfl
@[simp] theorem wf_mwait : ∀ f, (Instr.mwait f).wf = (xWord f 1 && xRegs f && cha0 f && chb0 f && fb0 f && decide (f.imm.toNat < 16)) := fun _ => rfl
@[simp] theorem wf_mhalt : ∀ f, (Instr.mhalt f).wf = (xWord f 1 && xRegs f && cha0 f && chb0 f && fb0 f && ximm0 f) := fun _ => rfl
@[simp] theorem wf_chdef : ∀ f, (Instr.chdef f).wf = (la0 f.la && eWord f 1 && ech20 f && eDescPair f && ecnt0 f && eflags f 0 && eimm0 f) := fun _ => rfl
@[simp] theorem wf_chres : ∀ f, (Instr.chres f).wf = (la0 f.la && eWord f 1 && ech20 f && decide (f.desc.toNat < 104) && eflags f 1 && eCount f) := fun _ => rfl
@[simp] theorem wf_chcom : ∀ f, (Instr.chcom f).wf = (la0 f.la && eWord f 1 && ech20 f && eflags f 1 && eCount f) := fun _ => rfl
@[simp] theorem wf_chacq : ∀ f, (Instr.chacq f).wf = (la0 f.la && eWord f 1 && ech20 f && decide (f.desc.toNat < 104) && eflags f 1 && eCount f) := fun _ => rfl
@[simp] theorem wf_chrel : ∀ f, (Instr.chrel f).wf = (la0 f.la && eWord f 1 && ech20 f && eflags f 1 && eCount f) := fun _ => rfl
@[simp] theorem wf_chqry : ∀ f, (Instr.chqry f).wf = (la0 f.la && eWord f 4 && ech20 f && decide (f.desc.toNat < 104) && ecnt0 f && eflags f 0 && eimm0 f) := fun _ => rfl
@[simp] theorem wf_cpyin : ∀ f, (Instr.cpyin f).wf = (eWord f 1 && ech20 f && eDescPair f && eflags f 3 && eCount f) := fun _ => rfl
@[simp] theorem wf_cpyout : ∀ f, (Instr.cpyout f).wf = (eWord f 1 && ech20 f && eDescPair f && eflags f 1 && eCount f) := fun _ => rfl
@[simp] theorem wf_cpyg : ∀ f, (Instr.cpyg f).wf = (eWord f 1 && ech0 f && ech20 f && eDescPair f && ecnt0 f && eflags f 0 && eimm0 f) := fun _ => rfl
@[simp] theorem wf_idxwalk : ∀ f, (Instr.idxwalk f).wf = (eWord f 1 && ech20 f && eDescPair f && ecnt0 f && eflags f 0 && eimm0 f) := fun _ => rfl
@[simp] theorem wf_gather : ∀ f, (Instr.gather f).wf = (eWord f 1 && eDescPair f && eflags f 13 && eCount f) := fun _ => rfl
@[simp] theorem wf_publish : ∀ f, (Instr.publish f).wf = (eWord f 1 && ech0 f && ech20 f && eDescPair f && ecnt0 f && eflags f 0 && eimm0 f) := fun _ => rfl
@[simp] theorem wf_ecplDep : ∀ f, (Instr.ecplDep f).wf = (la0 f.la && decide (f.fn = 0) && ech0 f && ech20 f && eDescPair f && even f.cnt.toNat && eflags f 16 && eimm0 f) := fun _ => rfl
@[simp] theorem wf_ecplArr : ∀ f, (Instr.ecplArr f).wf = (la0 f.la && decide (f.fn = 1) && ech0 f && ech20 f && edesc0 f && ecnt0 f && eflags f 16 && eimm0 f) := fun _ => rfl
@[simp] theorem wf_sqpush : ∀ f, (Instr.sqpush f).wf = (la0 f.la && qWord f && decide (f.id.toNat < 8) && decide (f.lvl = 0) && qRegs0 f) := fun _ => rfl
@[simp] theorem wf_sqpop : ∀ f, (Instr.sqpop f).wf = (la0 f.la && qWord f && decide (f.id.toNat < 8) && decide (f.lvl = 0) && qRegs0 f) := fun _ => rfl
@[simp] theorem wf_barr : ∀ f, (Instr.barr f).wf = (qBarrier f) := fun _ => rfl
@[simp] theorem wf_barw : ∀ f, (Instr.barw f).wf = (qBarrier f) := fun _ => rfl
@[simp] theorem wf_barrw : ∀ f, (Instr.barrw f).wf = (qBarrier f) := fun _ => rfl
@[simp] theorem wf_phbeg : ∀ f, (Instr.phbeg f).wf = (la0 f.la && qWord f && decide (f.qd = 0) && decide (f.id = 0) && decide (f.lvl.toNat < 3) && decide (f.sb = 0) && decide (f.imm = 0)) := fun _ => rfl
@[simp] theorem wf_phwait : ∀ f, (Instr.phwait f).wf = (la0 f.la && qWord f && decide (f.qd = 0) && decide (f.id = 0) && decide (f.lvl = 0) && qRegs0 f) := fun _ => rfl
@[simp] theorem wf_launch : ∀ f, (Instr.launch f).wf = (qWord f && decide (f.qd.toNat < 104) && decide (f.id = 0) && decide (f.lvl = 0) && decide (f.sb = 0) && even f.sa.toNat && decide (f.imm.toNat < 64)) := fun _ => rfl
@[simp] theorem wf_rsub : ∀ f, (Instr.rsub f).wf = (qWord f && decide (f.qd = 0) && decide (f.id = 0) && decide (f.lvl = 0) && decide (f.sb = 0) && even f.sa.toNat && decide (f.imm.toNat < 16)) := fun _ => rfl
@[simp] theorem wf_tsdep : ∀ f, (Instr.tsdep f).wf = (tWord f && decide (f.imm = 0)) := fun _ => rfl
@[simp] theorem wf_tscpy : ∀ f, (Instr.tscpy f).wf = (tWord f && la0 f.la) := fun _ => rfl
@[simp] theorem wf_tstake : ∀ f, (Instr.tstake f).wf = (tWord f && la0 f.la) := fun _ => rfl
@[simp] theorem wf_tscpyn : ∀ f, (Instr.tscpyn f).wf = (tWord f && decide (f.imm = 0)) := fun _ => rfl
@[simp] theorem wf_tstaken : ∀ f, (Instr.tstaken f).wf = (tWord f && decide (f.imm = 0)) := fun _ => rfl
@[simp] theorem wf_tscan : ∀ f, (Instr.tscan f).wf = (tWord f && la0 f.la && decide (f.space = 0) && decide (f.imm = 0)) := fun _ => rfl
@[simp] theorem wf_gtcfgSend : ∀ f, (Instr.gtcfgSend f).wf = (gWord f 0 && gTile f && gRows0 f && decide (f.mreg.toNat < 15) && gImm0 f) := fun _ => rfl
@[simp] theorem wf_gtcfgDest : ∀ f, (Instr.gtcfgDest f).wf = (gWord f 1 && gTile f && gRows0 f && gM0 f && decide (f.imm.toNat < 2)) := fun _ => rfl
@[simp] theorem wf_gtrsv : ∀ f, (Instr.gtrsv f).wf = (gWord f 0 && gTile0 f && gRows f && gImm0 f) := fun _ => rfl
@[simp] theorem wf_gtsend : ∀ f, (Instr.gtsend f).wf = (gWord f 0 && gTile f && gRows f && gM0 f && gImm0 f) := fun _ => rfl
@[simp] theorem wf_gtdrain : ∀ f, (Instr.gtdrain f).wf = (gWord f 0 && gTile0 f && gRows0 f && gM0 f && gImm0 f) := fun _ => rfl
@[simp] theorem wf_gtdrainPhase : ∀ f, (Instr.gtdrainPhase f).wf = (gWord f 1 && decide (f.chain = 0) && gTile0 f && gRows0 f && gM0 f && gImm0 f) := fun _ => rfl
@[simp] theorem wf_gtrel : ∀ f, (Instr.gtrel f).wf = (gWord f 0 && gTile0 f && gRows0 f && gM0 f && gImm0 f) := fun _ => rfl
@[simp] theorem wf_rbox : ∀ f, (Instr.rbox f).wf = (gfx f 1 && even f.vb.toNat && gfxSa0 f && gfxIdx0 f && gfxImm0 f) := fun _ => rfl
@[simp] theorem wf_rtri : ∀ f, (Instr.rtri f).wf = (gfx f 3 && even f.vb.toNat && gfxSa0 f && gfxIdx0 f && gfxImm0 f) := fun _ => rfl
@[simp] theorem wf_rpush : ∀ f, (Instr.rpush f).wf = (gfx f 1 && even f.va.toNat && gfxIdx0 f && gfxImm0 f) := fun _ => rfl
@[simp] theorem wf_rpop : ∀ f, (Instr.rpop f).wf = (gfx f 1 && even f.vd.toNat && gfxVb0 f && gfxIdx0 f && gfxImm0 f) := fun _ => rfl
@[simp] theorem wf_rhit : ∀ f, (Instr.rhit f).wf = (gfx f 1 && even f.vb.toNat && gfxSa0 f && gfxIdx0 f && gfxImm0 f) := fun _ => rfl
@[simp] theorem wf_afetch : ∀ f, (Instr.afetch f).wf = (gfx f 3 && even f.va.toNat && gfxVb0 f && even f.sa.toNat && decide (f.idx.toNat < 8) && decide (f.imm.toNat < 16)) := fun _ => rfl
@[simp] theorem wf_abary : ∀ f, (Instr.abary f).wf = (gfx f 2 && gfxSa0 f && gfxIdx0 f && gfxImm0 f) := fun _ => rfl
@[simp] theorem wf_ainterp : ∀ f, (Instr.ainterp f).wf = (gfx f 2 && gfxSa0 f && gfxIdx0 f && decide (f.imm.toNat < 16)) := fun _ => rfl
@[simp] theorem wf_visld : ∀ f, (Instr.visld f).wf = (gfx f 1 && gfxVb0 f && gfxIdx0 f && gfxImm0 f) := fun _ => rfl
@[simp] theorem wf_smpl : ∀ f, (Instr.smpl f).wf = (gfx f 1 && gfxVb0 f && even f.sa.toNat && gfxImm0 f) := fun _ => rfl
@[simp] theorem wf_smpll : ∀ f, (Instr.smpll f).wf = (gfx f 1 && gfxVb0 f && even f.sa.toNat && gfxImm0 f) := fun _ => rfl
@[simp] theorem wf_pxout : ∀ f, (Instr.pxout f).wf = (gfx f 1 && even f.sa.toNat && gfxImm0 f) := fun _ => rfl
@[simp] theorem wf_tret : ∀ f, (Instr.tret f).wf = (la0 f.la && gfx f 1 && decide (f.vd = 0) && decide (f.va = 0) && gfxVb0 f && gfxSa0 f && gfxIdx0 f && gfxImm0 f) := fun _ => rfl
@[simp] theorem wf_srd : ∀ f, (Instr.srd f).wf = (yWord f && decide (f.sa = 0) && decide (f.imm = 0)) := fun _ => rfl
@[simp] theorem wf_swr : ∀ f, (Instr.swr f).wf = (yWord f && decide (f.sd = 0) && decide (f.imm = 0)) := fun _ => rfl
@[simp] theorem wf_eret : ∀ f, (Instr.eret f).wf = (yWord f && decide (f.sd = 0) && decide (f.sa = 0) && decide (f.sreg = 0) && decide (f.imm = 0)) := fun _ => rfl
@[simp] theorem wf_brk : ∀ f, (Instr.brk f).wf = (yWord f && decide (f.sd = 0) && decide (f.sa = 0) && decide (f.sreg = 0) && decide (f.imm.toNat < 256)) := fun _ => rfl
@[simp] theorem wf_cntrd : ∀ f, (Instr.cntrd f).wf = (yWord f && decide (f.sreg = 0) && even f.sd.toNat && decide (f.sd.toNat ≤ 102) && counterListed f.imm.toNat) := fun _ => rfl
@[simp] theorem wf_cntcfg : ∀ f, (Instr.cntcfg f).wf = (yWord f && decide (f.sreg = 0) && decide (f.sd = 0) && decide (f.imm.toNat < 8)) := fun _ => rfl
@[simp] theorem wf_time : ∀ f, (Instr.time f).wf = (yWord f && decide (f.sreg = 0) && decide (f.sa = 0) && decide (f.imm = 0) && even f.sd.toNat && decide (f.sd.toNat ≤ 102)) := fun _ => rfl
@[simp] theorem wf_isync : ∀ f, (Instr.isync f).wf = (yWord f && decide (f.sd = 0) && decide (f.sa = 0) && decide (f.sreg = 0) && decide (f.imm = 0)) := fun _ => rfl

end Sys2Proof.Machine
end

