-- ==== Sys2Proof/Laws/Memory.lean ====
section
/-! SUPPORT. Tables and byte memories: what a read gives after each operation, and that every operation keeps the canonical form. -/

namespace Sys2Proof.Machine

/-! ### Tables -/

@[simp] theorem Tbl.get?_nil {α : Type} (n : Nat) : Tbl.get? ([] : Tbl α) n = none := rfl

theorem Tbl.get?_set {α : Type} (t : Tbl α) (n m : Nat) (x : α) :
    Tbl.get? (Tbl.set t n x) m = if m = n then some x else Tbl.get? t m := by
  induction t with
  | nil => simp [Tbl.set, Tbl.get?]
  | cons h r ih =>
    obtain ⟨k, v⟩ := h
    unfold Tbl.set
    split
    · subst_vars; simp only [Tbl.get?]; split <;> rfl
    · split
      · simp only [Tbl.get?]
      · simp only [Tbl.get?, ih]
        split
        · split <;> simp_all
        · rfl

@[simp] theorem Tbl.get?_set_self {α : Type} (t : Tbl α) (n : Nat) (x : α) : Tbl.get? (Tbl.set t n x) n = some x := by
  simp [Tbl.get?_set]
theorem Tbl.get?_set_ne {α : Type} (t : Tbl α) {n m : Nat} (x : α) (h : m ≠ n) : Tbl.get? (Tbl.set t n x) m = Tbl.get? t m := by
  simp [Tbl.get?_set, h]

theorem Tbl.get?_del {α : Type} (t : Tbl α) (n m : Nat) :
    Tbl.get? (Tbl.del t n) m = if m = n then none else Tbl.get? t m := by
  induction t with
  | nil => simp [Tbl.del, Tbl.get?]
  | cons h r ih =>
    obtain ⟨k, v⟩ := h
    by_cases hk : k = n
    · subst hk
      have : Tbl.del ((k, v) :: r) k = Tbl.del r k := by simp [Tbl.del]
      rw [this, ih]
      by_cases hm : m = k
      · simp [hm]
      · simp [hm, Tbl.get?]
    · have : Tbl.del ((k, v) :: r) n = (k, v) :: Tbl.del r n := by simp [Tbl.del, hk]
      rw [this]; simp only [Tbl.get?, ih]
      by_cases hm : m = k
      · subst hm; simp [hk]
      · simp [hm]

theorem Tbl.getD_put {α : Type} [DecidableEq α] (t : Tbl α) (n m : Nat) (d x : α) :
    Tbl.getD (Tbl.put t n d x) m d = if m = n then x else Tbl.getD t m d := by
  unfold Tbl.put Tbl.getD
  split
  · rw [Tbl.get?_del]; split <;> simp_all
  · rw [Tbl.get?_set]; split <;> simp_all
@[simp] theorem Tbl.getD_put_self {α : Type} [DecidableEq α] (t : Tbl α) (n : Nat) (d x : α) :
    Tbl.getD (Tbl.put t n d x) n d = x := by simp [Tbl.getD_put]

/-! ### Rising keys -/

/-- Every key of the table lies above `n`. -/
def Tbl.above {α : Type} (n : Nat) (t : Tbl α) : Prop := ∀ r ∈ t, n < r.1

theorem Tbl.wf_cons {α : Type} (k : Nat) (v : α) (t : Tbl α) : Tbl.wf ((k, v) :: t) = true ↔ Tbl.above k t ∧ Tbl.wf t = true := by
  induction t generalizing k v with
  | nil => simp [Tbl.wf, Tbl.above]
  | cons h r ih =>
    obtain ⟨b, y⟩ := h
    simp only [Tbl.wf, Bool.and_eq_true, decide_eq_true_eq, Tbl.above, List.mem_cons, forall_eq_or_imp]
    constructor
    · rintro ⟨hab, hw⟩
      exact ⟨⟨hab, fun q hq => lt_trans hab (((ih b y).1 hw).1 q hq)⟩, hw⟩
    · rintro ⟨⟨hab, _⟩, hw⟩; exact ⟨hab, hw⟩

theorem Tbl.wf_pairwise {α : Type} (t : Tbl α) : Tbl.wf t = true ↔ t.Pairwise (fun a b => a.1 < b.1) := by
  induction t with
  | nil => simp [Tbl.wf]
  | cons h r ih => obtain ⟨k, v⟩ := h; rw [Tbl.wf_cons, ih, List.pairwise_cons]; rfl

theorem Tbl.mem_set {α : Type} {t : Tbl α} {n : Nat} {x : α} {r : Nat × α} (h : r ∈ Tbl.set t n x) : r = (n, x) ∨ r ∈ t := by
  induction t with
  | nil => simp [Tbl.set] at h; exact .inl h
  | cons a t ih =>
    obtain ⟨k, v⟩ := a
    unfold Tbl.set at h
    split at h
    · subst_vars; simp at h; rcases h with h | h <;> simp [h]
    · split at h
      · simp at h; rcases h with h | h | h <;> simp [h]
      · rw [List.mem_cons] at h
        rcases h with h | h
        · simp [h]
        · rcases ih h with h | h <;> simp [h]

theorem Tbl.wf_set {α : Type} (t : Tbl α) (n : Nat) (x : α) (h : Tbl.wf t = true) : Tbl.wf (Tbl.set t n x) = true := by
  induction t with
  | nil => simp [Tbl.set, Tbl.wf]
  | cons a t ih =>
    obtain ⟨k, v⟩ := a
    rw [Tbl.wf_cons] at h
    unfold Tbl.set
    split
    · rw [Tbl.wf_cons]; exact h
    · split
      · rw [Tbl.wf_cons, Tbl.wf_cons]
        refine ⟨?_, h⟩
        intro r hr; rw [List.mem_cons] at hr
        rcases hr with rfl | hr
        · assumption
        · exact lt_trans ‹_› (h.1 r hr)
      · rw [Tbl.wf_cons]
        refine ⟨?_, ih h.2⟩
        intro r hr
        rcases Tbl.mem_set hr with rfl | hr
        · show k < n; omega
        · exact h.1 r hr

theorem Tbl.wf_filter {α : Type} (t : Tbl α) (p : Nat × α → Bool) (h : Tbl.wf t = true) : Tbl.wf (List.filter p t) = true := by
  rw [Tbl.wf_pairwise] at h ⊢; exact h.filter p
theorem Tbl.wf_del {α : Type} (t : Tbl α) (n : Nat) (h : Tbl.wf t = true) : Tbl.wf (Tbl.del t n) = true := Tbl.wf_filter t _ h
theorem Tbl.wf_put {α : Type} [DecidableEq α] (t : Tbl α) (n : Nat) (d x : α) (h : Tbl.wf t = true) :
    Tbl.wf (Tbl.put t n d x) = true := by
  unfold Tbl.put; split
  · exact Tbl.wf_del t n h
  · exact Tbl.wf_set t n x h

/-! ### Byte memories -/

@[simp] theorem Mem.read_nil (a : Nat) : Mem.read [] a = 0 := rfl
theorem Mem.read_write (m : Mem) (a b : Nat) (x : Byte) : Mem.read (Mem.write m a x) b = if b = a then x else Mem.read m b :=
  Tbl.getD_put m a b 0 x
@[simp] theorem Mem.read_write_self (m : Mem) (a : Nat) (x : Byte) : Mem.read (Mem.write m a x) a = x := by
  simp [Mem.read_write]
theorem Mem.read_write_ne (m : Mem) {a b : Nat} (x : Byte) (h : b ≠ a) : Mem.read (Mem.write m a x) b = Mem.read m b := by
  simp [Mem.read_write, h]

/-- A read outside the bytes a wide write stores to gives what it gave. -/
theorem Mem.read_writeN_outside (n : Nat) (m : Mem) (a b x : Nat) (h : b < a ∨ a + n ≤ b) :
    Mem.read (Mem.writeN m a n x) b = Mem.read m b := by
  induction n generalizing m a x with
  | zero => rfl
  | succ n ih =>
    rw [Mem.writeN, ih _ _ _ (by omega), Mem.read_write_ne _ _ (by omega)]

/-- A wide read after a wide write to the same place gives the value written. -/
theorem Mem.readN_writeN (n : Nat) (m : Mem) (a x : Nat) : Mem.readN (Mem.writeN m a n x) a n = x % 256 ^ n := by
  induction n generalizing m a x with
  | zero => simp [Mem.readN, Nat.mod_one]
  | succ n ih =>
    rw [Mem.readN, Mem.writeN, ih, Mem.read_writeN_outside n _ _ _ _ (by omega), Mem.read_write_self, Nat.pow_succ',
      Nat.mod_mul]
    simp

theorem Memory.wf_iff (m : Mem) : Memory.wf m = true ↔ Tbl.wf m = true ∧ ∀ c ∈ m, c.2 ≠ 0 := by
  simp [Memory.wf]

@[simp] theorem Memory.wf_nil : Memory.wf [] = true := rfl
theorem Mem.wf_filter (m : Mem) (p : Host.Cell → Bool) (h : Memory.wf m = true) : Memory.wf (List.filter p m) = true := by
  rw [Memory.wf_iff] at h ⊢
  exact ⟨Tbl.wf_filter m p h.1, fun c hc => h.2 c (List.mem_filter.1 hc).1⟩
theorem Mem.wf_write (m : Mem) (a : Nat) (b : Byte) (h : Memory.wf m = true) : Memory.wf (Mem.write m a b) = true := by
  unfold Mem.write Tbl.put
  split
  · exact Mem.wf_filter m _ h
  · rw [Memory.wf_iff] at h ⊢
    refine ⟨Tbl.wf_set m a b h.1, fun c hc => ?_⟩
    rcases Tbl.mem_set hc with rfl | hc
    · assumption
    · exact h.2 c hc
theorem Mem.wf_writeN (n : Nat) (m : Mem) (a x : Nat) (h : Memory.wf m = true) : Memory.wf (Mem.writeN m a n x) = true := by
  induction n generalizing m a x with
  | zero => exact h
  | succ n ih => exact ih _ _ _ (Mem.wf_write m a _ h)
theorem Mem.wf_clear (m : Mem) (a n : Nat) (h : Memory.wf m = true) : Memory.wf (Mem.clear m a n) = true := Mem.wf_filter m _ h
theorem Mem.wf_overlay (m src : Mem) (h : Memory.wf m = true) : Memory.wf (Mem.overlay m src) = true := by
  unfold Mem.overlay
  induction src generalizing m with
  | nil => exact h
  | cons c r ih => exact ih _ (Mem.wf_write m c.1 c.2 h)

/-- A read outside the cells of an overlay gives what it gave. -/
theorem Mem.read_overlay_outside (m src : Mem) (b : Nat) (h : ∀ c ∈ src, c.1 ≠ b) :
    Mem.read (Mem.overlay m src) b = Mem.read m b := by
  unfold Mem.overlay
  induction src generalizing m with
  | nil => rfl
  | cons c r ih =>
    rw [List.foldl_cons, ih _ (fun x hx => h x (List.mem_cons_of_mem _ hx)),
      Mem.read_write_ne _ _ (fun e => h c List.mem_cons_self e.symm)]

end Sys2Proof.Machine
end

