-- ==== Sys2Proof/Laws/State.lean ====
section
/-! SUPPORT. What each update of a table or register of the state leaves alone, field by field, and what a lookup gives after it. -/

namespace Sys2Proof.Machine

/-! ### setWave -/

@[simp] theorem State.setWave_ck (s : State) (c k : Nat) (w : Wave) : (s.setWave c k w).ck = s.ck := rfl
@[simp] theorem State.setWave_time (s : State) (c k : Nat) (w : Wave) : (s.setWave c k w).time = s.time := rfl
@[simp] theorem State.setWave_stretch (s : State) (c k : Nat) (w : Wave) : (s.setWave c k w).stretch = s.stretch := rfl
@[simp] theorem State.setWave_window (s : State) (c k : Nat) (w : Wave) : (s.setWave c k w).window = s.window := rfl
@[simp] theorem State.setWave_ctxStart (s : State) (c k : Nat) (w : Wave) : (s.setWave c k w).ctxStart = s.ctxStart := rfl
@[simp] theorem State.setWave_expired (s : State) (c k : Nat) (w : Wave) : (s.setWave c k w).expired = s.expired := rfl
@[simp] theorem State.setWave_fresh (s : State) (c k : Nat) (w : Wave) : (s.setWave c k w).fresh = s.fresh := rfl
@[simp] theorem State.setWave_nextId (s : State) (c k : Nat) (w : Wave) : (s.setWave c k w).nextId = s.nextId := rfl
@[simp] theorem State.setWave_agenda (s : State) (c k : Nat) (w : Wave) : (s.setWave c k w).agenda = s.agenda := rfl
@[simp] theorem State.setWave_cur (s : State) (c k : Nat) (w : Wave) : (s.setWave c k w).cur = s.cur := rfl
@[simp] theorem State.setWave_streams (s : State) (c k : Nat) (w : Wave) : (s.setWave c k w).streams = s.streams := rfl
@[simp] theorem State.setWave_teams (s : State) (c k : Nat) (w : Wave) : (s.setWave c k w).teams = s.teams := rfl
@[simp] theorem State.setWave_groups (s : State) (c k : Nat) (w : Wave) : (s.setWave c k w).groups = s.groups := rfl
@[simp] theorem State.setWave_launches (s : State) (c k : Nat) (w : Wave) : (s.setWave c k w).launches = s.launches := rfl
@[simp] theorem State.setWave_lqs (s : State) (c k : Nat) (w : Wave) : (s.setWave c k w).lqs = s.lqs := rfl
@[simp] theorem State.setWave_cmds (s : State) (c k : Nat) (w : Wave) : (s.setWave c k w).cmds = s.cmds := rfl
@[simp] theorem State.setWave_treqs (s : State) (c k : Nat) (w : Wave) : (s.setWave c k w).treqs = s.treqs := rfl
@[simp] theorem State.setWave_flits (s : State) (c k : Nat) (w : Wave) : (s.setWave c k w).flits = s.flits := rfl
@[simp] theorem State.setWave_cores (s : State) (c k : Nat) (w : Wave) : (s.setWave c k w).cores = s.cores := rfl
@[simp] theorem State.setWave_clusters (s : State) (c k : Nat) (w : Wave) : (s.setWave c k w).clusters = s.clusters := rfl
@[simp] theorem State.setWave_slices (s : State) (c k : Nat) (w : Wave) : (s.setWave c k w).slices = s.slices := rfl
@[simp] theorem State.setWave_dies (s : State) (c k : Nat) (w : Wave) : (s.setWave c k w).dies = s.dies := rfl
@[simp] theorem State.setWave_tiles (s : State) (c k : Nat) (w : Wave) : (s.setWave c k w).tiles = s.tiles := rfl
@[simp] theorem State.setWave_pix (s : State) (c k : Nat) (w : Wave) : (s.setWave c k w).pix = s.pix := rfl
@[simp] theorem State.setWave_buffers (s : State) (c k : Nat) (w : Wave) : (s.setWave c k w).buffers = s.buffers := rfl
@[simp] theorem State.setWave_materials (s : State) (c k : Nat) (w : Wave) : (s.setWave c k w).materials = s.materials := rfl
@[simp] theorem State.setWave_counters (s : State) (c k : Nat) (w : Wave) : (s.setWave c k w).counters = s.counters := rfl
@[simp] theorem State.setWave_mem (s : State) (c k : Nat) (w : Wave) : (s.setWave c k w).mem = s.mem := rfl
@[simp] theorem State.setWave_win (s : State) (c k : Nat) (w : Wave) : (s.setWave c k w).win = s.win := rfl
@[simp] theorem State.setWave_fred (s : State) (c k : Nat) (w : Wave) : (s.setWave c k w).fred = s.fred := rfl
@[simp] theorem State.setWave_vac (s : State) (c k : Nat) (w : Wave) : (s.setWave c k w).vac = s.vac := rfl
@[simp] theorem State.setWave_saved (s : State) (c k : Nat) (w : Wave) : (s.setWave c k w).saved = s.saved := rfl
@[simp] theorem State.setWave_refused (s : State) (c k : Nat) (w : Wave) : (s.setWave c k w).refused = s.refused := rfl
@[simp] theorem State.setWave_walked (s : State) (c k : Nat) (w : Wave) : (s.setWave c k w).walked = s.walked := rfl
@[simp] theorem State.setWave_lack (s : State) (c k : Nat) (w : Wave) : (s.setWave c k w).lack = s.lack := rfl

/-! ### updWave -/

@[simp] theorem State.updWave_ck (s : State) (c k : Nat) (f : Wave → Wave) : (s.updWave c k f).ck = s.ck := rfl
@[simp] theorem State.updWave_time (s : State) (c k : Nat) (f : Wave → Wave) : (s.updWave c k f).time = s.time := rfl
@[simp] theorem State.updWave_stretch (s : State) (c k : Nat) (f : Wave → Wave) : (s.updWave c k f).stretch = s.stretch := rfl
@[simp] theorem State.updWave_window (s : State) (c k : Nat) (f : Wave → Wave) : (s.updWave c k f).window = s.window := rfl
@[simp] theorem State.updWave_ctxStart (s : State) (c k : Nat) (f : Wave → Wave) : (s.updWave c k f).ctxStart = s.ctxStart := rfl
@[simp] theorem State.updWave_expired (s : State) (c k : Nat) (f : Wave → Wave) : (s.updWave c k f).expired = s.expired := rfl
@[simp] theorem State.updWave_fresh (s : State) (c k : Nat) (f : Wave → Wave) : (s.updWave c k f).fresh = s.fresh := rfl
@[simp] theorem State.updWave_nextId (s : State) (c k : Nat) (f : Wave → Wave) : (s.updWave c k f).nextId = s.nextId := rfl
@[simp] theorem State.updWave_agenda (s : State) (c k : Nat) (f : Wave → Wave) : (s.updWave c k f).agenda = s.agenda := rfl
@[simp] theorem State.updWave_cur (s : State) (c k : Nat) (f : Wave → Wave) : (s.updWave c k f).cur = s.cur := rfl
@[simp] theorem State.updWave_streams (s : State) (c k : Nat) (f : Wave → Wave) : (s.updWave c k f).streams = s.streams := rfl
@[simp] theorem State.updWave_teams (s : State) (c k : Nat) (f : Wave → Wave) : (s.updWave c k f).teams = s.teams := rfl
@[simp] theorem State.updWave_groups (s : State) (c k : Nat) (f : Wave → Wave) : (s.updWave c k f).groups = s.groups := rfl
@[simp] theorem State.updWave_launches (s : State) (c k : Nat) (f : Wave → Wave) : (s.updWave c k f).launches = s.launches := rfl
@[simp] theorem State.updWave_lqs (s : State) (c k : Nat) (f : Wave → Wave) : (s.updWave c k f).lqs = s.lqs := rfl
@[simp] theorem State.updWave_cmds (s : State) (c k : Nat) (f : Wave → Wave) : (s.updWave c k f).cmds = s.cmds := rfl
@[simp] theorem State.updWave_treqs (s : State) (c k : Nat) (f : Wave → Wave) : (s.updWave c k f).treqs = s.treqs := rfl
@[simp] theorem State.updWave_flits (s : State) (c k : Nat) (f : Wave → Wave) : (s.updWave c k f).flits = s.flits := rfl
@[simp] theorem State.updWave_cores (s : State) (c k : Nat) (f : Wave → Wave) : (s.updWave c k f).cores = s.cores := rfl
@[simp] theorem State.updWave_clusters (s : State) (c k : Nat) (f : Wave → Wave) : (s.updWave c k f).clusters = s.clusters := rfl
@[simp] theorem State.updWave_slices (s : State) (c k : Nat) (f : Wave → Wave) : (s.updWave c k f).slices = s.slices := rfl
@[simp] theorem State.updWave_dies (s : State) (c k : Nat) (f : Wave → Wave) : (s.updWave c k f).dies = s.dies := rfl
@[simp] theorem State.updWave_tiles (s : State) (c k : Nat) (f : Wave → Wave) : (s.updWave c k f).tiles = s.tiles := rfl
@[simp] theorem State.updWave_pix (s : State) (c k : Nat) (f : Wave → Wave) : (s.updWave c k f).pix = s.pix := rfl
@[simp] theorem State.updWave_buffers (s : State) (c k : Nat) (f : Wave → Wave) : (s.updWave c k f).buffers = s.buffers := rfl
@[simp] theorem State.updWave_materials (s : State) (c k : Nat) (f : Wave → Wave) : (s.updWave c k f).materials = s.materials := rfl
@[simp] theorem State.updWave_counters (s : State) (c k : Nat) (f : Wave → Wave) : (s.updWave c k f).counters = s.counters := rfl
@[simp] theorem State.updWave_mem (s : State) (c k : Nat) (f : Wave → Wave) : (s.updWave c k f).mem = s.mem := rfl
@[simp] theorem State.updWave_win (s : State) (c k : Nat) (f : Wave → Wave) : (s.updWave c k f).win = s.win := rfl
@[simp] theorem State.updWave_fred (s : State) (c k : Nat) (f : Wave → Wave) : (s.updWave c k f).fred = s.fred := rfl
@[simp] theorem State.updWave_vac (s : State) (c k : Nat) (f : Wave → Wave) : (s.updWave c k f).vac = s.vac := rfl
@[simp] theorem State.updWave_saved (s : State) (c k : Nat) (f : Wave → Wave) : (s.updWave c k f).saved = s.saved := rfl
@[simp] theorem State.updWave_refused (s : State) (c k : Nat) (f : Wave → Wave) : (s.updWave c k f).refused = s.refused := rfl
@[simp] theorem State.updWave_walked (s : State) (c k : Nat) (f : Wave → Wave) : (s.updWave c k f).walked = s.walked := rfl
@[simp] theorem State.updWave_lack (s : State) (c k : Nat) (f : Wave → Wave) : (s.updWave c k f).lack = s.lack := rfl

/-! ### setStream -/

@[simp] theorem State.setStream_ck (s : State) (c : Nat) (m : Stream) : (s.setStream c m).ck = s.ck := rfl
@[simp] theorem State.setStream_time (s : State) (c : Nat) (m : Stream) : (s.setStream c m).time = s.time := rfl
@[simp] theorem State.setStream_stretch (s : State) (c : Nat) (m : Stream) : (s.setStream c m).stretch = s.stretch := rfl
@[simp] theorem State.setStream_window (s : State) (c : Nat) (m : Stream) : (s.setStream c m).window = s.window := rfl
@[simp] theorem State.setStream_ctxStart (s : State) (c : Nat) (m : Stream) : (s.setStream c m).ctxStart = s.ctxStart := rfl
@[simp] theorem State.setStream_expired (s : State) (c : Nat) (m : Stream) : (s.setStream c m).expired = s.expired := rfl
@[simp] theorem State.setStream_fresh (s : State) (c : Nat) (m : Stream) : (s.setStream c m).fresh = s.fresh := rfl
@[simp] theorem State.setStream_nextId (s : State) (c : Nat) (m : Stream) : (s.setStream c m).nextId = s.nextId := rfl
@[simp] theorem State.setStream_agenda (s : State) (c : Nat) (m : Stream) : (s.setStream c m).agenda = s.agenda := rfl
@[simp] theorem State.setStream_cur (s : State) (c : Nat) (m : Stream) : (s.setStream c m).cur = s.cur := rfl
@[simp] theorem State.setStream_waves (s : State) (c : Nat) (m : Stream) : (s.setStream c m).waves = s.waves := rfl
@[simp] theorem State.setStream_teams (s : State) (c : Nat) (m : Stream) : (s.setStream c m).teams = s.teams := rfl
@[simp] theorem State.setStream_groups (s : State) (c : Nat) (m : Stream) : (s.setStream c m).groups = s.groups := rfl
@[simp] theorem State.setStream_launches (s : State) (c : Nat) (m : Stream) : (s.setStream c m).launches = s.launches := rfl
@[simp] theorem State.setStream_lqs (s : State) (c : Nat) (m : Stream) : (s.setStream c m).lqs = s.lqs := rfl
@[simp] theorem State.setStream_cmds (s : State) (c : Nat) (m : Stream) : (s.setStream c m).cmds = s.cmds := rfl
@[simp] theorem State.setStream_treqs (s : State) (c : Nat) (m : Stream) : (s.setStream c m).treqs = s.treqs := rfl
@[simp] theorem State.setStream_flits (s : State) (c : Nat) (m : Stream) : (s.setStream c m).flits = s.flits := rfl
@[simp] theorem State.setStream_cores (s : State) (c : Nat) (m : Stream) : (s.setStream c m).cores = s.cores := rfl
@[simp] theorem State.setStream_clusters (s : State) (c : Nat) (m : Stream) : (s.setStream c m).clusters = s.clusters := rfl
@[simp] theorem State.setStream_slices (s : State) (c : Nat) (m : Stream) : (s.setStream c m).slices = s.slices := rfl
@[simp] theorem State.setStream_dies (s : State) (c : Nat) (m : Stream) : (s.setStream c m).dies = s.dies := rfl
@[simp] theorem State.setStream_tiles (s : State) (c : Nat) (m : Stream) : (s.setStream c m).tiles = s.tiles := rfl
@[simp] theorem State.setStream_pix (s : State) (c : Nat) (m : Stream) : (s.setStream c m).pix = s.pix := rfl
@[simp] theorem State.setStream_buffers (s : State) (c : Nat) (m : Stream) : (s.setStream c m).buffers = s.buffers := rfl
@[simp] theorem State.setStream_materials (s : State) (c : Nat) (m : Stream) : (s.setStream c m).materials = s.materials := rfl
@[simp] theorem State.setStream_counters (s : State) (c : Nat) (m : Stream) : (s.setStream c m).counters = s.counters := rfl
@[simp] theorem State.setStream_mem (s : State) (c : Nat) (m : Stream) : (s.setStream c m).mem = s.mem := rfl
@[simp] theorem State.setStream_win (s : State) (c : Nat) (m : Stream) : (s.setStream c m).win = s.win := rfl
@[simp] theorem State.setStream_fred (s : State) (c : Nat) (m : Stream) : (s.setStream c m).fred = s.fred := rfl
@[simp] theorem State.setStream_vac (s : State) (c : Nat) (m : Stream) : (s.setStream c m).vac = s.vac := rfl
@[simp] theorem State.setStream_saved (s : State) (c : Nat) (m : Stream) : (s.setStream c m).saved = s.saved := rfl
@[simp] theorem State.setStream_refused (s : State) (c : Nat) (m : Stream) : (s.setStream c m).refused = s.refused := rfl
@[simp] theorem State.setStream_walked (s : State) (c : Nat) (m : Stream) : (s.setStream c m).walked = s.walked := rfl
@[simp] theorem State.setStream_lack (s : State) (c : Nat) (m : Stream) : (s.setStream c m).lack = s.lack := rfl

/-! ### updStream -/

@[simp] theorem State.updStream_ck (s : State) (c : Nat) (f : Stream → Stream) : (s.updStream c f).ck = s.ck := rfl
@[simp] theorem State.updStream_time (s : State) (c : Nat) (f : Stream → Stream) : (s.updStream c f).time = s.time := rfl
@[simp] theorem State.updStream_stretch (s : State) (c : Nat) (f : Stream → Stream) : (s.updStream c f).stretch = s.stretch := rfl
@[simp] theorem State.updStream_window (s : State) (c : Nat) (f : Stream → Stream) : (s.updStream c f).window = s.window := rfl
@[simp] theorem State.updStream_ctxStart (s : State) (c : Nat) (f : Stream → Stream) : (s.updStream c f).ctxStart = s.ctxStart := rfl
@[simp] theorem State.updStream_expired (s : State) (c : Nat) (f : Stream → Stream) : (s.updStream c f).expired = s.expired := rfl
@[simp] theorem State.updStream_fresh (s : State) (c : Nat) (f : Stream → Stream) : (s.updStream c f).fresh = s.fresh := rfl
@[simp] theorem State.updStream_nextId (s : State) (c : Nat) (f : Stream → Stream) : (s.updStream c f).nextId = s.nextId := rfl
@[simp] theorem State.updStream_agenda (s : State) (c : Nat) (f : Stream → Stream) : (s.updStream c f).agenda = s.agenda := rfl
@[simp] theorem State.updStream_cur (s : State) (c : Nat) (f : Stream → Stream) : (s.updStream c f).cur = s.cur := rfl
@[simp] theorem State.updStream_waves (s : State) (c : Nat) (f : Stream → Stream) : (s.updStream c f).waves = s.waves := rfl
@[simp] theorem State.updStream_teams (s : State) (c : Nat) (f : Stream → Stream) : (s.updStream c f).teams = s.teams := rfl
@[simp] theorem State.updStream_groups (s : State) (c : Nat) (f : Stream → Stream) : (s.updStream c f).groups = s.groups := rfl
@[simp] theorem State.updStream_launches (s : State) (c : Nat) (f : Stream → Stream) : (s.updStream c f).launches = s.launches := rfl
@[simp] theorem State.updStream_lqs (s : State) (c : Nat) (f : Stream → Stream) : (s.updStream c f).lqs = s.lqs := rfl
@[simp] theorem State.updStream_cmds (s : State) (c : Nat) (f : Stream → Stream) : (s.updStream c f).cmds = s.cmds := rfl
@[simp] theorem State.updStream_treqs (s : State) (c : Nat) (f : Stream → Stream) : (s.updStream c f).treqs = s.treqs := rfl
@[simp] theorem State.updStream_flits (s : State) (c : Nat) (f : Stream → Stream) : (s.updStream c f).flits = s.flits := rfl
@[simp] theorem State.updStream_cores (s : State) (c : Nat) (f : Stream → Stream) : (s.updStream c f).cores = s.cores := rfl
@[simp] theorem State.updStream_clusters (s : State) (c : Nat) (f : Stream → Stream) : (s.updStream c f).clusters = s.clusters := rfl
@[simp] theorem State.updStream_slices (s : State) (c : Nat) (f : Stream → Stream) : (s.updStream c f).slices = s.slices := rfl
@[simp] theorem State.updStream_dies (s : State) (c : Nat) (f : Stream → Stream) : (s.updStream c f).dies = s.dies := rfl
@[simp] theorem State.updStream_tiles (s : State) (c : Nat) (f : Stream → Stream) : (s.updStream c f).tiles = s.tiles := rfl
@[simp] theorem State.updStream_pix (s : State) (c : Nat) (f : Stream → Stream) : (s.updStream c f).pix = s.pix := rfl
@[simp] theorem State.updStream_buffers (s : State) (c : Nat) (f : Stream → Stream) : (s.updStream c f).buffers = s.buffers := rfl
@[simp] theorem State.updStream_materials (s : State) (c : Nat) (f : Stream → Stream) : (s.updStream c f).materials = s.materials := rfl
@[simp] theorem State.updStream_counters (s : State) (c : Nat) (f : Stream → Stream) : (s.updStream c f).counters = s.counters := rfl
@[simp] theorem State.updStream_mem (s : State) (c : Nat) (f : Stream → Stream) : (s.updStream c f).mem = s.mem := rfl
@[simp] theorem State.updStream_win (s : State) (c : Nat) (f : Stream → Stream) : (s.updStream c f).win = s.win := rfl
@[simp] theorem State.updStream_fred (s : State) (c : Nat) (f : Stream → Stream) : (s.updStream c f).fred = s.fred := rfl
@[simp] theorem State.updStream_vac (s : State) (c : Nat) (f : Stream → Stream) : (s.updStream c f).vac = s.vac := rfl
@[simp] theorem State.updStream_saved (s : State) (c : Nat) (f : Stream → Stream) : (s.updStream c f).saved = s.saved := rfl
@[simp] theorem State.updStream_refused (s : State) (c : Nat) (f : Stream → Stream) : (s.updStream c f).refused = s.refused := rfl
@[simp] theorem State.updStream_walked (s : State) (c : Nat) (f : Stream → Stream) : (s.updStream c f).walked = s.walked := rfl
@[simp] theorem State.updStream_lack (s : State) (c : Nat) (f : Stream → Stream) : (s.updStream c f).lack = s.lack := rfl

/-! ### setTeam -/

@[simp] theorem State.setTeam_ck (s : State) (t : Nat) (x : Team) : (s.setTeam t x).ck = s.ck := rfl
@[simp] theorem State.setTeam_time (s : State) (t : Nat) (x : Team) : (s.setTeam t x).time = s.time := rfl
@[simp] theorem State.setTeam_stretch (s : State) (t : Nat) (x : Team) : (s.setTeam t x).stretch = s.stretch := rfl
@[simp] theorem State.setTeam_window (s : State) (t : Nat) (x : Team) : (s.setTeam t x).window = s.window := rfl
@[simp] theorem State.setTeam_ctxStart (s : State) (t : Nat) (x : Team) : (s.setTeam t x).ctxStart = s.ctxStart := rfl
@[simp] theorem State.setTeam_expired (s : State) (t : Nat) (x : Team) : (s.setTeam t x).expired = s.expired := rfl
@[simp] theorem State.setTeam_fresh (s : State) (t : Nat) (x : Team) : (s.setTeam t x).fresh = s.fresh := rfl
@[simp] theorem State.setTeam_nextId (s : State) (t : Nat) (x : Team) : (s.setTeam t x).nextId = s.nextId := rfl
@[simp] theorem State.setTeam_agenda (s : State) (t : Nat) (x : Team) : (s.setTeam t x).agenda = s.agenda := rfl
@[simp] theorem State.setTeam_cur (s : State) (t : Nat) (x : Team) : (s.setTeam t x).cur = s.cur := rfl
@[simp] theorem State.setTeam_waves (s : State) (t : Nat) (x : Team) : (s.setTeam t x).waves = s.waves := rfl
@[simp] theorem State.setTeam_streams (s : State) (t : Nat) (x : Team) : (s.setTeam t x).streams = s.streams := rfl
@[simp] theorem State.setTeam_groups (s : State) (t : Nat) (x : Team) : (s.setTeam t x).groups = s.groups := rfl
@[simp] theorem State.setTeam_launches (s : State) (t : Nat) (x : Team) : (s.setTeam t x).launches = s.launches := rfl
@[simp] theorem State.setTeam_lqs (s : State) (t : Nat) (x : Team) : (s.setTeam t x).lqs = s.lqs := rfl
@[simp] theorem State.setTeam_cmds (s : State) (t : Nat) (x : Team) : (s.setTeam t x).cmds = s.cmds := rfl
@[simp] theorem State.setTeam_treqs (s : State) (t : Nat) (x : Team) : (s.setTeam t x).treqs = s.treqs := rfl
@[simp] theorem State.setTeam_flits (s : State) (t : Nat) (x : Team) : (s.setTeam t x).flits = s.flits := rfl
@[simp] theorem State.setTeam_cores (s : State) (t : Nat) (x : Team) : (s.setTeam t x).cores = s.cores := rfl
@[simp] theorem State.setTeam_clusters (s : State) (t : Nat) (x : Team) : (s.setTeam t x).clusters = s.clusters := rfl
@[simp] theorem State.setTeam_slices (s : State) (t : Nat) (x : Team) : (s.setTeam t x).slices = s.slices := rfl
@[simp] theorem State.setTeam_dies (s : State) (t : Nat) (x : Team) : (s.setTeam t x).dies = s.dies := rfl
@[simp] theorem State.setTeam_tiles (s : State) (t : Nat) (x : Team) : (s.setTeam t x).tiles = s.tiles := rfl
@[simp] theorem State.setTeam_pix (s : State) (t : Nat) (x : Team) : (s.setTeam t x).pix = s.pix := rfl
@[simp] theorem State.setTeam_buffers (s : State) (t : Nat) (x : Team) : (s.setTeam t x).buffers = s.buffers := rfl
@[simp] theorem State.setTeam_materials (s : State) (t : Nat) (x : Team) : (s.setTeam t x).materials = s.materials := rfl
@[simp] theorem State.setTeam_counters (s : State) (t : Nat) (x : Team) : (s.setTeam t x).counters = s.counters := rfl
@[simp] theorem State.setTeam_mem (s : State) (t : Nat) (x : Team) : (s.setTeam t x).mem = s.mem := rfl
@[simp] theorem State.setTeam_win (s : State) (t : Nat) (x : Team) : (s.setTeam t x).win = s.win := rfl
@[simp] theorem State.setTeam_fred (s : State) (t : Nat) (x : Team) : (s.setTeam t x).fred = s.fred := rfl
@[simp] theorem State.setTeam_vac (s : State) (t : Nat) (x : Team) : (s.setTeam t x).vac = s.vac := rfl
@[simp] theorem State.setTeam_saved (s : State) (t : Nat) (x : Team) : (s.setTeam t x).saved = s.saved := rfl
@[simp] theorem State.setTeam_refused (s : State) (t : Nat) (x : Team) : (s.setTeam t x).refused = s.refused := rfl
@[simp] theorem State.setTeam_walked (s : State) (t : Nat) (x : Team) : (s.setTeam t x).walked = s.walked := rfl
@[simp] theorem State.setTeam_lack (s : State) (t : Nat) (x : Team) : (s.setTeam t x).lack = s.lack := rfl

/-! ### updTeam -/

@[simp] theorem State.updTeam_ck (s : State) (t : Nat) (f : Team → Team) : (s.updTeam t f).ck = s.ck := rfl
@[simp] theorem State.updTeam_time (s : State) (t : Nat) (f : Team → Team) : (s.updTeam t f).time = s.time := rfl
@[simp] theorem State.updTeam_stretch (s : State) (t : Nat) (f : Team → Team) : (s.updTeam t f).stretch = s.stretch := rfl
@[simp] theorem State.updTeam_window (s : State) (t : Nat) (f : Team → Team) : (s.updTeam t f).window = s.window := rfl
@[simp] theorem State.updTeam_ctxStart (s : State) (t : Nat) (f : Team → Team) : (s.updTeam t f).ctxStart = s.ctxStart := rfl
@[simp] theorem State.updTeam_expired (s : State) (t : Nat) (f : Team → Team) : (s.updTeam t f).expired = s.expired := rfl
@[simp] theorem State.updTeam_fresh (s : State) (t : Nat) (f : Team → Team) : (s.updTeam t f).fresh = s.fresh := rfl
@[simp] theorem State.updTeam_nextId (s : State) (t : Nat) (f : Team → Team) : (s.updTeam t f).nextId = s.nextId := rfl
@[simp] theorem State.updTeam_agenda (s : State) (t : Nat) (f : Team → Team) : (s.updTeam t f).agenda = s.agenda := rfl
@[simp] theorem State.updTeam_cur (s : State) (t : Nat) (f : Team → Team) : (s.updTeam t f).cur = s.cur := rfl
@[simp] theorem State.updTeam_waves (s : State) (t : Nat) (f : Team → Team) : (s.updTeam t f).waves = s.waves := rfl
@[simp] theorem State.updTeam_streams (s : State) (t : Nat) (f : Team → Team) : (s.updTeam t f).streams = s.streams := rfl
@[simp] theorem State.updTeam_groups (s : State) (t : Nat) (f : Team → Team) : (s.updTeam t f).groups = s.groups := rfl
@[simp] theorem State.updTeam_launches (s : State) (t : Nat) (f : Team → Team) : (s.updTeam t f).launches = s.launches := rfl
@[simp] theorem State.updTeam_lqs (s : State) (t : Nat) (f : Team → Team) : (s.updTeam t f).lqs = s.lqs := rfl
@[simp] theorem State.updTeam_cmds (s : State) (t : Nat) (f : Team → Team) : (s.updTeam t f).cmds = s.cmds := rfl
@[simp] theorem State.updTeam_treqs (s : State) (t : Nat) (f : Team → Team) : (s.updTeam t f).treqs = s.treqs := rfl
@[simp] theorem State.updTeam_flits (s : State) (t : Nat) (f : Team → Team) : (s.updTeam t f).flits = s.flits := rfl
@[simp] theorem State.updTeam_cores (s : State) (t : Nat) (f : Team → Team) : (s.updTeam t f).cores = s.cores := rfl
@[simp] theorem State.updTeam_clusters (s : State) (t : Nat) (f : Team → Team) : (s.updTeam t f).clusters = s.clusters := rfl
@[simp] theorem State.updTeam_slices (s : State) (t : Nat) (f : Team → Team) : (s.updTeam t f).slices = s.slices := rfl
@[simp] theorem State.updTeam_dies (s : State) (t : Nat) (f : Team → Team) : (s.updTeam t f).dies = s.dies := rfl
@[simp] theorem State.updTeam_tiles (s : State) (t : Nat) (f : Team → Team) : (s.updTeam t f).tiles = s.tiles := rfl
@[simp] theorem State.updTeam_pix (s : State) (t : Nat) (f : Team → Team) : (s.updTeam t f).pix = s.pix := rfl
@[simp] theorem State.updTeam_buffers (s : State) (t : Nat) (f : Team → Team) : (s.updTeam t f).buffers = s.buffers := rfl
@[simp] theorem State.updTeam_materials (s : State) (t : Nat) (f : Team → Team) : (s.updTeam t f).materials = s.materials := rfl
@[simp] theorem State.updTeam_counters (s : State) (t : Nat) (f : Team → Team) : (s.updTeam t f).counters = s.counters := rfl
@[simp] theorem State.updTeam_mem (s : State) (t : Nat) (f : Team → Team) : (s.updTeam t f).mem = s.mem := rfl
@[simp] theorem State.updTeam_win (s : State) (t : Nat) (f : Team → Team) : (s.updTeam t f).win = s.win := rfl
@[simp] theorem State.updTeam_fred (s : State) (t : Nat) (f : Team → Team) : (s.updTeam t f).fred = s.fred := rfl
@[simp] theorem State.updTeam_vac (s : State) (t : Nat) (f : Team → Team) : (s.updTeam t f).vac = s.vac := rfl
@[simp] theorem State.updTeam_saved (s : State) (t : Nat) (f : Team → Team) : (s.updTeam t f).saved = s.saved := rfl
@[simp] theorem State.updTeam_refused (s : State) (t : Nat) (f : Team → Team) : (s.updTeam t f).refused = s.refused := rfl
@[simp] theorem State.updTeam_walked (s : State) (t : Nat) (f : Team → Team) : (s.updTeam t f).walked = s.walked := rfl
@[simp] theorem State.updTeam_lack (s : State) (t : Nat) (f : Team → Team) : (s.updTeam t f).lack = s.lack := rfl

/-! ### setLaunch -/

@[simp] theorem State.setLaunch_ck (s : State) (l : Nat) (x : Launch) : (s.setLaunch l x).ck = s.ck := rfl
@[simp] theorem State.setLaunch_time (s : State) (l : Nat) (x : Launch) : (s.setLaunch l x).time = s.time := rfl
@[simp] theorem State.setLaunch_stretch (s : State) (l : Nat) (x : Launch) : (s.setLaunch l x).stretch = s.stretch := rfl
@[simp] theorem State.setLaunch_window (s : State) (l : Nat) (x : Launch) : (s.setLaunch l x).window = s.window := rfl
@[simp] theorem State.setLaunch_ctxStart (s : State) (l : Nat) (x : Launch) : (s.setLaunch l x).ctxStart = s.ctxStart := rfl
@[simp] theorem State.setLaunch_expired (s : State) (l : Nat) (x : Launch) : (s.setLaunch l x).expired = s.expired := rfl
@[simp] theorem State.setLaunch_fresh (s : State) (l : Nat) (x : Launch) : (s.setLaunch l x).fresh = s.fresh := rfl
@[simp] theorem State.setLaunch_nextId (s : State) (l : Nat) (x : Launch) : (s.setLaunch l x).nextId = s.nextId := rfl
@[simp] theorem State.setLaunch_agenda (s : State) (l : Nat) (x : Launch) : (s.setLaunch l x).agenda = s.agenda := rfl
@[simp] theorem State.setLaunch_cur (s : State) (l : Nat) (x : Launch) : (s.setLaunch l x).cur = s.cur := rfl
@[simp] theorem State.setLaunch_waves (s : State) (l : Nat) (x : Launch) : (s.setLaunch l x).waves = s.waves := rfl
@[simp] theorem State.setLaunch_streams (s : State) (l : Nat) (x : Launch) : (s.setLaunch l x).streams = s.streams := rfl
@[simp] theorem State.setLaunch_teams (s : State) (l : Nat) (x : Launch) : (s.setLaunch l x).teams = s.teams := rfl
@[simp] theorem State.setLaunch_groups (s : State) (l : Nat) (x : Launch) : (s.setLaunch l x).groups = s.groups := rfl
@[simp] theorem State.setLaunch_lqs (s : State) (l : Nat) (x : Launch) : (s.setLaunch l x).lqs = s.lqs := rfl
@[simp] theorem State.setLaunch_cmds (s : State) (l : Nat) (x : Launch) : (s.setLaunch l x).cmds = s.cmds := rfl
@[simp] theorem State.setLaunch_treqs (s : State) (l : Nat) (x : Launch) : (s.setLaunch l x).treqs = s.treqs := rfl
@[simp] theorem State.setLaunch_flits (s : State) (l : Nat) (x : Launch) : (s.setLaunch l x).flits = s.flits := rfl
@[simp] theorem State.setLaunch_cores (s : State) (l : Nat) (x : Launch) : (s.setLaunch l x).cores = s.cores := rfl
@[simp] theorem State.setLaunch_clusters (s : State) (l : Nat) (x : Launch) : (s.setLaunch l x).clusters = s.clusters := rfl
@[simp] theorem State.setLaunch_slices (s : State) (l : Nat) (x : Launch) : (s.setLaunch l x).slices = s.slices := rfl
@[simp] theorem State.setLaunch_dies (s : State) (l : Nat) (x : Launch) : (s.setLaunch l x).dies = s.dies := rfl
@[simp] theorem State.setLaunch_tiles (s : State) (l : Nat) (x : Launch) : (s.setLaunch l x).tiles = s.tiles := rfl
@[simp] theorem State.setLaunch_pix (s : State) (l : Nat) (x : Launch) : (s.setLaunch l x).pix = s.pix := rfl
@[simp] theorem State.setLaunch_buffers (s : State) (l : Nat) (x : Launch) : (s.setLaunch l x).buffers = s.buffers := rfl
@[simp] theorem State.setLaunch_materials (s : State) (l : Nat) (x : Launch) : (s.setLaunch l x).materials = s.materials := rfl
@[simp] theorem State.setLaunch_counters (s : State) (l : Nat) (x : Launch) : (s.setLaunch l x).counters = s.counters := rfl
@[simp] theorem State.setLaunch_mem (s : State) (l : Nat) (x : Launch) : (s.setLaunch l x).mem = s.mem := rfl
@[simp] theorem State.setLaunch_win (s : State) (l : Nat) (x : Launch) : (s.setLaunch l x).win = s.win := rfl
@[simp] theorem State.setLaunch_fred (s : State) (l : Nat) (x : Launch) : (s.setLaunch l x).fred = s.fred := rfl
@[simp] theorem State.setLaunch_vac (s : State) (l : Nat) (x : Launch) : (s.setLaunch l x).vac = s.vac := rfl
@[simp] theorem State.setLaunch_saved (s : State) (l : Nat) (x : Launch) : (s.setLaunch l x).saved = s.saved := rfl
@[simp] theorem State.setLaunch_refused (s : State) (l : Nat) (x : Launch) : (s.setLaunch l x).refused = s.refused := rfl
@[simp] theorem State.setLaunch_walked (s : State) (l : Nat) (x : Launch) : (s.setLaunch l x).walked = s.walked := rfl
@[simp] theorem State.setLaunch_lack (s : State) (l : Nat) (x : Launch) : (s.setLaunch l x).lack = s.lack := rfl

/-! ### updLaunch -/

@[simp] theorem State.updLaunch_ck (s : State) (l : Nat) (f : Launch → Launch) : (s.updLaunch l f).ck = s.ck := rfl
@[simp] theorem State.updLaunch_time (s : State) (l : Nat) (f : Launch → Launch) : (s.updLaunch l f).time = s.time := rfl
@[simp] theorem State.updLaunch_stretch (s : State) (l : Nat) (f : Launch → Launch) : (s.updLaunch l f).stretch = s.stretch := rfl
@[simp] theorem State.updLaunch_window (s : State) (l : Nat) (f : Launch → Launch) : (s.updLaunch l f).window = s.window := rfl
@[simp] theorem State.updLaunch_ctxStart (s : State) (l : Nat) (f : Launch → Launch) : (s.updLaunch l f).ctxStart = s.ctxStart := rfl
@[simp] theorem State.updLaunch_expired (s : State) (l : Nat) (f : Launch → Launch) : (s.updLaunch l f).expired = s.expired := rfl
@[simp] theorem State.updLaunch_fresh (s : State) (l : Nat) (f : Launch → Launch) : (s.updLaunch l f).fresh = s.fresh := rfl
@[simp] theorem State.updLaunch_nextId (s : State) (l : Nat) (f : Launch → Launch) : (s.updLaunch l f).nextId = s.nextId := rfl
@[simp] theorem State.updLaunch_agenda (s : State) (l : Nat) (f : Launch → Launch) : (s.updLaunch l f).agenda = s.agenda := rfl
@[simp] theorem State.updLaunch_cur (s : State) (l : Nat) (f : Launch → Launch) : (s.updLaunch l f).cur = s.cur := rfl
@[simp] theorem State.updLaunch_waves (s : State) (l : Nat) (f : Launch → Launch) : (s.updLaunch l f).waves = s.waves := rfl
@[simp] theorem State.updLaunch_streams (s : State) (l : Nat) (f : Launch → Launch) : (s.updLaunch l f).streams = s.streams := rfl
@[simp] theorem State.updLaunch_teams (s : State) (l : Nat) (f : Launch → Launch) : (s.updLaunch l f).teams = s.teams := rfl
@[simp] theorem State.updLaunch_groups (s : State) (l : Nat) (f : Launch → Launch) : (s.updLaunch l f).groups = s.groups := rfl
@[simp] theorem State.updLaunch_lqs (s : State) (l : Nat) (f : Launch → Launch) : (s.updLaunch l f).lqs = s.lqs := rfl
@[simp] theorem State.updLaunch_cmds (s : State) (l : Nat) (f : Launch → Launch) : (s.updLaunch l f).cmds = s.cmds := rfl
@[simp] theorem State.updLaunch_treqs (s : State) (l : Nat) (f : Launch → Launch) : (s.updLaunch l f).treqs = s.treqs := rfl
@[simp] theorem State.updLaunch_flits (s : State) (l : Nat) (f : Launch → Launch) : (s.updLaunch l f).flits = s.flits := rfl
@[simp] theorem State.updLaunch_cores (s : State) (l : Nat) (f : Launch → Launch) : (s.updLaunch l f).cores = s.cores := rfl
@[simp] theorem State.updLaunch_clusters (s : State) (l : Nat) (f : Launch → Launch) : (s.updLaunch l f).clusters = s.clusters := rfl
@[simp] theorem State.updLaunch_slices (s : State) (l : Nat) (f : Launch → Launch) : (s.updLaunch l f).slices = s.slices := rfl
@[simp] theorem State.updLaunch_dies (s : State) (l : Nat) (f : Launch → Launch) : (s.updLaunch l f).dies = s.dies := rfl
@[simp] theorem State.updLaunch_tiles (s : State) (l : Nat) (f : Launch → Launch) : (s.updLaunch l f).tiles = s.tiles := rfl
@[simp] theorem State.updLaunch_pix (s : State) (l : Nat) (f : Launch → Launch) : (s.updLaunch l f).pix = s.pix := rfl
@[simp] theorem State.updLaunch_buffers (s : State) (l : Nat) (f : Launch → Launch) : (s.updLaunch l f).buffers = s.buffers := rfl
@[simp] theorem State.updLaunch_materials (s : State) (l : Nat) (f : Launch → Launch) : (s.updLaunch l f).materials = s.materials := rfl
@[simp] theorem State.updLaunch_counters (s : State) (l : Nat) (f : Launch → Launch) : (s.updLaunch l f).counters = s.counters := rfl
@[simp] theorem State.updLaunch_mem (s : State) (l : Nat) (f : Launch → Launch) : (s.updLaunch l f).mem = s.mem := rfl
@[simp] theorem State.updLaunch_win (s : State) (l : Nat) (f : Launch → Launch) : (s.updLaunch l f).win = s.win := rfl
@[simp] theorem State.updLaunch_fred (s : State) (l : Nat) (f : Launch → Launch) : (s.updLaunch l f).fred = s.fred := rfl
@[simp] theorem State.updLaunch_vac (s : State) (l : Nat) (f : Launch → Launch) : (s.updLaunch l f).vac = s.vac := rfl
@[simp] theorem State.updLaunch_saved (s : State) (l : Nat) (f : Launch → Launch) : (s.updLaunch l f).saved = s.saved := rfl
@[simp] theorem State.updLaunch_refused (s : State) (l : Nat) (f : Launch → Launch) : (s.updLaunch l f).refused = s.refused := rfl
@[simp] theorem State.updLaunch_walked (s : State) (l : Nat) (f : Launch → Launch) : (s.updLaunch l f).walked = s.walked := rfl
@[simp] theorem State.updLaunch_lack (s : State) (l : Nat) (f : Launch → Launch) : (s.updLaunch l f).lack = s.lack := rfl

/-! ### setCluster -/

@[simp] theorem State.setCluster_ck (s : State) (c : Nat) (x : Cluster) : (s.setCluster c x).ck = s.ck := rfl
@[simp] theorem State.setCluster_time (s : State) (c : Nat) (x : Cluster) : (s.setCluster c x).time = s.time := rfl
@[simp] theorem State.setCluster_stretch (s : State) (c : Nat) (x : Cluster) : (s.setCluster c x).stretch = s.stretch := rfl
@[simp] theorem State.setCluster_window (s : State) (c : Nat) (x : Cluster) : (s.setCluster c x).window = s.window := rfl
@[simp] theorem State.setCluster_ctxStart (s : State) (c : Nat) (x : Cluster) : (s.setCluster c x).ctxStart = s.ctxStart := rfl
@[simp] theorem State.setCluster_expired (s : State) (c : Nat) (x : Cluster) : (s.setCluster c x).expired = s.expired := rfl
@[simp] theorem State.setCluster_fresh (s : State) (c : Nat) (x : Cluster) : (s.setCluster c x).fresh = s.fresh := rfl
@[simp] theorem State.setCluster_nextId (s : State) (c : Nat) (x : Cluster) : (s.setCluster c x).nextId = s.nextId := rfl
@[simp] theorem State.setCluster_agenda (s : State) (c : Nat) (x : Cluster) : (s.setCluster c x).agenda = s.agenda := rfl
@[simp] theorem State.setCluster_cur (s : State) (c : Nat) (x : Cluster) : (s.setCluster c x).cur = s.cur := rfl
@[simp] theorem State.setCluster_waves (s : State) (c : Nat) (x : Cluster) : (s.setCluster c x).waves = s.waves := rfl
@[simp] theorem State.setCluster_streams (s : State) (c : Nat) (x : Cluster) : (s.setCluster c x).streams = s.streams := rfl
@[simp] theorem State.setCluster_teams (s : State) (c : Nat) (x : Cluster) : (s.setCluster c x).teams = s.teams := rfl
@[simp] theorem State.setCluster_groups (s : State) (c : Nat) (x : Cluster) : (s.setCluster c x).groups = s.groups := rfl
@[simp] theorem State.setCluster_launches (s : State) (c : Nat) (x : Cluster) : (s.setCluster c x).launches = s.launches := rfl
@[simp] theorem State.setCluster_lqs (s : State) (c : Nat) (x : Cluster) : (s.setCluster c x).lqs = s.lqs := rfl
@[simp] theorem State.setCluster_cmds (s : State) (c : Nat) (x : Cluster) : (s.setCluster c x).cmds = s.cmds := rfl
@[simp] theorem State.setCluster_treqs (s : State) (c : Nat) (x : Cluster) : (s.setCluster c x).treqs = s.treqs := rfl
@[simp] theorem State.setCluster_flits (s : State) (c : Nat) (x : Cluster) : (s.setCluster c x).flits = s.flits := rfl
@[simp] theorem State.setCluster_cores (s : State) (c : Nat) (x : Cluster) : (s.setCluster c x).cores = s.cores := rfl
@[simp] theorem State.setCluster_slices (s : State) (c : Nat) (x : Cluster) : (s.setCluster c x).slices = s.slices := rfl
@[simp] theorem State.setCluster_dies (s : State) (c : Nat) (x : Cluster) : (s.setCluster c x).dies = s.dies := rfl
@[simp] theorem State.setCluster_tiles (s : State) (c : Nat) (x : Cluster) : (s.setCluster c x).tiles = s.tiles := rfl
@[simp] theorem State.setCluster_pix (s : State) (c : Nat) (x : Cluster) : (s.setCluster c x).pix = s.pix := rfl
@[simp] theorem State.setCluster_buffers (s : State) (c : Nat) (x : Cluster) : (s.setCluster c x).buffers = s.buffers := rfl
@[simp] theorem State.setCluster_materials (s : State) (c : Nat) (x : Cluster) : (s.setCluster c x).materials = s.materials := rfl
@[simp] theorem State.setCluster_counters (s : State) (c : Nat) (x : Cluster) : (s.setCluster c x).counters = s.counters := rfl
@[simp] theorem State.setCluster_mem (s : State) (c : Nat) (x : Cluster) : (s.setCluster c x).mem = s.mem := rfl
@[simp] theorem State.setCluster_win (s : State) (c : Nat) (x : Cluster) : (s.setCluster c x).win = s.win := rfl
@[simp] theorem State.setCluster_fred (s : State) (c : Nat) (x : Cluster) : (s.setCluster c x).fred = s.fred := rfl
@[simp] theorem State.setCluster_vac (s : State) (c : Nat) (x : Cluster) : (s.setCluster c x).vac = s.vac := rfl
@[simp] theorem State.setCluster_saved (s : State) (c : Nat) (x : Cluster) : (s.setCluster c x).saved = s.saved := rfl
@[simp] theorem State.setCluster_refused (s : State) (c : Nat) (x : Cluster) : (s.setCluster c x).refused = s.refused := rfl
@[simp] theorem State.setCluster_walked (s : State) (c : Nat) (x : Cluster) : (s.setCluster c x).walked = s.walked := rfl
@[simp] theorem State.setCluster_lack (s : State) (c : Nat) (x : Cluster) : (s.setCluster c x).lack = s.lack := rfl

/-! ### setSlice -/

@[simp] theorem State.setSlice_ck (s : State) (h : Nat) (x : Slice) : (s.setSlice h x).ck = s.ck := rfl
@[simp] theorem State.setSlice_time (s : State) (h : Nat) (x : Slice) : (s.setSlice h x).time = s.time := rfl
@[simp] theorem State.setSlice_stretch (s : State) (h : Nat) (x : Slice) : (s.setSlice h x).stretch = s.stretch := rfl
@[simp] theorem State.setSlice_window (s : State) (h : Nat) (x : Slice) : (s.setSlice h x).window = s.window := rfl
@[simp] theorem State.setSlice_ctxStart (s : State) (h : Nat) (x : Slice) : (s.setSlice h x).ctxStart = s.ctxStart := rfl
@[simp] theorem State.setSlice_expired (s : State) (h : Nat) (x : Slice) : (s.setSlice h x).expired = s.expired := rfl
@[simp] theorem State.setSlice_fresh (s : State) (h : Nat) (x : Slice) : (s.setSlice h x).fresh = s.fresh := rfl
@[simp] theorem State.setSlice_nextId (s : State) (h : Nat) (x : Slice) : (s.setSlice h x).nextId = s.nextId := rfl
@[simp] theorem State.setSlice_agenda (s : State) (h : Nat) (x : Slice) : (s.setSlice h x).agenda = s.agenda := rfl
@[simp] theorem State.setSlice_cur (s : State) (h : Nat) (x : Slice) : (s.setSlice h x).cur = s.cur := rfl
@[simp] theorem State.setSlice_waves (s : State) (h : Nat) (x : Slice) : (s.setSlice h x).waves = s.waves := rfl
@[simp] theorem State.setSlice_streams (s : State) (h : Nat) (x : Slice) : (s.setSlice h x).streams = s.streams := rfl
@[simp] theorem State.setSlice_teams (s : State) (h : Nat) (x : Slice) : (s.setSlice h x).teams = s.teams := rfl
@[simp] theorem State.setSlice_groups (s : State) (h : Nat) (x : Slice) : (s.setSlice h x).groups = s.groups := rfl
@[simp] theorem State.setSlice_launches (s : State) (h : Nat) (x : Slice) : (s.setSlice h x).launches = s.launches := rfl
@[simp] theorem State.setSlice_lqs (s : State) (h : Nat) (x : Slice) : (s.setSlice h x).lqs = s.lqs := rfl
@[simp] theorem State.setSlice_cmds (s : State) (h : Nat) (x : Slice) : (s.setSlice h x).cmds = s.cmds := rfl
@[simp] theorem State.setSlice_treqs (s : State) (h : Nat) (x : Slice) : (s.setSlice h x).treqs = s.treqs := rfl
@[simp] theorem State.setSlice_flits (s : State) (h : Nat) (x : Slice) : (s.setSlice h x).flits = s.flits := rfl
@[simp] theorem State.setSlice_cores (s : State) (h : Nat) (x : Slice) : (s.setSlice h x).cores = s.cores := rfl
@[simp] theorem State.setSlice_clusters (s : State) (h : Nat) (x : Slice) : (s.setSlice h x).clusters = s.clusters := rfl
@[simp] theorem State.setSlice_dies (s : State) (h : Nat) (x : Slice) : (s.setSlice h x).dies = s.dies := rfl
@[simp] theorem State.setSlice_tiles (s : State) (h : Nat) (x : Slice) : (s.setSlice h x).tiles = s.tiles := rfl
@[simp] theorem State.setSlice_pix (s : State) (h : Nat) (x : Slice) : (s.setSlice h x).pix = s.pix := rfl
@[simp] theorem State.setSlice_buffers (s : State) (h : Nat) (x : Slice) : (s.setSlice h x).buffers = s.buffers := rfl
@[simp] theorem State.setSlice_materials (s : State) (h : Nat) (x : Slice) : (s.setSlice h x).materials = s.materials := rfl
@[simp] theorem State.setSlice_counters (s : State) (h : Nat) (x : Slice) : (s.setSlice h x).counters = s.counters := rfl
@[simp] theorem State.setSlice_mem (s : State) (h : Nat) (x : Slice) : (s.setSlice h x).mem = s.mem := rfl
@[simp] theorem State.setSlice_win (s : State) (h : Nat) (x : Slice) : (s.setSlice h x).win = s.win := rfl
@[simp] theorem State.setSlice_fred (s : State) (h : Nat) (x : Slice) : (s.setSlice h x).fred = s.fred := rfl
@[simp] theorem State.setSlice_vac (s : State) (h : Nat) (x : Slice) : (s.setSlice h x).vac = s.vac := rfl
@[simp] theorem State.setSlice_saved (s : State) (h : Nat) (x : Slice) : (s.setSlice h x).saved = s.saved := rfl
@[simp] theorem State.setSlice_refused (s : State) (h : Nat) (x : Slice) : (s.setSlice h x).refused = s.refused := rfl
@[simp] theorem State.setSlice_walked (s : State) (h : Nat) (x : Slice) : (s.setSlice h x).walked = s.walked := rfl
@[simp] theorem State.setSlice_lack (s : State) (h : Nat) (x : Slice) : (s.setSlice h x).lack = s.lack := rfl

/-! ### setCore -/

@[simp] theorem State.setCore_ck (s : State) (c : Nat) (x : Core) : (s.setCore c x).ck = s.ck := rfl
@[simp] theorem State.setCore_time (s : State) (c : Nat) (x : Core) : (s.setCore c x).time = s.time := rfl
@[simp] theorem State.setCore_stretch (s : State) (c : Nat) (x : Core) : (s.setCore c x).stretch = s.stretch := rfl
@[simp] theorem State.setCore_window (s : State) (c : Nat) (x : Core) : (s.setCore c x).window = s.window := rfl
@[simp] theorem State.setCore_ctxStart (s : State) (c : Nat) (x : Core) : (s.setCore c x).ctxStart = s.ctxStart := rfl
@[simp] theorem State.setCore_expired (s : State) (c : Nat) (x : Core) : (s.setCore c x).expired = s.expired := rfl
@[simp] theorem State.setCore_fresh (s : State) (c : Nat) (x : Core) : (s.setCore c x).fresh = s.fresh := rfl
@[simp] theorem State.setCore_nextId (s : State) (c : Nat) (x : Core) : (s.setCore c x).nextId = s.nextId := rfl
@[simp] theorem State.setCore_agenda (s : State) (c : Nat) (x : Core) : (s.setCore c x).agenda = s.agenda := rfl
@[simp] theorem State.setCore_cur (s : State) (c : Nat) (x : Core) : (s.setCore c x).cur = s.cur := rfl
@[simp] theorem State.setCore_waves (s : State) (c : Nat) (x : Core) : (s.setCore c x).waves = s.waves := rfl
@[simp] theorem State.setCore_streams (s : State) (c : Nat) (x : Core) : (s.setCore c x).streams = s.streams := rfl
@[simp] theorem State.setCore_teams (s : State) (c : Nat) (x : Core) : (s.setCore c x).teams = s.teams := rfl
@[simp] theorem State.setCore_groups (s : State) (c : Nat) (x : Core) : (s.setCore c x).groups = s.groups := rfl
@[simp] theorem State.setCore_launches (s : State) (c : Nat) (x : Core) : (s.setCore c x).launches = s.launches := rfl
@[simp] theorem State.setCore_lqs (s : State) (c : Nat) (x : Core) : (s.setCore c x).lqs = s.lqs := rfl
@[simp] theorem State.setCore_cmds (s : State) (c : Nat) (x : Core) : (s.setCore c x).cmds = s.cmds := rfl
@[simp] theorem State.setCore_treqs (s : State) (c : Nat) (x : Core) : (s.setCore c x).treqs = s.treqs := rfl
@[simp] theorem State.setCore_flits (s : State) (c : Nat) (x : Core) : (s.setCore c x).flits = s.flits := rfl
@[simp] theorem State.setCore_clusters (s : State) (c : Nat) (x : Core) : (s.setCore c x).clusters = s.clusters := rfl
@[simp] theorem State.setCore_slices (s : State) (c : Nat) (x : Core) : (s.setCore c x).slices = s.slices := rfl
@[simp] theorem State.setCore_dies (s : State) (c : Nat) (x : Core) : (s.setCore c x).dies = s.dies := rfl
@[simp] theorem State.setCore_tiles (s : State) (c : Nat) (x : Core) : (s.setCore c x).tiles = s.tiles := rfl
@[simp] theorem State.setCore_pix (s : State) (c : Nat) (x : Core) : (s.setCore c x).pix = s.pix := rfl
@[simp] theorem State.setCore_buffers (s : State) (c : Nat) (x : Core) : (s.setCore c x).buffers = s.buffers := rfl
@[simp] theorem State.setCore_materials (s : State) (c : Nat) (x : Core) : (s.setCore c x).materials = s.materials := rfl
@[simp] theorem State.setCore_counters (s : State) (c : Nat) (x : Core) : (s.setCore c x).counters = s.counters := rfl
@[simp] theorem State.setCore_mem (s : State) (c : Nat) (x : Core) : (s.setCore c x).mem = s.mem := rfl
@[simp] theorem State.setCore_win (s : State) (c : Nat) (x : Core) : (s.setCore c x).win = s.win := rfl
@[simp] theorem State.setCore_fred (s : State) (c : Nat) (x : Core) : (s.setCore c x).fred = s.fred := rfl
@[simp] theorem State.setCore_vac (s : State) (c : Nat) (x : Core) : (s.setCore c x).vac = s.vac := rfl
@[simp] theorem State.setCore_saved (s : State) (c : Nat) (x : Core) : (s.setCore c x).saved = s.saved := rfl
@[simp] theorem State.setCore_refused (s : State) (c : Nat) (x : Core) : (s.setCore c x).refused = s.refused := rfl
@[simp] theorem State.setCore_walked (s : State) (c : Nat) (x : Core) : (s.setCore c x).walked = s.walked := rfl
@[simp] theorem State.setCore_lack (s : State) (c : Nat) (x : Core) : (s.setCore c x).lack = s.lack := rfl

/-! ### setDie -/

@[simp] theorem State.setDie_ck (s : State) (d : Nat) (x : Die) : (s.setDie d x).ck = s.ck := rfl
@[simp] theorem State.setDie_time (s : State) (d : Nat) (x : Die) : (s.setDie d x).time = s.time := rfl
@[simp] theorem State.setDie_stretch (s : State) (d : Nat) (x : Die) : (s.setDie d x).stretch = s.stretch := rfl
@[simp] theorem State.setDie_window (s : State) (d : Nat) (x : Die) : (s.setDie d x).window = s.window := rfl
@[simp] theorem State.setDie_ctxStart (s : State) (d : Nat) (x : Die) : (s.setDie d x).ctxStart = s.ctxStart := rfl
@[simp] theorem State.setDie_expired (s : State) (d : Nat) (x : Die) : (s.setDie d x).expired = s.expired := rfl
@[simp] theorem State.setDie_fresh (s : State) (d : Nat) (x : Die) : (s.setDie d x).fresh = s.fresh := rfl
@[simp] theorem State.setDie_nextId (s : State) (d : Nat) (x : Die) : (s.setDie d x).nextId = s.nextId := rfl
@[simp] theorem State.setDie_agenda (s : State) (d : Nat) (x : Die) : (s.setDie d x).agenda = s.agenda := rfl
@[simp] theorem State.setDie_cur (s : State) (d : Nat) (x : Die) : (s.setDie d x).cur = s.cur := rfl
@[simp] theorem State.setDie_waves (s : State) (d : Nat) (x : Die) : (s.setDie d x).waves = s.waves := rfl
@[simp] theorem State.setDie_streams (s : State) (d : Nat) (x : Die) : (s.setDie d x).streams = s.streams := rfl
@[simp] theorem State.setDie_teams (s : State) (d : Nat) (x : Die) : (s.setDie d x).teams = s.teams := rfl
@[simp] theorem State.setDie_groups (s : State) (d : Nat) (x : Die) : (s.setDie d x).groups = s.groups := rfl
@[simp] theorem State.setDie_launches (s : State) (d : Nat) (x : Die) : (s.setDie d x).launches = s.launches := rfl
@[simp] theorem State.setDie_lqs (s : State) (d : Nat) (x : Die) : (s.setDie d x).lqs = s.lqs := rfl
@[simp] theorem State.setDie_cmds (s : State) (d : Nat) (x : Die) : (s.setDie d x).cmds = s.cmds := rfl
@[simp] theorem State.setDie_treqs (s : State) (d : Nat) (x : Die) : (s.setDie d x).treqs = s.treqs := rfl
@[simp] theorem State.setDie_flits (s : State) (d : Nat) (x : Die) : (s.setDie d x).flits = s.flits := rfl
@[simp] theorem State.setDie_cores (s : State) (d : Nat) (x : Die) : (s.setDie d x).cores = s.cores := rfl
@[simp] theorem State.setDie_clusters (s : State) (d : Nat) (x : Die) : (s.setDie d x).clusters = s.clusters := rfl
@[simp] theorem State.setDie_slices (s : State) (d : Nat) (x : Die) : (s.setDie d x).slices = s.slices := rfl
@[simp] theorem State.setDie_tiles (s : State) (d : Nat) (x : Die) : (s.setDie d x).tiles = s.tiles := rfl
@[simp] theorem State.setDie_pix (s : State) (d : Nat) (x : Die) : (s.setDie d x).pix = s.pix := rfl
@[simp] theorem State.setDie_buffers (s : State) (d : Nat) (x : Die) : (s.setDie d x).buffers = s.buffers := rfl
@[simp] theorem State.setDie_materials (s : State) (d : Nat) (x : Die) : (s.setDie d x).materials = s.materials := rfl
@[simp] theorem State.setDie_counters (s : State) (d : Nat) (x : Die) : (s.setDie d x).counters = s.counters := rfl
@[simp] theorem State.setDie_mem (s : State) (d : Nat) (x : Die) : (s.setDie d x).mem = s.mem := rfl
@[simp] theorem State.setDie_win (s : State) (d : Nat) (x : Die) : (s.setDie d x).win = s.win := rfl
@[simp] theorem State.setDie_fred (s : State) (d : Nat) (x : Die) : (s.setDie d x).fred = s.fred := rfl
@[simp] theorem State.setDie_vac (s : State) (d : Nat) (x : Die) : (s.setDie d x).vac = s.vac := rfl
@[simp] theorem State.setDie_saved (s : State) (d : Nat) (x : Die) : (s.setDie d x).saved = s.saved := rfl
@[simp] theorem State.setDie_refused (s : State) (d : Nat) (x : Die) : (s.setDie d x).refused = s.refused := rfl
@[simp] theorem State.setDie_walked (s : State) (d : Nat) (x : Die) : (s.setDie d x).walked = s.walked := rfl
@[simp] theorem State.setDie_lack (s : State) (d : Nat) (x : Die) : (s.setDie d x).lack = s.lack := rfl

/-! ### setTile -/

@[simp] theorem State.setTile_ck (s : State) (t : Nat) (x : Tile) : (s.setTile t x).ck = s.ck := rfl
@[simp] theorem State.setTile_time (s : State) (t : Nat) (x : Tile) : (s.setTile t x).time = s.time := rfl
@[simp] theorem State.setTile_stretch (s : State) (t : Nat) (x : Tile) : (s.setTile t x).stretch = s.stretch := rfl
@[simp] theorem State.setTile_window (s : State) (t : Nat) (x : Tile) : (s.setTile t x).window = s.window := rfl
@[simp] theorem State.setTile_ctxStart (s : State) (t : Nat) (x : Tile) : (s.setTile t x).ctxStart = s.ctxStart := rfl
@[simp] theorem State.setTile_expired (s : State) (t : Nat) (x : Tile) : (s.setTile t x).expired = s.expired := rfl
@[simp] theorem State.setTile_fresh (s : State) (t : Nat) (x : Tile) : (s.setTile t x).fresh = s.fresh := rfl
@[simp] theorem State.setTile_nextId (s : State) (t : Nat) (x : Tile) : (s.setTile t x).nextId = s.nextId := rfl
@[simp] theorem State.setTile_agenda (s : State) (t : Nat) (x : Tile) : (s.setTile t x).agenda = s.agenda := rfl
@[simp] theorem State.setTile_cur (s : State) (t : Nat) (x : Tile) : (s.setTile t x).cur = s.cur := rfl
@[simp] theorem State.setTile_waves (s : State) (t : Nat) (x : Tile) : (s.setTile t x).waves = s.waves := rfl
@[simp] theorem State.setTile_streams (s : State) (t : Nat) (x : Tile) : (s.setTile t x).streams = s.streams := rfl
@[simp] theorem State.setTile_teams (s : State) (t : Nat) (x : Tile) : (s.setTile t x).teams = s.teams := rfl
@[simp] theorem State.setTile_groups (s : State) (t : Nat) (x : Tile) : (s.setTile t x).groups = s.groups := rfl
@[simp] theorem State.setTile_launches (s : State) (t : Nat) (x : Tile) : (s.setTile t x).launches = s.launches := rfl
@[simp] theorem State.setTile_lqs (s : State) (t : Nat) (x : Tile) : (s.setTile t x).lqs = s.lqs := rfl
@[simp] theorem State.setTile_cmds (s : State) (t : Nat) (x : Tile) : (s.setTile t x).cmds = s.cmds := rfl
@[simp] theorem State.setTile_treqs (s : State) (t : Nat) (x : Tile) : (s.setTile t x).treqs = s.treqs := rfl
@[simp] theorem State.setTile_flits (s : State) (t : Nat) (x : Tile) : (s.setTile t x).flits = s.flits := rfl
@[simp] theorem State.setTile_cores (s : State) (t : Nat) (x : Tile) : (s.setTile t x).cores = s.cores := rfl
@[simp] theorem State.setTile_clusters (s : State) (t : Nat) (x : Tile) : (s.setTile t x).clusters = s.clusters := rfl
@[simp] theorem State.setTile_slices (s : State) (t : Nat) (x : Tile) : (s.setTile t x).slices = s.slices := rfl
@[simp] theorem State.setTile_dies (s : State) (t : Nat) (x : Tile) : (s.setTile t x).dies = s.dies := rfl
@[simp] theorem State.setTile_pix (s : State) (t : Nat) (x : Tile) : (s.setTile t x).pix = s.pix := rfl
@[simp] theorem State.setTile_buffers (s : State) (t : Nat) (x : Tile) : (s.setTile t x).buffers = s.buffers := rfl
@[simp] theorem State.setTile_materials (s : State) (t : Nat) (x : Tile) : (s.setTile t x).materials = s.materials := rfl
@[simp] theorem State.setTile_counters (s : State) (t : Nat) (x : Tile) : (s.setTile t x).counters = s.counters := rfl
@[simp] theorem State.setTile_mem (s : State) (t : Nat) (x : Tile) : (s.setTile t x).mem = s.mem := rfl
@[simp] theorem State.setTile_win (s : State) (t : Nat) (x : Tile) : (s.setTile t x).win = s.win := rfl
@[simp] theorem State.setTile_fred (s : State) (t : Nat) (x : Tile) : (s.setTile t x).fred = s.fred := rfl
@[simp] theorem State.setTile_vac (s : State) (t : Nat) (x : Tile) : (s.setTile t x).vac = s.vac := rfl
@[simp] theorem State.setTile_saved (s : State) (t : Nat) (x : Tile) : (s.setTile t x).saved = s.saved := rfl
@[simp] theorem State.setTile_refused (s : State) (t : Nat) (x : Tile) : (s.setTile t x).refused = s.refused := rfl
@[simp] theorem State.setTile_walked (s : State) (t : Nat) (x : Tile) : (s.setTile t x).walked = s.walked := rfl
@[simp] theorem State.setTile_lack (s : State) (t : Nat) (x : Tile) : (s.setTile t x).lack = s.lack := rfl

/-! ### setLq -/

@[simp] theorem State.setLq_ck (s : State) (q : Nat) (x : LQueue) : (s.setLq q x).ck = s.ck := rfl
@[simp] theorem State.setLq_time (s : State) (q : Nat) (x : LQueue) : (s.setLq q x).time = s.time := rfl
@[simp] theorem State.setLq_stretch (s : State) (q : Nat) (x : LQueue) : (s.setLq q x).stretch = s.stretch := rfl
@[simp] theorem State.setLq_window (s : State) (q : Nat) (x : LQueue) : (s.setLq q x).window = s.window := rfl
@[simp] theorem State.setLq_ctxStart (s : State) (q : Nat) (x : LQueue) : (s.setLq q x).ctxStart = s.ctxStart := rfl
@[simp] theorem State.setLq_expired (s : State) (q : Nat) (x : LQueue) : (s.setLq q x).expired = s.expired := rfl
@[simp] theorem State.setLq_fresh (s : State) (q : Nat) (x : LQueue) : (s.setLq q x).fresh = s.fresh := rfl
@[simp] theorem State.setLq_nextId (s : State) (q : Nat) (x : LQueue) : (s.setLq q x).nextId = s.nextId := rfl
@[simp] theorem State.setLq_agenda (s : State) (q : Nat) (x : LQueue) : (s.setLq q x).agenda = s.agenda := rfl
@[simp] theorem State.setLq_cur (s : State) (q : Nat) (x : LQueue) : (s.setLq q x).cur = s.cur := rfl
@[simp] theorem State.setLq_waves (s : State) (q : Nat) (x : LQueue) : (s.setLq q x).waves = s.waves := rfl
@[simp] theorem State.setLq_streams (s : State) (q : Nat) (x : LQueue) : (s.setLq q x).streams = s.streams := rfl
@[simp] theorem State.setLq_teams (s : State) (q : Nat) (x : LQueue) : (s.setLq q x).teams = s.teams := rfl
@[simp] theorem State.setLq_groups (s : State) (q : Nat) (x : LQueue) : (s.setLq q x).groups = s.groups := rfl
@[simp] theorem State.setLq_launches (s : State) (q : Nat) (x : LQueue) : (s.setLq q x).launches = s.launches := rfl
@[simp] theorem State.setLq_cmds (s : State) (q : Nat) (x : LQueue) : (s.setLq q x).cmds = s.cmds := rfl
@[simp] theorem State.setLq_treqs (s : State) (q : Nat) (x : LQueue) : (s.setLq q x).treqs = s.treqs := rfl
@[simp] theorem State.setLq_flits (s : State) (q : Nat) (x : LQueue) : (s.setLq q x).flits = s.flits := rfl
@[simp] theorem State.setLq_cores (s : State) (q : Nat) (x : LQueue) : (s.setLq q x).cores = s.cores := rfl
@[simp] theorem State.setLq_clusters (s : State) (q : Nat) (x : LQueue) : (s.setLq q x).clusters = s.clusters := rfl
@[simp] theorem State.setLq_slices (s : State) (q : Nat) (x : LQueue) : (s.setLq q x).slices = s.slices := rfl
@[simp] theorem State.setLq_dies (s : State) (q : Nat) (x : LQueue) : (s.setLq q x).dies = s.dies := rfl
@[simp] theorem State.setLq_tiles (s : State) (q : Nat) (x : LQueue) : (s.setLq q x).tiles = s.tiles := rfl
@[simp] theorem State.setLq_pix (s : State) (q : Nat) (x : LQueue) : (s.setLq q x).pix = s.pix := rfl
@[simp] theorem State.setLq_buffers (s : State) (q : Nat) (x : LQueue) : (s.setLq q x).buffers = s.buffers := rfl
@[simp] theorem State.setLq_materials (s : State) (q : Nat) (x : LQueue) : (s.setLq q x).materials = s.materials := rfl
@[simp] theorem State.setLq_counters (s : State) (q : Nat) (x : LQueue) : (s.setLq q x).counters = s.counters := rfl
@[simp] theorem State.setLq_mem (s : State) (q : Nat) (x : LQueue) : (s.setLq q x).mem = s.mem := rfl
@[simp] theorem State.setLq_win (s : State) (q : Nat) (x : LQueue) : (s.setLq q x).win = s.win := rfl
@[simp] theorem State.setLq_fred (s : State) (q : Nat) (x : LQueue) : (s.setLq q x).fred = s.fred := rfl
@[simp] theorem State.setLq_vac (s : State) (q : Nat) (x : LQueue) : (s.setLq q x).vac = s.vac := rfl
@[simp] theorem State.setLq_saved (s : State) (q : Nat) (x : LQueue) : (s.setLq q x).saved = s.saved := rfl
@[simp] theorem State.setLq_refused (s : State) (q : Nat) (x : LQueue) : (s.setLq q x).refused = s.refused := rfl
@[simp] theorem State.setLq_walked (s : State) (q : Nat) (x : LQueue) : (s.setLq q x).walked = s.walked := rfl
@[simp] theorem State.setLq_lack (s : State) (q : Nat) (x : LQueue) : (s.setLq q x).lack = s.lack := rfl

/-! ### setWin -/

@[simp] theorem State.setWin_ck (s : State) (f : Window → Window) : (s.setWin f).ck = s.ck := rfl
@[simp] theorem State.setWin_time (s : State) (f : Window → Window) : (s.setWin f).time = s.time := rfl
@[simp] theorem State.setWin_stretch (s : State) (f : Window → Window) : (s.setWin f).stretch = s.stretch := rfl
@[simp] theorem State.setWin_window (s : State) (f : Window → Window) : (s.setWin f).window = s.window := rfl
@[simp] theorem State.setWin_ctxStart (s : State) (f : Window → Window) : (s.setWin f).ctxStart = s.ctxStart := rfl
@[simp] theorem State.setWin_expired (s : State) (f : Window → Window) : (s.setWin f).expired = s.expired := rfl
@[simp] theorem State.setWin_fresh (s : State) (f : Window → Window) : (s.setWin f).fresh = s.fresh := rfl
@[simp] theorem State.setWin_nextId (s : State) (f : Window → Window) : (s.setWin f).nextId = s.nextId := rfl
@[simp] theorem State.setWin_agenda (s : State) (f : Window → Window) : (s.setWin f).agenda = s.agenda := rfl
@[simp] theorem State.setWin_cur (s : State) (f : Window → Window) : (s.setWin f).cur = s.cur := rfl
@[simp] theorem State.setWin_waves (s : State) (f : Window → Window) : (s.setWin f).waves = s.waves := rfl
@[simp] theorem State.setWin_streams (s : State) (f : Window → Window) : (s.setWin f).streams = s.streams := rfl
@[simp] theorem State.setWin_teams (s : State) (f : Window → Window) : (s.setWin f).teams = s.teams := rfl
@[simp] theorem State.setWin_groups (s : State) (f : Window → Window) : (s.setWin f).groups = s.groups := rfl
@[simp] theorem State.setWin_launches (s : State) (f : Window → Window) : (s.setWin f).launches = s.launches := rfl
@[simp] theorem State.setWin_lqs (s : State) (f : Window → Window) : (s.setWin f).lqs = s.lqs := rfl
@[simp] theorem State.setWin_cmds (s : State) (f : Window → Window) : (s.setWin f).cmds = s.cmds := rfl
@[simp] theorem State.setWin_treqs (s : State) (f : Window → Window) : (s.setWin f).treqs = s.treqs := rfl
@[simp] theorem State.setWin_flits (s : State) (f : Window → Window) : (s.setWin f).flits = s.flits := rfl
@[simp] theorem State.setWin_cores (s : State) (f : Window → Window) : (s.setWin f).cores = s.cores := rfl
@[simp] theorem State.setWin_clusters (s : State) (f : Window → Window) : (s.setWin f).clusters = s.clusters := rfl
@[simp] theorem State.setWin_slices (s : State) (f : Window → Window) : (s.setWin f).slices = s.slices := rfl
@[simp] theorem State.setWin_dies (s : State) (f : Window → Window) : (s.setWin f).dies = s.dies := rfl
@[simp] theorem State.setWin_tiles (s : State) (f : Window → Window) : (s.setWin f).tiles = s.tiles := rfl
@[simp] theorem State.setWin_pix (s : State) (f : Window → Window) : (s.setWin f).pix = s.pix := rfl
@[simp] theorem State.setWin_buffers (s : State) (f : Window → Window) : (s.setWin f).buffers = s.buffers := rfl
@[simp] theorem State.setWin_materials (s : State) (f : Window → Window) : (s.setWin f).materials = s.materials := rfl
@[simp] theorem State.setWin_counters (s : State) (f : Window → Window) : (s.setWin f).counters = s.counters := rfl
@[simp] theorem State.setWin_mem (s : State) (f : Window → Window) : (s.setWin f).mem = s.mem := rfl
@[simp] theorem State.setWin_fred (s : State) (f : Window → Window) : (s.setWin f).fred = s.fred := rfl
@[simp] theorem State.setWin_vac (s : State) (f : Window → Window) : (s.setWin f).vac = s.vac := rfl
@[simp] theorem State.setWin_saved (s : State) (f : Window → Window) : (s.setWin f).saved = s.saved := rfl
@[simp] theorem State.setWin_refused (s : State) (f : Window → Window) : (s.setWin f).refused = s.refused := rfl
@[simp] theorem State.setWin_walked (s : State) (f : Window → Window) : (s.setWin f).walked = s.walked := rfl
@[simp] theorem State.setWin_lack (s : State) (f : Window → Window) : (s.setWin f).lack = s.lack := rfl

/-! ### setFred -/

@[simp] theorem State.setFred_ck (s : State) (f : Fred → Fred) : (s.setFred f).ck = s.ck := rfl
@[simp] theorem State.setFred_time (s : State) (f : Fred → Fred) : (s.setFred f).time = s.time := rfl
@[simp] theorem State.setFred_stretch (s : State) (f : Fred → Fred) : (s.setFred f).stretch = s.stretch := rfl
@[simp] theorem State.setFred_window (s : State) (f : Fred → Fred) : (s.setFred f).window = s.window := rfl
@[simp] theorem State.setFred_ctxStart (s : State) (f : Fred → Fred) : (s.setFred f).ctxStart = s.ctxStart := rfl
@[simp] theorem State.setFred_expired (s : State) (f : Fred → Fred) : (s.setFred f).expired = s.expired := rfl
@[simp] theorem State.setFred_fresh (s : State) (f : Fred → Fred) : (s.setFred f).fresh = s.fresh := rfl
@[simp] theorem State.setFred_nextId (s : State) (f : Fred → Fred) : (s.setFred f).nextId = s.nextId := rfl
@[simp] theorem State.setFred_agenda (s : State) (f : Fred → Fred) : (s.setFred f).agenda = s.agenda := rfl
@[simp] theorem State.setFred_cur (s : State) (f : Fred → Fred) : (s.setFred f).cur = s.cur := rfl
@[simp] theorem State.setFred_waves (s : State) (f : Fred → Fred) : (s.setFred f).waves = s.waves := rfl
@[simp] theorem State.setFred_streams (s : State) (f : Fred → Fred) : (s.setFred f).streams = s.streams := rfl
@[simp] theorem State.setFred_teams (s : State) (f : Fred → Fred) : (s.setFred f).teams = s.teams := rfl
@[simp] theorem State.setFred_groups (s : State) (f : Fred → Fred) : (s.setFred f).groups = s.groups := rfl
@[simp] theorem State.setFred_launches (s : State) (f : Fred → Fred) : (s.setFred f).launches = s.launches := rfl
@[simp] theorem State.setFred_lqs (s : State) (f : Fred → Fred) : (s.setFred f).lqs = s.lqs := rfl
@[simp] theorem State.setFred_cmds (s : State) (f : Fred → Fred) : (s.setFred f).cmds = s.cmds := rfl
@[simp] theorem State.setFred_treqs (s : State) (f : Fred → Fred) : (s.setFred f).treqs = s.treqs := rfl
@[simp] theorem State.setFred_flits (s : State) (f : Fred → Fred) : (s.setFred f).flits = s.flits := rfl
@[simp] theorem State.setFred_cores (s : State) (f : Fred → Fred) : (s.setFred f).cores = s.cores := rfl
@[simp] theorem State.setFred_clusters (s : State) (f : Fred → Fred) : (s.setFred f).clusters = s.clusters := rfl
@[simp] theorem State.setFred_slices (s : State) (f : Fred → Fred) : (s.setFred f).slices = s.slices := rfl
@[simp] theorem State.setFred_dies (s : State) (f : Fred → Fred) : (s.setFred f).dies = s.dies := rfl
@[simp] theorem State.setFred_tiles (s : State) (f : Fred → Fred) : (s.setFred f).tiles = s.tiles := rfl
@[simp] theorem State.setFred_pix (s : State) (f : Fred → Fred) : (s.setFred f).pix = s.pix := rfl
@[simp] theorem State.setFred_buffers (s : State) (f : Fred → Fred) : (s.setFred f).buffers = s.buffers := rfl
@[simp] theorem State.setFred_materials (s : State) (f : Fred → Fred) : (s.setFred f).materials = s.materials := rfl
@[simp] theorem State.setFred_counters (s : State) (f : Fred → Fred) : (s.setFred f).counters = s.counters := rfl
@[simp] theorem State.setFred_mem (s : State) (f : Fred → Fred) : (s.setFred f).mem = s.mem := rfl
@[simp] theorem State.setFred_win (s : State) (f : Fred → Fred) : (s.setFred f).win = s.win := rfl
@[simp] theorem State.setFred_vac (s : State) (f : Fred → Fred) : (s.setFred f).vac = s.vac := rfl
@[simp] theorem State.setFred_saved (s : State) (f : Fred → Fred) : (s.setFred f).saved = s.saved := rfl
@[simp] theorem State.setFred_refused (s : State) (f : Fred → Fred) : (s.setFred f).refused = s.refused := rfl
@[simp] theorem State.setFred_walked (s : State) (f : Fred → Fred) : (s.setFred f).walked = s.walked := rfl
@[simp] theorem State.setFred_lack (s : State) (f : Fred → Fred) : (s.setFred f).lack = s.lack := rfl

/-! ### updTreq -/

@[simp] theorem State.updTreq_ck (s : State) (r : Nat) (g : TReq → TReq) : (s.updTreq r g).ck = s.ck := rfl
@[simp] theorem State.updTreq_time (s : State) (r : Nat) (g : TReq → TReq) : (s.updTreq r g).time = s.time := rfl
@[simp] theorem State.updTreq_stretch (s : State) (r : Nat) (g : TReq → TReq) : (s.updTreq r g).stretch = s.stretch := rfl
@[simp] theorem State.updTreq_window (s : State) (r : Nat) (g : TReq → TReq) : (s.updTreq r g).window = s.window := rfl
@[simp] theorem State.updTreq_ctxStart (s : State) (r : Nat) (g : TReq → TReq) : (s.updTreq r g).ctxStart = s.ctxStart := rfl
@[simp] theorem State.updTreq_expired (s : State) (r : Nat) (g : TReq → TReq) : (s.updTreq r g).expired = s.expired := rfl
@[simp] theorem State.updTreq_fresh (s : State) (r : Nat) (g : TReq → TReq) : (s.updTreq r g).fresh = s.fresh := rfl
@[simp] theorem State.updTreq_nextId (s : State) (r : Nat) (g : TReq → TReq) : (s.updTreq r g).nextId = s.nextId := rfl
@[simp] theorem State.updTreq_agenda (s : State) (r : Nat) (g : TReq → TReq) : (s.updTreq r g).agenda = s.agenda := rfl
@[simp] theorem State.updTreq_cur (s : State) (r : Nat) (g : TReq → TReq) : (s.updTreq r g).cur = s.cur := rfl
@[simp] theorem State.updTreq_waves (s : State) (r : Nat) (g : TReq → TReq) : (s.updTreq r g).waves = s.waves := rfl
@[simp] theorem State.updTreq_streams (s : State) (r : Nat) (g : TReq → TReq) : (s.updTreq r g).streams = s.streams := rfl
@[simp] theorem State.updTreq_teams (s : State) (r : Nat) (g : TReq → TReq) : (s.updTreq r g).teams = s.teams := rfl
@[simp] theorem State.updTreq_groups (s : State) (r : Nat) (g : TReq → TReq) : (s.updTreq r g).groups = s.groups := rfl
@[simp] theorem State.updTreq_launches (s : State) (r : Nat) (g : TReq → TReq) : (s.updTreq r g).launches = s.launches := rfl
@[simp] theorem State.updTreq_lqs (s : State) (r : Nat) (g : TReq → TReq) : (s.updTreq r g).lqs = s.lqs := rfl
@[simp] theorem State.updTreq_cmds (s : State) (r : Nat) (g : TReq → TReq) : (s.updTreq r g).cmds = s.cmds := rfl
@[simp] theorem State.updTreq_flits (s : State) (r : Nat) (g : TReq → TReq) : (s.updTreq r g).flits = s.flits := rfl
@[simp] theorem State.updTreq_cores (s : State) (r : Nat) (g : TReq → TReq) : (s.updTreq r g).cores = s.cores := rfl
@[simp] theorem State.updTreq_clusters (s : State) (r : Nat) (g : TReq → TReq) : (s.updTreq r g).clusters = s.clusters := rfl
@[simp] theorem State.updTreq_slices (s : State) (r : Nat) (g : TReq → TReq) : (s.updTreq r g).slices = s.slices := rfl
@[simp] theorem State.updTreq_dies (s : State) (r : Nat) (g : TReq → TReq) : (s.updTreq r g).dies = s.dies := rfl
@[simp] theorem State.updTreq_tiles (s : State) (r : Nat) (g : TReq → TReq) : (s.updTreq r g).tiles = s.tiles := rfl
@[simp] theorem State.updTreq_pix (s : State) (r : Nat) (g : TReq → TReq) : (s.updTreq r g).pix = s.pix := rfl
@[simp] theorem State.updTreq_buffers (s : State) (r : Nat) (g : TReq → TReq) : (s.updTreq r g).buffers = s.buffers := rfl
@[simp] theorem State.updTreq_materials (s : State) (r : Nat) (g : TReq → TReq) : (s.updTreq r g).materials = s.materials := rfl
@[simp] theorem State.updTreq_counters (s : State) (r : Nat) (g : TReq → TReq) : (s.updTreq r g).counters = s.counters := rfl
@[simp] theorem State.updTreq_mem (s : State) (r : Nat) (g : TReq → TReq) : (s.updTreq r g).mem = s.mem := rfl
@[simp] theorem State.updTreq_win (s : State) (r : Nat) (g : TReq → TReq) : (s.updTreq r g).win = s.win := rfl
@[simp] theorem State.updTreq_fred (s : State) (r : Nat) (g : TReq → TReq) : (s.updTreq r g).fred = s.fred := rfl
@[simp] theorem State.updTreq_vac (s : State) (r : Nat) (g : TReq → TReq) : (s.updTreq r g).vac = s.vac := rfl
@[simp] theorem State.updTreq_saved (s : State) (r : Nat) (g : TReq → TReq) : (s.updTreq r g).saved = s.saved := rfl
@[simp] theorem State.updTreq_refused (s : State) (r : Nat) (g : TReq → TReq) : (s.updTreq r g).refused = s.refused := rfl
@[simp] theorem State.updTreq_walked (s : State) (r : Nat) (g : TReq → TReq) : (s.updTreq r g).walked = s.walked := rfl
@[simp] theorem State.updTreq_lack (s : State) (r : Nat) (g : TReq → TReq) : (s.updTreq r g).lack = s.lack := rfl

/-! ### setChain -/

@[simp] theorem State.setChain_ck (s : State) (c n : Nat) (x : Chain) : (s.setChain c n x).ck = s.ck := rfl
@[simp] theorem State.setChain_time (s : State) (c n : Nat) (x : Chain) : (s.setChain c n x).time = s.time := rfl
@[simp] theorem State.setChain_stretch (s : State) (c n : Nat) (x : Chain) : (s.setChain c n x).stretch = s.stretch := rfl
@[simp] theorem State.setChain_window (s : State) (c n : Nat) (x : Chain) : (s.setChain c n x).window = s.window := rfl
@[simp] theorem State.setChain_ctxStart (s : State) (c n : Nat) (x : Chain) : (s.setChain c n x).ctxStart = s.ctxStart := rfl
@[simp] theorem State.setChain_expired (s : State) (c n : Nat) (x : Chain) : (s.setChain c n x).expired = s.expired := rfl
@[simp] theorem State.setChain_fresh (s : State) (c n : Nat) (x : Chain) : (s.setChain c n x).fresh = s.fresh := rfl
@[simp] theorem State.setChain_nextId (s : State) (c n : Nat) (x : Chain) : (s.setChain c n x).nextId = s.nextId := rfl
@[simp] theorem State.setChain_agenda (s : State) (c n : Nat) (x : Chain) : (s.setChain c n x).agenda = s.agenda := rfl
@[simp] theorem State.setChain_cur (s : State) (c n : Nat) (x : Chain) : (s.setChain c n x).cur = s.cur := rfl
@[simp] theorem State.setChain_waves (s : State) (c n : Nat) (x : Chain) : (s.setChain c n x).waves = s.waves := rfl
@[simp] theorem State.setChain_streams (s : State) (c n : Nat) (x : Chain) : (s.setChain c n x).streams = s.streams := rfl
@[simp] theorem State.setChain_teams (s : State) (c n : Nat) (x : Chain) : (s.setChain c n x).teams = s.teams := rfl
@[simp] theorem State.setChain_groups (s : State) (c n : Nat) (x : Chain) : (s.setChain c n x).groups = s.groups := rfl
@[simp] theorem State.setChain_launches (s : State) (c n : Nat) (x : Chain) : (s.setChain c n x).launches = s.launches := rfl
@[simp] theorem State.setChain_lqs (s : State) (c n : Nat) (x : Chain) : (s.setChain c n x).lqs = s.lqs := rfl
@[simp] theorem State.setChain_cmds (s : State) (c n : Nat) (x : Chain) : (s.setChain c n x).cmds = s.cmds := rfl
@[simp] theorem State.setChain_treqs (s : State) (c n : Nat) (x : Chain) : (s.setChain c n x).treqs = s.treqs := rfl
@[simp] theorem State.setChain_flits (s : State) (c n : Nat) (x : Chain) : (s.setChain c n x).flits = s.flits := rfl
@[simp] theorem State.setChain_clusters (s : State) (c n : Nat) (x : Chain) : (s.setChain c n x).clusters = s.clusters := rfl
@[simp] theorem State.setChain_slices (s : State) (c n : Nat) (x : Chain) : (s.setChain c n x).slices = s.slices := rfl
@[simp] theorem State.setChain_dies (s : State) (c n : Nat) (x : Chain) : (s.setChain c n x).dies = s.dies := rfl
@[simp] theorem State.setChain_tiles (s : State) (c n : Nat) (x : Chain) : (s.setChain c n x).tiles = s.tiles := rfl
@[simp] theorem State.setChain_pix (s : State) (c n : Nat) (x : Chain) : (s.setChain c n x).pix = s.pix := rfl
@[simp] theorem State.setChain_buffers (s : State) (c n : Nat) (x : Chain) : (s.setChain c n x).buffers = s.buffers := rfl
@[simp] theorem State.setChain_materials (s : State) (c n : Nat) (x : Chain) : (s.setChain c n x).materials = s.materials := rfl
@[simp] theorem State.setChain_counters (s : State) (c n : Nat) (x : Chain) : (s.setChain c n x).counters = s.counters := rfl
@[simp] theorem State.setChain_mem (s : State) (c n : Nat) (x : Chain) : (s.setChain c n x).mem = s.mem := rfl
@[simp] theorem State.setChain_win (s : State) (c n : Nat) (x : Chain) : (s.setChain c n x).win = s.win := rfl
@[simp] theorem State.setChain_fred (s : State) (c n : Nat) (x : Chain) : (s.setChain c n x).fred = s.fred := rfl
@[simp] theorem State.setChain_vac (s : State) (c n : Nat) (x : Chain) : (s.setChain c n x).vac = s.vac := rfl
@[simp] theorem State.setChain_saved (s : State) (c n : Nat) (x : Chain) : (s.setChain c n x).saved = s.saved := rfl
@[simp] theorem State.setChain_refused (s : State) (c n : Nat) (x : Chain) : (s.setChain c n x).refused = s.refused := rfl
@[simp] theorem State.setChain_walked (s : State) (c n : Nat) (x : Chain) : (s.setChain c n x).walked = s.walked := rfl
@[simp] theorem State.setChain_lack (s : State) (c n : Nat) (x : Chain) : (s.setChain c n x).lack = s.lack := rfl

/-! ### setCol -/

@[simp] theorem State.setCol_ck (s : State) (c l : Nat) (x : ColLine) : (s.setCol c l x).ck = s.ck := rfl
@[simp] theorem State.setCol_time (s : State) (c l : Nat) (x : ColLine) : (s.setCol c l x).time = s.time := rfl
@[simp] theorem State.setCol_stretch (s : State) (c l : Nat) (x : ColLine) : (s.setCol c l x).stretch = s.stretch := rfl
@[simp] theorem State.setCol_window (s : State) (c l : Nat) (x : ColLine) : (s.setCol c l x).window = s.window := rfl
@[simp] theorem State.setCol_ctxStart (s : State) (c l : Nat) (x : ColLine) : (s.setCol c l x).ctxStart = s.ctxStart := rfl
@[simp] theorem State.setCol_expired (s : State) (c l : Nat) (x : ColLine) : (s.setCol c l x).expired = s.expired := rfl
@[simp] theorem State.setCol_fresh (s : State) (c l : Nat) (x : ColLine) : (s.setCol c l x).fresh = s.fresh := rfl
@[simp] theorem State.setCol_nextId (s : State) (c l : Nat) (x : ColLine) : (s.setCol c l x).nextId = s.nextId := rfl
@[simp] theorem State.setCol_agenda (s : State) (c l : Nat) (x : ColLine) : (s.setCol c l x).agenda = s.agenda := rfl
@[simp] theorem State.setCol_cur (s : State) (c l : Nat) (x : ColLine) : (s.setCol c l x).cur = s.cur := rfl
@[simp] theorem State.setCol_waves (s : State) (c l : Nat) (x : ColLine) : (s.setCol c l x).waves = s.waves := rfl
@[simp] theorem State.setCol_streams (s : State) (c l : Nat) (x : ColLine) : (s.setCol c l x).streams = s.streams := rfl
@[simp] theorem State.setCol_teams (s : State) (c l : Nat) (x : ColLine) : (s.setCol c l x).teams = s.teams := rfl
@[simp] theorem State.setCol_groups (s : State) (c l : Nat) (x : ColLine) : (s.setCol c l x).groups = s.groups := rfl
@[simp] theorem State.setCol_launches (s : State) (c l : Nat) (x : ColLine) : (s.setCol c l x).launches = s.launches := rfl
@[simp] theorem State.setCol_lqs (s : State) (c l : Nat) (x : ColLine) : (s.setCol c l x).lqs = s.lqs := rfl
@[simp] theorem State.setCol_cmds (s : State) (c l : Nat) (x : ColLine) : (s.setCol c l x).cmds = s.cmds := rfl
@[simp] theorem State.setCol_treqs (s : State) (c l : Nat) (x : ColLine) : (s.setCol c l x).treqs = s.treqs := rfl
@[simp] theorem State.setCol_flits (s : State) (c l : Nat) (x : ColLine) : (s.setCol c l x).flits = s.flits := rfl
@[simp] theorem State.setCol_cores (s : State) (c l : Nat) (x : ColLine) : (s.setCol c l x).cores = s.cores := rfl
@[simp] theorem State.setCol_clusters (s : State) (c l : Nat) (x : ColLine) : (s.setCol c l x).clusters = s.clusters := rfl
@[simp] theorem State.setCol_slices (s : State) (c l : Nat) (x : ColLine) : (s.setCol c l x).slices = s.slices := rfl
@[simp] theorem State.setCol_dies (s : State) (c l : Nat) (x : ColLine) : (s.setCol c l x).dies = s.dies := rfl
@[simp] theorem State.setCol_tiles (s : State) (c l : Nat) (x : ColLine) : (s.setCol c l x).tiles = s.tiles := rfl
@[simp] theorem State.setCol_pix (s : State) (c l : Nat) (x : ColLine) : (s.setCol c l x).pix = s.pix := rfl
@[simp] theorem State.setCol_buffers (s : State) (c l : Nat) (x : ColLine) : (s.setCol c l x).buffers = s.buffers := rfl
@[simp] theorem State.setCol_materials (s : State) (c l : Nat) (x : ColLine) : (s.setCol c l x).materials = s.materials := rfl
@[simp] theorem State.setCol_counters (s : State) (c l : Nat) (x : ColLine) : (s.setCol c l x).counters = s.counters := rfl
@[simp] theorem State.setCol_win (s : State) (c l : Nat) (x : ColLine) : (s.setCol c l x).win = s.win := rfl
@[simp] theorem State.setCol_fred (s : State) (c l : Nat) (x : ColLine) : (s.setCol c l x).fred = s.fred := rfl
@[simp] theorem State.setCol_vac (s : State) (c l : Nat) (x : ColLine) : (s.setCol c l x).vac = s.vac := rfl
@[simp] theorem State.setCol_saved (s : State) (c l : Nat) (x : ColLine) : (s.setCol c l x).saved = s.saved := rfl
@[simp] theorem State.setCol_refused (s : State) (c l : Nat) (x : ColLine) : (s.setCol c l x).refused = s.refused := rfl
@[simp] theorem State.setCol_walked (s : State) (c l : Nat) (x : ColLine) : (s.setCol c l x).walked = s.walked := rfl
@[simp] theorem State.setCol_lack (s : State) (c l : Nat) (x : ColLine) : (s.setCol c l x).lack = s.lack := rfl

/-! ### dropCol -/

@[simp] theorem State.dropCol_ck (s : State) (c l : Nat) : (s.dropCol c l).ck = s.ck := rfl
@[simp] theorem State.dropCol_time (s : State) (c l : Nat) : (s.dropCol c l).time = s.time := rfl
@[simp] theorem State.dropCol_stretch (s : State) (c l : Nat) : (s.dropCol c l).stretch = s.stretch := rfl
@[simp] theorem State.dropCol_window (s : State) (c l : Nat) : (s.dropCol c l).window = s.window := rfl
@[simp] theorem State.dropCol_ctxStart (s : State) (c l : Nat) : (s.dropCol c l).ctxStart = s.ctxStart := rfl
@[simp] theorem State.dropCol_expired (s : State) (c l : Nat) : (s.dropCol c l).expired = s.expired := rfl
@[simp] theorem State.dropCol_fresh (s : State) (c l : Nat) : (s.dropCol c l).fresh = s.fresh := rfl
@[simp] theorem State.dropCol_nextId (s : State) (c l : Nat) : (s.dropCol c l).nextId = s.nextId := rfl
@[simp] theorem State.dropCol_agenda (s : State) (c l : Nat) : (s.dropCol c l).agenda = s.agenda := rfl
@[simp] theorem State.dropCol_cur (s : State) (c l : Nat) : (s.dropCol c l).cur = s.cur := rfl
@[simp] theorem State.dropCol_waves (s : State) (c l : Nat) : (s.dropCol c l).waves = s.waves := rfl
@[simp] theorem State.dropCol_streams (s : State) (c l : Nat) : (s.dropCol c l).streams = s.streams := rfl
@[simp] theorem State.dropCol_teams (s : State) (c l : Nat) : (s.dropCol c l).teams = s.teams := rfl
@[simp] theorem State.dropCol_groups (s : State) (c l : Nat) : (s.dropCol c l).groups = s.groups := rfl
@[simp] theorem State.dropCol_launches (s : State) (c l : Nat) : (s.dropCol c l).launches = s.launches := rfl
@[simp] theorem State.dropCol_lqs (s : State) (c l : Nat) : (s.dropCol c l).lqs = s.lqs := rfl
@[simp] theorem State.dropCol_cmds (s : State) (c l : Nat) : (s.dropCol c l).cmds = s.cmds := rfl
@[simp] theorem State.dropCol_treqs (s : State) (c l : Nat) : (s.dropCol c l).treqs = s.treqs := rfl
@[simp] theorem State.dropCol_flits (s : State) (c l : Nat) : (s.dropCol c l).flits = s.flits := rfl
@[simp] theorem State.dropCol_cores (s : State) (c l : Nat) : (s.dropCol c l).cores = s.cores := rfl
@[simp] theorem State.dropCol_clusters (s : State) (c l : Nat) : (s.dropCol c l).clusters = s.clusters := rfl
@[simp] theorem State.dropCol_slices (s : State) (c l : Nat) : (s.dropCol c l).slices = s.slices := rfl
@[simp] theorem State.dropCol_dies (s : State) (c l : Nat) : (s.dropCol c l).dies = s.dies := rfl
@[simp] theorem State.dropCol_tiles (s : State) (c l : Nat) : (s.dropCol c l).tiles = s.tiles := rfl
@[simp] theorem State.dropCol_pix (s : State) (c l : Nat) : (s.dropCol c l).pix = s.pix := rfl
@[simp] theorem State.dropCol_buffers (s : State) (c l : Nat) : (s.dropCol c l).buffers = s.buffers := rfl
@[simp] theorem State.dropCol_materials (s : State) (c l : Nat) : (s.dropCol c l).materials = s.materials := rfl
@[simp] theorem State.dropCol_counters (s : State) (c l : Nat) : (s.dropCol c l).counters = s.counters := rfl
@[simp] theorem State.dropCol_win (s : State) (c l : Nat) : (s.dropCol c l).win = s.win := rfl
@[simp] theorem State.dropCol_fred (s : State) (c l : Nat) : (s.dropCol c l).fred = s.fred := rfl
@[simp] theorem State.dropCol_vac (s : State) (c l : Nat) : (s.dropCol c l).vac = s.vac := rfl
@[simp] theorem State.dropCol_saved (s : State) (c l : Nat) : (s.dropCol c l).saved = s.saved := rfl
@[simp] theorem State.dropCol_refused (s : State) (c l : Nat) : (s.dropCol c l).refused = s.refused := rfl
@[simp] theorem State.dropCol_walked (s : State) (c l : Nat) : (s.dropCol c l).walked = s.walked := rfl
@[simp] theorem State.dropCol_lack (s : State) (c l : Nat) : (s.dropCol c l).lack = s.lack := rfl

/-! ### count -/

@[simp] theorem State.count_ck (s : State) (d i x n : Nat) : (s.count d i x n).ck = s.ck := rfl
@[simp] theorem State.count_time (s : State) (d i x n : Nat) : (s.count d i x n).time = s.time := rfl
@[simp] theorem State.count_stretch (s : State) (d i x n : Nat) : (s.count d i x n).stretch = s.stretch := rfl
@[simp] theorem State.count_window (s : State) (d i x n : Nat) : (s.count d i x n).window = s.window := rfl
@[simp] theorem State.count_ctxStart (s : State) (d i x n : Nat) : (s.count d i x n).ctxStart = s.ctxStart := rfl
@[simp] theorem State.count_expired (s : State) (d i x n : Nat) : (s.count d i x n).expired = s.expired := rfl
@[simp] theorem State.count_fresh (s : State) (d i x n : Nat) : (s.count d i x n).fresh = s.fresh := rfl
@[simp] theorem State.count_nextId (s : State) (d i x n : Nat) : (s.count d i x n).nextId = s.nextId := rfl
@[simp] theorem State.count_agenda (s : State) (d i x n : Nat) : (s.count d i x n).agenda = s.agenda := rfl
@[simp] theorem State.count_cur (s : State) (d i x n : Nat) : (s.count d i x n).cur = s.cur := rfl
@[simp] theorem State.count_waves (s : State) (d i x n : Nat) : (s.count d i x n).waves = s.waves := rfl
@[simp] theorem State.count_streams (s : State) (d i x n : Nat) : (s.count d i x n).streams = s.streams := rfl
@[simp] theorem State.count_teams (s : State) (d i x n : Nat) : (s.count d i x n).teams = s.teams := rfl
@[simp] theorem State.count_groups (s : State) (d i x n : Nat) : (s.count d i x n).groups = s.groups := rfl
@[simp] theorem State.count_launches (s : State) (d i x n : Nat) : (s.count d i x n).launches = s.launches := rfl
@[simp] theorem State.count_lqs (s : State) (d i x n : Nat) : (s.count d i x n).lqs = s.lqs := rfl
@[simp] theorem State.count_cmds (s : State) (d i x n : Nat) : (s.count d i x n).cmds = s.cmds := rfl
@[simp] theorem State.count_treqs (s : State) (d i x n : Nat) : (s.count d i x n).treqs = s.treqs := rfl
@[simp] theorem State.count_flits (s : State) (d i x n : Nat) : (s.count d i x n).flits = s.flits := rfl
@[simp] theorem State.count_cores (s : State) (d i x n : Nat) : (s.count d i x n).cores = s.cores := rfl
@[simp] theorem State.count_clusters (s : State) (d i x n : Nat) : (s.count d i x n).clusters = s.clusters := rfl
@[simp] theorem State.count_slices (s : State) (d i x n : Nat) : (s.count d i x n).slices = s.slices := rfl
@[simp] theorem State.count_dies (s : State) (d i x n : Nat) : (s.count d i x n).dies = s.dies := rfl
@[simp] theorem State.count_tiles (s : State) (d i x n : Nat) : (s.count d i x n).tiles = s.tiles := rfl
@[simp] theorem State.count_pix (s : State) (d i x n : Nat) : (s.count d i x n).pix = s.pix := rfl
@[simp] theorem State.count_buffers (s : State) (d i x n : Nat) : (s.count d i x n).buffers = s.buffers := rfl
@[simp] theorem State.count_materials (s : State) (d i x n : Nat) : (s.count d i x n).materials = s.materials := rfl
@[simp] theorem State.count_mem (s : State) (d i x n : Nat) : (s.count d i x n).mem = s.mem := rfl
@[simp] theorem State.count_win (s : State) (d i x n : Nat) : (s.count d i x n).win = s.win := rfl
@[simp] theorem State.count_fred (s : State) (d i x n : Nat) : (s.count d i x n).fred = s.fred := rfl
@[simp] theorem State.count_vac (s : State) (d i x n : Nat) : (s.count d i x n).vac = s.vac := rfl
@[simp] theorem State.count_saved (s : State) (d i x n : Nat) : (s.count d i x n).saved = s.saved := rfl
@[simp] theorem State.count_refused (s : State) (d i x n : Nat) : (s.count d i x n).refused = s.refused := rfl
@[simp] theorem State.count_walked (s : State) (d i x n : Nat) : (s.count d i x n).walked = s.walked := rfl
@[simp] theorem State.count_lack (s : State) (d i x n : Nat) : (s.count d i x n).lack = s.lack := rfl

/-! ### updChan -/

@[simp] theorem State.updChan_ck (s : State) (t n : Nat) (g : Chan → Chan) : (s.updChan t n g).ck = s.ck := rfl
@[simp] theorem State.updChan_time (s : State) (t n : Nat) (g : Chan → Chan) : (s.updChan t n g).time = s.time := rfl
@[simp] theorem State.updChan_stretch (s : State) (t n : Nat) (g : Chan → Chan) : (s.updChan t n g).stretch = s.stretch := rfl
@[simp] theorem State.updChan_window (s : State) (t n : Nat) (g : Chan → Chan) : (s.updChan t n g).window = s.window := rfl
@[simp] theorem State.updChan_ctxStart (s : State) (t n : Nat) (g : Chan → Chan) : (s.updChan t n g).ctxStart = s.ctxStart := rfl
@[simp] theorem State.updChan_expired (s : State) (t n : Nat) (g : Chan → Chan) : (s.updChan t n g).expired = s.expired := rfl
@[simp] theorem State.updChan_fresh (s : State) (t n : Nat) (g : Chan → Chan) : (s.updChan t n g).fresh = s.fresh := rfl
@[simp] theorem State.updChan_nextId (s : State) (t n : Nat) (g : Chan → Chan) : (s.updChan t n g).nextId = s.nextId := rfl
@[simp] theorem State.updChan_agenda (s : State) (t n : Nat) (g : Chan → Chan) : (s.updChan t n g).agenda = s.agenda := rfl
@[simp] theorem State.updChan_cur (s : State) (t n : Nat) (g : Chan → Chan) : (s.updChan t n g).cur = s.cur := rfl
@[simp] theorem State.updChan_waves (s : State) (t n : Nat) (g : Chan → Chan) : (s.updChan t n g).waves = s.waves := rfl
@[simp] theorem State.updChan_streams (s : State) (t n : Nat) (g : Chan → Chan) : (s.updChan t n g).streams = s.streams := rfl
@[simp] theorem State.updChan_groups (s : State) (t n : Nat) (g : Chan → Chan) : (s.updChan t n g).groups = s.groups := rfl
@[simp] theorem State.updChan_launches (s : State) (t n : Nat) (g : Chan → Chan) : (s.updChan t n g).launches = s.launches := rfl
@[simp] theorem State.updChan_lqs (s : State) (t n : Nat) (g : Chan → Chan) : (s.updChan t n g).lqs = s.lqs := rfl
@[simp] theorem State.updChan_cmds (s : State) (t n : Nat) (g : Chan → Chan) : (s.updChan t n g).cmds = s.cmds := rfl
@[simp] theorem State.updChan_treqs (s : State) (t n : Nat) (g : Chan → Chan) : (s.updChan t n g).treqs = s.treqs := rfl
@[simp] theorem State.updChan_flits (s : State) (t n : Nat) (g : Chan → Chan) : (s.updChan t n g).flits = s.flits := rfl
@[simp] theorem State.updChan_cores (s : State) (t n : Nat) (g : Chan → Chan) : (s.updChan t n g).cores = s.cores := rfl
@[simp] theorem State.updChan_clusters (s : State) (t n : Nat) (g : Chan → Chan) : (s.updChan t n g).clusters = s.clusters := rfl
@[simp] theorem State.updChan_slices (s : State) (t n : Nat) (g : Chan → Chan) : (s.updChan t n g).slices = s.slices := rfl
@[simp] theorem State.updChan_dies (s : State) (t n : Nat) (g : Chan → Chan) : (s.updChan t n g).dies = s.dies := rfl
@[simp] theorem State.updChan_tiles (s : State) (t n : Nat) (g : Chan → Chan) : (s.updChan t n g).tiles = s.tiles := rfl
@[simp] theorem State.updChan_pix (s : State) (t n : Nat) (g : Chan → Chan) : (s.updChan t n g).pix = s.pix := rfl
@[simp] theorem State.updChan_buffers (s : State) (t n : Nat) (g : Chan → Chan) : (s.updChan t n g).buffers = s.buffers := rfl
@[simp] theorem State.updChan_materials (s : State) (t n : Nat) (g : Chan → Chan) : (s.updChan t n g).materials = s.materials := rfl
@[simp] theorem State.updChan_counters (s : State) (t n : Nat) (g : Chan → Chan) : (s.updChan t n g).counters = s.counters := rfl
@[simp] theorem State.updChan_mem (s : State) (t n : Nat) (g : Chan → Chan) : (s.updChan t n g).mem = s.mem := rfl
@[simp] theorem State.updChan_win (s : State) (t n : Nat) (g : Chan → Chan) : (s.updChan t n g).win = s.win := rfl
@[simp] theorem State.updChan_fred (s : State) (t n : Nat) (g : Chan → Chan) : (s.updChan t n g).fred = s.fred := rfl
@[simp] theorem State.updChan_vac (s : State) (t n : Nat) (g : Chan → Chan) : (s.updChan t n g).vac = s.vac := rfl
@[simp] theorem State.updChan_saved (s : State) (t n : Nat) (g : Chan → Chan) : (s.updChan t n g).saved = s.saved := rfl
@[simp] theorem State.updChan_refused (s : State) (t n : Nat) (g : Chan → Chan) : (s.updChan t n g).refused = s.refused := rfl
@[simp] theorem State.updChan_walked (s : State) (t n : Nat) (g : Chan → Chan) : (s.updChan t n g).walked = s.walked := rfl
@[simp] theorem State.updChan_lack (s : State) (t n : Nat) (g : Chan → Chan) : (s.updChan t n g).lack = s.lack := rfl

/-! ### Lookups after updates -/

theorem State.wave?_of_waves {s t : State} (h : t.waves = s.waves) (c k : Nat) : t.wave? c k = s.wave? c k := by unfold State.wave?; rw [h]
theorem State.stream?_of_streams {s t : State} (h : t.streams = s.streams) (c : Nat) : t.stream? c = s.stream? c := by unfold State.stream?; rw [h]
theorem State.team?_of_teams {s t : State} (h : t.teams = s.teams) (n : Nat) : t.team? n = s.team? n := by unfold State.team?; rw [h]
theorem State.launch?_of_launches {s t : State} (h : t.launches = s.launches) (l : Nat) : t.launch? l = s.launch? l := by unfold State.launch?; rw [h]
theorem State.core_of_cores {s t : State} (h : t.cores = s.cores) (c : Nat) : t.core c = s.core c := by unfold State.core; rw [h]
theorem State.cluster_of_clusters {s t : State} (h : t.clusters = s.clusters) (c : Nat) : t.cluster c = s.cluster c := by unfold State.cluster; rw [h]
theorem State.die_of_dies {s t : State} (h : t.dies = s.dies) (d : Nat) : t.die d = s.die d := by unfold State.die; rw [h]
theorem State.slice_of_slices {s t : State} (h : t.slices = s.slices) (n : Nat) : t.slice n = s.slice n := by unfold State.slice; rw [h]
theorem State.lq_of_lqs {s t : State} (h : t.lqs = s.lqs) (q : Nat) : t.lq q = s.lq q := by unfold State.lq; rw [h]

theorem Tbl.get?_upd {α : Type} (t : Tbl α) (n m : Nat) (f : α → α) :
    Tbl.get? (Tbl.upd t n f) m = if m = n then (Tbl.get? t n).map f else Tbl.get? t m := by
  unfold Tbl.upd
  cases h : Tbl.get? t n with
  | none => by_cases hm : m = n <;> simp [hm, h]
  | some v => by_cases hm : m = n <;> simp [hm, Tbl.get?_set]

@[simp] theorem State.wave?_setWave_self (s : State) (c k : Nat) (w : Wave) : (s.setWave c k w).wave? c k = some w := by
  simp [State.wave?, State.setWave, Tbl.get?_set]
theorem State.wave?_setWave (s : State) (c k c' k' : Nat) (w : Wave) :
    (s.setWave c k w).wave? c' k' = if waveKey c' k' = waveKey c k then some w else s.wave? c' k' := by
  simp [State.wave?, State.setWave, Tbl.get?_set]
theorem State.wave?_updWave (s : State) (c k c' k' : Nat) (f : Wave → Wave) :
    (s.updWave c k f).wave? c' k' = if waveKey c' k' = waveKey c k then (s.wave? c k).map f else s.wave? c' k' := by
  simp [State.wave?, State.updWave, Tbl.get?_upd]
@[simp] theorem State.wave?_updWave_self (s : State) (c k : Nat) (f : Wave → Wave) : (s.updWave c k f).wave? c k = (s.wave? c k).map f := by
  simp [State.wave?_updWave]
theorem State.stream?_setStream (s : State) (c c' : Nat) (m : Stream) :
    (s.setStream c m).stream? c' = if c' = c then some m else s.stream? c' := by simp [State.stream?, State.setStream, Tbl.get?_set]
@[simp] theorem State.stream?_setStream_self (s : State) (c : Nat) (m : Stream) : (s.setStream c m).stream? c = some m := by
  simp [State.stream?_setStream]
theorem State.stream?_updStream (s : State) (c c' : Nat) (f : Stream → Stream) :
    (s.updStream c f).stream? c' = if c' = c then (s.stream? c).map f else s.stream? c' := by simp [State.stream?, State.updStream, Tbl.get?_upd]
theorem State.team?_setTeam (s : State) (t n : Nat) (x : Team) : (s.setTeam t x).team? n = if n = t then some x else s.team? n := by
  simp [State.team?, State.setTeam, Tbl.get?_set]
@[simp] theorem State.team?_setTeam_self (s : State) (t : Nat) (x : Team) : (s.setTeam t x).team? t = some x := by simp [State.team?_setTeam]
theorem State.team?_updTeam (s : State) (t n : Nat) (f : Team → Team) :
    (s.updTeam t f).team? n = if n = t then (s.team? t).map f else s.team? n := by simp [State.team?, State.updTeam, Tbl.get?_upd]
theorem State.launch?_setLaunch (s : State) (l n : Nat) (x : Launch) : (s.setLaunch l x).launch? n = if n = l then some x else s.launch? n := by
  simp [State.launch?, State.setLaunch, Tbl.get?_set]
@[simp] theorem State.launch?_setLaunch_self (s : State) (l : Nat) (x : Launch) : (s.setLaunch l x).launch? l = some x := by
  simp [State.launch?_setLaunch]
theorem State.launch?_updLaunch (s : State) (l n : Nat) (f : Launch → Launch) :
    (s.updLaunch l f).launch? n = if n = l then (s.launch? l).map f else s.launch? n := by simp [State.launch?, State.updLaunch, Tbl.get?_upd]
theorem State.core_setCore (s : State) (c d : Nat) (x : Core) : (s.setCore c x).core d = if d = c then x else s.core d := by
  simp [State.core, State.setCore, Tbl.getD_put]
@[simp] theorem State.core_setCore_self (s : State) (c : Nat) (x : Core) : (s.setCore c x).core c = x := by simp [State.core_setCore]
theorem State.cluster_setCluster (s : State) (c d : Nat) (x : Cluster) : (s.setCluster c x).cluster d = if d = c then x else s.cluster d := by
  simp [State.cluster, State.setCluster, Tbl.getD_put]
@[simp] theorem State.cluster_setCluster_self (s : State) (c : Nat) (x : Cluster) : (s.setCluster c x).cluster c = x := by
  simp [State.cluster_setCluster]
theorem State.die_setDie (s : State) (c d : Nat) (x : Die) : (s.setDie c x).die d = if d = c then x else s.die d := by
  simp [State.die, State.setDie, Tbl.getD_put]
@[simp] theorem State.die_setDie_self (s : State) (d : Nat) (x : Die) : (s.setDie d x).die d = x := by simp [State.die_setDie]
theorem State.slice_setSlice (s : State) (h n : Nat) (x : Slice) : (s.setSlice h x).slice n = if n = h then x else s.slice n := by
  simp [State.slice, State.setSlice, Tbl.getD_put]
@[simp] theorem State.slice_setSlice_self (s : State) (h : Nat) (x : Slice) : (s.setSlice h x).slice h = x := by simp [State.slice_setSlice]
theorem State.tile_setTile (s : State) (t n : Nat) (x : Tile) : (s.setTile t x).tile n = if n = t then x else s.tile n := by
  simp [State.tile, State.setTile, Tbl.getD_put]
theorem State.lq_setLq (s : State) (q n : Nat) (x : LQueue) : (s.setLq q x).lq n = if n = q then x else s.lq n := by
  simp [State.lq, State.setLq, Tbl.getD_put]
@[simp] theorem State.lq_setLq_self (s : State) (q : Nat) (x : LQueue) : (s.setLq q x).lq q = x := by simp [State.lq_setLq]
theorem State.chain_setChain (s : State) (c n c' n' : Nat) (x : Chain) :
    (s.setChain c n x).chain c' n' = if c' = c ∧ n' = n then x else s.chain c' n' := by
  unfold State.chain State.setChain
  rw [State.core_setCore]
  by_cases hc : c' = c
  · subst hc; simp [Tbl.getD_put]
  · simp [hc]
theorem Tbl.get?_updTreq (s : State) (r n : Nat) (g : TReq → TReq) :
    Tbl.get? (s.updTreq r g).treqs n = if n = r then (Tbl.get? s.treqs r).map g else Tbl.get? s.treqs n := Tbl.get?_upd _ _ _ _
theorem State.setWin_win (s : State) (f : Window → Window) : (s.setWin f).win = f s.win := rfl
theorem State.setFred_fred (s : State) (f : Fred → Fred) : (s.setFred f).fred = f s.fred := rfl

end Sys2Proof.Machine
end

