-- ==== Sys2Proof/Laws/Frame.lean ====
section
/-! SUPPORT. Which parts of the state an operation leaves: the forms. -/

namespace Sys2Proof.Machine

theorem foldl_same {α β : Type} (p : State → β) {f : State → α → State} (h : ∀ s x, p (f s x) = p s) (l : List α) (s : State) :
    p (l.foldl f s) = p s := by
  induction l generalizing s with
  | nil => rfl
  | cons a l ih => rw [List.foldl_cons, ih, h]
theorem foldl_same_fst {α β γ : Type} (p : State → β) {f : State × γ → α → State × γ} (h : ∀ s x, p (f s x).1 = p s.1) (l : List α)
    (s : State × γ) : p (l.foldl f s).1 = p s.1 := by
  induction l generalizing s with
  | nil => rfl
  | cons a l ih => rw [List.foldl_cons, ih, h]
theorem pair_eq {α β : Type} (p : State → β) {x : State × α} {s : State} {a : α} (e : x = (s, a)) : p s = p x.1 := by
  subst e; rfl

end Sys2Proof.Machine
end

