-- ==== Sys2Proof/Laws/FrameMem.lean ====
section
/-! SUPPORT. Operations that leave the memories of the device as they were. -/

set_option Elab.async false

namespace Sys2Proof.Machine
@[simp] theorem State.countErr_mem (s : State) (die idx : Nat) : (State.countErr s die idx).mem = s.mem := by
  unfold State.countErr
  repeat' (first | with_reducible rfl | with_reducible refine (State.count_mem ..).trans ?_)
@[simp] theorem State.pmcCount_mem (s : State) (core ev n team : Nat) : (State.pmcCount s core ev n team).mem = s.mem := by
  unfold State.pmcCount
  repeat' (first | with_reducible rfl | with_reducible refine (State.setCore_mem ..).trans ?_ | split | extract_lets)
@[simp] theorem State.vector_mem (s : State) (n : Nat) : (State.vector s n).mem = s.mem := by
  unfold State.vector
  rfl
@[simp] theorem State.errorReport_mem (s : State) (code : Nat) : (State.errorReport s code).mem = s.mem := by
  unfold State.errorReport
  rfl
@[simp] theorem State.needLoop_mem (s : State) (c : Option Nat) (line : Nat) : (State.needLoop s c line).mem = s.mem := by
  unfold State.needLoop
  repeat' (first | with_reducible rfl | split)
@[simp] theorem State.dropCopy_mem (s : State) (c line : Nat) : (State.dropCopy s c line).mem = s.mem := by
  unfold State.dropCopy
  repeat' (first | with_reducible rfl | with_reducible refine (State.setCluster_mem ..).trans ?_ | with_reducible refine (State.count_mem ..).trans ?_ | split | extract_lets)
@[simp] theorem State.bumpSeq_mem (s : State) (line : Nat) : (State.bumpSeq s line).mem = s.mem := by
  unfold State.bumpSeq
  repeat' (first | with_reducible rfl | with_reducible refine (State.setSlice_mem ..).trans ?_ | with_reducible refine (State.count_mem ..).trans ?_)
@[simp] theorem State.grantOwned_mem (s : State) (c line : Nat) : (State.grantOwned s c line).mem = s.mem := by
  unfold State.grantOwned
  repeat' (first | with_reducible rfl | with_reducible refine (State.setCluster_mem ..).trans ?_ | split)
@[simp] theorem State.shareLine_mem (s : State) (line : Nat) : (State.shareLine s line).mem = s.mem := by
  unfold State.shareLine
  repeat' (first | with_reducible rfl | with_reducible refine (State.setCluster_mem ..).trans ?_ | with_reducible refine Eq.trans (foldl_same State.mem ?_ _ _) ?_ | with_reducible intro _)
@[simp] theorem State.learnPeer_mem (s : State) (c line : Nat) : (State.learnPeer s c line).mem = s.mem := by
  unfold State.learnPeer
  repeat' (first | with_reducible rfl | with_reducible refine (State.setCluster_mem ..).trans ?_ | split)
@[simp] theorem State.takeMiss_mem (s : State) (c line : Nat) (who : Nat × Nat) : (State.takeMiss s c line who).mem = s.mem := by
  unfold State.takeMiss
  repeat' (first | with_reducible rfl | with_reducible refine (State.setCluster_mem ..).trans ?_ | with_reducible refine (State.count_mem ..).trans ?_ | split | extract_lets)
@[simp] theorem State.takePrefetch_mem (s : State) (c line : Nat) : (State.takePrefetch s c line).mem = s.mem := by
  unfold State.takePrefetch
  repeat' (first | with_reducible rfl | with_reducible refine (State.setCluster_mem ..).trans ?_ | with_reducible refine (State.count_mem ..).trans ?_ | split | extract_lets)
@[simp] theorem State.endMiss_mem (s : State) (c line : Nat) (who : Nat × Nat) : (State.endMiss s c line who).mem = s.mem := by
  unfold State.endMiss
  repeat' (first | with_reducible rfl | with_reducible refine (State.setCluster_mem ..).trans ?_)
@[simp] theorem State.endEntry_mem (s : State) (c line : Nat) : (State.endEntry s c line).mem = s.mem := by
  unfold State.endEntry
  repeat' (first | with_reducible rfl | with_reducible refine (State.setCluster_mem ..).trans ?_ | split | extract_lets)
@[simp] theorem State.passMiss_mem (s : State) (c line : Nat) (who : Nat × Nat) : (State.passMiss s c line who).mem = s.mem := by
  unfold State.passMiss
  repeat' (first | with_reducible rfl | with_reducible refine (State.takeMiss_mem ..).trans ?_ | split)
@[simp] theorem State.noteWalk_mem (s : State) (t : TlbEntry) : (State.noteWalk s t).mem = s.mem := by
  unfold State.noteWalk
  repeat' (first | with_reducible rfl | split)
@[simp] theorem State.leaveWalk_mem (s : State) (d : Nat) (va : W64) : (State.leaveWalk s d va).mem = s.mem := by
  unfold State.leaveWalk
  repeat' (first | with_reducible rfl | with_reducible refine (State.setDie_mem ..).trans ?_)
@[simp] theorem State.takeLeaf_mem (s : State) (cl : Nat) (va : W64) : (State.takeLeaf s cl va).mem = s.mem := by
  unfold State.takeLeaf
  repeat' (first | with_reducible rfl | with_reducible refine (State.setCluster_mem ..).trans ?_ | split)
@[simp] theorem State.queueFor_mem (s : State) (x : Lack) : (State.queueFor s x).mem = s.mem := by
  unfold State.queueFor
  repeat' (first | with_reducible rfl | with_reducible refine (State.takeMiss_mem ..).trans ?_ | with_reducible refine (State.setDie_mem ..).trans ?_ | with_reducible refine (State.count_mem ..).trans ?_ | split | extract_lets)
@[simp] theorem State.idemLost_mem (s : State) (team : Nat) : (State.idemLost s team).mem = s.mem := by
  unfold State.idemLost
  repeat' (first | with_reducible rfl | with_reducible refine (State.updTeam_mem ..).trans ?_)
@[simp] theorem State.doneWave_mem (s : State) (core slot : Nat) : (State.doneWave s core slot).mem = s.mem := by
  unfold State.doneWave
  repeat' (first | with_reducible rfl | with_reducible refine (State.updWave_mem ..).trans ?_)
@[simp] theorem State.errSeenCore_mem (s : State) (team core : Nat) : (State.errSeenCore s team core).mem = s.mem := by
  unfold State.errSeenCore
  repeat' (first | with_reducible rfl | with_reducible refine (State.setWave_mem ..).trans ?_ | with_reducible refine Eq.trans (foldl_same State.mem ?_ _ _) ?_ | with_reducible intro _ | split)
@[simp] theorem State.sawBad_mem (s : State) (core slot : Nat) (addr : W64) (lanes : BitVec 96) : (State.sawBad s core slot addr lanes).mem = s.mem := by
  unfold State.sawBad
  repeat' (first | with_reducible rfl | with_reducible refine (State.updWave_mem ..).trans ?_ | with_reducible refine (State.countErr_mem ..).trans ?_ | with_reducible refine (State.setWave_mem ..).trans ?_ | split | extract_lets)
@[simp] theorem State.pendFault_mem (s : State) (core slot : Nat) (r : PendRec) : (State.pendFault s core slot r).mem = s.mem := by
  unfold State.pendFault
  repeat' (first | with_reducible rfl | with_reducible refine (State.countErr_mem ..).trans ?_ | with_reducible refine (State.setWave_mem ..).trans ?_ | split)
@[simp] theorem State.launchFault_mem (s : State) (team : Nat) (cause : Nat) : (State.launchFault s team cause).mem = s.mem := by
  unfold State.launchFault
  repeat' (first | with_reducible rfl | with_reducible refine (State.updLaunch_mem ..).trans ?_)
@[simp] theorem State.deferSaved_mem (s : State) (core slot team : Nat) (r : PendRec) : (State.deferSaved s core slot team r).mem = s.mem := by
  unfold State.deferSaved
  repeat' (first | with_reducible rfl | with_reducible refine (State.updLaunch_mem ..).trans ?_ | with_reducible refine (State.countErr_mem ..).trans ?_ | with_reducible refine (State.launchFault_mem ..).trans ?_ | split)
@[simp] theorem State.deferTo_mem (s : State) (a : Agent) (team : Nat) (r : PendRec) : (State.deferTo s a team r).mem = s.mem := by
  unfold State.deferTo
  repeat' (first | with_reducible rfl | with_reducible refine (State.deferSaved_mem ..).trans ?_ | with_reducible refine (State.launchFault_mem ..).trans ?_ | with_reducible refine (State.pendFault_mem ..).trans ?_ | split)
@[simp] theorem State.setBarrier_mem (s : State) (team lvl id : Nat) (b : Barrier) : (State.setBarrier s team lvl id b).mem = s.mem := by
  unfold State.setBarrier
  repeat' (first | with_reducible rfl | with_reducible refine (State.updLaunch_mem ..).trans ?_ | with_reducible refine (State.setTeam_mem ..).trans ?_ | split)
@[simp] theorem State.leaveBarriers_mem (s : State) (team local_ : Nat) : (State.leaveBarriers s team local_).mem = s.mem := by
  unfold State.leaveBarriers
  repeat' (first | with_reducible rfl | with_reducible refine (State.updLaunch_mem ..).trans ?_ | with_reducible refine (State.setTeam_mem ..).trans ?_ | split)
@[simp] theorem State.retireFrame_mem (s : State) (die : Nat) (frame : W64) : (State.retireFrame s die frame).mem = s.mem := by
  unfold State.retireFrame
  repeat' (first | with_reducible rfl | with_reducible refine (State.setTile_mem ..).trans ?_ | with_reducible refine (State.setDie_mem ..).trans ?_ | with_reducible refine Eq.trans (foldl_same State.mem ?_ _ _) ?_ | with_reducible intro _ | split | extract_lets)
@[simp] theorem State.unrefTile_mem (s : State) (t : Nat) : (State.unrefTile s t).mem = s.mem := by
  unfold State.unrefTile
  repeat' (first | with_reducible rfl | with_reducible refine (State.setTile_mem ..).trans ?_ | with_reducible refine (State.retireFrame_mem ..).trans ?_ | split | extract_lets)
@[simp] theorem State.dropRefs_mem (s : State) (core slot : Nat) : (State.dropRefs s core slot).mem = s.mem := by
  unfold State.dropRefs
  repeat' (first | with_reducible rfl | with_reducible refine (State.unrefTile_mem ..).trans ?_ | with_reducible refine (State.setWave_mem ..).trans ?_ | with_reducible refine Eq.trans (foldl_same State.mem ?_ _ _) ?_ | with_reducible intro _ | split)
@[simp] theorem State.releaseRefs_mem (s : State) (core slot : Nat) : (State.releaseRefs s core slot).mem = s.mem := by
  unfold State.releaseRefs
  repeat' (first | with_reducible rfl | with_reducible refine (State.dropRefs_mem ..).trans ?_ | with_reducible refine (State.setWave_mem ..).trans ?_ | split)
@[simp] theorem State.endWave_mem (s : State) (core slot : Nat) (w : Wave) : (State.endWave s core slot w).mem = s.mem := by
  unfold State.endWave
  repeat' (first | with_reducible rfl | with_reducible refine (State.launchFault_mem ..).trans ?_ | with_reducible refine (State.updStream_mem ..).trans ?_ | with_reducible refine (State.leaveBarriers_mem ..).trans ?_ | with_reducible refine (State.updTeam_mem ..).trans ?_ | with_reducible refine (State.releaseRefs_mem ..).trans ?_ | with_reducible refine (State.setWave_mem ..).trans ?_ | split)
@[simp] theorem State.stepStream_mem (s : State) (core : Nat) (m : Stream) : (State.stepStream s core m).mem = s.mem := by
  unfold State.stepStream
  repeat' (first | with_reducible rfl | with_reducible refine (State.leaveBarriers_mem ..).trans ?_ | with_reducible refine (State.setStream_mem ..).trans ?_ | split | extract_lets)
@[simp] theorem State.endStream_mem (s : State) (core : Nat) (m : Stream) : (State.endStream s core m).mem = s.mem := by
  unfold State.endStream
  repeat' (first | with_reducible rfl | with_reducible refine (State.stepStream_mem ..).trans ?_)
@[simp] theorem State.issueReq_mem (s : State) (core slot : Nat) (w : Wave) (p : Path) (word : W64) (sem scope : Nat) (accs : List Access) (ret : Ret) (phase : Nat) : (State.issueReq s core slot w p word sem scope accs ret phase).mem = s.mem := by
  unfold State.issueReq
  repeat' (first | with_reducible rfl | with_reducible refine (State.setWave_mem ..).trans ?_)
@[simp] theorem State.tagLast_mem (s : State) (core slot : Nat) (lines : List Nat) : (State.tagLast s core slot lines).mem = s.mem := by
  unfold State.tagLast
  repeat' (first | with_reducible rfl | with_reducible refine (State.updWave_mem ..).trans ?_ | split)
@[simp] theorem State.msResume_mem (s : State) (core : Nat) (m : Stream) (v : Nat) : (State.msResume s core m v).mem = s.mem := by
  unfold State.msResume
  repeat' (first | with_reducible rfl | with_reducible refine (State.setStream_mem ..).trans ?_ | with_reducible refine (State.endStream_mem ..).trans ?_ | split)
@[simp] theorem State.dropWatch_mem (s : State) (team : Nat) : (State.dropWatch s team).mem = s.mem := by
  unfold State.dropWatch
  rfl
@[simp] theorem State.classified_mem (s : State) (t : Nat) : (State.classified s t).mem = s.mem := by
  unfold State.classified
  repeat' (first | with_reducible rfl | with_reducible refine (State.unrefTile_mem ..).trans ?_ | with_reducible refine (State.setTile_mem ..).trans ?_ | split | extract_lets)
@[simp] theorem State.classifiedAll_mem (s : State) (es : List BinEntry) : (State.classifiedAll s es).mem = s.mem := by
  unfold State.classifiedAll
  repeat' (first | with_reducible rfl | with_reducible refine (State.classified_mem ..).trans ?_ | with_reducible refine Eq.trans (foldl_same State.mem ?_ _ _) ?_ | with_reducible intro _)
@[simp] theorem State.discardBins_mem (s : State) (m : Nat) : (State.discardBins s m).mem = s.mem := by
  unfold State.discardBins
  repeat' (first | with_reducible rfl | with_reducible refine (State.setDie_mem ..).trans ?_ | with_reducible refine (State.classifiedAll_mem ..).trans ?_ | with_reducible refine (State.count_mem ..).trans ?_ | with_reducible refine Eq.trans (foldl_same State.mem ?_ _ _) ?_ | with_reducible intro _ | split | extract_lets)
@[simp] theorem State.trackMiss_mem (s : State) (cl core line : Nat) : (State.trackMiss s cl core line).mem = s.mem := by
  unfold State.trackMiss
  repeat' (first | with_reducible rfl | with_reducible refine (State.takePrefetch_mem ..).trans ?_ | with_reducible refine (State.setCluster_mem ..).trans ?_ | with_reducible refine Eq.trans (foldl_same State.mem ?_ _ _) ?_ | with_reducible intro _ | split | extract_lets)
@[simp] theorem State.countColumn_mem (s : State) (core team : Nat) (x : Access) (who : Nat × Nat) (ev : Nat) : (State.countColumn s core team x who ev).mem = s.mem := by
  unfold State.countColumn
  repeat' (first | with_reducible rfl | with_reducible refine (State.pmcCount_mem ..).trans ?_ | split)
@[simp] theorem State.tagWave_mem (s : State) (c k line : Nat) : (State.tagWave s c k line).mem = s.mem := by
  unfold State.tagWave
  repeat' (first | with_reducible rfl | with_reducible refine (State.updWave_mem ..).trans ?_)
@[simp] theorem State.throughEntry_mem (s : State) (core : Nat) (who : Nat) (q : Req) (x : Access) : (State.throughEntry s core who q x).mem = s.mem := by
  unfold State.throughEntry
  repeat' (first | with_reducible rfl | with_reducible refine (State.takeMiss_mem ..).trans ?_ | with_reducible refine (State.endMiss_mem ..).trans ?_ | split | extract_lets)
@[simp] theorem State.deliverBad_mem (s : State) (c k : Nat) (q : Req) : (State.deliverBad s c k q).mem = s.mem := by
  unfold State.deliverBad
  repeat' (first | with_reducible rfl | with_reducible refine (State.sawBad_mem ..).trans ?_ | split)
@[simp] theorem State.promote_mem (s : State) (c k : Nat) : (State.promote s c k).mem = s.mem := by
  unfold State.promote
  repeat' (first | with_reducible rfl | with_reducible refine (State.pmcCount_mem ..).trans ?_ | with_reducible refine (State.setWave_mem ..).trans ?_ | split)
@[simp] theorem State.dropWaits_mem (s : State) (a : Agent) (team : Nat) : (State.dropWaits s a team).mem = s.mem := by
  unfold State.dropWaits
  repeat' (first | with_reducible rfl | with_reducible refine (State.updTeam_mem ..).trans ?_)
@[simp] theorem State.cancelPark_mem (s : State) (w : Wave) : (State.cancelPark s w).mem = s.mem := by
  unfold State.cancelPark
  repeat' (first | with_reducible rfl | split)
@[simp] theorem State.sendTuple_mem (s : State) (t : TReq) : (State.sendTuple s t).mem = s.mem := by
  unfold State.sendTuple
  rfl
@[simp] theorem State.dropBadTags_mem (s : State) (h bag : Nat) : (State.dropBadTags s h bag).mem = s.mem := by
  unfold State.dropBadTags
  repeat' (first | with_reducible rfl | with_reducible refine (State.count_mem ..).trans ?_ | with_reducible refine (State.setSlice_mem ..).trans ?_ | split | extract_lets)
@[simp] theorem State.endTreq_mem (s : State) (r : Nat) (t : TReq) (status : Nat) (g : TReq → TReq) : (State.endTreq s r t status g).mem = s.mem := by
  unfold State.endTreq
  repeat' (first | with_reducible rfl | with_reducible refine (State.updTreq_mem ..).trans ?_ | with_reducible refine (State.updWave_mem ..).trans ?_ | split)
@[simp] theorem State.serveTuple_mem (s : State) (r : Nat) (t : TReq) (words : List W64) (bad : Bool) : (State.serveTuple s r t words bad).mem = s.mem := by
  unfold State.serveTuple
  repeat' (first | with_reducible rfl | with_reducible refine (State.endTreq_mem ..).trans ?_ | with_reducible refine (State.count_mem ..).trans ?_ | with_reducible refine (State.pmcCount_mem ..).trans ?_)
@[simp] theorem State.endDeposit_mem (s : State) (r : Nat) (t : TReq) (status fault : Nat) : (State.endDeposit s r t status fault).mem = s.mem := by
  unfold State.endDeposit
  repeat' (first | with_reducible rfl | with_reducible refine (State.endTreq_mem ..).trans ?_ | with_reducible refine (State.deferTo_mem ..).trans ?_ | with_reducible refine (State.pmcCount_mem ..).trans ?_ | split)
@[simp] theorem State.parkTuple_mem (s : State) (r : Nat) (t : TReq) : (State.parkTuple s r t).mem = s.mem := by
  unfold State.parkTuple
  repeat' (first | with_reducible rfl | with_reducible refine (State.updTreq_mem ..).trans ?_ | with_reducible refine (State.count_mem ..).trans ?_ | with_reducible refine (State.pmcCount_mem ..).trans ?_ | with_reducible refine (State.setSlice_mem ..).trans ?_ | split | extract_lets)
@[simp] theorem State.issueCmd_mem (s : State) (c k : Nat) (w : Wave) (cmd : Cmd) (chans : List Nat) (act lost : Bool) (sem : Nat) : (State.issueCmd s c k w cmd chans act lost sem).mem = s.mem := by
  unfold State.issueCmd
  repeat' (first | with_reducible rfl | with_reducible refine (State.updChan_mem ..).trans ?_ | with_reducible refine (State.idemLost_mem ..).trans ?_ | with_reducible refine (State.setWave_mem ..).trans ?_ | with_reducible refine (State.issueReq_mem ..).trans ?_ | with_reducible refine Eq.trans (foldl_same State.mem ?_ _ _) ?_ | with_reducible intro _ | split)
@[simp] theorem State.takeOutputs_mem (s : State) (team ch id n : Nat) : (State.takeOutputs s team ch id n).mem = s.mem := by
  unfold State.takeOutputs
  repeat' (first | with_reducible rfl | with_reducible refine (State.updChan_mem ..).trans ?_)
@[simp] theorem State.freeInputs_mem (s : State) (team ch id n : Nat) (keep : Bool) : (State.freeInputs s team ch id n keep).mem = s.mem := by
  unfold State.freeInputs
  repeat' (first | with_reducible rfl | with_reducible refine (State.updChan_mem ..).trans ?_)
@[simp] theorem State.takeInputs_mem (s : State) (c : Cmd) (chn : Nat) : (State.takeInputs s c chn).1.mem = s.mem := by
  unfold State.takeInputs
  repeat' (first | with_reducible rfl | with_reducible refine (State.countErr_mem ..).trans ?_ | split | extract_lets)
@[simp] theorem State.takeTag_mem (s : State) (id : Nat) (c : Cmd) : (State.takeTag s id c).mem = s.mem := by
  unfold State.takeTag
  repeat' (first | with_reducible rfl | with_reducible refine (State.pmcCount_mem ..).trans ?_ | split)
@[simp] theorem State.knowSeqno_mem (s : State) (id : Nat) (c : Cmd) (n : Nat) : (State.knowSeqno s id c n).mem = s.mem := by
  unfold State.knowSeqno
  repeat' (first | with_reducible rfl | with_reducible refine (State.updWave_mem ..).trans ?_ | split)
@[simp] theorem State.consumePoison_mem (s : State) (core : Nat) (q : QWord) : (State.consumePoison s core q).mem = s.mem := by
  unfold State.consumePoison
  repeat' (first | with_reducible rfl | with_reducible refine (State.updStream_mem ..).trans ?_ | with_reducible refine (State.setChain_mem ..).trans ?_ | with_reducible refine Eq.trans (foldl_same State.mem ?_ _ _) ?_ | with_reducible intro _)
@[simp] theorem State.pushArray_mem (s : State) (core : Nat) (m : Stream) (q : QWord) : (State.pushArray s core m q).mem = s.mem := by
  unfold State.pushArray
  repeat' (first | with_reducible rfl | with_reducible refine (State.setStream_mem ..).trans ?_)
@[simp] theorem State.pushXfer_mem (s : State) (core : Nat) (m : Stream) (q : QWord) : (State.pushXfer s core m q).mem = s.mem := by
  unfold State.pushXfer
  repeat' (first | with_reducible rfl | with_reducible refine (State.setStream_mem ..).trans ?_)
@[simp] theorem State.blockStream_mem (s : State) (core : Nat) (m : Stream) (stage : Nat) : (State.blockStream s core m stage).mem = s.mem := by
  unfold State.blockStream
  repeat' (first | with_reducible rfl | with_reducible refine (State.setStream_mem ..).trans ?_)
@[simp] theorem State.streamBad_mem (s : State) (core : Nat) (m : Stream) (pc addr : W64) : (State.streamBad s core m pc addr).mem = s.mem := by
  unfold State.streamBad
  repeat' (first | with_reducible rfl | with_reducible refine (State.countErr_mem ..).trans ?_ | with_reducible refine (State.updStream_mem ..).trans ?_ | with_reducible refine (State.errSeenCore_mem ..).trans ?_ | split | extract_lets)
@[simp] theorem State.loadRow_mem (s : State) (core : Nat) (t : Team) (c : Chan) (first n : Nat) : (State.loadRow s core t c first n).mem = s.mem := by
  unfold State.loadRow
  repeat' (first | with_reducible rfl | with_reducible refine (State.setCore_mem ..).trans ?_)
@[simp] theorem State.xferIssue_mem (s : State) (c : Nat) (m : Stream) (q : QWord) : (State.xferIssue s c m q).mem = s.mem := by
  unfold State.xferIssue
  repeat' (first | with_reducible rfl | with_reducible refine (State.pushXfer_mem ..).trans ?_ | with_reducible refine (State.updChan_mem ..).trans ?_ | split)
@[simp] theorem State.clearEcpls_mem (s : State) (as : List (Agent × Ecpl)) : (State.clearEcpls s as).mem = s.mem := by
  unfold State.clearEcpls
  repeat' (first | with_reducible rfl | with_reducible refine (State.updWave_mem ..).trans ?_ | with_reducible refine Eq.trans (foldl_same State.mem ?_ _ _) ?_ | with_reducible intro _ | split)
@[simp] theorem State.gBad_mem (s : State) (c k : Nat) (bads : List (Nat × W64)) (die idx : Nat) : (State.gBad s c k bads die idx).mem = s.mem := by
  unfold State.gBad
  repeat' (first | with_reducible rfl | with_reducible refine (State.count_mem ..).trans ?_ | with_reducible refine (State.updWave_mem ..).trans ?_ | split)
@[simp] theorem State.countTests_mem (s : State) (c team ev n : Nat) : (State.countTests s c team ev n).mem = s.mem := by
  unfold State.countTests
  repeat' (first | with_reducible rfl | with_reducible refine (State.pmcCount_mem ..).trans ?_ | split)
@[simp] theorem State.freshPix_mem (s : State) (slot p : Nat) (x : Pix) : (State.freshPix s slot p x).mem = s.mem := by
  unfold State.freshPix
  repeat' (first | with_reducible rfl | with_reducible refine (State.count_mem ..).trans ?_ | with_reducible refine (State.setTile_mem ..).trans ?_ | split)
@[simp] theorem State.rasterTile_mem (s : State) (slot : Nat) (id : W64) (v0 v1 v2 : Vert) : (State.rasterTile s slot id v0 v1 v2).mem = s.mem := by
  unfold State.rasterTile
  repeat' (first | with_reducible rfl | with_reducible refine (State.freshPix_mem ..).trans ?_ | with_reducible refine (State.count_mem ..).trans ?_ | with_reducible refine Eq.trans (foldl_same State.mem ?_ _ _) ?_ | with_reducible intro _ | split | extract_lets)
@[simp] theorem State.closeBinWave_mem (s : State) (die m : Nat) (l : Nat) (x : Launch) (f : Forming) : (State.closeBinWave s die m l x f).mem = s.mem := by
  unfold State.closeBinWave
  repeat' (first | with_reducible rfl | with_reducible refine (State.count_mem ..).trans ?_ | with_reducible refine (State.setTile_mem ..).trans ?_ | with_reducible refine (State.setLaunch_mem ..).trans ?_ | with_reducible refine (State.setDie_mem ..).trans ?_ | with_reducible refine (State.classifiedAll_mem ..).trans ?_ | with_reducible refine Eq.trans (foldl_same State.mem ?_ _ _) ?_ | with_reducible intro _ | split)
@[simp] theorem State.gtsendEnd_mem (s : State) (core : Nat) (m : Stream) (q : QWord) : (State.gtsendEnd s core m q).mem = s.mem := by
  unfold State.gtsendEnd
  repeat' (first | with_reducible rfl | with_reducible refine (State.pmcCount_mem ..).trans ?_ | with_reducible refine (State.streamBad_mem ..).trans ?_ | with_reducible refine Eq.trans (foldl_same State.mem ?_ _ _) ?_ | with_reducible intro _ | split)
@[simp] theorem State.answerFlit_mem (s : State) (n : Nat) (fl : Flit) (ans : Nat) : (State.answerFlit s n fl ans).mem = s.mem := by
  unfold State.answerFlit
  rfl
@[simp] theorem State.lostRow_mem (s : State) (core chain team : Nat) : (State.lostRow s core chain team).mem = s.mem := by
  unfold State.lostRow
  repeat' (first | with_reducible rfl | with_reducible refine (State.countErr_mem ..).trans ?_ | with_reducible refine (State.errSeenCore_mem ..).trans ?_ | with_reducible refine (State.setChain_mem ..).trans ?_ | split | extract_lets)
@[simp] theorem State.dropFlit_mem (s : State) (fl : Flit) : (State.dropFlit s fl).mem = s.mem := by
  unfold State.dropFlit
  repeat' (first | with_reducible rfl | with_reducible refine (State.lostRow_mem ..).trans ?_)
@[simp] theorem State.updPrio_mem (s : State) : (State.updPrio s).mem = s.mem := by
  unfold State.updPrio
  rfl
@[simp] theorem State.makeEntry_mem (s : State) (b : List Byte) (pa : Nat) (q : Option Nat) (seq : Nat) (m : Option Nat) (st : LState) (child : Bool) : (State.makeEntry s b pa q seq m st child).mem = s.mem := by
  unfold State.makeEntry
  repeat' (first | with_reducible rfl | with_reducible refine (State.updPrio_mem ..).trans ?_)
@[simp] theorem State.noteRefused_mem (s : State) (b : List Byte) (reason : Nat) : (State.noteRefused s b reason).mem = s.mem := by
  unfold State.noteRefused
  repeat' (first | with_reducible rfl | split | extract_lets)
@[simp] theorem State.endStanding_mem (s : State) (m : Nat) : (State.endStanding s m).mem = s.mem := by
  unfold State.endStanding
  repeat' (first | with_reducible rfl | with_reducible refine (State.discardBins_mem ..).trans ?_ | with_reducible refine (State.setLaunch_mem ..).trans ?_ | split | extract_lets)
@[simp] theorem State.reapWaves_mem (s : State) : (State.reapWaves s).mem = s.mem := by
  unfold State.reapWaves
  rfl
@[simp] theorem State.leaveGroup_mem (s : State) (g id : Nat) : (State.leaveGroup s g id).mem = s.mem := by
  unfold State.leaveGroup
  repeat' (first | with_reducible rfl | split)
@[simp] theorem State.dropStreams_mem (s : State) (id : Nat) : (State.dropStreams s id).mem = s.mem := by
  unfold State.dropStreams
  repeat' (first | with_reducible rfl | with_reducible refine (State.setCore_mem ..).trans ?_ | with_reducible refine Eq.trans (foldl_same State.mem ?_ _ _) ?_ | with_reducible intro _)
@[simp] theorem State.reapTeam_mem (s : State) (id : Nat) (t : Team) : (State.reapTeam s id t).mem = s.mem := by
  unfold State.reapTeam
  repeat' (first | with_reducible rfl | with_reducible refine (State.updLaunch_mem ..).trans ?_ | with_reducible refine (State.dropWatch_mem ..).trans ?_ | with_reducible refine (State.dropStreams_mem ..).trans ?_ | with_reducible refine (State.leaveGroup_mem ..).trans ?_ | split)
@[simp] theorem State.reap_mem (s : State) : (State.reap s).mem = s.mem := by
  unfold State.reap
  repeat' (first | with_reducible rfl | with_reducible refine (State.reapWaves_mem ..).trans ?_ | with_reducible refine (State.reapTeam_mem ..).trans ?_ | with_reducible refine Eq.trans (foldl_same State.mem ?_ _ _) ?_ | with_reducible intro _ | split)
@[simp] theorem State.beginVacate_mem (s : State) (asked : List Nat) (why : Nat) : (State.beginVacate s asked why).mem = s.mem := by
  unfold State.beginVacate
  repeat' (first | with_reducible rfl | with_reducible refine (State.setCore_mem ..).trans ?_ | with_reducible refine Eq.trans (foldl_same State.mem ?_ _ _) ?_ | with_reducible intro _)
@[simp] theorem State.vacateCommand_mem (s : State) : (State.vacateCommand s).mem = s.mem := by
  unfold State.vacateCommand
  repeat' (first | with_reducible rfl | with_reducible refine (State.beginVacate_mem ..).trans ?_)
@[simp] theorem State.dropTeamRows_mem (s : State) (id : Nat) : (State.dropTeamRows s id).mem = s.mem := by
  unfold State.dropTeamRows
  repeat' (first | with_reducible rfl | with_reducible refine (State.dropStreams_mem ..).trans ?_)
@[simp] theorem State.discardTeam_mem (s : State) (id : Nat) (t : Team) : (State.discardTeam s id t).mem = s.mem := by
  unfold State.discardTeam
  repeat' (first | with_reducible rfl | with_reducible refine (State.updLaunch_mem ..).trans ?_ | with_reducible refine (State.dropWatch_mem ..).trans ?_ | with_reducible refine (State.leaveGroup_mem ..).trans ?_ | with_reducible refine (State.dropTeamRows_mem ..).trans ?_)
@[simp] theorem State.saveErrors_mem (s : State) (id : Nat) (t : Team) : (State.saveErrors s id t).mem = s.mem := by
  unfold State.saveErrors
  repeat' (first | with_reducible rfl | with_reducible refine (State.count_mem ..).trans ?_ | split | extract_lets)
@[simp] theorem State.expire_mem (s : State) : (State.expire s).mem = s.mem := by
  unfold State.expire
  repeat' (first | with_reducible rfl | with_reducible refine (State.beginVacate_mem ..).trans ?_ | split)
@[simp] theorem State.judgeCore_mem (s : State) (core : Nat) (whole : Bool) : (State.judgeCore s core whole).mem = s.mem := by
  unfold State.judgeCore
  repeat' (first | with_reducible rfl | with_reducible refine (State.setCore_mem ..).trans ?_)
@[simp] theorem State.powerHold_mem (s : State) (mean : Nat) : (State.powerHold s mean).mem = s.mem := by
  unfold State.powerHold
  repeat' (first | with_reducible rfl | with_reducible refine (State.setCore_mem ..).trans ?_ | split)
@[simp] theorem State.setPower_mem (s : State) (st : PowerStore) (p : PowerState) : (State.setPower s st p).mem = s.mem := by
  unfold State.setPower
  repeat' (first | with_reducible rfl | with_reducible refine (State.setCore_mem ..).trans ?_ | with_reducible refine (State.setDie_mem ..).trans ?_ | split)
@[simp] theorem State.setDbgHold_mem (s : State) (st : PowerStore) (x : Bool) : (State.setDbgHold s st x).mem = s.mem := by
  unfold State.setDbgHold
  repeat' (first | with_reducible rfl | with_reducible refine (State.setCore_mem ..).trans ?_ | with_reducible refine (State.setDie_mem ..).trans ?_ | split)
@[simp] theorem State.startTlbinv_mem (s : State) : (State.startTlbinv s).mem = s.mem := by
  unfold State.startTlbinv
  repeat' (first | with_reducible rfl | with_reducible refine (State.setWin_mem ..).trans ?_ | split)
@[simp] theorem State.startVacate_mem (s : State) : (State.startVacate s).mem = s.mem := by
  unfold State.startVacate
  repeat' (first | with_reducible rfl | with_reducible refine (State.setWin_mem ..).trans ?_ | with_reducible refine (State.vacateCommand_mem ..).trans ?_ | split | extract_lets)
@[simp] theorem State.agentStatus_mem (s : State) (n : Nat) : (State.agentStatus s n).mem = s.mem := by
  unfold State.agentStatus
  repeat' (first | with_reducible rfl | with_reducible refine (State.setWin_mem ..).trans ?_)
@[simp] theorem State.wakeColumn_mem (s : State) (core : Nat) : (State.wakeColumn s core).mem = s.mem := by
  unfold State.wakeColumn
  repeat' (first | with_reducible rfl | with_reducible refine (State.setCore_mem ..).trans ?_ | split)
@[simp] theorem State.writeCtxid_mem (s : State) (v : W64) : (State.writeCtxid s v).mem = s.mem := by
  unfold State.writeCtxid
  repeat' (first | with_reducible rfl | with_reducible refine (State.setWin_mem ..).trans ?_ | with_reducible refine (State.setCore_mem ..).trans ?_ | with_reducible refine Eq.trans (foldl_same State.mem ?_ _ _) ?_ | with_reducible intro _ | split)
@[simp] theorem State.writeTslice_mem (s : State) (v : W64) : (State.writeTslice s v).mem = s.mem := by
  unfold State.writeTslice
  repeat' (first | with_reducible rfl | with_reducible refine (State.expire_mem ..).trans ?_ | with_reducible refine (State.setWin_mem ..).trans ?_)
@[simp] theorem State.writeEnable_mem (s : State) (q : Nat) (v : W64) : (State.writeEnable s q v).mem = s.mem := by
  unfold State.writeEnable
  repeat' (first | with_reducible rfl | with_reducible refine (State.setLq_mem ..).trans ?_ | split | extract_lets)
@[simp] theorem State.writeQueue_mem (s : State) (q word : Nat) (v : W64) : (State.writeQueue s q word v).mem = s.mem := by
  unfold State.writeQueue
  repeat' (first | with_reducible rfl | with_reducible refine (State.writeEnable_mem ..).trans ?_ | with_reducible refine (State.setLq_mem ..).trans ?_ | split | extract_lets)
@[simp] theorem State.spoilPublish_mem (s : State) (b : Nat) : (State.spoilPublish s b).mem = s.mem := by
  unfold State.spoilPublish
  rfl
@[simp] theorem State.writeBuffer_mem (s : State) (b word : Nat) (v : W64) : (State.writeBuffer s b word v).mem = s.mem := by
  unfold State.writeBuffer
  repeat' (first | with_reducible rfl | with_reducible refine (State.spoilPublish_mem ..).trans ?_ | split | extract_lets | dsimp only | dsimp +zetaDelta only)
@[simp] theorem State.writeTvbase_mem (s : State) (hi : Bool) (v : W64) : (State.writeTvbase s hi v).mem = s.mem := by
  unfold State.writeTvbase
  repeat' (first | with_reducible rfl | with_reducible refine (State.setWin_mem ..).trans ?_)
@[simp] theorem State.writeInv_mem (s : State) (word : Nat) (v : W64) : (State.writeInv s word v).mem = s.mem := by
  unfold State.writeInv
  repeat' (first | with_reducible rfl | with_reducible refine (State.setWin_mem ..).trans ?_ | with_reducible refine (State.startTlbinv_mem ..).trans ?_ | split)
@[simp] theorem State.writeVac_mem (s : State) (word : Nat) (v : W64) : (State.writeVac s word v).mem = s.mem := by
  unfold State.writeVac
  repeat' (first | with_reducible rfl | with_reducible refine (State.setWin_mem ..).trans ?_ | with_reducible refine (State.startVacate_mem ..).trans ?_ | split)
@[simp] theorem State.judgeAll_mem (s : State) : (State.judgeAll s).mem = s.mem := by
  unfold State.judgeAll
  repeat' (first | with_reducible rfl | with_reducible refine (State.judgeCore_mem ..).trans ?_ | with_reducible refine Eq.trans (foldl_same State.mem ?_ _ _) ?_ | with_reducible intro _)
@[simp] theorem State.zeroCounter_mem (s : State) (key : Nat) : (State.zeroCounter s key).mem = s.mem := by
  unfold State.zeroCounter
  repeat' (first | with_reducible rfl | with_reducible refine (State.setCore_mem ..).trans ?_ | split | extract_lets)
@[simp] theorem State.mailWrite_mem (s : State) (word : Nat) (v : W64) : (State.mailWrite s word v).mem = s.mem := by
  unfold State.mailWrite
  repeat' (first | with_reducible rfl | with_reducible refine (State.setWin_mem ..).trans ?_ | with_reducible refine (State.setCore_mem ..).trans ?_ | with_reducible refine (State.zeroCounter_mem ..).trans ?_ | split | extract_lets)
@[simp] theorem State.debugWrite_mem (s : State) (a : Agent) (reg : Nat) (v : W64) : (State.debugWrite s a reg v).mem = s.mem := by
  unfold State.debugWrite
  repeat' (first | with_reducible rfl | with_reducible refine (State.setWave_mem ..).trans ?_ | with_reducible refine (State.setStream_mem ..).trans ?_ | split)
@[simp] theorem State.reply_mem (s : State) (ws : List W64) : (State.reply s ws).mem = s.mem := by
  unfold State.reply
  repeat' (first | with_reducible rfl | with_reducible refine (State.setFred_mem ..).trans ?_ | with_reducible refine (State.vector_mem ..).trans ?_)
@[simp] theorem State.stopAll_mem (s : State) : (State.stopAll s).mem = s.mem := by
  unfold State.stopAll
  rfl
@[simp] theorem State.failStart_mem (s : State) (cause : Nat) : (State.failStart s cause).mem = s.mem := by
  unfold State.failStart
  repeat' (first | with_reducible rfl | with_reducible refine (State.setFred_mem ..).trans ?_ | with_reducible refine (State.stopAll_mem ..).trans ?_)
@[simp] theorem State.upsetTile_mem (s : State) (slot word : Nat) : (State.upsetTile s slot word).mem = s.mem := by
  unfold State.upsetTile
  repeat' (first | with_reducible rfl | with_reducible refine (State.setTile_mem ..).trans ?_ | with_reducible refine Eq.trans (foldl_same State.mem ?_ _ _) ?_ | with_reducible intro _ | split)
@[simp] theorem State.upsetRowBuf_mem (s : State) (core word : Nat) : (State.upsetRowBuf s core word).mem = s.mem := by
  unfold State.upsetRowBuf
  repeat' (first | with_reducible rfl | with_reducible refine (State.updStream_mem ..).trans ?_)
@[simp] theorem State.upsetHeld_mem (s : State) (core chain n : Nat) : (State.upsetHeld s core chain n).mem = s.mem := by
  unfold State.upsetHeld
  repeat' (first | with_reducible rfl | with_reducible refine (State.lostRow_mem ..).trans ?_ | with_reducible refine (State.setChain_mem ..).trans ?_ | split | extract_lets)
@[simp] theorem State.upsetTuple_mem (s : State) (h stamp field : Nat) : (State.upsetTuple s h stamp field).mem = s.mem := by
  unfold State.upsetTuple
  repeat' (first | with_reducible rfl | with_reducible refine (State.setSlice_mem ..).trans ?_)
@[simp] theorem State.seeBad_mem (s : State) (c k : Nat) (w : Wave) (word : W64) : (State.seeBad s c k w word).mem = s.mem := by
  unfold State.seeBad
  repeat' (first | with_reducible rfl | with_reducible refine (State.sawBad_mem ..).trans ?_ | split | extract_lets)


end Sys2Proof.Machine
end

