-- ==== Sys2Proof/Laws/FrameStreams.lean ====
section
/-! SUPPORT. Operations that leave the table of streams of the device as they were. -/

set_option Elab.async false

namespace Sys2Proof.Machine
@[simp] theorem State.countErr_streams (s : State) (die idx : Nat) : (State.countErr s die idx).streams = s.streams := by
  unfold State.countErr
  repeat' (first | with_reducible rfl | with_reducible refine (State.count_streams ..).trans ?_)
@[simp] theorem State.pmcCount_streams (s : State) (core ev n team : Nat) : (State.pmcCount s core ev n team).streams = s.streams := by
  unfold State.pmcCount
  repeat' (first | with_reducible rfl | with_reducible refine (State.setCore_streams ..).trans ?_ | split | extract_lets)
@[simp] theorem State.vector_streams (s : State) (n : Nat) : (State.vector s n).streams = s.streams := by
  unfold State.vector
  rfl
@[simp] theorem State.errorReport_streams (s : State) (code : Nat) : (State.errorReport s code).streams = s.streams := by
  unfold State.errorReport
  rfl
@[simp] theorem State.freshCode_streams (s : State) (st : Store) (rs : List (Nat × Nat)) : (State.freshCode s st rs).streams = s.streams := by
  unfold State.freshCode
  repeat' (first | with_reducible rfl | with_reducible refine (State.count_streams ..).trans ?_ | split | extract_lets | dsimp +zetaDelta only)
@[simp] theorem State.storeWrite_streams (s : State) (st : Store) (a : Nat) (bs : List Byte) : (State.storeWrite s st a bs).streams = s.streams := by
  unfold State.storeWrite
  repeat' (first | with_reducible rfl | with_reducible refine (State.freshCode_streams ..).trans ?_)
@[simp] theorem State.storeClear_streams (s : State) (st : Store) (a n : Nat) : (State.storeClear s st a n).streams = s.streams := by
  unfold State.storeClear
  repeat' (first | with_reducible rfl | with_reducible refine (State.freshCode_streams ..).trans ?_)
@[simp] theorem State.storeFill_streams (s : State) (st : Store) (a n : Nat) (m : Mem) : (State.storeFill s st a n m).streams = s.streams := by
  unfold State.storeFill
  repeat' (first | with_reducible rfl | with_reducible refine (State.storeClear_streams ..).trans ?_)
@[simp] theorem State.upsetStore_streams (s : State) (st : Store) (word : Nat) : (State.upsetStore s st word).streams = s.streams := by
  unfold State.upsetStore
  rfl
@[simp] theorem State.l2Evict_streams (s : State) (line : Nat) : (State.l2Evict s line).streams = s.streams := by
  unfold State.l2Evict
  repeat' (first | with_reducible rfl | split)
@[simp] theorem State.sliceEvict_streams (s : State) (h : Nat) : (State.sliceEvict s h).streams = s.streams := by
  unfold State.sliceEvict
  repeat' (first | with_reducible rfl | with_reducible refine (State.l2Evict_streams ..).trans ?_ | split | extract_lets)
@[simp] theorem State.sliceTrim_streams (s : State) (h spare : Nat) : (State.sliceTrim s h spare).streams = s.streams := by
  unfold State.sliceTrim
  repeat' (first | with_reducible rfl | with_reducible refine (State.sliceEvict_streams ..).trans ?_ | with_reducible refine Eq.trans (foldl_same State.streams ?_ _ _) ?_ | with_reducible intro _)
@[simp] theorem State.needLoop_streams (s : State) (c : Option Nat) (line : Nat) : (State.needLoop s c line).streams = s.streams := by
  unfold State.needLoop
  repeat' (first | with_reducible rfl | split)
@[simp] theorem State.fill_streams (s : State) (line : Nat) : (State.fill s line).streams = s.streams := by
  unfold State.fill
  repeat' (first | with_reducible rfl | with_reducible refine (State.sliceTrim_streams ..).trans ?_ | with_reducible refine (State.count_streams ..).trans ?_ | split)
@[simp] theorem State.dropCopy_streams (s : State) (c line : Nat) : (State.dropCopy s c line).streams = s.streams := by
  unfold State.dropCopy
  repeat' (first | with_reducible rfl | with_reducible refine (State.setCluster_streams ..).trans ?_ | with_reducible refine (State.count_streams ..).trans ?_ | split | extract_lets)
@[simp] theorem State.dropReplicas_streams (s : State) (line : Nat) : (State.dropReplicas s line).streams = s.streams := by
  unfold State.dropReplicas
  repeat' (first | with_reducible rfl | with_reducible refine (State.setCluster_streams ..).trans ?_ | with_reducible refine (State.count_streams ..).trans ?_ | with_reducible refine Eq.trans (foldl_same State.streams ?_ _ _) ?_ | with_reducible intro _ | split | extract_lets)
@[simp] theorem State.combine_streams (s : State) (unit : Nat) (p : Partial) : (State.combine s unit p).streams = s.streams := by
  unfold State.combine
  rfl
@[simp] theorem State.bumpSeq_streams (s : State) (line : Nat) : (State.bumpSeq s line).streams = s.streams := by
  unfold State.bumpSeq
  repeat' (first | with_reducible rfl | with_reducible refine (State.setSlice_streams ..).trans ?_ | with_reducible refine (State.count_streams ..).trans ?_)
@[simp] theorem State.recallFrom_streams (s : State) (line : Nat) (cs : List Nat) : (State.recallFrom s line cs).streams = s.streams := by
  unfold State.recallFrom
  repeat' (first | with_reducible rfl | with_reducible refine (State.bumpSeq_streams ..).trans ?_ | with_reducible refine (State.dropReplicas_streams ..).trans ?_ | with_reducible refine (State.fill_streams ..).trans ?_ | with_reducible refine (State.dropCopy_streams ..).trans ?_ | with_reducible refine (State.combine_streams ..).trans ?_ | with_reducible refine (State.count_streams ..).trans ?_ | with_reducible refine Eq.trans (foldl_same State.streams ?_ _ _) ?_ | with_reducible intro _ | split | extract_lets)
@[simp] theorem State.recall_streams (s : State) (line : Nat) : (State.recall s line).streams = s.streams := by
  unfold State.recall
  repeat' (first | with_reducible rfl | with_reducible refine (State.recallFrom_streams ..).trans ?_)
@[simp] theorem State.dropOthers_streams (s : State) (line : Nat) (writer : Option Nat) : (State.dropOthers s line writer).streams = s.streams := by
  unfold State.dropOthers
  repeat' (first | with_reducible rfl | with_reducible refine (State.dropReplicas_streams ..).trans ?_ | with_reducible refine (State.setCluster_streams ..).trans ?_ | with_reducible refine (State.dropCopy_streams ..).trans ?_ | with_reducible refine Eq.trans (foldl_same State.streams ?_ _ _) ?_ | with_reducible intro _ | split)
@[simp] theorem State.grantOwned_streams (s : State) (c line : Nat) : (State.grantOwned s c line).streams = s.streams := by
  unfold State.grantOwned
  repeat' (first | with_reducible rfl | with_reducible refine (State.setCluster_streams ..).trans ?_ | split)
@[simp] theorem State.homeWriteCells_streams (s : State) (line : Nat) (cs : List Host.Cell) (writer : Option Nat) : (State.homeWriteCells s line cs writer).streams = s.streams := by
  unfold State.homeWriteCells
  repeat' (first | with_reducible rfl | with_reducible refine (State.bumpSeq_streams ..).trans ?_ | with_reducible refine (State.recall_streams ..).trans ?_ | with_reducible refine (State.needLoop_streams ..).trans ?_ | with_reducible refine (State.fill_streams ..).trans ?_ | with_reducible refine (State.dropOthers_streams ..).trans ?_ | split)
@[simp] theorem State.homeWriteBytes_streams (s : State) (pa : Nat) (bs : List Byte) (writer : Option Nat) : (State.homeWriteBytes s pa bs writer).streams = s.streams := by
  unfold State.homeWriteBytes
  repeat' (first | with_reducible rfl | with_reducible refine (State.homeWriteCells_streams ..).trans ?_ | with_reducible refine Eq.trans (foldl_same State.streams ?_ _ _) ?_ | with_reducible intro _ | split)
@[simp] theorem State.homeTouch_streams (s : State) (line : Nat) : (State.homeTouch s line).streams = s.streams := by
  unfold State.homeTouch
  repeat' (first | with_reducible rfl | with_reducible refine (State.recall_streams ..).trans ?_ | with_reducible refine (State.count_streams ..).trans ?_ | with_reducible refine (State.fill_streams ..).trans ?_)
@[simp] theorem State.setPoison_streams (s : State) (line : Nat) : (State.setPoison s line).streams = s.streams := by
  unfold State.setPoison
  repeat' (first | with_reducible rfl | with_reducible refine (State.errorReport_streams ..).trans ?_ | with_reducible refine (State.fill_streams ..).trans ?_ | with_reducible refine (State.countErr_streams ..).trans ?_ | split | extract_lets)
@[simp] theorem State.homeDiscard_streams (s : State) (line : Nat) : (State.homeDiscard s line).streams = s.streams := by
  unfold State.homeDiscard
  repeat' (first | with_reducible rfl | with_reducible refine (State.bumpSeq_streams ..).trans ?_ | with_reducible refine (State.dropCopy_streams ..).trans ?_ | with_reducible refine (State.recall_streams ..).trans ?_ | with_reducible refine (State.dropOthers_streams ..).trans ?_ | with_reducible refine Eq.trans (foldl_same State.streams ?_ _ _) ?_ | with_reducible intro _)
@[simp] theorem State.colClean_streams (s : State) (core line : Nat) : (State.colClean s core line).streams = s.streams := by
  unfold State.colClean
  repeat' (first | with_reducible rfl | with_reducible refine (State.pmcCount_streams ..).trans ?_ | with_reducible refine (State.dropCopy_streams ..).trans ?_ | with_reducible refine (State.homeWriteCells_streams ..).trans ?_ | with_reducible refine (State.setPoison_streams ..).trans ?_ | with_reducible refine (State.setCol_streams ..).trans ?_ | with_reducible refine (State.grantOwned_streams ..).trans ?_ | with_reducible refine (State.countErr_streams ..).trans ?_ | split)
@[simp] theorem State.colCleanWord_streams (s : State) (core line word : Nat) : (State.colCleanWord s core line word).streams = s.streams := by
  unfold State.colCleanWord
  repeat' (first | with_reducible rfl | with_reducible refine (State.homeWriteCells_streams ..).trans ?_ | with_reducible refine (State.setCol_streams ..).trans ?_ | split | extract_lets)
@[simp] theorem State.colEvict_streams (s : State) (core line : Nat) : (State.colEvict s core line).streams = s.streams := by
  unfold State.colEvict
  repeat' (first | with_reducible rfl | with_reducible refine (State.dropCol_streams ..).trans ?_ | with_reducible refine (State.colClean_streams ..).trans ?_)
@[simp] theorem State.colSweep_streams (s : State) (core : Nat) (p : ColLine → Bool) (inv : Bool) : (State.colSweep s core p inv).streams = s.streams := by
  unfold State.colSweep
  repeat' (first | with_reducible rfl | with_reducible refine (State.colClean_streams ..).trans ?_ | with_reducible refine (State.colEvict_streams ..).trans ?_ | with_reducible refine Eq.trans (foldl_same State.streams ?_ _ _) ?_ | with_reducible intro _ | split)
@[simp] theorem State.columnRelease_streams (s : State) (paired : Bool) (scope core : Nat) : (State.columnRelease s paired scope core).streams = s.streams := by
  unfold State.columnRelease
  repeat' (first | with_reducible rfl | with_reducible refine (State.colSweep_streams ..).trans ?_ | split)
@[simp] theorem State.columnAcquire_streams (s : State) (paired : Bool) (scope core : Nat) : (State.columnAcquire s paired scope core).streams = s.streams := by
  unfold State.columnAcquire
  repeat' (first | with_reducible rfl | with_reducible refine (State.colSweep_streams ..).trans ?_ | split)
@[simp] theorem State.colEvictOne_streams (s : State) (core : Nat) : (State.colEvictOne s core).streams = s.streams := by
  unfold State.colEvictOne
  repeat' (first | with_reducible rfl | with_reducible refine (State.colEvict_streams ..).trans ?_ | split | extract_lets)
@[simp] theorem State.colMakeRoom_streams (s : State) (core line : Nat) : (State.colMakeRoom s core line).streams = s.streams := by
  unfold State.colMakeRoom
  repeat' (first | with_reducible rfl | with_reducible refine (State.colEvictOne_streams ..).trans ?_ | split)
@[simp] theorem State.colStore_streams (s : State) (core pa : Nat) (bs : List Byte) (uo : Bool) : (State.colStore s core pa bs uo).streams = s.streams := by
  unfold State.colStore
  repeat' (first | with_reducible rfl | with_reducible refine (State.colMakeRoom_streams ..).trans ?_ | with_reducible refine (State.count_streams ..).trans ?_ | with_reducible refine (State.setCol_streams ..).trans ?_ | split)
@[simp] theorem State.colFill_streams (s : State) (core line : Nat) (uo : Bool) : (State.colFill s core line uo).streams = s.streams := by
  unfold State.colFill
  repeat' (first | with_reducible rfl | with_reducible refine (State.colMakeRoom_streams ..).trans ?_ | with_reducible refine (State.setCol_streams ..).trans ?_)
@[simp] theorem State.upsetCol_streams (s : State) (core line word : Nat) : (State.upsetCol s core line word).streams = s.streams := by
  unfold State.upsetCol
  repeat' (first | with_reducible rfl | with_reducible refine (State.setCol_streams ..).trans ?_ | split)
@[simp] theorem State.clusterMakeRoom_streams (s : State) (c : Nat) : (State.clusterMakeRoom s c).streams = s.streams := by
  unfold State.clusterMakeRoom
  repeat' (first | with_reducible rfl | with_reducible refine (State.recall_streams ..).trans ?_ | with_reducible refine (State.dropCopy_streams ..).trans ?_ | split | extract_lets)
@[simp] theorem State.takeCopy_streams (s : State) (c line : Nat) (x : CLine) : (State.takeCopy s c line x).streams = s.streams := by
  unfold State.takeCopy
  repeat' (first | with_reducible rfl | with_reducible refine (State.setCluster_streams ..).trans ?_ | with_reducible refine (State.clusterMakeRoom_streams ..).trans ?_)
@[simp] theorem State.shareLine_streams (s : State) (line : Nat) : (State.shareLine s line).streams = s.streams := by
  unfold State.shareLine
  repeat' (first | with_reducible rfl | with_reducible refine (State.setCluster_streams ..).trans ?_ | with_reducible refine Eq.trans (foldl_same State.streams ?_ _ _) ?_ | with_reducible intro _)
@[simp] theorem State.installCopy_streams (s : State) (c line : Nat) (pf : Bool) (peer : Option Nat) : (State.installCopy s c line pf peer).streams = s.streams := by
  unfold State.installCopy
  repeat' (first | with_reducible rfl | with_reducible refine (State.shareLine_streams ..).trans ?_ | with_reducible refine (State.setCluster_streams ..).trans ?_ | with_reducible refine (State.takeCopy_streams ..).trans ?_ | split | extract_lets)
@[simp] theorem State.clusterLookup_streams (s : State) (c line : Nat) : (State.clusterLookup s c line).streams = s.streams := by
  unfold State.clusterLookup
  repeat' (first | with_reducible rfl | with_reducible refine (State.installCopy_streams ..).trans ?_ | with_reducible refine (State.count_streams ..).trans ?_ | split)
@[simp] theorem State.learnPeer_streams (s : State) (c line : Nat) : (State.learnPeer s c line).streams = s.streams := by
  unfold State.learnPeer
  repeat' (first | with_reducible rfl | with_reducible refine (State.setCluster_streams ..).trans ?_ | split)
@[simp] theorem State.pushReplicas_streams (s : State) (line : Nat) : (State.pushReplicas s line).streams = s.streams := by
  unfold State.pushReplicas
  repeat' (first | with_reducible rfl | with_reducible refine (State.count_streams ..).trans ?_ | with_reducible refine (State.sliceTrim_streams ..).trans ?_ | with_reducible refine Eq.trans (foldl_same State.streams ?_ _ _) ?_ | with_reducible intro _)
@[simp] theorem State.repeaterCount_streams (s : State) (c line : Nat) : (State.repeaterCount s c line).streams = s.streams := by
  unfold State.repeaterCount
  repeat' (first | with_reducible rfl | with_reducible refine (State.pushReplicas_streams ..).trans ?_ | with_reducible refine (State.setCluster_streams ..).trans ?_ | with_reducible refine (State.setSlice_streams ..).trans ?_ | with_reducible refine Eq.trans (foldl_same State.streams ?_ _ _) ?_ | with_reducible intro _ | split | extract_lets)
@[simp] theorem State.homeServe_streams (s : State) (c : Option Nat) (line : Nat) : (State.homeServe s c line).streams = s.streams := by
  unfold State.homeServe
  repeat' (first | with_reducible rfl | with_reducible refine (State.homeTouch_streams ..).trans ?_ | with_reducible refine (State.repeaterCount_streams ..).trans ?_ | with_reducible refine (State.learnPeer_streams ..).trans ?_ | with_reducible refine (State.needLoop_streams ..).trans ?_ | split)
@[simp] theorem State.homeReadBytes_streams (s : State) (c : Option Nat) (pa n : Nat) : (State.homeReadBytes s c pa n).1.streams = s.streams := by
  unfold State.homeReadBytes
  repeat' (first | with_reducible rfl | with_reducible refine (State.homeServe_streams ..).trans ?_ | with_reducible refine Eq.trans (foldl_same State.streams ?_ _ _) ?_ | with_reducible intro _)
@[simp] theorem State.homeAnswer_streams (s : State) (c line : Nat) (pf : Bool) : (State.homeAnswer s c line pf).1.streams = s.streams := by
  unfold State.homeAnswer
  repeat' (first | with_reducible rfl | with_reducible refine (State.installCopy_streams ..).trans ?_ | with_reducible refine (State.homeServe_streams ..).trans ?_ | split | extract_lets)
@[simp] theorem State.redirectedRead_streams (s : State) (c line helper : Nat) (pf : Bool) : (State.redirectedRead s c line helper pf).1.streams = s.streams := by
  unfold State.redirectedRead
  repeat' (first | with_reducible rfl | with_reducible refine (State.homeAnswer_streams ..).trans ?_ | with_reducible refine (State.installCopy_streams ..).trans ?_ | with_reducible refine (State.setCluster_streams ..).trans ?_ | with_reducible refine (State.count_streams ..).trans ?_ | split | extract_lets)
@[simp] theorem State.probePeer_streams (s : State) (c line p : Nat) (pf : Bool) : (State.probePeer s c line p pf).1.streams = s.streams := by
  unfold State.probePeer
  split <;> (try split) <;> simp [State.probePeer.clearAndAsk]
@[simp] theorem State.serveLine_streams (s : State) (c line : Nat) (plain pf : Bool) : (State.serveLine s c line plain pf).1.streams = s.streams := by
  unfold State.serveLine
  dsimp only
  repeat' (first | with_reducible refine (State.redirectedRead_streams ..).trans ?_ | with_reducible refine (State.probePeer_streams ..).trans ?_ | with_reducible refine (State.homeAnswer_streams ..).trans ?_ | with_reducible rfl | split)
@[simp] theorem State.takeMiss_streams (s : State) (c line : Nat) (who : Nat × Nat) : (State.takeMiss s c line who).streams = s.streams := by
  unfold State.takeMiss
  repeat' (first | with_reducible rfl | with_reducible refine (State.setCluster_streams ..).trans ?_ | with_reducible refine (State.count_streams ..).trans ?_ | split | extract_lets)
@[simp] theorem State.takePrefetch_streams (s : State) (c line : Nat) : (State.takePrefetch s c line).streams = s.streams := by
  unfold State.takePrefetch
  repeat' (first | with_reducible rfl | with_reducible refine (State.setCluster_streams ..).trans ?_ | with_reducible refine (State.count_streams ..).trans ?_ | split | extract_lets)
@[simp] theorem State.endMiss_streams (s : State) (c line : Nat) (who : Nat × Nat) : (State.endMiss s c line who).streams = s.streams := by
  unfold State.endMiss
  repeat' (first | with_reducible rfl | with_reducible refine (State.setCluster_streams ..).trans ?_)
@[simp] theorem State.endEntry_streams (s : State) (c line : Nat) : (State.endEntry s c line).streams = s.streams := by
  unfold State.endEntry
  repeat' (first | with_reducible rfl | with_reducible refine (State.setCluster_streams ..).trans ?_ | split | extract_lets)
@[simp] theorem State.passMiss_streams (s : State) (c line : Nat) (who : Nat × Nat) : (State.passMiss s c line who).streams = s.streams := by
  unfold State.passMiss
  repeat' (first | with_reducible rfl | with_reducible refine (State.takeMiss_streams ..).trans ?_ | split)
@[simp] theorem State.commitWalk_streams (s : State) (va : W64) : (State.commitWalk s va).streams = s.streams := by
  unfold State.commitWalk
  repeat' (first | with_reducible rfl | with_reducible refine (State.homeTouch_streams ..).trans ?_ | with_reducible refine Eq.trans (foldl_same State.streams ?_ _ _) ?_ | with_reducible intro _ | split)
@[simp] theorem State.noteWalk_streams (s : State) (t : TlbEntry) : (State.noteWalk s t).streams = s.streams := by
  unfold State.noteWalk
  repeat' (first | with_reducible rfl | split)
@[simp] theorem State.endWalk_streams (s : State) (d : Nat) (va : W64) : (State.endWalk s d va).streams = s.streams := by
  unfold State.endWalk
  repeat' (first | with_reducible rfl | with_reducible refine (State.setDie_streams ..).trans ?_ | with_reducible refine (State.commitWalk_streams ..).trans ?_ | with_reducible refine (State.noteWalk_streams ..).trans ?_ | split | extract_lets | dsimp only | dsimp +zetaDelta only)
@[simp] theorem State.leaveWalk_streams (s : State) (d : Nat) (va : W64) : (State.leaveWalk s d va).streams = s.streams := by
  unfold State.leaveWalk
  repeat' (first | with_reducible rfl | with_reducible refine (State.setDie_streams ..).trans ?_)
@[simp] theorem State.walkFill_streams (s : State) (d : Nat) (va : W64) : (State.walkFill s d va).streams = s.streams := by
  unfold State.walkFill
  repeat' (first | with_reducible rfl | with_reducible refine (State.leaveWalk_streams ..).trans ?_ | with_reducible refine (State.count_streams ..).trans ?_ | with_reducible refine (State.endWalk_streams ..).trans ?_ | split | extract_lets)
@[simp] theorem State.touchShared_streams (s : State) (d : Nat) (va : W64) : (State.touchShared s d va).streams = s.streams := by
  unfold State.touchShared
  repeat' (first | with_reducible rfl | with_reducible refine (State.count_streams ..).trans ?_ | with_reducible refine (State.walkFill_streams ..).trans ?_ | split)
@[simp] theorem State.takeLeaf_streams (s : State) (cl : Nat) (va : W64) : (State.takeLeaf s cl va).streams = s.streams := by
  unfold State.takeLeaf
  repeat' (first | with_reducible rfl | with_reducible refine (State.setCluster_streams ..).trans ?_ | split)
@[simp] theorem State.touchTlb_streams (s : State) (cl : Nat) (va : W64) : (State.touchTlb s cl va).streams = s.streams := by
  unfold State.touchTlb
  repeat' (first | with_reducible rfl | with_reducible refine (State.count_streams ..).trans ?_ | with_reducible refine (State.takeLeaf_streams ..).trans ?_ | with_reducible refine (State.touchShared_streams ..).trans ?_ | split)
@[simp] theorem State.queueFor_streams (s : State) (x : Lack) : (State.queueFor s x).streams = s.streams := by
  unfold State.queueFor
  repeat' (first | with_reducible rfl | with_reducible refine (State.setDie_streams ..).trans ?_ | with_reducible refine (State.takeMiss_streams ..).trans ?_ | with_reducible refine (State.count_streams ..).trans ?_ | split | extract_lets)
@[simp] theorem State.idemLost_streams (s : State) (team : Nat) : (State.idemLost s team).streams = s.streams := by
  unfold State.idemLost
  repeat' (first | with_reducible rfl | with_reducible refine (State.updTeam_streams ..).trans ?_)
@[simp] theorem State.drainReports_streams (n : Nat) (s : State) : (State.drainReports n s).streams = s.streams := by
  induction n generalizing s with
  | zero => rfl
  | succ n ih =>
    unfold State.drainReports
    repeat' (first | with_reducible rfl | with_reducible refine (ih ..).trans ?_ | with_reducible refine (State.homeWriteBytes_streams ..).trans ?_ | with_reducible refine (State.columnRelease_streams ..).trans ?_ | with_reducible refine (State.vector_streams ..).trans ?_ | with_reducible refine (State.touchTlb_streams ..).trans ?_ | with_reducible refine (State.errorReport_streams ..).trans ?_ | split | extract_lets | dsimp only | dsimp +zetaDelta only)
@[simp] theorem State.report_streams (s : State) (r : Report) : (State.report s r).streams = s.streams := by
  unfold State.report
  repeat' (first | with_reducible rfl | with_reducible refine (State.drainReports_streams ..).trans ?_ | split | extract_lets)
@[simp] theorem State.vectorRead_streams (s : State) (core cause : Nat) : (State.vectorRead s core cause).streams = s.streams := by
  unfold State.vectorRead
  repeat' (first | with_reducible rfl | with_reducible refine (State.homeTouch_streams ..).trans ?_ | with_reducible refine (State.touchTlb_streams ..).trans ?_ | split | extract_lets)
@[simp] theorem State.stopWave_streams (s : State) (core slot : Nat) (w : Wave) : (State.stopWave s core slot w).streams = s.streams := by
  unfold State.stopWave
  repeat' (first | with_reducible rfl | with_reducible refine (State.setWave_streams ..).trans ?_ | with_reducible refine (State.report_streams ..).trans ?_)
@[simp] theorem State.deliverAs_streams (s : State) (core slot : Nat) (w : Wave) (v : Vector) : (State.deliverAs s core slot w v).streams = s.streams := by
  unfold State.deliverAs
  repeat' (first | with_reducible rfl | with_reducible refine (State.setWave_streams ..).trans ?_ | with_reducible refine (State.stopWave_streams ..).trans ?_ | split)
@[simp] theorem State.deliver_streams (s : State) (core slot : Nat) (w : Wave) : (State.deliver s core slot w).streams = s.streams := by
  unfold State.deliver
  exact (State.deliverAs_streams ..).trans (State.vectorRead_streams ..)
@[simp] theorem State.takeTrap_streams (s : State) (core slot : Nat) (w : Wave) (t : Trap) (epc : W64) (inclause : Bool) (word : Nat) : (State.takeTrap s core slot w t epc inclause word).streams = s.streams := by
  unfold State.takeTrap
  repeat' (first | with_reducible rfl | with_reducible refine (State.setWave_streams ..).trans ?_ | with_reducible refine (State.deliver_streams ..).trans ?_ | split | extract_lets)
@[simp] theorem State.trapAt_streams (s : State) (core slot : Nat) (w : Wave) (t : Trap) : (State.trapAt s core slot w t).streams = s.streams := by
  unfold State.trapAt
  repeat' (first | with_reducible rfl | with_reducible refine (State.takeTrap_streams ..).trans ?_)
@[simp] theorem State.trapHeader_streams (s : State) (core slot : Nat) (w : Wave) (t : Trap) (epc : W64) (word : Nat) : (State.trapHeader s core slot w t epc word).streams = s.streams := by
  unfold State.trapHeader
  repeat' (first | with_reducible rfl | with_reducible refine (State.takeTrap_streams ..).trans ?_)
@[simp] theorem State.doneWave_streams (s : State) (core slot : Nat) : (State.doneWave s core slot).streams = s.streams := by
  unfold State.doneWave
  repeat' (first | with_reducible rfl | with_reducible refine (State.updWave_streams ..).trans ?_)
@[simp] theorem State.errSeenCore_streams (s : State) (team core : Nat) : (State.errSeenCore s team core).streams = s.streams := by
  unfold State.errSeenCore
  repeat' (first | with_reducible rfl | with_reducible refine (State.setWave_streams ..).trans ?_ | with_reducible refine Eq.trans (foldl_same State.streams ?_ _ _) ?_ | with_reducible intro _ | split)
@[simp] theorem State.sawBad_streams (s : State) (core slot : Nat) (addr : W64) (lanes : BitVec 96) : (State.sawBad s core slot addr lanes).streams = s.streams := by
  unfold State.sawBad
  repeat' (first | with_reducible rfl | with_reducible refine (State.countErr_streams ..).trans ?_ | with_reducible refine (State.setWave_streams ..).trans ?_ | with_reducible refine (State.updWave_streams ..).trans ?_ | split | extract_lets)
@[simp] theorem State.pendFault_streams (s : State) (core slot : Nat) (r : PendRec) : (State.pendFault s core slot r).streams = s.streams := by
  unfold State.pendFault
  repeat' (first | with_reducible rfl | with_reducible refine (State.countErr_streams ..).trans ?_ | with_reducible refine (State.setWave_streams ..).trans ?_ | split)
@[simp] theorem State.launchFault_streams (s : State) (team : Nat) (cause : Nat) : (State.launchFault s team cause).streams = s.streams := by
  unfold State.launchFault
  repeat' (first | with_reducible rfl | with_reducible refine (State.updLaunch_streams ..).trans ?_)
@[simp] theorem State.deferSaved_streams (s : State) (core slot team : Nat) (r : PendRec) : (State.deferSaved s core slot team r).streams = s.streams := by
  unfold State.deferSaved
  repeat' (first | with_reducible rfl | with_reducible refine (State.updLaunch_streams ..).trans ?_ | with_reducible refine (State.countErr_streams ..).trans ?_ | with_reducible refine (State.launchFault_streams ..).trans ?_ | split)
@[simp] theorem State.deferTo_streams (s : State) (a : Agent) (team : Nat) (r : PendRec) : (State.deferTo s a team r).streams = s.streams := by
  unfold State.deferTo
  repeat' (first | with_reducible rfl | with_reducible refine (State.launchFault_streams ..).trans ?_ | with_reducible refine (State.pendFault_streams ..).trans ?_ | with_reducible refine (State.deferSaved_streams ..).trans ?_ | split)
@[simp] theorem State.setBarrier_streams (s : State) (team lvl id : Nat) (b : Barrier) : (State.setBarrier s team lvl id b).streams = s.streams := by
  unfold State.setBarrier
  repeat' (first | with_reducible rfl | with_reducible refine (State.updLaunch_streams ..).trans ?_ | with_reducible refine (State.setTeam_streams ..).trans ?_ | split)
@[simp] theorem State.leaveBarriers_streams (s : State) (team local_ : Nat) : (State.leaveBarriers s team local_).streams = s.streams := by
  unfold State.leaveBarriers
  repeat' (first | with_reducible rfl | with_reducible refine (State.updLaunch_streams ..).trans ?_ | with_reducible refine (State.setTeam_streams ..).trans ?_ | split)
@[simp] theorem State.retireFrame_streams (s : State) (die : Nat) (frame : W64) : (State.retireFrame s die frame).streams = s.streams := by
  unfold State.retireFrame
  repeat' (first | with_reducible rfl | with_reducible refine (State.setTile_streams ..).trans ?_ | with_reducible refine (State.setDie_streams ..).trans ?_ | with_reducible refine Eq.trans (foldl_same State.streams ?_ _ _) ?_ | with_reducible intro _ | split | extract_lets)
@[simp] theorem State.unrefTile_streams (s : State) (t : Nat) : (State.unrefTile s t).streams = s.streams := by
  unfold State.unrefTile
  repeat' (first | with_reducible rfl | with_reducible refine (State.setTile_streams ..).trans ?_ | with_reducible refine (State.retireFrame_streams ..).trans ?_ | split | extract_lets)
@[simp] theorem State.dropRefs_streams (s : State) (core slot : Nat) : (State.dropRefs s core slot).streams = s.streams := by
  unfold State.dropRefs
  repeat' (first | with_reducible rfl | with_reducible refine (State.unrefTile_streams ..).trans ?_ | with_reducible refine (State.setWave_streams ..).trans ?_ | with_reducible refine Eq.trans (foldl_same State.streams ?_ _ _) ?_ | with_reducible intro _ | split)
@[simp] theorem State.releaseRefs_streams (s : State) (core slot : Nat) : (State.releaseRefs s core slot).streams = s.streams := by
  unfold State.releaseRefs
  repeat' (first | with_reducible rfl | with_reducible refine (State.dropRefs_streams ..).trans ?_ | with_reducible refine (State.setWave_streams ..).trans ?_ | split)
@[simp] theorem State.issueReq_streams (s : State) (core slot : Nat) (w : Wave) (p : Path) (word : W64) (sem scope : Nat) (accs : List Access) (ret : Ret) (phase : Nat) : (State.issueReq s core slot w p word sem scope accs ret phase).streams = s.streams := by
  unfold State.issueReq
  repeat' (first | with_reducible rfl | with_reducible refine (State.setWave_streams ..).trans ?_)
@[simp] theorem State.tagLast_streams (s : State) (core slot : Nat) (lines : List Nat) : (State.tagLast s core slot lines).streams = s.streams := by
  unfold State.tagLast
  repeat' (first | with_reducible rfl | with_reducible refine (State.updWave_streams ..).trans ?_ | split)
@[simp] theorem State.releaseFor_streams (s : State) (core slot : Nat) (paired : Bool) (scope : Nat) : (State.releaseFor s core slot paired scope).streams = s.streams := by
  unfold State.releaseFor
  repeat' (first | with_reducible rfl | with_reducible refine (State.columnRelease_streams ..).trans ?_ | with_reducible refine (State.tagLast_streams ..).trans ?_ | split)
@[simp] theorem State.sweepFor_streams (s : State) (core slot : Nat) (p : ColLine → Bool) (inv : Bool) : (State.sweepFor s core slot p inv).streams = s.streams := by
  unfold State.sweepFor
  repeat' (first | with_reducible rfl | with_reducible refine (State.tagLast_streams ..).trans ?_ | with_reducible refine (State.colSweep_streams ..).trans ?_)
@[simp] theorem State.acquireFor_streams (s : State) (core slot : Nat) (paired : Bool) (scope : Nat) : (State.acquireFor s core slot paired scope).streams = s.streams := by
  unfold State.acquireFor
  repeat' (first | with_reducible rfl | with_reducible refine (State.sweepFor_streams ..).trans ?_ | split)
@[simp] theorem State.sendReq_streams (s : State) (core slot : Nat) (w : Wave) (q : Req) : (State.sendReq s core slot w q).streams = s.streams := by
  unfold State.sendReq
  repeat' (first | with_reducible rfl | with_reducible refine (State.releaseFor_streams ..).trans ?_ | with_reducible refine (State.setWave_streams ..).trans ?_ | split)
@[simp] theorem State.spadWrite_streams (s : State) (t : Team) (off : Nat) (bs : List Byte) : (State.spadWrite s t off bs).streams = s.streams := by
  unfold State.spadWrite
  repeat' (first | with_reducible rfl | with_reducible refine (State.storeWrite_streams ..).trans ?_)
@[simp] theorem State.touchAll_streams (s : State) (core : Nat) (lvl : Level) (vas : List W64) : (State.touchAll s core lvl vas).streams = s.streams := by
  unfold State.touchAll
  repeat' (first | with_reducible rfl | with_reducible refine (State.touchTlb_streams ..).trans ?_ | with_reducible refine Eq.trans (foldl_same State.streams ?_ _ _) ?_ | with_reducible intro _ | split)
@[simp] theorem State.touchFault_streams (s : State) (core : Nat) (va : W64) (e : XErr) : (State.touchFault s core va e).streams = s.streams := by
  unfold State.touchFault
  repeat' (first | with_reducible rfl | with_reducible refine (State.touchTlb_streams ..).trans ?_ | split)
@[simp] theorem State.issueVec_streams (s : State) (c k : Nat) (w : Wave) (f : FmtM) (p : MemPlan) : (State.issueVec s c k w f p).streams = s.streams := by
  unfold State.issueVec
  repeat' (first | with_reducible rfl | with_reducible refine (State.idemLost_streams ..).trans ?_ | with_reducible refine (State.trapAt_streams ..).trans ?_ | with_reducible refine (State.setWave_streams ..).trans ?_ | with_reducible refine (State.touchAll_streams ..).trans ?_ | with_reducible refine (State.issueReq_streams ..).trans ?_ | split | extract_lets)
@[simp] theorem State.issueScalar_streams (s : State) (c k : Nat) (w : Wave) (f : FmtM) (path : Path) (n : Nat) (i : Intent) (lost : Bool) (op : AccOp) (ret : Ret) : (State.issueScalar s c k w f path n i lost op ret).streams = s.streams := by
  unfold State.issueScalar
  repeat' (first | with_reducible rfl | with_reducible refine (State.issueReq_streams ..).trans ?_ | with_reducible refine (State.setWave_streams ..).trans ?_ | with_reducible refine (State.touchFault_streams ..).trans ?_ | with_reducible refine (State.idemLost_streams ..).trans ?_ | with_reducible refine (State.trapAt_streams ..).trans ?_ | with_reducible refine (State.touchTlb_streams ..).trans ?_ | split | extract_lets)
@[simp] theorem State.prefetch_streams (s : State) (cl : Nat) (va : W64) : (State.prefetch s cl va).streams = s.streams := by
  unfold State.prefetch
  repeat' (first | with_reducible rfl | with_reducible refine (State.count_streams ..).trans ?_ | with_reducible refine (State.touchTlb_streams ..).trans ?_ | with_reducible refine (State.takePrefetch_streams ..).trans ?_ | split)
@[simp] theorem State.columnWord_streams (s : State) (c k : Nat) (w : Wave) (f : FmtM) (inv : Bool) : (State.columnWord s c k w f inv).streams = s.streams := by
  unfold State.columnWord
  repeat' (first | with_reducible rfl | with_reducible refine (State.tagLast_streams ..).trans ?_ | with_reducible refine (State.touchAll_streams ..).trans ?_ | with_reducible refine (State.colClean_streams ..).trans ?_ | with_reducible refine (State.colSweep_streams ..).trans ?_ | with_reducible refine (State.setWave_streams ..).trans ?_ | with_reducible refine (State.colEvict_streams ..).trans ?_ | with_reducible refine (State.trapAt_streams ..).trans ?_ | with_reducible refine (State.doneWave_streams ..).trans ?_ | with_reducible refine Eq.trans (foldl_same State.streams ?_ _ _) ?_ | with_reducible intro _ | split)
@[simp] theorem State.dropWatch_streams (s : State) (team : Nat) : (State.dropWatch s team).streams = s.streams := by
  unfold State.dropWatch
  rfl
@[simp] theorem State.classified_streams (s : State) (t : Nat) : (State.classified s t).streams = s.streams := by
  unfold State.classified
  repeat' (first | with_reducible rfl | with_reducible refine (State.unrefTile_streams ..).trans ?_ | with_reducible refine (State.setTile_streams ..).trans ?_ | split | extract_lets)
@[simp] theorem State.classifiedAll_streams (s : State) (es : List BinEntry) : (State.classifiedAll s es).streams = s.streams := by
  unfold State.classifiedAll
  repeat' (first | with_reducible rfl | with_reducible refine (State.classified_streams ..).trans ?_ | with_reducible refine Eq.trans (foldl_same State.streams ?_ _ _) ?_ | with_reducible intro _)
@[simp] theorem State.binPut_streams (die m : Nat) (s : State) (e : BinEntry) : (State.binPut die m s e).streams = s.streams := by
  unfold State.binPut
  repeat' (first | with_reducible rfl | with_reducible refine (State.setDie_streams ..).trans ?_ | with_reducible refine (State.storeWrite_streams ..).trans ?_ | split | extract_lets)
@[simp] theorem State.upsetChip_streams (s : State) (word : Nat) : (State.upsetChip s word).streams = s.streams := by
  unfold State.upsetChip
  repeat' (first | with_reducible rfl | with_reducible refine (State.upsetStore_streams ..).trans ?_ | with_reducible refine (State.setDie_streams ..).trans ?_)
@[simp] theorem State.binAppend_streams (s : State) (die m : Nat) (es : List BinEntry) : (State.binAppend s die m es).streams = s.streams := by
  unfold State.binAppend
  repeat' (first | with_reducible rfl | with_reducible refine (State.count_streams ..).trans ?_ | with_reducible refine (State.binPut_streams ..).trans ?_ | with_reducible refine Eq.trans (foldl_same State.streams ?_ _ _) ?_ | with_reducible intro _ | split)
@[simp] theorem State.placeHits_streams (die : Nat) (s : State) (l : List (Nat × BinEntry)) : ((State.placeHits die s l).1).streams = s.streams := by
  induction l generalizing s with
  | nil => rfl
  | cons a l ih =>
    unfold State.placeHits
    repeat' (first | with_reducible rfl | with_reducible refine (ih ..).trans ?_ | with_reducible refine (State.count_streams ..).trans ?_ | with_reducible refine (State.binAppend_streams ..).trans ?_ | split)
@[simp] theorem State.discardBins_streams (s : State) (m : Nat) : (State.discardBins s m).streams = s.streams := by
  unfold State.discardBins
  repeat' (first | with_reducible rfl | with_reducible refine (State.count_streams ..).trans ?_ | with_reducible refine (State.setDie_streams ..).trans ?_ | with_reducible refine (State.classifiedAll_streams ..).trans ?_ | with_reducible refine Eq.trans (foldl_same State.streams ?_ _ _) ?_ | with_reducible intro _ | split | extract_lets)
@[simp] theorem State.trackMiss_streams (s : State) (cl core line : Nat) : (State.trackMiss s cl core line).streams = s.streams := by
  unfold State.trackMiss
  repeat' (first | with_reducible rfl | with_reducible refine (State.setCluster_streams ..).trans ?_ | with_reducible refine (State.takePrefetch_streams ..).trans ?_ | with_reducible refine Eq.trans (foldl_same State.streams ?_ _ _) ?_ | with_reducible intro _ | split | extract_lets)
@[simp] theorem State.deliverLine_streams (s : State) (core pa n : Nat) (col uo bad : Bool) : (State.deliverLine s core pa n col uo bad).1.streams = s.streams := by
  unfold State.deliverLine
  repeat' (first | with_reducible rfl | with_reducible refine (State.colFill_streams ..).trans ?_ | split)
@[simp] theorem State.readAtOnce_streams (s : State) (core pa n : Nat) (who : Option (Nat × Nat)) (col uo plain : Bool) :
    (State.readAtOnce s core pa n who col uo plain).1.streams = s.streams := by
  unfold State.readAtOnce
  cases who <;> dsimp only <;> split <;>
    simp only [State.deliverLine_streams, State.endMiss_streams, State.serveLine_streams, State.passMiss_streams, State.clusterLookup_streams]
@[simp] theorem State.readThrough_streams (s : State) (core pa n : Nat) (who : Option (Nat × Nat)) : (State.readThrough s core pa n who).1.streams = s.streams := by
  unfold State.readThrough
  repeat' (first | with_reducible rfl | with_reducible refine (State.readAtOnce_streams ..).trans ?_ | with_reducible refine (State.colEvict_streams ..).trans ?_)
@[simp] theorem State.readColumn_streams (s : State) (core team pa n : Nat) (who : Option (Nat × Nat)) (uo : Bool) : (State.readColumn s core team pa n who uo).1.streams = s.streams := by
  unfold State.readColumn
  repeat' (first | with_reducible rfl | with_reducible refine (State.pmcCount_streams ..).trans ?_ | with_reducible refine (State.trackMiss_streams ..).trans ?_ | with_reducible refine (State.readAtOnce_streams ..).trans ?_ | split)
@[simp] theorem State.countColumn_streams (s : State) (core team : Nat) (x : Access) (who : Nat × Nat) (ev : Nat) : (State.countColumn s core team x who ev).streams = s.streams := by
  unfold State.countColumn
  repeat' (first | with_reducible rfl | with_reducible refine (State.pmcCount_streams ..).trans ?_ | split)
@[simp] theorem State.tagWave_streams (s : State) (c k line : Nat) : (State.tagWave s c k line).streams = s.streams := by
  unfold State.tagWave
  repeat' (first | with_reducible rfl | with_reducible refine (State.updWave_streams ..).trans ?_)
@[simp] theorem State.meetCluster_streams (s : State) (core : Nat) (who : Nat) (q : Req) (x : Access) : (State.meetCluster s core who q x).streams = s.streams := by
  unfold State.meetCluster
  repeat' (first | with_reducible rfl | with_reducible refine (State.clusterLookup_streams ..).trans ?_ | with_reducible refine (State.trackMiss_streams ..).trans ?_ | split | extract_lets)
@[simp] theorem State.throughEntry_streams (s : State) (core : Nat) (who : Nat) (q : Req) (x : Access) : (State.throughEntry s core who q x).streams = s.streams := by
  unfold State.throughEntry
  repeat' (first | with_reducible rfl | with_reducible refine (State.takeMiss_streams ..).trans ?_ | with_reducible refine (State.endMiss_streams ..).trans ?_ | split | extract_lets)
@[simp] theorem State.awaitEntry_streams (s : State) (core : Nat) (who : Nat) (q : Req) (x : Access) : (State.awaitEntry s core who q x).streams = s.streams := by
  unfold State.awaitEntry
  repeat' (first | with_reducible rfl | with_reducible refine (State.takeMiss_streams ..).trans ?_ | with_reducible refine (State.meetCluster_streams ..).trans ?_ | split | extract_lets)
@[simp] theorem State.writeHome_streams (s : State) (core who : Nat) (q : Req) (x : Access) (n d : Nat) : (State.writeHome s core who q x n d).streams = s.streams := by
  unfold State.writeHome
  repeat' (first | with_reducible rfl | with_reducible refine (State.meetCluster_streams ..).trans ?_ | with_reducible refine (State.throughEntry_streams ..).trans ?_ | with_reducible refine (State.grantOwned_streams ..).trans ?_ | with_reducible refine (State.homeWriteBytes_streams ..).trans ?_ | split)
@[simp] theorem State.localPerform_streams (s : State) (c k : Nat) (a : Access) : (State.localPerform s c k a).1.streams = s.streams := by
  unfold State.localPerform
  repeat' (first | with_reducible rfl | with_reducible refine (State.setWave_streams ..).trans ?_ | with_reducible refine (State.count_streams ..).trans ?_ | with_reducible refine (State.storeWrite_streams ..).trans ?_ | split | extract_lets)
@[simp] theorem State.performLocal_streams (s : State) (c k : Nat) (q : Req) : (State.performLocal s c k q).streams = s.streams := by
  unfold State.performLocal
  repeat' (first | with_reducible rfl | with_reducible refine (State.localPerform_streams ..).trans ?_ | with_reducible refine (State.updWave_streams ..).trans ?_ | with_reducible refine Eq.trans (foldl_same State.streams ?_ _ _) ?_ | with_reducible intro _ | split)
@[simp] theorem State.deliverTuple_streams (s : State) (c k : Nat) (q : Req) (t : TReq) : (State.deliverTuple s c k q t).streams = s.streams := by
  unfold State.deliverTuple
  repeat' (first | with_reducible rfl | with_reducible refine (State.spadWrite_streams ..).trans ?_ | with_reducible refine (State.sawBad_streams ..).trans ?_ | with_reducible refine (State.deferTo_streams ..).trans ?_ | with_reducible refine (State.updWave_streams ..).trans ?_ | with_reducible refine (State.columnAcquire_streams ..).trans ?_ | split | extract_lets | dsimp +zetaDelta only)
@[simp] theorem State.writeRet_streams (s : State) (c k : Nat) (q : Req) : (State.writeRet s c k q).streams = s.streams := by
  unfold State.writeRet
  repeat' (first | with_reducible rfl | with_reducible refine (State.unrefTile_streams ..).trans ?_ | with_reducible refine (State.updTeam_streams ..).trans ?_ | with_reducible refine (State.deliverTuple_streams ..).trans ?_ | with_reducible refine (State.updWave_streams ..).trans ?_ | with_reducible refine Eq.trans (foldl_same State.streams ?_ _ _) ?_ | with_reducible intro _ | split)
@[simp] theorem State.deliverBad_streams (s : State) (c k : Nat) (q : Req) : (State.deliverBad s c k q).streams = s.streams := by
  unfold State.deliverBad
  repeat' (first | with_reducible rfl | with_reducible refine (State.sawBad_streams ..).trans ?_ | split)
@[simp] theorem State.feedBins_streams (s : State) (c k : Nat) (q : Req) : (State.feedBins s c k q).streams = s.streams := by
  unfold State.feedBins
  repeat' (first | with_reducible rfl | with_reducible refine (State.updWave_streams ..).trans ?_ | with_reducible refine (State.placeHits_streams ..).trans ?_ | split)
@[simp] theorem State.keepFetched_streams (s : State) (core : Nat) (va : W64) : (State.keepFetched s core va).streams = s.streams := by
  unfold State.keepFetched
  repeat' (first | with_reducible rfl | with_reducible refine (State.setCore_streams ..).trans ?_ | with_reducible refine (State.readAtOnce_streams ..).trans ?_ | with_reducible refine (State.countErr_streams ..).trans ?_ | with_reducible refine (State.touchTlb_streams ..).trans ?_ | split | extract_lets)
@[simp] theorem State.keepWords_streams (s : State) (core : Nat) (va : W64) (n : Nat) : (State.keepWords s core va n).streams = s.streams := by
  induction n generalizing s va with
  | zero => rfl
  | succ n ih =>
    unfold State.keepWords
    repeat' (first | with_reducible rfl | with_reducible refine (ih ..).trans ?_ | with_reducible refine (State.keepFetched_streams ..).trans ?_ | split)
@[simp] theorem State.keepClause_streams (s : State) (core : Nat) (h : W64) : (State.keepClause s core h).streams = s.streams := by
  unfold State.keepClause
  repeat' (first | with_reducible rfl | with_reducible refine (State.keepWords_streams ..).trans ?_)
@[simp] theorem State.promote_streams (s : State) (c k : Nat) : (State.promote s c k).streams = s.streams := by
  unfold State.promote
  repeat' (first | with_reducible rfl | with_reducible refine (State.setWave_streams ..).trans ?_ | with_reducible refine (State.pmcCount_streams ..).trans ?_ | split)
@[simp] theorem State.dropWaits_streams (s : State) (a : Agent) (team : Nat) : (State.dropWaits s a team).streams = s.streams := by
  unfold State.dropWaits
  repeat' (first | with_reducible rfl | with_reducible refine (State.updTeam_streams ..).trans ?_)
@[simp] theorem State.cancelPark_streams (s : State) (w : Wave) : (State.cancelPark s w).streams = s.streams := by
  unfold State.cancelPark
  repeat' (first | with_reducible rfl | split)
@[simp] theorem State.elemWrite_streams (s : State) (t : Team) (c : Chan) (i : W32) (off : Nat) (bs : List Byte) : (State.elemWrite s t c i off bs).streams = s.streams := by
  unfold State.elemWrite
  repeat' (first | with_reducible rfl | with_reducible refine (State.storeWrite_streams ..).trans ?_ | split)
@[simp] theorem State.evictForRows_streams (s : State) (core : Nat) : (State.evictForRows s core).streams = s.streams := by
  unfold State.evictForRows
  repeat' (first | with_reducible rfl | with_reducible refine (State.colEvictOne_streams ..).trans ?_ | with_reducible refine (State.colEvict_streams ..).trans ?_ | with_reducible refine Eq.trans (foldl_same State.streams ?_ _ _) ?_ | with_reducible intro _ | split)
@[simp] theorem State.chresStep_streams (s : State) (f : FmtE) (c k : Nat) (w : Wave) : (State.chresStep s f c k w).streams = s.streams := by
  unfold State.chresStep
  repeat' (first | with_reducible rfl | with_reducible refine (State.trapAt_streams ..).trans ?_ | with_reducible refine (State.setWave_streams ..).trans ?_ | with_reducible refine (State.updChan_streams ..).trans ?_ | split | extract_lets)
@[simp] theorem State.chacqStep_streams (s : State) (f : FmtE) (c k : Nat) (w : Wave) : (State.chacqStep s f c k w).streams = s.streams := by
  unfold State.chacqStep
  repeat' (first | with_reducible rfl | with_reducible refine (State.trapAt_streams ..).trans ?_ | with_reducible refine (State.setWave_streams ..).trans ?_ | with_reducible refine (State.updChan_streams ..).trans ?_ | with_reducible refine (State.columnAcquire_streams ..).trans ?_ | split | extract_lets)
@[simp] theorem State.sqpushStep_streams (s : State) (f : FmtQ) (c k : Nat) (w : Wave) : (State.sqpushStep s f c k w).streams = s.streams := by
  unfold State.sqpushStep
  repeat' (first | with_reducible rfl | with_reducible refine (State.trapAt_streams ..).trans ?_ | with_reducible refine (State.setWave_streams ..).trans ?_ | with_reducible refine (State.setTeam_streams ..).trans ?_ | split | extract_lets)
@[simp] theorem State.sqpopStep_streams (s : State) (f : FmtQ) (c k : Nat) (w : Wave) : (State.sqpopStep s f c k w).streams = s.streams := by
  unfold State.sqpopStep
  repeat' (first | with_reducible rfl | with_reducible refine (State.trapAt_streams ..).trans ?_ | with_reducible refine (State.setWave_streams ..).trans ?_ | with_reducible refine (State.setTeam_streams ..).trans ?_ | split | extract_lets)
@[simp] theorem State.tupleTrap_streams (s : State) (c k : Nat) (w : Wave) (f : FmtT) (op : TOp) (t : Trap) : (State.tupleTrap s c k w f op t).streams = s.streams := by
  unfold State.tupleTrap
  repeat' (first | with_reducible rfl | with_reducible refine (State.trapAt_streams ..).trans ?_ | with_reducible refine (State.touchTlb_streams ..).trans ?_ | split)
@[simp] theorem State.sendTuple_streams (s : State) (t : TReq) : (State.sendTuple s t).streams = s.streams := by
  unfold State.sendTuple
  rfl
@[simp] theorem State.tupleL_streams (s : State) (c k : Nat) (w : Wave) (f : FmtT) (op : TOp) : (State.tupleL s c k w f op).streams = s.streams := by
  unfold State.tupleL
  repeat' (first | with_reducible rfl | with_reducible refine (State.issueReq_streams ..).trans ?_ | with_reducible refine (State.sendTuple_streams ..).trans ?_ | with_reducible refine (State.tupleTrap_streams ..).trans ?_ | with_reducible refine (State.setWave_streams ..).trans ?_ | with_reducible refine (State.idemLost_streams ..).trans ?_ | with_reducible refine (State.touchTlb_streams ..).trans ?_ | split)
@[simp] theorem State.dropBadTags_streams (s : State) (h bag : Nat) : (State.dropBadTags s h bag).streams = s.streams := by
  unfold State.dropBadTags
  repeat' (first | with_reducible rfl | with_reducible refine (State.count_streams ..).trans ?_ | with_reducible refine (State.setSlice_streams ..).trans ?_ | split | extract_lets)
@[simp] theorem State.endTreq_streams (s : State) (r : Nat) (t : TReq) (status : Nat) (g : TReq → TReq) : (State.endTreq s r t status g).streams = s.streams := by
  unfold State.endTreq
  repeat' (first | with_reducible rfl | with_reducible refine (State.updTreq_streams ..).trans ?_ | with_reducible refine (State.updWave_streams ..).trans ?_ | split)
@[simp] theorem State.serveTuple_streams (s : State) (r : Nat) (t : TReq) (words : List W64) (bad : Bool) : (State.serveTuple s r t words bad).streams = s.streams := by
  unfold State.serveTuple
  repeat' (first | with_reducible rfl | with_reducible refine (State.endTreq_streams ..).trans ?_ | with_reducible refine (State.count_streams ..).trans ?_ | with_reducible refine (State.pmcCount_streams ..).trans ?_)
@[simp] theorem State.endDeposit_streams (s : State) (r : Nat) (t : TReq) (status fault : Nat) : (State.endDeposit s r t status fault).streams = s.streams := by
  unfold State.endDeposit
  repeat' (first | with_reducible rfl | with_reducible refine (State.endTreq_streams ..).trans ?_ | with_reducible refine (State.deferTo_streams ..).trans ?_ | with_reducible refine (State.pmcCount_streams ..).trans ?_ | split)
@[simp] theorem State.parkTuple_streams (s : State) (r : Nat) (t : TReq) : (State.parkTuple s r t).streams = s.streams := by
  unfold State.parkTuple
  repeat' (first | with_reducible rfl | with_reducible refine (State.updTreq_streams ..).trans ?_ | with_reducible refine (State.count_streams ..).trans ?_ | with_reducible refine (State.pmcCount_streams ..).trans ?_ | with_reducible refine (State.setSlice_streams ..).trans ?_ | split | extract_lets)
@[simp] theorem State.tileWrite_streams (s : State) (core slot accf : Nat) (es : List (Nat × Nat × Nat)) : (State.tileWrite s core slot accf es).streams = s.streams := by
  unfold State.tileWrite
  repeat' (first | with_reducible rfl | with_reducible refine (State.freshCode_streams ..).trans ?_ | split)
@[simp] theorem State.issueCmd_streams (s : State) (c k : Nat) (w : Wave) (cmd : Cmd) (chans : List Nat) (act lost : Bool) (sem : Nat) : (State.issueCmd s c k w cmd chans act lost sem).streams = s.streams := by
  unfold State.issueCmd
  repeat' (first | with_reducible rfl | with_reducible refine (State.issueReq_streams ..).trans ?_ | with_reducible refine (State.setWave_streams ..).trans ?_ | with_reducible refine (State.updChan_streams ..).trans ?_ | with_reducible refine (State.idemLost_streams ..).trans ?_ | with_reducible refine Eq.trans (foldl_same State.streams ?_ _ _) ?_ | with_reducible intro _ | split)
@[simp] theorem State.engPages_streams (s : State) (cl : Nat) (i : Intent) (ranges : List (W64 × Nat)) : (State.engPages s cl i ranges).1.streams = s.streams := by
  unfold State.engPages
  repeat' (first | with_reducible rfl | with_reducible refine (State.touchTlb_streams ..).trans ?_ | with_reducible refine Eq.trans (foldl_same_fst State.streams ?_ _ _) ?_ | with_reducible intro _ | split | extract_lets)
@[simp] theorem State.engWrite_streams (s : State) (core : Nat) (ps : List EngPage) (va : W64) (bs : List Byte) : (State.engWrite s core ps va bs).streams = s.streams := by
  unfold State.engWrite
  repeat' (first | with_reducible rfl | with_reducible refine (State.homeWriteBytes_streams ..).trans ?_ | with_reducible refine (State.colEvict_streams ..).trans ?_ | with_reducible refine Eq.trans (foldl_same_fst State.streams ?_ _ _) ?_ | with_reducible intro _)
@[simp] theorem State.fireCmd_streams (s : State) (id : Nat) (c : Cmd) (reads writes : List (W64 × Nat)) : (State.fireCmd s id c reads writes).streams = s.streams := by
  unfold State.fireCmd
  repeat' (first | with_reducible rfl | with_reducible refine (State.engPages_streams ..).trans ?_)
@[simp] theorem State.takeOutputs_streams (s : State) (team ch id n : Nat) : (State.takeOutputs s team ch id n).streams = s.streams := by
  unfold State.takeOutputs
  repeat' (first | with_reducible rfl | with_reducible refine (State.updChan_streams ..).trans ?_)
@[simp] theorem State.cmdRelease_streams (s : State) (id : Nat) (c : Cmd) : (State.cmdRelease s id c).streams = s.streams := by
  unfold State.cmdRelease
  repeat' (first | with_reducible rfl | with_reducible refine (State.releaseFor_streams ..).trans ?_ | split)
@[simp] theorem State.freeInputs_streams (s : State) (team ch id n : Nat) (keep : Bool) : (State.freeInputs s team ch id n keep).streams = s.streams := by
  unfold State.freeInputs
  repeat' (first | with_reducible rfl | with_reducible refine (State.updChan_streams ..).trans ?_)
@[simp] theorem State.putOutputs_streams (s : State) (c : Cmd) (elems : List (List Byte)) : (State.putOutputs s c elems).streams = s.streams := by
  unfold State.putOutputs
  repeat' (first | with_reducible rfl | with_reducible refine (State.elemWrite_streams ..).trans ?_ | with_reducible refine (State.updChan_streams ..).trans ?_ | with_reducible refine Eq.trans (foldl_same State.streams ?_ _ _) ?_ | with_reducible intro _ | split)
@[simp] theorem State.takeInputs_streams (s : State) (c : Cmd) (chn : Nat) : (State.takeInputs s c chn).1.streams = s.streams := by
  unfold State.takeInputs
  repeat' (first | with_reducible rfl | with_reducible refine (State.countErr_streams ..).trans ?_ | split | extract_lets)
@[simp] theorem State.cpyoutWork_streams (s : State) (c : Cmd) (d : CopyDesc) : (State.cpyoutWork s c d).1.streams = s.streams := by
  unfold State.cpyoutWork
  repeat' (first | with_reducible rfl | with_reducible refine (State.takeInputs_streams ..).trans ?_ | with_reducible refine (State.engWrite_streams ..).trans ?_ | with_reducible refine Eq.trans (foldl_same State.streams ?_ _ _) ?_ | with_reducible intro _ | split | extract_lets)
@[simp] theorem State.takeTag_streams (s : State) (id : Nat) (c : Cmd) : (State.takeTag s id c).streams = s.streams := by
  unfold State.takeTag
  repeat' (first | with_reducible rfl | with_reducible refine (State.pmcCount_streams ..).trans ?_ | split)
@[simp] theorem State.homeRead_streams (s : State) (pa : Nat) : (State.homeRead s pa).streams = s.streams := by
  unfold State.homeRead
  repeat' (first | with_reducible rfl | with_reducible refine (State.homeTouch_streams ..).trans ?_ | split)
@[simp] theorem State.ctlRead_streams (s : State) (q : Nat) : (State.ctlRead s q).streams = s.streams := by
  unfold State.ctlRead
  repeat' (first | with_reducible rfl | with_reducible refine (State.homeRead_streams ..).trans ?_)
@[simp] theorem State.devWrite_streams (s : State) (pa : Nat) (bs : List Byte) : (State.devWrite s pa bs).streams = s.streams := by
  unfold State.devWrite
  repeat' (first | with_reducible rfl | with_reducible refine (State.homeWriteBytes_streams ..).trans ?_ | split)
@[simp] theorem State.ctlWrite_streams (s : State) (q off x : Nat) : (State.ctlWrite s q off x).streams = s.streams := by
  unfold State.ctlWrite
  repeat' (first | with_reducible rfl | with_reducible refine (State.devWrite_streams ..).trans ?_ | with_reducible refine (State.setLq_streams ..).trans ?_)
@[simp] theorem State.knowSeqno_streams (s : State) (id : Nat) (c : Cmd) (n : Nat) : (State.knowSeqno s id c n).streams = s.streams := by
  unfold State.knowSeqno
  repeat' (first | with_reducible rfl | with_reducible refine (State.updWave_streams ..).trans ?_ | split)
@[simp] theorem State.addRow_streams (s : State) (core : Nat) (x : Chain) (row : Nat) (data : List W32) : (State.addRow s core x row data).streams = s.streams := by
  unfold State.addRow
  repeat' (first | with_reducible rfl | with_reducible refine (State.tileWrite_streams ..).trans ?_)
@[simp] theorem State.loadRow_streams (s : State) (core : Nat) (t : Team) (c : Chan) (first n : Nat) : (State.loadRow s core t c first n).streams = s.streams := by
  unfold State.loadRow
  repeat' (first | with_reducible rfl | with_reducible refine (State.setCore_streams ..).trans ?_)
@[simp] theorem State.touchAccs_streams (s : State) (core : Nat) (as : List Access) : (State.touchAccs s core as).streams = s.streams := by
  unfold State.touchAccs
  repeat' (first | with_reducible rfl | with_reducible refine (State.touchTlb_streams ..).trans ?_ | with_reducible refine Eq.trans (foldl_same State.streams ?_ _ _) ?_ | with_reducible intro _)
@[simp] theorem State.unitRead_streams (s : State) (unit core team : Nat) (a : Access) : (State.unitRead s unit core team a).1.streams = s.streams := by
  unfold State.unitRead
  repeat' (first | with_reducible rfl | with_reducible refine (State.readThrough_streams ..).trans ?_ | with_reducible refine (State.readColumn_streams ..).trans ?_ | split)
@[simp] theorem State.streamRead_streams (s : State) (core team : Nat) (a : Access) : (State.streamRead s core team a).1.streams = s.streams := by
  unfold State.streamRead
  repeat' (first | with_reducible rfl | with_reducible refine (State.unitRead_streams ..).trans ?_)
@[simp] theorem State.streamWrite_streams (s : State) (core : Nat) (a : Access) (bs : List Byte) : (State.streamWrite s core a bs).streams = s.streams := by
  unfold State.streamWrite
  repeat' (first | with_reducible rfl | with_reducible refine (State.colStore_streams ..).trans ?_ | with_reducible refine (State.colEvict_streams ..).trans ?_ | with_reducible refine (State.homeWriteBytes_streams ..).trans ?_ | split)
@[simp] theorem State.clearEcpls_streams (s : State) (as : List (Agent × Ecpl)) : (State.clearEcpls s as).streams = s.streams := by
  unfold State.clearEcpls
  repeat' (first | with_reducible rfl | with_reducible refine (State.updWave_streams ..).trans ?_ | with_reducible refine Eq.trans (foldl_same State.streams ?_ _ _) ?_ | with_reducible intro _ | split)
@[simp] theorem State.gBad_streams (s : State) (c k : Nat) (bads : List (Nat × W64)) (die idx : Nat) : (State.gBad s c k bads die idx).streams = s.streams := by
  unfold State.gBad
  repeat' (first | with_reducible rfl | with_reducible refine (State.count_streams ..).trans ?_ | with_reducible refine (State.updWave_streams ..).trans ?_ | split)
@[simp] theorem State.touchFails_streams (s : State) (core : Nat) (fails : List (Nat × W64 × XErr)) : (State.touchFails s core fails).streams = s.streams := by
  unfold State.touchFails
  repeat' (first | with_reducible rfl | with_reducible refine (State.touchFault_streams ..).trans ?_ | with_reducible refine Eq.trans (foldl_same State.streams ?_ _ _) ?_ | with_reducible intro _)
@[simp] theorem State.countTests_streams (s : State) (c team ev n : Nat) : (State.countTests s c team ev n).streams = s.streams := by
  unfold State.countTests
  repeat' (first | with_reducible rfl | with_reducible refine (State.pmcCount_streams ..).trans ?_ | split)
@[simp] theorem State.freshPix_streams (s : State) (slot p : Nat) (x : Pix) : (State.freshPix s slot p x).streams = s.streams := by
  unfold State.freshPix
  repeat' (first | with_reducible rfl | with_reducible refine (State.setTile_streams ..).trans ?_ | with_reducible refine (State.count_streams ..).trans ?_ | split)
@[simp] theorem State.rasterTile_streams (s : State) (slot : Nat) (id : W64) (v0 v1 v2 : Vert) : (State.rasterTile s slot id v0 v1 v2).streams = s.streams := by
  unfold State.rasterTile
  repeat' (first | with_reducible rfl | with_reducible refine (State.freshPix_streams ..).trans ?_ | with_reducible refine (State.count_streams ..).trans ?_ | with_reducible refine Eq.trans (foldl_same State.streams ?_ _ _) ?_ | with_reducible intro _ | split | extract_lets)
@[simp] theorem State.appendGroups_streams (die slot n : Nat) (s : State) : (State.appendGroups die slot n s).streams = s.streams := by
  induction n generalizing s with
  | zero => rfl
  | succ n ih =>
    unfold State.appendGroups
    repeat' (first | with_reducible rfl | with_reducible refine (ih ..).trans ?_ | with_reducible refine (State.binAppend_streams ..).trans ?_ | with_reducible refine (State.setTile_streams ..).trans ?_ | with_reducible refine (State.count_streams ..).trans ?_ | with_reducible refine (State.classified_streams ..).trans ?_ | split | extract_lets)
@[simp] theorem State.closeBinWave_streams (s : State) (die m : Nat) (l : Nat) (x : Launch) (f : Forming) : (State.closeBinWave s die m l x f).streams = s.streams := by
  unfold State.closeBinWave
  repeat' (first | with_reducible rfl | with_reducible refine (State.setTile_streams ..).trans ?_ | with_reducible refine (State.setDie_streams ..).trans ?_ | with_reducible refine (State.count_streams ..).trans ?_ | with_reducible refine (State.setLaunch_streams ..).trans ?_ | with_reducible refine (State.classifiedAll_streams ..).trans ?_ | with_reducible refine Eq.trans (foldl_same State.streams ?_ _ _) ?_ | with_reducible intro _ | split)
@[simp] theorem State.answerFlit_streams (s : State) (n : Nat) (fl : Flit) (ans : Nat) : (State.answerFlit s n fl ans).streams = s.streams := by
  unfold State.answerFlit
  rfl
@[simp] theorem State.lostRow_streams (s : State) (core chain team : Nat) : (State.lostRow s core chain team).streams = s.streams := by
  unfold State.lostRow
  repeat' (first | with_reducible rfl | with_reducible refine (State.countErr_streams ..).trans ?_ | with_reducible refine (State.errSeenCore_streams ..).trans ?_ | with_reducible refine (State.setChain_streams ..).trans ?_ | split | extract_lets)
@[simp] theorem State.dropFlit_streams (s : State) (fl : Flit) : (State.dropFlit s fl).streams = s.streams := by
  unfold State.dropFlit
  repeat' (first | with_reducible rfl | with_reducible refine (State.lostRow_streams ..).trans ?_)
@[simp] theorem State.statusWrite_streams (s : State) (pa v : Nat) : (State.statusWrite s pa v).streams = s.streams := by
  unfold State.statusWrite
  repeat' (first | with_reducible rfl | with_reducible refine (State.devWrite_streams ..).trans ?_)
@[simp] theorem State.advanceHead_streams (n : Nat) (s : State) (q : Nat) : (State.advanceHead n s q).streams = s.streams := by
  induction n generalizing s with
  | zero => rfl
  | succ n ih =>
    unfold State.advanceHead
    repeat' (first | with_reducible rfl | with_reducible refine (ih ..).trans ?_ | with_reducible refine (State.setLq_streams ..).trans ?_ | with_reducible refine (State.homeRead_streams ..).trans ?_ | with_reducible refine (State.ctlWrite_streams ..).trans ?_ | split | extract_lets | dsimp +zetaDelta only)
@[simp] theorem State.headOf_streams (s : State) (q : Nat) : (State.headOf s q).streams = s.streams := by
  unfold State.headOf
  repeat' (first | with_reducible rfl | with_reducible refine (State.advanceHead_streams ..).trans ?_)
@[simp] theorem State.updPrio_streams (s : State) : (State.updPrio s).streams = s.streams := by
  unfold State.updPrio
  rfl
@[simp] theorem State.makeEntry_streams (s : State) (b : List Byte) (pa : Nat) (q : Option Nat) (seq : Nat) (m : Option Nat) (st : LState) (child : Bool) : (State.makeEntry s b pa q seq m st child).streams = s.streams := by
  unfold State.makeEntry
  repeat' (first | with_reducible rfl | with_reducible refine (State.updPrio_streams ..).trans ?_)
@[simp] theorem State.noteRefused_streams (s : State) (b : List Byte) (reason : Nat) : (State.noteRefused s b reason).streams = s.streams := by
  unfold State.noteRefused
  repeat' (first | with_reducible rfl | split | extract_lets)
@[simp] theorem State.endStanding_streams (s : State) (m : Nat) : (State.endStanding s m).streams = s.streams := by
  unfold State.endStanding
  repeat' (first | with_reducible rfl | with_reducible refine (State.discardBins_streams ..).trans ?_ | with_reducible refine (State.setLaunch_streams ..).trans ?_ | split | extract_lets)
@[simp] theorem State.reapWaves_streams (s : State) : (State.reapWaves s).streams = s.streams := by
  unfold State.reapWaves
  rfl
@[simp] theorem State.leaveGroup_streams (s : State) (g id : Nat) : (State.leaveGroup s g id).streams = s.streams := by
  unfold State.leaveGroup
  repeat' (first | with_reducible rfl | split)
@[simp] theorem State.compact_streams (s : State) (core : Nat) : (State.compact s core).streams = s.streams := by
  unfold State.compact
  rfl
@[simp] theorem State.allotAt_streams (s : State) (core base n : Nat) : (State.allotAt s core base n).1.streams = s.streams := by
  unfold State.allotAt
  repeat' (first | with_reducible rfl | with_reducible refine (State.compact_streams ..).trans ?_ | split | extract_lets)
@[simp] theorem State.firstPlaced_streams (s : State) (l : Launch) : (State.firstPlaced s l).streams = s.streams := by
  unfold State.firstPlaced
  repeat' (first | with_reducible rfl | with_reducible refine (State.statusWrite_streams ..).trans ?_ | split)
@[simp] theorem State.beginVacate_streams (s : State) (asked : List Nat) (why : Nat) : (State.beginVacate s asked why).streams = s.streams := by
  unfold State.beginVacate
  repeat' (first | with_reducible rfl | with_reducible refine (State.setCore_streams ..).trans ?_ | with_reducible refine Eq.trans (foldl_same State.streams ?_ _ _) ?_ | with_reducible intro _)
@[simp] theorem State.vacateCommand_streams (s : State) : (State.vacateCommand s).streams = s.streams := by
  unfold State.vacateCommand
  repeat' (first | with_reducible rfl | with_reducible refine (State.beginVacate_streams ..).trans ?_)
@[simp] theorem State.saveErrors_streams (s : State) (id : Nat) (t : Team) : (State.saveErrors s id t).streams = s.streams := by
  unfold State.saveErrors
  repeat' (first | with_reducible rfl | with_reducible refine (State.count_streams ..).trans ?_ | split | extract_lets)
@[simp] theorem State.settleCmds_streams (s : State) (id : Nat) : (State.settleCmds s id).streams = s.streams := by
  unfold State.settleCmds
  repeat' (first | with_reducible rfl | with_reducible refine (State.writeRet_streams ..).trans ?_ | with_reducible refine (State.updWave_streams ..).trans ?_ | with_reducible refine Eq.trans (foldl_same State.streams ?_ _ _) ?_ | with_reducible intro _ | split)
@[simp] theorem State.expire_streams (s : State) : (State.expire s).streams = s.streams := by
  unfold State.expire
  repeat' (first | with_reducible rfl | with_reducible refine (State.beginVacate_streams ..).trans ?_ | split)
@[simp] theorem State.judgeCore_streams (s : State) (core : Nat) (whole : Bool) : (State.judgeCore s core whole).streams = s.streams := by
  unfold State.judgeCore
  repeat' (first | with_reducible rfl | with_reducible refine (State.setCore_streams ..).trans ?_)
@[simp] theorem State.powerHold_streams (s : State) (mean : Nat) : (State.powerHold s mean).streams = s.streams := by
  unfold State.powerHold
  repeat' (first | with_reducible rfl | with_reducible refine (State.setCore_streams ..).trans ?_ | split)
@[simp] theorem State.setPower_streams (s : State) (st : PowerStore) (p : PowerState) : (State.setPower s st p).streams = s.streams := by
  unfold State.setPower
  repeat' (first | with_reducible rfl | with_reducible refine (State.setDie_streams ..).trans ?_ | with_reducible refine (State.setCore_streams ..).trans ?_ | split)
@[simp] theorem State.setDbgHold_streams (s : State) (st : PowerStore) (x : Bool) : (State.setDbgHold s st x).streams = s.streams := by
  unfold State.setDbgHold
  repeat' (first | with_reducible rfl | with_reducible refine (State.setDie_streams ..).trans ?_ | with_reducible refine (State.setCore_streams ..).trans ?_ | split)
@[simp] theorem State.startTlbinv_streams (s : State) : (State.startTlbinv s).streams = s.streams := by
  unfold State.startTlbinv
  repeat' (first | with_reducible rfl | with_reducible refine (State.setWin_streams ..).trans ?_ | split)
@[simp] theorem State.startVacate_streams (s : State) : (State.startVacate s).streams = s.streams := by
  unfold State.startVacate
  repeat' (first | with_reducible rfl | with_reducible refine (State.setWin_streams ..).trans ?_ | with_reducible refine (State.vacateCommand_streams ..).trans ?_ | split | extract_lets)
@[simp] theorem State.agentStatus_streams (s : State) (n : Nat) : (State.agentStatus s n).streams = s.streams := by
  unfold State.agentStatus
  repeat' (first | with_reducible rfl | with_reducible refine (State.setWin_streams ..).trans ?_)
@[simp] theorem State.wakeColumn_streams (s : State) (core : Nat) : (State.wakeColumn s core).streams = s.streams := by
  unfold State.wakeColumn
  repeat' (first | with_reducible rfl | with_reducible refine (State.setCore_streams ..).trans ?_ | split)
@[simp] theorem State.writeCtxid_streams (s : State) (v : W64) : (State.writeCtxid s v).streams = s.streams := by
  unfold State.writeCtxid
  repeat' (first | with_reducible rfl | with_reducible refine (State.setWin_streams ..).trans ?_ | with_reducible refine (State.setCore_streams ..).trans ?_ | with_reducible refine Eq.trans (foldl_same State.streams ?_ _ _) ?_ | with_reducible intro _ | split)
@[simp] theorem State.writeTslice_streams (s : State) (v : W64) : (State.writeTslice s v).streams = s.streams := by
  unfold State.writeTslice
  repeat' (first | with_reducible rfl | with_reducible refine (State.expire_streams ..).trans ?_ | with_reducible refine (State.setWin_streams ..).trans ?_)
@[simp] theorem State.writeTrapq_streams (s : State) (reg : Nat) (v : W64) : (State.writeTrapq s reg v).streams = s.streams := by
  unfold State.writeTrapq
  repeat' (first | with_reducible rfl | with_reducible refine (State.setWin_streams ..).trans ?_ | with_reducible refine (State.drainReports_streams ..).trans ?_)
@[simp] theorem State.writeEnable_streams (s : State) (q : Nat) (v : W64) : (State.writeEnable s q v).streams = s.streams := by
  unfold State.writeEnable
  repeat' (first | with_reducible rfl | with_reducible refine (State.setLq_streams ..).trans ?_ | split | extract_lets)
@[simp] theorem State.writeQueue_streams (s : State) (q word : Nat) (v : W64) : (State.writeQueue s q word v).streams = s.streams := by
  unfold State.writeQueue
  repeat' (first | with_reducible rfl | with_reducible refine (State.setLq_streams ..).trans ?_ | with_reducible refine (State.writeEnable_streams ..).trans ?_ | split | extract_lets)
@[simp] theorem State.spoilPublish_streams (s : State) (b : Nat) : (State.spoilPublish s b).streams = s.streams := by
  unfold State.spoilPublish
  rfl
@[simp] theorem State.writeBuffer_streams (s : State) (b word : Nat) (v : W64) : (State.writeBuffer s b word v).streams = s.streams := by
  unfold State.writeBuffer
  repeat' (first | with_reducible rfl | with_reducible refine (State.spoilPublish_streams ..).trans ?_ | split | extract_lets | dsimp only | dsimp +zetaDelta only)
@[simp] theorem State.writeTvbase_streams (s : State) (hi : Bool) (v : W64) : (State.writeTvbase s hi v).streams = s.streams := by
  unfold State.writeTvbase
  repeat' (first | with_reducible rfl | with_reducible refine (State.setWin_streams ..).trans ?_)
@[simp] theorem State.writeInv_streams (s : State) (word : Nat) (v : W64) : (State.writeInv s word v).streams = s.streams := by
  unfold State.writeInv
  repeat' (first | with_reducible rfl | with_reducible refine (State.setWin_streams ..).trans ?_ | with_reducible refine (State.startTlbinv_streams ..).trans ?_ | split)
@[simp] theorem State.writeVac_streams (s : State) (word : Nat) (v : W64) : (State.writeVac s word v).streams = s.streams := by
  unfold State.writeVac
  repeat' (first | with_reducible rfl | with_reducible refine (State.setWin_streams ..).trans ?_ | with_reducible refine (State.startVacate_streams ..).trans ?_ | split)
@[simp] theorem State.judgeAll_streams (s : State) : (State.judgeAll s).streams = s.streams := by
  unfold State.judgeAll
  repeat' (first | with_reducible rfl | with_reducible refine (State.judgeCore_streams ..).trans ?_ | with_reducible refine Eq.trans (foldl_same State.streams ?_ _ _) ?_ | with_reducible intro _)
@[simp] theorem State.zeroCounter_streams (s : State) (key : Nat) : (State.zeroCounter s key).streams = s.streams := by
  unfold State.zeroCounter
  repeat' (first | with_reducible rfl | with_reducible refine (State.setCore_streams ..).trans ?_ | split | extract_lets)
@[simp] theorem State.mailWrite_streams (s : State) (word : Nat) (v : W64) : (State.mailWrite s word v).streams = s.streams := by
  unfold State.mailWrite
  repeat' (first | with_reducible rfl | with_reducible refine (State.setCore_streams ..).trans ?_ | with_reducible refine (State.zeroCounter_streams ..).trans ?_ | with_reducible refine (State.setWin_streams ..).trans ?_ | split | extract_lets)
@[simp] theorem State.reply_streams (s : State) (ws : List W64) : (State.reply s ws).streams = s.streams := by
  unfold State.reply
  repeat' (first | with_reducible rfl | with_reducible refine (State.setFred_streams ..).trans ?_ | with_reducible refine (State.vector_streams ..).trans ?_)
@[simp] theorem State.clearChips_streams (s : State) : (State.clearChips s).streams = s.streams := by
  unfold State.clearChips
  rfl
@[simp] theorem State.writeBackAll_streams (s : State) : (State.writeBackAll s).streams = s.streams := by
  unfold State.writeBackAll
  repeat' (first | with_reducible rfl | with_reducible refine (State.colSweep_streams ..).trans ?_ | with_reducible refine Eq.trans (foldl_same State.streams ?_ _ _) ?_ | with_reducible intro _)
@[simp] theorem State.forget_streams (s : State) (a n : Nat) : (State.forget s a n).streams = s.streams := by
  unfold State.forget
  repeat' (first | with_reducible rfl | with_reducible refine (State.dropCopy_streams ..).trans ?_ | with_reducible refine Eq.trans (foldl_same State.streams ?_ _ _) ?_ | with_reducible intro _)
@[simp] theorem State.recallAll_streams (s : State) : (State.recallAll s).streams = s.streams := by
  unfold State.recallAll
  repeat' (first | with_reducible rfl | with_reducible refine (State.recall_streams ..).trans ?_ | with_reducible refine Eq.trans (foldl_same State.streams ?_ _ _) ?_ | with_reducible intro _)
@[simp] theorem State.copyRange_streams (s : State) (src : Mem) (a n b : Nat) : (State.copyRange s src a n b).streams = s.streams := by
  unfold State.copyRange
  repeat' (first | with_reducible rfl | with_reducible refine (State.forget_streams ..).trans ?_)
@[simp] theorem State.upsetL2_streams (s : State) (line : Nat) : (State.upsetL2 s line).streams = s.streams := by
  unfold State.upsetL2
  repeat' (first | with_reducible rfl | with_reducible refine (State.countErr_streams ..).trans ?_ | with_reducible refine (State.setPoison_streams ..).trans ?_ | split)
@[simp] theorem State.upsetCopy_streams (s : State) (c line : Nat) : (State.upsetCopy s c line).streams = s.streams := by
  unfold State.upsetCopy
  repeat' (first | with_reducible rfl | with_reducible refine (State.countErr_streams ..).trans ?_ | with_reducible refine (State.dropCopy_streams ..).trans ?_ | with_reducible refine (State.setPoison_streams ..).trans ?_ | split)
@[simp] theorem State.upsetWord_streams (s : State) (st : Store) (word : Nat) : (State.upsetWord s st word).streams = s.streams := by
  unfold State.upsetWord
  repeat' (first | with_reducible rfl | with_reducible refine (State.upsetChip_streams ..).trans ?_ | with_reducible refine (State.upsetStore_streams ..).trans ?_ | split)
@[simp] theorem State.upsetTile_streams (s : State) (slot word : Nat) : (State.upsetTile s slot word).streams = s.streams := by
  unfold State.upsetTile
  repeat' (first | with_reducible rfl | with_reducible refine (State.setTile_streams ..).trans ?_ | with_reducible refine Eq.trans (foldl_same State.streams ?_ _ _) ?_ | with_reducible intro _ | split)
@[simp] theorem State.upsetHeld_streams (s : State) (core chain n : Nat) : (State.upsetHeld s core chain n).streams = s.streams := by
  unfold State.upsetHeld
  repeat' (first | with_reducible rfl | with_reducible refine (State.lostRow_streams ..).trans ?_ | with_reducible refine (State.setChain_streams ..).trans ?_ | split | extract_lets)
@[simp] theorem State.upsetTuple_streams (s : State) (h stamp field : Nat) : (State.upsetTuple s h stamp field).streams = s.streams := by
  unfold State.upsetTuple
  repeat' (first | with_reducible rfl | with_reducible refine (State.setSlice_streams ..).trans ?_)
@[simp] theorem State.seeBad_streams (s : State) (c k : Nat) (w : Wave) (word : W64) : (State.seeBad s c k w word).streams = s.streams := by
  unfold State.seeBad
  repeat' (first | with_reducible rfl | with_reducible refine (State.sawBad_streams ..).trans ?_ | split | extract_lets)


end Sys2Proof.Machine
end

