-- ==== Sys2Proof/Laws/FrameTeams.lean ====
section
/-! SUPPORT. Operations that leave the table of teams of the device as they were. -/

set_option Elab.async false

namespace Sys2Proof.Machine
@[simp] theorem State.countErr_teams (s : State) (die idx : Nat) : (State.countErr s die idx).teams = s.teams := by
  unfold State.countErr
  repeat' (first | with_reducible rfl | with_reducible refine (State.count_teams ..).trans ?_)
@[simp] theorem State.pmcCount_teams (s : State) (core ev n team : Nat) : (State.pmcCount s core ev n team).teams = s.teams := by
  unfold State.pmcCount
  repeat' (first | with_reducible rfl | with_reducible refine (State.setCore_teams ..).trans ?_ | split | extract_lets)
@[simp] theorem State.vector_teams (s : State) (n : Nat) : (State.vector s n).teams = s.teams := by
  unfold State.vector
  rfl
@[simp] theorem State.errorReport_teams (s : State) (code : Nat) : (State.errorReport s code).teams = s.teams := by
  unfold State.errorReport
  rfl
@[simp] theorem State.freshCode_teams (s : State) (st : Store) (rs : List (Nat × Nat)) : (State.freshCode s st rs).teams = s.teams := by
  unfold State.freshCode
  repeat' (first | with_reducible rfl | with_reducible refine (State.count_teams ..).trans ?_ | split | extract_lets | dsimp +zetaDelta only)
@[simp] theorem State.storeWrite_teams (s : State) (st : Store) (a : Nat) (bs : List Byte) : (State.storeWrite s st a bs).teams = s.teams := by
  unfold State.storeWrite
  repeat' (first | with_reducible rfl | with_reducible refine (State.freshCode_teams ..).trans ?_)
@[simp] theorem State.storeClear_teams (s : State) (st : Store) (a n : Nat) : (State.storeClear s st a n).teams = s.teams := by
  unfold State.storeClear
  repeat' (first | with_reducible rfl | with_reducible refine (State.freshCode_teams ..).trans ?_)
@[simp] theorem State.storeFill_teams (s : State) (st : Store) (a n : Nat) (m : Mem) : (State.storeFill s st a n m).teams = s.teams := by
  unfold State.storeFill
  repeat' (first | with_reducible rfl | with_reducible refine (State.storeClear_teams ..).trans ?_)
@[simp] theorem State.upsetStore_teams (s : State) (st : Store) (word : Nat) : (State.upsetStore s st word).teams = s.teams := by
  unfold State.upsetStore
  rfl
@[simp] theorem State.l2Evict_teams (s : State) (line : Nat) : (State.l2Evict s line).teams = s.teams := by
  unfold State.l2Evict
  repeat' (first | with_reducible rfl | split)
@[simp] theorem State.sliceEvict_teams (s : State) (h : Nat) : (State.sliceEvict s h).teams = s.teams := by
  unfold State.sliceEvict
  repeat' (first | with_reducible rfl | with_reducible refine (State.l2Evict_teams ..).trans ?_ | split | extract_lets)
@[simp] theorem State.sliceTrim_teams (s : State) (h spare : Nat) : (State.sliceTrim s h spare).teams = s.teams := by
  unfold State.sliceTrim
  repeat' (first | with_reducible rfl | with_reducible refine (State.sliceEvict_teams ..).trans ?_ | with_reducible refine Eq.trans (foldl_same State.teams ?_ _ _) ?_ | with_reducible intro _)
@[simp] theorem State.needLoop_teams (s : State) (c : Option Nat) (line : Nat) : (State.needLoop s c line).teams = s.teams := by
  unfold State.needLoop
  repeat' (first | with_reducible rfl | split)
@[simp] theorem State.fill_teams (s : State) (line : Nat) : (State.fill s line).teams = s.teams := by
  unfold State.fill
  repeat' (first | with_reducible rfl | with_reducible refine (State.sliceTrim_teams ..).trans ?_ | with_reducible refine (State.count_teams ..).trans ?_ | split)
@[simp] theorem State.dropCopy_teams (s : State) (c line : Nat) : (State.dropCopy s c line).teams = s.teams := by
  unfold State.dropCopy
  repeat' (first | with_reducible rfl | with_reducible refine (State.setCluster_teams ..).trans ?_ | with_reducible refine (State.count_teams ..).trans ?_ | split | extract_lets)
@[simp] theorem State.dropReplicas_teams (s : State) (line : Nat) : (State.dropReplicas s line).teams = s.teams := by
  unfold State.dropReplicas
  repeat' (first | with_reducible rfl | with_reducible refine (State.setCluster_teams ..).trans ?_ | with_reducible refine (State.count_teams ..).trans ?_ | with_reducible refine Eq.trans (foldl_same State.teams ?_ _ _) ?_ | with_reducible intro _ | split | extract_lets)
@[simp] theorem State.combine_teams (s : State) (unit : Nat) (p : Partial) : (State.combine s unit p).teams = s.teams := by
  unfold State.combine
  rfl
@[simp] theorem State.bumpSeq_teams (s : State) (line : Nat) : (State.bumpSeq s line).teams = s.teams := by
  unfold State.bumpSeq
  repeat' (first | with_reducible rfl | with_reducible refine (State.setSlice_teams ..).trans ?_ | with_reducible refine (State.count_teams ..).trans ?_)
@[simp] theorem State.recallFrom_teams (s : State) (line : Nat) (cs : List Nat) : (State.recallFrom s line cs).teams = s.teams := by
  unfold State.recallFrom
  repeat' (first | with_reducible rfl | with_reducible refine (State.bumpSeq_teams ..).trans ?_ | with_reducible refine (State.dropReplicas_teams ..).trans ?_ | with_reducible refine (State.fill_teams ..).trans ?_ | with_reducible refine (State.dropCopy_teams ..).trans ?_ | with_reducible refine (State.combine_teams ..).trans ?_ | with_reducible refine (State.count_teams ..).trans ?_ | with_reducible refine Eq.trans (foldl_same State.teams ?_ _ _) ?_ | with_reducible intro _ | split | extract_lets)
@[simp] theorem State.recall_teams (s : State) (line : Nat) : (State.recall s line).teams = s.teams := by
  unfold State.recall
  repeat' (first | with_reducible rfl | with_reducible refine (State.recallFrom_teams ..).trans ?_)
@[simp] theorem State.dropOthers_teams (s : State) (line : Nat) (writer : Option Nat) : (State.dropOthers s line writer).teams = s.teams := by
  unfold State.dropOthers
  repeat' (first | with_reducible rfl | with_reducible refine (State.dropReplicas_teams ..).trans ?_ | with_reducible refine (State.setCluster_teams ..).trans ?_ | with_reducible refine (State.dropCopy_teams ..).trans ?_ | with_reducible refine Eq.trans (foldl_same State.teams ?_ _ _) ?_ | with_reducible intro _ | split)
@[simp] theorem State.grantOwned_teams (s : State) (c line : Nat) : (State.grantOwned s c line).teams = s.teams := by
  unfold State.grantOwned
  repeat' (first | with_reducible rfl | with_reducible refine (State.setCluster_teams ..).trans ?_ | split)
@[simp] theorem State.homeWriteCells_teams (s : State) (line : Nat) (cs : List Host.Cell) (writer : Option Nat) : (State.homeWriteCells s line cs writer).teams = s.teams := by
  unfold State.homeWriteCells
  repeat' (first | with_reducible rfl | with_reducible refine (State.bumpSeq_teams ..).trans ?_ | with_reducible refine (State.recall_teams ..).trans ?_ | with_reducible refine (State.needLoop_teams ..).trans ?_ | with_reducible refine (State.fill_teams ..).trans ?_ | with_reducible refine (State.dropOthers_teams ..).trans ?_ | split)
@[simp] theorem State.homeWriteBytes_teams (s : State) (pa : Nat) (bs : List Byte) (writer : Option Nat) : (State.homeWriteBytes s pa bs writer).teams = s.teams := by
  unfold State.homeWriteBytes
  repeat' (first | with_reducible rfl | with_reducible refine (State.homeWriteCells_teams ..).trans ?_ | with_reducible refine Eq.trans (foldl_same State.teams ?_ _ _) ?_ | with_reducible intro _ | split)
@[simp] theorem State.homeTouch_teams (s : State) (line : Nat) : (State.homeTouch s line).teams = s.teams := by
  unfold State.homeTouch
  repeat' (first | with_reducible rfl | with_reducible refine (State.recall_teams ..).trans ?_ | with_reducible refine (State.count_teams ..).trans ?_ | with_reducible refine (State.fill_teams ..).trans ?_)
@[simp] theorem State.setPoison_teams (s : State) (line : Nat) : (State.setPoison s line).teams = s.teams := by
  unfold State.setPoison
  repeat' (first | with_reducible rfl | with_reducible refine (State.errorReport_teams ..).trans ?_ | with_reducible refine (State.fill_teams ..).trans ?_ | with_reducible refine (State.countErr_teams ..).trans ?_ | split | extract_lets)
@[simp] theorem State.homeDiscard_teams (s : State) (line : Nat) : (State.homeDiscard s line).teams = s.teams := by
  unfold State.homeDiscard
  repeat' (first | with_reducible rfl | with_reducible refine (State.bumpSeq_teams ..).trans ?_ | with_reducible refine (State.dropCopy_teams ..).trans ?_ | with_reducible refine (State.recall_teams ..).trans ?_ | with_reducible refine (State.dropOthers_teams ..).trans ?_ | with_reducible refine Eq.trans (foldl_same State.teams ?_ _ _) ?_ | with_reducible intro _)
@[simp] theorem State.colClean_teams (s : State) (core line : Nat) : (State.colClean s core line).teams = s.teams := by
  unfold State.colClean
  repeat' (first | with_reducible rfl | with_reducible refine (State.pmcCount_teams ..).trans ?_ | with_reducible refine (State.dropCopy_teams ..).trans ?_ | with_reducible refine (State.homeWriteCells_teams ..).trans ?_ | with_reducible refine (State.setPoison_teams ..).trans ?_ | with_reducible refine (State.setCol_teams ..).trans ?_ | with_reducible refine (State.grantOwned_teams ..).trans ?_ | with_reducible refine (State.countErr_teams ..).trans ?_ | split)
@[simp] theorem State.colCleanWord_teams (s : State) (core line word : Nat) : (State.colCleanWord s core line word).teams = s.teams := by
  unfold State.colCleanWord
  repeat' (first | with_reducible rfl | with_reducible refine (State.homeWriteCells_teams ..).trans ?_ | with_reducible refine (State.setCol_teams ..).trans ?_ | split | extract_lets)
@[simp] theorem State.colEvict_teams (s : State) (core line : Nat) : (State.colEvict s core line).teams = s.teams := by
  unfold State.colEvict
  repeat' (first | with_reducible rfl | with_reducible refine (State.dropCol_teams ..).trans ?_ | with_reducible refine (State.colClean_teams ..).trans ?_)
@[simp] theorem State.colSweep_teams (s : State) (core : Nat) (p : ColLine → Bool) (inv : Bool) : (State.colSweep s core p inv).teams = s.teams := by
  unfold State.colSweep
  repeat' (first | with_reducible rfl | with_reducible refine (State.colClean_teams ..).trans ?_ | with_reducible refine (State.colEvict_teams ..).trans ?_ | with_reducible refine Eq.trans (foldl_same State.teams ?_ _ _) ?_ | with_reducible intro _ | split)
@[simp] theorem State.columnRelease_teams (s : State) (paired : Bool) (scope core : Nat) : (State.columnRelease s paired scope core).teams = s.teams := by
  unfold State.columnRelease
  repeat' (first | with_reducible rfl | with_reducible refine (State.colSweep_teams ..).trans ?_ | split)
@[simp] theorem State.columnAcquire_teams (s : State) (paired : Bool) (scope core : Nat) : (State.columnAcquire s paired scope core).teams = s.teams := by
  unfold State.columnAcquire
  repeat' (first | with_reducible rfl | with_reducible refine (State.colSweep_teams ..).trans ?_ | split)
@[simp] theorem State.colEvictOne_teams (s : State) (core : Nat) : (State.colEvictOne s core).teams = s.teams := by
  unfold State.colEvictOne
  repeat' (first | with_reducible rfl | with_reducible refine (State.colEvict_teams ..).trans ?_ | split | extract_lets)
@[simp] theorem State.colMakeRoom_teams (s : State) (core line : Nat) : (State.colMakeRoom s core line).teams = s.teams := by
  unfold State.colMakeRoom
  repeat' (first | with_reducible rfl | with_reducible refine (State.colEvictOne_teams ..).trans ?_ | split)
@[simp] theorem State.colStore_teams (s : State) (core pa : Nat) (bs : List Byte) (uo : Bool) : (State.colStore s core pa bs uo).teams = s.teams := by
  unfold State.colStore
  repeat' (first | with_reducible rfl | with_reducible refine (State.colMakeRoom_teams ..).trans ?_ | with_reducible refine (State.count_teams ..).trans ?_ | with_reducible refine (State.setCol_teams ..).trans ?_ | split)
@[simp] theorem State.colFill_teams (s : State) (core line : Nat) (uo : Bool) : (State.colFill s core line uo).teams = s.teams := by
  unfold State.colFill
  repeat' (first | with_reducible rfl | with_reducible refine (State.colMakeRoom_teams ..).trans ?_ | with_reducible refine (State.setCol_teams ..).trans ?_)
@[simp] theorem State.upsetCol_teams (s : State) (core line word : Nat) : (State.upsetCol s core line word).teams = s.teams := by
  unfold State.upsetCol
  repeat' (first | with_reducible rfl | with_reducible refine (State.setCol_teams ..).trans ?_ | split)
@[simp] theorem State.clusterMakeRoom_teams (s : State) (c : Nat) : (State.clusterMakeRoom s c).teams = s.teams := by
  unfold State.clusterMakeRoom
  repeat' (first | with_reducible rfl | with_reducible refine (State.recall_teams ..).trans ?_ | with_reducible refine (State.dropCopy_teams ..).trans ?_ | split | extract_lets)
@[simp] theorem State.takeCopy_teams (s : State) (c line : Nat) (x : CLine) : (State.takeCopy s c line x).teams = s.teams := by
  unfold State.takeCopy
  repeat' (first | with_reducible rfl | with_reducible refine (State.setCluster_teams ..).trans ?_ | with_reducible refine (State.clusterMakeRoom_teams ..).trans ?_)
@[simp] theorem State.shareLine_teams (s : State) (line : Nat) : (State.shareLine s line).teams = s.teams := by
  unfold State.shareLine
  repeat' (first | with_reducible rfl | with_reducible refine (State.setCluster_teams ..).trans ?_ | with_reducible refine Eq.trans (foldl_same State.teams ?_ _ _) ?_ | with_reducible intro _)
@[simp] theorem State.installCopy_teams (s : State) (c line : Nat) (pf : Bool) (peer : Option Nat) : (State.installCopy s c line pf peer).teams = s.teams := by
  unfold State.installCopy
  repeat' (first | with_reducible rfl | with_reducible refine (State.shareLine_teams ..).trans ?_ | with_reducible refine (State.setCluster_teams ..).trans ?_ | with_reducible refine (State.takeCopy_teams ..).trans ?_ | split | extract_lets)
@[simp] theorem State.clusterLookup_teams (s : State) (c line : Nat) : (State.clusterLookup s c line).teams = s.teams := by
  unfold State.clusterLookup
  repeat' (first | with_reducible rfl | with_reducible refine (State.installCopy_teams ..).trans ?_ | with_reducible refine (State.count_teams ..).trans ?_ | split)
@[simp] theorem State.learnPeer_teams (s : State) (c line : Nat) : (State.learnPeer s c line).teams = s.teams := by
  unfold State.learnPeer
  repeat' (first | with_reducible rfl | with_reducible refine (State.setCluster_teams ..).trans ?_ | split)
@[simp] theorem State.pushReplicas_teams (s : State) (line : Nat) : (State.pushReplicas s line).teams = s.teams := by
  unfold State.pushReplicas
  repeat' (first | with_reducible rfl | with_reducible refine (State.sliceTrim_teams ..).trans ?_ | with_reducible refine (State.count_teams ..).trans ?_ | with_reducible refine Eq.trans (foldl_same State.teams ?_ _ _) ?_ | with_reducible intro _)
@[simp] theorem State.repeaterCount_teams (s : State) (c line : Nat) : (State.repeaterCount s c line).teams = s.teams := by
  unfold State.repeaterCount
  repeat' (first | with_reducible rfl | with_reducible refine (State.pushReplicas_teams ..).trans ?_ | with_reducible refine (State.setCluster_teams ..).trans ?_ | with_reducible refine (State.setSlice_teams ..).trans ?_ | with_reducible refine Eq.trans (foldl_same State.teams ?_ _ _) ?_ | with_reducible intro _ | split | extract_lets)
@[simp] theorem State.homeServe_teams (s : State) (c : Option Nat) (line : Nat) : (State.homeServe s c line).teams = s.teams := by
  unfold State.homeServe
  repeat' (first | with_reducible rfl | with_reducible refine (State.homeTouch_teams ..).trans ?_ | with_reducible refine (State.repeaterCount_teams ..).trans ?_ | with_reducible refine (State.learnPeer_teams ..).trans ?_ | with_reducible refine (State.needLoop_teams ..).trans ?_ | split)
@[simp] theorem State.homeReadBytes_teams (s : State) (c : Option Nat) (pa n : Nat) : (State.homeReadBytes s c pa n).1.teams = s.teams := by
  unfold State.homeReadBytes
  repeat' (first | with_reducible rfl | with_reducible refine (State.homeServe_teams ..).trans ?_ | with_reducible refine Eq.trans (foldl_same State.teams ?_ _ _) ?_ | with_reducible intro _)
@[simp] theorem State.homeAnswer_teams (s : State) (c line : Nat) (pf : Bool) : (State.homeAnswer s c line pf).1.teams = s.teams := by
  unfold State.homeAnswer
  repeat' (first | with_reducible rfl | with_reducible refine (State.installCopy_teams ..).trans ?_ | with_reducible refine (State.homeServe_teams ..).trans ?_ | split | extract_lets)
@[simp] theorem State.redirectedRead_teams (s : State) (c line helper : Nat) (pf : Bool) : (State.redirectedRead s c line helper pf).1.teams = s.teams := by
  unfold State.redirectedRead
  repeat' (first | with_reducible rfl | with_reducible refine (State.homeAnswer_teams ..).trans ?_ | with_reducible refine (State.installCopy_teams ..).trans ?_ | with_reducible refine (State.setCluster_teams ..).trans ?_ | with_reducible refine (State.count_teams ..).trans ?_ | split | extract_lets)
@[simp] theorem State.probePeer_teams (s : State) (c line p : Nat) (pf : Bool) : (State.probePeer s c line p pf).1.teams = s.teams := by
  unfold State.probePeer
  split <;> (try split) <;> simp [State.probePeer.clearAndAsk]
@[simp] theorem State.serveLine_teams (s : State) (c line : Nat) (plain pf : Bool) : (State.serveLine s c line plain pf).1.teams = s.teams := by
  unfold State.serveLine
  dsimp only
  repeat' (first | with_reducible refine (State.redirectedRead_teams ..).trans ?_ | with_reducible refine (State.probePeer_teams ..).trans ?_ | with_reducible refine (State.homeAnswer_teams ..).trans ?_ | with_reducible rfl | split)
@[simp] theorem State.takeMiss_teams (s : State) (c line : Nat) (who : Nat × Nat) : (State.takeMiss s c line who).teams = s.teams := by
  unfold State.takeMiss
  repeat' (first | with_reducible rfl | with_reducible refine (State.setCluster_teams ..).trans ?_ | with_reducible refine (State.count_teams ..).trans ?_ | split | extract_lets)
@[simp] theorem State.takePrefetch_teams (s : State) (c line : Nat) : (State.takePrefetch s c line).teams = s.teams := by
  unfold State.takePrefetch
  repeat' (first | with_reducible rfl | with_reducible refine (State.setCluster_teams ..).trans ?_ | with_reducible refine (State.count_teams ..).trans ?_ | split | extract_lets)
@[simp] theorem State.endMiss_teams (s : State) (c line : Nat) (who : Nat × Nat) : (State.endMiss s c line who).teams = s.teams := by
  unfold State.endMiss
  repeat' (first | with_reducible rfl | with_reducible refine (State.setCluster_teams ..).trans ?_)
@[simp] theorem State.endEntry_teams (s : State) (c line : Nat) : (State.endEntry s c line).teams = s.teams := by
  unfold State.endEntry
  repeat' (first | with_reducible rfl | with_reducible refine (State.setCluster_teams ..).trans ?_ | split | extract_lets)
@[simp] theorem State.passMiss_teams (s : State) (c line : Nat) (who : Nat × Nat) : (State.passMiss s c line who).teams = s.teams := by
  unfold State.passMiss
  repeat' (first | with_reducible rfl | with_reducible refine (State.takeMiss_teams ..).trans ?_ | split)
@[simp] theorem State.commitWalk_teams (s : State) (va : W64) : (State.commitWalk s va).teams = s.teams := by
  unfold State.commitWalk
  repeat' (first | with_reducible rfl | with_reducible refine (State.homeTouch_teams ..).trans ?_ | with_reducible refine Eq.trans (foldl_same State.teams ?_ _ _) ?_ | with_reducible intro _ | split)
@[simp] theorem State.noteWalk_teams (s : State) (t : TlbEntry) : (State.noteWalk s t).teams = s.teams := by
  unfold State.noteWalk
  repeat' (first | with_reducible rfl | split)
@[simp] theorem State.endWalk_teams (s : State) (d : Nat) (va : W64) : (State.endWalk s d va).teams = s.teams := by
  unfold State.endWalk
  repeat' (first | with_reducible rfl | with_reducible refine (State.setDie_teams ..).trans ?_ | with_reducible refine (State.commitWalk_teams ..).trans ?_ | with_reducible refine (State.noteWalk_teams ..).trans ?_ | split | extract_lets | dsimp only | dsimp +zetaDelta only)
@[simp] theorem State.leaveWalk_teams (s : State) (d : Nat) (va : W64) : (State.leaveWalk s d va).teams = s.teams := by
  unfold State.leaveWalk
  repeat' (first | with_reducible rfl | with_reducible refine (State.setDie_teams ..).trans ?_)
@[simp] theorem State.walkFill_teams (s : State) (d : Nat) (va : W64) : (State.walkFill s d va).teams = s.teams := by
  unfold State.walkFill
  repeat' (first | with_reducible rfl | with_reducible refine (State.leaveWalk_teams ..).trans ?_ | with_reducible refine (State.count_teams ..).trans ?_ | with_reducible refine (State.endWalk_teams ..).trans ?_ | split | extract_lets)
@[simp] theorem State.touchShared_teams (s : State) (d : Nat) (va : W64) : (State.touchShared s d va).teams = s.teams := by
  unfold State.touchShared
  repeat' (first | with_reducible rfl | with_reducible refine (State.count_teams ..).trans ?_ | with_reducible refine (State.walkFill_teams ..).trans ?_ | split)
@[simp] theorem State.takeLeaf_teams (s : State) (cl : Nat) (va : W64) : (State.takeLeaf s cl va).teams = s.teams := by
  unfold State.takeLeaf
  repeat' (first | with_reducible rfl | with_reducible refine (State.setCluster_teams ..).trans ?_ | split)
@[simp] theorem State.touchTlb_teams (s : State) (cl : Nat) (va : W64) : (State.touchTlb s cl va).teams = s.teams := by
  unfold State.touchTlb
  repeat' (first | with_reducible rfl | with_reducible refine (State.count_teams ..).trans ?_ | with_reducible refine (State.takeLeaf_teams ..).trans ?_ | with_reducible refine (State.touchShared_teams ..).trans ?_ | split)
@[simp] theorem State.queueFor_teams (s : State) (x : Lack) : (State.queueFor s x).teams = s.teams := by
  unfold State.queueFor
  repeat' (first | with_reducible rfl | with_reducible refine (State.setDie_teams ..).trans ?_ | with_reducible refine (State.takeMiss_teams ..).trans ?_ | with_reducible refine (State.count_teams ..).trans ?_ | split | extract_lets)
@[simp] theorem State.drainReports_teams (n : Nat) (s : State) : (State.drainReports n s).teams = s.teams := by
  induction n generalizing s with
  | zero => rfl
  | succ n ih =>
    unfold State.drainReports
    repeat' (first | with_reducible rfl | with_reducible refine (ih ..).trans ?_ | with_reducible refine (State.homeWriteBytes_teams ..).trans ?_ | with_reducible refine (State.columnRelease_teams ..).trans ?_ | with_reducible refine (State.vector_teams ..).trans ?_ | with_reducible refine (State.touchTlb_teams ..).trans ?_ | with_reducible refine (State.errorReport_teams ..).trans ?_ | split | extract_lets | dsimp only | dsimp +zetaDelta only)
@[simp] theorem State.report_teams (s : State) (r : Report) : (State.report s r).teams = s.teams := by
  unfold State.report
  repeat' (first | with_reducible rfl | with_reducible refine (State.drainReports_teams ..).trans ?_ | split | extract_lets)
@[simp] theorem State.vectorRead_teams (s : State) (core cause : Nat) : (State.vectorRead s core cause).teams = s.teams := by
  unfold State.vectorRead
  repeat' (first | with_reducible rfl | with_reducible refine (State.homeTouch_teams ..).trans ?_ | with_reducible refine (State.touchTlb_teams ..).trans ?_ | split | extract_lets)
@[simp] theorem State.stopWave_teams (s : State) (core slot : Nat) (w : Wave) : (State.stopWave s core slot w).teams = s.teams := by
  unfold State.stopWave
  repeat' (first | with_reducible rfl | with_reducible refine (State.setWave_teams ..).trans ?_ | with_reducible refine (State.report_teams ..).trans ?_)
@[simp] theorem State.deliverAs_teams (s : State) (core slot : Nat) (w : Wave) (v : Vector) : (State.deliverAs s core slot w v).teams = s.teams := by
  unfold State.deliverAs
  repeat' (first | with_reducible rfl | with_reducible refine (State.setWave_teams ..).trans ?_ | with_reducible refine (State.stopWave_teams ..).trans ?_ | split)
@[simp] theorem State.deliver_teams (s : State) (core slot : Nat) (w : Wave) : (State.deliver s core slot w).teams = s.teams := by
  unfold State.deliver
  exact (State.deliverAs_teams ..).trans (State.vectorRead_teams ..)
@[simp] theorem State.takeTrap_teams (s : State) (core slot : Nat) (w : Wave) (t : Trap) (epc : W64) (inclause : Bool) (word : Nat) : (State.takeTrap s core slot w t epc inclause word).teams = s.teams := by
  unfold State.takeTrap
  repeat' (first | with_reducible rfl | with_reducible refine (State.setWave_teams ..).trans ?_ | with_reducible refine (State.deliver_teams ..).trans ?_ | split | extract_lets)
@[simp] theorem State.trapAt_teams (s : State) (core slot : Nat) (w : Wave) (t : Trap) : (State.trapAt s core slot w t).teams = s.teams := by
  unfold State.trapAt
  repeat' (first | with_reducible rfl | with_reducible refine (State.takeTrap_teams ..).trans ?_)
@[simp] theorem State.trapHeader_teams (s : State) (core slot : Nat) (w : Wave) (t : Trap) (epc : W64) (word : Nat) : (State.trapHeader s core slot w t epc word).teams = s.teams := by
  unfold State.trapHeader
  repeat' (first | with_reducible rfl | with_reducible refine (State.takeTrap_teams ..).trans ?_)
@[simp] theorem State.doneWave_teams (s : State) (core slot : Nat) : (State.doneWave s core slot).teams = s.teams := by
  unfold State.doneWave
  repeat' (first | with_reducible rfl | with_reducible refine (State.updWave_teams ..).trans ?_)
@[simp] theorem State.errSeenCore_teams (s : State) (team core : Nat) : (State.errSeenCore s team core).teams = s.teams := by
  unfold State.errSeenCore
  repeat' (first | with_reducible rfl | with_reducible refine (State.setWave_teams ..).trans ?_ | with_reducible refine Eq.trans (foldl_same State.teams ?_ _ _) ?_ | with_reducible intro _ | split)
@[simp] theorem State.sawBad_teams (s : State) (core slot : Nat) (addr : W64) (lanes : BitVec 96) : (State.sawBad s core slot addr lanes).teams = s.teams := by
  unfold State.sawBad
  repeat' (first | with_reducible rfl | with_reducible refine (State.countErr_teams ..).trans ?_ | with_reducible refine (State.setWave_teams ..).trans ?_ | with_reducible refine (State.updWave_teams ..).trans ?_ | split | extract_lets)
@[simp] theorem State.pendFault_teams (s : State) (core slot : Nat) (r : PendRec) : (State.pendFault s core slot r).teams = s.teams := by
  unfold State.pendFault
  repeat' (first | with_reducible rfl | with_reducible refine (State.countErr_teams ..).trans ?_ | with_reducible refine (State.setWave_teams ..).trans ?_ | split)
@[simp] theorem State.launchFault_teams (s : State) (team : Nat) (cause : Nat) : (State.launchFault s team cause).teams = s.teams := by
  unfold State.launchFault
  repeat' (first | with_reducible rfl | with_reducible refine (State.updLaunch_teams ..).trans ?_)
@[simp] theorem State.deferSaved_teams (s : State) (core slot team : Nat) (r : PendRec) : (State.deferSaved s core slot team r).teams = s.teams := by
  unfold State.deferSaved
  repeat' (first | with_reducible rfl | with_reducible refine (State.updLaunch_teams ..).trans ?_ | with_reducible refine (State.countErr_teams ..).trans ?_ | with_reducible refine (State.launchFault_teams ..).trans ?_ | split)
@[simp] theorem State.deferTo_teams (s : State) (a : Agent) (team : Nat) (r : PendRec) : (State.deferTo s a team r).teams = s.teams := by
  unfold State.deferTo
  repeat' (first | with_reducible rfl | with_reducible refine (State.launchFault_teams ..).trans ?_ | with_reducible refine (State.pendFault_teams ..).trans ?_ | with_reducible refine (State.deferSaved_teams ..).trans ?_ | split)
@[simp] theorem State.assignStream_teams (s : State) (core : Nat) (m : Stream) : (State.assignStream s core m).teams = s.teams := by
  unfold State.assignStream
  repeat' (first | with_reducible rfl | with_reducible refine (State.launchFault_teams ..).trans ?_ | with_reducible refine (State.pendFault_teams ..).trans ?_ | with_reducible refine (State.report_teams ..).trans ?_ | with_reducible refine (State.updStream_teams ..).trans ?_ | split)
@[simp] theorem State.streamFault_teams (s : State) (core : Nat) (m : Stream) (cause sub level : Nat) (pc addr : W64) : (State.streamFault s core m cause sub level pc addr).teams = s.teams := by
  unfold State.streamFault
  repeat' (first | with_reducible rfl | with_reducible refine (State.assignStream_teams ..).trans ?_ | with_reducible refine (State.setStream_teams ..).trans ?_)
@[simp] theorem State.streamTrap_teams (s : State) (core : Nat) (m : Stream) (cause sub : Nat) (addr : W64) : (State.streamTrap s core m cause sub addr).teams = s.teams := by
  unfold State.streamTrap
  repeat' (first | with_reducible rfl | with_reducible refine (State.streamFault_teams ..).trans ?_)
@[simp] theorem State.streamXlat_teams (s : State) (core : Nat) (m : Stream) (e : XErr) (addr : W64) : (State.streamXlat s core m e addr).teams = s.teams := by
  unfold State.streamXlat
  repeat' (first | with_reducible rfl | with_reducible refine (State.streamFault_teams ..).trans ?_)
@[simp] theorem State.retireFrame_teams (s : State) (die : Nat) (frame : W64) : (State.retireFrame s die frame).teams = s.teams := by
  unfold State.retireFrame
  repeat' (first | with_reducible rfl | with_reducible refine (State.setTile_teams ..).trans ?_ | with_reducible refine (State.setDie_teams ..).trans ?_ | with_reducible refine Eq.trans (foldl_same State.teams ?_ _ _) ?_ | with_reducible intro _ | split | extract_lets)
@[simp] theorem State.unrefTile_teams (s : State) (t : Nat) : (State.unrefTile s t).teams = s.teams := by
  unfold State.unrefTile
  repeat' (first | with_reducible rfl | with_reducible refine (State.setTile_teams ..).trans ?_ | with_reducible refine (State.retireFrame_teams ..).trans ?_ | split | extract_lets)
@[simp] theorem State.dropRefs_teams (s : State) (core slot : Nat) : (State.dropRefs s core slot).teams = s.teams := by
  unfold State.dropRefs
  repeat' (first | with_reducible rfl | with_reducible refine (State.unrefTile_teams ..).trans ?_ | with_reducible refine (State.setWave_teams ..).trans ?_ | with_reducible refine Eq.trans (foldl_same State.teams ?_ _ _) ?_ | with_reducible intro _ | split)
@[simp] theorem State.releaseRefs_teams (s : State) (core slot : Nat) : (State.releaseRefs s core slot).teams = s.teams := by
  unfold State.releaseRefs
  repeat' (first | with_reducible rfl | with_reducible refine (State.dropRefs_teams ..).trans ?_ | with_reducible refine (State.setWave_teams ..).trans ?_ | split)
@[simp] theorem State.issueReq_teams (s : State) (core slot : Nat) (w : Wave) (p : Path) (word : W64) (sem scope : Nat) (accs : List Access) (ret : Ret) (phase : Nat) : (State.issueReq s core slot w p word sem scope accs ret phase).teams = s.teams := by
  unfold State.issueReq
  repeat' (first | with_reducible rfl | with_reducible refine (State.setWave_teams ..).trans ?_)
@[simp] theorem State.tagLast_teams (s : State) (core slot : Nat) (lines : List Nat) : (State.tagLast s core slot lines).teams = s.teams := by
  unfold State.tagLast
  repeat' (first | with_reducible rfl | with_reducible refine (State.updWave_teams ..).trans ?_ | split)
@[simp] theorem State.releaseFor_teams (s : State) (core slot : Nat) (paired : Bool) (scope : Nat) : (State.releaseFor s core slot paired scope).teams = s.teams := by
  unfold State.releaseFor
  repeat' (first | with_reducible rfl | with_reducible refine (State.columnRelease_teams ..).trans ?_ | with_reducible refine (State.tagLast_teams ..).trans ?_ | split)
@[simp] theorem State.sweepFor_teams (s : State) (core slot : Nat) (p : ColLine → Bool) (inv : Bool) : (State.sweepFor s core slot p inv).teams = s.teams := by
  unfold State.sweepFor
  repeat' (first | with_reducible rfl | with_reducible refine (State.tagLast_teams ..).trans ?_ | with_reducible refine (State.colSweep_teams ..).trans ?_)
@[simp] theorem State.acquireFor_teams (s : State) (core slot : Nat) (paired : Bool) (scope : Nat) : (State.acquireFor s core slot paired scope).teams = s.teams := by
  unfold State.acquireFor
  repeat' (first | with_reducible rfl | with_reducible refine (State.sweepFor_teams ..).trans ?_ | split)
@[simp] theorem State.sendReq_teams (s : State) (core slot : Nat) (w : Wave) (q : Req) : (State.sendReq s core slot w q).teams = s.teams := by
  unfold State.sendReq
  repeat' (first | with_reducible rfl | with_reducible refine (State.releaseFor_teams ..).trans ?_ | with_reducible refine (State.setWave_teams ..).trans ?_ | split)
@[simp] theorem State.spadWrite_teams (s : State) (t : Team) (off : Nat) (bs : List Byte) : (State.spadWrite s t off bs).teams = s.teams := by
  unfold State.spadWrite
  repeat' (first | with_reducible rfl | with_reducible refine (State.storeWrite_teams ..).trans ?_)
@[simp] theorem State.touchAll_teams (s : State) (core : Nat) (lvl : Level) (vas : List W64) : (State.touchAll s core lvl vas).teams = s.teams := by
  unfold State.touchAll
  repeat' (first | with_reducible rfl | with_reducible refine (State.touchTlb_teams ..).trans ?_ | with_reducible refine Eq.trans (foldl_same State.teams ?_ _ _) ?_ | with_reducible intro _ | split)
@[simp] theorem State.touchFault_teams (s : State) (core : Nat) (va : W64) (e : XErr) : (State.touchFault s core va e).teams = s.teams := by
  unfold State.touchFault
  repeat' (first | with_reducible rfl | with_reducible refine (State.touchTlb_teams ..).trans ?_ | split)
@[simp] theorem State.prefetch_teams (s : State) (cl : Nat) (va : W64) : (State.prefetch s cl va).teams = s.teams := by
  unfold State.prefetch
  repeat' (first | with_reducible rfl | with_reducible refine (State.count_teams ..).trans ?_ | with_reducible refine (State.touchTlb_teams ..).trans ?_ | with_reducible refine (State.takePrefetch_teams ..).trans ?_ | split)
@[simp] theorem State.columnWord_teams (s : State) (c k : Nat) (w : Wave) (f : FmtM) (inv : Bool) : (State.columnWord s c k w f inv).teams = s.teams := by
  unfold State.columnWord
  repeat' (first | with_reducible rfl | with_reducible refine (State.tagLast_teams ..).trans ?_ | with_reducible refine (State.touchAll_teams ..).trans ?_ | with_reducible refine (State.colClean_teams ..).trans ?_ | with_reducible refine (State.colSweep_teams ..).trans ?_ | with_reducible refine (State.setWave_teams ..).trans ?_ | with_reducible refine (State.colEvict_teams ..).trans ?_ | with_reducible refine (State.trapAt_teams ..).trans ?_ | with_reducible refine (State.doneWave_teams ..).trans ?_ | with_reducible refine Eq.trans (foldl_same State.teams ?_ _ _) ?_ | with_reducible intro _ | split)
@[simp] theorem State.dropWatch_teams (s : State) (team : Nat) : (State.dropWatch s team).teams = s.teams := by
  unfold State.dropWatch
  rfl
@[simp] theorem State.classified_teams (s : State) (t : Nat) : (State.classified s t).teams = s.teams := by
  unfold State.classified
  repeat' (first | with_reducible rfl | with_reducible refine (State.unrefTile_teams ..).trans ?_ | with_reducible refine (State.setTile_teams ..).trans ?_ | split | extract_lets)
@[simp] theorem State.classifiedAll_teams (s : State) (es : List BinEntry) : (State.classifiedAll s es).teams = s.teams := by
  unfold State.classifiedAll
  repeat' (first | with_reducible rfl | with_reducible refine (State.classified_teams ..).trans ?_ | with_reducible refine Eq.trans (foldl_same State.teams ?_ _ _) ?_ | with_reducible intro _)
@[simp] theorem State.binPut_teams (die m : Nat) (s : State) (e : BinEntry) : (State.binPut die m s e).teams = s.teams := by
  unfold State.binPut
  repeat' (first | with_reducible rfl | with_reducible refine (State.setDie_teams ..).trans ?_ | with_reducible refine (State.storeWrite_teams ..).trans ?_ | split | extract_lets)
@[simp] theorem State.upsetChip_teams (s : State) (word : Nat) : (State.upsetChip s word).teams = s.teams := by
  unfold State.upsetChip
  repeat' (first | with_reducible rfl | with_reducible refine (State.upsetStore_teams ..).trans ?_ | with_reducible refine (State.setDie_teams ..).trans ?_)
@[simp] theorem State.binAppend_teams (s : State) (die m : Nat) (es : List BinEntry) : (State.binAppend s die m es).teams = s.teams := by
  unfold State.binAppend
  repeat' (first | with_reducible rfl | with_reducible refine (State.count_teams ..).trans ?_ | with_reducible refine (State.binPut_teams ..).trans ?_ | with_reducible refine Eq.trans (foldl_same State.teams ?_ _ _) ?_ | with_reducible intro _ | split)
@[simp] theorem State.placeHits_teams (die : Nat) (s : State) (l : List (Nat × BinEntry)) : ((State.placeHits die s l).1).teams = s.teams := by
  induction l generalizing s with
  | nil => rfl
  | cons a l ih =>
    unfold State.placeHits
    repeat' (first | with_reducible rfl | with_reducible refine (ih ..).trans ?_ | with_reducible refine (State.count_teams ..).trans ?_ | with_reducible refine (State.binAppend_teams ..).trans ?_ | split)
@[simp] theorem State.discardBins_teams (s : State) (m : Nat) : (State.discardBins s m).teams = s.teams := by
  unfold State.discardBins
  repeat' (first | with_reducible rfl | with_reducible refine (State.count_teams ..).trans ?_ | with_reducible refine (State.setDie_teams ..).trans ?_ | with_reducible refine (State.classifiedAll_teams ..).trans ?_ | with_reducible refine Eq.trans (foldl_same State.teams ?_ _ _) ?_ | with_reducible intro _ | split | extract_lets)
@[simp] theorem State.trackMiss_teams (s : State) (cl core line : Nat) : (State.trackMiss s cl core line).teams = s.teams := by
  unfold State.trackMiss
  repeat' (first | with_reducible rfl | with_reducible refine (State.setCluster_teams ..).trans ?_ | with_reducible refine (State.takePrefetch_teams ..).trans ?_ | with_reducible refine Eq.trans (foldl_same State.teams ?_ _ _) ?_ | with_reducible intro _ | split | extract_lets)
@[simp] theorem State.deliverLine_teams (s : State) (core pa n : Nat) (col uo bad : Bool) : (State.deliverLine s core pa n col uo bad).1.teams = s.teams := by
  unfold State.deliverLine
  repeat' (first | with_reducible rfl | with_reducible refine (State.colFill_teams ..).trans ?_ | split)
@[simp] theorem State.readAtOnce_teams (s : State) (core pa n : Nat) (who : Option (Nat × Nat)) (col uo plain : Bool) :
    (State.readAtOnce s core pa n who col uo plain).1.teams = s.teams := by
  unfold State.readAtOnce
  cases who <;> dsimp only <;> split <;>
    simp only [State.deliverLine_teams, State.endMiss_teams, State.serveLine_teams, State.passMiss_teams, State.clusterLookup_teams]
@[simp] theorem State.readThrough_teams (s : State) (core pa n : Nat) (who : Option (Nat × Nat)) : (State.readThrough s core pa n who).1.teams = s.teams := by
  unfold State.readThrough
  repeat' (first | with_reducible rfl | with_reducible refine (State.readAtOnce_teams ..).trans ?_ | with_reducible refine (State.colEvict_teams ..).trans ?_)
@[simp] theorem State.readColumn_teams (s : State) (core team pa n : Nat) (who : Option (Nat × Nat)) (uo : Bool) : (State.readColumn s core team pa n who uo).1.teams = s.teams := by
  unfold State.readColumn
  repeat' (first | with_reducible rfl | with_reducible refine (State.pmcCount_teams ..).trans ?_ | with_reducible refine (State.trackMiss_teams ..).trans ?_ | with_reducible refine (State.readAtOnce_teams ..).trans ?_ | split)
@[simp] theorem State.countColumn_teams (s : State) (core team : Nat) (x : Access) (who : Nat × Nat) (ev : Nat) : (State.countColumn s core team x who ev).teams = s.teams := by
  unfold State.countColumn
  repeat' (first | with_reducible rfl | with_reducible refine (State.pmcCount_teams ..).trans ?_ | split)
@[simp] theorem State.tagWave_teams (s : State) (c k line : Nat) : (State.tagWave s c k line).teams = s.teams := by
  unfold State.tagWave
  repeat' (first | with_reducible rfl | with_reducible refine (State.updWave_teams ..).trans ?_)
@[simp] theorem State.meetCluster_teams (s : State) (core : Nat) (who : Nat) (q : Req) (x : Access) : (State.meetCluster s core who q x).teams = s.teams := by
  unfold State.meetCluster
  repeat' (first | with_reducible rfl | with_reducible refine (State.clusterLookup_teams ..).trans ?_ | with_reducible refine (State.trackMiss_teams ..).trans ?_ | split | extract_lets)
@[simp] theorem State.throughEntry_teams (s : State) (core : Nat) (who : Nat) (q : Req) (x : Access) : (State.throughEntry s core who q x).teams = s.teams := by
  unfold State.throughEntry
  repeat' (first | with_reducible rfl | with_reducible refine (State.takeMiss_teams ..).trans ?_ | with_reducible refine (State.endMiss_teams ..).trans ?_ | split | extract_lets)
@[simp] theorem State.awaitEntry_teams (s : State) (core : Nat) (who : Nat) (q : Req) (x : Access) : (State.awaitEntry s core who q x).teams = s.teams := by
  unfold State.awaitEntry
  repeat' (first | with_reducible rfl | with_reducible refine (State.takeMiss_teams ..).trans ?_ | with_reducible refine (State.meetCluster_teams ..).trans ?_ | split | extract_lets)
@[simp] theorem State.writeHome_teams (s : State) (core who : Nat) (q : Req) (x : Access) (n d : Nat) : (State.writeHome s core who q x n d).teams = s.teams := by
  unfold State.writeHome
  repeat' (first | with_reducible rfl | with_reducible refine (State.meetCluster_teams ..).trans ?_ | with_reducible refine (State.throughEntry_teams ..).trans ?_ | with_reducible refine (State.grantOwned_teams ..).trans ?_ | with_reducible refine (State.homeWriteBytes_teams ..).trans ?_ | split)
@[simp] theorem State.localPerform_teams (s : State) (c k : Nat) (a : Access) : (State.localPerform s c k a).1.teams = s.teams := by
  unfold State.localPerform
  repeat' (first | with_reducible rfl | with_reducible refine (State.setWave_teams ..).trans ?_ | with_reducible refine (State.count_teams ..).trans ?_ | with_reducible refine (State.storeWrite_teams ..).trans ?_ | split | extract_lets)
@[simp] theorem State.performLocal_teams (s : State) (c k : Nat) (q : Req) : (State.performLocal s c k q).teams = s.teams := by
  unfold State.performLocal
  repeat' (first | with_reducible rfl | with_reducible refine (State.localPerform_teams ..).trans ?_ | with_reducible refine (State.updWave_teams ..).trans ?_ | with_reducible refine Eq.trans (foldl_same State.teams ?_ _ _) ?_ | with_reducible intro _ | split)
@[simp] theorem State.deliverTuple_teams (s : State) (c k : Nat) (q : Req) (t : TReq) : (State.deliverTuple s c k q t).teams = s.teams := by
  unfold State.deliverTuple
  repeat' (first | with_reducible rfl | with_reducible refine (State.spadWrite_teams ..).trans ?_ | with_reducible refine (State.sawBad_teams ..).trans ?_ | with_reducible refine (State.deferTo_teams ..).trans ?_ | with_reducible refine (State.updWave_teams ..).trans ?_ | with_reducible refine (State.columnAcquire_teams ..).trans ?_ | split | extract_lets | dsimp +zetaDelta only)
@[simp] theorem State.deliverBad_teams (s : State) (c k : Nat) (q : Req) : (State.deliverBad s c k q).teams = s.teams := by
  unfold State.deliverBad
  repeat' (first | with_reducible rfl | with_reducible refine (State.sawBad_teams ..).trans ?_ | split)
@[simp] theorem State.feedBins_teams (s : State) (c k : Nat) (q : Req) : (State.feedBins s c k q).teams = s.teams := by
  unfold State.feedBins
  repeat' (first | with_reducible rfl | with_reducible refine (State.updWave_teams ..).trans ?_ | with_reducible refine (State.placeHits_teams ..).trans ?_ | split)
@[simp] theorem State.keepFetched_teams (s : State) (core : Nat) (va : W64) : (State.keepFetched s core va).teams = s.teams := by
  unfold State.keepFetched
  repeat' (first | with_reducible rfl | with_reducible refine (State.setCore_teams ..).trans ?_ | with_reducible refine (State.readAtOnce_teams ..).trans ?_ | with_reducible refine (State.countErr_teams ..).trans ?_ | with_reducible refine (State.touchTlb_teams ..).trans ?_ | split | extract_lets)
@[simp] theorem State.keepWords_teams (s : State) (core : Nat) (va : W64) (n : Nat) : (State.keepWords s core va n).teams = s.teams := by
  induction n generalizing s va with
  | zero => rfl
  | succ n ih =>
    unfold State.keepWords
    repeat' (first | with_reducible rfl | with_reducible refine (ih ..).trans ?_ | with_reducible refine (State.keepFetched_teams ..).trans ?_ | split)
@[simp] theorem State.keepClause_teams (s : State) (core : Nat) (h : W64) : (State.keepClause s core h).teams = s.teams := by
  unfold State.keepClause
  repeat' (first | with_reducible rfl | with_reducible refine (State.keepWords_teams ..).trans ?_)
@[simp] theorem State.promote_teams (s : State) (c k : Nat) : (State.promote s c k).teams = s.teams := by
  unfold State.promote
  repeat' (first | with_reducible rfl | with_reducible refine (State.setWave_teams ..).trans ?_ | with_reducible refine (State.pmcCount_teams ..).trans ?_ | split)
@[simp] theorem State.cancelPark_teams (s : State) (w : Wave) : (State.cancelPark s w).teams = s.teams := by
  unfold State.cancelPark
  repeat' (first | with_reducible rfl | split)
@[simp] theorem State.elemWrite_teams (s : State) (t : Team) (c : Chan) (i : W32) (off : Nat) (bs : List Byte) : (State.elemWrite s t c i off bs).teams = s.teams := by
  unfold State.elemWrite
  repeat' (first | with_reducible rfl | with_reducible refine (State.storeWrite_teams ..).trans ?_ | split)
@[simp] theorem State.evictForRows_teams (s : State) (core : Nat) : (State.evictForRows s core).teams = s.teams := by
  unfold State.evictForRows
  repeat' (first | with_reducible rfl | with_reducible refine (State.colEvictOne_teams ..).trans ?_ | with_reducible refine (State.colEvict_teams ..).trans ?_ | with_reducible refine Eq.trans (foldl_same State.teams ?_ _ _) ?_ | with_reducible intro _ | split)
@[simp] theorem State.tupleTrap_teams (s : State) (c k : Nat) (w : Wave) (f : FmtT) (op : TOp) (t : Trap) : (State.tupleTrap s c k w f op t).teams = s.teams := by
  unfold State.tupleTrap
  repeat' (first | with_reducible rfl | with_reducible refine (State.trapAt_teams ..).trans ?_ | with_reducible refine (State.touchTlb_teams ..).trans ?_ | split)
@[simp] theorem State.sendTuple_teams (s : State) (t : TReq) : (State.sendTuple s t).teams = s.teams := by
  unfold State.sendTuple
  rfl
@[simp] theorem State.dropBadTags_teams (s : State) (h bag : Nat) : (State.dropBadTags s h bag).teams = s.teams := by
  unfold State.dropBadTags
  repeat' (first | with_reducible rfl | with_reducible refine (State.count_teams ..).trans ?_ | with_reducible refine (State.setSlice_teams ..).trans ?_ | split | extract_lets)
@[simp] theorem State.endTreq_teams (s : State) (r : Nat) (t : TReq) (status : Nat) (g : TReq → TReq) : (State.endTreq s r t status g).teams = s.teams := by
  unfold State.endTreq
  repeat' (first | with_reducible rfl | with_reducible refine (State.updTreq_teams ..).trans ?_ | with_reducible refine (State.updWave_teams ..).trans ?_ | split)
@[simp] theorem State.serveTuple_teams (s : State) (r : Nat) (t : TReq) (words : List W64) (bad : Bool) : (State.serveTuple s r t words bad).teams = s.teams := by
  unfold State.serveTuple
  repeat' (first | with_reducible rfl | with_reducible refine (State.endTreq_teams ..).trans ?_ | with_reducible refine (State.count_teams ..).trans ?_ | with_reducible refine (State.pmcCount_teams ..).trans ?_)
@[simp] theorem State.endDeposit_teams (s : State) (r : Nat) (t : TReq) (status fault : Nat) : (State.endDeposit s r t status fault).teams = s.teams := by
  unfold State.endDeposit
  repeat' (first | with_reducible rfl | with_reducible refine (State.endTreq_teams ..).trans ?_ | with_reducible refine (State.deferTo_teams ..).trans ?_ | with_reducible refine (State.pmcCount_teams ..).trans ?_ | split)
@[simp] theorem State.parkTuple_teams (s : State) (r : Nat) (t : TReq) : (State.parkTuple s r t).teams = s.teams := by
  unfold State.parkTuple
  repeat' (first | with_reducible rfl | with_reducible refine (State.updTreq_teams ..).trans ?_ | with_reducible refine (State.count_teams ..).trans ?_ | with_reducible refine (State.pmcCount_teams ..).trans ?_ | with_reducible refine (State.setSlice_teams ..).trans ?_ | split | extract_lets)
@[simp] theorem State.tileWrite_teams (s : State) (core slot accf : Nat) (es : List (Nat × Nat × Nat)) : (State.tileWrite s core slot accf es).teams = s.teams := by
  unfold State.tileWrite
  repeat' (first | with_reducible rfl | with_reducible refine (State.freshCode_teams ..).trans ?_ | split)
@[simp] theorem State.engPages_teams (s : State) (cl : Nat) (i : Intent) (ranges : List (W64 × Nat)) : (State.engPages s cl i ranges).1.teams = s.teams := by
  unfold State.engPages
  repeat' (first | with_reducible rfl | with_reducible refine (State.touchTlb_teams ..).trans ?_ | with_reducible refine Eq.trans (foldl_same_fst State.teams ?_ _ _) ?_ | with_reducible intro _ | split | extract_lets)
@[simp] theorem State.engWrite_teams (s : State) (core : Nat) (ps : List EngPage) (va : W64) (bs : List Byte) : (State.engWrite s core ps va bs).teams = s.teams := by
  unfold State.engWrite
  repeat' (first | with_reducible rfl | with_reducible refine (State.homeWriteBytes_teams ..).trans ?_ | with_reducible refine (State.colEvict_teams ..).trans ?_ | with_reducible refine Eq.trans (foldl_same_fst State.teams ?_ _ _) ?_ | with_reducible intro _)
@[simp] theorem State.fireCmd_teams (s : State) (id : Nat) (c : Cmd) (reads writes : List (W64 × Nat)) : (State.fireCmd s id c reads writes).teams = s.teams := by
  unfold State.fireCmd
  repeat' (first | with_reducible rfl | with_reducible refine (State.engPages_teams ..).trans ?_)
@[simp] theorem State.cmdRelease_teams (s : State) (id : Nat) (c : Cmd) : (State.cmdRelease s id c).teams = s.teams := by
  unfold State.cmdRelease
  repeat' (first | with_reducible rfl | with_reducible refine (State.releaseFor_teams ..).trans ?_ | split)
@[simp] theorem State.takeInputs_teams (s : State) (c : Cmd) (chn : Nat) : (State.takeInputs s c chn).1.teams = s.teams := by
  unfold State.takeInputs
  repeat' (first | with_reducible rfl | with_reducible refine (State.countErr_teams ..).trans ?_ | split | extract_lets)
@[simp] theorem State.cpyoutWork_teams (s : State) (c : Cmd) (d : CopyDesc) : (State.cpyoutWork s c d).1.teams = s.teams := by
  unfold State.cpyoutWork
  repeat' (first | with_reducible rfl | with_reducible refine (State.takeInputs_teams ..).trans ?_ | with_reducible refine (State.engWrite_teams ..).trans ?_ | with_reducible refine Eq.trans (foldl_same State.teams ?_ _ _) ?_ | with_reducible intro _ | split | extract_lets)
@[simp] theorem State.takeTag_teams (s : State) (id : Nat) (c : Cmd) : (State.takeTag s id c).teams = s.teams := by
  unfold State.takeTag
  repeat' (first | with_reducible rfl | with_reducible refine (State.pmcCount_teams ..).trans ?_ | split)
@[simp] theorem State.homeRead_teams (s : State) (pa : Nat) : (State.homeRead s pa).teams = s.teams := by
  unfold State.homeRead
  repeat' (first | with_reducible rfl | with_reducible refine (State.homeTouch_teams ..).trans ?_ | split)
@[simp] theorem State.ctlRead_teams (s : State) (q : Nat) : (State.ctlRead s q).teams = s.teams := by
  unfold State.ctlRead
  repeat' (first | with_reducible rfl | with_reducible refine (State.homeRead_teams ..).trans ?_)
@[simp] theorem State.devWrite_teams (s : State) (pa : Nat) (bs : List Byte) : (State.devWrite s pa bs).teams = s.teams := by
  unfold State.devWrite
  repeat' (first | with_reducible rfl | with_reducible refine (State.homeWriteBytes_teams ..).trans ?_ | split)
@[simp] theorem State.ctlWrite_teams (s : State) (q off x : Nat) : (State.ctlWrite s q off x).teams = s.teams := by
  unfold State.ctlWrite
  repeat' (first | with_reducible rfl | with_reducible refine (State.devWrite_teams ..).trans ?_ | with_reducible refine (State.setLq_teams ..).trans ?_)
@[simp] theorem State.knowSeqno_teams (s : State) (id : Nat) (c : Cmd) (n : Nat) : (State.knowSeqno s id c n).teams = s.teams := by
  unfold State.knowSeqno
  repeat' (first | with_reducible rfl | with_reducible refine (State.updWave_teams ..).trans ?_ | split)
@[simp] theorem State.addRow_teams (s : State) (core : Nat) (x : Chain) (row : Nat) (data : List W32) : (State.addRow s core x row data).teams = s.teams := by
  unfold State.addRow
  repeat' (first | with_reducible rfl | with_reducible refine (State.tileWrite_teams ..).trans ?_)
@[simp] theorem State.consumePoison_teams (s : State) (core : Nat) (q : QWord) : (State.consumePoison s core q).teams = s.teams := by
  unfold State.consumePoison
  repeat' (first | with_reducible rfl | with_reducible refine (State.setChain_teams ..).trans ?_ | with_reducible refine (State.updStream_teams ..).trans ?_ | with_reducible refine Eq.trans (foldl_same State.teams ?_ _ _) ?_ | with_reducible intro _)
@[simp] theorem State.pushArray_teams (s : State) (core : Nat) (m : Stream) (q : QWord) : (State.pushArray s core m q).teams = s.teams := by
  unfold State.pushArray
  repeat' (first | with_reducible rfl | with_reducible refine (State.setStream_teams ..).trans ?_)
@[simp] theorem State.pushXfer_teams (s : State) (core : Nat) (m : Stream) (q : QWord) : (State.pushXfer s core m q).teams = s.teams := by
  unfold State.pushXfer
  repeat' (first | with_reducible rfl | with_reducible refine (State.setStream_teams ..).trans ?_)
@[simp] theorem State.blockStream_teams (s : State) (core : Nat) (m : Stream) (stage : Nat) : (State.blockStream s core m stage).teams = s.teams := by
  unfold State.blockStream
  repeat' (first | with_reducible rfl | with_reducible refine (State.setStream_teams ..).trans ?_)
@[simp] theorem State.streamBad_teams (s : State) (core : Nat) (m : Stream) (pc addr : W64) : (State.streamBad s core m pc addr).teams = s.teams := by
  unfold State.streamBad
  repeat' (first | with_reducible rfl | with_reducible refine (State.errSeenCore_teams ..).trans ?_ | with_reducible refine (State.updStream_teams ..).trans ?_ | with_reducible refine (State.countErr_teams ..).trans ?_ | split | extract_lets)
@[simp] theorem State.loadRow_teams (s : State) (core : Nat) (t : Team) (c : Chan) (first n : Nat) : (State.loadRow s core t c first n).teams = s.teams := by
  unfold State.loadRow
  repeat' (first | with_reducible rfl | with_reducible refine (State.setCore_teams ..).trans ?_)
@[simp] theorem State.touchAccs_teams (s : State) (core : Nat) (as : List Access) : (State.touchAccs s core as).teams = s.teams := by
  unfold State.touchAccs
  repeat' (first | with_reducible rfl | with_reducible refine (State.touchTlb_teams ..).trans ?_ | with_reducible refine Eq.trans (foldl_same State.teams ?_ _ _) ?_ | with_reducible intro _)
@[simp] theorem State.unitRead_teams (s : State) (unit core team : Nat) (a : Access) : (State.unitRead s unit core team a).1.teams = s.teams := by
  unfold State.unitRead
  repeat' (first | with_reducible rfl | with_reducible refine (State.readThrough_teams ..).trans ?_ | with_reducible refine (State.readColumn_teams ..).trans ?_ | split)
@[simp] theorem State.streamRead_teams (s : State) (core team : Nat) (a : Access) : (State.streamRead s core team a).1.teams = s.teams := by
  unfold State.streamRead
  repeat' (first | with_reducible rfl | with_reducible refine (State.unitRead_teams ..).trans ?_)
@[simp] theorem State.streamWrite_teams (s : State) (core : Nat) (a : Access) (bs : List Byte) : (State.streamWrite s core a bs).teams = s.teams := by
  unfold State.streamWrite
  repeat' (first | with_reducible rfl | with_reducible refine (State.colStore_teams ..).trans ?_ | with_reducible refine (State.colEvict_teams ..).trans ?_ | with_reducible refine (State.homeWriteBytes_teams ..).trans ?_ | split)
@[simp] theorem State.clearEcpls_teams (s : State) (as : List (Agent × Ecpl)) : (State.clearEcpls s as).teams = s.teams := by
  unfold State.clearEcpls
  repeat' (first | with_reducible rfl | with_reducible refine (State.updWave_teams ..).trans ?_ | with_reducible refine Eq.trans (foldl_same State.teams ?_ _ _) ?_ | with_reducible intro _ | split)
@[simp] theorem State.gBad_teams (s : State) (c k : Nat) (bads : List (Nat × W64)) (die idx : Nat) : (State.gBad s c k bads die idx).teams = s.teams := by
  unfold State.gBad
  repeat' (first | with_reducible rfl | with_reducible refine (State.count_teams ..).trans ?_ | with_reducible refine (State.updWave_teams ..).trans ?_ | split)
@[simp] theorem State.touchFails_teams (s : State) (core : Nat) (fails : List (Nat × W64 × XErr)) : (State.touchFails s core fails).teams = s.teams := by
  unfold State.touchFails
  repeat' (first | with_reducible rfl | with_reducible refine (State.touchFault_teams ..).trans ?_ | with_reducible refine Eq.trans (foldl_same State.teams ?_ _ _) ?_ | with_reducible intro _)
@[simp] theorem State.countTests_teams (s : State) (c team ev n : Nat) : (State.countTests s c team ev n).teams = s.teams := by
  unfold State.countTests
  repeat' (first | with_reducible rfl | with_reducible refine (State.pmcCount_teams ..).trans ?_ | split)
@[simp] theorem State.freshPix_teams (s : State) (slot p : Nat) (x : Pix) : (State.freshPix s slot p x).teams = s.teams := by
  unfold State.freshPix
  repeat' (first | with_reducible rfl | with_reducible refine (State.setTile_teams ..).trans ?_ | with_reducible refine (State.count_teams ..).trans ?_ | split)
@[simp] theorem State.rasterTile_teams (s : State) (slot : Nat) (id : W64) (v0 v1 v2 : Vert) : (State.rasterTile s slot id v0 v1 v2).teams = s.teams := by
  unfold State.rasterTile
  repeat' (first | with_reducible rfl | with_reducible refine (State.freshPix_teams ..).trans ?_ | with_reducible refine (State.count_teams ..).trans ?_ | with_reducible refine Eq.trans (foldl_same State.teams ?_ _ _) ?_ | with_reducible intro _ | split | extract_lets)
@[simp] theorem State.appendGroups_teams (die slot n : Nat) (s : State) : (State.appendGroups die slot n s).teams = s.teams := by
  induction n generalizing s with
  | zero => rfl
  | succ n ih =>
    unfold State.appendGroups
    repeat' (first | with_reducible rfl | with_reducible refine (ih ..).trans ?_ | with_reducible refine (State.binAppend_teams ..).trans ?_ | with_reducible refine (State.setTile_teams ..).trans ?_ | with_reducible refine (State.count_teams ..).trans ?_ | with_reducible refine (State.classified_teams ..).trans ?_ | split | extract_lets)
@[simp] theorem State.closeBinWave_teams (s : State) (die m : Nat) (l : Nat) (x : Launch) (f : Forming) : (State.closeBinWave s die m l x f).teams = s.teams := by
  unfold State.closeBinWave
  repeat' (first | with_reducible rfl | with_reducible refine (State.setTile_teams ..).trans ?_ | with_reducible refine (State.setDie_teams ..).trans ?_ | with_reducible refine (State.count_teams ..).trans ?_ | with_reducible refine (State.setLaunch_teams ..).trans ?_ | with_reducible refine (State.classifiedAll_teams ..).trans ?_ | with_reducible refine Eq.trans (foldl_same State.teams ?_ _ _) ?_ | with_reducible intro _ | split)
@[simp] theorem State.gtsendEnd_teams (s : State) (core : Nat) (m : Stream) (q : QWord) : (State.gtsendEnd s core m q).teams = s.teams := by
  unfold State.gtsendEnd
  repeat' (first | with_reducible rfl | with_reducible refine (State.streamBad_teams ..).trans ?_ | with_reducible refine (State.pmcCount_teams ..).trans ?_ | with_reducible refine Eq.trans (foldl_same State.teams ?_ _ _) ?_ | with_reducible intro _ | split)
@[simp] theorem State.gtConfig_teams (s : State) (core : Nat) (m : Stream) (sub : Nat) : (State.gtConfig s core m sub).teams = s.teams := by
  unfold State.gtConfig
  repeat' (first | with_reducible rfl | with_reducible refine (State.streamTrap_teams ..).trans ?_)
@[simp] theorem State.answerFlit_teams (s : State) (n : Nat) (fl : Flit) (ans : Nat) : (State.answerFlit s n fl ans).teams = s.teams := by
  unfold State.answerFlit
  rfl
@[simp] theorem State.lostRow_teams (s : State) (core chain team : Nat) : (State.lostRow s core chain team).teams = s.teams := by
  unfold State.lostRow
  repeat' (first | with_reducible rfl | with_reducible refine (State.countErr_teams ..).trans ?_ | with_reducible refine (State.errSeenCore_teams ..).trans ?_ | with_reducible refine (State.setChain_teams ..).trans ?_ | split | extract_lets)
@[simp] theorem State.dropFlit_teams (s : State) (fl : Flit) : (State.dropFlit s fl).teams = s.teams := by
  unfold State.dropFlit
  repeat' (first | with_reducible rfl | with_reducible refine (State.lostRow_teams ..).trans ?_)
@[simp] theorem State.statusWrite_teams (s : State) (pa v : Nat) : (State.statusWrite s pa v).teams = s.teams := by
  unfold State.statusWrite
  repeat' (first | with_reducible rfl | with_reducible refine (State.devWrite_teams ..).trans ?_)
@[simp] theorem State.advanceHead_teams (n : Nat) (s : State) (q : Nat) : (State.advanceHead n s q).teams = s.teams := by
  induction n generalizing s with
  | zero => rfl
  | succ n ih =>
    unfold State.advanceHead
    repeat' (first | with_reducible rfl | with_reducible refine (ih ..).trans ?_ | with_reducible refine (State.setLq_teams ..).trans ?_ | with_reducible refine (State.homeRead_teams ..).trans ?_ | with_reducible refine (State.ctlWrite_teams ..).trans ?_ | split | extract_lets | dsimp +zetaDelta only)
@[simp] theorem State.headOf_teams (s : State) (q : Nat) : (State.headOf s q).teams = s.teams := by
  unfold State.headOf
  repeat' (first | with_reducible rfl | with_reducible refine (State.advanceHead_teams ..).trans ?_)
@[simp] theorem State.updPrio_teams (s : State) : (State.updPrio s).teams = s.teams := by
  unfold State.updPrio
  rfl
@[simp] theorem State.makeEntry_teams (s : State) (b : List Byte) (pa : Nat) (q : Option Nat) (seq : Nat) (m : Option Nat) (st : LState) (child : Bool) : (State.makeEntry s b pa q seq m st child).teams = s.teams := by
  unfold State.makeEntry
  repeat' (first | with_reducible rfl | with_reducible refine (State.updPrio_teams ..).trans ?_)
@[simp] theorem State.noteRefused_teams (s : State) (b : List Byte) (reason : Nat) : (State.noteRefused s b reason).teams = s.teams := by
  unfold State.noteRefused
  repeat' (first | with_reducible rfl | split | extract_lets)
@[simp] theorem State.endStanding_teams (s : State) (m : Nat) : (State.endStanding s m).teams = s.teams := by
  unfold State.endStanding
  repeat' (first | with_reducible rfl | with_reducible refine (State.discardBins_teams ..).trans ?_ | with_reducible refine (State.setLaunch_teams ..).trans ?_ | split | extract_lets)
@[simp] theorem State.reapWaves_teams (s : State) : (State.reapWaves s).teams = s.teams := by
  unfold State.reapWaves
  rfl
@[simp] theorem State.leaveGroup_teams (s : State) (g id : Nat) : (State.leaveGroup s g id).teams = s.teams := by
  unfold State.leaveGroup
  repeat' (first | with_reducible rfl | split)
@[simp] theorem State.dropStreams_teams (s : State) (id : Nat) : (State.dropStreams s id).teams = s.teams := by
  unfold State.dropStreams
  repeat' (first | with_reducible rfl | with_reducible refine (State.setCore_teams ..).trans ?_ | with_reducible refine Eq.trans (foldl_same State.teams ?_ _ _) ?_ | with_reducible intro _)
@[simp] theorem State.firstPlaced_teams (s : State) (l : Launch) : (State.firstPlaced s l).teams = s.teams := by
  unfold State.firstPlaced
  repeat' (first | with_reducible rfl | with_reducible refine (State.statusWrite_teams ..).trans ?_ | split)
@[simp] theorem State.beginVacate_teams (s : State) (asked : List Nat) (why : Nat) : (State.beginVacate s asked why).teams = s.teams := by
  unfold State.beginVacate
  repeat' (first | with_reducible rfl | with_reducible refine (State.setCore_teams ..).trans ?_ | with_reducible refine Eq.trans (foldl_same State.teams ?_ _ _) ?_ | with_reducible intro _)
@[simp] theorem State.vacateCommand_teams (s : State) : (State.vacateCommand s).teams = s.teams := by
  unfold State.vacateCommand
  repeat' (first | with_reducible rfl | with_reducible refine (State.beginVacate_teams ..).trans ?_)
@[simp] theorem State.saveErrors_teams (s : State) (id : Nat) (t : Team) : (State.saveErrors s id t).teams = s.teams := by
  unfold State.saveErrors
  repeat' (first | with_reducible rfl | with_reducible refine (State.count_teams ..).trans ?_ | split | extract_lets)
@[simp] theorem State.expire_teams (s : State) : (State.expire s).teams = s.teams := by
  unfold State.expire
  repeat' (first | with_reducible rfl | with_reducible refine (State.beginVacate_teams ..).trans ?_ | split)
@[simp] theorem State.judgeCore_teams (s : State) (core : Nat) (whole : Bool) : (State.judgeCore s core whole).teams = s.teams := by
  unfold State.judgeCore
  repeat' (first | with_reducible rfl | with_reducible refine (State.setCore_teams ..).trans ?_)
@[simp] theorem State.powerHold_teams (s : State) (mean : Nat) : (State.powerHold s mean).teams = s.teams := by
  unfold State.powerHold
  repeat' (first | with_reducible rfl | with_reducible refine (State.setCore_teams ..).trans ?_ | split)
@[simp] theorem State.setPower_teams (s : State) (st : PowerStore) (p : PowerState) : (State.setPower s st p).teams = s.teams := by
  unfold State.setPower
  repeat' (first | with_reducible rfl | with_reducible refine (State.setDie_teams ..).trans ?_ | with_reducible refine (State.setCore_teams ..).trans ?_ | split)
@[simp] theorem State.setDbgHold_teams (s : State) (st : PowerStore) (x : Bool) : (State.setDbgHold s st x).teams = s.teams := by
  unfold State.setDbgHold
  repeat' (first | with_reducible rfl | with_reducible refine (State.setDie_teams ..).trans ?_ | with_reducible refine (State.setCore_teams ..).trans ?_ | split)
@[simp] theorem State.startTlbinv_teams (s : State) : (State.startTlbinv s).teams = s.teams := by
  unfold State.startTlbinv
  repeat' (first | with_reducible rfl | with_reducible refine (State.setWin_teams ..).trans ?_ | split)
@[simp] theorem State.startVacate_teams (s : State) : (State.startVacate s).teams = s.teams := by
  unfold State.startVacate
  repeat' (first | with_reducible rfl | with_reducible refine (State.setWin_teams ..).trans ?_ | with_reducible refine (State.vacateCommand_teams ..).trans ?_ | split | extract_lets)
@[simp] theorem State.agentStatus_teams (s : State) (n : Nat) : (State.agentStatus s n).teams = s.teams := by
  unfold State.agentStatus
  repeat' (first | with_reducible rfl | with_reducible refine (State.setWin_teams ..).trans ?_)
@[simp] theorem State.wakeColumn_teams (s : State) (core : Nat) : (State.wakeColumn s core).teams = s.teams := by
  unfold State.wakeColumn
  repeat' (first | with_reducible rfl | with_reducible refine (State.setCore_teams ..).trans ?_ | split)
@[simp] theorem State.writeCtxid_teams (s : State) (v : W64) : (State.writeCtxid s v).teams = s.teams := by
  unfold State.writeCtxid
  repeat' (first | with_reducible rfl | with_reducible refine (State.setWin_teams ..).trans ?_ | with_reducible refine (State.setCore_teams ..).trans ?_ | with_reducible refine Eq.trans (foldl_same State.teams ?_ _ _) ?_ | with_reducible intro _ | split)
@[simp] theorem State.writeTslice_teams (s : State) (v : W64) : (State.writeTslice s v).teams = s.teams := by
  unfold State.writeTslice
  repeat' (first | with_reducible rfl | with_reducible refine (State.expire_teams ..).trans ?_ | with_reducible refine (State.setWin_teams ..).trans ?_)
@[simp] theorem State.writeTrapq_teams (s : State) (reg : Nat) (v : W64) : (State.writeTrapq s reg v).teams = s.teams := by
  unfold State.writeTrapq
  repeat' (first | with_reducible rfl | with_reducible refine (State.setWin_teams ..).trans ?_ | with_reducible refine (State.drainReports_teams ..).trans ?_)
@[simp] theorem State.writeEnable_teams (s : State) (q : Nat) (v : W64) : (State.writeEnable s q v).teams = s.teams := by
  unfold State.writeEnable
  repeat' (first | with_reducible rfl | with_reducible refine (State.setLq_teams ..).trans ?_ | split | extract_lets)
@[simp] theorem State.writeQueue_teams (s : State) (q word : Nat) (v : W64) : (State.writeQueue s q word v).teams = s.teams := by
  unfold State.writeQueue
  repeat' (first | with_reducible rfl | with_reducible refine (State.setLq_teams ..).trans ?_ | with_reducible refine (State.writeEnable_teams ..).trans ?_ | split | extract_lets)
@[simp] theorem State.spoilPublish_teams (s : State) (b : Nat) : (State.spoilPublish s b).teams = s.teams := by
  unfold State.spoilPublish
  rfl
@[simp] theorem State.writeBuffer_teams (s : State) (b word : Nat) (v : W64) : (State.writeBuffer s b word v).teams = s.teams := by
  unfold State.writeBuffer
  repeat' (first | with_reducible rfl | with_reducible refine (State.spoilPublish_teams ..).trans ?_ | split | extract_lets | dsimp only | dsimp +zetaDelta only)
@[simp] theorem State.writeTvbase_teams (s : State) (hi : Bool) (v : W64) : (State.writeTvbase s hi v).teams = s.teams := by
  unfold State.writeTvbase
  repeat' (first | with_reducible rfl | with_reducible refine (State.setWin_teams ..).trans ?_)
@[simp] theorem State.writeInv_teams (s : State) (word : Nat) (v : W64) : (State.writeInv s word v).teams = s.teams := by
  unfold State.writeInv
  repeat' (first | with_reducible rfl | with_reducible refine (State.setWin_teams ..).trans ?_ | with_reducible refine (State.startTlbinv_teams ..).trans ?_ | split)
@[simp] theorem State.writeVac_teams (s : State) (word : Nat) (v : W64) : (State.writeVac s word v).teams = s.teams := by
  unfold State.writeVac
  repeat' (first | with_reducible rfl | with_reducible refine (State.setWin_teams ..).trans ?_ | with_reducible refine (State.startVacate_teams ..).trans ?_ | split)
@[simp] theorem State.judgeAll_teams (s : State) : (State.judgeAll s).teams = s.teams := by
  unfold State.judgeAll
  repeat' (first | with_reducible rfl | with_reducible refine (State.judgeCore_teams ..).trans ?_ | with_reducible refine Eq.trans (foldl_same State.teams ?_ _ _) ?_ | with_reducible intro _)
@[simp] theorem State.zeroCounter_teams (s : State) (key : Nat) : (State.zeroCounter s key).teams = s.teams := by
  unfold State.zeroCounter
  repeat' (first | with_reducible rfl | with_reducible refine (State.setCore_teams ..).trans ?_ | split | extract_lets)
@[simp] theorem State.mailWrite_teams (s : State) (word : Nat) (v : W64) : (State.mailWrite s word v).teams = s.teams := by
  unfold State.mailWrite
  repeat' (first | with_reducible rfl | with_reducible refine (State.setCore_teams ..).trans ?_ | with_reducible refine (State.zeroCounter_teams ..).trans ?_ | with_reducible refine (State.setWin_teams ..).trans ?_ | split | extract_lets)
@[simp] theorem State.debugWrite_teams (s : State) (a : Agent) (reg : Nat) (v : W64) : (State.debugWrite s a reg v).teams = s.teams := by
  unfold State.debugWrite
  repeat' (first | with_reducible rfl | with_reducible refine (State.setWave_teams ..).trans ?_ | with_reducible refine (State.setStream_teams ..).trans ?_ | split)
@[simp] theorem State.reply_teams (s : State) (ws : List W64) : (State.reply s ws).teams = s.teams := by
  unfold State.reply
  repeat' (first | with_reducible rfl | with_reducible refine (State.setFred_teams ..).trans ?_ | with_reducible refine (State.vector_teams ..).trans ?_)
@[simp] theorem State.clearChips_teams (s : State) : (State.clearChips s).teams = s.teams := by
  unfold State.clearChips
  rfl
@[simp] theorem State.writeBackAll_teams (s : State) : (State.writeBackAll s).teams = s.teams := by
  unfold State.writeBackAll
  repeat' (first | with_reducible rfl | with_reducible refine (State.colSweep_teams ..).trans ?_ | with_reducible refine Eq.trans (foldl_same State.teams ?_ _ _) ?_ | with_reducible intro _)
@[simp] theorem State.forget_teams (s : State) (a n : Nat) : (State.forget s a n).teams = s.teams := by
  unfold State.forget
  repeat' (first | with_reducible rfl | with_reducible refine (State.dropCopy_teams ..).trans ?_ | with_reducible refine Eq.trans (foldl_same State.teams ?_ _ _) ?_ | with_reducible intro _)
@[simp] theorem State.recallAll_teams (s : State) : (State.recallAll s).teams = s.teams := by
  unfold State.recallAll
  repeat' (first | with_reducible rfl | with_reducible refine (State.recall_teams ..).trans ?_ | with_reducible refine Eq.trans (foldl_same State.teams ?_ _ _) ?_ | with_reducible intro _)
@[simp] theorem State.copyRange_teams (s : State) (src : Mem) (a n b : Nat) : (State.copyRange s src a n b).teams = s.teams := by
  unfold State.copyRange
  repeat' (first | with_reducible rfl | with_reducible refine (State.forget_teams ..).trans ?_)
@[simp] theorem State.upsetL2_teams (s : State) (line : Nat) : (State.upsetL2 s line).teams = s.teams := by
  unfold State.upsetL2
  repeat' (first | with_reducible rfl | with_reducible refine (State.countErr_teams ..).trans ?_ | with_reducible refine (State.setPoison_teams ..).trans ?_ | split)
@[simp] theorem State.upsetCopy_teams (s : State) (c line : Nat) : (State.upsetCopy s c line).teams = s.teams := by
  unfold State.upsetCopy
  repeat' (first | with_reducible rfl | with_reducible refine (State.countErr_teams ..).trans ?_ | with_reducible refine (State.dropCopy_teams ..).trans ?_ | with_reducible refine (State.setPoison_teams ..).trans ?_ | split)
@[simp] theorem State.upsetWord_teams (s : State) (st : Store) (word : Nat) : (State.upsetWord s st word).teams = s.teams := by
  unfold State.upsetWord
  repeat' (first | with_reducible rfl | with_reducible refine (State.upsetChip_teams ..).trans ?_ | with_reducible refine (State.upsetStore_teams ..).trans ?_ | split)
@[simp] theorem State.upsetTile_teams (s : State) (slot word : Nat) : (State.upsetTile s slot word).teams = s.teams := by
  unfold State.upsetTile
  repeat' (first | with_reducible rfl | with_reducible refine (State.setTile_teams ..).trans ?_ | with_reducible refine Eq.trans (foldl_same State.teams ?_ _ _) ?_ | with_reducible intro _ | split)
@[simp] theorem State.upsetRowBuf_teams (s : State) (core word : Nat) : (State.upsetRowBuf s core word).teams = s.teams := by
  unfold State.upsetRowBuf
  repeat' (first | with_reducible rfl | with_reducible refine (State.updStream_teams ..).trans ?_)
@[simp] theorem State.upsetHeld_teams (s : State) (core chain n : Nat) : (State.upsetHeld s core chain n).teams = s.teams := by
  unfold State.upsetHeld
  repeat' (first | with_reducible rfl | with_reducible refine (State.lostRow_teams ..).trans ?_ | with_reducible refine (State.setChain_teams ..).trans ?_ | split | extract_lets)
@[simp] theorem State.upsetTuple_teams (s : State) (h stamp field : Nat) : (State.upsetTuple s h stamp field).teams = s.teams := by
  unfold State.upsetTuple
  repeat' (first | with_reducible rfl | with_reducible refine (State.setSlice_teams ..).trans ?_)
@[simp] theorem State.upset_teams (s : State) (u : Upset) : (State.upset s u).teams = s.teams := by
  unfold State.upset
  repeat' (first | with_reducible rfl | with_reducible refine (State.upsetHeld_teams ..).trans ?_ | with_reducible refine (State.countErr_teams ..).trans ?_ | with_reducible refine (State.upsetTuple_teams ..).trans ?_ | with_reducible refine (State.upsetCol_teams ..).trans ?_ | with_reducible refine (State.setPoison_teams ..).trans ?_ | with_reducible refine (State.upsetWord_teams ..).trans ?_ | with_reducible refine (State.setDie_teams ..).trans ?_ | with_reducible refine (State.upsetTile_teams ..).trans ?_ | with_reducible refine (State.upsetCopy_teams ..).trans ?_ | with_reducible refine (State.setCluster_teams ..).trans ?_ | with_reducible refine (State.setCore_teams ..).trans ?_ | with_reducible refine (State.updWave_teams ..).trans ?_ | with_reducible refine (State.upsetL2_teams ..).trans ?_ | with_reducible refine (State.upsetRowBuf_teams ..).trans ?_ | split | extract_lets)
@[simp] theorem State.seeBad_teams (s : State) (c k : Nat) (w : Wave) (word : W64) : (State.seeBad s c k w word).teams = s.teams := by
  unfold State.seeBad
  repeat' (first | with_reducible rfl | with_reducible refine (State.sawBad_teams ..).trans ?_ | split | extract_lets)


end Sys2Proof.Machine
end

