-- ==== Sys2Proof/Laws/FrameWaves.lean ====
section
/-! SUPPORT. Operations that leave the table of waves of the device as they were. -/

set_option Elab.async false

namespace Sys2Proof.Machine
@[simp] theorem State.countErr_waves (s : State) (die idx : Nat) : (State.countErr s die idx).waves = s.waves := by
  unfold State.countErr
  repeat' (first | with_reducible rfl | with_reducible refine (State.count_waves ..).trans ?_)
@[simp] theorem State.pmcCount_waves (s : State) (core ev n team : Nat) : (State.pmcCount s core ev n team).waves = s.waves := by
  unfold State.pmcCount
  repeat' (first | with_reducible rfl | with_reducible refine (State.setCore_waves ..).trans ?_ | split | extract_lets)
@[simp] theorem State.vector_waves (s : State) (n : Nat) : (State.vector s n).waves = s.waves := by
  unfold State.vector
  rfl
@[simp] theorem State.errorReport_waves (s : State) (code : Nat) : (State.errorReport s code).waves = s.waves := by
  unfold State.errorReport
  rfl
@[simp] theorem State.freshCode_waves (s : State) (st : Store) (rs : List (Nat × Nat)) : (State.freshCode s st rs).waves = s.waves := by
  unfold State.freshCode
  repeat' (first | with_reducible rfl | with_reducible refine (State.count_waves ..).trans ?_ | split | extract_lets | dsimp +zetaDelta only)
@[simp] theorem State.storeWrite_waves (s : State) (st : Store) (a : Nat) (bs : List Byte) : (State.storeWrite s st a bs).waves = s.waves := by
  unfold State.storeWrite
  repeat' (first | with_reducible rfl | with_reducible refine (State.freshCode_waves ..).trans ?_)
@[simp] theorem State.storeClear_waves (s : State) (st : Store) (a n : Nat) : (State.storeClear s st a n).waves = s.waves := by
  unfold State.storeClear
  repeat' (first | with_reducible rfl | with_reducible refine (State.freshCode_waves ..).trans ?_)
@[simp] theorem State.storeFill_waves (s : State) (st : Store) (a n : Nat) (m : Mem) : (State.storeFill s st a n m).waves = s.waves := by
  unfold State.storeFill
  repeat' (first | with_reducible rfl | with_reducible refine (State.storeClear_waves ..).trans ?_)
@[simp] theorem State.upsetStore_waves (s : State) (st : Store) (word : Nat) : (State.upsetStore s st word).waves = s.waves := by
  unfold State.upsetStore
  rfl
@[simp] theorem State.l2Evict_waves (s : State) (line : Nat) : (State.l2Evict s line).waves = s.waves := by
  unfold State.l2Evict
  repeat' (first | with_reducible rfl | split)
@[simp] theorem State.sliceEvict_waves (s : State) (h : Nat) : (State.sliceEvict s h).waves = s.waves := by
  unfold State.sliceEvict
  repeat' (first | with_reducible rfl | with_reducible refine (State.l2Evict_waves ..).trans ?_ | split | extract_lets)
@[simp] theorem State.sliceTrim_waves (s : State) (h spare : Nat) : (State.sliceTrim s h spare).waves = s.waves := by
  unfold State.sliceTrim
  repeat' (first | with_reducible rfl | with_reducible refine (State.sliceEvict_waves ..).trans ?_ | with_reducible refine Eq.trans (foldl_same State.waves ?_ _ _) ?_ | with_reducible intro _)
@[simp] theorem State.needLoop_waves (s : State) (c : Option Nat) (line : Nat) : (State.needLoop s c line).waves = s.waves := by
  unfold State.needLoop
  repeat' (first | with_reducible rfl | split)
@[simp] theorem State.fill_waves (s : State) (line : Nat) : (State.fill s line).waves = s.waves := by
  unfold State.fill
  repeat' (first | with_reducible rfl | with_reducible refine (State.count_waves ..).trans ?_ | with_reducible refine (State.sliceTrim_waves ..).trans ?_ | split)
@[simp] theorem State.dropCopy_waves (s : State) (c line : Nat) : (State.dropCopy s c line).waves = s.waves := by
  unfold State.dropCopy
  repeat' (first | with_reducible rfl | with_reducible refine (State.setCluster_waves ..).trans ?_ | with_reducible refine (State.count_waves ..).trans ?_ | split | extract_lets)
@[simp] theorem State.dropReplicas_waves (s : State) (line : Nat) : (State.dropReplicas s line).waves = s.waves := by
  unfold State.dropReplicas
  repeat' (first | with_reducible rfl | with_reducible refine (State.setCluster_waves ..).trans ?_ | with_reducible refine (State.count_waves ..).trans ?_ | with_reducible refine Eq.trans (foldl_same State.waves ?_ _ _) ?_ | with_reducible intro _ | split | extract_lets)
@[simp] theorem State.combine_waves (s : State) (unit : Nat) (p : Partial) : (State.combine s unit p).waves = s.waves := by
  unfold State.combine
  rfl
@[simp] theorem State.bumpSeq_waves (s : State) (line : Nat) : (State.bumpSeq s line).waves = s.waves := by
  unfold State.bumpSeq
  repeat' (first | with_reducible rfl | with_reducible refine (State.setSlice_waves ..).trans ?_ | with_reducible refine (State.count_waves ..).trans ?_)
@[simp] theorem State.recallFrom_waves (s : State) (line : Nat) (cs : List Nat) : (State.recallFrom s line cs).waves = s.waves := by
  unfold State.recallFrom
  repeat' (first | with_reducible rfl | with_reducible refine (State.bumpSeq_waves ..).trans ?_ | with_reducible refine (State.dropReplicas_waves ..).trans ?_ | with_reducible refine (State.fill_waves ..).trans ?_ | with_reducible refine (State.dropCopy_waves ..).trans ?_ | with_reducible refine (State.combine_waves ..).trans ?_ | with_reducible refine (State.count_waves ..).trans ?_ | with_reducible refine Eq.trans (foldl_same State.waves ?_ _ _) ?_ | with_reducible intro _ | split | extract_lets)
@[simp] theorem State.recall_waves (s : State) (line : Nat) : (State.recall s line).waves = s.waves := by
  unfold State.recall
  repeat' (first | with_reducible rfl | with_reducible refine (State.recallFrom_waves ..).trans ?_)
@[simp] theorem State.dropOthers_waves (s : State) (line : Nat) (writer : Option Nat) : (State.dropOthers s line writer).waves = s.waves := by
  unfold State.dropOthers
  repeat' (first | with_reducible rfl | with_reducible refine (State.dropReplicas_waves ..).trans ?_ | with_reducible refine (State.setCluster_waves ..).trans ?_ | with_reducible refine (State.dropCopy_waves ..).trans ?_ | with_reducible refine Eq.trans (foldl_same State.waves ?_ _ _) ?_ | with_reducible intro _ | split)
@[simp] theorem State.grantOwned_waves (s : State) (c line : Nat) : (State.grantOwned s c line).waves = s.waves := by
  unfold State.grantOwned
  repeat' (first | with_reducible rfl | with_reducible refine (State.setCluster_waves ..).trans ?_ | split)
@[simp] theorem State.homeWriteCells_waves (s : State) (line : Nat) (cs : List Host.Cell) (writer : Option Nat) : (State.homeWriteCells s line cs writer).waves = s.waves := by
  unfold State.homeWriteCells
  repeat' (first | with_reducible rfl | with_reducible refine (State.fill_waves ..).trans ?_ | with_reducible refine (State.needLoop_waves ..).trans ?_ | with_reducible refine (State.recall_waves ..).trans ?_ | with_reducible refine (State.dropOthers_waves ..).trans ?_ | with_reducible refine (State.bumpSeq_waves ..).trans ?_ | split)
@[simp] theorem State.homeWriteBytes_waves (s : State) (pa : Nat) (bs : List Byte) (writer : Option Nat) : (State.homeWriteBytes s pa bs writer).waves = s.waves := by
  unfold State.homeWriteBytes
  repeat' (first | with_reducible rfl | with_reducible refine (State.homeWriteCells_waves ..).trans ?_ | with_reducible refine Eq.trans (foldl_same State.waves ?_ _ _) ?_ | with_reducible intro _ | split)
@[simp] theorem State.homeTouch_waves (s : State) (line : Nat) : (State.homeTouch s line).waves = s.waves := by
  unfold State.homeTouch
  repeat' (first | with_reducible rfl | with_reducible refine (State.fill_waves ..).trans ?_ | with_reducible refine (State.count_waves ..).trans ?_ | with_reducible refine (State.recall_waves ..).trans ?_)
@[simp] theorem State.setPoison_waves (s : State) (line : Nat) : (State.setPoison s line).waves = s.waves := by
  unfold State.setPoison
  repeat' (first | with_reducible rfl | with_reducible refine (State.errorReport_waves ..).trans ?_ | with_reducible refine (State.fill_waves ..).trans ?_ | with_reducible refine (State.countErr_waves ..).trans ?_ | split | extract_lets)
@[simp] theorem State.homeDiscard_waves (s : State) (line : Nat) : (State.homeDiscard s line).waves = s.waves := by
  unfold State.homeDiscard
  repeat' (first | with_reducible rfl | with_reducible refine (State.recall_waves ..).trans ?_ | with_reducible refine (State.dropCopy_waves ..).trans ?_ | with_reducible refine (State.dropOthers_waves ..).trans ?_ | with_reducible refine (State.bumpSeq_waves ..).trans ?_ | with_reducible refine Eq.trans (foldl_same State.waves ?_ _ _) ?_ | with_reducible intro _)
@[simp] theorem State.colClean_waves (s : State) (core line : Nat) : (State.colClean s core line).waves = s.waves := by
  unfold State.colClean
  repeat' (first | with_reducible rfl | with_reducible refine (State.pmcCount_waves ..).trans ?_ | with_reducible refine (State.dropCopy_waves ..).trans ?_ | with_reducible refine (State.setCol_waves ..).trans ?_ | with_reducible refine (State.grantOwned_waves ..).trans ?_ | with_reducible refine (State.homeWriteCells_waves ..).trans ?_ | with_reducible refine (State.countErr_waves ..).trans ?_ | with_reducible refine (State.setPoison_waves ..).trans ?_ | split)
@[simp] theorem State.colCleanWord_waves (s : State) (core line word : Nat) : (State.colCleanWord s core line word).waves = s.waves := by
  unfold State.colCleanWord
  repeat' (first | with_reducible rfl | with_reducible refine (State.setCol_waves ..).trans ?_ | with_reducible refine (State.homeWriteCells_waves ..).trans ?_ | split | extract_lets)
@[simp] theorem State.colEvict_waves (s : State) (core line : Nat) : (State.colEvict s core line).waves = s.waves := by
  unfold State.colEvict
  repeat' (first | with_reducible rfl | with_reducible refine (State.dropCol_waves ..).trans ?_ | with_reducible refine (State.colClean_waves ..).trans ?_)
@[simp] theorem State.colSweep_waves (s : State) (core : Nat) (p : ColLine → Bool) (inv : Bool) : (State.colSweep s core p inv).waves = s.waves := by
  unfold State.colSweep
  repeat' (first | with_reducible rfl | with_reducible refine (State.colClean_waves ..).trans ?_ | with_reducible refine (State.colEvict_waves ..).trans ?_ | with_reducible refine Eq.trans (foldl_same State.waves ?_ _ _) ?_ | with_reducible intro _ | split)
@[simp] theorem State.columnRelease_waves (s : State) (paired : Bool) (scope core : Nat) : (State.columnRelease s paired scope core).waves = s.waves := by
  unfold State.columnRelease
  repeat' (first | with_reducible rfl | with_reducible refine (State.colSweep_waves ..).trans ?_ | split)
@[simp] theorem State.columnAcquire_waves (s : State) (paired : Bool) (scope core : Nat) : (State.columnAcquire s paired scope core).waves = s.waves := by
  unfold State.columnAcquire
  repeat' (first | with_reducible rfl | with_reducible refine (State.colSweep_waves ..).trans ?_ | split)
@[simp] theorem State.colEvictOne_waves (s : State) (core : Nat) : (State.colEvictOne s core).waves = s.waves := by
  unfold State.colEvictOne
  repeat' (first | with_reducible rfl | with_reducible refine (State.colEvict_waves ..).trans ?_ | split | extract_lets)
@[simp] theorem State.colMakeRoom_waves (s : State) (core line : Nat) : (State.colMakeRoom s core line).waves = s.waves := by
  unfold State.colMakeRoom
  repeat' (first | with_reducible rfl | with_reducible refine (State.colEvictOne_waves ..).trans ?_ | split)
@[simp] theorem State.colStore_waves (s : State) (core pa : Nat) (bs : List Byte) (uo : Bool) : (State.colStore s core pa bs uo).waves = s.waves := by
  unfold State.colStore
  repeat' (first | with_reducible rfl | with_reducible refine (State.colMakeRoom_waves ..).trans ?_ | with_reducible refine (State.count_waves ..).trans ?_ | with_reducible refine (State.setCol_waves ..).trans ?_ | split)
@[simp] theorem State.colFill_waves (s : State) (core line : Nat) (uo : Bool) : (State.colFill s core line uo).waves = s.waves := by
  unfold State.colFill
  repeat' (first | with_reducible rfl | with_reducible refine (State.colMakeRoom_waves ..).trans ?_ | with_reducible refine (State.setCol_waves ..).trans ?_)
@[simp] theorem State.upsetCol_waves (s : State) (core line word : Nat) : (State.upsetCol s core line word).waves = s.waves := by
  unfold State.upsetCol
  repeat' (first | with_reducible rfl | with_reducible refine (State.setCol_waves ..).trans ?_ | split)
@[simp] theorem State.clusterMakeRoom_waves (s : State) (c : Nat) : (State.clusterMakeRoom s c).waves = s.waves := by
  unfold State.clusterMakeRoom
  repeat' (first | with_reducible rfl | with_reducible refine (State.recall_waves ..).trans ?_ | with_reducible refine (State.dropCopy_waves ..).trans ?_ | split | extract_lets)
@[simp] theorem State.takeCopy_waves (s : State) (c line : Nat) (x : CLine) : (State.takeCopy s c line x).waves = s.waves := by
  unfold State.takeCopy
  repeat' (first | with_reducible rfl | with_reducible refine (State.setCluster_waves ..).trans ?_ | with_reducible refine (State.clusterMakeRoom_waves ..).trans ?_)
@[simp] theorem State.shareLine_waves (s : State) (line : Nat) : (State.shareLine s line).waves = s.waves := by
  unfold State.shareLine
  repeat' (first | with_reducible rfl | with_reducible refine (State.setCluster_waves ..).trans ?_ | with_reducible refine Eq.trans (foldl_same State.waves ?_ _ _) ?_ | with_reducible intro _)
@[simp] theorem State.installCopy_waves (s : State) (c line : Nat) (pf : Bool) (peer : Option Nat) : (State.installCopy s c line pf peer).waves = s.waves := by
  unfold State.installCopy
  repeat' (first | with_reducible rfl | with_reducible refine (State.shareLine_waves ..).trans ?_ | with_reducible refine (State.setCluster_waves ..).trans ?_ | with_reducible refine (State.takeCopy_waves ..).trans ?_ | split | extract_lets)
@[simp] theorem State.clusterLookup_waves (s : State) (c line : Nat) : (State.clusterLookup s c line).waves = s.waves := by
  unfold State.clusterLookup
  repeat' (first | with_reducible rfl | with_reducible refine (State.installCopy_waves ..).trans ?_ | with_reducible refine (State.count_waves ..).trans ?_ | split)
@[simp] theorem State.learnPeer_waves (s : State) (c line : Nat) : (State.learnPeer s c line).waves = s.waves := by
  unfold State.learnPeer
  repeat' (first | with_reducible rfl | with_reducible refine (State.setCluster_waves ..).trans ?_ | split)
@[simp] theorem State.pushReplicas_waves (s : State) (line : Nat) : (State.pushReplicas s line).waves = s.waves := by
  unfold State.pushReplicas
  repeat' (first | with_reducible rfl | with_reducible refine (State.count_waves ..).trans ?_ | with_reducible refine (State.sliceTrim_waves ..).trans ?_ | with_reducible refine Eq.trans (foldl_same State.waves ?_ _ _) ?_ | with_reducible intro _)
@[simp] theorem State.repeaterCount_waves (s : State) (c line : Nat) : (State.repeaterCount s c line).waves = s.waves := by
  unfold State.repeaterCount
  repeat' (first | with_reducible rfl | with_reducible refine (State.setCluster_waves ..).trans ?_ | with_reducible refine (State.setSlice_waves ..).trans ?_ | with_reducible refine (State.pushReplicas_waves ..).trans ?_ | with_reducible refine Eq.trans (foldl_same State.waves ?_ _ _) ?_ | with_reducible intro _ | split | extract_lets)
@[simp] theorem State.homeServe_waves (s : State) (c : Option Nat) (line : Nat) : (State.homeServe s c line).waves = s.waves := by
  unfold State.homeServe
  repeat' (first | with_reducible rfl | with_reducible refine (State.repeaterCount_waves ..).trans ?_ | with_reducible refine (State.homeTouch_waves ..).trans ?_ | with_reducible refine (State.needLoop_waves ..).trans ?_ | with_reducible refine (State.learnPeer_waves ..).trans ?_ | split)
@[simp] theorem State.homeReadBytes_waves (s : State) (c : Option Nat) (pa n : Nat) : (State.homeReadBytes s c pa n).1.waves = s.waves := by
  unfold State.homeReadBytes
  repeat' (first | with_reducible rfl | with_reducible refine (State.homeServe_waves ..).trans ?_ | with_reducible refine Eq.trans (foldl_same State.waves ?_ _ _) ?_ | with_reducible intro _)
@[simp] theorem State.homeAnswer_waves (s : State) (c line : Nat) (pf : Bool) : (State.homeAnswer s c line pf).1.waves = s.waves := by
  unfold State.homeAnswer
  repeat' (first | with_reducible rfl | with_reducible refine (State.homeServe_waves ..).trans ?_ | with_reducible refine (State.installCopy_waves ..).trans ?_ | split | extract_lets)
@[simp] theorem State.redirectedRead_waves (s : State) (c line helper : Nat) (pf : Bool) : (State.redirectedRead s c line helper pf).1.waves = s.waves := by
  unfold State.redirectedRead
  repeat' (first | with_reducible rfl | with_reducible refine (State.homeAnswer_waves ..).trans ?_ | with_reducible refine (State.installCopy_waves ..).trans ?_ | with_reducible refine (State.setCluster_waves ..).trans ?_ | with_reducible refine (State.count_waves ..).trans ?_ | split | extract_lets)
@[simp] theorem State.probePeer_waves (s : State) (c line p : Nat) (pf : Bool) : (State.probePeer s c line p pf).1.waves = s.waves := by
  unfold State.probePeer
  split <;> (try split) <;> simp [State.probePeer.clearAndAsk]
@[simp] theorem State.serveLine_waves (s : State) (c line : Nat) (plain pf : Bool) : (State.serveLine s c line plain pf).1.waves = s.waves := by
  unfold State.serveLine
  dsimp only
  repeat' (first | with_reducible refine (State.redirectedRead_waves ..).trans ?_ | with_reducible refine (State.probePeer_waves ..).trans ?_ | with_reducible refine (State.homeAnswer_waves ..).trans ?_ | with_reducible rfl | split)
@[simp] theorem State.takeMiss_waves (s : State) (c line : Nat) (who : Nat × Nat) : (State.takeMiss s c line who).waves = s.waves := by
  unfold State.takeMiss
  repeat' (first | with_reducible rfl | with_reducible refine (State.setCluster_waves ..).trans ?_ | with_reducible refine (State.count_waves ..).trans ?_ | split | extract_lets)
@[simp] theorem State.takePrefetch_waves (s : State) (c line : Nat) : (State.takePrefetch s c line).waves = s.waves := by
  unfold State.takePrefetch
  repeat' (first | with_reducible rfl | with_reducible refine (State.setCluster_waves ..).trans ?_ | with_reducible refine (State.count_waves ..).trans ?_ | split | extract_lets)
@[simp] theorem State.endMiss_waves (s : State) (c line : Nat) (who : Nat × Nat) : (State.endMiss s c line who).waves = s.waves := by
  unfold State.endMiss
  repeat' (first | with_reducible rfl | with_reducible refine (State.setCluster_waves ..).trans ?_)
@[simp] theorem State.endEntry_waves (s : State) (c line : Nat) : (State.endEntry s c line).waves = s.waves := by
  unfold State.endEntry
  repeat' (first | with_reducible rfl | with_reducible refine (State.setCluster_waves ..).trans ?_ | split | extract_lets)
@[simp] theorem State.passMiss_waves (s : State) (c line : Nat) (who : Nat × Nat) : (State.passMiss s c line who).waves = s.waves := by
  unfold State.passMiss
  repeat' (first | with_reducible rfl | with_reducible refine (State.takeMiss_waves ..).trans ?_ | split)
@[simp] theorem State.commitWalk_waves (s : State) (va : W64) : (State.commitWalk s va).waves = s.waves := by
  unfold State.commitWalk
  repeat' (first | with_reducible rfl | with_reducible refine (State.homeTouch_waves ..).trans ?_ | with_reducible refine Eq.trans (foldl_same State.waves ?_ _ _) ?_ | with_reducible intro _ | split)
@[simp] theorem State.noteWalk_waves (s : State) (t : TlbEntry) : (State.noteWalk s t).waves = s.waves := by
  unfold State.noteWalk
  repeat' (first | with_reducible rfl | split)
@[simp] theorem State.endWalk_waves (s : State) (d : Nat) (va : W64) : (State.endWalk s d va).waves = s.waves := by
  unfold State.endWalk
  repeat' (first | with_reducible rfl | with_reducible refine (State.commitWalk_waves ..).trans ?_ | with_reducible refine (State.setDie_waves ..).trans ?_ | with_reducible refine (State.noteWalk_waves ..).trans ?_ | split | extract_lets | dsimp only | dsimp +zetaDelta only)
@[simp] theorem State.leaveWalk_waves (s : State) (d : Nat) (va : W64) : (State.leaveWalk s d va).waves = s.waves := by
  unfold State.leaveWalk
  repeat' (first | with_reducible rfl | with_reducible refine (State.setDie_waves ..).trans ?_)
@[simp] theorem State.walkFill_waves (s : State) (d : Nat) (va : W64) : (State.walkFill s d va).waves = s.waves := by
  unfold State.walkFill
  repeat' (first | with_reducible rfl | with_reducible refine (State.count_waves ..).trans ?_ | with_reducible refine (State.leaveWalk_waves ..).trans ?_ | with_reducible refine (State.endWalk_waves ..).trans ?_ | split | extract_lets)
@[simp] theorem State.touchShared_waves (s : State) (d : Nat) (va : W64) : (State.touchShared s d va).waves = s.waves := by
  unfold State.touchShared
  repeat' (first | with_reducible rfl | with_reducible refine (State.count_waves ..).trans ?_ | with_reducible refine (State.walkFill_waves ..).trans ?_ | split)
@[simp] theorem State.takeLeaf_waves (s : State) (cl : Nat) (va : W64) : (State.takeLeaf s cl va).waves = s.waves := by
  unfold State.takeLeaf
  repeat' (first | with_reducible rfl | with_reducible refine (State.setCluster_waves ..).trans ?_ | split)
@[simp] theorem State.touchTlb_waves (s : State) (cl : Nat) (va : W64) : (State.touchTlb s cl va).waves = s.waves := by
  unfold State.touchTlb
  repeat' (first | with_reducible rfl | with_reducible refine (State.touchShared_waves ..).trans ?_ | with_reducible refine (State.count_waves ..).trans ?_ | with_reducible refine (State.takeLeaf_waves ..).trans ?_ | split)
@[simp] theorem State.queueFor_waves (s : State) (x : Lack) : (State.queueFor s x).waves = s.waves := by
  unfold State.queueFor
  repeat' (first | with_reducible rfl | with_reducible refine (State.count_waves ..).trans ?_ | with_reducible refine (State.takeMiss_waves ..).trans ?_ | with_reducible refine (State.setDie_waves ..).trans ?_ | split | extract_lets)
@[simp] theorem State.idemLost_waves (s : State) (team : Nat) : (State.idemLost s team).waves = s.waves := by
  unfold State.idemLost
  repeat' (first | with_reducible rfl | with_reducible refine (State.updTeam_waves ..).trans ?_)
@[simp] theorem State.drainReports_waves (n : Nat) (s : State) : (State.drainReports n s).waves = s.waves := by
  induction n generalizing s with
  | zero => rfl
  | succ n ih =>
    unfold State.drainReports
    repeat' (first | with_reducible rfl | with_reducible refine (ih ..).trans ?_ | with_reducible refine (State.columnRelease_waves ..).trans ?_ | with_reducible refine (State.errorReport_waves ..).trans ?_ | with_reducible refine (State.homeWriteBytes_waves ..).trans ?_ | with_reducible refine (State.touchTlb_waves ..).trans ?_ | with_reducible refine (State.vector_waves ..).trans ?_ | split | extract_lets | dsimp only | dsimp +zetaDelta only)
@[simp] theorem State.report_waves (s : State) (r : Report) : (State.report s r).waves = s.waves := by
  unfold State.report
  repeat' (first | with_reducible rfl | with_reducible refine (State.drainReports_waves ..).trans ?_ | split | extract_lets)
@[simp] theorem State.vectorRead_waves (s : State) (core cause : Nat) : (State.vectorRead s core cause).waves = s.waves := by
  unfold State.vectorRead
  repeat' (first | with_reducible rfl | with_reducible refine (State.homeTouch_waves ..).trans ?_ | with_reducible refine (State.touchTlb_waves ..).trans ?_ | split | extract_lets)
@[simp] theorem State.launchFault_waves (s : State) (team : Nat) (cause : Nat) : (State.launchFault s team cause).waves = s.waves := by
  unfold State.launchFault
  repeat' (first | with_reducible rfl | with_reducible refine (State.updLaunch_waves ..).trans ?_)
@[simp] theorem State.deferSaved_waves (s : State) (core slot team : Nat) (r : PendRec) : (State.deferSaved s core slot team r).waves = s.waves := by
  unfold State.deferSaved
  repeat' (first | with_reducible rfl | with_reducible refine (State.updLaunch_waves ..).trans ?_ | with_reducible refine (State.countErr_waves ..).trans ?_ | with_reducible refine (State.launchFault_waves ..).trans ?_ | split)
@[simp] theorem State.setBarrier_waves (s : State) (team lvl id : Nat) (b : Barrier) : (State.setBarrier s team lvl id b).waves = s.waves := by
  unfold State.setBarrier
  repeat' (first | with_reducible rfl | with_reducible refine (State.updLaunch_waves ..).trans ?_ | with_reducible refine (State.setTeam_waves ..).trans ?_ | split)
@[simp] theorem State.leaveBarriers_waves (s : State) (team local_ : Nat) : (State.leaveBarriers s team local_).waves = s.waves := by
  unfold State.leaveBarriers
  repeat' (first | with_reducible rfl | with_reducible refine (State.updLaunch_waves ..).trans ?_ | with_reducible refine (State.setTeam_waves ..).trans ?_ | split)
@[simp] theorem State.retireFrame_waves (s : State) (die : Nat) (frame : W64) : (State.retireFrame s die frame).waves = s.waves := by
  unfold State.retireFrame
  repeat' (first | with_reducible rfl | with_reducible refine (State.setTile_waves ..).trans ?_ | with_reducible refine (State.setDie_waves ..).trans ?_ | with_reducible refine Eq.trans (foldl_same State.waves ?_ _ _) ?_ | with_reducible intro _ | split | extract_lets)
@[simp] theorem State.unrefTile_waves (s : State) (t : Nat) : (State.unrefTile s t).waves = s.waves := by
  unfold State.unrefTile
  repeat' (first | with_reducible rfl | with_reducible refine (State.setTile_waves ..).trans ?_ | with_reducible refine (State.retireFrame_waves ..).trans ?_ | split | extract_lets)
@[simp] theorem State.stepStream_waves (s : State) (core : Nat) (m : Stream) : (State.stepStream s core m).waves = s.waves := by
  unfold State.stepStream
  repeat' (first | with_reducible rfl | with_reducible refine (State.setStream_waves ..).trans ?_ | with_reducible refine (State.leaveBarriers_waves ..).trans ?_ | split | extract_lets)
@[simp] theorem State.endStream_waves (s : State) (core : Nat) (m : Stream) : (State.endStream s core m).waves = s.waves := by
  unfold State.endStream
  repeat' (first | with_reducible rfl | with_reducible refine (State.stepStream_waves ..).trans ?_)
@[simp] theorem State.spadWrite_waves (s : State) (t : Team) (off : Nat) (bs : List Byte) : (State.spadWrite s t off bs).waves = s.waves := by
  unfold State.spadWrite
  repeat' (first | with_reducible rfl | with_reducible refine (State.storeWrite_waves ..).trans ?_)
@[simp] theorem State.msResume_waves (s : State) (core : Nat) (m : Stream) (v : Nat) : (State.msResume s core m v).waves = s.waves := by
  unfold State.msResume
  repeat' (first | with_reducible rfl | with_reducible refine (State.setStream_waves ..).trans ?_ | with_reducible refine (State.endStream_waves ..).trans ?_ | split)
@[simp] theorem State.touchAll_waves (s : State) (core : Nat) (lvl : Level) (vas : List W64) : (State.touchAll s core lvl vas).waves = s.waves := by
  unfold State.touchAll
  repeat' (first | with_reducible rfl | with_reducible refine (State.touchTlb_waves ..).trans ?_ | with_reducible refine Eq.trans (foldl_same State.waves ?_ _ _) ?_ | with_reducible intro _ | split)
@[simp] theorem State.touchFault_waves (s : State) (core : Nat) (va : W64) (e : XErr) : (State.touchFault s core va e).waves = s.waves := by
  unfold State.touchFault
  repeat' (first | with_reducible rfl | with_reducible refine (State.touchTlb_waves ..).trans ?_ | split)
@[simp] theorem State.prefetch_waves (s : State) (cl : Nat) (va : W64) : (State.prefetch s cl va).waves = s.waves := by
  unfold State.prefetch
  repeat' (first | with_reducible rfl | with_reducible refine (State.count_waves ..).trans ?_ | with_reducible refine (State.takePrefetch_waves ..).trans ?_ | with_reducible refine (State.touchTlb_waves ..).trans ?_ | split)
@[simp] theorem State.dropWatch_waves (s : State) (team : Nat) : (State.dropWatch s team).waves = s.waves := by
  unfold State.dropWatch
  rfl
@[simp] theorem State.classified_waves (s : State) (t : Nat) : (State.classified s t).waves = s.waves := by
  unfold State.classified
  repeat' (first | with_reducible rfl | with_reducible refine (State.unrefTile_waves ..).trans ?_ | with_reducible refine (State.setTile_waves ..).trans ?_ | split | extract_lets)
@[simp] theorem State.classifiedAll_waves (s : State) (es : List BinEntry) : (State.classifiedAll s es).waves = s.waves := by
  unfold State.classifiedAll
  repeat' (first | with_reducible rfl | with_reducible refine (State.classified_waves ..).trans ?_ | with_reducible refine Eq.trans (foldl_same State.waves ?_ _ _) ?_ | with_reducible intro _)
@[simp] theorem State.binPut_waves (die m : Nat) (s : State) (e : BinEntry) : (State.binPut die m s e).waves = s.waves := by
  unfold State.binPut
  repeat' (first | with_reducible rfl | with_reducible refine (State.setDie_waves ..).trans ?_ | with_reducible refine (State.storeWrite_waves ..).trans ?_ | split | extract_lets)
@[simp] theorem State.upsetChip_waves (s : State) (word : Nat) : (State.upsetChip s word).waves = s.waves := by
  unfold State.upsetChip
  repeat' (first | with_reducible rfl | with_reducible refine (State.upsetStore_waves ..).trans ?_ | with_reducible refine (State.setDie_waves ..).trans ?_)
@[simp] theorem State.binAppend_waves (s : State) (die m : Nat) (es : List BinEntry) : (State.binAppend s die m es).waves = s.waves := by
  unfold State.binAppend
  repeat' (first | with_reducible rfl | with_reducible refine (State.count_waves ..).trans ?_ | with_reducible refine (State.binPut_waves ..).trans ?_ | with_reducible refine Eq.trans (foldl_same State.waves ?_ _ _) ?_ | with_reducible intro _ | split)
@[simp] theorem State.placeHits_waves (die : Nat) (s : State) (l : List (Nat × BinEntry)) : ((State.placeHits die s l).1).waves = s.waves := by
  induction l generalizing s with
  | nil => rfl
  | cons a l ih =>
    unfold State.placeHits
    repeat' (first | with_reducible rfl | with_reducible refine (ih ..).trans ?_ | with_reducible refine (State.count_waves ..).trans ?_ | with_reducible refine (State.binAppend_waves ..).trans ?_ | split)
@[simp] theorem State.discardBins_waves (s : State) (m : Nat) : (State.discardBins s m).waves = s.waves := by
  unfold State.discardBins
  repeat' (first | with_reducible rfl | with_reducible refine (State.count_waves ..).trans ?_ | with_reducible refine (State.setDie_waves ..).trans ?_ | with_reducible refine (State.classifiedAll_waves ..).trans ?_ | with_reducible refine Eq.trans (foldl_same State.waves ?_ _ _) ?_ | with_reducible intro _ | split | extract_lets)
@[simp] theorem State.trackMiss_waves (s : State) (cl core line : Nat) : (State.trackMiss s cl core line).waves = s.waves := by
  unfold State.trackMiss
  repeat' (first | with_reducible rfl | with_reducible refine (State.setCluster_waves ..).trans ?_ | with_reducible refine (State.takePrefetch_waves ..).trans ?_ | with_reducible refine Eq.trans (foldl_same State.waves ?_ _ _) ?_ | with_reducible intro _ | split | extract_lets)
@[simp] theorem State.deliverLine_waves (s : State) (core pa n : Nat) (col uo bad : Bool) : (State.deliverLine s core pa n col uo bad).1.waves = s.waves := by
  unfold State.deliverLine
  repeat' (first | with_reducible rfl | with_reducible refine (State.colFill_waves ..).trans ?_ | split)
@[simp] theorem State.readAtOnce_waves (s : State) (core pa n : Nat) (who : Option (Nat × Nat)) (col uo plain : Bool) :
    (State.readAtOnce s core pa n who col uo plain).1.waves = s.waves := by
  unfold State.readAtOnce
  cases who <;> dsimp only <;> split <;>
    simp only [State.deliverLine_waves, State.endMiss_waves, State.serveLine_waves, State.passMiss_waves, State.clusterLookup_waves]
@[simp] theorem State.readThrough_waves (s : State) (core pa n : Nat) (who : Option (Nat × Nat)) : (State.readThrough s core pa n who).1.waves = s.waves := by
  unfold State.readThrough
  repeat' (first | with_reducible rfl | with_reducible refine (State.readAtOnce_waves ..).trans ?_ | with_reducible refine (State.colEvict_waves ..).trans ?_)
@[simp] theorem State.readColumn_waves (s : State) (core team pa n : Nat) (who : Option (Nat × Nat)) (uo : Bool) : (State.readColumn s core team pa n who uo).1.waves = s.waves := by
  unfold State.readColumn
  repeat' (first | with_reducible rfl | with_reducible refine (State.pmcCount_waves ..).trans ?_ | with_reducible refine (State.readAtOnce_waves ..).trans ?_ | with_reducible refine (State.trackMiss_waves ..).trans ?_ | split)
@[simp] theorem State.countColumn_waves (s : State) (core team : Nat) (x : Access) (who : Nat × Nat) (ev : Nat) : (State.countColumn s core team x who ev).waves = s.waves := by
  unfold State.countColumn
  repeat' (first | with_reducible rfl | with_reducible refine (State.pmcCount_waves ..).trans ?_ | split)
@[simp] theorem State.meetCluster_waves (s : State) (core : Nat) (who : Nat) (q : Req) (x : Access) : (State.meetCluster s core who q x).waves = s.waves := by
  unfold State.meetCluster
  repeat' (first | with_reducible rfl | with_reducible refine (State.trackMiss_waves ..).trans ?_ | with_reducible refine (State.clusterLookup_waves ..).trans ?_ | split | extract_lets)
@[simp] theorem State.throughEntry_waves (s : State) (core : Nat) (who : Nat) (q : Req) (x : Access) : (State.throughEntry s core who q x).waves = s.waves := by
  unfold State.throughEntry
  repeat' (first | with_reducible rfl | with_reducible refine (State.takeMiss_waves ..).trans ?_ | with_reducible refine (State.endMiss_waves ..).trans ?_ | split | extract_lets)
@[simp] theorem State.awaitEntry_waves (s : State) (core : Nat) (who : Nat) (q : Req) (x : Access) : (State.awaitEntry s core who q x).waves = s.waves := by
  unfold State.awaitEntry
  repeat' (first | with_reducible rfl | with_reducible refine (State.takeMiss_waves ..).trans ?_ | with_reducible refine (State.meetCluster_waves ..).trans ?_ | split | extract_lets)
@[simp] theorem State.writeHome_waves (s : State) (core who : Nat) (q : Req) (x : Access) (n d : Nat) : (State.writeHome s core who q x n d).waves = s.waves := by
  unfold State.writeHome
  repeat' (first | with_reducible rfl | with_reducible refine (State.throughEntry_waves ..).trans ?_ | with_reducible refine (State.grantOwned_waves ..).trans ?_ | with_reducible refine (State.homeWriteBytes_waves ..).trans ?_ | with_reducible refine (State.meetCluster_waves ..).trans ?_ | split)
@[simp] theorem State.keepFetched_waves (s : State) (core : Nat) (va : W64) : (State.keepFetched s core va).waves = s.waves := by
  unfold State.keepFetched
  repeat' (first | with_reducible rfl | with_reducible refine (State.setCore_waves ..).trans ?_ | with_reducible refine (State.readAtOnce_waves ..).trans ?_ | with_reducible refine (State.touchTlb_waves ..).trans ?_ | with_reducible refine (State.countErr_waves ..).trans ?_ | split | extract_lets)
@[simp] theorem State.keepWords_waves (s : State) (core : Nat) (va : W64) (n : Nat) : (State.keepWords s core va n).waves = s.waves := by
  induction n generalizing s va with
  | zero => rfl
  | succ n ih =>
    unfold State.keepWords
    repeat' (first | with_reducible rfl | with_reducible refine (ih ..).trans ?_ | with_reducible refine (State.keepFetched_waves ..).trans ?_ | split)
@[simp] theorem State.keepClause_waves (s : State) (core : Nat) (h : W64) : (State.keepClause s core h).waves = s.waves := by
  unfold State.keepClause
  repeat' (first | with_reducible rfl | with_reducible refine (State.keepWords_waves ..).trans ?_)
@[simp] theorem State.dropWaits_waves (s : State) (a : Agent) (team : Nat) : (State.dropWaits s a team).waves = s.waves := by
  unfold State.dropWaits
  repeat' (first | with_reducible rfl | with_reducible refine (State.updTeam_waves ..).trans ?_)
@[simp] theorem State.cancelPark_waves (s : State) (w : Wave) : (State.cancelPark s w).waves = s.waves := by
  unfold State.cancelPark
  repeat' (first | with_reducible rfl | split)
@[simp] theorem State.elemWrite_waves (s : State) (t : Team) (c : Chan) (i : W32) (off : Nat) (bs : List Byte) : (State.elemWrite s t c i off bs).waves = s.waves := by
  unfold State.elemWrite
  repeat' (first | with_reducible rfl | with_reducible refine (State.storeWrite_waves ..).trans ?_ | split)
@[simp] theorem State.evictForRows_waves (s : State) (core : Nat) : (State.evictForRows s core).waves = s.waves := by
  unfold State.evictForRows
  repeat' (first | with_reducible rfl | with_reducible refine (State.colEvictOne_waves ..).trans ?_ | with_reducible refine (State.colEvict_waves ..).trans ?_ | with_reducible refine Eq.trans (foldl_same State.waves ?_ _ _) ?_ | with_reducible intro _ | split)
@[simp] theorem State.sendTuple_waves (s : State) (t : TReq) : (State.sendTuple s t).waves = s.waves := by
  unfold State.sendTuple
  rfl
@[simp] theorem State.dropBadTags_waves (s : State) (h bag : Nat) : (State.dropBadTags s h bag).waves = s.waves := by
  unfold State.dropBadTags
  repeat' (first | with_reducible rfl | with_reducible refine (State.count_waves ..).trans ?_ | with_reducible refine (State.setSlice_waves ..).trans ?_ | split | extract_lets)
@[simp] theorem State.parkTuple_waves (s : State) (r : Nat) (t : TReq) : (State.parkTuple s r t).waves = s.waves := by
  unfold State.parkTuple
  repeat' (first | with_reducible rfl | with_reducible refine (State.updTreq_waves ..).trans ?_ | with_reducible refine (State.count_waves ..).trans ?_ | with_reducible refine (State.pmcCount_waves ..).trans ?_ | with_reducible refine (State.setSlice_waves ..).trans ?_ | split | extract_lets)
@[simp] theorem State.tileWrite_waves (s : State) (core slot accf : Nat) (es : List (Nat × Nat × Nat)) : (State.tileWrite s core slot accf es).waves = s.waves := by
  unfold State.tileWrite
  repeat' (first | with_reducible rfl | with_reducible refine (State.freshCode_waves ..).trans ?_ | split)
@[simp] theorem State.engPages_waves (s : State) (cl : Nat) (i : Intent) (ranges : List (W64 × Nat)) : (State.engPages s cl i ranges).1.waves = s.waves := by
  unfold State.engPages
  repeat' (first | with_reducible rfl | with_reducible refine (State.touchTlb_waves ..).trans ?_ | with_reducible refine Eq.trans (foldl_same_fst State.waves ?_ _ _) ?_ | with_reducible intro _ | split | extract_lets)
@[simp] theorem State.engWrite_waves (s : State) (core : Nat) (ps : List EngPage) (va : W64) (bs : List Byte) : (State.engWrite s core ps va bs).waves = s.waves := by
  unfold State.engWrite
  repeat' (first | with_reducible rfl | with_reducible refine (State.colEvict_waves ..).trans ?_ | with_reducible refine (State.homeWriteBytes_waves ..).trans ?_ | with_reducible refine Eq.trans (foldl_same_fst State.waves ?_ _ _) ?_ | with_reducible intro _)
@[simp] theorem State.fireCmd_waves (s : State) (id : Nat) (c : Cmd) (reads writes : List (W64 × Nat)) : (State.fireCmd s id c reads writes).waves = s.waves := by
  unfold State.fireCmd
  repeat' (first | with_reducible rfl | with_reducible refine (State.engPages_waves ..).trans ?_)
@[simp] theorem State.takeOutputs_waves (s : State) (team ch id n : Nat) : (State.takeOutputs s team ch id n).waves = s.waves := by
  unfold State.takeOutputs
  repeat' (first | with_reducible rfl | with_reducible refine (State.updChan_waves ..).trans ?_)
@[simp] theorem State.freeInputs_waves (s : State) (team ch id n : Nat) (keep : Bool) : (State.freeInputs s team ch id n keep).waves = s.waves := by
  unfold State.freeInputs
  repeat' (first | with_reducible rfl | with_reducible refine (State.updChan_waves ..).trans ?_)
@[simp] theorem State.putOutputs_waves (s : State) (c : Cmd) (elems : List (List Byte)) : (State.putOutputs s c elems).waves = s.waves := by
  unfold State.putOutputs
  repeat' (first | with_reducible rfl | with_reducible refine (State.elemWrite_waves ..).trans ?_ | with_reducible refine (State.updChan_waves ..).trans ?_ | with_reducible refine Eq.trans (foldl_same State.waves ?_ _ _) ?_ | with_reducible intro _ | split)
@[simp] theorem State.takeInputs_waves (s : State) (c : Cmd) (chn : Nat) : (State.takeInputs s c chn).1.waves = s.waves := by
  unfold State.takeInputs
  repeat' (first | with_reducible rfl | with_reducible refine (State.countErr_waves ..).trans ?_ | split | extract_lets)
@[simp] theorem State.cpyoutWork_waves (s : State) (c : Cmd) (d : CopyDesc) : (State.cpyoutWork s c d).1.waves = s.waves := by
  unfold State.cpyoutWork
  repeat' (first | with_reducible rfl | with_reducible refine (State.takeInputs_waves ..).trans ?_ | with_reducible refine (State.engWrite_waves ..).trans ?_ | with_reducible refine Eq.trans (foldl_same State.waves ?_ _ _) ?_ | with_reducible intro _ | split | extract_lets)
@[simp] theorem State.takeTag_waves (s : State) (id : Nat) (c : Cmd) : (State.takeTag s id c).waves = s.waves := by
  unfold State.takeTag
  repeat' (first | with_reducible rfl | with_reducible refine (State.pmcCount_waves ..).trans ?_ | split)
@[simp] theorem State.homeRead_waves (s : State) (pa : Nat) : (State.homeRead s pa).waves = s.waves := by
  unfold State.homeRead
  repeat' (first | with_reducible rfl | with_reducible refine (State.homeTouch_waves ..).trans ?_ | split)
@[simp] theorem State.ctlRead_waves (s : State) (q : Nat) : (State.ctlRead s q).waves = s.waves := by
  unfold State.ctlRead
  repeat' (first | with_reducible rfl | with_reducible refine (State.homeRead_waves ..).trans ?_)
@[simp] theorem State.devWrite_waves (s : State) (pa : Nat) (bs : List Byte) : (State.devWrite s pa bs).waves = s.waves := by
  unfold State.devWrite
  repeat' (first | with_reducible rfl | with_reducible refine (State.homeWriteBytes_waves ..).trans ?_ | split)
@[simp] theorem State.ctlWrite_waves (s : State) (q off x : Nat) : (State.ctlWrite s q off x).waves = s.waves := by
  unfold State.ctlWrite
  repeat' (first | with_reducible rfl | with_reducible refine (State.devWrite_waves ..).trans ?_ | with_reducible refine (State.setLq_waves ..).trans ?_)
@[simp] theorem State.addRow_waves (s : State) (core : Nat) (x : Chain) (row : Nat) (data : List W32) : (State.addRow s core x row data).waves = s.waves := by
  unfold State.addRow
  repeat' (first | with_reducible rfl | with_reducible refine (State.tileWrite_waves ..).trans ?_)
@[simp] theorem State.consumePoison_waves (s : State) (core : Nat) (q : QWord) : (State.consumePoison s core q).waves = s.waves := by
  unfold State.consumePoison
  repeat' (first | with_reducible rfl | with_reducible refine (State.setChain_waves ..).trans ?_ | with_reducible refine (State.updStream_waves ..).trans ?_ | with_reducible refine Eq.trans (foldl_same State.waves ?_ _ _) ?_ | with_reducible intro _)
@[simp] theorem State.pushArray_waves (s : State) (core : Nat) (m : Stream) (q : QWord) : (State.pushArray s core m q).waves = s.waves := by
  unfold State.pushArray
  repeat' (first | with_reducible rfl | with_reducible refine (State.setStream_waves ..).trans ?_)
@[simp] theorem State.pushXfer_waves (s : State) (core : Nat) (m : Stream) (q : QWord) : (State.pushXfer s core m q).waves = s.waves := by
  unfold State.pushXfer
  repeat' (first | with_reducible rfl | with_reducible refine (State.setStream_waves ..).trans ?_)
@[simp] theorem State.blockStream_waves (s : State) (core : Nat) (m : Stream) (stage : Nat) : (State.blockStream s core m stage).waves = s.waves := by
  unfold State.blockStream
  repeat' (first | with_reducible rfl | with_reducible refine (State.setStream_waves ..).trans ?_)
@[simp] theorem State.loadRow_waves (s : State) (core : Nat) (t : Team) (c : Chan) (first n : Nat) : (State.loadRow s core t c first n).waves = s.waves := by
  unfold State.loadRow
  repeat' (first | with_reducible rfl | with_reducible refine (State.setCore_waves ..).trans ?_)
@[simp] theorem State.touchAccs_waves (s : State) (core : Nat) (as : List Access) : (State.touchAccs s core as).waves = s.waves := by
  unfold State.touchAccs
  repeat' (first | with_reducible rfl | with_reducible refine (State.touchTlb_waves ..).trans ?_ | with_reducible refine Eq.trans (foldl_same State.waves ?_ _ _) ?_ | with_reducible intro _)
@[simp] theorem State.xferIssue_waves (s : State) (c : Nat) (m : Stream) (q : QWord) : (State.xferIssue s c m q).waves = s.waves := by
  unfold State.xferIssue
  repeat' (first | with_reducible rfl | with_reducible refine (State.pushXfer_waves ..).trans ?_ | with_reducible refine (State.updChan_waves ..).trans ?_ | split)
@[simp] theorem State.unitRead_waves (s : State) (unit core team : Nat) (a : Access) : (State.unitRead s unit core team a).1.waves = s.waves := by
  unfold State.unitRead
  repeat' (first | with_reducible rfl | with_reducible refine (State.readColumn_waves ..).trans ?_ | with_reducible refine (State.readThrough_waves ..).trans ?_ | split)
@[simp] theorem State.streamRead_waves (s : State) (core team : Nat) (a : Access) : (State.streamRead s core team a).1.waves = s.waves := by
  unfold State.streamRead
  repeat' (first | with_reducible rfl | with_reducible refine (State.unitRead_waves ..).trans ?_)
@[simp] theorem State.streamWrite_waves (s : State) (core : Nat) (a : Access) (bs : List Byte) : (State.streamWrite s core a bs).waves = s.waves := by
  unfold State.streamWrite
  repeat' (first | with_reducible rfl | with_reducible refine (State.homeWriteBytes_waves ..).trans ?_ | with_reducible refine (State.colStore_waves ..).trans ?_ | with_reducible refine (State.colEvict_waves ..).trans ?_ | split)
@[simp] theorem State.touchFails_waves (s : State) (core : Nat) (fails : List (Nat × W64 × XErr)) : (State.touchFails s core fails).waves = s.waves := by
  unfold State.touchFails
  repeat' (first | with_reducible rfl | with_reducible refine (State.touchFault_waves ..).trans ?_ | with_reducible refine Eq.trans (foldl_same State.waves ?_ _ _) ?_ | with_reducible intro _)
@[simp] theorem State.countTests_waves (s : State) (c team ev n : Nat) : (State.countTests s c team ev n).waves = s.waves := by
  unfold State.countTests
  repeat' (first | with_reducible rfl | with_reducible refine (State.pmcCount_waves ..).trans ?_ | split)
@[simp] theorem State.freshPix_waves (s : State) (slot p : Nat) (x : Pix) : (State.freshPix s slot p x).waves = s.waves := by
  unfold State.freshPix
  repeat' (first | with_reducible rfl | with_reducible refine (State.setTile_waves ..).trans ?_ | with_reducible refine (State.count_waves ..).trans ?_ | split)
@[simp] theorem State.rasterTile_waves (s : State) (slot : Nat) (id : W64) (v0 v1 v2 : Vert) : (State.rasterTile s slot id v0 v1 v2).waves = s.waves := by
  unfold State.rasterTile
  repeat' (first | with_reducible rfl | with_reducible refine (State.freshPix_waves ..).trans ?_ | with_reducible refine (State.count_waves ..).trans ?_ | with_reducible refine Eq.trans (foldl_same State.waves ?_ _ _) ?_ | with_reducible intro _ | split | extract_lets)
@[simp] theorem State.appendGroups_waves (die slot n : Nat) (s : State) : (State.appendGroups die slot n s).waves = s.waves := by
  induction n generalizing s with
  | zero => rfl
  | succ n ih =>
    unfold State.appendGroups
    repeat' (first | with_reducible rfl | with_reducible refine (ih ..).trans ?_ | with_reducible refine (State.binAppend_waves ..).trans ?_ | with_reducible refine (State.setTile_waves ..).trans ?_ | with_reducible refine (State.count_waves ..).trans ?_ | with_reducible refine (State.classified_waves ..).trans ?_ | split | extract_lets)
@[simp] theorem State.closeBinWave_waves (s : State) (die m : Nat) (l : Nat) (x : Launch) (f : Forming) : (State.closeBinWave s die m l x f).waves = s.waves := by
  unfold State.closeBinWave
  repeat' (first | with_reducible rfl | with_reducible refine (State.setTile_waves ..).trans ?_ | with_reducible refine (State.setDie_waves ..).trans ?_ | with_reducible refine (State.count_waves ..).trans ?_ | with_reducible refine (State.setLaunch_waves ..).trans ?_ | with_reducible refine (State.classifiedAll_waves ..).trans ?_ | with_reducible refine Eq.trans (foldl_same State.waves ?_ _ _) ?_ | with_reducible intro _ | split)
@[simp] theorem State.answerFlit_waves (s : State) (n : Nat) (fl : Flit) (ans : Nat) : (State.answerFlit s n fl ans).waves = s.waves := by
  unfold State.answerFlit
  rfl
@[simp] theorem State.statusWrite_waves (s : State) (pa v : Nat) : (State.statusWrite s pa v).waves = s.waves := by
  unfold State.statusWrite
  repeat' (first | with_reducible rfl | with_reducible refine (State.devWrite_waves ..).trans ?_)
@[simp] theorem State.advanceHead_waves (n : Nat) (s : State) (q : Nat) : (State.advanceHead n s q).waves = s.waves := by
  induction n generalizing s with
  | zero => rfl
  | succ n ih =>
    unfold State.advanceHead
    repeat' (first | with_reducible rfl | with_reducible refine (ih ..).trans ?_ | with_reducible refine (State.setLq_waves ..).trans ?_ | with_reducible refine (State.ctlWrite_waves ..).trans ?_ | with_reducible refine (State.homeRead_waves ..).trans ?_ | split | extract_lets | dsimp +zetaDelta only)
@[simp] theorem State.headOf_waves (s : State) (q : Nat) : (State.headOf s q).waves = s.waves := by
  unfold State.headOf
  repeat' (first | with_reducible rfl | with_reducible refine (State.advanceHead_waves ..).trans ?_)
@[simp] theorem State.updPrio_waves (s : State) : (State.updPrio s).waves = s.waves := by
  unfold State.updPrio
  rfl
@[simp] theorem State.makeEntry_waves (s : State) (b : List Byte) (pa : Nat) (q : Option Nat) (seq : Nat) (m : Option Nat) (st : LState) (child : Bool) : (State.makeEntry s b pa q seq m st child).waves = s.waves := by
  unfold State.makeEntry
  repeat' (first | with_reducible rfl | with_reducible refine (State.updPrio_waves ..).trans ?_)
@[simp] theorem State.noteRefused_waves (s : State) (b : List Byte) (reason : Nat) : (State.noteRefused s b reason).waves = s.waves := by
  unfold State.noteRefused
  repeat' (first | with_reducible rfl | split | extract_lets)
@[simp] theorem State.endStanding_waves (s : State) (m : Nat) : (State.endStanding s m).waves = s.waves := by
  unfold State.endStanding
  repeat' (first | with_reducible rfl | with_reducible refine (State.discardBins_waves ..).trans ?_ | with_reducible refine (State.setLaunch_waves ..).trans ?_ | split | extract_lets)
@[simp] theorem State.leaveGroup_waves (s : State) (g id : Nat) : (State.leaveGroup s g id).waves = s.waves := by
  unfold State.leaveGroup
  repeat' (first | with_reducible rfl | split)
@[simp] theorem State.dropStreams_waves (s : State) (id : Nat) : (State.dropStreams s id).waves = s.waves := by
  unfold State.dropStreams
  repeat' (first | with_reducible rfl | with_reducible refine (State.setCore_waves ..).trans ?_ | with_reducible refine Eq.trans (foldl_same State.waves ?_ _ _) ?_ | with_reducible intro _)
@[simp] theorem State.reapTeam_waves (s : State) (id : Nat) (t : Team) : (State.reapTeam s id t).waves = s.waves := by
  unfold State.reapTeam
  repeat' (first | with_reducible rfl | with_reducible refine (State.dropWatch_waves ..).trans ?_ | with_reducible refine (State.leaveGroup_waves ..).trans ?_ | with_reducible refine (State.updLaunch_waves ..).trans ?_ | with_reducible refine (State.dropStreams_waves ..).trans ?_ | split)
@[simp] theorem State.firstPlaced_waves (s : State) (l : Launch) : (State.firstPlaced s l).waves = s.waves := by
  unfold State.firstPlaced
  repeat' (first | with_reducible rfl | with_reducible refine (State.statusWrite_waves ..).trans ?_ | split)
@[simp] theorem State.beginVacate_waves (s : State) (asked : List Nat) (why : Nat) : (State.beginVacate s asked why).waves = s.waves := by
  unfold State.beginVacate
  repeat' (first | with_reducible rfl | with_reducible refine (State.setCore_waves ..).trans ?_ | with_reducible refine Eq.trans (foldl_same State.waves ?_ _ _) ?_ | with_reducible intro _)
@[simp] theorem State.vacateCommand_waves (s : State) : (State.vacateCommand s).waves = s.waves := by
  unfold State.vacateCommand
  repeat' (first | with_reducible rfl | with_reducible refine (State.beginVacate_waves ..).trans ?_)
@[simp] theorem State.saveErrors_waves (s : State) (id : Nat) (t : Team) : (State.saveErrors s id t).waves = s.waves := by
  unfold State.saveErrors
  repeat' (first | with_reducible rfl | with_reducible refine (State.count_waves ..).trans ?_ | split | extract_lets)
@[simp] theorem State.expire_waves (s : State) : (State.expire s).waves = s.waves := by
  unfold State.expire
  repeat' (first | with_reducible rfl | with_reducible refine (State.beginVacate_waves ..).trans ?_ | split)
@[simp] theorem State.judgeCore_waves (s : State) (core : Nat) (whole : Bool) : (State.judgeCore s core whole).waves = s.waves := by
  unfold State.judgeCore
  repeat' (first | with_reducible rfl | with_reducible refine (State.setCore_waves ..).trans ?_)
@[simp] theorem State.powerHold_waves (s : State) (mean : Nat) : (State.powerHold s mean).waves = s.waves := by
  unfold State.powerHold
  repeat' (first | with_reducible rfl | with_reducible refine (State.setCore_waves ..).trans ?_ | split)
@[simp] theorem State.setPower_waves (s : State) (st : PowerStore) (p : PowerState) : (State.setPower s st p).waves = s.waves := by
  unfold State.setPower
  repeat' (first | with_reducible rfl | with_reducible refine (State.setDie_waves ..).trans ?_ | with_reducible refine (State.setCore_waves ..).trans ?_ | split)
@[simp] theorem State.setDbgHold_waves (s : State) (st : PowerStore) (x : Bool) : (State.setDbgHold s st x).waves = s.waves := by
  unfold State.setDbgHold
  repeat' (first | with_reducible rfl | with_reducible refine (State.setDie_waves ..).trans ?_ | with_reducible refine (State.setCore_waves ..).trans ?_ | split)
@[simp] theorem State.startTlbinv_waves (s : State) : (State.startTlbinv s).waves = s.waves := by
  unfold State.startTlbinv
  repeat' (first | with_reducible rfl | with_reducible refine (State.setWin_waves ..).trans ?_ | split)
@[simp] theorem State.startVacate_waves (s : State) : (State.startVacate s).waves = s.waves := by
  unfold State.startVacate
  repeat' (first | with_reducible rfl | with_reducible refine (State.setWin_waves ..).trans ?_ | with_reducible refine (State.vacateCommand_waves ..).trans ?_ | split | extract_lets)
@[simp] theorem State.agentStatus_waves (s : State) (n : Nat) : (State.agentStatus s n).waves = s.waves := by
  unfold State.agentStatus
  repeat' (first | with_reducible rfl | with_reducible refine (State.setWin_waves ..).trans ?_)
@[simp] theorem State.wakeColumn_waves (s : State) (core : Nat) : (State.wakeColumn s core).waves = s.waves := by
  unfold State.wakeColumn
  repeat' (first | with_reducible rfl | with_reducible refine (State.setCore_waves ..).trans ?_ | split)
@[simp] theorem State.writeCtxid_waves (s : State) (v : W64) : (State.writeCtxid s v).waves = s.waves := by
  unfold State.writeCtxid
  repeat' (first | with_reducible rfl | with_reducible refine (State.setWin_waves ..).trans ?_ | with_reducible refine (State.setCore_waves ..).trans ?_ | with_reducible refine Eq.trans (foldl_same State.waves ?_ _ _) ?_ | with_reducible intro _ | split)
@[simp] theorem State.writeTslice_waves (s : State) (v : W64) : (State.writeTslice s v).waves = s.waves := by
  unfold State.writeTslice
  repeat' (first | with_reducible rfl | with_reducible refine (State.expire_waves ..).trans ?_ | with_reducible refine (State.setWin_waves ..).trans ?_)
@[simp] theorem State.writeTrapq_waves (s : State) (reg : Nat) (v : W64) : (State.writeTrapq s reg v).waves = s.waves := by
  unfold State.writeTrapq
  repeat' (first | with_reducible rfl | with_reducible refine (State.setWin_waves ..).trans ?_ | with_reducible refine (State.drainReports_waves ..).trans ?_)
@[simp] theorem State.writeEnable_waves (s : State) (q : Nat) (v : W64) : (State.writeEnable s q v).waves = s.waves := by
  unfold State.writeEnable
  repeat' (first | with_reducible rfl | with_reducible refine (State.setLq_waves ..).trans ?_ | split | extract_lets)
@[simp] theorem State.writeQueue_waves (s : State) (q word : Nat) (v : W64) : (State.writeQueue s q word v).waves = s.waves := by
  unfold State.writeQueue
  repeat' (first | with_reducible rfl | with_reducible refine (State.setLq_waves ..).trans ?_ | with_reducible refine (State.writeEnable_waves ..).trans ?_ | split | extract_lets)
@[simp] theorem State.spoilPublish_waves (s : State) (b : Nat) : (State.spoilPublish s b).waves = s.waves := by
  unfold State.spoilPublish
  rfl
@[simp] theorem State.writeBuffer_waves (s : State) (b word : Nat) (v : W64) : (State.writeBuffer s b word v).waves = s.waves := by
  unfold State.writeBuffer
  repeat' (first | with_reducible rfl | with_reducible refine (State.spoilPublish_waves ..).trans ?_ | split | extract_lets | dsimp only | dsimp +zetaDelta only)
@[simp] theorem State.writeTvbase_waves (s : State) (hi : Bool) (v : W64) : (State.writeTvbase s hi v).waves = s.waves := by
  unfold State.writeTvbase
  repeat' (first | with_reducible rfl | with_reducible refine (State.setWin_waves ..).trans ?_)
@[simp] theorem State.writeInv_waves (s : State) (word : Nat) (v : W64) : (State.writeInv s word v).waves = s.waves := by
  unfold State.writeInv
  repeat' (first | with_reducible rfl | with_reducible refine (State.setWin_waves ..).trans ?_ | with_reducible refine (State.startTlbinv_waves ..).trans ?_ | split)
@[simp] theorem State.writeVac_waves (s : State) (word : Nat) (v : W64) : (State.writeVac s word v).waves = s.waves := by
  unfold State.writeVac
  repeat' (first | with_reducible rfl | with_reducible refine (State.setWin_waves ..).trans ?_ | with_reducible refine (State.startVacate_waves ..).trans ?_ | split)
@[simp] theorem State.judgeAll_waves (s : State) : (State.judgeAll s).waves = s.waves := by
  unfold State.judgeAll
  repeat' (first | with_reducible rfl | with_reducible refine (State.judgeCore_waves ..).trans ?_ | with_reducible refine Eq.trans (foldl_same State.waves ?_ _ _) ?_ | with_reducible intro _)
@[simp] theorem State.zeroCounter_waves (s : State) (key : Nat) : (State.zeroCounter s key).waves = s.waves := by
  unfold State.zeroCounter
  repeat' (first | with_reducible rfl | with_reducible refine (State.setCore_waves ..).trans ?_ | split | extract_lets)
@[simp] theorem State.mailWrite_waves (s : State) (word : Nat) (v : W64) : (State.mailWrite s word v).waves = s.waves := by
  unfold State.mailWrite
  repeat' (first | with_reducible rfl | with_reducible refine (State.setWin_waves ..).trans ?_ | with_reducible refine (State.zeroCounter_waves ..).trans ?_ | with_reducible refine (State.setCore_waves ..).trans ?_ | split | extract_lets)
@[simp] theorem State.reply_waves (s : State) (ws : List W64) : (State.reply s ws).waves = s.waves := by
  unfold State.reply
  repeat' (first | with_reducible rfl | with_reducible refine (State.setFred_waves ..).trans ?_ | with_reducible refine (State.vector_waves ..).trans ?_)
@[simp] theorem State.clearChips_waves (s : State) : (State.clearChips s).waves = s.waves := by
  unfold State.clearChips
  rfl
@[simp] theorem State.writeBackAll_waves (s : State) : (State.writeBackAll s).waves = s.waves := by
  unfold State.writeBackAll
  repeat' (first | with_reducible rfl | with_reducible refine (State.colSweep_waves ..).trans ?_ | with_reducible refine Eq.trans (foldl_same State.waves ?_ _ _) ?_ | with_reducible intro _)
@[simp] theorem State.forget_waves (s : State) (a n : Nat) : (State.forget s a n).waves = s.waves := by
  unfold State.forget
  repeat' (first | with_reducible rfl | with_reducible refine (State.dropCopy_waves ..).trans ?_ | with_reducible refine Eq.trans (foldl_same State.waves ?_ _ _) ?_ | with_reducible intro _)
@[simp] theorem State.recallAll_waves (s : State) : (State.recallAll s).waves = s.waves := by
  unfold State.recallAll
  repeat' (first | with_reducible rfl | with_reducible refine (State.recall_waves ..).trans ?_ | with_reducible refine Eq.trans (foldl_same State.waves ?_ _ _) ?_ | with_reducible intro _)
@[simp] theorem State.copyRange_waves (s : State) (src : Mem) (a n b : Nat) : (State.copyRange s src a n b).waves = s.waves := by
  unfold State.copyRange
  repeat' (first | with_reducible rfl | with_reducible refine (State.forget_waves ..).trans ?_)
@[simp] theorem State.upsetL2_waves (s : State) (line : Nat) : (State.upsetL2 s line).waves = s.waves := by
  unfold State.upsetL2
  repeat' (first | with_reducible rfl | with_reducible refine (State.countErr_waves ..).trans ?_ | with_reducible refine (State.setPoison_waves ..).trans ?_ | split)
@[simp] theorem State.upsetCopy_waves (s : State) (c line : Nat) : (State.upsetCopy s c line).waves = s.waves := by
  unfold State.upsetCopy
  repeat' (first | with_reducible rfl | with_reducible refine (State.countErr_waves ..).trans ?_ | with_reducible refine (State.dropCopy_waves ..).trans ?_ | with_reducible refine (State.setPoison_waves ..).trans ?_ | split)
@[simp] theorem State.upsetWord_waves (s : State) (st : Store) (word : Nat) : (State.upsetWord s st word).waves = s.waves := by
  unfold State.upsetWord
  repeat' (first | with_reducible rfl | with_reducible refine (State.upsetChip_waves ..).trans ?_ | with_reducible refine (State.upsetStore_waves ..).trans ?_ | split)
@[simp] theorem State.upsetTile_waves (s : State) (slot word : Nat) : (State.upsetTile s slot word).waves = s.waves := by
  unfold State.upsetTile
  repeat' (first | with_reducible rfl | with_reducible refine (State.setTile_waves ..).trans ?_ | with_reducible refine Eq.trans (foldl_same State.waves ?_ _ _) ?_ | with_reducible intro _ | split)
@[simp] theorem State.upsetRowBuf_waves (s : State) (core word : Nat) : (State.upsetRowBuf s core word).waves = s.waves := by
  unfold State.upsetRowBuf
  repeat' (first | with_reducible rfl | with_reducible refine (State.updStream_waves ..).trans ?_)
@[simp] theorem State.upsetTuple_waves (s : State) (h stamp field : Nat) : (State.upsetTuple s h stamp field).waves = s.waves := by
  unfold State.upsetTuple
  repeat' (first | with_reducible rfl | with_reducible refine (State.setSlice_waves ..).trans ?_)


end Sys2Proof.Machine
end

