-- ==== Sys2Proof/Laws/Inv.lean ====
section
/-! SUPPORT. What a state-to-state operation does to the invariant: the canonical form of the byte stores is kept. The forms a result can take. -/

namespace Sys2Proof.Machine

/-- Every next state of an outcome meets the invariant. -/
def OutInv (o : Out) : Prop := ∀ t, o = .next t → t.Inv
/-- The state of an option meets the invariant. -/
def OptInv (o : Option State) : Prop := ∀ t, o = some t → t.Inv

theorem OutInv.next {s : State} (h : s.Inv) : OutInv (.next s) := by
  intro t e; cases e; exact h
theorem OutInv.fault (f : Fault) : OutInv (.fault f) := by
  intro t e; cases e
theorem OutInv.refused (r : Refusal) : OutInv (.refused r) := by
  intro t e; cases e
theorem OptInv.ofSome {s : State} (h : s.Inv) : OptInv (some s) := by
  intro t e; cases e; exact h
theorem OptInv.ofNone : OptInv none := by
  intro t e; cases e
theorem OptInv.elim {o : Option State} {s : State} (e : o = some s) (h : OptInv o) : s.Inv := h s e
theorem OptInv.getD {o : Option State} {s : State} (h : OptInv o) (hs : s.Inv) : (o.getD s).Inv := by
  cases o with
  | none => exact hs
  | some t => exact h t rfl
theorem OptInv.bind {α : Type} {o : Option α} {f : α → Option State} (h : ∀ a, OptInv (f a)) : OptInv (o.bind f) := by
  cases o with
  | none => exact OptInv.ofNone
  | some a => exact h a
theorem OptInv.map {o : Option State} {f : State → State} (ho : OptInv o) (h : ∀ s, s.Inv → (f s).Inv) : OptInv (o.map f) := by
  cases o with
  | none => exact OptInv.ofNone
  | some a => exact OptInv.ofSome (h a (ho a rfl))
theorem OptInv.mapAny {α : Type} {o : Option α} {f : α → State} (h : ∀ a, (f a).Inv) : OptInv (o.map f) := by
  cases o with
  | none => exact OptInv.ofNone
  | some a => exact OptInv.ofSome (h a)
/-- The state of a result that is no error meets the invariant. -/
def ExcInv {ε α : Type} (o : Except ε (State × α)) : Prop := ∀ t, o = .ok t → t.1.Inv
theorem ExcInv.ok {ε α : Type} {s : State × α} (h : s.1.Inv) : ExcInv (.ok s : Except ε (State × α)) := by
  intro t e; cases e; exact h
theorem ExcInv.error {ε α : Type} (e : ε) : ExcInv (.error e : Except ε (State × α)) := by
  intro t h; cases h
theorem ExcInv.elim {ε α : Type} {o : Except ε (State × α)} {s : State} {a : α} (e : o = .ok (s, a)) (h : ExcInv o) : s.Inv := h _ e
theorem State.Inv.ofPair {α : Type} {p : State × α} {s : State} {a : α} (e : p = (s, a)) (h : p.1.Inv) : s.Inv := by
  subst e; exact h
theorem State.Inv.ite {c : Prop} [Decidable c] {a b : State} (ha : a.Inv) (hb : b.Inv) : (if c then a else b).Inv := by
  split <;> assumption

theorem State.Inv.wf {s : State} (h : s.Inv) : s.mem.wf = true := h
theorem MemSys.wf_iff (m : MemSys) : m.wf = true ↔ Memory.wf m.home = true ∧ Memory.wf m.dram = true ∧ Memory.wf m.scratch = true
    ∧ Memory.wf m.rows = true ∧ Memory.wf m.chip = true ∧ Memory.wf m.acc = true := by
  simp [MemSys.wf, and_assoc]
theorem MemSys.wf_mk {a b c d e f g h i j} (ha : Memory.wf a = true) (hb : Memory.wf b = true) (he : Memory.wf e = true) (hf : Memory.wf f = true)
    (hg : Memory.wf g = true) (hh : Memory.wf h = true) : (MemSys.mk a b c d e f g h i j).wf = true :=
  (MemSys.wf_iff _).2 ⟨ha, hb, he, hf, hg, hh⟩
theorem State.Inv.home {s : State} (h : s.Inv) : Memory.wf s.mem.home = true := ((MemSys.wf_iff _).1 h).1
theorem State.Inv.dram {s : State} (h : s.Inv) : Memory.wf s.mem.dram = true := ((MemSys.wf_iff _).1 h).2.1
theorem State.Inv.scratch {s : State} (h : s.Inv) : Memory.wf s.mem.scratch = true := ((MemSys.wf_iff _).1 h).2.2.1
theorem State.Inv.rows {s : State} (h : s.Inv) : Memory.wf s.mem.rows = true := ((MemSys.wf_iff _).1 h).2.2.2.1
theorem State.Inv.chip {s : State} (h : s.Inv) : Memory.wf s.mem.chip = true := ((MemSys.wf_iff _).1 h).2.2.2.2.1
theorem State.Inv.acc {s : State} (h : s.Inv) : Memory.wf s.mem.acc = true := ((MemSys.wf_iff _).1 h).2.2.2.2.2

theorem State.Inv.of_wf {s : State} (h : s.mem.wf = true) : s.Inv := h
theorem State.Inv.foldl {α : Type} {f : State → α → State} (h : ∀ s a, s.Inv → (f s a).Inv) (l : List α) {s : State} (hs : s.Inv) :
    (l.foldl f s).Inv := by
  induction l generalizing s with
  | nil => exact hs
  | cons a l ih => exact ih (h s a hs)
theorem State.Inv.foldl_fst {α β : Type} {f : State × β → α → State × β} (h : ∀ s a, s.1.Inv → (f s a).1.Inv) (l : List α) {s : State × β}
    (hs : s.1.Inv) : (l.foldl f s).1.Inv := by
  induction l generalizing s with
  | nil => exact hs
  | cons a l ih => exact ih (h s a hs)
theorem foldl_pred {σ α : Type} {P : σ → Prop} {f : σ → α → σ} (h : ∀ s a, P s → P (f s a)) (l : List α) {s : σ} (hs : P s) : P (l.foldl f s) := by
  induction l generalizing s with
  | nil => exact hs
  | cons a l ih => exact ih (h s a hs)
theorem EngRead.inv_foldl {α : Type} {f : EngRead → α → EngRead} (h : ∀ r a, r.s.Inv → (f r a).s.Inv) (l : List α) {r : EngRead} (hr : r.s.Inv) :
    (l.foldl f r).s.Inv := foldl_pred (P := fun (r : EngRead) => r.s.Inv) h l hr
theorem GLanes.inv_foldl {α β : Type} {f : GLanes β → α → GLanes β} (h : ∀ r a, r.s.Inv → (f r a).s.Inv) (l : List α) {r : GLanes β}
    (hr : r.s.Inv) : (l.foldl f r).s.Inv := foldl_pred (P := fun (r : GLanes β) => r.s.Inv) h l hr
theorem GRead.inv_foldl {α β : Type} {f : GRead × β → α → GRead × β} (h : ∀ r a, r.1.s.Inv → (f r a).1.s.Inv) (l : List α) {r : GRead × β}
    (hr : r.1.s.Inv) : (l.foldl f r).1.s.Inv := foldl_pred (P := fun (r : GRead × β) => r.1.s.Inv) h l hr
theorem DRead.inv_foldl {α β : Type} {f : DRead × β → α → DRead × β} (h : ∀ r a, r.1.s.Inv → (f r a).1.s.Inv) (l : List α) {r : DRead × β}
    (hr : r.1.s.Inv) : (l.foldl f r).1.s.Inv := foldl_pred (P := fun (r : DRead × β) => r.1.s.Inv) h l hr
theorem DRead.inv_foldl_all {α : Type} {f : DRead → α → DRead} (h : ∀ r a, r.s.Inv → (f r a).s.Inv) (l : List α) {r : DRead}
    (hr : r.s.Inv) : (l.foldl f r).s.Inv := foldl_pred (P := fun (r : DRead) => r.s.Inv) h l hr
theorem Mem.wf_foldl {α : Type} {f : Mem → α → Mem} (h : ∀ m a, Memory.wf m = true → Memory.wf (f m a) = true) (l : List α) {m : Mem}
    (hm : Memory.wf m = true) : Memory.wf (l.foldl f m) = true := by
  induction l generalizing m with
  | nil => exact hm
  | cons a l ih => exact ih (h m a hm)

end Sys2Proof.Machine
end

