-- ==== Sys2Proof/Laws/InvMemory.lean ====
section
/-! SUPPORT. The invariant is kept by each operation: the memory system, the shared operations of waves and streams, and the memory, system, barrier and return words. -/

set_option Elab.async false

namespace Sys2Proof.Machine

/-! Memory -/

theorem State.setCluster_inv (s : State) (c : Nat) (x : Cluster) (hs : s.Inv) : (State.setCluster s c x).Inv := by
  unfold State.setCluster
  repeat' (first | with_reducible assumption | with_reducible apply State.Inv.wf | (with_reducible refine State.Inv.of_wf ?_; dsimp only))
theorem State.setSlice_inv (s : State) (h : Nat) (x : Slice) (hs : s.Inv) : (State.setSlice s h x).Inv := by
  unfold State.setSlice
  repeat' (first | with_reducible assumption | with_reducible apply State.Inv.wf | (with_reducible refine State.Inv.of_wf ?_; dsimp only))
theorem State.setCore_inv (s : State) (c : Nat) (x : Core) (hs : s.Inv) : (State.setCore s c x).Inv := by
  unfold State.setCore
  repeat' (first | with_reducible assumption | with_reducible apply State.Inv.wf | (with_reducible refine State.Inv.of_wf ?_; dsimp only))
theorem State.setDie_inv (s : State) (d : Nat) (x : Die) (hs : s.Inv) : (State.setDie s d x).Inv := by
  unfold State.setDie
  repeat' (first | with_reducible assumption | with_reducible apply State.Inv.wf | (with_reducible refine State.Inv.of_wf ?_; dsimp only))
theorem State.setTile_inv (s : State) (t : Nat) (x : Tile) (hs : s.Inv) : (State.setTile s t x).Inv := by
  unfold State.setTile
  repeat' (first | with_reducible assumption | with_reducible apply State.Inv.wf | (with_reducible refine State.Inv.of_wf ?_; dsimp only))
theorem State.count_inv (s : State) (dom inst idx n : Nat) (hs : s.Inv) : (State.count s dom inst idx n).Inv := by
  unfold State.count
  repeat' (first | with_reducible assumption | with_reducible apply State.Inv.wf | (with_reducible refine State.Inv.of_wf ?_; dsimp only))
theorem State.countErr_inv (s : State) (die idx : Nat) (hs : s.Inv) : (State.countErr s die idx).Inv := by
  unfold State.countErr
  repeat' (first | with_reducible assumption | with_reducible apply State.count_inv)
theorem State.mirrorCore_inv (s : State) (core : Nat) (hs : s.Inv) : (State.mirrorCore s core).Inv := by
  unfold State.mirrorCore
  with_reducible apply State.setCore_inv
  assumption
theorem State.pmcCount_inv (s : State) (core ev n team : Nat) (hs : s.Inv) : (State.pmcCount s core ev n team).Inv := by
  unfold State.pmcCount
  repeat' (first | with_reducible assumption | with_reducible apply State.setCore_inv | with_reducible apply State.Inv.wf | (with_reducible refine State.Inv.of_wf ?_; dsimp only) | split)
theorem State.vector_inv (s : State) (n : Nat) (hs : s.Inv) : (State.vector s n).Inv := by
  unfold State.vector
  repeat' (first | with_reducible assumption | with_reducible apply State.Inv.wf | (with_reducible refine State.Inv.of_wf ?_; dsimp only))
theorem State.errorReport_inv (s : State) (code : Nat) (hs : s.Inv) : (State.errorReport s code).Inv := by
  unfold State.errorReport
  repeat' (first | with_reducible assumption | with_reducible apply State.Inv.wf | (with_reducible refine State.Inv.of_wf ?_; dsimp only))
theorem MemSys.store_inv (m : MemSys) (st : Store) (h : m.wf = true) : Memory.wf (m.store st) = true := by
  have h := (MemSys.wf_iff m).1 h
  cases st <;> simp only [MemSys.store] <;> simp [h]
theorem MemSys.setStore_inv (m : MemSys) (st : Store) (x : Mem) (h : m.wf = true) (hx : Memory.wf x = true) : (m.setStore st x).wf = true := by
  have h := (MemSys.wf_iff m).1 h
  cases st <;> simp only [MemSys.setStore] <;> rw [MemSys.wf_iff] <;> simp [h, hx]
theorem State.freshCode_inv (s : State) (st : Store) (rs : List (Nat × Nat)) (hs : s.Inv) : (State.freshCode s st rs).Inv := by
  unfold State.freshCode; dsimp only; split
  · exact hs
  · exact hs
theorem State.storeWrite_inv (s : State) (st : Store) (a : Nat) (bs : List Byte) (hs : s.Inv) : (State.storeWrite s st a bs).Inv :=
  MemSys.setStore_inv _ _ _ (State.freshCode_inv s _ _ hs) (Mem.wf_overlay _ _ (MemSys.store_inv _ _ (State.freshCode_inv s _ _ hs)))
theorem State.storeClear_inv (s : State) (st : Store) (a n : Nat) (hs : s.Inv) : (State.storeClear s st a n).Inv :=
  MemSys.setStore_inv _ _ _ (State.freshCode_inv s _ _ hs) (Mem.wf_clear _ _ _ (MemSys.store_inv _ _ (State.freshCode_inv s _ _ hs)))
theorem State.storeFill_inv (s : State) (st : Store) (a n : Nat) (m : Mem) (hs : s.Inv) : (State.storeFill s st a n m).Inv :=
  MemSys.setStore_inv _ _ _ (State.storeClear_inv s _ _ _ hs) (Mem.wf_overlay _ _ (MemSys.store_inv _ _ (State.storeClear_inv s _ _ _ hs)))
theorem State.upsetStore_inv (s : State) (st : Store) (word : Nat) (hs : s.Inv) : (State.upsetStore s st word).Inv := by
  have h := MemSys.setStore_inv s.mem st (Mem.clear (s.mem.store st) (8 * word) 8) hs (Mem.wf_clear _ _ _ (MemSys.store_inv _ _ hs))
  have h := (MemSys.wf_iff _).1 h
  exact (MemSys.wf_iff _).2 h
theorem State.l2Evict_inv (s : State) (line : Nat) (hs : s.Inv) : (State.l2Evict s line).Inv := by
  unfold State.l2Evict
  repeat' (first | with_reducible assumption | with_reducible apply State.Inv.wf | with_reducible apply MemSys.wf_mk | with_reducible apply Mem.wf_overlay | with_reducible apply Mem.wf_clear | with_reducible apply State.Inv.home | with_reducible apply State.Inv.dram | with_reducible apply State.Inv.scratch | with_reducible apply State.Inv.rows | with_reducible apply State.Inv.chip | with_reducible apply State.Inv.acc | (with_reducible refine State.Inv.of_wf ?_; dsimp only) | split)
theorem State.sliceEvict_inv (s : State) (h : Nat) (hs : s.Inv) : (State.sliceEvict s h).Inv := by
  unfold State.sliceEvict
  repeat' (first | with_reducible assumption | with_reducible apply State.l2Evict_inv | with_reducible apply State.Inv.wf | (with_reducible refine State.Inv.of_wf ?_; dsimp only) | split)
theorem State.sliceTrim_inv (s : State) (h spare : Nat) (hs : s.Inv) : (State.sliceTrim s h spare).Inv := by
  unfold State.sliceTrim
  repeat' (first | with_reducible assumption | with_reducible apply State.sliceEvict_inv | with_reducible apply State.Inv.foldl | with_reducible intro _)
theorem State.needLoop_inv (s : State) (c : Option Nat) (line : Nat) (hs : s.Inv) : (State.needLoop s c line).Inv := by
  unfold State.needLoop
  repeat' (first | with_reducible assumption | with_reducible apply State.Inv.wf | (with_reducible refine State.Inv.of_wf ?_; dsimp only) | split)
theorem State.fill_inv (s : State) (line : Nat) (hs : s.Inv) : (State.fill s line).Inv := by
  unfold State.fill
  repeat' (first | with_reducible assumption | with_reducible apply State.count_inv | with_reducible apply State.sliceTrim_inv | with_reducible apply State.Inv.wf | with_reducible apply MemSys.wf_mk | with_reducible apply State.Inv.home | with_reducible apply State.Inv.dram | with_reducible apply State.Inv.scratch | with_reducible apply State.Inv.rows | with_reducible apply State.Inv.chip | with_reducible apply State.Inv.acc | (with_reducible refine State.Inv.of_wf ?_; dsimp only) | split)
theorem State.dropCopy_inv (s : State) (c line : Nat) (hs : s.Inv) : (State.dropCopy s c line).Inv := by
  unfold State.dropCopy
  repeat' (first | with_reducible assumption | with_reducible apply State.setCluster_inv | with_reducible apply State.count_inv | with_reducible apply State.Inv.wf | (with_reducible refine State.Inv.of_wf ?_; dsimp only) | split)
theorem State.dropReplicas_inv (s : State) (line : Nat) (hs : s.Inv) : (State.dropReplicas s line).Inv := by
  unfold State.dropReplicas
  repeat' (first | with_reducible assumption | with_reducible apply State.setCluster_inv | with_reducible apply State.count_inv | with_reducible apply State.Inv.wf | with_reducible apply State.Inv.foldl | with_reducible apply MemSys.wf_mk | with_reducible apply State.Inv.home | with_reducible apply State.Inv.dram | with_reducible apply State.Inv.scratch | with_reducible apply State.Inv.rows | with_reducible apply State.Inv.chip | with_reducible apply State.Inv.acc | (with_reducible refine State.Inv.of_wf ?_; dsimp only) | with_reducible intro _ | split)
theorem State.combine_inv (s : State) (unit : Nat) (p : Partial) (hs : s.Inv) : (State.combine s unit p).Inv := by
  unfold State.combine
  repeat' (first | with_reducible assumption | with_reducible apply MemSys.wf_mk | with_reducible apply Mem.wf_writeN | with_reducible apply State.Inv.home | with_reducible apply State.Inv.dram | with_reducible apply State.Inv.scratch | with_reducible apply State.Inv.rows | with_reducible apply State.Inv.chip | with_reducible apply State.Inv.acc | (with_reducible refine State.Inv.of_wf ?_; dsimp only))
theorem State.bumpSeq_inv (s : State) (line : Nat) (hs : s.Inv) : (State.bumpSeq s line).Inv := by
  unfold State.bumpSeq
  repeat' (first | with_reducible assumption | with_reducible apply State.setSlice_inv | with_reducible apply State.count_inv)
theorem State.recallFrom_inv (s : State) (line : Nat) (cs : List Nat) (hs : s.Inv) : (State.recallFrom s line cs).Inv := by
  unfold State.recallFrom
  repeat' (first | with_reducible assumption | with_reducible apply State.dropCopy_inv | with_reducible apply State.bumpSeq_inv | with_reducible apply State.fill_inv | with_reducible apply State.combine_inv | with_reducible apply State.count_inv | with_reducible apply State.dropReplicas_inv | with_reducible apply State.Inv.wf | with_reducible apply State.Inv.foldl | with_reducible apply MemSys.wf_mk | with_reducible apply State.Inv.home | with_reducible apply State.Inv.dram | with_reducible apply State.Inv.scratch | with_reducible apply State.Inv.rows | with_reducible apply State.Inv.chip | with_reducible apply State.Inv.acc | (with_reducible refine State.Inv.of_wf ?_; dsimp only) | with_reducible intro _ | split)
theorem State.recall_inv (s : State) (line : Nat) (hs : s.Inv) : (State.recall s line).Inv := by
  unfold State.recall
  repeat' (first | with_reducible assumption | with_reducible apply State.recallFrom_inv)
theorem State.dropOthers_inv (s : State) (line : Nat) (writer : Option Nat) (hs : s.Inv) : (State.dropOthers s line writer).Inv := by
  unfold State.dropOthers
  repeat' (first | with_reducible assumption | with_reducible apply State.setCluster_inv | with_reducible apply State.dropCopy_inv | with_reducible apply State.dropReplicas_inv | with_reducible apply State.Inv.wf | with_reducible apply State.Inv.foldl | (with_reducible refine State.Inv.of_wf ?_; dsimp only) | with_reducible intro _ | split)
theorem State.grantOwned_inv (s : State) (c line : Nat) (hs : s.Inv) : (State.grantOwned s c line).Inv := by
  unfold State.grantOwned
  repeat' (first | with_reducible assumption | with_reducible apply State.setCluster_inv | with_reducible apply State.Inv.wf | (with_reducible refine State.Inv.of_wf ?_; dsimp only) | split)
theorem State.homeWriteCells_inv (s : State) (line : Nat) (cs : List Host.Cell) (writer : Option Nat) (hs : s.Inv) : (State.homeWriteCells s line cs writer).Inv := by
  unfold State.homeWriteCells
  repeat' (first | with_reducible assumption | with_reducible apply State.recall_inv | with_reducible apply State.fill_inv | with_reducible apply State.needLoop_inv | with_reducible apply State.bumpSeq_inv | with_reducible apply State.dropOthers_inv | with_reducible apply State.Inv.wf | with_reducible apply MemSys.wf_mk | with_reducible apply Mem.wf_overlay | with_reducible apply State.Inv.home | with_reducible apply State.Inv.dram | with_reducible apply State.Inv.scratch | with_reducible apply State.Inv.rows | with_reducible apply State.Inv.chip | with_reducible apply State.Inv.acc | (with_reducible refine State.Inv.of_wf ?_; dsimp only) | split)
theorem State.homeWriteBytes_inv (s : State) (pa : Nat) (bs : List Byte) (writer : Option Nat) (hs : s.Inv) : (State.homeWriteBytes s pa bs writer).Inv := by
  unfold State.homeWriteBytes
  repeat' (first | with_reducible assumption | with_reducible apply State.homeWriteCells_inv | with_reducible apply State.Inv.wf | with_reducible apply State.Inv.foldl | (with_reducible refine State.Inv.of_wf ?_; dsimp only) | with_reducible intro _ | split)
theorem State.homeTouch_inv (s : State) (line : Nat) (hs : s.Inv) : (State.homeTouch s line).Inv := by
  unfold State.homeTouch
  repeat' (first | with_reducible assumption | with_reducible apply State.recall_inv | with_reducible apply State.count_inv | with_reducible apply State.fill_inv)
theorem State.setPoison_inv (s : State) (line : Nat) (hs : s.Inv) : (State.setPoison s line).Inv := by
  unfold State.setPoison
  repeat' (first | with_reducible assumption | with_reducible apply State.fill_inv | with_reducible apply State.countErr_inv | with_reducible apply State.errorReport_inv | with_reducible apply State.Inv.wf | with_reducible apply MemSys.wf_mk | with_reducible apply Mem.wf_clear | with_reducible apply State.Inv.home | with_reducible apply State.Inv.dram | with_reducible apply State.Inv.scratch | with_reducible apply State.Inv.rows | with_reducible apply State.Inv.chip | with_reducible apply State.Inv.acc | (with_reducible refine State.Inv.of_wf ?_; dsimp only) | split)
theorem State.homeDiscard_inv (s : State) (line : Nat) (hs : s.Inv) : (State.homeDiscard s line).Inv := by
  unfold State.homeDiscard
  repeat' (first | with_reducible assumption | with_reducible apply State.recall_inv | with_reducible apply State.dropCopy_inv | with_reducible apply State.bumpSeq_inv | with_reducible apply State.dropOthers_inv | with_reducible apply State.Inv.foldl | with_reducible apply MemSys.wf_mk | with_reducible apply Mem.wf_overlay | with_reducible apply Mem.wf_clear | with_reducible apply State.Inv.home | with_reducible apply State.Inv.dram | with_reducible apply State.Inv.scratch | with_reducible apply State.Inv.rows | with_reducible apply State.Inv.chip | with_reducible apply State.Inv.acc | (with_reducible refine State.Inv.of_wf ?_; dsimp only) | with_reducible intro _)
theorem State.setCol_inv (s : State) (core line : Nat) (c : ColLine) (hs : s.Inv) : (State.setCol s core line c).Inv := by
  unfold State.setCol
  repeat' (first | with_reducible assumption | with_reducible apply MemSys.wf_mk | with_reducible apply State.Inv.home | with_reducible apply State.Inv.dram | with_reducible apply State.Inv.scratch | with_reducible apply State.Inv.rows | with_reducible apply State.Inv.chip | with_reducible apply State.Inv.acc | (with_reducible refine State.Inv.of_wf ?_; dsimp only))
theorem State.dropCol_inv (s : State) (core line : Nat) (hs : s.Inv) : (State.dropCol s core line).Inv := by
  unfold State.dropCol
  repeat' (first | with_reducible assumption | with_reducible apply MemSys.wf_mk | with_reducible apply State.Inv.home | with_reducible apply State.Inv.dram | with_reducible apply State.Inv.scratch | with_reducible apply State.Inv.rows | with_reducible apply State.Inv.chip | with_reducible apply State.Inv.acc | (with_reducible refine State.Inv.of_wf ?_; dsimp only))
theorem State.colClean_inv (s : State) (core line : Nat) (hs : s.Inv) : (State.colClean s core line).Inv := by
  unfold State.colClean
  repeat' (first | with_reducible assumption | with_reducible apply State.dropCopy_inv | with_reducible apply State.setCol_inv | with_reducible apply State.homeWriteCells_inv | with_reducible apply State.setPoison_inv | with_reducible apply State.countErr_inv | with_reducible apply State.pmcCount_inv | with_reducible apply State.grantOwned_inv | with_reducible apply State.Inv.wf | (with_reducible refine State.Inv.of_wf ?_; dsimp only) | split)
theorem State.colCleanWord_inv (s : State) (core line word : Nat) (hs : s.Inv) : (State.colCleanWord s core line word).Inv := by
  unfold State.colCleanWord
  repeat' (first | with_reducible assumption | with_reducible apply State.setCol_inv | with_reducible apply State.homeWriteCells_inv | with_reducible apply State.Inv.wf | (with_reducible refine State.Inv.of_wf ?_; dsimp only) | split)
theorem State.colEvict_inv (s : State) (core line : Nat) (hs : s.Inv) : (State.colEvict s core line).Inv := by
  unfold State.colEvict
  repeat' (first | with_reducible assumption | with_reducible apply State.dropCol_inv | with_reducible apply State.colClean_inv)
theorem State.colSweep_inv (s : State) (core : Nat) (p : ColLine → Bool) (inv : Bool) (hs : s.Inv) : (State.colSweep s core p inv).Inv := by
  unfold State.colSweep
  repeat' (first | with_reducible assumption | with_reducible apply State.colClean_inv | with_reducible apply State.colEvict_inv | with_reducible apply State.Inv.foldl | with_reducible intro _ | split)
theorem State.columnRelease_inv (s : State) (paired : Bool) (scope core : Nat) (hs : s.Inv) : (State.columnRelease s paired scope core).Inv := by
  unfold State.columnRelease
  repeat' (first | with_reducible assumption | with_reducible apply State.colSweep_inv | split)
theorem State.columnAcquire_inv (s : State) (paired : Bool) (scope core : Nat) (hs : s.Inv) : (State.columnAcquire s paired scope core).Inv := by
  unfold State.columnAcquire
  repeat' (first | with_reducible assumption | with_reducible apply State.colSweep_inv | split)
theorem State.colEvictOne_inv (s : State) (core : Nat) (hs : s.Inv) : (State.colEvictOne s core).Inv := by
  unfold State.colEvictOne
  repeat' (first | with_reducible assumption | with_reducible apply State.colEvict_inv | with_reducible apply State.Inv.wf | (with_reducible refine State.Inv.of_wf ?_; dsimp only) | split)
theorem State.colMakeRoom_inv (s : State) (core line : Nat) (hs : s.Inv) : (State.colMakeRoom s core line).Inv := by
  unfold State.colMakeRoom
  repeat' (first | with_reducible assumption | with_reducible apply State.colEvictOne_inv | split)
theorem State.colStore_inv (s : State) (core pa : Nat) (bs : List Byte) (uo : Bool) (hs : s.Inv) : (State.colStore s core pa bs uo).Inv := by
  unfold State.colStore
  repeat' (first | with_reducible assumption | with_reducible apply State.setCol_inv | with_reducible apply State.count_inv | with_reducible apply State.colMakeRoom_inv | split)
theorem State.colFill_inv (s : State) (core line : Nat) (uo : Bool) (hs : s.Inv) : (State.colFill s core line uo).Inv := by
  unfold State.colFill
  repeat' (first | with_reducible assumption | with_reducible apply State.setCol_inv | with_reducible apply State.colMakeRoom_inv)
theorem State.upsetCol_inv (s : State) (core line word : Nat) (hs : s.Inv) : (State.upsetCol s core line word).Inv := by
  unfold State.upsetCol
  repeat' (first | with_reducible assumption | with_reducible apply State.setCol_inv | split)
theorem State.clusterMakeRoom_inv (s : State) (c : Nat) (hs : s.Inv) : (State.clusterMakeRoom s c).Inv := by
  unfold State.clusterMakeRoom
  repeat' (first | with_reducible assumption | with_reducible apply State.dropCopy_inv | with_reducible apply State.recall_inv | with_reducible apply State.Inv.wf | (with_reducible refine State.Inv.of_wf ?_; dsimp only) | split)
theorem State.takeCopy_inv (s : State) (c line : Nat) (x : CLine) (hs : s.Inv) : (State.takeCopy s c line x).Inv := by
  unfold State.takeCopy
  repeat' (first | with_reducible assumption | with_reducible apply State.setCluster_inv | with_reducible apply State.clusterMakeRoom_inv)
theorem State.shareLine_inv (s : State) (line : Nat) (hs : s.Inv) : (State.shareLine s line).Inv := by
  unfold State.shareLine
  repeat' (first | with_reducible assumption | with_reducible apply State.setCluster_inv | with_reducible apply State.Inv.foldl | with_reducible intro _)
theorem State.installCopy_inv (s : State) (c line : Nat) (pf : Bool) (peer : Option Nat) (hs : s.Inv) : (State.installCopy s c line pf peer).Inv := by
  unfold State.installCopy
  repeat' (first | with_reducible assumption | with_reducible apply State.shareLine_inv | with_reducible apply State.setCluster_inv | with_reducible apply State.takeCopy_inv | with_reducible apply State.Inv.wf | (with_reducible refine State.Inv.of_wf ?_; dsimp only) | split)
theorem State.clusterLookup_inv (s : State) (c line : Nat) (hs : s.Inv) : (State.clusterLookup s c line).Inv := by
  unfold State.clusterLookup
  repeat' (first | with_reducible assumption | with_reducible apply State.installCopy_inv | with_reducible apply State.count_inv | with_reducible apply State.Inv.wf | (with_reducible refine State.Inv.of_wf ?_; dsimp only) | split)
theorem State.learnPeer_inv (s : State) (c line : Nat) (hs : s.Inv) : (State.learnPeer s c line).Inv := by
  unfold State.learnPeer
  repeat' (first | with_reducible assumption | with_reducible apply State.setCluster_inv | with_reducible apply State.Inv.wf | (with_reducible refine State.Inv.of_wf ?_; dsimp only) | split)
theorem State.pushReplicas_inv (s : State) (line : Nat) (hs : s.Inv) : (State.pushReplicas s line).Inv := by
  unfold State.pushReplicas
  repeat' (first | with_reducible assumption | with_reducible apply State.count_inv | with_reducible apply State.sliceTrim_inv | with_reducible apply State.Inv.foldl | with_reducible apply MemSys.wf_mk | with_reducible apply State.Inv.home | with_reducible apply State.Inv.dram | with_reducible apply State.Inv.scratch | with_reducible apply State.Inv.rows | with_reducible apply State.Inv.chip | with_reducible apply State.Inv.acc | (with_reducible refine State.Inv.of_wf ?_; dsimp only) | with_reducible intro _)
theorem State.repeaterCount_inv (s : State) (c line : Nat) (hs : s.Inv) : (State.repeaterCount s c line).Inv := by
  unfold State.repeaterCount
  repeat' (first | with_reducible assumption | with_reducible apply State.pushReplicas_inv | with_reducible apply State.setSlice_inv | with_reducible apply State.setCluster_inv | with_reducible apply State.Inv.wf | with_reducible apply State.Inv.foldl | (with_reducible refine State.Inv.of_wf ?_; dsimp only) | with_reducible intro _ | split)
theorem State.homeServe_inv (s : State) (c : Option Nat) (line : Nat) (hs : s.Inv) : (State.homeServe s c line).Inv := by
  unfold State.homeServe
  repeat' (first | with_reducible assumption | with_reducible apply State.repeaterCount_inv | with_reducible apply State.homeTouch_inv | with_reducible apply State.needLoop_inv | with_reducible apply State.learnPeer_inv | split)
theorem State.homeReadBytes_inv (s : State) (c : Option Nat) (pa n : Nat) (hs : s.Inv) : (State.homeReadBytes s c pa n).1.Inv := by
  unfold State.homeReadBytes
  repeat' (first | with_reducible assumption | with_reducible apply State.homeServe_inv | with_reducible apply State.Inv.foldl | with_reducible intro _)
theorem State.homeAnswer_inv (s : State) (c line : Nat) (pf : Bool) (hs : s.Inv) : (State.homeAnswer s c line pf).1.Inv := by
  unfold State.homeAnswer
  repeat' (first | with_reducible assumption | with_reducible apply State.installCopy_inv | with_reducible apply State.homeServe_inv | with_reducible apply State.Inv.wf | (with_reducible refine State.Inv.of_wf ?_; dsimp only) | split)
theorem State.redirectedRead_inv (s : State) (c line helper : Nat) (pf : Bool) (hs : s.Inv) : (State.redirectedRead s c line helper pf).1.Inv := by
  unfold State.redirectedRead
  repeat' (first | with_reducible assumption | with_reducible apply State.setCluster_inv | with_reducible apply State.homeAnswer_inv | with_reducible apply State.installCopy_inv | with_reducible apply State.count_inv | with_reducible apply State.Inv.wf | (with_reducible refine State.Inv.of_wf ?_; dsimp only) | split)
theorem State.probePeer_inv (s : State) (c line p : Nat) (pf : Bool) (hs : s.Inv) : (State.probePeer s c line p pf).1.Inv := by
  unfold State.probePeer State.probePeer.clearAndAsk
  repeat' (first | with_reducible assumption | with_reducible apply State.count_inv | with_reducible apply State.installCopy_inv | with_reducible apply State.homeAnswer_inv | with_reducible apply State.setCluster_inv | split)
theorem State.serveLine_inv (s : State) (c line : Nat) (plain pf : Bool) (hs : s.Inv) : (State.serveLine s c line plain pf).1.Inv := by
  unfold State.serveLine
  repeat' (first | with_reducible assumption | with_reducible apply State.homeAnswer_inv | with_reducible apply State.redirectedRead_inv | with_reducible apply State.probePeer_inv | with_reducible apply State.Inv.wf | (with_reducible refine State.Inv.of_wf ?_; dsimp only) | split)
theorem State.takeMiss_inv (s : State) (c line : Nat) (who : Nat × Nat) (hs : s.Inv) : (State.takeMiss s c line who).Inv := by
  unfold State.takeMiss
  repeat' (first | with_reducible assumption | with_reducible apply State.setCluster_inv | with_reducible apply State.count_inv | with_reducible apply State.Inv.wf | (with_reducible refine State.Inv.of_wf ?_; dsimp only) | split)
theorem State.takePrefetch_inv (s : State) (c line : Nat) (hs : s.Inv) : (State.takePrefetch s c line).Inv := by
  unfold State.takePrefetch
  repeat' (first | with_reducible assumption | with_reducible apply State.setCluster_inv | with_reducible apply State.count_inv | with_reducible apply State.Inv.wf | (with_reducible refine State.Inv.of_wf ?_; dsimp only) | split)
theorem State.endMiss_inv (s : State) (c line : Nat) (who : Nat × Nat) (hs : s.Inv) : (State.endMiss s c line who).Inv := by
  unfold State.endMiss
  repeat' (first | with_reducible assumption | with_reducible apply State.setCluster_inv)
theorem State.endEntry_inv (s : State) (c line : Nat) (hs : s.Inv) : (State.endEntry s c line).Inv := by
  unfold State.endEntry
  repeat' (first | with_reducible assumption | with_reducible apply State.setCluster_inv | with_reducible apply State.Inv.wf | (with_reducible refine State.Inv.of_wf ?_; dsimp only) | split)
theorem State.passMiss_inv (s : State) (c line : Nat) (who : Nat × Nat) (hs : s.Inv) : (State.passMiss s c line who).Inv := by
  unfold State.passMiss
  repeat' (first | with_reducible assumption | with_reducible apply State.takeMiss_inv | with_reducible apply State.Inv.wf | (with_reducible refine State.Inv.of_wf ?_; dsimp only) | split)
theorem State.fillPrefetch_inv (s : State) (c line : Nat) (hs : s.Inv) : (State.fillPrefetch s c line).Inv := by
  unfold State.fillPrefetch
  repeat' (first | with_reducible assumption | with_reducible apply State.count_inv | with_reducible apply State.endEntry_inv | with_reducible apply State.serveLine_inv | with_reducible apply State.Inv.wf | (with_reducible refine State.Inv.of_wf ?_; dsimp only) | split)
theorem State.commitWalk_inv (s : State) (va : W64) (hs : s.Inv) : (State.commitWalk s va).Inv := by
  unfold State.commitWalk
  repeat' (first | with_reducible assumption | with_reducible apply State.homeTouch_inv | with_reducible apply State.Inv.foldl | split)
theorem State.noteWalk_inv (s : State) (t : TlbEntry) (hs : s.Inv) : (State.noteWalk s t).Inv := by
  unfold State.noteWalk
  repeat' (first | with_reducible assumption | with_reducible apply State.Inv.wf | (with_reducible refine State.Inv.of_wf ?_; dsimp only) | split)
theorem State.endWalk_inv (s : State) (d : Nat) (va : W64) (hs : s.Inv) : (State.endWalk s d va).Inv := by
  unfold State.endWalk
  repeat' (first | with_reducible assumption | with_reducible apply State.setDie_inv | with_reducible apply State.noteWalk_inv | with_reducible apply State.commitWalk_inv | with_reducible apply State.Inv.wf | (with_reducible refine State.Inv.of_wf ?_; dsimp only) | split)
theorem State.leaveWalk_inv (s : State) (d : Nat) (va : W64) (hs : s.Inv) : (State.leaveWalk s d va).Inv := by
  unfold State.leaveWalk
  repeat' (first | with_reducible assumption | with_reducible apply State.setDie_inv)
theorem State.walkFill_inv (s : State) (d : Nat) (va : W64) (hs : s.Inv) : (State.walkFill s d va).Inv := by
  unfold State.walkFill
  repeat' (first | with_reducible assumption | with_reducible apply State.endWalk_inv | with_reducible apply State.count_inv | with_reducible apply State.leaveWalk_inv | with_reducible apply State.Inv.wf | (with_reducible refine State.Inv.of_wf ?_; dsimp only) | split)
theorem State.touchShared_inv (s : State) (d : Nat) (va : W64) (hs : s.Inv) : (State.touchShared s d va).Inv := by
  unfold State.touchShared
  repeat' (first | with_reducible assumption | with_reducible apply State.count_inv | with_reducible apply State.walkFill_inv | split)
theorem State.takeLeaf_inv (s : State) (cl : Nat) (va : W64) (hs : s.Inv) : (State.takeLeaf s cl va).Inv := by
  unfold State.takeLeaf
  repeat' (first | with_reducible assumption | with_reducible apply State.setCluster_inv | with_reducible apply State.Inv.wf | (with_reducible refine State.Inv.of_wf ?_; dsimp only) | split)
theorem State.touchTlb_inv (s : State) (cl : Nat) (va : W64) (hs : s.Inv) : (State.touchTlb s cl va).Inv := by
  unfold State.touchTlb
  repeat' (first | with_reducible assumption | with_reducible apply State.count_inv | with_reducible apply State.touchShared_inv | with_reducible apply State.takeLeaf_inv | split)
theorem State.queueFor_inv (s : State) (x : Lack) (hs : s.Inv) : (State.queueFor s x).Inv := by
  unfold State.queueFor
  repeat' (first | with_reducible assumption | with_reducible apply State.count_inv | with_reducible apply State.setDie_inv | with_reducible apply State.takeMiss_inv | with_reducible apply State.Inv.wf | (with_reducible refine State.Inv.of_wf ?_; dsimp only) | split)
theorem State.orWait_inv (s t : State) (hs : s.Inv) (ht : t.Inv) : (State.orWait s t).Inv := by
  unfold State.orWait
  repeat' (first | with_reducible assumption | with_reducible apply State.queueFor_inv | split)

/-! Ops -/

theorem State.setWave_inv (s : State) (core slot : Nat) (w : Wave) (hs : s.Inv) : (State.setWave s core slot w).Inv := by
  unfold State.setWave
  repeat' (first | with_reducible assumption | with_reducible apply State.Inv.wf | (with_reducible refine State.Inv.of_wf ?_; dsimp only))
theorem State.updWave_inv (s : State) (core slot : Nat) (f : Wave → Wave) (hs : s.Inv) : (State.updWave s core slot f).Inv := by
  unfold State.updWave
  repeat' (first | with_reducible assumption | with_reducible apply State.Inv.wf | (with_reducible refine State.Inv.of_wf ?_; dsimp only))
theorem State.setStream_inv (s : State) (core : Nat) (m : Stream) (hs : s.Inv) : (State.setStream s core m).Inv := by
  unfold State.setStream
  repeat' (first | with_reducible assumption | with_reducible apply State.Inv.wf | (with_reducible refine State.Inv.of_wf ?_; dsimp only))
theorem State.updStream_inv (s : State) (core : Nat) (f : Stream → Stream) (hs : s.Inv) : (State.updStream s core f).Inv := by
  unfold State.updStream
  repeat' (first | with_reducible assumption | with_reducible apply State.Inv.wf | (with_reducible refine State.Inv.of_wf ?_; dsimp only))
theorem State.setTeam_inv (s : State) (t : Nat) (x : Team) (hs : s.Inv) : (State.setTeam s t x).Inv := by
  unfold State.setTeam
  repeat' (first | with_reducible assumption | with_reducible apply State.Inv.wf | (with_reducible refine State.Inv.of_wf ?_; dsimp only))
theorem State.updTeam_inv (s : State) (t : Nat) (f : Team → Team) (hs : s.Inv) : (State.updTeam s t f).Inv := by
  unfold State.updTeam
  repeat' (first | with_reducible assumption | with_reducible apply State.Inv.wf | (with_reducible refine State.Inv.of_wf ?_; dsimp only))
theorem State.setLaunch_inv (s : State) (l : Nat) (x : Launch) (hs : s.Inv) : (State.setLaunch s l x).Inv := by
  unfold State.setLaunch
  repeat' (first | with_reducible assumption | with_reducible apply State.Inv.wf | (with_reducible refine State.Inv.of_wf ?_; dsimp only))
theorem State.updLaunch_inv (s : State) (l : Nat) (f : Launch → Launch) (hs : s.Inv) : (State.updLaunch s l f).Inv := by
  unfold State.updLaunch
  repeat' (first | with_reducible assumption | with_reducible apply State.Inv.wf | (with_reducible refine State.Inv.of_wf ?_; dsimp only))
theorem withWave_inv {s : State} {f : Nat → Nat → Wave → State} (h : ∀ c k w, (f c k w).Inv) : OutInv (withWave s f) := by
  unfold withWave
  repeat' (first | exact OutInv.fault _ | (apply OutInv.next; apply h) | split)
theorem withStream_inv {s : State} {f : Nat → Stream → State} (h : ∀ c m, (f c m).Inv) : OutInv (withStream s f) := by
  unfold withStream
  repeat' (first | exact OutInv.fault _ | (apply OutInv.next; apply h) | split)
theorem State.idemLost_inv (s : State) (team : Nat) (hs : s.Inv) : (State.idemLost s team).Inv := by
  unfold State.idemLost
  repeat' (first | with_reducible assumption | with_reducible apply State.updTeam_inv)
theorem State.drainReports_inv (n : Nat) (s : State) (hs : s.Inv) : (State.drainReports n s).Inv := by
  induction n generalizing s with
  | zero => exact hs
  | succ n ih =>
    unfold State.drainReports
    repeat' (first | with_reducible assumption | with_reducible apply ih | with_reducible apply State.touchTlb_inv | with_reducible apply State.errorReport_inv | with_reducible apply State.vector_inv | with_reducible apply State.homeWriteBytes_inv | with_reducible apply State.columnRelease_inv | (with_reducible refine State.Inv.of_wf ?_; dsimp only) | with_reducible apply State.Inv.wf | split | extract_lets | dsimp +zetaDelta only)
theorem State.report_inv (s : State) (r : Report) (hs : s.Inv) : (State.report s r).Inv := by
  unfold State.report
  repeat' (first | with_reducible assumption | with_reducible apply State.drainReports_inv | with_reducible apply State.Inv.wf | (with_reducible refine State.Inv.of_wf ?_; dsimp only) | split)
theorem State.vectorRead_inv (s : State) (core cause : Nat) (hs : s.Inv) : (State.vectorRead s core cause).Inv := by
  unfold State.vectorRead
  repeat' (first | with_reducible assumption | with_reducible apply State.homeTouch_inv | with_reducible apply State.touchTlb_inv | with_reducible apply State.Inv.wf | (with_reducible refine State.Inv.of_wf ?_; dsimp only) | split)
theorem State.stopWave_inv (s : State) (core slot : Nat) (w : Wave) (hs : s.Inv) : (State.stopWave s core slot w).Inv := by
  unfold State.stopWave
  repeat' (first | with_reducible assumption | with_reducible apply State.setWave_inv | with_reducible apply State.report_inv)
theorem State.deliverAs_inv (s : State) (core slot : Nat) (w : Wave) (v : Vector) (hs : s.Inv) : (State.deliverAs s core slot w v).Inv := by
  unfold State.deliverAs
  repeat' (first | with_reducible assumption | with_reducible apply State.setWave_inv | with_reducible apply State.stopWave_inv | split)
theorem State.deliver_inv (s : State) (core slot : Nat) (w : Wave) (hs : s.Inv) : (State.deliver s core slot w).Inv :=
  State.deliverAs_inv _ _ _ _ _ (State.vectorRead_inv _ _ _ hs)
theorem State.takeTrap_inv (s : State) (core slot : Nat) (w : Wave) (t : Trap) (epc : W64) (inclause : Bool) (word : Nat) (hs : s.Inv) : (State.takeTrap s core slot w t epc inclause word).Inv := by
  unfold State.takeTrap
  repeat' (first | with_reducible assumption | with_reducible apply State.setWave_inv | with_reducible apply State.deliver_inv | with_reducible apply State.Inv.wf | (with_reducible refine State.Inv.of_wf ?_; dsimp only) | split)
theorem State.trapAt_inv (s : State) (core slot : Nat) (w : Wave) (t : Trap) (hs : s.Inv) : (State.trapAt s core slot w t).Inv := by
  unfold State.trapAt
  repeat' (first | with_reducible assumption | with_reducible apply State.takeTrap_inv)
theorem State.trapHeader_inv (s : State) (core slot : Nat) (w : Wave) (t : Trap) (epc : W64) (word : Nat) (hs : s.Inv) : (State.trapHeader s core slot w t epc word).Inv := by
  unfold State.trapHeader
  repeat' (first | with_reducible assumption | with_reducible apply State.takeTrap_inv)
theorem aluWord_inv (i : Instr) (s : State) (run : Wave → Except Trap Wave) (hs : s.Inv) : OutInv (aluWord i s run) := by
  unfold aluWord
  repeat' (first | with_reducible assumption | with_reducible apply State.trapAt_inv | with_reducible apply State.setWave_inv | with_reducible apply withWave_inv | with_reducible intro _ | split)
theorem sysWord_inv {i : Instr} {s : State} {run : Nat → Nat → Wave → State} (hs : s.Inv) (h : ∀ c k w, (run c k w).Inv) : OutInv (sysWord i s run) := by
  unfold sysWord
  apply withWave_inv; intro c k w
  split
  · apply State.trapAt_inv; exact hs
  · exact h c k w
theorem State.doneWave_inv (s : State) (core slot : Nat) (hs : s.Inv) : (State.doneWave s core slot).Inv := by
  unfold State.doneWave
  repeat' (first | with_reducible assumption | with_reducible apply State.updWave_inv)
theorem State.errSeenCore_inv (s : State) (team core : Nat) (hs : s.Inv) : (State.errSeenCore s team core).Inv := by
  unfold State.errSeenCore
  repeat' (first | with_reducible assumption | with_reducible apply State.setWave_inv | with_reducible apply State.Inv.foldl | with_reducible intro _ | split)
theorem State.sawBad_inv (s : State) (core slot : Nat) (addr : W64) (lanes : BitVec 96) (hs : s.Inv) : (State.sawBad s core slot addr lanes).Inv := by
  unfold State.sawBad
  repeat' (first | with_reducible assumption | with_reducible apply State.updWave_inv | with_reducible apply State.setWave_inv | with_reducible apply State.countErr_inv | with_reducible apply State.Inv.wf | (with_reducible refine State.Inv.of_wf ?_; dsimp only) | split)
theorem State.pendFault_inv (s : State) (core slot : Nat) (r : PendRec) (hs : s.Inv) : (State.pendFault s core slot r).Inv := by
  unfold State.pendFault
  repeat' (first | with_reducible assumption | with_reducible apply State.setWave_inv | with_reducible apply State.countErr_inv | split)
theorem State.launchFault_inv (s : State) (team : Nat) (cause : Nat) (hs : s.Inv) : (State.launchFault s team cause).Inv := by
  unfold State.launchFault
  repeat' (first | with_reducible assumption | with_reducible apply State.updLaunch_inv)
theorem State.deferSaved_inv (s : State) (core slot team : Nat) (r : PendRec) (hs : s.Inv) : (State.deferSaved s core slot team r).Inv := by
  unfold State.deferSaved
  repeat' (first | with_reducible assumption | with_reducible apply State.launchFault_inv | with_reducible apply State.countErr_inv | with_reducible apply State.updLaunch_inv | with_reducible apply State.Inv.wf | (with_reducible refine State.Inv.of_wf ?_; dsimp only) | split)
theorem State.deferTo_inv (s : State) (a : Agent) (team : Nat) (r : PendRec) (hs : s.Inv) : (State.deferTo s a team r).Inv := by
  unfold State.deferTo
  repeat' (first | with_reducible assumption | with_reducible apply State.launchFault_inv | with_reducible apply State.deferSaved_inv | with_reducible apply State.pendFault_inv | split)
theorem State.assignStream_inv (s : State) (core : Nat) (m : Stream) (hs : s.Inv) : (State.assignStream s core m).Inv := by
  unfold State.assignStream
  repeat' (first | with_reducible assumption | with_reducible apply State.updStream_inv | with_reducible apply State.launchFault_inv | with_reducible apply State.pendFault_inv | with_reducible apply State.report_inv | with_reducible apply State.Inv.wf | (with_reducible refine State.Inv.of_wf ?_; dsimp only) | split)
theorem State.streamFault_inv (s : State) (core : Nat) (m : Stream) (cause sub level : Nat) (pc addr : W64) (hs : s.Inv) : (State.streamFault s core m cause sub level pc addr).Inv := by
  unfold State.streamFault
  repeat' (first | with_reducible assumption | with_reducible apply State.setStream_inv | with_reducible apply State.assignStream_inv)
theorem State.streamTrap_inv (s : State) (core : Nat) (m : Stream) (cause sub : Nat) (addr : W64) (hs : s.Inv) : (State.streamTrap s core m cause sub addr).Inv := by
  unfold State.streamTrap
  repeat' (first | with_reducible assumption | with_reducible apply State.streamFault_inv)
theorem State.streamXlat_inv (s : State) (core : Nat) (m : Stream) (e : XErr) (addr : W64) (hs : s.Inv) : (State.streamXlat s core m e addr).Inv := by
  unfold State.streamXlat
  repeat' (first | with_reducible assumption | with_reducible apply State.streamFault_inv)
theorem seqWord_inv {i : Instr} {s : State} {run : Nat → Stream → State} (hs : s.Inv) (h : ∀ c m, (run c m).Inv) : OutInv (seqWord i s run) := by
  unfold seqWord
  apply withStream_inv; intro c m
  split
  · apply State.streamTrap_inv; exact hs
  · exact h c m
theorem State.setBarrier_inv (s : State) (team lvl id : Nat) (b : Barrier) (hs : s.Inv) : (State.setBarrier s team lvl id b).Inv := by
  unfold State.setBarrier
  repeat' (first | with_reducible assumption | with_reducible apply State.updLaunch_inv | with_reducible apply State.setTeam_inv | with_reducible apply State.Inv.wf | (with_reducible refine State.Inv.of_wf ?_; dsimp only) | split)
theorem State.leaveBarriers_inv (s : State) (team local_ : Nat) (hs : s.Inv) : (State.leaveBarriers s team local_).Inv := by
  unfold State.leaveBarriers
  repeat' (first | with_reducible assumption | with_reducible apply State.updLaunch_inv | with_reducible apply State.setTeam_inv | with_reducible apply State.Inv.wf | (with_reducible refine State.Inv.of_wf ?_; dsimp only) | split)
theorem State.retireFrame_inv (s : State) (die : Nat) (frame : W64) (hs : s.Inv) : (State.retireFrame s die frame).Inv := by
  unfold State.retireFrame
  repeat' (first | with_reducible assumption | with_reducible apply State.setDie_inv | with_reducible apply State.setTile_inv | with_reducible apply State.Inv.wf | with_reducible apply State.Inv.foldl | (with_reducible refine State.Inv.of_wf ?_; dsimp only) | with_reducible intro _ | split)
theorem State.unrefTile_inv (s : State) (t : Nat) (hs : s.Inv) : (State.unrefTile s t).Inv := by
  unfold State.unrefTile
  repeat' (first | with_reducible assumption | with_reducible apply State.retireFrame_inv | with_reducible apply State.setTile_inv | with_reducible apply State.Inv.wf | (with_reducible refine State.Inv.of_wf ?_; dsimp only) | split)
theorem State.dropRefs_inv (s : State) (core slot : Nat) (hs : s.Inv) : (State.dropRefs s core slot).Inv := by
  unfold State.dropRefs
  repeat' (first | with_reducible assumption | with_reducible apply State.unrefTile_inv | with_reducible apply State.setWave_inv | with_reducible apply State.Inv.foldl | with_reducible intro _ | split)
theorem State.releaseRefs_inv (s : State) (core slot : Nat) (hs : s.Inv) : (State.releaseRefs s core slot).Inv := by
  unfold State.releaseRefs
  repeat' (first | with_reducible assumption | with_reducible apply State.setWave_inv | with_reducible apply State.dropRefs_inv | with_reducible apply State.Inv.wf | (with_reducible refine State.Inv.of_wf ?_; dsimp only) | split)
theorem State.endWave_inv (s : State) (core slot : Nat) (w : Wave) (hs : s.Inv) : (State.endWave s core slot w).Inv := by
  unfold State.endWave
  repeat' (first | with_reducible assumption | with_reducible apply State.updStream_inv | with_reducible apply State.setWave_inv | with_reducible apply State.launchFault_inv | with_reducible apply State.leaveBarriers_inv | with_reducible apply State.releaseRefs_inv | with_reducible apply State.updTeam_inv | with_reducible apply State.Inv.wf | (with_reducible refine State.Inv.of_wf ?_; dsimp only) | split)
theorem State.stepStream_inv (s : State) (core : Nat) (m : Stream) (hs : s.Inv) : (State.stepStream s core m).Inv := by
  unfold State.stepStream
  repeat' (first | with_reducible assumption | with_reducible apply State.setStream_inv | with_reducible apply State.leaveBarriers_inv | with_reducible apply State.Inv.wf | (with_reducible refine State.Inv.of_wf ?_; dsimp only) | split)
theorem State.endStream_inv (s : State) (core : Nat) (m : Stream) (hs : s.Inv) : (State.endStream s core m).Inv := by
  unfold State.endStream
  repeat' (first | with_reducible assumption | with_reducible apply State.stepStream_inv)
theorem State.issueReq_inv (s : State) (core slot : Nat) (w : Wave) (p : Path) (word : W64) (sem scope : Nat) (accs : List Access) (ret : Ret) (phase : Nat) (hs : s.Inv) : (State.issueReq s core slot w p word sem scope accs ret phase).Inv := by
  unfold State.issueReq
  repeat' (first | with_reducible assumption | with_reducible apply State.setWave_inv | with_reducible apply State.Inv.wf | (with_reducible refine State.Inv.of_wf ?_; dsimp only))
theorem State.tagLast_inv (s : State) (core slot : Nat) (lines : List Nat) (hs : s.Inv) : (State.tagLast s core slot lines).Inv := by
  unfold State.tagLast
  repeat' (first | with_reducible assumption | with_reducible apply State.updWave_inv | split)
theorem State.releaseFor_inv (s : State) (core slot : Nat) (paired : Bool) (scope : Nat) (hs : s.Inv) : (State.releaseFor s core slot paired scope).Inv := by
  unfold State.releaseFor
  repeat' (first | with_reducible assumption | with_reducible apply State.tagLast_inv | with_reducible apply State.columnRelease_inv | split)
theorem State.sweepFor_inv (s : State) (core slot : Nat) (p : ColLine → Bool) (inv : Bool) (hs : s.Inv) : (State.sweepFor s core slot p inv).Inv := by
  unfold State.sweepFor
  repeat' (first | with_reducible assumption | with_reducible apply State.tagLast_inv | with_reducible apply State.colSweep_inv)
theorem State.acquireFor_inv (s : State) (core slot : Nat) (paired : Bool) (scope : Nat) (hs : s.Inv) : (State.acquireFor s core slot paired scope).Inv := by
  unfold State.acquireFor
  repeat' (first | with_reducible assumption | with_reducible apply State.sweepFor_inv | split)
theorem State.sendReq_inv (s : State) (core slot : Nat) (w : Wave) (q : Req) (hs : s.Inv) : (State.sendReq s core slot w q).Inv := by
  unfold State.sendReq
  repeat' (first | with_reducible assumption | with_reducible apply State.setWave_inv | with_reducible apply State.releaseFor_inv | with_reducible apply State.Inv.wf | (with_reducible refine State.Inv.of_wf ?_; dsimp only) | split)
theorem State.spadWrite_inv (s : State) (t : Team) (off : Nat) (bs : List Byte) (hs : s.Inv) : (State.spadWrite s t off bs).Inv := by
  unfold State.spadWrite
  repeat' (first | with_reducible assumption | with_reducible apply State.storeWrite_inv)

/-! SysWords -/

theorem State.msResume_inv (s : State) (core : Nat) (m : Stream) (v : Nat) (hs : s.Inv) : (State.msResume s core m v).Inv := by
  unfold State.msResume
  repeat' (first | with_reducible assumption | with_reducible apply State.endStream_inv | with_reducible apply State.setStream_inv | with_reducible apply State.Inv.wf | (with_reducible refine State.Inv.of_wf ?_; dsimp only) | split)
theorem execSrd_inv (f : FmtY) (s : State) (hs : s.Inv) : OutInv (execSrd f s) := by
  unfold execSrd
  repeat' (first | with_reducible assumption | with_reducible apply State.setWave_inv | with_reducible apply sysWord_inv | with_reducible apply State.trapAt_inv | with_reducible intro _ | split)
theorem execSwr_inv (f : FmtY) (s : State) (hs : s.Inv) : OutInv (execSwr f s) := by
  unfold execSwr
  repeat' (first | with_reducible assumption | with_reducible apply State.setWave_inv | with_reducible apply State.msResume_inv | with_reducible apply State.setStream_inv | with_reducible apply State.doneWave_inv | with_reducible apply State.idemLost_inv | with_reducible apply sysWord_inv | with_reducible apply State.trapAt_inv | with_reducible apply State.Inv.wf | (with_reducible refine State.Inv.of_wf ?_; dsimp only) | with_reducible intro _ | split)
theorem execEret_inv (f : FmtY) (s : State) (hs : s.Inv) : OutInv (execEret f s) := by
  unfold execEret
  repeat' (first | with_reducible assumption | with_reducible apply State.setWave_inv | with_reducible apply sysWord_inv | with_reducible intro _)
theorem execBrk_inv (f : FmtY) (s : State) (hs : s.Inv) : OutInv (execBrk f s) := by
  unfold execBrk
  repeat' (first | with_reducible assumption | with_reducible apply State.trapHeader_inv | with_reducible apply sysWord_inv | with_reducible intro _)
theorem execCntrd_inv (f : FmtY) (s : State) (hs : s.Inv) : OutInv (execCntrd f s) := by
  unfold execCntrd
  repeat' (first | with_reducible assumption | with_reducible apply State.setWave_inv | with_reducible apply sysWord_inv | with_reducible apply State.setCore_inv | with_reducible apply State.Inv.wf | (with_reducible refine State.Inv.of_wf ?_; dsimp only) | with_reducible intro _ | split)
theorem execCntcfg_inv (f : FmtY) (s : State) (hs : s.Inv) : OutInv (execCntcfg f s) := by
  unfold execCntcfg
  repeat' (first | with_reducible assumption | with_reducible apply State.setWave_inv | with_reducible apply sysWord_inv | with_reducible apply State.trapAt_inv | with_reducible apply State.setCore_inv | with_reducible apply State.Inv.wf | (with_reducible refine State.Inv.of_wf ?_; dsimp only) | with_reducible intro _ | split)
theorem execTime_inv (f : FmtY) (s : State) (hs : s.Inv) : OutInv (execTime f s) := by
  unfold execTime
  repeat' (first | with_reducible assumption | with_reducible apply State.setWave_inv | with_reducible apply sysWord_inv | with_reducible intro _)
theorem execIsync_inv (f : FmtY) (s : State) (hs : s.Inv) : OutInv (execIsync f s) := by
  unfold execIsync
  repeat' (first | with_reducible assumption | with_reducible apply State.setCore_inv | with_reducible apply State.doneWave_inv | with_reducible apply State.releaseFor_inv | with_reducible apply State.setWave_inv | with_reducible apply sysWord_inv | with_reducible apply State.sweepFor_inv | with_reducible apply State.Inv.wf | (with_reducible refine State.Inv.of_wf ?_; dsimp only) | with_reducible intro _ | split)

/-! Sync -/

theorem State.arriveNow_inv (s : State) (core slot : Nat) (w : Wave) (lvl id : Nat) (hs : s.Inv) : OptInv (State.arriveNow s core slot w lvl id) := by
  unfold State.arriveNow
  repeat' (first | with_reducible assumption | with_reducible exact OptInv.ofNone | with_reducible apply OptInv.ofSome | with_reducible apply State.setBarrier_inv | with_reducible apply State.releaseFor_inv | with_reducible apply State.pmcCount_inv | split)
theorem State.flushArrivals_inv (n : Nat) (s : State) (core slot : Nat) (hs : s.Inv) : (State.flushArrivals n s core slot).Inv := by
  induction n generalizing s with
  | zero => exact hs
  | succ n ih =>
    unfold State.flushArrivals
    repeat' (first | with_reducible assumption | with_reducible apply ih | with_reducible apply State.updWave_inv | split | with_reducible refine OptInv.elim (by assumption) ?_ | with_reducible apply State.arriveNow_inv)
theorem State.flushAll_inv (s : State) (hs : s.Inv) : (State.flushAll s).Inv := by
  unfold State.flushAll
  repeat' (first | with_reducible assumption | with_reducible apply State.flushArrivals_inv | with_reducible apply State.Inv.foldl | with_reducible intro _)
theorem State.arriveWord_inv (s : State) (core slot : Nat) (w : Wave) (lvl id : Nat) (hs : s.Inv) : OptInv (State.arriveWord s core slot w lvl id) := by
  unfold State.arriveWord
  repeat' (first | with_reducible assumption | with_reducible exact OptInv.ofNone | with_reducible apply OptInv.ofSome | with_reducible apply State.idemLost_inv | with_reducible apply State.setWave_inv | with_reducible apply State.flushAll_inv | split)
theorem execBarr_inv (f : FmtQ) (s : State) (hs : s.Inv) : OutInv (execBarr f s) := by
  unfold execBarr
  repeat' (first | with_reducible assumption | with_reducible apply State.arriveWord_inv | with_reducible apply sysWord_inv | with_reducible apply State.setWave_inv | with_reducible apply State.trapAt_inv | with_reducible apply State.doneWave_inv | with_reducible intro _ | split | extract_lets | with_reducible refine OptInv.elim (by assumption) ?_)
theorem State.barrierWait_inv (s : State) (core slot : Nat) (lvl id : Nat) (hs : s.Inv) : (State.barrierWait s core slot lvl id).Inv := by
  unfold State.barrierWait
  repeat' (first | with_reducible assumption | with_reducible apply State.columnAcquire_inv | with_reducible apply State.setWave_inv | with_reducible apply State.flushAll_inv | with_reducible apply State.doneWave_inv | with_reducible apply State.Inv.wf | (with_reducible refine State.Inv.of_wf ?_; dsimp only) | split)
theorem execBarw_inv (f : FmtQ) (s : State) (hs : s.Inv) : OutInv (execBarw f s) := by
  unfold execBarw
  repeat' (first | with_reducible assumption | with_reducible apply sysWord_inv | with_reducible apply State.trapAt_inv | with_reducible apply State.barrierWait_inv | with_reducible intro _ | split)
theorem execBarrw_inv (f : FmtQ) (s : State) (hs : s.Inv) : OutInv (execBarrw f s) := by
  unfold execBarrw
  repeat' (first | with_reducible assumption | with_reducible apply State.arriveWord_inv | with_reducible apply sysWord_inv | with_reducible apply State.setWave_inv | with_reducible apply State.trapAt_inv | with_reducible apply State.barrierWait_inv | with_reducible intro _ | split | extract_lets | with_reducible refine OptInv.elim (by assumption) ?_)
theorem State.phaseArrive_inv (s : State) (team pos : Nat) (it : PhaseItem) (hs : s.Inv) : (State.phaseArrive s team pos it).Inv := by
  unfold State.phaseArrive
  repeat' (first | with_reducible assumption | with_reducible apply State.count_inv | with_reducible apply State.setTeam_inv | with_reducible apply State.pmcCount_inv | with_reducible apply State.Inv.wf | (with_reducible refine State.Inv.of_wf ?_; dsimp only) | split)
theorem State.dropWatch_inv (s : State) (team : Nat) (hs : s.Inv) : (State.dropWatch s team).Inv := by
  unfold State.dropWatch
  repeat' (first | with_reducible assumption | with_reducible apply State.Inv.wf | (with_reducible refine State.Inv.of_wf ?_; dsimp only))
theorem execPhbeg_inv (f : FmtQ) (s : State) (hs : s.Inv) : OutInv (execPhbeg f s) := by
  unfold execPhbeg
  repeat' (first | with_reducible assumption | with_reducible apply State.setWave_inv | with_reducible apply sysWord_inv | with_reducible apply State.trapAt_inv | with_reducible apply State.touchTlb_inv | with_reducible apply State.idemLost_inv | with_reducible apply State.updTeam_inv | with_reducible apply State.dropWatch_inv | with_reducible apply State.Inv.wf | (with_reducible refine State.Inv.of_wf ?_; dsimp only) | with_reducible intro _ | split)
theorem execPhwait_inv (f : FmtQ) (s : State) (hs : s.Inv) : OutInv (execPhwait f s) := by
  unfold execPhwait
  repeat' (first | with_reducible assumption | with_reducible apply State.columnAcquire_inv | with_reducible apply sysWord_inv | with_reducible apply State.setWave_inv | with_reducible apply State.trapAt_inv | with_reducible apply State.doneWave_inv | with_reducible intro _ | split)
theorem execPhaseComplete_inv (t : Nat) (s : State) (hs : s.Inv) : OutInv (execPhaseComplete t s) := by
  unfold execPhaseComplete
  repeat' (first | with_reducible assumption | with_reducible apply OutInv.next | with_reducible apply State.dropWatch_inv | with_reducible apply State.setTeam_inv | split)
theorem execPhaseWatchRegister_inv (t : Nat) (s : State) (hs : s.Inv) : OutInv (execPhaseWatchRegister t s) := by
  unfold execPhaseWatchRegister
  repeat' (first | with_reducible assumption | with_reducible apply OutInv.next | with_reducible apply State.setSlice_inv | with_reducible apply State.setTeam_inv | split)

/-! MemWords -/

theorem State.touchAll_inv (s : State) (core : Nat) (lvl : Level) (vas : List W64) (hs : s.Inv) : (State.touchAll s core lvl vas).Inv := by
  unfold State.touchAll
  repeat' (first | with_reducible assumption | with_reducible apply State.touchTlb_inv | with_reducible apply State.Inv.foldl | with_reducible intro _ | split)
theorem State.touchFault_inv (s : State) (core : Nat) (va : W64) (e : XErr) (hs : s.Inv) : (State.touchFault s core va e).Inv := by
  unfold State.touchFault
  repeat' (first | with_reducible assumption | with_reducible apply State.touchTlb_inv | split)
theorem State.issueVec_inv (s : State) (c k : Nat) (w : Wave) (f : FmtM) (p : MemPlan) (hs : s.Inv) : (State.issueVec s c k w f p).Inv := by
  unfold State.issueVec
  repeat' (first | with_reducible assumption | with_reducible apply State.issueReq_inv | with_reducible apply State.touchAll_inv | with_reducible apply State.trapAt_inv | with_reducible apply State.setWave_inv | with_reducible apply State.idemLost_inv | with_reducible apply State.Inv.wf | (with_reducible refine State.Inv.of_wf ?_; dsimp only) | split)
theorem execLdl_inv (f : FmtM) (s : State) (hs : s.Inv) : OutInv (execLdl f s) := by
  unfold execLdl
  repeat' (first | with_reducible assumption | with_reducible apply sysWord_inv | with_reducible apply State.issueVec_inv | with_reducible intro _)
theorem execStl_inv (f : FmtM) (s : State) (hs : s.Inv) : OutInv (execStl f s) := by
  unfold execStl
  repeat' (first | with_reducible assumption | with_reducible apply sysWord_inv | with_reducible apply State.issueVec_inv | with_reducible intro _)
theorem execLds_inv (f : FmtM) (s : State) (hs : s.Inv) : OutInv (execLds f s) := by
  unfold execLds
  repeat' (first | with_reducible assumption | with_reducible apply sysWord_inv | with_reducible apply State.issueVec_inv | with_reducible intro _)
theorem execSts_inv (f : FmtM) (s : State) (hs : s.Inv) : OutInv (execSts f s) := by
  unfold execSts
  repeat' (first | with_reducible assumption | with_reducible apply sysWord_inv | with_reducible apply State.issueVec_inv | with_reducible intro _)
theorem execLdc_inv (f : FmtM) (s : State) (hs : s.Inv) : OutInv (execLdc f s) := by
  unfold execLdc
  repeat' (first | with_reducible assumption | with_reducible apply sysWord_inv | with_reducible apply State.issueVec_inv | with_reducible intro _)
theorem execStc_inv (f : FmtM) (s : State) (hs : s.Inv) : OutInv (execStc f s) := by
  unfold execStc
  repeat' (first | with_reducible assumption | with_reducible apply sysWord_inv | with_reducible apply State.issueVec_inv | with_reducible intro _)
theorem execLdp_inv (f : FmtM) (s : State) (hs : s.Inv) : OutInv (execLdp f s) := by
  unfold execLdp
  repeat' (first | with_reducible assumption | with_reducible apply sysWord_inv | with_reducible apply State.issueVec_inv | with_reducible intro _)
theorem execStp_inv (f : FmtM) (s : State) (hs : s.Inv) : OutInv (execStp f s) := by
  unfold execStp
  repeat' (first | with_reducible assumption | with_reducible apply sysWord_inv | with_reducible apply State.issueVec_inv | with_reducible intro _)
theorem execLdg_inv (f : FmtM) (s : State) (hs : s.Inv) : OutInv (execLdg f s) := by
  unfold execLdg
  repeat' (first | with_reducible assumption | with_reducible apply sysWord_inv | with_reducible apply State.issueVec_inv | with_reducible intro _)
theorem execStg_inv (f : FmtM) (s : State) (hs : s.Inv) : OutInv (execStg f s) := by
  unfold execStg
  repeat' (first | with_reducible assumption | with_reducible apply sysWord_inv | with_reducible apply State.issueVec_inv | with_reducible intro _)
theorem State.issueScalar_inv (s : State) (c k : Nat) (w : Wave) (f : FmtM) (path : Path) (n : Nat) (i : Intent) (lost : Bool) (op : AccOp) (ret : Ret) (hs : s.Inv) : (State.issueScalar s c k w f path n i lost op ret).Inv := by
  unfold State.issueScalar
  repeat' (first | with_reducible assumption | with_reducible apply State.setWave_inv | with_reducible apply State.trapAt_inv | with_reducible apply State.issueReq_inv | with_reducible apply State.touchFault_inv | with_reducible apply State.touchTlb_inv | with_reducible apply State.idemLost_inv | with_reducible apply State.Inv.wf | (with_reducible refine State.Inv.of_wf ?_; dsimp only) | split)
theorem execSld_inv (f : FmtM) (s : State) (hs : s.Inv) : OutInv (execSld f s) := by
  unfold execSld
  repeat' (first | with_reducible assumption | with_reducible apply State.issueScalar_inv | with_reducible apply sysWord_inv | with_reducible intro _)
theorem execSst_inv (f : FmtM) (s : State) (hs : s.Inv) : OutInv (execSst f s) := by
  unfold execSst
  repeat' (first | with_reducible assumption | with_reducible apply State.issueScalar_inv | with_reducible apply sysWord_inv | with_reducible intro _)
theorem execLdq_inv (f : FmtM) (s : State) (hs : s.Inv) : OutInv (execLdq f s) := by
  unfold execLdq
  repeat' (first | with_reducible assumption | with_reducible apply State.touchAll_inv | with_reducible apply State.setWave_inv | with_reducible apply sysWord_inv | with_reducible apply State.trapAt_inv | with_reducible apply State.issueReq_inv | with_reducible apply State.setTeam_inv | with_reducible apply State.Inv.wf | (with_reducible refine State.Inv.of_wf ?_; dsimp only) | with_reducible intro _ | split)
theorem State.prefetch_inv (s : State) (cl : Nat) (va : W64) (hs : s.Inv) : (State.prefetch s cl va).Inv := by
  unfold State.prefetch
  repeat' (first | with_reducible assumption | with_reducible apply State.count_inv | with_reducible apply State.takePrefetch_inv | with_reducible apply State.touchTlb_inv | split)
theorem execPfg_inv (f : FmtM) (s : State) (hs : s.Inv) : OutInv (execPfg f s) := by
  unfold execPfg
  repeat' (first | with_reducible assumption | with_reducible apply State.prefetch_inv | with_reducible apply sysWord_inv | with_reducible apply State.trapAt_inv | with_reducible apply State.setWave_inv | with_reducible apply State.Inv.wf | with_reducible apply State.Inv.foldl | (with_reducible refine State.Inv.of_wf ?_; dsimp only) | with_reducible intro _ | split)
theorem execTld_inv (f : FmtM) (s : State) (hs : s.Inv) : OutInv (execTld f s) := by
  unfold execTld
  repeat' (first | with_reducible assumption | with_reducible apply State.touchAll_inv | with_reducible apply State.setWave_inv | with_reducible apply sysWord_inv | with_reducible apply State.trapAt_inv | with_reducible apply State.issueReq_inv | with_reducible apply State.touchFault_inv | with_reducible apply State.Inv.wf | (with_reducible refine State.Inv.of_wf ?_; dsimp only) | with_reducible intro _ | split)
theorem execTst_inv (f : FmtM) (s : State) (hs : s.Inv) : OutInv (execTst f s) := by
  unfold execTst
  repeat' (first | with_reducible assumption | with_reducible apply State.touchAll_inv | with_reducible apply State.setWave_inv | with_reducible apply sysWord_inv | with_reducible apply State.trapAt_inv | with_reducible apply State.issueReq_inv | with_reducible apply State.touchFault_inv | with_reducible apply State.idemLost_inv | with_reducible apply State.Inv.wf | (with_reducible refine State.Inv.of_wf ?_; dsimp only) | with_reducible intro _ | split)
theorem State.columnWord_inv (s : State) (c k : Nat) (w : Wave) (f : FmtM) (inv : Bool) (hs : s.Inv) : (State.columnWord s c k w f inv).Inv := by
  unfold State.columnWord
  repeat' (first | with_reducible assumption | with_reducible apply State.touchAll_inv | with_reducible apply State.tagLast_inv | with_reducible apply State.doneWave_inv | with_reducible apply State.setWave_inv | with_reducible apply State.trapAt_inv | with_reducible apply State.colClean_inv | with_reducible apply State.colSweep_inv | with_reducible apply State.colEvict_inv | with_reducible apply State.Inv.wf | with_reducible apply State.Inv.foldl | (with_reducible refine State.Inv.of_wf ?_; dsimp only) | with_reducible intro _ | split)
theorem execClean_inv (f : FmtM) (s : State) (hs : s.Inv) : OutInv (execClean f s) := by
  unfold execClean
  repeat' (first | with_reducible assumption | with_reducible apply sysWord_inv | with_reducible apply State.columnWord_inv | with_reducible intro _)
theorem execInval_inv (f : FmtM) (s : State) (hs : s.Inv) : OutInv (execInval f s) := by
  unfold execInval
  repeat' (first | with_reducible assumption | with_reducible apply sysWord_inv | with_reducible apply State.columnWord_inv | with_reducible intro _)
theorem execDiscard_inv (f : FmtM) (s : State) (hs : s.Inv) : OutInv (execDiscard f s) := by
  unfold execDiscard
  repeat' (first | with_reducible assumption | with_reducible apply State.issueReq_inv | with_reducible apply State.touchAll_inv | with_reducible apply sysWord_inv | with_reducible apply State.trapAt_inv | with_reducible apply State.setWave_inv | with_reducible apply State.idemLost_inv | with_reducible apply State.Inv.wf | (with_reducible refine State.Inv.of_wf ?_; dsimp only) | with_reducible intro _ | split)
theorem execAtom_inv (f : FmtM) (s : State) (hs : s.Inv) : OutInv (execAtom f s) := by
  unfold execAtom
  repeat' (first | with_reducible assumption | with_reducible apply sysWord_inv | with_reducible apply State.issueVec_inv | with_reducible intro _)
theorem execAcas_inv (f : FmtM) (s : State) (hs : s.Inv) : OutInv (execAcas f s) := by
  unfold execAcas
  repeat' (first | with_reducible assumption | with_reducible apply sysWord_inv | with_reducible apply State.issueVec_inv | with_reducible intro _)
theorem execRed_inv (f : FmtM) (s : State) (hs : s.Inv) : OutInv (execRed f s) := by
  unfold execRed
  repeat' (first | with_reducible assumption | with_reducible apply sysWord_inv | with_reducible apply State.issueVec_inv | with_reducible intro _)
theorem execFence_inv (f : FmtM) (s : State) (hs : s.Inv) : OutInv (execFence f s) := by
  unfold execFence
  repeat' (first | with_reducible assumption | with_reducible apply State.releaseFor_inv | with_reducible apply State.setWave_inv | with_reducible apply sysWord_inv | with_reducible apply State.sweepFor_inv | with_reducible apply State.acquireFor_inv | with_reducible apply State.updWave_inv | with_reducible apply State.Inv.wf | (with_reducible refine State.Inv.of_wf ?_; dsimp only) | with_reducible intro _ | split)

/-! Bins -/

theorem State.classified_inv (s : State) (t : Nat) (hs : s.Inv) : (State.classified s t).Inv := by
  unfold State.classified
  repeat' (first | with_reducible assumption | with_reducible apply State.setTile_inv | with_reducible apply State.unrefTile_inv | with_reducible apply State.Inv.wf | (with_reducible refine State.Inv.of_wf ?_; dsimp only) | split)
theorem State.classifiedAll_inv (s : State) (es : List BinEntry) (hs : s.Inv) : (State.classifiedAll s es).Inv := by
  unfold State.classifiedAll
  repeat' (first | with_reducible assumption | with_reducible apply State.classified_inv | with_reducible apply State.Inv.foldl)
theorem State.binPut_inv (die m : Nat) (s : State) (e : BinEntry) (hs : s.Inv) : (State.binPut die m s e).Inv := by
  unfold State.binPut
  repeat' (first | with_reducible assumption | with_reducible apply State.setDie_inv | with_reducible apply State.storeWrite_inv | with_reducible apply State.Inv.wf | (with_reducible refine State.Inv.of_wf ?_; dsimp only) | split)
theorem State.upsetChip_inv (s : State) (word : Nat) (hs : s.Inv) : (State.upsetChip s word).Inv := by
  unfold State.upsetChip
  repeat' (first | with_reducible assumption | with_reducible apply State.setDie_inv | with_reducible apply State.upsetStore_inv)
theorem State.binAppend_inv (s : State) (die m : Nat) (es : List BinEntry) (hs : s.Inv) : (State.binAppend s die m es).Inv := by
  unfold State.binAppend
  repeat' (first | with_reducible assumption | with_reducible apply State.count_inv | with_reducible apply State.binPut_inv | with_reducible apply State.Inv.foldl | split)
theorem State.placeHits_inv (die : Nat) (s : State) (l : List (Nat × BinEntry)) (hs : s.Inv) : (State.placeHits die s l).1.Inv := by
  induction l generalizing s with
  | nil => exact hs
  | cons a l ih =>
    unfold State.placeHits
    split
    · apply ih; apply State.count_inv; apply State.binAppend_inv; exact hs
    · exact hs
theorem State.discardBins_inv (s : State) (m : Nat) (hs : s.Inv) : (State.discardBins s m).Inv := by
  unfold State.discardBins
  repeat' (first | with_reducible assumption | with_reducible apply State.classifiedAll_inv | with_reducible apply State.count_inv | with_reducible apply State.setDie_inv | with_reducible apply State.Inv.wf | with_reducible apply State.Inv.foldl | (with_reducible refine State.Inv.of_wf ?_; dsimp only) | with_reducible intro _ | split)

/-! Return -/

theorem State.trackMiss_inv (s : State) (cl core line : Nat) (hs : s.Inv) : (State.trackMiss s cl core line).Inv := by
  unfold State.trackMiss
  repeat' (first | with_reducible assumption | with_reducible apply State.takePrefetch_inv | with_reducible apply State.setCluster_inv | with_reducible apply State.Inv.wf | with_reducible apply State.Inv.foldl | (with_reducible refine State.Inv.of_wf ?_; dsimp only) | with_reducible intro _ | split)
theorem State.deliverLine_inv (s : State) (core pa n : Nat) (col uo bad : Bool) (hs : s.Inv) : (State.deliverLine s core pa n col uo bad).1.Inv := by
  unfold State.deliverLine
  repeat' (first | with_reducible assumption | with_reducible apply State.colFill_inv | with_reducible apply State.Inv.wf | (with_reducible refine State.Inv.of_wf ?_; dsimp only) | split)
theorem State.readAtOnce_inv (s : State) (core pa n : Nat) (who : Option (Nat × Nat)) (col uo plain : Bool) (hs : s.Inv) : (State.readAtOnce s core pa n who col uo plain).1.Inv := by
  unfold State.readAtOnce
  repeat' (first | with_reducible assumption | with_reducible apply State.passMiss_inv | with_reducible apply State.endMiss_inv | with_reducible apply State.deliverLine_inv | with_reducible apply State.clusterLookup_inv | with_reducible apply State.serveLine_inv | with_reducible apply State.Inv.wf | (with_reducible refine State.Inv.of_wf ?_; dsimp only) | split)
theorem State.readThrough_inv (s : State) (core pa n : Nat) (who : Option (Nat × Nat)) (hs : s.Inv) : (State.readThrough s core pa n who).1.Inv := by
  unfold State.readThrough
  repeat' (first | with_reducible assumption | with_reducible apply State.readAtOnce_inv | with_reducible apply State.colEvict_inv)
theorem State.readColumn_inv (s : State) (core team pa n : Nat) (who : Option (Nat × Nat)) (uo : Bool) (hs : s.Inv) : (State.readColumn s core team pa n who uo).1.Inv := by
  unfold State.readColumn
  repeat' (first | with_reducible assumption | with_reducible apply State.readAtOnce_inv | with_reducible apply State.trackMiss_inv | with_reducible apply State.pmcCount_inv | with_reducible apply State.Inv.wf | (with_reducible refine State.Inv.of_wf ?_; dsimp only) | split)
theorem State.readBelow_inv (s : State) (core pa n : Nat) (who : Nat × Nat) (col uo so plain : Bool) (hs : s.Inv) : (State.readBelow s core pa n who col uo so plain).1.Inv := by
  unfold State.readBelow
  repeat' (first | with_reducible assumption | with_reducible apply State.trackMiss_inv | with_reducible apply State.deliverLine_inv | with_reducible apply State.serveLine_inv | with_reducible apply State.endMiss_inv | with_reducible apply State.takeMiss_inv | with_reducible apply State.clusterLookup_inv | with_reducible apply State.Inv.wf | (with_reducible refine State.Inv.of_wf ?_; dsimp only) | split)
theorem State.countColumn_inv (s : State) (core team : Nat) (x : Access) (who : Nat × Nat) (ev : Nat) (hs : s.Inv) : (State.countColumn s core team x who ev).Inv := by
  unfold State.countColumn
  repeat' (first | with_reducible assumption | with_reducible apply State.pmcCount_inv | split)
theorem State.readAccess_inv (s : State) (core team who : Nat) (q : Req) (x : Access) (hs : s.Inv) : (State.readAccess s core team who q x).1.Inv := by
  unfold State.readAccess
  repeat' (first | with_reducible assumption | with_reducible apply State.readBelow_inv | with_reducible apply State.homeReadBytes_inv | with_reducible apply State.endMiss_inv | with_reducible apply State.colEvict_inv | with_reducible apply State.countColumn_inv | with_reducible apply State.Inv.wf | (with_reducible refine State.Inv.of_wf ?_; dsimp only) | split)
theorem execHomeRead_inv (a : Agent) (rq i : Nat) (s : State) (hs : s.Inv) : OutInv (execHomeRead a rq i s) := by
  unfold execHomeRead
  repeat' (first | with_reducible assumption | with_reducible apply OutInv.next | with_reducible apply State.updWave_inv | with_reducible apply State.readAccess_inv | with_reducible apply State.sendReq_inv | split | extract_lets)
theorem State.tagWave_inv (s : State) (c k line : Nat) (hs : s.Inv) : (State.tagWave s c k line).Inv := by
  unfold State.tagWave
  repeat' (first | with_reducible assumption | with_reducible apply State.updWave_inv)
theorem State.meetCluster_inv (s : State) (core : Nat) (who : Nat) (q : Req) (x : Access) (hs : s.Inv) : (State.meetCluster s core who q x).Inv := by
  unfold State.meetCluster
  repeat' (first | with_reducible assumption | with_reducible apply State.clusterLookup_inv | with_reducible apply State.trackMiss_inv | with_reducible apply State.Inv.wf | (with_reducible refine State.Inv.of_wf ?_; dsimp only) | split)
theorem State.throughEntry_inv (s : State) (core : Nat) (who : Nat) (q : Req) (x : Access) (hs : s.Inv) : (State.throughEntry s core who q x).Inv := by
  unfold State.throughEntry
  repeat' (first | with_reducible assumption | with_reducible apply State.endMiss_inv | with_reducible apply State.takeMiss_inv | with_reducible apply State.Inv.wf | (with_reducible refine State.Inv.of_wf ?_; dsimp only) | split)
theorem State.awaitEntry_inv (s : State) (core : Nat) (who : Nat) (q : Req) (x : Access) (hs : s.Inv) : (State.awaitEntry s core who q x).Inv := by
  unfold State.awaitEntry
  repeat' (first | with_reducible assumption | with_reducible apply State.meetCluster_inv | with_reducible apply State.takeMiss_inv | with_reducible apply State.Inv.wf | (with_reducible refine State.Inv.of_wf ?_; dsimp only) | split)
theorem State.writeHome_inv (s : State) (core who : Nat) (q : Req) (x : Access) (n d : Nat) (hs : s.Inv) : (State.writeHome s core who q x n d).Inv := by
  unfold State.writeHome
  repeat' (first | with_reducible assumption | with_reducible apply State.meetCluster_inv | with_reducible apply State.homeWriteBytes_inv | with_reducible apply State.throughEntry_inv | with_reducible apply State.grantOwned_inv | with_reducible apply State.Inv.wf | (with_reducible refine State.Inv.of_wf ?_; dsimp only) | split)
theorem execHomeWrite_inv (a : Agent) (rq i : Nat) (s : State) (hs : s.Inv) : OutInv (execHomeWrite a rq i s) := by
  unfold execHomeWrite
  repeat' (first | with_reducible assumption | with_reducible apply OutInv.next | with_reducible apply State.tagWave_inv | with_reducible apply State.homeReadBytes_inv | with_reducible apply State.awaitEntry_inv | with_reducible apply State.sendReq_inv | with_reducible apply State.homeDiscard_inv | with_reducible apply State.colStore_inv | with_reducible apply State.dropCol_inv | with_reducible apply State.homeWriteBytes_inv | with_reducible apply State.pmcCount_inv | with_reducible apply State.colEvict_inv | with_reducible apply State.writeHome_inv | with_reducible apply State.updWave_inv | split | extract_lets)
theorem execVersionWordRetry_inv (a : Agent) (rq : Nat) (s : State) (hs : s.Inv) : OutInv (execVersionWordRetry a rq s) := by
  unfold execVersionWordRetry
  repeat' (first | with_reducible assumption | with_reducible apply OutInv.next | with_reducible apply State.tagWave_inv | with_reducible apply State.homeReadBytes_inv | with_reducible apply State.sendReq_inv | with_reducible apply State.homeWriteBytes_inv | with_reducible apply State.colEvict_inv | with_reducible apply State.updWave_inv | split | extract_lets)
theorem execAtomicAtHome_inv (a : Agent) (rq i : Nat) (s : State) (hs : s.Inv) : OutInv (execAtomicAtHome a rq i s) := by
  unfold execAtomicAtHome
  repeat' (first | with_reducible assumption | with_reducible apply OutInv.next | with_reducible apply State.meetCluster_inv | with_reducible apply State.tagWave_inv | with_reducible apply State.homeReadBytes_inv | with_reducible apply State.awaitEntry_inv | with_reducible apply State.sendReq_inv | with_reducible apply State.homeWriteBytes_inv | with_reducible apply State.throughEntry_inv | with_reducible apply State.colEvict_inv | with_reducible apply State.updWave_inv | split | extract_lets | dsimp +zetaDelta only)
theorem State.takeUpdateOnly_inv (s : State) (cl line : Nat) (hs : s.Inv) : (State.takeUpdateOnly s cl line).Inv := by
  have h : (State.takeUpdateOnly.takeIt cl line s).Inv := by
    unfold State.takeUpdateOnly.takeIt
    repeat' (first | with_reducible assumption | with_reducible apply State.takeCopy_inv | with_reducible apply State.dropReplicas_inv | with_reducible apply State.Inv.foldl | with_reducible apply State.dropCopy_inv | with_reducible apply State.recall_inv | with_reducible intro _ | split)
  unfold State.takeUpdateOnly
  repeat' (first | with_reducible assumption | split)
theorem State.contribute_inv (s : State) (cl pa fn x : Nat) (hs : s.Inv) : (State.contribute s cl pa fn x).Inv := by
  unfold State.contribute
  repeat' (first | with_reducible assumption | with_reducible apply State.setCluster_inv | with_reducible apply State.recall_inv | with_reducible apply State.takeUpdateOnly_inv | with_reducible apply State.count_inv | split)
theorem execRedContribution_inv (a : Agent) (rq i : Nat) (s : State) (hs : s.Inv) : OutInv (execRedContribution a rq i s) := by
  unfold execRedContribution
  repeat' (first | with_reducible assumption | with_reducible apply OutInv.next | with_reducible apply State.meetCluster_inv | with_reducible apply State.awaitEntry_inv | with_reducible apply State.sendReq_inv | with_reducible apply State.throughEntry_inv | with_reducible apply State.colEvict_inv | with_reducible apply State.contribute_inv | with_reducible apply State.updWave_inv | split | extract_lets)
theorem State.localPerform_inv (s : State) (c k : Nat) (a : Access) (hs : s.Inv) : (State.localPerform s c k a).1.Inv := by
  unfold State.localPerform
  repeat' (first | with_reducible assumption | with_reducible apply State.storeWrite_inv | with_reducible apply State.setWave_inv | with_reducible apply State.count_inv | with_reducible apply State.Inv.wf | (with_reducible refine State.Inv.of_wf ?_; dsimp only) | split)
theorem State.performLocal_inv (s : State) (c k : Nat) (q : Req) (hs : s.Inv) : (State.performLocal s c k q).Inv := by
  unfold State.performLocal
  repeat' (first | with_reducible assumption | with_reducible apply State.localPerform_inv | with_reducible apply State.updWave_inv | with_reducible apply State.Inv.wf | with_reducible apply State.Inv.foldl | (with_reducible refine State.Inv.of_wf ?_; dsimp only) | with_reducible intro _ | split)
theorem State.deliverTuple_inv (s : State) (c k : Nat) (q : Req) (t : TReq) (hs : s.Inv) : (State.deliverTuple s c k q t).Inv := by
  unfold State.deliverTuple
  repeat' (first | with_reducible assumption | with_reducible apply State.spadWrite_inv | with_reducible apply State.updWave_inv | with_reducible apply State.sawBad_inv | with_reducible apply State.columnAcquire_inv | with_reducible apply State.deferTo_inv | with_reducible apply State.Inv.wf | (with_reducible refine State.Inv.of_wf ?_; dsimp only) | split)
theorem State.writeRet_inv (s : State) (c k : Nat) (q : Req) (hs : s.Inv) : (State.writeRet s c k q).Inv := by
  unfold State.writeRet
  repeat' (first | with_reducible assumption | with_reducible apply State.updTeam_inv | with_reducible apply State.deliverTuple_inv | with_reducible apply State.updWave_inv | with_reducible apply State.unrefTile_inv | with_reducible apply State.Inv.wf | with_reducible apply State.Inv.foldl | (with_reducible refine State.Inv.of_wf ?_; dsimp only) | split)
theorem State.deliverBad_inv (s : State) (c k : Nat) (q : Req) (hs : s.Inv) : (State.deliverBad s c k q).Inv := by
  unfold State.deliverBad
  repeat' (first | with_reducible assumption | with_reducible apply State.sawBad_inv | split)
theorem State.feedBins_inv (s : State) (c k : Nat) (q : Req) (hs : s.Inv) : (State.feedBins s c k q).Inv := by
  unfold State.feedBins
  repeat' (first | with_reducible assumption | with_reducible apply State.placeHits_inv | with_reducible apply State.updWave_inv | with_reducible apply State.Inv.wf | (with_reducible refine State.Inv.of_wf ?_; dsimp only) | split)
theorem execRequestReturn_inv (a : Agent) (p : Path) (s : State) (hs : s.Inv) : OutInv (execRequestReturn a p s) := by
  unfold execRequestReturn
  repeat' (first | with_reducible assumption | with_reducible apply OutInv.next | with_reducible apply State.feedBins_inv | with_reducible apply State.columnAcquire_inv | with_reducible apply State.sendReq_inv | with_reducible apply State.flushAll_inv | with_reducible apply State.performLocal_inv | with_reducible apply State.writeRet_inv | with_reducible apply State.deliverBad_inv | with_reducible apply State.updWave_inv | split | extract_lets | dsimp +zetaDelta only)

end Sys2Proof.Machine
end

