-- ==== Sys2Proof/Laws/InvEngines.lean ====
section
/-! SUPPORT. The invariant is kept by each operation: fetching, channels, tuples, engine commands and the matrix unit. -/

set_option Elab.async false

namespace Sys2Proof.Machine

/-! Fetch -/

theorem State.keepFetched_inv (s : State) (core : Nat) (va : W64) (hs : s.Inv) : (State.keepFetched s core va).Inv := by
  unfold State.keepFetched
  repeat' (first | with_reducible assumption | with_reducible apply State.readAtOnce_inv | with_reducible apply State.setCore_inv | with_reducible apply State.countErr_inv | with_reducible apply State.touchTlb_inv | with_reducible apply State.Inv.wf | (with_reducible refine State.Inv.of_wf ?_; dsimp only) | split)
theorem State.keepWords_inv (s : State) (core : Nat) (va : W64) (n : Nat) (hs : s.Inv) : (State.keepWords s core va n).Inv := by
  induction n generalizing s va with
  | zero => exact hs
  | succ n ih =>
    unfold State.keepWords
    repeat' (first | with_reducible assumption | with_reducible apply ih | with_reducible apply State.keepFetched_inv | split)
theorem State.keepClause_inv (s : State) (core : Nat) (h : W64) (hs : s.Inv) : (State.keepClause s core h).Inv := by
  unfold State.keepClause
  repeat' (first | with_reducible assumption | with_reducible apply State.keepWords_inv)
theorem execClauseFetch_inv (a : Agent) (s : State) (hs : s.Inv) : OutInv (execClauseFetch a s) := by
  unfold execClauseFetch
  repeat' (first | with_reducible assumption | with_reducible apply OutInv.next | with_reducible apply State.keepClause_inv | with_reducible apply State.setWave_inv | with_reducible apply State.trapHeader_inv | with_reducible apply State.streamFault_inv | with_reducible apply State.setStream_inv | split | extract_lets)
theorem execClauseWaitMet_inv (a : Agent) (s : State) (hs : s.Inv) : OutInv (execClauseWaitMet a s) := by
  unfold execClauseWaitMet
  repeat' (first | with_reducible assumption | with_reducible apply OutInv.next | with_reducible apply State.setWave_inv | split)
theorem State.promote_inv (s : State) (c k : Nat) (hs : s.Inv) : (State.promote s c k).Inv := by
  unfold State.promote
  repeat' (first | with_reducible assumption | with_reducible apply State.pmcCount_inv | with_reducible apply State.setWave_inv | split)
theorem execPromotion_inv (a : Agent) (s : State) (hs : s.Inv) : OutInv (execPromotion a s) := by
  unfold execPromotion
  repeat' (first | with_reducible assumption | with_reducible apply OutInv.next | with_reducible apply State.promote_inv | split)
theorem execPendingFaultDelivery_inv (a : Agent) (s : State) (hs : s.Inv) : OutInv (execPendingFaultDelivery a s) := by
  unfold execPendingFaultDelivery
  repeat' (first | with_reducible assumption | with_reducible apply OutInv.next | with_reducible apply State.trapHeader_inv | split)
theorem execPoisonStop_inv (a : Agent) (s : State) (hs : s.Inv) : OutInv (execPoisonStop a s) := by
  unfold execPoisonStop
  repeat' (first | with_reducible assumption | with_reducible apply OutInv.next | with_reducible apply State.trapHeader_inv | with_reducible apply State.streamFault_inv | with_reducible apply State.setStream_inv | split)
theorem State.dropWaits_inv (s : State) (a : Agent) (team : Nat) (hs : s.Inv) : (State.dropWaits s a team).Inv := by
  unfold State.dropWaits
  repeat' (first | with_reducible assumption | with_reducible apply State.updTeam_inv)
theorem State.servedPark_inv (s : State) (c k : Nat) (w : Wave) (hs : s.Inv) : OptInv (State.servedPark s c k w) := by
  unfold State.servedPark
  repeat' (first | with_reducible assumption | with_reducible exact OptInv.ofNone | with_reducible apply OptInv.ofSome | with_reducible apply State.deliverTuple_inv | with_reducible apply State.updWave_inv | with_reducible apply State.Inv.wf | with_reducible apply OptInv.bind | (with_reducible refine State.Inv.of_wf ?_; dsimp only) | with_reducible intro _ | split)
theorem State.cancelPark_inv (s : State) (w : Wave) (hs : s.Inv) : (State.cancelPark s w).Inv := by
  unfold State.cancelPark
  repeat' (first | with_reducible assumption | with_reducible apply State.Inv.wf | (with_reducible refine State.Inv.of_wf ?_; dsimp only) | split)
theorem State.cancelWait_inv (s : State) (c k : Nat) (w : Wave) (hs : s.Inv) : (State.cancelWait s c k w).Inv := by
  unfold State.cancelWait
  repeat' (first | with_reducible assumption | with_reducible apply State.dropWaits_inv | with_reducible apply State.setWave_inv | with_reducible apply State.cancelPark_inv | with_reducible apply State.servedPark_inv | with_reducible apply State.Inv.wf | (with_reducible refine State.Inv.of_wf ?_; dsimp only) | split | with_reducible refine OptInv.elim (by assumption) ?_)
theorem execWatchdog_inv (a : Agent) (s : State) (hs : s.Inv) : OutInv (execWatchdog a s) := by
  unfold execWatchdog
  repeat' (first | with_reducible assumption | with_reducible apply OutInv.next | with_reducible apply State.streamTrap_inv | with_reducible apply State.dropWaits_inv | with_reducible apply State.cancelPark_inv | with_reducible apply State.trapAt_inv | with_reducible apply State.servedPark_inv | split | extract_lets | with_reducible refine OptInv.elim (by assumption) ?_)
theorem execSleepWake_inv (a : Agent) (s : State) (hs : s.Inv) : OutInv (execSleepWake a s) := by
  unfold execSleepWake
  repeat' (first | with_reducible assumption | with_reducible apply OutInv.next | with_reducible apply State.setWave_inv | split)
theorem execVacateWaveStop_inv (a : Agent) (s : State) (hs : s.Inv) : OutInv (execVacateWaveStop a s) := by
  unfold execVacateWaveStop
  repeat' (first | with_reducible assumption | with_reducible apply OutInv.next | with_reducible apply State.setWave_inv | with_reducible apply State.setStream_inv | with_reducible apply State.cancelWait_inv | split)

/-! Channels -/

theorem State.updChan_inv (s : State) (team n : Nat) (g : Chan → Chan) (hs : s.Inv) : (State.updChan s team n g).Inv := by
  unfold State.updChan
  repeat' (first | with_reducible assumption | with_reducible apply State.updTeam_inv)
theorem State.elemWrite_inv (s : State) (t : Team) (c : Chan) (i : W32) (off : Nat) (bs : List Byte) (hs : s.Inv) : (State.elemWrite s t c i off bs).Inv := by
  unfold State.elemWrite
  repeat' (first | with_reducible assumption | with_reducible apply State.storeWrite_inv | split)
theorem State.evictForRows_inv (s : State) (core : Nat) (hs : s.Inv) : (State.evictForRows s core).Inv := by
  unfold State.evictForRows
  repeat' (first | with_reducible assumption | with_reducible apply State.colEvictOne_inv | with_reducible apply State.colEvict_inv | with_reducible apply State.Inv.foldl | with_reducible intro _ | split)
theorem execChdef_inv (f : FmtE) (s : State) (hs : s.Inv) : OutInv (execChdef f s) := by
  unfold execChdef
  repeat' (first | with_reducible assumption | with_reducible apply State.setWave_inv | with_reducible apply sysWord_inv | with_reducible apply State.storeClear_inv | with_reducible apply State.trapAt_inv | with_reducible apply State.evictForRows_inv | with_reducible apply State.setTeam_inv | with_reducible apply State.Inv.wf | (with_reducible refine State.Inv.of_wf ?_; dsimp only) | with_reducible intro _ | split)
theorem State.chresStep_inv (s : State) (f : FmtE) (c k : Nat) (w : Wave) (hs : s.Inv) : (State.chresStep s f c k w).Inv := by
  unfold State.chresStep
  repeat' (first | with_reducible assumption | with_reducible apply State.trapAt_inv | with_reducible apply State.setWave_inv | with_reducible apply State.updChan_inv | with_reducible apply State.Inv.wf | (with_reducible refine State.Inv.of_wf ?_; dsimp only) | split)
theorem State.chacqStep_inv (s : State) (f : FmtE) (c k : Nat) (w : Wave) (hs : s.Inv) : (State.chacqStep s f c k w).Inv := by
  unfold State.chacqStep
  repeat' (first | with_reducible assumption | with_reducible apply State.trapAt_inv | with_reducible apply State.setWave_inv | with_reducible apply State.updChan_inv | with_reducible apply State.columnAcquire_inv | with_reducible apply State.Inv.wf | (with_reducible refine State.Inv.of_wf ?_; dsimp only) | split)
theorem execChres_inv (f : FmtE) (s : State) (hs : s.Inv) : OutInv (execChres f s) := by
  unfold execChres
  repeat' (first | with_reducible assumption | with_reducible apply sysWord_inv | with_reducible apply State.chresStep_inv | with_reducible intro _)
theorem execChacq_inv (f : FmtE) (s : State) (hs : s.Inv) : OutInv (execChacq f s) := by
  unfold execChacq
  repeat' (first | with_reducible assumption | with_reducible apply sysWord_inv | with_reducible apply State.chacqStep_inv | with_reducible intro _)
theorem execChcom_inv (f : FmtE) (s : State) (hs : s.Inv) : OutInv (execChcom f s) := by
  unfold execChcom
  repeat' (first | with_reducible assumption | with_reducible apply State.doneWave_inv | with_reducible apply State.trapAt_inv | with_reducible apply State.setWave_inv | with_reducible apply sysWord_inv | with_reducible apply State.updChan_inv | with_reducible apply State.releaseFor_inv | with_reducible apply State.Inv.wf | (with_reducible refine State.Inv.of_wf ?_; dsimp only) | with_reducible intro _ | split)
theorem execChrel_inv (f : FmtE) (s : State) (hs : s.Inv) : OutInv (execChrel f s) := by
  unfold execChrel
  repeat' (first | with_reducible assumption | with_reducible apply State.doneWave_inv | with_reducible apply State.trapAt_inv | with_reducible apply sysWord_inv | with_reducible apply State.updChan_inv | with_reducible apply State.Inv.wf | (with_reducible refine State.Inv.of_wf ?_; dsimp only) | with_reducible intro _ | split)
theorem execChqry_inv (f : FmtE) (s : State) (hs : s.Inv) : OutInv (execChqry f s) := by
  unfold execChqry
  repeat' (first | with_reducible assumption | with_reducible apply State.setWave_inv | with_reducible apply sysWord_inv | with_reducible intro _)
theorem execChannelWaitServed_inv (a : Agent) (s : State) (hs : s.Inv) : OutInv (execChannelWaitServed a s) := by
  unfold execChannelWaitServed
  repeat' (first | with_reducible assumption | with_reducible apply OutInv.next | with_reducible apply State.chresStep_inv | with_reducible apply State.chacqStep_inv | split)
theorem State.sqpushStep_inv (s : State) (f : FmtQ) (c k : Nat) (w : Wave) (hs : s.Inv) : (State.sqpushStep s f c k w).Inv := by
  unfold State.sqpushStep
  repeat' (first | with_reducible assumption | with_reducible apply State.trapAt_inv | with_reducible apply State.setWave_inv | with_reducible apply State.setTeam_inv | with_reducible apply State.Inv.wf | (with_reducible refine State.Inv.of_wf ?_; dsimp only) | split)
theorem State.sqpopStep_inv (s : State) (f : FmtQ) (c k : Nat) (w : Wave) (hs : s.Inv) : (State.sqpopStep s f c k w).Inv := by
  unfold State.sqpopStep
  repeat' (first | with_reducible assumption | with_reducible apply State.trapAt_inv | with_reducible apply State.setWave_inv | with_reducible apply State.setTeam_inv | with_reducible apply State.Inv.wf | (with_reducible refine State.Inv.of_wf ?_; dsimp only) | split)
theorem execSqpush_inv (f : FmtQ) (s : State) (hs : s.Inv) : OutInv (execSqpush f s) := by
  unfold execSqpush
  repeat' (first | with_reducible assumption | with_reducible apply sysWord_inv | with_reducible apply State.sqpushStep_inv | with_reducible intro _)
theorem execSqpop_inv (f : FmtQ) (s : State) (hs : s.Inv) : OutInv (execSqpop f s) := by
  unfold execSqpop
  repeat' (first | with_reducible assumption | with_reducible apply sysWord_inv | with_reducible apply State.sqpopStep_inv | with_reducible intro _)
theorem execStreamQueueWaitServed_inv (a : Agent) (s : State) (hs : s.Inv) : OutInv (execStreamQueueWaitServed a s) := by
  unfold execStreamQueueWaitServed
  repeat' (first | with_reducible assumption | with_reducible apply OutInv.next | with_reducible apply State.sqpushStep_inv | with_reducible apply State.sqpopStep_inv | with_reducible apply execLdq_inv | with_reducible apply State.Inv.wf | (with_reducible refine State.Inv.of_wf ?_; dsimp only) | split)

/-! Expand -/

theorem State.tileWrite_inv (s : State) (core slot accf : Nat) (es : List (Nat × Nat × Nat)) (hs : s.Inv) : (State.tileWrite s core slot accf es).Inv := by
  unfold State.tileWrite
  repeat' (first | with_reducible assumption | with_reducible apply State.freshCode_inv | with_reducible apply MemSys.wf_mk | with_reducible apply Mem.wf_writeN | with_reducible apply Mem.wf_foldl | with_reducible apply State.Inv.home | with_reducible apply State.Inv.dram | with_reducible apply State.Inv.scratch | with_reducible apply State.Inv.rows | with_reducible apply State.Inv.chip | with_reducible apply State.Inv.acc | (with_reducible refine State.Inv.of_wf ?_; dsimp only) | with_reducible intro _ | split)

/-! Matrix -/

theorem State.setChain_inv (s : State) (core c : Nat) (x : Chain) (hs : s.Inv) : (State.setChain s core c x).Inv := by
  unfold State.setChain
  repeat' (first | with_reducible assumption | with_reducible apply State.setCore_inv)
theorem State.addRow_inv (s : State) (core : Nat) (x : Chain) (row : Nat) (data : List W32) (hs : s.Inv) : (State.addRow s core x row data).Inv := by
  unfold State.addRow
  repeat' (first | with_reducible assumption | with_reducible apply State.tileWrite_inv)
theorem State.settleChain_inv (s : State) (core c : Nat) (hs : s.Inv) : (State.settleChain s core c).Inv := by
  unfold State.settleChain
  repeat' (first | with_reducible assumption | with_reducible apply State.phaseArrive_inv | with_reducible apply State.setChain_inv | with_reducible apply State.addRow_inv | with_reducible apply State.pmcCount_inv | with_reducible apply State.Inv.wf | with_reducible apply State.Inv.foldl | (with_reducible refine State.Inv.of_wf ?_; dsimp only) | with_reducible intro _ | split)
theorem State.settleCore_inv (s : State) (core : Nat) (hs : s.Inv) : (State.settleCore s core).Inv := by
  unfold State.settleCore
  repeat' (first | with_reducible assumption | with_reducible apply State.settleChain_inv | with_reducible apply State.Inv.foldl | with_reducible intro _)
theorem State.consumePoison_inv (s : State) (core : Nat) (q : QWord) (hs : s.Inv) : (State.consumePoison s core q).Inv := by
  unfold State.consumePoison
  repeat' (first | with_reducible assumption | with_reducible apply State.updStream_inv | with_reducible apply State.setChain_inv | with_reducible apply State.Inv.foldl | with_reducible intro _)
theorem State.pushArray_inv (s : State) (core : Nat) (m : Stream) (q : QWord) (hs : s.Inv) : (State.pushArray s core m q).Inv := by
  unfold State.pushArray
  repeat' (first | with_reducible assumption | with_reducible apply State.setStream_inv | with_reducible apply State.Inv.wf | (with_reducible refine State.Inv.of_wf ?_; dsimp only))
theorem State.pushXfer_inv (s : State) (core : Nat) (m : Stream) (q : QWord) (hs : s.Inv) : (State.pushXfer s core m q).Inv := by
  unfold State.pushXfer
  repeat' (first | with_reducible assumption | with_reducible apply State.setStream_inv | with_reducible apply State.Inv.wf | (with_reducible refine State.Inv.of_wf ?_; dsimp only))
theorem State.blockStream_inv (s : State) (core : Nat) (m : Stream) (stage : Nat) (hs : s.Inv) : (State.blockStream s core m stage).Inv := by
  unfold State.blockStream
  repeat' (first | with_reducible assumption | with_reducible apply State.setStream_inv)
theorem State.streamBad_inv (s : State) (core : Nat) (m : Stream) (pc addr : W64) (hs : s.Inv) : (State.streamBad s core m pc addr).Inv := by
  unfold State.streamBad
  repeat' (first | with_reducible assumption | with_reducible apply State.updStream_inv | with_reducible apply State.countErr_inv | with_reducible apply State.errSeenCore_inv | with_reducible apply State.Inv.wf | (with_reducible refine State.Inv.of_wf ?_; dsimp only) | split)
theorem execMfmt_inv (f : FmtX) (s : State) (hs : s.Inv) : OutInv (execMfmt f s) := by
  unfold execMfmt
  repeat' (first | with_reducible assumption | with_reducible apply seqWord_inv | with_reducible apply State.setStream_inv | with_reducible apply State.streamBad_inv | with_reducible apply State.streamTrap_inv | with_reducible apply State.Inv.wf | (with_reducible refine State.Inv.of_wf ?_; dsimp only) | with_reducible intro _ | split)
theorem execMfmtComplete_inv (core fb : Nat) (s : State) (hs : s.Inv) : OutInv (execMfmtComplete core fb s) := by
  unfold execMfmtComplete
  repeat' (first | with_reducible assumption | with_reducible apply OutInv.next | with_reducible apply State.setStream_inv | split)
theorem execMzero_inv (f : FmtX) (s : State) (hs : s.Inv) : OutInv (execMzero f s) := by
  unfold execMzero
  repeat' (first | with_reducible assumption | with_reducible apply State.pushArray_inv | with_reducible apply State.blockStream_inv | with_reducible apply seqWord_inv | with_reducible intro _ | split)
theorem State.mmaIssue_inv (s : State) (op c : Nat) (m : Stream) (f : FmtX) (hs : s.Inv) : (State.mmaIssue s op c m f).Inv := by
  unfold State.mmaIssue
  repeat' (first | with_reducible assumption | with_reducible apply State.streamTrap_inv | with_reducible apply State.updChan_inv | with_reducible apply State.pushArray_inv | with_reducible apply State.blockStream_inv | with_reducible apply State.Inv.wf | (with_reducible refine State.Inv.of_wf ?_; dsimp only) | split)
theorem execMma_inv (f : FmtX) (s : State) (hs : s.Inv) : OutInv (execMma f s) := by
  unfold execMma
  repeat' (first | with_reducible assumption | with_reducible apply seqWord_inv | with_reducible apply State.mmaIssue_inv | with_reducible intro _)
theorem execMmat_inv (f : FmtX) (s : State) (hs : s.Inv) : OutInv (execMmat f s) := by
  unfold execMmat
  repeat' (first | with_reducible assumption | with_reducible apply seqWord_inv | with_reducible apply State.mmaIssue_inv | with_reducible intro _)
theorem State.loadRow_inv (s : State) (core : Nat) (t : Team) (c : Chan) (first n : Nat) (hs : s.Inv) : (State.loadRow s core t c first n).Inv := by
  unfold State.loadRow
  repeat' (first | with_reducible assumption | with_reducible apply State.setCore_inv)
theorem execMmaFire_inv (core : Nat) (s : State) (hs : s.Inv) : OutInv (execMmaFire core s) := by
  unfold execMmaFire
  repeat' (first | with_reducible assumption | with_reducible apply OutInv.next | with_reducible apply State.consumePoison_inv | with_reducible apply State.setStream_inv | with_reducible apply State.loadRow_inv | split | extract_lets | dsimp +zetaDelta only)
theorem execMcvt_inv (f : FmtX) (s : State) (hs : s.Inv) : OutInv (execMcvt f s) := by
  unfold execMcvt
  repeat' (first | with_reducible assumption | with_reducible apply State.pushArray_inv | with_reducible apply State.blockStream_inv | with_reducible apply seqWord_inv | with_reducible apply State.Inv.wf | (with_reducible refine State.Inv.of_wf ?_; dsimp only) | with_reducible intro _ | split)
theorem execArrayWordEnd_inv (core : Nat) (s : State) (hs : s.Inv) : OutInv (execArrayWordEnd core s) := by
  unfold execArrayWordEnd
  repeat' (first | with_reducible assumption | with_reducible apply OutInv.next | with_reducible apply State.tileWrite_inv | with_reducible apply State.settleCore_inv | with_reducible apply State.updChan_inv | with_reducible apply State.streamBad_inv | with_reducible apply State.consumePoison_inv | with_reducible apply State.count_inv | with_reducible apply State.stepStream_inv | with_reducible apply State.Inv.wf | (with_reducible refine State.Inv.of_wf ?_; dsimp only) | split)
theorem State.touchAccs_inv (s : State) (core : Nat) (as : List Access) (hs : s.Inv) : (State.touchAccs s core as).Inv := by
  unfold State.touchAccs
  repeat' (first | with_reducible assumption | with_reducible apply State.touchTlb_inv | with_reducible apply State.Inv.foldl | with_reducible intro _)
theorem State.xferIssue_inv (s : State) (c : Nat) (m : Stream) (q : QWord) (hs : s.Inv) : (State.xferIssue s c m q).Inv := by
  unfold State.xferIssue
  repeat' (first | with_reducible assumption | with_reducible apply State.updChan_inv | with_reducible apply State.pushXfer_inv | split)
theorem execMld_inv (f : FmtX) (s : State) (hs : s.Inv) : OutInv (execMld f s) := by
  unfold execMld
  repeat' (first | with_reducible assumption | with_reducible apply State.touchFault_inv | with_reducible apply State.touchAccs_inv | with_reducible apply State.blockStream_inv | with_reducible apply State.streamXlat_inv | with_reducible apply State.xferIssue_inv | with_reducible apply seqWord_inv | with_reducible apply State.Inv.wf | (with_reducible refine State.Inv.of_wf ?_; dsimp only) | with_reducible intro _ | split)
theorem State.unitRead_inv (s : State) (unit core team : Nat) (a : Access) (hs : s.Inv) : (State.unitRead s unit core team a).1.Inv := by
  unfold State.unitRead
  repeat' (first | with_reducible assumption | with_reducible apply State.readThrough_inv | with_reducible apply State.readColumn_inv | split)
theorem State.streamRead_inv (s : State) (core team : Nat) (a : Access) (hs : s.Inv) : (State.streamRead s core team a).1.Inv := by
  unfold State.streamRead
  repeat' (first | with_reducible assumption | with_reducible apply State.unitRead_inv)
theorem State.streamWrite_inv (s : State) (core : Nat) (a : Access) (bs : List Byte) (hs : s.Inv) : (State.streamWrite s core a bs).Inv := by
  unfold State.streamWrite
  repeat' (first | with_reducible assumption | with_reducible apply State.colStore_inv | with_reducible apply State.homeWriteBytes_inv | with_reducible apply State.colEvict_inv | split)
theorem State.bandRead_inv (s : State) (c : Nat) (m : Stream) (b : Nat) (idx : W32) (hs : s.Inv) : ExcInv (State.bandRead s c m b idx) := by
  unfold State.bandRead
  repeat' (first | with_reducible assumption | with_reducible apply State.streamBad_inv | with_reducible apply State.touchTlb_inv | with_reducible apply State.streamRead_inv | with_reducible apply State.Inv.wf | with_reducible apply State.Inv.foldl_fst | with_reducible apply ExcInv.ok | with_reducible exact ExcInv.error _ | (with_reducible refine State.Inv.of_wf ?_; dsimp only) | with_reducible intro _ | split)
theorem State.bandOne_inv (s : State) (c : Nat) (m : Stream) (x : Option (Nat × W32)) (hs : s.Inv) : ExcInv (State.bandOne s c m x) := by
  unfold State.bandOne
  repeat' (first | with_reducible assumption | with_reducible apply State.bandRead_inv | with_reducible apply ExcInv.ok | split)
theorem State.mstScale_inv (s : State) (c : Nat) (m : Stream) (f : FmtX) (hs : s.Inv) : ExcInv (State.mstScale s c m f) := by
  unfold State.mstScale
  repeat' (first | with_reducible assumption | with_reducible exact ExcInv.error _ | with_reducible apply ExcInv.ok | with_reducible apply State.bandOne_inv | with_reducible refine ExcInv.elim (by assumption) ?_ | split | (with_reducible refine State.Inv.ofPair (by assumption) ?_))
theorem execMst_inv (f : FmtX) (s : State) (hs : s.Inv) : OutInv (execMst f s) := by
  unfold execMst
  repeat' (first | with_reducible assumption | with_reducible apply State.mstScale_inv | with_reducible apply State.touchFault_inv | with_reducible apply State.touchAccs_inv | with_reducible apply State.blockStream_inv | with_reducible apply State.streamXlat_inv | with_reducible apply State.idemLost_inv | with_reducible apply State.xferIssue_inv | with_reducible apply seqWord_inv | with_reducible apply State.Inv.wf | with_reducible refine ExcInv.elim (by assumption) ?_ | (with_reducible refine State.Inv.of_wf ?_; dsimp only) | with_reducible intro _ | split)
theorem State.clearEcpls_inv (s : State) (as : List (Agent × Ecpl)) (hs : s.Inv) : (State.clearEcpls s as).Inv := by
  unfold State.clearEcpls
  repeat' (first | with_reducible assumption | with_reducible apply State.updWave_inv | with_reducible apply State.Inv.foldl | with_reducible intro _ | split)
theorem execTransferWordBegin_inv (core : Nat) (s : State) (hs : s.Inv) : OutInv (execTransferWordBegin core s) := by
  unfold execTransferWordBegin
  repeat' (first | with_reducible assumption | with_reducible apply OutInv.next | with_reducible apply State.clearEcpls_inv | with_reducible apply State.updChan_inv | with_reducible apply State.consumePoison_inv | with_reducible apply State.setStream_inv | split | extract_lets)

/-! Tuples -/

theorem State.tupleTrap_inv (s : State) (c k : Nat) (w : Wave) (f : FmtT) (op : TOp) (t : Trap) (hs : s.Inv) : (State.tupleTrap s c k w f op t).Inv := by
  unfold State.tupleTrap
  repeat' (first | with_reducible assumption | with_reducible apply State.trapAt_inv | with_reducible apply State.touchTlb_inv | split)
theorem State.sendTuple_inv (s : State) (t : TReq) (hs : s.Inv) : (State.sendTuple s t).Inv := by
  unfold State.sendTuple
  repeat' (first | with_reducible assumption | with_reducible apply State.Inv.wf | (with_reducible refine State.Inv.of_wf ?_; dsimp only))
theorem State.tupleL_inv (s : State) (c k : Nat) (w : Wave) (f : FmtT) (op : TOp) (hs : s.Inv) : (State.tupleL s c k w f op).Inv := by
  unfold State.tupleL
  repeat' (first | with_reducible assumption | with_reducible apply State.setWave_inv | with_reducible apply State.sendTuple_inv | with_reducible apply State.issueReq_inv | with_reducible apply State.tupleTrap_inv | with_reducible apply State.touchTlb_inv | with_reducible apply State.idemLost_inv | with_reducible apply State.Inv.wf | (with_reducible refine State.Inv.of_wf ?_; dsimp only) | split)
theorem State.tupleB_inv (s : State) (c k : Nat) (w : Wave) (f : FmtT) (op : TOp) (hs : s.Inv) : (State.tupleB s c k w f op).Inv := by
  unfold State.tupleB
  repeat' (first | with_reducible assumption | with_reducible apply State.setWave_inv | with_reducible apply State.sendTuple_inv | with_reducible apply State.tupleTrap_inv | with_reducible apply State.touchTlb_inv | with_reducible apply State.idemLost_inv | with_reducible apply State.servedPark_inv | with_reducible apply State.Inv.wf | (with_reducible refine State.Inv.of_wf ?_; dsimp only) | split | with_reducible refine OptInv.elim (by assumption) ?_)
theorem execTsdep_inv (f : FmtT) (s : State) (hs : s.Inv) : OutInv (execTsdep f s) := by
  unfold execTsdep
  repeat' (first | with_reducible assumption | with_reducible apply sysWord_inv | with_reducible apply State.tupleL_inv | with_reducible intro _)
theorem execTscpy_inv (f : FmtT) (s : State) (hs : s.Inv) : OutInv (execTscpy f s) := by
  unfold execTscpy
  repeat' (first | with_reducible assumption | with_reducible apply sysWord_inv | with_reducible apply State.tupleB_inv | with_reducible intro _)
theorem execTstake_inv (f : FmtT) (s : State) (hs : s.Inv) : OutInv (execTstake f s) := by
  unfold execTstake
  repeat' (first | with_reducible assumption | with_reducible apply sysWord_inv | with_reducible apply State.tupleB_inv | with_reducible intro _)
theorem execTscpyn_inv (f : FmtT) (s : State) (hs : s.Inv) : OutInv (execTscpyn f s) := by
  unfold execTscpyn
  repeat' (first | with_reducible assumption | with_reducible apply sysWord_inv | with_reducible apply State.tupleL_inv | with_reducible intro _)
theorem execTstaken_inv (f : FmtT) (s : State) (hs : s.Inv) : OutInv (execTstaken f s) := by
  unfold execTstaken
  repeat' (first | with_reducible assumption | with_reducible apply sysWord_inv | with_reducible apply State.tupleL_inv | with_reducible intro _)
theorem State.updTreq_inv (s : State) (r : Nat) (g : TReq → TReq) (hs : s.Inv) : (State.updTreq s r g).Inv := by
  unfold State.updTreq
  repeat' (first | with_reducible assumption | with_reducible apply State.Inv.wf | (with_reducible refine State.Inv.of_wf ?_; dsimp only))
theorem execTscan_inv (f : FmtT) (s : State) (hs : s.Inv) : OutInv (execTscan f s) := by
  unfold execTscan
  repeat' (first | with_reducible assumption | with_reducible apply sysWord_inv | with_reducible apply State.trapAt_inv | with_reducible apply State.idemLost_inv | with_reducible apply State.updTreq_inv | with_reducible apply State.updWave_inv | with_reducible apply State.Inv.wf | (with_reducible refine State.Inv.of_wf ?_; dsimp only) | with_reducible intro _ | split)
theorem State.tupleMaySend_inv (s : State) (r : Nat) (t : TReq) (hs : s.Inv) : OptInv (State.tupleMaySend s r t) := by
  unfold State.tupleMaySend
  repeat' (first | with_reducible assumption | with_reducible exact OptInv.ofNone | with_reducible apply OptInv.ofSome | with_reducible apply State.sendReq_inv | split)
theorem State.dropBadTags_inv (s : State) (h bag : Nat) (hs : s.Inv) : (State.dropBadTags s h bag).Inv := by
  unfold State.dropBadTags
  repeat' (first | with_reducible assumption | with_reducible apply State.setSlice_inv | with_reducible apply State.count_inv | with_reducible apply State.Inv.wf | (with_reducible refine State.Inv.of_wf ?_; dsimp only) | split)
theorem State.endTreq_inv (s : State) (r : Nat) (t : TReq) (status : Nat) (g : TReq → TReq) (hs : s.Inv) : (State.endTreq s r t status g).Inv := by
  unfold State.endTreq
  repeat' (first | with_reducible assumption | with_reducible apply State.updTreq_inv | with_reducible apply State.updWave_inv | with_reducible apply State.Inv.wf | (with_reducible refine State.Inv.of_wf ?_; dsimp only) | split)
theorem State.serveTuple_inv (s : State) (r : Nat) (t : TReq) (words : List W64) (bad : Bool) (hs : s.Inv) : (State.serveTuple s r t words bad).Inv := by
  unfold State.serveTuple
  repeat' (first | with_reducible assumption | with_reducible apply State.endTreq_inv | with_reducible apply State.pmcCount_inv | with_reducible apply State.count_inv)
theorem State.endDeposit_inv (s : State) (r : Nat) (t : TReq) (status fault : Nat) (hs : s.Inv) : (State.endDeposit s r t status fault).Inv := by
  unfold State.endDeposit
  repeat' (first | with_reducible assumption | with_reducible apply State.deferTo_inv | with_reducible apply State.endTreq_inv | with_reducible apply State.pmcCount_inv | with_reducible apply State.Inv.wf | (with_reducible refine State.Inv.of_wf ?_; dsimp only) | split)
theorem State.watchDeposit_inv (s : State) (h bag : Nat) (tag : W64) (hs : s.Inv) : (State.watchDeposit s h bag tag).Inv := by
  unfold State.watchDeposit
  repeat' (first | with_reducible assumption | with_reducible apply State.phaseArrive_inv | with_reducible apply State.Inv.foldl | with_reducible intro _)
theorem State.depositSteps_inv (s : State) (r : Nat) (t : TReq) (hs : s.Inv) : (State.depositSteps s r t).Inv := by
  unfold State.depositSteps
  repeat' (first | with_reducible assumption | with_reducible apply State.count_inv | with_reducible apply State.endDeposit_inv | with_reducible apply State.sliceTrim_inv | with_reducible apply State.watchDeposit_inv | with_reducible apply State.setSlice_inv | with_reducible apply State.serveTuple_inv | with_reducible apply State.Inv.wf | with_reducible apply State.Inv.foldl | (with_reducible refine State.Inv.of_wf ?_; dsimp only) | with_reducible intro _ | split)
theorem State.depositAt_inv (s : State) (r : Nat) (t : TReq) (hs : s.Inv) : (State.depositAt s r t).Inv := by
  unfold State.depositAt
  repeat' (first | with_reducible assumption | with_reducible apply State.depositSteps_inv | with_reducible apply State.updTreq_inv | with_reducible apply State.endDeposit_inv | with_reducible apply State.Inv.wf | (with_reducible refine State.Inv.of_wf ?_; dsimp only) | split)
theorem State.roomAt_inv (n : Nat) (s : State) (h : Nat) (hs : s.Inv) : (State.roomAt n s h).Inv := by
  induction n generalizing s with
  | zero => exact hs
  | succ n ih =>
    unfold State.roomAt
    repeat' (first | with_reducible assumption | with_reducible apply ih | with_reducible apply State.endDeposit_inv | with_reducible apply State.depositSteps_inv | split)
theorem State.makeRoomAt_inv (s : State) (h : Nat) (hs : s.Inv) : (State.makeRoomAt s h).Inv := by
  unfold State.makeRoomAt
  repeat' (first | with_reducible assumption | with_reducible apply State.roomAt_inv)
theorem State.readBag_inv (s : State) (h bag : Nat) (hs : s.Inv) : (State.readBag s h bag).Inv := by
  unfold State.readBag
  repeat' (first | with_reducible assumption | with_reducible apply State.makeRoomAt_inv | with_reducible apply State.dropBadTags_inv | with_reducible apply State.Inv.wf | (with_reducible refine State.Inv.of_wf ?_; dsimp only) | split)
theorem execTupleDeposit_inv (r : Nat) (s : State) (hs : s.Inv) : OutInv (execTupleDeposit r s) := by
  unfold execTupleDeposit
  repeat' (first | with_reducible assumption | with_reducible apply OutInv.next | with_reducible apply State.tupleMaySend_inv | with_reducible apply State.readBag_inv | with_reducible apply State.depositAt_inv | split | extract_lets | with_reducible refine OptInv.elim (by assumption) ?_)
theorem execTsFull_inv (r : Nat) (s : State) (hs : s.Inv) : OutInv (execTsFull r s) := by
  unfold execTsFull
  repeat' (first | with_reducible assumption | with_reducible apply OutInv.next | with_reducible apply State.count_inv | with_reducible apply State.endDeposit_inv | split)
theorem State.parkTuple_inv (s : State) (r : Nat) (t : TReq) (hs : s.Inv) : (State.parkTuple s r t).Inv := by
  unfold State.parkTuple
  repeat' (first | with_reducible assumption | with_reducible apply State.pmcCount_inv | with_reducible apply State.updTreq_inv | with_reducible apply State.setSlice_inv | with_reducible apply State.count_inv | with_reducible apply State.Inv.wf | (with_reducible refine State.Inv.of_wf ?_; dsimp only) | split)
theorem execTupleMatch_inv (r : Nat) (s : State) (hs : s.Inv) : OutInv (execTupleMatch r s) := by
  unfold execTupleMatch
  repeat' (first | with_reducible assumption | with_reducible apply OutInv.next | with_reducible apply State.tupleMaySend_inv | with_reducible apply State.serveTuple_inv | with_reducible apply State.endTreq_inv | with_reducible apply State.makeRoomAt_inv | with_reducible apply State.readBag_inv | with_reducible apply State.setSlice_inv | with_reducible apply State.parkTuple_inv | split | extract_lets | with_reducible refine OptInv.elim (by assumption) ?_)
theorem execTupleRetry_inv (r : Nat) (s : State) (hs : s.Inv) : OutInv (execTupleRetry r s) := by
  unfold execTupleRetry
  repeat' (first | with_reducible assumption | with_reducible apply OutInv.next | with_reducible apply State.updTreq_inv | split)
theorem execTupleCancel_inv (r : Nat) (s : State) (hs : s.Inv) : OutInv (execTupleCancel r s) := by
  unfold execTupleCancel
  repeat' (first | with_reducible assumption | with_reducible apply OutInv.next | with_reducible apply State.updTreq_inv | split)
theorem execTupleTimeout_inv (r : Nat) (s : State) (hs : s.Inv) : OutInv (execTupleTimeout r s) := by
  unfold execTupleTimeout
  repeat' (first | with_reducible assumption | with_reducible apply OutInv.next | with_reducible apply State.updTreq_inv | split)
theorem State.runEcpl_inv (s : State) (a : Agent) (team : Nat) (e : Ecpl) (cmd : Nat) (hs : s.Inv) : (State.runEcpl s a team e cmd).1.Inv := by
  unfold State.runEcpl
  repeat' (first | with_reducible assumption | with_reducible apply State.phaseArrive_inv | with_reducible apply State.sendTuple_inv | with_reducible apply State.touchTlb_inv | with_reducible apply State.columnRelease_inv | with_reducible apply State.deferTo_inv | with_reducible apply State.pmcCount_inv | with_reducible apply State.Inv.wf | (with_reducible refine State.Inv.of_wf ?_; dsimp only) | split)

/-! StreamCtl -/

theorem seqNow_inv (i : Instr) (s : State) (run : Stream → Stream) (hs : s.Inv) : OutInv (seqNow i s run) := by
  unfold seqNow
  repeat' (first | with_reducible assumption | with_reducible apply seqWord_inv | with_reducible apply State.setStream_inv | with_reducible intro _)
theorem execMset_inv (f : FmtX) (s : State) (hs : s.Inv) : OutInv (execMset f s) := by
  unfold execMset
  repeat' (first | with_reducible assumption | with_reducible apply seqNow_inv)
theorem execMadd_inv (f : FmtX) (s : State) (hs : s.Inv) : OutInv (execMadd f s) := by
  unfold execMadd
  repeat' (first | with_reducible assumption | with_reducible apply seqNow_inv)
theorem execMloop_inv (f : FmtX) (s : State) (hs : s.Inv) : OutInv (execMloop f s) := by
  unfold execMloop
  repeat' (first | with_reducible assumption | with_reducible apply seqNow_inv)
theorem execMbr_inv (f : FmtX) (s : State) (hs : s.Inv) : OutInv (execMbr f s) := by
  unfold execMbr
  repeat' (first | with_reducible assumption | with_reducible apply seqNow_inv)
theorem execMhalt_inv (f : FmtX) (s : State) (hs : s.Inv) : OutInv (execMhalt f s) := by
  unfold execMhalt
  repeat' (first | with_reducible assumption | with_reducible apply State.endStream_inv | with_reducible apply seqWord_inv | with_reducible intro _)
theorem execMarr_inv (f : FmtX) (s : State) (hs : s.Inv) : OutInv (execMarr f s) := by
  unfold execMarr
  repeat' (first | with_reducible assumption | with_reducible apply seqWord_inv | with_reducible apply State.blockStream_inv | with_reducible apply State.pmcCount_inv | with_reducible apply State.streamTrap_inv | with_reducible apply State.setStream_inv | with_reducible apply State.columnRelease_inv | with_reducible apply State.setBarrier_inv | with_reducible apply State.Inv.wf | (with_reducible refine State.Inv.of_wf ?_; dsimp only) | with_reducible intro _ | split)
theorem execMwait_inv (f : FmtX) (s : State) (hs : s.Inv) : OutInv (execMwait f s) := by
  unfold execMwait
  repeat' (first | with_reducible assumption | with_reducible apply seqWord_inv | with_reducible apply State.blockStream_inv | with_reducible apply State.streamTrap_inv | with_reducible apply State.setStream_inv | with_reducible apply State.columnAcquire_inv | with_reducible intro _ | split)
theorem State.mldSource_inv (s : State) (core : Nat) (m : Stream) (q : QWord) (hs : s.Inv) : (State.mldSource s core m q).1.Inv := by
  unfold State.mldSource
  repeat' (first | with_reducible assumption | with_reducible apply State.streamRead_inv | with_reducible apply State.Inv.wf | with_reducible apply State.Inv.foldl_fst | (with_reducible refine State.Inv.of_wf ?_; dsimp only) | with_reducible intro _ | split)
theorem State.mldEnd_inv (s : State) (core : Nat) (m : Stream) (q : QWord) (hs : s.Inv) : (State.mldEnd s core m q).Inv := by
  unfold State.mldEnd
  repeat' (first | with_reducible assumption | with_reducible apply State.updChan_inv | with_reducible apply State.mldSource_inv | with_reducible apply State.streamBad_inv | with_reducible apply State.tileWrite_inv | with_reducible apply State.Inv.wf | (with_reducible refine State.Inv.of_wf ?_; dsimp only) | split)
theorem State.mstEnd_inv (s : State) (core : Nat) (m : Stream) (q : QWord) (hs : s.Inv) : (State.mstEnd s core m q).Inv := by
  unfold State.mstEnd
  repeat' (first | with_reducible assumption | with_reducible apply State.streamWrite_inv | with_reducible apply State.elemWrite_inv | with_reducible apply State.updChan_inv | with_reducible apply State.runEcpl_inv | with_reducible apply State.count_inv | with_reducible apply State.streamBad_inv | with_reducible apply State.columnRelease_inv | with_reducible apply State.Inv.foldl | with_reducible intro _ | split)
theorem State.gtsendEnd_inv (s : State) (core : Nat) (m : Stream) (q : QWord) (hs : s.Inv) : (State.gtsendEnd s core m q).Inv := by
  unfold State.gtsendEnd
  repeat' (first | with_reducible assumption | with_reducible apply State.pmcCount_inv | with_reducible apply State.streamBad_inv | with_reducible apply State.Inv.wf | with_reducible apply State.Inv.foldl | (with_reducible refine State.Inv.of_wf ?_; dsimp only) | with_reducible intro _ | split)
theorem execTransferWordEnd_inv (core : Nat) (s : State) (hs : s.Inv) : OutInv (execTransferWordEnd core s) := by
  unfold execTransferWordEnd
  repeat' (first | with_reducible assumption | with_reducible apply OutInv.next | with_reducible apply State.gtsendEnd_inv | with_reducible apply State.settleCore_inv | with_reducible apply State.mldEnd_inv | with_reducible apply State.mstEnd_inv | with_reducible apply State.stepStream_inv | split | extract_lets)
theorem execQuarterGated_inv (core q : Nat) (s : State) (hs : s.Inv) : OutInv (execQuarterGated core q s) := by
  unfold execQuarterGated
  repeat' (first | with_reducible assumption | with_reducible apply OutInv.next | with_reducible apply State.setStream_inv | split)
theorem execQuarterAwake_inv (core q : Nat) (s : State) (hs : s.Inv) : OutInv (execQuarterAwake core q s) := by
  unfold execQuarterAwake
  repeat' (first | with_reducible assumption | with_reducible apply OutInv.next | with_reducible apply State.setStream_inv | split)

/-! GearTrain -/

theorem State.gtConfig_inv (s : State) (core : Nat) (m : Stream) (sub : Nat) (hs : s.Inv) : (State.gtConfig s core m sub).Inv := by
  unfold State.gtConfig
  repeat' (first | with_reducible assumption | with_reducible apply State.streamTrap_inv)
theorem execGtcfgSend_inv (f : FmtGT) (s : State) (hs : s.Inv) : OutInv (execGtcfgSend f s) := by
  unfold execGtcfgSend
  repeat' (first | with_reducible assumption | with_reducible apply seqWord_inv | with_reducible apply State.setChain_inv | with_reducible apply State.idemLost_inv | with_reducible apply State.gtConfig_inv | with_reducible apply State.setStream_inv | with_reducible apply State.streamTrap_inv | with_reducible apply State.Inv.wf | (with_reducible refine State.Inv.of_wf ?_; dsimp only) | with_reducible intro _ | split)
theorem execGtcfgDest_inv (f : FmtGT) (s : State) (hs : s.Inv) : OutInv (execGtcfgDest f s) := by
  unfold execGtcfgDest
  repeat' (first | with_reducible assumption | with_reducible apply seqWord_inv | with_reducible apply State.setChain_inv | with_reducible apply State.idemLost_inv | with_reducible apply State.gtConfig_inv | with_reducible apply State.setStream_inv | with_reducible apply State.Inv.wf | (with_reducible refine State.Inv.of_wf ?_; dsimp only) | with_reducible intro _ | split)
theorem execGtrsv_inv (f : FmtGT) (s : State) (hs : s.Inv) : OutInv (execGtrsv f s) := by
  unfold execGtrsv
  repeat' (first | with_reducible assumption | with_reducible apply seqWord_inv | with_reducible apply State.setChain_inv | with_reducible apply State.idemLost_inv | with_reducible apply State.gtConfig_inv | with_reducible apply State.setStream_inv | with_reducible apply State.Inv.wf | (with_reducible refine State.Inv.of_wf ?_; dsimp only) | with_reducible intro _ | split)
theorem execGtsend_inv (f : FmtGT) (s : State) (hs : s.Inv) : OutInv (execGtsend f s) := by
  unfold execGtsend
  repeat' (first | with_reducible assumption | with_reducible apply State.streamTrap_inv | with_reducible apply State.pushXfer_inv | with_reducible apply State.blockStream_inv | with_reducible apply State.idemLost_inv | with_reducible apply State.gtConfig_inv | with_reducible apply seqWord_inv | with_reducible apply State.Inv.wf | (with_reducible refine State.Inv.of_wf ?_; dsimp only) | with_reducible intro _ | split)
theorem execGtCheckAnswer_inv (core : Nat) (s : State) (hs : s.Inv) : OutInv (execGtCheckAnswer core s) := by
  unfold execGtCheckAnswer
  repeat' (first | with_reducible assumption | with_reducible apply OutInv.next | with_reducible apply State.setStream_inv | split)
theorem execGtdrain_inv (f : FmtGT) (s : State) (hs : s.Inv) : OutInv (execGtdrain f s) := by
  unfold execGtdrain
  repeat' (first | with_reducible assumption | with_reducible apply State.settleCore_inv | with_reducible apply State.streamTrap_inv | with_reducible apply State.setChain_inv | with_reducible apply State.blockStream_inv | with_reducible apply State.setStream_inv | with_reducible apply State.idemLost_inv | with_reducible apply State.gtConfig_inv | with_reducible apply seqWord_inv | with_reducible apply State.Inv.wf | (with_reducible refine State.Inv.of_wf ?_; dsimp only) | with_reducible intro _ | split)
theorem execGtdrainPhase_inv (f : FmtGT) (s : State) (hs : s.Inv) : OutInv (execGtdrainPhase f s) := by
  unfold execGtdrainPhase
  repeat' (first | with_reducible assumption | with_reducible apply seqWord_inv | with_reducible apply State.idemLost_inv | with_reducible apply State.blockStream_inv | with_reducible apply State.setStream_inv | with_reducible apply State.streamTrap_inv | with_reducible apply State.Inv.wf | (with_reducible refine State.Inv.of_wf ?_; dsimp only) | with_reducible intro _ | split)
theorem execGtrel_inv (f : FmtGT) (s : State) (hs : s.Inv) : OutInv (execGtrel f s) := by
  unfold execGtrel
  repeat' (first | with_reducible assumption | with_reducible apply seqWord_inv | with_reducible apply State.setChain_inv | with_reducible apply State.idemLost_inv | with_reducible apply State.blockStream_inv | with_reducible apply State.setStream_inv | with_reducible apply State.streamTrap_inv | with_reducible apply State.Inv.wf | (with_reducible refine State.Inv.of_wf ?_; dsimp only) | with_reducible intro _ | split)
theorem State.answerFlit_inv (s : State) (n : Nat) (fl : Flit) (ans : Nat) (hs : s.Inv) : (State.answerFlit s n fl ans).Inv := by
  unfold State.answerFlit
  repeat' (first | with_reducible assumption | with_reducible apply State.Inv.wf | (with_reducible refine State.Inv.of_wf ?_; dsimp only))
theorem State.lostRow_inv (s : State) (core chain team : Nat) (hs : s.Inv) : (State.lostRow s core chain team).Inv := by
  unfold State.lostRow
  repeat' (first | with_reducible assumption | with_reducible apply State.setChain_inv | with_reducible apply State.errSeenCore_inv | with_reducible apply State.countErr_inv | with_reducible apply State.Inv.wf | (with_reducible refine State.Inv.of_wf ?_; dsimp only) | split)
theorem State.dropFlit_inv (s : State) (fl : Flit) (hs : s.Inv) : (State.dropFlit s fl).Inv := by
  unfold State.dropFlit
  repeat' (first | with_reducible assumption | with_reducible apply State.lostRow_inv)
theorem execGtFlitArrival_inv (n : Nat) (s : State) (hs : s.Inv) : OutInv (execGtFlitArrival n s) := by
  unfold execGtFlitArrival
  repeat' (first | with_reducible assumption | with_reducible apply OutInv.next | with_reducible apply State.answerFlit_inv | with_reducible apply State.pmcCount_inv | with_reducible apply State.setChain_inv | with_reducible apply State.phaseArrive_inv | with_reducible apply State.settleChain_inv | with_reducible apply State.dropFlit_inv | with_reducible apply State.addRow_inv | with_reducible apply State.countErr_inv | split | extract_lets)
theorem execGtFlitAck_inv (n : Nat) (s : State) (hs : s.Inv) : OutInv (execGtFlitAck n s) := by
  unfold execGtFlitAck
  repeat' (first | with_reducible assumption | with_reducible apply OutInv.next | with_reducible apply State.setChain_inv | with_reducible apply State.Inv.wf | (with_reducible refine State.Inv.of_wf ?_; dsimp only) | split | extract_lets | dsimp +zetaDelta only)

/-! Engines -/

theorem engWord_inv {i : Instr} {s : State} {f : Nat → Nat → Wave → State} (hs : s.Inv) (h : ∀ c k w, (f c k w).Inv) : OutInv (engWord i s f) := by
  unfold engWord
  repeat' (first | with_reducible assumption | with_reducible apply h | with_reducible apply sysWord_inv | with_reducible apply State.setWave_inv | with_reducible intro _ | split)
theorem State.issueCmd_inv (s : State) (c k : Nat) (w : Wave) (cmd : Cmd) (chans : List Nat) (act lost : Bool) (sem : Nat) (hs : s.Inv) : (State.issueCmd s c k w cmd chans act lost sem).Inv := by
  unfold State.issueCmd
  repeat' (first | with_reducible assumption | with_reducible apply State.updChan_inv | with_reducible apply State.setWave_inv | with_reducible apply State.issueReq_inv | with_reducible apply State.idemLost_inv | with_reducible apply State.Inv.wf | with_reducible apply State.Inv.foldl | (with_reducible refine State.Inv.of_wf ?_; dsimp only) | with_reducible intro _ | split)
theorem execCpyin_inv (f : FmtE) (s : State) (hs : s.Inv) : OutInv (execCpyin f s) := by
  unfold execCpyin
  repeat' (first | with_reducible assumption | with_reducible apply State.trapAt_inv | with_reducible apply State.issueCmd_inv | with_reducible apply engWord_inv | with_reducible apply State.Inv.wf | (with_reducible refine State.Inv.of_wf ?_; dsimp only) | with_reducible intro _ | split)
theorem execCpyout_inv (f : FmtE) (s : State) (hs : s.Inv) : OutInv (execCpyout f s) := by
  unfold execCpyout
  repeat' (first | with_reducible assumption | with_reducible apply State.trapAt_inv | with_reducible apply State.issueCmd_inv | with_reducible apply engWord_inv | with_reducible apply State.Inv.wf | (with_reducible refine State.Inv.of_wf ?_; dsimp only) | with_reducible intro _ | split)
theorem execCpyg_inv (f : FmtE) (s : State) (hs : s.Inv) : OutInv (execCpyg f s) := by
  unfold execCpyg
  repeat' (first | with_reducible assumption | with_reducible apply State.trapAt_inv | with_reducible apply State.issueCmd_inv | with_reducible apply engWord_inv | with_reducible apply State.Inv.wf | (with_reducible refine State.Inv.of_wf ?_; dsimp only) | with_reducible intro _ | split)
theorem execIdxwalk_inv (f : FmtE) (s : State) (hs : s.Inv) : OutInv (execIdxwalk f s) := by
  unfold execIdxwalk
  repeat' (first | with_reducible assumption | with_reducible apply State.trapAt_inv | with_reducible apply State.issueCmd_inv | with_reducible apply engWord_inv | with_reducible apply State.Inv.wf | (with_reducible refine State.Inv.of_wf ?_; dsimp only) | with_reducible intro _ | split)
theorem execGather_inv (f : FmtE) (s : State) (hs : s.Inv) : OutInv (execGather f s) := by
  unfold execGather
  repeat' (first | with_reducible assumption | with_reducible apply State.trapAt_inv | with_reducible apply State.issueCmd_inv | with_reducible apply engWord_inv | with_reducible apply State.Inv.wf | (with_reducible refine State.Inv.of_wf ?_; dsimp only) | with_reducible intro _ | split)
theorem execPublish_inv (f : FmtE) (s : State) (hs : s.Inv) : OutInv (execPublish f s) := by
  unfold execPublish
  repeat' (first | with_reducible assumption | with_reducible apply sysWord_inv | with_reducible apply State.trapAt_inv | with_reducible apply State.issueCmd_inv | with_reducible apply State.touchFault_inv | with_reducible apply State.touchTlb_inv | with_reducible apply State.Inv.wf | (with_reducible refine State.Inv.of_wf ?_; dsimp only) | with_reducible intro _ | split)
theorem execEcplDep_inv (f : FmtE) (s : State) (hs : s.Inv) : OutInv (execEcplDep f s) := by
  unfold execEcplDep
  repeat' (first | with_reducible assumption | with_reducible apply State.setWave_inv | with_reducible apply State.trapAt_inv | with_reducible apply State.idemLost_inv | with_reducible apply engWord_inv | with_reducible intro _ | split)
theorem execEcplArr_inv (f : FmtE) (s : State) (hs : s.Inv) : OutInv (execEcplArr f s) := by
  unfold execEcplArr
  repeat' (first | with_reducible assumption | with_reducible apply State.idemLost_inv | with_reducible apply State.setWave_inv | with_reducible apply sysWord_inv | with_reducible intro _)
theorem State.engPages_inv (s : State) (cl : Nat) (i : Intent) (ranges : List (W64 × Nat)) (hs : s.Inv) : (State.engPages s cl i ranges).1.Inv := by
  unfold State.engPages
  repeat' (first | with_reducible assumption | with_reducible apply State.touchTlb_inv | with_reducible apply State.Inv.wf | with_reducible apply State.Inv.foldl_fst | (with_reducible refine State.Inv.of_wf ?_; dsimp only) | with_reducible intro _ | split)
theorem State.engRead_inv (s : State) (core : Nat) (ps : List EngPage) (va : W64) (n : Nat) (hs : s.Inv) : (State.engRead s core ps va n).s.Inv := by
  unfold State.engRead
  repeat' (first | with_reducible assumption | with_reducible apply State.countErr_inv | with_reducible apply State.readThrough_inv | with_reducible apply State.Inv.wf | with_reducible apply EngRead.inv_foldl | (with_reducible refine State.Inv.of_wf ?_; dsimp only) | with_reducible intro _ | split)
theorem State.engReads_inv (s : State) (core : Nat) (ps : List EngPage) (ranges : List (W64 × Nat)) (hs : s.Inv) : (State.engReads s core ps ranges).s.Inv := by
  unfold State.engReads
  repeat' (first | with_reducible assumption | with_reducible apply State.engRead_inv | with_reducible apply EngRead.inv_foldl | with_reducible intro _)
theorem State.engWrite_inv (s : State) (core : Nat) (ps : List EngPage) (va : W64) (bs : List Byte) (hs : s.Inv) : (State.engWrite s core ps va bs).Inv := by
  unfold State.engWrite
  repeat' (first | with_reducible assumption | with_reducible apply State.homeWriteBytes_inv | with_reducible apply State.colEvict_inv | with_reducible apply State.Inv.foldl_fst | with_reducible intro _)
theorem State.fireCmd_inv (s : State) (id : Nat) (c : Cmd) (reads writes : List (W64 × Nat)) (hs : s.Inv) : (State.fireCmd s id c reads writes).Inv := by
  unfold State.fireCmd
  repeat' (first | with_reducible assumption | with_reducible apply State.engPages_inv | with_reducible apply State.Inv.wf | (with_reducible refine State.Inv.of_wf ?_; dsimp only))
theorem State.takeOutputs_inv (s : State) (team ch id n : Nat) (hs : s.Inv) : (State.takeOutputs s team ch id n).Inv := by
  unfold State.takeOutputs
  repeat' (first | with_reducible assumption | with_reducible apply State.updChan_inv)
theorem State.cmdMaySend_inv (s : State) (id : Nat) (c : Cmd) (hs : s.Inv) : OptInv (State.cmdMaySend s id c) := by
  unfold State.cmdMaySend
  repeat' (first | with_reducible assumption | with_reducible exact OptInv.ofNone | with_reducible apply OptInv.ofSome | with_reducible apply State.sendReq_inv | split)
theorem State.cmdRelease_inv (s : State) (id : Nat) (c : Cmd) (hs : s.Inv) : (State.cmdRelease s id c).Inv := by
  unfold State.cmdRelease
  repeat' (first | with_reducible assumption | with_reducible apply State.releaseFor_inv | split)
theorem execEngineFire_inv (id : Nat) (s : State) (hs : s.Inv) : OutInv (execEngineFire id s) := by
  unfold execEngineFire
  repeat' (first | with_reducible assumption | with_reducible apply OutInv.next | with_reducible apply State.cmdRelease_inv | with_reducible apply State.updChan_inv | with_reducible apply State.takeOutputs_inv | with_reducible apply State.fireCmd_inv | with_reducible apply State.Inv.wf | (with_reducible refine State.Inv.of_wf ?_; dsimp only) | split | extract_lets)
theorem State.finishCmd_inv (s : State) (id : Nat) (c : Cmd) (fault : Option PendRec) (hs : s.Inv) : (State.finishCmd s id c fault).Inv := by
  unfold State.finishCmd
  repeat' (first | with_reducible assumption | with_reducible apply State.runEcpl_inv | with_reducible apply State.deferTo_inv | with_reducible apply State.pmcCount_inv | with_reducible apply State.Inv.wf | (with_reducible refine State.Inv.of_wf ?_; dsimp only) | split)
theorem State.freeInputs_inv (s : State) (team ch id n : Nat) (keep : Bool) (hs : s.Inv) : (State.freeInputs s team ch id n keep).Inv := by
  unfold State.freeInputs
  repeat' (first | with_reducible assumption | with_reducible apply State.updChan_inv)
theorem State.putOutputs_inv (s : State) (c : Cmd) (elems : List (List Byte)) (hs : s.Inv) : (State.putOutputs s c elems).Inv := by
  unfold State.putOutputs
  repeat' (first | with_reducible assumption | with_reducible apply State.elemWrite_inv | with_reducible apply State.updChan_inv | with_reducible apply State.Inv.wf | with_reducible apply State.Inv.foldl | (with_reducible refine State.Inv.of_wf ?_; dsimp only) | with_reducible intro _ | split)
theorem State.cpyinElems_inv (s : State) (c : Cmd) (d : CopyDesc) (layb : Bool) (hs : s.Inv) : (State.cpyinElems s c d layb).1.Inv := by
  unfold State.cpyinElems
  repeat' (first | with_reducible assumption | with_reducible apply State.count_inv | with_reducible apply State.engReads_inv | with_reducible apply State.Inv.wf | with_reducible apply State.Inv.foldl_fst | (with_reducible refine State.Inv.of_wf ?_; dsimp only) | with_reducible intro _ | split)
theorem State.cpygWork_inv (s : State) (c : Cmd) (d : CopyDesc) (hs : s.Inv) : (State.cpygWork s c d).1.Inv := by
  unfold State.cpygWork
  repeat' (first | with_reducible assumption | with_reducible apply State.engReads_inv | with_reducible apply State.engWrite_inv | with_reducible apply State.Inv.wf | with_reducible apply State.Inv.foldl | (with_reducible refine State.Inv.of_wf ?_; dsimp only) | with_reducible intro _ | split)
theorem State.takeInputs_inv (s : State) (c : Cmd) (chn : Nat) (hs : s.Inv) : (State.takeInputs s c chn).1.Inv := by
  unfold State.takeInputs
  repeat' (first | with_reducible assumption | with_reducible apply State.countErr_inv | with_reducible apply State.Inv.wf | (with_reducible refine State.Inv.of_wf ?_; dsimp only) | split)
theorem State.cpyoutWork_inv (s : State) (c : Cmd) (d : CopyDesc) (hs : s.Inv) : (State.cpyoutWork s c d).1.Inv := by
  unfold State.cpyoutWork
  repeat' (first | with_reducible assumption | with_reducible apply State.engWrite_inv | with_reducible apply State.takeInputs_inv | with_reducible apply State.Inv.wf | with_reducible apply State.Inv.foldl | (with_reducible refine State.Inv.of_wf ?_; dsimp only) | with_reducible intro _ | split)
theorem State.gatherElems_inv (s : State) (c : Cmd) (d : GatherDesc) (col : Bool) (hs : s.Inv) : (State.gatherElems s c d col).1.Inv := by
  unfold State.gatherElems
  repeat' (first | with_reducible assumption | with_reducible apply State.engRead_inv | with_reducible apply State.takeInputs_inv | with_reducible apply State.Inv.wf | with_reducible apply State.Inv.foldl_fst | with_reducible apply EngRead.inv_foldl | (with_reducible refine State.Inv.of_wf ?_; dsimp only) | with_reducible intro _ | split)
theorem State.walkBytes_inv (s : State) (c : Cmd) (va : W64) (n : Nat) (hs : s.Inv) : (State.walkBytes s c va n).1.Inv := by
  unfold State.walkBytes
  repeat' (first | with_reducible assumption | with_reducible apply State.engPages_inv | with_reducible apply State.engRead_inv | with_reducible apply State.Inv.wf | (with_reducible refine State.Inv.of_wf ?_; dsimp only) | split)
theorem State.idxElem_inv (s : State) (c : Cmd) (d : IndexDesc) (hs : s.Inv) : (State.idxElem s c d).1.Inv := by
  unfold State.idxElem
  repeat' (first | with_reducible assumption | with_reducible apply State.walkBytes_inv | with_reducible apply State.Inv.wf | with_reducible apply State.Inv.foldl_fst | (with_reducible refine State.Inv.of_wf ?_; dsimp only) | with_reducible intro _ | split)
theorem State.idxStep_inv (s : State) (id : Nat) (c : Cmd) (d : IndexDesc) (hs : s.Inv) : (State.idxStep s id c d).Inv := by
  unfold State.idxStep
  repeat' (first | with_reducible assumption | with_reducible apply State.updChan_inv | with_reducible apply State.idxElem_inv | with_reducible apply State.putOutputs_inv | with_reducible apply State.finishCmd_inv | with_reducible apply State.Inv.wf | (with_reducible refine State.Inv.of_wf ?_; dsimp only) | split)
theorem State.takeTag_inv (s : State) (id : Nat) (c : Cmd) (hs : s.Inv) : (State.takeTag s id c).Inv := by
  unfold State.takeTag
  repeat' (first | with_reducible assumption | with_reducible apply State.pmcCount_inv | with_reducible apply State.Inv.wf | (with_reducible refine State.Inv.of_wf ?_; dsimp only) | split)
theorem execEngineComplete_inv (id : Nat) (s : State) (hs : s.Inv) : OutInv (execEngineComplete id s) := by
  unfold execEngineComplete
  repeat' (first | with_reducible assumption | with_reducible apply OutInv.next | with_reducible apply State.gatherElems_inv | with_reducible apply State.cpyoutWork_inv | with_reducible apply State.takeTag_inv | with_reducible apply State.cpygWork_inv | with_reducible apply State.cpyinElems_inv | with_reducible apply State.freeInputs_inv | with_reducible apply State.putOutputs_inv | with_reducible apply State.idxStep_inv | with_reducible apply State.finishCmd_inv | split)
theorem execPublishFlip_inv (id : Nat) (s : State) (hs : s.Inv) : OutInv (execPublishFlip id s) := by
  unfold execPublishFlip
  repeat' (first | with_reducible assumption | with_reducible apply OutInv.next | with_reducible apply State.finishCmd_inv | with_reducible apply State.cmdMaySend_inv | with_reducible apply State.Inv.wf | (with_reducible refine State.Inv.of_wf ?_; dsimp only) | split | extract_lets | with_reducible refine OptInv.elim (by assumption) ?_)
theorem State.setLq_inv (s : State) (q : Nat) (x : LQueue) (hs : s.Inv) : (State.setLq s q x).Inv := by
  unfold State.setLq
  repeat' (first | with_reducible assumption | with_reducible apply State.Inv.wf | (with_reducible refine State.Inv.of_wf ?_; dsimp only))
theorem execLaunch_inv (f : FmtQ) (s : State) (hs : s.Inv) : OutInv (execLaunch f s) := by
  unfold execLaunch
  repeat' (first | with_reducible assumption | with_reducible apply sysWord_inv | with_reducible apply State.trapAt_inv | with_reducible apply State.issueCmd_inv | with_reducible apply State.touchFault_inv | with_reducible apply State.touchTlb_inv | with_reducible apply State.Inv.wf | (with_reducible refine State.Inv.of_wf ?_; dsimp only) | with_reducible intro _ | split)
theorem State.homeRead_inv (s : State) (pa : Nat) (hs : s.Inv) : (State.homeRead s pa).Inv := by
  unfold State.homeRead
  repeat' (first | with_reducible assumption | with_reducible apply State.homeTouch_inv | split)
theorem State.ctlRead_inv (s : State) (q : Nat) (hs : s.Inv) : (State.ctlRead s q).Inv := by
  unfold State.ctlRead
  repeat' (first | with_reducible assumption | with_reducible apply State.homeRead_inv)
theorem State.devWrite_inv (s : State) (pa : Nat) (bs : List Byte) (hs : s.Inv) : (State.devWrite s pa bs).Inv := by
  unfold State.devWrite
  repeat' (first | with_reducible assumption | with_reducible apply State.homeWriteBytes_inv | split)
theorem State.ctlWrite_inv (s : State) (q off x : Nat) (hs : s.Inv) : (State.ctlWrite s q off x).Inv := by
  unfold State.ctlWrite
  repeat' (first | with_reducible assumption | with_reducible apply State.devWrite_inv | with_reducible apply State.setLq_inv)
theorem State.knowSeqno_inv (s : State) (id : Nat) (c : Cmd) (n : Nat) (hs : s.Inv) : (State.knowSeqno s id c n).Inv := by
  unfold State.knowSeqno
  repeat' (first | with_reducible assumption | with_reducible apply State.updWave_inv | split)
theorem execLaunchEnqueue_inv (id : Nat) (s : State) (hs : s.Inv) : OutInv (execLaunchEnqueue id s) := by
  unfold execLaunchEnqueue
  repeat' (first | with_reducible assumption | with_reducible apply OutInv.next | with_reducible apply State.ctlRead_inv | with_reducible apply State.setLq_inv | with_reducible apply State.ctlWrite_inv | with_reducible apply State.cmdMaySend_inv | with_reducible apply State.devWrite_inv | with_reducible apply State.knowSeqno_inv | with_reducible apply State.engRead_inv | with_reducible apply State.Inv.wf | (with_reducible refine State.Inv.of_wf ?_; dsimp only) | split | extract_lets | with_reducible refine OptInv.elim (by assumption) ?_)

end Sys2Proof.Machine
end

