-- ==== Sys2Proof/Laws/InvWords.lean ====
section
/-! SUPPORT. The invariant is kept by each operation: the words that compute, the control words and the graphics words. -/

set_option Elab.async false

namespace Sys2Proof.Machine

/-! ScalarAlu -/

theorem scalarWord_inv (i : Instr) (f : FmtS) (s : State) (g : W32 → W32 → W32) (hs : s.Inv) : OutInv (scalarWord i f s g) := by
  unfold scalarWord
  repeat' (first | with_reducible assumption | with_reducible apply aluWord_inv)
theorem pairWord_inv (i : Instr) (f : FmtS) (s : State) (g : Wave → W64) (hs : s.Inv) : OutInv (pairWord i f s g) := by
  unfold pairWord
  repeat' (first | with_reducible assumption | with_reducible apply aluWord_inv)
theorem execSadd_inv (f : FmtS) (s : State) (hs : s.Inv) : OutInv (execSadd f s) := by
  unfold execSadd
  repeat' (first | with_reducible assumption | with_reducible apply aluWord_inv)
theorem execSsub_inv (f : FmtS) (s : State) (hs : s.Inv) : OutInv (execSsub f s) := by
  unfold execSsub
  repeat' (first | with_reducible assumption | with_reducible apply aluWord_inv)
theorem execSmul_inv (f : FmtS) (s : State) (hs : s.Inv) : OutInv (execSmul f s) := by
  unfold execSmul
  repeat' (first | with_reducible assumption | with_reducible apply scalarWord_inv)
theorem execSmulhi_inv (f : FmtS) (s : State) (hs : s.Inv) : OutInv (execSmulhi f s) := by
  unfold execSmulhi
  repeat' (first | with_reducible assumption | with_reducible apply scalarWord_inv)
theorem execSdiv_inv (f : FmtS) (s : State) (hs : s.Inv) : OutInv (execSdiv f s) := by
  unfold execSdiv
  repeat' (first | with_reducible assumption | with_reducible apply aluWord_inv)
theorem execSand_inv (f : FmtS) (s : State) (hs : s.Inv) : OutInv (execSand f s) := by
  unfold execSand
  repeat' (first | with_reducible assumption | with_reducible apply scalarWord_inv)
theorem execSor_inv (f : FmtS) (s : State) (hs : s.Inv) : OutInv (execSor f s) := by
  unfold execSor
  repeat' (first | with_reducible assumption | with_reducible apply scalarWord_inv)
theorem execSxor_inv (f : FmtS) (s : State) (hs : s.Inv) : OutInv (execSxor f s) := by
  unfold execSxor
  repeat' (first | with_reducible assumption | with_reducible apply scalarWord_inv)
theorem execSshl_inv (f : FmtS) (s : State) (hs : s.Inv) : OutInv (execSshl f s) := by
  unfold execSshl
  repeat' (first | with_reducible assumption | with_reducible apply scalarWord_inv)
theorem execSshr_inv (f : FmtS) (s : State) (hs : s.Inv) : OutInv (execSshr f s) := by
  unfold execSshr
  repeat' (first | with_reducible assumption | with_reducible apply scalarWord_inv)
theorem execSrot_inv (f : FmtS) (s : State) (hs : s.Inv) : OutInv (execSrot f s) := by
  unfold execSrot
  repeat' (first | with_reducible assumption | with_reducible apply scalarWord_inv)
theorem execScmp_inv (f : FmtS) (s : State) (hs : s.Inv) : OutInv (execScmp f s) := by
  unfold execScmp
  repeat' (first | with_reducible assumption | with_reducible apply aluWord_inv)
theorem execSsel_inv (f : FmtS) (s : State) (hs : s.Inv) : OutInv (execSsel f s) := by
  unfold execSsel
  repeat' (first | with_reducible assumption | with_reducible apply aluWord_inv)
theorem execSmov_inv (f : FmtS) (s : State) (hs : s.Inv) : OutInv (execSmov f s) := by
  unfold execSmov
  repeat' (first | with_reducible assumption | with_reducible apply aluWord_inv)
theorem execSmin_inv (f : FmtS) (s : State) (hs : s.Inv) : OutInv (execSmin f s) := by
  unfold execSmin
  repeat' (first | with_reducible assumption | with_reducible apply scalarWord_inv)
theorem execSmax_inv (f : FmtS) (s : State) (hs : s.Inv) : OutInv (execSmax f s) := by
  unfold execSmax
  repeat' (first | with_reducible assumption | with_reducible apply scalarWord_inv)
theorem execSbfx_inv (f : FmtS) (s : State) (hs : s.Inv) : OutInv (execSbfx f s) := by
  unfold execSbfx
  repeat' (first | with_reducible assumption | with_reducible apply scalarWord_inv)
theorem execSbfi_inv (f : FmtS) (s : State) (hs : s.Inv) : OutInv (execSbfi f s) := by
  unfold execSbfi
  repeat' (first | with_reducible assumption | with_reducible apply aluWord_inv)
theorem execSbitc_inv (f : FmtS) (s : State) (hs : s.Inv) : OutInv (execSbitc f s) := by
  unfold execSbitc
  repeat' (first | with_reducible assumption | with_reducible apply scalarWord_inv)
theorem execSadd64_inv (f : FmtS) (s : State) (hs : s.Inv) : OutInv (execSadd64 f s) := by
  unfold execSadd64
  repeat' (first | with_reducible assumption | with_reducible apply pairWord_inv)
theorem execSsub64_inv (f : FmtS) (s : State) (hs : s.Inv) : OutInv (execSsub64 f s) := by
  unfold execSsub64
  repeat' (first | with_reducible assumption | with_reducible apply pairWord_inv)
theorem execSmad64_inv (f : FmtS) (s : State) (hs : s.Inv) : OutInv (execSmad64 f s) := by
  unfold execSmad64
  repeat' (first | with_reducible assumption | with_reducible apply pairWord_inv)
theorem execSli_inv (f : FmtS) (s : State) (hs : s.Inv) : OutInv (execSli f s) := by
  unfold execSli
  repeat' (first | with_reducible assumption | with_reducible apply aluWord_inv)

/-! VectorInt -/

theorem laneWord_inv (i : Instr) (s : State) (regs : List Nat) (d : Nat) (g : Wave → Nat → W32) (hs : s.Inv) : OutInv (laneWord i s regs d g) := by
  unfold laneWord
  repeat' (first | with_reducible assumption | with_reducible apply aluWord_inv)
theorem vecWord_inv (i : Instr) (f : FmtV) (srcs : Nat) (s : State) (g : W32 → W32 → W32 → W32) (hs : s.Inv) : OutInv (vecWord i f srcs s g) := by
  unfold vecWord
  repeat' (first | with_reducible assumption | with_reducible apply laneWord_inv)
theorem vecImmWord_inv (i : Instr) (f : FmtVI) (s : State) (g : W32 → W32 → W32) (hs : s.Inv) : OutInv (vecImmWord i f s g) := by
  unfold vecImmWord
  repeat' (first | with_reducible assumption | with_reducible apply laneWord_inv)
theorem arithWord_inv (i : Instr) (f : FmtV) (srcs : Nat) (s : State) (g : Int → Int → Int → Int) (hs : s.Inv) : OutInv (arithWord i f srcs s g) := by
  unfold arithWord
  repeat' (first | with_reducible assumption | with_reducible apply vecWord_inv)
theorem arithImmWord_inv (i : Instr) (f : FmtVI) (s : State) (g : Int → Int → Int) (hs : s.Inv) : OutInv (arithImmWord i f s g) := by
  unfold arithImmWord
  repeat' (first | with_reducible assumption | with_reducible apply vecImmWord_inv)
theorem execVadd_inv (f : FmtV) (s : State) (hs : s.Inv) : OutInv (execVadd f s) := by
  unfold execVadd
  repeat' (first | with_reducible assumption | with_reducible apply arithWord_inv)
theorem execVaddImm_inv (f : FmtVI) (s : State) (hs : s.Inv) : OutInv (execVaddImm f s) := by
  unfold execVaddImm
  repeat' (first | with_reducible assumption | with_reducible apply arithImmWord_inv)
theorem execVsub_inv (f : FmtV) (s : State) (hs : s.Inv) : OutInv (execVsub f s) := by
  unfold execVsub
  repeat' (first | with_reducible assumption | with_reducible apply arithWord_inv)
theorem execVsubImm_inv (f : FmtVI) (s : State) (hs : s.Inv) : OutInv (execVsubImm f s) := by
  unfold execVsubImm
  repeat' (first | with_reducible assumption | with_reducible apply arithImmWord_inv)
theorem execVmul_inv (f : FmtV) (s : State) (hs : s.Inv) : OutInv (execVmul f s) := by
  unfold execVmul
  repeat' (first | with_reducible assumption | with_reducible apply arithWord_inv)
theorem execVmulImm_inv (f : FmtVI) (s : State) (hs : s.Inv) : OutInv (execVmulImm f s) := by
  unfold execVmulImm
  repeat' (first | with_reducible assumption | with_reducible apply arithImmWord_inv)
theorem execVmulhi_inv (f : FmtV) (s : State) (hs : s.Inv) : OutInv (execVmulhi f s) := by
  unfold execVmulhi
  repeat' (first | with_reducible assumption | with_reducible apply vecWord_inv)
theorem execVmulhiImm_inv (f : FmtVI) (s : State) (hs : s.Inv) : OutInv (execVmulhiImm f s) := by
  unfold execVmulhiImm
  repeat' (first | with_reducible assumption | with_reducible apply vecImmWord_inv)
theorem execVmad_inv (f : FmtV) (s : State) (hs : s.Inv) : OutInv (execVmad f s) := by
  unfold execVmad
  repeat' (first | with_reducible assumption | with_reducible apply arithWord_inv)
theorem execVmin_inv (f : FmtV) (s : State) (hs : s.Inv) : OutInv (execVmin f s) := by
  unfold execVmin
  repeat' (first | with_reducible assumption | with_reducible apply arithWord_inv)
theorem execVminImm_inv (f : FmtVI) (s : State) (hs : s.Inv) : OutInv (execVminImm f s) := by
  unfold execVminImm
  repeat' (first | with_reducible assumption | with_reducible apply arithImmWord_inv)
theorem execVmax_inv (f : FmtV) (s : State) (hs : s.Inv) : OutInv (execVmax f s) := by
  unfold execVmax
  repeat' (first | with_reducible assumption | with_reducible apply arithWord_inv)
theorem execVmaxImm_inv (f : FmtVI) (s : State) (hs : s.Inv) : OutInv (execVmaxImm f s) := by
  unfold execVmaxImm
  repeat' (first | with_reducible assumption | with_reducible apply arithImmWord_inv)
theorem execVand_inv (f : FmtV) (s : State) (hs : s.Inv) : OutInv (execVand f s) := by
  unfold execVand
  repeat' (first | with_reducible assumption | with_reducible apply vecWord_inv)
theorem execVandImm_inv (f : FmtVI) (s : State) (hs : s.Inv) : OutInv (execVandImm f s) := by
  unfold execVandImm
  repeat' (first | with_reducible assumption | with_reducible apply vecImmWord_inv)
theorem execVor_inv (f : FmtV) (s : State) (hs : s.Inv) : OutInv (execVor f s) := by
  unfold execVor
  repeat' (first | with_reducible assumption | with_reducible apply vecWord_inv)
theorem execVorImm_inv (f : FmtVI) (s : State) (hs : s.Inv) : OutInv (execVorImm f s) := by
  unfold execVorImm
  repeat' (first | with_reducible assumption | with_reducible apply vecImmWord_inv)
theorem execVxor_inv (f : FmtV) (s : State) (hs : s.Inv) : OutInv (execVxor f s) := by
  unfold execVxor
  repeat' (first | with_reducible assumption | with_reducible apply vecWord_inv)
theorem execVxorImm_inv (f : FmtVI) (s : State) (hs : s.Inv) : OutInv (execVxorImm f s) := by
  unfold execVxorImm
  repeat' (first | with_reducible assumption | with_reducible apply vecImmWord_inv)
theorem execVshl_inv (f : FmtV) (s : State) (hs : s.Inv) : OutInv (execVshl f s) := by
  unfold execVshl
  repeat' (first | with_reducible assumption | with_reducible apply vecWord_inv)
theorem execVshlImm_inv (f : FmtVI) (s : State) (hs : s.Inv) : OutInv (execVshlImm f s) := by
  unfold execVshlImm
  repeat' (first | with_reducible assumption | with_reducible apply vecImmWord_inv)
theorem execVshr_inv (f : FmtV) (s : State) (hs : s.Inv) : OutInv (execVshr f s) := by
  unfold execVshr
  repeat' (first | with_reducible assumption | with_reducible apply vecWord_inv)
theorem execVshrImm_inv (f : FmtVI) (s : State) (hs : s.Inv) : OutInv (execVshrImm f s) := by
  unfold execVshrImm
  repeat' (first | with_reducible assumption | with_reducible apply vecImmWord_inv)
theorem execVrot_inv (f : FmtV) (s : State) (hs : s.Inv) : OutInv (execVrot f s) := by
  unfold execVrot
  repeat' (first | with_reducible assumption | with_reducible apply vecWord_inv)
theorem execVrotImm_inv (f : FmtVI) (s : State) (hs : s.Inv) : OutInv (execVrotImm f s) := by
  unfold execVrotImm
  repeat' (first | with_reducible assumption | with_reducible apply vecImmWord_inv)
theorem execVmov_inv (f : FmtV) (s : State) (hs : s.Inv) : OutInv (execVmov f s) := by
  unfold execVmov
  repeat' (first | with_reducible assumption | with_reducible apply vecWord_inv)
theorem maskWord_inv (i : Instr) (s : State) (regs : List Nat) (d : Nat) (p : Wave → Nat → Bool) (hs : s.Inv) : OutInv (maskWord i s regs d p) := by
  unfold maskWord
  repeat' (first | with_reducible assumption | with_reducible apply aluWord_inv)
theorem execVcmp_inv (f : FmtV) (s : State) (hs : s.Inv) : OutInv (execVcmp f s) := by
  unfold execVcmp
  repeat' (first | with_reducible assumption | with_reducible apply maskWord_inv)
theorem execVcmpImm_inv (f : FmtVI) (s : State) (hs : s.Inv) : OutInv (execVcmpImm f s) := by
  unfold execVcmpImm
  repeat' (first | with_reducible assumption | with_reducible apply maskWord_inv)
theorem execVsel_inv (f : FmtV) (s : State) (hs : s.Inv) : OutInv (execVsel f s) := by
  unfold execVsel
  repeat' (first | with_reducible assumption | with_reducible apply aluWord_inv)
theorem execVbfx_inv (f : FmtV) (s : State) (hs : s.Inv) : OutInv (execVbfx f s) := by
  unfold execVbfx
  repeat' (first | with_reducible assumption | with_reducible apply vecWord_inv)
theorem execVbfi_inv (f : FmtV) (s : State) (hs : s.Inv) : OutInv (execVbfi f s) := by
  unfold execVbfi
  repeat' (first | with_reducible assumption | with_reducible apply laneWord_inv)
theorem execVbitc_inv (f : FmtV) (s : State) (hs : s.Inv) : OutInv (execVbitc f s) := by
  unfold execVbitc
  repeat' (first | with_reducible assumption | with_reducible apply vecWord_inv)
theorem execVsad_inv (f : FmtV) (s : State) (hs : s.Inv) : OutInv (execVsad f s) := by
  unfold execVsad
  repeat' (first | with_reducible assumption | with_reducible apply vecWord_inv)
theorem execVdot4_inv (f : FmtV) (s : State) (hs : s.Inv) : OutInv (execVdot4 f s) := by
  unfold execVdot4
  repeat' (first | with_reducible assumption | with_reducible apply vecWord_inv)
theorem execVperm_inv (f : FmtV) (s : State) (hs : s.Inv) : OutInv (execVperm f s) := by
  unfold execVperm
  repeat' (first | with_reducible assumption | with_reducible apply vecWord_inv)
theorem execVadd64_inv (f : FmtV) (s : State) (hs : s.Inv) : OutInv (execVadd64 f s) := by
  unfold execVadd64
  repeat' (first | with_reducible assumption | with_reducible apply aluWord_inv)
theorem execVadd64Imm_inv (f : FmtVI) (s : State) (hs : s.Inv) : OutInv (execVadd64Imm f s) := by
  unfold execVadd64Imm
  repeat' (first | with_reducible assumption | with_reducible apply aluWord_inv)
theorem execVmad64_inv (f : FmtV) (s : State) (hs : s.Inv) : OutInv (execVmad64 f s) := by
  unfold execVmad64
  repeat' (first | with_reducible assumption | with_reducible apply aluWord_inv)

/-! Float -/

theorem fltWord_inv (i : Instr) (s : State) (u : LegacyUse) (regs : List Nat) (d : Nat) (g : Wave → Nat → W32) (hs : s.Inv) : OutInv (fltWord i s u regs d g) := by
  unfold fltWord
  repeat' (first | with_reducible assumption | with_reducible apply aluWord_inv)
theorem f32Word_inv (i : Instr) (u : LegacyUse) (f : FmtV) (srcs : Nat) (s : State) (g : Wave → RMode → FVal → FVal → FVal → FVal) (hs : s.Inv) : OutInv (f32Word i u f srcs s g) := by
  unfold f32Word
  repeat' (first | with_reducible assumption | with_reducible apply fltWord_inv)
theorem f32ImmWord_inv (i : Instr) (u : LegacyUse) (f : FmtVI) (s : State) (g : Wave → RMode → FVal → FVal → FVal) (hs : s.Inv) : OutInv (f32ImmWord i u f s g) := by
  unfold f32ImmWord
  repeat' (first | with_reducible assumption | with_reducible apply fltWord_inv)
theorem execFadd_inv (f : FmtV) (s : State) (hs : s.Inv) : OutInv (execFadd f s) := by
  unfold execFadd
  repeat' (first | with_reducible assumption | with_reducible apply f32Word_inv)
theorem execFaddImm_inv (f : FmtVI) (s : State) (hs : s.Inv) : OutInv (execFaddImm f s) := by
  unfold execFaddImm
  repeat' (first | with_reducible assumption | with_reducible apply f32ImmWord_inv)
theorem execFsub_inv (f : FmtV) (s : State) (hs : s.Inv) : OutInv (execFsub f s) := by
  unfold execFsub
  repeat' (first | with_reducible assumption | with_reducible apply f32Word_inv)
theorem execFsubImm_inv (f : FmtVI) (s : State) (hs : s.Inv) : OutInv (execFsubImm f s) := by
  unfold execFsubImm
  repeat' (first | with_reducible assumption | with_reducible apply f32ImmWord_inv)
theorem execFmul_inv (f : FmtV) (s : State) (hs : s.Inv) : OutInv (execFmul f s) := by
  unfold execFmul
  repeat' (first | with_reducible assumption | with_reducible apply f32Word_inv)
theorem execFmulImm_inv (f : FmtVI) (s : State) (hs : s.Inv) : OutInv (execFmulImm f s) := by
  unfold execFmulImm
  repeat' (first | with_reducible assumption | with_reducible apply f32ImmWord_inv)
theorem execFfma_inv (f : FmtV) (s : State) (hs : s.Inv) : OutInv (execFfma f s) := by
  unfold execFfma
  repeat' (first | with_reducible assumption | with_reducible apply f32Word_inv)
theorem execFmin_inv (f : FmtV) (s : State) (hs : s.Inv) : OutInv (execFmin f s) := by
  unfold execFmin
  repeat' (first | with_reducible assumption | with_reducible apply f32Word_inv)
theorem execFminImm_inv (f : FmtVI) (s : State) (hs : s.Inv) : OutInv (execFminImm f s) := by
  unfold execFminImm
  repeat' (first | with_reducible assumption | with_reducible apply f32ImmWord_inv)
theorem execFmax_inv (f : FmtV) (s : State) (hs : s.Inv) : OutInv (execFmax f s) := by
  unfold execFmax
  repeat' (first | with_reducible assumption | with_reducible apply f32Word_inv)
theorem execFmaxImm_inv (f : FmtVI) (s : State) (hs : s.Inv) : OutInv (execFmaxImm f s) := by
  unfold execFmaxImm
  repeat' (first | with_reducible assumption | with_reducible apply f32ImmWord_inv)
theorem fltMaskWord_inv (i : Instr) (s : State) (regs : List Nat) (d : Nat) (p : Wave → Nat → Bool) (hs : s.Inv) : OutInv (fltMaskWord i s regs d p) := by
  unfold fltMaskWord
  repeat' (first | with_reducible assumption | with_reducible apply aluWord_inv)
theorem execFcmp_inv (f : FmtV) (s : State) (hs : s.Inv) : OutInv (execFcmp f s) := by
  unfold execFcmp
  repeat' (first | with_reducible assumption | with_reducible apply fltMaskWord_inv)
theorem execFcmpImm_inv (f : FmtVI) (s : State) (hs : s.Inv) : OutInv (execFcmpImm f s) := by
  unfold execFcmpImm
  repeat' (first | with_reducible assumption | with_reducible apply fltMaskWord_inv)
theorem execFrnd_inv (f : FmtV) (s : State) (hs : s.Inv) : OutInv (execFrnd f s) := by
  unfold execFrnd
  repeat' (first | with_reducible assumption | with_reducible apply f32Word_inv)
theorem execFfract_inv (f : FmtV) (s : State) (hs : s.Inv) : OutInv (execFfract f s) := by
  unfold execFfract
  repeat' (first | with_reducible assumption | with_reducible apply fltWord_inv)
theorem execFclass_inv (f : FmtV) (s : State) (hs : s.Inv) : OutInv (execFclass f s) := by
  unfold execFclass
  repeat' (first | with_reducible assumption | with_reducible apply fltWord_inv)
theorem execFldexp_inv (f : FmtV) (s : State) (hs : s.Inv) : OutInv (execFldexp f s) := by
  unfold execFldexp
  repeat' (first | with_reducible assumption | with_reducible apply fltWord_inv)
theorem execFldexpImm_inv (f : FmtVI) (s : State) (hs : s.Inv) : OutInv (execFldexpImm f s) := by
  unfold execFldexpImm
  repeat' (first | with_reducible assumption | with_reducible apply fltWord_inv)
theorem execFfrexp_inv (f : FmtV) (s : State) (hs : s.Inv) : OutInv (execFfrexp f s) := by
  unfold execFfrexp
  repeat' (first | with_reducible assumption | with_reducible apply fltWord_inv)
theorem packedWord_inv (i : Instr) (f : FmtV) (srcs : Nat) (s : State) (g : RMode → FVal → FVal → FVal → FVal) (hs : s.Inv) : OutInv (packedWord i f srcs s g) := by
  unfold packedWord
  repeat' (first | with_reducible assumption | with_reducible apply fltWord_inv)
theorem execHadd2_inv (f : FmtV) (s : State) (hs : s.Inv) : OutInv (execHadd2 f s) := by
  unfold execHadd2
  repeat' (first | with_reducible assumption | with_reducible apply packedWord_inv)
theorem execHmul2_inv (f : FmtV) (s : State) (hs : s.Inv) : OutInv (execHmul2 f s) := by
  unfold execHmul2
  repeat' (first | with_reducible assumption | with_reducible apply packedWord_inv)
theorem execHfma2_inv (f : FmtV) (s : State) (hs : s.Inv) : OutInv (execHfma2 f s) := by
  unfold execHfma2
  repeat' (first | with_reducible assumption | with_reducible apply packedWord_inv)
theorem execHdot2_inv (f : FmtV) (s : State) (hs : s.Inv) : OutInv (execHdot2 f s) := by
  unfold execHdot2
  repeat' (first | with_reducible assumption | with_reducible apply fltWord_inv)

/-! Control -/

theorem ctlWord_inv (i : Instr) (s : State) (run : Wave → Except Trap Wave) (hs : s.Inv) : OutInv (ctlWord i s run) := by
  unfold ctlWord
  repeat' (first | with_reducible assumption | with_reducible apply withWave_inv | with_reducible apply State.trapAt_inv | with_reducible apply State.setWave_inv | with_reducible intro _ | split)
theorem execBra_inv (f : FmtC) (s : State) (hs : s.Inv) : OutInv (execBra f s) := by
  unfold execBra
  repeat' (first | with_reducible assumption | with_reducible apply ctlWord_inv)
theorem execBrs_inv (f : FmtC) (s : State) (hs : s.Inv) : OutInv (execBrs f s) := by
  unfold execBrs
  repeat' (first | with_reducible assumption | with_reducible apply ctlWord_inv)
theorem execBrx_inv (f : FmtC) (s : State) (hs : s.Inv) : OutInv (execBrx f s) := by
  unfold execBrx
  repeat' (first | with_reducible assumption | with_reducible apply ctlWord_inv)
theorem execCall_inv (f : FmtC) (s : State) (hs : s.Inv) : OutInv (execCall f s) := by
  unfold execCall
  repeat' (first | with_reducible assumption | with_reducible apply ctlWord_inv)
theorem execRet_inv (f : FmtC) (s : State) (hs : s.Inv) : OutInv (execRet f s) := by
  unfold execRet
  repeat' (first | with_reducible assumption | with_reducible apply ctlWord_inv)
theorem execLoop_inv (f : FmtC) (s : State) (hs : s.Inv) : OutInv (execLoop f s) := by
  unfold execLoop
  repeat' (first | with_reducible assumption | with_reducible apply ctlWord_inv)
theorem execMark_inv (f : FmtC) (s : State) (hs : s.Inv) : OutInv (execMark f s) := by
  unfold execMark
  repeat' (first | with_reducible assumption | with_reducible apply ctlWord_inv)
theorem execBrm_inv (f : FmtC) (s : State) (hs : s.Inv) : OutInv (execBrm f s) := by
  unfold execBrm
  repeat' (first | with_reducible assumption | with_reducible apply ctlWord_inv)
theorem execJoin_inv (f : FmtC) (s : State) (hs : s.Inv) : OutInv (execJoin f s) := by
  unfold execJoin
  repeat' (first | with_reducible assumption | with_reducible apply ctlWord_inv)
theorem execMask_inv (f : FmtC) (s : State) (hs : s.Inv) : OutInv (execMask f s) := by
  unfold execMask
  repeat' (first | with_reducible assumption | with_reducible apply ctlWord_inv)
theorem execWaitc_inv (f : FmtC) (s : State) (hs : s.Inv) : OutInv (execWaitc f s) := by
  unfold execWaitc
  repeat' (first | with_reducible assumption | with_reducible apply State.setWave_inv | with_reducible apply sysWord_inv | with_reducible apply State.Inv.wf | (with_reducible refine State.Inv.of_wf ?_; dsimp only) | with_reducible intro _ | split)
theorem execYield_inv (f : FmtC) (s : State) (hs : s.Inv) : OutInv (execYield f s) := by
  unfold execYield
  repeat' (first | with_reducible assumption | with_reducible apply ctlWord_inv)
theorem execNop_inv (f : FmtC) (s : State) (hs : s.Inv) : OutInv (execNop f s) := by
  unfold execNop
  repeat' (first | with_reducible assumption | with_reducible apply ctlWord_inv)
theorem execHalt_inv (f : FmtC) (s : State) (hs : s.Inv) : OutInv (execHalt f s) := by
  unfold execHalt
  repeat' (first | with_reducible assumption | with_reducible apply State.endWave_inv | with_reducible apply State.setWave_inv | with_reducible apply sysWord_inv | with_reducible intro _ | split)
theorem execTrap_inv (f : FmtC) (s : State) (hs : s.Inv) : OutInv (execTrap f s) := by
  unfold execTrap
  repeat' (first | with_reducible assumption | with_reducible apply State.trapHeader_inv | with_reducible apply State.setWave_inv | with_reducible apply sysWord_inv | with_reducible intro _ | split)
theorem execSleep_inv (f : FmtC) (s : State) (hs : s.Inv) : OutInv (execSleep f s) := by
  unfold execSleep
  repeat' (first | with_reducible assumption | with_reducible apply State.setWave_inv | with_reducible apply sysWord_inv | with_reducible apply State.Inv.wf | (with_reducible refine State.Inv.of_wf ?_; dsimp only) | with_reducible intro _ | split)

/-! Convert -/

theorem execCvtfi_inv (f : FmtV) (s : State) (hs : s.Inv) : OutInv (execCvtfi f s) := by
  unfold execCvtfi
  repeat' (first | with_reducible assumption | with_reducible apply fltWord_inv)
theorem execCvtif_inv (f : FmtV) (s : State) (hs : s.Inv) : OutInv (execCvtif f s) := by
  unfold execCvtif
  repeat' (first | with_reducible assumption | with_reducible apply fltWord_inv)
theorem execCvtff_inv (f : FmtV) (s : State) (hs : s.Inv) : OutInv (execCvtff f s) := by
  unfold execCvtff
  repeat' (first | with_reducible assumption | with_reducible apply fltWord_inv)
theorem satWord_inv (i : Instr) (s : State) (u : LegacyUse) (regs : List Nat) (d : Nat) (g : Wave → Nat → W32) (n : Wave → Nat) (hs : s.Inv) : OutInv (satWord i s u regs d g n) := by
  unfold satWord
  repeat' (first | with_reducible assumption | with_reducible apply sysWord_inv | with_reducible apply State.trapAt_inv | with_reducible apply State.count_inv | with_reducible apply State.setWave_inv | with_reducible apply State.Inv.wf | (with_reducible refine State.Inv.of_wf ?_; dsimp only) | with_reducible intro _ | split)
theorem execCvtpk_inv (f : FmtV) (s : State) (hs : s.Inv) : OutInv (execCvtpk f s) := by
  unfold execCvtpk
  repeat' (first | with_reducible assumption | with_reducible apply satWord_inv)
theorem execCvtunp_inv (f : FmtV) (s : State) (hs : s.Inv) : OutInv (execCvtunp f s) := by
  unfold execCvtunp
  repeat' (first | with_reducible assumption | with_reducible apply fltWord_inv)
theorem execCvtqb_inv (f : FmtV) (s : State) (hs : s.Inv) : OutInv (execCvtqb f s) := by
  unfold execCvtqb
  repeat' (first | with_reducible assumption | with_reducible apply satWord_inv)

/-! Special -/

theorem specialWord_inv (op : Nat) (i : Instr) (u : LegacyUse) (f : FmtV) (s : State) (g : Wave → RMode → FVal → FVal) (hs : s.Inv) : OutInv (specialWord op i u f s g) := by
  unfold specialWord
  repeat' (first | with_reducible assumption | with_reducible apply aluWord_inv)
theorem execFrcp_inv (f : FmtV) (s : State) (hs : s.Inv) : OutInv (execFrcp f s) := by
  unfold execFrcp
  repeat' (first | with_reducible assumption | with_reducible apply specialWord_inv)
theorem execFrsq_inv (f : FmtV) (s : State) (hs : s.Inv) : OutInv (execFrsq f s) := by
  unfold execFrsq
  repeat' (first | with_reducible assumption | with_reducible apply specialWord_inv)
theorem execFsqrt_inv (f : FmtV) (s : State) (hs : s.Inv) : OutInv (execFsqrt f s) := by
  unfold execFsqrt
  repeat' (first | with_reducible assumption | with_reducible apply specialWord_inv)
theorem execFexp2_inv (f : FmtV) (s : State) (hs : s.Inv) : OutInv (execFexp2 f s) := by
  unfold execFexp2
  repeat' (first | with_reducible assumption | with_reducible apply specialWord_inv)
theorem execFlog2_inv (f : FmtV) (s : State) (hs : s.Inv) : OutInv (execFlog2 f s) := by
  unfold execFlog2
  repeat' (first | with_reducible assumption | with_reducible apply specialWord_inv)
theorem execFsin_inv (f : FmtV) (s : State) (hs : s.Inv) : OutInv (execFsin f s) := by
  unfold execFsin
  repeat' (first | with_reducible assumption | with_reducible apply specialWord_inv)
theorem execFcos_inv (f : FmtV) (s : State) (hs : s.Inv) : OutInv (execFcos f s) := by
  unfold execFcos
  repeat' (first | with_reducible assumption | with_reducible apply specialWord_inv)
theorem execFtanh_inv (f : FmtV) (s : State) (hs : s.Inv) : OutInv (execFtanh f s) := by
  unfold execFtanh
  repeat' (first | with_reducible assumption | with_reducible apply specialWord_inv)

/-! Lane -/

theorem execLbcast_inv (f : FmtV) (s : State) (hs : s.Inv) : OutInv (execLbcast f s) := by
  unfold execLbcast
  repeat' (first | with_reducible assumption | with_reducible apply laneWord_inv)
theorem execLshuf_inv (f : FmtV) (s : State) (hs : s.Inv) : OutInv (execLshuf f s) := by
  unfold execLshuf
  repeat' (first | with_reducible assumption | with_reducible apply laneWord_inv)
theorem execLrot_inv (f : FmtV) (s : State) (hs : s.Inv) : OutInv (execLrot f s) := by
  unfold execLrot
  repeat' (first | with_reducible assumption | with_reducible apply laneWord_inv)
theorem execLquad_inv (f : FmtV) (s : State) (hs : s.Inv) : OutInv (execLquad f s) := by
  unfold execLquad
  repeat' (first | with_reducible assumption | with_reducible apply laneWord_inv)
theorem execLderiv_inv (f : FmtV) (s : State) (hs : s.Inv) : OutInv (execLderiv f s) := by
  unfold execLderiv
  repeat' (first | with_reducible assumption | with_reducible apply fltWord_inv)
theorem execLballot_inv (f : FmtV) (s : State) (hs : s.Inv) : OutInv (execLballot f s) := by
  unfold execLballot
  repeat' (first | with_reducible assumption | with_reducible apply maskWord_inv)
theorem laneScalar_inv (i : Instr) (f : FmtV) (s : State) (g : Wave → W32 × Bool) (hs : s.Inv) : OutInv (laneScalar i f s g) := by
  unfold laneScalar
  repeat' (first | with_reducible assumption | with_reducible apply aluWord_inv)
theorem execLfirst_inv (f : FmtV) (s : State) (hs : s.Inv) : OutInv (execLfirst f s) := by
  unfold execLfirst
  repeat' (first | with_reducible assumption | with_reducible apply laneScalar_inv)
theorem execLcount_inv (f : FmtV) (s : State) (hs : s.Inv) : OutInv (execLcount f s) := by
  unfold execLcount
  repeat' (first | with_reducible assumption | with_reducible apply laneScalar_inv)
theorem execLred_inv (f : FmtV) (s : State) (hs : s.Inv) : OutInv (execLred f s) := by
  unfold execLred
  repeat' (first | with_reducible assumption | with_reducible apply aluWord_inv)
theorem execLscan_inv (f : FmtV) (s : State) (hs : s.Inv) : OutInv (execLscan f s) := by
  unfold execLscan
  repeat' (first | with_reducible assumption | with_reducible apply aluWord_inv)
theorem execLmatch_inv (f : FmtV) (s : State) (hs : s.Inv) : OutInv (execLmatch f s) := by
  unfold execLmatch
  repeat' (first | with_reducible assumption | with_reducible apply aluWord_inv)
theorem execLhist_inv (f : FmtV) (s : State) (hs : s.Inv) : OutInv (execLhist f s) := by
  unfold execLhist
  repeat' (first | with_reducible assumption | with_reducible apply aluWord_inv)
theorem execLmerge_inv (f : FmtV) (s : State) (hs : s.Inv) : OutInv (execLmerge f s) := by
  unfold execLmerge
  repeat' (first | with_reducible assumption | with_reducible apply aluWord_inv)

/-! Graphics -/

theorem GRead.read_inv (r : GRead) (core team : Nat) (va : W64) (n : Nat) (hr : r.s.Inv) : (GRead.read r core team va n).1.s.Inv := by
  unfold GRead.read
  repeat' (first | with_reducible assumption | with_reducible apply State.touchTlb_inv | with_reducible apply State.unitRead_inv | with_reducible apply State.Inv.wf | (with_reducible refine State.Inv.of_wf ?_; dsimp only) | split)
theorem gLanes_inv {α : Type} {s : State} {lanes : List Nat} {f : GRead → Nat → GRead × α} (hs : s.Inv)
    (h : ∀ r l, r.s.Inv → (f r l).1.s.Inv) : (gLanes s lanes f).s.Inv := by
  unfold gLanes
  apply GLanes.inv_foldl
  · intro r l hr
    exact h ⟨r.s, none, none, false⟩ l hr
  · exact hs
theorem State.gBad_inv (s : State) (c k : Nat) (bads : List (Nat × W64)) (die idx : Nat) (hs : s.Inv) : (State.gBad s c k bads die idx).Inv := by
  unfold State.gBad
  repeat' (first | with_reducible assumption | with_reducible apply State.updWave_inv | with_reducible apply State.count_inv | split)
theorem State.gPoison_inv {s : State} {c k : Nat} {w : Wave} {bad : Option (W64 × BitVec 96)} {go : State → Wave → State} (hs : s.Inv)
    (h : ∀ s w, s.Inv → (go s w).Inv) : (State.gPoison s c k w bad go).Inv := by
  unfold State.gPoison
  repeat' (first | with_reducible assumption | with_reducible apply h | with_reducible apply State.trapAt_inv | with_reducible apply State.countErr_inv | split | dsimp only)
theorem State.touchFails_inv (s : State) (core : Nat) (fails : List (Nat × W64 × XErr)) (hs : s.Inv) : (State.touchFails s core fails).Inv := by
  unfold State.touchFails
  repeat' (first | with_reducible assumption | with_reducible apply State.touchFault_inv | with_reducible apply State.Inv.foldl | with_reducible intro _)
theorem State.gFinish_inv {α : Type} (s : State) (c k : Nat) (w : Wave) (r : GLanes α) (src : Option (BitVec 96)) (errIdx : Nat) (vs : List (Nat × α) → List (Nat × Nat × W32)) (hs : s.Inv) (hr : r.s.Inv) : (State.gFinish s c k w r src errIdx vs).Inv := by
  unfold State.gFinish
  repeat' (first | with_reducible assumption | with_reducible apply State.count_inv | with_reducible apply State.setWave_inv | with_reducible apply State.trapAt_inv | with_reducible apply State.gBad_inv | with_reducible apply State.issueReq_inv | with_reducible apply State.gPoison_inv | with_reducible apply State.touchFails_inv | with_reducible apply State.Inv.wf | (with_reducible refine State.Inv.of_wf ?_; dsimp only) | with_reducible intro _ | split)
theorem gfxWord_inv {α : Type} {i : Instr} {s : State} {dst ss vs : List Nat} {errIdx : Nat} {lane : Nat → Wave → GRead → Nat → GRead × α}
    {outs : List (Nat × α) → List (Nat × Nat × W32)} (hs : s.Inv) (h : ∀ c w r l, r.s.Inv → (lane c w r l).1.s.Inv) :
    OutInv (gfxWord i s dst ss vs errIdx lane outs) := by
  unfold gfxWord
  repeat' (first | with_reducible assumption | with_reducible apply sysWord_inv | with_reducible apply State.trapAt_inv | with_reducible apply State.setWave_inv | with_reducible apply State.gFinish_inv | with_reducible apply gLanes_inv | with_reducible apply h | with_reducible intro _ | split)
theorem State.countTests_inv (s : State) (c team ev n : Nat) (hs : s.Inv) : (State.countTests s c team ev n).Inv := by
  unfold State.countTests
  repeat' (first | with_reducible assumption | with_reducible apply State.pmcCount_inv | split)
theorem rboxLane_inv (f : FmtG) (s : State) (c : Nat) (w : Wave) (r : GRead) (l : Nat) (hs : s.Inv) (hr : r.s.Inv) : (rboxLane f s c w r l).1.s.Inv := by
  unfold rboxLane
  repeat' (first | with_reducible assumption | with_reducible apply State.countTests_inv | with_reducible apply GRead.read_inv | with_reducible apply State.Inv.wf | (with_reducible refine State.Inv.of_wf ?_; dsimp only) | split)
theorem execRbox_inv (f : FmtG) (s : State) (hs : s.Inv) : OutInv (execRbox f s) := by
  unfold execRbox
  repeat' (first | with_reducible assumption | with_reducible apply gfxWord_inv | with_reducible apply rboxLane_inv | with_reducible intro _)
theorem rtriLane_inv (f : FmtG) (c : Nat) (w : Wave) (r : GRead) (l : Nat) (hr : r.s.Inv) : (rtriLane f c w r l).1.s.Inv := by
  unfold rtriLane
  repeat' (first | with_reducible assumption | with_reducible apply State.countTests_inv | with_reducible apply GRead.read_inv | with_reducible apply State.Inv.wf | (with_reducible refine State.Inv.of_wf ?_; dsimp only) | split)
theorem execRtri_inv (f : FmtG) (s : State) (hs : s.Inv) : OutInv (execRtri f s) := by
  unfold execRtri
  repeat' (first | with_reducible assumption | with_reducible apply gfxWord_inv | with_reducible apply rtriLane_inv)
theorem execRpush_inv (f : FmtG) (s : State) (hs : s.Inv) : OutInv (execRpush f s) := by
  unfold execRpush
  repeat' (first | with_reducible assumption | with_reducible apply State.gPoison_inv | with_reducible apply State.setWave_inv | with_reducible apply State.trapAt_inv | with_reducible apply State.issueReq_inv | with_reducible apply sysWord_inv | with_reducible apply State.Inv.wf | (with_reducible refine State.Inv.of_wf ?_; dsimp only) | with_reducible intro _ | split)
theorem execRpop_inv (f : FmtG) (s : State) (hs : s.Inv) : OutInv (execRpop f s) := by
  unfold execRpop
  repeat' (first | with_reducible assumption | with_reducible apply State.gPoison_inv | with_reducible apply State.setWave_inv | with_reducible apply State.trapAt_inv | with_reducible apply State.issueReq_inv | with_reducible apply sysWord_inv | with_reducible apply State.Inv.wf | (with_reducible refine State.Inv.of_wf ?_; dsimp only) | with_reducible intro _ | split)
theorem GRead.records_inv (r : GRead) (core team : Nat) (table id : W64) (hr : r.s.Inv) : (GRead.records r core team table id).1.s.Inv := by
  unfold GRead.records
  repeat' (first | with_reducible assumption | with_reducible apply GRead.read_inv | with_reducible apply State.Inv.wf | (with_reducible refine State.Inv.of_wf ?_; dsimp only) | split)
theorem rhitLane_inv (f : FmtG) (s : State) (c : Nat) (w : Wave) (r : GRead) (l : Nat) (hs : s.Inv) (hr : r.s.Inv) : (rhitLane f s c w r l).1.s.Inv := by
  unfold rhitLane
  repeat' (first | with_reducible assumption | with_reducible apply GRead.records_inv | with_reducible apply GRead.read_inv | with_reducible apply State.Inv.wf | (with_reducible refine State.Inv.of_wf ?_; dsimp only) | split)
theorem execRhit_inv (f : FmtG) (s : State) (hs : s.Inv) : OutInv (execRhit f s) := by
  unfold execRhit
  repeat' (first | with_reducible assumption | with_reducible apply State.setWave_inv | with_reducible apply rhitLane_inv | with_reducible apply sysWord_inv | with_reducible apply State.trapAt_inv | with_reducible apply gLanes_inv | with_reducible apply State.issueReq_inv | with_reducible apply State.idemLost_inv | with_reducible apply State.gPoison_inv | with_reducible apply State.touchFails_inv | with_reducible apply State.Inv.wf | (with_reducible refine State.Inv.of_wf ?_; dsimp only) | with_reducible intro _ | split)
theorem GRead.vertex_inv (r : GRead) (core team : Nat) (idxAt : W64) (vbase : W32) (base : W64) (stride : Nat) (fm : Fmt) (n : Nat) (hr : r.s.Inv) : (GRead.vertex r core team idxAt vbase base stride fm n).1.s.Inv := by
  unfold GRead.vertex
  repeat' (first | with_reducible assumption | with_reducible apply GRead.read_inv | with_reducible apply State.Inv.wf | with_reducible apply GRead.inv_foldl | (with_reducible refine State.Inv.of_wf ?_; dsimp only) | with_reducible intro _ | split)
theorem afetchLane_inv (f : FmtG) (c : Nat) (w : Wave) (r : GRead) (l : Nat) (hr : r.s.Inv) : (afetchLane f c w r l).1.s.Inv := by
  unfold afetchLane
  repeat' (first | with_reducible assumption | with_reducible apply GRead.read_inv | with_reducible apply GRead.vertex_inv | with_reducible apply GRead.records_inv | with_reducible apply State.Inv.wf | with_reducible apply GRead.inv_foldl | (with_reducible refine State.Inv.of_wf ?_; dsimp only) | with_reducible intro _ | split)
theorem execAfetch_inv (f : FmtG) (s : State) (hs : s.Inv) : OutInv (execAfetch f s) := by
  unfold execAfetch
  repeat' (first | with_reducible assumption | with_reducible apply gfxWord_inv | with_reducible apply afetchLane_inv)
theorem abaryLane_inv (f : FmtG) (_c : Nat) (w : Wave) (r : GRead) (l : Nat) (hr : r.s.Inv) : (abaryLane f _c w r l).1.s.Inv := by
  unfold abaryLane
  repeat' (with_reducible assumption)
theorem execAbary_inv (f : FmtG) (s : State) (hs : s.Inv) : OutInv (execAbary f s) := by
  unfold execAbary
  repeat' (first | with_reducible assumption | with_reducible apply gfxWord_inv | with_reducible apply abaryLane_inv)
theorem ainterpLane_inv (f : FmtG) (_c : Nat) (w : Wave) (r : GRead) (l : Nat) (hr : r.s.Inv) : (ainterpLane f _c w r l).1.s.Inv := by
  unfold ainterpLane
  repeat' (with_reducible assumption)
theorem execAinterp_inv (f : FmtG) (s : State) (hs : s.Inv) : OutInv (execAinterp f s) := by
  unfold execAinterp
  repeat' (first | with_reducible assumption | with_reducible apply gfxWord_inv | with_reducible apply ainterpLane_inv)
theorem execVisld_inv (f : FmtG) (s : State) (hs : s.Inv) : OutInv (execVisld f s) := by
  unfold execVisld
  repeat' (first | with_reducible assumption | with_reducible apply State.gPoison_inv | with_reducible apply State.setWave_inv | with_reducible apply State.trapAt_inv | with_reducible apply State.issueReq_inv | with_reducible apply sysWord_inv | with_reducible apply State.Inv.wf | (with_reducible refine State.Inv.of_wf ?_; dsimp only) | with_reducible intro _ | split)
theorem GRead.sample_inv (r : GRead) (core team : Nat) (x : Sampler) (linear : Bool) (ms : List (Rat × Nat)) (u v : Rat) (hr : r.s.Inv) : (GRead.sample r core team x linear ms u v).1.s.Inv := by
  unfold GRead.sample
  repeat' (first | with_reducible assumption | with_reducible apply GRead.read_inv | with_reducible apply GRead.inv_foldl | with_reducible intro _)
theorem sampleLane_inv (f : FmtG) (x : Sampler) (lod : Sampler → Wave → Nat → FVal) (c : Nat) (w : Wave) (r : GRead) (l : Nat) (hr : r.s.Inv) : (sampleLane f x lod c w r l).1.s.Inv := by
  unfold sampleLane
  repeat' (first | with_reducible assumption | with_reducible apply GRead.sample_inv | with_reducible apply State.Inv.wf | (with_reducible refine State.Inv.of_wf ?_; dsimp only) | split)
theorem sampleWord_inv {i : Instr} {f : FmtG} {s : State} {nsrc : Nat} {lod : Sampler → Wave → Nat → FVal} (hs : s.Inv) :
    OutInv (sampleWord i f s nsrc lod) := by
  unfold sampleWord
  repeat' (first | with_reducible assumption | with_reducible apply sysWord_inv | with_reducible apply State.trapAt_inv | with_reducible apply State.setWave_inv | with_reducible apply State.issueReq_inv | with_reducible apply State.gFinish_inv | with_reducible apply gLanes_inv | with_reducible apply sampleLane_inv | with_reducible apply GRead.read_inv | with_reducible intro _ | split | extract_lets)
theorem execSmpl_inv (f : FmtG) (s : State) (hs : s.Inv) : OutInv (execSmpl f s) := by
  unfold execSmpl
  repeat' (first | with_reducible assumption | with_reducible apply sampleWord_inv)
theorem execSmpll_inv (f : FmtG) (s : State) (hs : s.Inv) : OutInv (execSmpll f s) := by
  unfold execSmpll
  repeat' (first | with_reducible assumption | with_reducible apply sampleWord_inv)
theorem execPxout_inv (f : FmtG) (s : State) (hs : s.Inv) : OutInv (execPxout f s) := by
  unfold execPxout
  repeat' (first | with_reducible assumption | with_reducible apply State.touchAll_inv | with_reducible apply GRead.read_inv | with_reducible apply State.setWave_inv | with_reducible apply sysWord_inv | with_reducible apply State.trapAt_inv | with_reducible apply State.issueReq_inv | with_reducible apply State.countErr_inv | with_reducible apply State.touchFault_inv | with_reducible apply State.idemLost_inv | with_reducible apply State.gPoison_inv | with_reducible apply State.touchFails_inv | with_reducible apply State.Inv.wf | (with_reducible refine State.Inv.of_wf ?_; dsimp only) | with_reducible intro _ | split)
theorem execTret_inv (f : FmtG) (s : State) (hs : s.Inv) : OutInv (execTret f s) := by
  unfold execTret
  repeat' (first | with_reducible assumption | with_reducible apply State.setWave_inv | with_reducible apply State.idemLost_inv | with_reducible apply sysWord_inv | with_reducible apply State.releaseRefs_inv | with_reducible intro _)


end Sys2Proof.Machine
end

