-- ==== Sys2Proof/Laws/InvDevice.lean ====
section
/-! SUPPORT. The invariant is kept by each operation: the raster engines, the sequencer, the Gear train, the Regulator, power, the window, Fredusin, the errors that arise and the fabric. -/

set_option Elab.async false

namespace Sys2Proof.Machine

/-! Raster -/

theorem execRsub_inv (f : FmtQ) (s : State) (hs : s.Inv) : OutInv (execRsub f s) := by
  unfold execRsub
  repeat' (first | with_reducible assumption | with_reducible apply sysWord_inv | with_reducible apply State.trapAt_inv | with_reducible apply State.issueCmd_inv | with_reducible apply State.touchFault_inv | with_reducible apply State.touchTlb_inv | with_reducible apply State.Inv.wf | (with_reducible refine State.Inv.of_wf ?_; dsimp only) | with_reducible intro _ | split)
theorem DRead.read_inv (r : DRead) (die : Nat) (va : W64) (n : Nat) (hr : r.s.Inv) : (DRead.read r die va n).1.s.Inv := by
  unfold DRead.read
  repeat' (first | with_reducible assumption | with_reducible apply State.homeReadBytes_inv | with_reducible apply State.countErr_inv | with_reducible apply State.touchShared_inv | with_reducible apply State.Inv.wf | with_reducible apply DRead.inv_foldl | (with_reducible refine State.Inv.of_wf ?_; dsimp only) | with_reducible intro _ | split)
theorem DRead.refuse_inv (r : DRead) (ok : Bool) (va : W64) (sub : Nat) (hr : r.s.Inv) : (DRead.refuse r ok va sub).s.Inv := by
  unfold DRead.refuse
  repeat' (first | with_reducible assumption | split)
theorem DRead.frame_inv (r : DRead) (die : Nat) (va : W64) (hr : r.s.Inv) : (DRead.frame r die va).1.s.Inv := by
  unfold DRead.frame
  repeat' (first | with_reducible assumption | with_reducible apply DRead.refuse_inv | with_reducible apply DRead.read_inv)
theorem State.takeSlots_inv (s : State) (die : Nat) (frame : W64) (fd : FrameDesc) (hs : s.Inv) : OptInv (State.takeSlots s die frame fd) := by
  unfold State.takeSlots
  repeat' (first | with_reducible assumption | with_reducible exact OptInv.ofNone | with_reducible apply OptInv.ofSome | with_reducible apply State.sliceTrim_inv | with_reducible apply State.setTile_inv | with_reducible apply State.Inv.wf | with_reducible apply State.Inv.foldl | (with_reducible refine State.Inv.of_wf ?_; dsimp only) | with_reducible intro _ | split | extract_lets)
theorem State.admitRsub_inv (s : State) (id : Nat) (c : Cmd) (desc : W64) (die : Nat) (close : Bool) (hs : s.Inv) : (State.admitRsub s id c desc die close).Inv := by
  unfold State.admitRsub
  repeat' (first | with_reducible assumption | with_reducible exact OptInv.ofNone | with_reducible apply OptInv.ofSome | with_reducible apply DRead.frame_inv | with_reducible apply State.engRead_inv | with_reducible apply State.finishCmd_inv | with_reducible apply State.cmdMaySend_inv | with_reducible apply State.takeSlots_inv | with_reducible apply State.setDie_inv | with_reducible apply State.Inv.wf | with_reducible apply OptInv.map | (with_reducible refine State.Inv.of_wf ?_; dsimp only) | with_reducible intro _ | split | extract_lets | with_reducible refine OptInv.elim (by assumption) ?_)
theorem State.admitAll_inv (s : State) (die : Nat) (hs : s.Inv) : (State.admitAll s die).Inv := by
  unfold State.admitAll
  repeat' (first | with_reducible assumption | with_reducible apply State.admitRsub_inv | with_reducible apply State.Inv.foldl | with_reducible intro _ | split)
theorem State.freshPix_inv (s : State) (slot p : Nat) (x : Pix) (hs : s.Inv) : (State.freshPix s slot p x).Inv := by
  unfold State.freshPix
  repeat' (first | with_reducible assumption | with_reducible apply State.count_inv | with_reducible apply State.setTile_inv | with_reducible apply State.Inv.wf | (with_reducible refine State.Inv.of_wf ?_; dsimp only) | split)
theorem State.rasterTile_inv (s : State) (slot : Nat) (id : W64) (v0 v1 v2 : Vert) (hs : s.Inv) : (State.rasterTile s slot id v0 v1 v2).Inv := by
  unfold State.rasterTile
  repeat' (first | with_reducible assumption | with_reducible apply State.count_inv | with_reducible apply State.freshPix_inv | with_reducible apply State.Inv.wf | with_reducible apply State.Inv.foldl | (with_reducible refine State.Inv.of_wf ?_; dsimp only) | with_reducible intro _ | split)
theorem DRead.vert_inv (r : DRead) (die : Nat) (idxAt : W64) (vbase : W32) (base : W64) (stride : Nat) (hr : r.s.Inv) : (DRead.vert r die idxAt vbase base stride).1.s.Inv := by
  unfold DRead.vert
  repeat' (first | with_reducible assumption | with_reducible apply DRead.read_inv)
theorem DRead.rasterCluster_inv (r : DRead) (die : Nat) (inst : W64) (tiles : List Nat) (id at_ : W64) (hr : r.s.Inv) : (DRead.rasterCluster r die inst tiles id at_).s.Inv := by
  unfold DRead.rasterCluster
  repeat' (first | with_reducible assumption | with_reducible apply State.count_inv | with_reducible apply DRead.refuse_inv | with_reducible apply State.rasterTile_inv | with_reducible apply DRead.vert_inv | with_reducible apply DRead.read_inv | with_reducible apply State.Inv.wf | with_reducible apply State.Inv.foldl | with_reducible apply DRead.inv_foldl_all | (with_reducible refine State.Inv.of_wf ?_; dsimp only) | with_reducible intro _ | split)
theorem execRasterBatch_inv (die : Nat) (s : State) (hs : s.Inv) : OutInv (execRasterBatch die s) := by
  unfold execRasterBatch
  repeat' (first | with_reducible assumption | with_reducible apply OutInv.next | with_reducible apply State.admitAll_inv | with_reducible apply DRead.frame_inv | with_reducible apply State.finishCmd_inv | with_reducible apply DRead.rasterCluster_inv | with_reducible apply DRead.read_inv | with_reducible apply State.setDie_inv | with_reducible apply State.Inv.wf | with_reducible apply DRead.inv_foldl_all | (with_reducible refine State.Inv.of_wf ?_; dsimp only) | with_reducible intro _ | split | extract_lets)
theorem execFrameClose_inv (die : Nat) (s : State) (hs : s.Inv) : OutInv (execFrameClose die s) := by
  unfold execFrameClose
  repeat' (first | with_reducible assumption | with_reducible apply OutInv.next | with_reducible apply State.setTile_inv | with_reducible apply State.retireFrame_inv | with_reducible apply State.setDie_inv | with_reducible apply State.Inv.foldl | with_reducible intro _ | split | extract_lets)
theorem State.tileGroups_inv (s : State) (die slot : Nat) (hs : s.Inv) : (State.tileGroups s die slot).1.Inv := by
  unfold State.tileGroups
  repeat' (first | with_reducible assumption | with_reducible apply DRead.frame_inv | with_reducible apply State.count_inv | with_reducible apply DRead.read_inv | with_reducible apply State.Inv.wf | with_reducible apply State.Inv.foldl_fst | (with_reducible refine State.Inv.of_wf ?_; dsimp only) | with_reducible intro _ | split)
theorem State.appendGroups_inv (die slot : Nat) (n : Nat) (s : State) (hs : s.Inv) : (State.appendGroups die slot n s).Inv := by
  induction n generalizing s with
  | zero => exact hs
  | succ n ih =>
    unfold State.appendGroups
    repeat' (first | with_reducible assumption | with_reducible apply ih | with_reducible apply State.classified_inv | with_reducible apply State.count_inv | with_reducible apply State.binAppend_inv | with_reducible apply State.setTile_inv | split | extract_lets)
theorem execClassifyTile_inv (die engine : Nat) (s : State) (hs : s.Inv) : OutInv (execClassifyTile die engine s) := by
  unfold execClassifyTile
  repeat' (first | with_reducible assumption | with_reducible apply OutInv.next | with_reducible apply State.appendGroups_inv | with_reducible apply State.setTile_inv | with_reducible apply State.tileGroups_inv | with_reducible apply State.setDie_inv | split | extract_lets | dsimp +zetaDelta only)
theorem State.closeBinWave_inv (s : State) (die m : Nat) (l : Nat) (x : Launch) (f : Forming) (hs : s.Inv) : (State.closeBinWave s die m l x f).Inv := by
  unfold State.closeBinWave
  repeat' (first | with_reducible assumption | with_reducible apply State.count_inv | with_reducible apply State.setLaunch_inv | with_reducible apply State.setTile_inv | with_reducible apply State.classifiedAll_inv | with_reducible apply State.setDie_inv | with_reducible apply State.Inv.foldl | with_reducible intro _ | split)
theorem execBinWaveClose_inv (die material : Nat) (s : State) (hs : s.Inv) : OutInv (execBinWaveClose die material s) := by
  unfold execBinWaveClose
  repeat' (first | with_reducible assumption | with_reducible apply OutInv.next | with_reducible apply State.closeBinWave_inv | split)
theorem execBinflushTimeout_inv (die material : Nat) (s : State) (hs : s.Inv) : OutInv (execBinflushTimeout die material s) := by
  unfold execBinflushTimeout
  repeat' (first | with_reducible assumption | with_reducible apply OutInv.next | with_reducible apply State.closeBinWave_inv | split)

/-! Regulator -/

theorem State.statusWrite_inv (s : State) (pa v : Nat) (hs : s.Inv) : (State.statusWrite s pa v).Inv := by
  unfold State.statusWrite
  repeat' (first | with_reducible assumption | with_reducible apply State.devWrite_inv)
theorem State.advanceHead_inv (n : Nat) (s : State) (q : Nat) (hs : s.Inv) : (State.advanceHead n s q).Inv := by
  induction n generalizing s with
  | zero => exact hs
  | succ n ih =>
    unfold State.advanceHead
    repeat' (first | with_reducible assumption | with_reducible apply ih | with_reducible apply State.setLq_inv | with_reducible apply State.ctlWrite_inv | with_reducible apply State.homeRead_inv | split | extract_lets | dsimp +zetaDelta only)
theorem State.headOf_inv (s : State) (q : Nat) (hs : s.Inv) : (State.headOf s q).Inv := by
  unfold State.headOf
  repeat' (first | with_reducible assumption | with_reducible apply State.advanceHead_inv)
theorem execLaunchQueueRefetch_inv (q : Nat) (s : State) (hs : s.Inv) : OutInv (execLaunchQueueRefetch q s) := by
  unfold execLaunchQueueRefetch
  repeat' (first | with_reducible assumption | with_reducible apply OutInv.next | with_reducible apply State.ctlRead_inv | with_reducible apply State.setLq_inv | split | extract_lets)
theorem State.updPrio_inv (s : State) (hs : s.Inv) : (State.updPrio s).Inv := by
  unfold State.updPrio
  repeat' (first | with_reducible assumption | with_reducible apply State.Inv.wf | (with_reducible refine State.Inv.of_wf ?_; dsimp only))
theorem State.makeEntry_inv (s : State) (b : List Byte) (pa : Nat) (q : Option Nat) (seq : Nat) (m : Option Nat) (st : LState) (child : Bool) (hs : s.Inv) : (State.makeEntry s b pa q seq m st child).Inv := by
  unfold State.makeEntry
  repeat' (first | with_reducible assumption | with_reducible apply State.updPrio_inv | with_reducible apply State.Inv.wf | (with_reducible refine State.Inv.of_wf ?_; dsimp only))
theorem State.noteRefused_inv (s : State) (b : List Byte) (reason : Nat) (hs : s.Inv) : (State.noteRefused s b reason).Inv := by
  unfold State.noteRefused
  repeat' (first | with_reducible assumption | with_reducible apply State.Inv.wf | (with_reducible refine State.Inv.of_wf ?_; dsimp only) | split)
theorem execLaunchRecordRead_inv (q : Nat) (s : State) (hs : s.Inv) : OutInv (execLaunchRecordRead q s) := by
  unfold execLaunchRecordRead
  repeat' (first | with_reducible assumption | with_reducible apply OutInv.next | with_reducible apply State.homeReadBytes_inv | with_reducible apply State.makeEntry_inv | with_reducible apply State.setLq_inv | with_reducible apply State.noteRefused_inv | with_reducible apply State.statusWrite_inv | with_reducible apply State.headOf_inv | split | extract_lets | dsimp +zetaDelta only)
theorem execLaunchActivation_inv (l : Nat) (s : State) (hs : s.Inv) : OutInv (execLaunchActivation l s) := by
  unfold execLaunchActivation
  repeat' (first | with_reducible assumption | with_reducible apply OutInv.next | with_reducible apply State.setLaunch_inv | split)
theorem State.standLaunch_inv (s : State) (m : Nat) (hs : s.Inv) : (State.standLaunch s m).Inv := by
  unfold State.standLaunch
  repeat' (first | with_reducible assumption | with_reducible apply State.makeEntry_inv | with_reducible apply State.discardBins_inv | with_reducible apply DRead.read_inv | with_reducible apply State.noteRefused_inv | with_reducible apply State.statusWrite_inv | with_reducible apply State.errorReport_inv | with_reducible apply State.Inv.wf | (with_reducible refine State.Inv.of_wf ?_; dsimp only) | split)
theorem State.endStanding_inv (s : State) (m : Nat) (hs : s.Inv) : (State.endStanding s m).Inv := by
  unfold State.endStanding
  repeat' (first | with_reducible assumption | with_reducible apply State.setLaunch_inv | with_reducible apply State.discardBins_inv | with_reducible apply State.Inv.wf | (with_reducible refine State.Inv.of_wf ?_; dsimp only) | split)
theorem State.reapWaves_inv (s : State) (hs : s.Inv) : (State.reapWaves s).Inv := by
  unfold State.reapWaves
  repeat' (first | with_reducible assumption | with_reducible apply State.Inv.wf | (with_reducible refine State.Inv.of_wf ?_; dsimp only))
theorem State.leaveGroup_inv (s : State) (g id : Nat) (hs : s.Inv) : (State.leaveGroup s g id).Inv := by
  unfold State.leaveGroup
  repeat' (first | with_reducible assumption | with_reducible apply State.Inv.wf | (with_reducible refine State.Inv.of_wf ?_; dsimp only) | split)
theorem State.dropStreams_inv (s : State) (id : Nat) (hs : s.Inv) : (State.dropStreams s id).Inv := by
  unfold State.dropStreams
  repeat' (first | with_reducible assumption | with_reducible apply State.setCore_inv | with_reducible apply State.Inv.wf | with_reducible apply State.Inv.foldl | (with_reducible refine State.Inv.of_wf ?_; dsimp only) | with_reducible intro _)
theorem State.reapTeam_inv (s : State) (id : Nat) (t : Team) (hs : s.Inv) : (State.reapTeam s id t).Inv := by
  unfold State.reapTeam
  repeat' (first | with_reducible assumption | with_reducible apply State.dropWatch_inv | with_reducible apply State.dropStreams_inv | with_reducible apply State.updLaunch_inv | with_reducible apply State.leaveGroup_inv | with_reducible apply State.Inv.wf | (with_reducible refine State.Inv.of_wf ?_; dsimp only) | split)
theorem State.reap_inv (s : State) (hs : s.Inv) : (State.reap s).Inv := by
  unfold State.reap
  repeat' (first | with_reducible assumption | with_reducible apply State.reapTeam_inv | with_reducible apply State.reapWaves_inv | with_reducible apply State.Inv.foldl | with_reducible intro _ | split)
theorem State.compact_inv (s : State) (core : Nat) (hs : s.Inv) : (State.compact s core).Inv := by
  unfold State.compact
  repeat' (first | with_reducible assumption | with_reducible apply MemSys.wf_mk | with_reducible apply Mem.wf_overlay | with_reducible apply Mem.wf_clear | with_reducible apply Mem.wf_foldl | with_reducible apply State.Inv.home | with_reducible apply State.Inv.dram | with_reducible apply State.Inv.scratch | with_reducible apply State.Inv.rows | with_reducible apply State.Inv.chip | with_reducible apply State.Inv.acc | (with_reducible refine State.Inv.of_wf ?_; dsimp only) | with_reducible intro _)
theorem State.allotAt_inv (s : State) (core base n : Nat) (hs : s.Inv) : (State.allotAt s core base n).1.Inv := by
  unfold State.allotAt
  repeat' (first | with_reducible assumption | with_reducible apply State.compact_inv | with_reducible apply State.Inv.wf | (with_reducible refine State.Inv.of_wf ?_; dsimp only) | split)
theorem State.startTeam_inv (s : State) (lid : Nat) (l : Launch) (id index group members pos : Nat) (spot : Spot) (bin : Option BinTeam) (hs : s.Inv) : (State.startTeam s lid l id index group members pos spot bin).Inv := by
  unfold State.startTeam
  repeat' (first | with_reducible assumption | with_reducible apply State.columnAcquire_inv | with_reducible apply State.storeClear_inv | with_reducible apply State.allotAt_inv | with_reducible apply State.setWave_inv | with_reducible apply State.setStream_inv | with_reducible apply State.setTeam_inv | with_reducible apply State.setCore_inv | with_reducible apply State.Inv.wf | with_reducible apply State.Inv.foldl | (with_reducible refine State.Inv.of_wf ?_; dsimp only) | with_reducible intro _ | split)
theorem State.restoreTeam_inv (s : State) (id : Nat) (x : Saved) (spot : Spot) (hs : s.Inv) : (State.restoreTeam s id x spot).Inv := by
  unfold State.restoreTeam
  repeat' (first | with_reducible assumption | with_reducible apply State.updStream_inv | with_reducible apply State.phaseArrive_inv | with_reducible apply State.setCore_inv | with_reducible apply State.mirrorCore_inv | with_reducible apply State.columnAcquire_inv | with_reducible apply State.setWave_inv | with_reducible apply State.allotAt_inv | with_reducible apply State.evictForRows_inv | with_reducible apply State.storeFill_inv | with_reducible apply State.setStream_inv | with_reducible apply State.setTeam_inv | with_reducible apply State.updTeam_inv | with_reducible apply State.Inv.wf | with_reducible apply State.Inv.foldl | with_reducible apply State.Inv.foldl_fst | (with_reducible refine State.Inv.of_wf ?_; dsimp only) | with_reducible intro _ | split)
theorem State.restoreUnits_inv (s : State) (lid : Nat) (us : List (List (Nat × Saved))) (spots : List (List Spot)) (hs : s.Inv) : (State.restoreUnits s lid us spots).Inv := by
  unfold State.restoreUnits
  repeat' (first | with_reducible assumption | with_reducible apply State.updLaunch_inv | with_reducible apply State.restoreTeam_inv | with_reducible apply State.Inv.foldl | with_reducible intro _)
theorem State.startUnit_inv (s : State) (lid : Nat) (l : Launch) (idxs : List Nat) (spots : List Spot) (bin : Option BinTeam) (hs : s.Inv) : (State.startUnit s lid l idxs spots bin).Inv := by
  unfold State.startUnit
  repeat' (first | with_reducible assumption | with_reducible apply State.startTeam_inv | with_reducible apply State.updLaunch_inv | with_reducible apply State.Inv.wf | with_reducible apply State.Inv.foldl | (with_reducible refine State.Inv.of_wf ?_; dsimp only) | with_reducible intro _ | split)
theorem State.firstPlaced_inv (s : State) (l : Launch) (hs : s.Inv) : (State.firstPlaced s l).Inv := by
  unfold State.firstPlaced
  repeat' (first | with_reducible assumption | with_reducible apply State.statusWrite_inv | split)
theorem State.placeUnits_inv (s : State) (lid : Nat) (l : Launch) (us : List (List (Nat × Saved))) (fs : List (List Nat)) (hs : s.Inv) : OptInv (State.placeUnits s lid l us fs) := by
  unfold State.placeUnits
  repeat' (first | with_reducible assumption | with_reducible exact OptInv.ofNone | with_reducible apply State.firstPlaced_inv | with_reducible apply State.restoreUnits_inv | with_reducible apply State.startUnit_inv | with_reducible apply State.Inv.foldl | with_reducible apply OptInv.mapAny | with_reducible intro _ | split)
theorem State.placeSaved_inv (s : State) (lid : Nat) (l : Launch) (hs : s.Inv) : OptInv (State.placeSaved s lid l) := by
  unfold State.placeSaved
  repeat' (first | with_reducible assumption | with_reducible apply State.placeUnits_inv)
theorem State.placePending_inv (s : State) (lid : Nat) (l : Launch) (hs : s.Inv) : OptInv (State.placePending s lid l) := by
  unfold State.placePending
  repeat' (first | with_reducible assumption | with_reducible exact OptInv.ofNone | with_reducible apply State.firstPlaced_inv | with_reducible apply State.placeUnits_inv | with_reducible apply State.updLaunch_inv | with_reducible apply State.startUnit_inv | with_reducible apply OptInv.mapAny | with_reducible intro _ | split | extract_lets)
theorem State.placeFirst_inv (s : State) (l : List (Nat × Launch)) (hs : s.Inv) : (State.placeFirst s l).Inv := by
  induction l with
  | nil => exact hs
  | cons a l ih =>
    unfold State.placeFirst
    repeat' (first | with_reducible assumption | with_reducible refine OptInv.elim (by assumption) ?_ | with_reducible apply State.placePending_inv | with_reducible apply State.placeSaved_inv | split)
theorem execPlacementDecision_inv (s : State) (hs : s.Inv) : OutInv (execPlacementDecision s) := by
  unfold execPlacementDecision
  repeat' (first | with_reducible assumption | with_reducible apply OutInv.next | with_reducible apply State.reap_inv | with_reducible apply State.placeFirst_inv | split | extract_lets)
theorem execLaunchCompletion_inv (l : Nat) (s : State) (hs : s.Inv) : OutInv (execLaunchCompletion l s) := by
  unfold execLaunchCompletion
  repeat' (first | with_reducible assumption | with_reducible apply OutInv.next | with_reducible apply State.reap_inv | with_reducible apply State.updPrio_inv | with_reducible apply State.statusWrite_inv | with_reducible apply State.columnRelease_inv | with_reducible apply State.headOf_inv | with_reducible apply State.Inv.wf | with_reducible apply State.Inv.foldl | (with_reducible refine State.Inv.of_wf ?_; dsimp only) | with_reducible intro _ | split | extract_lets)

/-! Vacate -/

theorem State.beginVacate_inv (s : State) (asked : List Nat) (why : Nat) (hs : s.Inv) : (State.beginVacate s asked why).Inv := by
  unfold State.beginVacate
  repeat' (first | with_reducible assumption | with_reducible apply State.setCore_inv | with_reducible apply State.Inv.wf | with_reducible apply State.Inv.foldl | (with_reducible refine State.Inv.of_wf ?_; dsimp only) | with_reducible intro _)
theorem State.vacateCommand_inv (s : State) (hs : s.Inv) : (State.vacateCommand s).Inv := by
  unfold State.vacateCommand
  repeat' (first | with_reducible assumption | with_reducible apply State.beginVacate_inv)
theorem State.dropTeamRows_inv (s : State) (id : Nat) (hs : s.Inv) : (State.dropTeamRows s id).Inv := by
  unfold State.dropTeamRows
  repeat' (first | with_reducible assumption | with_reducible apply State.dropStreams_inv | with_reducible apply State.Inv.wf | (with_reducible refine State.Inv.of_wf ?_; dsimp only))
theorem State.discardTeam_inv (s : State) (id : Nat) (t : Team) (hs : s.Inv) : (State.discardTeam s id t).Inv := by
  unfold State.discardTeam
  repeat' (first | with_reducible assumption | with_reducible apply State.updLaunch_inv | with_reducible apply State.leaveGroup_inv | with_reducible apply State.dropTeamRows_inv | with_reducible apply State.dropWatch_inv)
theorem State.copyRecord_inv (s : State) (id : Nat) (c : Cmd) (hs : s.Inv) : (State.copyRecord s id c).Inv := by
  unfold State.copyRecord
  repeat' (first | with_reducible assumption | with_reducible apply State.cmdMaySend_inv | with_reducible apply State.engRead_inv | with_reducible apply State.Inv.wf | (with_reducible refine State.Inv.of_wf ?_; dsimp only) | split | extract_lets | with_reducible refine OptInv.elim (by assumption) ?_)
theorem State.saveErrors_inv (s : State) (id : Nat) (t : Team) (hs : s.Inv) : (State.saveErrors s id t).Inv := by
  unfold State.saveErrors
  repeat' (first | with_reducible assumption | with_reducible apply State.count_inv | with_reducible apply State.Inv.wf | (with_reducible refine State.Inv.of_wf ?_; dsimp only) | split)
theorem State.settleCmds_inv (s : State) (id : Nat) (hs : s.Inv) : (State.settleCmds s id).Inv := by
  unfold State.settleCmds
  repeat' (first | with_reducible assumption | with_reducible apply State.writeRet_inv | with_reducible apply State.updWave_inv | with_reducible apply State.Inv.foldl | with_reducible intro _ | split)
theorem State.saveTeam_inv (s : State) (id : Nat) (hs : s.Inv) : (State.saveTeam s id).Inv := by
  unfold State.saveTeam
  repeat' (first | with_reducible assumption | with_reducible apply State.settleCmds_inv | with_reducible apply State.setCore_inv | with_reducible apply State.saveErrors_inv | with_reducible apply State.copyRecord_inv | with_reducible apply State.columnRelease_inv | with_reducible apply State.updLaunch_inv | with_reducible apply State.dropTeamRows_inv | with_reducible apply State.Inv.wf | with_reducible apply State.Inv.foldl | (with_reducible refine State.Inv.of_wf ?_; dsimp only) | with_reducible intro _ | split)
theorem execTeamSave_inv (t : Nat) (s : State) (hs : s.Inv) : OutInv (execTeamSave t s) := by
  unfold execTeamSave
  repeat' (first | with_reducible assumption | with_reducible apply OutInv.next | with_reducible apply State.discardTeam_inv | with_reducible apply State.reap_inv | with_reducible apply State.saveTeam_inv | with_reducible apply State.Inv.foldl | with_reducible intro _ | split | extract_lets)
theorem execVacateComplete_inv (s : State) (hs : s.Inv) : OutInv (execVacateComplete s) := by
  unfold execVacateComplete
  repeat' (first | with_reducible assumption | with_reducible apply OutInv.next | with_reducible apply State.reap_inv | with_reducible apply State.vector_inv | with_reducible apply State.vacateCommand_inv | with_reducible apply State.beginVacate_inv | with_reducible apply State.Inv.wf | (with_reducible refine State.Inv.of_wf ?_; dsimp only) | split | extract_lets | dsimp +zetaDelta only)
theorem State.expire_inv (s : State) (hs : s.Inv) : (State.expire s).Inv := by
  unfold State.expire
  repeat' (first | with_reducible assumption | with_reducible apply State.beginVacate_inv | with_reducible apply State.Inv.wf | (with_reducible refine State.Inv.of_wf ?_; dsimp only) | split)
theorem execTimeSliceExpiry_inv (s : State) (hs : s.Inv) : OutInv (execTimeSliceExpiry s) := by
  unfold execTimeSliceExpiry
  repeat' (first | with_reducible assumption | with_reducible apply OutInv.next | with_reducible apply State.expire_inv)

/-! Sensors -/

theorem State.judgeCore_inv (s : State) (core : Nat) (whole : Bool) (hs : s.Inv) : (State.judgeCore s core whole).Inv := by
  unfold State.judgeCore
  repeat' (first | with_reducible assumption | with_reducible apply State.setCore_inv)
theorem State.setFred_inv (s : State) (f : Fred → Fred) (hs : s.Inv) : (State.setFred s f).Inv := by
  unfold State.setFred
  repeat' (first | with_reducible assumption | with_reducible apply State.Inv.wf | (with_reducible refine State.Inv.of_wf ?_; dsimp only))
theorem State.wiped_inv (s : State) (hs : s.Inv) : (State.wiped s).Inv :=
  MemSys.wf_mk (Mem.wf_filter _ _ hs.dram) (Mem.wf_filter _ _ hs.dram) rfl rfl rfl rfl
theorem State.removePower_inv (s : State) (hs : s.Inv) : (State.removePower s).Inv := by
  unfold State.removePower
  repeat' (first | with_reducible assumption | with_reducible apply State.setFred_inv | with_reducible apply State.wiped_inv)
theorem execTempSample_inv (core : Nat) (reading : W16) (s : State) (hs : s.Inv) : OutInv (execTempSample core reading s) := by
  unfold execTempSample
  repeat' (first | with_reducible assumption | with_reducible apply OutInv.next | with_reducible apply State.setCore_inv | with_reducible apply State.removePower_inv | with_reducible apply State.judgeCore_inv | split)
theorem execDroopEvent_inv (core : Nat) (s : State) (hs : s.Inv) : OutInv (execDroopEvent core s) := by
  unfold execDroopEvent
  repeat' (first | with_reducible assumption | with_reducible apply OutInv.next | with_reducible apply State.judgeCore_inv | with_reducible apply State.setCore_inv | with_reducible apply State.Inv.wf | (with_reducible refine State.Inv.of_wf ?_; dsimp only) | split)
theorem State.powerHold_inv (s : State) (mean : Nat) (hs : s.Inv) : (State.powerHold s mean).Inv := by
  unfold State.powerHold
  repeat' (first | with_reducible assumption | with_reducible apply State.setCore_inv | with_reducible apply State.Inv.wf | (with_reducible refine State.Inv.of_wf ?_; dsimp only) | split)
theorem execDroopWindowClose_inv (meanPower : Nat) (s : State) (hs : s.Inv) : OutInv (execDroopWindowClose meanPower s) := by
  unfold execDroopWindowClose
  repeat' (first | with_reducible assumption | with_reducible apply OutInv.next | with_reducible apply State.powerHold_inv | with_reducible apply State.judgeCore_inv | with_reducible apply State.setCore_inv | with_reducible apply State.Inv.wf | with_reducible apply State.Inv.foldl | (with_reducible refine State.Inv.of_wf ?_; dsimp only) | with_reducible intro _ | split)
theorem execSupplySet_inv (die mv : Nat) (s : State) (hs : s.Inv) : OutInv (execSupplySet die mv s) := by
  unfold execSupplySet
  repeat' (first | with_reducible assumption | with_reducible apply OutInv.next | with_reducible apply State.setDie_inv | split)
theorem State.setPower_inv (s : State) (st : PowerStore) (p : PowerState) (hs : s.Inv) : (State.setPower s st p).Inv := by
  unfold State.setPower
  repeat' (first | with_reducible assumption | with_reducible apply State.setDie_inv | with_reducible apply State.setCore_inv | with_reducible apply State.Inv.wf | (with_reducible refine State.Inv.of_wf ?_; dsimp only) | split)
theorem State.setDbgHold_inv (s : State) (st : PowerStore) (x : Bool) (hs : s.Inv) : (State.setDbgHold s st x).Inv := by
  unfold State.setDbgHold
  repeat' (first | with_reducible assumption | with_reducible apply State.setDie_inv | with_reducible apply State.setCore_inv | with_reducible apply State.Inv.wf | (with_reducible refine State.Inv.of_wf ?_; dsimp only) | split)
theorem State.lose_inv (s : State) (p : PowerStore) (hs : s.Inv) : (State.lose s p).Inv := by
  unfold State.lose
  split
  · with_reducible apply State.storeClear_inv
    with_reducible apply State.Inv.foldl
    · intro _ _ h; with_reducible exact State.colEvict_inv _ _ _ h
    · exact hs
  · dsimp only
    with_reducible refine State.Inv.of_wf ?_; dsimp only
    with_reducible apply MemSys.wf_mk <;> repeat' (first | with_reducible assumption | with_reducible apply Mem.wf_filter | with_reducible apply State.Inv.home | with_reducible apply State.Inv.dram | with_reducible apply State.Inv.scratch | with_reducible apply State.Inv.rows | with_reducible apply State.Inv.chip | with_reducible apply State.Inv.acc | with_reducible apply State.classifiedAll_inv | with_reducible apply State.setDie_inv)
theorem execColumnPowerState_inv (st : PowerStore) (p : PowerState) (s : State) (hs : s.Inv) : OutInv (execColumnPowerState st p s) := by
  unfold execColumnPowerState
  repeat' (first | with_reducible assumption | with_reducible apply OutInv.next | with_reducible apply State.setPower_inv | with_reducible apply State.lose_inv | split | extract_lets)
theorem execDebugRead_inv (st : PowerStore) (addr n : Nat) (s : State) (hs : s.Inv) : OutInv (execDebugRead st addr n s) := by
  unfold execDebugRead
  repeat' (first | with_reducible assumption | with_reducible apply OutInv.next | with_reducible apply State.setDbgHold_inv | with_reducible apply State.setPower_inv | with_reducible apply State.setFred_inv | with_reducible apply State.Inv.wf | (with_reducible refine State.Inv.of_wf ?_; dsimp only) | split)
theorem execDebugSessionRelease_inv (st : PowerStore) (s : State) (hs : s.Inv) : OutInv (execDebugSessionRelease st s) := by
  unfold execDebugSessionRelease
  repeat' (first | with_reducible assumption | with_reducible apply OutInv.next | with_reducible apply State.setDbgHold_inv | split)
theorem execCounterMirrorRefresh_inv (core : Nat) (s : State) (hs : s.Inv) : OutInv (execCounterMirrorRefresh core s) := by
  unfold execCounterMirrorRefresh
  repeat' (first | with_reducible assumption | with_reducible apply OutInv.next | with_reducible apply State.mirrorCore_inv | split)

theorem State.mirrorAll_inv (s : State) (hs : s.Inv) : (State.mirrorAll s).Inv := by
  unfold State.mirrorAll
  repeat' (first | with_reducible assumption | with_reducible apply State.mirrorCore_inv | with_reducible apply State.Inv.foldl | with_reducible intro _ | split)

/-! Window -/

theorem State.setWin_inv (s : State) (f : Window → Window) (hs : s.Inv) : (State.setWin s f).Inv := by
  unfold State.setWin
  repeat' (first | with_reducible assumption | with_reducible apply State.Inv.wf | (with_reducible refine State.Inv.of_wf ?_; dsimp only))
theorem State.startTlbinv_inv (s : State) (hs : s.Inv) : (State.startTlbinv s).Inv := by
  unfold State.startTlbinv
  repeat' (first | with_reducible assumption | with_reducible apply State.setWin_inv | split)
theorem execTlbinv_inv (s : State) (hs : s.Inv) : OutInv (execTlbinv s) := by
  unfold execTlbinv
  repeat' (first | with_reducible assumption | with_reducible apply OutInv.next | with_reducible apply State.startTlbinv_inv | split)
theorem execTlbinvComplete_inv (s : State) (hs : s.Inv) : OutInv (execTlbinvComplete s) := by
  unfold execTlbinvComplete
  repeat' (first | with_reducible assumption | with_reducible apply OutInv.next | with_reducible apply State.setCluster_inv | with_reducible apply State.setDie_inv | with_reducible apply State.setWin_inv | with_reducible apply State.Inv.wf | with_reducible apply State.Inv.foldl | (with_reducible refine State.Inv.of_wf ?_; dsimp only) | with_reducible intro _ | split)
theorem State.startVacate_inv (s : State) (hs : s.Inv) : (State.startVacate s).Inv := by
  unfold State.startVacate
  repeat' (first | with_reducible assumption | with_reducible apply State.vacateCommand_inv | with_reducible apply State.setWin_inv | with_reducible apply State.Inv.wf | (with_reducible refine State.Inv.of_wf ?_; dsimp only) | split)
theorem execVacate_inv (s : State) (hs : s.Inv) : OutInv (execVacate s) := by
  unfold execVacate
  repeat' (first | with_reducible assumption | with_reducible apply OutInv.next | with_reducible apply State.startVacate_inv | split)
theorem State.clearBag_inv (s : State) (hs : s.Inv) : (State.clearBag s).Inv := by
  unfold State.clearBag
  repeat' (first | with_reducible assumption | with_reducible apply State.setSlice_inv | with_reducible apply State.setWin_inv | with_reducible apply State.makeRoomAt_inv | with_reducible apply State.Inv.wf | with_reducible apply State.Inv.foldl | (with_reducible refine State.Inv.of_wf ?_; dsimp only) | with_reducible intro _ | split)
theorem execTsclear_inv (s : State) (hs : s.Inv) : OutInv (execTsclear s) := by
  unfold execTsclear
  repeat' (first | with_reducible assumption | with_reducible apply OutInv.next | with_reducible apply State.clearBag_inv | split)
theorem State.agentStatus_inv (s : State) (n : Nat) (hs : s.Inv) : (State.agentStatus s n).Inv := by
  unfold State.agentStatus
  repeat' (first | with_reducible assumption | with_reducible apply State.setWin_inv)
theorem State.agentCommand_inv {s : State} {core slot : Nat} {sc : CmdScope} {here : State → Agent → Option State}
    {away : State → Nat → Agent → Option State} (hs : s.Inv) (h1 : ∀ s a, State.Inv s → OptInv (here s a))
    (h2 : ∀ s i a, State.Inv s → OptInv (away s i a)) : (State.agentCommand s core slot sc here away).Inv := by
  unfold State.agentCommand
  repeat' (first | with_reducible assumption | with_reducible apply State.agentStatus_inv | with_reducible apply State.Inv.foldl_fst | with_reducible apply h1 | with_reducible apply h2 | with_reducible intro _ | split | with_reducible refine OptInv.elim (by assumption) ?_)
theorem State.wresumeAgent_inv (s : State) (a : Agent) (hs : s.Inv) : OptInv (State.wresumeAgent s a) := by
  unfold State.wresumeAgent
  repeat' (first | with_reducible assumption | with_reducible exact OptInv.ofNone | with_reducible apply OptInv.ofSome | with_reducible apply State.msResume_inv | with_reducible apply State.setWave_inv | split)
theorem execWresume_inv (core slot : Nat) (sc : CmdScope) (s : State) (hs : s.Inv) : OutInv (execWresume core slot sc s) := by
  unfold execWresume
  repeat' (first | with_reducible assumption | with_reducible exact OptInv.ofNone | with_reducible apply OutInv.next | with_reducible apply State.agentCommand_inv | with_reducible apply State.wresumeAgent_inv | with_reducible intro _)
theorem State.wendAgent_inv (s : State) (a : Agent) (hs : s.Inv) : OptInv (State.wendAgent s a) := by
  unfold State.wendAgent
  repeat' (first | with_reducible assumption | with_reducible exact OptInv.ofNone | with_reducible apply OptInv.ofSome | with_reducible apply State.endStream_inv | with_reducible apply State.endWave_inv | split)
theorem execWend_inv (core slot : Nat) (sc : CmdScope) (s : State) (hs : s.Inv) : OutInv (execWend core slot sc s) := by
  unfold execWend
  repeat' (first | with_reducible assumption | with_reducible exact OptInv.ofNone | with_reducible apply OutInv.next | with_reducible apply State.agentCommand_inv | with_reducible apply State.wendAgent_inv | with_reducible intro _)
theorem State.dbghaltAgent_inv (s : State) (a : Agent) (hs : s.Inv) : OptInv (State.dbghaltAgent s a) := by
  unfold State.dbghaltAgent
  repeat' (first | with_reducible assumption | with_reducible exact OptInv.ofNone | with_reducible apply OptInv.ofSome | with_reducible apply State.setStream_inv | with_reducible apply State.cancelWait_inv | with_reducible apply State.updWave_inv | split)
theorem State.dbghaltSaved_inv (s : State) (t : Nat) (a : Agent) (hs : s.Inv) : OptInv (State.dbghaltSaved s t a) := by
  unfold State.dbghaltSaved
  repeat' (first | with_reducible assumption | with_reducible exact OptInv.ofNone | with_reducible apply OptInv.ofSome | with_reducible apply State.Inv.wf | (with_reducible refine State.Inv.of_wf ?_; dsimp only) | split | extract_lets)
theorem execDbghalt_inv (core slot : Nat) (sc : CmdScope) (s : State) (hs : s.Inv) : OutInv (execDbghalt core slot sc s) := by
  unfold execDbghalt
  repeat' (first | with_reducible assumption | with_reducible apply OutInv.next | with_reducible apply State.agentCommand_inv | with_reducible apply State.dbghaltAgent_inv | with_reducible apply State.dbghaltSaved_inv)
theorem State.wakeColumn_inv (s : State) (core : Nat) (hs : s.Inv) : (State.wakeColumn s core).Inv := by
  unfold State.wakeColumn
  repeat' (first | with_reducible assumption | with_reducible apply State.setCore_inv | with_reducible apply State.Inv.wf | (with_reducible refine State.Inv.of_wf ?_; dsimp only) | split)
theorem State.dresumeAgent_inv (s : State) (a : Agent) (hs : s.Inv) : OptInv (State.dresumeAgent s a) := by
  unfold State.dresumeAgent
  repeat' (first | with_reducible assumption | with_reducible exact OptInv.ofNone | with_reducible apply OptInv.ofSome | with_reducible apply State.deliver_inv | with_reducible apply State.setWave_inv | with_reducible apply State.wakeColumn_inv | with_reducible apply State.setStream_inv | with_reducible apply State.Inv.wf | (with_reducible refine State.Inv.of_wf ?_; dsimp only) | split)
theorem execDresume_inv (core slot : Nat) (sc : CmdScope) (s : State) (hs : s.Inv) : OutInv (execDresume core slot sc s) := by
  unfold execDresume
  repeat' (first | with_reducible assumption | with_reducible exact OptInv.ofNone | with_reducible apply OutInv.next | with_reducible apply State.dresumeAgent_inv | with_reducible apply State.agentCommand_inv | with_reducible intro _)
theorem State.agentWord_inv (s : State) (v : W64) (hs : s.Inv) : (State.agentWord s v).Inv := by
  unfold State.agentWord
  repeat' (first | with_reducible assumption | with_reducible exact OptInv.ofNone | with_reducible apply State.dresumeAgent_inv | with_reducible apply State.agentCommand_inv | with_reducible apply State.wendAgent_inv | with_reducible apply State.wresumeAgent_inv | with_reducible apply State.dbghaltAgent_inv | with_reducible apply State.dbghaltSaved_inv | with_reducible apply State.agentStatus_inv | with_reducible apply State.setWin_inv | with_reducible apply State.Inv.wf | (with_reducible refine State.Inv.of_wf ?_; dsimp only) | with_reducible intro _ | split)
theorem State.writeCtxid_inv (s : State) (v : W64) (hs : s.Inv) : (State.writeCtxid s v).Inv := by
  unfold State.writeCtxid
  repeat' (first | with_reducible assumption | with_reducible apply State.setCore_inv | with_reducible apply State.setWin_inv | with_reducible apply State.Inv.wf | with_reducible apply State.Inv.foldl | (with_reducible refine State.Inv.of_wf ?_; dsimp only) | with_reducible intro _ | split)
theorem execCtxid_inv (v : W64) (s : State) (hs : s.Inv) : OutInv (execCtxid v s) := by
  unfold execCtxid
  repeat' (first | with_reducible assumption | with_reducible apply OutInv.next | with_reducible apply State.writeCtxid_inv | split)
theorem State.writeTslice_inv (s : State) (v : W64) (hs : s.Inv) : (State.writeTslice s v).Inv := by
  unfold State.writeTslice
  repeat' (first | with_reducible assumption | with_reducible apply State.expire_inv | with_reducible apply State.setWin_inv)
theorem execTslice_inv (v : W64) (s : State) (hs : s.Inv) : OutInv (execTslice v s) := by
  unfold execTslice
  repeat' (first | with_reducible assumption | with_reducible apply OutInv.next | with_reducible apply State.writeTslice_inv | split)
theorem State.writeTrapq_inv (s : State) (reg : Nat) (v : W64) (hs : s.Inv) : (State.writeTrapq s reg v).Inv := by
  unfold State.writeTrapq
  repeat' (first | with_reducible assumption | with_reducible apply State.drainReports_inv | with_reducible apply State.setWin_inv)
theorem execTrapq_inv (reg : Nat) (v : W64) (s : State) (hs : s.Inv) : OutInv (execTrapq reg v s) := by
  unfold execTrapq
  repeat' (first | with_reducible assumption | with_reducible apply OutInv.next | with_reducible apply State.writeTrapq_inv | split)
theorem State.writeEnable_inv (s : State) (q : Nat) (v : W64) (hs : s.Inv) : (State.writeEnable s q v).Inv := by
  unfold State.writeEnable
  repeat' (first | with_reducible assumption | with_reducible apply State.setLq_inv | with_reducible apply State.Inv.wf | (with_reducible refine State.Inv.of_wf ?_; dsimp only) | split)
theorem execLaunchQueueEnable_inv (q : Nat) (v : W64) (s : State) (hs : s.Inv) : OutInv (execLaunchQueueEnable q v s) := by
  unfold execLaunchQueueEnable
  repeat' (first | with_reducible assumption | with_reducible apply OutInv.next | with_reducible apply State.writeEnable_inv | split)
theorem State.writeQueue_inv (s : State) (q word : Nat) (v : W64) (hs : s.Inv) : (State.writeQueue s q word v).Inv := by
  unfold State.writeQueue
  repeat' (first | with_reducible assumption | with_reducible apply State.setLq_inv | with_reducible apply State.writeEnable_inv | with_reducible apply State.Inv.wf | (with_reducible refine State.Inv.of_wf ?_; dsimp only) | split)
theorem State.spoilPublish_inv (s : State) (b : Nat) (hs : s.Inv) : (State.spoilPublish s b).Inv := by
  unfold State.spoilPublish
  repeat' (first | with_reducible assumption | with_reducible apply State.Inv.wf | (with_reducible refine State.Inv.of_wf ?_; dsimp only))
theorem State.writeBuffer_inv (s : State) (b word : Nat) (v : W64) (hs : s.Inv) : (State.writeBuffer s b word v).Inv := by
  unfold State.writeBuffer
  repeat' (first | with_reducible assumption | with_reducible apply State.spoilPublish_inv | with_reducible apply State.Inv.wf | (with_reducible refine State.Inv.of_wf ?_; dsimp only) | split)
theorem execBufferEntryWrite_inv (b word : Nat) (v : W64) (s : State) (hs : s.Inv) : OutInv (execBufferEntryWrite b word v s) := by
  unfold execBufferEntryWrite
  repeat' (first | with_reducible assumption | with_reducible apply OutInv.next | with_reducible apply State.writeBuffer_inv | split)
theorem State.writeMaterial_inv (s : State) (m word : Nat) (v : W64) (hs : s.Inv) : (State.writeMaterial s m word v).Inv := by
  unfold State.writeMaterial
  repeat' (first | with_reducible assumption | with_reducible apply State.standLaunch_inv | with_reducible apply State.endStanding_inv | with_reducible apply State.Inv.wf | (with_reducible refine State.Inv.of_wf ?_; dsimp only) | split)
theorem execMaterialEntryWrite_inv (m word : Nat) (v : W64) (s : State) (hs : s.Inv) : OutInv (execMaterialEntryWrite m word v s) := by
  unfold execMaterialEntryWrite
  repeat' (first | with_reducible assumption | with_reducible apply OutInv.next | with_reducible apply State.writeMaterial_inv | split)
theorem State.writeTvbase_inv (s : State) (hi : Bool) (v : W64) (hs : s.Inv) : (State.writeTvbase s hi v).Inv := by
  unfold State.writeTvbase
  repeat' (first | with_reducible assumption | with_reducible apply State.setWin_inv)
theorem State.writeInv_inv (s : State) (word : Nat) (v : W64) (hs : s.Inv) : (State.writeInv s word v).Inv := by
  unfold State.writeInv
  repeat' (first | with_reducible assumption | with_reducible apply State.startTlbinv_inv | with_reducible apply State.setWin_inv | split)
theorem State.writeVac_inv (s : State) (word : Nat) (v : W64) (hs : s.Inv) : (State.writeVac s word v).Inv := by
  unfold State.writeVac
  repeat' (first | with_reducible assumption | with_reducible apply State.startVacate_inv | with_reducible apply State.setWin_inv | split)
theorem State.judgeAll_inv (s : State) (hs : s.Inv) : (State.judgeAll s).Inv := by
  unfold State.judgeAll
  repeat' (first | with_reducible assumption | with_reducible apply State.judgeCore_inv | with_reducible apply State.Inv.foldl | with_reducible intro _)
theorem State.zeroCounter_inv (s : State) (key : Nat) (hs : s.Inv) : (State.zeroCounter s key).Inv := by
  unfold State.zeroCounter
  repeat' (first | with_reducible assumption | with_reducible apply State.setCore_inv | with_reducible apply State.Inv.wf | (with_reducible refine State.Inv.of_wf ?_; dsimp only) | split)
theorem State.mailWrite_inv (s : State) (word : Nat) (v : W64) (hs : s.Inv) : (State.mailWrite s word v).Inv := by
  unfold State.mailWrite
  repeat' (first | with_reducible assumption | with_reducible apply State.setCore_inv | with_reducible apply State.setWin_inv | with_reducible apply State.zeroCounter_inv | with_reducible apply State.Inv.wf | (with_reducible refine State.Inv.of_wf ?_; dsimp only) | split)
theorem State.debugWrite_inv (s : State) (a : Agent) (reg : Nat) (v : W64) (hs : s.Inv) : (State.debugWrite s a reg v).Inv := by
  unfold State.debugWrite
  repeat' (first | with_reducible assumption | with_reducible apply State.setWave_inv | with_reducible apply State.setStream_inv | split)
theorem State.windowWrite_inv (s : State) (off : Nat) (v : W64) (hs : s.Inv) : (State.windowWrite s off v).Inv := by
  unfold State.windowWrite
  repeat' (first | with_reducible assumption | with_reducible apply State.Inv.ite | with_reducible apply State.judgeAll_inv | with_reducible apply State.mailWrite_inv | with_reducible apply State.debugWrite_inv | with_reducible apply State.setWin_inv | with_reducible apply State.writeTslice_inv | with_reducible apply State.writeTvbase_inv | with_reducible apply State.writeTrapq_inv | with_reducible apply State.writeCtxid_inv | with_reducible apply State.writeInv_inv | with_reducible apply State.writeVac_inv | with_reducible apply State.agentWord_inv | with_reducible apply State.setDie_inv | with_reducible apply State.writeQueue_inv | with_reducible apply State.writeBuffer_inv | with_reducible apply State.writeMaterial_inv | with_reducible apply State.clearBag_inv | split)
theorem execRegisterWrite_inv (off : Nat) (v : W64) (s : State) (hs : s.Inv) : OutInv (execRegisterWrite off v s) := by
  unfold execRegisterWrite
  repeat' (first | with_reducible assumption | with_reducible apply OutInv.next | with_reducible apply State.windowWrite_inv | split)
theorem execDebugRegisterWrite_inv (a : Agent) (reg : Nat) (v : W64) (s : State) (hs : s.Inv) : OutInv (execDebugRegisterWrite a reg v s) := by
  unfold execDebugRegisterWrite
  repeat' (first | with_reducible assumption | with_reducible apply OutInv.next | with_reducible apply State.debugWrite_inv | split)

/-! Boot -/

theorem State.reply_inv (s : State) (ws : List W64) (hs : s.Inv) : (State.reply s ws).Inv := by
  unfold State.reply
  repeat' (first | with_reducible assumption | with_reducible apply State.setFred_inv | with_reducible apply State.vector_inv)
theorem State.stopAll_inv (s : State) (hs : s.Inv) : (State.stopAll s).Inv := by
  unfold State.stopAll
  repeat' (first | with_reducible assumption | with_reducible apply State.Inv.wf | (with_reducible refine State.Inv.of_wf ?_; dsimp only))
theorem State.failStart_inv (s : State) (cause : Nat) (hs : s.Inv) : (State.failStart s cause).Inv := by
  unfold State.failStart
  repeat' (first | with_reducible assumption | with_reducible apply State.setFred_inv | with_reducible apply State.stopAll_inv)
theorem execPowerOnReset_inv (s : State) (hs : s.Inv) : OutInv (execPowerOnReset s) := by
  unfold execPowerOnReset
  repeat' (first | with_reducible assumption | with_reducible apply OutInv.next | with_reducible apply State.setFred_inv | with_reducible apply State.wiped_inv)
theorem State.clearChips_inv (s : State) (hs : s.Inv) : (State.clearChips s).Inv := by
  unfold State.clearChips
  repeat' (first | with_reducible assumption | with_reducible exact Memory.wf_nil | with_reducible apply MemSys.wf_mk | with_reducible apply State.Inv.home | with_reducible apply State.Inv.dram | with_reducible apply State.Inv.scratch | with_reducible apply State.Inv.rows | with_reducible apply State.Inv.acc | (with_reducible refine State.Inv.of_wf ?_; dsimp only))
theorem execBootStage_inv (failed : Option Byte) (s : State) (hs : s.Inv) : OutInv (execBootStage failed s) := by
  unfold execBootStage
  repeat' (first | with_reducible assumption | with_reducible apply OutInv.next | with_reducible apply State.clearChips_inv | with_reducible apply State.removePower_inv | with_reducible apply State.failStart_inv | with_reducible apply State.setFred_inv | split | extract_lets | dsimp +zetaDelta only)
theorem execBootok_inv (v : W64) (s : State) (hs : s.Inv) : OutInv (execBootok v s) := by
  unfold execBootok
  repeat' (first | with_reducible assumption | with_reducible apply OutInv.next | with_reducible apply State.setFred_inv | split)
theorem execBootokTimeout_inv (s : State) (hs : s.Inv) : OutInv (execBootokTimeout s) := by
  unfold execBootokTimeout
  repeat' (first | with_reducible assumption | with_reducible apply OutInv.next | with_reducible apply State.failStart_inv | split)
theorem execFullretry_inv (s : State) (hs : s.Inv) : OutInv (execFullretry s) := by
  unfold execFullretry
  repeat' (first | with_reducible assumption | with_reducible apply OutInv.next | with_reducible apply State.setFred_inv | with_reducible apply State.reply_inv | split)
theorem execFirmwareUpdate_inv (image sig : List Byte) (s : State) (hs : s.Inv) : OutInv (execFirmwareUpdate image sig s) := by
  unfold execFirmwareUpdate
  repeat' (first | with_reducible assumption | with_reducible apply OutInv.next | with_reducible apply State.setFred_inv | split)
theorem execBootstat_inv (s : State) (hs : s.Inv) : OutInv (execBootstat s) := by
  unfold execBootstat
  repeat' (first | with_reducible assumption | with_reducible apply OutInv.next | with_reducible apply State.reply_inv | split)
theorem execAttest_inv (nonce : BitVec 256) (s : State) (hs : s.Inv) : OutInv (execAttest nonce s) := by
  unfold execAttest
  repeat' (first | with_reducible assumption | with_reducible apply OutInv.next | with_reducible apply State.setFred_inv | with_reducible apply State.reply_inv | split)
theorem execCkpt_inv (target : Nat) (s : State) (hs : s.Inv) : OutInv (execCkpt target s) := by
  unfold execCkpt
  repeat' (first | with_reducible assumption | with_reducible apply OutInv.next | with_reducible apply State.beginVacate_inv | with_reducible apply State.setFred_inv | with_reducible apply State.reply_inv | split)
theorem State.writeBackAll_inv (s : State) (hs : s.Inv) : (State.writeBackAll s).Inv := by
  unfold State.writeBackAll
  repeat' (first | with_reducible assumption | with_reducible apply State.colSweep_inv | with_reducible apply State.Inv.foldl | with_reducible apply MemSys.wf_mk | with_reducible apply Mem.wf_overlay | with_reducible apply Mem.wf_clear | with_reducible apply Mem.wf_foldl | with_reducible apply State.Inv.home | with_reducible apply State.Inv.dram | with_reducible apply State.Inv.scratch | with_reducible apply State.Inv.rows | with_reducible apply State.Inv.chip | with_reducible apply State.Inv.acc | (with_reducible refine State.Inv.of_wf ?_; dsimp only) | with_reducible intro _)
theorem State.forget_inv (s : State) (a n : Nat) (hs : s.Inv) : (State.forget s a n).Inv := by
  unfold State.forget
  repeat' (first | with_reducible assumption | with_reducible apply State.dropCopy_inv | with_reducible apply State.Inv.foldl | with_reducible apply MemSys.wf_mk | with_reducible apply State.Inv.home | with_reducible apply State.Inv.dram | with_reducible apply State.Inv.scratch | with_reducible apply State.Inv.rows | with_reducible apply State.Inv.chip | with_reducible apply State.Inv.acc | (with_reducible refine State.Inv.of_wf ?_; dsimp only) | with_reducible intro _)
theorem State.recallAll_inv (s : State) (hs : s.Inv) : (State.recallAll s).Inv := by
  unfold State.recallAll
  repeat' (first | with_reducible assumption | with_reducible apply State.recall_inv | with_reducible apply State.Inv.foldl)
theorem State.copyRange_inv (s : State) (src : Mem) (a n b : Nat) (hs : s.Inv) : (State.copyRange s src a n b).Inv := by
  unfold State.copyRange
  repeat' (first | with_reducible assumption | with_reducible apply State.forget_inv | with_reducible apply MemSys.wf_mk | with_reducible apply Mem.wf_overlay | with_reducible apply Mem.wf_clear | with_reducible apply State.Inv.home | with_reducible apply State.Inv.dram | with_reducible apply State.Inv.scratch | with_reducible apply State.Inv.rows | with_reducible apply State.Inv.chip | with_reducible apply State.Inv.acc | (with_reducible refine State.Inv.of_wf ?_; dsimp only))
theorem execCkptComplete_inv (s : State) (hs : s.Inv) : OutInv (execCkptComplete s) := by
  unfold execCkptComplete
  repeat' (first | with_reducible assumption | with_reducible apply OutInv.next | with_reducible apply State.copyRange_inv | with_reducible apply State.recallAll_inv | with_reducible apply State.writeBackAll_inv | with_reducible apply State.setFred_inv | with_reducible apply State.homeWriteBytes_inv | with_reducible apply State.reply_inv | with_reducible apply State.Inv.foldl | with_reducible intro _ | split)
theorem execRestore_inv (source : Nat) (s : State) (hs : s.Inv) : OutInv (execRestore source s) := by
  unfold execRestore
  repeat' (first | with_reducible assumption | with_reducible apply OutInv.next | with_reducible apply State.copyRange_inv | with_reducible apply State.recallAll_inv | with_reducible apply State.reply_inv | split)
theorem execOvertemp_inv (die : Nat) (s : State) (hs : s.Inv) : OutInv (execOvertemp die s) := by
  unfold execOvertemp
  repeat' (first | with_reducible assumption | with_reducible apply OutInv.next | with_reducible apply State.removePower_inv | split)
theorem execLostCxlLink_inv (s : State) (hs : s.Inv) : OutInv (execLostCxlLink s) := by
  unfold execLostCxlLink
  repeat' (first | with_reducible assumption | with_reducible apply OutInv.next | with_reducible apply State.setFred_inv)
theorem execLinkFailure_inv (die : Nat) (loop : Bool) (s : State) (hs : s.Inv) : OutInv (execLinkFailure die loop s) := by
  unfold execLinkFailure
  repeat' (first | with_reducible assumption | with_reducible apply OutInv.next | with_reducible apply State.setDie_inv | with_reducible apply State.errorReport_inv | split)

/-! Upsets -/

theorem State.upsetL2_inv (s : State) (line : Nat) (hs : s.Inv) : (State.upsetL2 s line).Inv := by
  unfold State.upsetL2
  repeat' (first | with_reducible assumption | with_reducible apply State.countErr_inv | with_reducible apply State.setPoison_inv | split)
theorem State.upsetCopy_inv (s : State) (c line : Nat) (hs : s.Inv) : (State.upsetCopy s c line).Inv := by
  unfold State.upsetCopy
  repeat' (first | with_reducible assumption | with_reducible apply State.countErr_inv | with_reducible apply State.setPoison_inv | with_reducible apply State.dropCopy_inv | split)
theorem State.upsetWord_inv (s : State) (st : Store) (word : Nat) (hs : s.Inv) : (State.upsetWord s st word).Inv := by
  unfold State.upsetWord
  repeat' (first | with_reducible assumption | with_reducible apply State.upsetChip_inv | with_reducible apply State.upsetStore_inv | split)
theorem State.upsetTile_inv (s : State) (slot word : Nat) (hs : s.Inv) : (State.upsetTile s slot word).Inv := by
  unfold State.upsetTile
  repeat' (first | with_reducible assumption | with_reducible apply State.setTile_inv | with_reducible apply State.Inv.wf | with_reducible apply State.Inv.foldl | (with_reducible refine State.Inv.of_wf ?_; dsimp only) | with_reducible intro _ | split)
theorem State.upsetRowBuf_inv (s : State) (core word : Nat) (hs : s.Inv) : (State.upsetRowBuf s core word).Inv := by
  unfold State.upsetRowBuf
  repeat' (first | with_reducible assumption | with_reducible apply State.updStream_inv)
theorem State.upsetHeld_inv (s : State) (core chain n : Nat) (hs : s.Inv) : (State.upsetHeld s core chain n).Inv := by
  unfold State.upsetHeld
  repeat' (first | with_reducible assumption | with_reducible apply State.setChain_inv | with_reducible apply State.lostRow_inv | with_reducible apply State.Inv.wf | (with_reducible refine State.Inv.of_wf ?_; dsimp only) | split)
theorem State.upsetTuple_inv (s : State) (h stamp field : Nat) (hs : s.Inv) : (State.upsetTuple s h stamp field).Inv := by
  unfold State.upsetTuple
  repeat' (first | with_reducible assumption | with_reducible apply State.setSlice_inv)
theorem State.upset_inv (s : State) (u : Upset) (hs : s.Inv) : (State.upset s u).Inv := by
  unfold State.upset
  repeat' (first | with_reducible assumption | with_reducible apply State.upsetTuple_inv | with_reducible apply State.upsetCol_inv | with_reducible apply State.upsetCopy_inv | with_reducible apply State.upsetL2_inv | with_reducible apply State.updWave_inv | with_reducible apply State.upsetHeld_inv | with_reducible apply State.upsetWord_inv | with_reducible apply State.countErr_inv | with_reducible apply State.setDie_inv | with_reducible apply State.setPoison_inv | with_reducible apply State.setCluster_inv | with_reducible apply State.upsetRowBuf_inv | with_reducible apply State.upsetTile_inv | with_reducible apply State.setCore_inv | with_reducible apply State.Inv.wf | (with_reducible refine State.Inv.of_wf ?_; dsimp only) | split)
theorem State.seeBad_inv (s : State) (c k : Nat) (w : Wave) (word : W64) (hs : s.Inv) : (State.seeBad s c k w word).Inv := by
  unfold State.seeBad
  repeat' (first | with_reducible assumption | with_reducible apply State.sawBad_inv | with_reducible apply State.Inv.wf | (with_reducible refine State.Inv.of_wf ?_; dsimp only) | split)

/-! Fabric -/

theorem execGddr7Fill_inv (line : Nat) (s : State) (hs : s.Inv) : OutInv (execGddr7Fill line s) := by
  unfold execGddr7Fill
  repeat' (first | with_reducible assumption | with_reducible apply OutInv.next | with_reducible apply State.fillPrefetch_inv | with_reducible apply State.fill_inv | with_reducible apply State.Inv.foldl | with_reducible intro _ | split)
theorem execColumnEviction_inv (core line : Nat) (s : State) (hs : s.Inv) : OutInv (execColumnEviction core line s) := by
  unfold execColumnEviction
  repeat' (first | with_reducible assumption | with_reducible apply OutInv.next | with_reducible apply State.colCleanWord_inv | with_reducible apply State.colEvict_inv | split)
theorem execClusterCacheEviction_inv (cluster line : Nat) (s : State) (hs : s.Inv) : OutInv (execClusterCacheEviction cluster line s) := by
  unfold execClusterCacheEviction
  repeat' (first | with_reducible assumption | with_reducible apply OutInv.next | with_reducible apply State.dropCopy_inv | split)
theorem execL2Eviction_inv (line : Nat) (s : State) (hs : s.Inv) : OutInv (execL2Eviction line s) := by
  unfold execL2Eviction
  repeat' (first | with_reducible assumption | with_reducible apply OutInv.next | with_reducible apply State.l2Evict_inv | with_reducible apply MemSys.wf_mk | with_reducible apply State.Inv.home | with_reducible apply State.Inv.dram | with_reducible apply State.Inv.scratch | with_reducible apply State.Inv.rows | with_reducible apply State.Inv.chip | with_reducible apply State.Inv.acc | (with_reducible refine State.Inv.of_wf ?_; dsimp only) | split | extract_lets)
theorem execPeerProbe_inv (cluster line : Nat) (s : State) (hs : s.Inv) : OutInv (execPeerProbe cluster line s) := by
  unfold execPeerProbe
  repeat' (first | with_reducible assumption | with_reducible apply OutInv.next | with_reducible apply State.probePeer_inv | split | extract_lets)
theorem execRedirectedRead_inv (cluster line : Nat) (s : State) (hs : s.Inv) : OutInv (execRedirectedRead cluster line s) := by
  unfold execRedirectedRead
  repeat' (first | with_reducible assumption | with_reducible apply OutInv.next | with_reducible apply State.redirectedRead_inv | split)
theorem execPageWalk_inv (cluster : Nat) (va : W64) (s : State) (hs : s.Inv) : OutInv (execPageWalk cluster va s) := by
  unfold execPageWalk
  repeat' (first | with_reducible assumption | with_reducible apply OutInv.next | with_reducible apply State.queueFor_inv | with_reducible apply State.count_inv | with_reducible apply State.setDie_inv | with_reducible apply State.leaveWalk_inv | with_reducible apply State.touchTlb_inv | with_reducible apply State.setCluster_inv | split | extract_lets)
theorem execHostWrite_inv (pa : Nat) (data : List Byte) (s : State) (hs : s.Inv) : OutInv (execHostWrite pa data s) := by
  unfold execHostWrite
  repeat' (first | with_reducible assumption | with_reducible apply OutInv.next | with_reducible apply State.homeWriteBytes_inv | with_reducible apply State.Inv.wf | (with_reducible refine State.Inv.of_wf ?_; dsimp only) | split)
theorem execHostRead_inv (pa n : Nat) (s : State) (hs : s.Inv) : OutInv (execHostRead pa n s) := by
  unfold execHostRead
  repeat' (first | with_reducible assumption | with_reducible apply OutInv.next | with_reducible apply State.homeReadBytes_inv | with_reducible apply State.countErr_inv | split)
theorem execHostInvalidate_inv (line : Nat) (data : List Byte) (s : State) (hs : s.Inv) : OutInv (execHostInvalidate line data s) := by
  unfold execHostInvalidate
  repeat' (first | with_reducible assumption | with_reducible apply OutInv.next | with_reducible apply State.recall_inv | with_reducible apply State.dropOthers_inv | with_reducible apply MemSys.wf_mk | with_reducible apply Mem.wf_overlay | with_reducible apply Mem.wf_clear | with_reducible apply State.Inv.home | with_reducible apply State.Inv.dram | with_reducible apply State.Inv.scratch | with_reducible apply State.Inv.rows | with_reducible apply State.Inv.chip | with_reducible apply State.Inv.acc | (with_reducible refine State.Inv.of_wf ?_; dsimp only) | split)


end Sys2Proof.Machine
end

