-- ==== Sys2Proof/Laws/InvStep.lean ====
section
/-! SUPPORT. The invariant is kept by each operation: every instruction, and the turns of a step. -/

set_option Elab.async false

namespace Sys2Proof.Machine

/-! Dispatch -/

theorem exec_inv (i : Instr) (s : State) (hs : s.Inv) : OutInv (exec i s) :=
  match i with
  | .sadd f => execSadd_inv f s hs
  | .ssub f => execSsub_inv f s hs
  | .smul f => execSmul_inv f s hs
  | .smulhi f => execSmulhi_inv f s hs
  | .sdiv f => execSdiv_inv f s hs
  | .sand f => execSand_inv f s hs
  | .sor f => execSor_inv f s hs
  | .sxor f => execSxor_inv f s hs
  | .sshl f => execSshl_inv f s hs
  | .sshr f => execSshr_inv f s hs
  | .srot f => execSrot_inv f s hs
  | .scmp f => execScmp_inv f s hs
  | .ssel f => execSsel_inv f s hs
  | .smov f => execSmov_inv f s hs
  | .smin f => execSmin_inv f s hs
  | .smax f => execSmax_inv f s hs
  | .sbfx f => execSbfx_inv f s hs
  | .sbfi f => execSbfi_inv f s hs
  | .sbitc f => execSbitc_inv f s hs
  | .sadd64 f => execSadd64_inv f s hs
  | .ssub64 f => execSsub64_inv f s hs
  | .smad64 f => execSmad64_inv f s hs
  | .sli f => execSli_inv f s hs
  | .vadd f => execVadd_inv f s hs
  | .vaddImm f => execVaddImm_inv f s hs
  | .vsub f => execVsub_inv f s hs
  | .vsubImm f => execVsubImm_inv f s hs
  | .vmul f => execVmul_inv f s hs
  | .vmulImm f => execVmulImm_inv f s hs
  | .vmulhi f => execVmulhi_inv f s hs
  | .vmulhiImm f => execVmulhiImm_inv f s hs
  | .vmad f => execVmad_inv f s hs
  | .vand f => execVand_inv f s hs
  | .vandImm f => execVandImm_inv f s hs
  | .vor f => execVor_inv f s hs
  | .vorImm f => execVorImm_inv f s hs
  | .vxor f => execVxor_inv f s hs
  | .vxorImm f => execVxorImm_inv f s hs
  | .vshl f => execVshl_inv f s hs
  | .vshlImm f => execVshlImm_inv f s hs
  | .vshr f => execVshr_inv f s hs
  | .vshrImm f => execVshrImm_inv f s hs
  | .vrot f => execVrot_inv f s hs
  | .vrotImm f => execVrotImm_inv f s hs
  | .vmin f => execVmin_inv f s hs
  | .vminImm f => execVminImm_inv f s hs
  | .vmax f => execVmax_inv f s hs
  | .vmaxImm f => execVmaxImm_inv f s hs
  | .vcmp f => execVcmp_inv f s hs
  | .vcmpImm f => execVcmpImm_inv f s hs
  | .vsel f => execVsel_inv f s hs
  | .vmov f => execVmov_inv f s hs
  | .vbfx f => execVbfx_inv f s hs
  | .vbfi f => execVbfi_inv f s hs
  | .vbitc f => execVbitc_inv f s hs
  | .vsad f => execVsad_inv f s hs
  | .vadd64 f => execVadd64_inv f s hs
  | .vadd64Imm f => execVadd64Imm_inv f s hs
  | .vmad64 f => execVmad64_inv f s hs
  | .vdot4 f => execVdot4_inv f s hs
  | .vperm f => execVperm_inv f s hs
  | .fadd f => execFadd_inv f s hs
  | .faddImm f => execFaddImm_inv f s hs
  | .fsub f => execFsub_inv f s hs
  | .fsubImm f => execFsubImm_inv f s hs
  | .fmul f => execFmul_inv f s hs
  | .fmulImm f => execFmulImm_inv f s hs
  | .ffma f => execFfma_inv f s hs
  | .fmin f => execFmin_inv f s hs
  | .fminImm f => execFminImm_inv f s hs
  | .fmax f => execFmax_inv f s hs
  | .fmaxImm f => execFmaxImm_inv f s hs
  | .fcmp f => execFcmp_inv f s hs
  | .fcmpImm f => execFcmpImm_inv f s hs
  | .frnd f => execFrnd_inv f s hs
  | .ffract f => execFfract_inv f s hs
  | .fclass f => execFclass_inv f s hs
  | .fldexp f => execFldexp_inv f s hs
  | .fldexpImm f => execFldexpImm_inv f s hs
  | .ffrexp f => execFfrexp_inv f s hs
  | .hadd2 f => execHadd2_inv f s hs
  | .hmul2 f => execHmul2_inv f s hs
  | .hfma2 f => execHfma2_inv f s hs
  | .hdot2 f => execHdot2_inv f s hs
  | .cvtfi f => execCvtfi_inv f s hs
  | .cvtif f => execCvtif_inv f s hs
  | .cvtff f => execCvtff_inv f s hs
  | .cvtpk f => execCvtpk_inv f s hs
  | .cvtunp f => execCvtunp_inv f s hs
  | .cvtqb f => execCvtqb_inv f s hs
  | .frcp f => execFrcp_inv f s hs
  | .frsq f => execFrsq_inv f s hs
  | .fsqrt f => execFsqrt_inv f s hs
  | .fexp2 f => execFexp2_inv f s hs
  | .flog2 f => execFlog2_inv f s hs
  | .fsin f => execFsin_inv f s hs
  | .fcos f => execFcos_inv f s hs
  | .ftanh f => execFtanh_inv f s hs
  | .lbcast f => execLbcast_inv f s hs
  | .lshuf f => execLshuf_inv f s hs
  | .lrot f => execLrot_inv f s hs
  | .lquad f => execLquad_inv f s hs
  | .lballot f => execLballot_inv f s hs
  | .lred f => execLred_inv f s hs
  | .lscan f => execLscan_inv f s hs
  | .lmatch f => execLmatch_inv f s hs
  | .lhist f => execLhist_inv f s hs
  | .lmerge f => execLmerge_inv f s hs
  | .lfirst f => execLfirst_inv f s hs
  | .lderiv f => execLderiv_inv f s hs
  | .lcount f => execLcount_inv f s hs
  | .bra f => execBra_inv f s hs
  | .brs f => execBrs_inv f s hs
  | .brm f => execBrm_inv f s hs
  | .brx f => execBrx_inv f s hs
  | .mark f => execMark_inv f s hs
  | .join f => execJoin_inv f s hs
  | .call f => execCall_inv f s hs
  | .ret f => execRet_inv f s hs
  | .loop f => execLoop_inv f s hs
  | .waitc f => execWaitc_inv f s hs
  | .yield f => execYield_inv f s hs
  | .halt f => execHalt_inv f s hs
  | .trap f => execTrap_inv f s hs
  | .nop f => execNop_inv f s hs
  | .mask f => execMask_inv f s hs
  | .sleep f => execSleep_inv f s hs
  | .ldl f => execLdl_inv f s hs
  | .stl f => execStl_inv f s hs
  | .lds f => execLds_inv f s hs
  | .sts f => execSts_inv f s hs
  | .ldc f => execLdc_inv f s hs
  | .stc f => execStc_inv f s hs
  | .ldp f => execLdp_inv f s hs
  | .stp f => execStp_inv f s hs
  | .ldg f => execLdg_inv f s hs
  | .stg f => execStg_inv f s hs
  | .sld f => execSld_inv f s hs
  | .sst f => execSst_inv f s hs
  | .ldq f => execLdq_inv f s hs
  | .pfg f => execPfg_inv f s hs
  | .tld f => execTld_inv f s hs
  | .tst f => execTst_inv f s hs
  | .clean f => execClean_inv f s hs
  | .inval f => execInval_inv f s hs
  | .discard f => execDiscard_inv f s hs
  | .atom f => execAtom_inv f s hs
  | .acas f => execAcas_inv f s hs
  | .red f => execRed_inv f s hs
  | .fence f => execFence_inv f s hs
  | .mfmt f => execMfmt_inv f s hs
  | .mzero f => execMzero_inv f s hs
  | .mma f => execMma_inv f s hs
  | .mmat f => execMmat_inv f s hs
  | .mld f => execMld_inv f s hs
  | .mst f => execMst_inv f s hs
  | .mcvt f => execMcvt_inv f s hs
  | .mset f => execMset_inv f s hs
  | .madd f => execMadd_inv f s hs
  | .mloop f => execMloop_inv f s hs
  | .mbr f => execMbr_inv f s hs
  | .marr f => execMarr_inv f s hs
  | .mwait f => execMwait_inv f s hs
  | .mhalt f => execMhalt_inv f s hs
  | .chdef f => execChdef_inv f s hs
  | .chres f => execChres_inv f s hs
  | .chcom f => execChcom_inv f s hs
  | .chacq f => execChacq_inv f s hs
  | .chrel f => execChrel_inv f s hs
  | .chqry f => execChqry_inv f s hs
  | .cpyin f => execCpyin_inv f s hs
  | .cpyout f => execCpyout_inv f s hs
  | .cpyg f => execCpyg_inv f s hs
  | .idxwalk f => execIdxwalk_inv f s hs
  | .gather f => execGather_inv f s hs
  | .publish f => execPublish_inv f s hs
  | .ecplDep f => execEcplDep_inv f s hs
  | .ecplArr f => execEcplArr_inv f s hs
  | .sqpush f => execSqpush_inv f s hs
  | .sqpop f => execSqpop_inv f s hs
  | .barr f => execBarr_inv f s hs
  | .barw f => execBarw_inv f s hs
  | .barrw f => execBarrw_inv f s hs
  | .phbeg f => execPhbeg_inv f s hs
  | .phwait f => execPhwait_inv f s hs
  | .launch f => execLaunch_inv f s hs
  | .rsub f => execRsub_inv f s hs
  | .tsdep f => execTsdep_inv f s hs
  | .tscpy f => execTscpy_inv f s hs
  | .tstake f => execTstake_inv f s hs
  | .tscpyn f => execTscpyn_inv f s hs
  | .tstaken f => execTstaken_inv f s hs
  | .tscan f => execTscan_inv f s hs
  | .gtcfgSend f => execGtcfgSend_inv f s hs
  | .gtcfgDest f => execGtcfgDest_inv f s hs
  | .gtrsv f => execGtrsv_inv f s hs
  | .gtsend f => execGtsend_inv f s hs
  | .gtdrain f => execGtdrain_inv f s hs
  | .gtdrainPhase f => execGtdrainPhase_inv f s hs
  | .gtrel f => execGtrel_inv f s hs
  | .rbox f => execRbox_inv f s hs
  | .rtri f => execRtri_inv f s hs
  | .rpush f => execRpush_inv f s hs
  | .rpop f => execRpop_inv f s hs
  | .rhit f => execRhit_inv f s hs
  | .afetch f => execAfetch_inv f s hs
  | .abary f => execAbary_inv f s hs
  | .ainterp f => execAinterp_inv f s hs
  | .visld f => execVisld_inv f s hs
  | .smpl f => execSmpl_inv f s hs
  | .smpll f => execSmpll_inv f s hs
  | .pxout f => execPxout_inv f s hs
  | .tret f => execTret_inv f s hs
  | .srd f => execSrd_inv f s hs
  | .swr f => execSwr_inv f s hs
  | .eret f => execEret_inv f s hs
  | .brk f => execBrk_inv f s hs
  | .cntrd f => execCntrd_inv f s hs
  | .cntcfg f => execCntcfg_inv f s hs
  | .time f => execTime_inv f s hs
  | .isync f => execIsync_inv f s hs
  | .clauseFetch a => execClauseFetch_inv a s hs
  | .clauseWaitMet a => execClauseWaitMet_inv a s hs
  | .promotion a => execPromotion_inv a s hs
  | .requestReturn a p => execRequestReturn_inv a p s hs
  | .pendingFaultDelivery a => execPendingFaultDelivery_inv a s hs
  | .poisonStop a => execPoisonStop_inv a s hs
  | .launchQueueRefetch q => execLaunchQueueRefetch_inv q s hs
  | .launchRecordRead q => execLaunchRecordRead_inv q s hs
  | .launchActivation l => execLaunchActivation_inv l s hs
  | .placementDecision => execPlacementDecision_inv  s hs
  | .launchCompletion l => execLaunchCompletion_inv l s hs
  | .vacateWaveStop a => execVacateWaveStop_inv a s hs
  | .teamSave t => execTeamSave_inv t s hs
  | .vacateComplete => execVacateComplete_inv  s hs
  | .droopEvent core => execDroopEvent_inv core s hs
  | .droopWindowClose meanPower => execDroopWindowClose_inv meanPower s hs
  | .tempSample core reading => execTempSample_inv core reading s hs
  | .overtemp die => execOvertemp_inv die s hs
  | .timeSliceExpiry => execTimeSliceExpiry_inv  s hs
  | .watchdog a => execWatchdog_inv a s hs
  | .sleepWake a => execSleepWake_inv a s hs
  | .channelWaitServed a => execChannelWaitServed_inv a s hs
  | .streamQueueWaitServed a => execStreamQueueWaitServed_inv a s hs
  | .phaseComplete t => execPhaseComplete_inv t s hs
  | .phaseWatchRegister t => execPhaseWatchRegister_inv t s hs
  | .engineFire c => execEngineFire_inv c s hs
  | .engineComplete c => execEngineComplete_inv c s hs
  | .publishFlip c => execPublishFlip_inv c s hs
  | .launchEnqueue c => execLaunchEnqueue_inv c s hs
  | .mmaFire core => execMmaFire_inv core s hs
  | .arrayWordEnd core => execArrayWordEnd_inv core s hs
  | .transferWordBegin core => execTransferWordBegin_inv core s hs
  | .transferWordEnd core => execTransferWordEnd_inv core s hs
  | .mfmtComplete core fb => execMfmtComplete_inv core fb s hs
  | .quarterGated core q => execQuarterGated_inv core q s hs
  | .quarterAwake core q => execQuarterAwake_inv core q s hs
  | .gtCheckAnswer core => execGtCheckAnswer_inv core s hs
  | .gtFlitArrival f => execGtFlitArrival_inv f s hs
  | .gtFlitAck f => execGtFlitAck_inv f s hs
  | .tupleDeposit r => execTupleDeposit_inv r s hs
  | .tupleMatch r => execTupleMatch_inv r s hs
  | .tupleRetry r => execTupleRetry_inv r s hs
  | .tupleCancel r => execTupleCancel_inv r s hs
  | .tupleTimeout r => execTupleTimeout_inv r s hs
  | .tsFull r => execTsFull_inv r s hs
  | .homeWrite a rq x => execHomeWrite_inv a rq x s hs
  | .homeRead a rq x => execHomeRead_inv a rq x s hs
  | .atomicAtHome a rq x => execAtomicAtHome_inv a rq x s hs
  | .redContribution a rq x => execRedContribution_inv a rq x s hs
  | .gddr7Fill line => execGddr7Fill_inv line s hs
  | .columnEviction core line => execColumnEviction_inv core line s hs
  | .peerProbe cluster line => execPeerProbe_inv cluster line s hs
  | .redirectedRead cluster line => execRedirectedRead_inv cluster line s hs
  | .pageWalk cluster va => execPageWalk_inv cluster va s hs
  | .hostWrite pa data => execHostWrite_inv pa data s hs
  | .hostRead pa n => execHostRead_inv pa n s hs
  | .hostInvalidate line data => execHostInvalidate_inv line data s hs
  | .rasterBatch die => execRasterBatch_inv die s hs
  | .frameClose die => execFrameClose_inv die s hs
  | .classifyTile die engine => execClassifyTile_inv die engine s hs
  | .binWaveClose die material => execBinWaveClose_inv die material s hs
  | .binflushTimeout die material => execBinflushTimeout_inv die material s hs
  | .tlbinv => execTlbinv_inv  s hs
  | .tlbinvComplete => execTlbinvComplete_inv  s hs
  | .vacate => execVacate_inv  s hs
  | .tsclear => execTsclear_inv  s hs
  | .wresume core slot sc => execWresume_inv core slot sc s hs
  | .wend core slot sc => execWend_inv core slot sc s hs
  | .dbghalt core slot sc => execDbghalt_inv core slot sc s hs
  | .dresume core slot sc => execDresume_inv core slot sc s hs
  | .ctxid v => execCtxid_inv v s hs
  | .tslice v => execTslice_inv v s hs
  | .trapq reg v => execTrapq_inv reg v s hs
  | .launchQueueEnable q v => execLaunchQueueEnable_inv q v s hs
  | .bufferEntryWrite b word v => execBufferEntryWrite_inv b word v s hs
  | .materialEntryWrite m word v => execMaterialEntryWrite_inv m word v s hs
  | .registerWrite off v => execRegisterWrite_inv off v s hs
  | .debugRead st addr n => execDebugRead_inv st addr n s hs
  | .powerOnReset => execPowerOnReset_inv  s hs
  | .bootStage failed => execBootStage_inv failed s hs
  | .bootok v => execBootok_inv v s hs
  | .bootokTimeout => execBootokTimeout_inv  s hs
  | .fullretry => execFullretry_inv  s hs
  | .bootstat => execBootstat_inv  s hs
  | .attest nonce => execAttest_inv nonce s hs
  | .ckpt target => execCkpt_inv target s hs
  | .ckptComplete => execCkptComplete_inv  s hs
  | .restore source => execRestore_inv source s hs
  | .supplySet die mv => execSupplySet_inv die mv s hs
  | .columnPowerState st p => execColumnPowerState_inv st p s hs
  | .debugSessionRelease st => execDebugSessionRelease_inv st s hs
  | .debugRegisterWrite a reg v => execDebugRegisterWrite_inv a reg v s hs
  | .clusterCacheEviction cluster line => execClusterCacheEviction_inv cluster line s hs
  | .l2Eviction line => execL2Eviction_inv line s hs
  | .versionWordRetry a rq => execVersionWordRetry_inv a rq s hs
  | .counterMirrorRefresh core => execCounterMirrorRefresh_inv core s hs
  | .firmwareUpdate image signed => execFirmwareUpdate_inv image signed s hs
  | .lostCxlLink => execLostCxlLink_inv  s hs
  | .linkFailure die loop => execLinkFailure_inv die loop s hs

/-! Turn -/

theorem State.promoteAll_inv (s : State) (hs : s.Inv) : (State.promoteAll s).Inv := by
  unfold State.promoteAll
  repeat' (first | with_reducible assumption | with_reducible apply State.promote_inv | with_reducible apply State.Inv.foldl | with_reducible intro _)
theorem State.tick_inv (s : State) (hs : s.Inv) : (State.tick s).Inv := by
  unfold State.tick
  repeat' (first | with_reducible assumption | with_reducible apply State.pmcCount_inv | with_reducible apply State.mirrorAll_inv | with_reducible apply State.promoteAll_inv | with_reducible apply State.Inv.wf | with_reducible apply State.Inv.foldl | (with_reducible refine State.Inv.of_wf ?_; dsimp only) | with_reducible intro _ | split)
theorem State.countWord_inv (s : State) (core : Nat) (w : Wave) (word : W64) (hs : s.Inv) : (State.countWord s core w word).Inv := by
  unfold State.countWord
  repeat' (first | with_reducible assumption | with_reducible apply State.pmcCount_inv | with_reducible apply State.Inv.wf | (with_reducible refine State.Inv.of_wf ?_; dsimp only) | split)
theorem State.countSeq_inv (s : State) (core : Nat) (m : Stream) (hs : s.Inv) : (State.countSeq s core m).Inv := by
  unfold State.countSeq
  repeat' (first | with_reducible assumption | with_reducible apply State.pmcCount_inv | split)
theorem State.illegalWord_inv (s : State) (a : Agent) (hs : s.Inv) : OutInv (State.illegalWord s a) := by
  unfold State.illegalWord
  repeat' (first | with_reducible assumption | with_reducible apply State.streamTrap_inv | with_reducible apply State.trapAt_inv | with_reducible apply withStream_inv | with_reducible apply withWave_inv | with_reducible intro _ | split)
theorem State.issue_inv (s : State) (a : Agent) (word : W64) (hs : s.Inv) : OutInv (State.issue s a word) := by
  unfold State.issue
  repeat' (first | with_reducible assumption | with_reducible apply State.illegalWord_inv | with_reducible apply exec_inv | split)
theorem State.freshen_inv (s : State) (a : Agent) (hs : s.Inv) : (State.freshen s a).Inv := by
  unfold State.freshen
  repeat' (first | with_reducible assumption | with_reducible apply State.updWave_inv | with_reducible apply State.updStream_inv | with_reducible apply State.Inv.wf | (with_reducible refine State.Inv.of_wf ?_; dsimp only) | split)
theorem State.consume_inv (s : State) (c k : Nat) (w : Wave) (word : W64) (hs : s.Inv) : (State.consume s c k w word).Inv := by
  unfold State.consume
  repeat' (first | with_reducible assumption | with_reducible apply State.seeBad_inv | split)
theorem State.issueAhead_inv (s : State) (c k : Nat) (word : W64) (hs : s.Inv) : OutInv (State.issueAhead s c k word) := by
  have h1 := s.issue_inv (.wave c k) word hs
  have h2 := (s.updWave c k (fun w => { w with ahead := (s.updWave c k (fun w => { w.done with dbgReq := true })).lookAhead c k (word.toNat / 2 ^ 52 % 16) })).issue_inv
    (.wave c k) word (State.updWave_inv _ _ _ _ hs)
  unfold State.issueAhead
  dsimp only; split
  · exact h1
  · revert h2; cases State.issue _ _ _ with
    | next t => exact fun h2 => OutInv.next (State.updWave_inv _ _ _ _ (h2 t rfl))
    | fault f => exact fun h2 => h2
    | refused r => exact fun h2 => h2
theorem State.waveIssue_inv (s : State) (c k : Nat) (w : Wave) (word : W64) (hs : s.Inv) : OutInv (State.waveIssue s c k w word) := by
  unfold State.waveIssue
  repeat' (first | with_reducible assumption | with_reducible apply OutInv.next | with_reducible apply State.consume_inv | with_reducible apply State.setWave_inv | with_reducible apply State.freshen_inv | with_reducible apply State.countWord_inv | with_reducible apply State.issueAhead_inv | split)
theorem State.agentTurn_inv (s : State) (a : Agent) (hs : s.Inv) : OutInv (State.agentTurn s a) := by
  unfold State.agentTurn
  repeat' (first | with_reducible assumption | with_reducible apply OutInv.next | with_reducible apply State.freshen_inv | with_reducible apply State.countSeq_inv | with_reducible apply State.issue_inv | with_reducible apply exec_inv | with_reducible apply State.cancelWait_inv | with_reducible apply State.waveIssue_inv | with_reducible apply State.updWave_inv | split)
theorem State.turn_inv (s : State) (t : Turn) (hs : s.Inv) : OutInv (State.turn s t) := by
  unfold State.turn
  repeat' (first | with_reducible assumption | with_reducible apply OutInv.next | with_reducible apply State.upset_inv | with_reducible apply State.agentTurn_inv | with_reducible apply exec_inv | split)
theorem State.settle_inv (s : State) (o : Out) (hs : s.Inv) (ho : OutInv o) : OutInv (State.settle s o) := by
  cases o with
  | next t => exact OutInv.next (State.orWait_inv _ _ hs (ho t rfl))
  | fault f => exact ho
  | refused r => exact ho
theorem State.begun_inv (s : State) (rest : List Turn) (hs : s.Inv) : (State.begun s rest).Inv := by
  unfold State.begun
  repeat' (first | with_reducible assumption | with_reducible apply State.tick_inv | with_reducible apply State.Inv.wf | (with_reducible refine State.Inv.of_wf ?_; dsimp only))
theorem State.placeWord_inv (s : State) (word : W64) (hs : s.Inv) : (State.placeWord s word).Inv := by
  unfold State.placeWord
  repeat' (first | with_reducible assumption | with_reducible apply State.setStream_inv | with_reducible apply State.setWave_inv | with_reducible apply State.Inv.wf | (with_reducible refine State.Inv.of_wf ?_; dsimp only) | split)

/-! Step -/

theorem State.withFetchWord_inv (s : State) (nbits w : Nat) (hs : s.Inv) : (State.withFetchWord s nbits w).Inv := by
  unfold State.withFetchWord
  repeat' (first | with_reducible assumption | with_reducible apply State.placeWord_inv)


end Sys2Proof.Machine
end

