-- ==== Sys2Proof/Laws/PerInstr.lean ====
section
/-! SUPPORT. The per-instruction family Encoding: a well-formed instruction's word decodes to it (R96, R104, R105, R122, R123). -/

namespace Sys2Proof.Laws.Encoding

/-- The word of a well-formed instruction decodes to that instruction. -/
def Statement (i : Instr) : Prop := i.wf = true → ∀ w, encode i = some w → decodeWord w = .ok i

theorem of_parse {i : Instr} (w0 : W64) (he : encode i = some w0) (hp : i.wf = true → parseWord w0 = .ok i) : Statement i := by
  intro h w e
  rw [he] at e; cases e
  simp only [decodeWord, hp h, h, if_true]
/-- FN below 8 has bit 3 clear. -/
theorem and_left {a b : Bool} (h : (a && b) = true) : a = true := by revert h; cases a <;> simp
theorem and_right {a b : Bool} (h : (a && b) = true) : b = true := by revert h; cases a <;> simp
theorem fn_low (x : BitVec 4) (h : x.toNat < 8) : x.getLsbD 3 = false := by revert h; revert x; decide
theorem fn_high (x : BitVec 4) (h : 8 ≤ x.toNat) : x.getLsbD 3 = true := by revert h; revert x; decide
theorem fn_one (x : BitVec 4) (h : x.toNat = 1) : x = 1 := BitVec.eq_of_toNat_eq h
theorem fn_zero (x : BitVec 4) (h : x.toNat = 0) : x = 0 := BitVec.eq_of_toNat_eq h

theorem byBit3_false (w : W64) (v vi : W64 → Except DecodeError Instr) (h : w.getLsbD 51 = false) : byBit3 w v vi = v w := by
  simp only [byBit3, h, Bool.false_eq_true, if_false]
theorem byBit3_true (w : W64) (v vi : W64 → Except DecodeError Instr) (h : w.getLsbD 51 = true) : byBit3 w v vi = vi w := by
  simp only [byBit3, h, if_true]
theorem byFn_zero (w : W64) (a b : W64 → Except DecodeError Instr) (h : fnOf w = 0) : byFn w a b = a w := by simp [byFn, h]
theorem byFn_one (w : W64) (a b : W64 → Except DecodeError Instr) (h : fnOf w = 1) : byFn w a b = b w := by simp [byFn, h]
theorem vForm_low {f : FmtV} {n m : Nat} {a b c d e : Bool} (h : vForm f n m a b c d e = true) (hn : n ≤ 8) : f.fn.getLsbD 3 = false := by
  simp only [vForm, Bool.and_eq_true, decide_eq_true_eq] at h; exact fn_low _ (by omega)
theorem vInt_low {f : FmtV} {n m : Nat} {a b : Bool} (h : vInt f n m a b = true) (hn : n ≤ 8) : f.fn.getLsbD 3 = false := by
  simp only [vInt, Bool.and_eq_true] at h; exact vForm_low h.1.1.1.2 hn
theorem vFlt_low {f : FmtV} {n m : Nat} {a b c d e : Bool} (h : vFlt f n m a b c d e = true) (hn : n ≤ 8) : f.fn.getLsbD 3 = false := by
  simp only [vFlt, Bool.and_eq_true] at h; exact vForm_low h.1.1.1.2 hn
theorem gWord_fn {f : FmtGT} {n : Nat} (h : gWord f n = true) : f.fn.toNat = n := by
  simp only [gWord, Bool.and_eq_true, decide_eq_true_eq] at h; exact h.2
theorem viInt_high {f : FmtVI} {n : Nat} (h : viInt f n = true) : f.fn.getLsbD 3 = true := by
  simp only [viInt, viForm, Bool.and_eq_true, decide_eq_true_eq] at h; exact fn_high _ (by omega)
theorem viFlt_high {f : FmtVI} {n : Nat} (h : viFlt f n = true) : f.fn.getLsbD 3 = true := by
  simp only [viFlt, viForm, Bool.and_eq_true, decide_eq_true_eq] at h; exact fn_high _ (by omega)

/-- A device step has no word. -/
theorem of_none {i : Instr} (he : encode i = none) : Statement i := by
  intro _ w e; rw [he] at e; cases e

/-! ### The opcode map reaches the format -/

theorem ofS (op : BitVec 8) (f : FmtS) (k : FmtS → Instr) (h : ∀ w, parseOp op.toNat w = fmtS w k) :
    parseWord (encS op f) = .ok (k f) := by rw [parseWord, opOf_encS, h, fmtS_encS]
theorem ofV (op : BitVec 8) (f : FmtV) (k : FmtV → Instr) (h : ∀ w, parseOp op.toNat w = fmtV w k) :
    parseWord (encV op f) = .ok (k f) := by rw [parseWord, opOf_encV, h, fmtV_encV]
theorem ofVI (op : BitVec 8) (f : FmtVI) (k : FmtVI → Instr) (h : ∀ w, parseOp op.toNat w = fmtVI w k) :
    parseWord (encVI op f) = .ok (k f) := by rw [parseWord, opOf_encVI, h, fmtVI_encVI]
theorem ofM (op : BitVec 8) (f : FmtM) (k : FmtM → Instr) (h : ∀ w, parseOp op.toNat w = fmtM w k) :
    parseWord (encM op f) = .ok (k f) := by rw [parseWord, opOf_encM, h, fmtM_encM]
theorem ofX (op : BitVec 8) (f : FmtX) (k : FmtX → Instr) (h : ∀ w, parseOp op.toNat w = fmtX w k) :
    parseWord (encX op f) = .ok (k f) := by rw [parseWord, opOf_encX, h, fmtX_encX]
theorem ofE (op : BitVec 8) (f : FmtE) (k : FmtE → Instr) (h : ∀ w, parseOp op.toNat w = fmtE w k) :
    parseWord (encE op f) = .ok (k f) := by rw [parseWord, opOf_encE, h, fmtE_encE]
theorem ofC (op : BitVec 8) (f : FmtC) (k : FmtC → Instr) (h : ∀ w, parseOp op.toNat w = fmtC w k) :
    parseWord (encC op f) = .ok (k f) := by rw [parseWord, opOf_encC, h, fmtC_encC]
theorem ofQ (op : BitVec 8) (f : FmtQ) (k : FmtQ → Instr) (h : ∀ w, parseOp op.toNat w = fmtQ w k) :
    parseWord (encQ op f) = .ok (k f) := by rw [parseWord, opOf_encQ, h, fmtQ_encQ]
theorem ofT (op : BitVec 8) (f : FmtT) (k : FmtT → Instr) (h : ∀ w, parseOp op.toNat w = fmtT w k) :
    parseWord (encT op f) = .ok (k f) := by rw [parseWord, opOf_encT, h, fmtT_encT]
theorem ofGT (op : BitVec 8) (f : FmtGT) (k : FmtGT → Instr) (h : ∀ w, parseOp op.toNat w = fmtGT w k) :
    parseWord (encGT op f) = .ok (k f) := by rw [parseWord, opOf_encGT, h, fmtGT_encGT]
theorem ofG (op : BitVec 8) (f : FmtG) (k : FmtG → Instr) (h : ∀ w, parseOp op.toNat w = fmtG w k) :
    parseWord (encG op f) = .ok (k f) := by rw [parseWord, opOf_encG, h, fmtG_encG]
theorem ofY (op : BitVec 8) (f : FmtY) (k : FmtY → Instr) (h : ∀ w, parseOp op.toNat w = fmtY w k) :
    parseWord (encY op f) = .ok (k f) := by rw [parseWord, opOf_encY, h, fmtY_encY]
theorem ofVbit (op : BitVec 8) (f : FmtV) (k : FmtV → Instr) (k' : FmtVI → Instr)
    (h : ∀ w, parseOp op.toNat w = byBit3 w (fun w => fmtV w k) (fun w => fmtVI w k')) (hf : f.fn.getLsbD 3 = false) :
    parseWord (encV op f) = .ok (k f) := by
  rw [parseWord, opOf_encV, h, byBit3_false _ _ _ ((fnTop_encV ..).trans hf), fmtV_encV]
theorem ofVIbit (op : BitVec 8) (f : FmtVI) (k : FmtV → Instr) (k' : FmtVI → Instr)
    (h : ∀ w, parseOp op.toNat w = byBit3 w (fun w => fmtV w k) (fun w => fmtVI w k')) (hf : f.fn.getLsbD 3 = true) :
    parseWord (encVI op f) = .ok (k' f) := by
  rw [parseWord, opOf_encVI, h, byBit3_true _ _ _ ((fnTop_encVI ..).trans hf), fmtVI_encVI]
theorem ofEfn0 (op : BitVec 8) (f : FmtE) (k k' : FmtE → Instr)
    (h : ∀ w, parseOp op.toNat w = byFn w (fun w => fmtE w k) (fun w => fmtE w k')) (hf : f.fn = 0) :
    parseWord (encE op f) = .ok (k f) := by
  rw [parseWord, opOf_encE, h, byFn_zero _ _ _ ((fnOf_encE ..).trans hf), fmtE_encE]
theorem ofEfn1 (op : BitVec 8) (f : FmtE) (k k' : FmtE → Instr)
    (h : ∀ w, parseOp op.toNat w = byFn w (fun w => fmtE w k) (fun w => fmtE w k')) (hf : f.fn = 1) :
    parseWord (encE op f) = .ok (k' f) := by
  rw [parseWord, opOf_encE, h, byFn_one _ _ _ ((fnOf_encE ..).trans hf), fmtE_encE]
theorem ofGTfn0 (op : BitVec 8) (f : FmtGT) (k k' : FmtGT → Instr)
    (h : ∀ w, parseOp op.toNat w = byFn w (fun w => fmtGT w k) (fun w => fmtGT w k')) (hf : f.fn = 0) :
    parseWord (encGT op f) = .ok (k f) := by
  rw [parseWord, opOf_encGT, h, byFn_zero _ _ _ ((fnOf_encGT ..).trans hf), fmtGT_encGT]
theorem ofGTfn1 (op : BitVec 8) (f : FmtGT) (k k' : FmtGT → Instr)
    (h : ∀ w, parseOp op.toNat w = byFn w (fun w => fmtGT w k) (fun w => fmtGT w k')) (hf : f.fn = 1) :
    parseWord (encGT op f) = .ok (k' f) := by
  rw [parseWord, opOf_encGT, h, byFn_one _ _ _ ((fnOf_encGT ..).trans hf), fmtGT_encGT]

/-! ### One lemma for each constructor -/

theorem sadd (f : FmtS) : Statement (.sadd f) :=
  of_parse (encS 0x01 f) rfl (fun _ => ofS _ _ _ (fun _ => rfl))
theorem ssub (f : FmtS) : Statement (.ssub f) :=
  of_parse (encS 0x02 f) rfl (fun _ => ofS _ _ _ (fun _ => rfl))
theorem smul (f : FmtS) : Statement (.smul f) :=
  of_parse (encS 0x03 f) rfl (fun _ => ofS _ _ _ (fun _ => rfl))
theorem smulhi (f : FmtS) : Statement (.smulhi f) :=
  of_parse (encS 0x04 f) rfl (fun _ => ofS _ _ _ (fun _ => rfl))
theorem sdiv (f : FmtS) : Statement (.sdiv f) :=
  of_parse (encS 0x05 f) rfl (fun _ => ofS _ _ _ (fun _ => rfl))
theorem sand (f : FmtS) : Statement (.sand f) :=
  of_parse (encS 0x06 f) rfl (fun _ => ofS _ _ _ (fun _ => rfl))
theorem sor (f : FmtS) : Statement (.sor f) :=
  of_parse (encS 0x07 f) rfl (fun _ => ofS _ _ _ (fun _ => rfl))
theorem sxor (f : FmtS) : Statement (.sxor f) :=
  of_parse (encS 0x08 f) rfl (fun _ => ofS _ _ _ (fun _ => rfl))
theorem sshl (f : FmtS) : Statement (.sshl f) :=
  of_parse (encS 0x09 f) rfl (fun _ => ofS _ _ _ (fun _ => rfl))
theorem sshr (f : FmtS) : Statement (.sshr f) :=
  of_parse (encS 0x0A f) rfl (fun _ => ofS _ _ _ (fun _ => rfl))
theorem srot (f : FmtS) : Statement (.srot f) :=
  of_parse (encS 0x0B f) rfl (fun _ => ofS _ _ _ (fun _ => rfl))
theorem scmp (f : FmtS) : Statement (.scmp f) :=
  of_parse (encS 0x0C f) rfl (fun _ => ofS _ _ _ (fun _ => rfl))
theorem ssel (f : FmtS) : Statement (.ssel f) :=
  of_parse (encS 0x0D f) rfl (fun _ => ofS _ _ _ (fun _ => rfl))
theorem smov (f : FmtS) : Statement (.smov f) :=
  of_parse (encS 0x0E f) rfl (fun _ => ofS _ _ _ (fun _ => rfl))
theorem smin (f : FmtS) : Statement (.smin f) :=
  of_parse (encS 0x0F f) rfl (fun _ => ofS _ _ _ (fun _ => rfl))
theorem smax (f : FmtS) : Statement (.smax f) :=
  of_parse (encS 0x10 f) rfl (fun _ => ofS _ _ _ (fun _ => rfl))
theorem sbfx (f : FmtS) : Statement (.sbfx f) :=
  of_parse (encS 0x11 f) rfl (fun _ => ofS _ _ _ (fun _ => rfl))
theorem sbfi (f : FmtS) : Statement (.sbfi f) :=
  of_parse (encS 0x12 f) rfl (fun _ => ofS _ _ _ (fun _ => rfl))
theorem sbitc (f : FmtS) : Statement (.sbitc f) :=
  of_parse (encS 0x13 f) rfl (fun _ => ofS _ _ _ (fun _ => rfl))
theorem sadd64 (f : FmtS) : Statement (.sadd64 f) :=
  of_parse (encS 0x14 f) rfl (fun _ => ofS _ _ _ (fun _ => rfl))
theorem ssub64 (f : FmtS) : Statement (.ssub64 f) :=
  of_parse (encS 0x15 f) rfl (fun _ => ofS _ _ _ (fun _ => rfl))
theorem smad64 (f : FmtS) : Statement (.smad64 f) :=
  of_parse (encS 0x16 f) rfl (fun _ => ofS _ _ _ (fun _ => rfl))
theorem sli (f : FmtS) : Statement (.sli f) :=
  of_parse (encS 0x17 f) rfl (fun _ => ofS _ _ _ (fun _ => rfl))
theorem vadd (f : FmtV) : Statement (.vadd f) :=
  of_parse (encV 0x20 f) rfl (fun h => by
    have hf : f.fn.getLsbD 3 = false := by
      exact vInt_low h (by decide)
    exact ofVbit _ _ .vadd .vaddImm (fun _ => rfl) hf)
theorem vaddImm (f : FmtVI) : Statement (.vaddImm f) :=
  of_parse (encVI 0x20 f) rfl (fun h => by
    have hf : f.fn.getLsbD 3 = true := by
      exact viInt_high h
    exact ofVIbit _ _ .vadd .vaddImm (fun _ => rfl) hf)
theorem vsub (f : FmtV) : Statement (.vsub f) :=
  of_parse (encV 0x21 f) rfl (fun h => by
    have hf : f.fn.getLsbD 3 = false := by
      exact vInt_low h (by decide)
    exact ofVbit _ _ .vsub .vsubImm (fun _ => rfl) hf)
theorem vsubImm (f : FmtVI) : Statement (.vsubImm f) :=
  of_parse (encVI 0x21 f) rfl (fun h => by
    have hf : f.fn.getLsbD 3 = true := by
      exact viInt_high h
    exact ofVIbit _ _ .vsub .vsubImm (fun _ => rfl) hf)
theorem vmul (f : FmtV) : Statement (.vmul f) :=
  of_parse (encV 0x22 f) rfl (fun h => by
    have hf : f.fn.getLsbD 3 = false := by
      exact vInt_low h (by decide)
    exact ofVbit _ _ .vmul .vmulImm (fun _ => rfl) hf)
theorem vmulImm (f : FmtVI) : Statement (.vmulImm f) :=
  of_parse (encVI 0x22 f) rfl (fun h => by
    have hf : f.fn.getLsbD 3 = true := by
      exact viInt_high h
    exact ofVIbit _ _ .vmul .vmulImm (fun _ => rfl) hf)
theorem vmulhi (f : FmtV) : Statement (.vmulhi f) :=
  of_parse (encV 0x23 f) rfl (fun h => by
    have hf : f.fn.getLsbD 3 = false := by
      exact vInt_low h (by decide)
    exact ofVbit _ _ .vmulhi .vmulhiImm (fun _ => rfl) hf)
theorem vmulhiImm (f : FmtVI) : Statement (.vmulhiImm f) :=
  of_parse (encVI 0x23 f) rfl (fun h => by
    have hf : f.fn.getLsbD 3 = true := by
      exact viInt_high h
    exact ofVIbit _ _ .vmulhi .vmulhiImm (fun _ => rfl) hf)
theorem vmad (f : FmtV) : Statement (.vmad f) :=
  of_parse (encV 0x24 f) rfl (fun _ => ofV _ _ _ (fun _ => rfl))
theorem vand (f : FmtV) : Statement (.vand f) :=
  of_parse (encV 0x25 f) rfl (fun h => by
    have hf : f.fn.getLsbD 3 = false := by
      exact vInt_low h (by decide)
    exact ofVbit _ _ .vand .vandImm (fun _ => rfl) hf)
theorem vandImm (f : FmtVI) : Statement (.vandImm f) :=
  of_parse (encVI 0x25 f) rfl (fun h => by
    have hf : f.fn.getLsbD 3 = true := by
      exact viInt_high h
    exact ofVIbit _ _ .vand .vandImm (fun _ => rfl) hf)
theorem vor (f : FmtV) : Statement (.vor f) :=
  of_parse (encV 0x26 f) rfl (fun h => by
    have hf : f.fn.getLsbD 3 = false := by
      exact vInt_low h (by decide)
    exact ofVbit _ _ .vor .vorImm (fun _ => rfl) hf)
theorem vorImm (f : FmtVI) : Statement (.vorImm f) :=
  of_parse (encVI 0x26 f) rfl (fun h => by
    have hf : f.fn.getLsbD 3 = true := by
      exact viInt_high h
    exact ofVIbit _ _ .vor .vorImm (fun _ => rfl) hf)
theorem vxor (f : FmtV) : Statement (.vxor f) :=
  of_parse (encV 0x27 f) rfl (fun h => by
    have hf : f.fn.getLsbD 3 = false := by
      exact vInt_low h (by decide)
    exact ofVbit _ _ .vxor .vxorImm (fun _ => rfl) hf)
theorem vxorImm (f : FmtVI) : Statement (.vxorImm f) :=
  of_parse (encVI 0x27 f) rfl (fun h => by
    have hf : f.fn.getLsbD 3 = true := by
      exact viInt_high h
    exact ofVIbit _ _ .vxor .vxorImm (fun _ => rfl) hf)
theorem vshl (f : FmtV) : Statement (.vshl f) :=
  of_parse (encV 0x28 f) rfl (fun h => by
    have hf : f.fn.getLsbD 3 = false := by
      exact vInt_low h (by decide)
    exact ofVbit _ _ .vshl .vshlImm (fun _ => rfl) hf)
theorem vshlImm (f : FmtVI) : Statement (.vshlImm f) :=
  of_parse (encVI 0x28 f) rfl (fun h => by
    have hf : f.fn.getLsbD 3 = true := by
      exact viInt_high h
    exact ofVIbit _ _ .vshl .vshlImm (fun _ => rfl) hf)
theorem vshr (f : FmtV) : Statement (.vshr f) :=
  of_parse (encV 0x29 f) rfl (fun h => by
    have hf : f.fn.getLsbD 3 = false := by
      exact vInt_low h (by decide)
    exact ofVbit _ _ .vshr .vshrImm (fun _ => rfl) hf)
theorem vshrImm (f : FmtVI) : Statement (.vshrImm f) :=
  of_parse (encVI 0x29 f) rfl (fun h => by
    have hf : f.fn.getLsbD 3 = true := by
      exact viInt_high h
    exact ofVIbit _ _ .vshr .vshrImm (fun _ => rfl) hf)
theorem vrot (f : FmtV) : Statement (.vrot f) :=
  of_parse (encV 0x2A f) rfl (fun h => by
    have hf : f.fn.getLsbD 3 = false := by
      exact vInt_low h (by decide)
    exact ofVbit _ _ .vrot .vrotImm (fun _ => rfl) hf)
theorem vrotImm (f : FmtVI) : Statement (.vrotImm f) :=
  of_parse (encVI 0x2A f) rfl (fun h => by
    have hf : f.fn.getLsbD 3 = true := by
      exact viInt_high h
    exact ofVIbit _ _ .vrot .vrotImm (fun _ => rfl) hf)
theorem vmin (f : FmtV) : Statement (.vmin f) :=
  of_parse (encV 0x2B f) rfl (fun h => by
    have hf : f.fn.getLsbD 3 = false := by
      exact vInt_low h (by decide)
    exact ofVbit _ _ .vmin .vminImm (fun _ => rfl) hf)
theorem vminImm (f : FmtVI) : Statement (.vminImm f) :=
  of_parse (encVI 0x2B f) rfl (fun h => by
    have hf : f.fn.getLsbD 3 = true := by
      exact viInt_high h
    exact ofVIbit _ _ .vmin .vminImm (fun _ => rfl) hf)
theorem vmax (f : FmtV) : Statement (.vmax f) :=
  of_parse (encV 0x2C f) rfl (fun h => by
    have hf : f.fn.getLsbD 3 = false := by
      exact vInt_low h (by decide)
    exact ofVbit _ _ .vmax .vmaxImm (fun _ => rfl) hf)
theorem vmaxImm (f : FmtVI) : Statement (.vmaxImm f) :=
  of_parse (encVI 0x2C f) rfl (fun h => by
    have hf : f.fn.getLsbD 3 = true := by
      exact viInt_high h
    exact ofVIbit _ _ .vmax .vmaxImm (fun _ => rfl) hf)
theorem vcmp (f : FmtV) : Statement (.vcmp f) :=
  of_parse (encV 0x2D f) rfl (fun h => by
    have hf : f.fn.getLsbD 3 = false := by
      exact vInt_low (and_left h) (by decide)
    exact ofVbit _ _ .vcmp .vcmpImm (fun _ => rfl) hf)
theorem vcmpImm (f : FmtVI) : Statement (.vcmpImm f) :=
  of_parse (encVI 0x2D f) rfl (fun h => by
    have hf : f.fn.getLsbD 3 = true := by
      exact viInt_high (and_left h)
    exact ofVIbit _ _ .vcmp .vcmpImm (fun _ => rfl) hf)
theorem vsel (f : FmtV) : Statement (.vsel f) :=
  of_parse (encV 0x2E f) rfl (fun _ => ofV _ _ _ (fun _ => rfl))
theorem vmov (f : FmtV) : Statement (.vmov f) :=
  of_parse (encV 0x2F f) rfl (fun _ => ofV _ _ _ (fun _ => rfl))
theorem vbfx (f : FmtV) : Statement (.vbfx f) :=
  of_parse (encV 0x30 f) rfl (fun _ => ofV _ _ _ (fun _ => rfl))
theorem vbfi (f : FmtV) : Statement (.vbfi f) :=
  of_parse (encV 0x31 f) rfl (fun _ => ofV _ _ _ (fun _ => rfl))
theorem vbitc (f : FmtV) : Statement (.vbitc f) :=
  of_parse (encV 0x32 f) rfl (fun _ => ofV _ _ _ (fun _ => rfl))
theorem vsad (f : FmtV) : Statement (.vsad f) :=
  of_parse (encV 0x33 f) rfl (fun _ => ofV _ _ _ (fun _ => rfl))
theorem vadd64 (f : FmtV) : Statement (.vadd64 f) :=
  of_parse (encV 0x34 f) rfl (fun h => by
    have hf : f.fn.getLsbD 3 = false := by
      exact vInt_low (and_left (and_left (and_left h))) (by decide)
    exact ofVbit _ _ .vadd64 .vadd64Imm (fun _ => rfl) hf)
theorem vadd64Imm (f : FmtVI) : Statement (.vadd64Imm f) :=
  of_parse (encVI 0x34 f) rfl (fun h => by
    have hf : f.fn.getLsbD 3 = true := by
      exact viInt_high (and_left (and_left h))
    exact ofVIbit _ _ .vadd64 .vadd64Imm (fun _ => rfl) hf)
theorem vmad64 (f : FmtV) : Statement (.vmad64 f) :=
  of_parse (encV 0x35 f) rfl (fun _ => ofV _ _ _ (fun _ => rfl))
theorem vdot4 (f : FmtV) : Statement (.vdot4 f) :=
  of_parse (encV 0x36 f) rfl (fun _ => ofV _ _ _ (fun _ => rfl))
theorem vperm (f : FmtV) : Statement (.vperm f) :=
  of_parse (encV 0x37 f) rfl (fun _ => ofV _ _ _ (fun _ => rfl))
theorem fadd (f : FmtV) : Statement (.fadd f) :=
  of_parse (encV 0x40 f) rfl (fun h => by
    have hf : f.fn.getLsbD 3 = false := by
      exact vFlt_low h (by decide)
    exact ofVbit _ _ .fadd .faddImm (fun _ => rfl) hf)
theorem faddImm (f : FmtVI) : Statement (.faddImm f) :=
  of_parse (encVI 0x40 f) rfl (fun h => by
    have hf : f.fn.getLsbD 3 = true := by
      exact viFlt_high h
    exact ofVIbit _ _ .fadd .faddImm (fun _ => rfl) hf)
theorem fsub (f : FmtV) : Statement (.fsub f) :=
  of_parse (encV 0x41 f) rfl (fun h => by
    have hf : f.fn.getLsbD 3 = false := by
      exact vFlt_low h (by decide)
    exact ofVbit _ _ .fsub .fsubImm (fun _ => rfl) hf)
theorem fsubImm (f : FmtVI) : Statement (.fsubImm f) :=
  of_parse (encVI 0x41 f) rfl (fun h => by
    have hf : f.fn.getLsbD 3 = true := by
      exact viFlt_high h
    exact ofVIbit _ _ .fsub .fsubImm (fun _ => rfl) hf)
theorem fmul (f : FmtV) : Statement (.fmul f) :=
  of_parse (encV 0x42 f) rfl (fun h => by
    have hf : f.fn.getLsbD 3 = false := by
      exact vFlt_low h (by decide)
    exact ofVbit _ _ .fmul .fmulImm (fun _ => rfl) hf)
theorem fmulImm (f : FmtVI) : Statement (.fmulImm f) :=
  of_parse (encVI 0x42 f) rfl (fun h => by
    have hf : f.fn.getLsbD 3 = true := by
      exact viFlt_high h
    exact ofVIbit _ _ .fmul .fmulImm (fun _ => rfl) hf)
theorem ffma (f : FmtV) : Statement (.ffma f) :=
  of_parse (encV 0x43 f) rfl (fun _ => ofV _ _ _ (fun _ => rfl))
theorem fmin (f : FmtV) : Statement (.fmin f) :=
  of_parse (encV 0x44 f) rfl (fun h => by
    have hf : f.fn.getLsbD 3 = false := by
      exact vFlt_low h (by decide)
    exact ofVbit _ _ .fmin .fminImm (fun _ => rfl) hf)
theorem fminImm (f : FmtVI) : Statement (.fminImm f) :=
  of_parse (encVI 0x44 f) rfl (fun h => by
    have hf : f.fn.getLsbD 3 = true := by
      exact viFlt_high h
    exact ofVIbit _ _ .fmin .fminImm (fun _ => rfl) hf)
theorem fmax (f : FmtV) : Statement (.fmax f) :=
  of_parse (encV 0x45 f) rfl (fun h => by
    have hf : f.fn.getLsbD 3 = false := by
      exact vFlt_low h (by decide)
    exact ofVbit _ _ .fmax .fmaxImm (fun _ => rfl) hf)
theorem fmaxImm (f : FmtVI) : Statement (.fmaxImm f) :=
  of_parse (encVI 0x45 f) rfl (fun h => by
    have hf : f.fn.getLsbD 3 = true := by
      exact viFlt_high h
    exact ofVIbit _ _ .fmax .fmaxImm (fun _ => rfl) hf)
theorem fcmp (f : FmtV) : Statement (.fcmp f) :=
  of_parse (encV 0x46 f) rfl (fun h => by
    have hf : f.fn.getLsbD 3 = false := by
      exact vFlt_low (and_left h) (by decide)
    exact ofVbit _ _ .fcmp .fcmpImm (fun _ => rfl) hf)
theorem fcmpImm (f : FmtVI) : Statement (.fcmpImm f) :=
  of_parse (encVI 0x46 f) rfl (fun h => by
    have hf : f.fn.getLsbD 3 = true := by
      exact viFlt_high (and_left h)
    exact ofVIbit _ _ .fcmp .fcmpImm (fun _ => rfl) hf)
theorem frnd (f : FmtV) : Statement (.frnd f) :=
  of_parse (encV 0x47 f) rfl (fun _ => ofV _ _ _ (fun _ => rfl))
theorem ffract (f : FmtV) : Statement (.ffract f) :=
  of_parse (encV 0x48 f) rfl (fun _ => ofV _ _ _ (fun _ => rfl))
theorem fclass (f : FmtV) : Statement (.fclass f) :=
  of_parse (encV 0x49 f) rfl (fun _ => ofV _ _ _ (fun _ => rfl))
theorem fldexp (f : FmtV) : Statement (.fldexp f) :=
  of_parse (encV 0x4A f) rfl (fun h => by
    have hf : f.fn.getLsbD 3 = false := by
      exact vFlt_low (and_left h) (by decide)
    exact ofVbit _ _ .fldexp .fldexpImm (fun _ => rfl) hf)
theorem fldexpImm (f : FmtVI) : Statement (.fldexpImm f) :=
  of_parse (encVI 0x4A f) rfl (fun h => by
    have hf : f.fn.getLsbD 3 = true := by
      exact viFlt_high h
    exact ofVIbit _ _ .fldexp .fldexpImm (fun _ => rfl) hf)
theorem ffrexp (f : FmtV) : Statement (.ffrexp f) :=
  of_parse (encV 0x4B f) rfl (fun _ => ofV _ _ _ (fun _ => rfl))
theorem hadd2 (f : FmtV) : Statement (.hadd2 f) :=
  of_parse (encV 0x4C f) rfl (fun _ => ofV _ _ _ (fun _ => rfl))
theorem hmul2 (f : FmtV) : Statement (.hmul2 f) :=
  of_parse (encV 0x4D f) rfl (fun _ => ofV _ _ _ (fun _ => rfl))
theorem hfma2 (f : FmtV) : Statement (.hfma2 f) :=
  of_parse (encV 0x4E f) rfl (fun _ => ofV _ _ _ (fun _ => rfl))
theorem hdot2 (f : FmtV) : Statement (.hdot2 f) :=
  of_parse (encV 0x4F f) rfl (fun _ => ofV _ _ _ (fun _ => rfl))
theorem cvtfi (f : FmtV) : Statement (.cvtfi f) :=
  of_parse (encV 0x50 f) rfl (fun _ => ofV _ _ _ (fun _ => rfl))
theorem cvtif (f : FmtV) : Statement (.cvtif f) :=
  of_parse (encV 0x51 f) rfl (fun _ => ofV _ _ _ (fun _ => rfl))
theorem cvtff (f : FmtV) : Statement (.cvtff f) :=
  of_parse (encV 0x52 f) rfl (fun _ => ofV _ _ _ (fun _ => rfl))
theorem cvtpk (f : FmtV) : Statement (.cvtpk f) :=
  of_parse (encV 0x53 f) rfl (fun _ => ofV _ _ _ (fun _ => rfl))
theorem cvtunp (f : FmtV) : Statement (.cvtunp f) :=
  of_parse (encV 0x54 f) rfl (fun _ => ofV _ _ _ (fun _ => rfl))
theorem cvtqb (f : FmtV) : Statement (.cvtqb f) :=
  of_parse (encV 0x55 f) rfl (fun _ => ofV _ _ _ (fun _ => rfl))
theorem frcp (f : FmtV) : Statement (.frcp f) :=
  of_parse (encV 0x58 f) rfl (fun _ => ofV _ _ _ (fun _ => rfl))
theorem frsq (f : FmtV) : Statement (.frsq f) :=
  of_parse (encV 0x59 f) rfl (fun _ => ofV _ _ _ (fun _ => rfl))
theorem fsqrt (f : FmtV) : Statement (.fsqrt f) :=
  of_parse (encV 0x5A f) rfl (fun _ => ofV _ _ _ (fun _ => rfl))
theorem fexp2 (f : FmtV) : Statement (.fexp2 f) :=
  of_parse (encV 0x5B f) rfl (fun _ => ofV _ _ _ (fun _ => rfl))
theorem flog2 (f : FmtV) : Statement (.flog2 f) :=
  of_parse (encV 0x5C f) rfl (fun _ => ofV _ _ _ (fun _ => rfl))
theorem fsin (f : FmtV) : Statement (.fsin f) :=
  of_parse (encV 0x5D f) rfl (fun _ => ofV _ _ _ (fun _ => rfl))
theorem fcos (f : FmtV) : Statement (.fcos f) :=
  of_parse (encV 0x5E f) rfl (fun _ => ofV _ _ _ (fun _ => rfl))
theorem ftanh (f : FmtV) : Statement (.ftanh f) :=
  of_parse (encV 0x5F f) rfl (fun _ => ofV _ _ _ (fun _ => rfl))
theorem lbcast (f : FmtV) : Statement (.lbcast f) :=
  of_parse (encV 0x60 f) rfl (fun _ => ofV _ _ _ (fun _ => rfl))
theorem lshuf (f : FmtV) : Statement (.lshuf f) :=
  of_parse (encV 0x61 f) rfl (fun _ => ofV _ _ _ (fun _ => rfl))
theorem lrot (f : FmtV) : Statement (.lrot f) :=
  of_parse (encV 0x62 f) rfl (fun _ => ofV _ _ _ (fun _ => rfl))
theorem lquad (f : FmtV) : Statement (.lquad f) :=
  of_parse (encV 0x63 f) rfl (fun _ => ofV _ _ _ (fun _ => rfl))
theorem lballot (f : FmtV) : Statement (.lballot f) :=
  of_parse (encV 0x64 f) rfl (fun _ => ofV _ _ _ (fun _ => rfl))
theorem lred (f : FmtV) : Statement (.lred f) :=
  of_parse (encV 0x65 f) rfl (fun _ => ofV _ _ _ (fun _ => rfl))
theorem lscan (f : FmtV) : Statement (.lscan f) :=
  of_parse (encV 0x66 f) rfl (fun _ => ofV _ _ _ (fun _ => rfl))
theorem lmatch (f : FmtV) : Statement (.lmatch f) :=
  of_parse (encV 0x67 f) rfl (fun _ => ofV _ _ _ (fun _ => rfl))
theorem lhist (f : FmtV) : Statement (.lhist f) :=
  of_parse (encV 0x68 f) rfl (fun _ => ofV _ _ _ (fun _ => rfl))
theorem lmerge (f : FmtV) : Statement (.lmerge f) :=
  of_parse (encV 0x69 f) rfl (fun _ => ofV _ _ _ (fun _ => rfl))
theorem lfirst (f : FmtV) : Statement (.lfirst f) :=
  of_parse (encV 0x6A f) rfl (fun _ => ofV _ _ _ (fun _ => rfl))
theorem lderiv (f : FmtV) : Statement (.lderiv f) :=
  of_parse (encV 0x6B f) rfl (fun _ => ofV _ _ _ (fun _ => rfl))
theorem lcount (f : FmtV) : Statement (.lcount f) :=
  of_parse (encV 0x6C f) rfl (fun _ => ofV _ _ _ (fun _ => rfl))
theorem bra (f : FmtC) : Statement (.bra f) :=
  of_parse (encC 0x70 f) rfl (fun _ => ofC _ _ _ (fun _ => rfl))
theorem brs (f : FmtC) : Statement (.brs f) :=
  of_parse (encC 0x71 f) rfl (fun _ => ofC _ _ _ (fun _ => rfl))
theorem brm (f : FmtC) : Statement (.brm f) :=
  of_parse (encC 0x72 f) rfl (fun _ => ofC _ _ _ (fun _ => rfl))
theorem brx (f : FmtC) : Statement (.brx f) :=
  of_parse (encC 0x73 f) rfl (fun _ => ofC _ _ _ (fun _ => rfl))
theorem mark (f : FmtC) : Statement (.mark f) :=
  of_parse (encC 0x74 f) rfl (fun _ => ofC _ _ _ (fun _ => rfl))
theorem join (f : FmtC) : Statement (.join f) :=
  of_parse (encC 0x75 f) rfl (fun _ => ofC _ _ _ (fun _ => rfl))
theorem call (f : FmtC) : Statement (.call f) :=
  of_parse (encC 0x76 f) rfl (fun _ => ofC _ _ _ (fun _ => rfl))
theorem ret (f : FmtC) : Statement (.ret f) :=
  of_parse (encC 0x77 f) rfl (fun _ => ofC _ _ _ (fun _ => rfl))
theorem loop (f : FmtC) : Statement (.loop f) :=
  of_parse (encC 0x78 f) rfl (fun _ => ofC _ _ _ (fun _ => rfl))
theorem waitc (f : FmtC) : Statement (.waitc f) :=
  of_parse (encC 0x79 f) rfl (fun _ => ofC _ _ _ (fun _ => rfl))
theorem yield (f : FmtC) : Statement (.yield f) :=
  of_parse (encC 0x7A f) rfl (fun _ => ofC _ _ _ (fun _ => rfl))
theorem halt (f : FmtC) : Statement (.halt f) :=
  of_parse (encC 0x7B f) rfl (fun _ => ofC _ _ _ (fun _ => rfl))
theorem trap (f : FmtC) : Statement (.trap f) :=
  of_parse (encC 0x7C f) rfl (fun _ => ofC _ _ _ (fun _ => rfl))
theorem nop (f : FmtC) : Statement (.nop f) :=
  of_parse (encC 0x7D f) rfl (fun _ => ofC _ _ _ (fun _ => rfl))
theorem mask (f : FmtC) : Statement (.mask f) :=
  of_parse (encC 0x7E f) rfl (fun _ => ofC _ _ _ (fun _ => rfl))
theorem sleep (f : FmtC) : Statement (.sleep f) :=
  of_parse (encC 0x7F f) rfl (fun _ => ofC _ _ _ (fun _ => rfl))
theorem ldl (f : FmtM) : Statement (.ldl f) :=
  of_parse (encM 0x80 f) rfl (fun _ => ofM _ _ _ (fun _ => rfl))
theorem stl (f : FmtM) : Statement (.stl f) :=
  of_parse (encM 0x81 f) rfl (fun _ => ofM _ _ _ (fun _ => rfl))
theorem lds (f : FmtM) : Statement (.lds f) :=
  of_parse (encM 0x82 f) rfl (fun _ => ofM _ _ _ (fun _ => rfl))
theorem sts (f : FmtM) : Statement (.sts f) :=
  of_parse (encM 0x83 f) rfl (fun _ => ofM _ _ _ (fun _ => rfl))
theorem ldc (f : FmtM) : Statement (.ldc f) :=
  of_parse (encM 0x84 f) rfl (fun _ => ofM _ _ _ (fun _ => rfl))
theorem stc (f : FmtM) : Statement (.stc f) :=
  of_parse (encM 0x85 f) rfl (fun _ => ofM _ _ _ (fun _ => rfl))
theorem ldp (f : FmtM) : Statement (.ldp f) :=
  of_parse (encM 0x86 f) rfl (fun _ => ofM _ _ _ (fun _ => rfl))
theorem stp (f : FmtM) : Statement (.stp f) :=
  of_parse (encM 0x87 f) rfl (fun _ => ofM _ _ _ (fun _ => rfl))
theorem ldg (f : FmtM) : Statement (.ldg f) :=
  of_parse (encM 0x88 f) rfl (fun _ => ofM _ _ _ (fun _ => rfl))
theorem stg (f : FmtM) : Statement (.stg f) :=
  of_parse (encM 0x89 f) rfl (fun _ => ofM _ _ _ (fun _ => rfl))
theorem sld (f : FmtM) : Statement (.sld f) :=
  of_parse (encM 0x8A f) rfl (fun _ => ofM _ _ _ (fun _ => rfl))
theorem sst (f : FmtM) : Statement (.sst f) :=
  of_parse (encM 0x8B f) rfl (fun _ => ofM _ _ _ (fun _ => rfl))
theorem ldq (f : FmtM) : Statement (.ldq f) :=
  of_parse (encM 0x8C f) rfl (fun _ => ofM _ _ _ (fun _ => rfl))
theorem pfg (f : FmtM) : Statement (.pfg f) :=
  of_parse (encM 0x8D f) rfl (fun _ => ofM _ _ _ (fun _ => rfl))
theorem tld (f : FmtM) : Statement (.tld f) :=
  of_parse (encM 0x8E f) rfl (fun _ => ofM _ _ _ (fun _ => rfl))
theorem tst (f : FmtM) : Statement (.tst f) :=
  of_parse (encM 0x8F f) rfl (fun _ => ofM _ _ _ (fun _ => rfl))
theorem clean (f : FmtM) : Statement (.clean f) :=
  of_parse (encM 0x90 f) rfl (fun _ => ofM _ _ _ (fun _ => rfl))
theorem inval (f : FmtM) : Statement (.inval f) :=
  of_parse (encM 0x91 f) rfl (fun _ => ofM _ _ _ (fun _ => rfl))
theorem discard (f : FmtM) : Statement (.discard f) :=
  of_parse (encM 0x92 f) rfl (fun _ => ofM _ _ _ (fun _ => rfl))
theorem atom (f : FmtM) : Statement (.atom f) :=
  of_parse (encM 0x93 f) rfl (fun _ => ofM _ _ _ (fun _ => rfl))
theorem acas (f : FmtM) : Statement (.acas f) :=
  of_parse (encM 0x94 f) rfl (fun _ => ofM _ _ _ (fun _ => rfl))
theorem red (f : FmtM) : Statement (.red f) :=
  of_parse (encM 0x95 f) rfl (fun _ => ofM _ _ _ (fun _ => rfl))
theorem fence (f : FmtM) : Statement (.fence f) :=
  of_parse (encM 0x96 f) rfl (fun _ => ofM _ _ _ (fun _ => rfl))
theorem mfmt (f : FmtX) : Statement (.mfmt f) :=
  of_parse (encX 0xA0 f) rfl (fun _ => ofX _ _ _ (fun _ => rfl))
theorem mzero (f : FmtX) : Statement (.mzero f) :=
  of_parse (encX 0xA1 f) rfl (fun _ => ofX _ _ _ (fun _ => rfl))
theorem mma (f : FmtX) : Statement (.mma f) :=
  of_parse (encX 0xA2 f) rfl (fun _ => ofX _ _ _ (fun _ => rfl))
theorem mmat (f : FmtX) : Statement (.mmat f) :=
  of_parse (encX 0xA3 f) rfl (fun _ => ofX _ _ _ (fun _ => rfl))
theorem mld (f : FmtX) : Statement (.mld f) :=
  of_parse (encX 0xA4 f) rfl (fun _ => ofX _ _ _ (fun _ => rfl))
theorem mst (f : FmtX) : Statement (.mst f) :=
  of_parse (encX 0xA5 f) rfl (fun _ => ofX _ _ _ (fun _ => rfl))
theorem mcvt (f : FmtX) : Statement (.mcvt f) :=
  of_parse (encX 0xA6 f) rfl (fun _ => ofX _ _ _ (fun _ => rfl))
theorem mset (f : FmtX) : Statement (.mset f) :=
  of_parse (encX 0xA7 f) rfl (fun _ => ofX _ _ _ (fun _ => rfl))
theorem madd (f : FmtX) : Statement (.madd f) :=
  of_parse (encX 0xA8 f) rfl (fun _ => ofX _ _ _ (fun _ => rfl))
theorem mloop (f : FmtX) : Statement (.mloop f) :=
  of_parse (encX 0xA9 f) rfl (fun _ => ofX _ _ _ (fun _ => rfl))
theorem mbr (f : FmtX) : Statement (.mbr f) :=
  of_parse (encX 0xAA f) rfl (fun _ => ofX _ _ _ (fun _ => rfl))
theorem marr (f : FmtX) : Statement (.marr f) :=
  of_parse (encX 0xAB f) rfl (fun _ => ofX _ _ _ (fun _ => rfl))
theorem mwait (f : FmtX) : Statement (.mwait f) :=
  of_parse (encX 0xAC f) rfl (fun _ => ofX _ _ _ (fun _ => rfl))
theorem mhalt (f : FmtX) : Statement (.mhalt f) :=
  of_parse (encX 0xAD f) rfl (fun _ => ofX _ _ _ (fun _ => rfl))
theorem chdef (f : FmtE) : Statement (.chdef f) :=
  of_parse (encE 0xB0 f) rfl (fun _ => ofE _ _ _ (fun _ => rfl))
theorem chres (f : FmtE) : Statement (.chres f) :=
  of_parse (encE 0xB1 f) rfl (fun _ => ofE _ _ _ (fun _ => rfl))
theorem chcom (f : FmtE) : Statement (.chcom f) :=
  of_parse (encE 0xB2 f) rfl (fun _ => ofE _ _ _ (fun _ => rfl))
theorem chacq (f : FmtE) : Statement (.chacq f) :=
  of_parse (encE 0xB3 f) rfl (fun _ => ofE _ _ _ (fun _ => rfl))
theorem chrel (f : FmtE) : Statement (.chrel f) :=
  of_parse (encE 0xB4 f) rfl (fun _ => ofE _ _ _ (fun _ => rfl))
theorem chqry (f : FmtE) : Statement (.chqry f) :=
  of_parse (encE 0xB5 f) rfl (fun _ => ofE _ _ _ (fun _ => rfl))
theorem cpyin (f : FmtE) : Statement (.cpyin f) :=
  of_parse (encE 0xB6 f) rfl (fun _ => ofE _ _ _ (fun _ => rfl))
theorem cpyout (f : FmtE) : Statement (.cpyout f) :=
  of_parse (encE 0xB7 f) rfl (fun _ => ofE _ _ _ (fun _ => rfl))
theorem cpyg (f : FmtE) : Statement (.cpyg f) :=
  of_parse (encE 0xB8 f) rfl (fun _ => ofE _ _ _ (fun _ => rfl))
theorem idxwalk (f : FmtE) : Statement (.idxwalk f) :=
  of_parse (encE 0xB9 f) rfl (fun _ => ofE _ _ _ (fun _ => rfl))
theorem gather (f : FmtE) : Statement (.gather f) :=
  of_parse (encE 0xBA f) rfl (fun _ => ofE _ _ _ (fun _ => rfl))
theorem publish (f : FmtE) : Statement (.publish f) :=
  of_parse (encE 0xBB f) rfl (fun _ => ofE _ _ _ (fun _ => rfl))
theorem ecplDep (f : FmtE) : Statement (.ecplDep f) :=
  of_parse (encE 0xBC f) rfl (fun h => by
    have hf : f.fn = 0 := of_decide_eq_true (and_right (and_left (and_left (and_left (and_left (and_left (and_left h)))))))
    exact ofEfn0 _ _ .ecplDep .ecplArr (fun _ => rfl) hf)
theorem ecplArr (f : FmtE) : Statement (.ecplArr f) :=
  of_parse (encE 0xBC f) rfl (fun h => by
    have hf : f.fn = 1 := of_decide_eq_true (and_right (and_left (and_left (and_left (and_left (and_left (and_left h)))))))
    exact ofEfn1 _ _ .ecplDep .ecplArr (fun _ => rfl) hf)
theorem sqpush (f : FmtQ) : Statement (.sqpush f) :=
  of_parse (encQ 0xC0 f) rfl (fun _ => ofQ _ _ _ (fun _ => rfl))
theorem sqpop (f : FmtQ) : Statement (.sqpop f) :=
  of_parse (encQ 0xC1 f) rfl (fun _ => ofQ _ _ _ (fun _ => rfl))
theorem barr (f : FmtQ) : Statement (.barr f) :=
  of_parse (encQ 0xC2 f) rfl (fun _ => ofQ _ _ _ (fun _ => rfl))
theorem barw (f : FmtQ) : Statement (.barw f) :=
  of_parse (encQ 0xC3 f) rfl (fun _ => ofQ _ _ _ (fun _ => rfl))
theorem barrw (f : FmtQ) : Statement (.barrw f) :=
  of_parse (encQ 0xC4 f) rfl (fun _ => ofQ _ _ _ (fun _ => rfl))
theorem phbeg (f : FmtQ) : Statement (.phbeg f) :=
  of_parse (encQ 0xC5 f) rfl (fun _ => ofQ _ _ _ (fun _ => rfl))
theorem phwait (f : FmtQ) : Statement (.phwait f) :=
  of_parse (encQ 0xC6 f) rfl (fun _ => ofQ _ _ _ (fun _ => rfl))
theorem launch (f : FmtQ) : Statement (.launch f) :=
  of_parse (encQ 0xC7 f) rfl (fun _ => ofQ _ _ _ (fun _ => rfl))
theorem rsub (f : FmtQ) : Statement (.rsub f) :=
  of_parse (encQ 0xC8 f) rfl (fun _ => ofQ _ _ _ (fun _ => rfl))
theorem tsdep (f : FmtT) : Statement (.tsdep f) :=
  of_parse (encT 0xD0 f) rfl (fun _ => ofT _ _ _ (fun _ => rfl))
theorem tscpy (f : FmtT) : Statement (.tscpy f) :=
  of_parse (encT 0xD1 f) rfl (fun _ => ofT _ _ _ (fun _ => rfl))
theorem tstake (f : FmtT) : Statement (.tstake f) :=
  of_parse (encT 0xD2 f) rfl (fun _ => ofT _ _ _ (fun _ => rfl))
theorem tscpyn (f : FmtT) : Statement (.tscpyn f) :=
  of_parse (encT 0xD3 f) rfl (fun _ => ofT _ _ _ (fun _ => rfl))
theorem tstaken (f : FmtT) : Statement (.tstaken f) :=
  of_parse (encT 0xD4 f) rfl (fun _ => ofT _ _ _ (fun _ => rfl))
theorem tscan (f : FmtT) : Statement (.tscan f) :=
  of_parse (encT 0xD5 f) rfl (fun _ => ofT _ _ _ (fun _ => rfl))
theorem gtcfgSend (f : FmtGT) : Statement (.gtcfgSend f) :=
  of_parse (encGT 0xD8 f) rfl (fun h => by
    have hf : f.fn = 0 := fn_zero _ (gWord_fn (and_left (and_left (and_left (and_left h)))))
    exact ofGTfn0 _ _ .gtcfgSend .gtcfgDest (fun _ => rfl) hf)
theorem gtcfgDest (f : FmtGT) : Statement (.gtcfgDest f) :=
  of_parse (encGT 0xD8 f) rfl (fun h => by
    have hf : f.fn = 1 := fn_one _ (gWord_fn (and_left (and_left (and_left (and_left h)))))
    exact ofGTfn1 _ _ .gtcfgSend .gtcfgDest (fun _ => rfl) hf)
theorem gtrsv (f : FmtGT) : Statement (.gtrsv f) :=
  of_parse (encGT 0xD9 f) rfl (fun _ => ofGT _ _ _ (fun _ => rfl))
theorem gtsend (f : FmtGT) : Statement (.gtsend f) :=
  of_parse (encGT 0xDA f) rfl (fun _ => ofGT _ _ _ (fun _ => rfl))
theorem gtdrain (f : FmtGT) : Statement (.gtdrain f) :=
  of_parse (encGT 0xDB f) rfl (fun h => by
    have hf : f.fn = 0 := fn_zero _ (gWord_fn (and_left (and_left (and_left (and_left h)))))
    exact ofGTfn0 _ _ .gtdrain .gtdrainPhase (fun _ => rfl) hf)
theorem gtdrainPhase (f : FmtGT) : Statement (.gtdrainPhase f) :=
  of_parse (encGT 0xDB f) rfl (fun h => by
    have hf : f.fn = 1 := fn_one _ (gWord_fn (and_left (and_left (and_left (and_left (and_left h))))))
    exact ofGTfn1 _ _ .gtdrain .gtdrainPhase (fun _ => rfl) hf)
theorem gtrel (f : FmtGT) : Statement (.gtrel f) :=
  of_parse (encGT 0xDC f) rfl (fun _ => ofGT _ _ _ (fun _ => rfl))
theorem rbox (f : FmtG) : Statement (.rbox f) :=
  of_parse (encG 0xE0 f) rfl (fun _ => ofG _ _ _ (fun _ => rfl))
theorem rtri (f : FmtG) : Statement (.rtri f) :=
  of_parse (encG 0xE1 f) rfl (fun _ => ofG _ _ _ (fun _ => rfl))
theorem rpush (f : FmtG) : Statement (.rpush f) :=
  of_parse (encG 0xE2 f) rfl (fun _ => ofG _ _ _ (fun _ => rfl))
theorem rpop (f : FmtG) : Statement (.rpop f) :=
  of_parse (encG 0xE3 f) rfl (fun _ => ofG _ _ _ (fun _ => rfl))
theorem rhit (f : FmtG) : Statement (.rhit f) :=
  of_parse (encG 0xE4 f) rfl (fun _ => ofG _ _ _ (fun _ => rfl))
theorem afetch (f : FmtG) : Statement (.afetch f) :=
  of_parse (encG 0xE5 f) rfl (fun _ => ofG _ _ _ (fun _ => rfl))
theorem abary (f : FmtG) : Statement (.abary f) :=
  of_parse (encG 0xE6 f) rfl (fun _ => ofG _ _ _ (fun _ => rfl))
theorem ainterp (f : FmtG) : Statement (.ainterp f) :=
  of_parse (encG 0xE7 f) rfl (fun _ => ofG _ _ _ (fun _ => rfl))
theorem visld (f : FmtG) : Statement (.visld f) :=
  of_parse (encG 0xE8 f) rfl (fun _ => ofG _ _ _ (fun _ => rfl))
theorem smpl (f : FmtG) : Statement (.smpl f) :=
  of_parse (encG 0xE9 f) rfl (fun _ => ofG _ _ _ (fun _ => rfl))
theorem smpll (f : FmtG) : Statement (.smpll f) :=
  of_parse (encG 0xEA f) rfl (fun _ => ofG _ _ _ (fun _ => rfl))
theorem pxout (f : FmtG) : Statement (.pxout f) :=
  of_parse (encG 0xEB f) rfl (fun _ => ofG _ _ _ (fun _ => rfl))
theorem tret (f : FmtG) : Statement (.tret f) :=
  of_parse (encG 0xEC f) rfl (fun _ => ofG _ _ _ (fun _ => rfl))
theorem srd (f : FmtY) : Statement (.srd f) :=
  of_parse (encY 0xF0 f) rfl (fun _ => ofY _ _ _ (fun _ => rfl))
theorem swr (f : FmtY) : Statement (.swr f) :=
  of_parse (encY 0xF1 f) rfl (fun _ => ofY _ _ _ (fun _ => rfl))
theorem eret (f : FmtY) : Statement (.eret f) :=
  of_parse (encY 0xF2 f) rfl (fun _ => ofY _ _ _ (fun _ => rfl))
theorem brk (f : FmtY) : Statement (.brk f) :=
  of_parse (encY 0xF3 f) rfl (fun _ => ofY _ _ _ (fun _ => rfl))
theorem cntrd (f : FmtY) : Statement (.cntrd f) :=
  of_parse (encY 0xF4 f) rfl (fun _ => ofY _ _ _ (fun _ => rfl))
theorem cntcfg (f : FmtY) : Statement (.cntcfg f) :=
  of_parse (encY 0xF5 f) rfl (fun _ => ofY _ _ _ (fun _ => rfl))
theorem time (f : FmtY) : Statement (.time f) :=
  of_parse (encY 0xF6 f) rfl (fun _ => ofY _ _ _ (fun _ => rfl))
theorem isync (f : FmtY) : Statement (.isync f) :=
  of_parse (encY 0xF7 f) rfl (fun _ => ofY _ _ _ (fun _ => rfl))
theorem clauseFetch (a : Agent) : Statement (.clauseFetch a) := of_none rfl
theorem clauseWaitMet (a : Agent) : Statement (.clauseWaitMet a) := of_none rfl
theorem promotion (a : Agent) : Statement (.promotion a) := of_none rfl
theorem requestReturn (a : Agent) (p : Path) : Statement (.requestReturn a p) := of_none rfl
theorem pendingFaultDelivery (a : Agent) : Statement (.pendingFaultDelivery a) := of_none rfl
theorem poisonStop (a : Agent) : Statement (.poisonStop a) := of_none rfl
theorem launchQueueRefetch (q : Nat) : Statement (.launchQueueRefetch q) := of_none rfl
theorem launchRecordRead (q : Nat) : Statement (.launchRecordRead q) := of_none rfl
theorem launchActivation (l : Nat) : Statement (.launchActivation l) := of_none rfl
theorem placementDecision : Statement (.placementDecision) := of_none rfl
theorem launchCompletion (l : Nat) : Statement (.launchCompletion l) := of_none rfl
theorem vacateWaveStop (a : Agent) : Statement (.vacateWaveStop a) := of_none rfl
theorem teamSave (t : Nat) : Statement (.teamSave t) := of_none rfl
theorem vacateComplete : Statement (.vacateComplete) := of_none rfl
theorem droopEvent (core : Nat) : Statement (.droopEvent core) := of_none rfl
theorem droopWindowClose (meanPower : Nat) : Statement (.droopWindowClose meanPower) := of_none rfl
theorem tempSample (core : Nat) (reading : W16) : Statement (.tempSample core reading) := of_none rfl
theorem overtemp (die : Nat) : Statement (.overtemp die) := of_none rfl
theorem timeSliceExpiry : Statement (.timeSliceExpiry) := of_none rfl
theorem watchdog (a : Agent) : Statement (.watchdog a) := of_none rfl
theorem sleepWake (a : Agent) : Statement (.sleepWake a) := of_none rfl
theorem channelWaitServed (a : Agent) : Statement (.channelWaitServed a) := of_none rfl
theorem streamQueueWaitServed (a : Agent) : Statement (.streamQueueWaitServed a) := of_none rfl
theorem phaseComplete (t : Nat) : Statement (.phaseComplete t) := of_none rfl
theorem phaseWatchRegister (t : Nat) : Statement (.phaseWatchRegister t) := of_none rfl
theorem engineFire (c : Nat) : Statement (.engineFire c) := of_none rfl
theorem engineComplete (c : Nat) : Statement (.engineComplete c) := of_none rfl
theorem publishFlip (c : Nat) : Statement (.publishFlip c) := of_none rfl
theorem launchEnqueue (c : Nat) : Statement (.launchEnqueue c) := of_none rfl
theorem mmaFire (core : Nat) : Statement (.mmaFire core) := of_none rfl
theorem arrayWordEnd (core : Nat) : Statement (.arrayWordEnd core) := of_none rfl
theorem transferWordBegin (core : Nat) : Statement (.transferWordBegin core) := of_none rfl
theorem transferWordEnd (core : Nat) : Statement (.transferWordEnd core) := of_none rfl
theorem mfmtComplete (core fb : Nat) : Statement (.mfmtComplete core fb) := of_none rfl
theorem quarterGated (core q : Nat) : Statement (.quarterGated core q) := of_none rfl
theorem quarterAwake (core q : Nat) : Statement (.quarterAwake core q) := of_none rfl
theorem gtCheckAnswer (core : Nat) : Statement (.gtCheckAnswer core) := of_none rfl
theorem gtFlitArrival (f : Nat) : Statement (.gtFlitArrival f) := of_none rfl
theorem gtFlitAck (f : Nat) : Statement (.gtFlitAck f) := of_none rfl
theorem tupleDeposit (r : Nat) : Statement (.tupleDeposit r) := of_none rfl
theorem tupleMatch (r : Nat) : Statement (.tupleMatch r) := of_none rfl
theorem tupleRetry (r : Nat) : Statement (.tupleRetry r) := of_none rfl
theorem tupleCancel (r : Nat) : Statement (.tupleCancel r) := of_none rfl
theorem tupleTimeout (r : Nat) : Statement (.tupleTimeout r) := of_none rfl
theorem tsFull (r : Nat) : Statement (.tsFull r) := of_none rfl
theorem homeWrite (a : Agent) (rq i : Nat) : Statement (.homeWrite a rq i) := of_none rfl
theorem homeRead (a : Agent) (rq i : Nat) : Statement (.homeRead a rq i) := of_none rfl
theorem atomicAtHome (a : Agent) (rq i : Nat) : Statement (.atomicAtHome a rq i) := of_none rfl
theorem redContribution (a : Agent) (rq i : Nat) : Statement (.redContribution a rq i) := of_none rfl
theorem gddr7Fill (line : Nat) : Statement (.gddr7Fill line) := of_none rfl
theorem columnEviction (core line : Nat) : Statement (.columnEviction core line) := of_none rfl
theorem peerProbe (cluster line : Nat) : Statement (.peerProbe cluster line) := of_none rfl
theorem redirectedRead (cluster line : Nat) : Statement (.redirectedRead cluster line) := of_none rfl
theorem pageWalk (cluster : Nat) (va : W64) : Statement (.pageWalk cluster va) := of_none rfl
theorem hostWrite (pa : Nat) (data : List Byte) : Statement (.hostWrite pa data) := of_none rfl
theorem hostRead (pa n : Nat) : Statement (.hostRead pa n) := of_none rfl
theorem hostInvalidate (line : Nat) (data : List Byte) : Statement (.hostInvalidate line data) := of_none rfl
theorem rasterBatch (die : Nat) : Statement (.rasterBatch die) := of_none rfl
theorem frameClose (die : Nat) : Statement (.frameClose die) := of_none rfl
theorem classifyTile (die engine : Nat) : Statement (.classifyTile die engine) := of_none rfl
theorem binWaveClose (die material : Nat) : Statement (.binWaveClose die material) := of_none rfl
theorem binflushTimeout (die material : Nat) : Statement (.binflushTimeout die material) := of_none rfl
theorem tlbinv : Statement (.tlbinv) := of_none rfl
theorem tlbinvComplete : Statement (.tlbinvComplete) := of_none rfl
theorem vacate : Statement (.vacate) := of_none rfl
theorem tsclear : Statement (.tsclear) := of_none rfl
theorem wresume (core slot : Nat) (sc : CmdScope) : Statement (.wresume core slot sc) := of_none rfl
theorem wend (core slot : Nat) (sc : CmdScope) : Statement (.wend core slot sc) := of_none rfl
theorem dbghalt (core slot : Nat) (sc : CmdScope) : Statement (.dbghalt core slot sc) := of_none rfl
theorem dresume (core slot : Nat) (sc : CmdScope) : Statement (.dresume core slot sc) := of_none rfl
theorem ctxid (v : W64) : Statement (.ctxid v) := of_none rfl
theorem tslice (v : W64) : Statement (.tslice v) := of_none rfl
theorem trapq (reg : Nat) (v : W64) : Statement (.trapq reg v) := of_none rfl
theorem launchQueueEnable (q : Nat) (v : W64) : Statement (.launchQueueEnable q v) := of_none rfl
theorem bufferEntryWrite (b word : Nat) (v : W64) : Statement (.bufferEntryWrite b word v) := of_none rfl
theorem materialEntryWrite (m word : Nat) (v : W64) : Statement (.materialEntryWrite m word v) := of_none rfl
theorem registerWrite (off : Nat) (v : W64) : Statement (.registerWrite off v) := of_none rfl
theorem debugRead (st : PowerStore) (addr n : Nat) : Statement (.debugRead st addr n) := of_none rfl
theorem powerOnReset : Statement (.powerOnReset) := of_none rfl
theorem bootStage (failed : Option Byte) : Statement (.bootStage failed) := of_none rfl
theorem bootok (v : W64) : Statement (.bootok v) := of_none rfl
theorem bootokTimeout : Statement (.bootokTimeout) := of_none rfl
theorem fullretry : Statement (.fullretry) := of_none rfl
theorem bootstat : Statement (.bootstat) := of_none rfl
theorem attest (nonce : BitVec 256) : Statement (.attest nonce) := of_none rfl
theorem ckpt (target : Nat) : Statement (.ckpt target) := of_none rfl
theorem ckptComplete : Statement (.ckptComplete) := of_none rfl
theorem restore (source : Nat) : Statement (.restore source) := of_none rfl
theorem supplySet (die mv : Nat) : Statement (.supplySet die mv) := of_none rfl
theorem columnPowerState (st : PowerStore) (p : PowerState) : Statement (.columnPowerState st p) := of_none rfl
theorem debugSessionRelease (st : PowerStore) : Statement (.debugSessionRelease st) := of_none rfl
theorem debugRegisterWrite (a : Agent) (reg : Nat) (v : W64) : Statement (.debugRegisterWrite a reg v) := of_none rfl
theorem clusterCacheEviction (cluster line : Nat) : Statement (.clusterCacheEviction cluster line) := of_none rfl
theorem l2Eviction (line : Nat) : Statement (.l2Eviction line) := of_none rfl
theorem versionWordRetry (a : Agent) (rq : Nat) : Statement (.versionWordRetry a rq) := of_none rfl
theorem counterMirrorRefresh (core : Nat) : Statement (.counterMirrorRefresh core) := of_none rfl
theorem firmwareUpdate (image sig : List Byte) : Statement (.firmwareUpdate image signed) := of_none rfl
theorem lostCxlLink : Statement (.lostCxlLink) := of_none rfl
theorem linkFailure (die : Nat) (loop : Bool) : Statement (.linkFailure die loop) := of_none rfl

end Sys2Proof.Laws.Encoding
end

