-- ==== Sys2Proof/Laws/Regs.lean ====
section
/-! SUPPORT. The registers of a wave: what a read gives after each write, and what the end of a word leaves unchanged. -/

namespace Sys2Proof.Machine

/-! ### Single writes -/

@[simp] theorem Wave.writeS_v (w : Wave) (r : Nat) (x : W32) : (w.writeS r x).v = w.v := by unfold Wave.writeS; split <;> rfl
@[simp] theorem Wave.writeS_beats (w : Wave) (r : Nat) (x : W32) : (w.writeS r x).beats = w.beats := by
  unfold Wave.writeS; split <;> rfl
@[simp] theorem Wave.writeS_clause (w : Wave) (r : Nat) (x : W32) : (w.writeS r x).clause = w.clause := by
  unfold Wave.writeS; split <;> rfl
@[simp] theorem Wave.writeS_widx (w : Wave) (r : Nat) (x : W32) : (w.writeS r x).widx = w.widx := by
  unfold Wave.writeS; split <;> rfl
@[simp] theorem Wave.writeS_pc (w : Wave) (r : Nat) (x : W32) : (w.writeS r x).pc = w.pc := by
  unfold Wave.writeS; split <;> rfl
@[simp] theorem Wave.writeV_s (w : Wave) (n l : Nat) (x : W32) : (w.writeV n l x).s = w.s := rfl
@[simp] theorem Wave.writeV_beats (w : Wave) (n l : Nat) (x : W32) : (w.writeV n l x).beats = w.beats := rfl
@[simp] theorem Wave.writeV_clause (w : Wave) (n l : Nat) (x : W32) : (w.writeV n l x).clause = w.clause := rfl
@[simp] theorem Wave.writeV_widx (w : Wave) (n l : Nat) (x : W32) : (w.writeV n l x).widx = w.widx := rfl
@[simp] theorem Wave.writeV_pc (w : Wave) (n l : Nat) (x : W32) : (w.writeV n l x).pc = w.pc := rfl

theorem clobber_bare (reqs : List Req) (hit : Req → Bool) (key : Nat) :
    (clobber reqs hit key).map (fun q => { q with clob := [] }) = reqs.map (fun q => { q with clob := [] }) := by
  unfold clobber
  rw [List.map_map]
  refine List.map_congr_left fun q _ => ?_
  simp only [Function.comp]; split <;> rfl

@[simp] theorem Wave.writeS_bare (w : Wave) (r : Nat) (x : W32) : (w.writeS r x).bare = w.bare := by
  unfold Wave.writeS; split
  · rfl
  · unfold Wave.putS Wave.bare; simp only [clobber_bare]
@[simp] theorem Wave.writeV_bare (w : Wave) (n l : Nat) (x : W32) : (w.writeV n l x).bare = w.bare := by
  unfold Wave.writeV Wave.putV Wave.bare; simp only [clobber_bare]

theorem Wave.writeS_wins (w : Wave) (r : Nat) (x : W32) (h : w.wins = []) : (w.writeS r x).wins = [] := by
  unfold Wave.writeS; split
  · exact h
  · simp [h]
theorem Wave.writeV_wins (w : Wave) (n l : Nat) (x : W32) (h : w.wins = []) : (w.writeV n l x).wins = [] := by
  unfold Wave.writeV; simp [h]

@[simp] theorem Wave.discards_writeS (w : Wave) (r q : Nat) (x : W32) : (w.writeS r x).discards q = w.discards q := by
  unfold Wave.discards; simp
/-- Reading a scalar register after writing one. -/
theorem Wave.rawS_writeS (w : Wave) (r q : Nat) (x : W32) :
    (w.writeS r x).rawS q = if q = r ∧ w.discards r = false then x else w.rawS q := by
  by_cases hd : w.discards r = true
  · simp [Wave.writeS, hd]
  · simp only [Bool.not_eq_true] at hd
    have hb : (w.writeS r x).beats = w.beats := Wave.writeS_beats w r x
    unfold Wave.rawS
    rw [hb]
    have hs : (w.writeS r x).s = Tbl.put w.s r 0 x := by simp [Wave.writeS, Wave.putS, hd]
    rw [hs, Tbl.getD_put]
    by_cases hq : q = r
    · subst hq
      simp only [Wave.discards, Bool.or_eq_false_iff, Bool.and_eq_false_iff, decide_eq_false_iff_not] at hd
      have h1 : q ≠ 127 := by omega
      have h2 : ¬(120 ≤ q ∧ q ≤ 122 ∧ w.beats ≤ q - 120) := by omega
      simp [h1, h2, Wave.discards]
      intro h; simp_all; omega
    · simp [hq]
@[simp] theorem Wave.rawS_writeV (w : Wave) (n l q : Nat) (x : W32) : (w.writeV n l x).rawS q = w.rawS q := rfl
@[simp] theorem Wave.rawV_writeS (w : Wave) (r n l : Nat) (x : W32) : (w.writeS r x).rawV n l = w.rawV n l := by
  unfold Wave.rawV; simp
/-- Reading a lane of a vector register after writing one. -/
theorem Wave.rawV_writeV (w : Wave) (n l m j : Nat) (x : W32) (hl : l < 128) (hj : j < 128) :
    (w.writeV n l x).rawV m j = if m = n ∧ j = l then x else w.rawV m j := by
  unfold Wave.rawV
  show Tbl.getD (Tbl.put w.v (128 * n + l) 0 x) (128 * m + j) 0 = _
  rw [Tbl.getD_put]
  by_cases h : m = n ∧ j = l
  · obtain ⟨rfl, rfl⟩ := h; simp
  · rw [if_neg h, if_neg]; omega

/-! ### Lists of writes -/

@[simp] theorem Wave.writeSs_nil (w : Wave) : w.writeSs [] = w := rfl
@[simp] theorem Wave.writeVs_nil (w : Wave) : w.writeVs [] = w := rfl
theorem Wave.writeSs_cons (w : Wave) (a : Nat × W32) (l : List (Nat × W32)) : w.writeSs (a :: l) = (w.writeS a.1 a.2).writeSs l := rfl
theorem Wave.writeVs_cons (w : Wave) (a : Nat × Nat × W32) (l : List (Nat × Nat × W32)) :
    w.writeVs (a :: l) = (w.writeV a.1 a.2.1 a.2.2).writeVs l := rfl

/-- What a list of scalar writes leaves alone. -/
structure Wave.SameButS (w w' : Wave) : Prop where
  bare : w'.bare = w.bare
  v : w'.v = w.v
  beats : w'.beats = w.beats
  clause : w'.clause = w.clause
  widx : w'.widx = w.widx
  pc : w'.pc = w.pc
  wins : w.wins = [] → w'.wins = []

theorem Wave.writeSs_same (ss : List (Nat × W32)) (w : Wave) : w.SameButS (w.writeSs ss) := by
  induction ss generalizing w with
  | nil => exact ⟨rfl, rfl, rfl, rfl, rfl, rfl, id⟩
  | cons a l ih =>
    have h := ih (w.writeS a.1 a.2)
    rw [Wave.writeSs_cons]
    exact ⟨by simp [h.bare], by simp [h.v], by simp [h.beats], by simp [h.clause], by simp [h.widx], by simp [h.pc],
      fun e => h.wins (w.writeS_wins _ _ e)⟩

/-- What a list of vector writes leaves alone. -/
structure Wave.SameButV (w w' : Wave) : Prop where
  bare : w'.bare = w.bare
  s : w'.s = w.s
  beats : w'.beats = w.beats
  clause : w'.clause = w.clause
  widx : w'.widx = w.widx
  pc : w'.pc = w.pc
  wins : w.wins = [] → w'.wins = []

theorem Wave.writeVs_same (vs : List (Nat × Nat × W32)) (w : Wave) : w.SameButV (w.writeVs vs) := by
  induction vs generalizing w with
  | nil => exact ⟨rfl, rfl, rfl, rfl, rfl, rfl, id⟩
  | cons a l ih =>
    have h := ih (w.writeV a.1 a.2.1 a.2.2)
    rw [Wave.writeVs_cons]
    exact ⟨by simp [h.bare], by simp [h.s], by simp [h.beats], by simp [h.clause], by simp [h.widx], by simp [h.pc],
      fun e => h.wins (w.writeV_wins _ _ _ e)⟩

theorem Wave.sAfter_cons (w : Wave) (a : Nat × W32) (l : List (Nat × W32)) (r : Nat) :
    w.sAfter (a :: l) r = (w.writeS a.1 a.2).sAfter l r := by
  unfold Wave.sAfter
  rw [List.reverse_cons, List.find?_append]
  simp only [Wave.discards_writeS]
  cases List.find? (fun x => x.1 == r && !w.discards r) l.reverse with
  | some x => rfl
  | none =>
    simp only [Option.none_or, List.find?_cons, List.find?_nil]
    rw [Wave.rawS_writeS]
    by_cases hr : r = a.1
    · subst hr; cases hd : w.discards a.1 <;> simp
    · have : (a.1 == r) = false := by simpa [beq_eq_false_iff_ne] using Ne.symm hr
      simp [this, hr]

/-- Reading a scalar register after a list of writes. -/
theorem Wave.rawS_writeSs (ss : List (Nat × W32)) (w : Wave) (r : Nat) : (w.writeSs ss).rawS r = w.sAfter ss r := by
  induction ss generalizing w with
  | nil => rfl
  | cons a l ih => rw [Wave.writeSs_cons, ih, Wave.sAfter_cons]

theorem Wave.vAfter_cons (w : Wave) (a : Nat × Nat × W32) (l : List (Nat × Nat × W32)) (n j : Nat) (ha : a.2.1 < 128)
    (hj : j < 128) : w.vAfter (a :: l) n j = (w.writeV a.1 a.2.1 a.2.2).vAfter l n j := by
  unfold Wave.vAfter
  rw [List.reverse_cons, List.find?_append]
  cases List.find? (fun x => x.1 == n && x.2.1 == j) l.reverse with
  | some x => rfl
  | none =>
    simp only [Option.none_or, List.find?_cons, List.find?_nil]
    rw [Wave.rawV_writeV _ _ _ _ _ _ ha hj]
    by_cases h : n = a.1 ∧ j = a.2.1
    · obtain ⟨rfl, rfl⟩ := h; simp
    · rw [if_neg h]
      have : (a.1 == n && a.2.1 == j) = false := by
        rw [Bool.and_eq_false_iff, beq_eq_false_iff_ne, beq_eq_false_iff_ne]; by_contra hc; push Not at hc
        exact h ⟨hc.1.symm, hc.2.symm⟩
      simp [this]

/-- Reading a lane after a list of writes, all of them to lanes. -/
theorem Wave.rawV_writeVs (vs : List (Nat × Nat × W32)) (w : Wave) (n j : Nat) (hv : ∀ x ∈ vs, x.2.1 < 128) (hj : j < 128) :
    (w.writeVs vs).rawV n j = w.vAfter vs n j := by
  induction vs generalizing w with
  | nil => rfl
  | cons a l ih =>
    rw [Wave.writeVs_cons, ih _ (fun x hx => hv x (List.mem_cons_of_mem _ hx)),
      Wave.vAfter_cons w a l n j (hv a List.mem_cons_self) hj]

/-- An active lane lies below 96. -/
theorem Wave.lanes_lt {w : Wave} {l : Nat} (h : l ∈ w.lanes) : l < 96 := by
  unfold Wave.lanes at h
  have := (List.mem_filter.1 h).2
  unfold Wave.active at this
  by_contra hc
  rw [BitVec.getLsbD_of_ge _ _ (by omega)] at this
  exact Bool.noConfusion this

/-! ### The end of a word -/

theorem Wave.closeWins_of_none {w : Wave} (h : w.wins = []) : w.closeWins = w := by
  unfold Wave.closeWins; rw [h]; cases w; simp_all
theorem Wave.tickWins_of_none {w : Wave} (h : w.wins = []) : w.tickWins = w := by
  unfold Wave.tickWins; rw [h]; cases w; simp_all [splitWins]

@[simp] theorem Wave.goTo_bare (w : Wave) (h : W64) (hw : w.wins = []) : (w.goTo h).bare = w.bare := by
  unfold Wave.goTo; rw [Wave.closeWins_of_none hw]; rfl
/-- The three ways a word ends in a wave without open windows. -/
theorem Wave.done_cases (w : Wave) (hw : w.wins = []) :
    (w.clause = none ∧ w.done = w)
      ∨ (∃ c, w.clause = some c ∧ w.widx + 1 < c.words.length ∧ w.done = { w with widx := w.widx + 1, block := .none })
      ∨ (∃ c, w.clause = some c ∧ ¬ w.widx + 1 < c.words.length ∧ w.done = w.goTo w.fallAddr) := by
  cases hc : w.clause with
  | none => exact .inl ⟨rfl, by simp [Wave.done, Wave.tickWins_of_none hw, hc]⟩
  | some c =>
    refine .inr ?_
    by_cases h : w.widx + 1 < c.words.length
    · exact .inl ⟨c, rfl, h, by simp [Wave.done, Wave.tickWins_of_none hw, hc, h]⟩
    · exact .inr ⟨c, rfl, h, by simp [Wave.done, Wave.tickWins_of_none hw, hc, h]⟩
theorem Wave.done_bare (w : Wave) (hw : w.wins = []) : w.done.bare = w.bare := by
  rcases w.done_cases hw with ⟨-, h⟩ | ⟨c, -, -, h⟩ | ⟨c, -, -, h⟩ <;> rw [h]
  · rfl
  · exact w.goTo_bare _ hw
theorem Wave.done_s (w : Wave) (hw : w.wins = []) : w.done.s = w.s := by
  rcases w.done_cases hw with ⟨-, h⟩ | ⟨c, -, -, h⟩ | ⟨c, -, -, h⟩ <;> rw [h]
  · unfold Wave.goTo; rw [Wave.closeWins_of_none hw]
theorem Wave.done_v (w : Wave) (hw : w.wins = []) : w.done.v = w.v := by
  rcases w.done_cases hw with ⟨-, h⟩ | ⟨c, -, -, h⟩ | ⟨c, -, -, h⟩ <;> rw [h]
  · unfold Wave.goTo; rw [Wave.closeWins_of_none hw]
theorem Wave.done_beats (w : Wave) (hw : w.wins = []) : w.done.beats = w.beats := by
  have := congrArg Wave.beats (w.done_bare hw); exact this
/-- Where a wave goes on depends on where it stands alone. -/
theorem Wave.done_spot_congr (w w' : Wave) (hw : w.wins = []) (hw' : w'.wins = []) (hc : w'.clause = w.clause)
    (hi : w'.widx = w.widx) (hp : w'.pc = w.pc) : w'.done.spot = w.done.spot := by
  cases hcl : w.clause with
  | none => simp [Wave.done, Wave.tickWins_of_none hw, Wave.tickWins_of_none hw', hc, hcl, Wave.spot, hi, hp]
  | some c =>
    by_cases h : w.widx + 1 < c.words.length
    · simp [Wave.done, Wave.tickWins_of_none hw, Wave.tickWins_of_none hw', hc, hcl, Wave.spot, hi, hp, h]
    · simp [Wave.done, Wave.tickWins_of_none hw, Wave.tickWins_of_none hw', hc, hcl, Wave.spot, hi, h, Wave.goTo,
        Wave.fallAddr]

/-- The writes of a word and its end: what the statements about words rest on. -/
theorem Wave.wrote_done (s : State) (c k : Nat) (w : Wave) (ss : List (Nat × W32)) (vs : List (Nat × Nat × W32))
    (hw : w.wins = []) (hv : ∀ x ∈ vs, x.2.1 < 128) :
    WaveWrote s (s.setWave c k ((w.writeVs vs).writeSs ss).done) c k w ss vs w.done.spot := by
  have hV := Wave.writeVs_same vs w
  have hS := Wave.writeSs_same ss (w.writeVs vs)
  have h1 : (w.writeVs vs).wins = [] := hV.wins hw
  have h2 : ((w.writeVs vs).writeSs ss).wins = [] := hS.wins h1
  refine ⟨_, rfl, ?_, ?_, ?_, ?_⟩
  · rw [Wave.done_bare _ h2, hS.bare, hV.bare]
  · exact Wave.done_spot_congr _ _ hw h2 (by rw [hS.clause, hV.clause]) (by rw [hS.widx, hV.widx]) (by rw [hS.pc, hV.pc])
  · intro r
    have : ((w.writeVs vs).writeSs ss).done.rawS r = ((w.writeVs vs).writeSs ss).rawS r := by
      unfold Wave.rawS; rw [Wave.done_s _ h2, Wave.done_beats _ h2]
    rw [this, Wave.rawS_writeSs]
    unfold Wave.sAfter Wave.discards Wave.rawS
    rw [hV.beats, hV.s]
  · intro n l hl
    have : ((w.writeVs vs).writeSs ss).done.rawV n l = (w.writeVs vs).rawV n l := by
      unfold Wave.rawV; rw [Wave.done_v _ h2, hS.v]
    rw [this, Wave.rawV_writeVs _ _ _ _ hv (by omega)]

end Sys2Proof.Machine
end

