-- ==== Sys2Proof/Laws/Words.lean ====
section
/-! SUPPORT. What the shapes of the words answer. -/

namespace Sys2Proof.Machine

theorem withWave_eq {s : State} {c k : Nat} {w : Wave} (h : s.runs c k w) (f : Nat → Nat → Wave → State) :
    withWave s f = .next (f c k w) := by
  unfold withWave; rw [h.1]; simp only [h.2]
theorem withStream_eq {s : State} {c : Nat} {m : Stream} (h : s.runsStream c m) (f : Nat → Stream → State) :
    withStream s f = .next (f c m) := by
  unfold withStream; rw [h.1]; simp only [h.2]
theorem sysWord_eq {s : State} {c k : Nat} {w : Wave} (h : s.runs c k w) {i : Instr} (hi : i.wf = true)
    (f : Nat → Nat → Wave → State) : sysWord i s f = .next (f c k w) := by
  unfold sysWord; rw [withWave_eq h]; simp [hi]
theorem sysWord_illegal {s : State} {c k : Nat} {w : Wave} (h : s.runs c k w) {i : Instr} (hi : i.wf = false)
    (f : Nat → Nat → Wave → State) : sysWord i s f = .next (s.trapAt c k w w.illegal) := by
  unfold sysWord; rw [withWave_eq h]; simp [hi]
theorem seqWord_eq {s : State} {c : Nat} {m : Stream} (h : s.runsStream c m) {i : Instr} (hi : i.wf = true)
    (f : Nat → Stream → State) : seqWord i s f = .next (f c m) := by
  unfold seqWord; rw [withStream_eq h]; simp [hi]
theorem seqWord_illegal {s : State} {c : Nat} {m : Stream} (h : s.runsStream c m) {i : Instr} (hi : i.wf = false)
    (f : Nat → Stream → State) : seqWord i s f = .next (s.streamTrap c m 0x01 0 0) := by
  unfold seqWord; rw [withStream_eq h]; simp [hi]
theorem aluWord_ok {s : State} {c k : Nat} {w w' : Wave} (h : s.runs c k w) {i : Instr} (hi : i.wf = true)
    {run : Wave → Except Trap Wave} (hr : run w = .ok w') : aluWord i s run = .next (s.setWave c k w'.done) := by
  unfold aluWord; rw [withWave_eq h]; simp [hi, hr]
theorem aluWord_trap {s : State} {c k : Nat} {w : Wave} (h : s.runs c k w) {i : Instr} (hi : i.wf = true)
    {run : Wave → Except Trap Wave} {t : Trap} (hr : run w = .error t) : aluWord i s run = .next (s.trapAt c k w t) := by
  unfold aluWord; rw [withWave_eq h]; simp [hi, hr]
theorem aluWord_illegal {s : State} {c k : Nat} {w : Wave} (h : s.runs c k w) {i : Instr} (hi : i.wf = false)
    (run : Wave → Except Trap Wave) : aluWord i s run = .next (s.trapAt c k w w.illegal) := by
  unfold aluWord; rw [withWave_eq h]; simp [hi]
theorem ctlWord_ok {s : State} {c k : Nat} {w w' : Wave} (h : s.runs c k w) {i : Instr} (hi : i.wf = true)
    {run : Wave → Except Trap Wave} (hr : run w = .ok w') : ctlWord i s run = .next (s.setWave c k w') := by
  unfold ctlWord; rw [withWave_eq h]; simp [hi, hr]
theorem ctlWord_trap {s : State} {c k : Nat} {w : Wave} (h : s.runs c k w) {i : Instr} (hi : i.wf = true)
    {run : Wave → Except Trap Wave} {t : Trap} (hr : run w = .error t) : ctlWord i s run = .next (s.trapAt c k w t) := by
  unfold ctlWord; rw [withWave_eq h]; simp [hi, hr]
theorem ctlWord_illegal {s : State} {c k : Nat} {w : Wave} (h : s.runs c k w) {i : Instr} (hi : i.wf = false)
    (run : Wave → Except Trap Wave) : ctlWord i s run = .next (s.trapAt c k w w.illegal) := by
  unfold ctlWord; rw [withWave_eq h]; simp [hi]

/-- A control word of a well-formed instruction, in one equation. -/
theorem ctlWord_eq {s : State} {c k : Nat} {w : Wave} (h : s.runs c k w) {i : Instr} (hi : i.wf = true) (run : Wave → Except Trap Wave) :
    ctlWord i s run = .next (match run w with | .ok w' => s.setWave c k w' | .error t => s.trapAt c k w t) := by
  unfold ctlWord; rw [withWave_eq h]; simp only [hi]; cases run w <;> rfl
theorem aluWord_eq {s : State} {c k : Nat} {w : Wave} (h : s.runs c k w) {i : Instr} (hi : i.wf = true) (run : Wave → Except Trap Wave) :
    aluWord i s run = .next (match run w with | .ok w' => s.setWave c k w'.done | .error t => s.trapAt c k w t) := by
  unfold aluWord; rw [withWave_eq h]; simp only [hi]; cases run w <;> rfl

/-- A transfer after scalar writes. -/
theorem Wave.wrote_transfer (s : State) (c k : Nat) (w : Wave) (ss : List (Nat × W32)) (h : W64) (hw : w.wins = []) :
    WaveWrote s (s.setWave c k (transfer (w.writeSs ss) h)) c k w ss [] (h, none, 0) := by
  have hS := Wave.writeSs_same ss w
  have h2 : (w.writeSs ss).wins = [] := hS.wins hw
  refine ⟨_, rfl, ?_, ?_, ?_, ?_⟩
  · unfold transfer; rw [Wave.tickWins_of_none h2, Wave.goTo_bare _ _ h2, hS.bare]
  · unfold transfer; rfl
  · intro r
    rw [← Wave.rawS_writeSs]
    unfold transfer; rw [Wave.tickWins_of_none h2]; unfold Wave.goTo; rw [Wave.closeWins_of_none h2]; rfl
  · intro n l _
    unfold transfer; rw [Wave.tickWins_of_none h2]; unfold Wave.goTo; rw [Wave.closeWins_of_none h2]
    show (w.writeSs ss).rawV n l = _
    unfold Wave.rawV; rw [hS.v]; rfl

/-- A word on registers alone that makes the writes `vs`, then `ss`, ends so. -/
theorem ends_of_alu {i : Instr} {s : State} {c k : Nat} {w w' : Wave} (h : s.runs c k w) (hw : w.wins = []) (hi : i.wf = true)
    {run : Wave → Except Trap Wave} (he : exec i s = aluWord i s run) (hr : run w = .ok w') {ss : List (Nat × W32)}
    {vs : List (Nat × Nat × W32)} (hv : ∀ x ∈ vs, x.2.1 < 128) (hw' : w' = (w.writeVs vs).writeSs ss) : Ends i s c k w ss vs :=
  ⟨_, by rw [he, aluWord_ok h hi hr, hw'], Wave.wrote_done s c k w ss vs hw hv⟩

theorem Wave.each_lanes (w : Wave) (d : Nat) (g : Nat → W32) : ∀ x ∈ w.each d g, x.2.1 < 128 := by
  intro x hx
  obtain ⟨l, hl, rfl⟩ := List.mem_map.1 hx
  have := Wave.lanes_lt hl
  show l < 128; omega
theorem Wave.each64_lanes (w : Wave) (d : Nat) (g : Nat → W64) : ∀ x ∈ w.each64 d g, x.2.1 < 128 := by
  intro x hx
  obtain ⟨l, hl, hx⟩ := List.mem_flatMap.1 hx
  have := Wave.lanes_lt hl
  simp at hx
  rcases hx with rfl | rfl <;> (show l < 128; omega)

end Sys2Proof.Machine
end

