-- ==== Sys2Proof/Machine/Image.lean ====
section
/-! DEFINITION. The byte images of a context slot, a team slot and a core-state area (R458, R459): a view of a saved team.
The spec names no register that holds where system software has put them, so the machine stores the team once, as
`State.saved`, and these images are computed from it. The places of fields inside headers, records and the stream area, and the
numbers of the context slots, are the model's (DESIGN CHOICE, log entries 123, 124). -/

namespace Sys2Proof.Machine

/-- The bytes of a divergence-stack entry (R142). -/
def DEntry.image (e : DEntry) : List Byte :=
  bytesOf 12 e.mask.toNat ++ bytesOf 4 (e.woff.toNat + (if e.pending then 2 ^ 31 else 0))

/-- The bytes of TREF0–TREF7 (R242, R458): VALID is bit 16. -/
def Wave.trefImage (w : Wave) : List Byte :=
  (List.range 8).flatMap (fun i => bytesOf 4 (match Tbl.get? w.tref i with | some t => 2 ^ 16 + t % 2 ^ 16 | none => 0))

/-- The bytes of an ECPL record (R458): the flags, the space address and the captured tuple. -/
def Ecpl.image (e : Ecpl) : List Byte :=
  bytesOf 8 (1 + (if e.arr then 2 else 0) + (if e.stream then 4 else 0)) ++ bytesOf 8 e.space.toNat
    ++ (List.range 8).flatMap (fun i => bytesOf 8 (e.tuple.getD i 0).toNat)
def Wave.ecplImage (w : Wave) : List Byte := match w.ecpl with | none => List.replicate 80 0 | some e => e.image
/-- How a record names an agent: its slot, or 0xFF for the stream, and above it the core it left. -/
def agentCode (a : Agent) : Nat := match a with | .wave c k => k + 256 * c | .stream c => 0xFF + 256 * c

/-- The flags word at 0x428 (R458). -/
def Wave.saveFlags (w : Wave) : Nat :=
  w.dstack.length + bitAt w.stopped 8 + bitAt w.trapPending 9 + bitAt w.dbg 10 + bitAt w.dbgReq 11

/-- The image of a saved wave (R458); a stopped one carries ESTAT.STOPPED (R437). -/
def Wave.image (w : Wave) : List Byte :=
  let stack := w.dstack.reverse
  let lanes := 32 * w.beats
  padBytes 0x800
    ((List.range 128).flatMap (fun r => bytesOf 4 (w.rawS r).toNat)
      ++ (List.range 32).flatMap (fun i => match stack[i]? with | some e => e.image | none => List.replicate 16 0)
      ++ bytesOf 8 w.hdrAddr.toNat ++ bytesOf 8 w.epc.toNat ++ bytesOf 8 w.eaddr.toNat
      ++ bytesOf 4 w.ecause.toNat ++ bytesOf 4 (if w.stopped then estatSet w.estat 19 else w.estat).toNat ++ bytesOf 4 w.wstat.toNat ++ bytesOf 4 w.fpcompat.toNat
      ++ bytesOf 4 w.saveFlags ++ bytesOf 4 w.acktag.toNat ++ bytesOf 12 w.hmask.toNat ++ bytesOf 12 w.hit.toNat
      ++ w.trefImage ++ w.ecplImage
      ++ (match w.pend with
          | some p => bytesOf 4 p.cause.toNat ++ bytesOf 4 p.estat.toNat ++ bytesOf 8 p.eaddr.toNat
          | none => List.replicate 16 0))
    ++ (List.range (lanes * w.vregs)).flatMap (fun i => bytesOf 4 (w.rawV (i / lanes) (i % lanes)).toNat)
    ++ (List.range (lanes * w.lanePriv)).map (fun i => Mem.read w.lp (lpKey (i / w.lanePriv) (i % w.lanePriv)))

/-- The entries of a stream queue in a team slot (R459): entry e at 384 e, e being the entry's number modulo 8. -/
def SQueue.image (q : SQueue) : List Byte :=
  (List.range 8).flatMap (fun e =>
    match q.entries[(e + 8 - q.head % 8) % 8]? with
    | some x => (List.range 96).flatMap (fun l => bytesOf 4 (Tbl.getD x.data l 0).toNat)
    | none => List.replicate 384 0)

/-- The COMMITTED and RELEASED bits of a channel in a team slot (R459). -/
def Chan.bitsImage (c : Chan) : List Byte :=
  let bits := fun (l : List Nat) =>
    (List.range 512).map (fun i => BitVec.ofNat 8 (((List.range 8).map (fun b => bitAt (decide (8 * i + b ∈ l.map (· % 4096))) b)).sum))
  bits c.committed ++ bits c.released

/-- A list of numbers, four bytes each. -/
def words32 (l : List Nat) : List Byte := l.flatMap (bytesOf 4)

/-- The values a command's word captured, for its record. -/
def CopyDesc.words (d : CopyDesc) : List Nat :=
  [d.addr.toNat, d.addr.toNat / 2 ^ 32, d.addr2.toNat, d.addr2.toNat / 2 ^ 32, d.step, d.step2, d.stride, d.stride2, d.rowBytes, d.rows,
    d.srowBytes, d.srows, d.conv, d.fmtc]
def CmdKind.words (k : CmdKind) : List Nat :=
  match k with
  | .cpyin d layb => [0, bitAt layb 0] ++ d.words
  | .cpyout d => [1, 0] ++ d.words
  | .cpyg d => [2, 0] ++ d.words
  | .idxwalk d => [3, 0, d.ptr.toNat, d.ptr.toNat / 2 ^ 32, d.idx.toNat, d.idx.toNat / 2 ^ 32, d.count, d.form, d.parts, d.part]
  | .gather d keep col => [4, bitAt keep 0 + bitAt col 1, d.table.toNat, d.table.toNat / 2 ^ 32, d.stride, d.rowBytes]
  | .publish b _ => [5, b]
  | .launch q va sd => [6, q, va.toNat, va.toNat / 2 ^ 32, sd]
  | .rsub desc die close => [7, die + bitAt close 8, desc.toNat, desc.toNat / 2 ^ 32]
/-- The record of a command in a team slot, 96 bytes (R459): the issuing wave, the address of its word, its channels and count, what the
word captured, and, for a LAUNCH, its sequence number with 1 above it. The places of the fields are the model's. -/
def Cmd.image (c : Cmd) : List Byte :=
  padBytes 96 (words32 [agentCode c.agent] ++ bytesOf 8 c.word.toNat
    ++ words32 [c.ch + 256 * c.ch2, c.n, match c.seqno with | some q => q | none => 0, bitAt c.seqno.isSome 0] ++ words32 c.kind.words)

/-- A team slot (R459): the stream queues, the channels' bits, and from 40,960 the records of the commands. -/
def Saved.teamSlot (x : Saved) : List Byte :=
  padBytes 163840 ((List.range 8).flatMap (fun n => match Tbl.get? x.team.sq n with | some q => q.image | none => List.replicate 3072 0)
    ++ (List.range 16).flatMap (fun n => match Tbl.get? x.team.ch n with | some c => c.bitsImage | none => List.replicate 1024 0)
    ++ x.cmds.flatMap (fun r => r.2.image))
/-- The row slots of a saved team on one of its cores (R459): the rows of its channels there, in order of the channels. -/
def Saved.rowSlots (x : Saved) (pos : Nat) : List Byte :=
  x.rows.flatMap (fun r =>
    match Tbl.get? x.team.ch r.1 with
    | some c =>
      if (if c.back = 2 then 1 else 0) = pos then
        (List.range (c.cap * rowsOf c.esize * 2048)).map (fun i => Mem.read r.2 i) else []
    | none => [])

/-- The members of a team as a barrier names them: its waves by position, then the streams of its two cores. -/
def barrierMembers : List Nat := List.range 32 ++ [40, 41]
/-- The state of a barrier in a header, 80 bytes (R465): GEN, ARRIVED, MEMBERS, LAST of each member, 0xFFFF before its first arrival,
and a bit EARLY for each. -/
def Barrier.image (b : Barrier) : List Byte :=
  padBytes 80 ([b.gen, b.arrived, b.members].flatMap (bytesOf 2)
    ++ barrierMembers.flatMap (fun n => bytesOf 2 (match Tbl.get? b.mem n with | some m => if m.ever then m.last else 0xFFFF | none => 0xFFFF))
    ++ bytesOf 5 ((List.range 34).map (fun i => match Tbl.get? b.mem (barrierMembers.getD i 0) with | some m => bitAt m.early i | none => 0)).sum)
/-- The phase state in the header of the team on a core, 16 bytes (R472): PHN, OPEN, LVL, BROKEN, and the core's CGT, CEN and CTS. -/
def Phase.image (p : Phase) (pos : Nat) : List Byte :=
  padBytes 16 (bytesOf 2 p.phn ++ bytesOf 2 (bitAt p.opened 0 + 2 * p.lvl + bitAt p.broken 3) ++ bytesOf 4 (Tbl.getD p.cgt pos 0)
    ++ bytesOf 2 (Tbl.getD p.cen pos 0) ++ bytesOf 2 (if pos = 0 then p.cts else 0))
/-- The state of a channel in a header, 32 bytes (R459). -/
def Chan.image (c : Chan) : List Byte :=
  words32 [c.base, c.esize, c.cap + c.back * 2 ^ 16 + bitAt c.defd 24, c.row0, c.res.toNat, c.com.toNat, c.acq.toNat, c.rel.toNat]
/-- A team header, 2 KiB (R459): its fields in the spec's order, at places of the model's own. -/
def Saved.header (x : Saved) (pos slot : Nat) : List Byte :=
  padBytes 2048 (words32 [x.team.launchId.toNat, x.team.index, x.team.spad, x.team.p, pos, bitAt x.team.idemLost 0]
    ++ (List.range 16).flatMap (fun n => match Tbl.get? x.team.tb n with | some b => b.image | none => List.replicate 80 0)
    ++ x.team.phase.image pos
    ++ (List.range 16).flatMap (fun n => match Tbl.get? x.team.ch n with | some c => c.image | none => List.replicate 32 0)
    ++ (List.range 8).flatMap (fun n => match Tbl.get? x.team.sq n with
        | some q => words32 [q.head, (q.head + q.entries.length) % 8] | none => List.replicate 8 0)
    ++ words32 [slot])

/-- A queued word of a stream with the values it captured, 400 bytes (R216): the word and its address, its registers, format blocks and
chain values, how far it has come, the addresses of its accesses (the first, the next, the last and how many), and the ECPL it holds. -/
def QWord.image (q : QWord) : List Byte :=
  let va := fun (i : Nat) => match q.accs[i]? with | some a => a.va.toNat | none => 0
  padBytes 400 (bytesOf 8 (encX (BitVec.ofNat 8 q.op) q.f).toNat ++ bytesOf 8 q.pc.toNat
    ++ words32 [q.offs, q.scale, q.row0, q.nrow, q.chain, bitAt q.begun 0, q.sent, q.start, q.accs.length, q.ecpls.length]
    ++ bytesOf 32 q.fbA ++ bytesOf 32 q.fbB ++ [va 0, va 1, va (q.accs.length - 1)].flatMap (bytesOf 8)
    ++ q.ecpls.flatMap (fun e => bytesOf 4 (agentCode e.1) ++ e.2.image))
/-- The stream area, 4 KiB (R459): its fields in the spec's order, at places of the model's own, and behind them the ECPLs of ended waves
(R372). -/
def Stream.image (m : Stream) : List Byte :=
  padBytes 4096 (bytesOf 8 m.mpc.toNat ++ bytesOf 8 m.mfault.toNat ++ bytesOf 8 m.mfpc.toNat ++ bytesOf 8 m.mfaddr.toNat
    ++ (List.range 16).flatMap (fun r => bytesOf 4 (Tbl.getD m.m r 0).toNat)
    ++ (List.range 64).flatMap (fun t => bytesOf 4 (Tbl.getD m.tags t 0))
    ++ bytesOf 8 (bitAt m.stopped 0 + bitAt m.halted 1)
    ++ padBytes 3200 (((m.arrayQ ++ m.xferQ).take 8).flatMap QWord.image)
    ++ m.ecpls.flatMap (fun e => bytesOf 4 (agentCode e.1) ++ e.2.image))
/-- An entry of the chain table, 16 bytes (R406, R459). -/
def Chain.image (c : Chain) : List Byte :=
  bytesOf 1 (match c.state with | .free => 0 | .send => 1 | .dest => 2 | .reserved => 3 | .broken => 4) ++ bytesOf 1 (bitAt c.sorted 0)
    ++ bytesOf 1 c.dst ++ bytesOf 1 c.tile ++ bytesOf 1 c.row0 ++ bytesOf 1 c.nrow ++ bytesOf 2 0 ++ bytesOf 4 c.count ++ bytesOf 4 c.remain

/-- Bytes as cells from an offset. -/
def cellsFrom (a : Nat) (b : List Byte) : Mem := (List.range b.length).map (fun i => (a + i, b.getD i 0))
/-- What a saved team fills of the core-state area of the core at position `pos` it left, as cells by offset (R459): the scratchpad it
held, its accumulators, its header, and for a team with a stream the stream, its format blocks and the chain table. `t` is its
position among the core's teams, `slot` its team slot. -/
def Saved.coreState (x : Saved) (pos t slot : Nat) : Mem :=
  let scratch := match x.phys.find? (fun r => decide (r.1 = (x.team.core + pos) % 4)) with
    | some r => r.2
    | none => if pos = 0 then Mem.slice x.scratch 0 (x.team.spad * 4096) x.team.p else []
  let acc := match x.acc.find? (fun r => decide (r.1 = pos)) with | some r => Mem.slice r.2 0 (2 ^ 18) 0x80000 | none => []
  let st := match x.streams.find? (fun r => decide (r.1 = pos)) with
    | some r => cellsFrom 0xC2000 r.2.image ++ Mem.slice r.2.fb 0 512 0xC3000
    | none => []
  let chains := match x.chains.find? (fun r => decide (r.1 = pos)) with
    | some r => cellsFrom 0xC3200 ((List.range 16).flatMap (fun c => (Tbl.getD r.2 c Chain.free).image))
    | none => []
  (((scratch ++ acc) ++ cellsFrom (0xC0000 + 2048 * t) (x.header pos slot)) ++ st) ++ chains

/-! ### Context slots (R65, R457) -/

/-- The context slots a saved team takes on the core at position `pos`: those of its waves, its team slot on its first core, and
its row slots. -/
def Saved.contextSlots (x : Saved) (pos : Nat) : List Nat :=
  ((x.waves.filter (fun r => decide (r.1 / 32 = pos))).map (fun r => r.2.slots)) ++ (if pos = 0 then [1] else [])
    ++ [((x.rowSlots pos).length + 163839) / 163840]
/-- The saved teams of a context that left a core, with the position of the core among theirs. -/
def State.savedOn (s : State) (ctx core : Nat) : List (Nat × Saved) :=
  ((s.saved.filter (fun r => decide (core ∈ r.2.cores)
      && (match s.launch? r.2.team.launch with | some l => decide (l.ctx = ctx) | none => false)))).map
    (fun r => (r.2.cores.findIdx (fun c => decide (c = core)), r.2))
/-- The first context slot of each of a core's saved teams: they follow one another in order of the teams, and within a team each wave
takes consecutive ones (R65). Which slots the device takes is not stated. -/
def State.slotBase (s : State) (ctx core n : Nat) : Nat :=
  (((s.savedOn ctx core).take n).map (fun r => (r.2.contextSlots r.1).sum)).sum
/-- The scratchpad of a core that stood in a cluster held exclusively, as the saved teams of the cluster hold it: of a core without a team
too (R265, R269). -/
def State.clusterScratch (s : State) (ctx core : Nat) : Mem :=
  let l := s.saved.filter (fun r => decide (clusterOf (r.2.cores.headD 0) = clusterOf core)
    && (match s.launch? r.2.team.launch with | some l => decide (l.ctx = ctx) | none => false))
  match (l.flatMap (fun r => r.2.phys)).find? (fun y => decide (y.1 = core % 4)) with
  | some y => y.2
  | none => []
/-- The core-state area of a core (R65, R459). -/
def State.coreArea (s : State) (ctx core : Nat) : Mem :=
  let l := s.savedOn ctx core
  (List.range l.length).foldl (fun m n =>
    match l[n]? with
    | some r =>
      let waves := ((r.2.waves.filter (fun x => decide (x.1 / 32 = r.1))).map (fun x => x.2.slots)).sum
      Mem.overlay m (r.2.coreState r.1 n (s.slotBase ctx core n + waves))
    | none => m) (s.clusterScratch ctx core)

end Sys2Proof.Machine
end

