-- ==== Sys2Proof/Tests/Slice0.lean ====
section
/-! SUPPORT. Tests and witnesses. Every theorem named test_ holds one step on a small state against a value worked from the spec's
rules or examples; every theorem named witness_ shows a concrete state and operands that meet the hypotheses of a statement,
clause by clause. -/

namespace Sys2Proof.Tests

open Sys2Proof Sys2Proof.Machine

set_option maxRecDepth 4000
set_option Elab.async false

/-! ### Ill-formed terms, one or more for each check of WellFormed -/

theorem test_illFormed_scalar :
    [Instr.sadd ⟨0, 3, 0, 0, .reg 0⟩, .sadd ⟨1, 0, 0, 0, .reg 0⟩, .sdiv ⟨0, 4, 0, 0, .reg 0⟩, .scmp ⟨0, 10, 0, 0, .reg 0⟩, .smov ⟨0, 0, 0, 1, .reg 0⟩,
     .sbitc ⟨0, 0, 0, 0, .reg 1⟩, .sadd64 ⟨0, 0, 1, 0, .reg 0⟩, .sadd64 ⟨0, 0, 0, 1, .reg 0⟩, .sadd64 ⟨0, 0, 0, 0, .reg 1⟩,
     .sli ⟨0, 0, 0, 0, .reg 0⟩, .sli ⟨0, 3, 0, 0, .imm 0⟩].all (fun i => !i.wf) = true := by decide

theorem test_illFormed_vector :
    [Instr.vadd ⟨0, 2, 0, 0, 0, 0, false, false, false, false, 0⟩, .vadd ⟨1, 0, 0, 0, 0, 0, false, false, false, false, 0⟩,
     .vadd ⟨0, 0, 0, 464, 0, 0, false, false, false, false, 0⟩, .vadd ⟨0, 0, 0, 0, 0, 1, false, false, false, false, 0⟩,
     .vadd ⟨0, 0, 0, 0, 0, 0, false, false, false, false, 1⟩, .vmulhi ⟨0, 0, 0, 0, 0, 0, false, false, false, true, 0⟩,
     .vmin ⟨0, 0, 0, 0, 0, 0, false, false, false, true, 0⟩, .vaddImm ⟨0, 0, 0, 0, 0⟩, .vaddImm ⟨0, 10, 0, 0, 0⟩, .vaddImm ⟨0, 8, 0, 464, 0⟩,
     .vcmp ⟨0, 0, 128, 0, 0, 0, false, false, false, false, 0⟩, .vadd64 ⟨0, 0, 1, 0, 0, 0, false, false, false, false, 0⟩,
     .vadd64 ⟨0, 0, 0, 1, 0, 0, false, false, false, false, 0⟩, .fadd ⟨0, 0, 0, 480, 0, 0, false, false, false, false, 0⟩,
     .fmin ⟨0, 0, 0, 0, 0, 0, false, false, false, false, 1⟩, .fldexp ⟨0, 0, 0, 0, 464, 0, false, false, false, false, 0⟩,
     .faddImm ⟨0, 0, 0, 0, 0⟩, .frcp ⟨0, 1, 0, 0, 0, 0, false, false, false, false, 0⟩, .lbcast ⟨0, 0, 0, 0, 255, 0, false, false, false, false, 0⟩,
     .lscan ⟨0, 0, 0, 0, 386, 0, false, false, false, false, 0⟩, .lmerge ⟨0, 0, 0, 256, 0, 384, false, false, false, false, 0⟩,
     .lcount ⟨0, 0, 0, 0, 0, 0, false, false, false, false, 0⟩].all (fun i => !i.wf) = true := by decide

theorem test_illFormed_control :
    [Instr.bra ⟨0, 1, 0, 0, 0, 0⟩, .bra ⟨0, 0, 15, 0, 0, 0⟩, .bra ⟨0, 0, 0, 0, 1, 0⟩, .brs ⟨0, 0, 0, 0, 0, 0⟩, .brm ⟨0, 0, 0, 0, 2, 0⟩, .brx ⟨0, 0, 0, 1, 0, 0⟩,
     .brx ⟨0, 0, 0, 0, 0, 1⟩, .mark ⟨0, 0, 0, 1, 0, 0⟩, .call ⟨0, 0, 0, 104, 0, 0⟩, .waitc ⟨0, 0, 0, 0, 8, 0⟩, .trap ⟨0, 0, 0, 0, 0, 256⟩,
     .mask ⟨0, 0, 0, 1, 4, 0⟩, .nop ⟨1, 0, 0, 0, 0, 0⟩, .join ⟨0, 0, 0, 0, 0, 1⟩].all (fun i => !i.wf) = true := by decide

theorem test_illFormed_memory :
    [Instr.ldl ⟨0, 0, 0, 1, 0, 0, 0, 0⟩, .ldl ⟨0, 0, 0, 0, 0, 1, 0, 0⟩, .lds ⟨0, 0, 0, 0, 0, 0, 2, 0⟩, .stl ⟨0, 1, 0, 0, 0, 0, 0, 0⟩,
     .ldg ⟨0, 8, 0, 0, 1, 0, 0, 0⟩, .ldg ⟨0, 5, 1, 0, 0, 0, 0, 0⟩, .sld ⟨0, 4, 0, 0, 0, 0, 0, 0⟩, .pfg ⟨0, 0, 1, 0, 0, 0, 0, 0⟩,
     .tld ⟨0, 0, 0, 0, 0, 0, 0, 0⟩, .clean ⟨0, 0, 0, 0, 0, 0, 0, 0⟩, .atom ⟨0, 15, 0, 0, 0, 0, 0, 0⟩, .acas ⟨0, 2, 0, 0, 0, 0, 0, 0⟩,
     .red ⟨0, 15, 0, 0, 0, 0, 0, 0⟩, .fence ⟨0, 0, 0, 0, 0, 0, 0, 0⟩].all (fun i => !i.wf) = true := by decide

theorem test_illFormed_queues :
    [Instr.mzero ⟨0, 0, 0, 0, 0, 0, 3, 0, 0, 0⟩, .mzero ⟨0, 0, 1, 0, 0, 0, 0, 0, 0, 0⟩, .mma ⟨0, 0, 0, 0, 0, 1, 0, 0, 0, 0⟩, .mset ⟨0, 3, 0, 0, 0, 0, 0, 0, 0, 0⟩,
     .mset ⟨0, 0, 1, 0, 0, 0, 0, 0, 0, 0⟩, .mbr ⟨0, 0, 0, 1, 0, 0, 0, 0, 0, 0⟩, .marr ⟨0, 0, 0, 0, 0, 0, 0, 0, 0, 16⟩, .mld ⟨0, 1, 0, 0, 0, 0, 0, 0, 0, 0⟩,
     .chdef ⟨0, 0, 0, 0, 1, 0, 0, 0⟩, .chres ⟨0, 0, 0, 1, 0, 0, 0, 0⟩, .chres ⟨0, 0, 0, 0, 104, 0, 0, 0⟩, .chres ⟨0, 0, 0, 0, 0, 0, 2, 0⟩,
     .chres ⟨0, 0, 0, 0, 0, 1, 1, 0⟩, .chqry ⟨0, 4, 0, 0, 0, 0, 0, 0⟩, .cpyg ⟨0, 0, 1, 0, 0, 0, 0, 0⟩, .gather ⟨0, 0, 0, 0, 0, 0, 2, 0⟩,
     .ecplDep ⟨0, 1, 0, 0, 0, 0, 0, 0⟩, .ecplArr ⟨0, 1, 0, 0, 2, 0, 0, 0⟩, .sqpush ⟨0, 0, 0, 8, 0, 0, 0, 0⟩, .sqpop ⟨0, 0, 0, 0, 1, 0, 0, 0⟩,
     .barr ⟨0, 0, 1, 0, 0, 0, 0, 0⟩, .phbeg ⟨0, 0, 0, 0, 3, 0, 0, 0⟩, .phwait ⟨0, 0, 0, 0, 1, 0, 0, 0⟩, .launch ⟨0, 0, 0, 0, 0, 0, 0, 64⟩,
     .rsub ⟨0, 0, 0, 0, 0, 1, 0, 0⟩].all (fun i => !i.wf) = true := by decide

theorem test_illFormed_others :
    [Instr.tsdep ⟨0, 0, 0, 0, 0, 0, 1⟩, .tscpy ⟨1, 0, 0, 0, 0, 0, 0⟩, .tscan ⟨0, 0, 2, 0, 0, 0, 0⟩, .gtcfgSend ⟨0, 1, 0, 0, 0, 0, 0, 0⟩,
     .gtcfgSend ⟨0, 0, 0, 0, 0, 0, 15, 0⟩, .gtcfgDest ⟨0, 1, 0, 0, 0, 0, 0, 2⟩, .gtrsv ⟨0, 0, 0, 1, 0, 0, 0, 0⟩, .gtsend ⟨0, 0, 0, 0, 63, 1, 0, 0⟩,
     .gtdrain ⟨0, 0, 0, 0, 1, 0, 0, 0⟩, .gtdrainPhase ⟨0, 1, 1, 0, 0, 0, 0, 0⟩, .gtrel ⟨0, 0, 0, 0, 0, 0, 0, 1⟩, .rbox ⟨0, 0, 0, 0, 1, 0, 0, 0⟩,
     .rtri ⟨0, 3, 0, 0, 0, 0, 0, 0⟩, .rpush ⟨0, 0, 0, 1, 0, 0, 0, 0⟩, .afetch ⟨0, 0, 0, 0, 0, 0, 8, 0⟩, .ainterp ⟨0, 0, 0, 0, 0, 0, 0, 16⟩,
     .visld ⟨0, 0, 0, 0, 1, 0, 0, 0⟩, .pxout ⟨0, 0, 0, 0, 0, 1, 0, 0⟩, .tret ⟨0, 0, 1, 0, 0, 0, 0, 0⟩, .srd ⟨0, 0, 0, 1, 0, 0⟩, .swr ⟨0, 0, 1, 0, 0, 0⟩,
     .eret ⟨0, 0, 0, 0, 1, 0⟩, .brk ⟨0, 0, 0, 0, 0, 256⟩, .cntrd ⟨0, 0, 1, 0, 0, 0⟩, .cntrd ⟨0, 0, 0, 0, 0, 8⟩, .cntcfg ⟨0, 0, 0, 0, 0, 8⟩,
     .time ⟨0, 0, 104, 0, 0, 0⟩, .isync ⟨1, 0, 0, 0, 0, 0⟩].all (fun i => !i.wf) = true := by decide

/-! ### Words of the spec's examples, written out from the encodings -/

/-- R154's and R110's examples, the sequences of the programs' chapters, and R109's fields. -/
theorem test_decode_alu :
    decodeWord 0x140009DA00000100 = .ok (.sadd64 ⟨0, 0, 4, 118, .imm 256⟩)
    ∧ decodeWord 0x01000C1A00000040 = .ok (.sadd ⟨0, 0, 6, 6, .imm 0x40⟩)
    ∧ decodeWord 0x20000A01F1000200 = .ok (.vadd ⟨0, 0, 10, 3, 0x1C4, 0, false, false, false, true, 0⟩)
    ∧ decodeWord 0x2D0A7803800003E8 = .ok (.vcmpImm ⟨0, 10, 120, 7, 1000⟩)
    ∧ decodeWord 0x43000501F4004000 = .ok (.ffma ⟨0, 0, 5, 3, 464, 2, false, false, false, false, 0⟩)
    ∧ decodeWord 0x4F000C0201418000 = .ok (.hdot2 ⟨0, 0, 12, 4, 5, 12, false, false, false, false, 0⟩) := by decide

theorem test_decode_control_memory :
    decodeWord 0x7400000000000008 = .ok (.mark ⟨0, 0, 0, 0, 0, 8⟩) ∧ decodeWord 0x7200014000000004 = .ok (.brm ⟨0, 0, 0, 10, 0, 4⟩)
    ∧ decodeWord 0x790000E300000000 = .ok (.waitc ⟨0, 0, 0, 7, 3, 0⟩)
    ∧ decodeWord 0x88040C0810580040 = .ok (.ldg ⟨0, 4, 12, 4, 8, 1, 3, 0x40⟩) := by decide

theorem test_decode_queues :
    decodeWord 0xA200208D01010000 = .ok (.mma ⟨0, 0, 8, 2, 3, 4, 0, 1, 1, 0⟩)
    ∧ decodeWord 0xBA00312800050002 = .ok (.gather ⟨0, 0, 3, 1, 20, 0, 5, 2⟩)
    ∧ decodeWord 0xC400002400000000 = .ok (.barrw ⟨0, 0, 0, 2, 1, 0, 0, 0⟩) ∧ decodeWord 0xC500000450000000 = .ok (.phbeg ⟨0, 0, 0, 0, 1, 10, 0, 0⟩)
    ∧ decodeWord 0xD200503068000000 = .ok (.tstake ⟨0, 0, 40, 12, 13, 0, 0⟩) := by decide

theorem test_decode_graphics_system :
    decodeWord 0xDA005000FC000000 = .ok (.gtsend ⟨0, 0, 5, 0, 0, 63, 0, 0⟩) ∧ decodeWord 0xD801500000000001 = .ok (.gtcfgDest ⟨0, 1, 5, 0, 0, 0, 0, 1⟩)
    ∧ decodeWord 0xE7003C2822000001 = .ok (.ainterp ⟨0, 0, 60, 40, 34, 0, 0, 1⟩)
    ∧ decodeWord 0xF000B40000050000 = .ok (.srd ⟨0, 0, 90, 0, 5, 0⟩) ∧ decodeWord 0xF100005400070000 = .ok (.swr ⟨0, 0, 0, 21, 7, 0⟩)
    ∧ decodeWord 0xF40029FC00002001 = .ok (.cntrd ⟨0, 0, 20, 127, 0, 0x2001⟩) ∧ decodeWord 0xF6003C0000000000 = .ok (.time ⟨0, 0, 30, 0, 0, 0⟩) := by decide

/-- R104, R105: reserved bits, a field that the table does not list, and an unassigned opcode are refused, each by its name; R96: bytes lie
least significant first. -/
theorem test_decode_refuses :
    decodeWord 0x1400000000000001 = .error .reservedBits ∧ decodeWord 0x7D10000000000000 = .error .illFormed
    ∧ decodeWord 0 = .error .unassignedOpcode ∧ decodeTableWord 64 0x7400000000000008 = some (.mark ⟨0, 0, 0, 0, 0, 8⟩) := by decide

/-- The encoder gives back the spec's words. -/
theorem test_encode :
    encode (.sadd64 ⟨0, 0, 4, 118, .imm 256⟩) = some 0x140009DA00000100 ∧ encode (.vcmpImm ⟨0, 10, 120, 7, 1000⟩) = some 0x2D0A7803800003E8
    ∧ encode (.ldg ⟨0, 4, 12, 4, 8, 1, 3, 0x40⟩) = some 0x88040C0810580040 ∧ encode (.mma ⟨0, 0, 8, 2, 3, 4, 0, 1, 1, 0⟩) = some 0xA200208D01010000 := by decide

/-! ### A small state: one wave, its team and its stream on core 0, and three pages -/

def tClause : Clause := ⟨0x1000, 0, [0x7D00000000000000, 0x7D00000000000000, 0x7D00000000000000]⟩
/-- A wave of 32 lanes, of which lanes 0 and 1 are active. -/
def tWave : Wave :=
  { Wave.fresh 0 with
    team := 1, vregs := 128, lanePriv := 64, codeBase := 0x1000, clause := some tClause
    s := [(3, 7), (4, 9), (6, 64), (8, 32), (10, 1), (12, 0x2000), (14, 128), (16, 128), (18, 64), (113, 32), (114, 32), (120, 3)]
    v := [(384, 5), (385, 0xFFFFFFFF), (512, 2), (513, 3), (640, 8), (641, 16), (768, 0x3F800000), (769, 0x40000000)] }
def tTeam : Team :=
  { launch := 1, launchId := 1, index := 0, paired := false, core := 0, excl := true, group := 1, groupTeams := 1, groupPos := 0, coop := false,
    poisonTrap := false, shrate := 0, spad := 4, p := 0, mseq := true, idem := true, idemLost := false, bin := false, waves := 1, ended := [],
    ch := [], sq := [], tb := [], phase := Phase.none }
def tStream : Stream := { Stream.fresh 0 with team := 1, clause := some tClause }
/-- A device that has started, with page 0 and a code page readable and writable, and a tuple page. -/
def tState (w : Wave) : State :=
  { State.reset with
    cur := some (.wave 0 0), waves := [(0, w)], streams := [(0, tStream)], teams := [(1, tTeam)], nextId := 10
    clusters := [(0, { Cluster.empty with tlb := [⟨0, 0, 0, 0x4B⟩, ⟨0, 0x1000, 0, 0x104B⟩, ⟨0, 0x2000, 0, 0x203B⟩] })]
    fred := { Fred.reset with stage := 7 } }
def tS : State := tState tWave
/-- The same state with its stream current. -/
def tM : State := { tS with cur := some (.stream 0) }

/-- The next state of an outcome, the reset state where there is none. -/
def nx (o : Out) : State := match o with | .next t => t | _ => State.reset
/-- Wave 0 of core 0 after an instruction. -/
def after (i : Instr) (s : State) : Wave := match (nx (exec i s)).wave? 0 0 with | some w => w | none => Wave.fresh 0
def sAfter (i : Instr) (r : Nat) : W32 := (after i tS).rawS r
def vAfter (i : Instr) (n l : Nat) : W32 := (after i tS).rawV n l
/-- Format V with the plain fields zero. -/
def fV (fn : BitVec 4) (d : VReg) (a b c : Sel) : FmtV := ⟨0, fn, d, a, b, c, false, false, false, false, 0⟩

/-- An answer that is `ok` and meets a check. -/
def okAnd {ε α : Type} (r : Except ε α) (p : α → Bool) : Bool := match r with | .ok a => p a | .error _ => false

theorem tS_runs : tS.runs 0 0 tWave := ⟨rfl, rfl⟩
theorem tM_runs : tM.runsStream 0 tStream := ⟨rfl, rfl⟩
theorem tS_wins : tWave.wins = [] := rfl
theorem tS_clause : tWave.clause = some tClause := rfl
theorem tS_team : tS.team? tWave.team = some tTeam := rfl

/-! ### Witnesses of the statements on words -/

theorem witness_ScalarArithmetic : tS.runs 0 0 tWave ∧ tWave.wins = [] ∧
    (let f : FmtS := ⟨0, 0, 5, 3, .reg 4⟩
     [Instr.sadd f, .sadd { f with fn := 2, b := .imm 0xFFFFFFFF }, .ssub f, .ssub { f with fn := 2 }, .smul f, .smulhi f, .smulhi { f with fn := 1 }, .sand f,
      .sor f, .sxor f, .sshl f, .sshr f, .sshr { f with fn := 1 }, .srot f, .scmp f, .scmp { f with fn := 9, sd := 126 }, .ssel f, .smov { f with sa := 0 },
      .smin f, .smax { f with fn := 1 }].all Instr.wf = true) := ⟨tS_runs, tS_wins, by decide⟩
theorem test_sadd_carry : sAfter (.sadd ⟨0, 1, 5, 4, .imm 0xFFFFFFF7⟩) 5 = 0 ∧ sAfter (.sadd ⟨0, 1, 5, 4, .imm 0xFFFFFFF7⟩) 126 = 1 := by decide +kernel
theorem test_ssub_borrow : sAfter (.ssub ⟨0, 1, 5, 3, .reg 4⟩) 5 = 0xFFFFFFFE ∧ sAfter (.ssub ⟨0, 1, 5, 3, .reg 4⟩) 126 = 1 := by decide +kernel
/-- R150: 9 × 0x80000000 signed is −9 × 2³¹, whose high half is −5. -/
theorem test_smulhi_signed : sAfter (.smulhi ⟨0, 0, 5, 4, .imm 0x80000000⟩) 5 = 0xFFFFFFFB := by decide +kernel
theorem test_srot : sAfter (.srot ⟨0, 0, 5, 4, .imm 33⟩) 5 = 18 := by decide +kernel
theorem test_scmp : sAfter (.scmp ⟨0, 2, 5, 3, .reg 4⟩) 5 = 1 ∧ sAfter (.scmp ⟨0, 2, 127, 3, .reg 4⟩) 126 = 1 := by decide +kernel

theorem witness_ScalarFieldsAndPairs : tS.runs 0 0 tWave ∧ tWave.wins = [] ∧
    (let f : FmtS := ⟨0, 0, 4, 6, .reg 8⟩
     [Instr.sbfx f, .sbfx { f with fn := 1 }, .sbfi f, .sbitc { f with b := .reg 0 }, .sbitc { f with fn := 1, b := .reg 0 }, .sbitc { f with fn := 2, b := .reg 0 },
      .sadd64 f, .sadd64 { f with b := .imm 0x80000000 }, .ssub64 f, .smad64 f, .smad64 { f with fn := 1 }, .sli { f with sa := 0, b := .imm 5 },
      .sli { f with fn := 1, sa := 0, b := .imm 5 }, .sli { f with fn := 2, sa := 0, b := .imm 5 }].all Instr.wf = true) := ⟨tS_runs, tS_wins, by decide⟩
/-- R152's example takes 4 bits at offset 8; R153: .clz of 9 is 28. -/
theorem test_sbfx_sbitc : sAfter (.sbfx ⟨0, 0, 5, 12, .imm 0x40D⟩) 5 = 1 ∧ sAfter (.sbitc ⟨0, 1, 5, 4, .reg 0⟩) 5 = 28 := by decide +kernel
theorem test_sadd64_sli : sAfter (.sadd64 ⟨0, 0, 20, 6, .imm 0xFFFFFFC0⟩) 20 = 0 ∧ sAfter (.sadd64 ⟨0, 0, 20, 6, .imm 0xFFFFFFBF⟩) 21 = 0xFFFFFFFF
    ∧ sAfter (.sli ⟨0, 0, 20, 0, .imm 0x80000000⟩) 21 = 0xFFFFFFFF := by decide +kernel

theorem witness_VectorIntegerArithmetic : tS.runs 0 0 tWave ∧ tWave.wins = [] ∧
    (let f := fV 0 127 3 4 0
     tWave.regRange (f.vd.toNat :: srcRegs f 3) = false
     ∧ [Instr.vadd f, .vadd { f with sat := true, abs := true, negB := true }, .vadd { f with fn := 1, sat := true }, .vsub f, .vmul f, .vmad f, .vmin f, .vmax f, .vmulhi f, .vmulhi { f with fn := 1 },
        .vand f, .vor f, .vxor f, .vshl f, .vshr f, .vshr { f with fn := 1 }, .vrot f, .vmov { f with b := 0 }].all Instr.wf = true)
    ∧ (let f : FmtVI := ⟨0, 8, 127, 3, 5⟩
       tWave.regRange (f.vd.toNat :: selReg f.a) = false
       ∧ [Instr.vaddImm f, .vaddImm { f with fn := 9, imm := 0x40000000 }, .vsubImm f, .vmulImm f, .vminImm f, .vmaxImm { f with fn := 9 }, .vmulhiImm f, .vandImm f,
          .vorImm f, .vxorImm f, .vshlImm f, .vshrImm f, .vshrImm { f with fn := 9 }, .vrotImm f].all Instr.wf = true) :=
  ⟨tS_runs, tS_wins, by decide, by decide⟩
theorem test_vadd : vAfter (.vadd (fV 0 5 3 4 0)) 5 0 = 7 ∧ vAfter (.vadd (fV 0 5 3 4 0)) 5 1 = 2 ∧ vAfter (.vadd (fV 0 5 3 4 0)) 5 2 = 0 := by decide +kernel
/-- R157: under .sat the z32 sum 0xFFFFFFFF + 3 stays at the largest value. -/
theorem test_vadd_sat : vAfter (.vadd { fV 1 5 3 4 0 with sat := true }) 5 1 = 0xFFFFFFFF := by decide +kernel
theorem test_vshr : vAfter (.vshrImm ⟨0, 9, 5, 3, 33⟩) 5 1 = 0xFFFFFFFF ∧ vAfter (.vshrImm ⟨0, 8, 5, 3, 33⟩) 5 1 = 0x7FFFFFFF := by decide +kernel

theorem witness_MaskRuns : tS.runs 0 0 tWave ∧ tWave.wins = [] ∧
    (let f := fV 0 103 3 4 0
     ((srcRegs f 2).all (fun r => decide (r < tWave.vregs)) = true ∧ (tWave.legacy {}).isNone = true)
     ∧ [Instr.vcmp f, .vcmp { f with vd := 120 }, .vcmp { f with vd := 104, fn := 7 }, .fcmp f, .fcmp { f with vd := 104 }, .lballot { f with b := 0 }].all Instr.wf = true
     ∧ (103 + tWave.beats ≤ 104 ∧ ¬ (104 + tWave.beats ≤ 104)))
    ∧ (let f : FmtVI := ⟨0, 8, 120, 3, 5⟩
       (selReg f.a).all (fun r => decide (r < tWave.vregs)) = true ∧ (Instr.vcmpImm f).wf = true ∧ (Instr.fcmpImm { f with fn := 15 }).wf = true) :=
  ⟨tS_runs, tS_wins, by decide, by decide⟩
theorem test_vcmp : sAfter (.vcmp (fV 2 20 3 4 0)) 20 = 2 ∧ sAfter (.vcmp (fV 2 20 3 4 0)) 126 = 1 ∧ sAfter (.vcmp (fV 4 120 3 4 0)) 120 = 0 := by decide +kernel

theorem witness_VectorIntegerOthers : tS.runs 0 0 tWave ∧ tWave.wins = [] ∧
    (let f := fV 0 126 4 5 6
     ([126, 127, 4, 5, 6, 7].all (fun r => decide (r < tWave.vregs) && decide (r < 256)) = true)
     ∧ [Instr.vsel f, .vsel { f with c := 376 }, .vbfx f, .vbfx { f with fn := 1 }, .vbfi f, .vbitc { f with b := 0, c := 0 }, .vsad f, .vdot4 f, .vdot4 { f with fn := 2 }, .vperm f,
        .vadd64 { f with c := 0, b := 6 }, .vadd64 { f with fn := 2, c := 0 }, .vmad64 f, .vmad64 { f with fn := 1 }].all Instr.wf = true)
    ∧ (Instr.vadd64Imm ⟨0, 8, 126, 4, 5⟩).wf = true := ⟨tS_runs, tS_wins, by decide, by decide⟩
/-- R159: a mask-word selector takes lane 0's bit of s120, which is set. R162: VPERM's control −8 has the nibbles 8 (a zero byte) and F (all ones). -/
theorem test_vsel_vperm : vAfter (.vsel (fV 0 5 3 4 376)) 5 0 = 5 ∧ vAfter (.vperm (fV 0 5 3 4 455)) 5 1 = 0xFFFFFF00 := by decide +kernel

theorem witness_Fp32Arithmetic : tS.runs 0 0 tWave ∧ tWave.wins = [] ∧
    (let f := fV 0 127 6 6 6
     (tWave.regRange (f.vd.toNat :: srcRegs f 3) = false ∧ tWave.legacy { xprec := true, zeroNan := true } = none ∧ tWave.legacy { xprec := true } = none)
     ∧ [Instr.fadd { f with c := 0 }, .fsub { f with c := 0, sat := true, rnd := 3 }, .fmul { f with c := 0 }, .ffma f, .fmin { f with c := 0 }, .fmax { f with c := 0 }].all Instr.wf = true)
    ∧ (let f : FmtVI := ⟨0, 8, 127, 6, 0x20000000⟩
       [Instr.faddImm f, .fsubImm f, .fmulImm f, .fminImm f, .fmaxImm f].all Instr.wf = true) := ⟨tS_runs, tS_wins, by decide, by decide⟩
theorem test_fadd_ffma : vAfter (.fadd (fV 0 5 6 6 0)) 5 1 = 0x40800000 ∧ vAfter (.ffma (fV 0 5 6 464 6)) 5 0 = 0x3FC00000 := by decide +kernel

theorem witness_Fp32OthersAndPacked : tS.runs 0 0 tWave ∧ tWave.wins = [] ∧
    (let f := fV 0 127 6 6 0
     (tWave.regRange (f.vd.toNat :: srcRegs f 3) = false ∧ tWave.legacy {} = none ∧ tWave.legacy (usePacked f) = none)
     ∧ [Instr.frnd { f with b := 0 }, .ffract { f with b := 0 }, .fclass { f with b := 0 }, .fldexp f, .ffrexp { f with b := 0 }, .ffrexp { f with fn := 1, b := 0 }, .hadd2 f,
        .hadd2 { f with fn := 1 }, .hmul2 f, .hfma2 { f with c := 6 }, .hdot2 { f with c := 6 }].all Instr.wf = true)
    ∧ (Instr.fldexpImm ⟨0, 8, 127, 6, 3⟩).wf = true := ⟨tS_runs, tS_wins, by decide, by decide⟩
/-- R171: 1.0 × 2⁸; R172: +1.0 is a positive normal number; R174: 1.0 + 1.0 in the upper BF16 half of each operand. -/
theorem test_fldexp_hadd2 : vAfter (.fldexp (fV 0 5 6 5 0)) 5 0 = 0x43800000 ∧ vAfter (.hadd2 (fV 1 5 6 6 0)) 5 0 = 0x40000000 := by decide +kernel

theorem witness_ResultsAreCanonical : tWave.flushOut = false ∧ ({ tWave with wstat := 0xC } : Wave).flushOut = true
    ∧ f32Val (tWave.fout .rne false .nan) = .nan := by decide +kernel

theorem witness_Conversions : tS.runs 0 0 tWave ∧ tWave.wins = [] ∧
    (let f := fV 0 127 6 5 0
     (tWave.regRange (f.vd.toNat :: srcRegs f 2) = false ∧ tWave.legacy { cvtfi := true } = none ∧ tWave.legacy { fp16 := true } = none)
     ∧ [Instr.cvtfi { f with b := 0 }, .cvtfi { f with b := 0, fn := 5 }, .cvtif { f with b := 0 }, .cvtif { f with b := 0, fn := 5 }, .cvtff { f with b := 0 }, .cvtff { f with b := 0, fn := 5 },
        .cvtunp f, .cvtunp { f with fn := 6 }, .cvtpk f, .cvtpk { f with fn := 6 }, .cvtqb { f with b := 0 }, .cvtqb { f with b := 0, fn := 8 }].all Instr.wf = true) :=
  ⟨tS_runs, tS_wins, by decide⟩
/-- R177: 2.0 to s32 is 2; R179: 1.0 in FP16 is 0x3C00, packed into the low half. -/
theorem test_cvt : vAfter (.cvtfi (fV 0 5 6 0 0)) 5 1 = 2 ∧ vAfter (.cvtif (fV 0 5 4 0 0)) 5 0 = 0x40000000 ∧ vAfter (.cvtpk (fV 0 5 6 384 0)) 5 0 = 0x3C00 := by
  decide +kernel

theorem witness_SpecialFunctions : tS.runs 0 0 tWave ∧ tWave.wins = [] ∧
    (let f := fV 0 127 6 0 0
     (tWave.regRange (f.vd.toNat :: srcRegs f 1) = false ∧ f.la = 0 ∧ tWave.legacy {} = none ∧ tWave.legacy { trig := true } = none)
     ∧ [Instr.frcp f, .frsq f, .fsqrt f, .fexp2 f, .flog2 f, .fsin f, .fcos f, .ftanh f].all Instr.wf = true) := ⟨tS_runs, tS_wins, by decide⟩
theorem test_frcp_fsqrt : vAfter (.frcp (fV 0 5 6 0 0)) 5 1 = 0x3F000000 ∧ vAfter (.fsqrt (fV 0 5 6 0 0)) 5 0 = 0x3F800000 := by decide +kernel

theorem witness_LaneWords : tS.runs 0 0 tWave ∧ tWave.wins = [] ∧
    (let f := fV 0 103 3 4 0
     ((103 :: srcRegs f 2).all (fun r => decide (r < tWave.vregs) && decide (r < 256)) = true ∧ tWave.legacy {} = none
        ∧ tWave.laneLegacy false = none ∧ tWave.laneLegacy true = none)
     ∧ [Instr.lbcast { f with b := 384 }, .lshuf f, .lrot { f with b := 385 }, .lquad { f with b := 0 }, .lquad { f with fn := 3, b := 385 }, .lderiv { f with b := 0 },
        .lderiv { f with b := 0, fn := 3 }, .lfirst { f with b := 0 }, .lfirst { f with b := 0, fn := 1 }, .lcount { f with a := 384, b := 0 }, .lcount { f with b := 0, fn := 1 }, .lred { f with b := 0 },
        .lred { f with b := 0, fn := 8 }, .lscan { f with b := 384 }, .lscan { f with fn := 10, b := 385 }].all Instr.wf = true) := ⟨tS_runs, tS_wins, by decide⟩
theorem test_lred_lscan : sAfter (.lred (fV 0 20 4 0 0)) 20 = 5 ∧ vAfter (.lscan (fV 0 5 4 384 0)) 5 1 = 5 ∧ vAfter (.lscan (fV 0 5 4 385 0)) 5 1 = 2 := by decide +kernel
theorem test_lshuf_lfirst : vAfter (.lshuf (fV 0 5 3 384 0)) 5 1 = 5 ∧ sAfter (.lfirst (fV 1 20 3 0 0)) 20 = 0 := by decide +kernel

theorem witness_FoldsInLaneOrder : (fV 0 20 4 0 0).fn.toNat ≤ 10 ∧ (fV 10 20 4 0 0).fn.toNat ≤ 10 ∧ (fV 0 20 4 0 0).fn.toNat < 8 ∧ [0] ≠ ([] : List Nat)
    ∧ 8 ≤ (fV 10 20 4 0 0).fn.toNat ∧ 2 ≤ [0, 1].length := by decide

theorem witness_LongWords : tS.runs 0 0 tWave ∧ tWave.wins = [] ∧
    ([Instr.sdiv ⟨0, 0, 5, 4, .reg 3⟩, .sdiv ⟨0, 3, 5, 4, .imm 0⟩].all Instr.wf = true)
    ∧ (let f := fV 0 127 3 4 385
       [Instr.lmatch { f with b := 0, c := 0 }, .lmatch { f with b := 0, c := 0, fn := 1 }, .lhist { f with vd := 20 }, .lhist { f with vd := 20, fn := 1 },
        .lmerge { f with vd := 0, a := 20, b := 0 }, .lmerge { f with vd := 103, fn := 1, a := 20, b := 0 }, .lmerge { f with vd := 0, fn := 2, a := 20, b := 0 }].all Instr.wf = true
       ∧ f.la = 0 ∧ (127 :: run 127 tWave.beats ++ srcRegs f 1).all (fun r => decide (r < tWave.vregs) && decide (r < 256)) = true
       ∧ tWave.laneLegacy true = none ∧ min (tWave.selW 385 0).toNat 64 = 1 ∧ 103 + 1 ≤ 104) := ⟨tS_runs, tS_wins, by decide, by decide⟩
theorem test_sdiv : sAfter (.sdiv ⟨0, 0, 5, 4, .imm 0xFFFFFFFE⟩) 5 = 0xFFFFFFFC ∧ sAfter (.sdiv ⟨0, 3, 5, 4, .imm 0⟩) 5 = 9 ∧ sAfter (.sdiv ⟨0, 0, 5, 4, .imm 0⟩) 5 = 0xFFFFFFFF := by
  decide +kernel

theorem witness_LookaheadWindowsWithhold :
    (let f : FmtS := ⟨2, 0, 5, 4, .reg 3⟩
     tS.runs 0 0 tWave ∧ tWave.wins = [] ∧ tWave.clause = some tClause ∧ tWave.widx + 1 < tClause.words.length ∧ (Instr.sdiv f).wf = true ∧ 0 < f.la.toNat
     ∧ (∃ t, exec (.sdiv f) tS = .next t) ∧ (after (.sdiv f) tS).clause ≠ none)
    ∧ [Instr.frcp { fV 0 5 6 0 0 with la := 1 }, .lmatch { fV 0 5 6 0 0 with la := 15 }].all Instr.wf = true :=
  ⟨⟨tS_runs, tS_wins, tS_clause, by decide, by decide, by decide, ⟨_, rfl⟩, by decide +kernel⟩, by decide⟩
/-- R106: the quotient is withheld for 2 further words. -/
theorem test_window : sAfter (.sdiv ⟨2, 0, 5, 4, .reg 3⟩) 5 = 0 ∧ (after (.sdiv ⟨2, 0, 5, 4, .reg 3⟩) tS).wins.map (fun x => x.left) = [2] := by decide +kernel

theorem witness_Transfers : tS.runs 0 0 tWave ∧ tWave.wins = [] ∧ tWave.clause = some tClause ∧
    (let f : FmtC := ⟨0, 0, 0, 4, 0, 8⟩
     [Instr.bra { f with ca := 0 }, .bra { f with cond := 2, ca := 0 }, .brs { f with cx := 3 }, .brx { f with off := 0 }, .call f, .call { f with ca := 103 }, .ret { f with off := 0 }, .loop f].all
       Instr.wf = true) := ⟨tS_runs, tS_wins, tS_clause, by decide⟩
/-- R196: word 0 stands at 0x1008, the fall-through at 0x1020; CALL saves (0x1020 − 0x1000) ÷ 8. -/
theorem test_call_loop : (after (.call ⟨0, 0, 0, 5, 0, 8⟩) tS).pc = 0x1048 ∧ sAfter (.call ⟨0, 0, 0, 5, 0, 8⟩) 5 = 4
    ∧ (after (.loop ⟨0, 0, 0, 10, 0, 8⟩) tS).pc = 0x1020 ∧ sAfter (.loop ⟨0, 0, 0, 11, 0, 8⟩) 11 = 0xFFFFFFFF := by decide +kernel

theorem witness_Divergence : tS.runs 0 0 tWave ∧ tWave.wins = [] ∧ tWave.clause = some tClause ∧
    (let f : FmtC := ⟨0, 0, 0, 10, 0, 4⟩
     [Instr.mark { f with ca := 0 }, .brm f, .brm { f with cx := 1 }, .brm { f with ca := 120 }, .join { f with ca := 0, off := 0 }, .mask { f with off := 0 }, .mask { f with ca := 0, cx := 4, off := 0 },
      .mask { f with ca := 127, cx := 3, off := 0 }].all Instr.wf = true) := ⟨tS_runs, tS_wins, tS_clause, by decide⟩
/-- R201: s10 holds 1, so BRM runs lane 0's path later (pending) and lane 1 falls through; R202: JOIN then takes the pending entry. -/
theorem test_brm_join : sAfter (.brm ⟨0, 0, 0, 10, 0, 4⟩) 120 = 2 ∧ (after (.brm ⟨0, 0, 0, 10, 0, 4⟩) tS).dstack = [⟨true, 5, 1⟩]
    ∧ (after (.join ⟨0, 0, 0, 0, 0, 0⟩) (tState { tWave with dstack := [⟨true, 5, 1⟩] })).pc = 0x1028 := by decide +kernel

theorem witness_WaitingAndEnding : tS.runs 0 0 tWave ∧ tWave.wins = [] ∧ tWave.clause = some tClause ∧ tWave.block = .none ∧
    (let f : FmtC := ⟨0, 0, 0, 0, 0, 0⟩
     [Instr.nop f, .yield f, .waitc { f with ca := 4, cx := 7 }, .sleep f, .sleep { f with ca := 4, off := 5 }, .halt f, .trap { f with off := 255 }, .trap { f with cond := 2 }].all Instr.wf = true)
    ∧ (∃ since wake, ({ tWave with block := .word 0 1 0 } : Wave).block = .word since 1 wake ∧ wake ≤ tS.ck) := ⟨tS_runs, tS_wins, tS_clause, rfl, by decide, ⟨0, 0, rfl, by decide⟩⟩
/-- R207: HALT ends the wave; R206: a sleep of 0 ck yields. -/
theorem test_halt_sleep : (after (.halt ⟨0, 0, 0, 0, 0, 0⟩) tS).halted = true ∧ (after (.sleep ⟨0, 0, 0, 0, 0, 0⟩) tS).yielded = true := by decide +kernel

/-- R159: a run of three mask words from s126 passes s127. -/
def tWide : Wave := { tWave with beats := 3 }
theorem witness_VectorIntegerOthers_run : (let f := fV 0 126 4 5 382
    (tState tWide).runs 0 0 tWide ∧ (Instr.vsel f).wf = true ∧ 256 ≤ f.c.toNat ∧ f.c.toNat < 384 ∧ 127 < f.c.toNat - 256 + tWide.beats - 1
      ∧ ¬ 127 < 381 - 256 + tWide.beats - 1) := ⟨⟨rfl, rfl⟩, by decide⟩
theorem test_vsel_run : (after (.vsel (fV 0 5 3 4 382)) (tState tWide)).ecause = 1 ∧ (after (.vsel (fV 0 5 3 4 381)) (tState tWide)).ecause = 0 := by decide +kernel
/-- R170: 1 < 2 and a NaN meets only 'not equal' and the unordered condition. -/
theorem test_fltCond : (List.range 8).map (fun j => fltCond j (.fin false 1) (.fin false 2)) = [false, true, true, false, false, true, true, false]
    ∧ (List.range 8).map (fun j => fltCond j .nan (.fin false 2)) = [false, true, false, false, false, false, false, true] := by decide +kernel
/-- R180: the largest of 1.0 and 2.0 over 448 needs the scale 2^-7, code 120; 1.0 / 2^-7 is E4M3's 0x70 and 2.0 / 2^-7 its 0x78. -/
theorem test_cvtqb : vAfter (.cvtqb (fV 5 5 6 0 0)) 5 0 = 0x7870 ∧ vAfter (.cvtqb (fV 5 5 6 0 0)) 5 1 = 0x7878 := by decide +kernel
/-- R181: FSQRT of 4.0 is 2.0. -/
theorem test_fsqrt : (let w : Wave := { tWave with v := [(768, 0x41100000), (769, 0x40800000)] }
    (after (.fsqrt (fV 0 5 6 0 0)) (tState w)).rawV 5 1 = 0x40000000) := by decide +kernel

theorem witness_FoldsInLaneOrder_floats : (fV 8 20 6 0 0).fn = 8 ∧ (fV 9 20 6 0 0).fn = 9 ∧ (fV 10 20 6 0 0).fn = 10 := by decide
/-- R188: with LMINMAX and FLUSHOUT, FN 9 over 1.0, -2^-127 and +0 keeps -2^-127 and writes it as -0. -/
theorem test_fold_flush : (let w : Wave := { tWave with fpcompat := 4, wstat := 8, v := [(768, 0x3F800000), (769, 0x80400000), (770, 0)] }
    w.foldLanes (fV 9 20 6 0 0) [0, 1, 2] = 0x80000000 ∧ w.lminmax = true ∧ w.flushOut = true ∧ w.flushIn = false) := by decide +kernel


/-! ### Traps and the system words -/

/-- The trap table at 0x200: cause 0x13 goes to a handler at 0x1000, every other entry says STOP. -/
def tVec : State :=
  { tS with mem := { MemSys.reset with home := [(0x331, 0x10), (0x338, 1)] }, win := { Window.reset with tvbase := 0x200 } }
def tTrap : Trap := { cause := 0x13, sub := 0xFF, level := 3, origin := 15, eaddr := 5, fm := 3 }

theorem witness_TrapEntersHandler : tWave.wins = [] ∧ tWave.dbgReq = false ∧ tTrap.cause < 32 ∧ tTrap.sub < 256 ∧ tTrap.level < 4 ∧ tTrap.origin < 16 ∧ 15 < 16
    ∧ tVec.vectorOf 0 tTrap.cause = .handler 0x1000 ∧ tWave.estat.getLsbD 15 = false := by decide +kernel
theorem witness_TrapStops : tVec.vectorOf 0 0x14 = .stop ∧ tS.vectorOf 0 0x13 = .invalid ∧ ({ tWave with estat := 0x8000 } : Wave).estat.getLsbD 15 = true
    ∧ tWave.wins = [] ∧ tWave.dbgReq = false ∧ 31 < 32 := by decide +kernel
/-- R208, R440: TRAP 0xFF with a handler writes the record, fm0 takes the mask and the wave goes on at the handler. -/
theorem test_trap : (after (.trap ⟨0, 0, 0, 0, 0, 0xFF⟩) tVec).pc = 0x1000 ∧ (after (.trap ⟨0, 0, 0, 0, 0, 0xFF⟩) tVec).epc = 0x1020
    ∧ (after (.trap ⟨0, 0, 0, 0, 0, 0xFF⟩) tVec).eaddr = 0x1008 ∧ (after (.trap ⟨0, 0, 0, 0, 0, 0xFF⟩) tVec).rawS 123 = 3 := by decide +kernel

theorem witness_IllFormedWordsTrap : tS.runs 0 0 tWave ∧ tM.runsStream 0 tStream
    ∧ (∃ word, encode (.nop ⟨1, 0, 0, 0, 0, 0⟩) = some word ∧ (Instr.nop ⟨1, 0, 0, 0, 0, 0⟩).wf = false ∧ opFrontEnd .seq (opOf word) = false)
    ∧ (∃ word, encode (.mhalt ⟨1, 0, 0, 0, 0, 0, 0, 0, 0, 0⟩) = some word ∧ (Instr.mhalt ⟨1, 0, 0, 0, 0, 0, 0, 0, 0, 0⟩).wf = false ∧ opFrontEnd .seq (opOf word) = true) :=
  ⟨tS_runs, tM_runs, ⟨0x7D10000000000000, by decide⟩, ⟨0xAD10000000000000, by decide⟩⟩
theorem test_illFormed_traps : (after (.nop ⟨1, 0, 0, 0, 0, 0⟩) tS).ecause = 1 ∧ (after (.nop ⟨1, 0, 0, 0, 0, 0⟩) tS).stopped = true := by decide +kernel

/-- A wave of 16 vector registers, and one whose FPCOMPAT asks for every legacy behaviour. -/
def tNarrow : Wave := { tWave with vregs := 16 }
def tLegacy : Wave := { tWave with fpcompat := 0xFFFF }
theorem witness_RangeAndLegacyTraps : (tState tNarrow).runs 0 0 tNarrow ∧ (tState tLegacy).runs 0 0 tLegacy
    ∧ (let f := fV 0 16 3 4 0
       tNarrow.regRange (f.vd.toNat :: srcRegs f 2) = true ∧ [Instr.vadd f, .fadd f, .hadd2 f, .lshuf f].all Instr.wf = true)
    ∧ (let f := fV 0 15 3 4 0
       tLegacy.regRange (f.vd.toNat :: srcRegs f 2) = false ∧ (tLegacy.legacy {}).isSome = true ∧ [Instr.fmin f, .fmax f, .fldexp f].all Instr.wf = true) :=
  ⟨⟨rfl, rfl⟩, ⟨rfl, rfl⟩, by decide, by decide⟩
theorem test_regRange : (after (.vadd (fV 0 16 3 4 0)) (tState tNarrow)).ecause = 3 ∧ (after (.vadd (fV 0 15 3 4 0)) (tState tNarrow)).ecause = 0 := by decide +kernel
/-- Vector register 16 of a wave with 16, in the place each family reads; then lowest sub-codes, each with the requests above it unset. -/
theorem witness_RangeAndLegacyTraps_families :
    (let f := fV 0 14 16 4 6
     let g := { f with c := 0 }
     let u := { g with b := 0 }
     let rng := fun (r : List Nat) => tNarrow.regRange r
     rng (14 :: srcRegs f 1) = true ∧ rng (srcRegs f 1) = true ∧ tNarrow.beats = 1 ∧ (tNarrow.selW 385 0).toNat = 1 ∧ 14 + tNarrow.beats ≤ 104
     ∧ [Instr.vadd g, .vsub g, .vmul g, .vmulhi g, .vand g, .vor g, .vxor g, .vshl g, .vshr g, .vrot g, .vmin g, .vmax g, .lshuf g, .vmad f, .vbfx f, .vbfi f, .vsad f, .vdot4 f, .vperm f,
        .vmov u, .vbitc u, .lbcast { u with b := 384 }, .lrot { u with b := 385 }, .lquad u, .vadd64 g, .vmad64 f, .lfirst u, .lcount { u with fn := 1 }, .lmatch u, .vcmp g, .lballot u, .fcmp g, .vsel f].all
          Instr.wf = true
     ∧ [Instr.fadd g, .fsub g, .fmul g, .ffma f, .fmin g, .fmax g, .frnd u, .ffract u, .fclass u, .fldexp g, .ffrexp u, .hadd2 g, .hmul2 g, .hfma2 f, .hdot2 f, .cvtfi u, .cvtif u, .cvtff u,
        .cvtpk g, .cvtunp g, .cvtqb u, .frcp u, .frsq u, .fsqrt u, .fexp2 u, .flog2 u, .fsin u, .fcos u, .ftanh u, .lderiv u].all Instr.wf = true
     ∧ [Instr.lred u, .lred { u with fn := 8 }, .lscan { u with b := 384 }, .lscan { u with b := 384, fn := 8 }, .lhist { g with vd := 16, c := 385 }, .lhist { g with vd := 16, fn := 1, c := 385 },
        .lmerge { u with vd := 0, c := 385 }, .lmerge { u with vd := 0, c := 385, fn := 2 }, .lmerge { u with c := 385, fn := 3 }].all Instr.wf = true)
    ∧ (let f : FmtVI := ⟨0, 8, 14, 16, 5⟩
       tNarrow.regRange (14 :: selReg f.a) = true ∧ tNarrow.regRange (selReg f.a) = true ∧ tNarrow.regRange ([14, 15] ++ selRegPair f.a) = true
       ∧ [Instr.vaddImm f, .vsubImm f, .vmulImm f, .vmulhiImm f, .vandImm f, .vorImm f, .vxorImm f, .vshlImm f, .vshrImm f, .vrotImm f, .vminImm f, .vmaxImm f, .vadd64Imm f, .faddImm f,
          .fsubImm f, .fmulImm f, .fminImm f, .fmaxImm f, .fldexpImm f, .vcmpImm f, .fcmpImm f].all Instr.wf = true)
    ∧ ([7, 8, 9, 10, 11, 12, 13, 14, 15].all (fun n => ({ tWave with fpcompat := BitVec.ofNat 32 (2 ^ n) } : Wave).fpcompat.getLsbD n) = true
      ∧ tWave.regRange (15 :: srcRegs (fV 0 15 3 4 0) 3) = false) := by decide
/-- R91: XPREC and the unassigned request 8 both govern FADD, 1 is the lower sub-code; ZERONAN governs FMUL and not FADD. -/
theorem test_legacy : (let t := fun (i : Instr) (c : W32) => let w := after i (tState { tWave with fpcompat := c }); (w.ecause, w.estat.toNat % 256)
    t (.fadd (fV 0 15 3 4 0)) 0x180 = (0x0C, 1) ∧ t (.fmul (fV 0 15 3 4 0)) 0x200 = (0x0C, 3) ∧ t (.fadd (fV 0 15 3 4 0)) 0x200 = (0, 0)
    ∧ t (.fsin (fV 0 15 6 0 0)) 0x400 = (0x0C, 5) ∧ t (.hadd2 (fV 0 15 3 4 0)) 0x800 = (0x0C, 6) ∧ t (.hadd2 (fV 1 15 3 4 0)) 0x800 = (0, 0)) := by decide +kernel

theorem witness_SystemRegisterReads : tS.runs 0 0 tWave ∧ tWave.wins = []
    ∧ ([Instr.srd ⟨0, 0, 90, 0, 0, 0⟩, .srd ⟨0, 0, 90, 0, 8, 0⟩, .srd ⟨0, 0, 90, 0, 9, 0⟩].all Instr.wf = true)
    ∧ (tS.sysRead 0 tWave 8).isSome = true ∧ tS.sysRead 0 tWave 9 = none ∧ tS.sysRead 0 tWave 0xFF = none ∧ tS.sysRead 0 tWave 0x800B = none :=
  ⟨tS_runs, tS_wins, by decide, by decide⟩
theorem test_srd : (after (.srd ⟨0, 0, 90, 0, 0x8000, 0⟩) tS).rawS 90 = 95 ∧ (after (.srd ⟨0, 0, 90, 0, 0x100, 0⟩) tS).rawS 90 = 2048 := by decide +kernel

/-- R138: every number with a register, and the edges of every range without one. -/
theorem witness_SystemRegisterReads_numbers :
    (tS.ownStream 0 tWave = some tStream ∧ ({ tS with streams := [] } : State).ownStream 0 tWave = none ∧ tTeam.excl = true)
    ∧ [0x100, 0x101, 0x102, 0x103, 0x104, 0x105, 0x106, 0x107, 0x110, 0x120, 0x8000, 0x8001, 0x8002, 0x8003, 0x8004, 0x8005, 0x8006, 0x8007, 0x8008, 0x8009,
        0x800A].all (fun n => (tS.sysRead 0 tWave n).isSome) = true
    ∧ [0xFF, 0x108, 0x10F, 0x111, 0x11F, 0x121, 0x7FFF, 0x800B, 0xFFFF].all (fun n => (tS.sysRead 0 tWave n).isNone) = true := by decide +kernel
/-- R138: CAP_MXWAKE reads 64, CSM_BASE the base of the team's part or all ones, MSRESUME 0, and 0x120 is the core. -/
theorem test_srd_numbers : [0x101, 0x110, 0x107, 0x120].map (tS.sysRead 0 tWave) = [some 64, some 0, some 0, some 0]
    ∧ ({ tS with teams := [(1, { tTeam with core := 6, p := 8192 })] } : State).sysRead 6 tWave 0x110 = some 0xA000
    ∧ ({ tS with teams := [(1, { tTeam with excl := false })] } : State).sysRead 0 tWave 0x110 = some 0xFFFFFFFF := by decide +kernel

theorem witness_SystemRegisterWrites : tS.runs 0 0 tWave ∧ tWave.wins = []
    ∧ ([0, 1, 2, 3, 4, 5, 6, 7, 8, 0x102, 0x103, 0x104, 0x107, 0x8000].all (fun n => (Instr.swr ⟨0, 0, 0, 4, BitVec.ofNat 16 n, 0⟩).wf) = true)
    ∧ tS.ownStream 0 tWave = some tStream ∧ (tWave.readS 4 ≠ 1 ∧ tWave.readS 4 ≠ 2)
    ∧ ({ tS with streams := [] } : State).ownStream 0 tWave = none := ⟨tS_runs, tS_wins, by decide, by decide +kernel⟩
theorem test_swr : (after (.swr ⟨0, 0, 0, 3, 0, 0⟩) tS).wstat = 7 ∧ (after (.swr ⟨0, 0, 0, 4, 0x8000, 0⟩) tS).ecause = 6
    ∧ ((nx (exec (.swr ⟨0, 0, 0, 3, 0, 0⟩) tS)).team? 1).map (fun t => t.idemLost) = some true := by decide +kernel

def tStr (m : Stream) : State := { tS with streams := [(0, m)] }
/-- A stream that goes on, one stopped by a trap in the clause at 0x1000, one stopped there with its clause gone, and one stopped by POISON. -/
def tStop : Stream := { tStream with stopped := true, reported := true, mfpc := 0x1008 }
theorem witness_SystemRegisterWrites_resume :
    (Instr.swr ⟨0, 0, 0, 10, 0x107, 0⟩).wf = true ∧ tWave.readS 10 = 1 ∧ ({ tWave with s := Tbl.put tWave.s 10 0 2 } : Wave).readS 10 = 2
    ∧ [tStream, tStop, { tStop with clause := none }, { tStop with poisonStop := true }].all (fun m => decide ((tStr m).ownStream 0 tWave = some m)) = true
    ∧ tStream.stopped = false ∧ tStop.stopped = true ∧ tStop.poisonStop = false ∧ ({ tStop with poisonStop := true } : Stream).poisonStop = true := by decide +kernel
/-- R443: MSRESUME 1 lets the stopped stream issue its faulting word again, MSRESUME 2 ends it. -/
theorem test_msresume : ((nx (exec (.swr ⟨0, 0, 0, 10, 0x107, 0⟩) (tStr tStop))).stream? 0).map (fun m => (m.stopped, m.mpc, m.halted)) = some (false, 0x1008, false)
    ∧ ((nx (exec (.swr ⟨0, 0, 0, 10, 0x107, 0⟩) { tStr tStop with waves := [(0, { tWave with s := [(10, 2), (113, 32)] })] })).stream? 0).map
        (fun m => (m.stopped, m.halted)) = some (false, true) := by decide +kernel

theorem witness_ReturnAndBreakpoint : tS.runs 0 0 tWave ∧ tWave.wins = [] ∧ tWave.clause = some tClause
    ∧ (Instr.eret ⟨0, 0, 0, 0, 0, 0⟩).wf = true ∧ (Instr.brk ⟨0, 0, 0, 0, 0, 255⟩).wf = true
    ∧ tWave.estat.getLsbD 18 = false ∧ ({ tWave with estat := 0x48F00 } : Wave).estat.getLsbD 18 = true := ⟨tS_runs, tS_wins, tS_clause, by decide⟩
/-- R447: the record names word 2 of the clause at EPC − 24; INTRAP clears. -/
theorem test_eret : (after (.eret ⟨0, 0, 0, 0, 0, 0⟩) (tState { tWave with estat := 0x48200, epc := 0x1018 })).pc = 0x1000
    ∧ (after (.eret ⟨0, 0, 0, 0, 0, 0⟩) (tState { tWave with estat := 0x48200, epc := 0x1018 })).estat = 0x40200 := by decide +kernel

theorem witness_CountersAndTime : tS.runs 0 0 tWave ∧ tWave.wins = []
    ∧ (let f : FmtY := ⟨0, 0, 102, 127, 0, 0x2001⟩
       [Instr.cntrd f, .cntrd { f with imm := 7 }, .cntrd { f with imm := 0x1007 }, .cntcfg { f with sd := 0, sa := 3, imm := 7 }, .cntcfg { f with sd := 0, sa := 12, imm := 0 },
        .time { f with sa := 0, imm := 0 }, .isync { f with sd := 0, sa := 0, imm := 0 }].all Instr.wf = true)
    ∧ ((tWave.readS 3).toNat / 1024 = 0 ∧ (tWave.readS 3).toNat % 256 ≤ 0x20) ∧ ¬ (tWave.readS 12).toNat / 1024 = 0
    ∧ tWave.reqs.any (fun q => pathMemory q.path) = false := ⟨tS_runs, tS_wins, by decide, by decide, by decide, by decide⟩
theorem test_time : (after (.time ⟨0, 0, 30, 0, 0, 0⟩) { tS with time := 0x1100000022 }).rawS 30 = 2
    ∧ (after (.time ⟨0, 0, 30, 0, 0, 0⟩) { tS with time := 0x1100000022 }).rawS 31 = 1 := by decide +kernel

/-- R481: counter 0x10 of a core counts the cks since the window zeroed it. -/
theorem test_ckBase : (let s : State := { tS with ck := 100, cores := [(0, { Core.idle with ckBase := 30 })] }
    s.counterRead 0 tWave 0x1010 0 = some 70) := by decide +kernel

/-! ### Memory words -/

/-- R332's first and last scratchpad offsets, an aligned global address and a wide one. -/
theorem witness_VectorMemoryWords : tS.runs 0 0 tWave ∧ tWave.wins = [] ∧ tWave.lanes ≠ []
    ∧ (let f : FmtM := ⟨0, 4, 20, 126, 5, 0, 1, 0⟩
       [Instr.lds f, .sts f, .ldl { f with scope := 0 }, .stl { f with scope := 0 }, .ldc { f with scope := 2 }, .stc { f with scope := 2 }, .ldp { f with scope := 3 }, .stp { f with scope := 3 },
        .ldg { f with scope := 4 }, .ldg { f with scope := 4, fn := 12, voff := 4 }, .stg { f with scope := 4 }, .atom { f with sem := 4, fn := 0 }, .atom { f with sem := 3, scope := 4, fn := 13 },
        .red { f with sem := 2, scope := 4, fn := 1 }, .acas { f with sem := 1, fn := 0 }, .acas { f with sem := 3, scope := 4, fn := 1 }].all Instr.wf = true
       ∧ tWave.regRange (run 20 4 ++ voffRegs f false) = false ∧ tWave.count .lp < 63
       ∧ (∀ l ∈ tWave.lanes, tS.check 0 tWave .lp .read l (tWave.laneAddr f false l) 4 = .ok ⟨lpKey l (8 * (l + 1)), .rc, false⟩)
       ∧ (∀ l ∈ tWave.lanes, tS.check 0 tWave .spad .write l (tWave.laneAddr f false l) 4 = .ok ⟨scratchKey 0 (8 * (l + 1)), .rc, false⟩)
       ∧ (∀ l ∈ tWave.lanes, tS.check 0 tWave .csm .read l (tWave.laneAddr f false l) 4 = .ok ⟨csmKey 0 (8 * (l + 1)), .rc, false⟩)
       ∧ (∀ l ∈ tWave.lanes, tS.check 0 tWave .chip .read l (tWave.laneAddr f false l) 4 = .ok ⟨8 * (l + 1), .rc, false⟩)
       ∧ (∀ l ∈ tWave.lanes, tS.check 0 tWave .glob .write l (tWave.laneAddr { f with base := 6 } false l) 8 = .ok ⟨64 + 8 * (l + 1), .rc, false⟩)) :=
  ⟨tS_runs, tS_wins, by decide +kernel, by decide +kernel⟩
theorem test_sts : ((after (.sts ⟨0, 4, 4, 126, 5, 0, 1, 0⟩) tS).reqs.map (fun q => q.accs.map (fun a => (a.pa, a.n, a.op)))) = [[(8, 4, .write 2), (16, 4, .write 3)]] := by
  decide +kernel

/-- Lane 1's offset −1 is misaligned; the last word of a lane's 64 bytes is reached and the next is not. -/
theorem witness_MemoryChecksTrap : tS.runs 0 0 tWave ∧ tWave.count .lp < 63 ∧ tWave.lanes ≠ []
    ∧ (let f : FmtM := ⟨0, 4, 20, 126, 3, 0, 0, 56⟩
       [Instr.ldl f, .stl f, .lds f, .sts f].all Instr.wf = true ∧ tWave.regRange (run 20 1 ++ voffRegs f false) = false
       ∧ ((tWave.lanes.filter (fun l => match tS.check 0 tWave .lp .read l (tWave.laneAddr f false l) 4 with | .error _ => true | .ok _ => false)).head? = some 0)
       ∧ tS.check 0 tWave .lp .read 0 (tWave.laneAddr f false 0) 4 = .error ⟨4, 0, 0⟩) := ⟨tS_runs, by decide +kernel⟩
/-- The 13 words, whose lane 0 fails: at an offset outside each level's range, at a misaligned address, and at a register at or above VREGS. -/
theorem witness_MemoryChecksTrap_words :
    (let f : FmtM := ⟨0, 4, 20, 126, 3, 0, 0, 56⟩
     [Instr.ldl f, .stl f, .lds f, .sts f, .ldc { f with scope := 2 }, .stc { f with scope := 2 }, .ldp { f with scope := 3 }, .stp { f with scope := 3 }, .ldg { f with scope := 4 },
      .stg { f with scope := 4 }, .atom { f with sem := 4, fn := 0 }, .red { f with sem := 2, scope := 4, fn := 1 }, .acas { f with sem := 1, fn := 0 }].all Instr.wf = true
     ∧ tNarrow.regRange (run 20 1 ++ voffRegs f false) = true)
    ∧ (let fail := fun (lvl : Level) (it : Intent) (a : W64) (n : Nat) => match tS.check 0 tWave lvl it 0 a n with | .error _ => true | .ok _ => false
       fail .csm .read 0x200000 4 = true ∧ fail .csm .write 0x1FFFFC 8 = true ∧ fail .chip .read 0xFFFFFFFC 4 = true ∧ fail .chip .write 2 4 = true
       ∧ fail .glob .read 0x3000 4 = true ∧ fail .glob .write 66 4 = true ∧ fail .glob .write 64 4 = false)
    ∧ tWave.count .cs < 63 ∧ tWave.count .cp < 63 ∧ tWave.count .gl < 63 ∧ tWave.count .gs < 63
    ∧ (let w : Wave := { tWave with hmask := 1 }
       w.lanes.filter (fun l => !(Intent.write == Intent.write && w.hmask.getLsbD l)) = [1]) := by decide +kernel
/-- R332, R242: both lanes at the misaligned address 65: MISALIGNED (4) with that address, and both lanes in fm0 (s123). -/
theorem test_memoryChecks : (let w := after (.atom ⟨0, 1, 20, 6, 255, 4, 0, 1⟩) tS; (w.ecause, w.eaddr, w.rawS 123)) = (4, 65, 3) := by decide +kernel
theorem witness_AccessChecks : tS.check 0 tWave .glob .read 0 1 4 = .error ⟨4, 0, 0⟩ ∧ tS.check 0 tWave .lp .read 31 60 4 = .ok ⟨lpKey 31 60, .rc, false⟩
    ∧ tS.check 0 tWave .lp .read 0 64 4 = .error ⟨6, 0, 0⟩ ∧ tS.team? tWave.team = some tTeam ∧ tS.check 0 tWave .spad .read 0 16380 4 = .ok ⟨scratchKey 0 16380, .rc, false⟩
    ∧ tS.check 0 tWave .spad .read 0 16384 4 = .error ⟨6, 0, 0⟩ ∧ tS.check 0 tWave .csm .read 0 0x1FFFFC 4 = .ok ⟨csmKey 0 0x1FFFFC, .rc, false⟩
    ∧ tS.check 0 tWave .csm .read 0 0x200000 4 = .error ⟨6, 0, 0⟩ ∧ tS.check 0 tWave .glob .read 0 0x2000 4 = .error ⟨7, 0, 0⟩
    ∧ (tS.translate 0 0xFFC .write = .ok ⟨0xFFC, .rc, false, false⟩ ∧ tS.check 0 tWave .glob .write 0 0xFFC 4 = .ok ⟨0xFFC, .rc, false⟩) := by decide +kernel

theorem witness_ScalarTileAndQueueLoads : tS.runs 0 0 tWave ∧ tWave.wins = [] ∧ tWave.count .gl < 63 ∧ tWave.count .gs < 63 ∧ tWave.lanes ≠ []
    ∧ (let f : FmtM := ⟨0, 4, 20, 6, 255, 0, 4, 0⟩
       [Instr.sld f, .sld { f with fn := 5 }, .sst f].all Instr.wf = true ∧ tS.check 0 tWave .glob .read 0 (tWave.baseAddr 6) 4 = .ok ⟨64, .rc, false⟩)
    ∧ (let f : FmtM := ⟨0, 4, 7, 6, 5, 0, 0, 0⟩
       (Instr.ldq f).wf = true ∧ tWave.regRange (voffRegs f false) = false ∧ (tTeam.queue 7).mayPush (.wave 0 0) = true
       ∧ ∀ l ∈ tWave.lanes, tS.check 0 tWave .glob .read l (tWave.laneAddr f false l) 4 = .ok ⟨64 + 8 * (l + 1), .rc, false⟩)
    ∧ (let f : FmtM := ⟨0, 0, 20, 6, 255, 0, 4, 0⟩
       (Instr.tld f).wf = true ∧ (Instr.tst { f with fn := 8, base := 16 }).wf = true ∧ tWave.regRange (tileRegs f) = false
       ∧ (∃ ps vs, tS.tileCheck 0 tWave 64 64 none .read .read = .ok (ps, vs) ∧ ps.length = 1)
       ∧ (∃ ps vs, tS.tileCheck 0 tWave (tWave.baseAddr 16) 64 (some (tWave.readS64 18)) .write .write = .ok (ps, vs) ∧ vs.length = 1)) :=
  ⟨tS_runs, tS_wins, by decide, by decide, by decide +kernel, by decide +kernel, by decide +kernel,
    by decide +kernel, by decide +kernel, by decide +kernel, ⟨_, _, rfl, rfl⟩, ⟨_, _, rfl, rfl⟩⟩

theorem witness_CacheWordsAndFences : tS.runs 0 0 tWave ∧ tWave.wins = []
    ∧ ([Instr.pfg ⟨0, 0, 0, 6, 5, 0, 0, 0⟩, .clean ⟨0, 0, 0, 126, 255, 0, 3, 0⟩, .inval ⟨0, 0, 0, 126, 255, 0, 3, 0⟩, .clean ⟨0, 1, 0, 6, 5, 0, 3, 0⟩, .inval ⟨0, 1, 0, 6, 5, 0, 3, 0⟩,
        .discard ⟨0, 0, 0, 6, 5, 0, 0, 0⟩, .fence ⟨0, 0, 20, 126, 255, 3, 4, 0⟩].all Instr.wf = true)
    ∧ (let f : FmtM := ⟨0, 1, 0, 6, 5, 0, 3, 0⟩
       tWave.regRange (voffRegs f false) = false ∧ (∃ ls, tS.namedLines 0 tWave f = .ok ls ∧ ls = [0, 0]) ∧ columnScope (tS.paired 1) 3 = true ∧ columnScope (tS.paired 1) 1 = false)
    ∧ (tWave.count .gs < 63 ∧ tWave.lanes ≠ [] ∧ ∀ l ∈ tWave.lanes,
        tS.check 0 tWave .glob .write l (tWave.laneAddr ⟨0, 0, 0, 6, 5, 0, 0, 0⟩ false l) 1 = .ok ⟨64 + 8 * (l + 1), .rc, false⟩ ∧ hostWindow (64 + 8 * (l + 1)) = false)
    ∧ tWave.reqs.any (fun q => pathMemory q.path) = false ∧ tWave.acquiring = false
    ∧ (let w : Wave := { tWave with s := [(6, 64), (113, 32)] }
       w.lanes = [])
    ∧ (let w : Wave := { tWave with s := Tbl.put tWave.s 120 0 1 }
       w.lanes = [0] ∧ tS.translate 0 (w.laneAddr ⟨0, 0, 0, 6, 5, 0, 0, 0⟩ false 0) .read = .ok ⟨72, .rc, false, false⟩) :=
  ⟨tS_runs, tS_wins, by decide, ⟨by decide +kernel, ⟨_, rfl, rfl⟩, by decide +kernel⟩, by decide +kernel, by decide, by decide, by decide, by decide +kernel⟩

/-! ### The sequencer's words -/

/-- A team with barriers and two channels (an A slab and a column-backed B slab of BF16), and a stream whose block pair names them. -/
def tMmaTeam : Team :=
  { tTeam with
    ch := [(2, { Chan.undef with defd := true, esize := 4096, cap := 4 }), (3, { Chan.undef with defd := true, esize := 4096, cap := 4, back := 1 })]
    tb := [(15, Barrier.fresh 2)] }
def tMmaState : State := { tM with teams := [(1, tMmaTeam)] }

theorem witness_StreamControl : tM.runsStream 0 tStream ∧ tStream.clause = some tClause
    ∧ (let f : FmtX := ⟨0, 0, 0, 15, 0, 0, 0, 0, 0, 8⟩
       [Instr.mset f, .mset { f with fn := 2 }, .madd f, .madd { f with fn := 1, fb := 3, imm := 0 }, .mloop f, .mbr { f with cha := 0 }, .mbr { f with fn := 1 }, .mbr { f with fn := 2 },
        .mhalt { f with cha := 0, imm := 0 }, .marr { f with cha := 0, imm := 15 }, .mwait { f with cha := 0, imm := 0 }].all Instr.wf = true)
    ∧ (∃ b, tMmaState.barrier? tStream.team 0 15 = some b) ∧ tStream.arrayQ = [] ∧ tStream.xferQ = [] ∧ tStream.mfmt = [] :=
  ⟨tM_runs, rfl, by decide, ⟨_, rfl⟩, rfl, rfl, rfl⟩
theorem test_mset_mloop : ((nx (exec (.mset ⟨0, 1, 0, 15, 0, 0, 0, 0, 0, 0xFFFF⟩) tM)).stream? 0).map (fun m => Tbl.getD m.m 15 0) = some 0xFFFFFFFF
    ∧ ((nx (exec (.mloop ⟨0, 0, 0, 15, 0, 0, 0, 0, 0, 8⟩) tM)).stream? 0).map (fun m => m.mpc) = some 0x1048 := by decide +kernel

theorem witness_MatrixWordsIssue : tM.runsStream 0 tStream ∧ tM.team? tStream.team = some tTeam
    ∧ ([Instr.mzero ⟨0, 0, 60, 0, 0, 0, 0, 0, 0, 0⟩, .mcvt ⟨0, 0, 0, 0, 0, 0, 0, 0, 0, 4⟩, .mfmt ⟨0, 0, 0, 0, 0, 15, 0, 0, 0, 4⟩, .mld ⟨0, 0, 4, 0, 0, 3, 0, 0, 1, 0⟩, .mst ⟨0, 0, 4, 0, 0, 3, 0, 0, 1, 0⟩].all
        Instr.wf = true)
    ∧ 8 * 4 % 32 = 0 ∧ 16352 + 32 ≤ tTeam.spad * 4096 ∧ tStream.fbPending [3] = false ∧ tStream.xferQ.length < 4
    ∧ (∃ as, tM.xferCheck 0 tStream ⟨0, 0, 4, 0, 0, 3, 0, 0, 1, 0⟩ [tStream.fbBlock 3] [0, 1, 2] .read = .ok as)
    ∧ tStream.fbPending (tStream.mstBlocks ⟨0, 0, 4, 0, 0, 3, 0, 0, 1, 0⟩) = false
    ∧ (∃ as, tM.xferCheck 0 tStream ⟨0, 0, 4, 0, 0, 3, 0, 0, 1, 0⟩ [tStream.fbBlock 3] [0, 1, 2, 3, 4, 8] .engWrite = .ok as)
    ∧ tM.badIn .scratch (scratchKey 0 32) 32 = false := by
  refine ⟨tM_runs, rfl, by decide, by decide, by decide, by decide, by decide, ⟨_, rfl⟩, by decide, ⟨_, rfl⟩, by decide⟩

theorem witness_MmaWordsIssue : tMmaState.runsStream 0 tStream
    ∧ (let f : FmtX := ⟨0, 0, 4, 2, 3, 4, 0, 3, 0, 0⟩
       (Instr.mma f).wf = true ∧ (Instr.mmat f).wf = true ∧ tStream.fbPending [4, 5] = false
       ∧ tMmaState.mmaTrap 0 tStream f (tStream.fbBlock 4) (tStream.fbBlock 5) = none
       ∧ tMmaState.mmaTrap 0 tStream { f with ksteps := 4 } (tStream.fbBlock 4) (tStream.fbBlock 5) = some (8, 0x20)
       ∧ tM.mmaTrap 0 tStream f (tStream.fbBlock 4) (tStream.fbBlock 5) = some (8, 0x22) ∧ tStream.arrayQ.length < 4) := ⟨⟨rfl, rfl⟩, by decide +kernel⟩
/-- R216, R222, R233: the MMA enters the queue, tags its tile with its pair (8 + 2), and wakes the quarter of slot 4. -/
theorem test_mma : (((nx (exec (.mma ⟨0, 0, 4, 2, 3, 4, 0, 3, 0, 0⟩) tMmaState)).stream? 0).map (fun m => (m.arrayQ.length, Tbl.getD m.tags 4 0))) = some (1, 10) := by
  decide +kernel

/-! ### Barriers and phases -/

theorem witness_Barriers :
    (let b := Barrier.fresh 2
     ((b.member 0).ever = false ∧ b.arrived + 1 < b.members) ∧ (let b1 : Barrier := ⟨0, 1, 2, [(0, ⟨0, false, true⟩)]⟩
      b1.arrived + 1 = b1.members ∧ (∀ r ∈ b1.mem, r.2.early = false) ∧ (b1.member 0).last = b1.gen ∧ (b1.member 0).ever = true ∧ (b1.member 1).ever = false))
    ∧ ({ tS with teams := [(1, tMmaTeam)] } : State).runs 0 0 tWave ∧ tWave.wins = []
    ∧ (let s : State := { tS with teams := [(1, tMmaTeam)] }
       let f : FmtQ := ⟨0, 0, 0, 15, 0, 0, 0, 0⟩
       [Instr.barr f, .barw f, .barrw f].all Instr.wf = true ∧ s.levelOk tWave 0 = true ∧ s.levelOk tWave 2 = false ∧ (Instr.barr { f with lvl := 2, id := 0 }).wf = true
       ∧ s.openArrivals tWave 0 15 < 2 ∧ (∀ r ∈ s.waves, r.2.arrivals = []) ∧ tWave.reqs.all (fun q => !pathMemory q.path) = true
       ∧ (∃ b b', s.barrier? tWave.team 0 15 = some b ∧ b.arrive (s.memberId tWave.team 0 tWave.idx) = some b' ∧ b'.arrived = 1)
       ∧ s.flushAll.wave? 0 0 = some tWave ∧ tWave.stage ≠ 1
       ∧ (∃ s1 w1, s.arriveWord 0 0 tWave 0 15 = some s1 ∧ s1.flushAll.wave? 0 0 = some w1)) :=
  ⟨by decide, ⟨rfl, rfl⟩, rfl, by decide, by decide, by decide, by decide, by decide, by decide, by decide, ⟨_, _, rfl, rfl, rfl⟩, rfl, by decide, ⟨_, _, rfl, rfl⟩⟩
theorem test_barr : ((nx (exec (.barr ⟨0, 0, 0, 15, 0, 0, 0, 0⟩) { tS with teams := [(1, tMmaTeam)] })).barrier? 1 0 15).map (fun b => (b.gen, b.arrived)) = some (0, 1) := by
  decide +kernel

/-- A header at team offset 64 with one Gear train and one engine event; a watched phase; an open one whose lines are high. -/
def tPh : State := { tS with mem := { MemSys.reset with scratch := [(64, 1), (72, 1)] } }
def tWatch : Team := { tTeam with phase := { Phase.none with phn := 1, opened := true, ever := true, cts := 1, watch := some (2, 7) } }
def tHigh : Team := { tTeam with phase := { Phase.none with phn := 1, opened := true, ever := true } }
theorem witness_PhaseWords : tPh.runs 0 0 tWave ∧ tWave.wins = [] ∧ tPh.team? tWave.team = some tTeam
    ∧ (let b := tPh.teamBytes tWave tTeam 64 32
       (Instr.phbeg ⟨0, 0, 0, 0, 0, 6, 0, 0⟩).wf = true ∧ (Instr.phwait ⟨0, 0, 0, 0, 0, 0, 0, 0⟩).wf = true ∧ tWave.z 6 = 64 ∧ 64 % 32 = 0 ∧ tTeam.fits 64 32 = true
       ∧ tPh.levelOk tWave 0 = true ∧ tTeam.phase.opened = false ∧ zeroField b 14 2 = true ∧ (fieldOf b 4 4 = 0 ∧ fieldOf b 10 2 = 0)
       ∧ (fieldOf b 12 2 = 0 ∧ fieldOf b 16 8 = 0 ∧ fieldOf b 24 8 = 0) ∧ (tPh.translate 0 0x2000 .read).toOption.map (fun y => y.kind) = some .ts)
    ∧ (tTeam.phase.broken = false ∧ ({ tTeam.phase with broken := true } : Phase).broken = true)
    ∧ (({ tS with teams := [(1, tWatch)] } : State).runs 0 0 tWave ∧ tWatch.phase.watch = some (2, 7) ∧ tWatch.phase.watchSeen = false)
    ∧ (let s : State := { tS with teams := [(1, tHigh)] }
       tHigh.phase.opened = true ∧ tHigh.phase.broken = false ∧ tHigh.phase.watch = none ∧ s.levelTeams tWave.team tHigh = [1] ∧ s.lineHigh 1 tHigh 0 tHigh.phase.phn = true) :=
  ⟨⟨rfl, rfl⟩, rfl, rfl, by decide +kernel, by decide, ⟨⟨rfl, rfl⟩, by decide⟩, by decide +kernel⟩

/-! ### Channels, stream queues, engine words -/

def tChTeam : Team :=
  { tTeam with
    ch := [(0, { Chan.undef with defd := true, esize := 16, cap := 4, res := 3, com := 2, acq := 1, rel := 0 }), (1, { Chan.undef with defd := true, esize := 4096, cap := 4 }),
      (2, { Chan.undef with defd := true, esize := 16, cap := 4 })]
    sq := [(7, { SQueue.empty with entries := [⟨true, [(0, 5)]⟩] })] }
def tChWave : Wave := { tWave with s := [(3, 7), (4, 3), (6, 64), (10, 1), (12, 0x2000), (14, 128), (20, 192), (22, 256), (24, 320), (113, 32), (114, 32), (120, 3)] }
/-- Descriptors in the scratchpad: a channel at 64, copies at 128 and 192, an index walk at 256, a gather at 320. -/
def tCh : State :=
  { tState tChWave with
    teams := [(1, tChTeam)], lqs := [(0, { LQueue.off with enable := true })], buffers := [(255, { Buffer.invalid with valid := true, vbase := 64 })]
    mem := { MemSys.reset with scratch := [(68, 16), (72, 4), (160, 16), (164, 1), (224, 64), (228, 64), (234, 1), (277, 1), (332, 16)] } }
theorem tCh_runs : tCh.runs 0 0 tChWave := ⟨rfl, rfl⟩

/-- Room is CAP − (RES − REL) = 1 and one element is available: a count of 1 goes on and a count of 2 waits; CHCOM may name index 2, CHREL index 0. -/
theorem witness_ChannelWords : tCh.runs 0 0 tChWave ∧ tChWave.wins = [] ∧ tCh.team? tChWave.team = some tChTeam
    ∧ (let f : FmtE := ⟨0, 0, 0, 0, 3, 0, 1, 1⟩
       [Instr.chdef ⟨0, 0, 15, 0, 6, 0, 0, 0⟩, .chres f, .chres { f with imm := 2 }, .chacq f, .chcom f, .chrel f, .chqry { f with flags := 0, imm := 0 },
        .chqry { f with fn := 3, flags := 0, imm := 0 }].all Instr.wf = true
       ∧ (let ch := tChTeam.chan 0
          tChWave.eCountOf f = 1 ∧ chanCheck tChWave ch 1 true = none ∧ ch.resWait = [] ∧ ch.acqWait = [] ∧ 1 ≤ ch.room ∧ ¬ 2 ≤ ch.room ∧ 1 ≤ ch.avail ∧ ¬ 2 ≤ ch.avail
          ∧ (chanCheck tChWave ch 5 true).isSome = true ∧ (chanCheck tChWave (tChTeam.chan 9) 1 false).isSome = true ∧ tChWave.memQuiet = true
          ∧ ¬ span ch.res ch.com < span 2 ch.com + 1 ∧ span ch.res ch.com < span 3 ch.com + 1 ∧ ¬ span ch.acq ch.rel < span 0 ch.rel + 1)
       ∧ okAnd (tCh.descriptor tChWave (tChWave.readS64 6) 32 32) (fun b => (tChTeam.chanFrom b).any (fun y => y.cap = 4 && y.back = 0)) = true
       ∧ tCh.chanBusy 1 15 (tChTeam.chan 15) = false) :=
  ⟨tCh_runs, rfl, rfl, by decide +kernel⟩
theorem test_chres : (after (.chres ⟨0, 0, 0, 0, 50, 0, 1, 1⟩) tCh).rawS 50 = 3 ∧ ((nx (exec (.chres ⟨0, 0, 0, 0, 50, 0, 1, 1⟩) tCh)).chan 1 0).res = 4 := by decide +kernel

/-- A wave blocked at a word, and the team that has it first in line. -/
def tBlocked (word : W64) : Wave := { tChWave with clause := some ⟨0x1000, 0, [word]⟩, block := .word 0 0 0 }
def tLineTeam : Team :=
  { tChTeam with
    ch := [(0, { Chan.undef with defd := true, esize := 16, cap := 4, res := 3, com := 2, acq := 1, rel := 0, resWait := [.wave 0 0], acqWait := [.wave 0 0] })]
    sq := [(7, { SQueue.empty with entries := [⟨true, [(0, 5)]⟩], pushWait := [.wave 0 0], popWait := [.wave 0 0] })] }
theorem witness_WaitingWordsServed :
    (∀ word, (tBlocked word).mayServe = true ∧ (tBlocked word).wins = [])
    ∧ decodeWord (tBlocked 0xB100000600010001).curWord = .ok (.chres ⟨0, 0, 0, 0, 3, 0, 1, 1⟩) ∧ decodeWord (tBlocked 0xB300000600010001).curWord = .ok (.chacq ⟨0, 0, 0, 0, 3, 0, 1, 1⟩)
    ∧ decodeWord (tBlocked 0xC0000A7000000000).curWord = .ok (.sqpush ⟨0, 0, 10, 7, 0, 0, 0, 0⟩) ∧ decodeWord (tBlocked 0xC1000A7000000000).curWord = .ok (.sqpop ⟨0, 0, 10, 7, 0, 0, 0, 0⟩)
    ∧ chanCheck tChWave (tLineTeam.chan 0) 1 true = none ∧ (tLineTeam.chan 0).resWait.head? = some (.wave 0 0) ∧ 1 ≤ (tLineTeam.chan 0).room
    ∧ (tLineTeam.chan 0).acqWait.head? = some (.wave 0 0) ∧ 1 ≤ (tLineTeam.chan 0).avail ∧ tChWave.regRange [10] = false
    ∧ (tLineTeam.queue 7).mayPush (.wave 0 0) = true ∧ (tLineTeam.queue 7).entries = [⟨true, [(0, 5)]⟩] ∧ (tLineTeam.queue 7).popWait.head? = some (.wave 0 0) :=
  ⟨fun _ => ⟨rfl, rfl⟩, by decide +kernel, by decide +kernel, by decide +kernel, by decide +kernel, rfl, rfl, by decide +kernel, rfl, by decide +kernel, by decide +kernel, by decide +kernel, rfl, rfl⟩

theorem witness_StreamQueueWords : tCh.runs 0 0 tChWave ∧ tChWave.wins = [] ∧ tCh.team? tChWave.team = some tChTeam
    ∧ (Instr.sqpush ⟨0, 0, 127, 7, 0, 0, 0, 0⟩).wf = true ∧ (Instr.sqpop ⟨0, 0, 128, 7, 0, 0, 0, 0⟩).wf = true ∧ tChWave.regRange [127] = false ∧ tChWave.regRange [128] = true
    ∧ (tChTeam.queue 7).mayPush (.wave 0 0) = true ∧ (tChTeam.queue 7).entries = [⟨true, [(0, 5)]⟩] ∧ (tChTeam.queue 7).popWait = [] ∧ (tChTeam.queue 0).entries = [] :=
  ⟨tCh_runs, rfl, rfl, by decide⟩
theorem test_sqpop : (after (.sqpop ⟨0, 0, 10, 7, 0, 0, 0, 0⟩) tCh).rawV 10 0 = 5 ∧ ((nx (exec (.sqpop ⟨0, 0, 10, 7, 0, 0, 0, 0⟩) tCh)).team? 1).map (fun t => (t.queue 7).entries.length) = some 0 := by
  decide +kernel

theorem witness_EngineWordsIssue : tCh.runs 0 0 tChWave ∧ tChWave.wins = [] ∧ tCh.team? tChWave.team = some tChTeam ∧ tChWave.full .en = false ∧ tCh.engHeld 1 < 1280
    ∧ (let f : FmtE := ⟨0, 0, 0, 0, 14, 0, 1, 4⟩
       let g : FmtQ := ⟨0, 0, 20, 0, 0, 60, 0, 0⟩
       [Instr.cpyin f, .cpyin { f with ch := 1, desc := 20, flags := 3 }, .cpyout f, .cpyg { f with flags := 0, imm := 0 }, .idxwalk { f with desc := 22, flags := 0, imm := 0 },
        .gather { f with ch2 := 2, desc := 24, flags := 13 }, .publish { f with desc := 6, flags := 0, imm := 0 }, .ecplDep { f with desc := 14, cnt := 12, flags := 16, imm := 0 },
        .ecplArr { f with fn := 1, desc := 0, flags := 0, imm := 0 }, .launch g, .rsub { g with qd := 0, imm := 15 }].all Instr.wf = true
       ∧ okAnd (tCh.descriptor tChWave (tChWave.readS64 14) 64 64) (fun b => decide (copyOk b (copyDesc b) = true ∧ (copyDesc b).conv = 0 ∧ (copyDesc b).fmtc = 0
            ∧ noScale b = true ∧ (copyDesc b).total = (tChTeam.chan 0).esize ∧ (copyDesc b).step = 0 ∧ (copyDesc b).step2 = 0 ∧ tChWave.eCountOf f ≤ (tChTeam.chan 0).cap)) = true
       ∧ okAnd (tCh.descriptor tChWave (tChWave.readS64 20) 64 64) (fun b => decide (copyOk b (copyDesc b) = true ∧ (copyDesc b).conv = 1)
            && (opCode (copyDesc b).fmtc).any (fun o => o.passes = 1 && (copyDesc b).total = o.slab && (tChTeam.chan 1).esize = 4096)) = true
       ∧ okAnd (tCh.descriptor tChWave (tChWave.readS64 22) 64 64) (fun b => zeroField b 0x17 41 && decide (fieldOf b 0x14 1 < 2 ∧ fieldOf b 0x15 1 = 1 ∧ fieldOf b 0x16 1 = 0)) = true
       ∧ okAnd (tCh.descriptor tChWave (tChWave.readS64 24) 64 64) (fun b => zeroField b 0x10 48 && decide ((tChTeam.chan 0).esize = (tChTeam.chan 2).esize / 16 * fieldOf b 0xC 4)) = true
       ∧ tCh.bufferAt (tChWave.readS64 6) = some 255 ∧ (tCh.lq 0).enable = true ∧ tCh.minimal = false
       ∧ okAnd (tCh.translate 0 (tChWave.readS64 60) .read) (fun y => decide (y.kind = .rc)) = true) :=
  ⟨tCh_runs, rfl, rfl, by decide +kernel⟩

/-! ### Tuple words and the Gear train -/

/-- A request of the wave that has ended with status 0, and a parked one of the team's wave 0. -/
def tReq (st : TStage) : TReq :=
  { op := .take, agent := .wave 0 0, team := 1, word := 0, bag := 2, uniq := false, slice := 0, data := [], block := 128, sd := 13, deadline := none, timedOut := false,
    cancelled := false, stage := st, got := [1, 2, 3, 4, 5, 6, 7, 8], gotBad := false, fault := 0 }
def tAsk : Wave := { tChWave with treq := some 5 }
def tAsked (st : TStage) : State := { tState tAsk with treqs := [(5, tReq st)] }
theorem witness_TupleWords : tCh.runs 0 0 tChWave ∧ tChWave.wins = [] ∧ tCh.team? tChWave.team = some tChTeam
    ∧ (let f : FmtT := ⟨0, 0, 12, 14, 13, 0, 0⟩
       [Instr.tsdep f, .tscpyn f, .tstaken { f with sd := 127 }, .tscpy { f with imm := 0xFFFF }, .tstake f, .tscan { f with space := 0, blk := 10 }].all Instr.wf = true
       ∧ okAnd (tCh.descriptor tChWave (BitVec.ofNat 64 (tChWave.z 14)) 64 192) (fun _ => true) = true ∧ tCh.spaceOf 0 (tChWave.readS64 12) .write = .ok (2, false)
       ∧ tChWave.full .ts = false ∧ tChWave.treq = none)
    ∧ ((tAsked (.ended 0)).runs 0 0 tAsk ∧ tAsk.treq = some 5 ∧ Tbl.get? (tAsked (.ended 0)).treqs 5 = some (tReq (.ended 0)) ∧ (tReq (.ended 0)).status = some 0
        ∧ (tReq (.ended 0)).op ≠ .dep ∧ (tReq (.ended 0)).gotBad = false ∧ (tReq (.ended 0)).got.length = 8)
    ∧ (tTeam.waves ≤ tChWave.z 10 ∧ tChWave.z 11 < tTeam.waves ∧ ((tAsked (.parked 0)).teamWaves 1).find? (fun y => decide (y.2.2.idx = 0)) = some (0, 0, tAsk)
        ∧ (tReq (.parked 0)).open = true) :=
  ⟨tCh_runs, rfl, rfl, by decide +kernel, ⟨⟨rfl, rfl⟩, by decide +kernel⟩, by decide +kernel⟩
/-- R394, R400: TSTAKE goes on with status 0 and the tuple at its block + 0x80. -/
theorem test_tstake : (after (.tstake ⟨0, 0, 12, 14, 13, 0, 0⟩) (tAsked (.ended 0))).rawS 13 = 0
    ∧ Mem.read (nx (exec (.tstake ⟨0, 0, 12, 14, 13, 0, 0⟩) (tAsked (.ended 0)))).mem.scratch 0x108 = 2 := by decide +kernel

/-- Chain 5 in every state, on core 0. -/
def tGt (x : Chain) (m : Stream) : State := { tM with streams := [(0, m)], teams := [(1, tTeam), (2, { tTeam with core := 4, index := 1 })], cores := [(0, { Core.idle with chains := [(5, x)] })] }
def tChain (st : ChainState) : Chain := { Chain.free with state := st }
def tGtStream : Stream := { tStream with m := [(2, 1), (3, 0), (4, 7)] }
theorem witness_GearTrainWords : (tGt Chain.free tGtStream).runsStream 0 tGtStream ∧ (tGt Chain.free tGtStream).team? 1 = some tTeam
    ∧ (let f : FmtGT := ⟨0, 0, 5, 0, 0, 0, 0, 0⟩
       [Instr.gtcfgSend { f with mreg := 2 }, .gtcfgDest { f with fn := 1, imm := 1 }, .gtrsv { f with nrow := 63, mreg := 4 }, .gtsend { f with nrow := 63 }, .gtdrain f,
        .gtdrainPhase { f with fn := 1, chain := 0 }, .gtrel f].all Instr.wf = true)
    ∧ (tGtStream.mreg 3).toNat < 2 ∧ (tGt Chain.free tGtStream).gtDest tGtStream (tGtStream.mreg 2) 0 = some (2, 4)
    ∧ (∀ st ∈ [ChainState.send, .dest, .reserved, .broken], ((tGt (tChain st) tGtStream).chain 0 5).state = st)
    ∧ (tGtStream.check = none ∧ ({ tGtStream with check := some 1 } : Stream).check = some 1 ∧ tGtStream.xferQ = [] ∧ (tGt Chain.free tGtStream).flits = [])
    ∧ ((((tGt (tChain .reserved) tGtStream).idemLost 1).settleCore 0).chain 0 5).remain = 0
    ∧ ((((tGt { tChain .reserved with remain := 3 } tGtStream).idemLost 1).settleCore 0).chain 0 5).remain = 3 ∧ tTeam.phase.broken = false :=
  ⟨⟨rfl, rfl⟩, rfl, by decide, by decide +kernel⟩
/-- R408: an unsorted reservation of 64 rows expecting 7 flits a row holds 64 entries and waits for 448. -/
theorem test_gtrsv : (let x := (nx (exec (.gtrsv ⟨0, 0, 5, 0, 0, 63, 4, 0⟩) (tGt (tChain .dest) tGtStream))).chain 0 5; (x.state, x.entries, x.remain)) = (.reserved, 64, 448) := by decide +kernel

/-! ### The graphics words -/

/-- A sampler descriptor (1 × 1, one level) at 64 and a target of one pixel at 32. -/
def tGfx : State := { tS with mem := { MemSys.reset with home := [(44, 1), (46, 1), (72, 1), (74, 1), (76, 1)] } }
theorem tGfx_runs : tGfx.runs 0 0 tWave := ⟨rfl, rfl⟩
theorem witness_GraphicsLaneWords : tGfx.runs 0 0 tWave ∧ tWave.wins = [] ∧ tWave.lanes ≠ [] ∧ tWave.gHolds .at = false
    ∧ (let f : FmtG := ⟨0, 0, 60, 40, 20, 0, 0, 0⟩
       [Instr.rbox f, .rtri f, .afetch { f with vb := 0, sa := 6 }, .abary f, .ainterp f, .smpl { f with vb := 0, sa := 6 }, .smpll { f with vb := 0, sa := 6 }].all Instr.wf = true
       ∧ tWave.regRange (run 60 9 ++ run 40 11 ++ [20, 21]) = false ∧ tWave.regRange (run 120 9) = true
       ∧ (gLanes tGfx tWave.lanes (rboxLane f tGfx 0 tWave)).fails = [] ∧ (gLanes tGfx tWave.lanes (rboxLane f tGfx 0 tWave)).bads = []
       ∧ (gLanes tGfx tWave.lanes (rtriLane f 0 tWave)).fails = []
       ∧ ((⟨tGfx, none, none, false⟩ : GRead).read 0 1 (tWave.readS64 6) 64).1.fail = none ∧ ((⟨tGfx, none, none, false⟩ : GRead).read 0 1 (tWave.readS64 6) 64).1.bad = none
       ∧ (samplerOf ((⟨tGfx, none, none, false⟩ : GRead).read 0 1 (tWave.readS64 6) 64).2).isSome = true) := ⟨tGfx_runs, rfl, by decide, by decide, by decide +kernel⟩
/-- The same wave with an error in v40 lane 0 under POISONTRAP, with an acquire outstanding, with one active lane, with none, and with lanes that name no
instance and no sample. -/
def tBadV : Wave := { tWave with badW := [badKeyV 40 0] }
theorem witness_GraphicsLaneWords_more :
    (tBadV.srcBad (.of [] [40]) = some 3 ∧ ({ tState tBadV with win := { Window.reset with errpol := 1 } } : State).poisonTraps 1 = true
      ∧ (tState tBadV).poisonTraps 1 = false ∧ tWave.srcBad (.of [6, 7] [40, 41]) = none)
    ∧ (let w : Wave := { tWave with reqs := [⟨4, .gl, 0, 1, 4, true, [], .none, 0, []⟩] }
       w.gHolds .at = true)
    ∧ (let w : Wave := { tWave with s := Tbl.put tWave.s 120 0 1 }
       w.lanes = [0] ∧ (tState w).translate 0 (nodeAddr w 20 0) .read = .ok ⟨0, .rc, false, false⟩)
    ∧ (let w : Wave := { tWave with s := [(113, 32)] }
       w.lanes = [])
    ∧ (let w : Wave := { tWave with v := [(5120, 0xFFFFFFFF), (5121, 0xFFFFFFFF), (5248, 0xFFFFFFFF), (5249, 0xFFFFFFFF)] }
       (∀ l ∈ w.lanes, w.readV64 40 l = allOnes64) ∧ (∀ l ∈ w.lanes, (f32Val (w.readV 40 l)).isFin = false))
    ∧ samplerOf ((⟨tS, none, none, false⟩ : GRead).read 0 1 0x1000 64).2 = none := by decide +kernel
/-- R245, R262: nodes at the addresses 0xFFFFFFFF…: lanes whose node does not translate. -/
theorem test_rbox_faults : (lanesTrap (gLanes tGfx tWave.lanes (rboxLane ⟨0, 0, 60, 40, 4, 0, 0, 0⟩ tGfx 0 tWave)).fails).isSome = true := by decide +kernel

theorem witness_GraphicsStoreWords : tGfx.runs 0 0 tWave ∧ tWave.wins = []
    ∧ (let f : FmtG := ⟨0, 0, 60, 40, 20, 0, 0, 0⟩
       [Instr.rpush { f with sa := 30 }, .rpop { f with vb := 0, sa := 30 }, .rhit f, .visld { f with vb := 0, sa := 30 }, .pxout { f with sa := 8 }, .tret ⟨0, 0, 0, 0, 0, 0, 0, 0⟩].all Instr.wf = true)
    ∧ (let w : Wave := { tWave with s := Tbl.put tWave.s 30 0 0x00400000 }
       w.stackBounds 30 = some (0, 64) ∧ w.badStacks 60 0 64 = [] ∧ w.regRange (60 :: 20 :: run 40 8) = false ∧ w.full .lp = false)
    ∧ (tWave.gHolds .at = false ∧ tWave.full .gs = false ∧ tWave.lanes ≠ [] ∧ tWave.hmask = 0)
    ∧ (let b := (⟨tGfx, none, none, false⟩ : GRead).read 0 1 (tWave.readS64 8) 32
       b.1.fail = none ∧ b.1.bad = none ∧ targetOk b.2 = true
       ∧ ∀ l ∈ tWave.lanes, ∀ p ∈ (b.1.s.idemLost 1).pixelWrites 0 { tWave with v := [(7680, 1), (7681, 1)] } b.2 ⟨0, 0, 60, 40, 20, 8, 0, 0⟩ l, p.2.2 = .ok ⟨0, .rc, false⟩)
    ∧ (let r := gLanes tGfx (tWave.lanes.filter (fun l => !tWave.hmask.getLsbD l)) (rhitLane ⟨0, 0, 60, 40, 20, 0, 0, 0⟩ tGfx 0 tWave)
       r.fails = [] ∧ r.bads = [])
    ∧ (let w : Wave := { tWave with tref := [(0, 5)] }
       w.tref.any (fun r => r.2 = 5) = true ∧ tGfx.visBad w 5 40 = [] ∧ w.srcBad (.of [30] [40]) = none ∧ w.popBad 40 0 = [])
    ∧ ({ tWave with tref := [(0, 5)], reqs := [⟨4, .at, 0, 0, 0, true, [], .none, 0, []⟩] } : Wave).reqs.any (fun q => decide (q.path = .at)) = true
    ∧ tBadV.srcBad (.of [30] (60 :: 20 :: run 40 8)) = some 3 := ⟨tGfx_runs, rfl, by decide, by decide +kernel⟩

/-! ### Events of a wave -/

/-- A clause of one NOP at 0x1000, and a wave that stands before it. -/
def tCode : State := { tS with mem := { MemSys.reset with home := [(4103, 0xFF), (4111, 0x7D)] } }
def tAtHdr : Wave := { tWave with pc := 0x1000, clause := none }
/-- A wave whose clause is the one word given, and one blocked at it. -/
def tAt (word : W64) : Wave := { tWave with waitMet := false, pipe := none, clause := some ⟨0x1000, 0xFF00000000000000, [word]⟩ }
def tHeld (word : W64) : Wave := { tAt word with block := .word 0 1 0 }
def tRegReq : Req := ⟨4, .lp, 0x7D00000000000000, 0, 0, true, [], .regs [(10, 95, 7)] [], 0, []⟩
def tLoadReq : Req := ⟨5, .gl, 0x7D00000000000000, 0, 4, true, [⟨95, 64, 64, 4, .glob, .rc, false, .read, true, 7, false, 4⟩], .vload 10 0 0 0, 0, []⟩
theorem witness_WaveEvents :
    (tWave.halted = false ∧ tWave.stopped = false ∧ tWave.dbg = false ∧ tWave.eretWord = none ∧ tWave.faultDue = false ∧ tWave.poison = none
      ∧ tWave.dbgReq = false ∧ tS.vacating 0 = false ∧ tAtHdr.clause = none)
    ∧ (okAnd (tCode.fetchClause 0 .vec tAtHdr.pc) (fun c => decide (c.words = [0x7D00000000000000])) = true
      ∧ okAnd (tS.fetchClause 0 .vec tAtHdr.pc) (fun _ => true) = false)
    ∧ (let w := tAt 0x7D00000000000000
       let s := tState w
       w.waitMet = false ∧ w.waitsMet = true ∧ (∀ x ∈ s.frontEnd 0 w.adr, s.ready 0 x.2.1 = true → x ≠ (0, w, s.waveEprio w) → chosenBefore (0, w, s.waveEprio w) x = true)
         ∧ s.idlePipe 0 w.adr = some 0)
    ∧ ((tState { tWave with waitMet := true }).chosen 0 false ≠ some 0 ∧ ({ tWave with eretWord := some 2, pend := some ⟨8, 0, 0⟩ } : Wave).eretWord.isSome = true)
    ∧ ((tHeld 0).treq = none ∧ (tHeld 0).clause.isSome = true ∧ ({ tAt 0 with pend := some ⟨8, 0, 0⟩ } : Wave).atBoundary = true
      ∧ ({ tAt 0 with poison := some (64, 1) } : Wave).atBoundary = true)
    ∧ ({ tWave with readySince := some 3 } : Wave).promoted = none
    ∧ ((tAt 0).atBoundary = true ∧ (tAt 0).intrap = false ∧ ({ tAt 0 with estat := 0x8000 } : Wave).intrap = true)
    ∧ (({ tS with cores := [(0, { Core.idle with vacating := true })] } : State).vacating 0 = true ∧ (tAt 0).blocked = false)
    ∧ ((let s : State := { tS with win := { Window.reset with wdtime := 1 }, time := 17000000 }
        s.win.wdtime * 1000000 * 17 ≤ s.time - 0) ∧ tWave.treq = none
      ∧ opOf (tHeld 0x7900000000000000).curWord = 0x79 ∧ (tHeld 0xD200000000000000).block = .word 0 1 0)
    ∧ opOf (tHeld 0x7F00000000000000).curWord = 0x7F
    ∧ (let w : Wave := { tWave with reqs := [tRegReq] }
       w.reqs.find? (fun q => decide (q.path = .lp)) = some tRegReq ∧ w.req? 4 = some tRegReq ∧ w.maySend tRegReq = true)
    ∧ (let w : Wave := { tWave with reqs := [tRegReq, tLoadReq] }
       w.reqs.find? (fun q => decide (q.path = .gl)) = some tLoadReq ∧ w.req? 5 = some tLoadReq ∧ w.maySend tLoadReq = true) := by decide +kernel
/-- R97, R102: the clause at the PC is fetched with its header's COUNT + 1 words. -/
theorem test_clauseFetch : ((((nx (exec (.clauseFetch (.wave 0 0)) { tS with
      mem := { MemSys.reset with home := [(0x107F, 0xFF), (0x1087, 0x7D)] }, waves := [(0, { tAtHdr with pc := 0x1078 })] })).wave? 0 0).bind (fun w => w.clause)).map
    (fun c => (c.header, c.words))) = some (0xFF00000000000000, [0x7D00000000000000]) := by decide +kernel
/-- R451: a wave blocked since time 0 traps when 1 ms has passed, 17,000,000 units of 1/17 ns, and not one before. -/
theorem test_watchdog : (let t := fun n => ((nx (exec (.watchdog (.wave 0 0)) { tState (tHeld 0x7900000000000000) with
      win := { Window.reset with wdtime := 1 }, time := n })).wave? 0 0).map (fun w => w.ecause)
    t 17000000 = some 0x15 ∧ t 16999999 = some 0) := by decide +kernel

/-! ### Launches -/

/-- A record of one team of one V1 wave with 8 registers, id 7, at slot 0 of a queue of two at 0x1000; its control line at 0x800 has TAIL 1. -/
def tRec : Mem :=
  [(0x808, 1), (0x1007, 1), (0x1008, 7), (0x1010, 1), (0x1012, 1), (0x1014, 1), (0x1048, 1), (0x1049, 1), (0x104A, 8), (0x104E, 1)]
def tQueue : LQueue := { LQueue.off with base := 0x1000, size := 2, ctl := 0x800 }
def tLq (q : LQueue) : State :=
  { State.reset with lqs := [(0, q)], nextId := 10, fred := { Fred.reset with stage := 7 }, mem := { MemSys.reset with home := tRec } }
def tReadQ : LQueue := { tQueue with enable := true, started := true, fresh := true, tail := 1 }
def tLaunch (st : LState) : Launch :=
  { record := launchRec ((tLq tReadQ).homeBytes 0x1000 256).1, bound := [], child := false, ctx := 0, recAddr := 0x1000, queue := some 0, seqno := 0, material := none, prio := 0,
    eprio := 0, state := st, total := 1, nextTeam := 0, again := [], saved := [], resident := [], lastCore := 0, placedAny := false, ending := false, fault := none,
    binNext := 0, binTeams := [], gb := [] }
def tWithLaunch (l : Launch) : State := { tLq tReadQ with launches := [(3, l)] }
/-- A team with no agents left, on a core that is being vacated. -/
def tLeave (x : Team) : State := { tLq tReadQ with teams := [(1, x)], cores := [(0, { Core.idle with vacating := true })] }
theorem witness_LaunchEvents :
    ((tLq tQueue).hostUp = true ∧ ((tLq tQueue).lq 0).enable = false ∧ tQueue.base.toNat % 256 = 0 ∧ tQueue.ctl.toNat % 128 = 0 ∧ (∃ i < 16, tQueue.size.toNat = 2 * 2 ^ i))
    ∧ (((tLq tReadQ).lq 0).next ≠ ((tLq tReadQ).lq 0).tail ∧ (tLq tReadQ).queuedEntries < 1024 ∧ (tLq tReadQ).backed (tReadQ.slot 0) = true
      ∧ ((tLq tReadQ).homeReadBytes none 0x1000 256).1.refusal ((tLq tReadQ).homeReadBytes none 0x1000 256).2.1 false = none
      ∧ (tLq tReadQ).refusal ((tLq tReadQ).homeBytes 0x1100 256).1 false = some 1)
    ∧ ((tWithLaunch (tLaunch .waiting)).launch? 3 = some (tLaunch .waiting)
      ∧ (∀ r ∈ (tWithLaunch (tLaunch .waiting)).launches, r.2.queue = some 0 → r.2.state = .waiting → 3 ≤ r.1))
    ∧ (let l := tLaunch .active
       let s := tWithLaunch l
       s.reap.launches = [(3, l)] ∧ l.ctx = s.win.ctxid ∧ l.record.coop = false ∧ l.record.perGroup = 1 ∧ l.record.excl = false ∧ l.nextIndex = some 0
       ∧ (s.reap.ground.place (s.reap.choose 960001 65536) ⟨[l.record.needs], false, none, []⟩).isSome = true)
    ∧ ({ tLaunch .active with nextTeam := 1 } : Launch).finished = true ∧ (tLaunch .active).finished = false
    ∧ ((∃ c ∈ tTeam.cores, (tLeave tTeam).vacating c = true) ∧ (tLeave { tTeam with excl := false, ended := [0] }).teamReady 1 { tTeam with excl := false, ended := [0] } = true
      ∧ (∀ r ∈ (tLeave { tTeam with ended := [0] }).unitTeams 1 { tTeam with ended := [0] }, (tLeave { tTeam with ended := [0] }).teamReady r.1 r.2 = true)
      ∧ (tLeave { tTeam with ended := [0] }).unitTeams 1 { tTeam with ended := [0] } ≠ [])
    ∧ ((⟨[5], 0⟩ : Vac).cores.all ({ tLq tReadQ with vac := some ⟨[5], 0⟩ } : State).reap.coreEmpty = true
      ∧ (⟨[0], 0⟩ : Vac).cores.all (tLeave tTeam).reap.coreEmpty = false)
    ∧ (let s : State := { tLq tReadQ with win := { Window.reset with tslice := 1 }, ctxStart := some 0, time := 17000 }
       0 + s.win.tslice * 17000 ≤ s.time ∧ s.expired = false ∧ s.vac = none ∧ s.win.vacRun = false ∧ s.win.vacCount.toNat ≤ 192) := by decide +kernel
/-- A team whose wave stands at a clause boundary, on a core that is being vacated. -/
def tLeaveAt (x : Team) : State := { tLeave x with waves := [(0, { tWave with clause := none })] }
theorem witness_LaunchEvents_reaped :
    ((tLeaveAt tTeam).reap.team? 1 = some tTeam ∧ (∃ c ∈ tTeam.cores, (tLeaveAt tTeam).reap.vacating c = true)
      ∧ (∀ r ∈ (tLeaveAt tTeam).reap.unitTeams 1 tTeam, (tLeaveAt tTeam).reap.teamReady r.1 r.2 = true))
    ∧ (let x : Team := { tTeam with excl := false }
       let s := tLeaveAt x
       s.reap.team? 1 = some x ∧ x.coop = false ∧ x.excl = false ∧ (∃ c ∈ x.cores, s.reap.vacating c = true) ∧ s.reap.teamReady 1 x = true)
    ∧ ((tLeave tTeam).reap.vac = none ∧ (tWithLaunch (tLaunch .active)).hostUp = true) := by decide +kernel
/-- R35, R36, R46: the record in slot 0 becomes a waiting entry of one team with id 7. -/
theorem test_launchRecordRead : (((nx (exec (.launchRecordRead 0) (tLq tReadQ))).launch? 10).map (fun l => (l.record.launchId, l.total, l.record.roles.length)))
    = some (7, 1, 1) := by decide +kernel
/-- R39, R40: the team's wave starts with its entry PC, its full mask and its context scalars. -/
theorem test_startTeam : (((tWithLaunch (tLaunch .active)).startTeam 3 (tLaunch .active) 11 0 11 1 0 ⟨5, 0⟩ none).wave? 5 0).map
    (fun w => (w.pc, w.mask, w.rawS 115, w.rawS 113)) = some (0, 0xFFFFFFFF, 7, 32) := by decide +kernel

/-! ### Commands, array and transfer words, flits -/

def tCopy : CopyDesc := ⟨0, 0, 0, 0, 0, 0, 16, 1, 0, 0, 0, 0⟩
def tCmd (k : CmdKind) (st : CmdStage) (ch : Nat) : Cmd :=
  { agent := .wave 0 0, team := 1, word := 0, kind := k, ch := ch, ch2 := 0, n := 1, stage := st, outFirst := 0, inFirst := 0, rpages := [], wpages := [], progress := 0, tags := 0,
    ecpl := none, fault := none, seqno := none, recBytes := [], ctx := 0 }
/-- Channel 0 has one free and one ready element and channel 3 none of either; command 5 stands first at both. -/
def tCmdTeam : Team :=
  { tTeam with
    ch := [(0, { Chan.undef with defd := true, esize := 16, cap := 4, res := 3, com := 3, acq := 2, rel := 2, queue := [5] }),
      (3, { Chan.undef with defd := true, esize := 16, cap := 4, res := 4, com := 0, queue := [5] })] }
def tCm (m : Cmd) : State := { tS with teams := [(1, tCmdTeam)], cmds := [(5, m)], buffers := [(255, { Buffer.invalid with valid := true })], lqs := [(0, tReadQ)] }
theorem witness_EngineEvents :
    (∀ st ∈ [CmdStage.issued, .fired], ∀ ch ∈ [0, 3], (Tbl.get? (tCm (tCmd (.cpyin tCopy false) st ch)).cmds 5).map (fun c => (c.stage, c.ch)) = some (st, ch))
    ∧ (tCm (tCmd (.cpyin tCopy false) .issued 0)).team? 1 = some tCmdTeam
    ∧ ((tCmdTeam.chan 0).heads 5 = true ∧ (tCmdTeam.chan 0).outputReady 1 = true ∧ (tCmdTeam.chan 0).inputReady 1 = true)
    ∧ ((tCmdTeam.chan 3).outputReady 1 = false ∧ (tCmdTeam.chan 3).inputReady 1 = false)
    ∧ ((tCm (tCmd (.publish 255 []) .issued 0)).publishReady 1 [] = true
      ∧ (tCm (tCmd (.publish 255 [5]) .issued 0)).publishReady 1 [5] = false ∧ ((tCm (tCmd (.publish 255 []) .issued 0)).buffer 255).valid = true)
    ∧ ((tCm (tCmd (.launch 0 0x40 9) .issued 0)).cmdMaySend 5 (tCmd (.launch 0 0x40 9) .issued 0)).isSome = true
    ∧ (let s := tCm { tCmd (.launch 0 0x40 9) .fired 0 with seqno := some 0 }
       ((0 + 2 ^ 64 - s.ctlWord 0 0x10) % 2 ^ 64 < (s.lq 0).size.toNat ∧ (s.lq 0).size.toNat ≤ (2 + 2 ^ 64 - s.ctlWord 0 0x10) % 2 ^ 64)
       ∧ s.ctlWord 0 8 = 0 ∧ s.ctlWord 0 8 ≠ 1) := by decide +kernel
/-- A wave with the request of command 5, alone and behind an acquire, and commands at the steps of PUBLISH, LAUNCH and a copy out. -/
def tCmdReq : Req := ⟨11, .en, 0, 0, 4, true, [], .cmd 5 none none, 0, []⟩
def tCmw (rs : List Req) (m : Cmd) : State := { tCm m with waves := [(0, { tWave with reqs := rs })] }
theorem witness_EngineEvents_ordered :
    (let m := tCmd (.cpyout tCopy) .issued 0
     (tCmw [tCmdReq] m).cmdOrdered 5 m = true ∧ (tCmw [⟨10, .gl, 0, 1, 4, true, [], .none, 0, []⟩, tCmdReq] m).cmdOrdered 5 m = false)
    ∧ (let m := tCmd (.cpyout tCopy) .fired 0
       (tCm m).wantsTag m = true ∧ (tCm m).tagsHeld m.agent.core < 512 ∧ ({ m with tags := 1 } : Cmd).tags ≠ 0 ∧ m.translates = false ∧ (tCm m).mem.bad = [])
    ∧ (let m := tCmd (.publish 255 []) .issued 0
       let w : Wave := { tWave with reqs := [tCmdReq] }
       (tCmw [tCmdReq] m).wave? 0 0 = some w ∧ w.reqs.find? (fun q => q.isCmd 5) = some tCmdReq ∧ w.maySend tCmdReq = true ∧ m.progress ≠ 1
         ∧ ({ m with progress := 1 } : Cmd).progress = 1 ∧ ((tCm m).buffer 0).valid = false)
    ∧ (let q : Req := { tCmdReq with sent := false }
       let w : Wave := { tWave with reqs := [⟨10, .gl, 0, 1, 4, true, [], .none, 0, []⟩, q] }
       w.reqs.find? (fun q => q.isCmd 5) = some q ∧ w.maySend q = false)
    ∧ (let m : Cmd := { tCmd (.launch 0 0x40 9) .fired 0 with seqno := some 0 }
       m.progress = 0 ∧ (tCm m).backed (((tCm m).lq 0).slot 0) = true ∧ ({ m with recBytes := List.replicate 256 0 } : Cmd).recBytes.length = 256) := by decide +kernel
/-- Another context's team; a fired copy that makes a request; a free tag. -/
theorem witness_EngineEvents_context :
    (let m := tCmd (.cpyout tCopy) .issued 0
     let s : State := { tCm m with launches := [(1, { tLaunch .standing with ctx := 7 })] }
     s.ctxRuns 1 = false ∧ (tCm m).ctxRuns 1 = true ∧ (tCm m).cmdOrdered 5 m = true ∧ (tCm m).cmdRequests m = 1)
    ∧ (let m := tCmd (.launch 0 0x40 9) .fired 0
       (Tbl.get? (tCm m).cmds 5 = some m) ∧ (tCm m).backed (((tCm m).lq 0).slot 0) = true) := by decide +kernel
/-- R26: 512 fired copies of core 0 hold its engine tags. -/
theorem witness_EngineEvents_tags : (let m := tCmd (.cpyout tCopy) .fired 0
    ¬ ({ tCm m with cmds := (5, m) :: (List.range 512).map (fun n => (n + 6, { m with tags := 1 })) } : State).tagsHeld 0 < 512) := by decide +kernel
/-- R364: a copy in fires and reserves its element. -/
theorem test_engineFire : ((nx (exec (.engineFire 5) (tCm (tCmd (.cpyin tCopy false) .issued 0)))).chan 1 0).res = 4 := by decide +kernel

def tQw (op : Nat) (begun : Bool) (f : FmtX) : QWord := ⟨5, op, 0x1000, f, 0, 0, 0, 0, 0, 0, 0, begun, 0, 0, [], [], []⟩
/-- An MMA of channels 0 and 1 over tile 4, whose quarter is 0; MZERO; a transfer of column rows. -/
def tMmaF : FmtX := ⟨0, 0, 4, 0, 1, 4, 0, 0, 0, 0⟩
def tSeqTeam : Team :=
  { tTeam with
    ch := [(0, { Chan.undef with defd := true, esize := 4096, cap := 4, res := 2, com := 2, queue := [5] }), (1, { Chan.undef with defd := true, esize := 4096, cap := 4, res := 2, com := 2, queue := [5] })] }
def tSeq (a x : List QWord) : Stream := { tStream with arrayQ := a, xferQ := x, quarters := [.awake 0, .awake 0, .awake 0, .awake 0], mfmt := [(4, 9)] }
def tSq (m : Stream) : State := { tM with streams := [(0, m)], teams := [(1, tSeqTeam)], win := { Window.reset with mxidle := 8 }, ck := 64 }
theorem witness_MatrixEvents :
    (let q := tQw 0xA2 false tMmaF
     let m := tSeq [q] []
     let ca := (tSq m).chan 1 0
     q.isMma = true ∧ ((ca.heads 5 && ((tSq m).chan 1 1).heads 5 && ca.inputReady 1 && ((tSq m).chan 1 1).inputReady 1
        && (quartersOf tMmaF).all (m.wake (quartersOf tMmaF) 64).isAwake && (tSq m).mayBegin 0 (m.wake (quartersOf tMmaF) 64) q) = true))
    ∧ (let m : Stream := { tSeq [tQw 0xA2 false tMmaF] [] with quarters := [.gated, .gated, .gated, .gated] }
       (quartersOf tMmaF).all (m.wake (quartersOf tMmaF) 64).isAwake = false)
    ∧ ((tQw 0xA2 true tMmaF).isMma = true ∧ (tSq (tSeq [tQw 0xA2 true tMmaF] [])).team? 1 = some tSeqTeam ∧ ((tSq (tSeq [] [])).core 0).chains = [])
    ∧ (tSq (tSeq [tQw 0xA1 false tMmaF] [])).mayBegin 0 (tSeq [tQw 0xA1 false tMmaF] []) (tQw 0xA1 false tMmaF) = true
    ∧ (let q := tQw 0xA4 false { tMmaF with flags := 1 }
       q.f.flags.getLsbD 0 = true ∧ (tSq (tSeq [] [q])).mayBegin 0 (tSeq [] [q]) q = true)
    ∧ (let q := tQw 0xA4 false tMmaF
       let ch := (tSq (tSeq [] [q])).chan 1 0
       q.f.flags.getLsbD 0 = false ∧ (ch.heads q.id && ch.inputReady 1 && (tSq (tSeq [] [q])).mayBegin 0 (tSeq [] [q]) q) = true)
    ∧ (tSeq [] []).mfmt.find? (fun y => decide (y.1 = 4)) = some (4, 9)
    ∧ ((tSeq [] []).quarters.getD 3 .gated = .awake 0 ∧ (tSq (tSeq [] [])).win.mxidle ≠ 0 ∧ 0 + (tSq (tSeq [] [])).win.mxidle ≤ (tSq (tSeq [] [])).ck
      ∧ (tSeq [] []).quarterUsed 3 = false ∧ (tSeq [tQw 0xA2 true tMmaF] []).quarterUsed 0 = true)
    ∧ (({ tSeq [] [] with quarters := [.waking 0] } : Stream).quarters.getD 0 .gated = .waking 0 ∧ 0 + Config.capMxwake ≤ 64 ∧ ¬ 1 + Config.capMxwake ≤ 64) := by decide +kernel
theorem witness_MatrixEvents_begin :
    (let q := tQw 0xA1 false tMmaF
     let m := tSeq [q] []
     q.isMma = false ∧ q.begun = false ∧ (tSq m).mayBegin 0 m q = true ∧ ((tSq m).core 0).chains = [] ∧ ({ q with begun := true } : QWord).begun = true)
    ∧ (let q := tQw 0xA5 true tMmaF
       q.begun = true ∧ q.ecpls = [] ∧ (tSq (tSeq [] [q])).ctxRuns 1 = true) := by decide +kernel
/-- R212, R216: MZERO leaves its queue entry as it begins, and the queue keeps it until it ends. -/
theorem test_mmaFire_mzero : ((nx (exec (.mmaFire 0) (tSq (tSeq [tQw 0xA1 false tMmaF] [])))).stream? 0).map (fun m => m.arrayQ.map (fun q => (q.begun, q.start))) = some [(true, 64)] := by
  decide +kernel
/-- R221: an MFMT's completion writes its format block, 32 bytes at 32 × its number. -/
theorem test_mfmtComplete : ((nx (exec (.mfmtComplete 0 4) (tSq (tSeq [] [])))).stream? 0).map (fun m => (Mem.read m.fb 128, m.mfmt.length)) = some (9, 0) := by
  decide +kernel

/-! ### Words that wait for an acquire; full queues of the sequencer -/

/-- A wave with an acquire load outstanding. -/
def tAcq : Wave := { tWave with reqs := [⟨4, .gl, 0, 1, 4, true, [], .none, 0, []⟩] }
theorem witness_Acquiring : (tState tAcq).runs 0 0 tAcq ∧ tAcq.wins = [] ∧ tAcq.acquiring = true ∧ tAcq.treq = none ∧ tWave.acquiring = false ∧ tChWave.acquiring = false
    ∧ (tAsked (.ended 0)).blockReady tAsk.reqs (tReq (.ended 0)) = true := ⟨⟨rfl, rfl⟩, by decide +kernel⟩
/-- R212: four words that have not begun fill a queue of the sequencer; one of them begun does not. -/
theorem witness_SequencerQueues_full :
    (let q := tQw 0xA1 false tMmaF
     let full := fun (l : List QWord) => decide (4 ≤ (l.filter (fun x => !x.begun)).length)
     full [q, q, q, q] = true ∧ full [{ q with begun := true }, q, q, q] = false ∧ full [] = false) := by decide +kernel
/-- R212: behind a word that has begun, a fourth may issue. -/
theorem test_mzero_full :
    (let q := tQw 0xA1 false tMmaF
     let n := fun (l : List QWord) => ((nx (exec (.mzero ⟨0, 0, 4, 0, 0, 0, 0, 0, 0, 0⟩) (tSq { tSeq l [] with clause := some tClause }))).stream? 0).map (fun m => m.arrayQ.length)
     n [{ q with begun := true }, q, q, q] = some 5 ∧ n [q, q, q, q] = some 4) := by decide +kernel

/-- Chain 5 on core 0 of team 1, as given; a flit for its row 2. -/
def tFl (a : Option Nat) : Flit := ⟨5, 2, 0, 1, 4, 0, 2, [1, 2], false, a⟩
def tGtA (x : Chain) (a : Option Nat) : State := { tGt x tGtStream with flits := [(7, tFl a)] }
def tRcv : Chain := { tChain .reserved with dst := 0, dstTeam := 1, row0 := 0, nrow := 3, count := 2, remain := 8 }
theorem witness_GearTrainEvents :
    (let m : Stream := { tGtStream with check := some 0, clause := some ⟨0x1000, 0, [0xDA00500000000000]⟩ }
     m.check = some 0 ∧ okAnd (decodeWord (0xDA00500000000000 : W64)) (fun i => match i with | .gtsend f => decide (f.chain = 5) | _ => false) = true
     ∧ (tGt Chain.free m).stream? 0 = some m)
    ∧ ((∀ r ∈ (tGtA tRcv none).flits, r.1 < 7 → r.2.answer = none → r.2.sender = 2 → r.2.spos = 0 → r.2.chain = 5 → r.2.dst ≠ 0)
      ∧ (tGtA tRcv none).holdsTeam 0 1 = true ∧ (tGtA tRcv none).holdsTeam 9 1 = false ∧ ((tGtA (tChain .broken) none).chain 0 5).state = .broken)
    ∧ (let x := (tGtA tRcv none).chain 0 5
       (x.state = .reserved ∧ x.row0 ≤ 2 ∧ 2 ≤ x.row0 + x.nrow ∧ Tbl.getD x.arrived 2 0 < x.count) ∧ x.sorted = false ∧ (tGtA tRcv none).chainOpen 0 x = true)
    ∧ ¬ (0 ≤ 2 ∧ 2 ≤ 0 + ({ tRcv with nrow := 1 } : Chain).nrow)
    ∧ (let x : Chain := { tRcv with sorted := true }
       let s : State := { tGtA x none with streams := [(0, { tGtStream with arrayQ := [tQw 0xA1 false tMmaF] })] }
       s.chain 0 5 = x ∧ s.chainOpen 0 { x with tile := 4, stamp := 6 } = false)
    ∧ ((tGtA tRcv none).vacatedFrom 8 1 = true ∧ (tGtA tRcv none).vacatedFrom 0 1 = false)
    ∧ ((tFl (some 1)).answer = some 1 ∧ (let s : State := { tGtA tRcv (some 1) with cores := [(4, { Core.idle with chains := [(5, tChain .send)] })] }
       s.team? 2 = some { tTeam with core := 4, index := 1 } ∧ (s.chain (4 + 0) 5).state = .send))
    ∧ (let s : State := { tGtA tRcv (some 1) with teams := [(1, tTeam)], saved := [(2, ⟨tTeam, [4], [], [], [], [], [], [(0, [(5, tChain .send)])], [], [], 0⟩)] }
       s.team? 2 = none ∧ (Tbl.get? s.saved 2).isSome = true) := by decide +kernel

/-! ### Tuples -/

def tTuple : Tuple := ⟨2, false, 0, [1, 2, 3, 4, 5, 6, 7, 8], []⟩
def tTr (t : TReq) (l : List Tuple) : State := { tState tAsk with treqs := [(5, t)], slices := [(0, { Slice.empty with tuples := l })], ck := 4096 }
/-- A copy that matches any tuple; a deposit; a request that was cancelled or whose limit is past. -/
def tCpy (st : TStage) : TReq := { tReq st with op := .cpy, data := 1 :: List.replicate 15 0 }
def tDep : TReq := { tReq (.waitingFull 0) with op := .dep, data := [1, 2, 3, 4, 5, 6, 7, 8] }
/-- The deposits of TSDEP and of an ECPL on their way, and a take with a deposit waiting at its slice. -/
def tDepT : TReq := { tDep with stage := .travelling }
def tEcplT : TReq := { tDepT with op := .ecpl 9 }
def tTakeT : TReq := { tCpy .travelling with op := .take }
def tRoom (l : List Tuple) : State := { tTr tTakeT l with treqs := [(5, tTakeT), (6, { tDep with stage := .waitingFull 4095 })] }
theorem witness_TupleEvents :
    (∀ t ∈ [tDepT, tEcplT, tCpy .travelling], t.stage = .travelling ∧ (tTr t [tTuple]).flowFirst 5 t = true ∧ t.uniq = false
      ∧ ((tTr t [tTuple]).tupleMaySend 5 t).any (fun s1 => decide (Tbl.get? s1.treqs 5 = some t) && decide ((s1.slice 0).tuples = [tTuple]) && decide (s1.parked 0 = [])
        && decide ((s1.slice 0).watches = [])) = true)
    ∧ (tDepT.op = .dep ∧ tEcplT.op = .ecpl 9 ∧ tDepT.op.deposit = true ∧ (tCpy .travelling).op.deposit = false ∧ (∀ x ∈ [tTuple], 0 ∉ x.bad))
    ∧ (([tTuple].find? (fun y => decide (y.bag = 2) && fitsPattern y.read (tCpy .travelling).data) = some tTuple) ∧ (tTr (tCpy .travelling) [tTuple]).nextWaiting 0 = none)
    ∧ ((tTr (tCpy .travelling) []).tupleMaySend 5 (tCpy .travelling)).any (fun s1 => decide ((s1.slice 0).tuples = [])) = true
    ∧ (0 + 256 ≤ (tTr (tCpy (.retrying 0)) []).ck ∧ ({ tCpy (.retrying 0) with cancelled := true } : TReq).retrying = true ∧ (tCpy (.parked 3)).parkStamp.isSome = true)
    ∧ (4096 ≤ (tTr { tCpy (.parked 3) with deadline := some 4096 } []).ck ∧ (tCpy (.parked 3)).open = true ∧ (tCpy (.parked 3)).cancelled = false)
    ∧ (tDep.op = .dep ∧ 0 + 4096 ≤ (tTr tDep []).ck) := by decide +kernel
/-- The clauses on a full slice, at 65,536 tuples: one more deposit waits, and a take that leaves 65,535 makes room for the one that waits. -/
theorem witness_TupleEvents_full : ((tTr tDepT (List.replicate 65536 tTuple)).slice 0).tuples.length = 65536
    ∧ (∀ x ∈ ((tTr tDepT (List.replicate 65536 tTuple)).slice 0).tuples, 0 ∉ x.bad) ∧ (tTr tDepT (List.replicate 65536 tTuple)).parked 0 = [] :=
  ⟨List.length_replicate, fun x h => by rw [List.eq_of_mem_replicate h]; decide, rfl⟩
def tFull (n : Nat) : List Tuple := tTuple :: List.replicate n { tTuple with stamp := 1 }
theorem tFull_rest (n : Nat) : ((tFull n).filter (fun y => !decide (y.stamp = 0))).length = n := by simp [tFull, tTuple]
theorem witness_TupleEvents_room : (tRoom (tFull 65535)).nextWaiting 0 = some (6, { tDep with stage := .waitingFull 4095 }) ∧ ((tRoom (tFull 65535)).slice 0).tuples = tFull 65535
    ∧ (tFull 65535).find? (fun y => decide (y.bag = 2) && fitsPattern y.read tTakeT.data) = some tTuple
    ∧ ((tFull 65535).filter (fun y => !decide (y.stamp = 0))).length = 65535 :=
  ⟨rfl, rfl, rfl, tFull_rest 65535⟩
theorem witness_TupleEvents_fits : ((tTr tDepT [tTuple]).tupleMaySend 5 tDepT).any (fun s1 => decide ((s1.sliceLines 0).length + 1 ≤ s1.sliceRoom 0)) = true := by decide +kernel
/-- R394, R396: a take removes the tuple it receives. -/
theorem test_tupleMatch : (let t := nx (exec (.tupleMatch 5) (tTr { tCpy .travelling with op := .take } [tTuple]))
    (((Tbl.get? t.treqs 5).map (fun r => (r.stage, r.got.length))) = some (.ended 0, 8)) ∧ (t.slice 0).tuples = []) := by decide +kernel

/-! ### Accesses, lines, the host -/

def tAcc (op : AccOp) : Access := ⟨0, 64, 64, 4, .glob, .rc, false, op, false, 0, false, 0⟩
def tRq (x : Access) : Req := ⟨4, .gs, 0x7D00000000000000, 0, 3, true, [x], .none, 0, []⟩
def tPerf (x : Access) : Wave := { tWave with reqs := [tRq x] }
theorem witness_AccessesPerform :
    (∀ op ∈ [AccOp.write 5, .read, .atom 0 1, .cas 0 1, .red 0 1], (tPerf (tAcc op)).req? 4 = some (tRq (tAcc op)) ∧ (tRq (tAcc op)).accs[0]? = some (tAcc op)
      ∧ (tPerf (tAcc op)).mayPerform (tRq (tAcc op)) 0 (tAcc op) = true)
    ∧ (tS.columnServes 0 (tRq (tAcc (.write 5))) (tAcc (.write 5)) = true ∧ (tRq (tAcc (.write 5))).sem = 0 ∧ (64 : Nat) % 128 + 4 ≤ 128)
    ∧ (tS.columnServes 0 { tRq (tAcc (.write 5)) with scope := 3, sem := 2 } (tAcc (.write 5)) = false ∨ ({ tRq (tAcc (.write 5)) with sem := 2 } : Req).sem ≠ 0)
    ∧ ((tRq (tAcc .read)).versioned = false ∧ (tRq (tAcc (.atom 0 1))).aon = false)
    ∧ ((tAcc (.red 0 1)).redAtHome = false ∧ (∀ r ∈ (tPerf (tAcc (.red 0 1))).before 4, ∀ b ∈ r.accs, b.done = true ∨ ∀ g z, b.op ≠ .red g z)) :=
  ⟨by decide +kernel, by decide +kernel, by decide +kernel, by decide +kernel, by decide +kernel, by simp [Wave.before, tPerf, tRq, tWave, Wave.fresh]⟩
/-- A cluster cache that holds line 0, one whose miss-status entry the request holds, and one whose 1,024 entries others hold. -/
def tCl (k : Cluster) : State := { tState (tPerf (tAcc .read)) with clusters := [(0, k)] }
theorem witness_AccessesPerform_misses :
    ((tRq (tAcc .read)).sem = 0 ∧ (tRq (tAcc .read)).versioned = false ∧ tS.columnServes 0 (tRq (tAcc .read)) (tAcc .read) = true)
    ∧ (let s : State := { tState (tPerf (tAcc .read)) with mem := { MemSys.reset with cols := [(colKey 0 0, ⟨2 ^ 128 - 1, 0, false, 0, 0⟩)] } }
       s.colHit 0 64 4 = true ∧ tS.colHit 0 64 4 = false)
    ∧ ((tCl { Cluster.empty with lines := [(0, ⟨.owned, [], none, false, 0⟩)] }).clusterHas 0 0 = true
      ∧ (tCl { Cluster.empty with misses := [⟨0, [(0, 4)], false⟩] }).missReady 0 0 (0, 4) = true ∧ (tCl Cluster.empty).missReady 0 0 (0, 4) = false)
    ∧ ((tCl Cluster.empty).entryReady 0 0 (tRq (tAcc (.write 5))) (tAcc (.write 5)) = true
      ∧ (tCl { Cluster.empty with misses := List.replicate 1024 ⟨9, [(0, 9)], false⟩ }).entryReady 0 0 (tRq (tAcc (.write 5))) (tAcc (.write 5)) = false)
    ∧ ((tPerf (tAcc .discard)).mayPerform (tRq (tAcc .discard)) 0 (tAcc .discard) = true ∧ tS.mem.wf = true
      ∧ ({ tAcc (.red 0 1) with kind := .so } : Access).redAtHome = true) := by decide +kernel
/-- The last step of a version-word store. -/
theorem witness_AccessesPerform_last : (let x := tAcc (.atom 13 1)
    let q : Req := { tRq x with accs := [{ x with done := true }, { x with op := .write 5, done := true }, x], phase := aonPhase }
    q.aon = true ∧ q.sent = true ∧ 2 + 1 = q.accs.length ∧ (({ tWave with reqs := [q] } : Wave).mayPerform q 2 x) = true) := by decide +kernel
/-- A version-word store on its first step, which adds to its word. -/
theorem witness_AccessesPerform_version : (let q : Req := { tRq (tAcc (.write 5)) with phase := aonPhase }
    q.aon = true ∧ q.accs[0]? = some (tAcc (.write 5)) ∧ (({ tWave with reqs := [q] } : Wave).mayPerform q 0 (tAcc (.write 5))) = true) := by decide +kernel
/-- R312: an access of 16 bytes at the host window performs eight at a time; a RED whose entry is taken waits. -/
theorem witness_AccessesPerform_pieces :
    (let x : Access := { tAcc .read with pa := 2 ^ 46, n := 16 }
     hostWindow x.pa = true ∧ x.piece = 8 ∧ ({ x with got := 8 } : Access).piece = 8 ∧ (tAcc .read).piece = 4 ∧ ({ tAcc .read with n := 16 } : Access).piece = 16)
    ∧ (let s := tCl { Cluster.empty with misses := List.replicate 1024 ⟨9, [(0, 9)], false⟩ }
       (s.colEvict 0 0).entryReady 0 0 (tRq (tAcc (.red 0 1))) (tAcc (.red 0 1)) = false) := by decide +kernel
/-- R313, R326: the home adds 1 to the word 4. -/
theorem test_atomicAtHome : (let s : State := { tState (tPerf (tAcc (.atom 1 1))) with mem := { MemSys.reset with home := [(64, 4)] } }
    Mem.read (nx (exec (.atomicAtHome (.wave 0 0) 4 0) s)).mem.home 64) = 5 := by decide +kernel

/-- A column line whose byte 127 is dirty; a miss of the wave's request on line 5 and a prefetch of line 7; cluster 1's copy of line 5 and an update-only one of
line 6; a replica of line 5; with cluster 0's tables given. -/
def tLnWith (k : Cluster) : State :=
  { tState (tPerf { tAcc .read with pa := 640 }) with
    mem := { MemSys.reset with cols := [(colKey 0 5, ⟨2 ^ 127, 2 ^ 127, false, 2 ^ 1016, 0⟩)], l2 := [(4, ⟨true, true⟩), (5, ⟨true, false⟩)], replicas := [(5, 2)] }
    clusters := [(0, { k with misses := [⟨5, [(0, 4)], false⟩, ⟨7, [], true⟩] }),
      (1, { Cluster.empty with lines := [(5, ⟨.readOnly, [], none, false, 0⟩), (6, ⟨.updateOnly, [], none, false, 0⟩)] })] }
def tLn : State := tLnWith { Cluster.empty with redirects := [(5, 2)] }
def tLnPeer : State := tLnWith { Cluster.empty with peers := [(5, 1)] }
theorem witness_LinesAndHost :
    (tLn.backed (8 * 128) = true ∧ tLn.l2line 8 = none ∧ tLn.linked 8 = true
      ∧ ({ tLn with dies := [(0, { Die.idle with memUp := false })] } : State).linked 0 = false ∧ ({ tLn with dies := [(0, { Die.idle with memUp := false })] } : State).l2line 0 = none ∧ (∀ m ∈ (tLn.cluster 0).misses, m.line = 8 → m.prefetch = false) ∧ (tLn.colLine 0 5).isSome = true
      ∧ (2 ^ 127 : BitVec 128).getLsbD 127 = true ∧ (⟨2 ^ 127, 2 ^ 127, false, 2 ^ 1016, 0⟩ : ColLine).badDirty = false
      ∧ (⟨2 ^ 127, 2 ^ 127, false, 2 ^ 1016, 0x8000⟩ : ColLine).badDirty = true)
    ∧ ((tLn.cluster 0).misses.findIdx? (fun m => decide (m.line = 7) && m.prefetch) = some 1 ∧ (tLn.cluster 0).holdsEntry 1 = true ∧ Tbl.get? (tLn.cluster 0).lines 7 = none
      ∧ (tLn.cluster 0).redirects.find? (fun r => decide (r.1 = 7)) = none ∧ Tbl.get? (tLn.cluster 0).peers (peerIndex 7) = none ∧ tLn.updateOnly 7 = [] ∧ tLn.poisoned 7 = false)
    ∧ (∀ l ∈ [5, 6], (Tbl.get? (tLn.cluster 1).lines l).isSome = true)
    ∧ (tLn.mem.replicas.filter (fun r => decide (r.1 = 4)) = [] ∧ tLn.l2line 4 = some ⟨true, true⟩
      ∧ ({ tLn with mem := { tLn.mem with replicas := [] } } : State).l2line 5 = some ⟨true, false⟩ ∧ tLn.mem.wf = true)
    ∧ (Tbl.get? (tLnPeer.cluster 0).peers (peerIndex 5) = some 1 ∧ tLnPeer.eligibleRead 0 5 = true ∧ (tLnPeer.cluster 0).redirects.any (fun r => decide (r.1 = 5)) = false
      ∧ (tLnPeer.cluster 0).lines.length < 8192 ∧ (Tbl.get? (tLnPeer.cluster 1).lines 5) = some ⟨.readOnly, [], none, false, 0⟩
      ∧ ({ tLnPeer with clusters := [(0, tLnPeer.cluster 0)] } : State).holders 5 = [])
    ∧ ((tLn.cluster 0).redirects.find? (fun r => decide (r.1 = 5)) = some (5, 2) ∧ tLn.eligibleRead 0 5 = true ∧ (5, 2) ∈ tLn.mem.replicas)
    ∧ (47 < tLn.coreCount / 4 ∧ (([(0, 0x3000)] : List (Nat × Nat)).take 512).any (walkCovers 0x3008) = true ∧ ([(0, 0x3000)] : List (Nat × Nat)).any (walkCovers 0x4000) = false
      ∧ walkCovers 0x212345 (0, 0x200001) = true ∧ (tLn.die 0).walks.length < 512)
    ∧ (191 < tLn.coreCount ∧ tLn.hostReaches 0x3FFFFFFFFF 1 = true ∧ tLn.hostReaches 0x4000000000 1 = false ∧ tLn.fred.ckpt = none
      ∧ ({ tLn with fred := { tLn.fred with ckpt := some (0, 1) } } : State).fred.ckpt = some (0, 1))
    ∧ (hostWindow (2 ^ 39 * 128) = true ∧ tLn.fred.cxlUp = true ∧ tLn.poisoned (2 ^ 39) = false
      ∧ ({ tLn with mem := { tLn.mem with l2 := [(2 ^ 39, ⟨false, true⟩)] } } : State).poisoned (2 ^ 39) = true) := by decide +kernel
/-- A dirty line of the host window in a column. -/
theorem witness_LinesAndHost_window : (let s : State := { tS with mem := { MemSys.reset with cols := [(colKey 0 (2 ^ 39), ⟨2 ^ 128 - 1, 0xFFFF, false, 5, 0⟩)] } }
    (s.colLine 0 (2 ^ 39)).isSome = true ∧ hostWindow (2 ^ 39 * 128) = true
      ∧ ((s.colCleanWord 0 (2 ^ 39) 0).colLine 0 (2 ^ 39)).map (fun x => x.dirty) = some 0xFF00) := by decide +kernel
/-- R286: the write an evicted line makes: its dirty bytes reach the home, and no other. -/
theorem test_columnEviction : (let t := tLn.homeWriteCells 5 (ColLine.dirtyCells ⟨2 ^ 127, 2 ^ 127, false, 2 ^ 1016, 0⟩ 5) (some 0)
    (Mem.read t.mem.home 767, Mem.read t.mem.home 766)) = (1, 0) := by decide +kernel

/-! ### Raster and bins -/

def tBatch (ctx : Nat) : Batch := ⟨5, 0, 0, 0x40, true, 0, ctx⟩
def tFrame (closed : Bool) : Frame := ⟨0x40, some 5, true, closed, [], 0⟩
def tEntry (n : Nat) : BinEntry := ⟨0, 0, 0, 0, 0, 2, n, 0, 32 * n⟩
def tRs (d : Die) (n : Nat) : State :=
  { State.reset with
    dies := [(0, d)], tiles := [(0, { Tile.free with state := .raster, frame := 0x40 })], ck := n
    launches := [(3, { tLaunch .standing with material := some 9 })] }
def tBin (k n : Nat) : State := tRs { Die.idle with bins := [(9, (List.range k).map tEntry)] } n
theorem witness_RasterAndBinEvents :
    (∀ c ∈ [0, 1], (((tRs { Die.idle with rasterQ := [tBatch c] } 0).admitAll 0).die 0).rasterQ = [tBatch c])
    ∧ (let s := tRs { Die.idle with frames := [tFrame false] } 0
       (s.die 0).frames.find? (fun f => f.closing && !f.closed && !(s.die 0).rasterQ.any (fun b => decide (b.frame = f.desc))) = some (tFrame false) ∧ s.frameTiles 0 0x40 = [0])
    ∧ ((tBin 33 0).forming 0 9).any (fun x => decide (x.2.2.rest ≠ [])) = true
    ∧ ((tBin 32 65536).forming 0 9).any (fun x => decide (x.2.2.rest = []) && !x.2.2.tiles.any (tBin 32 0).frameClassified) = true
    ∧ ((tBin 32 65536).win.binflush = 65536 ∧ (Tbl.getD ((tBin 32 0).die 0).bins 9 []).head?.map (fun e => e.when) = some 0) := by decide +kernel
theorem witness_RasterAndBinEvents_classify : (let s := tRs { Die.idle with closedOrder := [0] } 0
    s.tiles.find? (fun r => decide (dieOfTile r.1 = 0) && decide (tileEngine r.1 = tileEngine 0) && decide (r.2.state = .shading) && !r.2.todo.isEmpty) = none
    ∧ (s.die 0).closedOrder.find? (fun t => decide (tileEngine t = tileEngine 0)) = some 0 ∧ (s.die 0).frames = []) :=
  ⟨by simp [tRs, Tile.free], by simp [tRs, State.die, Tbl.getD, Tbl.get?, State.reset], rfl⟩
/-- R384: 33 entries make a wave of 32 and leave one. -/
theorem test_binWaveClose : (let t := nx (exec (.binWaveClose 0 9) (tBin 33 0))
    ((t.launch? 3).map (fun l => l.binTeams.map (fun b => b.lanes.length)), (Tbl.getD (t.die 0).bins 9 []).length)) = (some [32], 1) := by decide +kernel

/-! ### The window, sensors, Fredusin -/

theorem witness_WindowCommands : tS.hostUp = true
    ∧ (tS.win.invRun = false ∧ tS.win.invVa.toNat % 4096 = 0 ∧ ({ Window.reset with invVa := 1 } : Window).invVa.toNat % 4096 ≠ 0
      ∧ ({ tS with win := { Window.reset with invRun := true } } : State).win.invRun = true ∧ tS.win.bagAddr.toNat < 2 ^ 48)
    ∧ (0 < tS.coreCount ∧ tS.wave? 0 0 = some tWave ∧ tWave.halted = false ∧ tWave.stopped = false ∧ tWave.dbg = false ∧ tWave.blocked = false
      ∧ (let w : Wave := { tWave with dbg := true }
         (tState w).wave? 0 0 = some w ∧ w.trapPending = false) ∧ ({ tWave with stopped := true } : Wave).stopped = true)
    ∧ ((tHeld 0).block = .word 0 1 0 ∧ (tHeld 0).clause.isSome = true ∧ (tHeld 0).treq = none ∧ (tHeld 0).dbg = false)
    ∧ (let m := tCmd (.publish 255 []) .issued 0
       Tbl.get? (tCm m).cmds 5 = some m ∧ ((tCm m).buffer 255).valid = true)
    ∧ (tS.treqs = [] ∧ tS.win.held = []) := by decide +kernel
/-- R490, R452: the debug port selects s3 of a wave that the debugger has halted. -/
def tPort (dbg : Bool) : State := { tState { tWave with dbg := dbg } with win := { Window.reset with dbgSel := 0x300000000 } }
theorem witness_WindowCommands_port : (tPort true).hostUp = true ∧ (tPort true).win.dbgAgent = .wave 0 0 ∧ (tPort true).win.dbgReg = 3
    ∧ ((tPort true).wave? 0 0).map (fun w => w.dbg) = some true ∧ ((tPort false).wave? 0 0).map (fun w => w.dbg) = some false := by decide +kernel
/-- R452: the debugger reads s3 of the halted wave, and of no other. -/
theorem test_debugPort : (tPort true).windowRead 0x40008 = 7 ∧ (tPort false).windowRead 0x40008 = 0 := by decide +kernel
/-- R49: PLACE_THOT saturates at 60 and 105. -/
theorem test_registerWrite : ((nx (exec (.registerWrite 0 59) tS)).win.thot, (nx (exec (.registerWrite 0 106) tS)).win.thot, (nx (exec (.registerWrite 0 61) tS)).win.thot)
    = (60, 105, 61) := by decide +kernel
theorem test_bufferEntryWrite : ((nx (exec (.bufferEntryWrite 255 0 0x4000000003) tS)).buffer 255) = { Buffer.invalid with valid := true, cur := true, size := 64 } := by
  decide +kernel

theorem witness_SensorsAndPower :
    (191 < tS.coreCount ∧ tS.fred.powerOff = false ∧ tS.hostUp = true ∧ (880 : Int) ≤ (880 : BitVec 16).toInt ∧ 8 * (tS.win.thot : Int) ≤ (760 : BitVec 16).toInt ∧ ¬ 8 * (tS.win.thot : Int) ≤ (759 : BitVec 16).toInt)
    ∧ (tS.time < (tS.window + 1) * 17000000 ∧ (({ tS with time := 17000000 } : State).window + 1) * 17000000 ≤ ({ tS with time := 17000000 } : State).time)
    ∧ (3 < tS.coreCount / 48 ∧ (420 : Nat) ≤ 520)
    ∧ (tS.hasStore (.column 191) = true ∧ tS.hasStore (.bank 3 15) = true ∧ tS.mayGate 5 = true ∧ tS.mayGate 0 = false ∧ tS.dbgHolds (.column 5) = false
      ∧ tS.power (.column 5) ≠ .off ∧ ({ tS with cores := [(5, { Core.idle with powered := .off })] } : State).power (.column 5) = .off)
    ∧ tS.leave (.bank 3 15) = true
    ∧ ({ tS with cores := [(5, { Core.idle with dbgRead := true })] } : State).dbgHolds (.column 5) = true := by decide +kernel
/-- R485: a reading of 95 °C holds the core; R499: one of 110 °C, 880 eighths, removes power. -/
theorem test_tempSample : (((nx (exec (.tempSample 5 760) tS)).core 5).held, ((nx (exec (.tempSample 5 759) tS)).core 5).held) = (true, false)
    ∧ (nx (exec (.tempSample 5 880) tS)).fred.powerOff = true ∧ (nx (exec (.tempSample 5 879) tS)).fred.powerOff = false := by decide +kernel

/-- A start at a stage, its image good; one whose BOOTOK limit is 100. -/
def tFr (n : Nat) : State := { State.reset with fred := { Fred.reset with stage := n, bootDeadline := if n = 7 then some 100 else none } }
theorem witness_FredusinEvents :
    (∀ n ∈ [0, 2, 6], (tFr n).fred.running = true ∧ (tFr n).fred.stage < 7 ∧ (tFr n).fred.accepts = true)
    ∧ (({ (tFr 0).fred with images := [(0, ([1], [2]))] } : Fred).accepts = false ∧ (2 : Byte).toNat = stageCause 2 ∧ (1 : Byte).toNat = stageCause 1)
    ∧ ((tFr 7).fred.bootDeadline = some 100 ∧ (tFr 7).hostUp = true ∧ (tFr 7).up = true ∧ ({ tFr 7 with time := 100 } : State).time ≤ 100 ∧ 100 < ({ tFr 7 with time := 101 } : State).time)
    ∧ (tS.fred.powerOff = false ∧ tS.mailUp = true ∧ tS.hostUp = true ∧ tS.fred.ckpt = none ∧ (2 ^ 46 - 2 ^ 38) + 2 ^ 38 ≤ 2 ^ 46 ∧ tS.lqs.any (fun r => r.2.enable) = false)
    ∧ ({ tS with fred := { tS.fred with ckpt := some (0, 1) } } : State).fred.ckpt = some (0, 1) ∧ 3 < tS.coreCount / 48 := by decide +kernel
/-- R493: a failing stage counts toward the three failures of a full start (stage 4 fails with cause 3); R499: at 110 °C power goes. -/
theorem test_bootStage : (let t := nx (exec (.bootStage (some 3)) (tFr 3)); (t.fred.running, t.fred.fails)) = (false, 1)
    ∧ (nx (exec (.bootStage (some 7)) (tFr 3))).fred.powerOff = true := by decide +kernel

/-! ### Decoding, the step, the invariant -/

/-- A wave and a stream at a word, an event of the agenda, and a placed word. -/
def tAgenda (a : Turn) : State := { tS with agenda := [a] }
theorem witness_StepRunsDecodedWord :
    ((tAgenda (.agent (.wave 0 0))).wave? 0 0 = some tWave ∧ (tWave.dbgReq = true → tWave.block = .none) ∧ tWave.clause = some tClause ∧ tWave.waitMet = true
      ∧ okAnd (decodeWord (tClause.words.getD tWave.widx 0)) (fun _ => true) = true ∧ okAnd (decodeWord (0 : W64)) (fun _ => true) = false)
    ∧ ((tAgenda (.agent (.stream 0))).stream? 0 = some tStream ∧ tStream.halted = false ∧ tStream.stopped = false ∧ tStream.dbg = false ∧ tStream.stopReq = false
      ∧ tStream.poisonPc = none ∧ tStream.clause = some tClause)
    ∧ (tWave.badW = [] ∧ tS.mem.bad = [] ∧ tWave.pipe.isSome = true)
    ∧ (let w : Wave := { tWave with pipe := none }
       w.block = .none ∧ (tState w).idlePipe 0 w.adr = some 0
         ∧ ({ tS with waves := (0, w) :: (List.range 4).map (fun p => (p + 1, { tWave with pipe := some p })) } : State).idlePipe 0 w.adr = none)
    ∧ (Instr.vacateComplete).isWord = false ∧ (decodeTableWord 64 0x7D00000000000000).isSome = true := by decide +kernel
/-- The running context's wave may issue and another context's may not; a scalar word under LA is alone, a path word under LA is not. -/
theorem witness_StepRunsDecodedWord_issue :
    (tS.mayIssue 0 1 = true ∧ ({ tS with launches := [(1, { tLaunch .standing with ctx := 7 })] } : State).mayIssue 0 1 = false)
    ∧ (let alone := fun (word : W64) => decide (word.toNat / 2 ^ 52 % 16 = 0) || !opPathLong (opOf word)
       alone 0x7D00000000000000 = true ∧ alone 0x0450000000000000 = true ∧ alone 0x8850000000000000 = false)
    ∧ (let p := State.reset.withFetchWord 64 0x01000C1A00000040
       p.cur.any p.canTurn = true ∧ 0x01000C1A00000040 / 2 ^ 52 % 16 = 0) := by decide +kernel
/-- A step at a NOP goes on past it. -/
theorem test_step_nop : (match step (tAgenda (.agent (.wave 0 0))) with | .next t => (t.wave? 0 0).map (fun w => (w.widx, t.ck)) | _ => none) = some (1, 1) := by decide +kernel
/-- The first step after reset runs the placed word: SADD s6, s6, 0x40 (R150). -/
theorem test_fetchWord : (match step (State.reset.withFetchWord 64 0x01000C1A00000040) with | .next t => t.waves.map (fun r => r.2.rawS 6) | _ => []) = [0x40] := by decide +kernel

theorem witness_DecodeEncode : (let i : Instr := .srot ⟨0, 0, 127, 127, .imm 0xFFFFFFFF⟩; i.wf = true ∧ (encode i).isSome = true)
    ∧ okAnd (decodeWord 0x7D00000000000000) (fun i => i.wf) = true := by decide +kernel
theorem reset_inv : State.reset.Inv := rfl
theorem witness_StepKeepsInv : tCode.mem.wf = true ∧ (match step { tCode with agenda := [.agent (.wave 0 0)] } with | .next t => t.mem.wf | _ => false) = true := by decide +kernel

/-! ### Context slots -/

/-- R458: 0x800 bytes of scalars, stack and records, then here 4 registers of 32 lanes; s3 at byte 12, v3's lane 1 (value 0xFFFFFFFF) at
0x800 + 4 × (3 × 32 + 1). -/
theorem test_waveImage : (let b := ({ tWave with vregs := 4, lanePriv := 0 } : Wave).image
    b.length = 0x800 + 512 ∧ fieldOf b 12 4 = 7 ∧ fieldOf b (0x800 + 4 * 97) 4 = 0xFFFFFFFF) := by decide +kernel

end Sys2Proof.Tests
end

section
/-! SUPPORT. What every operation of the memory fabric leaves unchanged of the device outside the caches, the home slices and the
byte stores. -/

namespace Sys2Proof.Machine

/-- `t` has the clock of `s`, its Fredusin and its columns' power states, and lacks something if `s` did: what every operation
of the caches and the home slices keeps of the device. -/
structure State.Keeps (s t : State) : Prop where
  ck : t.ck = s.ck
  fred : t.fred = s.fred
  powered : ∀ c, (t.core c).powered = (s.core c).powered
  lack : s.lack.isSome = true → t.lack.isSome = true

namespace State.Keeps

theorem same (s : State) : s.Keeps s := ⟨rfl, rfl, fun _ => rfl, id⟩

section
variable {r s : State} (h : r.Keeps s)
include h

/-- An update of fields other than the clock, Fredusin, the cores and `lack`. -/
theorem of_eq {t : State} (hck : t.ck = s.ck) (hf : t.fred = s.fred) (hc : t.cores = s.cores) (hl : t.lack = s.lack) : r.Keeps t :=
  ⟨hck.trans h.ck, hf.trans h.fred, fun c => by rw [State.core_of_cores hc]; exact h.powered c, fun x => by rw [hl]; exact h.lack x⟩
theorem fold {α : Type} {f : State → α → State} {l : List α} (hf : ∀ u a, r.Keeps u → r.Keeps (f u a)) : r.Keeps (l.foldl f s) :=
  foldl_pred (P := r.Keeps) hf l h

/-- Minimal mode and the columns' power states decide whether a core has a column. -/
theorem noColumn (c : Nat) : s.noColumn c = r.noColumn c := by
  unfold State.noColumn State.minimal; rw [h.fred, h.powered]
theorem columnServes (c : Nat) (q : Req) (x : Access) : s.columnServes c q x = r.columnServes c q x := by
  unfold State.columnServes; rw [h.noColumn]

theorem setCluster (c : Nat) (x : Cluster) : r.Keeps (s.setCluster c x) := h.of_eq rfl rfl rfl rfl
theorem setSlice (n : Nat) (x : Slice) : r.Keeps (s.setSlice n x) := h.of_eq rfl rfl rfl rfl
theorem count (dom inst idx n : Nat) : r.Keeps (s.count dom inst idx n) := h.of_eq rfl rfl rfl rfl
theorem setMem (m : MemSys) : r.Keeps { s with mem := m } := h.of_eq rfl rfl rfl rfl
theorem setWave (c k : Nat) (w : Wave) : r.Keeps (s.setWave c k w) := h.of_eq rfl rfl rfl rfl
theorem updWave (c k : Nat) (f : Wave → Wave) : r.Keeps (s.updWave c k f) := h.of_eq rfl rfl rfl rfl
theorem errorReport (code : Nat) : r.Keeps (s.errorReport code) := h.of_eq rfl rfl rfl rfl
theorem setLack (x : Lack) : r.Keeps { s with lack := some x } := ⟨h.ck, h.fred, h.powered, fun _ => rfl⟩
theorem pmcCount (core ev n team : Nat) : r.Keeps (s.pmcCount core ev n team) := by
  unfold State.pmcCount
  dsimp only; split
  · refine ⟨h.ck, h.fred, fun c => ?_, h.lack⟩
    rw [State.core_setCore, ← h.powered c]; split <;> simp_all
  · exact h

/-! ### The home slices -/

theorem l2Evict (line : Nat) : r.Keeps (s.l2Evict line) := by
  unfold State.l2Evict
  split
  · split
    · exact h
    · exact h.setMem _
  · exact h
theorem sliceEvict (n : Nat) : r.Keeps (s.sliceEvict n) := by
  unfold State.sliceEvict
  dsimp only; split
  · exact h.l2Evict _
  · exact h
theorem sliceTrim (n spare : Nat) : r.Keeps (s.sliceTrim n spare) := h.fold fun _ _ hu => hu.sliceEvict n
theorem needLoop (c : Option Nat) (line : Nat) : r.Keeps (s.needLoop c line) := by
  unfold State.needLoop
  split
  · exact h
  · exact h.setLack _
theorem fill (line : Nat) : r.Keeps (s.fill line) := by
  unfold State.fill
  split
  · exact h
  · have hl : r.Keeps (if s.linked line then s else { s with lack := some .link }) := by
      split
      · exact h
      · exact h.setLack _
    exact ((hl.sliceTrim _ 1).setMem _).count ..
theorem dropCopy (c line : Nat) : r.Keeps (s.dropCopy c line) := by
  unfold State.dropCopy
  dsimp only; split
  · split
    · exact (h.setCluster ..).count ..
    · exact h.setCluster ..
  · exact h
theorem dropReplicas (line : Nat) : r.Keeps (s.dropReplicas line) := by
  unfold State.dropReplicas
  extract_lets reps m s₁ s₂
  have h₂ : r.Keeps s₂ := by
    unfold s₂; split
    · exact h.setMem _
    · exact (h.setMem _).count ..
  refine h₂.fold fun u c hu => ?_
  dsimp only; split
  · exact hu.setCluster ..
  · exact hu
theorem combine (unit : Nat) (p : Partial) : r.Keeps (s.combine unit p) := h.setMem _
theorem bumpSeq (line : Nat) : r.Keeps (s.bumpSeq line) := (h.setSlice ..).count ..
theorem recallFrom (line : Nat) (cs : List Nat) : r.Keeps (s.recallFrom line cs) := by
  unfold State.recallFrom
  split
  · exact h
  · extract_lets s₁ words s₂ s₃
    have h₁ : r.Keeps s₁ := ((h.dropReplicas line).fill line).count ..
    have h₂ : r.Keeps s₂ := h₁.fold fun u w hu => by
      dsimp only; split
      · exact hu
      · exact (hu.fold fun _ up hv => hv.combine up.1 up.2).bumpSeq line
    have h₃ : r.Keeps s₃ := h₂.fold fun _ c hu => hu.dropCopy c line
    split
    · exact h₃.setMem _
    · exact h₃
theorem recallCopies (line : Nat) : r.Keeps (s.recall line) := h.recallFrom line _
theorem dropOthers (line : Nat) (writer : Option Nat) : r.Keeps (s.dropOthers line writer) := by
  unfold State.dropOthers
  extract_lets s₁ s₂
  have h₁ : r.Keeps s₁ := h.fold fun _ c hu => hu.dropCopy c line
  have h₂ : r.Keeps s₂ := by
    unfold s₂; split
    · exact h₁
    · exact h₁.setCluster ..
  exact h₂.dropReplicas line
theorem grantOwned (c line : Nat) : r.Keeps (s.grantOwned c line) := by
  unfold State.grantOwned
  dsimp only; split
  · exact h.setCluster ..
  · exact h
theorem homeWriteCells (line : Nat) (cs : List Host.Cell) (writer : Option Nat) : r.Keeps (s.homeWriteCells line cs writer) := by
  unfold State.homeWriteCells
  have h₁ := (((h.needLoop writer line).recallCopies line).dropOthers line writer).fill line
  dsimp only; split
  · exact (h₁.setMem _).bumpSeq line
  · exact (h₁.setMem _).bumpSeq line
theorem homeWriteBytes (pa : Nat) (bs : List Byte) (writer : Option Nat) : r.Keeps (s.homeWriteBytes pa bs writer) := by
  unfold State.homeWriteBytes
  split
  · exact h
  · exact h.fold fun _ l hu => hu.homeWriteCells l _ writer
theorem homeTouch (line : Nat) : r.Keeps (s.homeTouch line) := ((h.recallCopies line).fill line).count ..
theorem setPoison (line : Nat) : r.Keeps (s.setPoison line) := by
  have hf := h.fill line
  unfold State.setPoison
  dsimp only; split
  · exact hf
  · split
    · exact ((hf.setMem _).count ..).errorReport _
    · split
      · exact hf.setMem _
      · exact hf

/-! ### The column caches -/

theorem setCol (c l : Nat) (x : ColLine) : r.Keeps (s.setCol c l x) := h.setMem _
theorem dropCol (c l : Nat) : r.Keeps (s.dropCol c l) := h.setMem _
theorem colClean (core line : Nat) : r.Keeps (s.colClean core line) := by
  unfold State.colClean
  split
  · split
    · exact h
    · extract_lets cl s₁ s₂
      have h₂ : r.Keeps s₂ := (((h.homeWriteCells ..).grantOwned ..).setCol ..).pmcCount ..
      split
      · exact ((h₂.setPoison line).dropCopy cl line).count ..
      · exact h₂
  · exact h
theorem colEvict (core line : Nat) : r.Keeps (s.colEvict core line) := (h.colClean core line).dropCol core line
theorem colSweep (core : Nat) (p : ColLine → Bool) (inv : Bool) : r.Keeps (s.colSweep core p inv) := by
  refine h.fold fun u l hu => ?_
  split
  · split
    · split
      · exact hu.colEvict core l
      · exact hu.colClean core l
    · exact hu
  · exact hu
theorem tagLast (core slot : Nat) (lines : List Nat) : r.Keeps (s.tagLast core slot lines) := by
  unfold State.tagLast
  split
  · exact h.updWave ..
  · exact h
theorem columnRelease (paired : Bool) (scope core : Nat) : r.Keeps (s.columnRelease paired scope core) := by
  unfold State.columnRelease
  split
  · exact h.colSweep ..
  · exact h
theorem releaseFor (core slot : Nat) (paired : Bool) (scope : Nat) : r.Keeps (s.releaseFor core slot paired scope) := by
  unfold State.releaseFor
  split
  · exact (h.columnRelease ..).tagLast ..
  · exact h
theorem sendReq (core slot : Nat) (w : Wave) (q : Req) : r.Keeps (s.sendReq core slot w q) := by
  unfold State.sendReq
  split
  · exact h
  · dsimp only; split
    · exact (h.setWave ..).releaseFor ..
    · exact h.setWave ..

/-! ### The cluster caches and the answer to a read -/

theorem clusterMakeRoom (c : Nat) : r.Keeps (s.clusterMakeRoom c) := by
  unfold State.clusterMakeRoom
  dsimp only; split
  · exact h
  · split
    · exact h.dropCopy c _
    · split
      · exact h.recallCopies _
      · exact h
theorem takeCopy (c line : Nat) (x : CLine) : r.Keeps (s.takeCopy c line x) := (h.clusterMakeRoom c).setCluster ..
theorem shareLine (line : Nat) : r.Keeps (s.shareLine line) := h.fold fun _ c hu => hu.setCluster c _
theorem installCopy (c line : Nat) (pf : Bool) (peer : Option Nat) : r.Keeps (s.installCopy c line pf peer) := by
  unfold State.installCopy
  dsimp only; split
  · split
    · exact h
    · exact h.setCluster ..
  · exact (h.shareLine line).takeCopy ..
theorem learnPeer (c line : Nat) : r.Keeps (s.learnPeer c line) := by
  unfold State.learnPeer
  split
  · exact h.setCluster ..
  · exact h
theorem pushReplicas (line : Nat) : r.Keeps (s.pushReplicas line) :=
  ((h.setMem _).fold fun _ p hu => hu.sliceTrim p 0).count ..
theorem repeaterCount (c line : Nat) : r.Keeps (s.repeaterCount c line) := by
  unfold State.repeaterCount
  dsimp only; split
  · exact h
  · split
    · refine ((h.setSlice ..).pushReplicas line).fold fun u c hu => ?_
      split
      · exact hu.setCluster ..
      · exact hu
    · exact h.setSlice ..
theorem homeServe (c : Option Nat) (line : Nat) : r.Keeps (s.homeServe c line) := by
  have h₁ := (h.needLoop c line).homeTouch line
  unfold State.homeServe
  dsimp only; split
  · exact (h₁.learnPeer ..).repeaterCount ..
  · exact h₁.repeaterCount ..
theorem homeAnswer (c line : Nat) (pf : Bool) : r.Keeps (s.homeAnswer c line pf).1 := by
  have h₁ := h.homeServe (some c) line
  unfold State.homeAnswer
  dsimp only; split
  · exact h₁
  · dsimp only
    exact h₁.installCopy ..
theorem redirectedRead (c line helper : Nat) (pf : Bool) : r.Keeps (s.redirectedRead c line helper pf).1 := by
  unfold State.redirectedRead
  dsimp only; split
  · dsimp only
    exact (((h.setCluster ..).count ..).count ..).installCopy ..
  · exact homeAnswer ((h.setCluster ..).count ..) ..
theorem clearAndAsk (c line : Nat) (pf : Bool) : r.Keeps (State.probePeer.clearAndAsk c line pf s).1 := by
  unfold State.probePeer.clearAndAsk
  exact homeAnswer ((h.setCluster ..).count ..) ..
theorem probePeer (c line p : Nat) (pf : Bool) : r.Keeps (s.probePeer c line p pf).1 := by
  unfold State.probePeer
  split
  · split
    · dsimp only
      exact (((h.setCluster ..).installCopy ..).count ..).count ..
    · exact h.clearAndAsk c line pf
  · exact h.clearAndAsk c line pf
theorem serveLine (c line : Nat) (plain pf : Bool) : r.Keeps (s.serveLine c line plain pf).1 := by
  unfold State.serveLine
  dsimp only; split
  · split
    · exact h.redirectedRead ..
    · split
      · exact h.probePeer ..
      · exact h.homeAnswer ..
  · exact h.homeAnswer ..
theorem endEntry (c line : Nat) : r.Keeps (s.endEntry c line) := by
  unfold State.endEntry
  dsimp only; split
  · exact h.setCluster ..
  · exact h
theorem fillPrefetch (c line : Nat) : r.Keeps (s.fillPrefetch c line) := by
  have h₁ := (h.endEntry c line).serveLine c line true true
  unfold State.fillPrefetch
  dsimp only; split
  · split
    · split
      · exact h₁.count ..
      · exact h₁
    · exact h
  · exact h

/-! ### Checkpoint and restore -/

theorem recallAll : r.Keeps s.recallAll := h.fold fun _ l hu => hu.recallCopies l
theorem forget (a n : Nat) : r.Keeps (s.forget a n) :=
  (h.fold fun _ _ hu => hu.fold fun _ _ hv => hv.dropCopy ..).setMem _
theorem copyRange (src : Mem) (a n b : Nat) : r.Keeps (s.copyRange src a n b) := (h.forget b n).setMem _

end
end State.Keeps

end Sys2Proof.Machine
end

section
/-! SUPPORT. Sensors, supplies and power states (R22, R49, R306, R307, R485, R499), and the proof of O54. -/

namespace Sys2Proof.Machine

/-! ### Samples, droops and their windows (R49, R485, R499) -/

@[simp] theorem Core.judge_temp (x : Core) (thot dmax : Nat) (whole : Bool) : (x.judge thot dmax whole).temp = x.temp := by
  unfold Core.judge; split_ifs <;> rfl
@[simp] theorem Core.judge_droopCur (x : Core) (thot dmax : Nat) (whole : Bool) :
    (x.judge thot dmax whole).droopCur = x.droopCur := by
  unfold Core.judge; split_ifs <;> rfl
/-- A core as hot as THOT is held, and stays so (R49). -/
theorem Core.judge_held_of_hot {x : Core} {thot : Nat} (h : 8 * (thot : Int) ≤ x.temp) (dmax : Nat) (whole : Bool) :
    (x.judge thot dmax whole).held = true := by
  unfold Core.judge
  by_cases hh : x.held = true
  · rw [if_pos hh, if_neg (by omega)]; exact hh
  · rw [if_neg hh, if_pos (.inl h)]

theorem State.core_judgeCore_self (s : State) (c : Nat) (whole : Bool) :
    (s.judgeCore c whole).core c = (s.core c).judge s.win.thot s.win.dmax whole := State.core_setCore_self ..
theorem State.droopCur_judgeCore_setCore (s : State) (c : Nat) (x : Core) (whole : Bool) :
    (((s.setCore c x).judgeCore c whole).core c).droopCur = x.droopCur := by
  rw [State.core_judgeCore_self, State.core_setCore_self, Core.judge_droopCur]
@[simp] theorem State.judgeCore_window (s : State) (c : Nat) (whole : Bool) : (s.judgeCore c whole).window = s.window := rfl
@[simp] theorem State.powerHold_window (s : State) (mean : Nat) : (s.powerHold mean).window = s.window := by
  unfold State.powerHold
  split
  · split <;> rfl
  · split
    · split <;> rfl
    · rfl

theorem tempSample_ends (s : State) (c : Nat) (r : W16) (hc : c < s.coreCount) (hp : s.fred.powerOff = false) :
    ∃ t, exec (.tempSample c r) s = .next t ∧ if (880 : Int) ≤ r.toInt then
        t.fred.powerOff = true ∧ t.fred.overtemp = true ∧ t.fred.running = false ∧ t.waves = []
      else (t.core c).temp = r.toInt ∧ t.mem = s.mem ∧ (8 * (s.win.thot : Int) ≤ r.toInt → (t.core c).held = true) := by
  rw [exec_tempSample, execTempSample, if_neg (by simp [hp]; omega)]
  by_cases hr : (880 : Int) ≤ r.toInt
  · simp only [if_pos hr]
    exact ⟨_, rfl, rfl, rfl, rfl, rfl⟩
  · simp only [if_neg hr]
    refine ⟨_, rfl, ?_, by simp, fun h => ?_⟩ <;> rw [State.core_judgeCore_self, State.core_setCore_self]
    · exact Core.judge_temp ..
    · exact Core.judge_held_of_hot h ..

theorem droopEvent_ends (s : State) (c : Nat) (hc : c < s.coreCount) : ∃ t, exec (.droopEvent c) s = .next t
    ∧ (t.core c).droopCur = ((s.core c).droopCur + 1) % 65536 ∧ 1 ≤ t.stretch ∧ t.mem = s.mem := by
  rw [exec_droopEvent, execDroopEvent, if_neg (by omega)]
  refine ⟨_, rfl, ?_, ?_, by simp⟩
  · exact State.droopCur_judgeCore_setCore s c { s.core c with droopCur := ((s.core c).droopCur + 1) % 65536 } false
  · exact (Nat.le_add_right 1 _).trans (le_max_right ..)

theorem droopWindowClose_early (s : State) (p : Nat) (h : s.time < (s.window + 1) * 17000000) :
    exec (.droopWindowClose p) s = .next s := by
  rw [exec_droopWindowClose, execDroopWindowClose, if_pos h]

theorem droopWindowClose_ends (s : State) (p : Nat) (h : (s.window + 1) * 17000000 ≤ s.time) :
    ∃ t, exec (.droopWindowClose p) s = .next t ∧ t.window = s.window + 1 ∧ t.mem = s.mem ∧ t.waves = s.waves := by
  rw [exec_droopWindowClose, execDroopWindowClose, if_neg (by omega)]
  have same {β : Type} (f : State → β) (hj : ∀ u c, f (State.judgeCore u c true) = f u) (hh : ∀ u, f (State.powerHold u p) = f u)
      (hc : ∀ (u : State) c x, f (u.setCore c x) = f u) (l : List Nat) :
      f (l.foldl (fun u c => u.judgeCore c true) (State.powerHold (s.cores.foldl
        (fun u r => u.setCore r.1 (r.2.closeWindow u.win.dmax)) { s with window := s.window + 1 }) p)) = f { s with window := s.window + 1 } := by
    rw [foldl_same f hj, hh, foldl_same f fun u r => hc u _ _]
  exact ⟨_, rfl, same State.window (by simp) (by simp) (by simp) _, same State.mem (by simp) (by simp) (by simp) _,
    same State.waves (by simp) (by simp) (by simp) _⟩

/-! ### Power states and debug reads (R306, R307) -/

theorem powerOfCode_powerCode (p : PowerState) : powerOfCode (powerCode p) = p := by cases p <;> rfl
@[simp] theorem State.power_setPower_self (s : State) (st : PowerStore) (p : PowerState) : (s.setPower st p).power st = p := by
  cases st with
  | column c => simp [State.power, State.setPower]
  | bank d b => simp [State.power, State.setPower, powerOfCode_powerCode]
@[simp] theorem State.power_setDbgHold (s : State) (st : PowerStore) (x : Bool) : (s.setDbgHold st x).power st = s.power st := by
  cases st <;> simp [State.power, State.setDbgHold]
@[simp] theorem State.dbgHolds_setDbgHold_self (s : State) (st : PowerStore) (x : Bool) : (s.setDbgHold st x).dbgHolds st = x := by
  cases st <;> cases x <;> simp [State.dbgHolds, State.setDbgHold]
@[simp] theorem State.power_setFred (s : State) (f : Fred → Fred) (st : PowerStore) : (s.setFred f).power st = s.power st := by
  cases st <;> rfl
@[simp] theorem State.setPower_fred (s : State) (st : PowerStore) (p : PowerState) : (s.setPower st p).fred = s.fred := by
  cases st <;> rfl
@[simp] theorem State.lose_waves (s : State) (st : PowerStore) : (s.lose st).waves = s.waves := by
  cases st with
  | column c => exact (State.storeClear_waves ..).trans (foldl_same State.waves (fun u l => State.colEvict_waves u c l) _ _)
  | bank d b => exact State.classifiedAll_waves ..

theorem columnPowerState_ends (s : State) (st : PowerStore) (p : PowerState) (hs : s.hasStore st = true)
    (hg : ∀ c, st = .column c → p = .active ∨ s.mayGate c = true) (hd : s.dbgHolds st = true → p = .active)
    (ho : s.power st = .off → p = .active ∨ p = .off) (hl : p = .off → s.leave st = true) :
    ∃ t, exec (.columnPowerState st p) s = .next t ∧ t.power st = p ∧ t.waves = s.waves ∧ (p ≠ .off → t.mem = s.mem) := by
  have hoff : ¬ (s.power st = .off ∧ p ≠ .active ∧ p ≠ .off) := fun ⟨h, ha, hn⟩ => (ho h).elim ha hn
  have hheld : (s.dbgHolds st && !decide (p = .active)) = false := by
    cases h : s.dbgHolds st
    · rfl
    · simp [hd h]
  have hleave : (decide (p ≠ .off) || s.leave st) = true := by
    by_cases h : p = .off
    · simp [hl h]
    · simp [h]
  have hexec : exec (.columnPowerState st p) s = .next ((if p = .off then s.lose st else s).setPower st p) := by
    rw [exec_columnPowerState]; unfold execColumnPowerState
    cases st with
    | bank d b => simp only [hs, hheld, hleave, hoff, Bool.true_and, Bool.not_true, Bool.or_false, decide_false, if_false, Bool.false_eq_true]
    | column c =>
      have hgate : (decide (p = .active) || s.mayGate c) = true := by simpa using hg c rfl
      simp only [hs, hheld, hleave, hoff, hgate, Bool.true_and, Bool.not_true, Bool.or_false, decide_false, if_false, Bool.false_eq_true]
  refine ⟨_, hexec, by simp, ?_, fun h => by simp [h]⟩
  by_cases h : p = .off <;> simp [h]

theorem columnPowerState_noLeave (s : State) (c : Nat) (h : s.leave (.column c) = false) :
    exec (.columnPowerState (.column c) .off) s = .next s := by
  simp [exec_columnPowerState, execColumnPowerState, h]

theorem debugRead_ends (s : State) (st : PowerStore) (a n : Nat) (hu : s.hostUp = true) (hs : s.hasStore st = true) :
    ∃ t, exec (.debugRead st a n) s = .next t ∧ t.mem = s.mem
      ∧ (s.power st = .off → t.fred.dbgReplies = 1 :: List.replicate ((n + 7) / 8) 0xDEADDEADDEADDEAD)
      ∧ (s.power st ≠ .off → t.power st = .active ∧ (s.power st ≠ .active → t.dbgHolds st = true)) := by
  rw [exec_debugRead]; unfold execDebugRead
  rw [if_neg (by simp [hu, hs])]
  by_cases ho : s.power st = .off
  · rw [if_pos ho]
    exact ⟨_, rfl, rfl, fun _ => rfl, fun h => absurd ho h⟩
  · rw [if_neg ho]
    by_cases ha : s.power st = .active
    · exact ⟨_, rfl, by simp [ha], fun h => absurd h ho, fun _ => by simp [ha]⟩
    · exact ⟨_, rfl, by simp [ha], fun h => absurd h ho, fun _ => by simp [ha]⟩

theorem debugSessionRelease_ends (s : State) (st : PowerStore) (hu : s.hostUp = true) (hd : s.dbgHolds st = true) :
    ∃ t, exec (.debugSessionRelease st) s = .next t ∧ t.dbgHolds st = false ∧ t.mem = s.mem ∧ t.power st = s.power st := by
  rw [exec_debugSessionRelease, execDebugSessionRelease, if_pos (by simp [hu, hd])]
  exact ⟨_, rfl, by simp, by simp, by simp⟩

/-- Settles O54: each event's arm of `exec`, with the rules of a core's judgement and of the stores' power states. -/
theorem sensorsAndPower : Obligations.SensorsAndPower := by
  intro s
  refine ⟨tempSample_ends s, droopEvent_ends s, droopWindowClose_early s, droopWindowClose_ends s, fun d mv hd hl hh => ?_,
    columnPowerState_ends s, columnPowerState_noLeave s, debugRead_ends s, debugSessionRelease_ends s⟩
  rw [exec_supplySet, execSupplySet, if_neg (by omega)]

end Sys2Proof.Machine
end

section
/-! SUPPORT. Fredusin's events (R491–R500), and the proof of O55. -/

namespace Sys2Proof.Machine

/-! ### Starts and the removal of power (R492–R495, R499) -/

theorem powerOnReset_ends (s : State) : ∃ t, exec .powerOnReset s = .next t ∧ t.fred.stage = 0 ∧ t.fred.running = true
    ∧ t.waves = [] ∧ t.streams = [] ∧ t.launches = [] ∧ t.mem.scratch = []
    ∧ t.fred.mode = (if 3 ≤ (if s.fred.overtemp then min 3 (s.fred.fails + 1) else s.fred.fails) then .minimal else .full) := by
  refine ⟨_, exec_powerOnReset s, rfl, rfl, rfl, rfl, rfl, rfl, ?_⟩
  show (if 3 ≤ (if s.fred.overtemp then s.fred.fail 7 else s.fred).fails then BootMode.minimal else .full) = _
  cases s.fred.overtemp <;> rfl

/-- Power goes: what a removal leaves of Fredusin and of what ran. -/
theorem State.removePower_ends (s : State) : s.removePower.fred.powerOff = true ∧ s.removePower.fred.overtemp = true
    ∧ s.removePower.fred.running = false ∧ s.removePower.waves = [] ∧ s.removePower.launches = [] := ⟨rfl, rfl, rfl, rfl, rfl⟩

/-- The registers below 0x200 are read from the window and the dies alone. -/
theorem State.windowRead_congr {s t : State} (hw : t.win = s.win) (hd : t.dies = s.dies) (hu : t.hostUp = s.hostUp) {off : Nat}
    (ho : off < 0x200) : t.windowRead off = s.windowRead off := by
  unfold State.windowRead
  rw [hu, hw, State.die_of_dies hd]
  iterate 11 refine ite_congr rfl (fun _ => rfl) fun _ => ?_
  iterate 9 refine ite_congr rfl (fun h => by omega) fun _ => ?_
  rfl
/-- The configuration does not hold itself: keeping it leaves it as it reads. -/
theorem State.configBytes_setConfig (s : State) (bs : List Byte) :
    (s.setFred (fun f => { f with config := bs })).configBytes = s.configBytes := by
  unfold State.configBytes
  refine List.flatMap_congr fun off ho => ?_
  have hlt : off < 0x200 := by
    rcases List.mem_append.1 ho with h | h
    · obtain ⟨a, ha, rfl⟩ := List.mem_map.1 h
      have := List.mem_range.1 ha
      omega
    · simp only [List.mem_cons, List.not_mem_nil, or_false] at h
      omega
  refine congrArg (bytesOf 8) (congrArg BitVec.toNat (State.windowRead_congr ?_ ?_ ?_ hlt)) <;> rfl

theorem bootStage_completes (s : State) (hr : s.fred.running = true) (hs : s.fred.stage < 7)
    (ha : s.fred.stage = 0 → s.fred.accepts = true) : ∃ t, exec (.bootStage none) s = .next t ∧ t.fred.stage = s.fred.stage + 1
      ∧ (s.fred.stage = 2 → t.mem.chip = [])
      ∧ (s.fred.stage = 6 → t.fred.bootDeadline = some (s.time + 30 * 17000000000) ∧ t.fred.config = t.configBytes) := by
  have hno : ¬ (s.fred.stage = 0 ∧ s.fred.accepts = false) := fun ⟨h, h'⟩ => by simp [ha h] at h'
  rw [exec_bootStage]; unfold execBootStage
  rw [if_neg (by simp [hr]; omega)]
  simp only [if_neg hno]
  refine ⟨_, rfl, ?_, fun h => ?_, fun h => ?_⟩
  · split <;> split <;> rfl
  · rw [if_neg (by omega), if_pos h]; rfl
  · simp only [if_pos h, if_neg (show ¬ s.fred.stage = 2 by omega)]
    refine ⟨?_, ?_⟩
    · simp [State.setFred_fred, h]
    · rw [State.configBytes_setConfig]; rfl

theorem bootStage_tooHot (s : State) (hr : s.fred.running = true) (hs : s.fred.stage < 7) :
    ∃ t, exec (.bootStage (some 7)) s = .next t ∧ t.fred.powerOff = true ∧ t.fred.overtemp = true ∧ t.fred.running = false ∧ t.waves = [] := by
  rw [exec_bootStage]; unfold execBootStage
  rw [if_neg (by simp [hr]; omega)]
  obtain ⟨ho, ht, hrun, hw, -⟩ := s.removePower_ends
  exact ⟨_, if_pos rfl, ho, ht, hrun, hw⟩

theorem bootStage_fails (s : State) (c : Byte) (hr : s.fred.running = true) (hs : s.fred.stage < 6)
    (hc : c.toNat = stageCause (s.fred.stage + 1)) (ha : s.fred.stage = 0 → s.fred.accepts = false) (h7 : c ≠ 7) :
    ∃ t, exec (.bootStage (some c)) s = .next t ∧ t.fred.running = false ∧ t.fred.fails = min 3 (s.fred.fails + 1) ∧ t.waves = [] := by
  rw [exec_bootStage]; unfold execBootStage
  rw [if_neg (by simp [hr]; omega)]
  exact ⟨_, (if_neg h7).trans (if_pos ⟨hc, hs, ha⟩), rfl, rfl, rfl⟩

/-- The image of a slot is accepted by its signature; a slot never written holds the factory's (R496). -/
theorem Fred.accepts_iff (f : Fred) : match Tbl.get? f.images f.active with
    | some x => f.accepts = true ↔ x.2.length = 114 ∧ ∃ k ∈ chainKeys, edVerify k x.1 x.2 = true
    | none => f.accepts = true := by
  unfold Fred.accepts
  cases Tbl.get? f.images f.active with
  | some x => simp
  | none => rfl

theorem bootok_ends (s : State) (d : Nat) (hd : s.fred.bootDeadline = some d) (hu : s.hostUp = true) (ht : s.time ≤ d) :
    ∃ t, exec (.bootok 1) s = .next t ∧ t.fred.booted = true ∧ t.fred.bootDeadline = none ∧ t.mem = s.mem := by
  rw [exec_bootok, execBootok, hd]
  exact ⟨_, if_pos ⟨rfl, hu, ht⟩, rfl, rfl, rfl⟩

theorem bootokTimeout_ends (s : State) (d : Nat) (hd : s.fred.bootDeadline = some d) (hu : s.up = true) (ht : d < s.time) :
    ∃ t, exec .bootokTimeout s = .next t ∧ t.fred.running = false ∧ t.fred.fails = min 3 (s.fred.fails + 1) := by
  rw [exec_bootokTimeout, execBootokTimeout, hd]
  exact ⟨_, if_pos ⟨hu, ht⟩, rfl, rfl⟩

/-! ### The mailbox (R493–R497) -/

theorem mailbox_ends (s : State) (hm : s.mailUp = true) : (∃ t, exec .fullretry s = .next t ∧ t.fred.fails = 0 ∧ t.mem = s.mem)
    ∧ (∀ im sg, ∃ t, exec (.firmwareUpdate im sg) s = .next t ∧ t.fred.pendingImage = true
        ∧ Tbl.get? t.fred.images (1 - s.fred.active) = some (im, sg))
    ∧ (∃ t, exec .bootstat s = .next t ∧ t.fred.replies = s.fred.replies ++ [s.fred.bootstat])
    ∧ (∀ n, ∃ t, exec (.attest n) s = .next t ∧ let body := bytesOf 8 1 ++ bytesOf 8 s.fred.bootstat.toNat ++ bytesOf 32 n.toNat
        ++ (measure s.fred.image ++ measure Config.deviceFirmware ++ measure s.fred.config)
      t.fred.report = body ++ edSign Config.identityKey body) := by
  rw [exec_fullretry, exec_bootstat, execFullretry, execBootstat, if_pos hm, if_pos hm]
  refine ⟨⟨_, rfl, rfl, rfl⟩, fun im sg => ?_, ⟨_, rfl, rfl⟩, fun n => ?_⟩
  · rw [exec_firmwareUpdate, execFirmwareUpdate, if_pos hm]
    exact ⟨_, rfl, rfl, Tbl.get?_set_self ..⟩
  · rw [exec_attest, execAttest]
    simp only [if_pos hm]
    exact ⟨_, rfl, rfl⟩

/-! ### Checkpoint and restore (R498) -/

theorem ckpt_ends (s : State) (n : Nat) (hu : s.hostUp = true) (hc : s.fred.ckpt = none) (hn : n + 2 ^ 38 ≤ 2 ^ 46) :
    ∃ t, exec (.ckpt n) s = .next t ∧ t.fred.ckpt = some (n, 0) ∧ t.vac.isSome = true := by
  rw [exec_ckpt, execCkpt, if_neg (by simp [hu, hc]), if_neg (by simpa [ckptPlace] using hn)]
  refine ⟨_, rfl, ?_⟩
  cases hv : s.vac with
  | some v => simp [hv, State.setFred_fred]
  | none =>
    simp only [State.setFred_vac, hv, Option.isSome_none, Bool.false_eq_true, if_false]
    refine ⟨?_, rfl⟩
    unfold State.beginVacate
    exact congrArg Fred.ckpt (foldl_same State.fred (fun u c => State.setCore_fred ..) _ _)

theorem State.reply_ckpt (s : State) (ws : List W64) : (s.reply ws).fred.ckpt = s.fred.ckpt := rfl
theorem State.reply_heldWrites (s : State) (ws : List W64) : (s.reply ws).fred.heldWrites = s.fred.heldWrites := rfl
/-- The writes the host made while a checkpoint ran leave Fredusin's own state. -/
theorem State.homeWrites_fred (s : State) (ws : List (Nat × List Byte)) :
    (ws.foldl (fun u w => u.homeWriteBytes w.1 w.2 none) s).fred = s.fred :=
  foldl_same State.fred (fun u w => ((State.Keeps.same u).homeWriteBytes w.1 w.2 none).fred) ws s
theorem ckptComplete_ends (s : State) (n : Nat) (hu : s.hostUp = true) (hc : s.fred.ckpt = some (n, 1)) :
    ∃ t, exec .ckptComplete s = .next t ∧ t.fred.ckpt = none ∧ t.fred.heldWrites = [] := by
  rw [exec_ckptComplete, execCkptComplete, hc]
  simp only [hu, Bool.not_true, Bool.false_eq_true, if_false]
  refine ⟨_, rfl, ?_, ?_⟩
  · rw [State.reply_ckpt, State.homeWrites_fred]; rfl
  · rw [State.reply_heldWrites, State.homeWrites_fred]; rfl

theorem restore_ends (s : State) (n : Nat) (hu : s.hostUp = true) (hc : s.fred.ckpt = none) (hn : n + 2 ^ 38 ≤ 2 ^ 46)
    (hq : s.lqs.any (fun r => r.2.enable) = false) :
    ∃ t, exec (.restore n) s = .next t ∧ t.fred.replies = s.fred.replies ++ [0] ∧ t.waves = s.waves := by
  have hp : ckptPlace n = true := by simpa [ckptPlace] using hn
  rw [exec_restore, execRestore, if_neg (by simp [hu, hc]), if_neg (by simp [hp, hq])]
  refine ⟨_, rfl, ?_, by simp⟩
  exact congrArg (fun f : Fred => f.replies ++ [0]) (((State.Keeps.same s).recallAll).copyRange ..).fred

/-! ### Power and links (R499, R500) -/

theorem overtemp_ends (s : State) (d : Nat) (hd : d < s.coreCount / 48) (hp : s.fred.powerOff = false) :
    ∃ t, exec (.overtemp d) s = .next t ∧ t.fred.powerOff = true ∧ t.fred.overtemp = true ∧ t.fred.running = false
      ∧ t.waves = [] ∧ t.launches = [] := by
  rw [exec_overtemp, execOvertemp, if_neg (by simp [hp]; omega)]
  exact ⟨_, rfl, s.removePower_ends⟩

@[simp] theorem State.die_errorReport (s : State) (code d : Nat) : (s.errorReport code).die d = s.die d := rfl
theorem linkFailure_ends (s : State) (d : Nat) (loop : Bool) (hd : d < s.coreCount / 48) :
    ∃ t, exec (.linkFailure d loop) s = .next t ∧ t.mem = s.mem
      ∧ (if loop then (t.die d).loopUp = false else (t.die d).memUp = false) := by
  rw [exec_linkFailure, execLinkFailure, if_neg (by omega)]
  refine ⟨_, rfl, by simp, ?_⟩
  cases loop <;> simp

/-- Settles O55: Fredusin's events arm by arm; the held writes and a restore's copies keep Fredusin's own state. -/
theorem fredusinEvents : Obligations.FredusinEvents := fun s =>
  ⟨powerOnReset_ends s, bootStage_completes s, s.fred.accepts_iff, bootStage_tooHot s, fun c hr hs hc ha h7 => bootStage_fails s c hr hs hc ha h7,
    bootok_ends s, bootokTimeout_ends s, mailbox_ends s, ckpt_ends s, ckptComplete_ends s, restore_ends s, overtemp_ends s,
    exec_lostCxlLink s, linkFailure_ends s⟩

end Sys2Proof.Machine
end

section
/-! SUPPORT. Byte memories: what a read gives after cells, a clear or a slice of another memory are laid over one, and the bytes of a
column line. -/

namespace Sys2Proof.Machine

/-! ### Rows of a table -/

theorem Tbl.mem_of_get? {α : Type} {t : Tbl α} {n : Nat} {x : α} (h : Tbl.get? t n = some x) : (n, x) ∈ t := by
  induction t with
  | nil => simp at h
  | cons a t ih =>
    obtain ⟨k, v⟩ := a
    simp only [Tbl.get?] at h
    split at h
    · simp_all
    · exact List.mem_cons_of_mem _ (ih h)
theorem Tbl.get?_isSome_of_mem {α : Type} {t : Tbl α} {r : Nat × α} (h : r ∈ t) : (Tbl.get? t r.1).isSome = true := by
  induction t with
  | nil => simp at h
  | cons a t ih =>
    obtain ⟨k, v⟩ := a
    simp only [Tbl.get?]
    split
    · rfl
    · rcases List.mem_cons.1 h with rfl | h
      · contradiction
      · exact ih h
/-- A filter on the keys keeps a row or drops it. -/
theorem Tbl.get?_filter_key {α : Type} (p : Nat → Bool) (t : Tbl α) (n : Nat) :
    Tbl.get? (List.filter (fun r => p r.1) t) n = if p n then Tbl.get? t n else none := by
  induction t with
  | nil => simp
  | cons a t ih =>
    obtain ⟨k, v⟩ := a
    by_cases hn : n = k
    · subst hn; cases hp : p n <;> simp [hp, ih, Tbl.get?]
    · cases hk : p k <;> simp [hk, ih, Tbl.get?, hn]

/-! ### Reads after cells were laid over a memory -/

theorem Mem.read_clear (m : Mem) (a n b : Nat) : Mem.read (Mem.clear m a n) b = if b < a ∨ a + n ≤ b then Mem.read m b else 0 := by
  unfold Mem.read Mem.clear Tbl.getD
  rw [Tbl.get?_filter_key (fun k => decide (k < a) || decide (a + n ≤ k))]
  simp only [Bool.or_eq_true, decide_eq_true_eq]
  split <;> rfl

/-- The cells of an overlay have distinct addresses: each is read as it was laid. -/
theorem Mem.read_overlay_of_mem (m : Mem) {src : Mem} (h : (src.map Prod.fst).Nodup) {c : Host.Cell} (hc : c ∈ src) :
    Mem.read (Mem.overlay m src) c.1 = c.2 := by
  induction src generalizing m with
  | nil => simp at hc
  | cons d src ih =>
    obtain ⟨hd, hs⟩ := List.nodup_cons.1 (show (d.1 :: src.map Prod.fst).Nodup from h)
    rcases List.mem_cons.1 hc with rfl | hc
    · exact (Mem.read_overlay_outside (Mem.write m c.1 c.2) src c.1
        fun x hx e => hd (e ▸ List.mem_map_of_mem hx)).trans (Mem.read_write_self ..)
    · exact ih (Mem.write m d.1 d.2) hs hc

/-- The cells of a range of a memory, left where they are. -/
theorem Mem.slice_self (m : Mem) (a n : Nat) : Mem.slice m a n a = List.filter (fun c => decide (a ≤ c.1) && decide (c.1 < a + n)) m := by
  unfold Mem.slice
  refine (List.map_congr_left fun c hc => ?_).trans (List.map_id _)
  have hle : a ≤ c.1 := by simpa using (Bool.and_eq_true_iff.1 (List.mem_filter.1 hc).2).1
  exact Prod.ext (Nat.sub_add_cancel hle) rfl

/-- A range of a memory laid over another, cleared there, reads as in the first. -/
theorem Mem.read_overlay_slice (m : Mem) {src : Mem} (hw : Memory.wf src = true) {a n b : Nat} (ha : a ≤ b) (hb : b < a + n) :
    Mem.read (Mem.overlay (Mem.clear m a n) (Mem.slice src a n a)) b = Mem.read src b := by
  have ht := ((Memory.wf_iff src).1 hw).1
  rw [Mem.slice_self]
  cases h : Tbl.get? src b with
  | some v =>
    have hnodup : ((List.filter (fun c : Host.Cell => decide (a ≤ c.1) && decide (c.1 < a + n)) src).map Prod.fst).Nodup :=
      List.pairwise_map.2 (((Tbl.wf_pairwise _).1 (Tbl.wf_filter src _ ht)).imp Nat.ne_of_lt)
    have hmem : (b, v) ∈ List.filter (fun c : Host.Cell => decide (a ≤ c.1) && decide (c.1 < a + n)) src :=
      List.mem_filter.2 ⟨Tbl.mem_of_get? h, by simp [ha, hb]⟩
    rw [Mem.read_overlay_of_mem _ hnodup hmem]
    simp [Mem.read, Tbl.getD, h]
  | none =>
    rw [Mem.read_overlay_outside _ _ _ fun c hc e => ?_, Mem.read_clear, if_neg (by omega)]
    · simp [Mem.read, Tbl.getD, h]
    · have := Tbl.get?_isSome_of_mem (List.mem_filter.1 hc).1
      simp [e, h] at this
theorem Mem.read_overlay_slice_outside (m src : Mem) {a n b : Nat} (h : b < a ∨ a + n ≤ b) :
    Mem.read (Mem.overlay (Mem.clear m a n) (Mem.slice src a n a)) b = Mem.read m b := by
  rw [Mem.read_overlay_outside, Mem.read_clear, if_pos h]
  intro c hc
  rw [Mem.slice_self] at hc
  have := (List.mem_filter.1 hc).2
  simp only [Bool.and_eq_true, decide_eq_true_eq] at this
  omega

/-! ### The cells of some bytes -/

theorem mem_cellsAt {a : Nat} {bs : List Byte} {c : Host.Cell} : c ∈ cellsAt a bs ↔ ∃ j < bs.length, c = (a + j, bs.getD j 0) := by
  simp [cellsAt, eq_comm]
theorem cellsAt_nodup (a : Nat) (bs : List Byte) : ((cellsAt a bs).map Prod.fst).Nodup := by
  have h : (cellsAt a bs).map Prod.fst = (List.range bs.length).map (a + ·) := by simp [cellsAt, Function.comp_def]
  rw [h]
  exact List.nodup_range.map fun _ _ => Nat.add_left_cancel
theorem cellsAt_filter_nodup (a : Nat) (bs : List Byte) (p : Host.Cell → Bool) : (((cellsAt a bs).filter p).map Prod.fst).Nodup :=
  (cellsAt_nodup a bs).sublist (List.filter_sublist.map _)
@[simp] theorem bytesOf_length (n x : Nat) : (bytesOf n x).length = n := by simp [bytesOf]

/-! ### The bytes of a column line -/

theorem ColLine.mem_dirtyCells {x : ColLine} {line : Nat} {c : Host.Cell} : c ∈ x.dirtyCells line ↔
    ∃ j < 128, x.dirty.getLsbD j = true ∧ c = (line * 128 + j, BitVec.ofNat 8 (byteAt x.data j)) := by
  simp only [ColLine.dirtyCells, List.mem_map, List.mem_filter, List.mem_range, and_assoc, eq_comm]
theorem ColLine.dirtyCells_nodup (x : ColLine) (line : Nat) : ((x.dirtyCells line).map Prod.fst).Nodup := by
  have h : (x.dirtyCells line).map Prod.fst = ((List.range 128).filter x.dirty.getLsbD).map (line * 128 + ·) := by
    simp [ColLine.dirtyCells, Function.comp_def]
  rw [h]
  exact (List.nodup_range.filter _).map fun _ _ => Nat.add_left_cancel

/-- A number is the part above a byte, the byte, and the part below. -/
theorem eq_parts_byteAt (x i : Nat) : x = x / 256 ^ (i + 1) * 256 ^ (i + 1) + byteAt x i * 256 ^ i + x % 256 ^ i := by
  have h := Nat.div_add_mod x (256 ^ (i + 1))
  have h' : x % 256 ^ (i + 1) = x % 256 ^ i + 256 ^ i * byteAt x i := by rw [pow_succ, Nat.mod_mul]; rfl
  rw [h'] at h
  linarith
theorem setByteAt_eq (x i b : Nat) :
    setByteAt x i b = x / 256 ^ (i + 1) * 256 ^ (i + 1) + b % 256 * 256 ^ i + x % 256 ^ i := by
  have := eq_parts_byteAt x i
  unfold setByteAt
  omega
/-- Setting byte `i` gives it there. -/
theorem byteAt_setByteAt_self (x i b : Nat) : byteAt (setByteAt x i b) i = b % 256 := by
  have hp : 0 < 256 ^ i := Nat.pow_pos (by decide)
  rw [setByteAt_eq]
  unfold byteAt
  rw [show x / 256 ^ (i + 1) * 256 ^ (i + 1) + b % 256 * 256 ^ i + x % 256 ^ i
      = x % 256 ^ i + 256 ^ i * (x / 256 ^ (i + 1) * 256 + b % 256) by ring,
    Nat.add_mul_div_left _ _ hp, Nat.div_eq_of_lt (Nat.mod_lt _ hp), Nat.zero_add, Nat.mul_add_mod_self_right]
  omega
theorem setByteAt_mod (x i b : Nat) : setByteAt x i b % 256 ^ i = x % 256 ^ i := by
  rw [setByteAt_eq, pow_succ, show x / (256 ^ i * 256) * (256 ^ i * 256) + b % 256 * 256 ^ i + x % 256 ^ i
    = x % 256 ^ i + 256 ^ i * (x / (256 ^ i * 256) * 256 + b % 256) by ring, Nat.add_mul_mod_self_left, Nat.mod_mod]
theorem setByteAt_div (x i b : Nat) : setByteAt x i b / 256 ^ (i + 1) = x / 256 ^ (i + 1) := by
  have hp : 0 < 256 ^ (i + 1) := Nat.pow_pos (by decide)
  have hlo : b % 256 * 256 ^ i + x % 256 ^ i < 256 ^ (i + 1) := by
    have hx : x % 256 ^ i < 256 ^ i := Nat.mod_lt _ (Nat.pow_pos (by decide))
    have hb : b % 256 * 256 ^ i ≤ 255 * 256 ^ i := Nat.mul_le_mul_right _ (by omega)
    rw [pow_succ]; omega
  rw [setByteAt_eq, Nat.add_assoc, Nat.mul_comm, Nat.mul_add_div hp, Nat.div_eq_of_lt hlo, Nat.add_zero]
/-- Setting byte `i` leaves every other byte. -/
theorem byteAt_setByteAt_ne (x b : Nat) {i j : Nat} (h : j ≠ i) : byteAt (setByteAt x i b) j = byteAt x j := by
  have low (y : Nat) (hj : j < i) : byteAt y j = y % 256 ^ i / 256 ^ j % 256 := by
    obtain ⟨d, rfl⟩ : ∃ d, i = j + (d + 1) := ⟨i - j - 1, by omega⟩
    rw [pow_add, Nat.mod_mul_right_div_self, pow_succ', Nat.mod_mul_right_mod]; rfl
  have high (y : Nat) (hj : i < j) : byteAt y j = y / 256 ^ (i + 1) / 256 ^ (j - (i + 1)) % 256 := by
    rw [Nat.div_div_eq_div_mul, ← pow_add, Nat.add_sub_cancel' hj]; rfl
  rcases Nat.lt_or_gt_of_ne h with hj | hj
  · rw [low _ hj, low x hj, setByteAt_mod]
  · rw [high _ hj, high x hj, setByteAt_div]

end Sys2Proof.Machine
end

section
/-! SUPPORT. The home slices (R282–R292, R302, R327, R328): what work on a line leaves as it was, and the bytes a write, an eviction, a
discard and POISON leave at the home. -/

namespace Sys2Proof.Machine

/-! ### Lines that are not resident -/

theorem State.poisoned_eq (s : State) (line : Nat) : s.poisoned line = (s.l2line line).any L2Line.poison := by
  unfold State.poisoned; cases s.l2line line <;> rfl
theorem State.l2line_of_l2 {s t : State} (h : t.mem.l2 = s.mem.l2) (line : Nat) : t.l2line line = s.l2line line := by
  unfold State.l2line; rw [h]
theorem State.colLine_of_cols {s t : State} (h : t.mem.cols = s.mem.cols) (c line : Nat) : t.colLine c line = s.colLine c line := by
  unfold State.colLine; rw [h]
theorem State.poisoned_of_l2 {s t : State} (h : t.mem.l2 = s.mem.l2) (line : Nat) : t.poisoned line = s.poisoned line := by
  rw [State.poisoned_eq, State.poisoned_eq, State.l2line_of_l2 h]
/-- An eviction of a line that is not poisoned takes it out of the slice; its dirty bytes are then behind the home, whose own view
stays (R288). -/
theorem State.l2Evict_ends (s : State) (line : Nat) {x : L2Line} (hx : s.l2line line = some x) (hp : x.poison = false) :
    (s.l2Evict line).l2line line = none ∧ (x.dirty = true → s.Inv →
      ∀ j < 128, Mem.read (s.l2Evict line).mem.dram (line * 128 + j) = Mem.read s.mem.home (line * 128 + j)) := by
  unfold State.l2Evict
  rw [hx]
  simp only [hp, Bool.false_eq_true, if_false]
  refine ⟨by simp [State.l2line, Tbl.get?_del], fun hd hs j hj => ?_⟩
  rw [if_pos hd]
  exact Mem.read_overlay_slice _ hs.home (by omega) (by omega)
theorem State.l2Evict_poisoned (s : State) {line : Nat} {x : L2Line} (hx : s.l2line line = some x) (hp : x.poison = true) :
    s.l2Evict line = s := by
  unfold State.l2Evict; rw [hx]; simp [hp]
@[simp] theorem State.l2Evict_home (s : State) (line : Nat) : (s.l2Evict line).mem.home = s.mem.home := by
  unfold State.l2Evict
  split
  · split <;> rfl
  · rfl
@[simp] theorem State.l2Evict_cols (s : State) (line : Nat) : (s.l2Evict line).mem.cols = s.mem.cols := by
  unfold State.l2Evict
  split
  · split <;> rfl
  · rfl
@[simp] theorem State.l2Evict_clusters (s : State) (line : Nat) : (s.l2Evict line).clusters = s.clusters := by
  unfold State.l2Evict
  split
  · split <;> rfl
  · rfl
/-- The eviction of one line leaves the bytes behind another. -/
theorem State.l2Evict_dram_ne (s : State) {o line a : Nat} (h : line ≠ o) (ha : a / 128 = line) :
    Mem.read (s.l2Evict o).mem.dram a = Mem.read s.mem.dram a := by
  unfold State.l2Evict
  split
  · split
    · rfl
    · dsimp only; split
      · exact Mem.read_overlay_slice_outside _ _ (by omega)
      · rfl
  · rfl
/-- An eviction brings no line in. -/
theorem State.l2Evict_l2line (s : State) (o line : Nat) : (s.l2Evict o).l2line line = s.l2line line ∨ (s.l2Evict o).l2line line = none := by
  unfold State.l2Evict
  split
  · split
    · exact .inl rfl
    · by_cases h : line = o
      · exact .inr (by simp [State.l2line, Tbl.get?_del, h])
      · exact .inl (by simp [State.l2line, Tbl.get?_del, h])
  · exact .inl rfl

/-- A slice evicts a line it holds, or none. -/
theorem State.sliceEvict_cases (s : State) (h : Nat) : s.sliceEvict h = s ∨ ∃ o, (s.l2line o).isSome = true ∧ s.sliceEvict h = s.l2Evict o := by
  unfold State.sliceEvict
  dsimp only; split
  · rename_i r hr
    have hmem : r ∈ s.mem.l2 := (List.mem_filter.1 (List.mem_filter.1 (List.mem_of_getElem? hr)).1).1
    exact .inr ⟨r.1, Tbl.get?_isSome_of_mem hmem, rfl⟩
  · exact .inl rfl
/-- What an eviction keeps, a slice that makes room keeps. -/
theorem State.sliceTrim_same {β : Type} (f : State → β) (hf : ∀ u o, f (State.l2Evict u o) = f u) (s : State) (h spare : Nat) :
    f (s.sliceTrim h spare) = f s :=
  foldl_same f (fun u _ => by rcases u.sliceEvict_cases h with e | ⟨o, -, e⟩ <;> rw [e]; exact hf u o) _ _
@[simp] theorem State.sliceTrim_home (s : State) (h spare : Nat) : (s.sliceTrim h spare).mem.home = s.mem.home :=
  State.sliceTrim_same (fun u => u.mem.home) State.l2Evict_home s h spare
@[simp] theorem State.sliceTrim_cols (s : State) (h spare : Nat) : (s.sliceTrim h spare).mem.cols = s.mem.cols :=
  State.sliceTrim_same (fun u => u.mem.cols) State.l2Evict_cols s h spare
@[simp] theorem State.sliceTrim_clusters (s : State) (h spare : Nat) : (s.sliceTrim h spare).clusters = s.clusters :=
  State.sliceTrim_same State.clusters State.l2Evict_clusters s h spare
theorem State.sliceTrim_not_poisoned {s : State} {line : Nat} (hp : s.poisoned line = false) (h spare : Nat) :
    (s.sliceTrim h spare).poisoned line = false := by
  refine foldl_pred (P := fun u : State => u.poisoned line = false) (fun u _ hu => ?_) _ hp
  rcases u.sliceEvict_cases h with e | ⟨o, -, e⟩ <;> rw [e]
  · exact hu
  · rw [State.poisoned_eq] at hu ⊢
    rcases u.l2Evict_l2line o line with e | e <;> rw [e]
    · exact hu
    · rfl
/-- A line that is not resident stays so while its slice makes room, and the bytes behind it stay. -/
theorem State.sliceTrim_absent {s : State} {line : Nat} (hl : s.l2line line = none) (h spare : Nat) :
    (s.sliceTrim h spare).l2line line = none
      ∧ ∀ a, a / 128 = line → Mem.read (s.sliceTrim h spare).mem.dram a = Mem.read s.mem.dram a := by
  refine foldl_pred (P := fun u : State => u.l2line line = none ∧ ∀ a, a / 128 = line → Mem.read u.mem.dram a = Mem.read s.mem.dram a)
    (fun u _ hu => ?_) _ ⟨hl, fun _ _ => rfl⟩
  obtain ⟨hn, hd⟩ := hu
  rcases u.sliceEvict_cases h with e | ⟨o, ho, e⟩ <;> rw [e]
  · exact ⟨hn, hd⟩
  · have hne : line ≠ o := by rintro rfl; simp [hn] at ho
    refine ⟨?_, fun a ha => (u.l2Evict_dram_ne hne ha).trans (hd a ha)⟩
    rcases u.l2Evict_l2line o line with e | e <;> rw [e]
    exact hn

/-! ### A fill (R275, R282) -/

theorem State.fill_of_some {s : State} {line : Nat} {x : L2Line} (h : s.l2line line = some x) : s.fill line = s := by
  unfold State.fill; rw [h]
/-- A miss: the slice makes room, over a link that may have failed, and the line comes in clean. -/
theorem State.fill_of_none {s : State} {line : Nat} (h : s.l2line line = none) : ∃ u : State, u.mem = s.mem ∧ u.clusters = s.clusters
    ∧ (s.linked line = false → u.lack.isSome = true)
    ∧ s.fill line = ({ u.sliceTrim (u.home line) 1 with mem := { (u.sliceTrim (u.home line) 1).mem with
        l2 := Tbl.set (u.sliceTrim (u.home line) 1).mem.l2 line ⟨false, false⟩ } } : State).count 3 ((u.sliceTrim (u.home line) 1).home line) 2 1 := by
  unfold State.fill
  rw [h]
  refine ⟨if s.linked line then s else { s with lack := some .link }, ?_, ?_, ?_, rfl⟩
  · split <;> rfl
  · split <;> rfl
  · intro hl; simp [hl]
@[simp] theorem State.fill_home (s : State) (line : Nat) : (s.fill line).mem.home = s.mem.home := by
  cases h : s.l2line line with
  | some x => rw [State.fill_of_some h]
  | none =>
    obtain ⟨u, hm, -, -, e⟩ := State.fill_of_none h
    rw [e, ← hm]; exact State.sliceTrim_home ..
@[simp] theorem State.fill_cols (s : State) (line : Nat) : (s.fill line).mem.cols = s.mem.cols := by
  cases h : s.l2line line with
  | some x => rw [State.fill_of_some h]
  | none =>
    obtain ⟨u, hm, -, -, e⟩ := State.fill_of_none h
    rw [e, ← hm]; exact State.sliceTrim_cols ..
@[simp] theorem State.fill_clusters (s : State) (line : Nat) : (s.fill line).clusters = s.clusters := by
  cases h : s.l2line line with
  | some x => rw [State.fill_of_some h]
  | none =>
    obtain ⟨u, -, hc, -, e⟩ := State.fill_of_none h
    rw [e, ← hc]; exact State.sliceTrim_clusters ..
theorem State.fill_l2line (s : State) (line : Nat) : (s.fill line).l2line line = some ((s.l2line line).getD ⟨false, false⟩) := by
  cases h : s.l2line line with
  | some x => rw [State.fill_of_some h, h]; rfl
  | none =>
    obtain ⟨u, -, -, -, e⟩ := State.fill_of_none h
    rw [e]; exact Tbl.get?_set_self ..
theorem State.fill_poisoned (s : State) (line : Nat) : (s.fill line).poisoned line = s.poisoned line := by
  rw [State.poisoned_eq, State.poisoned_eq, State.fill_l2line]
  cases s.l2line line <;> rfl
theorem State.fill_dram (s : State) {line a : Nat} (ha : a / 128 = line) : Mem.read (s.fill line).mem.dram a = Mem.read s.mem.dram a := by
  cases h : s.l2line line with
  | some x => rw [State.fill_of_some h]
  | none =>
    obtain ⟨u, hm, -, -, e⟩ := State.fill_of_none h
    rw [e, ← hm]
    exact (State.sliceTrim_absent ((State.l2line_of_l2 (by rw [hm]) line).trans h) _ 1).2 a ha
theorem State.fill_lack {s : State} {line : Nat} (h : s.l2line line = none) (hl : s.linked line = false) : (s.fill line).lack.isSome = true := by
  obtain ⟨u, -, -, hlack, e⟩ := State.fill_of_none h
  rw [e]
  exact ((State.Keeps.same u).sliceTrim _ 1).lack (hlack hl)

/-! ### Work on a line -/

/-- What the recalls, the drops and the fill of a line leave: the columns, the home's bytes below the line, the bytes behind it, and
whether it is poisoned. -/
structure State.WorksAt (line : Nat) (s t : State) : Prop where
  cols : t.mem.cols = s.mem.cols
  below : ∀ a < line * 128, Mem.read t.mem.home a = Mem.read s.mem.home a
  behind : ∀ a, a / 128 = line → Mem.read t.mem.dram a = Mem.read s.mem.dram a
  poison : t.poisoned line = s.poisoned line

namespace State.WorksAt

theorem same (line : Nat) (s : State) : WorksAt line s s := ⟨rfl, fun _ _ => rfl, fun _ _ => rfl, rfl⟩

section
variable {line : Nat} {r s : State} (h : WorksAt line r s)
include h

theorem of_mem {t : State} (hm : t.mem = s.mem) : WorksAt line r t :=
  ⟨by rw [hm]; exact h.cols, by rw [hm]; exact h.below, by rw [hm]; exact h.behind,
    (State.poisoned_of_l2 (by rw [hm]) line).trans h.poison⟩
theorem needLoop (c : Option Nat) (l : Nat) : WorksAt line r (s.needLoop c l) := h.of_mem (by simp)
theorem dropCopy (c l : Nat) : WorksAt line r (s.dropCopy c l) := h.of_mem (by simp)
theorem bumpSeq (l : Nat) : WorksAt line r (s.bumpSeq l) := h.of_mem (by simp)
theorem count (dom inst idx n : Nat) : WorksAt line r (s.count dom inst idx n) := h.of_mem rfl
theorem setCluster (c : Nat) (x : Cluster) : WorksAt line r (s.setCluster c x) := h.of_mem rfl
theorem dropReplicas (l : Nat) : WorksAt line r (s.dropReplicas l) := by
  unfold State.dropReplicas
  extract_lets reps m s₁ s₂
  have h₁ : WorksAt line r s₁ := ⟨h.cols, h.below, h.behind, h.poison⟩
  have h₂ : WorksAt line r s₂ := by
    unfold s₂; split
    · exact h₁
    · exact h₁.count ..
  refine foldl_pred (P := WorksAt line r) (fun u c hu => ?_) _ h₂
  dsimp only; split
  · exact hu.setCluster ..
  · exact hu
theorem fill : WorksAt line r (s.fill line) :=
  ⟨by rw [State.fill_cols]; exact h.cols, by rw [State.fill_home]; exact h.below,
    fun a ha => (State.fill_dram s ha).trans (h.behind a ha), (State.fill_poisoned s line).trans h.poison⟩
/-- A partial of one of the line's words is combined at or above the line's first byte. -/
theorem combine {unit : Nat} (hu : line * 32 ≤ unit) (p : Partial) : WorksAt line r (s.combine unit p) :=
  ⟨h.cols, fun a ha => (Mem.read_writeN_outside _ _ _ _ _ (.inl (by omega))).trans (h.below a ha), h.behind, h.poison⟩
theorem recallFrom (cs : List Nat) : WorksAt line r (s.recallFrom line cs) := by
  unfold State.recallFrom
  split
  · exact h
  · extract_lets s₁ words s₂ s₃
    have h₁ : WorksAt line r s₁ := ((h.dropReplicas line).fill).count ..
    have h₂ : WorksAt line r s₂ := by
      refine List.foldlRecOn words _ h₁ fun u hu w hw => ?_
      obtain ⟨i, -, rfl⟩ := List.mem_map.1 hw
      dsimp only; split
      · exact hu
      · refine bumpSeq (List.foldlRecOn _ _ hu fun v hv up hup => hv.combine ?_ up.2) line
        obtain ⟨c, -, hup⟩ := List.mem_flatMap.1 hup
        obtain ⟨n, hn, hup⟩ := List.mem_flatMap.1 hup
        have hup : up.1 = n := by
          split at hup
          · exact congrArg Prod.fst (List.mem_singleton.1 hup)
          · simp at hup
        have hn : n = 2 * (line * 16 + i) ∨ n = 2 * (line * 16 + i) + 1 := by simpa using hn
        omega
    have h₃ : WorksAt line r s₃ := foldl_pred (P := WorksAt line r) (fun u c hu => hu.dropCopy c line) cs h₂
    split
    · rename_i l hl
      refine ⟨h₃.cols, h₃.below, h₃.behind, Eq.trans ?_ h₃.poison⟩
      rw [State.poisoned_eq, State.poisoned_eq, hl]
      exact congrArg (Option.any L2Line.poison) (a₂ := some { l with dirty := true }) (Tbl.get?_set_self ..)
    · exact h₃
theorem recallCopies : WorksAt line r (s.recall line) := h.recallFrom _
theorem dropOthers (l : Nat) (writer : Option Nat) : WorksAt line r (s.dropOthers l writer) := by
  unfold State.dropOthers
  extract_lets s₁ s₂
  have h₁ : WorksAt line r s₁ := foldl_pred (P := WorksAt line r) (fun u c hu => hu.dropCopy c l) _ h
  have h₂ : WorksAt line r s₂ := by
    unfold s₂; split
    · exact h₁
    · exact h₁.setCluster ..
  exact h₂.dropReplicas l

end
end State.WorksAt

/-! ### Writes at the home (R288, R302) -/

/-- A write performs: its cells lie over what the line's recalls left, and the home's bytes below the line stay. -/
theorem State.homeWriteCells_home (s : State) (line : Nat) (cs : List Host.Cell) (writer : Option Nat) :
    ∃ m, (∀ a < line * 128, Mem.read m a = Mem.read s.mem.home a) ∧ (s.homeWriteCells line cs writer).mem.home = Mem.overlay m cs := by
  have h := ((((State.WorksAt.same line s).needLoop writer line).recallCopies).dropOthers line writer).fill
  refine ⟨_, h.below, ?_⟩
  unfold State.homeWriteCells
  rw [State.bumpSeq_mem]
  dsimp only; split <;> rfl

/-- After a write of some bytes the home holds them, line by line: no later line's write reaches below its own. -/
theorem State.homeWriteBytes_home (s : State) (pa : Nat) (bs : List Byte) (writer : Option Nat) :
    ∀ j < bs.length, Mem.read (s.homeWriteBytes pa bs writer).mem.home (pa + j) = bs.getD j 0 := by
  let step := fun (s : State) (l : Nat) => s.homeWriteCells l ((cellsAt pa bs).filter (fun c => decide (c.1 / 128 = l))) writer
  have lines (k : Nat) : ∀ j < bs.length, (pa + j) / 128 < pa / 128 + k →
      Mem.read (((List.range k).map (pa / 128 + ·)).foldl step s).mem.home (pa + j) = bs.getD j 0 := by
    induction k with
    | zero => intro j _ hj; have := Nat.div_le_div_right (c := 128) (Nat.le_add_right pa j); omega
    | succ k ih =>
      intro j hj hlt
      rw [List.range_succ, List.map_append, List.foldl_append]
      obtain ⟨m, hm, e⟩ := State.homeWriteCells_home (((List.range k).map (pa / 128 + ·)).foldl step s) (pa / 128 + k)
        ((cellsAt pa bs).filter (fun c => decide (c.1 / 128 = pa / 128 + k))) writer
      show Mem.read (State.homeWriteCells _ (pa / 128 + k) _ writer).mem.home (pa + j) = _
      rw [e]
      rcases Nat.lt_or_ge ((pa + j) / 128) (pa / 128 + k) with hl | hl
      · rw [Mem.read_overlay_outside, hm _ (by omega), ih j hj hl]
        intro c hc
        have := (List.mem_filter.1 hc).2
        simp only [decide_eq_true_eq] at this
        omega
      · exact Mem.read_overlay_of_mem m (cellsAt_filter_nodup ..)
          (List.mem_filter.2 ⟨mem_cellsAt.2 ⟨j, hj, rfl⟩, by simp only [decide_eq_true_eq]; omega⟩)
  intro j hj
  unfold State.homeWriteBytes
  have hne : bs.isEmpty = false := by cases bs with | nil => simp at hj | cons => rfl
  rw [hne]
  refine lines _ j hj ?_
  have := Nat.div_le_div_right (c := 128) (show pa + j ≤ pa + bs.length - 1 by omega)
  omega

/-! ### POISON (R292) -/

/-- A line set to POISON is poisoned, or, beyond the limits, written back as zeros. -/
theorem State.setPoison_ends (s : State) (line : Nat) : (s.setPoison line).poisoned line = true
    ∨ ∀ j < 128, Mem.read (s.setPoison line).mem.home (line * 128 + j) = 0 := by
  unfold State.setPoison
  extract_lets s₁ h n m
  have hl : s₁.l2line line = some ((s.l2line line).getD ⟨false, false⟩) := s.fill_l2line line
  split
  · exact .inl ‹_›
  · split
    · refine .inr fun j hj => ?_
      show Mem.read (Mem.clear s₁.mem.home (line * 128) 128) (line * 128 + j) = 0
      rw [Mem.read_clear, if_neg (by omega)]
    · rw [hl]
      refine .inl ?_
      rw [State.poisoned_eq]
      exact congrArg (Option.any L2Line.poison) (Tbl.get?_set_self ..)

/-! ### DISCARD (R324) -/

/-- A discard recalls and drops every copy, and then the line takes the value behind it and leaves the slice. -/
theorem State.homeDiscard_eq (s : State) (line : Nat) (hs : s.Inv) : ∃ u : State, State.WorksAt line s u ∧ u.Inv
    ∧ s.homeDiscard line = State.bumpSeq { u with mem := { u.mem with
        home := Mem.overlay (Mem.clear u.mem.home (line * 128) 128) (Mem.slice u.mem.dram (line * 128) 128 (line * 128))
        l2 := Tbl.del u.mem.l2 line } } line := by
  have h₁ : State.WorksAt line s (s.recall line) := (State.WorksAt.same line s).recallCopies
  have h₂ := foldl_pred (P := State.WorksAt line s) (fun u c hu => hu.dropCopy c line) ((s.recall line).holders line) h₁
  have hi := State.Inv.foldl (fun u c hu => State.dropCopy_inv u c line hu) ((s.recall line).holders line) (State.recall_inv s line hs)
  exact ⟨_, h₂.dropOthers line none, State.dropOthers_inv _ line none hi, rfl⟩

/-- A line discarded at its home takes the value behind it, and is no longer resident. -/
theorem State.homeDiscard_ends (s : State) (line : Nat) (hs : s.Inv) : (s.homeDiscard line).l2line line = none
    ∧ (s.homeDiscard line).mem.cols = s.mem.cols
    ∧ ∀ j < 128, Mem.read (s.homeDiscard line).mem.home (line * 128 + j) = Mem.read s.mem.dram (line * 128 + j) := by
  obtain ⟨u, hu, hi, e⟩ := s.homeDiscard_eq line hs
  rw [e, State.l2line, State.bumpSeq_mem]
  refine ⟨(Tbl.get?_del ..).trans (if_pos rfl), hu.cols, fun j hj => ?_⟩
  exact (Mem.read_overlay_slice u.mem.home hi.dram (Nat.le_add_right ..) (Nat.add_lt_add_left hj _)).trans (hu.behind _ (by omega))

end Sys2Proof.Machine
end

section
/-! SUPPORT. The cluster caches (R282, R283, R298–R305): which copies and which predictions an answer, a drop and a new copy leave. -/

namespace Sys2Proof.Machine

/-! ### The copies of a line -/

/-- No cluster has a row for a copy it does not hold. -/
theorem State.mem_keys_of_lines {s : State} {c line : Nat} {x : CLine} (h : Tbl.get? (s.cluster c).lines line = some x) :
    c ∈ Tbl.keys s.clusters := by
  unfold State.cluster Tbl.getD at h
  cases hc : Tbl.get? s.clusters c with
  | none => simp [hc, Cluster.empty] at h
  | some k => exact List.mem_map_of_mem (Tbl.mem_of_get? hc)
theorem State.holders_eq_nil_iff {s : State} {line : Nat} : s.holders line = [] ↔ ∀ c, Tbl.get? (s.cluster c).lines line = none := by
  unfold State.holders
  rw [List.filter_eq_nil_iff]
  refine ⟨fun h c => ?_, fun h c _ => by simp [h c]⟩
  cases hc : Tbl.get? (s.cluster c).lines line with
  | none => rfl
  | some x => exact absurd (by rw [hc]; rfl) (h c (State.mem_keys_of_lines hc))
theorem State.updateOnly_eq_nil_iff {s : State} {line : Nat} : s.updateOnly line = []
    ↔ ∀ c x, Tbl.get? (s.cluster c).lines line = some x → x.state ≠ .updateOnly := by
  unfold State.updateOnly State.holders
  rw [List.filter_eq_nil_iff]
  refine ⟨fun h c x hx hu => ?_, fun h c hc => ?_⟩
  · exact h c (List.mem_filter.2 ⟨State.mem_keys_of_lines hx, by rw [hx]; rfl⟩) (by simp [hx, hu])
  · obtain ⟨-, hs⟩ := List.mem_filter.1 hc
    obtain ⟨x, hx⟩ := Option.isSome_iff_exists.1 hs
    simpa [hx] using h c x hx
theorem State.updateOnly_eq_nil_of_holders {s : State} {line : Nat} (h : s.holders line = []) : s.updateOnly line = [] := by
  unfold State.updateOnly; rw [h]; rfl
/-- Without update-only copies there is nothing to recall (R328). -/
theorem State.recall_of_nil {s : State} {line : Nat} (h : s.updateOnly line = []) : s.recall line = s := by
  unfold State.recall State.recallFrom; rw [h]; rfl

theorem State.dropCopy_lines_self (s : State) (c line : Nat) : Tbl.get? ((s.dropCopy c line).cluster c).lines line = none := by
  unfold State.dropCopy
  dsimp only; split
  · have hdel : ∀ k : Cluster, k.lines = Tbl.del (s.cluster c).lines line →
        Tbl.get? ((s.setCluster c k).cluster c).lines line = none := fun k hk => by
      rw [State.cluster_setCluster_self, hk]; exact (Tbl.get?_del ..).trans (if_pos rfl)
    split
    · exact hdel _ rfl
    · exact hdel _ rfl
  · assumption

/-! ### What the answer at the home leaves of the clusters -/

/-- Every cluster has the copies it had. -/
def State.SameLines (s t : State) : Prop := ∀ c, (t.cluster c).lines = (s.cluster c).lines

namespace State.SameLines

theorem updateOnly {s t : State} (h : s.SameLines t) {line : Nat} (hu : s.updateOnly line = []) : t.updateOnly line = [] :=
  State.updateOnly_eq_nil_iff.2 fun c x hx => State.updateOnly_eq_nil_iff.1 hu c x (h c ▸ hx)
theorem holders {s t : State} (h : s.SameLines t) {line : Nat} (hh : s.holders line = []) : t.holders line = [] :=
  State.holders_eq_nil_iff.2 fun c => by rw [h c]; exact State.holders_eq_nil_iff.1 hh c
theorem of_clusters {s t : State} (h : t.clusters = s.clusters) : s.SameLines t := fun c => by rw [State.cluster_of_clusters h]
theorem setCluster {s t : State} (h : s.SameLines t) {c : Nat} {x : Cluster} (hx : x.lines = (t.cluster c).lines) :
    s.SameLines (t.setCluster c x) := fun d => by
  rw [State.cluster_setCluster]; split
  · subst_vars; exact hx.trans (h _)
  · exact h d

end State.SameLines

@[simp] theorem State.needLoop_clusters (s : State) (c : Option Nat) (line : Nat) : (s.needLoop c line).clusters = s.clusters := by
  unfold State.needLoop; split <;> rfl
@[simp] theorem State.pushReplicas_clusters (s : State) (line : Nat) : (s.pushReplicas line).clusters = s.clusters :=
  foldl_same State.clusters (fun u p => State.sliceTrim_clusters u p 0) _ _
theorem State.homeTouch_clusters {s : State} {line : Nat} (h : s.updateOnly line = []) : (s.homeTouch line).clusters = s.clusters := by
  unfold State.homeTouch; rw [State.recall_of_nil h]; exact State.fill_clusters ..
theorem State.learnPeer_sameLines (s : State) (c line : Nat) : s.SameLines (s.learnPeer c line) := by
  unfold State.learnPeer
  split
  · exact State.SameLines.setCluster (fun _ => rfl) rfl
  · exact fun _ => rfl
/-- The Repeater changes the clusters' redirects alone. -/
theorem State.repeaterCount_cluster {β : Type} (f : Cluster → β) (hf : ∀ k r, f { k with redirects := r } = f k) (s : State)
    (c line d : Nat) : f ((s.repeaterCount c line).cluster d) = f (s.cluster d) := by
  unfold State.repeaterCount
  dsimp only; split
  · rfl
  · split
    · refine (foldl_same (fun u => f (u.cluster d)) (fun u e => ?_) _ _).trans ?_
      · split
        · rw [State.cluster_setCluster]; split
          · subst_vars; exact hf _ _
          · rfl
        · rfl
      · rw [State.cluster_of_clusters (State.pushReplicas_clusters ..)]; rfl
    · rfl

section
variable {s : State} {line : Nat}

theorem State.needLoop_updateOnly (h : s.updateOnly line = []) (c : Option Nat) : (s.needLoop c line).updateOnly line = [] :=
  (State.SameLines.of_clusters (State.needLoop_clusters s c line)).updateOnly h
/-- An answer at the home recalls update-only copies alone. -/
theorem State.homeServe_sameLines (h : s.updateOnly line = []) (c : Option Nat) : s.SameLines (s.homeServe c line) := fun d => by
  have ht : ((s.needLoop c line).homeTouch line).clusters = s.clusters :=
    (State.homeTouch_clusters (State.needLoop_updateOnly h c)).trans (State.needLoop_clusters ..)
  unfold State.homeServe
  rw [State.repeaterCount_cluster Cluster.lines fun _ _ => rfl]
  split
  · rw [State.learnPeer_sameLines, State.cluster_of_clusters ht]
  · rw [State.cluster_of_clusters ht]
/-- With no cluster to predict the predictions stay. -/
theorem State.homeServe_peers (h : s.holders line = []) (c : Option Nat) (d : Nat) :
    ((s.homeServe c line).cluster d).peers = (s.cluster d).peers := by
  have hu := State.updateOnly_eq_nil_of_holders h
  have ht : ((s.needLoop c line).homeTouch line).clusters = s.clusters :=
    (State.homeTouch_clusters (State.needLoop_updateOnly hu c)).trans (State.needLoop_clusters ..)
  have hh : ((s.needLoop c line).homeTouch line).holders line = [] := (State.SameLines.of_clusters ht).holders h
  unfold State.homeServe
  rw [State.repeaterCount_cluster Cluster.peers fun _ _ => rfl]
  split
  · unfold State.learnPeer
    rw [hh]
    exact congrArg Cluster.peers (State.cluster_of_clusters ht d)
  · exact congrArg Cluster.peers (State.cluster_of_clusters ht d)
theorem State.learnPeer_not_poisoned (hp : s.poisoned line = false) (c l : Nat) : (s.learnPeer c l).poisoned line = false :=
  (State.poisoned_of_l2 (by rw [State.learnPeer_mem]) line).trans hp
theorem State.repeaterCount_not_poisoned (hp : s.poisoned line = false) (c l : Nat) : (s.repeaterCount c l).poisoned line = false := by
  unfold State.repeaterCount
  dsimp only; split
  · exact hp
  · split
    · refine foldl_pred (P := fun u : State => u.poisoned line = false) (fun u e hu => ?_) _ ?_
      · split <;> exact hu
      · exact foldl_pred (P := fun u : State => u.poisoned line = false) (fun u p hu => State.sliceTrim_not_poisoned hu p 0) _ hp
    · exact hp
/-- An answer without a recall poisons nothing. -/
theorem State.homeServe_not_poisoned (hp : s.poisoned line = false) (c : Option Nat) : (s.homeServe c line).poisoned line = false := by
  have ht : ((s.needLoop c line).homeTouch line).poisoned line = false :=
    ((((State.WorksAt.same line s).needLoop c line).recallCopies.fill).count ..).poison.trans hp
  unfold State.homeServe
  dsimp only; split
  · exact State.repeaterCount_not_poisoned (State.learnPeer_not_poisoned ht _ _) _ _
  · exact State.repeaterCount_not_poisoned ht _ _

end

/-! ### A new copy (R283, R327) -/

section
variable {s : State} {c line : Nat}

/-- A cluster without a copy is left as it is when the others share theirs. -/
theorem State.shareLine_cluster (h : Tbl.get? (s.cluster c).lines line = none) : (s.shareLine line).cluster c = s.cluster c := by
  refine foldl_pred (P := fun u : State => u.cluster c = s.cluster c) (fun u d hu => ?_) _ rfl
  rw [State.cluster_setCluster]; split
  · subst_vars; rw [hu]; unfold Tbl.upd; rw [h]
  · exact hu
/-- A read-only copy stays as it is. -/
theorem State.shareLine_readOnly {x : CLine} (h : Tbl.get? (s.cluster c).lines line = some x) (hx : x.state = .readOnly) :
    Tbl.get? ((s.shareLine line).cluster c).lines line = some x := by
  refine foldl_pred (P := fun u : State => Tbl.get? (u.cluster c).lines line = some x) (fun u d hu => ?_) _ h
  rw [State.cluster_setCluster]; split
  · subst_vars; simp [Tbl.get?_upd, hu, hx]
  · exact hu
theorem State.clusterMakeRoom_of_lt (h : (s.cluster c).lines.length < 8192) : s.clusterMakeRoom c = s := if_pos h

theorem State.installCopy_of_none (h : Tbl.get? (s.cluster c).lines line = none) (pf : Bool) (peer : Option Nat) :
    s.installCopy c line pf peer = (s.shareLine line).takeCopy c line ⟨.readOnly, [], peer, pf, s.ck⟩ := by
  unfold State.installCopy
  dsimp only; rw [h]
/-- A line the cluster does not hold enters its cache as a new read-only copy. -/
theorem State.installCopy_lines (h : Tbl.get? (s.cluster c).lines line = none) (pf : Bool) (peer : Option Nat) :
    Tbl.get? ((s.installCopy c line pf peer).cluster c).lines line = some ⟨.readOnly, [], peer, pf, s.ck⟩ := by
  rw [State.installCopy_of_none h, State.takeCopy, State.cluster_setCluster_self]
  exact Tbl.get?_set_self ..
/-- Where the cluster's cache has room, nothing but the sharing and the new copy takes place. -/
theorem State.installCopy_of_room (h : Tbl.get? (s.cluster c).lines line = none) (hr : (s.cluster c).lines.length < 8192) (pf : Bool)
    (peer : Option Nat) : s.installCopy c line pf peer = (s.shareLine line).setCluster c
      { s.cluster c with lines := Tbl.set (s.cluster c).lines line ⟨.readOnly, [], peer, pf, s.ck⟩ } := by
  have hc := State.shareLine_cluster h
  rw [State.installCopy_of_none h, State.takeCopy, State.clusterMakeRoom_of_lt (by rw [hc]; exact hr), hc]
theorem State.installCopy_mem_of_room (h : Tbl.get? (s.cluster c).lines line = none) (hr : (s.cluster c).lines.length < 8192) (pf : Bool)
    (peer : Option Nat) : (s.installCopy c line pf peer).mem = s.mem := by
  rw [State.installCopy_of_room h hr]; exact State.shareLine_mem ..

/-- The home answers a line that is not poisoned: the cluster takes a new copy. -/
theorem State.homeAnswer_good (hp : s.poisoned line = false) (pf : Bool) :
    s.homeAnswer c line pf = ((s.homeServe (some c) line).installCopy c line pf none, false) := by
  unfold State.homeAnswer
  dsimp only
  rw [if_neg (by simp [State.homeServe_not_poisoned hp])]
theorem State.homeAnswer_lines (hn : Tbl.get? (s.cluster c).lines line = none) (hu : s.updateOnly line = []) (hp : s.poisoned line = false)
    (pf : Bool) : Tbl.get? ((s.homeAnswer c line pf).1.cluster c).lines line = some ⟨.readOnly, [], none, pf, s.ck⟩ := by
  rw [State.homeAnswer_good hp, State.installCopy_lines (by rw [State.homeServe_sameLines hu]; exact hn),
    ((State.Keeps.same s).homeServe (some c) line).ck]

end

end Sys2Proof.Machine
end

section
/-! SUPPORT. The column caches (R284–R286, R312): what an eviction leaves at the home and in the column, and what a store leaves in it. -/

namespace Sys2Proof.Machine

@[simp] theorem State.colLine_dropCol_self (s : State) (c line : Nat) : (s.dropCol c line).colLine c line = none :=
  (Tbl.get?_del ..).trans (if_pos rfl)
@[simp] theorem State.colLine_setCol_self (s : State) (c line : Nat) (x : ColLine) : (s.setCol c line x).colLine c line = some x :=
  Tbl.get?_set_self ..
theorem State.colLine_colEvict_self (s : State) (c line : Nat) : (s.colEvict c line).colLine c line = none :=
  State.colLine_dropCol_self ..

theorem ColLine.dirty_ne_zero_of_bit {x : ColLine} {j : Nat} (h : x.dirty.getLsbD j = true) : x.dirty ≠ 0 := by
  intro h0; simp [h0] at h
theorem ColLine.dirty_ne_zero_of_badDirty {x : ColLine} (h : x.badDirty = true) : x.dirty ≠ 0 := by
  obtain ⟨i, -, hi⟩ := List.any_eq_true.1 h
  exact ColLine.dirty_ne_zero_of_bit (Bool.and_eq_true_iff.1 hi).1

/-- A dirty line is written back: its cells go home, and where a dirty byte is in error the line takes POISON there and no copy stays. -/
theorem State.colClean_of_dirty {s : State} {c line : Nat} {x : ColLine} (hx : s.colLine c line = some x) (hd : x.dirty ≠ 0) :
    ∃ u : State, u.mem.home = (s.homeWriteCells line (x.dirtyCells line) (some (clusterOf c))).mem.home
      ∧ s.colClean c line = if x.badDirty then ((u.setPoison line).dropCopy (clusterOf c) line).countErr (dieOfCore c) 2 else u := by
  refine ⟨((((s.homeWriteCells line (x.dirtyCells line) (some (clusterOf c))).grantOwned (clusterOf c) line).setCol c line
    { x with dirty := 0 }).pmcCount c 0x14 1 0), ?_, ?_⟩
  · rw [State.pmcCount_mem]
    show (State.grantOwned _ _ _).mem.home = _
    rw [State.grantOwned_mem]
  · unfold State.colClean
    rw [hx]
    exact if_neg hd

/-- The dirty bytes of an evicted line are at the home, unless one is in error. -/
theorem State.colEvict_home {s : State} {c line : Nat} {x : ColLine} (hx : s.colLine c line = some x) (hb : x.badDirty = false) {j : Nat}
    (hj : j < 128) (hd : x.dirty.getLsbD j = true) :
    Mem.read (s.colEvict c line).mem.home (line * 128 + j) = BitVec.ofNat 8 (byteAt x.data j) := by
  obtain ⟨u, hu, e⟩ := State.colClean_of_dirty hx (ColLine.dirty_ne_zero_of_bit hd)
  obtain ⟨m, -, hm⟩ := s.homeWriteCells_home line (x.dirtyCells line) (some (clusterOf c))
  rw [hb] at e
  show Mem.read (s.colClean c line).mem.home (line * 128 + j) = _
  rw [e, if_neg (by simp), hu, hm]
  exact Mem.read_overlay_of_mem m (x.dirtyCells_nodup line) (ColLine.mem_dirtyCells.2 ⟨j, hj, hd, rfl⟩)

/-- A column's line with a dirty byte in error is poisoned at the home when it is evicted, or written back as zeros, and its cluster
keeps no copy. -/
theorem State.colEvict_bad {s : State} {c line : Nat} {x : ColLine} (hx : s.colLine c line = some x) (hb : x.badDirty = true) :
    ((s.colEvict c line).poisoned line = true ∨ ∀ j < 128, Mem.read (s.colEvict c line).mem.home (line * 128 + j) = 0)
      ∧ Tbl.get? ((s.colEvict c line).cluster (clusterOf c)).lines line = none := by
  obtain ⟨u, -, e⟩ := State.colClean_of_dirty hx (ColLine.dirty_ne_zero_of_badDirty hb)
  rw [hb, if_pos rfl] at e
  have hm : (s.colClean c line).mem = (u.setPoison line).mem := by rw [e, State.countErr_mem, State.dropCopy_mem]
  refine ⟨?_, ?_⟩
  · have hl2 : (s.colEvict c line).mem.l2 = (u.setPoison line).mem.l2 := by rw [← hm]; rfl
    have hhome : (s.colEvict c line).mem.home = (u.setPoison line).mem.home := by rw [← hm]; rfl
    rw [State.poisoned_of_l2 hl2, hhome]
    exact u.setPoison_ends line
  · show Tbl.get? ((s.colClean c line).cluster (clusterOf c)).lines line = none
    rw [e]
    exact State.dropCopy_lines_self ..

/-! ### A store into the column (R286, R314) -/

/-- What the first `k` bytes of a store leave of a line. -/
theorem ColLine.byteAt_foldl_put (off : Nat) (bs : List Byte) (f : ColLine → Nat → ColLine)
    (hf : ∀ x i, (f x i).data = setByteAt x.data (off + i) (bs.getD i 0).toNat) (k : Nat) (x : ColLine) :
    ∀ j < k, byteAt ((List.range k).foldl f x).data (off + j) = (bs.getD j 0).toNat := by
  induction k with
  | zero => intro j hj; omega
  | succ k ih =>
    intro j hj
    rw [List.range_succ, List.foldl_append, List.foldl_cons, List.foldl_nil, hf]
    rcases Nat.lt_or_ge j k with h | h
    · rw [byteAt_setByteAt_ne _ _ (by omega), ih j h]
    · obtain rfl : j = k := by omega
      rw [byteAt_setByteAt_self, Nat.mod_eq_of_lt (BitVec.isLt _)]

/-- The column shows a store's bytes. -/
theorem State.colBytes_colStore (s : State) (c pa : Nat) (bs : List Byte) (uo : Bool) :
    (s.colStore c pa bs uo).colBytes c pa bs.length = bs := by
  unfold State.colBytes State.colStore
  extract_lets line off s₁ x₀ hit narrow x₁ put s₂
  rw [State.colLine_setCol_self]
  have hbytes := ColLine.byteAt_foldl_put off bs put (fun _ _ => rfl) bs.length x₁
  refine List.ext_getElem (by simp) fun i hi hb => ?_
  rw [List.getElem_map, List.getElem_range, hbytes i hb, BitVec.ofNat_toNat, BitVec.setWidth_eq, List.getD_eq_getElem _ _ hb]
/-- A store to a line the column holds, or has room for, leaves the home. -/
theorem State.colStore_home {s : State} {c pa : Nat}
    (h : (s.colLine c (pa / 128)).isSome = true ∨ (s.colLines c).length < s.colRoom c) (bs : List Byte) (uo : Bool) :
    (s.colStore c pa bs uo).mem.home = s.mem.home := by
  have hroom : s.colMakeRoom c (pa / 128) = s := if_pos (by simpa using h)
  unfold State.colStore
  extract_lets line off s₁ x₀ hit narrow x₁ put s₂
  have h₁ : s₁ = s := hroom
  have h₂ : s₂.mem = s₁.mem := by unfold s₂; split <;> rfl
  show s₂.mem.home = s.mem.home
  rw [h₂, h₁]

end Sys2Proof.Machine
end

section
/-! SUPPORT. The events of lines and of the host (R275–R277, R283, R286, R298–R304, R418, R489, R498), and the proof of O51. -/

namespace Sys2Proof.Machine

/-! ### Fills and the prefetches they answer (R275, R304) -/

theorem gddr7Fill_eq {s : State} {l : Nat} (hb : s.backed (l * 128) = true) :
    exec (.gddr7Fill l) s = .next ((Tbl.keys s.clusters).foldl (fun s c => s.fillPrefetch c l) (s.fill l)) := by
  rw [exec_gddr7Fill, execGddr7Fill, if_neg (by simp [hb])]

/-- Where no prefetch of the line waits in a cluster, its arrival changes nothing there. -/
theorem State.fillPrefetch_of_none {s : State} {c l : Nat} (h : ∀ m ∈ (s.cluster c).misses, m.line = l → m.prefetch = false) :
    s.fillPrefetch c l = s := by
  have hn : (s.cluster c).misses.findIdx? (fun m => decide (m.line = l) && m.prefetch) = none :=
    List.findIdx?_eq_none_iff.2 fun m hm => by
      by_cases hl : m.line = l
      · simp [h m hm hl]
      · simp [hl]
  unfold State.fillPrefetch
  dsimp only; rw [hn]

theorem gddr7Fill_fills (s : State) (l : Nat) (hb : s.backed (l * 128) = true) (hl : s.l2line l = none)
    (hn : ∀ cl, ∀ m ∈ (s.cluster cl).misses, m.line = l → m.prefetch = false) : ∃ t, exec (.gddr7Fill l) s = .next t
      ∧ t.l2line l = some ⟨false, false⟩ ∧ t.mem.home = s.mem.home ∧ t.waves = s.waves := by
  have hsame : (Tbl.keys s.clusters).foldl (fun s c => s.fillPrefetch c l) (s.fill l) = s.fill l := by
    refine foldl_pred (P := (· = s.fill l)) (fun u c hu => ?_) _ rfl
    rw [hu]
    exact State.fillPrefetch_of_none (by rw [State.cluster_of_clusters (State.fill_clusters s l)]; exact hn c)
  refine ⟨s.fill l, ?_, ?_, s.fill_home l, s.fill_waves l⟩
  · rw [gddr7Fill_eq hb, hsame]
  · rw [State.fill_l2line, hl]; rfl

theorem gddr7Fill_unlinked (s : State) (l : Nat) (hb : s.backed (l * 128) = true) (hl : s.l2line l = none) (hk : s.linked l = false) :
    ∃ t, exec (.gddr7Fill l) s = .next t ∧ t.lack.isSome = true :=
  ⟨_, gddr7Fill_eq hb, ((State.Keeps.same (s.fill l)).fold fun _ _ hu => hu.fillPrefetch ..).lack (State.fill_lack hl hk)⟩

theorem State.endEntry_cluster {β : Type} (f : Cluster → β) (hf : ∀ k m, f { k with misses := m } = f k) (s : State) (c l d : Nat) :
    f ((s.endEntry c l).cluster d) = f (s.cluster d) := by
  unfold State.endEntry
  dsimp only; split
  · rw [State.cluster_setCluster]; split
    · subst_vars; exact hf _ _
    · rfl
  · rfl

/-- The answer to a prefetch that holds its entry: with no redirect or prediction the home is asked, and the line comes in as prefetched. -/
theorem fillPrefetch_brings (s : State) (cl l i : Nat)
    (hi : (s.cluster cl).misses.findIdx? (fun m => decide (m.line = l) && m.prefetch) = some i)
    (he : (s.cluster cl).holdsEntry i = true) (hn : Tbl.get? (s.cluster cl).lines l = none)
    (hr : (s.cluster cl).redirects.find? (fun r => decide (r.1 = l)) = none) (hp : Tbl.get? (s.cluster cl).peers (peerIndex l) = none)
    (hu : s.updateOnly l = []) (hpo : s.poisoned l = false) :
    Tbl.get? ((s.fillPrefetch cl l).cluster cl).lines l = some ⟨.readOnly, [], none, true, s.ck⟩ := by
  have hlines : s.SameLines (s.endEntry cl l) := State.endEntry_cluster Cluster.lines (fun _ _ => rfl) s cl l
  have hpo' : (s.endEntry cl l).poisoned l = false := (State.poisoned_of_l2 (by rw [State.endEntry_mem]) l).trans hpo
  have hserve : (s.endEntry cl l).serveLine cl l true true = (s.endEntry cl l).homeAnswer cl l true := by
    unfold State.serveLine
    dsimp only
    rw [if_pos rfl, State.endEntry_cluster Cluster.redirects (fun _ _ => rfl), hr]
    dsimp only
    rw [State.endEntry_cluster Cluster.peers (fun _ _ => rfl), hp]
  have hgood := State.homeAnswer_good (c := cl) hpo' true
  have hans := State.homeAnswer_lines (c := cl) (by rw [hlines cl]; exact hn) (hlines.updateOnly hu) hpo' true
  rw [hgood] at hans
  unfold State.fillPrefetch
  dsimp only
  rw [hi]
  dsimp only
  rw [if_pos he, hserve, hgood]
  exact hans.trans (by rw [((State.Keeps.same s).endEntry cl l).ck])

/-! ### Evictions (R283, R286, R288, R301, R312) -/

theorem columnEviction_ends (s : State) (c l : Nat) (h : (s.colLine c l).isSome = true) :
    (exec (.columnEviction c l) s = .next (s.colEvict c l)
        ∨ hostWindow (l * 128) = true ∧ ∃ n < 16, exec (.columnEviction c l) s = .next (s.colCleanWord c l n))
      ∧ (s.colEvict c l).colLine c l = none ∧ (s.colEvict c l).waves = s.waves := by
  refine ⟨?_, s.colLine_colEvict_self c l, s.colEvict_waves c l⟩
  have hsome : (s.colLine c l).isNone = false := by simpa [Option.isSome_iff_ne_none] using h
  rw [exec_columnEviction, execColumnEviction, hsome]
  cases hw : hostWindow (l * 128) && s.flip 900620 with
  | false => exact .inl rfl
  | true =>
    refine .inr ⟨(Bool.and_eq_true_iff.1 hw).1, s.choose 900621 16, ?_, rfl⟩
    unfold State.choose
    rw [if_neg (by decide)]
    exact Nat.mod_lt _ (by decide)

theorem clusterCacheEviction_ends (s : State) (cl l : Nat) (x : CLine) (h : Tbl.get? (s.cluster cl).lines l = some x) :
    exec (.clusterCacheEviction cl l) s = .next (if x.state = .updateOnly then s else s.dropCopy cl l)
      ∧ Tbl.get? ((s.dropCopy cl l).cluster cl).lines l = none ∧ (s.dropCopy cl l).mem = s.mem := by
  refine ⟨?_, s.dropCopy_lines_self cl l, s.dropCopy_mem cl l⟩
  rw [exec_clusterCacheEviction, execClusterCacheEviction, h]

theorem l2Eviction_ends (s : State) (l : Nat) (x : L2Line) (hr : s.mem.replicas.filter (fun r => decide (r.1 = l)) = [])
    (hx : s.l2line l = some x) : ∃ t, exec (.l2Eviction l) s = .next t
      ∧ t.mem.home = s.mem.home ∧ (x.poison = true → t = s) ∧ (x.poison = false → t.l2line l = none
        ∧ (x.dirty = true → s.Inv → ∀ j < 128, Mem.read t.mem.dram (l * 128 + j) = Mem.read s.mem.home (l * 128 + j))) := by
  refine ⟨s.l2Evict l, ?_, s.l2Evict_home l, State.l2Evict_poisoned s hx, s.l2Evict_ends l hx⟩
  rw [exec_l2Eviction, execL2Eviction, hr]
  rfl

/-! ### A peer's forward and a redirected read (R298–R302) -/

theorem State.lines_of_eligibleRead {s : State} {cl l : Nat} (h : s.eligibleRead cl l = true) : Tbl.get? (s.cluster cl).lines l = none :=
  Option.isNone_iff_eq_none.1 (Bool.and_eq_true_iff.1 h).1

theorem peerProbe_eq {s : State} {cl l p : Nat} (hp : Tbl.get? (s.cluster cl).peers (peerIndex l) = some p) (he : s.eligibleRead cl l = true)
    (hr : (s.cluster cl).redirects.any (fun r => decide (r.1 = l)) = false) :
    exec (.peerProbe cl l) s = .next (s.probePeer cl l p false).1 := by
  rw [exec_peerProbe, execPeerProbe, hp]
  exact if_pos (by simp only [he, hr]; rfl)

/-- The predicted peer forwards its read-only line, and notes the cluster among its forwardees. -/
theorem State.probePeer_forwards {s : State} {cl l p : Nat} (hn : Tbl.get? (s.cluster cl).lines l = none)
    (hroom : (s.cluster cl).lines.length < 8192) {x : CLine} (hx : Tbl.get? (s.cluster p).lines l = some x) (hro : x.state = .readOnly)
    (hfp : x.fromPeer = none) (hlen : x.forwardees.length < 8) :
    (s.probePeer cl l p false).1.mem = s.mem
      ∧ Tbl.get? ((s.probePeer cl l p false).1.cluster cl).lines l = some ⟨.readOnly, [], some p, false, s.ck⟩
      ∧ Tbl.get? ((s.probePeer cl l p false).1.cluster p).lines l = some { x with forwardees := x.forwardees ++ [cl] } := by
  have hne : cl ≠ p := by rintro rfl; simp [hn] at hx
  let x' : CLine := { x with forwardees := x.forwardees ++ [cl] }
  let u := s.setCluster p { s.cluster p with lines := Tbl.set (s.cluster p).lines l x' }
  have hu : u.cluster cl = s.cluster cl := (State.cluster_setCluster ..).trans (if_neg hne)
  have hnu : Tbl.get? (u.cluster cl).lines l = none := by rw [hu]; exact hn
  have hru : (u.cluster cl).lines.length < 8192 := by rw [hu]; exact hroom
  have hxu : Tbl.get? (u.cluster p).lines l = some x' := by
    rw [State.cluster_setCluster_self]; exact Tbl.get?_set_self ..
  have hprobe : (s.probePeer cl l p false).1
      = ((u.installCopy cl l false (some p)).count 2 cl 0x10 1).count 2 cl 0x12 (u.choose 900600 64) := by
    unfold State.probePeer
    rw [hx]
    dsimp only
    rw [if_pos ⟨hro, by rw [hfp]; rfl, hlen⟩]
  have ht (d : Nat) : (s.probePeer cl l p false).1.cluster d = (u.installCopy cl l false (some p)).cluster d := by
    rw [hprobe]; rfl
  rw [ht, ht]
  refine ⟨?_, State.installCopy_lines hnu .., ?_⟩
  · rw [hprobe, State.count_mem, State.count_mem, State.installCopy_mem_of_room hnu hru]; rfl
  · rw [State.installCopy_of_room hnu hru, State.cluster_setCluster, if_neg (Ne.symm hne)]
    exact State.shareLine_readOnly hxu hro

/-- A line no cluster holds is not forwarded: the prediction is cleared and the home asked. -/
theorem State.probePeer_misses {s : State} {cl l p : Nat} (hroom : (s.cluster cl).lines.length < 8192) (hh : s.holders l = [])
    (hpo : s.poisoned l = false) : Tbl.get? ((s.probePeer cl l p false).1.cluster cl).peers (peerIndex l) = none
      ∧ Tbl.get? ((s.probePeer cl l p false).1.cluster cl).lines l = some ⟨.readOnly, [], none, false, s.ck⟩ := by
  let u := (s.setCluster cl { s.cluster cl with peers := Tbl.del (s.cluster cl).peers (peerIndex l) }).count 2 cl 0x11 1
  have hul : s.SameLines u := State.SameLines.setCluster (fun _ => rfl) rfl
  have huh : u.holders l = [] := hul.holders hh
  have huo := State.updateOnly_eq_nil_of_holders huh
  have hup : (u.cluster cl).peers = Tbl.del (s.cluster cl).peers (peerIndex l) := congrArg Cluster.peers (State.cluster_setCluster_self ..)
  have hprobe : s.probePeer cl l p false = u.homeAnswer cl l false := by
    unfold State.probePeer
    rw [State.holders_eq_nil_iff.1 hh p]
    rfl
  have hn : Tbl.get? (u.cluster cl).lines l = none := State.holders_eq_nil_iff.1 huh cl
  have hpu : u.poisoned l = false := hpo
  rw [hprobe]
  refine ⟨?_, State.homeAnswer_lines hn huo hpu false⟩
  have hserve := State.homeServe_sameLines huo (some cl) cl
  have hlines : (u.cluster cl).lines = (s.cluster cl).lines := hul cl
  rw [State.homeAnswer_good hpu, State.installCopy_of_room (by rw [hserve]; exact hn) (by rw [hserve, hlines]; exact hroom),
    State.cluster_setCluster_self]
  show Tbl.get? ((u.homeServe (some cl) l).cluster cl).peers (peerIndex l) = none
  rw [State.homeServe_peers huh, hup]
  exact (Tbl.get?_del ..).trans (if_pos rfl)

theorem redirectedRead_ends (s : State) (cl l : Nat) (r : Nat × Nat) (hr : (s.cluster cl).redirects.find? (fun r => decide (r.1 = l)) = some r)
    (he : s.eligibleRead cl l = true) (hm : (l, r.2) ∈ s.mem.replicas) (hroom : (s.cluster cl).lines.length < 8192) :
    ∃ t, exec (.redirectedRead cl l) s = .next t ∧ t.mem = s.mem
      ∧ Tbl.get? (t.cluster cl).lines l = some ⟨.readOnly, [], none, false, s.ck⟩ := by
  let u := ((s.setCluster cl { s.cluster cl with redirects := (l, r.2) :: (s.cluster cl).redirects.filter (fun r => !decide (r.1 = l)) }).count
    2 cl 0x41 1).count 3 r.2 0x11 1
  have hul : (u.cluster cl).lines = (s.cluster cl).lines := by
    show ((s.setCluster cl _).cluster cl).lines = _
    rw [State.cluster_setCluster_self]
  have hn : Tbl.get? (u.cluster cl).lines l = none := by rw [hul]; exact State.lines_of_eligibleRead he
  have hread : (s.redirectedRead cl l r.2 false).1 = u.installCopy cl l false none := congrArg Prod.fst (if_pos hm)
  refine ⟨u.installCopy cl l false none, ?_, ?_, State.installCopy_lines hn ..⟩
  · rw [exec_redirectedRead, execRedirectedRead, hr]
    dsimp only
    rw [if_pos he, hread]
  · exact State.installCopy_mem_of_room hn (by rw [hul]; exact hroom) ..

/-! ### Page walks (R27, R418, R419) -/

/-- A walk ends at the level it began at, or below. -/
theorem State.walkAt_level {s : State} {va : W64} {n table : Nat} {x : Nat × W64} (h : s.walkAt va n table = .ok x) : x.1 ≤ n := by
  induction n generalizing table with
  | zero =>
    unfold State.walkAt at h
    cases hr : s.walkRead va 0 table with
    | error e => rw [hr] at h; cases h
    | ok e => rw [hr] at h; cases h; exact le_rfl
  | succ n ih =>
    unfold State.walkAt at h
    cases hr : s.walkRead va (n + 1) table with
    | error e => rw [hr] at h; cases h
    | ok e =>
      rw [hr] at h
      dsimp only at h
      split at h
      · cases h; exact le_rfl
      · exact (ih h).trans (Nat.le_succ n)
/-- A walk of an address ends in the leaf it is named by. -/
theorem walkCovers_of_name {va : W64} {level : Nat} (h : level ≤ 3) (ctx : Nat) : walkCovers va (ctx, leafBase va level + level) = true := by
  obtain ⟨b, hb⟩ : ∃ b, leafBase va level = b * 4096 := by
    refine ⟨va.toNat / leafSize level * 2 ^ (9 * level), ?_⟩
    rw [leafBase, leafSize, Nat.pow_add, Nat.mul_assoc, Nat.mul_comm (2 ^ 12)]
  have hl : (b * 4096 + level) % 4096 = level := by omega
  have hd : (b * 4096 + level) / 4096 * 4096 = b * 4096 := by omega
  unfold walkCovers
  rw [hb, hl, hd, hb]
  exact decide_eq_true rfl
theorem State.walkCovers_walkName (s : State) (va : W64) (ctx : Nat) : walkCovers va (ctx, s.walkName va) = true := by
  unfold State.walkName
  cases h : s.walk va with
  | error e => simpa using walkCovers_of_name (va := va) (Nat.zero_le 3) ctx
  | ok x =>
    refine walkCovers_of_name ?_ ctx
    unfold State.walk at h
    split at h
    · cases h
    · exact State.walkAt_level h

/-- The walks of an address's leaf are gone. -/
theorem State.leaveWalk_walks (s : State) (d : Nat) (va : W64) : ∀ x ∈ ((s.leaveWalk d va).die d).walks, walkCovers va x = false := by
  unfold State.leaveWalk
  dsimp only
  rw [State.die_setDie_self]
  intro x hx
  simpa using (List.mem_filter.1 hx).2

theorem pageWalk_ends (s : State) (cl : Nat) (va : W64) (hc : cl < s.coreCount / 4) : let n := dieOfCluster cl
    let d := s.die n
    let me := (s.win.ctxid, s.walkName va)
    let started := (s.setDie n { d with walks := d.walks ++ [me] }).count 4 n 0x12 1
    if (d.walks.take 512).any (walkCovers va) = true then
      ∃ t, exec (.pageWalk cl va) s = .next t ∧ (∀ x ∈ (t.die n).walks, walkCovers va x = false) ∧ t.waves = s.waves
    else exec (.pageWalk cl va) s = .next (if d.walks.any (walkCovers va) = true then s else if d.walks.length < 512 then started
      else started.count 4 n 0x13 1) := by
  intro n d me started
  rw [exec_pageWalk, execPageWalk, if_neg (show ¬ s.coreCount / 4 ≤ cl by omega)]
  dsimp only
  by_cases hw : (d.walks.take 512).any (walkCovers va) = true
  · rw [if_pos hw, if_pos hw]
    exact ⟨_, rfl, State.leaveWalk_walks _ n va, by simp⟩
  · rw [if_neg hw, if_neg hw]
    by_cases ha : d.walks.any (walkCovers va) = true
    · rw [if_pos ha, if_pos ha]
    · rw [if_neg ha, if_neg ha]
      by_cases hlen : d.walks.length < 512
      · rw [if_pos hlen, if_pos hlen]
      · rw [if_neg hlen, if_neg hlen]
        have hme : (s.die n).walks.contains me = false := by
          rw [← Bool.not_eq_true, List.contains_iff_mem]
          exact fun hm => ha (List.any_eq_true.2 ⟨me, hm, s.walkCovers_walkName va _⟩)
        unfold State.queueFor
        dsimp only
        rw [if_neg (by rw [hme]; exact Bool.false_ne_true)]

/-! ### Mirrors and the host (R277, R481, R489, R498) -/

theorem counterMirrorRefresh_ends (s : State) (c : Nat) (hc : c < s.coreCount) : ∃ t, exec (.counterMirrorRefresh c) s = .next t
    ∧ t.counters = s.counters ∧ t.mem = s.mem
    ∧ (t.core c).mirror = s.counters.filter (fun r => decide (2 * 2 ^ 32 ≤ r.1) && decide (r.1 < 6 * 2 ^ 32)) := by
  rw [exec_counterMirrorRefresh, execCounterMirrorRefresh, if_neg (by omega)]
  exact ⟨_, rfl, rfl, rfl, congrArg Core.mirror (State.core_setCore_self ..)⟩

theorem hostWrite_ends (s : State) (pa : Nat) (data : List Byte) (hr : s.hostReaches pa data.length = true) :
    (s.fred.ckpt = none → ∃ t, exec (.hostWrite pa data) s = .next t
        ∧ (∀ j < data.length, Mem.read t.mem.home (pa + j) = data.getD j 0) ∧ t.waves = s.waves)
      ∧ (∀ x m, s.fred.ckpt = some (x, m) → 1 ≤ m → ∃ t, exec (.hostWrite pa data) s = .next t ∧ t.mem = s.mem
        ∧ t.fred.heldWrites = s.fred.heldWrites ++ [(pa, data)]) := by
  rw [exec_hostWrite, execHostWrite, if_neg (by simp [hr])]
  refine ⟨fun h => ?_, fun x m h hm => ?_⟩ <;> rw [h]
  · exact ⟨_, rfl, s.homeWriteBytes_home pa data none, s.homeWriteBytes_waves ..⟩
  · exact ⟨_, if_pos (decide_eq_true hm), rfl, rfl⟩

/-- The host's write of some bytes of a line of its own memory, which stays resident, poisoned, where `keep` says so (R277, R292). -/
def State.hostPut (s : State) (l : Nat) (data : List Byte) (keep : Bool) : State :=
  { s with mem := { s.mem with
      home := Mem.overlay s.mem.home (cellsAt (l * 128) data)
      dram := Mem.overlay (Mem.overlay (Mem.clear s.mem.dram (l * 128) 128) (Mem.slice s.mem.home (l * 128) 128 (l * 128))) (cellsAt (l * 128) data)
      l2 := if keep then s.mem.l2 else Tbl.del s.mem.l2 l } }
theorem State.hostPut_dropped (s : State) (l : Nat) (data : List Byte) : (s.hostPut l data false).l2line l = none :=
  (Tbl.get?_del ..).trans (if_pos rfl)
theorem State.hostPut_kept (s : State) (l : Nat) (data : List Byte) : (s.hostPut l data true).poisoned l = s.poisoned l :=
  State.poisoned_of_l2 (t := s.hostPut l data true) rfl l
theorem State.hostPut_bytes (s : State) (l : Nat) (data : List Byte) (keep : Bool) {j : Nat} (hj : j < data.length) :
    Mem.read (s.hostPut l data keep).mem.home (l * 128 + j) = data.getD j 0
      ∧ Mem.read (s.hostPut l data keep).mem.dram (l * 128 + j) = data.getD j 0 :=
  have hcells (m : Mem) : Mem.read (Mem.overlay m (cellsAt (l * 128) data)) (l * 128 + j) = data.getD j 0 :=
    Mem.read_overlay_of_mem m (cellsAt_nodup ..) (mem_cellsAt.2 ⟨j, hj, rfl⟩)
  ⟨hcells _, hcells _⟩
theorem hostInvalidate_eq {s : State} {l : Nat} {data : List Byte} (hw : hostWindow (l * 128) = true) (hu : s.fred.cxlUp = true)
    (hd : data.length ≤ 128) : exec (.hostInvalidate l data) s
      = .next (((s.recall l).dropOthers l none).hostPut l data (s.poisoned l && decide (data.length < 128))) := by
  have hpo : ((s.recall l).dropOthers l none).poisoned l = s.poisoned l := (((State.WorksAt.same l s).recallCopies).dropOthers l none).poison
  have hkeep : (match ((s.recall l).dropOthers l none).l2line l with | some x => x.poison && decide (data.length < 128) | none => false)
      = (s.poisoned l && decide (data.length < 128)) := by
    rw [← hpo, State.poisoned_eq]
    cases ((s.recall l).dropOthers l none).l2line l <;> rfl
  rw [exec_hostInvalidate, execHostInvalidate, if_neg (by simp [hw, hu]; omega)]
  exact congrArg (fun k => Host.Outcome.next (State.hostPut _ l data k)) hkeep
theorem hostInvalidate_ends (s : State) (l : Nat) (data : List Byte) (hw : hostWindow (l * 128) = true) (hu : s.fred.cxlUp = true)
    (hd : data.length ≤ 128) : ∃ t, exec (.hostInvalidate l data) s = .next t
      ∧ (s.poisoned l = false ∨ data.length = 128 → t.l2line l = none) ∧ (s.poisoned l = true → data.length < 128 → t.poisoned l = true)
      ∧ ∀ j < data.length, Mem.read t.mem.home (l * 128 + j) = data.getD j 0 ∧ Mem.read t.mem.dram (l * 128 + j) = data.getD j 0 := by
  refine ⟨_, hostInvalidate_eq hw hu hd, fun h => ?_, fun hp hlt => ?_, fun j hj => State.hostPut_bytes _ l data _ hj⟩
  · have hno : (s.poisoned l && decide (data.length < 128)) = false := by
      rcases h with h | h <;> simp [h]
    rw [hno]; exact State.hostPut_dropped ..
  · have hyes : (s.poisoned l && decide (data.length < 128)) = true := by simp [hp, hlt]
    rw [hyes, State.hostPut_kept, (((State.WorksAt.same l s).recallCopies).dropOthers l none).poison, hp]

/-- Settles O51: each clause is the event's arm of `exec`, read through what the operations of the home slices, the columns and the cluster
caches leave. -/
theorem linesAndHost : Obligations.LinesAndHost := by
  intro s
  refine ⟨fun l hb hl _ hn => gddr7Fill_fills s l hb hl hn, gddr7Fill_unlinked s, fun l hb => gddr7Fill_eq hb, fillPrefetch_brings s,
    columnEviction_ends s, fun c l x hx => ⟨fun hb j hj hd => State.colEvict_home hx hb hj hd, fun hb => (State.colEvict_bad hx hb).1,
      fun hb => (State.colEvict_bad hx hb).2⟩,
    clusterCacheEviction_ends s, l2Eviction_ends s, fun cl l p hp he hr hroom => ⟨_, peerProbe_eq hp he hr, ?_, ?_⟩, redirectedRead_ends s,
    pageWalk_ends s, counterMirrorRefresh_ends s, hostWrite_ends s, fun pa n hr => ?_, hostInvalidate_ends s⟩
  · exact fun x hx => State.probePeer_forwards (State.lines_of_eligibleRead he) hroom hx
  · exact State.probePeer_misses hroom
  · rw [exec_hostRead, execHostRead, if_pos hr]

end Sys2Proof.Machine
end

section
/-! SUPPORT. A wave's request and its accesses: what sending it and performing an access leave (R311, R312, R316), and its miss-status
entries (R26, R303). -/

namespace Sys2Proof.Machine

/-! ### The request in its wave -/

theorem Wave.id_of_req? {w : Wave} {rq : Nat} {q : Req} (h : w.req? rq = some q) : q.id = rq := by
  simpa using List.find?_some h
/-- A change of a request that keeps its number is what its number then finds. -/
theorem Wave.req?_updReq (w : Wave) (rq : Nat) {f : Req → Req} (hf : ∀ q, (f q).id = q.id) : (w.updReq rq f).req? rq = (w.req? rq).map f := by
  have hp : ((fun q : Req => decide (q.id = rq)) ∘ fun q => if q.id = rq then f q else q) = fun q => decide (q.id = rq) := by
    funext q
    by_cases h : q.id = rq <;> simp [h, hf]
  unfold Wave.req? Wave.updReq
  rw [List.find?_map, hp]
  cases h : w.reqs.find? (fun q => decide (q.id = rq)) with
  | none => rfl
  | some q => simp [show q.id = rq from Wave.id_of_req? h]

/-- Access `i` of request `rq` of the wave in slot `k` of core `c` is `x`. -/
def State.AccessIs (s : State) (c k rq i : Nat) (x : Access) : Prop :=
  ∃ w q, s.wave? c k = some w ∧ w.req? rq = some q ∧ q.accs[i]? = some x
/-- `n` bytes of access `x` have performed, with value `v`. -/
def State.Performed (s : State) (c k rq i : Nat) (x : Access) (n v : Nat) (bad : Bool) : Prop :=
  s.AccessIs c k rq i { x with done := decide (x.n ≤ x.got + n), res := x.res + v * 256 ^ x.got, bad := x.bad || bad, got := x.got + n }
/-- The request stands in its wave with the accesses and the return it had. -/
def State.ReqStands (s : State) (c k rq : Nat) (q : Req) : Prop :=
  ∃ w q', s.wave? c k = some w ∧ w.req? rq = some q' ∧ q'.accs = q.accs ∧ q'.ret = q.ret

namespace State.ReqStands
variable {s t : State} {c k rq i : Nat} {q : Req} {x : Access}

theorem of_wave {w : Wave} (hw : s.wave? c k = some w) (hq : w.req? rq = some q) : s.ReqStands c k rq q := ⟨w, q, hw, hq, rfl, rfl⟩
theorem of_waves (h : s.ReqStands c k rq q) (ht : t.waves = s.waves) : t.ReqStands c k rq q := by
  unfold State.ReqStands; rw [State.wave?_of_waves ht]; exact h
/-- A change of the wave outside its requests. -/
theorem updWave (h : s.ReqStands c k rq q) {f : Wave → Wave} (hf : ∀ w, (f w).reqs = w.reqs) : (s.updWave c k f).ReqStands c k rq q := by
  obtain ⟨w, q', hw, hq, ha, hr⟩ := h
  refine ⟨f w, q', by simp [hw], ?_, ha, hr⟩
  unfold Wave.req?; rw [hf]; exact hq
theorem tagWave (h : s.ReqStands c k rq q) (l : Nat) : (s.tagWave c k l).ReqStands c k rq q := h.updWave fun _ => rfl
theorem accessIs (h : s.ReqStands c k rq q) (hx : q.accs[i]? = some x) : s.AccessIs c k rq i x := by
  obtain ⟨w, q', hw, hq, ha, -⟩ := h
  exact ⟨w, q', hw, hq, by rw [ha]; exact hx⟩
/-- A change of the request that performs a piece of access `i`. -/
theorem updReq (h : s.ReqStands c k rq q) (hx : q.accs[i]? = some x) {f : Req → Req} {n v : Nat} {bad : Bool} (hid : ∀ q, (f q).id = q.id)
    (hf : ∀ q', q'.ret = q.ret → f q' = q'.perform i n v bad) : (s.updWave c k (fun w => w.updReq rq f)).Performed c k rq i x n v bad := by
  obtain ⟨w, q', hw, hq, ha, hr⟩ := h
  refine ⟨w.updReq rq f, q'.perform i n v bad, by simp [hw], ?_, ?_⟩
  · rw [Wave.req?_updReq w rq hid, hq, ← hf q' hr]; rfl
  · unfold Req.perform
    simp [ha, hx]
/-- A piece of access `i` performs. -/
theorem perform (h : s.ReqStands c k rq q) (hx : q.accs[i]? = some x) (n v : Nat) (bad : Bool) :
    (s.updWave c k (fun w => w.updReq rq (fun q => q.perform i n v bad))).Performed c k rq i x n v bad :=
  h.updReq hx (fun _ => rfl) fun _ _ => rfl

end State.ReqStands

/-- Only a TLD with a version word starts over (R322). -/
theorem Req.attempt_of_ret {q : Req} (h : ∀ a b, q.ret ≠ .tile a b true) : q.attempt = q := by
  unfold Req.attempt
  split
  · exact absurd ‹_› (h _ _)
  · rfl
theorem Req.attempt_id (q : Req) : q.attempt.id = q.id := by
  unfold Req.attempt
  split
  · split
    · dsimp only; split <;> rfl
    · rfl
  · rfl
theorem Req.ret_ne_of_unversioned {q : Req} (h : q.versioned = false) (a b : Nat) : q.ret ≠ .tile a b true := by
  intro hr; simp [Req.versioned, hr] at h

/-! ### Sending the request (R316) -/

section
variable {s : State} {c k rq : Nat} {w : Wave} {q : Req}

theorem State.sendReq_stands (hw : s.wave? c k = some w) (hq : w.req? rq = some q) : (s.sendReq c k w q).ReqStands c k rq q := by
  unfold State.sendReq
  split
  · exact State.ReqStands.of_wave hw hq
  · obtain rfl := Wave.id_of_req? hq
    have hset : (s.setWave c k (w.updReq q.id (fun r => { r with sent := true }))).ReqStands c k q.id q := by
      refine ⟨_, { q with sent := true }, State.wave?_setWave_self .., ?_, rfl, rfl⟩
      rw [Wave.req?_updReq w q.id (f := fun r => { r with sent := true }) fun _ => rfl, hq]; rfl
    dsimp only; split
    · unfold State.releaseFor
      split
      · unfold State.tagLast
        split
        · exact (hset.of_waves (State.columnRelease_waves ..)).updWave fun _ => rfl
        · exact hset.of_waves (State.columnRelease_waves ..)
      · exact hset
    · exact hset
theorem State.sendReq_columnServes (c' : Nat) (q' : Req) (x : Access) :
    (s.sendReq c k w q).columnServes c' q' x = s.columnServes c' q' x := ((State.Keeps.same s).sendReq c k w q).columnServes c' q' x
/-- A request that is no release leaves the memories as it is sent. -/
theorem State.sendReq_mem (h : q.sem = 0) : (s.sendReq c k w q).mem = s.mem := by
  unfold State.sendReq
  split
  · rfl
  · rw [h]; rfl
end

/-! ### Miss-status entries (R303) -/

theorem Cluster.missRow_isSome_iff {x : Cluster} {who : Nat × Nat} {line : Nat} :
    (x.missRow who line).isSome = true ↔ ∃ m ∈ x.misses, m.line = line ∧ who ∈ m.reqs := by
  unfold Cluster.missRow
  rw [List.findIdx?_isSome]
  simp [List.any_eq_true]

theorem State.ite_counts_clusters (p : Prop) [Decidable p] (s : State) (a b i n a' b' i' n' : Nat) :
    (if p then (s.count a b i n).count a' b' i' n' else s).clusters = s.clusters := by split <;> rfl
/-- A miss has a row for its request: in the entry it joined, or of its own. -/
theorem State.takeMiss_missRow (s : State) (cl line : Nat) (who : Nat × Nat) :
    (((s.takeMiss cl line who).cluster cl).missRow who line).isSome = true := by
  rw [Cluster.missRow_isSome_iff]
  unfold State.takeMiss
  dsimp only; split
  · rename_i i hi
    obtain ⟨hlt, hp, -⟩ := List.findIdx?_eq_some_iff_getElem.1 hi
    have hlen : i < (s.cluster cl).misses.length := by
      rw [List.length_take] at hlt; omega
    rw [List.getElem_take] at hp
    have hrow : ∀ k : Cluster, k.misses = (s.cluster cl).misses.modify i (fun m => { m with reqs := m.reqs ++ [who], prefetch := false }) →
        ∃ m ∈ ((s.setCluster cl k).cluster cl).misses, m.line = line ∧ who ∈ m.reqs := fun k hk => by
      rw [State.cluster_setCluster_self, hk]
      refine ⟨_, List.mem_of_getElem? (i := i) (by rw [List.getElem?_modify_eq, List.getElem?_eq_getElem hlen]; rfl), ?_, by simp⟩
      exact of_decide_eq_true (Bool.and_eq_true_iff.1 hp).1
    rw [State.cluster_of_clusters (State.ite_counts_clusters ..)]
    exact hrow _ rfl
  · have hrow : ∀ k : Cluster, k.misses = (s.cluster cl).misses ++ [⟨line, [who], false⟩] →
        ∃ m ∈ ((s.setCluster cl k).cluster cl).misses, m.line = line ∧ who ∈ m.reqs := fun k hk => by
      rw [State.cluster_setCluster_self, hk]
      exact ⟨⟨line, [who], false⟩, by simp, rfl, by simp⟩
    split
    · exact hrow _ rfl
    · exact hrow _ rfl
/-- A prefetch adds a row at most. -/
theorem State.takePrefetch_misses (s : State) (cl l d : Nat) : ∃ ms, ((s.takePrefetch cl l).cluster d).misses = (s.cluster d).misses ++ ms := by
  unfold State.takePrefetch
  dsimp only; split
  · exact ⟨[], (List.append_nil _).symm⟩
  · have hrow : ∀ k : Cluster, k.misses = (s.cluster cl).misses ++ [⟨l, [], true⟩] →
        ∃ ms, ((s.setCluster cl k).cluster d).misses = (s.cluster d).misses ++ ms := fun k hk => by
      rw [State.cluster_setCluster]; split
      · subst_vars; exact ⟨_, hk⟩
      · exact ⟨[], (List.append_nil _).symm⟩
    split
    · exact hrow _ rfl
    · exact hrow _ rfl
/-- The trackers' prefetches leave a request its row. -/
theorem State.trackMiss_missRow {s : State} {cl d line l : Nat} {who : Nat × Nat} (core : Nat)
    (h : ((s.cluster d).missRow who line).isSome = true) : (((s.trackMiss cl core l).cluster d).missRow who line).isSome = true := by
  have hset : ∀ k : Cluster, k.misses = (s.cluster cl).misses → (((s.setCluster cl k).cluster d).missRow who line).isSome = true := fun k hk => by
    rw [State.cluster_setCluster]; split
    · subst_vars; rw [Cluster.missRow_isSome_iff, hk, ← Cluster.missRow_isSome_iff]; exact h
    · exact h
  unfold State.trackMiss
  dsimp only; split
  · exact h
  · split
    · exact hset _ rfl
    · split
      · exact hset _ rfl
      · refine foldl_pred (P := fun u : State => ((u.cluster d).missRow who line).isSome = true) (fun u l' hu => ?_) _ (hset _ rfl)
        split
        · obtain ⟨ms, hms⟩ := u.takePrefetch_misses cl l' d
          rw [Cluster.missRow_isSome_iff] at hu ⊢
          obtain ⟨m, hm, hl⟩ := hu
          exact ⟨m, by rw [hms]; exact List.mem_append_left _ hm, hl⟩
        · exact hu
/-- An access that waits for an entry has a row. -/
theorem State.awaitEntry_missRow (s : State) (core who : Nat) (q : Req) (x : Access) :
    (((s.awaitEntry core who q x).cluster (clusterOf core)).missRow (who, q.id) (x.pa / 128)).isSome = true := by
  unfold State.awaitEntry
  dsimp only; split
  · assumption
  · exact State.takeMiss_missRow ..

end Sys2Proof.Machine
end

section
/-! SUPPORT. The steps that perform a wave's accesses (R282, R288, R303, R312, R314, R321–R327), and the proof of O50. -/

namespace Sys2Proof.Machine

/-! ### Waves through the operations of an access -/

@[simp] theorem State.takeUpdateOnly_waves (s : State) (cl line : Nat) : (s.takeUpdateOnly cl line).waves = s.waves := by
  have take (u : State) : (State.takeUpdateOnly.takeIt cl line u).waves = u.waves := by
    unfold State.takeUpdateOnly.takeIt
    extract_lets s₁ keep s₂
    have h₁ : s₁.waves = u.waves := by
      unfold s₁; split
      · exact State.recall_waves ..
      · rfl
    have h₂ : s₂.waves = s₁.waves := foldl_same State.waves (fun v d => State.dropCopy_waves v d line) _ _
    rw [State.takeCopy_waves, State.dropReplicas_waves, h₂, h₁]
  unfold State.takeUpdateOnly
  split
  · split
    · rfl
    · exact take s
  · exact take s
@[simp] theorem State.contribute_waves (s : State) (cl pa fn x : Nat) : (s.contribute cl pa fn x).waves = s.waves := by
  unfold State.contribute
  extract_lets s₁ clash s₂ k v
  have h₁ : s₁.waves = s.waves := State.takeUpdateOnly_waves ..
  have h₂ : s₂.waves = s₁.waves := by
    unfold s₂; split
    · rw [State.takeUpdateOnly_waves, State.recall_waves]
    · rfl
  exact h₂.trans h₁

/-! ### Contributions (R327) -/

/-- A contribution leaves a partial of its operation; in a line held update-only whose word holds no other operation's, it is combined
with the one there. -/
theorem State.contribute_partial (s : State) (cl pa fn y : Nat) :
    ∃ p, Tbl.get? ((s.contribute cl pa fn y).cluster cl).partials (pa / 4) = some p ∧ p.fn = fn
      ∧ (∀ l, Tbl.get? (s.cluster cl).lines (pa / 128) = some l → l.state = .updateOnly →
          (∀ u ∈ wordUnits pa, ∀ p0, Tbl.get? (s.cluster cl).partials u = some p0 → p0.fn = fn) →
          p.x = (match Tbl.get? (s.cluster cl).partials (pa / 4) with | some p0 => atomOp fn p0.x y | none => y)) := by
  unfold State.contribute
  extract_lets s₁ clash s₂ k v
  refine ⟨⟨fn, v⟩, ?_, rfl, fun l hl hu hfn => ?_⟩
  · show Tbl.get? ((s₂.setCluster cl _).cluster cl).partials (pa / 4) = _
    rw [State.cluster_setCluster_self]
    exact Tbl.get?_set_self ..
  · have h₁ : s₁ = s := by
      show s.takeUpdateOnly cl (pa / 128) = s
      unfold State.takeUpdateOnly
      rw [hl]
      exact if_pos hu
    have hclash : clash = false := List.any_eq_false.2 fun u hmem => by
      rw [h₁]
      cases hp : Tbl.get? (s.cluster cl).partials u with
      | none => simp
      | some p0 => simp [hfn u hmem p0 hp]
    have h₂ : s₂ = s := (if_neg (by rw [hclash]; exact Bool.false_ne_true)).trans h₁
    show v = _
    unfold v k
    exact h₂ ▸ rfl

/-! ### Reads below the column (R282, R303) -/

/-- A lookup of a copy that is there leaves the memories. -/
theorem State.clusterLookup_mem_of_has {s : State} {cl line : Nat} (h : s.clusterHas cl line = true) :
    (s.clusterLookup cl line).mem = s.mem := by
  unfold State.clusterHas at h
  unfold State.clusterLookup
  cases hl : Tbl.get? (s.cluster cl).lines line with
  | none => simp [hl] at h
  | some l =>
    dsimp only; split
    · unfold State.installCopy
      rw [show (((s.count 2 cl 0x30 1).count 2 cl 1 1).cluster cl) = s.cluster cl from rfl]
      dsimp only
      rw [hl]; rfl
    · rfl

theorem State.colBytes_length (s : State) (core pa n : Nat) : (s.colBytes core pa n).length = n := by unfold State.colBytes; split <;> simp
/-- As many bytes are delivered as were asked for. -/
theorem State.deliverLine_length (s : State) (core pa n : Nat) (col uo bad : Bool) : (s.deliverLine core pa n col uo bad).2.1.length = n := by
  have hview : (s.colView core pa (List.replicate n 0)).length = n := by unfold State.colView; split <;> simp
  unfold State.deliverLine
  split
  · split
    · exact hview
    · exact State.colBytes_length ..
  · split <;> simp

section
variable {s : State} {core pa n : Nat} {who : Nat × Nat} {col uo so plain : Bool}

/-- A line the cluster's cache holds is delivered at once. -/
theorem State.readBelow_of_has (h : s.clusterHas (clusterOf core) (pa / 128) = true) : ∃ u : State, u.mem = s.mem ∧ u.waves = s.waves
    ∧ s.readBelow core pa n who col uo so plain = ((u.deliverLine core pa n col uo false).1, some (u.deliverLine core pa n col uo false).2) := by
  refine ⟨if ((s.cluster (clusterOf core)).missRow who (pa / 128)).isSome then s.endMiss (clusterOf core) (pa / 128) who
    else s.clusterLookup (clusterOf core) (pa / 128), ?_, ?_, ?_⟩
  · split
    · exact State.endMiss_mem ..
    · exact State.clusterLookup_mem_of_has h
  · split <;> simp
  · unfold State.readBelow
    dsimp only
    rw [if_pos h]
/-- A miss whose row holds an entry is answered. -/
theorem State.readBelow_of_ready (h : s.clusterHas (clusterOf core) (pa / 128) = false)
    (hr : s.missReady (clusterOf core) (pa / 128) who = true) : ∃ (u : State) (bad : Bool), u.waves = s.waves
    ∧ s.readBelow core pa n who col uo so plain = ((u.deliverLine core pa n col uo bad).1, some (u.deliverLine core pa n col uo bad).2) := by
  have hrow : ((s.cluster (clusterOf core)).missRow who (pa / 128)).isSome = true := by
    unfold State.missReady at hr
    cases hm : (s.cluster (clusterOf core)).missRow who (pa / 128) with
    | none => simp [hm] at hr
    | some i => rfl
  refine ⟨(s.serveLine (clusterOf core) (pa / 128) plain false).1.endMiss (clusterOf core) (pa / 128) who,
    (s.serveLine (clusterOf core) (pa / 128) plain false).2, by simp, ?_⟩
  unfold State.readBelow
  dsimp only
  rw [if_neg (by rw [h]; exact Bool.false_ne_true), if_pos hrow, if_pos hr]
/-- Any other miss waits, and has a row. -/
theorem State.readBelow_of_waits (h : s.clusterHas (clusterOf core) (pa / 128) = false)
    (hr : s.missReady (clusterOf core) (pa / 128) who = false) : ∃ u : State, u.waves = s.waves
    ∧ ((u.cluster (clusterOf core)).missRow who (pa / 128)).isSome = true ∧ s.readBelow core pa n who col uo so plain = (u, none) := by
  unfold State.readBelow
  dsimp only
  rw [if_neg (by rw [h]; exact Bool.false_ne_true)]
  by_cases hrow : ((s.cluster (clusterOf core)).missRow who (pa / 128)).isSome = true
  · rw [if_pos hrow, if_neg (by rw [hr]; exact Bool.false_ne_true)]
    exact ⟨s, rfl, hrow, rfl⟩
  · rw [if_neg hrow]
    have htake := State.takeMiss_missRow (s.clusterLookup (clusterOf core) (pa / 128)) (clusterOf core) (pa / 128) who
    refine ⟨_, ?_, ?_, rfl⟩
    · split <;> simp
    · split
      · exact htake
      · exact State.trackMiss_missRow core htake
end

@[simp] theorem State.countColumn_clusters (s : State) (core team : Nat) (x : Access) (who : Nat × Nat) (ev : Nat) :
    (s.countColumn core team x who ev).clusters = s.clusters := by
  unfold State.countColumn State.pmcCount
  split
  · dsimp only; split <;> rfl
  · rfl
theorem State.clusterHas_of_clusters {s t : State} (h : t.clusters = s.clusters) (cl line : Nat) : t.clusterHas cl line = s.clusterHas cl line := by
  unfold State.clusterHas; rw [State.cluster_of_clusters h]
theorem State.missReady_of_clusters {s t : State} (h : t.clusters = s.clusters) (cl line : Nat) (who : Nat × Nat) :
    t.missReady cl line who = s.missReady cl line who := by
  unfold State.missReady; rw [State.cluster_of_clusters h]

/-- A read the column hits. -/
theorem State.readAccess_of_hit {s : State} {core : Nat} {q : Req} {x : Access} (hc : (s.columnServes core q x && !decide (q.sem = 4)) = true)
    (hh : s.colHit core (x.pa + x.got) x.piece = true) (team who : Nat) : ∃ u : State, u.mem = s.mem ∧ u.waves = s.waves
      ∧ s.readAccess core team who q x
        = (u, some (s.colBytes core (x.pa + x.got) x.piece, s.colBad core (x.pa + x.got) x.piece)) := by
  refine ⟨(s.countColumn core team x (who, q.id) 0x12).endMiss (clusterOf core) ((x.pa + x.got) / 128) (who, q.id), by simp, by simp, ?_⟩
  unfold State.readAccess
  dsimp only
  rw [if_pos hc, if_pos hh]
/-- A read that passes the column by. -/
theorem State.readAccess_of_no_column {s : State} {core : Nat} {q : Req} {x : Access}
    (hc : (s.columnServes core q x && !decide (q.sem = 4)) = false) (hv : q.versioned = false) (team who : Nat) : ∃ so plain,
    s.readAccess core team who q x
      = (s.colEvict core (x.pa / 128)).readBelow core (x.pa + x.got) x.piece (who, q.id) false false so plain := by
  refine ⟨decide (x.kind = .so), decide (q.sem = 0) && !decide (x.kind = .so) && !q.versioned, ?_⟩
  unfold State.readAccess
  dsimp only
  rw [hc, hv]
  rfl
/-- A read the column misses, or that passes it by, goes on below, over the clusters as they are there. -/
theorem State.readAccess_below {s : State} {core : Nat} {q : Req} {x : Access} {column : Bool}
    (hcol : (s.columnServes core q x && !decide (q.sem = 4)) = column) (hv : q.versioned = false)
    (h : column = false ∨ s.colHit core (x.pa + x.got) x.piece = false) (team who : Nat) : ∃ (u : State) (col uo so plain : Bool),
    u.waves = s.waves ∧ u.clusters = (if column then s else s.colEvict core (x.pa / 128)).clusters
      ∧ s.readAccess core team who q x = u.readBelow core (x.pa + x.got) x.piece (who, q.id) col uo so plain := by
  cases column with
  | false =>
    obtain ⟨so, plain, e⟩ := State.readAccess_of_no_column hcol hv team who
    exact ⟨_, _, _, _, _, State.colEvict_waves .., rfl, e⟩
  | true =>
    have hh : s.colHit core (x.pa + x.got) x.piece = false := h.resolve_left (by decide)
    refine ⟨s.countColumn core team x (who, q.id) 0x13, true, decide (x.kind = .uo), decide (x.kind = .so),
      decide (q.sem = 0) && !decide (x.kind = .so) && !q.versioned, by simp, by simp, ?_⟩
    unfold State.readAccess
    dsimp only
    rw [if_pos hcol, if_neg (by rw [hh]; exact Bool.false_ne_true)]

/-! ### Writes at the home (R286, R314) -/

theorem State.writeHome_home (s : State) (core who : Nat) (q : Req) (x : Access) (n d : Nat) : ∀ j < (bytesOf n d).length,
    Mem.read (s.writeHome core who q x n d).mem.home (x.pa + x.got + j) = (bytesOf n d).getD j 0 := by
  unfold State.writeHome
  dsimp only; split
  · exact State.homeWriteBytes_home _ _ _ _
  · rw [State.grantOwned_mem]
    exact State.homeWriteBytes_home _ _ _ _

/-! ### Atomics at the home (R326) -/

/-- Whether an access is performed at the home as an atomic. -/
def Access.atomicAtHome (x : Access) (q : Req) : Bool :=
  match x.op with
  | .atom _ _ => !q.aon
  | .cas _ _ => true
  | .red _ _ => x.redAtHome
  | _ => false
/-- Whether bytes in error, read at the home, reach the lane: a RED receives none. -/
def Access.receivesBad (x : Access) (bad : Bool) : Bool :=
  match x.op with
  | .red _ _ => false
  | _ => bad
/-- What an atomic leaves at the home of what its read left there: the new value, where there is one. -/
def State.modifyAtHome (s : State) (c k : Nat) (x : Access) : Option Nat → State
  | some v => (s.homeWriteBytes x.pa (bytesOf x.n v) (some (clusterOf c))).tagWave c k (x.pa / 128)
  | none => s
/-- The state in which an atomic or a contribution performs: its line has left the column, and its entry is served. -/
def State.metAtHome (s : State) (c k : Nat) (q : Req) (x : Access) : State :=
  ((s.colEvict c (x.pa / 128)).meetCluster c (waveKey c k) q x).throughEntry c (waveKey c k) q x

@[simp] theorem State.metAtHome_waves (s : State) (c k : Nat) (q : Req) (x : Access) : (s.metAtHome c k q x).waves = s.waves := by
  unfold State.metAtHome; simp
theorem State.modifyAtHome_some (s : State) (c k : Nat) (x : Access) (v : Nat) : ∀ j < (bytesOf x.n v).length,
    Mem.read (s.modifyAtHome c k x (some v)).mem.home (x.pa + j) = (bytesOf x.n v).getD j 0 := by
  unfold State.modifyAtHome
  rw [State.tagWave_mem]
  exact State.homeWriteBytes_home _ _ _ _
theorem State.ReqStands.modifyAtHome {s : State} {c k rq : Nat} {q : Req} (h : s.ReqStands c k rq q) (x : Access) (m : Option Nat) :
    (s.modifyAtHome c k x m).ReqStands c k rq q := by
  cases m with
  | none => exact h
  | some v => exact (h.of_waves (State.homeWriteBytes_waves ..)).tagWave _

/-! ### The steps on a wave's access -/

section
variable {s : State} {c k : Nat} {w : Wave} {q : Req} {rq i : Nat} {x : Access}
variable (hw : s.wave? c k = some w) (hq : w.req? rq = some q) (hx : q.accs[i]? = some x) (hp : w.mayPerform q i x = true)
include hw hq hx hp

/-! #### Reads -/

theorem homeRead_serves (hop : x.op = .read) (hv : q.versioned = false) {u : State} {bs : List Byte} {bad : Bool}
    (hr : (s.sendReq c k w q).readAccess c w.team (waveKey c k) q x = (u, some (bs, bad))) (hu : u.waves = (s.sendReq c k w q).waves) :
    ∃ t, exec (.homeRead (.wave c k) rq i) s = .next t ∧ t.mem = u.mem ∧ t.Performed c k rq i x bs.length (ofBytes bs) bad := by
  refine ⟨u.updWave c k (fun w => w.updReq rq (fun q => (q.perform i bs.length (ofBytes bs) bad).attempt)), ?_, rfl, ?_⟩
  · rw [exec_homeRead]; unfold execHomeRead
    simp only [hw, hq, hx, hp, hop, hr, decide_true, Bool.and_self, if_true]
  · refine ((State.sendReq_stands hw hq).of_waves hu).updReq hx (f := fun q => (q.perform i bs.length (ofBytes bs) bad).attempt)
      (fun _ => Req.attempt_id _) fun q' hret => Req.attempt_of_ret fun a b => ?_
    show q'.ret ≠ _
    rw [hret]
    exact Req.ret_ne_of_unversioned hv a b
theorem homeRead_waits (hop : x.op = .read) {u : State} (hr : (s.sendReq c k w q).readAccess c w.team (waveKey c k) q x = (u, none))
    (hu : u.waves = (s.sendReq c k w q).waves) : exec (.homeRead (.wave c k) rq i) s = .next u ∧ u.AccessIs c k rq i x := by
  refine ⟨?_, ((State.sendReq_stands hw hq).of_waves hu).accessIs hx⟩
  rw [exec_homeRead]; unfold execHomeRead
  simp only [hw, hq, hx, hp, hop, hr, decide_true, Bool.and_self, if_true]

/-- A read the column hits. -/
theorem homeRead_hit (hop : x.op = .read) (hv : q.versioned = false) (hc : (s.columnServes c q x && decide (q.sem ≠ 4)) = true)
    (hh : (s.sendReq c k w q).colHit c (x.pa + x.got) x.piece = true) : ∃ t, exec (.homeRead (.wave c k) rq i) s = .next t
      ∧ t.mem = (s.sendReq c k w q).mem ∧ t.Performed c k rq i x x.piece (ofBytes ((s.sendReq c k w q).colBytes c (x.pa + x.got) x.piece))
        ((s.sendReq c k w q).colBad c (x.pa + x.got) x.piece) := by
  rw [← State.sendReq_columnServes (s := s) (c := c) (k := k) (w := w) (q := q), decide_not] at hc
  obtain ⟨u, hm, hu, e⟩ := State.readAccess_of_hit hc hh w.team (waveKey c k)
  obtain ⟨t, ht, htm, hp'⟩ := homeRead_serves hw hq hx hp hop hv e hu
  rw [State.colBytes_length] at hp'
  exact ⟨t, ht, htm.trans hm, hp'⟩
/-- A read past the column of a line its cluster holds gives the home's bytes. -/
theorem homeRead_clusterHit (hop : x.op = .read) (hv : q.versioned = false) (hc : (s.columnServes c q x && decide (q.sem ≠ 4)) = false)
    (hh : ((s.sendReq c k w q).colEvict c (x.pa / 128)).clusterHas (clusterOf c) ((x.pa + x.got) / 128) = true) :
    ∃ t, exec (.homeRead (.wave c k) rq i) s = .next t ∧ t.Performed c k rq i x x.piece
      (ofBytes ((List.range x.piece).map (fun j => Mem.read ((s.sendReq c k w q).colEvict c (x.pa / 128)).mem.home (x.pa + x.got + j)))) false := by
  rw [← State.sendReq_columnServes (s := s) (c := c) (k := k) (w := w) (q := q), decide_not] at hc
  obtain ⟨so, plain, e⟩ := State.readAccess_of_no_column hc hv w.team (waveKey c k)
  obtain ⟨u, hm, hu, eb⟩ := State.readBelow_of_has (n := x.piece) (who := (waveKey c k, q.id)) (col := false) (uo := false) (so := so) (plain := plain) hh
  obtain ⟨t, ht, -, hp'⟩ := homeRead_serves hw hq hx hp hop hv (e.trans eb)
    ((State.deliverLine_waves ..).trans (hu.trans (State.colEvict_waves ..)))
  rw [hm, List.length_map, List.length_range] at hp'
  exact ⟨t, ht, hp'⟩
/-- Any other read is served where its cluster holds the line or its miss is ready, and else waits in a row. -/
theorem homeRead_miss (hop : x.op = .read) (hv : q.versioned = false) {column : Bool} (hc : (s.columnServes c q x && decide (q.sem ≠ 4)) = column)
    (hh : column = false ∨ (s.sendReq c k w q).colHit c (x.pa + x.got) x.piece = false) {s2 : State}
    (h2 : s2 = if column then s.sendReq c k w q else (s.sendReq c k w q).colEvict c (x.pa / 128)) :
    if s2.clusterHas (clusterOf c) ((x.pa + x.got) / 128) || s2.missReady (clusterOf c) ((x.pa + x.got) / 128) (waveKey c k, rq) then
      ∃ t v bad, exec (.homeRead (.wave c k) rq i) s = .next t ∧ t.Performed c k rq i x x.piece v bad
    else ∃ t, exec (.homeRead (.wave c k) rq i) s = .next t ∧ t.AccessIs c k rq i x
      ∧ ((t.cluster (clusterOf c)).missRow (waveKey c k, rq) ((x.pa + x.got) / 128)).isSome = true := by
  rw [← State.sendReq_columnServes (s := s) (c := c) (k := k) (w := w) (q := q), decide_not] at hc
  obtain ⟨u, col, uo, so, plain, hu, hcl, e⟩ := State.readAccess_below hc hv hh w.team (waveKey c k)
  rw [← h2] at hcl
  rw [← State.clusterHas_of_clusters hcl, ← State.missReady_of_clusters hcl]
  obtain rfl := Wave.id_of_req? hq
  have served {v : State} {bad : Bool} (hv' : v.waves = u.waves) (eb : u.readBelow c (x.pa + x.got) x.piece (waveKey c k, q.id) col uo so plain
      = ((v.deliverLine c (x.pa + x.got) x.piece col uo bad).1, some (v.deliverLine c (x.pa + x.got) x.piece col uo bad).2)) :
      ∃ t y bad, exec (.homeRead (.wave c k) q.id i) s = .next t ∧ t.Performed c k q.id i x x.piece y bad := by
    obtain ⟨t, ht, -, hp'⟩ := homeRead_serves hw hq hx hp hop hv (e.trans eb) ((State.deliverLine_waves ..).trans (hv'.trans hu))
    rw [State.deliverLine_length] at hp'
    exact ⟨t, _, _, ht, hp'⟩
  by_cases hhas : u.clusterHas (clusterOf c) ((x.pa + x.got) / 128) = true
  · rw [hhas, Bool.true_or, if_pos rfl]
    obtain ⟨v, -, hv', eb⟩ := State.readBelow_of_has hhas
    exact served hv' eb
  · rw [Bool.not_eq_true] at hhas
    rw [hhas, Bool.false_or]
    split
    next hr =>
      obtain ⟨v, bad, hv', eb⟩ := State.readBelow_of_ready hhas hr
      exact served hv' eb
    next hr =>
      obtain ⟨v, hv', hrow, eb⟩ := State.readBelow_of_waits hhas (Bool.eq_false_iff.2 hr)
      obtain ⟨ht, ha⟩ := homeRead_waits hw hq hx hp hop (e.trans eb) (hv'.trans hu)
      exact ⟨v, ht, ha, hrow⟩

/-! #### Stores and discards -/

/-- A store the column does not take is at the home once its entry is ready. -/
theorem homeWrite_atHome {d : Nat} (hop : x.op = .write d) (hc : s.columnServes c q x = false ∨ q.sem ≠ 0)
    (hr : (s.sendReq c k w q).entryReady c (waveKey c k) q x = true) : ∃ t, exec (.homeWrite (.wave c k) rq i) s = .next t
      ∧ t.Performed c k rq i x x.piece 0 false
      ∧ ∀ j < (bytesOf x.piece (d / 256 ^ x.got)).length, Mem.read t.mem.home (x.pa + x.got + j) = (bytesOf x.piece (d / 256 ^ x.got)).getD j 0 := by
  have hcol : ((s.sendReq c k w q).columnServes c q x && decide (q.sem = 0)) = false := by
    rw [State.sendReq_columnServes]; rcases hc with h | h <;> simp [h]
  let u := ((s.sendReq c k w q).colEvict c (x.pa / 128)).writeHome c (waveKey c k) q x x.piece (d / 256 ^ x.got)
  have hu : u.waves = (s.sendReq c k w q).waves := by simp [u]
  refine ⟨(u.tagWave c k (x.pa / 128)).updWave c k (fun w => w.updReq rq (fun q => q.perform i x.piece 0 false)), ?_,
    (((State.sendReq_stands hw hq).of_waves hu).tagWave _).perform hx .., fun j hj => ?_⟩
  · rw [exec_homeWrite]; unfold execHomeWrite
    simp only [hw, hq, hx, hp, hop, hcol, hr, if_true, Bool.false_eq_true, if_false]; rfl
  · rw [State.updWave_mem, State.tagWave_mem]
    exact State.writeHome_home _ _ _ _ _ _ _ j hj
/-- Else it waits for its entry. -/
theorem homeWrite_waits {d : Nat} (hop : x.op = .write d) (hc : s.columnServes c q x = false ∨ q.sem ≠ 0)
    (hr : (s.sendReq c k w q).entryReady c (waveKey c k) q x = false) : ∃ t, exec (.homeWrite (.wave c k) rq i) s = .next t
      ∧ t.AccessIs c k rq i x ∧ ((t.cluster (clusterOf c)).missRow (waveKey c k, rq) (x.pa / 128)).isSome = true := by
  have hcol : ((s.sendReq c k w q).columnServes c q x && decide (q.sem = 0)) = false := by
    rw [State.sendReq_columnServes]; rcases hc with h | h <;> simp [h]
  refine ⟨(s.sendReq c k w q).awaitEntry c (waveKey c k) q x, ?_,
    ((State.sendReq_stands hw hq).of_waves (State.awaitEntry_waves ..)).accessIs hx, ?_⟩
  · rw [exec_homeWrite]; unfold execHomeWrite
    simp only [hw, hq, hx, hp, hop, hcol, hr, if_true, Bool.false_eq_true, if_false]
  · rw [← Wave.id_of_req? hq]
    exact State.awaitEntry_missRow ..
/-- The column takes a plain store: it shows the bytes, and the home stays where the line needs no room made. -/
theorem homeWrite_column {d : Nat} (hop : x.op = .write d) (hc : s.columnServes c q x = true) (hs : q.sem = 0) :
    ∃ t, exec (.homeWrite (.wave c k) rq i) s = .next t
      ∧ t.Performed c k rq i x x.piece 0 false
      ∧ t.colBytes c (x.pa + x.got) x.piece = bytesOf x.piece (d / 256 ^ x.got)
      ∧ ((s.colLine c ((x.pa + x.got) / 128)).isSome = true ∨ (s.colLines c).length < s.colRoom c → t.mem.home = s.mem.home) := by
  have hcol : ((s.sendReq c k w q).columnServes c q x && decide (q.sem = 0)) = true := by
    rw [State.sendReq_columnServes, hc, hs]; rfl
  let u := if x.got = 0 then (s.sendReq c k w q).pmcCount c (if ((s.sendReq c k w q).colLine c (x.pa / 128)).isSome then 0x12 else 0x13) 1 w.team
    else s.sendReq c k w q
  have hw' : u.waves = (s.sendReq c k w q).waves := by unfold u; split <;> simp
  have hm : u.mem = s.mem := by rw [← State.sendReq_mem (s := s) (c := c) (k := k) (w := w) hs]; unfold u; split <;> simp
  have ht : u.teams = s.teams := by rw [← State.sendReq_teams s c k w q]; unfold u; split <;> simp
  let v := u.colStore c (x.pa + x.got) (bytesOf x.piece (d / 256 ^ x.got)) (decide (x.kind = .uo))
  refine ⟨v.updWave c k (fun w => w.updReq rq (fun q => q.perform i x.piece 0 false)), ?_,
    ((State.sendReq_stands hw hq).of_waves ((State.colStore_waves ..).trans hw')).perform hx .., ?_, fun h => ?_⟩
  · rw [exec_homeWrite]; unfold execHomeWrite
    simp only [hw, hq, hx, hp, hop, hcol, if_true]; rfl
  · have := u.colBytes_colStore c (x.pa + x.got) (bytesOf x.piece (d / 256 ^ x.got)) (decide (x.kind = .uo))
    rw [bytesOf_length] at this
    exact this
  · rw [← hm]
    refine State.colStore_home ?_ _ _
    unfold State.colRoom State.rowsHeld State.colLines State.colLine at *
    rw [hm, ht]
    exact h
/-- A discard drops the line from the column and at its home, where it takes the value behind it. -/
theorem homeWrite_discard (hop : x.op = .discard) (hs : s.Inv) : ∃ t, exec (.homeWrite (.wave c k) rq i) s = .next t
      ∧ t.Performed c k rq i x x.n 0 false
      ∧ t.l2line (x.pa / 128) = none ∧ t.colLine c (x.pa / 128) = none
      ∧ ∀ j < 128, Mem.read t.mem.home (x.pa / 128 * 128 + j) = Mem.read (s.sendReq c k w q).mem.dram (x.pa / 128 * 128 + j) := by
  let u := ((s.sendReq c k w q).dropCol c (x.pa / 128)).homeDiscard (x.pa / 128)
  obtain ⟨hl2, hcols, hhome⟩ := State.homeDiscard_ends ((s.sendReq c k w q).dropCol c (x.pa / 128)) (x.pa / 128)
    (State.dropCol_inv _ _ _ (State.sendReq_inv _ _ _ _ _ hs))
  have hm : ((u.tagWave c k (x.pa / 128)).updWave c k (fun w => w.updReq rq (fun q => q.perform i x.n 0 false))).mem = u.mem := by
    rw [State.updWave_mem, State.tagWave_mem]
  refine ⟨(u.tagWave c k (x.pa / 128)).updWave c k (fun w => w.updReq rq (fun q => q.perform i x.n 0 false)), ?_,
    (((State.sendReq_stands hw hq).of_waves (by simp [u])).tagWave _).perform hx .., ?_, ?_, fun j hj => ?_⟩
  · rw [exec_homeWrite]; unfold execHomeWrite
    simp only [hw, hq, hx, hp, hop, if_true]; rfl
  · rw [State.l2line_of_l2 (congrArg MemSys.l2 hm)]; exact hl2
  · rw [State.colLine_of_cols (congrArg MemSys.cols hm), State.colLine_of_cols hcols]; exact State.colLine_dropCol_self ..
  · rw [hm]; exact hhome j hj

/-- The last access of an AON store adds to the version word at its home. -/
theorem homeWrite_last {fn y : Nat} (hop : x.op = .atom fn y) (ha : q.aon = true) (hs : q.sent = true) (hl : i + 1 = q.accs.length) :
    ∃ t, exec (.homeWrite (.wave c k) rq i) s = .next t ∧ t.Performed c k rq i x x.n 0 false ∧
      let v := ofBytes (((s.sendReq c k w q).colEvict c (x.pa / 128)).homeReadBytes (some (clusterOf c)) x.pa 8).2.1
      ∀ j < (bytesOf 8 (v + y)).length, Mem.read t.mem.home (x.pa + j) = (bytesOf 8 (v + y)).getD j 0 := by
  have hsend : s.sendReq c k w q = s := by unfold State.sendReq; exact if_pos hs
  rw [hsend]
  dsimp only
  let r := (s.colEvict c (x.pa / 128)).homeReadBytes (some (clusterOf c)) x.pa 8
  refine ⟨((r.1.homeWriteBytes x.pa (bytesOf 8 (ofBytes r.2.1 + y)) none).tagWave c k (x.pa / 128)).updWave c k
    (fun w => w.updReq rq (fun q => q.perform i x.n 0 false)), ?_,
    (((State.ReqStands.of_wave hw hq).of_waves (by simp [r])).tagWave _).perform hx .., fun j hj => ?_⟩
  · rw [exec_homeWrite]; unfold execHomeWrite
    simp only [hw, hq, hx, hp, hop, ha, hl, decide_true, Bool.and_self, if_true]; rfl
  · rw [State.updWave_mem, State.tagWave_mem]
    exact State.homeWriteBytes_home _ _ _ _ j hj

/-! #### Atomics and contributions -/

theorem atomicAtHome_serves (hat : x.atomicAtHome q = true) (hr : (s.sendReq c k w q).entryReady c (waveKey c k) q x = true) :
    let r := ((s.sendReq c k w q).metAtHome c k q x).homeReadBytes (some (clusterOf c)) x.pa x.n
    ∃ t, exec (.atomicAtHome (.wave c k) rq i) s = .next t ∧ t.Performed c k rq i x x.n (ofBytes r.2.1) (x.receivesBad r.2.2)
      ∧ t.mem = (r.1.modifyAtHome c k x (x.op.modify (ofBytes r.2.1))).mem := by
  intro r
  have hu : r.1.waves = (s.sendReq c k w q).waves := by simp [r]
  refine ⟨(r.1.modifyAtHome c k x (x.op.modify (ofBytes r.2.1))).updWave c k
    (fun w => w.updReq rq (fun q => q.perform i x.n (ofBytes r.2.1) (x.receivesBad r.2.2))), ?_,
    (((State.sendReq_stands hw hq).of_waves hu).modifyAtHome x _).perform hx .., rfl⟩
  rw [exec_atomicAtHome]; unfold execAtomicAtHome
  simp only [hw, hq, hx]
  refine (if_pos (Bool.and_eq_true_iff.2 ⟨hat, hp⟩)).trans ((if_pos hr).trans ?_)
  rfl
theorem atomicAtHome_waits (hat : x.atomicAtHome q = true) (hr : (s.sendReq c k w q).entryReady c (waveKey c k) q x = false) :
    ∃ t, exec (.atomicAtHome (.wave c k) rq i) s = .next t ∧ t.AccessIs c k rq i x := by
  refine ⟨(s.sendReq c k w q).awaitEntry c (waveKey c k) q x, ?_,
    ((State.sendReq_stands hw hq).of_waves (State.awaitEntry_waves ..)).accessIs hx⟩
  rw [exec_atomicAtHome]; unfold execAtomicAtHome
  simp only [hw, hq, hx]
  exact (if_pos (Bool.and_eq_true_iff.2 ⟨hat, hp⟩)).trans (if_neg (by rw [hr]; exact Bool.false_ne_true))

/-- An atomic, and a RED that performs at the home, gives the old value and leaves the new one. -/
theorem atomicAtHome_modifies {f : Nat → Nat} (hat : x.atomicAtHome q = true) (hm : ∀ old, x.op.modify old = some (f old)) :
    let old := ofBytes (((s.sendReq c k w q).metAtHome c k q x).homeReadBytes (some (clusterOf c)) x.pa x.n).2.1
    if (s.sendReq c k w q).entryReady c (waveKey c k) q x then
      ∃ t bad, exec (.atomicAtHome (.wave c k) rq i) s = .next t ∧ t.Performed c k rq i x x.n old bad
        ∧ ∀ j < (bytesOf x.n (f old)).length, Mem.read t.mem.home (x.pa + j) = (bytesOf x.n (f old)).getD j 0
    else ∃ t, exec (.atomicAtHome (.wave c k) rq i) s = .next t ∧ t.AccessIs c k rq i x := by
  intro old
  split
  next hr =>
    obtain ⟨t, ht, hp', hmem⟩ := atomicAtHome_serves hw hq hx hp hat hr
    refine ⟨t, _, ht, hp', ?_⟩
    rw [hmem, hm]
    exact State.modifyAtHome_some _ _ _ _ _
  next hr => exact atomicAtHome_waits hw hq hx hp hat (Bool.eq_false_iff.2 hr)
/-- A CAS leaves its new value where the old one compares equal, and else the home as its read left it. -/
theorem atomicAtHome_cas {cmp new : Nat} (hop : x.op = .cas cmp new) (hr : (s.sendReq c k w q).entryReady c (waveKey c k) q x = true) :
    let r := ((s.sendReq c k w q).metAtHome c k q x).homeReadBytes (some (clusterOf c)) x.pa x.n
    ∃ t, exec (.atomicAtHome (.wave c k) rq i) s = .next t ∧ t.Performed c k rq i x x.n (ofBytes r.2.1) r.2.2
      ∧ if ofBytes r.2.1 = cmp then ∀ j < (bytesOf x.n new).length, Mem.read t.mem.home (x.pa + j) = (bytesOf x.n new).getD j 0
        else t.mem.home = r.1.mem.home := by
  intro r
  have hat : x.atomicAtHome q = true := by unfold Access.atomicAtHome; rw [hop]
  have hbad : x.receivesBad r.2.2 = r.2.2 := by unfold Access.receivesBad; rw [hop]
  obtain ⟨t, ht, hp', hmem⟩ := atomicAtHome_serves hw hq hx hp hat hr
  have hm : x.op.modify (ofBytes r.2.1) = if ofBytes r.2.1 = cmp then some new else none := by rw [hop]; rfl
  refine ⟨t, ht, hbad ▸ hp', ?_⟩
  rw [hmem, hm]
  split
  · exact State.modifyAtHome_some _ _ _ _ _
  · rfl

/-- A RED contributes to its cluster's partials once its entry is ready, and else waits. -/
theorem redContribution_ends {fn y : Nat} (hop : x.op = .red fn y) (hh : x.redAtHome = false) (hacc : ∀ b ∈ q.accs.take i, b.done = true)
    (hbef : ∀ r ∈ w.before rq, ∀ b ∈ r.accs, b.done = true ∨ ∀ g z, b.op ≠ .red g z) :
    let s2 := (s.sendReq c k w q).metAtHome c k q x
    let cl := clusterOf c
    if ((s.sendReq c k w q).colEvict c (x.pa / 128)).entryReady c (waveKey c k) q x = false then
      ∃ t, exec (.redContribution (.wave c k) rq i) s = .next t ∧ t.AccessIs c k rq i x
        ∧ ((t.cluster cl).missRow (waveKey c k, rq) (x.pa / 128)).isSome = true
    else ∃ t p, exec (.redContribution (.wave c k) rq i) s = .next t ∧ t.Performed c k rq i x x.n 0 false
      ∧ Tbl.get? (t.cluster cl).partials (x.pa / 4) = some p ∧ p.fn = fn
      ∧ (∀ l, Tbl.get? (s2.cluster cl).lines (x.pa / 128) = some l → l.state = .updateOnly →
          (∀ u ∈ wordUnits x.pa, ∀ p0, Tbl.get? (s2.cluster cl).partials u = some p0 → p0.fn = fn) →
          p.x = (match Tbl.get? (s2.cluster cl).partials (x.pa / 4) with | some p0 => atomOp fn p0.x y | none => y)) := by
  intro s2 cl
  have hturn : (!x.redAtHome && w.mayPerform q i x && (q.accs.take i).all (fun b => b.done)
      && (w.before q.id).all (fun r => r.accs.all (fun b => b.done || !(match b.op with | .red _ _ => true | _ => false)))) = true := by
    simp only [hh, hp, Bool.not_false, Bool.true_and, Bool.and_eq_true, List.all_eq_true]
    refine ⟨hacc, fun r hr b hb => ?_⟩
    rw [Wave.id_of_req? hq] at hr
    rcases hbef r hr b hb with hd | hn
    · rw [hd]; rfl
    · cases hbo : b.op with
      | red g z => exact absurd hbo (hn g z)
      | _ => simp
  have hexec : exec (.redContribution (.wave c k) rq i) s =
      if !((s.sendReq c k w q).colEvict c (x.pa / 128)).entryReady c (waveKey c k) q x then
        .next (((s.sendReq c k w q).colEvict c (x.pa / 128)).awaitEntry c (waveKey c k) q x)
      else .next ((s2.contribute cl x.pa fn y).updWave c k (fun w => w.updReq rq (fun q => q.perform i x.n 0 false))) := by
    rw [exec_redContribution]; unfold execRedContribution
    simp only [hw, hq, hx, hop]
    exact if_pos hturn
  rw [hexec]
  split
  next hr =>
    rw [hr]
    refine ⟨_, rfl, ((State.sendReq_stands hw hq).of_waves (by simp)).accessIs hx, ?_⟩
    rw [← Wave.id_of_req? hq]
    exact State.awaitEntry_missRow ..
  next hr =>
    rw [Bool.not_eq_false] at hr
    rw [hr]
    obtain ⟨p, hget, hfn, hx'⟩ := s2.contribute_partial cl x.pa fn y
    exact ⟨_, p, rfl, ((State.sendReq_stands hw hq).of_waves (by simp [s2])).perform hx .., hget, hfn, hx'⟩

/-- The first access of an AON store takes an even version word and makes it odd; else it stays to be tried again. -/
theorem versionWordRetry_ends (hi : i = 0) (ha : q.aon = true) :
    let v := ofBytes (((s.sendReq c k w q).colEvict c (x.pa / 128)).homeReadBytes (some (clusterOf c)) x.pa 8).2.1
    ∃ t, exec (.versionWordRetry (.wave c k) rq) s = .next t ∧ if v % 2 = 0 then t.Performed c k rq i x x.n v false
        ∧ ∀ j < (bytesOf 8 (v + 1)).length, Mem.read t.mem.home (x.pa + j) = (bytesOf 8 (v + 1)).getD j 0
      else t.AccessIs c k rq i x := by
  subst hi
  intro v
  let r := ((s.sendReq c k w q).colEvict c (x.pa / 128)).homeReadBytes (some (clusterOf c)) x.pa 8
  have hr : r.1.waves = (s.sendReq c k w q).waves := by simp [r]
  have hexec : exec (.versionWordRetry (.wave c k) rq) s = if v % 2 = 0 then
      .next (((r.1.homeWriteBytes x.pa (bytesOf 8 (v + 1)) none).tagWave c k (x.pa / 128)).updWave c k
        (fun w => w.updReq rq (fun q => q.perform 0 x.n v false)))
      else .next r.1 := by
    rw [exec_versionWordRetry]; unfold execVersionWordRetry
    simp only [hw, hq, hx, hp, ha, Bool.and_self, if_true]; rfl
  rw [hexec]
  split
  · refine ⟨_, rfl, (((State.sendReq_stands hw hq).of_waves ((State.homeWriteBytes_waves ..).trans hr)).tagWave _).perform hx .., fun j hj => ?_⟩
    rw [State.updWave_mem, State.tagWave_mem]
    exact State.homeWriteBytes_home _ _ _ _ j hj
  · exact ⟨_, rfl, ((State.sendReq_stands hw hq).of_waves hr).accessIs hx⟩

end

/-- Settles O50: an access performs in the column, its cluster's cache or at the home, or waits in a row of its cluster's misses. -/
theorem accessesPerform : Obligations.AccessesPerform := by
  intro s c k w q rq i x hw hq hx hp
  refine ⟨fun d hop hc => ?_, fun d hop hc hs _ => homeWrite_column hw hq hx hp hop hc hs, fun hop hs => homeWrite_discard hw hq hx hp hop hs,
    fun hop hv => ⟨fun hc hh => homeRead_hit hw hq hx hp hop hv hc hh, fun hc hh => ?_, fun hh => homeRead_miss hw hq hx hp hop hv rfl hh rfl⟩,
    fun fn y hop => ?_, fun cmp new hop hr => atomicAtHome_cas hw hq hx hp hop hr,
    fun fn y hop hh hacc hbef => redContribution_ends hw hq hx hp hop hh hacc hbef, fun hi ha => versionWordRetry_ends hw hq hx hp hi ha,
    fun fn y hop ha hs hl => homeWrite_last hw hq hx hp hop ha hs hl⟩
  · split
    next hr => exact homeWrite_atHome hw hq hx hp hop hc hr
    next hr => exact homeWrite_waits hw hq hx hp hop hc (Bool.eq_false_iff.2 hr)
  · dsimp only at hc hh ⊢
    rw [hc, if_neg Bool.false_ne_true] at hh ⊢
    exact homeRead_clusterHit hw hq hx hp hop hv hc hh
  · rcases hop with ⟨hop, ha⟩ | ⟨hop, hh⟩
    · exact atomicAtHome_modifies hw hq hx hp (f := fun old => atomOp fn old y) (by unfold Access.atomicAtHome; rw [hop, ha]; rfl)
        (fun old => by rw [hop]; rfl)
    · exact atomicAtHome_modifies hw hq hx hp (f := fun old => atomOp fn old y) (by unfold Access.atomicAtHome; rw [hop]; exact hh)
        (fun old => by rw [hop]; rfl)

end Sys2Proof.Machine
end

section
/-! SUPPORT. A turn of an agent at a word (R50, R96, R99, R104, R123, R292, R484): what a ck and the counters change, which wave or stream
then stands there, and the proof of O57. -/

namespace Sys2Proof.Machine

/-! ### What counting changes (R484) -/

/-- `t` is `s` but for what its cores count: the cores being vacated are the same. -/
def State.Recounts (s t : State) : Prop := ∃ cs, t = { s with cores := cs } ∧ ∀ d, t.vacating d = s.vacating d

namespace State.Recounts

theorem same (s : State) : s.Recounts s := ⟨s.cores, rfl, fun _ => rfl⟩

section
variable {r s : State} (h : r.Recounts s)
include h

theorem trans {t : State} (ht : s.Recounts t) : r.Recounts t := by
  obtain ⟨cs, rfl, hs⟩ := h
  obtain ⟨ds, rfl, hd⟩ := ht
  exact ⟨ds, rfl, fun d => (hd d).trans (hs d)⟩
theorem fold {α : Type} {f : State → α → State} {l : List α} (hf : ∀ u a, r.Recounts u → r.Recounts (f u a)) : r.Recounts (l.foldl f s) :=
  foldl_pred (P := r.Recounts) hf l h
theorem setCore (c : Nat) {x : Core} (hx : x.vacating = s.vacating c) : r.Recounts (s.setCore c x) := by
  refine h.trans ⟨_, rfl, fun d => ?_⟩
  unfold State.vacating
  rw [State.core_setCore]
  split
  · subst d; exact hx
  · rfl
theorem pmcCount (core ev n team : Nat) : r.Recounts (s.pmcCount core ev n team) := by
  unfold State.pmcCount
  dsimp only; split
  · exact h.setCore core rfl
  · exact h
theorem mirrorAll : r.Recounts s.mirrorAll := by
  unfold State.mirrorAll
  split
  · exact h.fold fun u c hu => hu.setCore c rfl
  · exact h
theorem countWord (core : Nat) (w : Wave) (word : W64) : r.Recounts (s.countWord core w word) := by
  have hadr : r.Recounts (if w.adr then s.pmcCount core 0x05 1 w.team else s) := by
    split
    · exact h.pmcCount ..
    · exact h
  unfold State.countWord
  dsimp only; split
  · exact h
  · split
    · exact (hadr.pmcCount ..).pmcCount ..
    · split
      · exact hadr.pmcCount ..
      · exact hadr
theorem countSeq (core : Nat) (m : Stream) : r.Recounts (s.countSeq core m) := by
  unfold State.countSeq
  split
  · exact h.pmcCount ..
  · exact h

end
end State.Recounts

/-! ### What a ck changes (R23, R51, R484, R486) -/

/-- `t` has the agents of `s`, its waves but for their promotion, and what decides which of them issue: what the passing of a ck keeps. -/
structure State.Ages (s t : State) : Prop where
  ck : t.ck = s.ck
  fresh : t.fresh = s.fresh
  mem : t.mem = s.mem
  streams : t.streams = s.streams
  issues : ∀ c n, t.mayIssue c n = s.mayIssue c n
  waves : ∀ c k w, s.wave? c k = some w → ∃ p, t.wave? c k = some { w with promoted := p }

namespace State.Ages

theorem of_recounts {s t : State} (h : s.Recounts t) : s.Ages t := by
  obtain ⟨cs, rfl, hv⟩ := h
  exact ⟨rfl, rfl, rfl, rfl, fun c n => congrArg (s.ctxRuns n || ·) (hv c), fun _ _ w hw => ⟨w.promoted, hw⟩⟩
theorem trans {r s t : State} (h : r.Ages s) (ht : s.Ages t) : r.Ages t := by
  refine ⟨ht.ck.trans h.ck, ht.fresh.trans h.fresh, ht.mem.trans h.mem, ht.streams.trans h.streams,
    fun c n => (ht.issues c n).trans (h.issues c n), fun c k w hw => ?_⟩
  obtain ⟨p, hp⟩ := h.waves c k w hw
  obtain ⟨p', hp'⟩ := ht.waves c k _ hp
  exact ⟨p', hp'⟩
theorem setPromoted {s : State} {c k : Nat} {w : Wave} (hw : s.wave? c k = some w) (p : Option Nat) :
    s.Ages (s.setWave c k { w with promoted := p }) := by
  refine ⟨rfl, rfl, rfl, rfl, fun _ _ => rfl, fun c' k' w' hw' => ?_⟩
  rw [State.wave?_setWave]
  split
  next hk =>
    have : w' = w := by
      unfold State.wave? at hw hw'
      rw [hk, hw] at hw'
      exact (Option.some.inj hw').symm
    exact ⟨p, by rw [this]⟩
  · exact ⟨w'.promoted, hw'⟩
theorem promote (s : State) (c k : Nat) : s.Ages (s.promote c k) := by
  unfold State.promote
  split
  · exact of_recounts (.same s)
  next w hw =>
    split
    · split
      · exact (of_recounts ((State.Recounts.same s).pmcCount ..)).trans (setPromoted (by rw [State.wave?_of_waves (State.pmcCount_waves ..)]; exact hw) _)
      · exact of_recounts (.same s)
    · exact of_recounts (.same s)
theorem promoteAll (s : State) : s.Ages s.promoteAll :=
  foldl_pred (P := s.Ages) (fun u key hu => hu.trans (promote u (key / 32) (key % 32))) _ (of_recounts (.same s))

end State.Ages

/-- The clocks of a state one ck later (R23, R486). -/
def State.later (s : State) : State :=
  { s with ck := s.ck + 1, time := s.time + (if s.stretch = 0 then 10 else 10 + s.choose 900100 11), stretch := s.stretch - 1, fresh := s.fresh + 1 }
/-- A ck passes: its clocks move, and then waves are promoted and the cores count. -/
theorem State.tick_ages (s : State) : s.later.Ages s.tick := by
  refine (State.Ages.promoteAll _).trans (.of_recounts ?_)
  unfold State.tick
  refine (State.Recounts.same _).mirrorAll.fold fun u r hu => ?_
  dsimp only
  refine State.Recounts.fold ?_ fun v x hv => hv.fold fun _ e hv' => hv'.pmcCount ..
  split
  · split
    · exact (hu.pmcCount ..).pmcCount ..
    · exact hu.pmcCount ..
  · exact hu.pmcCount ..

section
variable (s : State) (rest : List Turn)

theorem State.begun_ck : (s.begun rest).ck = s.ck + 1 := s.tick_ages.ck
theorem State.begun_fresh : (s.begun rest).fresh = s.fresh + 1 := s.tick_ages.fresh
theorem State.begun_mem : (s.begun rest).mem = s.mem := s.tick_ages.mem
theorem State.begun_stream? (c : Nat) : (s.begun rest).stream? c = s.stream? c := State.stream?_of_streams s.tick_ages.streams c
theorem State.begun_mayIssue (c n : Nat) : (s.begun rest).mayIssue c n = s.mayIssue c n := s.tick_ages.issues c n
theorem State.begun_wave? {c k : Nat} {w : Wave} (hw : s.wave? c k = some w) :
    ∃ p, (s.begun rest).wave? c k = some { w with promoted := p } := s.tick_ages.waves c k w hw
/-- A wave or stream that can take a turn can take it after the ck that passes before it. -/
theorem State.begun_canTurn {a : Agent} (h : s.canTurn a = true) : (s.begun rest).canTurn a = true := by
  cases a with
  | wave c k =>
    unfold State.canTurn at h
    cases hw : s.wave? c k with
    | none => simp [hw] at h
    | some w =>
      obtain ⟨p, hp⟩ := s.begun_wave? rest hw
      simpa [State.canTurn, hp, hw, State.begun_mayIssue] using h
  | stream c => simpa [State.canTurn, State.begun_stream?, State.begun_mayIssue] using h
/-- A step takes the agenda's next turn, a ck later. -/
theorem State.step_of_agenda {t : Turn} (h : s.agenda = t :: rest) : step s = (s.begun rest).settle ((s.begun rest).turn t) := by
  unfold step; rw [h]
/-- What a turn comes to that lacks nothing, or waits (R27, R303, R500). -/
theorem State.settle_next (t : State) : s.settle (.next t) = .next (match t.lack with | none => t | some x => s.queueFor x) := by
  unfold State.settle State.orWait
  cases h : t.lack <;> simp [h]

end

/-! ### Errors in what a word reads (R164, R292) -/

/-- `t` is at the same ck as `s` with the same current agent and agenda, lacks what `s` lacks, and has its memories. -/
structure State.SameTurn (s t : State) : Prop where
  ck : t.ck = s.ck
  mem : t.mem = s.mem
  agenda : t.agenda = s.agenda
  cur : t.cur = s.cur
  lack : t.lack = s.lack

namespace State.SameTurn

theorem trans {r s t : State} (h : r.SameTurn s) (ht : s.SameTurn t) : r.SameTurn t :=
  ⟨ht.ck.trans h.ck, ht.mem.trans h.mem, ht.agenda.trans h.agenda, ht.cur.trans h.cur, ht.lack.trans h.lack⟩
theorem of_recounts {s t : State} (h : s.Recounts t) : s.SameTurn t := by
  obtain ⟨cs, rfl, -⟩ := h
  exact ⟨rfl, rfl, rfl, rfl, rfl⟩
theorem sawBad (s : State) (c k : Nat) (addr : W64) (lanes : BitVec 96) : s.SameTurn (s.sawBad c k addr lanes) := by
  unfold State.sawBad
  dsimp only; split
  · exact ⟨rfl, rfl, rfl, rfl, rfl⟩
  · split <;> exact ⟨rfl, rfl, rfl, rfl, rfl⟩
theorem seeBad (s : State) (c k : Nat) (w : Wave) (word : W64) : s.SameTurn (s.seeBad c k w word) := by
  have same : ∀ u : State, u.SameTurn u := fun _ => ⟨rfl, rfl, rfl, rfl, rfl⟩
  unfold State.seeBad
  split
  · exact same s
  · split
    · exact same s
    next i _ =>
      extract_lets s₁
      have h₁ : s.SameTurn s₁ := by
        unfold s₁; split
        · exact sawBad ..
        · exact same s
      split
      · split
        · exact h₁.trans (sawBad ..)
        · exact h₁
      · exact h₁
theorem consume (s : State) (c k : Nat) (w : Wave) (word : W64) : s.SameTurn (s.consume c k w word) := by
  unfold State.consume
  split
  · exact ⟨rfl, rfl, rfl, rfl, rfl⟩
  · exact seeBad ..

end State.SameTurn

/-- Closing the windows makes register writes, which outstanding returns and error marks note, and nothing else. -/
theorem Wave.closeWins_eq (w : Wave) : ∃ s v reqs badW, w.closeWins = { w with s := s, v := v, reqs := reqs, badW := badW, wins := [] } := by
  have key : ∀ (l : List Win) (u : Wave), ∃ s v reqs badW, l.foldl Wave.closeWin u = { u with s := s, v := v, reqs := reqs, badW := badW } := by
    intro l u
    refine foldl_pred (P := fun u' => ∃ s v reqs badW, u' = { u with s := s, v := v, reqs := reqs, badW := badW }) ?_ l ⟨u.s, u.v, u.reqs, u.badW, rfl⟩
    intro u' n hu'
    unfold Wave.closeWin
    refine foldl_pred (P := fun u' => ∃ s v reqs badW, u' = { u with s := s, v := v, reqs := reqs, badW := badW }) ?_ _
      (foldl_pred (P := fun u' => ∃ s v reqs badW, u' = { u with s := s, v := v, reqs := reqs, badW := badW }) ?_ _ hu')
    · rintro _ x ⟨s, v, reqs, badW, rfl⟩
      exact ⟨_, _, _, _, rfl⟩
    · rintro _ x ⟨s, v, reqs, badW, rfl⟩
      exact ⟨_, _, _, _, rfl⟩
  obtain ⟨s, v, reqs, badW, h⟩ := key w.wins.reverse w
  exact ⟨s, v, reqs, badW, by unfold Wave.closeWins; rw [h]⟩

section
variable {s : State} {c k : Nat} {w : Wave} {word : W64}

/-- A word that decodes to no instruction traps ILLEGAL_OPCODE at issue (R104, R123). -/
theorem State.issue_illegal (h : s.runs c k w) {e : DecodeError} (he : decodeWord word = .error e) :
    s.issue (.wave c k) word = .next (s.trapAt c k w w.illegal) := by
  unfold State.issue; rw [he]
  exact withWave_eq h _
theorem State.issue_decoded (a : Agent) {i : Instr} (hi : decodeWord word = .ok i) : s.issue a word = exec i s := by
  unfold State.issue; rw [hi]
/-- A trap taken while a debug halt is asked for stays pending (R440, R453). -/
theorem State.trapAt_pending (hd : w.dbgReq = true) (t : Trap) : ∃ w', s.trapAt c k w t = s.setWave c k w' ∧ w'.trapPending = true := by
  obtain ⟨s', v', reqs', badW', hc⟩ := w.closeWins_eq
  have hr : (w.record t w.wordAddr true w.widx).dbgReq = true := by unfold Wave.record; rw [hc]; exact hd
  refine ⟨{ w.record t w.wordAddr true w.widx with dbg := true, dbgReq := false }, ?_, rfl⟩
  unfold State.trapAt State.takeTrap
  exact if_pos hr
/-- What no instruction would read in error is not seen: its word traps. -/
theorem State.consume_illegal (h : s.runs c k w) (w' : Wave) {e : DecodeError} (he : decodeWord word = .error e) : s.consume c k w' word = s := by
  have hw : s.wouldTrap c k word = true := by
    have hr : (s.updWave c k (fun w => { w with dbgReq := true })).runs c k { w with dbgReq := true } := ⟨h.1, by simp [h.2]⟩
    obtain ⟨v, hv, hp⟩ := State.trapAt_pending (s := s.updWave c k (fun w => { w with dbgReq := true })) (c := c) (k := k)
      (w := { w with dbgReq := true }) rfl (Wave.illegal { w with dbgReq := true })
    unfold State.wouldTrap
    rw [State.issue_illegal hr he, hv]
    simp [hp]
  unfold State.consume; simp [hw]
theorem State.consume_clean (hb : w.badW = []) (hm : s.mem.bad = []) : s.consume c k w word = s := by
  unfold State.consume; simp [hb, hm]

/-! ### A turn of an agent at a word -/

/-- The turn of a wave that stands at a word of its clause. -/
theorem State.turn_waveWord (hw : s.wave? c k = some w) {cl : Clause} (ht : s.canTurn (.wave c k) = true) (hd : w.dbgReq = true → w.block = .none)
    (hc : w.clause = some cl) (hm : w.waitMet = true) :
    s.turn (.agent (.wave c k)) = s.waveIssue c k w (cl.words.getD w.widx 0) := by
  have hdb : (w.dbgReq && w.blocked) = false := by
    cases hq : w.dbgReq
    · rfl
    · simp [Wave.blocked, hd hq]
  unfold State.turn State.agentTurn
  simp [ht, hw, hdb, hc, hm]
/-- The turn of a stream that stands at a word of its clause. -/
theorem State.turn_streamWord {m : Stream} (hs : s.stream? c = some m) {cl : Clause} (ht : s.canTurn (.stream c) = true) (hc : m.clause = some cl) :
    s.turn (.agent (.stream c)) = ((s.freshen (.stream c)).countSeq c m).issue (.stream c) (cl.words.getD m.widx 0) := by
  unfold State.turn State.agentTurn
  simp [ht, hs, hc]
/-- The pipe of a word that waits or stands in one, and of a word that has waited (R50, R53). -/
theorem State.pipeFor_of {p : Option Nat} (hc : w.clause.isSome = true)
    (hp : if w.pipe.isSome = true ∨ w.block ≠ .none then p = w.pipe else p.isSome = true ∧ p = s.idlePipe c w.adr) :
    s.pipeFor c w = some { w with pipe := p } := by
  unfold State.pipeFor Wave.blocked
  split at hp
  next h =>
    subst hp
    have hg : (w.pipe.isSome || (w.clause.isSome && !decide (w.block = .none))) = true := by simpa [hc] using h
    exact if_pos hg
  next h =>
    rw [not_or, not_not] at h
    obtain ⟨i, rfl⟩ := Option.isSome_iff_exists.1 hp.1
    simp [h.1, h.2, ← hp.2]
/-- A word that has waited goes on waiting while no pipe is idle. -/
theorem State.pipeFor_busy (hn : w.pipe = none) (hb : w.block = .none) (hp : s.idlePipe c w.adr = none) : s.pipeFor c w = none := by
  unfold State.pipeFor Wave.blocked; simp [hn, hb, hp]
/-- A counted word leaves its wave as the current agent, with the turn's nonce. -/
theorem State.counted_runs (s : State) (c k : Nat) (w : Wave) (word : W64) :
    (((s.setWave c k w).freshen (.wave c k)).countWord c w word).runs c k { w with nonce := s.fresh } := by
  obtain ⟨cs, h, -⟩ := (State.Recounts.same ((s.setWave c k w).freshen (.wave c k))).countWord c w word
  rw [h]
  exact ⟨rfl, (State.wave?_updWave_self ..).trans (congrArg (Option.map _) (State.wave?_setWave_self s c k w))⟩
theorem State.counted_runsStream {m : Stream} (hs : s.stream? c = some m) :
    ((s.freshen (.stream c)).countSeq c m).runsStream c { m with nonce := s.fresh } := by
  obtain ⟨cs, h, -⟩ := (State.Recounts.same (s.freshen (.stream c))).countSeq c m
  rw [h]
  exact ⟨rfl, (State.stream?_updStream ..).trans ((if_pos rfl).trans (congrArg (Option.map _) hs))⟩
/-- A word that is no path word, or opens no window, issues without a look ahead. -/
theorem State.issueAhead_alone (h : word.toNat / 2 ^ 52 % 16 = 0 ∨ opPathLong (opOf word) = false) :
    s.issueAhead c k word = s.issue (.wave c k) word := by
  unfold State.issueAhead; exact if_pos h
theorem State.issueAhead_window (h : ¬(word.toNat / 2 ^ 52 % 16 = 0 ∨ opPathLong (opOf word) = false)) :
    ∃ ahead, s.issueAhead c k word = match (s.updWave c k (fun x => { x with ahead := ahead })).issue (.wave c k) word with
      | .next t => .next (t.updWave c k (fun x => { x with ahead := [] }))
      | o => o := by
  unfold State.issueAhead; exact ⟨_, if_neg h⟩
end

/-! ### A step of a wave, of a stream and of the device -/

section
variable {s : State} {c k : Nat} {w : Wave} {cl : Clause} {rest : List Turn}

/-- A wave at a word of its clause: the ck has passed and left it there, and the step is what its word comes to. -/
theorem State.step_wave (ha : s.agenda = .agent (.wave c k) :: rest) (hw : s.wave? c k = some w) (ht : s.canTurn (.wave c k) = true)
    (hd : w.dbgReq = true → w.block = .none) (hc : w.clause = some cl) (hm : w.waitMet = true) :
    ∃ p, (s.begun rest).wave? c k = some { w with promoted := p }
      ∧ step s = (s.begun rest).settle ((s.begun rest).waveIssue c k { w with promoted := p } (cl.words.getD w.widx 0)) := by
  obtain ⟨p, hp⟩ := s.begun_wave? rest hw
  refine ⟨p, hp, ?_⟩
  rw [s.step_of_agenda rest ha, State.turn_waveWord hp (s.begun_canTurn rest ht) hd hc hm]
/-- A stream at a word of its clause: the step is what its word comes to. -/
theorem State.step_stream {m : Stream} (ha : s.agenda = .agent (.stream c) :: rest) (hs : s.stream? c = some m) (ht : s.canTurn (.stream c) = true)
    (hc : m.clause = some cl) : step s =
      (s.begun rest).settle ((((s.begun rest).freshen (.stream c)).countSeq c m).issue (.stream c) (cl.words.getD m.widx 0)) := by
  rw [s.step_of_agenda rest ha, State.turn_streamWord (by rw [State.begun_stream?]; exact hs) (s.begun_canTurn rest ht) hc]

/-- What a wave's word issues in: the turn has the agenda's rest, lacks nothing, and the memories stand. -/
theorem State.issuing (s : State) (rest : List Turn) (c k : Nat) (w : Wave) (word : W64) :
    let t := ((((s.begun rest).setWave c k w).freshen (.wave c k)).countWord c w word).consume c k w word
    t.ck = s.ck + 1 ∧ t.mem = s.mem ∧ t.agenda = rest ∧ t.cur = some (.wave c k) ∧ t.lack = none := by
  have h := (State.SameTurn.of_recounts ((State.Recounts.same (((s.begun rest).setWave c k w).freshen (.wave c k))).countWord c w word)).trans
    (.consume _ c k w word)
  exact ⟨h.ck.trans (s.begun_ck rest), h.mem.trans (s.begun_mem rest), h.agenda, h.cur, h.lack⟩

/-- The turn of a wave that stands at a word. -/
theorem State.step_runs_wave (ha : s.agenda = .agent (.wave c k) :: rest) (hw : s.wave? c k = some w) (ht : s.canTurn (.wave c k) = true)
    (hd : w.dbgReq = true → w.block = .none) (hc : w.clause = some cl) (hm : w.waitMet = true) :
    let word := cl.words.getD w.widx 0
    let s0 := s.begun rest
    let alone := word.toNat / 2 ^ 52 % 16 = 0 ∨ opPathLong (opOf word) = false
    ∃ w1, s0.wave? c k = some w1 ∧ w1 = { w with promoted := w1.promoted }
      ∧ (w.pipe = none → w.block = .none → s0.idlePipe c w.adr = none → step s = .next s0)
      ∧ ∀ p, (if w.pipe.isSome = true ∨ w.block ≠ .none then p = w.pipe else p.isSome = true ∧ p = s0.idlePipe c w.adr) →
        let w2 := { w1 with pipe := p }
        let w3 := { w2 with nonce := s.fresh + 1 }
        let s' := (((s0.setWave c k w2).freshen (.wave c k)).countWord c w2 word).consume c k w2 word
        s'.ck = s.ck + 1 ∧ s'.mem = s.mem ∧ s'.agenda = rest ∧ s'.cur = some (.wave c k) ∧ s'.lack = none
          ∧ (w.badW = [] → s.mem.bad = [] → s'.runs c k w3)
          ∧ (∀ i, decodeWord word = .ok i → (alone → step s = s0.settle (exec i s')) ∧ (¬alone → ∃ ahead,
              step s = s0.settle (match exec i (s'.updWave c k (fun x => { x with ahead := ahead })) with
                | .next t => .next (t.updWave c k (fun x => { x with ahead := [] }))
                | o => o)))
          ∧ (∀ e, decodeWord word = .error e → s'.runs c k w3 ∧ (alone → step s = s0.settle (.next (s'.trapAt c k w3 w3.illegal)))) := by
  intro word s0 alone
  obtain ⟨q, hq, hstep⟩ := State.step_wave ha hw ht hd hc hm
  refine ⟨_, hq, rfl, fun hn hb hp => ?_, fun p hp => ?_⟩
  · rw [hstep]
    unfold State.waveIssue
    rw [State.pipeFor_busy (w := { w with promoted := q }) hn hb hp]
    rfl
  · intro w2 w3 s'
    have hissue : step s = s0.settle (s'.issueAhead c k word) := by
      rw [hstep]
      unfold State.waveIssue
      rw [State.pipeFor_of (w := { w with promoted := q }) (by simp [hc]) hp]
    have hruns : (((s0.setWave c k w2).freshen (.wave c k)).countWord c w2 word).runs c k w3 := by
      have h := s0.counted_runs c k w2 word
      rwa [s.begun_fresh rest] at h
    obtain ⟨hck, hmem, hag, hcur, hlack⟩ := s.issuing rest c k w2 word
    refine ⟨hck, hmem, hag, hcur, hlack, fun hb hbad => ?_, fun i hi => ⟨fun hal => ?_, fun hal => ?_⟩, fun e he => ?_⟩
    · have hclean : s' = _ := State.consume_clean (w := w2) hb (by
        have h := (State.SameTurn.of_recounts ((State.Recounts.same ((s0.setWave c k w2).freshen (.wave c k))).countWord c w2 word)).mem
        rw [h]; exact (congrArg MemSys.bad (s.begun_mem rest)).trans hbad)
      rw [hclean]; exact hruns
    · rw [hissue, State.issueAhead_alone hal, State.issue_decoded _ hi]
    · obtain ⟨ahead, h⟩ := State.issueAhead_window (s := s') (c := c) (k := k) hal
      exact ⟨ahead, by rw [hissue, h, State.issue_decoded _ hi] <;> rfl⟩
    · have hs' : s' = _ := State.consume_illegal hruns w2 he
      have hr : s'.runs c k w3 := by rw [hs']; exact hruns
      exact ⟨hr, fun hal => by rw [hissue, State.issueAhead_alone hal, State.issue_illegal hr he]⟩

/-- The turn of a stream that stands at a word. -/
theorem State.step_runs_stream {m : Stream} (ha : s.agenda = .agent (.stream c) :: rest) (hs : s.stream? c = some m)
    (ht : s.canTurn (.stream c) = true) (hc : m.clause = some cl) :
    let word := cl.words.getD m.widx 0
    let s0 := s.begun rest
    let s' := (s0.freshen (.stream c)).countSeq c m
    s'.runsStream c { m with nonce := s.fresh + 1 } ∧ s'.ck = s.ck + 1 ∧ s'.mem = s.mem ∧ s'.agenda = rest ∧ s'.lack = none
      ∧ (∀ i, decodeWord word = .ok i → step s = s0.settle (exec i s'))
      ∧ (∀ e, decodeWord word = .error e → step s = s0.settle (.next (s'.streamTrap c { m with nonce := s.fresh + 1 } 0x01 0 0))) := by
  intro word s0 s'
  have hstep := State.step_stream ha hs ht hc
  have hturn := State.SameTurn.of_recounts ((State.Recounts.same (s0.freshen (.stream c))).countSeq c m)
  have hruns : s'.runsStream c { m with nonce := s.fresh + 1 } := by
    have h := State.counted_runsStream (s := s0) ((s.begun_stream? rest c).trans hs)
    rwa [s.begun_fresh rest] at h
  refine ⟨hruns, hturn.ck.trans (s.begun_ck rest), hturn.mem.trans (s.begun_mem rest), hturn.agenda, hturn.lack, fun i hi => ?_, fun e he => ?_⟩
  · rw [hstep, State.issue_decoded _ hi]
  · rw [hstep]
    unfold State.issue
    rw [he]
    exact congrArg _ (withStream_eq hruns _)
/-- The turn of an event of the device. -/
theorem State.step_runs_event {i : Instr} (ha : s.agenda = .event i :: rest) (hi : i.isWord = false) :
    step s = (s.begun rest).settle (exec i (s.begun rest)) := by
  rw [s.step_of_agenda rest ha]
  unfold State.turn
  simp [hi]
end

/-! ### A placed word -/

theorem wordOfBytes_bytesOfWord (w : W64) : wordOfBytes ((bytesOfWord w).take 8) = w := by
  apply BitVec.eq_of_toNat_eq
  have h := w.isLt
  simp [wordOfBytes, bytesOfWord, List.range_succ, BitVec.extractLsb'_toNat, Nat.shiftRight_eq_div_pow]
  omega
/-- The bits of a table row decode as their word does. -/
theorem decodeWord_of_table {w : Nat} {i : Instr} (h : decodeTableWord 64 w = some i) : decodeWord (BitVec.ofNat 64 (w % 2 ^ 64)) = .ok i := by
  have hlen : (bytesOfWord (BitVec.ofNat 64 w)).length = 8 := rfl
  have hw : BitVec.ofNat 64 (w % 2 ^ 64) = BitVec.ofNat 64 w := BitVec.eq_of_toNat_eq (by simp)
  unfold decodeTableWord decodeBytes at h
  rw [hlen, wordOfBytes_bytesOfWord] at h
  rw [hw]
  cases hd : decodeWord (BitVec.ofNat 64 w) with
  | ok j => simpa [hd] using h
  | error e => simp [hd] at h

/-- The agent a placed word stands before: its turn is next, at that word, in no debug halt and behind no wait. -/
theorem State.placeWord_stands (s : State) (word : W64) :
    (∃ c m, (s.placeWord word).agenda = [.agent (.stream c)] ∧ (s.placeWord word).cur = some (.stream c)
        ∧ (s.placeWord word).mem = s.mem ∧ (s.placeWord word).stream? c = some m ∧ ∃ addr, m.clause = some (oneWordClause addr word) ∧ m.widx = 0)
    ∨ (∃ c k w, (s.placeWord word).agenda = [.agent (.wave c k)] ∧ (s.placeWord word).cur = some (.wave c k) ∧ (s.placeWord word).mem = s.mem
        ∧ (s.placeWord word).wave? c k = some w ∧ w.block = .none ∧ w.waitMet = true ∧ w.pipe.isSome = true
        ∧ ∃ addr, w.clause = some (oneWordClause addr word) ∧ w.widx = 0) := by
  unfold State.placeWord
  split
  · refine .inl ⟨match s.cur with | some a => a.core | none => 0, ?_⟩
    dsimp only; split
    · exact ⟨_, rfl, rfl, rfl, State.stream?_setStream_self .., _, rfl, rfl⟩
    · exact ⟨_, rfl, rfl, rfl, State.stream?_setStream_self .., _, rfl, rfl⟩
  · extract_lets ck s'
    refine .inr ⟨ck.1, ck.2, ?_⟩
    split
    · exact ⟨_, rfl, rfl, rfl, State.wave?_setWave_self .., rfl, rfl, rfl, _, rfl, rfl⟩
    · exact ⟨_, rfl, rfl, rfl, State.wave?_setWave_self .., rfl, rfl, rfl, _, rfl, rfl⟩

/-- A placed word runs at the next step. -/
theorem State.step_placeWord (s : State) {word : W64} {i : Instr} (hi : decodeWord word = .ok i) (hla : word.toNat / 2 ^ 52 % 16 = 0)
    {a : Agent} (ha : (s.placeWord word).cur = some a) (ht : (s.placeWord word).canTurn a = true) :
    ∃ s0 s' a', step (s.placeWord word) = State.settle s0 (exec i s') ∧ s'.cur = some a' ∧ s'.mem = s.mem := by
  rcases s.placeWord_stands word with ⟨c, m, hag, hcur, hmem, hm, addr, hc, hx⟩ | ⟨c, k, w, hag, hcur, hmem, hw, hb, hwm, hp, addr, hc, hx⟩
  · obtain rfl : Agent.stream c = a := Option.some.inj (hcur.symm.trans ha)
    have hword : (oneWordClause addr word).words.getD m.widx 0 = word := by rw [hx]; rfl
    obtain ⟨hr, -, hmem', -, -, hok, -⟩ := State.step_runs_stream hag hm ht hc
    rw [hword] at hok
    exact ⟨_, _, _, hok i hi, hr.1, hmem'.trans hmem⟩
  · obtain rfl : Agent.wave c k = a := Option.some.inj (hcur.symm.trans ha)
    have hword : (oneWordClause addr word).words.getD w.widx 0 = word := by rw [hx]; rfl
    obtain ⟨w1, -, -, -, hrun⟩ := State.step_runs_wave hag hw ht (fun _ => hb) hc hwm
    obtain ⟨-, hmem', -, hcur', -, -, hok, -⟩ := hrun w.pipe (by rw [if_pos (.inl hp)])
    rw [hword] at hok hcur' hmem'
    exact ⟨_, _, _, (hok i hi).1 (.inl hla), hcur', hmem'.trans hmem⟩

/-- Settles O57: the step of each kind of turn, and of a word placed before an agent. -/
theorem stepRunsDecodedWord : Obligations.StepRunsDecodedWord := by
  refine ⟨fun s c k rest w cl ha hw hh hs hd hdr hc hm hi => ?_, fun s c rest m cl ha hm hh hs hd hsr hp hc hi => ?_,
    fun s i rest ha hi => State.step_runs_event ha hi, fun s w i hi => ?_⟩
  · obtain ⟨w1, hw1, hp1, hbusy, hrun⟩ := State.step_runs_wave ha hw (by simp [State.canTurn, hw, hh, hs, hd, hi]) hdr hc hm
    exact ⟨w1, hw1, hp1, ⟨hbusy, hrun⟩, State.settle_next _⟩
  · exact State.step_runs_stream ha hm (by simp [State.canTurn, hm, hh, hs, hd, hsr, hp, hi]) hc
  · rintro p ⟨a, ha, ht⟩ hla
    refine s.step_placeWord (decodeWord_of_table hi) ?_ ha ht
    rw [BitVec.toNat_ofNat]
    omega

end Sys2Proof.Machine
end

section
/-! SUPPORT. How a wave stops and where it then stands (R63, R107, R207, R260, R452, R470), and the start of a vacate (R62): what the
window's commands and the events of waves and launches share. -/

namespace Sys2Proof.Machine

/-! ### Windows that close and arrivals that stand -/

theorem Wave.closeWins_stands (w : Wave) (x : Option W64) : ({ w with stands := x } : Wave).closeWins = { w.closeWins with stands := x } := by
  have one : ∀ (u : Wave) (n : Win), ({ u with stands := x } : Wave).closeWin n = { u.closeWin n with stands := x } := fun u n =>
    List.foldl_rel (r := fun v' v : Wave => v' = { v with stands := x })
      (List.foldl_rel (r := fun v' v : Wave => v' = { v with stands := x }) rfl (by rintro _ _ _ _ rfl; rfl)) (by rintro _ _ _ _ rfl; rfl)
  have all : w.wins.reverse.foldl Wave.closeWin { w with stands := x } = { w.wins.reverse.foldl Wave.closeWin w with stands := x } :=
    List.foldl_rel (r := fun v' v : Wave => v' = { v with stands := x }) rfl (by rintro n _ _ u rfl; exact one u n)
  unfold Wave.closeWins
  dsimp only
  rw [all]
/-- A cancelled BARRW notes that its arrival stands, and nothing else (R470). -/
theorem Wave.keepArrival_eq (w : Wave) : ∃ x, w.keepArrival = { w with stands := x } := by
  unfold Wave.keepArrival
  split
  · exact ⟨_, rfl⟩
  · exact ⟨w.stands, rfl⟩
/-- A cancelled wait leaves the wave before the word it waited at, its windows closed (R63, R107). -/
theorem Wave.cancelBlock_stands {w : Wave} {since st wake : Nat} (hb : w.block = .word since st wake) :
    let u := w.cancelBlock
    u.clause = none ∧ u.pc = w.hdrAddr ∧ u.eretWord = some w.widx ∧ u.block = .none ∧ u.wins = [] ∧ u.s = w.closeWins.s ∧ u.v = w.closeWins.v := by
  obtain ⟨x, hx⟩ := w.keepArrival_eq
  obtain ⟨s, v, reqs, badW, hc⟩ := w.closeWins_eq
  have h : w.cancelBlock = { ({ w.closeWins with stands := x } : Wave).unfetch with
      eretWord := some ({ w.closeWins with stands := x } : Wave).widx, waitMet := false, block := .none } := by
    unfold Wave.cancelBlock
    rw [hb, hx]
    dsimp only
    rw [Wave.closeWins_stands]
  dsimp only
  rw [h, hc]
  exact ⟨rfl, rfl, rfl, rfl, rfl, rfl, rfl⟩

section
variable {s : State} {c k : Nat} {w : Wave}

/-- A wait without a tuple request of its own is cancelled (R63): the wave leaves its team's lists and stands before its word. -/
theorem State.cancelWait_eq (ht : w.treq = none) :
    s.cancelWait c k w = (s.dropWaits (.wave c k) w.team).setWave c k { w.cancelBlock with treq := none } := by
  unfold State.cancelWait State.servedPark State.cancelPark
  rw [ht]; rfl

/-! ### The end of a wave (R207, R260, R435) -/

/-- A release of tile references changes those of its wave and the requests that hold them, and no more of it (R260). -/
theorem State.releaseRefs_wave (hw : s.wave? c k = some w) :
    ∃ refs reqs, (s.releaseRefs c k).wave? c k = some { w with tref := refs, reqs := reqs } := by
  unfold State.releaseRefs
  rw [hw]
  dsimp only; split
  · exact ⟨w.tref, w.reqs, hw⟩
  · split
    · exact ⟨_, _, State.wave?_setWave_self ..⟩
    · refine ⟨[], w.reqs, ?_⟩
      unfold State.dropRefs
      rw [hw]
      exact State.wave?_setWave_self ..
theorem State.endWave_wave (s : State) (c k : Nat) (w : Wave) :
    ∃ w', (s.endWave c k w).wave? c k = some w' ∧ w'.halted = true ∧ w'.s = w.closeWins.s := by
  unfold State.endWave
  extract_lets _ s₁ s₂ s₃ s₄
  have h₄ : s₄.wave? c k = s₁.wave? c k := by
    refine State.wave?_of_waves ?_ c k
    have h₂ : s₂.waves = s₁.waves := by
      unfold s₂
      split
      · split <;> simp
      · rfl
    have h₃ : s₃.waves = s₂.waves := by
      unfold s₃
      split
      · simp
      · rfl
    exact h₃.trans h₂
  obtain ⟨refs, reqs, hr⟩ := State.releaseRefs_wave (h₄.trans (State.wave?_setWave_self ..))
  exact ⟨_, (State.wave?_of_waves (State.leaveBarriers_waves ..) c k).trans hr, rfl, rfl⟩
end

/-! ### Cores being vacated (R62) -/

/-- Cores enter a vacate: those of the list are marked, and the state changes in its cores alone. -/
theorem State.markVacating_eq (s : State) (l : List Nat) :
    ∃ cs, l.foldl (fun s c => s.setCore c { s.core c with vacating := true }) s = { s with cores := cs }
      ∧ ∀ c, c ∈ l ∨ s.vacating c = true → ({ s with cores := cs } : State).vacating c = true := by
  induction l generalizing s with
  | nil => exact ⟨s.cores, rfl, fun c h => h.resolve_left List.not_mem_nil⟩
  | cons a l ih =>
    obtain ⟨cs, h, hv⟩ := ih (s.setCore a { s.core a with vacating := true })
    refine ⟨cs, h, fun c hc => hv c ?_⟩
    rcases hc with hc | hc
    · rcases List.mem_cons.1 hc with rfl | hc
      · exact .inr (by simp [State.vacating])
      · exact .inl hc
    · refine .inr ?_
      unfold State.vacating at hc ⊢
      rw [State.core_setCore]
      split
      · rfl
      · exact hc
/-- An accepted request marks the cores of its set and changes nothing else (R62, R63). -/
theorem State.beginVacate_eq (s : State) (asked : List Nat) (why : Nat) :
    ∃ cs, s.beginVacate asked why = { s with cores := cs, vac := some ⟨s.vacateSet asked, why⟩ }
      ∧ ∀ c ∈ s.vacateSet asked, (s.beginVacate asked why).vacating c = true := by
  obtain ⟨cs, h, hv⟩ := s.markVacating_eq (s.vacateSet asked)
  have he : s.beginVacate asked why = { s with cores := cs, vac := some ⟨s.vacateSet asked, why⟩ } := by
    unfold State.beginVacate
    dsimp only
    rw [h]
  exact ⟨cs, he, fun c hc => by rw [he]; exact hv c (.inl hc)⟩

end Sys2Proof.Machine
end

section
/-! SUPPORT. The commands and writes of the device register window (R389, R421, R422, R440, R446, R452, R524), and the proof of O53. -/

namespace Sys2Proof.Machine

/-! ### A table changed row by row -/

theorem Tbl.getD_of_no_row {α : Type} {t : Tbl α} {n : Nat} (h : ∀ r ∈ t, r.1 ≠ n) (d : α) : Tbl.getD t n d = d := by
  unfold Tbl.getD
  cases hx : Tbl.get? t n with
  | none => rfl
  | some x => exact absurd rfl (h _ (Tbl.mem_of_get? hx))
/-- A map of a table's values. -/
theorem Tbl.get?_map {α β : Type} (f : α → β) (t : Tbl α) (n : Nat) :
    Tbl.get? (List.map (fun r => (r.1, f r.2)) t) n = (Tbl.get? t n).map f := by
  induction t with
  | nil => rfl
  | cons a t ih =>
    obtain ⟨k, v⟩ := a
    simp only [List.map_cons, Tbl.get?]
    split
    · rfl
    · exact ih
/-- When every row of a table is written anew as `g` of its value, what holds of each `g x`, and of what stood under no row, holds of all. -/
theorem foldl_rows_pred {α : Type} {get : State → Nat → α} {put : State → Nat → α → State}
    (hput : ∀ s n m x, get (put s n x) m = if m = n then x else get s m) {g : α → α} {P : α → Prop} (hg : ∀ x, P (g x)) (l : Tbl α) {s : State}
    (hs : ∀ n, (∀ r ∈ l, r.1 ≠ n) → P (get s n)) (n : Nat) : P (get (l.foldl (fun s r => put s r.1 (g r.2)) s) n) := by
  induction l generalizing s with
  | nil => exact hs n (by simp)
  | cons a l ih =>
    refine ih fun m hm => ?_
    rw [hput]
    split
    · exact hg _
    next h => exact hs m (by simpa [Ne.symm h] using hm)

section
variable {s : State}

/-! ### TLBINV (R421) -/

/-- Every TLB has dropped the entries that match, and every earlier walk has ended. -/
theorem tlbinvComplete_drops (hr : s.win.invRun = true) : ∃ t, exec .tlbinvComplete s = .next t ∧ t.win.invStatus = 2 ∧ t.win.invRun = false
    ∧ t.mem = s.mem ∧ (∀ cl, ∀ e ∈ (t.cluster cl).tlb, s.win.invMatch e = false) ∧ (∀ d, ∀ e ∈ (t.die d).tlb, s.win.invMatch e = false)
    ∧ ∀ e ∈ t.walked, s.win.invMatch e = false := by
  rw [exec_tlbinvComplete]
  unfold execTlbinvComplete
  rw [if_neg (by simp [hr])]
  extract_lets keep s₁ s₂ s₃
  have hkeep : ∀ l, ∀ e ∈ keep l, s.win.invMatch e = false := fun l e he => by simpa using (List.mem_filter.1 he).2
  have hcl : ∀ cl, ∀ e ∈ (s₁.cluster cl).tlb, s.win.invMatch e = false :=
    foldl_rows_pred (get := State.cluster) (put := State.setCluster) (g := fun x => { x with tlb := keep x.tlb })
      (P := fun x => ∀ e ∈ x.tlb, s.win.invMatch e = false) (fun s n m x => State.cluster_setCluster s n m x) (fun x => hkeep _) s.clusters
      (fun n hn => by rw [show s.cluster n = Cluster.empty from Tbl.getD_of_no_row hn _]; simp [Cluster.empty])
  have hdie : ∀ d, ∀ e ∈ (s₂.die d).tlb, s.win.invMatch e = false :=
    foldl_rows_pred (get := State.die) (put := State.setDie) (g := fun x => { x with tlb := keep x.tlb, walks := [] })
      (P := fun x => ∀ e ∈ x.tlb, s.win.invMatch e = false) (fun s n m x => State.die_setDie s n m x) (fun x => hkeep _) s₁.dies
      (fun n hn => by rw [show s₁.die n = Die.idle from Tbl.getD_of_no_row hn _]; simp [Die.idle])
  have hmem : s₂.mem = s.mem := (foldl_same (·.mem) (fun _ _ => by rfl) _ _).trans (foldl_same (·.mem) (fun _ _ => by rfl) _ _)
  have hc₂ : s₂.clusters = s₁.clusters := foldl_same (·.clusters) (fun _ _ => by rfl) _ _
  refine ⟨_, rfl, rfl, rfl, hmem, fun cl e he => hcl cl e ?_, hdie, hkeep _⟩
  rw [← State.cluster_of_clusters hc₂]
  exact he

/-! ### TSCLEAR (R389) -/

/-- A slice takes no deposit where none waits (R400). -/
theorem State.roomAt_of_none (hw : ∀ r ∈ s.treqs, ∀ n, r.2.stage ≠ .waitingFull n) (n h : Nat) : State.roomAt n s h = s := by
  have hn : s.nextWaiting h = none := by
    unfold State.nextWaiting
    rw [List.filter_eq_nil_iff.2 fun r hr => ?_]
    · rfl
    · have := hw r hr
      cases hst : r.2.stage <;> simp_all
  cases n with
  | zero => rfl
  | succ n =>
    unfold State.roomAt
    rw [hn]
    split <;> rfl
theorem tsclear_clears (hu : s.hostUp = true) (hb : s.win.bagAddr.toNat < 2 ^ 48) (hw : ∀ r ∈ s.treqs, ∀ n, r.2.stage ≠ .waitingFull n) :
    ∃ t, exec .tsclear s = .next t ∧ t.win.bagStatus = 2 ∧ t.mem = s.mem
      ∧ ∀ h, ∀ x ∈ (t.slice h).tuples, x.bag ≠ s.win.bagAddr.toNat / 4096 := by
  rw [exec_tsclear]
  unfold execTsclear State.clearBag
  rw [if_pos hu, if_neg (by omega)]
  extract_lets bag s₁ s₂
  have ht : s₁.treqs = s.treqs := foldl_same (·.treqs) (fun _ _ => by rfl) _ _
  have h₂ : s₂ = s₁ := by
    refine foldl_pred (P := (· = s₁)) ?_ _ rfl
    rintro _ h rfl
    exact State.roomAt_of_none (by rw [ht]; exact hw) ..
  rw [h₂]
  refine ⟨_, rfl, rfl, foldl_same (·.mem) (fun _ _ => by rfl) _ _, ?_⟩
  refine foldl_rows_pred (get := State.slice) (put := State.setSlice) (g := fun x => { x with tuples := x.tuples.filter (fun t => !decide (t.bag = bag)) })
    (P := fun x => ∀ y ∈ x.tuples, y.bag ≠ bag) (fun s n m x => State.slice_setSlice s n m x) (fun x y hy => by simpa using (List.mem_filter.1 hy).2)
    s.slices fun n hn => ?_
  rw [show s.slice n = Slice.empty from Tbl.getD_of_no_row hn _]
  simp [Slice.empty]

/-! ### The agent commands on a resident wave (R440, R452, R524) -/

section
variable {c k : Nat} {w : Wave} (hu : s.hostUp = true) (hc : c < s.coreCount) (hk : k < 32) (hw : s.wave? c k = some w)

/-- STATUS is the upper word of AGENTCMD (R452). -/
theorem upperWord_of_sum (a : Nat) (x : W32) : (BitVec.ofNat 64 (a % 4294967296 + x.toNat * 4294967296)).extractLsb' 32 32 = x := by
  have hx : x.toNat < 4294967296 := x.isLt
  apply BitVec.eq_of_toNat_eq
  rw [BitVec.extractLsb'_toNat, BitVec.toNat_ofNat, Nat.shiftRight_eq_div_pow]
  norm_num
  omega
theorem State.agentStatus_cores (s : State) (n : Nat) : (s.agentStatus n).cores = s.cores := by
  unfold State.agentStatus
  rw [State.setWin_cores]
theorem State.agentStatus_agentCmd (s : State) {n : Nat} (x : W32) (hx : x.toNat = n) : (s.agentStatus n).win.agentCmd.extractLsb' 32 32 = x := by
  subst hx
  unfold State.agentStatus
  rw [State.setWin_win]
  exact upperWord_of_sum ..

include hu hc hk hw in
/-- A command that names one resident wave applies to it, or finds none to apply to (R524). -/
theorem State.agentCommand_wave (here : State → Agent → Option State) (away : State → Nat → Agent → Option State) :
    s.agentCommand c k .agent here away =
      match here s (.wave c k) with | some t => t.agentStatus 2 | none => s.agentStatus 3 := by
  have hk' : ¬ k = 0xFF := by omega
  have hn : s.named c k .agent = ⟨[.wave c k], []⟩ := by
    unfold State.named State.teamOf
    simp [hk', hw]
  unfold State.agentCommand State.placeNamed
  rw [hn]
  cases hh : here s (.wave c k) <;> simp [hu, hc, hk, hh]
include hu hc hk hw in
theorem State.agentCommand_done {here : State → Agent → Option State} {away : State → Nat → Agent → Option State} {t : State} {w' : Wave}
    (hh : here s (.wave c k) = some t) (ht : t.wave? c k = some w') :
    ∃ u, s.agentCommand c k .agent here away = u ∧ u.wave? c k = some w' ∧ u.mem = t.mem ∧ u.cores = t.cores
      ∧ u.win.agentCmd.extractLsb' 32 32 = 2 := by
  have h : s.agentCommand c k .agent here away = t.agentStatus 2 := by rw [State.agentCommand_wave hu hc hk hw, hh]
  exact ⟨_, h, (State.wave?_of_waves (State.agentStatus_waves ..) c k).trans ht, State.agentStatus_mem .., State.agentStatus_cores .., State.agentStatus_agentCmd t 2 (by decide)⟩

include hu hc hk hw in
theorem wresume_ends : if w.stopped then ∃ t, exec (.wresume c k .agent) s = .next t ∧ t.wave? c k = some ({ w with stopped := false } : Wave).eret
      ∧ t.mem = s.mem ∧ t.win.agentCmd.extractLsb' 32 32 = 2
    else ∃ t, exec (.wresume c k .agent) s = .next t ∧ t.wave? c k = some w ∧ t.win.agentCmd.extractLsb' 32 32 = 3 := by
  rw [exec_wresume]
  unfold execWresume
  split
  next h =>
    obtain ⟨u, hx, hw', hm, -, hst⟩ := State.agentCommand_done (here := State.wresumeAgent) (away := fun _ _ _ => none) hu hc hk hw
      (by unfold State.wresumeAgent; simp only [hw]; exact if_pos h) (State.wave?_setWave_self ..)
    exact ⟨u, congrArg _ hx, hw', hm, hst⟩
  next h =>
    have hn : s.wresumeAgent (.wave c k) = none := by unfold State.wresumeAgent; simp only [hw]; exact if_neg h
    have he : s.agentCommand c k .agent State.wresumeAgent (fun _ _ _ => none) = s.agentStatus 3 := by
      rw [State.agentCommand_wave hu hc hk hw, hn]
    exact ⟨_, congrArg _ he, (State.wave?_of_waves (State.agentStatus_waves ..) c k).trans hw, State.agentStatus_agentCmd s 3 (by decide)⟩

include hu hc hk hw in
theorem wend_ends (hs : w.stopped = true ∨ w.dbg = true) : ∃ t w', exec (.wend c k .agent) s = .next t ∧ t.wave? c k = some w' ∧ w'.halted = true
    ∧ w'.s = w.closeWins.s ∧ t.win.agentCmd.extractLsb' 32 32 = 2 := by
  rw [exec_wend]
  unfold execWend
  obtain ⟨w', hw', hh, hs'⟩ := s.endWave_wave c k w
  obtain ⟨u, hx, hu', -, -, hst⟩ := State.agentCommand_done (here := State.wendAgent) (away := fun _ _ _ => none) hu hc hk hw
    (by unfold State.wendAgent; simp only [hw]; exact if_pos (by simpa using hs)) hw'
  exact ⟨u, w', congrArg _ hx, hu', hh, hs', hst⟩

section
variable (hh : w.halted = false) (hs : w.stopped = false) (hd : w.dbg = false)

include hu hc hk hw hh hs hd in
/-- DBGHALT stops a wave at a boundary, and asks another to stop at its next one (R452). -/
theorem dbghalt_running (hb : w.blocked = false) : ∃ t, exec (.dbghalt c k .agent) s = .next t
    ∧ t.wave? c k = some (if w.clause = none then w.haltDbg else if w.waitMet then { w with dbgReq := true } else w.refetch.haltDbg)
    ∧ t.mem = s.mem ∧ t.win.agentCmd.extractLsb' 32 32 = 2 := by
  rw [exec_dbghalt]
  unfold execDbghalt
  obtain ⟨u, hx, hu', hm, -, hst⟩ := State.agentCommand_done (here := State.dbghaltAgent) (away := State.dbghaltSaved) (t := _) hu hc hk hw
    (by unfold State.dbghaltAgent; simp only [hw, hh, hs, hd, hb]; rfl) ((State.wave?_updWave_self ..).trans (congrArg (Option.map _) hw))
  refine ⟨u, congrArg _ hx, hu'.trans (congrArg some ?_), hm, hst⟩
  cases hcl : w.clause <;> cases w.waitMet <;> rfl
include hu hc hk hw hh hs hd in
/-- DBGHALT cancels the wait of a blocked wave, which stops before its word (R452, R470). -/
theorem dbghalt_blocked {since st wake : Nat} (hb : w.block = .word since st wake) (hcl : w.clause.isSome = true) (ht : w.treq = none) :
    ∃ t w', exec (.dbghalt c k .agent) s = .next t ∧ t.wave? c k = some w' ∧ w'.dbg = true ∧ w'.clause = none ∧ w'.pc = w.hdrAddr
      ∧ w'.eretWord = some w.widx ∧ w'.s = w.closeWins.s ∧ t.mem = s.mem ∧ t.win.agentCmd.extractLsb' 32 32 = 2 := by
  rw [exec_dbghalt]
  unfold execDbghalt
  obtain ⟨hcl', hpc, her, -, -, hs', -⟩ := Wave.cancelBlock_stands hb
  have hb' : w.blocked = true := by simp [Wave.blocked, hcl, hb]
  have hx : (s.cancelWait c k w).wave? c k = some { w.cancelBlock with treq := none } := by
    rw [State.cancelWait_eq ht]; exact State.wave?_setWave_self ..
  obtain ⟨u, hx, hu', hm, -, hst⟩ := State.agentCommand_done (here := State.dbghaltAgent) (away := State.dbghaltSaved) (t := _) hu hc hk hw
    (by unfold State.dbghaltAgent; simp only [hw, hh, hs, hd, hb']; rfl) ((State.wave?_updWave_self ..).trans (congrArg (Option.map _) hx))
  rw [hcl'] at hu'
  refine ⟨u, _, congrArg _ hx, hu', rfl, hcl', hpc, her, hs', hm.trans ?_, hst⟩
  show (s.cancelWait c k w).mem = s.mem
  rw [State.cancelWait_eq ht]; rfl
end

theorem State.wakeColumn_powered (s : State) (c : Nat) : ((s.wakeColumn c).core c).powered = .active := by
  unfold State.wakeColumn
  split
  · assumption
  · rw [State.core_setCore_self]

include hu hc hk hw in
theorem dresume_ends (hd : w.dbg = true) (hp : w.trapPending = false) : ∃ t, exec (.dresume c k .agent) s = .next t
    ∧ t.wave? c k = some { w with dbg := false } ∧ t.mem = s.mem ∧ t.win.agentCmd.extractLsb' 32 32 = 2 ∧ (t.core c).powered = .active := by
  rw [exec_dresume]
  unfold execDresume
  obtain ⟨u, hx, hw', hm, hcs, hst⟩ := State.agentCommand_done (here := State.dresumeAgent) (away := fun _ _ _ => none) hu hc hk hw
    (t := (s.wakeColumn c).setWave c k { w with dbg := false }) (by unfold State.dresumeAgent; simp [hw, hd, hp]) (State.wave?_setWave_self ..)
  refine ⟨u, congrArg _ hx, hw', hm.trans (State.wakeColumn_mem ..), hst, ?_⟩
  rw [State.core_of_cores hcs]
  exact s.wakeColumn_powered c
end

/-! ### Contexts and time slices (R452) -/

theorem State.expire_mem_win (s : State) : s.expire.mem = s.mem ∧ s.expire.win = s.win := by
  unfold State.expire
  split
  · exact ⟨rfl, rfl⟩
  · split
    · exact ⟨rfl, rfl⟩
    · obtain ⟨cs, h, -⟩ := ({ s with expired := true } : State).beginVacate_eq (List.range s.coreCount) 1
      rw [h]
      exact ⟨rfl, rfl⟩

section
variable (hu : s.hostUp = true)
include hu

theorem ctxid_starts (v : W64) : ∃ t, exec (.ctxid v) s = .next t ∧ t.win.ctxid = v.toNat % 65536 ∧ t.ctxStart = some s.time ∧ t.expired = false
    ∧ t.mem = s.mem := by
  rw [exec_ctxid]
  unfold execCtxid State.writeCtxid
  rw [if_pos hu]
  extract_lets busy t
  have ht : t.mem = s.mem ∧ t.time = s.time := by
    refine foldl_pred (P := fun u : State => u.mem = s.mem ∧ u.time = s.time) (fun (u : State) r hP => ?_) _ ⟨rfl, rfl⟩
    split <;> exact hP
  exact ⟨_, rfl, rfl, congrArg some ht.2, rfl, ht.1⟩

theorem tslice_written (v : W64) : ∃ t, exec (.tslice v) s = .next t ∧ t.win.tslice = v.toNat % 2 ^ 32 ∧ t.mem = s.mem := by
  rw [exec_tslice]
  unfold execTslice State.writeTslice
  rw [if_pos hu]
  obtain ⟨hm, hw⟩ := (s.setWin (fun w => { w with tslice := low32 v })).expire_mem_win
  exact ⟨_, rfl, by rw [hw]; rfl, hm⟩

/-! ### The trap ring (R441) -/

/-- A write of the ring tries held reports again; with none held it changes the ring's word alone. -/
theorem exec_trapq_of_none_held {reg : Nat} {v : W64} {f : Window → Window} (hr : 0x8007 ≤ reg ∧ reg ≤ 0x800A) (hf : (f s.win).held = [])
    (hw : s.writeTrapq reg v = (s.setWin f).drainReports (s.setWin f).win.held.length) : exec (.trapq reg v) s = .next (s.setWin f) := by
  rw [exec_trapq]
  unfold execTrapq
  rw [if_pos (by simp [hu, hr.1, hr.2]), hw]
  have hl : (s.setWin f).win.held = [] := hf
  rw [hl]
  rfl

/-! ### Buffer and material entries (R422, R424, R432) -/

/-- What a command becomes when buffer `b` is made invalid: a PUBLISH of it that has not fired finds it so (R424). -/
def Cmd.spoiled (b : Nat) (x : Cmd) : Cmd :=
  match x.kind with
  | .publish y _ => if y = b ∧ x.stage = .issued then { x with progress := 1 } else x
  | _ => x
omit hu in
theorem State.spoilPublish_cmds (s : State) (b : Nat) : (s.spoilPublish b).cmds = List.map (fun r => (r.1, r.2.spoiled b)) s.cmds := rfl

omit hu in
/-- Word 0 of a buffer's entry: VALID, the current copy and the size (R422). -/
theorem State.writeBuffer_zero {b : Nat} {v : W64} (hb : b < 256) :
    let y : Buffer := { s.buffer b with valid := v.getLsbD 0, cur := v.getLsbD 1, size := v.toNat / 2 ^ 32 }
    let t := if (s.buffer b).valid && !v.getLsbD 0 then s.spoilPublish b else s
    s.writeBuffer b 0 v = { t with buffers := Tbl.put t.buffers b Buffer.invalid y } := by
  unfold State.writeBuffer
  exact if_neg (by omega)
theorem bufferEntryWrite_zero {b : Nat} {v : W64} (hb : b < 256) : ∃ t, exec (.bufferEntryWrite b 0 v) s = .next t ∧ t.mem = s.mem
    ∧ t.buffer b = { s.buffer b with valid := v.getLsbD 0, cur := v.getLsbD 1, size := v.toNat / 2 ^ 32 }
    ∧ ∀ n x fr, Tbl.get? s.cmds n = some x → x.kind = .publish b fr → x.stage = .issued → (s.buffer b).valid = true → v.getLsbD 0 = false →
      Tbl.get? t.cmds n = some { x with progress := 1 } := by
  rw [exec_bufferEntryWrite]
  unfold execBufferEntryWrite
  rw [if_pos hu, State.writeBuffer_zero hb]
  refine ⟨_, rfl, ?_, Tbl.getD_put_self .., fun n x fr hx hk hst hv hv' => ?_⟩
  · dsimp only
    split <;> rfl
  · have hsp : x.spoiled b = { x with progress := 1 } := by
      unfold Cmd.spoiled
      rw [hk]
      exact if_pos ⟨rfl, hst⟩
    dsimp only
    rw [if_pos (by rw [hv, hv']; rfl), State.spoilPublish_cmds, Tbl.get?_map, hx, Option.map_some, hsp]
theorem materialEntryWrite_zero {m : Nat} {v : W64} (hm : m < 4096) : ∃ t, exec (.materialEntryWrite m 0 v) s = .next t ∧ t.mem = s.mem
    ∧ t.material m = { s.material m with launch := v } := by
  rw [exec_materialEntryWrite]
  unfold execMaterialEntryWrite
  rw [if_pos hu]
  have h : s.writeMaterial m 0 v = { s with materials := Tbl.put s.materials m Material.invalid { s.material m with launch := v } } := by
    unfold State.writeMaterial
    exact if_neg (by omega)
  rw [h]
  exact ⟨_, rfl, rfl, Tbl.getD_put_self ..⟩

/-! ### Registers and the debug port (R446, R452, R490) -/

theorem registerWrite_words (v : W64) : exec (.registerWrite 0 v) s = .next (s.setWin (fun w => { w with thot := max 60 (min 105 (v.toNat % 256)) })).judgeAll
    ∧ exec (.registerWrite 8 v) s = .next (s.setWin (fun w => { w with dmax := v.toNat % 256 })).judgeAll
    ∧ exec (.registerWrite 0x28 v) s = .next (s.setWin (fun w => { w with tvbase := putHalf w.tvbase false (v.extractLsb' 0 32) }))
    ∧ exec (.registerWrite 0x108 v) s = .next (s.setWin (fun w => { w with ptbase := v &&& 0xFFFFFFFFF000 })) := by
  have h : ∀ off, exec (.registerWrite off v) s = .next (s.windowWrite off v) := fun off => congrArg Host.Outcome.next (if_pos hu)
  rw [h, h, h, h]
  exact ⟨rfl, rfl, rfl, rfl⟩
section
variable {c k r : Nat} {w : Wave} (hw : s.wave? c k = some w) (hr : r < 128)
include hw hr
theorem debugRegisterWrite_scalar (v : W64) : if w.dbg then
      exec (.debugRegisterWrite (.wave c k) r v) s = .next (s.setWave c k (w.writeS r (v.extractLsb' 0 32)))
    else exec (.debugRegisterWrite (.wave c k) r v) s = .next s := by
  rw [exec_debugRegisterWrite]
  unfold execDebugRegisterWrite State.debugWrite
  have hd : w.debugWrite r v = w.writeS r (v.extractLsb' 0 32) := by
    unfold Wave.debugWrite
    exact if_pos hr
  simp only [hu, hw, hd, if_true]
  split <;> rfl
theorem debugRead_scalar (ha : s.win.dbgAgent = .wave c k) (hg : s.win.dbgReg = r) :
    s.windowRead 0x40008 = if w.dbg then (w.rawS r).setWidth 64 else 0 := by
  have hd : s.windowRead 0x40008 = s.debugRead s.win.dbgAgent s.win.dbgReg := by
    unfold State.windowRead
    simp [hu]
  have hv : s.debugReadWave c w r = (w.rawS r).setWidth 64 := by
    unfold State.debugReadWave
    exact if_pos hr
  rw [hd, ha, hg]
  unfold State.debugRead
  simp only [hw, hv]
end
end

end

/-- Settles O53, a command and a write at a time. -/
theorem windowCommands : Obligations.WindowCommands := by
  unfold Obligations.WindowCommands
  intro s hu
  refine ⟨?_, tlbinvComplete_drops, tsclear_clears hu, fun c k w hc hk hw => ⟨?_, wend_ends hu hc hk hw, ?_, ?_, ?_⟩, ctxid_starts hu, tslice_written hu, ?_,
    fun b v hb => bufferEntryWrite_zero hu hb, fun m v hm => materialEntryWrite_zero hu hm, registerWrite_words hu,
    fun c k w r v hw hr => debugRegisterWrite_scalar hu hw hr v, fun c k w r hw hr ha hg => debugRead_scalar hu hw hr ha hg⟩
  · rw [exec_tlbinv]
    unfold execTlbinv State.startTlbinv
    rw [if_pos hu]
    split
    next h => rw [if_pos (by simpa using h)]
    next h => rw [if_neg (by simpa using h)]
  · exact wresume_ends hu hc hk hw
  · intro hh hs hd hb
    exact dbghalt_running hu hc hk hw hh hs hd hb
  · intro since st wake hh hs hd hb hcl ht
    exact dbghalt_blocked hu hc hk hw hh hs hd hb hcl ht
  · intro hd hp
    obtain ⟨t, hx, hw', hm, hst, hact⟩ := dresume_ends hu hc hk hw hd hp
    exact ⟨⟨t, hx, hw', hm, hst⟩, t, hx, hact⟩
  · rintro hheld v _ rfl
    exact ⟨exec_trapq_of_none_held hu (by omega) hheld rfl, exec_trapq_of_none_held hu (by omega) hheld rfl,
      exec_trapq_of_none_held hu (by omega) hheld rfl, exec_trapq_of_none_held hu (by omega) hheld rfl⟩

end Sys2Proof.Machine
end

section
/-! SUPPORT. The events of a wave: its fetch, the Escapement's choice, its stops and the return of a request (R50, R51, R63, R99, R102, R206,
R333, R442, R451, R462), and the proof of O44. -/

namespace Sys2Proof.Machine

/-! ### The Escapement's choice (R50) -/

theorem olderBefore_asymm {a b : Nat × Wave × Nat} (h : olderBefore a b = true) : olderBefore b a = false := by
  unfold olderBefore at h ⊢
  by_cases he : a.2.2 = b.2.2
  · by_cases hy : a.2.1.yielded = b.2.1.yielded
    · by_cases hb : a.2.1.born = b.2.1.born
      · simp_all; omega
      · simp_all [Ne.symm hb]; omega
    · simp_all
  · simp_all [Ne.symm he]; omega
theorem chosenBefore_asymm {a b : Nat × Wave × Nat} (h : chosenBefore a b = true) : chosenBefore b a = false := by
  unfold chosenBefore at h ⊢
  cases ha : a.2.1.promoted with
  | none =>
    cases hb : b.2.1.promoted with
    | none => rw [ha, hb] at h; exact olderBefore_asymm h
    | some y => rw [ha, hb] at h; exact absurd h Bool.false_ne_true
  | some x =>
    cases hb : b.2.1.promoted with
    | none => rfl
    | some y =>
      rw [ha, hb] at h
      dsimp only at h ⊢
      by_cases hxy : x = y
      · rw [if_pos hxy] at h
        rw [if_pos hxy.symm]
        exact olderBefore_asymm h
      · rw [if_neg hxy] at h
        rw [if_neg (Ne.symm hxy)]
        have := of_decide_eq_true h
        exact decide_eq_false (by omega)

/-- The choice among a list's waves, one at a time. -/
def betterOf (b : Option (Nat × Wave × Nat)) (x : Nat × Wave × Nat) : Option (Nat × Wave × Nat) :=
  match b with
  | none => some x
  | some y => if chosenBefore x y then some x else some y
theorem State.chosen_eq (s : State) (c : Nat) (adr : Bool) :
    s.chosen c adr = (((s.frontEnd c adr).filter (fun x => s.ready c x.2.1)).foldl betterOf none).map (fun x => x.1) := rfl
/-- A wave chosen before another stays the choice, and so does one of two like entries. -/
theorem betterOf_self {x : Nat × Wave × Nat} {b : Option (Nat × Wave × Nat)} (hb : ∀ y, b = some y → y = x ∨ chosenBefore x y = true) :
    betterOf b x = some x := by
  unfold betterOf
  cases b with
  | none => rfl
  | some y =>
    rcases hb y rfl with rfl | hy
    · dsimp only; split <;> rfl
    · exact if_pos hy
theorem betterOf_keeps {x y : Nat × Wave × Nat} (hy : y = x ∨ chosenBefore x y = true) : betterOf (some x) y = some x := by
  unfold betterOf
  rcases hy with rfl | hy
  · dsimp only; split <;> rfl
  · exact if_neg (by rw [chosenBefore_asymm hy]; exact Bool.false_ne_true)
/-- The wave chosen before every other of a list is the list's choice. -/
theorem foldl_betterOf {x : Nat × Wave × Nat} {l : List (Nat × Wave × Nat)} (hx : ∀ y ∈ l, y = x ∨ chosenBefore x y = true)
    {b : Option (Nat × Wave × Nat)} (hb : ∀ y, b = some y → y = x ∨ chosenBefore x y = true) (h : b = some x ∨ x ∈ l) :
    l.foldl betterOf b = some x := by
  induction l generalizing b with
  | nil => simpa using h
  | cons a l ih =>
    have ha := hx a List.mem_cons_self
    refine ih (fun y hy => hx y (List.mem_cons_of_mem _ hy)) (fun y hy => ?_) ?_
    · unfold betterOf at hy
      split at hy
      · exact Option.some.inj hy ▸ ha
      · split at hy
        · exact Option.some.inj hy ▸ ha
        · exact Option.some.inj hy ▸ hb _ rfl
    · rcases h with rfl | h
      · exact .inl (betterOf_keeps ha)
      · rcases List.mem_cons.1 h with rfl | h
        · exact .inl (betterOf_self hb)
        · exact .inr h

section
variable {s : State} {c k : Nat} {w : Wave} (hw : s.wave? c k = some w)

/-- A wave stands in its front end. -/
theorem State.mem_frontEnd (hw : s.wave? c k = some w) (hk : k < 32) : (k, w, s.waveEprio w) ∈ s.frontEnd c w.adr := by
  unfold State.frontEnd
  have hm : (waveKey c k, w) ∈ s.waves := Tbl.mem_of_get? hw
  refine List.mem_map.2 ⟨(waveKey c k, w), List.mem_filter.2 ⟨hm, ?_⟩, ?_⟩
  · simp only [beq_self_eq_true, Bool.and_true, decide_eq_true_eq]
    unfold waveKey; omega
  · dsimp only
    rw [show waveKey c k % 32 = k by unfold waveKey; omega]
/-- A ready wave chosen before the other ready ones of its front end is the Escapement's choice. -/
theorem State.chosen_of_first (hw : s.wave? c k = some w) (hk : k < 32) (hr : s.ready c w = true)
    (hx : ∀ x ∈ s.frontEnd c w.adr, s.ready c x.2.1 = true → x ≠ (k, w, s.waveEprio w) → chosenBefore (k, w, s.waveEprio w) x = true) :
    s.chosen c w.adr = some k := by
  have hbest : ((s.frontEnd c w.adr).filter (fun x => s.ready c x.2.1)).foldl betterOf none = some (k, w, s.waveEprio w) := by
    refine foldl_betterOf (fun y hy => ?_) (fun y hy => by simp at hy) (.inr (List.mem_filter.2 ⟨State.mem_frontEnd hw hk, hr⟩))
    obtain ⟨hf, hry⟩ := List.mem_filter.1 hy
    exact or_iff_not_imp_left.2 (hx y hf hry)
  rw [State.chosen_eq, hbest]
  rfl

/-! ### The fetch of a clause (R96, R102) -/

@[simp] theorem Wave.replayed_eretWord (w : Wave) : w.replayed.eretWord = w.eretWord := by
  unfold Wave.replayed
  split <;> rfl

@[simp] theorem Wave.replayed_pc (w : Wave) : w.replayed.pc = w.pc := by
  unfold Wave.replayed
  split <;> rfl
/-- What stands at a boundary before the next clause (R442, R333). -/
theorem Wave.nothingDue {w : Wave} (he : w.eretWord.isSome = true ∨ w.faultDue = false ∧ w.poison = none) :
    (w.eretWord.isNone && (w.faultDue || w.poison.isSome)) = false := by
  rcases he with he | ⟨hf, hp⟩
  · rw [Option.isNone_eq_false_iff.2 he]; rfl
  · rw [hf, hp]; exact Bool.and_false _

section
variable (hh : w.halted = false) (hs : w.stopped = false) (hd : w.dbg = false)
include hw hh hs hd

theorem clauseFetch_runs (hc : w.clause = none) (he : w.eretWord.isSome = true ∨ w.faultDue = false ∧ w.poison = none) (hq : w.dbgReq = false)
    (hv : s.vacating c = false) :
    match s.fetchClause c (if w.adr then .adr else .vec) w.pc with
    | .ok cl =>
      let t := s.keepClause c w.pc
      exec (.clauseFetch (.wave c k)) s = .next (match w.eretWord with
        | none => t.setWave c k ({ w.replayed with clause := some cl, widx := 0, waitMet := false }.markReady t.ck)
        | some n => if n < cl.words.length then
            t.setWave c k ({ w.replayed with clause := some cl, widx := n, waitMet := false }.markReady t.ck)
          else t.trapHeader c k w.replayed { cause := 0x02, sub := 8, origin := 1, eaddr := w.pc, fm := w.replayed.trapMask } w.pc 0)
    | .error e => exec (.clauseFetch (.wave c k)) s = .next ((s.keepClause c w.pc).trapHeader c k w
        { cause := e.cause, sub := e.sub, level := e.level, origin := 1, eaddr := e.addr, fm := w.trapMask } w.pc e.word) := by
  rw [exec_clauseFetch]
  unfold execClauseFetch
  simp only [hw, hh, hs, hd, hc, Wave.nothingDue he, hq, hv, Wave.replayed_eretWord, Wave.replayed_pc, Option.isSome_none, Bool.or_self,
    Bool.false_eq_true, if_false]
  split
  next cl hf =>
    rw [hf]
    cases hn : w.eretWord with
    | none => rfl
    | some n =>
      dsimp only
      split
      next h => rw [if_neg (by omega)]
      next h => rw [if_pos (by omega)]
  next e hf => rw [hf]

/-! ### The choice of a pipe (R50, R99) -/

theorem clauseWaitMet_chosen {p : Nat} (hk : k < 32) (hc : w.clause.isSome = true) (hm : w.waitMet = false) (hwm : w.waitsMet = true)
    (he : w.eretWord.isSome = true ∨ w.faultDue = false ∧ w.poison = none) (hq : w.dbgReq = false) (hv : s.vacating c = false)
    (hx : ∀ x ∈ s.frontEnd c w.adr, s.ready c x.2.1 = true → x ≠ (k, w, s.waveEprio w) → chosenBefore (k, w, s.waveEprio w) x = true)
    (hp : s.idlePipe c w.adr = some p) :
    exec (.clauseWaitMet (.wave c k)) s = .next (s.setWave c k { w with
      waitMet := true, eretWord := none, readySince := none, promoted := none, yielded := false, pipe := some p }) := by
  have hr : s.ready c w = true := by
    unfold State.ready
    rcases he with he | ⟨hf, hp⟩ <;> simp [*]
  have hch := State.chosen_of_first hw hk hr hx
  rw [exec_clauseWaitMet]
  unfold execClauseWaitMet
  simp [hw, hh, hs, hd, hm, hwm, Wave.nothingDue he, hq, hv, hch, hp]
omit hh hs hd in
theorem clauseWaitMet_waits (hq : w.dbgReq = false) (hn : s.chosen c w.adr ≠ some k ∨ s.idlePipe c w.adr = none) :
    exec (.clauseWaitMet (.wave c k)) s = .next s := by
  rw [exec_clauseWaitMet]
  unfold execClauseWaitMet
  rcases hn with hn | hn
  · simp [hw, hq, hn]
  · simp [hw, hq, hn]

/-! ### Stops at a boundary (R333, R442, R63) -/

theorem pendingFaultDelivery_boundary {p : PendRec} (hb : w.atBoundary = true) (hpo : w.poison = none) (hp : w.pend = some p) :
    if w.intrap then exec (.pendingFaultDelivery (.wave c k)) s = .next s
    else ∃ w' tr, exec (.pendingFaultDelivery (.wave c k)) s = .next (s.trapHeader c k w' tr w.hdrAddr 0) ∧ w'.pend = none ∧ w'.s = w.s ∧ w'.v = w.v
      ∧ tr.cause = p.cause.toNat % 256 ∧ tr.deferred = true ∧ tr.eaddr = p.eaddr ∧ tr.sub = p.estat.toNat % 256
      ∧ tr.level = p.estat.toNat / 8192 % 4 ∧ tr.origin = p.estat.toNat / 16777216 % 16 ∧ tr.fm = w.trapMask := by
  have hf : w.faultDue = !w.intrap := by unfold Wave.faultDue; rw [hp]; rfl
  rw [exec_pendingFaultDelivery]
  unfold execPendingFaultDelivery
  cases hi : w.intrap with
  | true => simp [hw, hf, hi]
  | false =>
    have hx : ∀ x : Out, (if (w.halted || w.stopped || w.dbg || !w.atBoundary || w.poison.isSome || !w.faultDue) = true then .next s else x) = x := by
      intro x
      rw [hh, hs, hd, hb, hpo, hf, hi]; rfl
    simp only [hw, hp, hx]
    exact ⟨_, _, rfl, rfl, rfl, rfl, rfl, rfl, rfl, rfl, rfl, rfl, rfl⟩
theorem poisonStop_boundary {addr : W64} {lanes : BitVec 96} (hb : w.atBoundary = true) (hp : w.poison = some (addr, lanes)) :
    ∃ w', exec (.poisonStop (.wave c k)) s = .next (s.trapHeader c k w'
      { cause := 0x12, origin := 5, eaddr := addr, fm := lanes } w.hdrAddr 0) ∧ w'.poison = none ∧ w'.s = w.s ∧ w'.v = w.v := by
  refine ⟨{ w.unfetch with poison := none }, ?_, rfl, rfl, rfl⟩
  rw [exec_poisonStop]
  unfold execPoisonStop
  simp [hw, hh, hs, hd, hb, hp]
omit hs in
theorem vacateWaveStop_boundary (hv : s.vacating c = true) (hb : w.block = .none) (hc : w.clause.isSome = true) (hm : w.waitMet = false) :
    exec (.vacateWaveStop (.wave c k)) s = .next (s.setWave c k w.refetch) := by
  have hbl : w.blocked = false := by unfold Wave.blocked; rw [hb, hc]; rfl
  have hn : w.clause.isNone = false := Option.isNone_eq_false_iff.2 hc
  rw [exec_vacateWaveStop]
  unfold execVacateWaveStop
  simp [hw, hh, hd, hbl, hn, hc, hm, hv]
omit hs in
theorem vacateWaveStop_blocked {since st wake : Nat} (hv : s.vacating c = true) (hb : w.block = .word since st wake) (hc : w.clause.isSome = true)
    (ht : w.treq = none) : ∃ t w', exec (.vacateWaveStop (.wave c k)) s = .next t ∧ t.wave? c k = some w' ∧ w'.clause = none ∧ w'.pc = w.hdrAddr
      ∧ w'.eretWord = some w.widx ∧ w'.block = .none ∧ w'.wins = [] ∧ w'.s = w.closeWins.s ∧ w'.v = w.closeWins.v ∧ t.mem = s.mem := by
  have hbl : w.blocked = true := by unfold Wave.blocked; rw [hb, hc]; rfl
  have hx : exec (.vacateWaveStop (.wave c k)) s = .next ((s.dropWaits (.wave c k) w.team).setWave c k { w.cancelBlock with treq := none }) := by
    rw [exec_vacateWaveStop]
    unfold execVacateWaveStop
    simp [hw, hh, hd, hbl, hv, State.cancelWait_eq ht]
  obtain ⟨hcl, hpc, her, hblk, hwin, hs', hv'⟩ := Wave.cancelBlock_stands hb
  exact ⟨_, _, hx, State.wave?_setWave_self .., hcl, hpc, her, hblk, hwin, hs', hv', State.dropWaits_mem s (.wave c k) w.team⟩

/-! ### The watchdog and a sleeper's wake (R206, R451) -/

theorem watchdog_runs {since st wake : Nat} (hb : w.block = .word since st wake) (ht : w.treq = none) (hwd : s.win.wdtime ≠ 0)
    (hop : opOf w.curWord ∈ [0x79, 0x8C, 0xB1, 0xB3, 0xC0, 0xC1, 0xC3, 0xC4, 0xC6, 0xD1, 0xD2]) :
    if s.win.wdtime * 1000000 * 17 ≤ s.time - since then
      exec (.watchdog (.wave c k)) s = .next ((s.dropWaits (.wave c k) w.team).trapAt c k { w.keepArrival with treq := none }
        { cause := 0x15, origin := 6, fm := w.trapMask })
    else exec (.watchdog (.wave c k)) s = .next s := by
  have h7F : opOf w.curWord ≠ 0x7F := fun h => absurd (h ▸ hop) (by decide)
  have hpk : s.servedPark c k w = none := by unfold State.servedPark; rw [ht]; rfl
  have hcp : ∀ t : State, t.cancelPark w = t := fun t => by unfold State.cancelPark; rw [ht]
  rw [exec_watchdog]
  unfold execWatchdog
  split
  next hdue => simp [hw, hb, hh, hs, hd, hwd, hdue, h7F, hop, hpk, hcp]
  next hdue => simp [hw, hb, hh, hs, hd, hdue]
theorem sleepWake_due {since wake : Nat} (hb : w.block = .word since 1 wake) (hop : opOf w.curWord = 0x7F) (hck : wake ≤ s.ck) :
    exec (.sleepWake (.wave c k)) s = .next (s.setWave c k w.done) := by
  rw [exec_sleepWake]
  unfold execSleepWake
  simp [hw, hb, hop, hck, hh, hs, hd]
end

/-! ### Promotion (R51) -/

include hw in
theorem promotion_after {t0 : Nat} (hr : w.readySince = some t0) (hp : w.promoted = none) :
    if t0 + 64 ≤ s.ck then
      ∃ t w', exec (.promotion (.wave c k)) s = .next t ∧ t.wave? c k = some w' ∧ w' = { w with promoted := some (t0 + 64) } ∧ t.mem = s.mem
    else exec (.promotion (.wave c k)) s = .next s := by
  rw [exec_promotion]
  unfold execPromotion State.promote
  simp only [hw, hr, hp]
  split
  next h =>
    rw [if_pos ⟨h, rfl⟩]
    exact ⟨_, _, rfl, State.wave?_setWave_self .., rfl, State.pmcCount_mem ..⟩
  next h => rw [if_neg fun hc => h hc.1]
end

/-- A wave noted ready, or not (R50, R51). -/
theorem Wave.markReady_eq (w : Wave) (now : Nat) : ∃ r p, w.markReady now = { w with readySince := r, promoted := p } := by
  unfold Wave.markReady
  split
  · exact ⟨_, w.promoted, rfl⟩
  · exact ⟨_, _, rfl⟩

/-! ### Arrivals counted after a return (R467) -/

/-- The wave in a place has its queue of arrivals and ACKTAG changed at most. -/
def State.Arrived (s t : State) (c k : Nat) : Prop :=
  ∀ w, s.wave? c k = some w → ∃ x l, t.wave? c k = some { w with acktag := x, arrivals := l }

namespace State.Arrived
variable {s t u : State} {c k : Nat}

theorem of_waves (h : t.waves = s.waves) : s.Arrived t c k := fun w hw => ⟨w.acktag, w.arrivals, (State.wave?_of_waves h c k).trans hw⟩
theorem trans (h : s.Arrived t c k) (h' : t.Arrived u c k) : s.Arrived u c k := by
  intro w hw
  obtain ⟨x, l, ht⟩ := h w hw
  obtain ⟨x', l', hu⟩ := h' _ ht
  exact ⟨x', l', hu⟩
theorem updWave (s : State) (c' k' : Nat) {f : Wave → Wave} (hf : ∀ w, ∃ x l, f w = { w with acktag := x, arrivals := l }) :
    s.Arrived (s.updWave c' k' f) c k := by
  intro w hw
  rw [State.wave?_updWave]
  split
  next hk =>
    have hw' : s.wave? c' k' = some w := by unfold State.wave? at hw ⊢; rw [← hk]; exact hw
    obtain ⟨x, l, h⟩ := hf w
    exact ⟨x, l, by rw [hw', Option.map_some, h]⟩
  · exact ⟨w.acktag, w.arrivals, hw⟩
theorem releaseFor (s : State) (c' k' : Nat) (paired : Bool) (scope : Nat) : s.Arrived (s.releaseFor c' k' paired scope) c k := by
  unfold State.releaseFor
  split
  · unfold State.tagLast
    split
    · exact (of_waves (State.columnRelease_waves ..)).trans (updWave _ _ _ fun w => ⟨_, w.arrivals, rfl⟩)
    · exact of_waves (State.columnRelease_waves ..)
  · exact of_waves rfl
theorem arriveNow {c' k' lvl id : Nat} {w : Wave} (h : s.arriveNow c' k' w lvl id = some t) : s.Arrived t c k := by
  unfold State.arriveNow at h
  split at h
  · exact of_waves (by rw [Option.some.inj h])
  · split at h
    · exact absurd h (by simp)
    · refine (releaseFor s c' k' (s.paired w.team) (barrierScope lvl)).trans (of_waves ?_)
      rw [← Option.some.inj h, State.pmcCount_waves, State.setBarrier_waves]
theorem flushArrivals (n : Nat) (s : State) (c' k' : Nat) : s.Arrived (State.flushArrivals n s c' k') c k := by
  induction n generalizing s with
  | zero => exact of_waves rfl
  | succ n ih =>
    unfold State.flushArrivals
    split
    · exact of_waves rfl
    · split
      · exact of_waves rfl
      next a rest _ =>
        split
        · exact of_waves rfl
        · split
          · exact of_waves rfl
          next h => exact (arriveNow h).trans ((updWave _ _ _ fun w => ⟨w.acktag, rest, rfl⟩).trans (ih _))
theorem flushAll (s : State) : s.Arrived s.flushAll c k := by
  unfold State.flushAll
  exact foldl_pred (P := fun t => s.Arrived t c k) (fun t _ h => h.trans (flushArrivals _ t _ _)) _ (of_waves rfl)
end State.Arrived

/-! ### The registers a return writes (R135, R462) -/

/-- A list of lanes written by a return. -/
def Wave.retVs (w : Wave) (q : Req) (vs : List (Nat × Nat × W32)) : Wave := vs.foldl (fun w x => w.retV q x.1 x.2.1 x.2.2) w
/-- What a load's access writes: its words, to the lane's run of registers. -/
def Access.laneWords (d size : Nat) (x : Access) : List (Nat × Nat × W32) :=
  (List.range (loadWords size x.res).length).map fun i => (d + i, x.lane, (loadWords size x.res).getD i 0)

/-- Where no later word has written its registers, a return writes as a word does: the lanes of its list, and nothing else. -/
theorem Wave.retVs_eq {q : Req} (hq : q.clob = []) (vs : List (Nat × Nat × W32)) (w u : Wave) (hv : w.v = u.v) :
    ∃ badW, w.retVs q vs = { w with v := (u.writeVs vs).v, badW := badW } := by
  induction vs generalizing w u with
  | nil => exact ⟨w.badW, by rw [Wave.writeVs_nil, ← hv]; rfl⟩
  | cons a l ih =>
    have h1 : w.retV q a.1 a.2.1 a.2.2 = { w with
        v := Tbl.put w.v (128 * a.1 + a.2.1) 0 a.2.2, badW := w.badW.filter (fun k => !(k == badKeyV a.1 a.2.1)) } := by
      unfold Wave.retV
      exact if_neg (by rw [hq]; simp)
    have hv1 : (w.retV q a.1 a.2.1 a.2.2).v = (u.writeV a.1 a.2.1 a.2.2).v := by rw [h1, hv]; rfl
    obtain ⟨b, h⟩ := ih _ _ hv1
    refine ⟨b, (show w.retVs q (a :: l) = (w.retV q a.1 a.2.1 a.2.2).retVs q l from rfl).trans ?_⟩
    rw [h, h1, Wave.writeVs_cons]
theorem Wave.retLanes_eq_retVs (w : Wave) (q : Req) (d size : Nat) :
    w.retLanes q (fun a w => w.retRun q d a.lane (loadWords size a.res)) = w.retVs q (q.accs.flatMap (Access.laneWords d size)) := by
  unfold Wave.retVs Wave.retLanes
  rw [List.foldl_flatMap]
  congr 1
  funext u a
  unfold Wave.retRun Access.laneWords
  rw [List.foldl_map]

section
variable {s : State} {c k : Nat} {w : Wave} {p : Path} {q : Req}

/-- Sending a request that is no release marks it sent, and changes no more of its wave (R316). -/
theorem State.sendReq_wave (hw : s.wave? c k = some w) (hq : w.req? q.id = some q) (hsem : q.sem = 0) :
    ∃ l, (s.sendReq c k w q).wave? c k = some { w with reqs := l }
      ∧ l.filter (fun r => !decide (r.id = q.id)) = w.reqs.filter (fun r => !decide (r.id = q.id))
      ∧ ({ w with reqs := l } : Wave).req? q.id = some { q with sent := true } := by
  unfold State.sendReq
  split
  next h => exact ⟨w.reqs, hw, rfl, hq.trans (by rw [← h])⟩
  next h =>
    dsimp only
    rw [if_neg (by omega)]
    refine ⟨(w.updReq q.id (fun r => { r with sent := true })).reqs, State.wave?_setWave_self .., ?_,
      (Wave.req?_updReq w q.id (f := fun r => { r with sent := true }) fun _ => rfl).trans (by rw [hq]; rfl)⟩
    unfold Wave.updReq
    dsimp only
    rw [List.filter_map]
    have hp : (fun r : Req => !decide (r.id = q.id)) ∘ (fun r => if r.id = q.id then { r with sent := true } else r)
        = fun r => !decide (r.id = q.id) := by
      funext r
      by_cases h : r.id = q.id <;> simp [h]
    rw [hp]
    exact (List.map_congr_left fun r hr => if_neg (by simpa using (List.mem_filter.1 hr).2)).trans (List.map_id _)

/-- A request that only writes lanes, as it returns: the wave's lanes, and its list of requests. -/
theorem requestReturn_writes (hw : s.wave? c k = some w) (hf : w.reqs.find? (fun q => decide (q.path = p)) = some q) (hq : w.req? q.id = some q)
    (hsem : q.sem = 0) (hcl : q.clob = []) (hld : q.localDue = false) (hcb : s.cameBack w q = true) (hbad : q.badLanes = [])
    (hhit : ∀ l, q.ret ≠ .rhit l) {vs : List (Nat × Nat × W32)} (hvs : ∀ x ∈ vs, x.2.1 < 96)
    (hret : ∀ t : State, t.writeRet c k { q with sent := true } = t.updWave c k (fun w => w.retVs { q with sent := true } vs)) :
    ∃ t w', exec (.requestReturn (.wave c k) p) s = .next t ∧ t.wave? c k = some w'
      ∧ (∀ n l, l < 96 → w'.rawV n l = w.vAfter vs n l) ∧ w'.s = w.s ∧ w'.reqs = w.reqs.filter (fun r => !decide (r.id = q.id))
      ∧ w'.spot = w.spot := by
  obtain ⟨l, hsend, hl, hql⟩ := State.sendReq_wave hw hq hsem
  have hfb : s.feedBins c k q = s := by
    unfold State.feedBins
    split
    · exact absurd ‹_› (hhit _)
    · rfl
  have hdb : ∀ t : State, t.deliverBad c k { q with sent := true } = t := fun t => by
    unfold State.deliverBad
    rw [show ({ q with sent := true } : Req).badLanes = [] from hbad]
  set s₁ := (s.sendReq c k w q).updWave c k (fun w => { w with nonce := s.fresh }) with hs₁
  have hw₁ : s₁.wave? c k = some { w with reqs := l, nonce := s.fresh } := (State.wave?_updWave_self ..).trans (by rw [hsend]; rfl)
  set s₂ := (s₁.updWave c k (fun w => { w with reqs := w.reqs.filter (fun r => !decide (r.id = q.id)) })).updWave c k
    (fun w => w.retVs { q with sent := true } vs) with hs₂
  have hx : exec (.requestReturn (.wave c k) p) s = .next (s₂.flushAll.updWave c k (fun w => w.markReady s₂.ck)) := by
    rw [exec_requestReturn]
    unfold execRequestReturn
    simp only [hw, hf, hfb, hq, Option.getD_some, hld, hcb, ← hs₁, hw₁]
    rw [show ({ w with reqs := l, nonce := s.fresh } : Wave).req? q.id = some { q with sent := true } from hql, Option.getD_some, hret, hdb,
      if_neg (show ¬(q.sem = 1 ∨ q.sem = 3) by omega), ← hs₂]
    rfl
  obtain ⟨badW, hrv⟩ := Wave.retVs_eq (q := { q with sent := true }) hcl vs
    { w with reqs := l.filter (fun r => !decide (r.id = q.id)), nonce := s.fresh } w rfl
  have hw₂ : s₂.wave? c k = some { w with reqs := l.filter (fun r => !decide (r.id = q.id)), nonce := s.fresh, v := (w.writeVs vs).v, badW := badW } := by
    rw [hs₂, State.wave?_updWave_self, State.wave?_updWave_self, hw₁]
    exact congrArg some hrv
  obtain ⟨x, l', hw₃⟩ := State.Arrived.flushAll s₂ (c := c) (k := k) _ hw₂
  have hw₄ := (State.wave?_updWave_self s₂.flushAll c k (fun w => w.markReady s₂.ck)).trans (congrArg (Option.map _) hw₃)
  obtain ⟨r, y, hmr⟩ := Wave.markReady_eq { w with
    reqs := l.filter (fun r => !decide (r.id = q.id)), nonce := s.fresh, v := (w.writeVs vs).v, badW := badW, acktag := x, arrivals := l' } s₂.ck
  refine ⟨_, _, hx, hw₄.trans (congrArg some hmr), fun n j hj => ?_, rfl, hl, rfl⟩
  exact Wave.rawV_writeVs vs w n j (fun x hx => Nat.lt_trans (hvs x hx) (by decide)) (Nat.lt_trans hj (by decide))

theorem requestReturn_regs (hw : s.wave? c k = some w) (hf : w.reqs.find? (fun q => decide (q.path = p)) = some q) (hq : w.req? q.id = some q)
    (hsem : q.sem = 0) (hcl : q.clob = []) (hm : w.maySend q = true) {vs : List (Nat × Nat × W32)} (hr : q.ret = .regs vs [])
    (ha : q.accs = []) (hvs : ∀ x ∈ vs, x.2.1 < 96) :
    ∃ t w', exec (.requestReturn (.wave c k) p) s = .next t ∧ t.wave? c k = some w'
      ∧ (∀ n l, l < 96 → w'.rawV n l = w.vAfter vs n l) ∧ w'.s = w.s ∧ w'.reqs = w.reqs.filter (fun r => !decide (r.id = q.id))
      ∧ w'.spot = w.spot := by
  refine requestReturn_writes hw hf hq hsem hcl (by unfold Req.localDue; rw [ha]; rfl) ?_ (by unfold Req.badLanes; rw [ha]; rfl)
    (fun l h => by rw [hr] at h; cases h) hvs fun t => ?_
  · unfold State.cameBack
    rw [hm, ha, hr]; rfl
  · unfold State.writeRet
    dsimp only
    rw [hr]
    rfl
theorem requestReturn_vload (hw : s.wave? c k = some w) (hf : w.reqs.find? (fun q => decide (q.path = p)) = some q) (hq : w.req? q.id = some q)
    (hsem : q.sem = 0) (hcl : q.clob = []) (hm : w.maySend q = true) {d size : Nat} {fn : Nat} {z : BitVec 96} (hr : q.ret = .vload d size fn z)
    (ha : ∀ x ∈ q.accs, x.done = true ∧ x.bad = false ∧ x.lane < 96) :
    ∃ t w', exec (.requestReturn (.wave c k) p) s = .next t ∧ t.wave? c k = some w'
      ∧ (∀ n l, l < 96 → w'.rawV n l = w.vAfter (q.accs.flatMap (Access.laneWords d size)) n l) ∧ w'.s = w.s
      ∧ w'.reqs = w.reqs.filter (fun r => !decide (r.id = q.id)) ∧ w'.spot = w.spot := by
  have hdone : q.accs.all (fun a => a.done) = true := List.all_eq_true.2 fun x hx => (ha x hx).1
  refine requestReturn_writes hw hf hq hsem hcl ?_ ?_ ?_ (fun l h => by rw [hr] at h; cases h) ?_ fun t => ?_
  · unfold Req.localDue
    exact List.any_eq_false.2 fun x hx => by rw [(ha x hx).1]; simp
  · unfold State.cameBack
    rw [hm, hdone, hr]; rfl
  · exact List.filter_eq_nil_iff.2 fun x hx => by rw [(ha x hx).2.1]; exact Bool.false_ne_true
  · intro x hx
    obtain ⟨a, hma, hxa⟩ := List.mem_flatMap.1 hx
    obtain ⟨i, -, rfl⟩ := List.mem_map.1 hxa
    exact (ha a hma).2.2
  · unfold State.writeRet
    dsimp only
    rw [hr]
    exact congrArg (t.updWave c k) (funext fun w => w.retLanes_eq_retVs { q with sent := true } d size)
end

/-- Settles O44, an event at a time. -/
theorem waveEvents_hold : Obligations.WaveEvents := by
  unfold Obligations.WaveEvents
  intro s c k w hw
  refine ⟨fun hh hs hd => ⟨clauseFetch_runs hw hh hs hd, fun p => clauseWaitMet_chosen hw hh hs hd, clauseWaitMet_waits hw,
    fun p => pendingFaultDelivery_boundary hw hh hs hd, fun addr lanes => poisonStop_boundary hw hh hs hd, vacateWaveStop_boundary hw hh hd,
    fun since st wake => vacateWaveStop_blocked hw hh hd, fun since st wake => watchdog_runs hw hh hs hd, fun since wake => sleepWake_due hw hh hs hd⟩,
    fun t0 => promotion_after hw, fun p q hf hq hsem hcl hm => ⟨fun vs hr ha hvs => requestReturn_regs hw hf hq hsem hcl hm hr ha hvs,
      fun d size fn z hr ha => requestReturn_vload hw hf hq hsem hcl hm hr ha⟩⟩

end Sys2Proof.Machine
end

section
/-! SUPPORT. What only the caches, the home slices, the byte stores, the fabric counters and `lack` can change: a read or a write of a home line
keeps every property of the rest of the device (R282, R283, R301, R302, R327). -/

namespace Sys2Proof.Machine

/-- A property of states that the updates of the memory fabric keep: those of a cluster cache, of a home slice, of a fabric counter, of the
byte stores and of `lack`. -/
structure KeptByFabric (P : State → Prop) : Prop where
  cluster : ∀ {s : State} (c : Nat) (x : Cluster), P s → P (s.setCluster c x)
  slice : ∀ {s : State} (n : Nat) (x : Slice), P s → P (s.setSlice n x)
  count : ∀ {s : State} (dom inst idx n : Nat), P s → P (s.count dom inst idx n)
  setMem : ∀ {s : State} (m : MemSys), P s → P { s with mem := m }
  setLack : ∀ {s : State} (x : Lack), P s → P { s with lack := some x }

namespace KeptByFabric
variable {P : State → Prop} (hP : KeptByFabric P) {s : State} (h : P s)
include hP h

/-! ### The home slices -/

theorem l2Evict (line : Nat) : P (s.l2Evict line) := by
  unfold State.l2Evict
  split
  · split
    · exact h
    · exact hP.setMem _ h
  · exact h
theorem sliceTrim (n spare : Nat) : P (s.sliceTrim n spare) :=
  foldl_pred (P := P) (fun u _ hu => by
    unfold State.sliceEvict
    dsimp only; split
    · exact hP.l2Evict hu _
    · exact hu) _ h
theorem needLoop (c : Option Nat) (line : Nat) : P (s.needLoop c line) := by
  unfold State.needLoop
  split
  · exact h
  · exact hP.setLack _ h
theorem fill (line : Nat) : P (s.fill line) := by
  unfold State.fill
  split
  · exact h
  · have hl : P (if s.linked line then s else { s with lack := some .link }) := by
      split
      · exact h
      · exact hP.setLack _ h
    exact hP.count _ _ _ _ (hP.setMem _ (hP.sliceTrim hl _ 1))
theorem dropCopy (c line : Nat) : P (s.dropCopy c line) := by
  unfold State.dropCopy
  dsimp only; split
  · split
    · exact hP.count _ _ _ _ (hP.cluster _ _ h)
    · exact hP.cluster _ _ h
  · exact h
theorem dropReplicas (line : Nat) : P (s.dropReplicas line) := by
  unfold State.dropReplicas
  extract_lets reps m s₁ s₂
  have h₂ : P s₂ := by
    unfold s₂; split
    · exact hP.setMem _ h
    · exact hP.count _ _ _ _ (hP.setMem _ h)
  refine foldl_pred (P := P) (fun u c hu => ?_) _ h₂
  dsimp only; split
  · exact hP.cluster _ _ hu
  · exact hu
theorem bumpSeq (line : Nat) : P (s.bumpSeq line) := hP.count _ _ _ _ (hP.slice _ _ h)
theorem recallFrom (line : Nat) (cs : List Nat) : P (s.recallFrom line cs) := by
  unfold State.recallFrom
  split
  · exact h
  · extract_lets s₁ words s₂ s₃
    have h₁ : P s₁ := hP.count _ _ _ _ (hP.fill (hP.dropReplicas h line) line)
    have h₂ : P s₂ := foldl_pred (P := P) (fun u w hu => by
      dsimp only; split
      · exact hu
      · exact hP.bumpSeq (foldl_pred (P := P) (fun _ up hv => hP.setMem _ hv) _ hu) line) _ h₁
    have h₃ : P s₃ := foldl_pred (P := P) (fun _ c hu => hP.dropCopy hu c line) _ h₂
    split
    · exact hP.setMem _ h₃
    · exact h₃
theorem recallCopies (line : Nat) : P (s.recall line) := hP.recallFrom h line _
theorem dropOthers (line : Nat) (writer : Option Nat) : P (s.dropOthers line writer) := by
  unfold State.dropOthers
  extract_lets s₁ s₂
  have h₁ : P s₁ := foldl_pred (P := P) (fun _ c hu => hP.dropCopy hu c line) _ h
  have h₂ : P s₂ := by
    unfold s₂; split
    · exact h₁
    · exact hP.cluster _ _ h₁
  exact hP.dropReplicas h₂ line

/-! ### Reads and writes at the home -/

theorem homeWriteCells (line : Nat) (cs : List Host.Cell) (writer : Option Nat) : P (s.homeWriteCells line cs writer) := by
  unfold State.homeWriteCells
  have h₁ := hP.fill (hP.dropOthers (hP.recallCopies (hP.needLoop h writer line) line) line writer) line
  dsimp only; split
  · exact hP.bumpSeq (hP.setMem _ h₁) line
  · exact hP.bumpSeq (hP.setMem _ h₁) line
theorem homeWriteBytes (pa : Nat) (bs : List Byte) (writer : Option Nat) : P (s.homeWriteBytes pa bs writer) := by
  unfold State.homeWriteBytes
  split
  · exact h
  · exact foldl_pred (P := P) (fun _ l hu => hP.homeWriteCells hu l _ writer) _ h
theorem homeTouch (line : Nat) : P (s.homeTouch line) := hP.count _ _ _ _ (hP.fill (hP.recallCopies h line) line)
theorem learnPeer (c line : Nat) : P (s.learnPeer c line) := by
  unfold State.learnPeer
  split
  · exact hP.cluster _ _ h
  · exact h
theorem pushReplicas (line : Nat) : P (s.pushReplicas line) :=
  hP.count _ _ _ _ (foldl_pred (P := P) (fun _ p hu => hP.sliceTrim hu p 0) _ (hP.setMem _ h))
theorem repeaterCount (c line : Nat) : P (s.repeaterCount c line) := by
  unfold State.repeaterCount
  dsimp only; split
  · exact h
  · split
    · refine foldl_pred (P := P) (fun u c hu => ?_) _ (hP.pushReplicas (hP.slice _ _ h) line)
      split
      · exact hP.cluster _ _ hu
      · exact hu
    · exact hP.slice _ _ h
theorem homeServe (c : Option Nat) (line : Nat) : P (s.homeServe c line) := by
  have h₁ := hP.homeTouch (hP.needLoop h c line) line
  unfold State.homeServe
  dsimp only; split
  · exact hP.repeaterCount (hP.learnPeer h₁ ..) ..
  · exact hP.repeaterCount h₁ ..
theorem homeReadBytes (c : Option Nat) (pa n : Nat) : P (s.homeReadBytes c pa n).1 := foldl_pred (P := P) (fun _ l hu => hP.homeServe hu c l) _ h

/-! ### The queues' own reads and writes (R376) -/

theorem homeRead (pa : Nat) : P (s.homeRead pa) := by
  unfold State.homeRead
  split
  · exact hP.homeTouch h _
  · exact h
theorem devWrite (pa : Nat) (bs : List Byte) : P (s.devWrite pa bs) := by
  unfold State.devWrite
  split
  · exact hP.homeWriteBytes h pa bs none
  · exact h
theorem statusWrite (pa v : Nat) : P (s.statusWrite pa v) := hP.devWrite h _ _
end KeptByFabric

/-- The table of launches and the device's next number: what the fabric has no part in. -/
theorem KeptByFabric.tables (s : State) : KeptByFabric (fun t => t.launches = s.launches ∧ t.nextId = s.nextId) :=
  ⟨fun _ _ h => h, fun _ _ h => h, fun _ _ _ _ h => h, fun _ h => h, fun _ h => h⟩

end Sys2Proof.Machine
end

section
/-! SUPPORT. Teams that leave: those that have ended, those discarded and those saved (R58, R61, R63–R65), and a team as it starts (R39). -/

namespace Sys2Proof.Machine

section
variable {s : State}

/-! ### What leaves with a team (R58, R61) -/

theorem State.dropStreams_eq (s : State) (id : Nat) : ∃ cs ms, s.dropStreams id = { s with cores := cs, streams := ms } := by
  unfold State.dropStreams
  exact foldl_pred (P := fun t : State => ∃ cs ms, t = { s with cores := cs, streams := ms })
    (by rintro _ c ⟨cs, ms, rfl⟩; exact ⟨_, _, rfl⟩) _ ⟨s.cores, s.streams, rfl⟩
theorem State.leaveGroup_eq (s : State) (g id : Nat) : ∃ gs, s.leaveGroup g id = { s with groups := gs } := by
  unfold State.leaveGroup
  split
  · exact ⟨s.groups, rfl⟩
  · exact ⟨_, rfl⟩
theorem State.reapTeam_keeps (s : State) (id : Nat) (t : Team) : (s.reapTeam id t).fred = s.fred ∧ (s.reapTeam id t).win = s.win := by
  unfold State.reapTeam
  extract_lets s₁ s₂ s₃
  have h₁ : s₁.fred = s.fred ∧ s₁.win = s.win := by unfold s₁; split <;> exact ⟨rfl, rfl⟩
  obtain ⟨cs, ms, hd⟩ := (s₁.dropWatch id).dropStreams_eq id
  obtain ⟨gs, hg⟩ := ((s₁.dropWatch id).dropStreams id).leaveGroup_eq t.group id
  have h₂ : s₂.fred = s₁.fred ∧ s₂.win = s₁.win := by
    unfold s₂
    rw [hg, hd]
    exact ⟨rfl, rfl⟩
  exact ⟨h₂.1.trans h₁.1, h₂.2.trans h₁.2⟩
/-- Teams that have ended leave neither a trace in Fredusin nor in the window (R58). -/
theorem State.reap_keeps (s : State) : s.reap.fred = s.fred ∧ s.reap.win = s.win := by
  unfold State.reap
  refine foldl_pred (P := fun t : State => t.fred = s.fred ∧ t.win = s.win) (fun t r ht => ?_) _ ⟨rfl, rfl⟩
  split
  · obtain ⟨hf, hw⟩ := t.reapTeam_keeps r.1 r.2
    exact ⟨hf.trans ht.1, hw.trans ht.2⟩
  · exact ht

theorem State.dropTeamRows_teams (s : State) (id : Nat) : (s.dropTeamRows id).teams = Tbl.del s.teams id := by
  obtain ⟨cs, ms, h⟩ := s.dropStreams_eq id
  unfold State.dropTeamRows
  rw [h]
theorem State.dropTeamRows_launches (s : State) (id : Nat) : (s.dropTeamRows id).launches = s.launches := by
  obtain ⟨cs, ms, h⟩ := s.dropStreams_eq id
  unfold State.dropTeamRows
  rw [h]

/-! ### A discard (R61) -/

theorem State.discardTeam_teams (s : State) (id : Nat) (t : Team) : (s.discardTeam id t).teams = Tbl.del s.teams id := by
  unfold State.discardTeam
  dsimp only
  rw [State.updLaunch_teams, State.leaveGroup_teams, State.dropTeamRows_teams, State.dropWatch_teams]
/-- The index of a discarded team is pending again (R61). -/
theorem State.discardTeam_again {id : Nat} {t : Team} {l : Launch} (hl : s.launch? t.launch = some l) :
    ∃ l', (s.discardTeam id t).launch? t.launch = some l' ∧ t.index ∈ l'.again := by
  obtain ⟨gs, hg⟩ := ((s.dropWatch id).dropTeamRows id).leaveGroup_eq t.group id
  have h : (((s.dropWatch id).dropTeamRows id).leaveGroup t.group id).launch? t.launch = some l := by
    refine (State.launch?_of_launches ?_ _).trans hl
    rw [hg]
    exact State.dropTeamRows_launches ..
  unfold State.discardTeam
  dsimp only
  rw [State.launch?_updLaunch, if_pos rfl, h]
  exact ⟨_, rfl, List.mem_cons_self⟩

/-! ### A save (R63–R65) -/

theorem State.cmdMaySend_teams {t : State} {id : Nat} {c : Cmd} (h : s.cmdMaySend id c = some t) : t.teams = s.teams := by
  unfold State.cmdMaySend at h
  split at h
  · rw [← Option.some.inj h]
  · split at h
    · rw [← Option.some.inj h]
    · split at h
      · rw [← Option.some.inj h]
      · split at h
        · rw [← Option.some.inj h, State.sendReq_teams]
        · cases h
theorem State.engRead_teams (s : State) (core : Nat) (ps : List EngPage) (va : W64) (n : Nat) : (s.engRead core ps va n).s.teams = s.teams := by
  unfold State.engRead
  refine foldl_pred (P := fun r : EngRead => r.s.teams = s.teams) (fun r p hr => ?_) _ rfl
  dsimp only; split
  · rw [State.countErr_teams, State.readThrough_teams, hr]
  · rw [State.readThrough_teams, hr]
theorem State.copyRecord_teams (s : State) (id : Nat) (c : Cmd) : (s.copyRecord id c).teams = s.teams := by
  unfold State.copyRecord
  split
  · split
    · split
      next h => exact (State.engRead_teams ..).trans (State.cmdMaySend_teams h)
      next => rfl
    · rfl
  · rfl
theorem State.writeRet_cmd_teams {c k : Nat} {q : Req} {n : Nat} {a : Option Nat} {b : Option W32} (hq : q.ret = .cmd n a b) : (s.writeRet c k q).teams = s.teams := by
  unfold State.writeRet
  rw [hq]
  dsimp only
  split
  · split <;> rfl
  · rfl
theorem State.settleCmds_teams (s : State) (id : Nat) : (s.settleCmds id).teams = s.teams := by
  unfold State.settleCmds
  refine foldl_same State.teams (fun u x => foldl_same State.teams (fun v q => ?_) _ _) _ _
  split
  next hq =>
    split
    · exact State.writeRet_cmd_teams hq
    · rfl
  next => rfl
/-- A save takes its team's rows out of a state with the same teams, and keeps the team under its number, with its index and the cores it
leaves. -/
theorem State.saveTeam_eq {id : Nat} {t : Team} (ht : s.team? id = some t) :
    ∃ (u : State) (y : Saved) (f : Launch → Launch), s.saveTeam id = State.updLaunch { u.dropTeamRows id with saved := Tbl.set u.saved id y } t.launch f
      ∧ u.teams = s.teams ∧ y.team.index = t.index ∧ y.cores = t.cores := by
  unfold State.saveTeam
  split
  next h => rw [h] at ht; cases ht
  next t' h =>
    obtain rfl := Option.some.inj (h.symm.trans ht)
    extract_lets s₁ s₂ s₃ s₄ poss cores y s₅
    have h₁ : s₁.teams = s.teams := foldl_same State.teams (fun _ _ => State.copyRecord_teams ..) _ _
    have h₂ : s₂.teams = s.teams := (State.settleCmds_teams ..).trans h₁
    have h₃ : s₃.teams = s.teams := (foldl_same State.teams (fun _ _ => State.columnRelease_teams ..) _ _).trans h₂
    have h₄ : s₄.teams = s.teams := (State.saveErrors_teams ..).trans h₃
    have h₅ : s₅.teams = s.teams := (foldl_same State.teams (fun _ _ => State.setCore_teams ..) _ _).trans h₄
    have hi : (s₄.phaseAtSave t').index = t'.index := by
      unfold State.phaseAtSave
      dsimp only; split <;> rfl
    exact ⟨s₅, y, _, rfl, h₅, hi, rfl⟩
theorem State.saveTeam_teams {id : Nat} {t : Team} (ht : s.team? id = some t) : (s.saveTeam id).teams = Tbl.del s.teams id := by
  obtain ⟨u, y, f, h, hu, -, -⟩ := State.saveTeam_eq ht
  rw [h, State.updLaunch_teams]
  exact (State.dropTeamRows_teams u id).trans (by rw [hu])
theorem State.saveTeam_saved {id : Nat} {t : Team} (ht : s.team? id = some t) :
    ∃ y, Tbl.get? (s.saveTeam id).saved id = some y ∧ y.team.index = t.index ∧ y.cores = t.cores := by
  obtain ⟨u, y, f, h, -, hi, hc⟩ := State.saveTeam_eq ht
  refine ⟨y, ?_, hi, hc⟩
  rw [h, State.updLaunch_saved]
  exact (Tbl.get?_set ..).trans (if_pos rfl)

/-- A team of a unit leaves, discarded or saved. -/
def State.leaveUnit (s : State) (r : (Nat × Team) × Bool) : State := if r.2 then s.discardTeam r.1.1 r.1.2 else s.saveTeam r.1.1
theorem State.leaveUnit_team? (s : State) (r : (Nat × Team) × Bool) (m : Nat) : (s.leaveUnit r).team? m = if m = r.1.1 then none else s.team? m := by
  have hdel : ∀ t : State, t.teams = Tbl.del s.teams r.1.1 → t.team? m = if m = r.1.1 then none else s.team? m := by
    intro t h
    unfold State.team?
    rw [h, Tbl.get?_del]
  unfold State.leaveUnit
  split
  · exact hdel _ (State.discardTeam_teams ..)
  · cases ht : s.team? r.1.1 with
    | some t => exact hdel _ (State.saveTeam_teams ht)
    | none =>
      have h : s.saveTeam r.1.1 = s := by unfold State.saveTeam; rw [ht]
      rw [h]
      split
      next hm => rw [hm, ht]
      next => rfl
/-- Every team of a unit's plan has left. -/
theorem State.leaveUnits_team? (s : State) (plan : List ((Nat × Team) × Bool)) {m : Nat} (hm : s.team? m = none ∨ ∃ r ∈ plan, r.1.1 = m) :
    (plan.foldl State.leaveUnit s).team? m = none := by
  induction plan generalizing s with
  | nil => simpa using hm
  | cons a plan ih =>
    refine ih _ ?_
    rw [State.leaveUnit_team?]
    rcases hm with hm | ⟨r, hr, hrm⟩
    · left; split <;> simp [hm]
    · rcases List.mem_cons.1 hr with rfl | hr
      · exact .inl (if_pos hrm.symm)
      · exact .inr ⟨r, hr, hrm⟩

/-! ### TEAM_SAVE (R63) -/

theorem execTeamSave_ready {n : Nat} {x : Team} (hx : s.reap.team? n = some x) (hv : ∃ c ∈ x.cores, s.reap.vacating c = true)
    (hr : ∀ r ∈ s.reap.unitTeams n x, s.reap.teamReady r.1 r.2 = true) :
    exec (.teamSave n) s = .next (((s.reap.unitTeams n x).map (fun r => (r, s.reap.mayDiscard (s.reap.unitTeams n x) r.2))).foldl State.leaveUnit s.reap) := by
  rw [exec_teamSave]
  unfold execTeamSave
  simp only [hx]
  rw [List.any_eq_true.2 hv, List.all_eq_true.2 hr]
  rfl
theorem teamSave_unit {n : Nat} {x : Team} (hx : s.reap.team? n = some x) (hv : ∃ c ∈ x.cores, s.reap.vacating c = true)
    (hr : ∀ r ∈ s.reap.unitTeams n x, s.reap.teamReady r.1 r.2 = true) :
    ∃ t, exec (.teamSave n) s = .next t ∧ ∀ r ∈ s.reap.unitTeams n x, t.team? r.1 = none :=
  ⟨_, execTeamSave_ready hx hv hr, fun r hm => State.leaveUnits_team? _ _ (.inr ⟨(r, _), List.mem_map_of_mem hm, rfl⟩)⟩
theorem teamSave_one {n : Nat} {x : Team} (hx : s.reap.team? n = some x) (hco : x.coop = false) (hex : x.excl = false)
    (hv : ∃ c ∈ x.cores, s.reap.vacating c = true) (hr : s.reap.teamReady n x = true) :
    ∃ t, exec (.teamSave n) s = .next t ∧ t.team? n = none ∧ (if x.idem = true ∧ x.idemLost = false then
        ∀ l, s.reap.launch? x.launch = some l → ∃ l', t.launch? x.launch = some l' ∧ x.index ∈ l'.again
      else ∃ y, Tbl.get? t.saved n = some y ∧ y.team.index = x.index ∧ y.cores = x.cores) := by
  have hunit : s.reap.unitTeams n x = [(n, x)] := by unfold State.unitTeams; rw [hco, hex]; rfl
  have hmay : s.reap.mayDiscard [(n, x)] x = (x.idem && !x.idemLost) := by unfold State.mayDiscard; rw [hex]; rfl
  have hx' := execTeamSave_ready hx hv (by rw [hunit]; simpa using hr)
  rw [hunit, List.map_singleton, hmay] at hx'
  refine ⟨_, hx', State.leaveUnits_team? _ _ (.inr ⟨_, List.mem_cons_self, rfl⟩), ?_⟩
  show if x.idem = true ∧ x.idemLost = false then
      ∀ l, s.reap.launch? x.launch = some l → ∃ l', (s.reap.leaveUnit ((n, x), x.idem && !x.idemLost)).launch? x.launch = some l' ∧ x.index ∈ l'.again
    else ∃ y, Tbl.get? (s.reap.leaveUnit ((n, x), x.idem && !x.idemLost)).saved n = some y ∧ y.team.index = x.index ∧ y.cores = x.cores
  unfold State.leaveUnit
  split
  next h =>
    rw [h.1, h.2]
    exact fun l hl => State.discardTeam_again hl
  next h =>
    have hb : (x.idem && !x.idemLost) = false := by
      cases hi : x.idem <;> cases hl : x.idemLost <;> simp_all
    rw [hb]
    exact State.saveTeam_saved hx
end

/-! ### The report of a vacate (R66) -/

theorem vacateComplete_reports {s : State} {v : Vac} (hv : s.vac = some v) (hy : v.why = 0) (hf : s.fred.ckpt = none) :
    if v.cores.all s.reap.coreEmpty then
      ∃ t, exec .vacateComplete s = .next t ∧ t.vac = none ∧ t.win.vacStatus = 2 ∧ t.win.vacRun = false
        ∧ t.win.vacSet = v.cores.foldl (fun m c => m ||| BitVec.ofNat 192 (2 ^ c)) 0
    else exec .vacateComplete s = .next s.reap := by
  have hfr : s.reap.fred.ckpt = none := by rw [s.reap_keeps.1]; exact hf
  rw [exec_vacateComplete]
  unfold execVacateComplete
  simp only [hv, hy]
  split
  next h =>
    simp [h, State.vector, hfr]
  next h => simp [h]

/-! ### A team starts (R39) -/

section
variable {s : State}
theorem State.startTeam_team? (lid : Nat) (l : Launch) (id index group members pos : Nat) (spot : Spot) :
    ∃ x, (s.startTeam lid l id index group members pos spot none).team? id = some x ∧ x.index = index ∧ x.launch = lid ∧ x.core = spot.core
      ∧ x.idemLost = false := by
  unfold State.startTeam
  extract_lets r n room s₁ t s₂ s₃ s₄ s₅
  have h₂ : s₂.team? id = some t := State.team?_setTeam_self ..
  have h₃ : s₃.teams = s₂.teams := State.storeClear_teams ..
  have h₄ : s₄.teams = s₃.teams := foldl_same State.teams (fun _ _ => by rfl) _ _
  have h₅ : s₅.teams = s₄.teams := by
    refine foldl_same State.teams (fun _ _ => foldl_same State.teams (fun _ _ => ?_) _ _) _ _
    exact (State.storeClear_teams ..).trans rfl
  refine ⟨t, ?_, rfl, rfl, rfl, rfl⟩
  have h : s₅.team? id = some t := (State.team?_of_teams (h₅.trans (h₄.trans h₃)) id).trans h₂
  split
  · exact h
  · exact (State.team?_of_teams (foldl_same State.teams (fun _ _ => State.columnAcquire_teams ..) _ _) id).trans h
/-- One team of a launch that holds no cluster starts under the device's next number but one. -/
theorem State.startUnit_one (lid : Nat) (l : Launch) (i : Nat) (spots : List Spot) (he : l.record.excl = false) :
    ∃ x, (s.startUnit lid l [i] spots none).team? (s.nextId + 1) = some x ∧ x.index = i ∧ x.launch = lid ∧ x.core = (spots.getD 0 ⟨0, 0⟩).core
      ∧ x.idemLost = false := by
  obtain ⟨x, hx, h⟩ := State.startTeam_team? (s := { s with nextId := s.nextId + 1 + 1 }) lid l (s.nextId + 1) i s.nextId 1 0 (spots.getD 0 ⟨0, 0⟩)
  refine ⟨x, Eq.trans ?_ hx, h⟩
  unfold State.startUnit
  simp only [he]
  rfl

/-- The group of a pending index is that index alone where a launch's teams stand for themselves (R47). -/
theorem Launch.members_one {l : Launch} {i : Nat} (hp : l.record.perGroup = 1) (hn : l.nextIndex = some i) (hi : i < l.total) :
    l.members (i / l.record.perGroup) = [i] := by
  have hag : (l.again.isEmpty || decide (i ∈ l.again)) = true := by
    unfold Launch.nextIndex at hn
    cases hg : l.again with
    | nil => rfl
    | cons j js =>
      rw [hg] at hn
      have hmem : i ∈ j :: js := by
        rw [← Option.some.inj hn]
        refine List.foldlRecOn js _ List.mem_cons_self fun b hb a ha => ?_
        split
        · exact List.mem_cons_of_mem _ ha
        · exact hb
      simp [hmem]
  unfold Launch.members
  rw [hp]
  simp [List.range_one, hi]
  simpa using hag
theorem placementDecision_places {lid : Nat} {l : Launch} {i : Nat} {p : List Spot × (Nat → Use)} (hu : s.up = true) (hls : s.reap.launches = [(lid, l)])
    (ha : l.state = .active) (hc : l.ctx = s.win.ctxid) (hs : l.saved = []) (hb : l.binTeams = []) (hco : l.record.coop = false)
    (hp : l.record.perGroup = 1) (he : l.record.excl = false) (hn : l.nextIndex = some i) (hi : i < l.total)
    (hpl : s.reap.ground.place (s.reap.choose 960001 65536) ⟨[l.record.needs], false, none, []⟩ = some p) :
    ∃ t x, exec .placementDecision s = .next t ∧ t.team? (s.reap.nextId + 1) = some x ∧ x.index = i ∧ x.launch = lid
      ∧ x.core = (p.1.getD 0 ⟨0, 0⟩).core ∧ x.idemLost = false := by
  obtain ⟨hf, hw⟩ := s.reap_keeps
  have hup : s.reap.up = true := by unfold State.up; rw [hf]; exact hu
  have hctx : l.ctx = s.reap.win.ctxid := by rw [hw]; exact hc
  have hpend : s.reap.placePending lid l = some ((s.reap.firstPlaced l).startUnit lid l [i] p.1 none) := by
    unfold State.placePending
    simp only [hb, hn, hco, Launch.members_one hp hn hi, he]
    rw [List.map_singleton, hpl]
    rfl
  have hnone : s.reap.nextSaved l = [] := by unfold State.nextSaved; rw [hs]; rfl
  have hfirst : s.reap.placeFirst [(lid, l)] = (s.reap.firstPlaced l).startUnit lid l [i] p.1 none := by
    unfold State.placeFirst
    rw [hnone, hpend]
    rfl
  have hid : (s.reap.firstPlaced l).nextId = s.reap.nextId := by
    unfold State.firstPlaced
    split
    · rfl
    · exact ((KeptByFabric.tables s.reap).statusWrite ⟨rfl, rfl⟩ _ _).2
  obtain ⟨x, hx, h⟩ := (s.reap.firstPlaced l).startUnit_one lid l i p.1 he
  refine ⟨_, x, ?_, by rw [← hid]; exact hx, h⟩
  rw [exec_placementDecision]
  unfold execPlacementDecision
  simp only [hup, hls]
  rw [← hfirst]
  simp [ha, hctx, insertLaunch]
end

end Sys2Proof.Machine
end

section
/-! SUPPORT. The Regulator's events: queues and records, activation, placement and completion (R38, R46, R47, R56, R58, R376, R434), vacates
(R61–R66) and time slices (R452), and the proof of O45. -/

namespace Sys2Proof.Machine

/-! ### The table of launches (R56, R434) -/

/-- A map of a table's rows that keeps their keys. -/
theorem Tbl.get?_mapRow {α β : Type} (f : Nat → α → β) (t : Tbl α) (n : Nat) :
    Tbl.get? (List.map (fun r => (r.1, f r.1 r.2)) t) n = (Tbl.get? t n).map (f n) := by
  induction t with
  | nil => rfl
  | cons a t ih =>
    obtain ⟨k, v⟩ := a
    simp only [List.map_cons, Tbl.get?]
    by_cases hk : n = k
    · subst hk; simp
    · simp [hk, ih]
/-- A computation of effective priorities changes nothing else of an entry (R56). -/
theorem raisePrio_get? (n : Nat) (t : Tbl Launch) (l : Nat) :
    ∃ e, Tbl.get? (raisePrio n t) l = (Tbl.get? t l).map (fun x => { x with eprio := e }) := by
  induction n generalizing t with
  | zero =>
    cases h : Tbl.get? t l with
    | none => exact ⟨0, h⟩
    | some x => exact ⟨x.eprio, h⟩
  | succ n ih =>
    obtain ⟨e, h⟩ := ih (List.map (fun r =>
      (r.1, { r.2 with eprio := t.foldl (fun p d => if r.1 ∈ d.2.bound then max p d.2.eprio else p) r.2.prio })) t)
    have hrow := Tbl.get?_mapRow
      (fun k (x : Launch) => { x with eprio := t.foldl (fun p (d : Nat × Launch) => if k ∈ d.2.bound then max p d.2.eprio else p) x.prio }) t l
    exact ⟨e, h.trans ((congrArg (Option.map _) hrow).trans (Option.map_map ..))⟩
theorem State.updPrio_launch? (s : State) (l : Nat) : ∃ e, s.updPrio.launch? l = (s.launch? l).map (fun x => { x with eprio := e }) := by
  obtain ⟨e, h⟩ := raisePrio_get? s.launches.length (List.map (fun r => (r.1, { r.2 with eprio := r.2.prio })) s.launches) l
  have hrow := Tbl.get?_map (fun x : Launch => { x with eprio := x.prio }) s.launches l
  exact ⟨e, h.trans ((congrArg (Option.map _) hrow).trans (Option.map_map ..))⟩

section
variable {s : State}

/-! ### Queues and their records (R376, R434) -/

theorem launchQueueEnable_sets {q : Nat} {v : W64} (hu : s.hostUp = true) (hq : q < 64) (he : (s.lq q).enable = false) (hv : v.getLsbD 0 = true)
    (hb : (s.lq q).base.toNat % 256 = 0) (hc : (s.lq q).ctl.toNat % 128 = 0) (hn : ∃ i < 16, (s.lq q).size.toNat = 2 * 2 ^ i) :
    ∃ t, exec (.launchQueueEnable q v) s = .next t ∧ t.lq q = { s.lq q with enable := true, fresh := false, started := false } ∧ t.mem = s.mem := by
  obtain ⟨i, hi, hn⟩ := hn
  have hany : (List.range 16).any (fun i => decide ((s.lq q).size.toNat = 2 * 2 ^ i)) = true :=
    List.any_eq_true.2 ⟨i, List.mem_range.2 hi, decide_eq_true hn⟩
  have hw : s.writeEnable q v = s.setLq q { s.lq q with enable := true, fresh := false, started := false } := by
    unfold State.writeEnable
    rw [if_neg (by omega), if_pos hv, if_pos (by rw [he, hb, hc, hany]; rfl)]
  rw [exec_launchQueueEnable]
  unfold execLaunchQueueEnable
  rw [if_pos hu, hw]
  exact ⟨_, rfl, State.lq_setLq_self .., rfl⟩
theorem launchQueueRefetch_sets {q : Nat} (he : (s.lq q).enable = true) :
    ∃ t, exec (.launchQueueRefetch q) s = .next t ∧ (t.lq q).fresh = true ∧ (t.lq q).tail = (s.ctlRead q).ctlWord q 8
      ∧ (t.lq q).next = (if (s.lq q).started then (s.lq q).next else (s.ctlRead q).ctlWord q 0x10) := by
  rw [exec_launchQueueRefetch]
  unfold execLaunchQueueRefetch
  simp only [he, Bool.not_true, Bool.false_eq_true, if_false]
  refine ⟨_, rfl, ?_⟩
  rw [State.lq_setLq_self]
  split <;> exact ⟨rfl, rfl, rfl⟩

/-- The entry of a record (R434). -/
theorem State.makeEntry_launch? (s : State) (b : List Byte) (pa q seq : Nat) (child : Bool) :
    ∃ l, (s.makeEntry b pa (some q) seq none .waiting child).launch? s.nextId = some l ∧ l.state = .waiting ∧ l.record = launchRec b
      ∧ l.queue = some q ∧ l.recAddr = pa ∧ l.total = l.record.total ∧ l.child = child := by
  unfold State.makeEntry
  extract_lets r bound l
  generalize s.refused.filter (fun x => !decide (x = r.launchId.toNat)) = ids
  set u : State := { s with launches := Tbl.set s.launches s.nextId l, nextId := s.nextId + 1, refused := ids } with hu
  obtain ⟨e, h⟩ := u.updPrio_launch? s.nextId
  have hl : u.launch? s.nextId = some l := by
    unfold State.launch?
    rw [hu, Tbl.get?_set, if_pos rfl]
  rw [hl] at h
  exact ⟨_, h, rfl, rfl, rfl, rfl, rfl, rfl⟩
theorem State.noteRefused_keeps (s : State) (b : List Byte) (reason : Nat) :
    (s.noteRefused b reason).launches = s.launches ∧ (reason ≠ 6 → (launchRec b).launchId.toNat ∈ (s.noteRefused b reason).refused) := by
  unfold State.noteRefused
  dsimp only; split
  next h => exact ⟨rfl, fun hr => h.resolve_left hr⟩
  next h => exact ⟨rfl, fun _ => List.mem_cons_self⟩
theorem launchRecordRead_enters (q : Nat) : let x := s.lq q
    let pa := x.slot x.next
    let r := if s.backed pa then s.homeReadBytes none pa 256 else (s, List.replicate 256 0, false)
    let y := { x with next := (x.next + 1) % 2 ^ 64, kids := x.kids.filter (fun n => !decide (n = x.next)) }
    x.enable = true → x.started = true → x.next ≠ x.tail → s.queuedEntries < 1024 →
    match (r.1.setLq q y).refusal r.2.1 false with
    | none => ∃ t l, exec (.launchRecordRead q) s = .next t ∧ t.launch? s.nextId = some l ∧ l.state = .waiting ∧ l.record = launchRec r.2.1
        ∧ l.queue = some q ∧ l.recAddr = pa ∧ l.total = l.record.total ∧ (l.child = true ↔ x.next ∈ x.kids) ∧ t.lq q = y
    | some reason => ∃ s'' : State, exec (.launchRecordRead q) s = .next ((s''.statusWrite pa (2 ^ 31 + reason)).headOf q)
        ∧ s''.launches = s.launches ∧ (reason ≠ 6 → (launchRec r.2.1).launchId.toNat ∈ s''.refused) := by
  intro x pa r y he hst hne hlen
  have hk : r.1.launches = s.launches ∧ r.1.nextId = s.nextId := by
    unfold r; split
    · exact (KeptByFabric.tables s).homeReadBytes ⟨rfl, rfl⟩ none pa 256
    · exact ⟨rfl, rfl⟩
  have hx : exec (.launchRecordRead q) s = match (r.1.setLq q y).refusal r.2.1 false with
      | some reason => .next ((((r.1.setLq q y).noteRefused r.2.1 reason).statusWrite pa (2 ^ 31 + reason)).headOf q)
      | none => .next ((r.1.setLq q y).makeEntry r.2.1 pa (some q) x.next none .waiting (decide (x.next ∈ x.kids))) := by
    rw [exec_launchRecordRead]
    unfold execLaunchRecordRead
    exact if_neg (by rw [he, hst, decide_eq_false hne, decide_eq_false (Nat.not_le.2 hlen)]; exact Bool.false_ne_true)
  rw [hx]
  split
  next href =>
    obtain ⟨l, hl, h1, h2, h3, h4, h5, h6⟩ := (r.1.setLq q y).makeEntry_launch? r.2.1 pa q x.next (decide (x.next ∈ x.kids))
    rw [State.setLq_nextId, hk.2] at hl
    exact ⟨_, l, by rw [href], hl, h1, h2, h3, h4, h5, by rw [h6, decide_eq_true_iff], State.lq_setLq_self ..⟩
  next reason href =>
    obtain ⟨hl, hid⟩ := (r.1.setLq q y).noteRefused_keeps r.2.1 reason
    exact ⟨_, by rw [href], hl.trans hk.1, hid⟩

/-! ### Activation and completion (R46, R58) -/

theorem launchActivation_sets {l : Nat} {x : Launch} (hl : s.launch? l = some x) (hw : x.state = .waiting) (hb : ∀ p ∈ x.bound, s.launch? p = none)
    (hf : ∀ r ∈ s.launches, r.2.queue = x.queue → r.2.state = .waiting → l ≤ r.1) :
    exec (.launchActivation l) s = .next (s.setLaunch l { x with state := .active }) := by
  rw [exec_launchActivation]
  unfold execLaunchActivation
  rw [hl]
  refine if_pos ⟨hw, List.all_eq_true.2 fun p hp => by rw [hb p hp]; rfl, List.all_eq_true.2 fun r hr => ?_⟩
  by_cases h1 : r.2.queue = x.queue
  · by_cases h2 : r.2.state = .waiting
    · simp [h1, h2, hf r hr h1 h2]
    · simp [h2]
  · simp [h1]
/-- HEAD's move writes control lines and the queues' own rows, no launch (R376). -/
theorem State.headOf_launches (s : State) (q : Nat) : (s.headOf q).launches = s.launches := by
  unfold State.headOf
  generalize (s.lq q).open_ = n
  induction n generalizing s with
  | zero => rfl
  | succ n ih =>
    unfold State.advanceHead
    extract_lets x s₁ h
    have h₁ : s₁.launches = s.launches := by
      unfold s₁; split
      · rfl
      · exact ((KeptByFabric.tables s).homeRead ⟨rfl, rfl⟩ _).1
    split
    · exact h₁
    · refine (ih _).trans (Eq.trans ?_ h₁)
      unfold State.ctlWrite
      exact ((KeptByFabric.tables s₁).devWrite (s := s₁.setLq q { x with head := h }) ⟨rfl, rfl⟩ _ _).1
theorem launchCompletion_frees {l : Nat} {x : Launch} (hl : s.reap.launch? l = some x) :
    if x.finished then ∃ t, exec (.launchCompletion l) s = .next t ∧ t.launch? l = none
    else exec (.launchCompletion l) s = .next s.reap := by
  rw [exec_launchCompletion]
  unfold execLaunchCompletion
  simp only [hl]
  have hfree : ∀ u : State, (State.updPrio { u with launches := Tbl.del u.launches l }).launch? l = none := by
    intro u
    obtain ⟨e, h⟩ := State.updPrio_launch? { u with launches := Tbl.del u.launches l } l
    rw [h]
    unfold State.launch?
    rw [Tbl.get?_del, if_pos rfl]; rfl
  split
  next hf =>
    rw [hf]
    refine ⟨_, rfl, ?_⟩
    split
    · rw [State.launch?_of_launches (State.headOf_launches ..)]
      exact hfree _
    · exact hfree _
  next hf => simp [hf]

/-! ### Vacates and time slices (R62, R452) -/

theorem vacate_starts (hu : s.hostUp = true) (hv : s.vac = none) (hr : s.win.vacRun = false) (hn : s.win.vacCount.toNat ≤ 192) :
    ∃ t v, exec .vacate s = .next t ∧ t.vac = some v ∧ v.why = 0 ∧ t.win.vacStatus = 1 ∧ t.win.vacRun = true ∧ ∀ c ∈ v.cores, t.vacating c = true := by
  set s₁ := s.setWin (fun w => { w with vacStatus := 1, vacRun := true }) with hs₁
  have hs : s.startVacate = s₁.vacateCommand := by
    unfold State.startVacate
    rw [if_neg (by rw [hr]; simp; omega)]
    exact if_neg (by rw [State.setWin_vac, hv]; exact Bool.false_ne_true)
  obtain ⟨asked, ha⟩ : ∃ asked, s₁.vacateCommand = s₁.beginVacate asked 0 := ⟨_, rfl⟩
  obtain ⟨cs, hb, hm⟩ := s₁.beginVacate_eq asked 0
  rw [exec_vacate]
  unfold execVacate
  rw [if_pos hu, hs, ha]
  refine ⟨_, ⟨s₁.vacateSet asked, 0⟩, rfl, ?_, rfl, ?_, ?_, hm⟩ <;> rw [hb] <;> rfl
/-- The set of a vacate does not depend on whether the slice has expired (R62). -/
theorem State.vacateSet_expired (s : State) (b : Bool) (asked : List Nat) : ({ s with expired := b } : State).vacateSet asked = s.vacateSet asked := by
  have hw : ∀ n cs, State.widen { s with expired := b } n cs = s.widen n cs := fun n => by
    induction n with
    | zero => exact fun _ => rfl
    | succ n ih => exact fun cs => ih _
  have hc : ∀ c, State.component { s with expired := b } c = s.component c := fun c => hw _ _
  unfold State.vacateSet
  simp only [hc]
  rfl
theorem timeSliceExpiry_vacates {t0 : Nat} (hc : s.ctxStart = some t0) (hn : s.win.tslice ≠ 0) (he : s.expired = false) (hv : s.vac = none) :
    if t0 + s.win.tslice * 17000 ≤ s.time then
      ∃ t, exec .timeSliceExpiry s = .next t ∧ t.expired = true ∧ t.vac = some ⟨s.vacateSet (List.range s.coreCount), 1⟩
    else exec .timeSliceExpiry s = .next s := by
  have hx : exec .timeSliceExpiry s = .next (if (decide (s.win.tslice = 0) || s.expired || decide (s.time < t0 + s.win.tslice * 17000) || s.vac.isSome) = true
      then s else ({ s with expired := true } : State).beginVacate (List.range s.coreCount) 1) := by
    rw [exec_timeSliceExpiry]
    unfold execTimeSliceExpiry State.expire
    split
    next h => rw [hc] at h; cases h
    next t h => rw [hc] at h; cases h; rfl
  rw [hx]
  split
  next h =>
    rw [if_neg (by rw [he, hv]; simp [hn]; omega)]
    obtain ⟨cs, hb, -⟩ := ({ s with expired := true } : State).beginVacate_eq (List.range s.coreCount) 1
    rw [hb]
    exact ⟨_, rfl, rfl, by rw [State.vacateSet_expired]⟩
  next h => rw [if_pos (by rw [he, hv]; simp [hn]; omega)]
end

/-- Settles O45, an event at a time. -/
theorem launchEvents : Obligations.LaunchEvents := by
  unfold Obligations.LaunchEvents
  intro s
  exact ⟨fun q v => launchQueueEnable_sets, fun q => launchQueueRefetch_sets, launchRecordRead_enters, fun l x => launchActivation_sets,
    fun lid l i p => placementDecision_places, fun l x => launchCompletion_frees, fun n x => teamSave_one, fun n x => teamSave_unit,
    fun v => vacateComplete_reports, fun t0 => timeSliceExpiry_vacates, vacate_starts⟩

end Sys2Proof.Machine
end

section
/-! SUPPORT. The codes the number rules form (R67, R69, R81, R84): what a rounding, an output flush (R86) and a clamp to [+0, 1] (R88) can
give, and the proof of O8. -/

namespace Sys2Proof.Machine

/-! ### The value of a code (R67) -/

theorem pow2_nonneg (e : Int) : 0 ≤ pow2 e := by
  unfold pow2
  cases e with
  | ofNat n => exact Rat.mkRat_nonneg (by positivity) _
  | negSucc n => exact Rat.mkRat_nonneg (by positivity) _

/-- A finite code's magnitude is not negative. -/
theorem Fmt.value_mag_nonneg {f : Fmt} {code : Nat} {s : Bool} {q : Rat} (h : f.value code = .fin s q) : 0 ≤ q := by
  have scaled (n : Nat) (e : Int) : 0 ≤ mkRat (n : Int) 1 * pow2 e := mul_nonneg (Rat.mkRat_nonneg (by positivity) _) (pow2_nonneg e)
  unfold Fmt.value at h
  dsimp only at h
  split at h
  · split at h <;> cases h
  split at h
  · cases h
  split at h <;> cases h <;> exact scaled _ _

/-- In a format with infinities a NaN has the highest exponent and a fraction. -/
theorem Fmt.value_eq_nan_iff {f : Fmt} (hinf : f.inf = true) (h4 : f.e4m3 = false) (code : Nat) :
    f.value code = .nan ↔ code / 2 ^ f.fbits % 2 ^ f.ebits = 2 ^ f.ebits - 1 ∧ code % 2 ^ f.fbits ≠ 0 := by
  unfold Fmt.value
  simp only [hinf, h4, Bool.true_and, Bool.false_and, decide_eq_true_eq, Bool.false_eq_true, if_false]
  by_cases he : code / 2 ^ f.fbits % 2 ^ f.ebits = 2 ^ f.ebits - 1
  · by_cases hm : code % 2 ^ f.fbits = 0 <;> simp [he, hm]
  · rw [if_neg he]
    split <;> simp [he]

/-- An FP32 code is a NaN when its low 31 bits lie above infinity's. -/
theorem f32Val_eq_nan_iff (x : W32) : f32Val x = .nan ↔ Fmt.f32.infCode < x.toNat % 2 ^ 31 := by
  rw [f32Val, Fmt.value_eq_nan_iff rfl rfl]
  simp only [Fmt.f32, Fmt.infCode]
  omega

/-! ### The codes a rounding forms (R69, R81) -/

/-- An FP32 code that the number rules may form: its magnitude is at most infinity's, or it is the canonical NaN. -/
def F32Formed (x : W32) : Prop := x.toNat % 2 ^ 31 ≤ Fmt.f32.infCode ∨ x = f32Nan

theorem F32Formed.eq_nan {x : W32} (hx : F32Formed x) (h : f32Val x = .nan) : x = f32Nan :=
  hx.resolve_left (Nat.not_le.mpr ((f32Val_eq_nan_iff x).mp h))

theorem f32Formed_signed (neg : Bool) {c : Nat} (hc : c ≤ Fmt.f32.infCode) : F32Formed (BitVec.ofNat 32 (Fmt.f32.signBit neg + c)) := by
  left
  have hi : Fmt.f32.infCode = 0x7F800000 := rfl
  have hs : Fmt.f32.signBit neg = if neg then 2 ^ 31 else 0 := rfl
  rw [BitVec.toNat_ofNat, hs]
  split <;> omega

/-- A rounded magnitude is a sign bit with a magnitude up to the largest finite one, or with infinity's (R81, R84). -/
theorem Fmt.roundMag_code (f : Fmt) (hf : f.inf = true) (m : RMode) (neg : Bool) (q : Rat) :
    ∃ c, (f.roundMag m neg q).code = f.signBit neg + c ∧ (c ≤ f.maxCode ∨ c = f.infCode) := by
  unfold Fmt.roundMag
  by_cases hq : q = 0
  · exact ⟨0, by rw [if_pos hq]; rfl, .inl (Nat.zero_le _)⟩
  rw [if_neg hq, if_pos hf]
  dsimp only
  generalize (_ : Nat) * 2 ^ f.fbits + _ = c
  by_cases hc : c ≤ f.maxCode
  · exact ⟨c, by rw [if_pos hc], .inl hc⟩
  · rw [if_neg hc]
    exact ⟨_, rfl, (ite_eq_or_eq _ _ _).symm.imp_left Eq.le⟩

theorem f32Round_formed (m : RMode) (v : FVal) : F32Formed (f32Round m v) := by
  cases v with
  | nan => exact .inr rfl
  | inf neg => exact f32Formed_signed neg le_rfl
  | fin neg q =>
    obtain ⟨c, hc, hle⟩ := Fmt.f32.roundMag_code rfl m neg q
    have hmax : Fmt.f32.maxCode ≤ Fmt.f32.infCode := by decide
    unfold f32Round Fmt.convert
    rw [hc]
    exact f32Formed_signed neg (by omega)

/-! ### The output flush (R86) -/

theorem Fmt.flush_le (f : Fmt) (on : Bool) (code : Nat) : f.flush on code ≤ code := by
  unfold Fmt.flush
  split
  · exact Nat.div_mul_le_self _ _
  · exact le_rfl

theorem Fmt.subnormal_flush (f : Fmt) (code : Nat) : f.subnormal (f.flush true code) = false := by
  unfold Fmt.flush
  split
  · have hdvd : 2 ^ f.fbits ∣ code / 2 ^ (f.ebits + f.fbits) * 2 ^ (f.ebits + f.fbits) :=
      (Nat.pow_dvd_pow 2 (Nat.le_add_left _ _)).mul_left _
    simp [Fmt.subnormal, Nat.mod_eq_zero_of_dvd hdvd]
  next h => simpa using h

theorem toNat_ofNat_flush (f : Fmt) (on : Bool) (x : W32) : (BitVec.ofNat 32 (f.flush on x.toNat)).toNat = f.flush on x.toNat := by
  rw [BitVec.toNat_ofNat, Nat.mod_eq_of_lt ((f.flush_le on _).trans_lt x.isLt)]

theorem F32Formed.flush {x : W32} (hx : F32Formed x) (on : Bool) : F32Formed (BitVec.ofNat 32 (Fmt.f32.flush on x.toNat)) := by
  unfold Fmt.flush
  split
  · left
    rw [BitVec.toNat_ofNat]
    simp only [Fmt.f32]
    omega
  · rwa [BitVec.ofNat_toNat, BitVec.setWidth_eq]

/-! ### The clamp (R88) -/

/-- A clamped code is +0, 1.0, or the code itself when its value lies in [+0, 1]. -/
theorem sat01_cases (x : W32) :
    sat01 x = 0 ∨ sat01 x = 0x3F800000 ∨ sat01 x = x ∧ ∃ q, f32Val x = .fin false q ∧ q ≤ 1 := by
  unfold sat01
  split
  next => exact .inl rfl
  next s _ => cases s <;> simp
  next s q h =>
    cases s with
    | true => exact .inl rfl
    | false =>
      by_cases hq : 1 < q
      · exact .inr (.inl (by simp [hq]))
      · exact .inr (.inr ⟨by simp [hq], q, h, not_lt.mp hq⟩)

theorem f32Val_zero : f32Val 0 = .fin false 0 := by decide +kernel
theorem f32Val_one : f32Val 0x3F800000 = .fin false 1 := by decide +kernel

theorem sat01_range (x : W32) : ∃ q, f32Val (sat01 x) = .fin false q ∧ 0 ≤ q ∧ q ≤ 1 := by
  obtain h | h | ⟨h, q, hv, hq⟩ := sat01_cases x <;> rw [h]
  · exact ⟨0, f32Val_zero, le_rfl, zero_le_one⟩
  · exact ⟨1, f32Val_one, zero_le_one, le_rfl⟩
  · exact ⟨q, hv, Fmt.value_mag_nonneg hv, hq⟩

theorem subnormal_sat01 {x : W32} (hx : Fmt.f32.subnormal x.toNat = false) : Fmt.f32.subnormal (sat01 x).toNat = false := by
  obtain h | h | ⟨h, -⟩ := sat01_cases x <;> rw [h]
  · rfl
  · rfl
  · exact hx

/-! ### FP32 results -/

/-- A result is the flushed rounding, clamped under SAT. -/
theorem Wave.fout_eq (w : Wave) (m : RMode) (sat : Bool) (v : FVal) :
    w.fout m sat v = if sat then sat01 (w.fout m false v) else w.fout m false v := rfl

theorem Wave.fout_formed (w : Wave) (m : RMode) (v : FVal) : F32Formed (w.fout m false v) :=
  (f32Round_formed m v).flush w.flushOut

theorem Wave.fout_eq_nan (w : Wave) (m : RMode) (sat : Bool) (v : FVal) (h : f32Val (w.fout m sat v) = .nan) : w.fout m sat v = f32Nan := by
  cases sat with
  | false => exact (w.fout_formed m v).eq_nan h
  | true =>
    obtain ⟨q, hq, -⟩ := sat01_range (w.fout m false v)
    rw [w.fout_eq, if_pos rfl, hq] at h
    cases h

theorem Wave.fout_sat_range (w : Wave) (m : RMode) (v : FVal) : ∃ q, f32Val (w.fout m true v) = .fin false q ∧ 0 ≤ q ∧ q ≤ 1 :=
  sat01_range (w.fout m false v)

theorem Wave.subnormal_fout (w : Wave) (m : RMode) (sat : Bool) (v : FVal) (hw : w.flushOut = true) :
    Fmt.f32.subnormal (w.fout m sat v).toNat = false := by
  have hflush : Fmt.f32.subnormal (w.fout m false v).toNat = false := by
    unfold Wave.fout
    rw [if_neg Bool.false_ne_true, toNat_ofNat_flush, hw, Fmt.subnormal_flush]
  cases sat with
  | false => exact hflush
  | true => exact subnormal_sat01 hflush

/-- Settles O8: the codes a rounding forms are kept by the flush, and the clamp leaves +0, 1.0 or a code it found in range. -/
theorem resultsAreCanonical : Obligations.ResultsAreCanonical := by
  unfold Obligations.ResultsAreCanonical
  intro w m sat v
  exact ⟨w.fout_eq_nan m sat v, fun hs => hs ▸ w.fout_sat_range m v, w.subnormal_fout m sat v⟩

end Sys2Proof.Machine
end

section
/-! SUPPORT. The two directions of O58: every word of the opcode map is the encoding of what it decodes to, by the ranges of R122 that share a
format, and every constructor's own law of `Laws/PerInstr.lean` taken together. -/

namespace Sys2Proof

/-! ### What decodes is the encoding of its instruction (R104, R122) -/

/-- Every word of opcode `op` that `p` reads is the word of the instruction it reads. -/
def EncodesAs (op : Nat) (p : W64 → Except DecodeError Instr) : Prop :=
  ∀ w i, opOf w = op → p w = .ok i → encode i = some w

namespace EncodesAs
variable {op : Nat}

/-- A format whose reader gives back its word's fields reads each of its instructions from that instruction's own word. -/
theorem of_fmt {F : Type} {fmt : W64 → (F → Instr) → Except DecodeError Instr} {enc : BitVec 8 → F → W64} {k : F → Instr}
    (hfmt : ∀ {w : W64} {i : Instr}, fmt w k = .ok i → ∃ f, i = k f ∧ enc (bits w 56 8) f = w)
    (hk : ∀ f, encode (k f) = some (enc (BitVec.ofNat 8 op) f)) : EncodesAs op (fun w => fmt w k) := by
  intro w i hop h
  obtain ⟨f, rfl, hf⟩ := hfmt h
  have hbits : BitVec.ofNat 8 op = bits w 56 8 := by rw [← hop, opOf, BitVec.ofNat_toNat, BitVec.setWidth_eq]
  rw [hk, hbits, hf]
theorem byBit3 {v vi : W64 → Except DecodeError Instr} (hv : EncodesAs op v) (hvi : EncodesAs op vi) :
    EncodesAs op (fun w => byBit3 w v vi) := by
  intro w i hop h
  cases hb : w.getLsbD 51 with
  | false => exact hv w i hop ((Laws.Encoding.byBit3_false w v vi hb).symm.trans h)
  | true => exact hvi w i hop ((Laws.Encoding.byBit3_true w v vi hb).symm.trans h)
theorem byFn {a b : W64 → Except DecodeError Instr} (ha : EncodesAs op a) (hb : EncodesAs op b) : EncodesAs op (fun w => byFn w a b) := by
  intro w i hop h
  simp only [Sys2Proof.byFn] at h
  split at h
  · exact ha w i hop h
  · split at h
    · exact hb w i hop h
    · cases h
theorem of_error {e : DecodeError} : EncodesAs op (fun _ => .error e) := fun _ _ _ h => nomatch h

/-- The opcode map, by the ranges of R122 whose opcodes share a format. -/
theorem parseOp (hop : op < 256) : EncodesAs op (parseOp op) := by
  have ranges : (0x01 ≤ op ∧ op ≤ 0x17) ∨
      ((0x24 ≤ op ∧ op ≤ 0x24) ∨ (0x2E ≤ op ∧ op ≤ 0x33) ∨ (0x35 ≤ op ∧ op ≤ 0x37) ∨ (0x43 ≤ op ∧ op ≤ 0x43) ∨ (0x47 ≤ op ∧ op ≤ 0x49) ∨
        (0x4B ≤ op ∧ op ≤ 0x55) ∨ (0x58 ≤ op ∧ op ≤ 0x6C)) ∨
      ((0x20 ≤ op ∧ op ≤ 0x23) ∨ (0x25 ≤ op ∧ op ≤ 0x2D) ∨ (0x34 ≤ op ∧ op ≤ 0x34) ∨ (0x40 ≤ op ∧ op ≤ 0x42) ∨ (0x44 ≤ op ∧ op ≤ 0x46) ∨
        (0x4A ≤ op ∧ op ≤ 0x4A)) ∨
      (0x70 ≤ op ∧ op ≤ 0x7F) ∨ (0x80 ≤ op ∧ op ≤ 0x96) ∨ (0xA0 ≤ op ∧ op ≤ 0xAD) ∨ (0xB0 ≤ op ∧ op ≤ 0xBB) ∨ op = 0xBC ∨
      (0xC0 ≤ op ∧ op ≤ 0xC8) ∨ (0xD0 ≤ op ∧ op ≤ 0xD5) ∨ (op = 0xD9 ∨ op = 0xDA ∨ op = 0xDC) ∨ (op = 0xD8 ∨ op = 0xDB) ∨
      (0xE0 ≤ op ∧ op ≤ 0xEC) ∨ (0xF0 ≤ op ∧ op ≤ 0xF7) ∨
      ((0 ≤ op ∧ op ≤ 0) ∨ (0x18 ≤ op ∧ op ≤ 0x1F) ∨ (0x38 ≤ op ∧ op ≤ 0x3F) ∨ (0x56 ≤ op ∧ op ≤ 0x57) ∨ (0x6D ≤ op ∧ op ≤ 0x6F) ∨
        (0x97 ≤ op ∧ op ≤ 0x9F) ∨ (0xAE ≤ op ∧ op ≤ 0xAF) ∨ (0xBD ≤ op ∧ op ≤ 0xBF) ∨ (0xC9 ≤ op ∧ op ≤ 0xCF) ∨
        (0xD6 ≤ op ∧ op ≤ 0xD7) ∨ (0xDD ≤ op ∧ op ≤ 0xDF) ∨ (0xED ≤ op ∧ op ≤ 0xEF) ∨ (0xF8 ≤ op ∧ op ≤ 0xFF)) := by omega
  obtain ⟨_, _⟩ | hv | hvi | ⟨_, _⟩ | ⟨_, _⟩ | ⟨_, _⟩ | ⟨_, _⟩ | rfl | ⟨_, _⟩ | ⟨_, _⟩ | hgt | hfn | ⟨_, _⟩ | ⟨_, _⟩ | hnone := ranges
  · interval_cases op <;> exact of_fmt encS_of_fmtS fun _ => rfl
  · obtain ⟨_, _⟩ | ⟨_, _⟩ | ⟨_, _⟩ | ⟨_, _⟩ | ⟨_, _⟩ | ⟨_, _⟩ | ⟨_, _⟩ := hv <;> interval_cases op <;> exact of_fmt encV_of_fmtV fun _ => rfl
  · obtain ⟨_, _⟩ | ⟨_, _⟩ | ⟨_, _⟩ | ⟨_, _⟩ | ⟨_, _⟩ | ⟨_, _⟩ := hvi <;> interval_cases op <;>
      exact byBit3 (of_fmt encV_of_fmtV fun _ => rfl) (of_fmt encVI_of_fmtVI fun _ => rfl)
  · interval_cases op <;> exact of_fmt encC_of_fmtC fun _ => rfl
  · interval_cases op <;> exact of_fmt encM_of_fmtM fun _ => rfl
  · interval_cases op <;> exact of_fmt encX_of_fmtX fun _ => rfl
  · interval_cases op <;> exact of_fmt encE_of_fmtE fun _ => rfl
  · exact byFn (of_fmt encE_of_fmtE fun _ => rfl) (of_fmt encE_of_fmtE fun _ => rfl)
  · interval_cases op <;> exact of_fmt encQ_of_fmtQ fun _ => rfl
  · interval_cases op <;> exact of_fmt encT_of_fmtT fun _ => rfl
  · obtain rfl | rfl | rfl := hgt <;> exact of_fmt encGT_of_fmtGT fun _ => rfl
  · obtain rfl | rfl := hfn <;> exact byFn (of_fmt encGT_of_fmtGT fun _ => rfl) (of_fmt encGT_of_fmtGT fun _ => rfl)
  · interval_cases op <;> exact of_fmt encG_of_fmtG fun _ => rfl
  · interval_cases op <;> exact of_fmt encY_of_fmtY fun _ => rfl
  · obtain ⟨_, _⟩ | ⟨_, _⟩ | ⟨_, _⟩ | ⟨_, _⟩ | ⟨_, _⟩ | ⟨_, _⟩ | ⟨_, _⟩ | ⟨_, _⟩ | ⟨_, _⟩ | ⟨_, _⟩ | ⟨_, _⟩ | ⟨_, _⟩ | ⟨_, _⟩ := hnone <;>
      interval_cases op <;> exact of_error
end EncodesAs

/-- A word that decodes is the encoding of a well-formed instruction. -/
theorem encode_of_decodeWord {w : W64} {i : Instr} (h : decodeWord w = .ok i) : i.wf = true ∧ encode i = some w := by
  unfold decodeWord at h
  split at h
  case h_1 i' hp =>
    split at h
    case isTrue hwf =>
      cases h
      exact ⟨hwf, EncodesAs.parseOp (bits w 56 8).isLt w i rfl hp⟩
    case isFalse => cases h
  case h_2 => cases h

/-! ### A well-formed instruction's word decodes to it (R104, R122) -/

namespace Laws.Encoding

/-- The laws of the constructors, taken together; the device's own steps have no word. -/
theorem statement (i : Instr) : Statement i := by
  cases i with
  | sadd f => exact sadd f | ssub f => exact ssub f | smul f => exact smul f | smulhi f => exact smulhi f | sdiv f => exact sdiv f
  | sand f => exact sand f | sor f => exact sor f | sxor f => exact sxor f | sshl f => exact sshl f | sshr f => exact sshr f | srot f => exact srot f
  | scmp f => exact scmp f | ssel f => exact ssel f | smov f => exact smov f | smin f => exact smin f | smax f => exact smax f
  | sbfx f => exact sbfx f | sbfi f => exact sbfi f | sbitc f => exact sbitc f | sadd64 f => exact sadd64 f | ssub64 f => exact ssub64 f
  | smad64 f => exact smad64 f | sli f => exact sli f | vadd f => exact vadd f | vaddImm f => exact vaddImm f | vsub f => exact vsub f
  | vsubImm f => exact vsubImm f | vmul f => exact vmul f | vmulImm f => exact vmulImm f | vmulhi f => exact vmulhi f
  | vmulhiImm f => exact vmulhiImm f | vmad f => exact vmad f | vand f => exact vand f | vandImm f => exact vandImm f | vor f => exact vor f
  | vorImm f => exact vorImm f | vxor f => exact vxor f | vxorImm f => exact vxorImm f | vshl f => exact vshl f | vshlImm f => exact vshlImm f
  | vshr f => exact vshr f | vshrImm f => exact vshrImm f | vrot f => exact vrot f | vrotImm f => exact vrotImm f | vmin f => exact vmin f
  | vminImm f => exact vminImm f | vmax f => exact vmax f | vmaxImm f => exact vmaxImm f | vcmp f => exact vcmp f | vcmpImm f => exact vcmpImm f
  | vsel f => exact vsel f | vmov f => exact vmov f | vbfx f => exact vbfx f | vbfi f => exact vbfi f | vbitc f => exact vbitc f
  | vsad f => exact vsad f | vadd64 f => exact vadd64 f | vadd64Imm f => exact vadd64Imm f | vmad64 f => exact vmad64 f | vdot4 f => exact vdot4 f
  | vperm f => exact vperm f | fadd f => exact fadd f | faddImm f => exact faddImm f | fsub f => exact fsub f | fsubImm f => exact fsubImm f
  | fmul f => exact fmul f | fmulImm f => exact fmulImm f | ffma f => exact ffma f | fmin f => exact fmin f | fminImm f => exact fminImm f
  | fmax f => exact fmax f | fmaxImm f => exact fmaxImm f | fcmp f => exact fcmp f | fcmpImm f => exact fcmpImm f | frnd f => exact frnd f
  | ffract f => exact ffract f | fclass f => exact fclass f | fldexp f => exact fldexp f | fldexpImm f => exact fldexpImm f
  | ffrexp f => exact ffrexp f | hadd2 f => exact hadd2 f | hmul2 f => exact hmul2 f | hfma2 f => exact hfma2 f | hdot2 f => exact hdot2 f
  | cvtfi f => exact cvtfi f | cvtif f => exact cvtif f | cvtff f => exact cvtff f | cvtpk f => exact cvtpk f | cvtunp f => exact cvtunp f
  | cvtqb f => exact cvtqb f | frcp f => exact frcp f | frsq f => exact frsq f | fsqrt f => exact fsqrt f | fexp2 f => exact fexp2 f
  | flog2 f => exact flog2 f | fsin f => exact fsin f | fcos f => exact fcos f | ftanh f => exact ftanh f | lbcast f => exact lbcast f
  | lshuf f => exact lshuf f | lrot f => exact lrot f | lquad f => exact lquad f | lballot f => exact lballot f | lred f => exact lred f
  | lscan f => exact lscan f | lmatch f => exact lmatch f | lhist f => exact lhist f | lmerge f => exact lmerge f | lfirst f => exact lfirst f
  | lderiv f => exact lderiv f | lcount f => exact lcount f | bra f => exact bra f | brs f => exact brs f | brm f => exact brm f
  | brx f => exact brx f | mark f => exact mark f | join f => exact join f | call f => exact call f | ret f => exact ret f | loop f => exact loop f
  | waitc f => exact waitc f | yield f => exact yield f | halt f => exact halt f | trap f => exact trap f | nop f => exact nop f
  | mask f => exact mask f | sleep f => exact sleep f | ldl f => exact ldl f | stl f => exact stl f | lds f => exact lds f | sts f => exact sts f
  | ldc f => exact ldc f | stc f => exact stc f | ldp f => exact ldp f | stp f => exact stp f | ldg f => exact ldg f | stg f => exact stg f
  | sld f => exact sld f | sst f => exact sst f | ldq f => exact ldq f | pfg f => exact pfg f | tld f => exact tld f | tst f => exact tst f
  | clean f => exact clean f | inval f => exact inval f | discard f => exact discard f | atom f => exact atom f | acas f => exact acas f
  | red f => exact red f | fence f => exact fence f | mfmt f => exact mfmt f | mzero f => exact mzero f | mma f => exact mma f
  | mmat f => exact mmat f | mld f => exact mld f | mst f => exact mst f | mcvt f => exact mcvt f | mset f => exact mset f | madd f => exact madd f
  | mloop f => exact mloop f | mbr f => exact mbr f | marr f => exact marr f | mwait f => exact mwait f | mhalt f => exact mhalt f
  | chdef f => exact chdef f | chres f => exact chres f | chcom f => exact chcom f | chacq f => exact chacq f | chrel f => exact chrel f
  | chqry f => exact chqry f | cpyin f => exact cpyin f | cpyout f => exact cpyout f | cpyg f => exact cpyg f | idxwalk f => exact idxwalk f
  | gather f => exact gather f | publish f => exact publish f | ecplDep f => exact ecplDep f | ecplArr f => exact ecplArr f
  | sqpush f => exact sqpush f | sqpop f => exact sqpop f | barr f => exact barr f | barw f => exact barw f | barrw f => exact barrw f
  | phbeg f => exact phbeg f | phwait f => exact phwait f | launch f => exact launch f | rsub f => exact rsub f | tsdep f => exact tsdep f
  | tscpy f => exact tscpy f | tstake f => exact tstake f | tscpyn f => exact tscpyn f | tstaken f => exact tstaken f | tscan f => exact tscan f
  | gtcfgSend f => exact gtcfgSend f | gtcfgDest f => exact gtcfgDest f | gtrsv f => exact gtrsv f | gtsend f => exact gtsend f
  | gtdrain f => exact gtdrain f | gtdrainPhase f => exact gtdrainPhase f | gtrel f => exact gtrel f | rbox f => exact rbox f
  | rtri f => exact rtri f | rpush f => exact rpush f | rpop f => exact rpop f | rhit f => exact rhit f | afetch f => exact afetch f
  | abary f => exact abary f | ainterp f => exact ainterp f | visld f => exact visld f | smpl f => exact smpl f | smpll f => exact smpll f
  | pxout f => exact pxout f | tret f => exact tret f | srd f => exact srd f | swr f => exact swr f | eret f => exact eret f | brk f => exact brk f
  | cntrd f => exact cntrd f | cntcfg f => exact cntcfg f | time f => exact time f | isync f => exact isync f
  | _ => exact of_none rfl
end Laws.Encoding

/-- Settles O58: one way by the law of each constructor, the other by the opcode ranges of each format. -/
theorem decodeEncode : Obligations.DecodeEncode :=
  ⟨fun i w hwf he => Laws.Encoding.statement i hwf w he, fun _ _ => encode_of_decodeWord⟩

/-- Settles O56 by decoding the nine words. -/
theorem wordsDecode : Obligations.WordsDecode := by
  unfold Obligations.WordsDecode
  decide

end Sys2Proof
end

section
/-! SUPPORT. The check of a word's form before its meaning (R104, R121, R123, R219), and the proof of O20. -/

namespace Sys2Proof.Machine

/-- An ill-formed word traps at issue, on the front end that takes its opcode: a sequencer word stops its stream, any other traps its wave. -/
theorem exec_illFormed {i : Instr} {word : W64} (he : encode i = some word) (hi : i.wf = false) (s : State) :
    (opFrontEnd .seq (opOf word) = false ∧ ∀ c k w, s.runs c k w → exec i s = .next (s.trapAt c k w w.illegal))
    ∨ (opFrontEnd .seq (opOf word) = true ∧ ∀ c m, s.runsStream c m → exec i s = .next (s.streamTrap c m 0x01 0 0)) := by
  cases i with
  | mfmt f | mzero f | mma f | mmat f | mld f | mst f | mcvt f | mset f | madd f | mloop f | mbr f | marr f | mwait f | mhalt f | gtcfgSend f
  | gtcfgDest f | gtrsv f | gtsend f | gtdrain f | gtdrainPhase f | gtrel f =>
    cases he
    exact .inr ⟨by simp only [opOf_encX, opOf_encGT]; rfl, fun c m hr => seqWord_illegal hr hi _⟩
  | _ =>
    -- a step of the device has no word
    cases he <;>
      exact .inl ⟨by
        simp only [opOf_encS, opOf_encV, opOf_encVI, opOf_encC, opOf_encM, opOf_encE, opOf_encQ, opOf_encT, opOf_encG, opOf_encY]
        rfl, fun c k w hr => sysWord_illegal hr hi _⟩

/-- Settles O20: every word of a wave tests its form first, and so does every sequencer word. -/
theorem illFormedWordsTrap : Obligations.IllFormedWordsTrap := by
  unfold Obligations.IllFormedWordsTrap
  intro s i word he hi
  obtain ⟨hseq, hexec⟩ | ⟨hseq, hexec⟩ := exec_illFormed he hi s
  · exact ⟨fun c k w hr _ => hexec c k w hr, fun c m _ h => absurd h (by simp [hseq])⟩
  · exact ⟨fun c k w _ h => absurd h (by simp [hseq]), fun c m hr _ => hexec c m hr⟩

end Sys2Proof.Machine
end

section
/-! SUPPORT. Words of class L without a path under a lookahead window (R106, R107), and the proof of O14. -/

namespace Sys2Proof.Machine

/-! ### Where a trap leaves its wave (R440) -/

theorem State.stopWave_clause (s : State) (c k : Nat) (w : Wave) : ∃ w', (s.stopWave c k w).wave? c k = some w' ∧ w'.clause = w.clause :=
  ⟨_, (State.wave?_of_waves (State.report_waves ..) c k).trans (State.wave?_setWave_self ..), rfl⟩
theorem State.deliverAs_clause (s : State) (c k : Nat) (w : Wave) (v : Vector) :
    ∃ w', (s.deliverAs c k w v).wave? c k = some w' ∧ w'.clause = w.clause := by
  unfold State.deliverAs
  split
  · exact State.stopWave_clause ..
  · split
    · exact State.stopWave_clause ..
    · split
      · exact ⟨_, State.wave?_setWave_self .., rfl⟩
      · exact State.stopWave_clause ..
/-- A trap at issue takes its wave out of its clause, whether it is delivered or a debug halt holds it. -/
theorem State.trapAt_clause (s : State) (c k : Nat) (w : Wave) (t : Trap) :
    ∃ w', (s.trapAt c k w t).wave? c k = some w' ∧ w'.clause = none := by
  unfold State.trapAt State.takeTrap
  dsimp only
  split
  · exact ⟨_, State.wave?_setWave_self .., rfl⟩
  · exact State.deliverAs_clause ..

/-! ### The window of a long word -/

/-- A long write under a window goes on to the next word of its clause with its writes withheld for `la` words. -/
theorem Wave.done_longWrite {w : Wave} {cl : Clause} (hw : w.wins = []) (hcl : w.clause = some cl) (hn : w.widx + 1 < cl.words.length)
    {la : Nat} (hla : 0 < la) (op : Nat) (vs : List (Nat × Nat × W32)) (ss : List (Nat × W32)) :
    ∃ x, x.left = la ∧ (w.longWrite op la vs ss).done = { w with wins := [x], widx := w.widx + 1, block := .none } := by
  have hne : ¬ la = 0 := by omega
  refine ⟨⟨la, op, vs, ss.filter (fun x => !w.discards x.1)⟩, rfl, ?_⟩
  simp [Wave.longWrite, Wave.done, Wave.tickWins, splitWins, hne, hw, hcl, hn]

/-- A word that computes on its wave alone and makes every write as a long one under a window of `la` words. -/
def WritesLong (i : Instr) (la : Nat) : Prop :=
  ∃ run : Wave → Except Trap Wave, (∀ s, exec i s = aluWord i s run) ∧ ∀ w w', run w = .ok w' → ∃ op vs ss, w' = w.longWrite op la vs ss

/-- Such a word, where its wave stays in the clause, changes no register and opens one window. -/
theorem WritesLong.withholds {i : Instr} {la : Nat} (h : WritesLong i la) {s t : State} {c k : Nat} {w w' : Wave} {cl : Clause}
    (hr : s.runs c k w) (hw : w.wins = []) (hcl : w.clause = some cl) (hn : w.widx + 1 < cl.words.length) (hi : i.wf = true)
    (he : exec i s = .next t) (hla : 0 < la) (hw' : t.wave? c k = some w') (hin : w'.clause ≠ none) :
    w'.s = w.s ∧ w'.v = w.v ∧ w'.widx = w.widx + 1 ∧ ∃ x, w'.wins = [x] ∧ x.left = la := by
  obtain ⟨run, hrun, hlong⟩ := h
  cases hres : run w with
  | error trap =>
    have ht : s.trapAt c k w trap = t := by
      rw [hrun, aluWord_trap hr hi hres] at he; injection he
    obtain ⟨u, hu, hnone⟩ := s.trapAt_clause c k w trap
    rw [ht, hw'] at hu; cases hu
    exact absurd hnone hin
  | ok u =>
    have ht : s.setWave c k u.done = t := by
      rw [hrun, aluWord_ok hr hi hres] at he; injection he
    obtain ⟨op, vs, ss, rfl⟩ := hlong w u hres
    obtain ⟨x, hx, hdone⟩ := Wave.done_longWrite hw hcl hn hla op vs ss
    rw [← ht, State.wave?_setWave_self, hdone] at hw'
    cases hw'
    exact ⟨rfl, rfl, rfl, x, rfl, hx⟩

/-! ### The words of class L without a path (R151, R181, R189–R191) -/

theorem writesLong_sdiv (f : FmtS) : WritesLong (.sdiv f) f.la.toNat :=
  ⟨_, fun _ => rfl, fun _ _ h => ⟨_, _, _, (Except.ok.inj h).symm⟩⟩
/-- What a special function computes: its trap, or its long write. -/
theorem writesLong_special {i : Instr} {f : FmtV} (op : Nat) (u : LegacyUse) (g : Wave → RMode → FVal → FVal)
    (h : ∀ s, exec i s = specialWord op i u f s g) : WritesLong i f.la.toNat := by
  refine ⟨_, h, fun w w' hok => ?_⟩
  dsimp only at hok
  split at hok
  · cases hok
  · split at hok
    · cases hok
    · exact ⟨_, _, _, (Except.ok.inj hok).symm⟩
theorem writesLong_lmatch (f : FmtV) : WritesLong (.lmatch f) f.la.toNat := by
  refine ⟨_, fun _ => rfl, fun w w' hok => ?_⟩
  dsimp only at hok
  split at hok
  · cases hok
  · exact ⟨_, _, _, (Except.ok.inj hok).symm⟩
theorem writesLong_lhist (f : FmtV) : WritesLong (.lhist f) f.la.toNat := by
  refine ⟨_, fun _ => rfl, fun w w' hok => ?_⟩
  dsimp only at hok
  split at hok
  · cases hok
  · split at hok
    · cases hok
    · exact ⟨_, _, _, (Except.ok.inj hok).symm⟩
theorem writesLong_lmerge (f : FmtV) : WritesLong (.lmerge f) f.la.toNat := by
  refine ⟨_, fun _ => rfl, fun w w' hok => ?_⟩
  dsimp only at hok
  split at hok
  · cases hok
  · split at hok
    · cases hok
    · split at hok
      · cases hok
      · have h := (Except.ok.inj hok).symm
        split at h
        · exact ⟨_, _, _, h⟩
        · exact ⟨_, _, _, h⟩

/-- Settles O14: each word of class L without a path writes through a window, and a window above 0 withholds. -/
theorem lookaheadWindowsWithhold : Obligations.LookaheadWindowsWithhold := by
  unfold Obligations.LookaheadWindowsWithhold
  intro s t c k w cl i la hr hw hcl hn hi he hword hla w' hw' hin
  have hlong : WritesLong i la := by
    obtain ⟨f, rfl, rfl⟩ | ⟨f, rfl, hmem⟩ := hword
    · exact writesLong_sdiv f
    · simp only [List.mem_cons, List.not_mem_nil, or_false] at hmem
      obtain rfl | rfl | rfl | rfl | rfl | rfl | rfl | rfl | rfl | rfl | rfl := hmem
      · exact writesLong_special 0x58 {} _ (exec_frcp · f)
      · exact writesLong_special 0x59 {} _ (exec_frsq · f)
      · exact writesLong_special 0x5A {} _ (exec_fsqrt · f)
      · exact writesLong_special 0x5B {} _ (exec_fexp2 · f)
      · exact writesLong_special 0x5C {} _ (exec_flog2 · f)
      · exact writesLong_special 0x5D useTrig _ (exec_fsin · f)
      · exact writesLong_special 0x5E useTrig _ (exec_fcos · f)
      · exact writesLong_special 0x5F {} _ (exec_ftanh · f)
      · exact writesLong_lmatch f
      · exact writesLong_lhist f
      · exact writesLong_lmerge f
  exact hlong.withholds hr hw hcl hn hi he hla hw' hin

end Sys2Proof.Machine
end

section
/-! SUPPORT. The traps at issue of the vector words: a register at or above VREGS (R121) and a governed legacy request (R91), and the proof of
O21. -/

namespace Sys2Proof.Machine

/-! ### The requests that govern a word (R91) -/

/-- The sub-code of the lowest request of FPCOMPAT that is set and governs a word of use `u`. -/
def Wave.lowestRequest (w : Wave) (u : LegacyUse) : Option Nat :=
  let fp := fun (n : Nat) => w.fpcompat.getLsbD n
  (([(u.xprec && fp 7, 0x01), (fp 8, 0x02), (u.zeroNan && fp 9, 0x03), (u.cvtfi && fp 4 && fp 5, 0x04), (u.trig && fp 10, 0x05),
    (u.fp16 && fp 11, 0x06), (fp 12, 0x07), (fp 13, 0x20), (fp 14, 0x21), (fp 15, 0x22)]
    : List (Bool × Nat)).find? (fun x => x.1)).map (fun x => x.2)

/-- Request 3 of the conversion field is both its bits. -/
theorem Wave.f2i_eq_three (w : Wave) : decide (w.f2i = 3) = (w.fpcompat.getLsbD 4 && w.fpcompat.getLsbD 5) := by
  rw [Bool.eq_iff_iff, decide_eq_true_eq]
  simp only [decide_eq_true_eq, Bool.and_eq_true, BitVec.getLsbD, Nat.testBit_eq_decide_div_mod_eq, Wave.f2i, Nat.reducePow]
  omega
/-- The code of the first row whose flag is set, row by row. -/
theorem find?_row_cons (b : Bool) (n : Nat) (rows : List (Bool × Nat)) :
    (((b, n) :: rows).find? (fun x => x.1)).map (fun x => x.2) = if b then some n else (rows.find? (fun x => x.1)).map (fun x => x.2) := by
  cases b <;> rfl
theorem Wave.legacy_eq_lowestRequest (w : Wave) (u : LegacyUse) : w.legacy u = w.lowestRequest u := by
  simp only [Wave.legacy, Wave.lowestRequest, w.f2i_eq_three, find?_row_cons, Bool.and_assoc]
  rfl

/-! ### The two traps -/

section
variable {s : State} {c k : Nat} {w : Wave}

/-- The word traps REG_RANGE where one of the registers `rs` is out of range. -/
def TrapsRange (s : State) (c k : Nat) (w : Wave) (i : Instr) (rs : List Nat) : Prop :=
  i.wf → w.regRange rs = true → exec i s = .next (s.trapAt c k w { cause := 0x03, fm := w.trapMask })
/-- The word traps REG_RANGE so, and with its registers in range LEGACY_UNSUPPORTED with the lowest request that governs use `u`. -/
def TrapsLegacy (s : State) (c k : Nat) (w : Wave) (i : Instr) (rs : List Nat) (u : LegacyUse) : Prop :=
  TrapsRange s c k w i rs ∧ (i.wf → w.regRange rs = false → ∀ n, w.lowestRequest u = some n →
    exec i s = .next (s.trapAt c k w { cause := 0x0C, sub := n, fm := w.trapMask }))

theorem trapsRange_of_alu (hr : s.runs c k w) {i : Instr} {rs : List Nat} {run : Wave → Except Trap Wave} (he : exec i s = aluWord i s run)
    (hrun : w.regRange rs = true → run w = .error w.regRangeTrap) : TrapsRange s c k w i rs := fun hi h => by
  rw [he, aluWord_trap hr hi (hrun h)]; rfl
theorem trapsLegacy_of_alu (hr : s.runs c k w) {i : Instr} {rs : List Nat} {u : LegacyUse} {run : Wave → Except Trap Wave}
    (he : exec i s = aluWord i s run) (hrange : w.regRange rs = true → run w = .error w.regRangeTrap)
    (hlegacy : w.regRange rs = false → ∀ n, w.legacy u = some n → run w = .error (w.legacyTrap n)) : TrapsLegacy s c k w i rs u := by
  refine ⟨trapsRange_of_alu hr he hrange, fun hi h n hn => ?_⟩
  rw [← w.legacy_eq_lowestRequest] at hn
  rw [he, aluWord_trap hr hi (hlegacy h n hn)]; rfl

/-! ### The shapes of the words -/

theorem trapsLegacy_of_flt (hr : s.runs c k w) {i : Instr} {u : LegacyUse} {regs : List Nat} {d : Nat} {g : Wave → Nat → W32}
    (he : exec i s = fltWord i s u regs d g) : TrapsLegacy s c k w i (d :: regs) u :=
  trapsLegacy_of_alu hr he (fun h => if_pos h) fun h n hn => by rw [if_neg (Bool.eq_false_iff.1 h), hn]
theorem trapsLegacy_of_special (hr : s.runs c k w) {op : Nat} {i : Instr} {u : LegacyUse} {f : FmtV} {g : Wave → RMode → FVal → FVal}
    (he : exec i s = specialWord op i u f s g) : TrapsLegacy s c k w i (f.vd.toNat :: srcRegs f 1) u :=
  trapsLegacy_of_alu hr he (fun h => if_pos h) fun h n hn => by rw [if_neg (Bool.eq_false_iff.1 h), hn]
theorem trapsLegacy_of_sat (hr : s.runs c k w) {i : Instr} {u : LegacyUse} {regs : List Nat} {d : Nat} {g : Wave → Nat → W32} {m : Wave → Nat}
    (he : exec i s = satWord i s u regs d g m) : TrapsLegacy s c k w i (d :: regs) u := by
  unfold satWord at he
  refine ⟨fun hi h => ?_, fun hi h n hn => ?_⟩
  · rw [he, sysWord_eq hr hi, if_pos h]; rfl
  · rw [← w.legacy_eq_lowestRequest] at hn
    rw [he, sysWord_eq hr hi, if_neg (Bool.eq_false_iff.1 h), hn]; rfl

/-- A mask run that fits does not trap (R158). -/
theorem Wave.maskRun_fits {d : Nat} (hm : d + w.beats ≤ 104 ∨ d = 120) : ¬ (!w.maskRunOk d) = true := by
  simp only [Wave.maskRunOk, Bool.not_eq_true', Bool.or_eq_false_iff, decide_eq_false_iff_not]
  omega
theorem trapsRange_of_mask (hr : s.runs c k w) {i : Instr} {regs : List Nat} {d : Nat} {p : Wave → Nat → Bool}
    (he : exec i s = maskWord i s regs d p) (hm : d + w.beats ≤ 104 ∨ d = 120) : TrapsRange s c k w i regs :=
  trapsRange_of_alu hr he fun h => (if_neg (Wave.maskRun_fits hm)).trans (if_pos h)
theorem trapsLegacy_of_mask (hr : s.runs c k w) {i : Instr} {regs : List Nat} {d : Nat} {p : Wave → Nat → Bool}
    (he : exec i s = fltMaskWord i s regs d p) (hm : d + w.beats ≤ 104 ∨ d = 120) : TrapsLegacy s c k w i regs {} :=
  trapsLegacy_of_alu hr he (fun h => (if_neg (Wave.maskRun_fits hm)).trans (if_pos h)) fun h n hn => by
    rw [if_neg (Wave.maskRun_fits hm), if_neg (Bool.eq_false_iff.1 h), hn]
end

/-! ### The words that name more than their shape says -/

/-- LMERGE's scalar run is in range. -/
theorem lmerge_fits {w : Wave} (f : FmtV) (hd : f.fn.toNat % 2 = 1 → w.bins f.c = 0 ∨ f.vd.toNat + w.bins f.c ≤ 104) :
    ¬ (f.fn.getLsbD 0 && decide (0 < w.bins f.c) && !decide (f.vd.toNat + w.bins f.c - 1 ≤ 103)) = true := by
  simp only [BitVec.getLsbD, Nat.testBit_eq_decide_div_mod_eq, Bool.and_eq_true, decide_eq_true_eq, Bool.not_eq_true', decide_eq_false_iff_not]
  omega
/-- CVTFF is a word of FP16 where one of its formats is (R176). -/
theorem cvtff_fp16 (fn : BitVec 4) : (decide ((cvtffFmts fn.toNat).1 = .f16) || decide ((cvtffFmts fn.toNat).2 = .f16)) = decide (fn ≠ 1 ∧ fn ≠ 3) := by
  revert fn; decide
theorem fn_toNat_eq_zero (fn : BitVec 4) : decide (fn.toNat = 0) = decide (fn = 0) := by
  revert fn; decide

section
variable {s : State} {c k : Nat} {w : Wave} (hr : s.runs c k w) (f : FmtV)
include hr

theorem vsel_range (hc : 256 ≤ f.c.toNat → f.c.toNat < 384 → f.c.toNat - 256 + w.beats - 1 ≤ 127) :
    TrapsRange s c k w (.vsel f) (f.vd.toNat :: srcRegs f 3) := by
  have hfits : ¬ (selScalar f.c && !decide (f.c.toNat - 256 + w.beats - 1 ≤ 127)) = true := by
    simpa [selScalar] using hc
  exact trapsRange_of_alu hr (exec_vsel s f) fun h => (if_neg hfits).trans (if_pos h)
theorem lred_legacy (hf : 8 ≤ f.fn.toNat) : TrapsLegacy s c k w (.lred f) (srcRegs f 1) {} :=
  trapsLegacy_of_alu hr (exec_lred s f) (fun h => if_pos h) fun h n hn => by
    rw [if_neg (Bool.eq_false_iff.1 h), Wave.laneLegacy, if_pos (decide_eq_true hf), hn]
theorem lscan_legacy (hf : 8 ≤ f.fn.toNat) : TrapsLegacy s c k w (.lscan f) (f.vd.toNat :: srcRegs f 1) {} :=
  trapsLegacy_of_alu hr (exec_lscan s f) (fun h => if_pos h) fun h n hn => by
    rw [if_neg (Bool.eq_false_iff.1 h), Wave.laneLegacy, if_pos (decide_eq_true hf), hn]
theorem lhist_legacy (hf : f.fn = 1) : TrapsLegacy s c k w (.lhist f) (f.vd.toNat :: run f.vd.toNat (w.bins f.c) ++ srcRegs f 2) {} :=
  trapsLegacy_of_alu hr (exec_lhist s f) (fun h => if_pos h) fun h n hn => by
    dsimp only; rw [if_neg (Bool.eq_false_iff.1 h), Wave.laneLegacy, if_pos (decide_eq_true hf), hn]

theorem lmerge_range (hd : f.fn.toNat % 2 = 1 → w.bins f.c = 0 ∨ f.vd.toNat + w.bins f.c ≤ 104) :
    TrapsRange s c k w (.lmerge f) (f.a.toNat :: run f.a.toNat (w.bins f.c)) :=
  trapsRange_of_alu hr (exec_lmerge s f) fun h => (if_neg (lmerge_fits f hd)).trans (if_pos h)
theorem lmerge_legacy (hd : f.fn.toNat % 2 = 1 → w.bins f.c = 0 ∨ f.vd.toNat + w.bins f.c ≤ 104) (hf : 2 ≤ f.fn.toNat) :
    TrapsLegacy s c k w (.lmerge f) (f.a.toNat :: run f.a.toNat (w.bins f.c)) {} :=
  trapsLegacy_of_alu hr (exec_lmerge s f) (fun h => (if_neg (lmerge_fits f hd)).trans (if_pos h)) fun h n hn => by
    dsimp only; rw [if_neg (lmerge_fits f hd), if_neg (Bool.eq_false_iff.1 h), Wave.laneLegacy, if_pos (decide_eq_true hf), hn]

theorem cvtff_legacy : TrapsLegacy s c k w (.cvtff f) (f.vd.toNat :: srcRegs f 1) { fp16 := decide (f.fn ≠ 1 ∧ f.fn ≠ 3) } := by
  rw [← cvtff_fp16]
  exact trapsLegacy_of_flt hr (exec_cvtff s f)
theorem cvtpk_legacy : TrapsLegacy s c k w (.cvtpk f) (f.vd.toNat :: srcRegs f 2) { fp16 := decide (f.fn = 0) } := by
  rw [← fn_toNat_eq_zero]
  exact trapsLegacy_of_sat hr (exec_cvtpk s f)
theorem cvtunp_legacy : TrapsLegacy s c k w (.cvtunp f) (f.vd.toNat :: srcRegs f 2) { fp16 := decide (f.fn = 0) } := by
  rw [← fn_toNat_eq_zero]
  exact trapsLegacy_of_flt hr (exec_cvtunp s f)
end

/-- Settles O21: each word is of a shape that tests its registers and then the requests, but for the few whose run or requests are their own. -/
theorem rangeAndLegacyTraps : Obligations.RangeAndLegacyTraps := by
  unfold Obligations.RangeAndLegacyTraps
  intro s c k w hr fp lowest range flt maskRun
  refine ⟨fun f => ?_, fun f => ?_⟩
  · intro d R S n half pack
    refine ⟨?_, ?_, vsel_range hr f, ?_, ?_, ?_, ?_, ?_, lhist_legacy hr f, ?_⟩
    · simp only [List.forall_mem_cons, List.not_mem_nil, false_implies, implies_true, and_true]
      and_intros <;> exact trapsRange_of_alu hr rfl fun h => if_pos h
    · exact fun hm => ⟨trapsRange_of_mask hr rfl hm, trapsRange_of_mask hr rfl hm, trapsLegacy_of_mask hr rfl hm⟩
    · simp only [List.forall_mem_cons, List.not_mem_nil, false_implies, implies_true, and_true]
      refine ⟨?_, ?_, ?_, ?_, ?_, ?_, ?_, ?_, ?_, ?_, ?_, ?_, ?_, ?_, ?_, ?_, ?_, cvtff_legacy hr f, cvtpk_legacy hr f, cvtunp_legacy hr f,
        trapsLegacy_of_sat hr (exec_cvtqb s f), trapsLegacy_of_special hr (exec_frcp s f), trapsLegacy_of_special hr (exec_frsq s f),
        trapsLegacy_of_special hr (exec_fsqrt s f), trapsLegacy_of_special hr (exec_fexp2 s f), trapsLegacy_of_special hr (exec_flog2 s f),
        trapsLegacy_of_special hr (exec_fsin s f), trapsLegacy_of_special hr (exec_fcos s f), trapsLegacy_of_special hr (exec_ftanh s f),
        ?_⟩ <;> exact trapsLegacy_of_flt hr rfl
    · exact trapsRange_of_alu hr rfl fun h => if_pos h
    · exact trapsRange_of_alu hr rfl fun h => if_pos h
    · exact trapsRange_of_alu hr rfl fun h => if_pos h
    · exact fun hf => ⟨lred_legacy hr f hf, lscan_legacy hr f hf⟩
    · exact fun hd => ⟨lmerge_range hr f hd, lmerge_legacy hr f hd⟩
  · intro R
    refine ⟨?_, ?_, ?_, fun hm => ⟨trapsRange_of_mask hr rfl hm, trapsLegacy_of_mask hr rfl hm⟩⟩
    · simp only [List.forall_mem_cons, List.not_mem_nil, false_implies, implies_true, and_true]
      and_intros <;> exact trapsRange_of_alu hr rfl fun h => if_pos h
    · exact trapsRange_of_alu hr rfl fun h => if_pos h
    · simp only [List.forall_mem_cons, List.not_mem_nil, false_implies, implies_true, and_true]
      refine ⟨?_, ?_, ?_, ?_, ?_, ?_⟩ <;> exact trapsLegacy_of_flt hr rfl

end Sys2Proof.Machine
end

section
/-! SUPPORT. What a read at the homes leaves of the memories (R275, R328, R419), the record and the delivery of a trap (R140, R437–R440), and
the proof of O18. -/

namespace Sys2Proof.Machine

/-! ### The stores beside the home slices -/

/-- The memories of the device without the home slices' view, its backing data, its lines and its replicas. -/
def MemSys.besideHomes (m : MemSys) : MemSys := { m with home := [], dram := [], l2 := [], replicas := [] }
theorem MemSys.besideHomes_eq_iff {m m' : MemSys} : m.besideHomes = m'.besideHomes ↔ m.cols = m'.cols ∧ m.scratch = m'.scratch
    ∧ m.rows = m'.rows ∧ m.chip = m'.chip ∧ m.acc = m'.acc ∧ m.bad = m'.bad := by simp [MemSys.besideHomes]

@[simp] theorem State.l2Evict_besideHomes (s : State) (line : Nat) : (s.l2Evict line).mem.besideHomes = s.mem.besideHomes := by
  unfold State.l2Evict
  split
  · split <;> rfl
  · rfl
@[simp] theorem State.sliceTrim_besideHomes (s : State) (h spare : Nat) : (s.sliceTrim h spare).mem.besideHomes = s.mem.besideHomes :=
  State.sliceTrim_same (fun u => u.mem.besideHomes) State.l2Evict_besideHomes s h spare
@[simp] theorem State.fill_besideHomes (s : State) (line : Nat) : (s.fill line).mem.besideHomes = s.mem.besideHomes := by
  cases h : s.l2line line with
  | some x => rw [State.fill_of_some h]
  | none =>
    obtain ⟨u, hm, -, -, e⟩ := State.fill_of_none h
    rw [e, ← hm]; exact State.sliceTrim_besideHomes ..
@[simp] theorem State.dropReplicas_besideHomes (s : State) (line : Nat) : (s.dropReplicas line).mem.besideHomes = s.mem.besideHomes := by
  unfold State.dropReplicas
  refine (foldl_same (fun u => u.mem.besideHomes) (fun u c => ?_) _ _).trans ?_
  · dsimp only; split <;> rfl
  · split <;> rfl
@[simp] theorem State.combine_besideHomes (s : State) (unit : Nat) (p : Partial) : (s.combine unit p).mem.besideHomes = s.mem.besideHomes := rfl
/-- The partials of a recall are combined at the home alone (R328). -/
@[simp] theorem State.recallFrom_besideHomes (s : State) (line : Nat) (cs : List Nat) :
    (s.recallFrom line cs).mem.besideHomes = s.mem.besideHomes := by
  unfold State.recallFrom
  split
  · rfl
  · extract_lets s₁ words s₂ s₃
    have h₁ : s₁.mem.besideHomes = s.mem.besideHomes := by simp [s₁]
    have h₂ : s₂.mem.besideHomes = s.mem.besideHomes := by
      refine (foldl_same (fun u => u.mem.besideHomes) (fun u w => ?_) _ _).trans h₁
      dsimp only; split
      · rfl
      · rw [State.bumpSeq_mem]
        exact foldl_same (fun u => u.mem.besideHomes) (fun v (up : Nat × Partial) => State.combine_besideHomes v up.1 up.2) _ _
    have h₃ : s₃.mem.besideHomes = s.mem.besideHomes :=
      (foldl_same (fun u => u.mem.besideHomes) (fun u c => by rw [State.dropCopy_mem]) _ _).trans h₂
    split
    · exact h₃
    · exact h₃
@[simp] theorem State.homeTouch_besideHomes (s : State) (line : Nat) : (s.homeTouch line).mem.besideHomes = s.mem.besideHomes := by
  simp [State.homeTouch, State.recall]

/-! ### Reads at the homes -/

/-- `t` is `s` after reads at the homes: no memory beside the homes has changed, and where no cluster held an update-only copy none does and the
homes' bytes are as they were. -/
structure State.ReadsHomes (s t : State) : Prop where
  beside : t.mem.besideHomes = s.mem.besideHomes
  home : (∀ l, s.updateOnly l = []) → (∀ l, t.updateOnly l = []) ∧ t.mem.home = s.mem.home

namespace State.ReadsHomes

theorem same (s : State) : s.ReadsHomes s := ⟨rfl, fun h => ⟨h, rfl⟩⟩

section
variable {r s : State} (h : r.ReadsHomes s)
include h

/-- A change of neither the memories nor the clusters' copies. -/
theorem of_sameLines {t : State} (hm : t.mem = s.mem) (hl : s.SameLines t) : r.ReadsHomes t :=
  ⟨by rw [hm]; exact h.beside, fun hr => ⟨fun _ => hl.updateOnly ((h.home hr).1 _), by rw [hm]; exact (h.home hr).2⟩⟩
theorem count (dom inst idx n : Nat) : r.ReadsHomes (s.count dom inst idx n) := h.of_sameLines rfl fun _ => rfl
theorem setDie (d : Nat) (x : Die) : r.ReadsHomes (s.setDie d x) := h.of_sameLines rfl fun _ => rfl

/-- A read recalls the update-only copies of its line alone (R275, R328). -/
theorem homeTouch (line : Nat) : r.ReadsHomes (s.homeTouch line) := by
  refine ⟨(State.homeTouch_besideHomes ..).trans h.beside, fun hr => ?_⟩
  obtain ⟨hu, hh⟩ := h.home hr
  refine ⟨fun l => (State.SameLines.of_clusters (State.homeTouch_clusters (hu line))).updateOnly (hu l), Eq.trans ?_ hh⟩
  unfold State.homeTouch; rw [State.recall_of_nil (hu line)]
  exact State.fill_home ..

/-! ### The walks of a translation (R419) -/

theorem commitWalk (va : W64) : r.ReadsHomes (s.commitWalk va) := by
  unfold State.commitWalk
  split
  · exact foldl_pred (P := r.ReadsHomes) (fun _ l hu => hu.homeTouch l) _ h
  · exact h
theorem noteWalk (t : TlbEntry) : r.ReadsHomes (s.noteWalk t) := by
  unfold State.noteWalk
  split
  · exact h
  · exact h.of_sameLines rfl fun _ => rfl
theorem endWalk (d : Nat) (va : W64) : r.ReadsHomes (s.endWalk d va) := by
  have hc := h.commitWalk va
  unfold State.endWalk
  dsimp only; split
  · split
    · exact hc
    · exact (hc.setDie ..).noteWalk _
  · exact hc
theorem walkFill (d : Nat) (va : W64) : r.ReadsHomes (s.walkFill d va) := by
  unfold State.walkFill
  dsimp only; split
  · exact (h.endWalk d va).setDie ..
  · split
    · exact (h.count ..).endWalk d va
    · exact h.of_sameLines rfl fun _ => rfl
theorem touchShared (d : Nat) (va : W64) : r.ReadsHomes (s.touchShared d va) := by
  unfold State.touchShared
  split
  · exact h
  · split
    · exact h.count ..
    · exact (h.count ..).walkFill d va
theorem takeLeaf (cl : Nat) (va : W64) : r.ReadsHomes (s.takeLeaf cl va) := by
  unfold State.takeLeaf
  split
  · exact h.of_sameLines rfl (State.SameLines.setCluster (fun _ => rfl) rfl)
  · exact h
theorem touchTlb (cl : Nat) (va : W64) : r.ReadsHomes (s.touchTlb cl va) := by
  unfold State.touchTlb
  split
  · exact h
  · split
    · exact h.count ..
    · exact ((h.count ..).touchShared ..).takeLeaf cl va
theorem vectorRead (core cause : Nat) : r.ReadsHomes (s.vectorRead core cause) := by
  unfold State.vectorRead
  split
  · exact h
  · dsimp only; split
    · exact h.touchTlb ..
    · split
      · exact h.touchTlb ..
      · exact (h.homeTouch _).touchTlb ..

end
end State.ReadsHomes

/-! ### The record (R140, R437) -/

theorem bitAt_eq (b : Bool) (n : Nat) : bitAt b n = b.toNat * 2 ^ n := by cases b <;> simp [bitAt]
/-- A field of a word as a number, by its place and width. -/
theorem toNat_extractLsb' {n : Nat} (x : BitVec n) (k m : Nat) : (x.extractLsb' k m).toNat = x.toNat / 2 ^ k % 2 ^ m := by
  rw [BitVec.extractLsb'_toNat, Nat.shiftRight_eq_div_pow]
theorem getLsbD_eq_of_toNat {n : Nat} (x : BitVec n) (k : Nat) {b : Bool} (h : x.toNat / 2 ^ k % 2 = b.toNat) : x.getLsbD k = b := by
  rw [BitVec.getLsbD, Nat.testBit_eq_decide_div_mod_eq, h]; cases b <;> rfl
/-- What a trap writes to ESTAT fits the fields of R437. -/
structure Trap.Fits (t : Trap) (word : Nat) : Prop where
  sub : t.sub < 256
  word : word < 16
  level : t.level < 4
  origin : t.origin < 16
/-- ESTAT of a record as the sum of its fields (R437). -/
theorem Trap.estat_toNat {t : Trap} {word : Nat} (ht : t.Fits word) (inclause intrap : Bool) : (t.estat inclause word intrap).toNat
    = t.origin * 2 ^ 24 + t.more.toNat * 2 ^ 20 + inclause.toNat * 2 ^ 18 + intrap.toNat * 2 ^ 15 + t.level * 2 ^ 13
      + t.deferred.toNat * 2 ^ 12 + word * 2 ^ 8 + t.sub := by
  obtain ⟨hs, hw, hl, ho⟩ := ht
  have := t.more.toNat_lt; have := inclause.toNat_lt; have := intrap.toNat_lt; have := t.deferred.toNat_lt
  simp only [Trap.estat, bitAt_eq, BitVec.toNat_ofNat]
  omega
theorem Trap.estat_intrap {t : Trap} {word : Nat} (ht : t.Fits word) (inclause intrap : Bool) :
    (t.estat inclause word intrap).getLsbD 15 = intrap := by
  refine getLsbD_eq_of_toNat _ _ ?_
  have := t.deferred.toNat_lt; have := intrap.toNat_lt
  have hs := ht.sub; have hw := ht.word; have hl := ht.level
  rw [Trap.estat_toNat ht]
  omega
/-- The fields of ESTAT in a handler, the reserved ones zero (R437). -/
theorem Trap.estat_fields {t : Trap} {word : Nat} (ht : t.Fits word) (inclause : Bool) :
    let e := t.estat inclause word true
    (e.extractLsb' 0 8).toNat = t.sub ∧ (e.extractLsb' 8 4).toNat = word ∧ e.getLsbD 12 = t.deferred ∧ (e.extractLsb' 13 2).toNat = t.level
    ∧ e.getLsbD 15 = true ∧ e.getLsbD 16 = false ∧ e.getLsbD 17 = false ∧ e.getLsbD 18 = inclause ∧ e.getLsbD 19 = false
    ∧ e.getLsbD 20 = t.more ∧ (e.extractLsb' 21 3).toNat = 0 ∧ (e.extractLsb' 24 4).toNat = t.origin ∧ (e.extractLsb' 28 4).toNat = 0 := by
  intro e
  have he : e.toNat = _ := Trap.estat_toNat ht inclause true
  have field {k m v : Nat} (h : e.toNat / 2 ^ k % 2 ^ m = v) : (e.extractLsb' k m).toNat = v := (toNat_extractLsb' e k m).trans h
  have bit {k : Nat} {b : Bool} (h : e.toNat / 2 ^ k % 2 = b.toNat) : e.getLsbD k = b := getLsbD_eq_of_toNat e k h
  have := t.more.toNat_lt; have := inclause.toNat_lt; have := t.deferred.toNat_lt
  obtain ⟨hs, hw, hl, ho⟩ := ht
  rw [Bool.toNat_true] at he
  refine ⟨field ?_, field ?_, bit ?_, field ?_, bit ?_, bit ?_, bit ?_, bit ?_, bit ?_, bit ?_, field ?_, field ?_, field ?_⟩ <;>
    simp only [he, Bool.toNat_true, Bool.toNat_false] <;> omega

/-! ### The delivery (R439, R440) -/

/-- Delivery to a handler sets INTRAP in the record (R440). -/
theorem Trap.estatSet_intrap {t : Trap} {word : Nat} (ht : t.Fits word) (inclause : Bool) :
    estatSet (t.estat inclause word false) 15 = t.estat inclause word true := by
  have hclear : t.estat inclause word false &&& BitVec.twoPow 32 15 = 0 := by
    rw [BitVec.and_twoPow, Trap.estat_intrap ht]; rfl
  refine (BitVec.add_eq_or_of_and_eq_zero _ _ hclear).symm.trans (BitVec.eq_of_toNat_eq ?_)
  have := (t.estat inclause word true).isLt
  rw [Trap.estat_toNat ht] at this
  rw [BitVec.toNat_add, BitVec.toNat_twoPow, Trap.estat_toNat ht, Trap.estat_toNat ht]
  simp only [Bool.toNat_false, Bool.toNat_true] at this ⊢
  omega

/-- A wave as its handler finds it: the record written, INTRAP set, at the handler's header. -/
def Wave.handled (w : Wave) (t : Trap) (epc h : W64) (inclause : Bool) (word : Nat) : Wave :=
  { w.record t epc inclause word with estat := t.estat inclause word true, pc := h, trapPending := false }

theorem State.takeTrap_handler {s : State} {c k : Nat} {w : Wave} {t : Trap} {epc h : W64} {inclause : Bool} {word : Nat} (ht : t.Fits word)
    (hw : w.wins = []) (hd : w.dbgReq = false) (hi : w.estat.getLsbD 15 = false) (hc : t.cause < 32)
    (hv : s.vectorOf c t.cause = .handler h) :
    s.takeTrap c k w t epc inclause word = (s.vectorRead c t.cause).setWave c k (w.handled t epc h inclause word) := by
  have hcause : (w.record t epc inclause word).ecause.toNat = t.cause := Nat.mod_eq_of_lt (by omega : t.cause < 2 ^ 32)
  have hestat : (w.record t epc inclause word).estat = t.estat inclause word false := by
    simp only [Wave.record, Wave.closeWins_of_none hw, Wave.intrap, hi]
  have hintrap : (w.record t epc inclause word).intrap = false := by rw [Wave.intrap, hestat, Trap.estat_intrap ht]
  have hdbg : (w.record t epc inclause word).dbgReq = false := by simp only [Wave.record, Wave.closeWins_of_none hw, hd]
  unfold State.takeTrap State.deliver State.deliverAs
  simp [hcause, hdbg, hv, hintrap, hestat, Trap.estatSet_intrap ht, Wave.handled]

/-- The scalar registers of a wave with a record: the trap's lanes in fm0–fm2, and the others (R140). -/
theorem Wave.rawS_handled {w : Wave} (hw : w.wins = []) (t : Trap) (epc h : W64) (inclause : Bool) (word r : Nat) :
    (w.handled t epc h inclause word).rawS r = if r = 123 then ((t.fm &&& fullMask w.beats).extractLsb' 0 32)
      else if r = 124 then ((t.fm &&& fullMask w.beats).extractLsb' 32 32)
      else if r = 125 then ((t.fm &&& fullMask w.beats).extractLsb' 64 32) else w.rawS r := by
  simp only [Wave.rawS, Wave.handled, Wave.record, Wave.closeWins_of_none hw, Tbl.getD_put]
  grind

/-- Settles O18: the vector entry is read at its home alone, and the wave after it is the one its handler finds. -/
theorem trapEntersHandler : Obligations.TrapEntersHandler := by
  unfold Obligations.TrapEntersHandler
  intro s c k w t epc h inclause word hw hd hc hs hl ho hn hv hi s1
  have ht : t.Fits word := ⟨hs, hn, hl, ho⟩
  have hreads : s.ReadsHomes s1 := (State.ReadsHomes.same s).vectorRead c t.cause
  obtain ⟨hcols, hscratch, hrows, hchip, hacc, hbad⟩ := MemSys.besideHomes_eq_iff.1 hreads.beside
  refine ⟨State.vectorRead_waves .., State.vectorRead_streams .., State.vectorRead_teams .., hscratch, hchip, hacc, hrows, hcols, hbad,
    fun hu => (hreads.home hu).2, w.handled t epc h inclause word, State.takeTrap_handler ht hw hd hi hc hv, rfl, rfl, rfl, Nat.mod_eq_of_lt (by omega : t.cause < 2 ^ 32), rfl, ?_⟩
  obtain ⟨hsub, hword, hdef, hlevel, h15, h16, h17, h18, h19, h20, h21, horigin, h28⟩ := Trap.estat_fields ht inclause
  refine ⟨hsub, hword, hdef, hlevel, h15, h16, h17, h18, h19, h20, h21, horigin, h28, Wave.rawS_handled hw t epc h inclause word, ?_⟩
  simp only [Wave.handled, Wave.record, Wave.closeWins_of_none hw, and_self]

end Sys2Proof.Machine
end

section
/-! SUPPORT. The system registers (R138, R443–R446), and the proofs of O22 and O23. -/

namespace Sys2Proof.Machine

/-! ### SRD (R138, R445, R446) -/

theorem Wave.protTrap_of_none {w : Wave} (hw : w.wins = []) (sub : Nat) : w.protTrap sub = { cause := 0x06, sub := sub, fm := w.mask } := by
  unfold Wave.protTrap Wave.trapMask; rw [Wave.closeWins_of_none hw]

/-- No register has a number outside the ranges of R446. -/
theorem State.sysRead_unnamed (s : State) (c : Nat) (w : Wave) {n : Nat} (hn : (9 ≤ n ∧ n < 0x100) ∨ (0x108 ≤ n ∧ n < 0x110)
    ∨ (0x111 ≤ n ∧ n < 0x120) ∨ (0x121 ≤ n ∧ n < 0x8000) ∨ 0x800B ≤ n) : s.sysRead c w n = none := by
  unfold State.sysRead
  dsimp only; split
  rotate_right
  · rfl
  all_goals omega

/-- Settles O22: SRD makes one write of what the table of registers holds, or traps where the table has no row. -/
theorem systemRegisterReads : Obligations.SystemRegisterReads := by
  unfold Obligations.SystemRegisterReads
  intro s c k w f hr hw hi
  have he := (exec_srd s f).trans (sysWord_eq hr hi _)
  refine ⟨fun v hv => ⟨_, ?_, Wave.wrote_done s c k w [(f.sd.toNat, v)] [] hw (by simp)⟩, fun hn => ?_, rfl, rfl, rfl, rfl, rfl, rfl, rfl, rfl, rfl,
    ⟨rfl, rfl, rfl, rfl, rfl, rfl, rfl, rfl⟩, rfl, rfl, rfl, rfl, rfl, rfl, rfl, rfl, rfl, rfl, rfl, rfl, rfl,
    fun n => State.sysRead_unnamed s c w⟩
  · rw [he, hv]; rfl
  · rw [he, hn, Wave.protTrap_of_none hw]

/-! ### What SWR writes (R443, R445) -/

/-- The wave's own writable registers are those below 8. -/
theorem Wave.sysWrite_of_le {w : Wave} {n : Nat} (hn : 8 ≤ n) (v : W32) : w.sysWrite n v = none := by
  unfold Wave.sysWrite
  split
  rotate_right
  · rfl
  all_goals omega

/-- The end of a word that changes special registers of its wave alone. -/
theorem Wave.wrote_special (s : State) (c k : Nat) {w u : Wave} (hw : w.wins = []) (hu : u.wins = []) (hc : u.clause = w.clause)
    (hx : u.widx = w.widx) (hp : u.pc = w.pc) : WaveWrote s (s.setWave c k u.done) c k u [] [] w.done.spot := by
  rw [← Wave.done_spot_congr w u hw hu hc hx hp]
  exact Wave.wrote_done s c k u [] [] hu (by simp)
/-- A write of one of the wave's own registers sets IDEM_LOST (R60). -/
theorem exec_swr_own {s : State} {c k : Nat} {w u : Wave} {f : FmtY} (hr : s.runs c k w) (hi : (Instr.swr f).wf = true)
    (hu : w.sysWrite f.sreg.toNat (w.readS f.sa.toNat) = some u) : exec (.swr f) s = .next ((s.idemLost w.team).setWave c k u.done) := by
  rw [exec_swr, execSwr, sysWord_eq hr hi]; dsimp only; rw [hu]; rfl

theorem State.doneWave_eq {s : State} {c k : Nat} {w : Wave} (h : s.wave? c k = some w) : s.doneWave c k = s.setWave c k w.done := by
  unfold State.doneWave State.updWave Tbl.upd
  rw [show Tbl.get? s.waves (waveKey c k) = some w from h]; rfl

/-! ### MSRESUME (R443) -/

theorem State.msResume_running (s : State) (c : Nat) {m : Stream} (h : m.stopped = false) (v : Nat) : s.msResume c m v = s := by
  simp [State.msResume, h]
theorem State.msResume_poison (s : State) (c : Nat) {m : Stream} (h : m.stopped = true) (hp : m.poisonStop = true) :
    s.msResume c m 1 = s.setStream c { m with stopped := false, poisonStop := false, reported := false } := by
  simp [State.msResume, h, hp]
theorem State.msResume_again (s : State) (c : Nat) {m : Stream} (h : m.stopped = true) (hp : m.poisonStop = false) :
    s.msResume c m 1 = s.setStream c { m.resumeAt m.mfpc with stopped := false, reported := false } := by
  simp [State.msResume, h, hp]
theorem State.msResume_end (s : State) (c : Nat) {m : Stream} (h : m.stopped = true) : s.msResume c m 2 = s.endStream c m := by
  simp [State.msResume, h]

/-- A stream that issues again from an address stands there, at a word of its clause or at a header. -/
theorem Stream.resumeAt_spot (m : Stream) (h : W64) : ∃ cl n, m.resumeAt h = { m with mpc := h, clause := cl, widx := n, block := .none }
    ∧ (cl = none ∨ ∃ x, m.clause = some x ∧ cl = some x ∧ n + 1 = (h - x.addr).toNat / 8) := by
  unfold Stream.resumeAt
  split
  next x hx =>
    dsimp only; split
    next hin => exact ⟨_, _, rfl, .inr ⟨x, hx, hx, by omega⟩⟩
    · exact ⟨_, _, rfl, .inl rfl⟩
  · exact ⟨_, _, rfl, .inl rfl⟩
theorem State.stream?_endStream (s : State) (c : Nat) (m : Stream) : (s.endStream c m).stream? c
    = some { m with halted := true, stopped := false, dbg := false, dbgReq := false, block := .none, clause := none } := by
  unfold State.endStream State.stepStream
  extract_lets was t
  split
  · rw [State.stream?_of_streams (State.leaveBarriers_streams ..)]; exact State.stream?_setStream_self ..
  · exact State.stream?_setStream_self ..

/-! ### The registers of the stream (R443, R445, R446) -/

section
variable {s : State} {c k : Nat} {w : Wave} {f : FmtY}

/-- A wave without a stream writes no register but its own. -/
theorem exec_swr_noStream (hr : s.runs c k w) (hw : w.wins = []) (hi : (Instr.swr f).wf = true) (hn : 8 ≤ f.sreg.toNat)
    (hm : s.ownStream c w = none) : exec (.swr f) s = .next (s.trapAt c k w { cause := 0x06, fm := w.mask }) := by
  rw [exec_swr, execSwr, sysWord_eq hr hi]; dsimp only; rw [Wave.sysWrite_of_le hn, hm, Wave.protTrap_of_none hw]
theorem exec_swr_unnamed (hr : s.runs c k w) (hw : w.wins = []) (hi : (Instr.swr f).wf = true) (hn : 8 ≤ f.sreg.toNat)
    (hx : f.sreg.toNat ∉ [0x102, 0x103, 0x104, 0x107]) : exec (.swr f) s = .next (s.trapAt c k w { cause := 0x06, fm := w.mask }) := by
  simp only [List.mem_cons, List.not_mem_nil, or_false, not_or] at hx
  obtain ⟨h2, h3, h4, h7⟩ := hx
  cases hm : s.ownStream c w with
  | none => exact exec_swr_noStream hr hw hi hn hm
  | some m =>
    rw [exec_swr, execSwr, sysWord_eq hr hi]; dsimp only; rw [Wave.sysWrite_of_le hn, hm, Wave.protTrap_of_none hw]
    dsimp only; split
    any_goals contradiction
    rfl

/-- SWR ends with the rest of the device as `u`, IDEM_LOST set and its wave at the next word. -/
def SwrLeaves (f : FmtY) (s : State) (c k : Nat) (w : Wave) (u : State) : Prop :=
  ∃ t, exec (.swr f) s = .next t ∧ WaveWrote (u.idemLost w.team) t c k w [] [] w.done.spot
theorem swrLeaves_of_exec (hw : w.wins = []) {u : State} (he : exec (.swr f) s = .next ((u.setWave c k w.done).idemLost w.team)) :
    SwrLeaves f s c k w u :=
  ⟨_, he, Wave.wrote_done (u.idemLost w.team) c k w [] [] hw (by simp)⟩

variable (hr : s.runs c k w) (hw : w.wins = []) (hi : (Instr.swr f).wf = true) {m : Stream} (hm : s.ownStream c w = some m)
include hr hw hi hm

/-- The writable registers of the stream, MSRESUME aside. -/
theorem swrLeaves_setStream {m₁ : Stream} (hset : let v := w.readS f.sa.toNat
      (f.sreg.toNat = 0x102 ∧ m₁ = { m with mfault := v &&& 0xFFFF }) ∨ (f.sreg.toNat = 0x103 ∧ m₁ = { m with mfpc := putHalf m.mfpc false v })
        ∨ (f.sreg.toNat = 0x104 ∧ m₁ = { m with mfpc := putHalf m.mfpc true v })) :
    SwrLeaves f s c k w (s.setStream c m₁) := by
  refine swrLeaves_of_exec hw ?_
  obtain ⟨hn, rfl⟩ | ⟨hn, rfl⟩ | ⟨hn, rfl⟩ := hset
  all_goals
    rw [exec_swr, execSwr, sysWord_eq hr hi, hn]; dsimp only
    rw [Wave.sysWrite_of_le (by decide), hm]; rfl
/-- MSRESUME takes 1 and 2 alone. -/
theorem exec_swr_msresume_trap (hn : f.sreg.toNat = 0x107) (h1 : w.readS f.sa.toNat ≠ 1) (h2 : w.readS f.sa.toNat ≠ 2) :
    exec (.swr f) s = .next (s.trapAt c k w { cause := 0x06, fm := w.mask }) := by
  rw [exec_swr, execSwr, sysWord_eq hr hi, hn]; dsimp only; rw [Wave.sysWrite_of_le (by decide), hm]
  dsimp only; rw [if_neg (not_or.2 ⟨h1, h2⟩), Wave.protTrap_of_none hw]; rfl
omit hw in
theorem exec_swr_msresume (hn : f.sreg.toNat = 0x107) (hv : w.readS f.sa.toNat = 1 ∨ w.readS f.sa.toNat = 2) : exec (.swr f) s
    = .next (((s.msResume c m (w.readS f.sa.toNat).toNat).setWave c k w.done).idemLost w.team) := by
  have hwave : (s.msResume c m (w.readS f.sa.toNat).toNat).wave? c k = some w :=
    (State.wave?_of_waves (State.msResume_waves ..) c k).trans hr.2
  rw [exec_swr, execSwr, sysWord_eq hr hi, hn]; dsimp only; rw [Wave.sysWrite_of_le (by decide), hm]
  dsimp only; rw [if_pos hv, State.doneWave_eq hwave]; rfl
theorem swrLeaves_msresume (hn : f.sreg.toNat = 0x107) (hv : w.readS f.sa.toNat = 1 ∨ w.readS f.sa.toNat = 2) :
    SwrLeaves f s c k w (s.msResume c m (w.readS f.sa.toNat).toNat) :=
  swrLeaves_of_exec hw (exec_swr_msresume hr hi hm hn hv)

end

/-- Settles O23, a register at a time. -/
theorem systemRegisterWrites : Obligations.SystemRegisterWrites := by
  unfold Obligations.SystemRegisterWrites
  intro s c k w f hr hw hi v n own str trap lowHalf highHalf
  have own_of {u : Wave} (hu : w.sysWrite n v = some u) (hwins : u.wins = []) (hc : u.clause = w.clause) (hx : u.widx = w.widx)
      (hp : u.pc = w.pc) : own u :=
    ⟨_, exec_swr_own hr hi hu, Wave.wrote_special _ c k hw hwins hc hx hp⟩
  refine ⟨?_, ?_, ?_, ?_, ?_, ?_, ?_, ?_, fun m hm => ?_, fun hm hn => exec_swr_noStream hr hw hi hn hm, exec_swr_unnamed hr hw hi⟩
  iterate 8 exact fun hn => own_of (by rw [hn]; rfl) hw rfl rfl rfl
  have again (hn : n = 0x107) (hv : v = 1) : SwrLeaves f s c k w (s.msResume c m 1) := by
    have h := swrLeaves_msresume hr hw hi hm hn (.inl hv)
    rw [show w.readS f.sa.toNat = 1 from hv] at h; exact h
  have writes {m₁ : Stream} := swrLeaves_setStream (m₁ := m₁) hr hw hi hm
  refine ⟨fun hn => writes (.inl ⟨hn, rfl⟩), fun hn => writes (.inr (.inl ⟨hn, rfl⟩)), fun hn => writes (.inr (.inr ⟨hn, rfl⟩)),
    exec_swr_msresume_trap hr hw hi hm, ?_, ?_, ?_, ?_⟩
  · intro hn hv hs
    have h := swrLeaves_msresume hr hw hi hm hn hv
    rwa [State.msResume_running s c hs] at h
  · intro hn hv hs hp
    have h := again hn hv
    rwa [State.msResume_poison s c hs hp] at h
  · intro hn hv hs hp
    have h := again hn hv
    obtain ⟨cl, j, hspot, hcl⟩ := m.resumeAt_spot m.mfpc
    rw [State.msResume_again s c hs hp, hspot] at h
    refine ⟨_, h, rfl, rfl, rfl, rfl, ?_⟩
    obtain rfl | ⟨x, hmx, rfl, hj⟩ := hcl
    · exact .inl rfl
    · exact .inr ⟨x, hmx, rfl, hj⟩
  · intro hn hv hs
    have he := exec_swr_msresume hr hi hm hn (.inr hv)
    refine ⟨_, w.done, _, he, State.wave?_setWave_self .., rfl, w.done_s hw, w.done_v hw, ?_, rfl⟩
    rw [show w.readS f.sa.toNat = 2 from hv]
    exact (congrArg (State.stream? · c) (State.msResume_end s c hs)).trans (State.stream?_endStream s c m)

end Sys2Proof.Machine
end

section
/-! SUPPORT. The arithmetic of the integer words (R88, R94, R150–R163): what each shared computation of the model is in exact integers, which
minor functions a well-formed word may have, and pairs of 32-bit words as 64-bit values. -/

namespace Sys2Proof.Machine

/-! ### Wrapping, clamping and products (R88, R150, R163) -/

theorem wrap32_natCast (n : Nat) : wrap32 (n : Int) = BitVec.ofNat 32 n := BitVec.ofInt_natCast 32 n
theorem clampInt_eq {lo hi : Int} (h : lo ≤ hi) (x : Int) : clampInt lo hi x = max lo (min hi x) := by
  unfold clampInt
  split
  · omega
  · split <;> omega
theorem ires_signed (sat : Bool) (x : Int) :
    ires true sat x = BitVec.ofInt 32 (if sat then max (-2 ^ 31) (min (2 ^ 31 - 1) x) else x) := by
  cases sat
  · rfl
  · exact congrArg (BitVec.ofInt 32) (clampInt_eq (by decide) x)
theorem ires_unsigned (sat : Bool) (x : Int) :
    ires false sat x = BitVec.ofInt 32 (if sat then max 0 (min (2 ^ 32 - 1) x) else x) := by
  cases sat
  · rfl
  · exact congrArg (BitVec.ofInt 32) (clampInt_eq (by decide) x)
theorem ires_eq (p : Prop) [Decidable p] (sat : Bool) (x : Int) : ires (decide p) sat x = BitVec.ofInt 32 (if sat then
    (if p then max (-2 ^ 31) (min (2 ^ 31 - 1) x) else max 0 (min (2 ^ 32 - 1) x)) else x) := by
  by_cases h : p
  · simp only [h, decide_true, ires_signed, if_true]
  · simp only [h, decide_false, ires_unsigned, if_false]
theorem ival_eq (p : Prop) [Decidable p] (x : W32) : ival (decide p) x = if p then x.toInt else (x.toNat : Int) := by
  by_cases h : p <;> simp [h, ival, sval, zval]
theorem modified_eq (abs neg : Bool) (x : Int) : modified abs neg x = (if neg then -1 else 1) * (if abs then (x.natAbs : Int) else x) := by
  cases neg
  · simp [modified]
  · cases abs <;> simp [modified]
/-- The high half of a product is the exact product divided by 2^32, rounding down, in either type. -/
theorem mulHigh_eq_fdiv (sgn : Bool) (a b : W32) : mulHigh (!sgn) a b = BitVec.ofInt 32 (Int.fdiv (ival sgn a * ival sgn b) (2 ^ 32)) := by
  cases sgn
  · show wrap32 ((a.toNat * b.toNat / 2 ^ 32 : Nat) : Int) = BitVec.ofInt 32 (Int.fdiv ((a.toNat : Int) * (b.toNat : Int)) (2 ^ 32))
    rw [Int.fdiv_eq_ediv_of_nonneg _ (by decide)]
    norm_cast
  · rfl

/-! ### Shifts and rotation (R150) -/

theorem shl_eq_ofNat (a b : W32) : shl a b = BitVec.ofNat 32 (a.toNat * 2 ^ (b.toNat % 32)) :=
  BitVec.eq_of_toNat_eq (by simp [shl, Nat.shiftLeft_eq])
theorem shr_logical (a b : W32) : shr false a b = BitVec.ofNat 32 (a.toNat / 2 ^ (b.toNat % 32)) := by
  have hlt : a.toNat / 2 ^ (b.toNat % 32) < 2 ^ 32 := (Nat.div_le_self _ _).trans_lt a.isLt
  apply BitVec.eq_of_toNat_eq
  rw [BitVec.toNat_ofNat, Nat.mod_eq_of_lt hlt, ← Nat.shiftRight_eq_div_pow]
  rfl
theorem shr_arith (a b : W32) : shr true a b = BitVec.ofInt 32 (Int.fdiv a.toInt (2 ^ (b.toNat % 32))) := by
  rw [Int.fdiv_eq_ediv_of_nonneg _ (by positivity)]
  exact congrArg (BitVec.ofInt 32) (Int.shiftRight_eq_div_pow _ _)
theorem shr_eq (p : Prop) [Decidable p] (a b : W32) : shr (!decide p) a b = if p then BitVec.ofNat 32 (a.toNat / 2 ^ (b.toNat % 32))
    else BitVec.ofInt 32 (Int.fdiv a.toInt (2 ^ (b.toNat % 32))) := by
  by_cases h : p
  · simp only [h, decide_true, Bool.not_true, shr_logical, if_true]
  · simp only [h, decide_false, Bool.not_false, shr_arith, if_false]
theorem rotl_eq_or (a b : W32) : rotl a b = (a <<< (b.toNat % 32)) ||| (a >>> (32 - b.toNat % 32)) := by
  rw [rotl, BitVec.rotateLeft_def, Nat.mod_mod]

/-! ### Bit fields and counts (R152, R153) -/

theorem bfx_eq (p : Prop) [Decidable p] (a : W32) (o v : Nat) : bfx (decide p) a o v =
    let n := min v (32 - o)
    let fld := a.toNat / 2 ^ o % 2 ^ n
    if p ∧ 0 < n ∧ 2 ^ (n - 1) ≤ fld then BitVec.ofInt 32 ((fld : Int) - 2 ^ n) else BitVec.ofNat 32 fld := by
  simp only [bfx, wrap32, Bool.and_eq_true, decide_eq_true_eq, and_assoc, Nat.cast_pow, Nat.cast_ofNat]
  rfl

/-- The population count counts the positions of the set bits. -/
theorem popc_eq_length_filter (n x : Nat) : popc n x = ((List.range n).filter x.testBit).length := by
  induction n generalizing x with
  | zero => rfl
  | succ n ih =>
    have htail : ((List.range n).map Nat.succ).filter x.testBit = ((List.range n).filter (x / 2).testBit).map Nat.succ := by
      rw [List.filter_map]
      congr 2
      exact funext fun j => Nat.testBit_succ x j
    rw [popc, ih, List.range_succ_eq_map, List.filter_cons, htail]
    rcases Nat.mod_two_eq_zero_or_one x with h | h <;> simp [Nat.testBit_zero, h, Nat.add_comm]
/-- The leading zeros of a word that is not 0 lie above its highest set bit. -/
theorem clzN_zero_or_bounds (n x : Nat) (hx : x < 2 ^ n) :
    (x = 0 ∧ clzN n x = n) ∨ (clzN n x < n ∧ 2 ^ (n - 1 - clzN n x) ≤ x ∧ x < 2 ^ (n - clzN n x)) := by
  induction n with
  | zero => exact .inl ⟨by omega, rfl⟩
  | succ n ih =>
    have hdiv := Nat.div_add_mod x (2 ^ n)
    rw [clzN]
    split
    · next hbit =>
      refine .inr ⟨by omega, ?_, hx⟩
      by_contra hlt
      rw [Nat.div_eq_of_lt (by simpa using hlt)] at hbit
      omega
    · next hbit =>
      have hlow : x < 2 ^ n := by
        by_contra hge
        have h1 : x / 2 ^ n = 1 := Nat.div_eq_of_lt_le (by omega) (by rw [pow_succ] at hx; omega)
        omega
      obtain ⟨h0, hn⟩ | ⟨hn, hlo, hhi⟩ := ih hlow
      · exact .inl ⟨h0, by omega⟩
      · refine .inr ⟨by omega, ?_, ?_⟩
        · rwa [show n + 1 - 1 - (1 + clzN n x) = n - 1 - clzN n x by omega]
        · rwa [show n + 1 - (1 + clzN n x) = n - clzN n x by omega]
/-- The trailing zeros of a word that is not 0 lie below its lowest set bit. -/
theorem ctzN_zero_or_lowest (n x : Nat) (hx : x < 2 ^ n) :
    (x = 0 ∧ ctzN n x = n) ∨ (ctzN n x < n ∧ x % 2 ^ ctzN n x = 0 ∧ x / 2 ^ ctzN n x % 2 = 1) := by
  induction n generalizing x with
  | zero => exact .inl ⟨by omega, rfl⟩
  | succ n ih =>
    rw [ctzN]
    split
    · next hodd => exact .inr ⟨by omega, Nat.mod_one x, by simpa using hodd⟩
    · next heven =>
      obtain ⟨h0, hn⟩ | ⟨hn, hlow, hbit⟩ := ih (x / 2) (by rw [pow_succ] at hx; omega)
      · exact .inl ⟨by omega, by omega⟩
      · refine .inr ⟨by omega, ?_, ?_⟩
        · rw [Nat.pow_add, pow_one, Nat.mod_mul, hlow]; omega
        · rwa [Nat.pow_add, pow_one, ← Nat.div_div_eq_div_mul]

/-- The three counts of R153 in 32 bits, by what they say of the word's bits. -/
theorem bitCount_spec (fn : BitVec 4) (x : W32) :
    (fn = 0 → (bitCount fn.toNat x).toNat = ((List.range 32).filter x.getLsbD).length)
    ∧ (fn = 1 → (x = 0 ∧ bitCount fn.toNat x = 32) ∨ ((bitCount fn.toNat x).toNat < 32
        ∧ 2 ^ (31 - (bitCount fn.toNat x).toNat) ≤ x.toNat ∧ x.toNat < 2 ^ (32 - (bitCount fn.toNat x).toNat)))
    ∧ (fn = 2 → (x = 0 ∧ bitCount fn.toNat x = 32) ∨ ((bitCount fn.toNat x).toNat < 32
        ∧ x.toNat % 2 ^ (bitCount fn.toNat x).toNat = 0 ∧ x.toNat / 2 ^ (bitCount fn.toNat x).toNat % 2 = 1)) := by
  have hzero (h : x.toNat = 0) : x = 0 := BitVec.eq_of_toNat_eq h
  have hsmall {n : Nat} (h : n ≤ 32) : (BitVec.ofNat 32 n).toNat = n := by
    rw [BitVec.toNat_ofNat, Nat.mod_eq_of_lt (by omega)]
  refine ⟨?_, ?_, ?_⟩
  · rintro rfl
    have hle : ((List.range 32).filter x.getLsbD).length ≤ 32 := (List.length_filter_le _ _).trans_eq List.length_range
    show (BitVec.ofNat 32 (popc 32 x.toNat)).toNat = _
    rw [popc_eq_length_filter]
    exact hsmall hle
  · rintro rfl
    show (_ ∧ BitVec.ofNat 32 (clzN 32 x.toNat) = _) ∨ ((BitVec.ofNat 32 (clzN 32 x.toNat)).toNat < 32
      ∧ 2 ^ (31 - (BitVec.ofNat 32 (clzN 32 x.toNat)).toNat) ≤ _ ∧ _ < 2 ^ (32 - (BitVec.ofNat 32 (clzN 32 x.toNat)).toNat))
    obtain ⟨h0, hn⟩ | ⟨hn, hb⟩ := clzN_zero_or_bounds 32 x.toNat x.isLt
    · exact .inl ⟨hzero h0, by rw [hn]; rfl⟩
    · rw [hsmall hn.le]
      exact .inr ⟨hn, hb⟩
  · rintro rfl
    show (_ ∧ BitVec.ofNat 32 (ctzN 32 x.toNat) = _) ∨ ((BitVec.ofNat 32 (ctzN 32 x.toNat)).toNat < 32
      ∧ _ % 2 ^ (BitVec.ofNat 32 (ctzN 32 x.toNat)).toNat = _ ∧ _ / 2 ^ (BitVec.ofNat 32 (ctzN 32 x.toNat)).toNat % 2 = _)
    obtain ⟨h0, hn⟩ | ⟨hn, hb⟩ := ctzN_zero_or_lowest 32 x.toNat x.isLt
    · exact .inl ⟨hzero h0, by rw [hn]; rfl⟩
    · rw [hsmall hn.le]
      exact .inr ⟨hn, hb⟩

/-! ### Division (R94, R151) -/

theorem divide_quotient (unsigned : Bool) (a b : W32) : divide unsigned false a b = if b = 0 then 0xFFFFFFFF
    else BitVec.ofInt 32 (if unsigned then ((a.toNat / b.toNat : Nat) : Int) else a.toInt.tdiv b.toInt) := by
  cases unsigned <;> rfl
theorem divide_remainder (unsigned : Bool) (a b : W32) : divide unsigned true a b = if b = 0 then a
    else BitVec.ofInt 32 (if unsigned then ((a.toNat % b.toNat : Nat) : Int) else a.toInt.tmod b.toInt) := by
  cases unsigned <;> rfl

/-! ### Bytes and nibbles (R161, R162) -/

theorem extractByte_eq_ofNat {n : Nat} (x : BitVec n) (j : Nat) : x.extractLsb' (8 * j) 8 = BitVec.ofNat 8 (x.toNat / 256 ^ j) := by
  apply BitVec.eq_of_toNat_eq
  rw [BitVec.extractLsb'_toNat, BitVec.toNat_ofNat, Nat.shiftRight_eq_div_pow, pow_mul]
  rfl
theorem byteZ_eq_extract (x : W32) (j : Nat) : byteZ x j = ((x.extractLsb' (8 * j) 8).toNat : Int) := by
  rw [extractByte_eq_ofNat, BitVec.toNat_ofNat]; rfl
theorem byteS_eq_extract (x : W32) (j : Nat) : byteS x j = (x.extractLsb' (8 * j) 8).toInt := by
  rw [extractByte_eq_ofNat]; rfl
/-- A byte of VPERM: the nibble names a byte of the two words, with the second above the first, or a constant. -/
theorem permByte_eq (a b c : W32) (j : Nat) : permByte a b c j =
    let m := (c.extractLsb' (4 * j) 4).toNat
    if m < 8 then (b ++ a).extractLsb' (8 * m) 8 else if m = 15 then (0xFF : BitVec 8) else 0 := by
  have hm : (c.extractLsb' (4 * j) 4).toNat = c.toNat / 16 ^ j % 16 := by
    rw [BitVec.extractLsb'_toNat, Nat.shiftRight_eq_div_pow, pow_mul]
    rfl
  dsimp only
  rw [hm, extractByte_eq_ofNat]
  rfl

/-! ### Pairs (R71, R154, R163) -/

theorem append_eq_ofNat (hi lo : W32) : hi ++ lo = BitVec.ofNat 64 (lo.toNat + 2 ^ 32 * hi.toNat) := by
  apply BitVec.eq_of_toNat_eq
  rw [BitVec.toNat_append, BitVec.toNat_ofNat, ← Nat.shiftLeft_add_eq_or_of_lt lo.isLt, Nat.shiftLeft_eq]
  omega
theorem Wave.readS64_eq_ofNat (w : Wave) (r : Nat) :
    w.readS64 r = BitVec.ofNat 64 ((w.readS r).toNat + 2 ^ 32 * (w.readS (r + 1)).toNat) := append_eq_ofNat _ _
/-- The second operand of a pair word. -/
theorem Wave.sop64_eq (w : Wave) (b : SOp) : w.sop64 b = match b with
    | .reg r => BitVec.ofNat 64 ((w.readS r.toNat).toNat + 2 ^ 32 * (w.readS (r.toNat + 1)).toNat)
    | .imm v => BitVec.ofInt 64 v.toInt := by
  cases b with
  | reg r => exact w.readS64_eq_ofNat _
  | imm v => rfl
/-- An extended word is its value in the type it is extended from. -/
theorem ext64_eq (p : Prop) [Decidable p] (x : W32) : ext64 (decide p) x = BitVec.ofInt 64 (if p then x.toInt else (x.toNat : Int)) := by
  by_cases h : p
  · simp only [h, ext64]; rfl
  · simp only [h, ext64, decide_false, if_false, Bool.false_eq_true, BitVec.ofInt_natCast, BitVec.ofNat_toNat]

/-! ### Minor functions (R104, R105) -/

section
variable {fn : BitVec 4}

theorem fn_eq_one_iff (h : fn.toNat < 2) : fn = 1 ↔ ¬ fn = 0 := by revert fn; decide
theorem fn_bit0_eq (h : fn.toNat < 2) : fn.getLsbD 0 = !decide (fn = 0) := by revert fn; decide
theorem fn_immBit0_eq (h : 8 ≤ fn.toNat ∧ fn.toNat < 10) : fn.getLsbD 0 = !decide (fn = 8) := by revert fn; decide
theorem fn_bit0_eq_odd (fn : BitVec 4) : fn.getLsbD 0 = decide (fn.toNat % 2 = 1) := by revert fn; decide
theorem fn_bit1_eq (h : fn.toNat < 4) : fn.getLsbD 1 = !decide (fn.toNat < 2) := by revert fn; decide
theorem fn_cases_three (h : fn.toNat < 3) : fn = 0 ∨ fn = 1 ∨ fn = 2 := by revert fn; decide
end

theorem sWord_fn {f : FmtS} {n : Nat} (h : sWord f n = true) : f.fn.toNat < n := by
  simp only [sWord, Bool.and_eq_true, decide_eq_true_eq] at h; exact h.2
theorem vForm_fn {f : FmtV} {n srcs : Nat} {sat negA negB abs rnd : Bool} (h : vForm f n srcs sat negA negB abs rnd = true) :
    f.fn.toNat < n := by
  simp only [vForm, Bool.and_eq_true, decide_eq_true_eq, and_assoc] at h; exact h.1
theorem vInt_fn {f : FmtV} {n srcs : Nat} {sat neg : Bool} (h : vInt f n srcs sat neg = true) : f.fn.toNat < n := by
  simp only [vInt, Bool.and_eq_true, and_assoc] at h; exact vForm_fn h.2.1
theorem viInt_fn {f : FmtVI} {n : Nat} (h : viInt f n = true) : 8 ≤ f.fn.toNat ∧ f.fn.toNat < 8 + n := by
  simp only [viInt, viForm, Bool.and_eq_true, decide_eq_true_eq, and_assoc] at h; exact ⟨h.2.1, h.2.2.1⟩

end Sys2Proof.Machine
end

section
/-! SUPPORT. The scalar ALU words (R148–R154), and the proofs of O1 and O2. -/

namespace Sys2Proof.Machine

/-! ### The shapes of the scalar words -/

section
variable {s : State} {c k : Nat} {w : Wave} (hr : s.runs c k w) (hw : w.wins = [])
include hr hw

/-- A word on registers alone that makes the scalar writes `ss`. -/
theorem ends_of_writeSs {i : Instr} (hi : i.wf) {run : Wave → Except Trap Wave} (he : exec i s = aluWord i s run) {ss : List (Nat × W32)}
    (hrun : run w = .ok (w.writeSs ss)) : Ends i s c k w ss [] :=
  ends_of_alu hr hw hi he hrun (fun _ h => absurd h List.not_mem_nil) rfl
/-- A scalar word writes the value of its two operands. -/
theorem ends_of_scalar {i : Instr} {f : FmtS} (hi : i.wf) {g : W32 → W32 → W32} (he : exec i s = scalarWord i f s g) {x : W32}
    (hx : g (w.readS f.sa.toNat) (w.sop f.b) = x) : Ends i s c k w [(f.sd.toNat, x)] [] :=
  ends_of_writeSs hr hw hi he (by rw [hx]; rfl)
/-- A pair word writes the two halves of its value. -/
theorem ends_of_pair {i : Instr} {f : FmtS} (hi : i.wf) {g : Wave → W64} (he : exec i s = pairWord i f s g) {x : W64} (hx : g w = x) :
    Ends i s c k w [(f.sd.toNat, x.extractLsb' 0 32), (f.sd.toNat + 1, x.extractLsb' 32 32)] [] :=
  ends_of_writeSs hr hw hi he (by rw [hx]; rfl)

/-! ### Words that write SCC, and selection (R150) -/

theorem ends_sadd (f : FmtS) (hi : (Instr.sadd f).wf) :
    let t := (w.readS f.sa.toNat).toNat + (w.sop f.b).toNat + if f.fn = 2 ∧ w.scc ≠ 0 then 1 else 0
    Ends (.sadd f) s c k w ([(f.sd.toNat, BitVec.ofNat 32 t)] ++ if f.fn = 0 then [] else [(126, if 2 ^ 32 ≤ t then 1 else 0)]) [] := by
  refine ends_of_writeSs hr hw hi (exec_sadd s f) ?_
  by_cases h : f.fn = 0
  · simp only [h, if_true]; rfl
  · simp only [h, if_false, Wave.setScc, decide_eq_true_eq]; rfl
theorem ends_ssub (f : FmtS) (hi : (Instr.ssub f).wf) :
    let a := w.readS f.sa.toNat
    let b := w.sop f.b
    let cin := if f.fn = 2 ∧ w.scc ≠ 0 then 1 else 0
    Ends (.ssub f) s c k w ([(f.sd.toNat, BitVec.ofInt 32 ((a.toNat : Int) - b.toNat - (cin : Nat)))]
      ++ if f.fn = 0 then [] else [(126, if a.toNat < b.toNat + cin then 1 else 0)]) [] := by
  have hborrow (a b cin : Nat) : (a : Int) - b - cin < 0 ↔ a < b + cin := by omega
  have hcin (p : Prop) [Decidable p] : (if p then 1 else 0 : Int) = ((if p then 1 else 0 : Nat) : Int) := by split <;> rfl
  refine ends_of_writeSs hr hw hi (exec_ssub s f) ?_
  by_cases h : f.fn = 0
  · simp only [hcin, if_pos h]; rfl
  · simp only [hcin, if_neg h, Wave.setScc, decide_eq_true_eq, zval, hborrow]; rfl
theorem ends_ssel (f : FmtS) (hi : (Instr.ssel f).wf) :
    Ends (.ssel f) s c k w [(f.sd.toNat, if w.scc ≠ 0 then w.readS f.sa.toNat else w.sop f.b)] [] :=
  ends_of_writeSs hr hw hi (exec_ssel s f) (by rw [ite_not]; rfl)
end

/-! ### Minor functions of the scalar words -/

/-- A choice between two tests by the type is one choice by the test of that type. -/
theorem ite_of_type {α : Type} (p q r : Prop) [Decidable p] [Decidable q] [Decidable r] (x y : α) :
    (if (!decide p) = true then (if r then x else y) else if q then x else y) = if (if p then q else r) then x else y := by
  by_cases h : p
  · rw [if_neg (by simp [h])]
    exact if_congr (iff_of_eq (if_pos h).symm) rfl rfl
  · rw [if_pos (by simp [h])]
    exact if_congr (iff_of_eq (if_neg h).symm) rfl rfl

section
variable {f : FmtS} (h : sWord f 2 = true)
include h

theorem sWord_unsigned : decide (f.fn = 1) = !decide (f.fn = 0) := by
  rw [← decide_not, decide_eq_decide]; exact fn_eq_one_iff (sWord_fn h)
theorem mulHigh_of_sWord (a b : W32) : mulHigh (decide (f.fn = 1)) a b = if f.fn = 0 then BitVec.ofInt 32 (Int.fdiv (a.toInt * b.toInt) (2 ^ 32))
    else BitVec.ofNat 32 (a.toNat * b.toNat / 2 ^ 32) := by
  rw [sWord_unsigned h]
  by_cases h0 : f.fn = 0
  · simp only [h0, decide_true, if_true]; rfl
  · simp only [h0, decide_false, if_false]; exact wrap32_natCast _
theorem minI_of_sWord (a b : W32) :
    minI (decide (f.fn = 1)) a b = if (if f.fn = 0 then a.toInt ≤ b.toInt else a.toNat ≤ b.toNat) then a else b := by
  rw [sWord_unsigned h]
  exact ite_of_type (f.fn = 0) (a.toInt ≤ b.toInt) (a.toNat ≤ b.toNat) a b
theorem maxI_of_sWord (a b : W32) :
    maxI (decide (f.fn = 1)) a b = if (if f.fn = 0 then a.toInt ≥ b.toInt else a.toNat ≥ b.toNat) then a else b := by
  rw [sWord_unsigned h]
  exact ite_of_type (f.fn = 0) (a.toInt ≥ b.toInt) (a.toNat ≥ b.toNat) a b
end

/-! ### The statements -/

/-- The ten conditions of SCMP (R150). -/
theorem intCond_iff (a b : W32) :
    (intCond 0 a b ↔ a = b) ∧ (intCond 1 a b ↔ a ≠ b) ∧ (intCond 2 a b ↔ a.toInt < b.toInt) ∧ (intCond 3 a b ↔ b.toInt ≤ a.toInt)
    ∧ (intCond 4 a b ↔ a.toNat < b.toNat) ∧ (intCond 5 a b ↔ b.toNat ≤ a.toNat) ∧ (intCond 6 a b ↔ b.toInt < a.toInt)
    ∧ (intCond 7 a b ↔ b.toNat < a.toNat) ∧ (intCond 8 a b ↔ a.toInt ≤ b.toInt) ∧ (intCond 9 a b ↔ a.toNat ≤ b.toNat) :=
  ⟨decide_eq_true_iff, by simp [intCond], decide_eq_true_iff, decide_eq_true_iff, decide_eq_true_iff, decide_eq_true_iff, decide_eq_true_iff,
    decide_eq_true_iff, decide_eq_true_iff, decide_eq_true_iff⟩

/-- Settles O1: each scalar word computes its value by an equation of its shape. -/
theorem scalarArithmetic : Obligations.ScalarArithmetic := by
  unfold Obligations.ScalarArithmetic
  refine ⟨fun s c k w f hr hw => ?_, intCond_iff⟩
  refine ⟨ends_sadd hr hw f, ends_ssub hr hw f, fun hi => ?smul, fun hi => ?smulhi, fun hi => ?sand, fun hi => ?sor, fun hi => ?sxor,
    fun hi => ?sshl, fun hi => ?sshr, fun hi => ?srot, fun hi => ?scmp, ends_ssel hr hw f, fun hi => ?smov, fun hi => ?smin, fun hi => ?smax⟩
  case smul => exact ends_of_scalar hr hw hi (exec_smul s f) (BitVec.eq_of_toNat_eq (by simp))
  case smulhi => exact ends_of_scalar hr hw hi (exec_smulhi s f) (mulHigh_of_sWord hi _ _)
  case sand => exact ends_of_scalar hr hw hi (exec_sand s f) rfl
  case sor => exact ends_of_scalar hr hw hi (exec_sor s f) rfl
  case sxor => exact ends_of_scalar hr hw hi (exec_sxor s f) rfl
  case sshl => exact ends_of_scalar hr hw hi (exec_sshl s f) (shl_eq_ofNat _ _)
  case sshr => exact ends_of_scalar hr hw hi (exec_sshr s f) (by rw [sWord_unsigned hi, shr_eq])
  case srot => exact ends_of_scalar hr hw hi (exec_srot s f) (rotl_eq_or _ _)
  case scmp => exact ends_of_writeSs hr hw hi (exec_scmp s f) rfl
  case smov => exact ends_of_writeSs hr hw hi (exec_smov s f) rfl
  case smin => exact ends_of_scalar hr hw hi (exec_smin s f) (minI_of_sWord hi _ _)
  case smax => exact ends_of_scalar hr hw hi (exec_smax s f) (maxI_of_sWord hi _ _)

section
variable {s : State} {c k : Nat} {w : Wave} (hr : s.runs c k w) (hw : w.wins = [])
include hr hw

theorem ends_smad64 (f : FmtS) (hi : (Instr.smad64 f).wf) :
    let x := BitVec.ofNat 64 ((w.readS f.sd.toNat).toNat + 2 ^ 32 * (w.readS (f.sd.toNat + 1)).toNat)
      + if f.fn = 1 then BitVec.ofInt 64 ((w.readS f.sa.toNat).toInt * (w.sop f.b).toInt)
        else BitVec.ofNat 64 ((w.readS f.sa.toNat).toNat * (w.sop f.b).toNat)
    Ends (.smad64 f) s c k w [(f.sd.toNat, x.extractLsb' 0 32), (f.sd.toNat + 1, x.extractLsb' 32 32)] [] := by
  refine ends_of_pair hr hw hi (exec_smad64 s f) ?_
  rw [w.readS64_eq_ofNat, ext64_eq, ext64_eq, ← BitVec.ofInt_mul]
  by_cases h : f.fn = 1
  · simp only [h, if_true]
  · simp only [h, if_false, ← Nat.cast_mul, BitVec.ofInt_natCast]
theorem ends_sli (f : FmtS) (hi : (Instr.sli f).wf) :
    let pair := fun (x : W64) => [(f.sd.toNat, x.extractLsb' 0 32), (f.sd.toNat + 1, x.extractLsb' 32 32)]
    Ends (.sli f) s c k w (if f.fn = 0 then pair ((w.sop f.b).signExtend 64) else if f.fn = 1 then pair ((w.sop f.b).zeroExtend 64)
      else [(f.sd.toNat + 1, w.sop f.b)]) [] := by
  have hfn : f.fn = 0 ∨ f.fn = 1 ∨ f.fn = 2 := by
    simp only [wf_sli, Bool.and_eq_true, and_assoc] at hi
    exact fn_cases_three (sWord_fn hi.1)
  refine ends_of_writeSs hr hw hi (exec_sli s f) ?_
  obtain h | h | h := hfn <;> rw [h] <;> rfl
end

/-- Settles O2: fields and counts are computed by the shared functions of R152 and R153, pairs as 64-bit values. -/
theorem scalarFieldsAndPairs : Obligations.ScalarFieldsAndPairs := by
  unfold Obligations.ScalarFieldsAndPairs
  intro s c k w f hr hw
  refine ⟨fun hi => ?sbfx, fun hi => ?sbfi, fun hi => ?sbitc, fun hi => ?sadd64, fun hi => ?ssub64, ends_smad64 hr hw f, ends_sli hr hw f⟩
  case sbfx => exact ends_of_scalar hr hw hi (exec_sbfx s f) (bfx_eq (f.fn = 1) _ _ _)
  case sbfi => exact ends_of_writeSs hr hw hi (exec_sbfi s f) rfl
  case sbitc => exact ⟨_, ends_of_scalar hr hw hi (exec_sbitc s f) rfl, bitCount_spec f.fn _⟩
  case sadd64 => exact ends_of_pair hr hw hi (exec_sadd64 s f) (congrArg₂ (· + ·) (w.readS64_eq_ofNat _) (w.sop64_eq f.b))
  case ssub64 => exact ends_of_pair hr hw hi (exec_ssub64 s f) (congrArg₂ (· - ·) (w.readS64_eq_ofNat _) (w.sop64_eq f.b))

end Sys2Proof.Machine
end

section
/-! SUPPORT. The shapes of the vector integer words, their arithmetic (R155–R157), and the proof of O3. -/

namespace Sys2Proof.Machine

/-! ### Registers in range (R121) -/

theorem Wave.regRange_mono {w : Wave} {rs rs' : List Nat} (h : rs ⊆ rs') (hin : w.regRange rs' = false) : w.regRange rs = false := by
  unfold Wave.regRange at hin ⊢
  rw [List.any_eq_false] at hin ⊢
  exact fun r hr => hin r (h hr)
theorem srcRegs_subset (f : FmtV) (n : Nat) : srcRegs f n ⊆ srcRegs f 3 := by
  intro r hr
  simp only [srcRegs, List.mem_append, List.mem_ite_nil_right] at hr ⊢
  obtain (⟨-, h⟩ | ⟨-, h⟩) | ⟨-, h⟩ := hr
  · exact .inl (.inl ⟨by decide, h⟩)
  · exact .inl (.inr ⟨by decide, h⟩)
  · exact .inr ⟨by decide, h⟩
theorem Wave.regRange_of_inRange {w : Wave} {rs : List Nat} (h : rs.all (fun r => decide (r < w.vregs) && decide (r < 256)) = true) :
    w.regRange rs = false := by
  simp only [List.all_eq_true, Bool.and_eq_true, decide_eq_true_eq] at h
  simp only [Wave.regRange, List.any_eq_false, Bool.or_eq_true, decide_eq_true_eq]
  exact fun r hr => by have := h r hr; omega
/-- A register that a selector names lies below 256. -/
theorem selReg_lt {sel : Sel} {r : Nat} (h : r ∈ selReg sel) : r < 256 := by
  unfold selReg at h
  split at h
  · rw [List.mem_singleton] at h; omega
  · exact absurd h List.not_mem_nil
theorem srcRegs_lt {f : FmtV} {n r : Nat} (h : r ∈ srcRegs f n) : r < 256 := by
  simp only [srcRegs, List.mem_append, List.mem_ite_nil_right] at h
  obtain (⟨-, h⟩ | ⟨-, h⟩) | ⟨-, h⟩ := h <;> exact selReg_lt h
/-- Registers that selectors name are in range where they lie below VREGS. -/
theorem Wave.regRange_of_lt {w : Wave} {rs : List Nat} (h : rs.all (fun r => decide (r < w.vregs)) = true) (hlt : ∀ r ∈ rs, r < 256) :
    w.regRange rs = false := by
  refine Wave.regRange_of_inRange ?_
  simp only [List.all_eq_true, Bool.and_eq_true, decide_eq_true_eq] at h ⊢
  exact fun r hr => ⟨h r hr, hlt r hr⟩

/-! ### The shapes of the vector words -/

theorem Wave.each_congr (w : Wave) (d : Nat) {g g' : Nat → W32} (h : ∀ l, g l = g' l) : w.each d g = w.each d g' := by
  rw [funext h]
theorem Wave.each64_congr (w : Wave) (d : Nat) {g g' : Nat → W64} (h : ∀ l, g l = g' l) : w.each64 d g = w.each64 d g' := by
  rw [funext h]

section
variable {s : State} {c k : Nat} {w : Wave} (hr : s.runs c k w) (hw : w.wins = [])
include hr hw

/-- A word on registers alone that writes `g l` to lane `l` of a register in every active lane. -/
theorem ends_of_perLane {i : Instr} (hi : i.wf) {run : Wave → Except Trap Wave} (he : exec i s = aluWord i s run) {d : Nat} {g g' : Nat → W32}
    (hrun : run w = .ok (w.perLane d g)) (hg : ∀ l, g l = g' l) : Ends i s c k w [] (w.each d g') :=
  ends_of_alu hr hw hi he hrun (w.each_lanes d g') (by rw [← w.each_congr d hg]; rfl)
theorem ends_of_perLane64 {i : Instr} (hi : i.wf) {run : Wave → Except Trap Wave} (he : exec i s = aluWord i s run) {d : Nat} {g g' : Nat → W64}
    (hrun : run w = .ok (w.perLane64 d g)) (hg : ∀ l, g l = g' l) : Ends i s c k w [] (w.each64 d g') :=
  ends_of_alu hr hw hi he hrun (w.each64_lanes d g') (by rw [← w.each64_congr d hg]; rfl)
/-- A lane word with its registers in range. -/
theorem ends_of_lane {i : Instr} (hi : i.wf) {regs : List Nat} {d : Nat} {g : Wave → Nat → W32} (he : exec i s = laneWord i s regs d g)
    (hin : w.regRange (d :: regs) = false) {g' : Nat → W32} (hg : ∀ l, g w l = g' l) : Ends i s c k w [] (w.each d g') :=
  ends_of_perLane hr hw hi he (if_neg (Bool.eq_false_iff.1 hin)) hg
/-- A format-V word with its registers in range. -/
theorem ends_of_vec {i : Instr} {f : FmtV} {n : Nat} (hi : i.wf) {g : W32 → W32 → W32 → W32} (he : exec i s = vecWord i f n s g)
    (hin : w.regRange (f.vd.toNat :: srcRegs f n) = false) {g' : Nat → W32} (hg : ∀ l, g (w.selW f.a l) (w.selW f.b l) (w.selW f.c l) = g' l) :
    Ends i s c k w [] (w.each f.vd.toNat g') :=
  ends_of_lane hr hw hi he hin hg
/-- A format-VI word with its registers in range. -/
theorem ends_of_vecImm {i : Instr} {f : FmtVI} (hi : i.wf) {g : W32 → W32 → W32} (he : exec i s = vecImmWord i f s g)
    (hin : w.regRange (f.vd.toNat :: selReg f.a) = false) {g' : Nat → W32} (hg : ∀ l, g (w.selW f.a l) (BitVec.ofInt 32 f.imm.toInt) = g' l) :
    Ends i s c k w [] (w.each f.vd.toNat g') :=
  ends_of_lane hr hw hi he hin hg

/-- The arithmetic of format V in exact integers: operands of the minor function's type under their modifiers, and the result clamped or
wrapped. -/
theorem ends_of_arith (g : Int → Int → Int → Int) {i : Instr} {f : FmtV} {n : Nat} (hi : i.wf) (hfn : f.fn.toNat < 2)
    (he : exec i s = arithWord i f n s g) (hin : w.regRange (f.vd.toNat :: srcRegs f 3) = false) :
    let sgn := f.fn = 0
    let I := fun (x : W32) => if sgn then x.toInt else (x.toNat : Int)
    let md := fun (neg : Bool) (x : Int) => (if neg then -1 else 1) * (if f.abs then (x.natAbs : Int) else x)
    let out := fun (x : Int) => BitVec.ofInt 32 (if f.sat then (if sgn then max (-2 ^ 31) (min (2 ^ 31 - 1) x)
      else max 0 (min (2 ^ 32 - 1) x)) else x)
    Ends i s c k w [] (w.each f.vd.toNat fun l => out (g (md f.negA (I (w.selW f.a l))) (md f.negB (I (w.selW f.b l))) (I (w.selW f.c l)))) := by
  have hsgn : fnSigned f.fn = decide (f.fn = 0) := by rw [fnSigned, fn_bit0_eq hfn, Bool.not_not]
  unfold arithWord at he
  refine ends_of_vec hr hw hi he (Wave.regRange_mono (List.cons_subset_cons _ (srcRegs_subset f n)) hin) fun l => ?_
  simp only [hsgn, ires_eq, modified_eq, ival_eq]
/-- The arithmetic of format VI, which wraps. -/
theorem ends_of_arithImm (g : Int → Int → Int) {i : Instr} {f : FmtVI} (hi : i.wf) (hfn : 8 ≤ f.fn.toNat ∧ f.fn.toNat < 10)
    (he : exec i s = arithImmWord i f s g) (hin : w.regRange (f.vd.toNat :: selReg f.a) = false) :
    let I := fun (x : W32) => if f.fn = 8 then x.toInt else (x.toNat : Int)
    Ends i s c k w [] (w.each f.vd.toNat fun l => BitVec.ofInt 32 (g (I (w.selW f.a l)) (I (BitVec.ofInt 32 f.imm.toInt)))) := by
  have hsgn : fnSigned f.fn = decide (f.fn = 8) := by rw [fnSigned, fn_immBit0_eq hfn, Bool.not_not]
  unfold arithImmWord at he
  refine ends_of_vecImm hr hw hi he hin fun l => ?_
  simp only [hsgn, ival_eq]
  rfl
end

/-! ### The arithmetic words (R157) -/

/-- Settles O3: an arithmetic word is its shape's equation in exact integers, the others compute on words. -/
theorem vectorIntegerArithmetic : Obligations.VectorIntegerArithmetic := by
  unfold Obligations.VectorIntegerArithmetic
  intro s c k w hr hw
  refine ⟨fun f hin => ?_, fun f hin => ?_⟩
  · have hin' (n : Nat) : w.regRange (f.vd.toNat :: srcRegs f n) = false :=
      Wave.regRange_mono (List.cons_subset_cons _ (srcRegs_subset f n)) hin
    refine ⟨fun hi => ?vadd, fun hi => ?vsub, fun hi => ?vmul, fun hi => ?vmad, fun hi => ?vmin, fun hi => ?vmax, fun hi => ?vmulhi,
      fun hi => ?vand, fun hi => ?vor, fun hi => ?vxor, fun hi => ?vshl, fun hi => ?vshr, fun hi => ?vrot, fun hi => ?vmov⟩
    case vadd => exact ends_of_arith hr hw (fun a b _ => a + b) hi (vInt_fn hi) (exec_vadd s f) hin
    case vsub => exact ends_of_arith hr hw (fun a b _ => a - b) hi (vInt_fn hi) (exec_vsub s f) hin
    case vmul => exact ends_of_arith hr hw (fun a b _ => a * b) hi (vInt_fn hi) (exec_vmul s f) hin
    case vmad => exact ends_of_arith hr hw (fun a b c => a * b + c) hi (vInt_fn hi) (exec_vmad s f) hin
    case vmin => exact ends_of_arith hr hw (fun a b _ => min a b) hi (vInt_fn hi) (exec_vmin s f) hin
    case vmax => exact ends_of_arith hr hw (fun a b _ => max a b) hi (vInt_fn hi) (exec_vmax s f) hin
    case vmulhi =>
      refine ends_of_vec hr hw hi (exec_vmulhi s f) (hin' 2) fun l => ?_
      rw [fn_bit0_eq (vInt_fn hi), mulHigh_eq_fdiv, ival_eq, ival_eq]
    case vand => exact ends_of_vec hr hw hi (exec_vand s f) (hin' 2) fun _ => rfl
    case vor => exact ends_of_vec hr hw hi (exec_vor s f) (hin' 2) fun _ => rfl
    case vxor => exact ends_of_vec hr hw hi (exec_vxor s f) (hin' 2) fun _ => rfl
    case vshl => exact ends_of_vec hr hw hi (exec_vshl s f) (hin' 2) fun _ => shl_eq_ofNat _ _
    case vshr =>
      refine ends_of_vec hr hw hi (exec_vshr s f) (hin' 2) fun l => ?_
      rw [fn_bit0_eq (vInt_fn hi), shr_eq]
    case vrot => exact ends_of_vec hr hw hi (exec_vrot s f) (hin' 2) fun _ => rotl_eq_or _ _
    case vmov => exact ends_of_vec hr hw hi (exec_vmov s f) (hin' 1) fun _ => rfl
  · refine ⟨fun hi => ?vaddImm, fun hi => ?vsubImm, fun hi => ?vmulImm, fun hi => ?vminImm, fun hi => ?vmaxImm, fun hi => ?vmulhiImm,
      fun hi => ?vandImm, fun hi => ?vorImm, fun hi => ?vxorImm, fun hi => ?vshlImm, fun hi => ?vshrImm, fun hi => ?vrotImm⟩
    case vaddImm => exact ends_of_arithImm hr hw (fun a b => a + b) hi (viInt_fn hi) (exec_vaddImm s f) hin
    case vsubImm => exact ends_of_arithImm hr hw (fun a b => a - b) hi (viInt_fn hi) (exec_vsubImm s f) hin
    case vmulImm => exact ends_of_arithImm hr hw (fun a b => a * b) hi (viInt_fn hi) (exec_vmulImm s f) hin
    case vminImm => exact ends_of_arithImm hr hw (fun a b => min a b) hi (viInt_fn hi) (exec_vminImm s f) hin
    case vmaxImm => exact ends_of_arithImm hr hw (fun a b => max a b) hi (viInt_fn hi) (exec_vmaxImm s f) hin
    case vmulhiImm =>
      refine ends_of_vecImm hr hw hi (exec_vmulhiImm s f) hin fun l => ?_
      rw [fn_immBit0_eq (viInt_fn hi), mulHigh_eq_fdiv, ival_eq, ival_eq]
    case vandImm => exact ends_of_vecImm hr hw hi (exec_vandImm s f) hin fun _ => rfl
    case vorImm => exact ends_of_vecImm hr hw hi (exec_vorImm s f) hin fun _ => rfl
    case vxorImm => exact ends_of_vecImm hr hw hi (exec_vxorImm s f) hin fun _ => rfl
    case vshlImm => exact ends_of_vecImm hr hw hi (exec_vshlImm s f) hin fun _ => shl_eq_ofNat _ _
    case vshrImm =>
      refine ends_of_vecImm hr hw hi (exec_vshrImm s f) hin fun l => ?_
      rw [fn_immBit0_eq (viInt_fn hi), shr_eq]
    case vrotImm => exact ends_of_vecImm hr hw hi (exec_vrotImm s f) hin fun _ => rotl_eq_or _ _

end Sys2Proof.Machine
end

section
/-! SUPPORT. The mask runs of comparisons and ballots (R158, R170, R187), and the proof of O4. -/

namespace Sys2Proof.Machine

/-! ### Mask runs (R158) -/

theorem foldl_addBits_lt (q : Nat → Bool) (n : Nat) : (List.range n).foldl (fun acc j => if q j then acc + 2 ^ j else acc) 0 < 2 ^ n := by
  induction n with
  | zero => exact Nat.zero_lt_one
  | succ n ih =>
    rw [List.range_succ, List.foldl_append, List.foldl_cons, List.foldl_nil, pow_succ]
    split <;> omega
/-- A sum of the powers of two that a predicate picks has the predicate's bits. -/
theorem testBit_foldl_addBits (q : Nat → Bool) (n j : Nat) :
    ((List.range n).foldl (fun acc j => if q j then acc + 2 ^ j else acc) 0).testBit j = (decide (j < n) && q j) := by
  induction n with
  | zero => exact Nat.zero_testBit j
  | succ n ih =>
    have hlt := foldl_addBits_lt q n
    rw [List.range_succ, List.foldl_append, List.foldl_cons, List.foldl_nil]
    rcases Nat.lt_trichotomy j n with hj | rfl | hj
    · have hn : (decide (j < n + 1) && q j) = (decide (j < n) && q j) := by simp [hj, Nat.lt_succ_of_lt hj]
      rw [hn, ← ih]
      split
      · rw [Nat.add_comm, Nat.testBit_two_pow_add_gt hj]
      · rfl
    · by_cases hq : q j
      · simp [hq, Nat.add_comm, Nat.testBit_two_pow_add_eq, Nat.testBit_lt_two_pow hlt]
      · simp [hq, Nat.testBit_lt_two_pow hlt]
    · have hout : ¬ j < n + 1 := by omega
      have hpow : 2 ^ (n + 1) ≤ 2 ^ j := Nat.pow_le_pow_right (by omega) hj
      rw [pow_succ] at hpow
      rw [Nat.testBit_lt_two_pow (by split <;> omega)]
      simp [hout]
/-- A mask word has the bits of its beat's active lanes. -/
theorem Wave.getLsbD_beatBits (w : Wave) (p : Nat → Bool) (b n : Nat) (hn : n < 32) :
    (w.beatBits p b).getLsbD n = (w.active (32 * b + n) && p (32 * b + n)) := by
  rw [Wave.beatBits, BitVec.getLsbD_ofNat, testBit_foldl_addBits (fun n => w.active (32 * b + n) && p (32 * b + n))]
  simp [hn]

/-- A comparison or ballot with its registers in range: it writes the mask run of `p` and SCC where the run fits, and traps otherwise. -/
def SetsMaskRun (i : Instr) (s : State) (c k : Nat) (w : Wave) (d : Nat) (p : Nat → Bool) : Prop :=
  if d + w.beats ≤ 104 ∨ d = 120 then
    ∃ m : Nat → W32, (∀ b n, n < 32 → (m b).getLsbD n = (w.active (32 * b + n) && p (32 * b + n)))
      ∧ Ends i s c k w ((List.range w.beats).map (fun b => (d + b, m b))
          ++ [(126, if (List.range w.beats).any (fun b => decide (m b ≠ 0)) then 1 else 0)]) []
  else exec i s = .next (s.trapAt c k w w.illegal)

theorem Wave.writeMaskRun_eq (w : Wave) (d : Nat) (p : Nat → Bool) :
    w.writeMaskRun d p = w.writeSs ((List.range w.beats).map (fun b => (d + b, w.beatBits p b))
      ++ [(126, if (List.range w.beats).any (fun b => decide (w.beatBits p b ≠ 0)) then 1 else 0)]) := by
  simp only [Wave.writeMaskRun, Wave.writeSs, List.foldl_append, List.any_map, decide_not]
  rfl

section
variable {s : State} {c k : Nat} {w : Wave} (hr : s.runs c k w) (hw : w.wins = [])
include hr hw

theorem setsMaskRun_of_alu {i : Instr} (hi : i.wf) {run : Wave → Except Trap Wave} (he : exec i s = aluWord i s run) {d : Nat} {p : Nat → Bool}
    (hfits : d + w.beats ≤ 104 ∨ d = 120 → run w = .ok (w.writeMaskRun d p))
    (hout : (!w.maskRunOk d) = true → run w = .error w.illegal) : SetsMaskRun i s c k w d p := by
  unfold SetsMaskRun
  split
  · next hd =>
    exact ⟨w.beatBits p, w.getLsbD_beatBits p, ends_of_writeSs hr hw hi he (by rw [hfits hd, w.writeMaskRun_eq])⟩
  · next hd =>
    exact he.trans (aluWord_trap hr hi (hout (by simpa [Wave.maskRunOk] using hd)))
theorem setsMaskRun_of_mask {i : Instr} (hi : i.wf) {regs : List Nat} {d : Nat} {p : Wave → Nat → Bool} (he : exec i s = maskWord i s regs d p)
    (hin : w.regRange regs = false) {p' : Nat → Bool} (hp : p w = p') : SetsMaskRun i s c k w d p' :=
  setsMaskRun_of_alu hr hw hi he (fun hd => by rw [if_neg (Wave.maskRun_fits hd), if_neg (Bool.eq_false_iff.1 hin), hp]) fun h => if_pos h
theorem setsMaskRun_of_fltMask {i : Instr} (hi : i.wf) {regs : List Nat} {d : Nat} {p : Wave → Nat → Bool}
    (he : exec i s = fltMaskWord i s regs d p) (hin : w.regRange regs = false) (hlegacy : (w.legacy {}).isNone) : SetsMaskRun i s c k w d (p w) :=
  setsMaskRun_of_alu hr hw hi he (fun hd => by
    rw [if_neg (Wave.maskRun_fits hd), if_neg (Bool.eq_false_iff.1 hin), Option.isNone_iff_eq_none.1 hlegacy]) fun h => if_pos h
end

/-! ### The conditions of FCMP (R170) -/

theorem fltCond_of_nan {a b : FVal} (h : a = .nan ∨ b = .nan) (j : Nat) (hj : j < 8) : fltCond j a b = decide (j = 1 ∨ j = 7) := by
  have hn : (a.isNan || b.isNan) = true := by
    obtain rfl | rfl := h
    · rfl
    · exact Bool.or_true _
  have heq : a.eqv b = false := by
    obtain rfl | rfl := h
    · rfl
    · cases a <;> rfl
  have hlt : a.lt b = false := by
    obtain rfl | rfl := h
    · rfl
    · cases a <;> rfl
  have hgt : b.lt a = false := by
    obtain rfl | rfl := h
    · cases b <;> rfl
    · rfl
  interval_cases j <;> simp [fltCond, hn, heq, hlt, hgt]
/-- Of two values that are numbers, the conditions are those of the order. -/
theorem fltCond_of_numbers {a b : FVal} (ha : a ≠ .nan) (hb : b ≠ .nan) {eq lt gt : Prop} (heq : a.eqv b ↔ eq) (hlt : a.lt b ↔ lt)
    (hgt : b.lt a ↔ gt) :
    (fltCond 0 a b ↔ eq) ∧ (fltCond 1 a b ↔ ¬eq) ∧ (fltCond 2 a b ↔ lt) ∧ (fltCond 3 a b ↔ ¬lt) ∧ (fltCond 4 a b ↔ gt)
      ∧ (fltCond 5 a b ↔ ¬gt) ∧ fltCond 6 a b = true ∧ fltCond 7 a b = false := by
  have hn : (a.isNan || b.isNan) = false := by simp [FVal.isNan, ha, hb]
  simp [fltCond, hn, ← heq, ← hlt, ← hgt]

/-- Settles O4: a mask run has the bits of its condition, and FCMP's conditions follow the order of the values. -/
theorem maskRuns : Obligations.MaskRuns := by
  unfold Obligations.MaskRuns
  intro s c k w hr hw
  refine ⟨fun f => ⟨fun hi hin _ => ?vcmp, fun hi hin hlegacy => ?fcmp, fun hi hin _ => ?lballot⟩,
    fun f => ⟨fun hi hin _ => ?vcmpImm, fun hi hin hlegacy => ?fcmpImm⟩, fun a b => fltCond_of_nan, fun p q x y => ⟨?_, ?_, ?_, ?_⟩⟩
  case vcmp => exact setsMaskRun_of_mask hr hw hi (exec_vcmp s f) (Wave.regRange_of_lt hin fun _ => srcRegs_lt) rfl
  case fcmp => exact setsMaskRun_of_fltMask hr hw hi (exec_fcmp s f) (Wave.regRange_of_lt hin fun _ => srcRegs_lt) hlegacy
  case lballot =>
    exact setsMaskRun_of_mask hr hw hi (exec_lballot s f) (Wave.regRange_of_lt hin fun _ => srcRegs_lt) (funext fun _ => (decide_not).symm)
  case vcmpImm => exact setsMaskRun_of_mask hr hw hi (exec_vcmpImm s f) (Wave.regRange_of_lt hin fun _ => selReg_lt) rfl
  case fcmpImm => exact setsMaskRun_of_fltMask hr hw hi (exec_fcmpImm s f) (Wave.regRange_of_lt hin fun _ => selReg_lt) hlegacy
  · exact fltCond_of_numbers (a := .fin p x) (b := .fin q y) nofun nofun decide_eq_true_iff decide_eq_true_iff decide_eq_true_iff
  · exact fltCond_of_numbers (a := .inf p) (b := .inf q) nofun nofun decide_eq_true_iff (by simp [FVal.lt]) (by simp [FVal.lt, and_comm])
  · exact fltCond_of_numbers (a := .inf p) (b := .fin q y) nofun nofun (by simp [FVal.eqv]) Iff.rfl (by simp [FVal.lt])
  · exact fltCond_of_numbers (a := .fin p x) (b := .inf q) nofun nofun (by simp [FVal.eqv]) (by simp [FVal.lt]) Iff.rfl

end Sys2Proof.Machine
end

section
/-! SUPPORT. Selection, fields, byte sums, permutation and pairs of the vector words (R159–R163), and the proof of O5. -/

namespace Sys2Proof.Machine

/-- VSEL's condition in a lane (R159). -/
theorem vselCond_iff (w : Wave) (f : FmtV) (l : Nat) :
    (if selScalar f.c then w.runBit (f.c.toNat - 256) l else !decide (w.selW f.c l = 0)) = true ↔
      (if 256 ≤ f.c.toNat ∧ f.c.toNat < 384 then (w.readS (f.c.toNat - 256 + l / 32)).getLsbD (l % 32) = true else w.selW f.c l ≠ 0) := by
  have hsel : selScalar f.c = decide (256 ≤ f.c.toNat ∧ f.c.toNat < 384) := (Bool.decide_and _ _).symm
  rw [hsel]
  by_cases h : 256 ≤ f.c.toNat ∧ f.c.toNat < 384
  · simp only [h, and_self, decide_true, if_true]; rfl
  · simp [h]

/-- VDOT4's sum in a lane (R161). -/
theorem vdot4_value {fn : BitVec 4} (sat : Bool) (a b c : W32) :
    (let sgn := !decide (fn = 1)
     let ak := fun j => if sgn then byteS a j else byteZ a j
     let bk := fun j => if fn = 0 then byteS b j else byteZ b j
     ires sgn sat (ival sgn c + sum4 (fun j => ak j * bk j))) =
    (let zb := fun (x : W32) (j : Nat) => ((x.extractLsb' (8 * j) 8).toNat : Int)
     let sb := fun (x : W32) (j : Nat) => (x.extractLsb' (8 * j) 8).toInt
     let sum := fun (g : Nat → Int) => g 0 + g 1 + g 2 + g 3
     if fn = 1 then BitVec.ofInt 32 (if sat then max 0 (min (2 ^ 32 - 1) (c.toNat + sum (fun j => zb a j * zb b j)))
         else c.toNat + sum (fun j => zb a j * zb b j))
     else BitVec.ofInt 32 (if sat then max (-2 ^ 31) (min (2 ^ 31 - 1) (c.toInt + sum (fun j => sb a j * (if fn = 0 then sb b j else zb b j))))
         else c.toInt + sum (fun j => sb a j * (if fn = 0 then sb b j else zb b j)))) := by
  by_cases h : fn = 1
  · subst h
    exact (ires_unsigned _ _).trans (by simp only [sum4, byteZ_eq_extract]; rfl)
  · simp only [h, decide_false, Bool.not_false, if_false, if_true, ires_signed, sum4, byteZ_eq_extract, byteS_eq_extract]
    rfl

section
variable {s : State} {c k : Nat} {w : Wave} (hr : s.runs c k w) (hw : w.wins = [])
include hr

/-- A mask run past s127 traps (R159). -/
theorem vsel_traps (f : FmtV) (hi : (Instr.vsel f).wf) (hlo : 256 ≤ f.c.toNat) (hhi : f.c.toNat < 384)
    (hout : 127 < f.c.toNat - 256 + w.beats - 1) : exec (.vsel f) s = .next (s.trapAt c k w w.illegal) :=
  (exec_vsel s f).trans (aluWord_trap hr hi (if_pos (by simp [selScalar, hlo, hhi]; omega)))

include hw

theorem ends_vsel (f : FmtV) (hi : (Instr.vsel f).wf)
    (hin : (f.vd.toNat :: srcRegs f 3).all (fun r => decide (r < w.vregs) && decide (r < 256)) = true)
    (hfit : 256 ≤ f.c.toNat → f.c.toNat < 384 → f.c.toNat - 256 + w.beats - 1 ≤ 127) :
    Ends (.vsel f) s c k w [] (w.each f.vd.toNat fun l =>
      if (if 256 ≤ f.c.toNat ∧ f.c.toNat < 384 then (w.readS (f.c.toNat - 256 + l / 32)).getLsbD (l % 32) = true else w.selW f.c l ≠ 0)
      then w.selW f.a l else w.selW f.b l) := by
  have hfits : ¬ (selScalar f.c && !decide (f.c.toNat - 256 + w.beats - 1 ≤ 127)) = true := by simpa [selScalar] using hfit
  refine ends_of_perLane hr hw hi (exec_vsel s f)
    ((if_neg hfits).trans (if_neg (Bool.eq_false_iff.1 (Wave.regRange_of_inRange hin)))) fun l => ?_
  simp only [vselCond_iff]
end

/-- Settles O5: each word is its shape with the shared computations of R160–R163; VSEL's mask run is tested first. -/
theorem vectorIntegerOthers : Obligations.VectorIntegerOthers := by
  unfold Obligations.VectorIntegerOthers
  intro s c k w hr hw
  refine ⟨fun f => ⟨ends_vsel hr hw f, vsel_traps hr f, fun hi hin => ?vbfx, fun hi hin => ?vbfi, fun hi hin => ?vbitc, fun hi hin => ?vsad,
    fun hi hin => ?vdot4, fun hi hin => ?vperm, fun hi hin => ?vadd64, fun hi hin => ?vmad64⟩, fun f hi hin => ?vadd64Imm⟩
  case vbfx =>
    have hfn : f.fn.getLsbD 0 = decide (f.fn = 1) := by
      rw [fn_bit0_eq (vInt_fn hi), ← decide_not, decide_eq_decide, fn_eq_one_iff (vInt_fn hi)]
    refine ends_of_vec hr hw hi (exec_vbfx s f) (Wave.regRange_of_inRange hin) fun l => ?_
    rw [hfn, bfx_eq]
  case vbfi => exact ends_of_lane hr hw hi (exec_vbfi s f) (Wave.regRange_of_inRange hin) fun _ => rfl
  case vbitc =>
    exact ⟨bitCount f.fn.toNat, ends_of_vec hr hw hi (exec_vbitc s f) (Wave.regRange_of_inRange hin) fun _ => rfl, bitCount_spec f.fn⟩
  case vsad =>
    refine ends_of_vec hr hw hi (exec_vsad s f) (Wave.regRange_of_inRange hin) fun l => ?_
    rw [ires_unsigned]
    simp only [sum4, byteZ_eq_extract, Int.natCast_natAbs]
    rfl
  case vdot4 =>
    exact ends_of_vec hr hw hi (exec_vdot4 s f) (Wave.regRange_of_inRange hin) fun l => vdot4_value f.sat _ _ _
  case vperm =>
    refine ends_of_vec hr hw hi (exec_vperm s f) (Wave.regRange_of_inRange hin) fun l => ?_
    simp only [permByte_eq]
  case vadd64 =>
    refine ends_of_perLane64 hr hw hi (exec_vadd64 s f) (if_neg (Bool.eq_false_iff.1 (Wave.regRange_of_inRange hin))) fun l => ?_
    have hfn : f.fn = 0 ∨ f.fn = 1 ∨ f.fn = 2 := by
      simp only [wf_vadd64, Bool.and_eq_true, and_assoc] at hi
      exact fn_cases_three (vInt_fn hi.1)
    rw [ext64_eq]
    obtain h | h | h := hfn <;> simp [h]
  case vmad64 =>
    refine ends_of_perLane64 hr hw hi (exec_vmad64 s f) (if_neg (Bool.eq_false_iff.1 (Wave.regRange_of_inRange hin))) fun l => ?_
    have hext (x : W32) : ext64 (f.fn.getLsbD 0) x = BitVec.ofInt 64 (if f.fn.getLsbD 0 then x.toInt else (x.toNat : Int)) := by
      rw [← ext64_eq, Bool.decide_eq_true]
    rw [BitVec.ofInt_mul, ← hext, ← hext]
  case vadd64Imm =>
    exact ends_of_perLane64 hr hw hi (exec_vadd64Imm s f) (if_neg (Bool.eq_false_iff.1 (Wave.regRange_of_inRange hin))) fun _ => rfl

end Sys2Proof.Machine
end

section
/-! SUPPORT. The words of class L among the integer and lane words (R151, R189–R191) without a lookahead window, and the proof of O13. -/

namespace Sys2Proof.Machine

/-! ### A long write under LA 0 (R106) -/

theorem Wave.closeOlder_of_none {w : Wave} (hw : w.wins = []) (op : Nat) : w.closeOlder op = w := by
  unfold Wave.closeOlder; rw [hw]; cases w; simp_all [splitWins]
theorem Wave.longWrite_zero {w : Wave} (hw : w.wins = []) (op : Nat) (vs : List (Nat × Nat × W32)) (ss : List (Nat × W32)) :
    w.longWrite op 0 vs ss = (w.writeVs vs).writeSs ss := by
  rw [Wave.longWrite, if_pos rfl, Wave.closeOlder_of_none hw]

theorem ends_of_long {s : State} {c k : Nat} {w : Wave} (hr : s.runs c k w) (hw : w.wins = []) {i : Instr} (hi : i.wf)
    {run : Wave → Except Trap Wave} (he : exec i s = aluWord i s run) {la : BitVec 4} (hla : la = 0) (op : Nat)
    {vs : List (Nat × Nat × W32)} {ss : List (Nat × W32)} (hrun : run w = .ok (w.longWrite op la.toNat vs ss)) (hv : ∀ x ∈ vs, x.2.1 < 128) :
    Ends i s c k w ss vs :=
  ends_of_alu hr hw hi he hrun hv (by rw [hla]; exact Wave.longWrite_zero hw op vs ss)

/-! ### The values (R151, R189–R191) -/

/-- SDIV's value: FN bit 0 is the type, FN 2 and 3 give the remainder (R151). -/
theorem divide_of_fn {fn : BitVec 4} (hfn : fn.toNat < 4) (a b : W32) : divide (fn.getLsbD 0) (fn.getLsbD 1) a b =
    let unsigned := fn.toNat % 2 = 1
    let q : Int := if unsigned then (a.toNat / b.toNat : Nat) else a.toInt.tdiv b.toInt
    let r : Int := if unsigned then (a.toNat % b.toNat : Nat) else a.toInt.tmod b.toInt
    if fn.toNat < 2 then (if b = 0 then 0xFFFFFFFF else BitVec.ofInt 32 q) else (if b = 0 then a else BitVec.ofInt 32 r) := by
  rw [fn_bit0_eq_odd, fn_bit1_eq hfn]
  by_cases h : fn.toNat < 2
  · simp only [h, decide_true, Bool.not_true, divide_quotient, decide_eq_true_eq, if_true]
  · simp only [h, decide_false, Bool.not_false, divide_remainder, decide_eq_true_eq, if_false]

/-- A bin's sum over the active lanes (R191). -/
theorem Wave.binSum_eq (w : Wave) (f : FmtV) (j : Nat) : w.binSum f j =
    if f.fn.toNat < 2 then ires false f.sat ((w.lanes.map (fun l => ((w.readV (f.a.toNat + j) l).toNat : Int))).sum)
    else (fun y => if f.sat then sat01 y else y) (w.lanes.foldl (fun acc l => w.addBits (w.rnd f.rnd) acc (w.readV (f.a.toNat + j) l)) 0) := by
  rw [Wave.binSum, List.sum_eq_foldl, List.foldl_map]
  rfl

/-- One write for each element that a test keeps. -/
theorem flatMap_ite_singleton {α β : Type} (p : α → Prop) [DecidablePred p] (g : α → β) (xs : List α) :
    xs.flatMap (fun x => if p x then [g x] else []) = (xs.filter (fun x => decide (p x))).map g := by
  induction xs with
  | nil => rfl
  | cons x xs ih => by_cases h : p x <;> simp [List.flatMap_cons, h, ih]

section
variable {s : State} {c k : Nat} {w : Wave} (hr : s.runs c k w) (hw : w.wins = [])
include hr hw

theorem ends_sdiv (f : FmtS) (hi : (Instr.sdiv f).wf) (hla : f.la = 0) : Ends (.sdiv f) s c k w
    [(f.sd.toNat, divide (f.fn.getLsbD 0) (f.fn.getLsbD 1) (w.readS f.sa.toNat) (w.sop f.b))] [] :=
  ends_of_long hr hw hi (exec_sdiv s f) hla 0x05 rfl fun _ h => absurd h List.not_mem_nil

theorem ends_lmatch (f : FmtV) (hi : (Instr.lmatch f).wf) (hla : f.la = 0) (hin : w.regRange (run f.vd.toNat w.beats ++ srcRegs f 1) = false) :
    Ends (.lmatch f) s c k w [] (w.lanes.flatMap fun l => (List.range w.beats).map fun b =>
      (f.vd.toNat + b, l, w.beatBits (w.keysMatch f l) b)) := by
  refine ends_of_long hr hw hi (exec_lmatch s f) hla 0x67 (if_neg (Bool.eq_false_iff.1 hin)) fun x hx => ?_
  obtain ⟨l, hl, hx⟩ := List.mem_flatMap.1 hx
  obtain ⟨b, -, rfl⟩ := List.mem_map.1 hx
  exact (Wave.lanes_lt hl).trans (by decide)

theorem ends_lhist (f : FmtV) (hi : (Instr.lhist f).wf) (hla : f.la = 0) (hlegacy : w.laneLegacy (decide (f.fn = 1)) = none)
    (hin : w.regRange (f.vd.toNat :: run f.vd.toNat (w.bins f.c) ++ srcRegs f 2) = false) :
    Ends (.lhist f) s c k w [] ((w.lanes.filter fun l => decide ((w.selW f.a l).toNat < w.bins f.c)).map fun l =>
      let i := (w.selW f.a l).toNat
      (f.vd.toNat + i, l, if f.fn = 0 then ires false f.sat (((w.readV (f.vd.toNat + i) l).toNat + (w.selW f.b l).toNat : Nat))
        else (fun y => if f.sat then sat01 y else y) (w.addBits (w.rnd f.rnd) (w.readV (f.vd.toNat + i) l) (w.selF f.b l)))) := by
  rw [← flatMap_ite_singleton]
  refine ends_of_long hr hw hi (exec_lhist s f) hla 0x68 ?_ fun x hx => ?_
  · dsimp only
    rw [if_neg (Bool.eq_false_iff.1 hin), hlegacy]
    simp only [Nat.cast_add]
    rfl
  · obtain ⟨l, hl, hx⟩ := List.mem_flatMap.1 hx
    split at hx
    · rw [List.mem_singleton.1 hx]; exact (Wave.lanes_lt hl).trans (by decide)
    · exact absurd hx List.not_mem_nil

section
variable (f : FmtV) (hi : (Instr.lmerge f).wf) (hla : f.la = 0) (hlegacy : w.laneLegacy (decide (2 ≤ f.fn.toNat)) = none)
  (hin : w.regRange (f.a.toNat :: Sys2Proof.Machine.run f.a.toNat (w.bins f.c)) = false)
include hi hla hlegacy hin

/-- LMERGE under an even FN writes lane 0 of the run (R191). -/
theorem ends_lmerge_vector (hfn : f.fn.toNat % 2 = 0) :
    Ends (.lmerge f) s c k w [] ((List.range (w.bins f.c)).map fun j => (f.a.toNat + j, 0, w.binSum f j)) := by
  have hbit : f.fn.getLsbD 0 = false := by rw [fn_bit0_eq_odd, decide_eq_false_iff_not]; omega
  refine ends_of_long hr hw hi (exec_lmerge s f) hla 0x69 ?_ fun x hx => ?_
  · dsimp only
    rw [if_neg (lmerge_fits f (by omega)), if_neg (Bool.eq_false_iff.1 hin), hlegacy, hbit]
    rfl
  · obtain ⟨j, -, rfl⟩ := List.mem_map.1 hx
    exact Nat.zero_lt_succ _
/-- LMERGE under an odd FN writes scalar registers, where they fit (R191). -/
theorem ends_lmerge_scalar (hfn : f.fn.toNat % 2 = 1) (hd : w.bins f.c = 0 ∨ f.vd.toNat + w.bins f.c ≤ 104) :
    Ends (.lmerge f) s c k w ((List.range (w.bins f.c)).map fun j => (f.vd.toNat + j, w.binSum f j)) [] := by
  have hbit : f.fn.getLsbD 0 = true := by rw [fn_bit0_eq_odd, decide_eq_true hfn]
  refine ends_of_long hr hw hi (exec_lmerge s f) hla 0x69 ?_ fun _ h => absurd h List.not_mem_nil
  dsimp only
  rw [if_neg (lmerge_fits f fun _ => hd), if_neg (Bool.eq_false_iff.1 hin), hlegacy, hbit]
  rfl
end
end

/-- Settles O13: under LA 0 a long write is made at once, and its values are those of R151 and R189–R191. -/
theorem longWords : Obligations.LongWords := by
  unfold Obligations.LongWords
  intro s c k w hr hw
  refine ⟨fun f hi hla => ?sdiv, fun f hla => ⟨fun hi hin => ?lmatch, fun hi hlegacy hin => ?lhist,
    fun hi hlegacy hin => ⟨fun hfn => ?lmergeVector, fun hfn hd => ?lmergeScalar⟩⟩⟩
  case sdiv =>
    have h := ends_sdiv hr hw f hi hla
    rwa [divide_of_fn (by simpa using hi)] at h
  case lmatch =>
    refine ⟨fun l b => w.beatBits (w.keysMatch f l) b, fun l _ b n hn => ?_, ends_lmatch hr hw f hi hla (Wave.regRange_of_inRange hin)⟩
    rw [w.getLsbD_beatBits _ b n hn]
    rfl
  case lhist => exact ends_lhist hr hw f hi hla hlegacy (Wave.regRange_of_inRange hin)
  case lmergeVector =>
    have h := ends_lmerge_vector hr hw f hi hla hlegacy (Wave.regRange_of_inRange hin) hfn
    simp only [Wave.binSum_eq] at h
    exact h
  case lmergeScalar =>
    have h := ends_lmerge_scalar hr hw f hi hla hlegacy (Wave.regRange_of_inRange hin) hfn hd
    simp only [Wave.binSum_eq] at h
    exact h

end Sys2Proof.Machine
end

section
/-! SUPPORT. The floating-point words of formats V and VI under the legacy requests (R91, R168), and the proof of O6. -/

namespace Sys2Proof.Machine

section
variable {s : State} {c k : Nat} {w : Wave} (hr : s.runs c k w) (hw : w.wins = [])
include hr hw

/-- A lane word with its registers in range, which no legacy request governs. -/
theorem ends_of_flt {i : Instr} (hi : i.wf) {u : LegacyUse} {regs : List Nat} {d : Nat} {g : Wave → Nat → W32}
    (he : exec i s = fltWord i s u regs d g) (hin : w.regRange (d :: regs) = false) (hlegacy : w.legacy u = none) {g' : Nat → W32}
    (hg : ∀ l, g w l = g' l) : Ends i s c k w [] (w.each d g') :=
  ends_of_perLane hr hw hi he (by rw [if_neg (Bool.eq_false_iff.1 hin), hlegacy]) hg
/-- A format-V FP32 word computes on its operands after flushing and modifiers (R168). -/
theorem ends_of_f32 {i : Instr} (hi : i.wf) {u : LegacyUse} {f : FmtV} {n : Nat} {g : Wave → RMode → FVal → FVal → FVal → FVal}
    (he : exec i s = f32Word i u f n s g) (hin : w.regRange (f.vd.toNat :: srcRegs f 3) = false) (hlegacy : w.legacy u = none)
    {g' : Nat → FVal} (hg : ∀ l, g w (w.rnd f.rnd) (w.fin f.abs f.negA (w.selF f.a l)) (w.fin f.abs f.negB (w.selF f.b l))
      (w.fin false false (w.selF f.c l)) = g' l) :
    Ends i s c k w [] (w.each f.vd.toNat fun l => w.fout (w.rnd f.rnd) f.sat (g' l)) :=
  ends_of_flt hr hw hi he (Wave.regRange_mono (List.cons_subset_cons _ (srcRegs_subset f n)) hin) hlegacy fun l => congrArg (w.fout _ _) (hg l)
/-- A format-VI FP32 word rounds under MODE (R168). -/
theorem ends_of_f32Imm {i : Instr} (hi : i.wf) {u : LegacyUse} {f : FmtVI} {g : Wave → RMode → FVal → FVal → FVal}
    (he : exec i s = f32ImmWord i u f s g) (hin : w.regRange (f.vd.toNat :: selReg f.a) = false) (hlegacy : w.legacy u = none)
    {g' : Nat → FVal} (hg : ∀ l, g w w.modeField (w.fin false false (w.selF f.a l)) (w.fin false false (f.imm ++ (0 : BitVec 1))) = g' l) :
    Ends i s c k w [] (w.each f.vd.toNat fun l => w.fout w.modeField false (g' l)) :=
  ends_of_flt hr hw hi he hin hlegacy fun l => congrArg (w.fout _ _) (hg l)
end

/-- Settles O6: each word is its shape with the operation of R169 on the flushed and modified operands. -/
theorem fp32Arithmetic : Obligations.Fp32Arithmetic := by
  unfold Obligations.Fp32Arithmetic
  intro s c k w hr hw lg mn mx
  refine ⟨fun f hin => ?_, fun f hin => ?_⟩
  · refine ⟨fun hi hl => ?fadd, fun hi hl => ?fsub, fun hi hl => ?fmul, fun hi hl => ?ffma, fun hi hl => ?fmin, fun hi hl => ?fmax⟩
    case fadd => exact ends_of_f32 hr hw hi (exec_fadd s f) hin hl fun _ => rfl
    case fsub => exact ends_of_f32 hr hw hi (exec_fsub s f) hin hl fun _ => rfl
    case fmul => exact ends_of_f32 hr hw hi (exec_fmul s f) hin hl fun _ => rfl
    case ffma => exact ends_of_f32 hr hw hi (exec_ffma s f) hin hl fun _ => rfl
    case fmin => exact ends_of_f32 hr hw hi (exec_fmin s f) hin hl fun _ => rfl
    case fmax => exact ends_of_f32 hr hw hi (exec_fmax s f) hin hl fun _ => rfl
  · refine ⟨fun hi hl => ?faddImm, fun hi hl => ?fsubImm, fun hi hl => ?fmulImm, fun hi hl => ?fminImm, fun hi hl => ?fmaxImm⟩
    case faddImm => exact ends_of_f32Imm hr hw hi (exec_faddImm s f) hin hl fun _ => rfl
    case fsubImm => exact ends_of_f32Imm hr hw hi (exec_fsubImm s f) hin hl fun _ => rfl
    case fmulImm => exact ends_of_f32Imm hr hw hi (exec_fmulImm s f) hin hl fun _ => rfl
    case fminImm => exact ends_of_f32Imm hr hw hi (exec_fminImm s f) hin hl fun _ => rfl
    case fmaxImm => exact ends_of_f32Imm hr hw hi (exec_fmaxImm s f) hin hl fun _ => rfl

end Sys2Proof.Machine
end

section
/-! SUPPORT. Rounding to integers, classes, exponents and the packed 16-bit words (R171–R175), and the proof of O7. -/

namespace Sys2Proof.Machine

/-- Element e of a packed word lies in bits 16e + 15 to 16e (R72, R174). -/
theorem half_eq_extract (x : W32) (e : Nat) : half x e = (x.extractLsb' (16 * e) 16).toNat := by
  rw [BitVec.extractLsb'_toNat, Nat.shiftRight_eq_div_pow, pow_mul]
  rfl
/-- An immediate exponent is the sign-extended IMM31 (R168). -/
theorem sval_imm31Int (v : BitVec 31) : sval (imm31Int v) = v.toInt :=
  BitVec.toInt_signExtend_of_le (by decide)

section
variable {s : State} {c k : Nat} {w : Wave} (hr : s.runs c k w) (hw : w.wins = [])
include hr hw

/-- A packed word computes on each element, and writes the two results side by side (R175). -/
theorem ends_of_packed (g : RMode → FVal → FVal → FVal → FVal) {i : Instr} (hi : i.wf) {f : FmtV} {n : Nat}
    (he : exec i s = packedWord i f n s g) (hin : w.regRange (f.vd.toNat :: srcRegs f 3) = false) (hlegacy : w.legacy (usePacked f) = none) :
    let h := if f.fn = 0 then Fmt.f16 else Fmt.bf16
    let el := fun (abs neg : Bool) (x : W32) (e : Nat) => w.hin h abs neg (x.extractLsb' (16 * e) 16).toNat
    let y := fun (l e : Nat) => w.hout h (w.rnd f.rnd) f.sat (g (w.rnd f.rnd) (el f.abs f.negA (w.selH h f.a l) e)
      (el f.abs f.negB (w.selH h f.b l) e) (el false false (w.selH h f.c l) e))
    Ends i s c k w [] (w.each f.vd.toNat fun l => BitVec.ofNat 32 (y l 0 + 2 ^ 16 * y l 1)) := by
  unfold packedWord at he
  refine ends_of_flt hr hw hi he (Wave.regRange_mono (List.cons_subset_cons _ (srcRegs_subset f n)) hin) hlegacy fun l => ?_
  simp only [half_eq_extract]
  rfl
end

/-- Settles O7: a packed word is its shape on each element; the others are lane words with the operations of R171–R173. -/
theorem fp32OthersAndPacked : Obligations.Fp32OthersAndPacked := by
  unfold Obligations.Fp32OthersAndPacked
  intro s c k w hr hw
  refine ⟨fun f hin => ?_, fun f hin hi hl => ?fldexpImm⟩
  · have hin' (n : Nat) : w.regRange (f.vd.toNat :: srcRegs f n) = false :=
      Wave.regRange_mono (List.cons_subset_cons _ (srcRegs_subset f n)) hin
    refine ⟨fun hi hl => ?frnd, fun hi hl => ?ffract, fun hi hl => ?fclass, fun hi hl => ?fldexp, fun hi hl => ?ffrexp, fun hi hl => ?hadd2,
      fun hi hl => ?hmul2, fun hi hl => ?hfma2, fun hi hl => ?hdot2⟩
    case frnd =>
      refine ends_of_f32 hr hw hi (exec_frnd s f) hin hl fun l => ?_
      dsimp only
      cases w.fin f.abs f.negA (w.selF f.a l) <;> rfl
    case ffract =>
      refine ends_of_flt hr hw hi (exec_ffract s f) (hin' 1) hl fun l => ?_
      dsimp only
      cases w.fin f.abs f.negA (w.selF f.a l) <;> rfl
    case fclass => exact ends_of_flt hr hw hi (exec_fclass s f) (hin' 1) hl fun _ => rfl
    case fldexp => exact ends_of_flt hr hw hi (exec_fldexp s f) (hin' 2) hl fun _ => rfl
    case ffrexp => exact ends_of_flt hr hw hi (exec_ffrexp s f) (hin' 1) hl fun _ => rfl
    case hadd2 => exact ends_of_packed hr hw (fun m a b _ => FVal.sum m [a, b]) hi (exec_hadd2 s f) hin hl
    case hmul2 => exact ends_of_packed hr hw (fun _ a b _ => FVal.mul false a b) hi (exec_hmul2 s f) hin hl
    case hfma2 => exact ends_of_packed hr hw (fun m a b c => FVal.sum m [FVal.mul false a b, c]) hi (exec_hfma2 s f) hin hl
    case hdot2 =>
      refine ends_of_flt hr hw hi (exec_hdot2 s f) hin hl fun l => ?_
      simp only [half_eq_extract]
      rfl
  case fldexpImm =>
    refine ends_of_flt hr hw hi (exec_fldexpImm s f) hin hl fun l => ?_
    rw [sval_imm31Int]

end Sys2Proof.Machine
end

section
/-! SUPPORT. The lane words: movement, quads, derivatives and the scalar results (R184–R188), and the proof of O11. -/

namespace Sys2Proof.Machine

/-- Lane j of the quad of lane l (R186). -/
theorem quad_base (l j : Nat) : l - l % 4 + j = l / 4 * 4 + j := by omega

/-- The lane of the quad that LQUAD reads (R186). -/
theorem lquad_lane {fn : BitVec 4} (hfn : fn.toNat < 4) (i j : Nat) :
    (match fn.toNat with | 0 => i.xor 1 | 1 => i.xor 2 | 2 => i.xor 3 | _ => j) = if fn = 3 then j else i ^^^ (fn.toNat + 1) := by
  have hcases : fn = 0 ∨ fn = 1 ∨ fn = 2 ∨ fn = 3 := by revert fn; decide
  obtain rfl | rfl | rfl | rfl := hcases <;> rfl
/-- The two lanes of the quad whose difference LDERIV takes (R186). -/
theorem lderiv_lanes {α : Type} {fn : BitVec 4} (hfn : fn.toNat < 4) (i : Nat) (D : Nat → Nat → α) :
    (let pq := match fn.toNat with
       | 0 => if i < 2 then (1, 0) else (3, 2)
       | 1 => if i % 2 = 0 then (2, 0) else (3, 1)
       | 2 => (1, 0)
       | _ => (2, 0)
     D pq.1 pq.2) =
    if fn = 0 then (if i < 2 then D 1 0 else D 3 2) else if fn = 1 then (if i % 2 = 0 then D 2 0 else D 3 1) else if fn = 2 then D 1 0
    else D 2 0 := by
  have hcases : fn = 0 ∨ fn = 1 ∨ fn = 2 ∨ fn = 3 := by revert fn; decide
  obtain rfl | rfl | rfl | rfl := hcases
  · exact (apply_ite (fun pq : Nat × Nat => D pq.1 pq.2) _ _ _)
  · exact (apply_ite (fun pq : Nat × Nat => D pq.1 pq.2) _ _ _)
  · rfl
  · rfl

theorem vFlt_fn {f : FmtV} {n srcs : Nat} {sat negA negB abs rnd : Bool} (h : vFlt f n srcs sat negA negB abs rnd = true) :
    f.fn.toNat < n := by
  simp only [vFlt, Bool.and_eq_true, and_assoc] at h; exact vForm_fn h.2.1

section
variable {s : State} {c k : Nat} {w : Wave} (hr : s.runs c k w) (hw : w.wins = [])
include hr hw

/-- A lane word with a scalar result writes it, and then SCC (R187). -/
theorem ends_of_laneScalar {i : Instr} (hi : i.wf) {f : FmtV} {g : Wave → W32 × Bool} (he : exec i s = laneScalar i f s g)
    (hin : w.regRange (srcRegs f 1) = false) {x : W32} {b : Bool} (hg : g w = (x, b)) :
    Ends i s c k w [(f.vd.toNat, x), (126, if b then 1 else 0)] [] :=
  ends_of_writeSs hr hw hi he (by rw [if_neg (Bool.eq_false_iff.1 hin), hg]; rfl)

theorem ends_lquad (f : FmtV) (hi : (Instr.lquad f).wf) (hin : w.regRange (f.vd.toNat :: srcRegs f 1) = false) :
    Ends (.lquad f) s c k w [] (w.each f.vd.toNat fun l =>
      w.selW f.a (l / 4 * 4 + (if f.fn = 3 then (w.selW f.b 0).toNat % 4 else (l % 4) ^^^ (f.fn.toNat + 1)))) := by
  have hfn : f.fn.toNat < 4 := by
    rw [wf_lquad, Bool.and_eq_true] at hi
    exact vFlt_fn hi.1
  refine ends_of_lane hr hw hi (exec_lquad s f) hin fun l => ?_
  dsimp only
  rw [quad_base]
  congr 2
  exact lquad_lane hfn _ _
theorem ends_lderiv (f : FmtV) (hi : (Instr.lderiv f).wf) (hin : w.regRange (f.vd.toNat :: srcRegs f 1) = false)
    (hlegacy : w.legacy {} = none) :
    let D := fun (x y : W32) => w.fout (w.rnd f.rnd) false (FVal.sum (w.rnd f.rnd) [w.fin false false x, (w.fin false false y).neg])
    let F := fun (l j : Nat) => w.selF f.a (l / 4 * 4 + j)
    Ends (.lderiv f) s c k w [] (w.each f.vd.toNat fun l =>
      if w.hit.getLsbD l then 0
      else if f.fn = 0 then (if l % 4 < 2 then D (F l 1) (F l 0) else D (F l 3) (F l 2))
      else if f.fn = 1 then (if l % 2 = 0 then D (F l 2) (F l 0) else D (F l 3) (F l 1))
      else if f.fn = 2 then D (F l 1) (F l 0) else D (F l 2) (F l 0)) := by
  refine ends_of_flt hr hw hi (exec_lderiv s f) hin hlegacy fun l => ?_
  have hpar : l % 4 % 2 = l % 2 := by omega
  refine if_congr Iff.rfl rfl ?_
  simp only [quad_base]
  rw [← hpar]
  exact lderiv_lanes (vFlt_fn hi) (l % 4) fun i j => w.fout (w.rnd f.rnd) false
    (FVal.sum (w.rnd f.rnd) [w.fin false false (w.selF f.a (l / 4 * 4 + i)), (w.fin false false (w.selF f.a (l / 4 * 4 + j))).neg])

theorem ends_lfirst (f : FmtV) (hi : (Instr.lfirst f).wf) (hin : w.regRange (srcRegs f 1) = false) :
    Ends (.lfirst f) s c k w (match w.lanes with
      | [] => [(f.vd.toNat, if f.fn = 0 then 0 else 0xFFFFFFFF), (126, 0)]
      | l :: _ => [(f.vd.toNat, if f.fn = 0 then w.selW f.a l else BitVec.ofNat 32 l), (126, 1)]) [] := by
  cases hl : w.lanes with
  | nil => exact ends_of_laneScalar hr hw hi (exec_lfirst s f) hin (b := false) (by rw [hl])
  | cons l ls => exact ends_of_laneScalar hr hw hi (exec_lfirst s f) hin (b := true) (by rw [hl])
theorem ends_lcount (f : FmtV) (hi : (Instr.lcount f).wf) (hin : w.regRange (srcRegs f 1) = false) :
    let n := (w.lanes.filter fun l => f.fn = 0 || w.selW f.a l ≠ 0).length
    Ends (.lcount f) s c k w [(f.vd.toNat, BitVec.ofNat 32 n), (126, if n = 0 then 0 else 1)] [] := by
  intro n
  have hn : (if f.fn = 0 then w.lanes.length else (w.lanes.filter fun l => !decide (w.selW f.a l = 0)).length) = n := by
    by_cases h : f.fn = 0
    · simp [n, h]
    · simp only [n, h, if_false, decide_false, Bool.false_or, decide_not]
  have hscc : (if n = 0 then 0 else 1 : W32) = if decide (0 < n) = true then 1 else 0 := by
    by_cases h : n = 0 <;> simp [h, Nat.pos_iff_ne_zero]
  rw [hscc]
  exact ends_of_laneScalar hr hw hi (exec_lcount s f) hin (by rw [← hn])

theorem ends_lred (f : FmtV) (hi : (Instr.lred f).wf) (hin : w.regRange (srcRegs f 1) = false)
    (hlegacy : w.laneLegacy (decide (8 ≤ f.fn.toNat)) = none) : Ends (.lred f) s c k w [(f.vd.toNat, w.foldLanes f w.lanes)] [] :=
  ends_of_writeSs hr hw hi (exec_lred s f) (by rw [if_neg (Bool.eq_false_iff.1 hin), hlegacy]; rfl)
theorem ends_lscan (f : FmtV) (hi : (Instr.lscan f).wf) (hin : w.regRange (f.vd.toNat :: srcRegs f 1) = false)
    (hlegacy : w.laneLegacy (decide (8 ≤ f.fn.toNat)) = none) : Ends (.lscan f) s c k w [] (w.each f.vd.toNat fun l =>
      w.foldLanes f (w.lanes.filter fun j => if f.b = 384 then j ≤ l else j < l)) := by
  have hb : f.b = 384 ∨ f.b = 385 := by
    simp only [wf_lscan, Bool.and_eq_true, Bool.or_eq_true, decide_eq_true_eq] at hi
    exact hi.1.2
  refine ends_of_perLane hr hw hi (exec_lscan s f) (by rw [if_neg (Bool.eq_false_iff.1 hin), hlegacy]) fun l => ?_
  obtain h | h := hb <;> simp [h]
end

/-- Settles O11: the movement words by their shape, the quad words by the lanes they name, the scalar results and the folds by their own
arms. -/
theorem laneWords : Obligations.LaneWords := by
  unfold Obligations.LaneWords
  intro s c k w f hr hw
  have hin' {n : Nat} (hn : srcRegs f n ⊆ srcRegs f 2)
      (h : (f.vd.toNat :: srcRegs f 2).all (fun r => decide (r < w.vregs) && decide (r < 256)) = true) :
      w.regRange (f.vd.toNat :: srcRegs f n) = false :=
    Wave.regRange_mono (List.cons_subset_cons _ hn) (Wave.regRange_of_inRange h)
  have h1 : srcRegs f 1 ⊆ srcRegs f 2 := by simp [srcRegs]
  refine ⟨fun hi h => ?lbcast, fun hi h => ?lshuf, fun hi h => ?lrot, fun hi h => ?lquad, fun hi h hl => ?lderiv, fun hi h => ?lfirst,
    fun hi h => ?lcount, fun hi h hl => ?lred, fun hi h hl => ?lscan⟩
  case lbcast => exact ends_of_lane hr hw hi (exec_lbcast s f) (hin' h1 h) fun _ => rfl
  case lshuf => exact ends_of_lane hr hw hi (exec_lshuf s f) (hin' (List.Subset.refl _) h) fun _ => rfl
  case lrot => exact ends_of_lane hr hw hi (exec_lrot s f) (hin' h1 h) fun _ => rfl
  case lquad => exact ends_lquad hr hw f hi (hin' h1 h)
  case lderiv => exact ends_lderiv hr hw f hi (Wave.regRange_of_inRange h) hl
  case lfirst => exact ends_lfirst hr hw f hi (Wave.regRange_of_inRange h)
  case lcount => exact ends_lcount hr hw f hi (Wave.regRange_of_inRange h)
  case lred => exact ends_lred hr hw f hi (Wave.regRange_of_inRange h) hl
  case lscan => exact ends_lscan hr hw f hi (Wave.regRange_of_inRange h) hl

end Sys2Proof.Machine
end

section
/-! SUPPORT. The fold over a list of lanes (R188), and the proof of O12. -/

namespace Sys2Proof.Machine

section
variable (w : Wave) (f : FmtV)

/-- An integer fold starts from the first lane's bits and combines each further lane in turn. -/
theorem Wave.foldLanes_int (h : f.fn.toNat < 8) (i : Nat) (ls : List Nat) :
    w.foldLanes f (i :: ls) = ls.foldl (fun acc j => redOp f.fn.toNat acc (w.selW f.a j)) (w.selW f.a i) :=
  if_pos h
/-- An FP32 sum of two lanes or more adds each further lane to the bits of the result so far. -/
theorem Wave.foldLanes_sum (h : f.fn = 8) (i : Nat) {ls : List Nat} (hls : ls ≠ []) :
    w.foldLanes f (i :: ls) = ls.foldl (fun acc j => w.addBits (w.rnd f.rnd) acc (w.selF f.a j)) (w.selF f.a i) := by
  simp [Wave.foldLanes, h, hls]
/-- The other FP32 folds combine the values read, and round what is written alone. -/
theorem Wave.foldLanes_values (h8 : 8 ≤ f.fn.toNat) (i : Nat) {ls : List Nat} (hls : f.fn ≠ 8 ∨ ls = []) :
    w.foldLanes f (i :: ls) = w.fout (w.rnd f.rnd) false (ls.foldl (fun acc j =>
      w.redMinMax f.fn.toNat (w.rnd f.rnd) acc (w.fin false false (w.selF f.a j))) (w.fin false false (w.selF f.a i))) := by
  have hsum : ¬ (f.fn.toNat = 8 ∧ (!ls.isEmpty) = true) := by
    rintro ⟨hfn, hne⟩
    obtain h | rfl := hls
    · exact h (BitVec.eq_of_toNat_eq hfn)
    · exact absurd hne (by decide)
  exact (if_neg (Nat.not_lt.2 h8)).trans (if_neg hsum)
end

/-- Settles O12: a fold is a left fold over its lanes, so an extended list combines its last lane last. -/
theorem foldsInLaneOrder : Obligations.FoldsInLaneOrder := by
  unfold Obligations.FoldsInLaneOrder
  intro w f ls i j hfn
  refine ⟨rfl, fun h => w.foldLanes_int f h j [], fun h hls => ?append, fun h => w.foldLanes_values f h j (.inr rfl),
    fun h => w.foldLanes_sum f h i (List.cons_ne_nil j []), fun h hls => ?sumAppend, fun h => ?least, fun h => ?most⟩
  case append =>
    obtain ⟨l, ls, rfl⟩ := List.exists_cons_of_ne_nil hls
    rw [List.cons_append, w.foldLanes_int f h, w.foldLanes_int f h, List.foldl_concat]
  case sumAppend =>
    obtain ⟨l, l', ls, rfl⟩ : ∃ l l' ls', ls = l :: l' :: ls' := by
      match ls, hls with
      | l :: l' :: ls', _ => exact ⟨l, l', ls', rfl⟩
    rw [List.cons_append, w.foldLanes_sum f h l (by simp), w.foldLanes_sum f h l (List.cons_ne_nil _ _), List.foldl_concat]
    rfl
  case least =>
    rw [w.foldLanes_values f (by rw [h]; decide) i (.inl (by rw [h]; decide)), h]
    rfl
  case most =>
    rw [w.foldLanes_values f (by rw [h]; decide) i (.inl (by rw [h]; decide)), h]
    rfl

end Sys2Proof.Machine
end

section
/-! SUPPORT. The conversions of single values and of packed fields (R177–R179). -/

namespace Sys2Proof.Machine

/-! ### Formats and fields (R176–R179) -/

/-- CVTIF's destination format (R176). -/
theorem cvtif_fmt {fn : BitVec 4} (h : fn.toNat < 6) :
    (match fn.toNat / 2 with | 0 => Fmt.f32 | 1 => .f16 | _ => .bf16) = if fn.toNat < 2 then .f32 else if fn.toNat < 4 then .f16 else .bf16 := by
  revert fn; decide
/-- CVTFF's source is FP32 or has 16 bits (R176). -/
theorem cvtffFmts_src (fn : Nat) : (cvtffFmts fn).1 = .f32 ∨ (cvtffFmts fn).1 ≠ .f32 ∧ (cvtffFmts fn).1.width = 16 := by
  unfold cvtffFmts
  split
  exacts [.inr (by decide), .inr (by decide), .inl rfl, .inl rfl, .inr (by decide), .inr (by decide)]
/-- CVTFF reads the whole register of an FP32 source, and the low half of another (R178). -/
theorem cvtff_operand (fn : Nat) (x y : W32) : (if (cvtffFmts fn).1 = .f32 then x else y).toNat % 2 ^ (cvtffFmts fn).1.width =
    if (cvtffFmts fn).1 = .f32 then x.toNat else y.toNat % 2 ^ 16 := by
  obtain h | ⟨h, hw⟩ := cvtffFmts_src fn
  · rw [if_pos h, if_pos h, h]
    exact Nat.mod_eq_of_lt x.isLt
  · rw [if_neg h, if_neg h, hw]
/-- Replacing a field keeps what lies below and above it (R179). -/
theorem replace_field (x q p n : Nat) :
    x - x / 2 ^ p % 2 ^ n * 2 ^ p + q * 2 ^ p = x % 2 ^ p + 2 ^ p * q + x / 2 ^ (p + n) * 2 ^ (p + n) := by
  have hlow := Nat.div_add_mod x (2 ^ p)
  have hfield := Nat.div_add_mod (x / 2 ^ p) (2 ^ n)
  rw [Nat.div_div_eq_div_mul, ← pow_add] at hfield
  have hsplit : x = x % 2 ^ p + x / 2 ^ (p + n) * 2 ^ (p + n) + x / 2 ^ p % 2 ^ n * 2 ^ p := by
    calc x = 2 ^ p * (2 ^ n * (x / 2 ^ (p + n)) + x / 2 ^ p % 2 ^ n) + x % 2 ^ p := by rw [hfield, hlow]
      _ = _ := by ring
  have hrest : x - x / 2 ^ p % 2 ^ n * 2 ^ p = x % 2 ^ p + x / 2 ^ (p + n) * 2 ^ (p + n) := by omega
  rw [hrest]
  ring

/-- The writes of a register depend on the values of the active lanes alone. -/
theorem Wave.each_congr_active (w : Wave) (d : Nat) {g g' : Nat → W32} (h : ∀ l ∈ w.lanes, g l = g' l) : w.each d g = w.each d g' :=
  List.map_congr_left fun l hl => by rw [h l hl]

/-- A lane word that counts, with its registers in range and no request that governs it: the count rises first, by what saturated (R75, R82). -/
theorem wrote_of_sat {s : State} {c k : Nat} {w : Wave} (hr : s.runs c k w) (hw : w.wins = []) {i : Instr} (hi : i.wf) {u : LegacyUse}
    {regs : List Nat} {d : Nat} {g : Wave → Nat → W32} {n : Wave → Nat} (he : exec i s = satWord i s u regs d g n)
    (hin : w.regRange (d :: regs) = false) (hlegacy : w.legacy u = none) {g' : Nat → W32} (hg : ∀ l ∈ w.lanes, g w l = g' l) {n' : Nat}
    (hn : n w = n') : ∃ t, exec i s = .next t
      ∧ WaveWrote (if n' = 0 then s else s.count 5 (dieOfCore c) 7 n') t c k w [] (w.each d g') w.done.spot := by
  unfold satWord at he
  rw [he, sysWord_eq hr hi, if_neg (Bool.eq_false_iff.1 hin), hlegacy, hn, ← w.each_congr_active d hg]
  exact ⟨_, rfl, Wave.wrote_done _ c k w [] (w.each d (g w)) hw (w.each_lanes d _)⟩

end Sys2Proof.Machine
end

section
/-! SUPPORT. Block quantisation (R180): the scale of a block is the smallest code that holds the block's magnitudes, and the words and the count of
CVTQB block by block. -/

namespace Sys2Proof.Machine

/-! ### The largest magnitude of a block -/

/-- A value is a NaN, or finite with a magnitude of at most `r`. -/
def FVal.MagLe (v : FVal) (r : Rat) : Prop := (∀ n, v ≠ .inf n) ∧ ∀ n q, v = .fin n q → q ≤ r

@[simp] theorem FVal.magLe_nan (r : Rat) : FVal.nan.MagLe r := ⟨nofun, nofun⟩
@[simp] theorem FVal.not_magLe_inf (n : Bool) (r : Rat) : ¬ (FVal.inf n).MagLe r := fun h => h.1 n rfl
@[simp] theorem FVal.magLe_fin (n : Bool) (q r : Rat) : (FVal.fin n q).MagLe r ↔ q ≤ r :=
  ⟨fun h => h.2 n q rfl, fun h => ⟨nofun, fun _ _ e => by cases e; exact h⟩⟩

/-- A magnitude that a block's maximum may be: an infinity, or a finite value without a sign. -/
def FVal.IsMag (v : FVal) : Prop := v = .inf false ∨ ∃ p, v = .fin false p

/-- The larger of a magnitude and a value's magnitude, a NaN counting for nothing. -/
def maxStep (m x : FVal) : FVal := match x with | .nan => m | _ => if m.lt x.abs then x.abs else m
theorem maxMag_eq_foldl (xs : List FVal) : maxMag xs = xs.foldl maxStep (.fin false 0) := by
  unfold maxMag
  congr 1

theorem maxStep_isMag {m : FVal} (hm : m.IsMag) (x : FVal) : (maxStep m x).IsMag := by
  cases x with
  | nan => exact hm
  | inf n => unfold maxStep; dsimp only; split; exacts [.inl rfl, hm]
  | fin n q => unfold maxStep; dsimp only; split; exacts [.inr ⟨q, rfl⟩, hm]
/-- The larger of two is within a bound when both are. -/
theorem maxStep_magLe {m : FVal} (hm : m.IsMag) (x : FVal) (r : Rat) : (maxStep m x).MagLe r ↔ m.MagLe r ∧ x.MagLe r := by
  cases x with
  | nan => simp [maxStep]
  | inf n => obtain rfl | ⟨p, rfl⟩ := hm <;> simp [maxStep, FVal.abs, FVal.lt]
  | fin n q =>
    obtain rfl | ⟨p, rfl⟩ := hm
    · simp [maxStep, FVal.abs, FVal.lt]
    have hmax : maxStep (.fin false p) (.fin n q) = .fin false (max p q) := by
      by_cases h : p < q
      · simp [maxStep, FVal.abs, FVal.lt, signed, h, h.le]
      · simp [maxStep, FVal.abs, FVal.lt, signed, h, not_lt.1 h]
    rw [hmax, FVal.magLe_fin, FVal.magLe_fin, FVal.magLe_fin, max_le_iff]

theorem foldl_maxStep_magLe (xs : List FVal) {m : FVal} (hm : m.IsMag) (r : Rat) :
    (xs.foldl maxStep m).MagLe r ↔ m.MagLe r ∧ ∀ x ∈ xs, x.MagLe r := by
  induction xs generalizing m with
  | nil => simp
  | cons x xs ih => rw [List.foldl_cons, ih (maxStep_isMag hm x), maxStep_magLe hm, List.forall_mem_cons, and_assoc]
theorem foldl_maxStep_isMag (xs : List FVal) {m : FVal} (hm : m.IsMag) : (xs.foldl maxStep m).IsMag := by
  induction xs generalizing m with
  | nil => exact hm
  | cons x xs ih => exact ih (maxStep_isMag hm x)

/-- The largest magnitude is within a bound that is not negative when every value is. -/
theorem maxMag_magLe (xs : List FVal) (r : Rat) : (maxMag xs).MagLe r ↔ 0 ≤ r ∧ ∀ x ∈ xs, x.MagLe r := by
  rw [maxMag_eq_foldl, foldl_maxStep_magLe xs (.inr ⟨0, rfl⟩), FVal.magLe_fin]
theorem maxMag_isMag (xs : List FVal) : (maxMag xs).IsMag := by
  rw [maxMag_eq_foldl]; exact foldl_maxStep_isMag xs (.inr ⟨0, rfl⟩)
/-- The largest magnitude is zero when no value exceeds zero. -/
theorem maxMag_isZero (xs : List FVal) : (maxMag xs).isZero = true ↔ ∀ x ∈ xs, x.MagLe 0 := by
  have hle := maxMag_magLe xs
  obtain h | ⟨p, h⟩ := maxMag_isMag xs <;> rw [h] at hle ⊢
  · simpa [FVal.isZero] using hle 0
  · have h0 : 0 ≤ p := ((hle p).1 (by simp)).1
    have := hle 0
    simp only [FVal.magLe_fin, le_refl, true_and] at this
    rw [← this]
    simpa [FVal.isZero] using ⟨fun h => h.le, fun h => le_antisymm h h0⟩

/-! ### The scale of a block -/

/-- The first scale code of an element format. -/
def QElem.first (q : QElem) : Nat := if q.e3m5 then 1 else 0
/-- The last scale code of an element format. -/
def QElem.last (q : QElem) : Nat := if q.e3m5 then 255 else 254
/-- Every value over the scale of code `x` lies within the element format. -/
def QElem.Fits (q : QElem) (xs : List FVal) (x : Nat) : Prop := ∀ v ∈ xs, v.MagLe (q.scaleVal x * q.emax)
/-- The scale of a block of values, and whether it saturates. -/
def QElem.blockScale (q : QElem) (xs : List FVal) : Nat × Bool :=
  if (maxMag xs).isZero then (if q.e3m5 then 0x80 else 0x7F, false) else q.scaleFor (maxMag xs)

theorem QElem.scaleFor_fin (q : QElem) (n : Bool) (p : Rat) : q.scaleFor (.fin n p) =
    match (List.range' q.first 255).find? (fun x => decide (p ≤ q.scaleVal x * q.emax)) with
    | some x => (x, false)
    | none => (q.last, true) := by
  have hcodes : (if q.e3m5 then (List.range 255).map (· + 1) else List.range 255) = List.range' q.first 255 := by
    unfold QElem.first
    split <;> rw [List.range'_eq_map_range]
    · exact congrArg (List.map · _) (funext fun x => Nat.add_comm x 1)
    · exact (List.map_id' _).symm.trans (congrArg (List.map · _) (funext fun x => (Nat.zero_add x).symm))
  rw [← hcodes]
  rfl
theorem QElem.first_add (q : QElem) : q.first + 255 = q.last + 1 := by
  unfold QElem.first QElem.last; split <;> rfl

/-- A scale found for a magnitude is the first that holds it; where none does, it is the last one and saturates. -/
theorem QElem.scaleFor_spec (q : QElem) {m : FVal} (hm : m.IsMag) :
    ((∃ x, q.first ≤ x ∧ x ≤ q.last ∧ m.MagLe (q.scaleVal x * q.emax)) →
      q.first ≤ (q.scaleFor m).1 ∧ (q.scaleFor m).1 ≤ q.last ∧ m.MagLe (q.scaleVal (q.scaleFor m).1 * q.emax)
        ∧ (∀ x, q.first ≤ x → x < (q.scaleFor m).1 → ¬ m.MagLe (q.scaleVal x * q.emax)) ∧ (q.scaleFor m).2 = false)
    ∧ ((¬ ∃ x, q.first ≤ x ∧ x ≤ q.last ∧ m.MagLe (q.scaleVal x * q.emax)) → q.scaleFor m = (q.last, true)) := by
  obtain rfl | ⟨p, rfl⟩ := hm
  · exact ⟨fun ⟨_, _, _, h⟩ => absurd h (FVal.not_magLe_inf _ _), fun _ => rfl⟩
  simp only [FVal.magLe_fin, QElem.scaleFor_fin]
  have hrange := q.first_add
  cases hfind : (List.range' q.first 255).find? (fun x => decide (p ≤ q.scaleVal x * q.emax)) with
  | none =>
    simp only [List.find?_eq_none, List.mem_range'_1, decide_eq_true_eq] at hfind
    exact ⟨fun ⟨x, h1, h2, h3⟩ => absurd h3 (hfind x ⟨h1, by omega⟩), fun _ => rfl⟩
  | some x =>
    simp only [List.find?_range'_eq_some, List.mem_range'_1, decide_eq_true_eq, Bool.not_eq_true', decide_eq_false_iff_not] at hfind
    obtain ⟨hx, ⟨h1, h2⟩, hleast⟩ := hfind
    have h2' : x ≤ q.last := by omega
    exact ⟨fun _ => ⟨h1, h2', hx, hleast, rfl⟩, fun h => absurd ⟨x, h1, h2', hx⟩ h⟩

/-- The rows of R180 for the scale of a block. -/
theorem QElem.blockScale_spec (q : QElem) (xs : List FVal) :
    ((∀ v ∈ xs, v.MagLe 0) → q.blockScale xs = (if q.e3m5 then 0x80 else 0x7F, false))
    ∧ ((¬ ∀ v ∈ xs, v.MagLe 0) →
      ((∃ x, q.first ≤ x ∧ x ≤ q.last ∧ q.Fits xs x) →
        q.first ≤ (q.blockScale xs).1 ∧ (q.blockScale xs).1 ≤ q.last ∧ q.Fits xs (q.blockScale xs).1
          ∧ (∀ x, q.first ≤ x → x < (q.blockScale xs).1 → ¬ q.Fits xs x) ∧ (q.blockScale xs).2 = false)
      ∧ ((¬ ∃ x, q.first ≤ x ∧ x ≤ q.last ∧ q.Fits xs x) → q.blockScale xs = (q.last, true))) := by
  rw [← maxMag_isZero]
  refine ⟨fun h => if_pos h, fun h => ?_⟩
  have hscale : q.blockScale xs = q.scaleFor (maxMag xs) := if_neg h
  have hfits (x : Nat) : q.Fits xs x ↔ (maxMag xs).MagLe (q.scaleVal x * q.emax) := by
    rw [maxMag_magLe]
    refine ⟨fun hx => ⟨?_, hx⟩, And.right⟩
    by_contra hneg
    exact h ((maxMag_isZero xs).2 fun v hv => ⟨(hx v hv).1, fun n p e => ((hx v hv).2 n p e).trans (not_le.1 hneg).le⟩)
  simp only [hfits, hscale]
  exact q.scaleFor_spec (maxMag_isMag xs)

/-! ### The words and the count of a block -/

/-- The value CVTQB reads in lane `l`. -/
def Wave.quantVal (w : Wave) (f : FmtV) (l : Nat) : FVal := w.fin false false (w.selF f.a l)
/-- The active lanes of block `b`. -/
def Wave.quantLanes (w : Wave) (f : FmtV) (b : Nat) : List Nat := w.lanes.filter fun l => decide (l / (qElem f.fn.toNat).n = b)
/-- The block is all zero because of a NaN, which its scale format can say (R180). -/
def Wave.quantNan (w : Wave) (f : FmtV) (b : Nat) : Bool :=
  (w.quantLanes f b).any (fun l => (w.quantVal f l).isNan) && !(qElem f.fn.toNat).e3m5
/-- The scale of block `b`, and whether it saturates. -/
def Wave.quantScale (w : Wave) (f : FmtV) (b : Nat) : Nat × Bool := (qElem f.fn.toNat).blockScale ((w.quantLanes f b).map (w.quantVal f))
/-- The element of lane `l` in block `b`, and whether it saturates. -/
def Wave.quantElem (w : Wave) (f : FmtV) (b l : Nat) : Nat × Bool :=
  if (w.quantVal f l).isNan then (0, true)
  else (qElem f.fn.toNat).elem (w.rnd f.rnd) w.flushOut (w.quantVal f l) ((qElem f.fn.toNat).scaleVal (w.quantScale f b).1)
/-- The word CVTQB writes to lane `l` of block `b`. -/
def Wave.quantWord (w : Wave) (f : FmtV) (b l : Nat) : W32 :=
  if w.quantNan f b then 0xFF00 else BitVec.ofNat 32 ((w.quantScale f b).1 * 256 + (w.quantElem f b l).1)
/-- The SATURATE count of block `b`. -/
def Wave.quantCount (w : Wave) (f : FmtV) (b : Nat) : Nat :=
  if w.quantNan f b then 0
  else (if (w.quantScale f b).2 then 1 else 0) + ((w.quantLanes f b).filter fun l => (w.quantElem f b l).2).length

theorem Wave.quantBlock_eq (w : Wave) (f : FmtV) (b : Nat) : w.quantBlock f (qElem f.fn.toNat) (w.quantLanes f b) =
    ((w.quantLanes f b).map (fun l => (l, w.quantWord f b l)), w.quantCount f b) := by
  unfold Wave.quantBlock
  simp only [List.any_map, List.map_map, List.filter_map, List.length_map]
  by_cases h : w.quantNan f b = true
  · refine (if_pos h).trans ?_
    simp [Wave.quantWord, Wave.quantCount, h]
  · refine (if_neg h).trans ?_
    simp only [Wave.quantWord, Wave.quantCount, h, if_false, Bool.false_eq_true]
    rfl

/-- The lanes of block `b` are the N lanes from N × b, in a wave of `B` whole blocks; beyond it there are none. -/
theorem filter_range_block {n : Nat} (hn : 0 < n) (b B : Nat) :
    (List.range (n * B)).filter (fun l => decide (l / n = b)) = if b < B then (List.range n).map (n * b + ·) else [] := by
  induction B with
  | zero => rfl
  | succ B ih =>
    have hlast : ((List.range n).map (n * B + ·)).filter (fun l => decide (l / n = b)) = if b = B then (List.range n).map (n * b + ·) else [] := by
      have hdiv (l : Nat) (hl : l ∈ (List.range n).map (n * B + ·)) : l / n = B := by
        obtain ⟨j, hj, rfl⟩ := List.mem_map.1 hl
        rw [Nat.mul_add_div hn, Nat.div_eq_of_lt (List.mem_range.1 hj), Nat.add_zero]
      split
      · next h =>
        subst h
        exact List.filter_eq_self.2 fun l hl => decide_eq_true (hdiv l hl)
      · next h => exact List.filter_eq_nil_iff.2 fun l hl => by rw [hdiv l hl, decide_eq_true_eq]; exact fun e => h e.symm
    rw [Nat.mul_succ, List.range_add, List.filter_append, ih, hlast]
    obtain h | rfl | h := lt_trichotomy b B
    · simp [h, h.ne, h.trans (Nat.lt_succ_self B)]
    · simp
    · simp [h.ne', not_lt.2 h.le, not_lt.2 (Nat.succ_le_of_lt h)]

theorem qElem_n (fn : Nat) : (qElem fn).n = if fn = 0 then 8 else if fn = 1 then 16 else 32 := by
  unfold qElem; split <;> simp_all
theorem qElem_n_dvd (fn : Nat) : 0 < (qElem fn).n ∧ 8 ≤ (qElem fn).n ∧ (qElem fn).n ∣ 32 := by
  rw [qElem_n]; split
  · decide
  · split <;> decide

/-- A wave is of whole blocks, so each block's active lanes are those of its N lanes. -/
theorem Wave.quantLanes_eq (w : Wave) (f : FmtV) (b : Nat) : w.quantLanes f b =
    if b < w.width / (qElem f.fn.toNat).n then ((List.range (qElem f.fn.toNat).n).map ((qElem f.fn.toNat).n * b + ·)).filter w.active
    else [] := by
  obtain ⟨hpos, -, hdvd⟩ := qElem_n_dvd f.fn.toNat
  have hwidth : (qElem f.fn.toNat).n * (w.width / (qElem f.fn.toNat).n) = w.width := Nat.mul_div_cancel' (hdvd.mul_right _)
  have hblock := filter_range_block hpos b (w.width / (qElem f.fn.toNat).n)
  rw [hwidth] at hblock
  rw [Wave.quantLanes, Wave.lanes, List.filter_comm, hblock, apply_ite (List.filter w.active)]
  rfl

/-- A block that no active lane is in counts nothing. -/
theorem Wave.quantCount_of_empty {w : Wave} {f : FmtV} {b : Nat} (h : w.quantLanes f b = []) : w.quantCount f b = 0 := by
  have hscale : w.quantScale f b = (if (qElem f.fn.toNat).e3m5 then 0x80 else 0x7F, false) := by
    unfold Wave.quantScale
    rw [h]
    exact ((qElem f.fn.toNat).blockScale_spec []).1 nofun
  simp [Wave.quantCount, hscale, h]

/-- CVTQB quantises block by block. -/
theorem Wave.quant_eq (w : Wave) (f : FmtV) : w.quant f =
    let bs := List.range (w.width / (qElem f.fn.toNat).n)
    (bs.flatMap (fun b => (w.quantLanes f b).map fun l => (l, w.quantWord f b l)), (bs.map (w.quantCount f)).sum) := by
  have hblock : ∀ b ∈ List.range (w.width / (qElem f.fn.toNat).n), w.quantBlock f (qElem f.fn.toNat)
      (((List.range (qElem f.fn.toNat).n).map ((qElem f.fn.toNat).n * b + ·)).filter w.active) =
      ((w.quantLanes f b).map (fun l => (l, w.quantWord f b l)), w.quantCount f b) := fun b hb => by
    rw [← w.quantBlock_eq, w.quantLanes_eq, if_pos (List.mem_range.1 hb)]
  unfold Wave.quant
  dsimp only
  rw [List.map_congr_left hblock, List.flatMap_map, List.map_map]
  rfl

/-- Looking up a lane among the lanes' words finds its word. -/
theorem find?_lane {g : Nat → W32} {ls : List Nat} {l : Nat} (h : l ∈ ls) :
    (((ls.map fun j => (j, g j)).find? (fun x => x.1 == l)).map (fun x => x.2)).getD 0 = g l := by
  rw [List.find?_map]
  cases hfind : ls.find? ((fun x : Nat × W32 => x.1 == l) ∘ fun j => (j, g j)) with
  | none => exact absurd (beq_self_eq_true l) (List.find?_eq_none.1 hfind l h)
  | some j =>
    have hj : (j == l) = true := List.find?_some (p := fun j => j == l) hfind
    rw [eq_of_beq hj]; rfl

theorem Wave.mem_quantLanes {w : Wave} {f : FmtV} {l : Nat} (h : l ∈ w.lanes) : l ∈ w.quantLanes f (l / (qElem f.fn.toNat).n) :=
  List.mem_filter.2 ⟨h, decide_eq_true rfl⟩

/-- The word of an active lane is that of its block. -/
theorem Wave.quant_word {w : Wave} {f : FmtV} {l : Nat} (h : l ∈ w.lanes) :
    (((w.quant f).1.find? (fun x => x.1 == l)).map (fun x => x.2)).getD 0 = w.quantWord f (l / (qElem f.fn.toNat).n) l := by
  have hword : (w.quant f).1 = ((List.range (w.width / (qElem f.fn.toNat).n)).flatMap (w.quantLanes f)).map
      fun j => (j, w.quantWord f (j / (qElem f.fn.toNat).n) j) := by
    rw [w.quant_eq, List.map_flatMap]
    refine List.flatMap_congr fun b _ => List.map_congr_left fun j hj => ?_
    rw [of_decide_eq_true (List.mem_filter.1 hj).2]
  have hlane := Wave.mem_quantLanes (f := f) h
  have hb : l / (qElem f.fn.toNat).n < w.width / (qElem f.fn.toNat).n := by
    rw [w.quantLanes_eq] at hlane
    by_contra hb
    rw [if_neg hb] at hlane
    exact List.not_mem_nil hlane
  rw [hword]
  exact find?_lane (List.mem_flatMap.2 ⟨_, List.mem_range.2 hb, hlane⟩)

/-- A sum over a range takes in every index at which a term is not zero. -/
theorem sum_map_range_eq {t : Nat → Nat} {m n : Nat} (hm : ∀ i, m ≤ i → t i = 0) (hn : ∀ i, n ≤ i → t i = 0) :
    ((List.range m).map t).sum = ((List.range n).map t).sum := by
  have hmono {a b : Nat} (ha : ∀ i, a ≤ i → t i = 0) (hab : a ≤ b) : ((List.range b).map t).sum = ((List.range a).map t).sum := by
    obtain ⟨d, rfl⟩ := Nat.exists_eq_add_of_le hab
    have hrest : (((List.range d).map (a + ·)).map t).sum = 0 := by
      rw [List.map_map]
      exact List.sum_eq_zero fun x hx => by
        obtain ⟨j, -, rfl⟩ := List.mem_map.1 hx
        exact ha _ (Nat.le_add_right a j)
    rw [List.range_add, List.map_append, List.sum_append, hrest, Nat.add_zero]
  obtain h | h := le_total m n
  · exact (hmono hm h).symm
  · exact hmono hn h
/-- A wave's count is that of its blocks, of which there are at most 12. -/
theorem Wave.quant_count (w : Wave) (f : FmtV) : (w.quant f).2 = ((List.range 12).map (w.quantCount f)).sum := by
  rw [w.quant_eq]
  obtain ⟨hpos, h8, -⟩ := qElem_n_dvd f.fn.toNat
  refine sum_map_range_eq (fun b hb => Wave.quantCount_of_empty ?_) fun b hb => Wave.quantCount_of_empty ?_
  · rw [w.quantLanes_eq, if_neg (not_lt.2 hb)]
  · refine List.filter_eq_nil_iff.2 fun l hl h => ?_
    have hlt := Wave.lanes_lt hl
    rw [decide_eq_true_eq, Nat.div_eq_iff hpos] at h
    have : 12 * 8 ≤ b * (qElem f.fn.toNat).n := Nat.mul_le_mul hb h8
    omega

end Sys2Proof.Machine
end

section
/-! SUPPORT. The rows of R180, and the proof of O9. -/

namespace Sys2Proof.Machine

/-! ### The rows of R180 -/

theorem qElem_e3m5 : ∀ fn, (qElem fn).e3m5 = decide (fn < 2)
  | 0 | 1 | 2 | 3 | 4 | 5 | 6 | 7 | _ + 8 => rfl
theorem qElem_fmt : ∀ fn, (qElem fn).fmt = match fn with
    | 0 | 1 | 2 => some .fE2M1 | 3 => some .fE3M2 | 4 => some .fE2M3 | 5 => some .fE4M3 | 6 => some .fE5M2 | _ => none
  | 0 | 1 | 2 | 3 | 4 | 5 | 6 | 7 | _ + 8 => rfl
theorem qElem_emax : ∀ fn, (qElem fn).emax = match fn with
    | 0 | 1 | 2 => 6 | 3 => 28 | 4 => 15 / 2 | 5 => 448 | 6 => 57344 | 7 => 127 | _ => 7
  | 0 | 1 | 2 | 3 | 5 | 6 | 7 | _ + 8 => rfl
  | 4 => by norm_num [qElem, Rat.mkRat_eq_div]
theorem qElem_bits {fn : Nat} (h : (qElem fn).fmt = none) : (qElem fn).bits = if fn = 7 then 8 else 4 := by
  unfold qElem at h ⊢; split at h <;> simp_all
theorem qElem_scaleVal (fn : Nat) {x : Nat} (h : x ≤ 255) : (qElem fn).scaleVal x =
    if decide (fn < 2) then (if x < 32 then mkRat (x : Nat) 1 * pow2 (-8) else mkRat (32 + x % 32 : Nat) 1 * pow2 ((x / 32 : Nat) - 9))
    else pow2 ((x : Int) - 127) := by
  have hexp : x / 32 % 8 = x / 32 := Nat.mod_eq_of_lt (by omega)
  have hzero : x / 32 = 0 ↔ x < 32 := by omega
  rw [QElem.scaleVal, qElem_e3m5, e3m5Val, e8m0Val, hexp]
  simp only [hzero]
  split
  · split
    · next hx => rw [Nat.mod_eq_of_lt hx]
    · rfl
  · rfl

/-- An element is converted or clamped, once (R180). -/
theorem QElem.elem_code (q : QElem) (m : RMode) (flush : Bool) (x : FVal) (s : Rat) : (q.elem m flush x s).1 =
    let y := match x with | .fin n v => .fin n (v / s) | v => v
    match q.fmt with
    | some h => h.flush flush (h.convert m y).code
    | none => (BitVec.ofInt q.bits (max (-(2 ^ (q.bits - 1) - 1) - 1) (min (2 ^ (q.bits - 1) - 1) (y.toInt m)))).toNat := by
  unfold QElem.elem
  cases q.fmt with
  | some h => rfl
  | none =>
    have hpos : (0 : Int) < 2 ^ (q.bits - 1) := by positivity
    exact congrArg (fun x => (BitVec.ofInt q.bits x).toNat) (clampInt_eq (by omega) _)
/-- An element saturates in a floating-point format alone. -/
theorem QElem.elem_saturates (q : QElem) (m : RMode) (flush : Bool) (x : FVal) (s : Rat) : (q.elem m flush x s).2 =
    match q.fmt with
    | some h => h.saturates (h.convert m (match x with | .fin n v => .fin n (v / s) | v => v))
    | none => false := by
  unfold QElem.elem
  cases q.fmt <;> rfl

/-- A value read is within zero exactly when it is a NaN or a zero. -/
theorem Wave.quantVal_magLe_zero (w : Wave) (f : FmtV) (l : Nat) :
    (w.quantVal f l).MagLe 0 ↔ w.quantVal f l = .nan ∨ ∃ n, w.quantVal f l = .fin n 0 := by
  cases h : w.quantVal f l with
  | nan => simp
  | inf n => simp
  | fin n q =>
    have hq : 0 ≤ q := Fmt.value_mag_nonneg h
    simpa using ⟨fun h => le_antisymm h hq, fun h => h.le⟩

/-- A scale code is one of the eight-bit codes. -/
theorem Wave.quantScale_le (w : Wave) (f : FmtV) (b : Nat) : (w.quantScale f b).1 ≤ 255 := by
  obtain ⟨hzero, hscale⟩ := (qElem f.fn.toNat).blockScale_spec ((w.quantLanes f b).map (w.quantVal f))
  have hlast : (qElem f.fn.toNat).last ≤ 255 := by unfold QElem.last; split <;> decide
  unfold Wave.quantScale
  by_cases hz : ∀ v ∈ (w.quantLanes f b).map (w.quantVal f), v.MagLe 0
  · rw [hzero hz]; dsimp only; split <;> decide
  obtain ⟨hfound, hnone⟩ := hscale hz
  by_cases hx : ∃ x, (qElem f.fn.toNat).first ≤ x ∧ x ≤ (qElem f.fn.toNat).last
      ∧ (qElem f.fn.toNat).Fits ((w.quantLanes f b).map (w.quantVal f)) x
  · exact (hfound hx).2.1.trans hlast
  · rw [hnone hx]; exact hlast

/-! ### The statement -/

section
variable {s : State} {c k : Nat} {w : Wave} (hr : s.runs c k w) (hw : w.wins = [])
include hr hw

theorem ends_cvtif (f : FmtV) (hi : (Instr.cvtif f).wf) (hin : w.regRange (f.vd.toNat :: srcRegs f 1) = false) (hlegacy : w.legacy {} = none) :
    let h := if f.fn.toNat < 2 then Fmt.f32 else if f.fn.toNat < 4 then Fmt.f16 else Fmt.bf16
    Ends (.cvtif f) s c k w [] (w.each f.vd.toNat fun l => BitVec.ofNat 32 (w.hout h (w.rnd f.rnd) false
      (FVal.ofRat false (mkRat (if f.fn.toNat % 2 = 0 then (w.selW f.a l).toInt else (w.selW f.a l).toNat) 1)))) := by
  have hfn : f.fn.toNat < 6 := by
    rw [wf_cvtif, Bool.and_eq_true] at hi
    exact vFlt_fn hi.1
  refine ends_of_flt hr hw hi (exec_cvtif s f) hin hlegacy fun l => ?_
  have hsgn : (if f.fn.getLsbD 0 then ((zval (w.selW f.a l) : Nat) : Int) else sval (w.selW f.a l)) =
      if f.fn.toNat % 2 = 0 then (w.selW f.a l).toInt else (w.selW f.a l).toNat := by
    rw [fn_bit0_eq_odd]
    obtain h | h := Nat.mod_two_eq_zero_or_one f.fn.toNat <;> simp [h, zval, sval]
  exact congrArg₂ (fun h x => BitVec.ofNat 32 (w.hout h (w.rnd f.rnd) false (FVal.ofRat false (mkRat x 1)))) (cvtif_fmt hfn) hsgn
theorem wrote_cvtqb (f : FmtV) (hi : (Instr.cvtqb f).wf) (hin : w.regRange (f.vd.toNat :: srcRegs f 1) = false) (hlegacy : w.legacy {} = none)
    {g : Nat → W32} (hg : ∀ l, w.quantWord f (l / (qElem f.fn.toNat).n) l = g l) {t : Nat → Nat} (ht : ∀ b, w.quantCount f b = t b) :
    let n := ((List.range 12).map t).sum
    ∃ s', exec (.cvtqb f) s = .next s' ∧
      WaveWrote (if n = 0 then s else s.count 5 (dieOfCore c) 7 n) s' c k w [] (w.each f.vd.toNat g) w.done.spot :=
  wrote_of_sat hr hw hi (exec_cvtqb s f) hin hlegacy (fun l hl => (Wave.quant_word hl).trans (hg l)) (by rw [w.quant_count, funext ht])
end

/-- Settles O9: single conversions by the shape of their word, CVTPK by the field it replaces, CVTQB block by block with the scale that its
largest magnitude asks for. -/
theorem conversions : Obligations.Conversions := by
  unfold Obligations.Conversions
  intro s c k w f hr hw hin m d a V S
  have hin1 : w.regRange (f.vd.toNat :: srcRegs f 1) = false :=
    Wave.regRange_mono (List.cons_subset_cons _ (by simp [srcRegs])) hin
  refine ⟨fun hi hl => ?cvtfi, fun hi hl => ?cvtif, fun hi hl => ?cvtff, fun hi hl => ?cvtunp, fun hi hl => ?cvtpk, ?cvtqb⟩
  case cvtfi => exact ends_of_flt hr hw hi (exec_cvtfi s f) hin1 hl fun _ => rfl
  case cvtif => exact ends_cvtif hr hw f hi hin1 hl
  case cvtff =>
    refine ends_of_flt hr hw hi (exec_cvtff s f) hin1 hl fun l => ?_
    dsimp only
    rw [cvtff_operand]
  case cvtunp => exact ends_of_flt hr hw hi (exec_cvtunp s f) hin hl fun _ => rfl
  case cvtpk => exact wrote_of_sat hr hw hi (exec_cvtpk s f) hin hl (fun l _ => congrArg (BitVec.ofNat 32) (replace_field _ _ _ _)) rfl
  case cvtqb =>
    intro fn e3 B lanes nan fmt emax hi value first last fits zero elem tops
    have he3 : (qElem fn).e3m5 = e3 := qElem_e3m5 fn
    have hlanes (b : Nat) : w.quantLanes f b = lanes b := by
      unfold Wave.quantLanes; rw [qElem_n]
    have hfirst : (qElem fn).first = first := by unfold QElem.first; rw [he3]
    have hlast : (qElem fn).last = last := by unfold QElem.last; rw [he3]
    have hvalue {x : Nat} (hx : x ≤ 255) : (qElem fn).scaleVal x = value x := qElem_scaleVal fn hx
    have hfits (b : Nat) {x : Nat} (hx : x ≤ 255) : (qElem fn).Fits ((w.quantLanes f b).map (w.quantVal f)) x ↔ fits b x := by
      rw [QElem.Fits, List.forall_mem_map, hvalue hx, qElem_emax, hlanes]
      rfl
    have hzero (b : Nat) : (∀ v ∈ (w.quantLanes f b).map (w.quantVal f), v.MagLe 0) ↔ zero b := by
      rw [List.forall_mem_map, hlanes]
      exact forall₂_congr fun l _ => w.quantVal_magLe_zero f l
    have hnan (b : Nat) : w.quantNan f b = true ↔ nan b ∧ !e3 := by
      rw [Wave.quantNan, hlanes, he3, Bool.and_eq_true]
      rfl
    have hfmt : (qElem fn).fmt = fmt := qElem_fmt fn
    have helem (b l : Nat) : (w.quantElem f b l).1 = if (a l).isNan then 0 else elem l (w.quantScale f b).1 := by
      rw [Wave.quantElem, apply_ite Prod.fst, QElem.elem_code, hvalue (w.quantScale_le f b)]
      refine if_congr Iff.rfl rfl ?_
      dsimp only [elem]
      rw [hfmt]
      clear_value fmt
      cases fmt with
      | some h => rfl
      | none =>
        rw [qElem_bits hfmt]
        dsimp only [hi]
        by_cases h7 : fn = 7
        · simp only [h7, if_true]; rfl
        · simp only [h7, if_false]; rfl
    have htops (b l : Nat) : (w.quantElem f b l).2 = ((a l).isNan || tops l (w.quantScale f b).1) := by
      rw [Wave.quantElem, apply_ite Prod.snd, QElem.elem_saturates, hvalue (w.quantScale_le f b), hfmt]
      cases h : (a l).isNan
      · exact if_neg (by rw [show (w.quantVal f l).isNan = false from h]; decide)
      · exact if_pos h
    refine ⟨fun b => (w.quantScale f b).1, fun b => (w.quantScale f b).2, fun b => ?scale, fun hi hl => ?words⟩
    case scale =>
      have hcode {x : Nat} (hx : x ≤ last) : x ≤ 255 := hx.trans (by unfold last; split <;> decide)
      obtain ⟨hunit, hrest⟩ := (qElem fn).blockScale_spec ((w.quantLanes f b).map (w.quantVal f))
      rw [hzero, he3] at hunit
      have hex : (∃ x, first ≤ x ∧ x ≤ last ∧ (qElem fn).Fits ((w.quantLanes f b).map (w.quantVal f)) x) ↔
          ∃ x, first ≤ x ∧ x ≤ last ∧ fits b x :=
        exists_congr fun x => and_congr_right fun _ => and_congr_right fun hx => hfits b (hcode hx)
      rw [hzero, hfirst, hlast, hex] at hrest
      refine ⟨fun hz => Prod.ext_iff.1 (hunit hz), fun hz hx => ?_, fun hz hx => Prod.ext_iff.1 ((hrest hz).2 hx)⟩
      obtain ⟨h1, h2, hfit, hleast, hsat⟩ := (hrest hz).1 hx
      exact ⟨h1, h2, (hfits b (hcode h2)).1 hfit, fun x hx hlt => (hfits b (hcode (hlt.le.trans h2))).not.1 (hleast x hx hlt), hsat⟩
    case words =>
      refine wrote_cvtqb hr hw f hi hin1 hl (fun l => ?word) (fun b => ?count)
      case word =>
        have hB : l / (qElem fn).n = B l := by rw [qElem_n]
        rw [hB, Wave.quantWord, helem]
        exact if_congr (hnan _) rfl rfl
      case count =>
        simp only [Wave.quantCount, htops, hlanes]
        exact if_congr (hnan b) rfl rfl

end Sys2Proof.Machine
end

section
/-! SUPPORT. The special functions (R92, R93, R181, R182): the exact root, the results within the bound, and the proof of O10. -/

namespace Sys2Proof.Machine

/-! ### Roots (R92) -/

/-- The digits found so far and the next power of two stand on either side of the root. -/
theorem isqrtAux_eq_sqrt (k n r : Nat) (hlo : r * r ≤ n) (hhi : n < (r + 2 ^ k) * (r + 2 ^ k)) : isqrtAux k n r = Nat.sqrt n := by
  induction k generalizing r with
  | zero => exact Nat.eq_sqrt.2 ⟨hlo, hhi⟩
  | succ k ih =>
    rw [isqrtAux]
    rw [pow_succ, Nat.mul_two, ← Nat.add_assoc] at hhi
    split
    · next h => exact ih _ h hhi
    · next h => exact ih _ hlo (not_le.1 h)
theorem isqrtAux_log2 (m : Nat) : isqrtAux (Nat.log2 m / 2 + 1) m 0 = Nat.sqrt m := by
  refine isqrtAux_eq_sqrt _ m 0 (Nat.zero_le m) ?_
  rw [Nat.zero_add, ← pow_add]
  exact Nat.lt_log2_self.trans_le (Nat.pow_le_pow_right two_pos (by omega))

/-- A root's integer part with a half for its remainder stands to every integer as the root does. -/
theorem sticky_root {N d r : Nat} (J : Nat) (hd : 0 < d) (hlo : r * r * d ≤ N) (hhi : N < (r + 1) * (r + 1) * d) :
    let R := 2 * r + (if r * r * d = N then 0 else 1)
    (2 * J < R ↔ J * J * d < N) ∧ (2 * J = R ↔ J * J * d = N) := by
  intro R
  unfold R
  have hstrict {a b : Nat} (h : a < b) : a * a * d < b * b * d := Nat.mul_lt_mul_of_pos_right (Nat.mul_self_lt_mul_self h) hd
  obtain h | rfl | h := lt_trichotomy J r
  · have := hstrict h
    split <;> omega
  · split <;> omega
  · have : (r + 1) * (r + 1) * d ≤ J * J * d := Nat.mul_le_mul_right d (Nat.mul_le_mul h h)
    split <;> omega

/-- The root of a rational, as the integer root of its numerator over a common power of four. -/
theorem sqrtRat_eq (q : Rat) :
    let K := 2 ^ (128 + Nat.log2 q.den)
    let N := q.num.toNat * (K * K)
    let r := Nat.sqrt (N / q.den)
    sqrtRat q = ((2 * r + (if r * r * q.den = N then 0 else 1) : Nat) : Rat) / (2 * K : Nat) := by
  have hpow : 4 ^ (128 + Nat.log2 q.den) = 2 ^ (128 + Nat.log2 q.den) * 2 ^ (128 + Nat.log2 q.den) := Nat.mul_pow 2 2 _
  unfold sqrtRat
  dsimp only
  rw [isqrtAux_log2, hpow, Rat.mkRat_eq_div]
  rfl

/-- A fraction over K stands to one over 2K as twice its numerator to the other. -/
theorem frac_cmp_double (J S : Nat) {K : Nat} (hK : 0 < K) :
    ((J : Rat) / K < (S : Rat) / (2 * K : Nat) ↔ 2 * J < S) ∧ ((J : Rat) / K = (S : Rat) / (2 * K : Nat) ↔ 2 * J = S) := by
  have hK' : (0 : Rat) < K := Nat.cast_pos.2 hK
  have hJ : (J : Rat) / K = ((2 * J : Nat) : Rat) / (2 * K : Nat) := by
    push_cast
    rw [mul_div_mul_left _ _ two_ne_zero]
  have hpos : (0 : Rat) < (2 * K : Nat) := by positivity
  rw [hJ, div_lt_div_iff_of_pos_right hpos, div_left_inj' hpos.ne', Nat.cast_lt, Nat.cast_inj]
  exact ⟨Iff.rfl, Iff.rfl⟩
/-- The square of a fraction over K stands to n / d as its numerator's square to n over K². -/
theorem frac_sq_cmp (J n : Nat) {K d : Nat} (hK : 0 < K) (hd : 0 < d) :
    ((J : Rat) / K * (J / K) < n / d ↔ J * J * d < n * (K * K)) ∧ ((J : Rat) / K * (J / K) = n / d ↔ J * J * d = n * (K * K)) := by
  have hK' : (0 : Rat) < K * K := by positivity
  have hd' : (0 : Rat) < d := Nat.cast_pos.2 hd
  rw [div_mul_div_comm, div_lt_div_iff₀ hK' hd', div_eq_div_iff hK'.ne' hd'.ne']
  constructor <;> norm_cast

/-- The root of a positive rational stands to every multiple of 2^-128 as the exact root does. -/
theorem sqrtRat_root {q : Rat} (hq : 0 < q) (j : Nat) :
    (mkRat j (2 ^ 128) < sqrtRat q ↔ mkRat j (2 ^ 128) * mkRat j (2 ^ 128) < q)
      ∧ (mkRat j (2 ^ 128) = sqrtRat q ↔ mkRat j (2 ^ 128) * mkRat j (2 ^ 128) = q) := by
  have hroot := sqrtRat_eq q
  dsimp only at hroot
  have hd : 0 < q.den := q.den_pos
  have hnum : (q.num.toNat : Int) = q.num := Int.toNat_of_nonneg (Rat.num_nonneg.2 hq.le)
  have hq' : q = (q.num.toNat : Rat) / q.den := by
    rw [← Int.cast_natCast q.num.toNat, hnum, Rat.num_div_den]
  generalize hK : 2 ^ (128 + Nat.log2 q.den) = K at hroot
  have hK0 : 0 < K := hK ▸ by positivity
  have hj : mkRat j (2 ^ 128) = ((j * 2 ^ Nat.log2 q.den : Nat) : Rat) / K := by
    rw [Rat.mkRat_eq_div, ← hK]
    push_cast
    rw [pow_add]
    field_simp
    norm_num
  generalize j * 2 ^ Nat.log2 q.den = J at hj
  have hlo : Nat.sqrt (q.num.toNat * (K * K) / q.den) * Nat.sqrt (q.num.toNat * (K * K) / q.den) * q.den ≤ q.num.toNat * (K * K) :=
    Nat.mul_le_of_le_div _ _ _ (Nat.sqrt_le _)
  have hhi := (Nat.div_lt_iff_lt_mul hd).1 (Nat.lt_succ_sqrt (q.num.toNat * (K * K) / q.den))
  obtain ⟨hlt, heq⟩ := sticky_root J hd hlo hhi
  obtain ⟨hlt2, heq2⟩ := frac_cmp_double J _ hK0
  obtain ⟨hltq, heqq⟩ := frac_sq_cmp J q.num.toNat hK0 hd
  rw [← hq'] at hltq heqq
  rw [hj, hroot]
  exact ⟨hlt2.trans (hlt.trans hltq.symm), heq2.trans (heq.trans heqq.symm)⟩

/-! ### Results within a bound (R92) -/

/-- `y` is a code's value that is the correctly rounded one of `x`, or lies within `n` of its units in the last place. -/
def WithinUlps (n : Nat) (x : Rat) (y : FVal) : Prop :=
  let base := f32Round .rne (FVal.ofRat false x)
  ∃ code : W32, y = f32Val code ∧ (code = base ∨ ∃ p q, y = .fin p q ∧ |signed p q - x| ≤ (n : Rat) * ulpOf base.toNat)

theorem ratAbs_eq_abs (x : Rat) : Rat.abs x = |x| := by
  unfold Rat.abs
  split
  · next h => exact (abs_of_nonneg h).symm
  · next h => exact (abs_of_neg (not_le.1 h)).symm
/-- A code's value is in its low 32 bits. -/
theorem f32Val_ofNat (code : Nat) : f32Val (BitVec.ofNat 32 code) = Fmt.f32.value code := by
  have hsign : code % 2 ^ 32 / 2 ^ 31 % 2 = code / 2 ^ 31 % 2 := by omega
  have hexp : code % 2 ^ 32 / 2 ^ 23 % 2 ^ 8 = code / 2 ^ 23 % 2 ^ 8 := by omega
  have hfrac : code % 2 ^ 32 % 2 ^ 23 = code % 2 ^ 23 := by omega
  simp only [f32Val, BitVec.toNat_ofNat, Fmt.value, Fmt.f32, Nat.reduceAdd, hsign, hexp, hfrac]
  rfl

theorem withinUlps_of_mem {n : Nat} {x : Rat} {code : Nat} (h : code ∈ nearCodes n x) : WithinUlps n x (f32Val (BitVec.ofNat 32 code)) := by
  refine ⟨_, rfl, ?_⟩
  obtain rfl | h := List.mem_cons.1 h
  · exact .inl (by rw [BitVec.ofNat_toNat, BitVec.setWidth_eq])
  · right
    have hnear := (List.mem_filter.1 h).2
    rw [f32Val_ofNat]
    split at hnear
    · next p q hv =>
      rw [decide_eq_true_eq, ratAbs_eq_abs] at hnear
      exact ⟨p, q, hv, by exact_mod_cast hnear⟩
    · exact absurd hnear Bool.false_ne_true
/-- The choice of a special function is one of the codes near its value (R93). -/
theorem Wave.near_mem (w : Wave) (op k : Nat) (a : FVal) (x : Rat) : ∃ code ∈ nearCodes k x, w.near op k a x = f32Val (BitVec.ofNat 32 code) := by
  refine ⟨_, ?_, rfl⟩
  have hlt {i : Nat} : i % (nearCodes k x).length < (nearCodes k x).length := Nat.mod_lt _ (Nat.succ_pos _)
  rw [List.getD_eq_getElem _ _ hlt]
  exact List.getElem_mem hlt
theorem Wave.near_within (w : Wave) (op k : Nat) (a : FVal) (x : Rat) : WithinUlps k x (w.near op k a x) := by
  obtain ⟨code, hmem, h⟩ := w.near_mem op k a x
  exact h ▸ withinUlps_of_mem hmem

/-! ### The ends of the range of 2^x (R92) -/

theorem nearCodes_exp2_max : nearCodes 1 (exp2Rat 400) = [0x7F800000] := by decide +kernel
theorem nearCodes_exp2_min : nearCodes 1 (exp2Rat (-400)) = [0, 0, 0x80000000, 1] := by decide +kernel
theorem Wave.near_exp2_max (w : Wave) (op : Nat) (a : FVal) : w.near op 1 a (exp2Rat 400) = .inf false := by
  obtain ⟨code, hmem, h⟩ := w.near_mem op 1 a (exp2Rat 400)
  rw [nearCodes_exp2_max, List.mem_singleton] at hmem
  rw [h, hmem]
  decide +kernel
theorem Wave.near_exp2_min (w : Wave) (op : Nat) (a : FVal) :
    ∃ p r, w.near op 1 a (exp2Rat (-400)) = .fin p r ∧ 0 ≤ r ∧ r ≤ pow2 (-149) ∧ (p = true → r = 0) := by
  obtain ⟨code, hmem, h⟩ := w.near_mem op 1 a (exp2Rat (-400))
  simp only [nearCodes_exp2_min, List.mem_cons, List.not_mem_nil, or_false] at hmem
  rw [h]
  obtain rfl | rfl | rfl | rfl := hmem
  · exact ⟨false, 0, by decide +kernel, le_rfl, pow2_nonneg _, nofun⟩
  · exact ⟨false, 0, by decide +kernel, le_rfl, pow2_nonneg _, nofun⟩
  · exact ⟨true, 0, by decide +kernel, le_rfl, pow2_nonneg _, fun _ => rfl⟩
  · exact ⟨false, pow2 (-149), by decide +kernel, pow2_nonneg _, le_rfl, nofun⟩

/-! ### The words (R181, R182) -/

/-- A special function under LA 0 with its registers in range, which no legacy request governs. -/
theorem ends_of_special {s : State} {c k : Nat} {w : Wave} (hr : s.runs c k w) (hw : w.wins = []) {i : Instr} (hi : i.wf) {op : Nat}
    {u : LegacyUse} {f : FmtV} {g : Wave → RMode → FVal → FVal} (he : exec i s = specialWord op i u f s g)
    (hin : w.regRange (f.vd.toNat :: srcRegs f 1) = false) (hla : f.la = 0) (hlegacy : w.legacy u = none) :
    Ends i s c k w [] (w.each f.vd.toNat fun l => w.fout (w.rnd f.rnd) f.sat (g w (w.rnd f.rnd) (w.fin f.abs f.negA (w.selF f.a l)))) :=
  ends_of_long hr hw hi he hla op (by rw [if_neg (Bool.eq_false_iff.1 hin), hlegacy]; rfl) (w.each_lanes _ _)

/-- A value chosen by a test, under the same test, is the one chosen. -/
theorem ite_same_test (b : Bool) {P : FVal → Prop} {y z : FVal} (h : P y) : if b then P (if b then y else z) else (if b then y else z) = z := by
  cases b
  · rfl
  · exact h

/-- Settles O10: roots and reciprocals are exact or near their exact value under LRCP; the others take a code near the function's value. -/
theorem specialFunctions : Obligations.SpecialFunctions := by
  unfold Obligations.SpecialFunctions
  intro s c k w f hr hw hin hla m a near root V
  have hnear (op n : Nat) (x : FVal) (y : Rat) : near n y (w.near op n x y) := w.near_within op n x y
  have hroot {q : Rat} (hq : 0 < q) : root q (sqrtRat q) := sqrtRat_root hq
  clear_value near root
  refine ⟨fun hi hl => ⟨_, fun l => ?frcp, ends_of_special hr hw hi (exec_frcp s f) hin hla hl⟩,
    fun hi hl => ⟨_, fun l => ?frsq, ends_of_special hr hw hi (exec_frsq s f) hin hla hl⟩,
    fun hi hl => ⟨_, fun l => ?fsqrt, ends_of_special hr hw hi (exec_fsqrt s f) hin hla hl⟩,
    fun hi hl => ⟨_, fun l => ?fexp2, ends_of_special hr hw hi (exec_fexp2 s f) hin hla hl⟩,
    fun hi hl => ⟨_, fun l => ?flog2, ends_of_special hr hw hi (exec_flog2 s f) hin hla hl⟩,
    fun hi hl => ⟨_, fun l => ?fsin, ends_of_special hr hw hi (exec_fsin s f) hin hla hl⟩,
    fun hi hl => ⟨_, fun l => ?fcos, ends_of_special hr hw hi (exec_fcos s f) hin hla hl⟩,
    fun hi hl => ⟨_, fun l => ?ftanh, ends_of_special hr hw hi (exec_ftanh s f) hin hla hl⟩⟩
  all_goals
    have hval : w.fin f.abs f.negA (w.selF f.a l) = a l := rfl
    beta_reduce
    rw [hval]
    generalize a l = x
  case frcp =>
    refine ⟨?_, ?_, ?_, ?_⟩
    · rintro rfl; rfl
    · rintro n rfl; simp [frcpVal]
    · rintro n rfl; rfl
    · rintro n q hq rfl
      have hexact : frcpVal (.fin n q) = .fin n (1 / q) := if_neg hq
      cases w.lrcp with
      | false => exact hexact
      | true => simpa [hq, hexact, FVal.toRat] using hnear 0x58 1 (.fin n q) (signed n (1 / q))
  case frsq =>
    refine ⟨?_, ?_, ?_, ?_, ?_⟩
    · rintro rfl; rfl
    · rintro n rfl; simp [frsqVal]
    · rintro rfl; rfl
    · rintro q hq rfl; simp [frsqVal, hq]
    · rintro q hq rfl
      have hexact : frsqVal (.fin false q) = .fin false (sqrtRat (1 / q)) := if_neg hq.ne'
      refine ⟨_, hroot (one_div_pos.2 hq), ?_⟩
      cases w.lrcp with
      | false => exact hexact
      | true => simpa [hq.ne', hexact, FVal.toRat, signed] using hnear 0x59 1 (.fin false q) (sqrtRat (1 / q))
  case fsqrt =>
    refine ⟨?_, ?_, ?_, ?_, ?_, ?_⟩
    · rintro rfl; rfl
    · rintro n rfl; rfl
    · rintro rfl; rfl
    · rintro rfl; rfl
    · rintro q hq rfl; exact if_neg hq
    · rintro q hq rfl; exact ⟨_, if_neg hq.ne', hroot hq⟩
  case fexp2 =>
    refine ⟨?_, ?_, ?_, ?_, ?_, ?_⟩
    · rintro rfl; rfl
    · rintro rfl; rfl
    · rintro rfl; rfl
    · rintro n q rfl hq
      rw [abs_le] at hq
      dsimp only
      rw [if_neg (not_lt.2 hq.2), if_neg (not_lt.2 hq.1)]
      exact hnear _ _ _ _
    · rintro n q rfl hq
      dsimp only
      rw [if_pos hq]
      exact w.near_exp2_max _ _
    · rintro n q rfl hq
      dsimp only
      rw [if_neg (by linarith), if_pos hq]
      exact w.near_exp2_min _ _
  case flog2 =>
    refine ⟨?_, ?_, ?_, ?_, ?_⟩
    · rintro rfl; rfl
    · rintro n rfl; rfl
    · rintro rfl; rfl
    · rintro q hq rfl; exact if_neg hq
    · rintro q hq rfl
      dsimp only
      rw [if_neg hq]
      exact hnear _ _ _ _
  case fsin =>
    refine ⟨?_, ?_, ?_⟩
    · rintro rfl; rfl
    · rintro n rfl; rfl
    · rintro n q rfl
      dsimp only
      generalize trigDomain q = b
      exact ite_same_test b (hnear _ _ _ _)
  case fcos =>
    refine ⟨?_, ?_, ?_⟩
    · rintro rfl; rfl
    · rintro n rfl; rfl
    · rintro n q rfl
      dsimp only
      generalize trigDomain q = b
      exact ite_same_test b (hnear _ _ _ _)
  case ftanh =>
    refine ⟨?_, ?_, ?_⟩
    · rintro rfl; rfl
    · rintro n rfl; rfl
    · rintro n q rfl
      exact hnear _ _ _ _

end Sys2Proof.Machine
end

section
/-! SUPPORT. The control words that transfer and that move the divergence stack and the mask words (R194–R203), and the proofs of O15 and O16. -/

namespace Sys2Proof.Machine

/-! ### Addresses (R98, R194, R196) -/

theorem Wave.fallAddr_of_clause {w : Wave} {cl : Clause} (h : w.clause = some cl) :
    w.fallAddr = cl.addr + BitVec.ofNat 64 (8 * (cl.words.length + 1)) := by
  unfold Wave.fallAddr; rw [h]
theorem Wave.wordAddr_of_clause {w : Wave} {cl : Clause} (h : w.clause = some cl) :
    w.wordAddr = cl.addr + BitVec.ofNat 64 (8 * (w.widx + 1)) := by
  unfold Wave.wordAddr Wave.hdrAddr; rw [h]
theorem Wave.target_of_clause {w : Wave} {cl : Clause} (h : w.clause = some cl) (off : W32) :
    w.target off = cl.addr + BitVec.ofNat 64 (8 * (w.widx + 1)) + BitVec.ofInt 64 (8 * off.toInt) :=
  congrArg (· + offBytes off) (Wave.wordAddr_of_clause h)

/-! ### Transfers (R196) -/

/-- A control word whose wave, changed to `u` beside its registers, makes the scalar writes `ss` and transfers to `h`. -/
theorem transfers_of_ctl {s : State} {c k : Nat} {w u : Wave} (hr : s.runs c k w) (hu : u.wins = []) {i : Instr} (hi : i.wf)
    {run : Wave → Except Trap Wave} (he : exec i s = ctlWord i s run) {ss : List (Nat × W32)} {h : W64}
    (hrun : run w = .ok (transfer (u.writeSs ss) h)) : ∃ t, exec i s = .next t ∧ WaveWrote s t c k u ss [] (h, none, 0) :=
  ⟨_, he.trans (ctlWord_ok hr hi hrun), Wave.wrote_transfer s c k u ss h hu⟩

/-- Settles O15: a word of each kind is one transfer, and CALL traps where its link cannot be recorded. -/
theorem transfers : Obligations.Transfers := by
  unfold Obligations.Transfers
  intro s c k w cl f hr hw hcl A F dest r goes
  have hF : w.fallAddr = F := Wave.fallAddr_of_clause hcl
  have hdest : w.target f.off = dest := Wave.target_of_clause hcl f.off
  rw [← hF, ← hdest]
  refine ⟨fun hi => transfers_of_ctl hr hw hi (exec_bra s f) rfl, fun hi => transfers_of_ctl hr hw hi (exec_brs s f) rfl,
    fun hi => transfers_of_ctl hr hw hi (exec_brx s f) rfl, fun hi => ?_, fun hi => transfers_of_ctl hr hw hi (exec_ret s f) rfl, fun hi => ?_⟩
  · split
    next h => exact (exec_call s f).trans (ctlWord_trap hr hi (if_pos h))
    next h => exact transfers_of_ctl hr hw hi (exec_call s f) (if_neg h)
  · have hlast : w.readS r = 1 ↔ w.readS r - 1 = 0 := by bv_omega
    simp only [hlast]
    exact transfers_of_ctl hr hw hi (exec_loop s f) rfl

/-! ### The divergence stack (R142, R199–R202) -/

theorem Wave.depthTrap_of_none {w : Wave} (hw : w.wins = []) (n : Nat) : w.depthTrap n = { cause := 0x0A, sub := n, fm := w.mask } := by
  unfold Wave.depthTrap Wave.trapMask; rw [Wave.closeWins_of_none hw]

/-- The addresses that WOFF names (R142). -/
abbrev Wave.InCode (w : Wave) (h : W64) : Prop := w.codeBase.toNat ≤ h.toNat ∧ h.toNat - w.codeBase.toNat < 2 ^ 34
/-- The wave with an entry on its stack that sends it to `h`. -/
def Wave.pushed (w : Wave) (pending : Bool) (h : W64) (m : BitVec 96) : Wave :=
  { w with dstack := ⟨pending, BitVec.ofNat 31 ((h.toNat - w.codeBase.toNat) / 8), m⟩ :: w.dstack }

section
variable {w : Wave} (pending : Bool) {h : W64} (m : BitVec 96)

theorem Wave.push_outside (hin : ¬ w.InCode h) : w.push pending h m = .error w.illegal := by
  have hw : w.woff h = none := if_neg hin
  unfold Wave.push; rw [hw]
theorem Wave.push_inCode (hin : w.InCode h) :
    w.push pending h m = if 32 ≤ w.dstack.length then .error (w.depthTrap 1) else .ok (w.pushed pending h m) := by
  have hw : w.woff h = some (BitVec.ofNat 31 ((h.toNat - w.codeBase.toNat) / 8)) := if_pos hin
  unfold Wave.push; rw [hw]; rfl
end

/-- A control word that pushes an entry first: it traps where the entry cannot be made, the address before the depth, and goes on otherwise. -/
theorem pushes_of_ctl {s : State} {c k : Nat} {w : Wave} (hr : s.runs c k w) (hw : w.wins = []) {i : Instr} (hi : i.wf)
    {run : Wave → Except Trap Wave} (he : exec i s = ctlWord i s run) {pending : Bool} {h : W64} {m : BitVec 96} {next : Wave → Wave}
    (hrun : run w = (w.push pending h m).map next) {ss : List (Nat × W32)} {spot : W64 × Option Clause × Nat}
    (hwrote : WaveWrote s (s.setWave c k (next (w.pushed pending h m))) c k (w.pushed pending h m) ss [] spot) :
    if ¬ w.InCode h then exec i s = .next (s.trapAt c k w w.illegal)
    else if 32 ≤ w.dstack.length then exec i s = .next (s.trapAt c k w { cause := 0x0A, sub := 1, fm := w.mask })
    else ∃ t, exec i s = .next t ∧ WaveWrote s t c k (w.pushed pending h m) ss [] spot := by
  split
  next hout =>
    rw [Wave.push_outside pending m hout] at hrun
    exact he.trans (ctlWord_trap hr hi hrun)
  next hin =>
    rw [Wave.push_inCode pending m (not_not.1 hin)] at hrun
    split
    next hfull =>
      rw [if_pos hfull, Wave.depthTrap_of_none hw] at hrun
      exact he.trans (ctlWord_trap hr hi hrun)
    next hfree =>
      rw [if_neg hfree] at hrun
      exact ⟨_, he.trans (ctlWord_ok hr hi hrun), hwrote⟩

/-! ### The mask words (R200, R203) -/

/-- The run s_k … s_(k+B-1) passes s127. -/
theorem Wave.not_runOk_iff {w : Wave} {n : Nat} : (!w.runOk n) = true ↔ ¬ n + w.beats - 1 ≤ 127 := by
  unfold Wave.runOk; simp

/-- The mask MASK makes (R203). -/
def Wave.newMask (w : Wave) (f : FmtC) : BitVec 96 :=
  let r := w.runMask f.ca.toNat
  if f.cx = 0 then r else if f.cx = 1 then w.mask &&& r else if f.cx = 2 then w.mask &&& ~~~r else if f.cx = 3 then w.mask ||| r
  else fullMask w.beats

section
variable {s : State} {c k : Nat} {w : Wave} (hr : s.runs c k w) {f : FmtC} (hi : (Instr.mask f).wf)
include hr hi

theorem exec_mask_outside (h : f.cx ≠ 4 ∧ ¬ f.ca.toNat + w.beats - 1 ≤ 127) : exec (.mask f) s = .next (s.trapAt c k w w.illegal) :=
  (exec_mask s f).trans (ctlWord_trap hr hi (if_pos ⟨fun hop => h.1 (BitVec.eq_of_toNat_eq hop), Wave.not_runOk_iff.2 h.2⟩))
theorem exec_mask_fits (h : ¬ (f.cx ≠ 4 ∧ ¬ f.ca.toNat + w.beats - 1 ≤ 127)) :
    exec (.mask f) s = .next (s.setWave c k (w.setMask (w.newMask f)).done) := by
  refine (exec_mask s f).trans (ctlWord_ok hr hi ((if_neg ?_).trans ?_))
  · rintro ⟨hop, hout⟩
    exact h ⟨fun hcx => hop (congrArg BitVec.toNat hcx), Wave.not_runOk_iff.1 hout⟩
  · have hcx : f.cx.toNat < 5 := by simp only [wf_mask, Bool.and_eq_true, decide_eq_true_eq] at hi; exact hi.1.1.2
    unfold Wave.newMask
    obtain h | h | h | h | h : f.cx = 0 ∨ f.cx = 1 ∨ f.cx = 2 ∨ f.cx = 3 ∨ f.cx = 4 := by bv_omega
    all_goals rw [h]; rfl
end

/-- Settles O16, a word at a time. -/
theorem divergence : Obligations.Divergence := by
  unfold Obligations.Divergence
  intro s c k w cl f hr hw hcl A F dest inCode woff mask fits cnd T N depth
  have hF : w.fallAddr = F := Wave.fallAddr_of_clause hcl
  have hdest : w.target f.off = dest := Wave.target_of_clause hcl f.off
  refine ⟨fun hi => ?mark, fun hi => ?brm, fun hi => ?join, fun hi => ?mask⟩
  case mark =>
    exact pushes_of_ctl hr hw hi (exec_mark s f) (by rw [hdest]) (Wave.wrote_special s c k hw hw rfl rfl rfl)
  case brm =>
    split
    next hout => exact (exec_brm s f).trans (ctlWord_trap hr hi (if_pos (Wave.not_runOk_iff.2 hout)))
    next hin =>
    have hfits := mt Wave.not_runOk_iff.1 hin
    split
    next hT => exact transfers_of_ctl hr hw hi (exec_brm s f) (ss := []) ((if_neg hfits).trans ((if_pos hT).trans (by rw [hF]; rfl)))
    next hT =>
    split
    next hN =>
      exact transfers_of_ctl hr hw hi (exec_brm s f) (ss := []) ((if_neg hfits).trans ((if_neg hT).trans ((if_pos hN).trans (by rw [hdest]; rfl))))
    next hN =>
    exact pushes_of_ctl hr hw hi (exec_brm s f) (next := fun u => transfer (u.setMask N) F)
      ((if_neg hfits).trans ((if_neg hT).trans ((if_neg hN).trans (by rw [hdest, hF]))))
      (Wave.wrote_transfer s c k (w.pushed true dest T) (mask N) F hw)
  case join =>
    split
    next hnil =>
      refine (exec_join s f).trans (ctlWord_trap hr hi ?_)
      rw [hnil, Wave.depthTrap_of_none hw]
    next e rest hcons =>
      exact transfers_of_ctl (u := { w with dstack := rest }) hr hw hi (exec_join s f) (ss := mask e.mask) (by rw [hcons]; rfl)
  case mask =>
    split
    next hout => exact exec_mask_outside hr hi hout
    next hin => exact ⟨_, exec_mask_fits hr hi hin, Wave.wrote_done s c k w (mask (w.newMask f)) [] hw (by simp)⟩

end Sys2Proof.Machine
end

section
/-! SUPPORT. Waiting, yielding and ending (R205–R208), and the proof of O17. -/

namespace Sys2Proof.Machine

/-! ### The end of a wave (R207, R260, R435) -/

/-- The wave a HALT leaves, its windows closed and nothing more to issue. -/
def Wave.ended (w : Wave) : Wave :=
  { w.closeWins with
    halted := true, stopped := false, dbg := false, dbgReq := false, trapPending := false, clause := none, block := .none,
    pipe := none, pend := none, poison := none, ecpl := none }

theorem State.setWave_others (s : State) (c k : Nat) (w : Wave) {n : Nat} (hn : n ≠ waveKey c k) :
    Tbl.get? (s.setWave c k w).waves n = Tbl.get? s.waves n := Tbl.get?_set_ne s.waves w hn
theorem State.releaseRefs_others (s : State) (c k : Nat) {n : Nat} (hn : n ≠ waveKey c k) :
    Tbl.get? (s.releaseRefs c k).waves n = Tbl.get? s.waves n := by
  unfold State.releaseRefs
  split
  · rfl
  next w hw =>
    split
    · rfl
    · split
      · exact State.setWave_others _ c k _ hn
      · unfold State.dropRefs
        rw [hw]
        refine (State.setWave_others _ c k _ hn).trans ?_
        exact congrArg (Tbl.get? · n) (foldl_same State.waves (fun u r => State.unrefTile_waves u r.2) w.tref s)

/-- Before a wave that ends releases its tiles and leaves its barriers, the wave alone is changed among the waves. -/
theorem State.endWave_eq (s : State) (c k : Nat) (w : Wave) :
    ∃ u : State, u.waves = (s.setWave c k w.ended).waves ∧ s.endWave c k w = (u.releaseRefs c k).leaveBarriers w.team w.idx := by
  unfold State.endWave
  extract_lets _ s₁ s₂ s₃ s₄
  have h₂ : s₂.waves = s₁.waves := by
    unfold s₂
    split
    · split <;> simp
    · rfl
  have h₃ : s₃.waves = s₂.waves := by
    unfold s₃
    split
    · simp
    · rfl
  exact ⟨s₄, h₃.trans h₂, rfl⟩
theorem State.endWave_halts (s : State) (c k : Nat) (w : Wave) :
    ∃ w', (s.endWave c k w).wave? c k = some w' ∧ w'.halted = true ∧ w'.s = w.closeWins.s ∧ w'.v = w.closeWins.v := by
  obtain ⟨u, hu, he⟩ := s.endWave_eq c k w
  have hw : u.wave? c k = some w.ended := (State.wave?_of_waves hu c k).trans (State.wave?_setWave_self ..)
  obtain ⟨refs, reqs, hrel⟩ := State.releaseRefs_wave hw
  rw [he]
  exact ⟨_, (State.wave?_of_waves (State.leaveBarriers_waves ..) c k).trans hrel, rfl, rfl, rfl⟩
theorem State.endWave_others (s : State) (c k : Nat) (w : Wave) {n : Nat} (hn : n ≠ waveKey c k) :
    Tbl.get? (s.endWave c k w).waves n = Tbl.get? s.waves n := by
  obtain ⟨u, hu, he⟩ := s.endWave_eq c k w
  rw [he, State.leaveBarriers_waves, State.releaseRefs_others u c k hn, hu]
  exact State.setWave_others s c k w.ended hn

/-! ### A word that waits, and one that yields (R50, R53, R205, R206) -/

/-- A word that first blocks keeps its wave but for the pipe, and notes when it blocked. -/
theorem Wave.blockAt_eq {w : Wave} (hw : w.wins = []) (hb : w.block = .none) (now stage wake : Nat) :
    ∃ p, w.blockAt now stage wake = { w with pipe := p, block := .word now stage wake } := by
  unfold Wave.blockAt
  rw [Wave.closeWins_of_none hw, ite_self]
  by_cases hop : opBlocks (opOf w.curWord) = true
  · exact ⟨none, by simp only [hop, if_true, hb]⟩
  · exact ⟨w.pipe, by simp only [hop, Bool.false_eq_true, if_false, hb]⟩

/-- YIELD marks its wave beside the end of the word (R101, R205). -/
theorem Wave.wrote_yielded (s : State) (c k : Nat) {w : Wave} (hw : w.wins = []) :
    WaveWrote s (s.setWave c k { w.done with yielded := true }) c k w [] [] w.done.spot := by
  refine ⟨_, rfl, w.done_bare hw, rfl, fun r => ?_, fun n l _ => ?_⟩
  · show w.done.rawS r = w.rawS r
    unfold Wave.rawS; rw [w.done_s hw, w.done_beats hw]
  · show w.done.rawV n l = w.rawV n l
    unfold Wave.rawV; rw [w.done_v hw]

section
variable {s : State} {c k : Nat} {w : Wave} {i : Instr} (hw : w.wins = [])
include hw

theorem ends_of_done (he : exec i s = .next (s.setWave c k w.done)) : Ends i s c k w [] [] :=
  ⟨_, he, Wave.wrote_done s c k w [] [] hw (by simp)⟩
theorem yields_of_done (he : exec i s = .next (s.setWave c k { w.done with yielded := true })) : ∃ t w', exec i s = .next t
    ∧ WaveWrote s t c k w [] [] w.done.spot ∧ t.wave? c k = some w' ∧ w'.yielded = true :=
  ⟨_, _, he, Wave.wrote_yielded s c k hw, State.wave?_setWave_self .., rfl⟩
theorem blocks_of_blockAt (hb : w.block = .none) {due : Nat} (he : exec i s = .next (s.setWave c k (w.blockAt s.time 1 due))) {lo hi : Nat}
    (hlo : lo ≤ due) (hhi : due ≤ hi) : ∃ w' wake, exec i s = .next (s.setWave c k w') ∧ w'.bare = w.bare ∧ w'.s = w.s ∧ w'.v = w.v
      ∧ w'.spot = w.spot ∧ w'.block = .word s.time 1 wake ∧ lo ≤ wake ∧ wake ≤ hi := by
  obtain ⟨p, hp⟩ := Wave.blockAt_eq hw hb s.time 1 due
  rw [hp] at he
  exact ⟨_, due, he, rfl, rfl, rfl, rfl, rfl, hlo, hhi⟩
end

theorem State.choose_lt (s : State) (idx : Nat) {n : Nat} (hn : 0 < n) : s.choose idx n < n := by
  unfold State.choose
  split
  · exact hn
  · exact Nat.mod_lt _ hn

/-- Settles O17, a word at a time. -/
theorem waitingAndEnding : Obligations.WaitingAndEnding := by
  unfold Obligations.WaitingAndEnding
  intro s c k w cl f hr hw hcl A F blocks thr n
  refine ⟨fun hi => ?nop, fun hi => ?yield, fun hi hb => ?waitc, fun hi hb => ?sleep, fun since wake hi hb hwake => ?woken, fun hi => ?halt,
    fun hi => ?trap⟩
  case nop => exact ends_of_done hw ((exec_nop s f).trans (ctlWord_ok hr hi rfl))
  case yield => exact yields_of_done hw ((exec_yield s f).trans (ctlWord_ok hr hi rfl))
  case waitc =>
    have he := (exec_waitc s f).trans (sysWord_eq hr hi _)
    dsimp only at he
    rw [hb] at he
    have hthr : 63 ≤ thr ↔ thr = 63 := by omega
    split
    next hmet => exact ends_of_done hw (he.trans (congrArg _ (if_pos (hmet.imp_left hthr.2))))
    next hmet => exact blocks_of_blockAt hw hb (he.trans (congrArg _ (if_neg (mt (Or.imp_left hthr.1) hmet)))) le_rfl le_rfl
  case sleep =>
    have he := (exec_sleep s f).trans (sysWord_eq hr hi _)
    dsimp only at he
    rw [hb] at he
    split
    next hn => exact yields_of_done hw (he.trans (congrArg _ (if_pos hn)))
    next hn =>
      have hlate : s.choose 900400 257 ≤ 256 := Nat.le_of_lt_succ (s.choose_lt 900400 (by decide))
      exact blocks_of_blockAt hw hb (he.trans (congrArg _ (if_neg hn))) (Nat.le_add_right ..) (Nat.add_le_add_left hlate _)
  case woken =>
    refine ends_of_done hw ((exec_sleep s f).trans ((sysWord_eq hr hi _).trans ?_))
    dsimp only
    rw [hb]
    exact congrArg _ (if_pos hwake)
  case halt =>
    have he := (exec_halt s f).trans (sysWord_eq hr hi _)
    split
    next hc =>
      have he := he.trans (congrArg _ (if_pos hc))
      rw [Wave.tickWins_of_none hw] at he
      obtain ⟨w', hw', hhalt, hs, hv⟩ := s.endWave_halts c k w
      rw [Wave.closeWins_of_none hw] at hs hv
      exact ⟨_, w', he, hw', hhalt, hs, hv, State.endWave_mem .., fun m hm => State.endWave_others s c k w hm⟩
    next hc => exact ends_of_done hw (he.trans (congrArg _ (if_neg hc)))
  case trap =>
    have he := (exec_trap s f).trans (sysWord_eq hr hi _)
    split
    next hc =>
      have hoff : f.off.toNat < 256 := by simp only [wf_trap, Bool.and_eq_true, decide_eq_true_eq] at hi; exact hi.2
      have he := he.trans (congrArg _ (if_pos hc))
      rw [Nat.mod_eq_of_lt hoff, Wave.wordAddr_of_clause hcl, Wave.fallAddr_of_clause hcl, Wave.trapMask, Wave.closeWins_of_none hw] at he
      exact he
    next hc => exact ends_of_done hw (he.trans (congrArg _ (if_neg hc)))

end Sys2Proof.Machine
end

section
/-! SUPPORT. The sequencer's stream at issue (R211–R219): where a word leaves it and what it leaves unchanged, the control words (R230–R232), and the
proof of O31. -/

namespace Sys2Proof.Machine

/-! ### Where a word stands, and its end (R230, R231) -/

/-- The stream moved to another place. -/
def Stream.moved (m : Stream) (p : W64) (cl : Option Clause) (n : Nat) (b : Block) : Stream :=
  { m with mpc := p, clause := cl, widx := n, block := b }

section
variable {m : Stream} {cl : Clause} (h : m.clause = some cl)
include h

theorem Stream.wordAddr_of_clause : m.wordAddr = cl.addr + BitVec.ofNat 64 (8 * (m.widx + 1)) := by
  unfold Stream.wordAddr; rw [h]
theorem Stream.fallAddr_of_clause : m.fallAddr = cl.addr + BitVec.ofNat 64 (8 * (cl.words.length + 1)) := by
  unfold Stream.fallAddr; rw [h]
theorem Stream.done_of_clause : m.done = if m.widx + 1 < cl.words.length
    then m.moved (cl.addr + BitVec.ofNat 64 (8 * (m.widx + 2))) (some cl) (m.widx + 1) .none else m.moved m.fallAddr none 0 .none := by
  unfold Stream.done Stream.moved; rw [h]; rfl
/-- Behind its word a stream stands at the clause's next word, or at the fall-through header. -/
theorem Stream.done_place : (m.done.mpc, m.done.clause, m.done.widx) = if m.widx + 1 < cl.words.length then
    (cl.addr + BitVec.ofNat 64 (8 * (m.widx + 1)) + 8, some cl, m.widx + 1) else (cl.addr + BitVec.ofNat 64 (8 * (cl.words.length + 1)), none, 0) := by
  rw [Stream.done_of_clause h, ← Stream.fallAddr_of_clause h]
  split
  · have hnext : cl.addr + BitVec.ofNat 64 (8 * (m.widx + 2)) = cl.addr + BitVec.ofNat 64 (8 * (m.widx + 1)) + 8 := by bv_omega
    exact Prod.ext hnext rfl
  · rfl
end

theorem Stream.done_of_none {m : Stream} (h : m.clause = none) : m.done = m := by unfold Stream.done; rw [h]
/-- The end of a word moves its stream, and changes nothing else of it. -/
theorem Stream.done_eq_moved (m : Stream) : ∃ p cl n b, m.done = m.moved p cl n b := by
  cases h : m.clause with
  | none => exact ⟨m.mpc, m.clause, m.widx, m.block, Stream.done_of_none h⟩
  | some cl =>
    rw [Stream.done_of_clause h]
    split
    · exact ⟨_, _, _, _, rfl⟩
    · exact ⟨_, _, _, _, rfl⟩

section
variable (m : Stream)

@[simp] theorem Stream.done_m : m.done.m = m.m := by obtain ⟨p, cl, n, b, h⟩ := m.done_eq_moved; rw [h]; rfl
@[simp] theorem Stream.done_fb : m.done.fb = m.fb := by obtain ⟨p, cl, n, b, h⟩ := m.done_eq_moved; rw [h]; rfl
@[simp] theorem Stream.done_tags : m.done.tags = m.tags := by obtain ⟨p, cl, n, b, h⟩ := m.done_eq_moved; rw [h]; rfl
@[simp] theorem Stream.done_xferQ : m.done.xferQ = m.xferQ := by obtain ⟨p, cl, n, b, h⟩ := m.done_eq_moved; rw [h]; rfl
@[simp] theorem Stream.done_quarters : m.done.quarters = m.quarters := by obtain ⟨p, cl, n, b, h⟩ := m.done_eq_moved; rw [h]; rfl
@[simp] theorem Stream.done_bare : m.done.bare = m.bare := by obtain ⟨p, cl, n, b, h⟩ := m.done_eq_moved; rw [h]; rfl
end

/-- A change of a stream that neither reads nor moves its place may be made before the end of its word or after it. -/
theorem Stream.done_update (g : Stream → Stream) (hg : ∀ m p cl n b, g (m.moved p cl n b) = (g m).moved p cl n b) (m : Stream) :
    (g m).done = g m.done := by
  have hself : g m = (g m).moved m.mpc m.clause m.widx m.block := hg m m.mpc m.clause m.widx m.block
  have hcl : (g m).clause = m.clause := by rw [hself]; rfl
  cases h : m.clause with
  | none => rw [Stream.done_of_none h, Stream.done_of_none (hcl.trans h)]
  | some cl =>
    have hn : (g m).widx = m.widx := by rw [hself]; rfl
    rw [h] at hcl
    rw [Stream.done_of_clause h, Stream.done_of_clause hcl, Stream.fallAddr_of_clause h, Stream.fallAddr_of_clause hcl, hn, apply_ite g, hg, hg]

/-! ### m registers (R230) -/

theorem Stream.getD_setM (m : Stream) (k : Nat) (x : W32) (j : Nat) :
    Tbl.getD (m.setM k x).m j 0 = if j = k then x else Tbl.getD m.m j 0 := Tbl.getD_put ..
theorem Stream.done_setM (m : Stream) (k : Nat) (x : W32) : (m.setM k x).done = m.done.setM k x :=
  Stream.done_update (Stream.setM · k x) (fun _ _ _ _ _ => rfl) m

/-- A sequencer word that completes at issue. -/
theorem seqNow_eq {s : State} {c : Nat} {m : Stream} (h : s.runsStream c m) {i : Instr} (hi : i.wf = true) (run : Stream → Stream) :
    seqNow i s run = .next (s.setStream c (run m)) := seqWord_eq h hi _

/-! ### Meeting the waves (R232) -/

theorem State.barrier?_zero (s : State) (team id : Nat) : s.barrier? team 0 id = (s.team? team).bind (fun t => Tbl.get? t.tb id) := by
  unfold State.barrier?; cases s.team? team <;> rfl
theorem State.barrier?_of_teams {s t : State} (h : t.teams = s.teams) (team id : Nat) : t.barrier? team 0 id = s.barrier? team 0 id := by
  rw [State.barrier?_zero, State.barrier?_zero, State.team?_of_teams h]
/-- A team's barrier, set, is what the team holds there. -/
theorem State.barrier?_setBarrier {s : State} {team id : Nat} {b : Barrier} (h : s.barrier? team 0 id = some b) (b' : Barrier) :
    (s.setBarrier team 0 id b').barrier? team 0 id = some b' := by
  rw [State.barrier?_zero] at h ⊢
  obtain ⟨x, hx, -⟩ := Option.bind_eq_some_iff.1 h
  unfold State.setBarrier; rw [hx]
  exact (congrArg (Option.bind · _) (State.team?_setTeam_self ..)).trans (Tbl.get?_set_self ..)

section
variable {s : State} {c : Nat} {m : Stream} {f : FmtX} (hr : s.runsStream c m) {b : Barrier} (hb : s.barrier? m.team 0 f.imm.toNat = some b)
include hr hb

theorem exec_mwait_of_barrier (hi : (Instr.mwait f).wf = true) : exec (.mwait f) s
    = .next (if b.waitOver m.member then (s.columnAcquire (s.paired m.team) 1 c).setStream c m.done else s.blockStream c m 1) := by
  refine (exec_mwait s f).trans ((seqWord_eq hr hi _).trans ?_)
  rw [hb]

variable (hi : (Instr.marr f).wf = true)
include hi

theorem exec_marr_of_unended (hq : ¬ (m.arrayQ = [] ∧ m.xferQ = [] ∧ m.mfmt = [])) : exec (.marr f) s = .next (s.blockStream c m 0) := by
  have hany : (!m.arrayQ.isEmpty || !m.xferQ.isEmpty || !m.mfmt.isEmpty) = true := by simpa [not_and_or, or_assoc, -not_and] using hq
  refine (exec_marr s f).trans ((seqWord_eq hr hi _).trans ?_)
  rw [hb]; exact congrArg _ (if_pos hany)

variable (hq : m.arrayQ = [] ∧ m.xferQ = [] ∧ m.mfmt = [])
include hq

theorem exec_marr_of_stall (ha : b.arrive m.member = none) : exec (.marr f) s = .next (s.blockStream c m 1) := by
  obtain ⟨hA, hX, hF⟩ := hq
  refine (exec_marr s f).trans ((seqWord_eq hr hi _).trans ?_)
  rw [hb]; dsimp only; rw [hA, hX, hF, ha]; rfl
theorem exec_marr_of_arrive {b' : Barrier} (ha : b.arrive m.member = some b') : exec (.marr f) s = .next
    ((((s.columnRelease (s.paired m.team) 1 c).setBarrier m.team 0 f.imm.toNat b').pmcCount c 0x1E 1 m.team).setStream c m.done) := by
  obtain ⟨hA, hX, hF⟩ := hq
  refine (exec_marr s f).trans ((seqWord_eq hr hi _).trans ?_)
  rw [hb]; dsimp only; rw [hA, hX, hF, ha]; rfl
end

/-- Settles O31, a word at a time: each leaves its stream behind the word or at its target, and a barrier word follows its barrier's state. -/
theorem streamControl : Obligations.StreamControl := by
  unfold Obligations.StreamControl
  intro s c m cl f hr hcl A F dest reg wrote still next sets
  have hA : m.wordAddr = A := Stream.wordAddr_of_clause hcl
  have hF : m.fallAddr = F := Stream.fallAddr_of_clause hcl
  have hdest : m.target f = dest := congrArg (· + BitVec.ofInt 64 (8 * f.imm.toInt)) hA
  have sets_of {i : Instr} {run : Stream → Stream} {x : W32} (he : exec i s = seqNow i s run) (hrun : run m = (m.setM f.cha.toNat x).done) :
      sets i x := fun hi => by
    rw [Stream.done_setM] at hrun
    refine ⟨m.done.setM f.cha.toNat x, (he.trans (seqNow_eq hr hi run)).trans (by rw [hrun]), fun j => ?_, m.done_bare, Stream.done_place hcl⟩
    rw [Stream.getD_setM, Stream.done_m]
  rw [← hF, ← hdest]
  refine ⟨sets_of (exec_mset s f) ?mset, sets_of (exec_madd s f) rfl, fun hi => ?mloop, fun hi => ?mbr, fun hi => ?mhalt, fun b hi hb => ?marr,
    fun b hi hb => ?mwait⟩
  case mset =>
    have h0 : f.fn = 0 ↔ f.fn.toNat = 0 := BitVec.toNat_inj.symm
    have h1 : f.fn = 1 ↔ f.fn.toNat = 1 := BitVec.toNat_inj.symm
    simp only [h0, h1]
    split
    next h => rw [if_pos h]
    next h => rw [if_neg (by omega), if_pos h]; rfl
    next h h' => rw [if_neg h, if_neg h']; rfl
  case mloop =>
    have hlast : reg f.cha = 1 ↔ reg f.cha - 1 = 0 := by bv_omega
    simp only [hlast]
    exact ⟨_, (exec_mloop s f).trans (seqNow_eq hr hi _), m.getD_setM _ _, rfl, rfl⟩
  case mbr =>
    refine ⟨_, (exec_mbr s f).trans (seqNow_eq hr hi _), rfl, rfl, Prod.ext (if_congr ?_ rfl rfl) rfl⟩
    simp only [wf_mbr, xWord, Bool.and_eq_true, decide_eq_true_eq] at hi
    have hfn : f.fn = 0 ∨ f.fn = 1 ∨ f.fn = 2 := by bv_omega
    obtain h | h | h := hfn <;> rw [h]
    · exact iff_of_true rfl (.inl rfl)
    · refine (show (!decide (reg f.cha = 0)) = true ↔ reg f.cha ≠ 0 by simp).trans ?_
      simp
    · refine (decide_eq_true_iff : decide (reg f.cha = 0) = true ↔ _).trans ?_
      simp
  case mhalt =>
    exact ⟨_, _, (exec_mhalt s f).trans (seqWord_eq hr hi _), State.stream?_endStream .., rfl, rfl, rfl, rfl, rfl, State.endStream_mem ..⟩
  case marr =>
    split
    next hq =>
      split
      next b' ha =>
        refine ⟨_, _, exec_marr_of_arrive hr hb hi hq ha, State.stream?_setStream_self .., rfl, ?_⟩
        rw [State.barrier?_of_teams (State.setStream_teams ..), State.barrier?_of_teams (State.pmcCount_teams ..)]
        exact State.barrier?_setBarrier ((State.barrier?_of_teams (State.columnRelease_teams ..) ..).trans hb) b'
      next ha => exact exec_marr_of_stall hr hb hi hq ha
    next hq => exact exec_marr_of_unended hr hb hi hq
  case mwait =>
    have he := exec_mwait_of_barrier hr hb hi
    split
    next hover =>
      rw [if_pos hover] at he
      exact ⟨_, he, State.stream?_setStream_self .., (State.barrier?_of_teams (State.columnAcquire_teams ..) ..).trans hb⟩
    next hwait => rwa [if_neg hwait] at he

end Sys2Proof.Machine
end

section
/-! SUPPORT. The words that enter the sequencer's queues (R211–R229, R233): the tags they leave, the queue entries, the channels' queues and the
quarters, and the proofs of O32 and O33. -/

namespace Sys2Proof.Machine

/-! ### Tags (R145, R221, R222) -/

/-- Rows rewritten one after another by a change that made twice is made once. -/
theorem Tbl.getD_foldl_put {α : Type} [DecidableEq α] {d : α} {g : α → α} (hg : ∀ x, g (g x) = g x) (l : List Nat) (t : Tbl α) (j : Nat) :
    Tbl.getD (l.foldl (fun t n => Tbl.put t n d (g (Tbl.getD t n d))) t) j d = if j ∈ l then g (Tbl.getD t j d) else Tbl.getD t j d := by
  induction l generalizing t with
  | nil => rfl
  | cons n l ih =>
    rw [List.foldl_cons, ih, Tbl.getD_put]
    by_cases hn : j = n
    · subst hn; simp [hg]
    · simp [hn]

section
variable (m : Stream) (slots : List Nat) (v : Nat)

theorem Stream.getD_setTags (j : Nat) : Tbl.getD (m.setTags slots v).tags j 0 = if j ∈ slots then v else Tbl.getD m.tags j 0 :=
  Tbl.getD_foldl_put (g := fun _ => v) (fun _ => rfl) slots m.tags j
theorem Stream.getD_clearValid (j : Nat) :
    Tbl.getD (m.clearValid slots).tags j 0 = if j ∈ slots then Tbl.getD m.tags j 0 % 8 else Tbl.getD m.tags j 0 :=
  Tbl.getD_foldl_put (g := (· % 8)) (fun x => Nat.mod_mod x 8) slots m.tags j
theorem Stream.done_setTags : (m.setTags slots v).done = m.done.setTags slots v :=
  Stream.done_update (Stream.setTags · slots v) (fun _ _ _ _ _ => rfl) m
theorem Stream.done_clearValid : (m.clearValid slots).done = m.done.clearValid slots :=
  Stream.done_update (Stream.clearValid · slots) (fun _ _ _ _ _ => rfl) m
theorem Stream.done_wake (now : Nat) : (m.wake slots now).done = m.done.wake slots now :=
  Stream.done_update (Stream.wake · slots now) (fun _ _ _ _ _ => rfl) m

/-- A gated quarter starts to wake where a word uses it, and stays gated elsewhere (R233). -/
theorem Stream.getD_wake_of_gated {n : Nat} (hn : n < 4) (hg : m.quarters.getD n .gated = .gated) (qs : List Nat) (now : Nat) :
    (m.wake qs now).quarters.getD n .gated = if n ∈ qs then .waking now else .gated := by
  unfold Stream.wake
  simp only [List.getD_eq_getElem?_getD, List.getElem?_map, List.getElem?_range hn, Option.map_some, Option.getD_some] at hg ⊢
  rw [hg]
end

/-! ### The queues (R212, R216) -/

theorem Stream.arrayFull_iff (m : Stream) : m.arrayFull = true ↔ 4 ≤ (m.arrayQ.filter (fun q => !q.begun)).length := decide_eq_true_iff
theorem Stream.xferFull_iff (m : Stream) : m.xferFull = true ↔ 4 ≤ (m.xferQ.filter (fun q => !q.begun)).length := decide_eq_true_iff
theorem State.stream?_pushArray (s : State) (c : Nat) {m d : Stream} (hd : m.done = d) (q : QWord) :
    (s.pushArray c m q).stream? c = some { d with arrayQ := m.arrayQ ++ [q] } := hd ▸ State.stream?_setStream_self ..
theorem State.stream?_xferIssue (s : State) (c : Nat) {m d : Stream} (hd : m.done = d) (q : QWord) :
    (s.xferIssue c m q).stream? c = some { d with xferQ := m.xferQ ++ [q] } := hd ▸ State.stream?_setStream_self ..

/-! ### MST without a scale (R226) -/

section
variable (m : Stream) {f : FmtX} (h : f.flags.getLsbD 2 = false)
include h
theorem Stream.mstBlocks_of_unscaled : m.mstBlocks f = [f.fb.toNat] := by unfold Stream.mstBlocks; rw [h]; rfl
theorem Stream.mstBands_of_unscaled : m.mstBands f = [] := by unfold Stream.mstBands; rw [h]; rfl
theorem State.bandWaits_of_unscaled (s : State) (c : Nat) : s.bandWaits c m f = false := by
  unfold State.bandWaits; rw [m.mstBands_of_unscaled h]; rfl
theorem State.mstScale_of_unscaled (s : State) (c : Nat) : s.mstScale c m f = .ok (s, 0x3F800000) := by
  unfold State.mstScale; rw [m.mstBands_of_unscaled h]
end

/-- Settles O32, a word at a time: MZERO and MCVT wait at a full array queue, and each word else goes into its queue with what it captured. -/
theorem matrixWordsIssue : Obligations.MatrixWordsIssue := by
  unfold Obligations.MatrixWordsIssue
  intro s c m f hr slots full tagged waits moved
  have waits_of {i : Instr} (he : exec i s = .next (s.blockStream c m 0)) : waits i := ⟨_, he, rfl, rfl, rfl, rfl, rfl, rfl, rfl⟩
  have queued_of {i : Instr} {m₁ : Stream} {q : QWord} {P : Prop}
      (he : exec i s = .next (if m.arrayFull then s.blockStream c m 0 else s.pushArray c m₁ q))
      (hpush : exec i s = .next (s.pushArray c m₁ q) → P) : if full m.arrayQ then waits i else P := by
    split
    next hfull => exact waits_of (he.trans (congrArg _ (if_pos (m.arrayFull_iff.2 hfull))))
    next hfree => exact hpush (he.trans (congrArg _ (if_neg (mt m.arrayFull_iff.1 hfree))))
  have tagged_of (v : Nat) : tagged (m.done.setTags slots v) v := fun j => (Stream.getD_setTags ..).trans (by rw [m.done_tags])
  refine ⟨fun hi => queued_of ((exec_mzero s f).trans (seqWord_eq hr hi _)) fun he => ?mzero,
    fun hi => queued_of ((exec_mcvt s f).trans (seqWord_eq hr hi _)) fun he => ?mcvt, fun x o hi hx ho hal hfit hbad => ?mfmt,
    fun as hi hp hok hq => ?mld, fun as hi hp hunscaled hok hq => ?mst⟩
  case mzero =>
    refine ⟨_, _, _, he, State.stream?_pushArray _ c (m.done_clearValid slots) _, rfl, rfl, rfl, fun j => ?_, ⟨rfl, m.done_m, m.done_fb⟩,
      State.pushArray_mem ..⟩
    exact (m.done.getD_clearValid slots j).trans (by rw [m.done_tags])
  case mcvt =>
    exact ⟨_, _, _, he, State.stream?_pushArray _ c (m.done_setTags slots _) _, rfl, rfl, rfl, tagged_of _, ⟨rfl, m.done_m, m.done_fb⟩,
      State.pushArray_mem ..⟩
  case mfmt =>
    have he := (exec_mfmt s f).trans (seqWord_eq hr hi _)
    have hfits : x.fits o 32 = true := decide_eq_true hfit
    rw [hx] at he; dsimp only [Stream.mreg] at he
    rw [← ho, if_neg (not_not.2 hal), hfits, hbad] at he
    exact ⟨_, he, rfl, rfl, m.done_m, m.done_fb⟩
  case mld =>
    have he := (exec_mld s f).trans (seqWord_eq hr hi _)
    rw [hp] at he; dsimp only at he
    rw [hok] at he; dsimp only at he
    rw [if_neg Bool.false_ne_true, if_neg (mt m.xferFull_iff.1 hq)] at he
    exact ⟨_, _, _, he, State.stream?_xferIssue _ c (m.done_setTags slots 0) _, rfl, rfl, rfl, rfl, rfl, tagged_of 0, ⟨rfl, m.done_m, m.done_fb⟩,
      State.xferIssue_mem ..⟩
  case mst =>
    have he := (exec_mst s f).trans (seqWord_eq hr hi _)
    rw [m.mstBlocks_of_unscaled hunscaled] at hp
    have hm : (if f.flags.getLsbD 0 then s.idemLost m.team else s).stream? c = some m := by
      split
      · exact (State.stream?_of_streams (State.idemLost_streams ..) c).trans hr.2
      · exact hr.2
    dsimp only at he
    rw [m.mstBlocks_of_unscaled hunscaled, hp, if_neg Bool.false_ne_true] at he
    rw [List.map_singleton, hok] at he; dsimp only at he
    rw [State.bandWaits_of_unscaled m hunscaled, Bool.or_false, if_neg (mt m.xferFull_iff.1 hq),
      State.mstScale_of_unscaled m hunscaled] at he
    dsimp only at he
    rw [hm] at he
    exact ⟨_, _, _, he, State.stream?_xferIssue _ c rfl _, rfl, rfl, rfl, rfl, rfl, rfl, m.done_tags, ⟨rfl, m.done_m, m.done_fb⟩, State.xferIssue_mem ..⟩

/-! ### MMA and MMAT (R222, R223) -/

theorem State.team?_updChan {s : State} {team : Nat} {t : Team} (h : s.team? team = some t) (n : Nat) (g : Chan → Chan) :
    (s.updChan team n g).team? team = some (t.setChan n (g (t.chan n))) := by
  unfold State.updChan; rw [State.team?_updTeam, if_pos rfl, h]; rfl
theorem State.chan_updChan {s : State} {team : Nat} {t : Team} (h : s.team? team = some t) (n k : Nat) (g : Chan → Chan) :
    (s.updChan team n g).chan team k = if k = n then g (s.chan team n) else s.chan team k := by
  unfold State.chan; rw [State.team?_updChan h, h]
  exact Tbl.getD_put ..

/-- The word `id` enters a channel's queue (R363). -/
def Chan.enter (x : Chan) (id : Nat) : Chan := { x with queue := x.queue ++ [id] }
theorem Chan.mem_enter (x : Chan) (id : Nat) : id ∈ (x.enter id).queue := List.mem_append_right _ (List.mem_singleton_self id)

/-- A word entered into the queues of two channels of a team stands in both. -/
theorem State.mem_queue_of_entered {s : State} {team : Nat} {t : Team} (h : s.team? team = some t) (a b id : Nat) {n : Nat} (hn : n ∈ [a, b]) :
    id ∈ (((s.updChan team a (Chan.enter · id)).updChan team b (Chan.enter · id)).chan team n).queue := by
  rw [State.chan_updChan (State.team?_updChan h ..)]
  split
  · exact Chan.mem_enter ..
  next hb =>
    obtain rfl : n = a := by simpa [hb] using hn
    rw [State.chan_updChan h, if_pos rfl]; exact Chan.mem_enter ..

theorem State.team?_of_mmaTrap {s : State} {c : Nat} {m : Stream} {f : FmtX} {a b : Nat} (h : s.mmaTrap c m f a b = none) :
    ∃ t, s.team? m.team = some t := by
  unfold State.mmaTrap at h
  cases ht : s.team? m.team with
  | none => rw [ht] at h; cases h
  | some t => exact ⟨t, rfl⟩

section
variable {s : State} {op c : Nat} {m : Stream} {f : FmtX} (hp : m.fbPending [f.fb.toNat, f.fb.toNat + 1] = false)
include hp

theorem State.mmaIssue_of_trap {e : Nat × Nat} (h : s.mmaTrap c m f (m.fbBlock f.fb.toNat) (m.fbBlock (f.fb.toNat + 1)) = some e) :
    s.mmaIssue op c m f = s.streamTrap c m e.1 e.2 0 := by
  unfold State.mmaIssue; dsimp only; rw [hp, h]; rfl
theorem State.mmaIssue_of_free (h : s.mmaTrap c m f (m.fbBlock f.fb.toNat) (m.fbBlock (f.fb.toNat + 1)) = none) (hq : m.arrayFull = false) :
    s.mmaIssue op c m f = ((s.updChan m.team f.cha.toNat (Chan.enter · s.nextId)).updChan m.team f.chb.toNat (Chan.enter · s.nextId)).pushArray c
        ((m.setTags (slotsOf f.tile.toNat f.accf.toNat) (8 + f.fb.toNat / 2)).wake (quartersOf f) s.ck)
        { QWord.of s op m f with fbA := m.fbBlock f.fb.toNat, fbB := m.fbBlock (f.fb.toNat + 1) } := by
  unfold State.mmaIssue; dsimp only; rw [hp, h, hq]; rfl
end

/-- Settles O33: the word of either kind is one issue, which traps or enters the queues. -/
theorem mmaWordsIssue : Obligations.MmaWordsIssue := by
  unfold Obligations.MmaWordsIssue
  intro s c m f i op hr hmem hi hp a b slots
  have he : exec i s = .next (s.mmaIssue op c m f) := by
    simp only [List.mem_cons, Prod.mk.injEq, List.not_mem_nil, or_false] at hmem
    obtain ⟨rfl, rfl⟩ | ⟨rfl, rfl⟩ := hmem
    · exact (exec_mma s f).trans (seqWord_eq hr hi _)
    · exact (exec_mmat s f).trans (seqWord_eq hr hi _)
  refine ⟨fun e htrap => he.trans (congrArg _ (State.mmaIssue_of_trap hp htrap)), fun htrap hfree => ?_⟩
  have hfull : m.arrayFull = false := Bool.eq_false_iff.2 fun h => absurd (m.arrayFull_iff.1 h) (Nat.not_le.2 hfree)
  obtain ⟨t, ht⟩ := State.team?_of_mmaTrap htrap
  refine ⟨_, _, _, he.trans (congrArg _ (State.mmaIssue_of_free hp htrap hfull)),
    State.stream?_pushArray _ c ((Stream.done_wake ..).trans (congrArg (Stream.wake · _ _) (m.done_setTags slots _))) _, rfl, rfl, rfl, rfl, rfl, rfl,
    ?_⟩
  refine ⟨fun j => ?_, rfl, m.done_m, m.done_fb, m.done_xferQ, fun n hn => State.mem_queue_of_entered ht _ _ _ hn, fun n hn hg => ?_,
    State.pushArray_mem .., State.pushArray_waves ..⟩
  · exact (m.done.getD_setTags slots _ j).trans (by rw [m.done_tags])
  · exact Stream.getD_wake_of_gated _ hn ((congrArg (List.getD · n .gated) m.done_quarters).trans hg) ..

end Sys2Proof.Machine
end

section
/-! SUPPORT. The quarters of the array (R212, R233) as MMA_FIRE leaves them, and the refutation of O47. -/

namespace Sys2Proof.Machine

theorem Stream.length_quarters_wake (m : Stream) (qs : List Nat) (now : Nat) : (m.wake qs now).quarters.length = 4 := by
  simp [Stream.wake]
/-- Waking no quarter leaves a stream as it was exactly where its table of quarters has four entries. -/
theorem Stream.wake_nil_iff (m : Stream) (now : Nat) : m.wake [] now = m ↔ m.quarters.length = 4 := by
  refine ⟨fun h => ?_, fun h => ?_⟩
  · have hlen := m.length_quarters_wake [] now
    rwa [h] at hlen
  · have hsame : (m.wake [] now).quarters = m.quarters := by
      refine List.ext_getElem (by rw [h, m.length_quarters_wake]) fun n _ hn => ?_
      refine (List.getElem_map ..).trans ?_
      rw [List.getElem_range, List.getD_eq_getElem _ _ hn]
      split
      next hg => rw [hg]; rfl
      · rfl
    exact congrArg (fun qs => { m with quarters := qs }) hsame

/-- A stream whose array queue holds an MZERO that has begun, and whose table of quarters has no entry. -/
def Stream.quarterless : Stream :=
  { startStream 1 0 0 with
    quarters := []
    arrayQ := [{ id := 0, op := 0xA1, pc := 0, f := ⟨0, 0, 0, 0, 0, 0, 0, 0, 0, 0⟩, offs := 0, fbA := 0, fbB := 0, scale := 0, row0 := 0,
                 nrow := 0, chain := 0, begun := true, sent := 0, start := 0, accs := [], ecpls := [], rowBad := [] }] }

/-- Refutes O47: MMA_FIRE writes its stream's table of quarters anew, with four entries, whatever the head of the array queue is. For an MZERO
that has begun it so leaves the stream as it was only where the table has four entries, which the statement does not ask. -/
theorem not_matrixEvents : ¬ Obligations.MatrixEvents := by
  unfold Obligations.MatrixEvents
  intro h
  let s : State := { State.reset with streams := [(0, Stream.quarterless)] }
  obtain ⟨-, hother, -⟩ := h s 0 Stream.quarterless rfl
  have hsame : exec (.mmaFire 0) s = .next (s.setStream 0 Stream.quarterless) := hother _ _ rfl rfl rfl
  have hfire : exec (.mmaFire 0) s = .next (s.setStream 0 (Stream.quarterless.wake [] s.ck)) := rfl
  have hwake : Stream.quarterless.wake [] s.ck = Stream.quarterless := Option.some.inj (by
    rw [← State.stream?_setStream_self s 0, Host.Outcome.next.inj (hfire.symm.trans hsame), State.stream?_setStream_self])
  exact absurd ((Stream.wake_nil_iff ..).1 hwake) (by decide)

end Sys2Proof.Machine
end

section
/-! SUPPORT. A word that puts a request in flight (R106, R143, R311): the wave and the state it leaves. -/

namespace Sys2Proof.Machine

/-! ### The end of a word beside its registers -/

theorem Wave.done_reqs {w : Wave} (hw : w.wins = []) : w.done.reqs = w.reqs := by
  rcases w.done_cases hw with ⟨-, h⟩ | ⟨c, -, -, h⟩ | ⟨c, -, -, h⟩ <;> rw [h]
  · unfold Wave.goTo; rw [Wave.closeWins_of_none hw]
theorem Wave.done_wstat {w : Wave} (hw : w.wins = []) : w.done.wstat = w.wstat := by
  have := congrArg Wave.wstat (w.done_bare hw); exact this
theorem Wave.done_tref {w : Wave} (hw : w.wins = []) : w.done.tref = w.tref := by
  have := congrArg Wave.tref (w.done_bare hw); exact this
/-- ERRSEEN does not change how a word ends. -/
theorem Wave.done_errSeen {w : Wave} (hw : w.wins = []) : w.errSeen.done = w.done.errSeen := by
  have hw' : w.errSeen.wins = [] := hw
  unfold Wave.done
  rw [Wave.tickWins_of_none hw, Wave.tickWins_of_none hw']
  dsimp only [Wave.errSeen]
  split
  · split
    · rfl
    · unfold Wave.goTo; rw [Wave.closeWins_of_none hw, Wave.closeWins_of_none (w := { w with wstat := w.wstat ||| 0x10 }) hw]; rfl
  · rfl

/-! ### A word that goes on -/

section
variable {i : Instr} {s t u : State} {c k : Nat} {w w' x : Wave}

/-- A word that writes no register goes on where its wave has the registers it had. -/
theorem goesOn_of_wave {P : State → Wave → Prop} (he : exec i s = .next t) (ht : t.wave? c k = some w') (hspot : w'.spot = w.done.spot)
    (hs : w'.s = w.s) (hv : w'.v = w.v) (hb : w'.beats = w.beats) (hP : P t w') : GoesOn i s c k w [] [] P := by
  refine ⟨t, w', he, ht, hspot, fun r => ?_, fun n l _ => ?_, hP⟩
  · show w'.rawS r = w.rawS r
    unfold Wave.rawS; rw [hs, hb]
  · show w'.rawV n l = w.rawV n l
    unfold Wave.rawV; rw [hv]

/-- A word that ends with a request in flight goes on, whether or not it has set ERRSEEN. -/
theorem goesOn_of_request (hw : w.wins = []) (hx : x = w ∨ x = w.errSeen) {p : Path} {word : W64} {sem scope phase : Nat} {accs : List Access} {ret : Ret}
    {P : State → Wave → Prop} (he : exec i s = .next (u.issueReq c k x.done p word sem scope accs ret phase))
    (hP : ∀ t w', t.mem = u.mem → w'.wstat = x.wstat → w'.reqs = w.reqs ++ [⟨u.nextId, p, word, sem, scope, false, accs, ret, phase, []⟩] → P t w') :
    GoesOn i s c k w [] [] P := by
  rcases hx with rfl | rfl
  · exact goesOn_of_wave he (State.wave?_setWave_self ..) rfl (x.done_s hw) (x.done_v hw) (x.done_beats hw)
      (hP _ _ rfl (Wave.done_wstat hw) (congrArg (· ++ _) (Wave.done_reqs hw)))
  · rw [Wave.done_errSeen hw] at he
    exact goesOn_of_wave he (State.wave?_setWave_self ..) rfl (w.done_s hw) (w.done_v hw) (w.done_beats hw)
      (hP _ _ rfl (congrArg (· ||| 0x10) (Wave.done_wstat hw)) (congrArg (· ++ _) (Wave.done_reqs hw)))

end

end Sys2Proof.Machine
end

section
/-! SUPPORT. The issue of the vector memory words (R311, R332), and the proof of O26. -/

namespace Sys2Proof.Machine

/-! ### Lanes and their checks -/

theorem Wave.memLanes_eq (w : Wave) (it : Intent) : w.memLanes it = w.lanes.filter (fun l => !(it == Intent.write && w.hmask.getLsbD l)) := by
  unfold Wave.memLanes
  cases it with
  | write => rfl
  | read | exec | engWrite => exact (List.filter_eq_self.2 fun _ _ => rfl).symm

section
variable {ls : List Nat} {va : Nat → W64} {chk : Nat → Except XErr Place} {pl : Nat → Place} (h : ∀ l ∈ ls, chk l = .ok (pl l))
include h

/-- Lanes that all pass their checks leave none failing. -/
theorem failures_of_ok : failures (ls.map (fun l => (l, va l, chk l))) = [] := by
  unfold failures
  rw [List.filterMap_eq_nil_iff]
  intro x hx
  obtain ⟨l, hl, rfl⟩ := List.mem_map.1 hx
  dsimp only; rw [h l hl]
theorem placesOf_of_ok : placesOf (ls.map (fun l => (l, va l, chk l))) = ls.map (fun l => (l, va l, pl l)) := by
  unfold placesOf
  rw [List.filterMap_map, ← List.filterMap_eq_map]
  refine List.filterMap_congr fun l hl => ?_
  dsimp only [Function.comp]; rw [h l hl]
end

/-! ### The team's mark -/

theorem State.touchAll_nil (s : State) (c : Nat) (lvl : Level) : s.touchAll c lvl [] = s := by unfold State.touchAll; exact ite_self _
/-- Setting IDEM_LOST where a word asks for it leaves the memories (R60). -/
theorem State.lost_mem (s : State) (lost : Bool) (team : Nat) : (if lost then s.idemLost team else s).mem = s.mem := by
  cases lost with
  | false => rfl
  | true => exact State.idemLost_mem ..
theorem State.team?_idemLost {s : State} {team : Nat} {x : Team} (h : s.team? team = some x) :
    (s.idemLost team).team? team = some { x with idemLost := true } := by
  unfold State.idemLost; rw [State.team?_updTeam, if_pos rfl, h]; rfl
theorem State.lost_team {s : State} {team : Nat} {x : Team} (h : s.team? team = some x) (lost : Bool) :
    ∃ y, (if lost then s.idemLost team else s).team? team = some y ∧ y.idemLost = (x.idemLost || lost) := by
  cases lost with
  | false => exact ⟨x, h, (Bool.or_false _).symm⟩
  | true => exact ⟨_, State.team?_idemLost h, (Bool.or_true _).symm⟩

/-! ### The issue -/

section
variable {s : State} {c k : Nat} {w : Wave} {f : FmtM} {p : MemPlan} (hr : w.regRange (p.regs ++ voffRegs f p.a64) = false)
  (hc : w.count p.path < 63)
include hr hc

/-- Without a lane to access memory for, and without ordering, the word completes with no request. -/
theorem State.issueVec_of_no_lane (hl : w.memLanes p.intent = []) (hsem : f.sem = 0) :
    s.issueVec c k w f p = (if p.lost then s.idemLost w.team else s).setWave c k w.done := by
  have hfree : w.full p.path = false := decide_eq_false (Nat.not_le.2 hc)
  have hsem' : f.sem.toNat = 0 := by rw [hsem]; rfl
  unfold State.issueVec
  rw [hr, hfree, hl, hsem']
  simp only [List.map_nil, State.touchAll_nil]
  rfl

/-- With every lane's check passed the word puts its request in flight. -/
theorem State.issueVec_of_ok (hl : w.memLanes p.intent ≠ []) {pl : Nat → Place}
    (hok : ∀ l ∈ w.memLanes p.intent, s.check c w p.lvl p.intent l (w.laneAddr f p.a64 l) p.n = .ok (pl l)) :
    s.issueVec c k w f p =
      (if p.lost then (s.touchAll c p.lvl ((w.memLanes p.intent).map (w.laneAddr f p.a64))).idemLost w.team
        else s.touchAll c p.lvl ((w.memLanes p.intent).map (w.laneAddr f p.a64))).issueReq c k w.done p.path w.curWord f.sem.toNat f.scope.toNat
        ((w.memLanes p.intent).map (fun l =>
          ⟨l, w.laneAddr f p.a64 l, (pl l).pa, p.n, p.lvl, (pl l).kind, (pl l).buf, p.op l, false, 0, false, 0⟩)) (p.ret w.mask) 0 := by
  have hfree : w.full p.path = false := decide_eq_false (Nat.not_le.2 hc)
  unfold State.issueVec
  rw [hr, hfree]
  dsimp only
  rw [failures_of_ok hok, placesOf_of_ok hok, List.map_map, List.map_map]
  have hne : ∀ g : Nat → Access, ((w.memLanes p.intent).map g).isEmpty = false := fun g => by simpa using hl
  dsimp only [lanesTrap]
  rw [hne]
  rfl
end

/-- Settles O26: each word is one issue of its plan, which completes without a lane and else puts its lanes' accesses in flight. -/
theorem vectorMemoryWords : Obligations.VectorMemoryWords := by
  unfold Obligations.VectorMemoryWords
  intro s c k w f hr hw size d issues load store n cn
  have issues_of {i : Instr} {p : MemPlan} (he : i.wf = true → exec i s = .next (s.issueVec c k w f p)) :
      issues i p.lvl p.path p.a64 p.n p.regs p.intent p.lost p.op (p.ret w.mask) := by
    intro hi hrange hcount
    rw [← w.memLanes_eq]
    refine ⟨fun hnone hsem => ?_, fun pl hsome hok => ?_⟩
    · rw [he hi, State.issueVec_of_no_lane hrange hcount hnone hsem]
      exact ⟨_, rfl, State.wave?_setWave_self .., State.lost_mem ..⟩
    · rw [he hi, State.issueVec_of_ok hrange hcount hsome hok]
      refine ⟨_, _, _, rfl, State.wave?_setWave_self .., congrArg (· ++ _) (Wave.done_reqs hw), rfl, w.done_s hw, w.done_v hw, rfl, rfl, rfl, rfl, rfl,
        rfl, (State.issueReq_mem ..).trans (State.lost_mem ..), fun x hx => ?_⟩
      rw [State.team?_of_teams (State.issueReq_teams ..)]
      exact State.lost_team ((State.team?_of_teams (State.touchAll_teams ..) w.team).trans hx) p.lost
  refine ⟨?ldl, ?lds, ?ldc, ?ldp, ?ldg, ?stl, ?sts, ?stc, ?stp, ?stg, ?atom, ?red, ?acas⟩
  case ldl => exact issues_of fun hi => (exec_ldl s f).trans (sysWord_eq hr hi _)
  case lds => exact issues_of fun hi => (exec_lds s f).trans (sysWord_eq hr hi _)
  case ldc => exact issues_of fun hi => (exec_ldc s f).trans (sysWord_eq hr hi _)
  case ldp => exact issues_of fun hi => (exec_ldp s f).trans (sysWord_eq hr hi _)
  case ldg => exact issues_of fun hi => (exec_ldg s f).trans (sysWord_eq hr hi _)
  case stl => exact issues_of fun hi => (exec_stl s f).trans (sysWord_eq hr hi _)
  case sts => exact issues_of fun hi => (exec_sts s f).trans (sysWord_eq hr hi _)
  case stc => exact issues_of fun hi => (exec_stc s f).trans (sysWord_eq hr hi _)
  case stp => exact issues_of fun hi => (exec_stp s f).trans (sysWord_eq hr hi _)
  case stg => exact issues_of fun hi => (exec_stg s f).trans (sysWord_eq hr hi _)
  case atom => exact issues_of fun hi => (exec_atom s f).trans (sysWord_eq hr hi _)
  case red => exact issues_of fun hi => (exec_red s f).trans (sysWord_eq hr hi _)
  case acas => exact issues_of fun hi => (exec_acas s f).trans (sysWord_eq hr hi _)

end Sys2Proof.Machine
end

section
/-! SUPPORT. The graphics words that read for their lanes (R239–R248, R250, R252–R254, R256, R262, R263), and the proof of O42. -/

namespace Sys2Proof.Machine

/-! ### Lanes in ascending order (R262) -/

section
variable {α : Type} {s : State} {f : GRead → Nat → GRead × α}

/-- One lane more runs after those before it. -/
theorem gLanes_append_singleton (s : State) (ls : List Nat) (l : Nat) (f : GRead → Nat → GRead × α) :
    gLanes s (ls ++ [l]) f = (let r := gLanes s ls f
      let y := f ⟨r.s, none, none, false⟩ l
      ⟨y.1.s, r.so || y.1.so, r.fails ++ (match y.1.fail with | some e => [(l, e.1, e.2)] | none => []),
        r.bads ++ (match y.1.bad with | some a => [(l, a)] | none => []), r.outs ++ [(l, y.2)]⟩) := by
  unfold gLanes
  rw [List.foldl_append]
  rfl
/-- Lanes that read nothing leave the state and their results. -/
theorem gLanes_of_unread {g : Nat → α} {ls : List Nat} (h : ∀ l ∈ ls, f ⟨s, none, none, false⟩ l = (⟨s, none, none, false⟩, g l)) :
    gLanes s ls f = ⟨s, false, [], [], ls.map (fun l => (l, g l))⟩ := by
  induction ls using List.reverseRecOn with
  | nil => rfl
  | append_singleton ls l ih =>
    have hl := h l (List.mem_append_right _ (List.mem_singleton_self l))
    rw [gLanes_append_singleton, ih fun m hm => h m (List.mem_append_left _ hm)]
    dsimp only
    rw [hl, List.map_append]
    rfl
/-- A single lane whose reads do not fail fails nothing, and has read an SO page where its reads have. -/
theorem gLanes_singleton_reads {l : Nat} {so : Bool} (hf : (f ⟨s, none, none, false⟩ l).1.fail = none)
    (hso : (f ⟨s, none, none, false⟩ l).1.so = so) : (gLanes s [l] f).fails = [] ∧ (gLanes s [l] f).so = so := by
  rw [show [l] = [] ++ [l] from rfl, gLanes_append_singleton]
  dsimp only [gLanes, List.foldl_nil]
  rw [hf, hso]
  exact ⟨rfl, Bool.false_or so⟩
end

/-! ### One read of a lane (R248, R262) -/

/-- A node's address is a multiple of its 64 bytes. -/
theorem nodeAddr_aligned (w : Wave) (vb l : Nat) : (nodeAddr w vb l).toNat % 64 = 0 := by
  have h : (nodeAddr w vb l).setWidth 6 = 0#6 := by
    unfold nodeAddr
    rw [BitVec.setWidth_and, show (~~~(63 : W64)).setWidth 6 = 0#6 from rfl, BitVec.and_zero]
  exact congrArg BitVec.toNat h

section
variable {s : State} {c team n : Nat} {va : W64} {x : Xlat} (ha : va.toNat % n = 0) (hx : s.translate (clusterOf c) va .read = .ok x) (hk : x.kind ≠ .ts)
include ha hx hk

/-- An aligned read that translates to a page of another kind than TS fails nothing, and reads an SO page where that is one. -/
theorem GRead.read_of_translate : ((⟨s, none, none, false⟩ : GRead).read c team va n).1.fail = none
    ∧ ((⟨s, none, none, false⟩ : GRead).read c team va n).1.so = decide (x.kind = .so) := by
  unfold GRead.read
  dsimp only [Option.isSome_none]
  rw [if_neg Bool.false_ne_true, if_neg (not_not.2 ha), hx]
  dsimp only
  rw [if_neg hk]
  exact ⟨rfl, Bool.false_or _⟩
end

section
variable (f : FmtG) (s : State) (c : Nat) (w : Wave) (r : GRead) (l : Nat)

/-- RBOX and RTRI make the one read of their node. -/
theorem rboxLane_reads : (rboxLane f s c w r l).1.fail = (r.read c w.team (nodeAddr w f.vb.toNat l) 64).1.fail
    ∧ (rboxLane f s c w r l).1.so = (r.read c w.team (nodeAddr w f.vb.toNat l) 64).1.so := by
  unfold rboxLane
  dsimp only
  split <;> exact ⟨rfl, rfl⟩
theorem rtriLane_reads : (rtriLane f c w r l).1.fail = (r.read c w.team (nodeAddr w f.vb.toNat l) 64).1.fail
    ∧ (rtriLane f c w r l).1.so = (r.read c w.team (nodeAddr w f.vb.toNat l) 64).1.so := by
  unfold rtriLane
  dsimp only
  split <;> exact ⟨rfl, rfl⟩
/-- AFETCH reads nothing for the identifier that names no triangle (R431). -/
theorem afetchLane_of_allOnes (h : w.readV64 f.va.toNat l = allOnes64) : afetchLane f c w r l = (r, List.replicate (3 * (f.imm.toNat + 1)) 0) := by
  unfold afetchLane GRead.records
  dsimp only
  rw [if_pos h]
/-- A sample at a coordinate that is NaN or infinite reads no texel (R256). -/
theorem sampleLane_of_not_finite (x : Sampler) (lod : Sampler → Wave → Nat → FVal) (h : (f32Val (w.readV f.va.toNat l)).isFin = false) :
    sampleLane f x lod c w r l = (r, [0, 0, 0, 0]) := by
  unfold sampleLane
  dsimp only
  rw [h]
  rfl
end

/-! ### The end of a word whose lanes have run (R261–R263) -/

section
variable {s : State} {c k : Nat} {w : Wave}

/-- Counts are no part of what decides whether bad data trap. -/
theorem State.poisonTraps_countErr (s : State) (die idx team : Nat) : (s.countErr die idx).poisonTraps team = s.poisonTraps team := rfl

section
variable {a : W64} {m : BitVec 96} {go : State → Wave → State}
theorem State.gPoison_of_trap (h : s.poisonTraps w.team = true) :
    s.gPoison c k w (some (a, m)) go = (s.countErr (dieOfCore c) 2).trapAt c k w { cause := 0x12, eaddr := a, fm := m } := if_pos h
theorem State.gPoison_of_go (h : s.poisonTraps w.team = false) :
    s.gPoison c k w (some (a, m)) go = go (s.countErr (dieOfCore c) 2) w.errSeen := if_neg (Bool.eq_false_iff.1 h)
end

variable {r : GLanes (List W32)} {src : Option (BitVec 96)} {e : Nat} {vs : List (Nat × List W32) → List (Nat × Nat × W32)}

theorem State.gFinish_of_trap {t : Trap} (h : lanesTrap r.fails = some t) :
    s.gFinish c k w r src e vs = (s.touchFails c r.fails).trapAt c k w t := by unfold State.gFinish; rw [h]

variable (hf : r.fails = [])
include hf

theorem State.gFinish_of_waits (h : (r.so && w.soPending) = true) : s.gFinish c k w r src e vs = s.setWave c k (w.blockAt s.time 0 0) := by
  unfold State.gFinish; rw [hf]; exact if_pos h

variable (hso : ¬ (r.so && w.soPending) = true)
include hso

theorem State.gFinish_of_poison {l : Nat} {a : W64} {bs : List (Nat × W64)} (hb : r.bads = (l, a) :: bs) (hp : s.poisonTraps w.team = true) :
    s.gFinish c k w r src e vs = (r.s.count 5 (dieOfCore c) 2 r.bads.length).trapAt c k w
      { cause := 0x12, eaddr := a, fm := maskOf (r.bads.map (fun b => b.1)) ||| src.getD 0 } := by
  unfold State.gFinish; rw [hf]; dsimp only [lanesTrap]; rw [if_neg hso, hb]; exact if_pos hp
theorem State.gFinish_of_source_poison {m : BitVec 96} (hb : r.bads = []) (hs : src = some m) (hp : r.s.poisonTraps w.team = true) :
    s.gFinish c k w r src e vs = (r.s.countErr (dieOfCore c) 2).trapAt c k w { cause := 0x12, eaddr := 0, fm := m } := by
  unfold State.gFinish; rw [hf]; dsimp only [lanesTrap]; rw [if_neg hso, hb, hs]; exact State.gPoison_of_trap hp
/-- Without bad data, or where they do not trap, the word completes with its request, ERRSEEN set where there are any. -/
theorem State.gFinish_of_request (h : (r.bads = [] ∧ src = none) ∨ (s.poisonTraps w.team = false ∧ r.s.poisonTraps w.team = false)) :
    ∃ u : State, u.mem = r.s.mem ∧ s.gFinish c k w r src e vs =
      u.issueReq c k (if r.bads = [] ∧ src = none then w else w.errSeen).done .at w.curWord 0 0 [] (.regs (vs r.outs) []) 0 := by
  unfold State.gFinish
  rw [hf]
  dsimp only [lanesTrap]
  rw [if_neg hso]
  cases hb : r.bads with
  | nil =>
    cases hs : src with
    | none => exact ⟨r.s, rfl, rfl⟩
    | some m =>
      obtain ⟨-, hp⟩ := h.resolve_left fun hn => by simp [hs] at hn
      exact ⟨_, State.countErr_mem .., State.gPoison_of_go hp⟩
  | cons b bs =>
    obtain ⟨hp, -⟩ := h.resolve_left fun hn => by simp [hb] at hn
    exact ⟨r.s.gBad c k (b :: bs) (dieOfCore c) e, rfl, if_neg (Bool.eq_false_iff.1 hp)⟩
end

/-! ### The words (R240–R242) -/

/-- A word of path AT tests its registers, then waits as it must, and ends as its lanes say. -/
theorem exec_of_gfxWord {s : State} {c k : Nat} {w : Wave} (hr : s.runs c k w) {α : Type} {i : Instr} (hi : i.wf = true) {dst ss vs : List Nat} {e : Nat}
    {lane : Nat → Wave → GRead → Nat → GRead × α} {outs : List (Nat × α) → List (Nat × Nat × W32)} (he : exec i s = gfxWord i s dst ss vs e lane outs) :
    exec i s = .next (if w.regRange (dst ++ vs) then s.trapAt c k w w.regRangeTrap else if w.gHolds .at then s.setWave c k (w.blockAt s.time 0 0)
      else s.gFinish c k w (gLanes s w.lanes (lane c w)) (w.srcBad (.of ss vs)) e outs) := he.trans (sysWord_eq hr hi _)

section
variable {s : State} {c k : Nat} {w : Wave} (hr : s.runs c k w) {i : Instr} (hi : i.wf = true) {f : FmtG} {nsrc : Nat}
  {lod : Sampler → Wave → Nat → FVal} (he : exec i s = sampleWord i f s nsrc lod)
include hr hi he

/-- Past its descriptor a texture word is a word of path AT (R256, R262). -/
theorem exec_of_sampleWord (hl : w.lanes ≠ []) {b : GRead × List Byte}
    (hb : b = (⟨s, none, none, false⟩ : GRead).read c w.team (off64 (w.readS64 f.sa.toNat) (64 * f.idx.toNat)) 64) (hfail : b.1.fail = none)
    (hbad : b.1.bad = none) :
    exec i s = .next (if w.regRange (run f.vd.toNat 4 ++ run f.va.toNat nsrc) then s.trapAt c k w w.regRangeTrap
      else if w.gHolds .at then s.setWave c k (w.blockAt s.time 0 0)
      else match samplerOf b.2 with
        | none => b.1.s.trapAt c k w (w.formatTrap 7)
        | some x =>
          let r := gLanes b.1.s w.lanes (sampleLane f x lod c w)
          s.gFinish c k w { r with so := r.so || b.1.so } (w.srcBad (.of [f.sa.toNat, f.sa.toNat + 1] (run f.va.toNat nsrc))) 2
            (runWrites f.vd.toNat)) := by
  have hne : w.lanes.isEmpty = false := by simpa using hl
  rw [he, sampleWord, sysWord_eq hr hi]
  dsimp only
  rw [hne, ← hb, hfail, hbad]
  rfl
/-- Without an active lane it does not read its descriptor (log entry 133). -/
theorem exec_of_sampleWord_no_lane (hl : w.lanes = []) (hrange : w.regRange (run f.vd.toNat 4 ++ run f.va.toNat nsrc) = false)
    (hfree : w.gHolds .at = false) : exec i s = .next (s.issueReq c k w.done .at w.curWord 0 0 [] (.regs [] []) 0) := by
  rw [he, sampleWord, sysWord_eq hr hi]
  dsimp only
  rw [hrange, hfree, hl]
  rfl
end

/-- Settles O42: each word ends as its lanes say; ABARY and AINTERP read nothing, and SMPL and SMPLL test their descriptor first. -/
theorem graphicsLaneWords : Obligations.GraphicsLaneWords := by
  unfold Obligations.GraphicsLaneWords
  intro s c k w f hr hw n word box pair
  have word_of {i : Instr} {dst ss vs : List Nat} {r : GLanes (List W32)} {e : Nat}
      (he : i.wf = true → exec i s = .next (if w.regRange (dst ++ vs) then s.trapAt c k w w.regRangeTrap
        else if w.gHolds .at then s.setWave c k (w.blockAt s.time 0 0)
        else s.gFinish c k w r (w.srcBad (.of ss vs)) e (runWrites f.vd.toNat))) : word i dst ss vs r := by
    intro hi src done
    have ends (hrange : w.regRange (dst ++ vs) = false) (hfree : w.gHolds .at = false) :
        exec i s = .next (s.gFinish c k w r src e (runWrites f.vd.toNat)) := by rw [he hi, hrange, hfree]; rfl
    refine ⟨fun hrange => ?range, fun hrange hholds => ?holds, fun t hrange hfree ht => ?fault, fun hrange hfree hf => ?_⟩
    case range => rw [he hi, hrange]; rfl
    case holds => rw [he hi, hrange, hholds]; rfl
    case fault => rw [ends hrange hfree, State.gFinish_of_trap ht]
    split
    next hso => rw [ends hrange hfree, State.gFinish_of_waits hf hso]
    next hso =>
      have done_of (h : (r.bads = [] ∧ src = none) ∨ (s.poisonTraps w.team = false ∧ r.s.poisonTraps w.team = false)) : done := by
        obtain ⟨u, hu, hreq⟩ := State.gFinish_of_request hf hso h (c := c) (k := k) (e := e) (vs := runWrites f.vd.toNat)
        refine goesOn_of_request hw (ite_eq_or_eq ..) ((ends hrange hfree).trans (congrArg _ hreq)) fun t w' hmem hwstat hreqs => ?_
        exact ⟨hmem.trans hu, hwstat, _, hreqs, rfl, rfl⟩
      refine ⟨fun hb hs => done_of (.inl ⟨hb, hs⟩), fun hp hp' => done_of (.inr ⟨hp, hp'⟩), fun l a bs hb hp => ?_, fun m hb hs hp => ?_⟩
      · rw [ends hrange hfree, State.gFinish_of_poison hf hso hb hp]
      · rw [ends hrange hfree, State.gFinish_of_source_poison hf hso hb hs hp]
  refine ⟨word_of fun hi => exec_of_gfxWord hr hi (exec_rbox s f), word_of fun hi => exec_of_gfxWord hr hi (exec_rtri s f),
    word_of fun hi => exec_of_gfxWord hr hi (exec_afetch s f), ?abary, ?ainterp, ?oneLane, ?noTriangle, ?sample⟩
  case abary =>
    have he : exec (.abary f) s = gfxWord (.abary f) s (run f.vd.toNat 6) [] (run f.va.toNat 9 ++ run f.vb.toNat (if f.fn = 1 then 17 else 2)) 2
        (abaryLane f) (runWrites f.vd.toNat) := by
      rw [exec_abary]; unfold execAbary; simp only [decide_eq_true_eq]
    have hunread := gLanes_of_unread (s := s) (f := abaryLane f c w) (ls := w.lanes) fun _ _ => rfl
    exact hunread ▸ word_of fun hi => exec_of_gfxWord hr hi he
  case ainterp =>
    have he : exec (.ainterp f) s = gfxWord (.ainterp f) s (run f.vd.toNat (if f.fn = 1 then n else 3 * n)) []
        (run f.va.toNat (3 * n) ++ run f.vb.toNat 6) 2 (ainterpLane f) (runWrites f.vd.toNat) := by
      rw [exec_ainterp]; unfold execAinterp; simp only [decide_eq_true_eq]; rfl
    have hunread := gLanes_of_unread (s := s) (f := ainterpLane f c w) (ls := w.lanes) fun _ _ => rfl
    exact hunread ▸ word_of fun hi => exec_of_gfxWord hr hi he
  case oneLane =>
    intro l x hl hx hk
    obtain ⟨hf, hso⟩ := GRead.read_of_translate (team := w.team) (nodeAddr_aligned w f.vb.toNat l) hx hk
    obtain ⟨hbf, hbs⟩ := rboxLane_reads f s c w ⟨s, none, none, false⟩ l
    obtain ⟨htf, hts⟩ := rtriLane_reads f c w ⟨s, none, none, false⟩ l
    obtain ⟨hbox, hboxso⟩ := gLanes_singleton_reads (hbf.trans hf) (hbs.trans hso)
    obtain ⟨htri, htriso⟩ := gLanes_singleton_reads (htf.trans hf) (hts.trans hso)
    rw [hl]
    exact ⟨hbox, htri, hboxso, htriso⟩
  case noTriangle => exact fun hones => gLanes_of_unread fun l hl => afetchLane_of_allOnes f c w _ l (hones l hl)
  case sample =>
    intro i nsrc lod hmem b
    have he : exec i s = sampleWord i f s nsrc lod := by
      simp only [List.mem_cons, Prod.mk.injEq, List.not_mem_nil, or_false] at hmem
      obtain ⟨rfl, rfl, rfl⟩ | ⟨rfl, rfl, rfl⟩ := hmem
      · exact exec_smpl s f
      · exact exec_smpll s f
    refine ⟨fun hl hi hrange hfree => ?noLane, fun x hl hfail hbad hx => ⟨word_of (e := 2) fun hi => ?word, fun hfin => ?notFinite⟩,
      fun hi hrange hfree hl hfail hbad hx => ?reserved⟩
    case noLane =>
      exact goesOn_of_request hw (.inl rfl) (exec_of_sampleWord_no_lane hr hi he hl hrange hfree) fun t w' hmem _ hreqs => ⟨hmem, _, hreqs, rfl, rfl⟩
    case word => exact (exec_of_sampleWord hr hi he hl rfl hfail hbad).trans (by rw [hx])
    case notFinite => exact gLanes_of_unread fun l hl => sampleLane_of_not_finite f c w _ l x lod (hfin l hl)
    case reserved => exact (exec_of_sampleWord hr hi he hl rfl hfail hbad).trans (by rw [hrange, hfree, hx]; rfl)

end Sys2Proof.Machine
end

section
/-! SUPPORT. The lane stacks, hits, visible pixels, pixel writes and tiles of a wave (R247, R251, R255, R257–R260), and the proof of O43. -/

namespace Sys2Proof.Machine

/-! ### Tile references (R260) -/

section
variable {s : State} {c k : Nat} {w : Wave} (hw : s.wave? c k = some w)
include hw

/-- Its references leave a wave at once: those of a wave with AT requests in flight go with a request behind them, and no tile changes yet. -/
theorem State.releaseRefs_drops : ∃ reqs, (s.releaseRefs c k).wave? c k = some { w with tref := [], reqs := reqs }
    ∧ (w.tref = [] → (s.releaseRefs c k).tiles = s.tiles)
    ∧ (w.reqs.any (fun q => decide (q.path = .at)) = true → (s.releaseRefs c k).tiles = s.tiles
      ∧ (w.tref ≠ [] → ∃ q, reqs = w.reqs ++ [q] ∧ q.path = .at ∧ q.ret = .tret (w.tref.map (fun r => r.2)))) := by
  by_cases hn : w.tref = []
  · have hrel : s.releaseRefs c k = s := by unfold State.releaseRefs; rw [hw]; dsimp only; rw [hn]; rfl
    rw [hrel, ← hn]
    exact ⟨w.reqs, hw, fun _ => rfl, fun _ => ⟨rfl, fun h => absurd rfl h⟩⟩
  have hne : w.tref.isEmpty = false := by simpa using hn
  cases ha : w.reqs.any (fun q => decide (q.path = .at)) with
  | true =>
    have hrel : s.releaseRefs c k = State.setWave { s with nextId := s.nextId + 1 } c k
        { w with tref := [], reqs := w.reqs ++ [⟨s.nextId, .at, 0, 0, 0, false, [], .tret (w.tref.map (fun r => r.2)), orderOnly, []⟩] } := by
      unfold State.releaseRefs; rw [hw]; dsimp only; rw [hne, ha]; rfl
    rw [hrel]
    exact ⟨_, State.wave?_setWave_self .., fun _ => rfl, fun _ => ⟨rfl, fun _ => ⟨_, rfl, rfl, rfl⟩⟩⟩
  | false =>
    have hrel : s.releaseRefs c k = s.dropRefs c k := by unfold State.releaseRefs; rw [hw]; dsimp only; rw [hne, ha]; rfl
    have hdrop : (s.dropRefs c k).wave? c k = some { w with tref := [] } := by
      unfold State.dropRefs; rw [hw]; exact State.wave?_setWave_self ..
    exact ⟨w.reqs, hrel ▸ hdrop, fun h => absurd h hn, fun h => absurd h Bool.false_ne_true⟩
end

/-! ### Pixel writes (R259) -/

theorem rotateLeft_perm {α : Type} (l : List α) (n : Nat) : (l.rotateLeft n).Perm l := by
  unfold List.rotateLeft
  dsimp only
  split
  · exact .refl l
  · exact List.perm_append_comm.trans (.of_eq (List.take_append_drop ..))

/-- Lanes none of whose accesses fails leave none failing. -/
theorem filterMap_findSome?_eq_nil {α β : Type} {ls : List Nat} {ps : Nat → List α} {g : Nat × List α → α → Option β}
    (h : ∀ l ∈ ls, ∀ p ∈ ps l, g (l, ps l) p = none) : (ls.map (fun l => (l, ps l))).filterMap (fun x => x.2.findSome? (g x)) = [] := by
  rw [List.filterMap_eq_nil_iff]
  intro x hx
  obtain ⟨l, hl, rfl⟩ := List.mem_map.1 hx
  exact List.findSome?_eq_none_iff.2 (h l hl)

/-- Settles O43, a word at a time. -/
theorem graphicsStoreWords : Obligations.GraphicsStoreWords := by
  unfold Obligations.GraphicsStoreWords
  intro s c k w f hr hw d pair asks up
  have asks_of {i : Instr} {s' u : State} {p : Path} {accs accs' : List Access} {ret : Ret} (hmem : u.mem = s'.mem) (hp : accs'.Perm accs)
      (he : exec i s = .next (u.issueReq c k w.done p w.curWord 0 0 accs' ret 0)) : asks i s' p accs ret :=
    goesOn_of_request hw (.inl rfl) he fun _ _ hm _ hreqs => ⟨hm.trans hmem, _, hreqs, rfl, hp, rfl⟩
  refine ⟨fun base limit hi hrange hfree hb hs => ?rpush, fun base limit hi hrange hfree hb hs hsrc hpop => ?rpop, fun hi hrange hfree hsrc => ?rhit,
    fun hi hrange => ?visld, fun hi hrange hfree hl => ?pxoutNoLane, fun b hi hrange hfree hl hsrc hb hfail hbad hso hok => ?pxout, fun hi => ?tret⟩
  case rpush =>
    have he := (exec_rpush s f).trans (sysWord_eq hr hi _)
    dsimp only at he
    rw [if_neg (Bool.eq_false_iff.1 hrange), if_neg (Bool.eq_false_iff.1 hfree), hb] at he
    dsimp only at he
    rw [hs, List.flatMap_map, List.map_map] at he
    dsimp only [lanesTrap] at he
    refine ⟨fun hsrc => ?_, fun m hsrc hp => ?_⟩
    · rw [hsrc] at he
      exact asks_of rfl (.refl _) he
    · rw [hsrc] at he
      exact he.trans (congrArg _ (State.gPoison_of_trap hp))
  case rpop =>
    have he := (exec_rpop s f).trans (sysWord_eq hr hi _)
    dsimp only at he
    rw [if_neg (Bool.eq_false_iff.1 hrange), if_neg (Bool.eq_false_iff.1 hfree), hb] at he
    dsimp only at he
    rw [hs, hpop, hsrc] at he
    dsimp only [lanesTrap] at he
    intro sp top
    have htop (l : Nat) : (if base + 8 ≤ sp l then (sp l - 8, Mem.readN w.ownLp (lpKey l (sp l - 8)) 8) else (sp l, 0))
        = (if base + 8 ≤ sp l then sp l - 8 else sp l, top l) := by
      unfold top; split <;> rfl
    simp only [sp] at htop
    simp only [htop] at he
    exact asks_of rfl (.refl _) he
  case rhit =>
    intro r hf hbad hso
    have he := (exec_rhit s f).trans (sysWord_eq hr hi _)
    dsimp only at he
    rw [if_neg (Bool.eq_false_iff.1 hrange), if_neg (Bool.eq_false_iff.1 hfree), hf] at he
    dsimp only [lanesTrap] at he
    rw [if_neg (Bool.eq_false_iff.1 hso), hbad, hsrc] at he
    exact asks_of (State.idemLost_mem ..) (.refl _) he
  case visld =>
    have he := (exec_visld s f).trans (sysWord_eq hr hi _)
    dsimp only at he
    rw [if_neg (Bool.eq_false_iff.1 hrange)] at he
    split
    next hheld =>
      rw [hheld, if_neg (by decide)] at he
      intro p
      split
      next hholds => exact he.trans (congrArg _ (if_pos hholds))
      next hfree =>
        intro hsrc hbad
        rw [if_neg hfree, hbad, hsrc] at he
        exact asks_of rfl (.refl _) he
    next hheld => exact he.trans (congrArg _ (if_pos (by rw [Bool.eq_false_iff.2 hheld]; rfl)))
  case pxoutNoLane =>
    have he := (exec_pxout s f).trans (sysWord_eq hr hi _)
    dsimp only at he
    rw [if_neg (Bool.eq_false_iff.1 hrange), if_neg (Bool.eq_false_iff.1 hfree), hl] at he
    exact asks_of (State.idemLost_mem ..) (.refl _) he
  case pxout =>
    intro s1 ps ls hall accs
    have hne : w.lanes.isEmpty = false := by simpa using hl
    have he := (exec_pxout s f).trans (sysWord_eq hr hi _)
    dsimp only at he
    rw [if_neg (Bool.eq_false_iff.1 hrange), if_neg (Bool.eq_false_iff.1 hfree), hne, ← hb, hfail] at he
    dsimp only at he
    rw [if_neg Bool.false_ne_true, if_neg (Bool.eq_false_iff.1 hso), hbad, hok, List.flatMap_map, hsrc, filterMap_findSome?_eq_nil ?passed] at he
    case passed =>
      intro l hl p hp
      obtain ⟨q, hq⟩ := hall l hl p hp
      dsimp only
      rw [hq]
    exact asks_of rfl (rotateLeft_perm ..) he
  case tret =>
    have he := (exec_tret s f).trans (sysWord_eq hr hi _)
    obtain ⟨reqs, hwave, hnone, hrequests⟩ := State.releaseRefs_drops (State.wave?_setWave_self (s.idemLost w.team) c k w.done)
    rw [Wave.done_tref hw] at hnone hrequests
    rw [Wave.done_reqs hw] at hrequests
    exact goesOn_of_wave he hwave rfl (w.done_s hw) (w.done_v hw) (w.done_beats hw)
      ⟨rfl, (State.releaseRefs_mem ..).trans (State.idemLost_mem s w.team), hnone, hrequests⟩

end Sys2Proof.Machine
end

section
/-! SUPPORT. The checks of one access level by level (R265, R332), and the proof of O28. -/

namespace Sys2Proof.Machine

section
variable (s : State) (c : Nat) (w : Wave) (it : Intent) (l : Nat) {va : W64} {n : Nat}

theorem State.check_misaligned (lvl : Level) (h : va.toNat % n ≠ 0) : s.check c w lvl it l va n = .error misaligned := if_pos h

section
variable (h : va.toNat % n = 0)
include h

theorem State.check_lp : s.check c w .lp it l va n
    = if va.toNat + n ≤ w.lanePriv then .ok ⟨lpKey l va.toNat, .rc, false⟩ else .error (protection 0 0) := if_neg (not_not.2 h)
theorem State.check_spad {t : Team} (ht : s.team? w.team = some t) : s.check c w .spad it l va n
    = if t.fits va.toNat n then .ok ⟨scratchKey t.core (t.p + va.toNat), .rc, false⟩ else .error (protection 0 0) := by
  unfold State.check
  rw [if_neg (not_not.2 h), ht]
theorem State.check_csm {t : Team} (ht : s.team? w.team = some t) : s.check c w .csm it l va n
    = if t.excl ∧ va.toNat + n ≤ 0x200000 then .ok ⟨csmKey (clusterOf c) va.toNat, .rc, false⟩ else .error (protection 0 0) := by
  unfold State.check
  rw [if_neg (not_not.2 h), ht]
theorem State.check_glob {x : Xlat} (hx : s.translate (clusterOf c) va it = .ok x) : s.check c w .glob it l va n
    = if x.kind = .ts then .error accessKind else .ok ⟨x.pa, x.kind, x.buf⟩ := by
  unfold State.check
  rw [if_neg (not_not.2 h), hx]
end
end

/-- Settles O28, a level at a time. -/
theorem accessChecks : Obligations.AccessChecks := by
  unfold Obligations.AccessChecks
  intro s c l n w it va lvl
  refine ⟨s.check_misaligned c w it l lvl, s.check_lp c w it l, fun t ht ha => ?spad, fun t ht ha => s.check_csm c w it l ha ht,
    fun x ha hx => s.check_glob c w it l ha hx⟩
  case spad =>
    rw [s.check_spad c w it l ha ht]
    simp only [Team.fits, decide_eq_true_eq]
    rfl

end Sys2Proof.Machine
end

section
/-! SUPPORT. What a sweep leaves in a column (R285, R286), and how the words that sweep one leave their wave (R323, R329, R518). -/

namespace Sys2Proof.Machine

/-! ### One line is cleaned or dropped -/

theorem colKey_inj {c l l' : Nat} : colKey c l = colKey c l' ↔ l = l' := by unfold colKey; omega

@[simp] theorem State.homeWriteCells_cols (s : State) (line : Nat) (cs : List Host.Cell) (writer : Option Nat) :
    (s.homeWriteCells line cs writer).mem.cols = s.mem.cols := by
  have h := ((((State.WorksAt.same line s).needLoop writer line).recallCopies).dropOthers line writer).fill.cols
  unfold State.homeWriteCells
  rw [State.bumpSeq_mem]
  dsimp only; split <;> exact h
@[simp] theorem State.setPoison_cols (s : State) (line : Nat) : (s.setPoison line).mem.cols = s.mem.cols := by
  unfold State.setPoison
  extract_lets s₁ h n m
  have h₁ : s₁.mem.cols = s.mem.cols := s.fill_cols line
  split
  · exact h₁
  · split
    · exact h₁
    · split <;> exact h₁

/-- What a sweep makes of a line: where `p` picks it, it is dropped under `inv` and else clean. -/
def ColLine.swept (p : ColLine → Bool) (inv : Bool) (x : ColLine) : Option ColLine :=
  if p x then (if inv then none else some { x with dirty := 0 }) else some x

section
variable {p : ColLine → Bool} {inv : Bool} {x y : ColLine}

theorem ColLine.swept_of_pos (h : p x = true) : x.swept p inv = x.swept (fun _ => true) inv := if_pos h
theorem ColLine.swept_of_neg (h : p x = false) : x.swept p inv = some x := if_neg (by rw [h]; exact Bool.false_ne_true)
/-- A line a sweep leaves was there, and what the sweep picked of those it leaves is clean. -/
theorem ColLine.swept_eq_some (h : x.swept p inv = some y) :
    y.uo = x.uo ∧ (x.dirty = 0 → y.dirty = 0) ∧ (p x = true → inv = false ∧ y.dirty = 0) := by
  unfold ColLine.swept at h
  split at h
  · split at h
    · cases h
    next hinv => cases h; exact ⟨rfl, fun _ => rfl, fun _ => ⟨Bool.eq_false_iff.2 hinv, rfl⟩⟩
  next hp => cases h; exact ⟨rfl, id, fun h => absurd h hp⟩
/-- A second sweep finds nothing more to do, where what `p` picks does not depend on the dirty bytes. -/
theorem ColLine.swept_swept (hp : ∀ x : ColLine, p { x with dirty := 0 } = p x) (x : ColLine) : (x.swept p inv).bind (ColLine.swept p inv) = x.swept p inv := by
  cases hx : p x with
  | false => rw [ColLine.swept_of_neg hx]; exact ColLine.swept_of_neg hx
  | true =>
    rw [ColLine.swept_of_pos hx]
    cases inv with
    | true => rfl
    | false => exact (ColLine.swept_of_pos ((hp x).trans hx)).trans rfl
end

theorem State.colLine_colClean (s : State) (c line l : Nat) : (s.colClean c line).colLine c l
    = if l = line then (s.colLine c l).bind (ColLine.swept (fun _ => true) false) else s.colLine c l := by
  unfold State.colClean
  split
  next x hx =>
    split
    next hd =>
      split
      next h => rw [h, hx]; exact congrArg some (by rw [← hd])
      next => rfl
    next hd =>
      have hrow {t : State} (ht : t.mem.cols = Tbl.set s.mem.cols (colKey c line) { x with dirty := 0 }) : t.colLine c l
          = if l = line then (s.colLine c l).bind (ColLine.swept (fun _ => true) false) else s.colLine c l := by
        unfold State.colLine
        rw [ht, Tbl.get?_set]
        simp only [colKey_inj]
        split
        next h =>
          rw [h]
          show some _ = (s.colLine c line).bind _
          rw [hx]; rfl
        next => rfl
      dsimp only
      split <;> exact hrow (by simp [State.setCol])
  next hx =>
    split
    next h => rw [h, hx]; rfl
    next => rfl
theorem State.colLine_colEvict (s : State) (c line l : Nat) : (s.colEvict c line).colLine c l
    = if l = line then (s.colLine c l).bind (ColLine.swept (fun _ => true) true) else s.colLine c l := by
  split
  next h => rw [h, State.colLine_colEvict_self]; exact (Option.bind_fun_none _).symm
  next h =>
    refine Eq.trans ?_ ((s.colLine_colClean c line l).trans (if_neg h))
    exact (Tbl.get?_del ..).trans (if_neg (mt colKey_inj.1 h))
/-- What CLEAN or INVAL does with one line. -/
theorem State.colLine_cleanOrEvict (s : State) (c line l : Nat) (inv : Bool) : (if inv then s.colEvict c line else s.colClean c line).colLine c l
    = if l = line then (s.colLine c l).bind (ColLine.swept (fun _ => true) inv) else s.colLine c l := by
  cases inv with
  | true => exact s.colLine_colEvict c line l
  | false => exact s.colLine_colClean c line l

/-! ### A sweep of lines -/

/-- A line is taken as often as it stands in the list, and once is as good as often. -/
theorem State.colLine_foldl {c l : Nat} {f : State → Nat → State} {g : ColLine → Option ColLine} (hg : ∀ x, (g x).bind g = g x)
    (hf : ∀ (u : State) line, (f u line).colLine c l = if l = line then (u.colLine c l).bind g else u.colLine c l) (ls : List Nat) (s : State) :
    (ls.foldl f s).colLine c l = if l ∈ ls then (s.colLine c l).bind g else s.colLine c l := by
  induction ls generalizing s with
  | nil => rfl
  | cons a ls ih =>
    rw [List.foldl_cons, ih, hf]
    by_cases ha : l = a
    · by_cases hl : l ∈ ls <;> simp [ha, Option.bind_assoc, hg]
    · simp [ha]

/-- A sweep takes every line the column holds. -/
theorem State.mem_sweepOrder {s : State} {c l : Nat} {x : ColLine} (hl : l < 2 ^ 41) (hx : s.colLine c l = some x) : l ∈ s.sweepOrder c := by
  unfold State.sweepOrder
  dsimp only
  rw [List.mem_append, or_comm, ← List.mem_append, List.take_append_drop]
  refine List.mem_map.2 ⟨(colKey c l, x), List.mem_filter.2 ⟨Tbl.mem_of_get? hx, decide_eq_true ?_⟩, ?_⟩
  · show (c * 2 ^ 41 + l) / 2 ^ 41 = c
    omega
  · show (c * 2 ^ 41 + l) % 2 ^ 41 = l
    omega
theorem State.colLine_colSweep (s : State) (c : Nat) {p : ColLine → Bool} (hp : ∀ x : ColLine, p { x with dirty := 0 } = p x) (inv : Bool) {l : Nat}
    (hl : l < 2 ^ 41) : (s.colSweep c p inv).colLine c l = (s.colLine c l).bind (ColLine.swept p inv) := by
  unfold State.colSweep
  rw [State.colLine_foldl (g := ColLine.swept p inv) (ColLine.swept_swept hp) fun u line => ?step]
  case step =>
    split
    next x hx =>
      split
      next hpx =>
        rw [State.colLine_cleanOrEvict]
        split
        next h => rw [h, hx]; exact (ColLine.swept_of_pos hpx).symm
        next => rfl
      next hpx =>
        split
        next h => rw [h, hx]; exact (ColLine.swept_of_neg (Bool.eq_false_iff.2 hpx)).symm
        next => rfl
    next hx =>
      split
      next h => rw [h, hx]; rfl
      next => rfl
  split
  next => rfl
  next hmem =>
    cases hx : s.colLine c l with
    | none => rfl
    | some x => exact absurd (State.mem_sweepOrder hl hx) hmem

@[simp] theorem State.colLine_tagLast (s : State) (c k : Nat) (lines : List Nat) (d l : Nat) : (s.tagLast c k lines).colLine d l = s.colLine d l :=
  State.colLine_of_cols (by rw [State.tagLast_mem]) d l
theorem State.colLine_touchAll (s : State) (c : Nat) (lvl : Level) (vas : List W64) (d l : Nat) :
    (s.touchAll c lvl vas).colLine d l = s.colLine d l := by
  have h : s.ReadsHomes (s.touchAll c lvl vas) := by
    unfold State.touchAll
    split
    · exact foldl_pred (P := s.ReadsHomes) (fun _ va hu => hu.touchTlb (clusterOf c) va) _ (.same s)
    · exact .same s
  exact State.colLine_of_cols (MemSys.besideHomes_eq_iff.1 h.beside).1 d l

/-! ### The wave behind a sweep -/

namespace State.Arrived
variable {s u : State} {c k : Nat}

theorem tagLast (s : State) (c' k' : Nat) (lines : List Nat) : s.Arrived (s.tagLast c' k' lines) c k := by
  unfold State.tagLast
  split
  · exact updWave _ _ _ fun w => ⟨_, w.arrivals, rfl⟩
  · exact of_waves rfl
theorem sweepFor (s : State) (c' k' : Nat) (p : ColLine → Bool) (inv : Bool) : s.Arrived (s.sweepFor c' k' p inv) c k :=
  (of_waves (State.colSweep_waves ..)).trans (tagLast _ _ _ _)
theorem acquireFor (s : State) (c' k' : Nat) (paired : Bool) (scope : Nat) : s.Arrived (s.acquireFor c' k' paired scope) c k := by
  unfold State.acquireFor
  split
  · exact sweepFor _ _ _ _ _
  · exact of_waves rfl

/-- A word ends in a wave whose ACKTAG has changed as it would have ended without that. -/
theorem doneWave (h : s.Arrived u c k) {w : Wave} (hs : s.wave? c k = some w) (hw : w.wins = []) :
    ∃ w', (u.doneWave c k).wave? c k = some w' ∧ w'.spot = w.done.spot ∧ w'.s = w.s ∧ w'.v = w.v ∧ w'.reqs = w.reqs := by
  obtain ⟨x, l, hu⟩ := h w hs
  let v : Wave := { w with acktag := x, arrivals := l }
  have hv : v.wins = [] := hw
  exact ⟨v.done, by rw [State.doneWave, State.wave?_updWave_self, hu]; rfl, Wave.done_spot_congr w v hw hv rfl rfl rfl, v.done_s hv, v.done_v hv,
    Wave.done_reqs hv⟩
end State.Arrived

end Sys2Proof.Machine
end

section
/-! SUPPORT. CLEAN, INVAL, DISCARD, PFG and FENCE (R319, R323, R324, R329), and the proof of O30. -/

namespace Sys2Proof.Machine

/-! ### CLEAN and INVAL (R323) -/

section
variable {s : State} {c k : Nat} {w : Wave} {f : FmtM} (inv : Bool) (hs : s.wave? c k = some w) (hw : w.wins = [])
  (hrange : w.regRange (voffRegs f false) = false) (hacq : w.acquiring = false)
include hs hw hrange hacq

/-- On every line: the word ends, and every line of the column is swept where the scope acts. -/
theorem State.columnWord_every (hf : f.fn = 0) :
    (∃ w', (s.columnWord c k w f inv).wave? c k = some w' ∧ w'.spot = w.done.spot ∧ w'.s = w.s ∧ w'.v = w.v ∧ w'.reqs = w.reqs)
      ∧ (columnScope (s.paired w.team) f.scope.toNat = true → ∀ l < 2 ^ 41,
        (s.columnWord c k w f inv).colLine c l = (s.colLine c l).bind (ColLine.swept (fun _ => true) inv)) := by
  have he : s.columnWord c k w f inv = (if columnScope (s.paired w.team) f.scope.toNat then
      (s.colSweep c (fun _ => true) inv).tagLast c k ((s.sweepOrder c).filter (s.colDirty c)) else s).doneWave c k := by
    unfold State.columnWord
    rw [hrange, hw, hacq]
    exact if_pos hf
  rw [he]
  refine ⟨State.Arrived.doneWave ?_ hs hw, fun hacts l hl => ?_⟩
  · split
    · exact (State.Arrived.of_waves (State.colSweep_waves ..)).trans (State.Arrived.tagLast _ _ _ _)
    · exact State.Arrived.of_waves rfl
  · rw [if_pos hacts]
    exact (State.colLine_tagLast ..).trans (s.colLine_colSweep c (fun _ => rfl) inv hl)

/-- On the lines of its lanes: the word ends, and each of them is swept where the scope acts. -/
theorem State.columnWord_named (hf : f.fn = 1) {pl : Nat → Place} (hok : ∀ l ∈ w.lanes, s.check c w .glob .read l (w.laneAddr f false l) 1 = .ok (pl l)) :
    (∃ w', (s.columnWord c k w f inv).wave? c k = some w' ∧ w'.spot = w.done.spot ∧ w'.s = w.s ∧ w'.v = w.v ∧ w'.reqs = w.reqs)
      ∧ (columnScope (s.paired w.team) f.scope.toNat = true → ∀ l ∈ w.lanes, (s.columnWord c k w f inv).colLine c ((pl l).pa / 128)
        = (s.colLine c ((pl l).pa / 128)).bind (ColLine.swept (fun _ => true) inv)) := by
  have hnamed : s.namedLines c w f = .ok (w.lanes.map (fun l => (pl l).pa / 128)) := by
    unfold State.namedLines
    dsimp only
    rw [failures_of_ok hok, placesOf_of_ok hok, List.map_map]
    rfl
  let u := s.touchAll c .glob (w.lanes.map (fun l => w.laneAddr f false l))
  obtain ⟨ls, hmem, he⟩ : ∃ ls : List Nat, (∀ l ∈ w.lanes, (pl l).pa / 128 ∈ ls)
      ∧ s.columnWord c k w f inv = (if columnScope (s.paired w.team) f.scope.toNat then
        (ls.foldl (fun s l => if inv then s.colEvict c l else s.colClean c l) u).tagLast c k (ls.filter (u.colDirty c)) else u).doneWave c k := by
    let named := w.lanes.map (fun l => (pl l).pa / 128)
    let n := u.choose 323000 named.length
    refine ⟨named.drop n ++ named.take n, fun l hl => ?_, ?_⟩
    · rw [List.mem_append, or_comm, ← List.mem_append, List.take_append_drop]
      exact List.mem_map_of_mem hl
    · unfold State.columnWord
      rw [hrange, hw, hacq, hnamed, hf]
      rfl
  have hu : u.waves = s.waves := State.touchAll_waves ..
  rw [he]
  refine ⟨State.Arrived.doneWave ?_ hs hw, fun hacts l hl => ?_⟩
  · split
    · have hfold : (ls.foldl (fun s l => if inv then s.colEvict c l else s.colClean c l) u).waves = s.waves :=
        (foldl_same State.waves (fun t l => by split <;> simp) _ _).trans hu
      exact (State.Arrived.of_waves hfold).trans (State.Arrived.tagLast _ _ _ _)
    · exact State.Arrived.of_waves hu
  · rw [if_pos hacts]
    refine (State.colLine_tagLast ..).trans ((State.colLine_foldl (ColLine.swept_swept fun _ => rfl)
      (fun t line => t.colLine_cleanOrEvict c line _ inv) ls u).trans ?_)
    rw [if_pos (hmem l hl), State.colLine_touchAll]
end

/-- A line that was swept without being dropped is not dirty. -/
theorem State.colDirty_of_swept {t : State} {c l : Nat} {o : Option ColLine} (h : t.colLine c l = o.bind (ColLine.swept (fun _ => true) false)) :
    t.colDirty c l = false := by
  unfold State.colDirty
  rw [h]
  cases o <;> rfl
theorem State.colLine_of_evicted {t : State} {c l : Nat} {o : Option ColLine} (h : t.colLine c l = o.bind (ColLine.swept (fun _ => true) true)) :
    t.colLine c l = none := h.trans (Option.bind_fun_none _)

/-! ### PFG (R304, R319) -/

/-- A line prefetched is present or on its way. -/
theorem State.takePrefetch_present (s : State) (c line : Nat) : (Tbl.get? ((s.takePrefetch c line).cluster c).lines line).isSome = true
    ∨ ((s.takePrefetch c line).cluster c).misses.any (fun m => decide (m.line = line)) = true := by
  unfold State.takePrefetch
  extract_lets k waits t
  split
  next h => exact Bool.or_eq_true_iff.1 h
  next =>
    have ht : t.cluster c = { k with misses := k.misses ++ [⟨line, [], true⟩] } := State.cluster_setCluster_self ..
    have hrow : (t.cluster c).misses.any (fun m => decide (m.line = line)) = true := by rw [ht]; simp
    right
    split <;> exact hrow
theorem State.prefetch_of_translate {s : State} {cl : Nat} {va : W64} {x : Xlat} (hx : s.translate cl va .read = .ok x)
    (hk : x.kind = .rc ∨ x.kind = .uo) : s.prefetch cl va = (s.touchTlb cl va).takePrefetch cl (x.pa / 128) := by
  unfold State.prefetch
  rw [hx]
  exact if_pos hk

/-! ### DISCARD (R324) -/

theorem State.discardCheck_ok {s : State} {c : Nat} {va : W64} {x : Xlat} (hx : s.translate (clusterOf c) va .write = .ok x)
    (hh : hostWindow x.pa = false) (hk : x.kind ≠ .ts) : s.discardCheck c va = .ok ⟨x.pa, x.kind, x.buf⟩ := by
  unfold State.discardCheck
  rw [hx]
  dsimp only
  rw [if_neg (Bool.eq_false_iff.1 hh), if_neg hk]

/-! ### FENCE (R329, R518) -/

/-- The column actions of a FENCE: its release, the drop of update-only lines, and its acquire. -/
def State.fenceActs (s : State) (c k : Nat) (pair : Bool) (sem scope : Nat) : State :=
  let s := if sem = 2 ∨ sem = 3 ∨ scope = 1 then s.releaseFor c k pair scope else s
  let s := if 3 ≤ scope then s.sweepFor c k (fun l => l.uo) true else s
  if sem = 1 ∨ sem = 3 then s.acquireFor c k pair scope else s

section
variable {s t : State} {c k : Nat}

theorem State.fenceActs_arrived (pair : Bool) (sem scope : Nat) : s.Arrived (s.fenceActs c k pair sem scope) c k := by
  unfold State.fenceActs
  extract_lets s₁ s₂
  have h₁ : s.Arrived s₁ c k := by
    unfold s₁; split
    · exact State.Arrived.releaseFor _ _ _ _ _
    · exact .of_waves rfl
  have h₂ : s.Arrived s₂ c k := by
    unfold s₂; split
    · exact h₁.trans (State.Arrived.sweepFor _ _ _ _ _)
    · exact h₁
  split
  · exact h₂.trans (State.Arrived.acquireFor _ _ _ _ _)
  · exact h₂

/-- A sweep takes the lines below 2^41 of a column that `p` picks, where `acts` holds. -/
def State.Sweeps (s t : State) (c : Nat) (acts : Prop) (p : ColLine → Bool) (inv : Bool) : Prop :=
  ∀ l < 2 ^ 41, ∀ y, t.colLine c l = some y → ∃ x, s.colLine c l = some x
    ∧ y.uo = x.uo ∧ (x.dirty = 0 → y.dirty = 0) ∧ (acts → p x = true → inv = false ∧ y.dirty = 0)

theorem State.Sweeps.of_not {acts : Prop} {p : ColLine → Bool} {inv : Bool} (h : ¬ acts) : s.Sweeps s c acts p inv :=
  fun _ _ y hy => ⟨y, hy, rfl, id, fun ha => absurd ha h⟩
theorem State.Sweeps.of_colSweep {acts : Prop} {p : ColLine → Bool} {inv : Bool} (hp : ∀ x : ColLine, p { x with dirty := 0 } = p x)
    (lines : List Nat) : s.Sweeps ((s.colSweep c p inv).tagLast c k lines) c acts p inv := by
  intro l hl y hy
  rw [State.colLine_tagLast, State.colLine_colSweep s c hp inv hl] at hy
  obtain ⟨x, hx, hxy⟩ := Option.bind_eq_some_iff.1 hy
  obtain ⟨huo, hclean, hpick⟩ := ColLine.swept_eq_some hxy
  exact ⟨x, hx, huo, hclean, fun _ => hpick⟩

theorem State.releaseFor_sweeps (pair : Bool) (scope : Nat) :
    s.Sweeps (s.releaseFor c k pair scope) c (columnScope pair scope = true) (fun _ => true) false := by
  unfold State.releaseFor State.columnRelease
  split
  next => exact .of_colSweep (fun _ => rfl) _
  next h => exact .of_not h
theorem State.acquireFor_sweeps (pair : Bool) (scope : Nat) :
    s.Sweeps (s.acquireFor c k pair scope) c (columnScope pair scope = true) (fun l => !l.uo) true := by
  unfold State.acquireFor
  split
  next => exact .of_colSweep (fun _ => rfl) _
  next h => exact .of_not h
/-- A sweep that is made under a condition. -/
theorem State.Sweeps.ite {cond acts : Prop} [Decidable cond] {p : ColLine → Bool} {inv : Bool} (h : s.Sweeps t c acts p inv) :
    s.Sweeps (if cond then t else s) c (cond ∧ acts) p inv := by
  split
  next =>
    intro l hl y hy
    obtain ⟨x, hx, huo, hclean, hpick⟩ := h l hl y hy
    exact ⟨x, hx, huo, hclean, fun ha => hpick ha.2⟩
  next hc => exact .of_not fun ha => hc ha.1

/-- The lines a FENCE leaves in the column: clean where it releases, none update-only at device scope and above, and none but update-only
where it acquires. -/
theorem State.fenceActs_colLine {pair : Bool} {sem scope l : Nat} (hl : l < 2 ^ 41) {y : ColLine} (hy : (s.fenceActs c k pair sem scope).colLine c l = some y) :
    (columnScope pair scope = true → sem = 2 ∨ sem = 3 ∨ scope = 1 → y.dirty = 0) ∧ (3 ≤ scope → y.uo = false)
      ∧ (columnScope pair scope = true → sem = 1 ∨ sem = 3 → y.uo = true) := by
  unfold State.fenceActs at hy
  extract_lets s₁ s₂ at hy
  have h₁ : s.Sweeps s₁ c _ _ _ := (State.releaseFor_sweeps pair scope).ite
  have h₂ : s₁.Sweeps s₂ c (3 ≤ scope ∧ True) (fun l => l.uo) true := State.Sweeps.ite (.of_colSweep (fun _ => rfl) _)
  obtain ⟨x₂, hx₂, huo₃, hclean₃, hpick₃⟩ := (State.acquireFor_sweeps pair scope).ite l hl y hy
  obtain ⟨x₁, hx₁, huo₂, hclean₂, hpick₂⟩ := h₂ l hl x₂ hx₂
  obtain ⟨x, -, -, -, hpick₁⟩ := h₁ l hl x₁ hx₁
  refine ⟨fun ha hsem => hclean₃ (hclean₂ (hpick₁ ⟨hsem, ha⟩ rfl).2), fun hscope => ?_, fun ha hsem => ?_⟩
  · rw [huo₃, huo₂]
    by_contra huo
    exact Bool.noConfusion (hpick₂ ⟨hscope, trivial⟩ (Bool.of_not_eq_false huo)).1
  · rw [huo₃]
    by_contra huo
    exact Bool.noConfusion (hpick₃ ⟨hsem, ha⟩ (by simpa using huo)).1
end

theorem execFence_of_quiet {s : State} {c k : Nat} {w : Wave} {f : FmtM} (hr : s.runs c k w) (hi : (Instr.fence f).wf) (hq : w.memQuiet = true) :
    exec (.fence f) s = .next ((s.fenceActs c k (s.paired w.team) f.sem.toNat f.scope.toNat).updWave c k
      (fun w => (w.writeS f.data.toNat w.acktag).done)) := by
  have hs127 (w : Wave) : (if f.data = 127 then w else w.writeS f.data.toNat w.acktag) = w.writeS f.data.toNat w.acktag := by
    split
    next h => rw [h]; rfl
    next => rfl
  refine ((exec_fence s f).trans (sysWord_eq hr hi _)).trans ?_
  rw [hq]
  simp only [hs127]
  rfl

/-- A wave that reads ACKTAG and ends its word keeps all but the register. -/
theorem Wave.readsAckTag {w v : Wave} {x : W32} {l : List Arrival} (hw : w.wins = []) (hv : v = { w with acktag := x, arrivals := l }) (d : Nat) :
    (v.writeS d x).done.spot = w.done.spot ∧ (v.writeS d x).done.v = w.v ∧ (v.writeS d x).done.reqs.length = w.reqs.length
      ∧ ∀ r, (v.writeS d x).done.rawS r = if r = d ∧ w.discards r = false then (v.writeS d x).done.acktag else w.rawS r := by
  have hv0 : v.wins = [] := by rw [hv]; exact hw
  have hu : (v.writeS d x).wins = [] := v.writeS_wins d x hv0
  have hbare : (v.writeS d x).done.bare = v.bare := (Wave.done_bare _ hu).trans (v.writeS_bare d x)
  have hreqs := congrArg (fun u : Wave => u.reqs.length) hbare
  have hack : (v.writeS d x).done.acktag = x := (congrArg Wave.acktag hbare).trans (by rw [hv]; rfl)
  refine ⟨Wave.done_spot_congr w _ hw hu ?_ ?_ ?_, ?_, ?_, fun r => ?_⟩
  · rw [Wave.writeS_clause, hv]
  · rw [Wave.writeS_widx, hv]
  · rw [Wave.writeS_pc, hv]
  · rw [Wave.done_v _ hu, Wave.writeS_v, hv]
  · simpa [Wave.bare, hv] using hreqs
  · have hraw : (v.writeS d x).done.rawS r = (v.writeS d x).rawS r := by
      unfold Wave.rawS; rw [Wave.done_s _ hu, Wave.done_beats _ hu]
    rw [hraw, Wave.rawS_writeS, hack, hv]
    by_cases h : r = d
    · rw [h]; rfl
    · rw [if_neg fun ha => h ha.1, if_neg fun ha => h ha.1]; rfl

/-- A word that blocks changes no more of its wave than its pipe and where it waits. -/
theorem Wave.blockAt_pipe_block {w : Wave} (hw : w.wins = []) (now stage wake : Nat) :
    ∃ p b, w.blockAt now stage wake = { w with pipe := p, block := b } := by
  unfold Wave.blockAt
  rw [Wave.closeWins_of_none hw, ite_self]
  obtain ⟨p, hp⟩ : ∃ p, (if opBlocks (opOf w.curWord) then { w with pipe := none } else w) = { w with pipe := p } := by
    split
    · exact ⟨none, rfl⟩
    · exact ⟨w.pipe, rfl⟩
  dsimp only
  rw [hp]
  split <;> exact ⟨p, _, rfl⟩

theorem Wave.memQuiet_iff {w : Wave} (hw : w.wins = []) : w.memQuiet = true ↔ ∀ q ∈ w.reqs, pathMemory q.path = false := by
  simp [Wave.memQuiet, hw]

/-- Settles O30, a word at a time: the sweeps leave the column as they say, the prefetch its row, and each word its wave. -/
theorem cacheWordsAndFences : Obligations.CacheWordsAndFences := by
  unfold Obligations.CacheWordsAndFences
  intro s c k w f hr hw moved acts a64
  have hs : s.wave? c k = some w := hr.2
  refine ⟨fun hi hrange hacq => ?pfg, fun hi hf hrange hacq => ?clean, fun hi hf hrange hacq => ?inval,
    fun pl hf hrange hacq hok => ⟨fun hi => ?cleanNamed, fun hi => ?invalNamed⟩, fun x hi hrange hcount hne hok => ?discard,
    fun hi hrange hcount hl => ?discardNoLane, fun hi hquiet => ?fence, fun hi hbusy => ?fenceWaits⟩
  case pfg =>
    have he := (exec_pfg s f).trans (sysWord_eq hr hi _)
    dsimp only at he
    rw [if_neg (Bool.eq_false_iff.1 hrange), if_neg (Bool.eq_false_iff.1 hacq)] at he
    refine ⟨_, he, ⟨_, State.wave?_setWave_self .., rfl, w.done_s hw, w.done_v hw, Wave.done_reqs hw⟩, fun l x hl hx hk => ?_⟩
    have hone : s.prefetch (clusterOf c) (w.laneAddr f (f.fn.getLsbD 3) l) = _ := State.prefetch_of_translate hx hk
    rw [hl, List.foldl_cons, List.foldl_nil, hone]
    exact State.takePrefetch_present ..
  case clean =>
    obtain ⟨hmoved, hcol⟩ := State.columnWord_every false hs hw hrange hacq hf
    exact ⟨_, (exec_clean s f).trans (sysWord_eq hr hi _), hmoved, fun ha l hl => State.colDirty_of_swept (hcol ha l hl)⟩
  case inval =>
    obtain ⟨hmoved, hcol⟩ := State.columnWord_every true hs hw hrange hacq hf
    exact ⟨_, (exec_inval s f).trans (sysWord_eq hr hi _), hmoved, fun ha l hl => State.colLine_of_evicted (hcol ha l hl)⟩
  case cleanNamed =>
    obtain ⟨hmoved, hcol⟩ := State.columnWord_named false hs hw hrange hacq hf hok
    exact ⟨_, (exec_clean s f).trans (sysWord_eq hr hi _), hmoved, fun ha l hl => State.colDirty_of_swept (hcol ha l hl)⟩
  case invalNamed =>
    obtain ⟨hmoved, hcol⟩ := State.columnWord_named true hs hw hrange hacq hf hok
    exact ⟨_, (exec_inval s f).trans (sysWord_eq hr hi _), hmoved, fun ha l hl => State.colLine_of_evicted (hcol ha l hl)⟩
  case discard =>
    have hfree : w.full .gs = false := decide_eq_false (Nat.not_le.2 hcount)
    have hchecks : ∀ l ∈ w.lanes, s.discardCheck c (w.laneAddr f a64 l) = .ok ⟨(x l).pa, (x l).kind, (x l).buf⟩ := fun l hl =>
      State.discardCheck_ok (hok l hl).1 (hok l hl).2.1 (hok l hl).2.2
    have hsome (g : Nat → Access) : (w.lanes.map g).isEmpty = false := by simpa using hne
    have he := (exec_discard s f).trans (sysWord_eq hr hi _)
    dsimp only at he
    rw [if_neg (Bool.eq_false_iff.1 hrange), if_neg (Bool.eq_false_iff.1 hfree), failures_of_ok hchecks, placesOf_of_ok hchecks] at he
    dsimp only [lanesTrap] at he
    rw [List.map_map, hsome, if_neg Bool.false_ne_true] at he
    refine ⟨_, _, _, he, State.wave?_setWave_self .., congrArg (· ++ _) (Wave.done_reqs hw), rfl, w.done_s hw, w.done_v hw, rfl, ?_⟩
    rw [List.map_map]
    rfl
  case discardNoLane =>
    have hfree : w.full .gs = false := decide_eq_false (Nat.not_le.2 hcount)
    have he := (exec_discard s f).trans (sysWord_eq hr hi _)
    dsimp only at he
    rw [if_neg (Bool.eq_false_iff.1 hrange), if_neg (Bool.eq_false_iff.1 hfree), hl] at he
    exact ⟨(s.idemLost w.team).setWave c k w.done, he, State.wave?_setWave_self .., State.idemLost_mem s w.team⟩
  case fence =>
    obtain ⟨x, l, hu⟩ := State.fenceActs_arrived (s := s) (c := c) (k := k) (s.paired w.team) f.sem.toNat f.scope.toNat w hs
    obtain ⟨hspot, hv, hreqs, hraw⟩ := Wave.readsAckTag hw (rfl : _ = { w with acktag := x, arrivals := l }) f.data.toNat
    refine ⟨_, _, execFence_of_quiet hr hi ((Wave.memQuiet_iff hw).2 hquiet), ?_, hspot, hv, hreqs, hraw, fun line y hl hy => ?_⟩
    · rw [State.wave?_updWave_self, hu]
      rfl
    · obtain ⟨hclean, huo, honly⟩ := State.fenceActs_colLine hl hy
      exact ⟨fun ha h => hclean ha (h.imp (congrArg _) (Or.imp (congrArg _) (congrArg _))), huo,
        fun ha h => honly ha (h.imp (congrArg _) (congrArg _))⟩
  case fenceWaits =>
    obtain ⟨q, hq, hpath⟩ := hbusy
    have hquiet : w.memQuiet = false := Bool.eq_false_iff.2 fun h => by
      rw [(Wave.memQuiet_iff hw).1 h q hq] at hpath
      cases hpath
    have he := (exec_fence s f).trans (sysWord_eq hr hi _)
    rw [hquiet] at he
    obtain ⟨p, b, hb⟩ := Wave.blockAt_pipe_block hw s.time 1 0
    exact ⟨_, he.trans (congrArg (fun u => Host.Outcome.next (s.setWave c k u)) hb), rfl, rfl, rfl, rfl⟩

end Sys2Proof.Machine
end

section
/-! SUPPORT. The invariant along a step: every event the device may choose keeps it, and so does each way a step ends, with the proofs of O59 and
O60. -/

namespace Sys2Proof.Machine

/-! ### The device's own events -/

/-- A meaning that keeps the invariant. -/
def KeepsInv (f : State → Out) : Prop := ∀ s, s.Inv → OutInv (f s)

theorem waveEvents_keepInv (a : Agent) (w : Wave) : ∀ f ∈ waveEvents a w, KeepsInv f := by
  unfold waveEvents
  refine List.forall_mem_append.2 ⟨List.forall_mem_append.2 ⟨?between, ?returns⟩, List.forall_mem_flatMap.2 fun q _ => ?accesses⟩
  case between =>
    simp only [List.forall_mem_cons]
    exact ⟨execPromotion_inv a, execPendingFaultDelivery_inv a, execPoisonStop_inv a, execVacateWaveStop_inv a, execWatchdog_inv a,
      execSleepWake_inv a, execChannelWaitServed_inv a, execStreamQueueWaitServed_inv a, List.forall_mem_nil _⟩
  case returns =>
    intro f hf
    obtain ⟨p, -, hp⟩ := List.mem_filterMap.1 hf
    obtain rfl := Option.some.inj (Option.ite_none_right_eq_some.1 hp).2
    exact execRequestReturn_inv a p
  case accesses =>
    refine List.forall_mem_append.2 ⟨fun f hf => ?_, List.forall_mem_flatMap.2 fun i _ f hf => ?_⟩
    · split at hf
      · obtain rfl := List.mem_singleton.1 hf
        exact execVersionWordRetry_inv a q.id
      · cases hf
    · split at hf
      · revert f
        simp only [List.forall_mem_cons]
        exact ⟨execHomeRead_inv a q.id i, execHomeWrite_inv a q.id i, execAtomicAtHome_inv a q.id i, execRedContribution_inv a q.id i,
          List.forall_mem_nil _⟩
      · cases hf
theorem streamEvents_keepInv (c : Nat) (m : Stream) : ∀ f ∈ streamEvents c m, KeepsInv f := by
  unfold streamEvents
  refine List.forall_mem_append.2 ⟨List.forall_mem_append.2 ⟨?own, List.forall_mem_map.2 fun x _ => execMfmtComplete_inv c x.1⟩,
    List.forall_mem_flatMap.2 fun q _ => ?quarters⟩
  case own =>
    simp only [List.forall_mem_cons]
    exact ⟨execMmaFire_inv c, execArrayWordEnd_inv c, execTransferWordBegin_inv c, execTransferWordEnd_inv c, execGtCheckAnswer_inv c,
      execPoisonStop_inv (.stream c), execVacateWaveStop_inv (.stream c), execWatchdog_inv (.stream c), List.forall_mem_nil _⟩
  case quarters =>
    simp only [List.forall_mem_cons]
    exact ⟨execQuarterGated_inv c q, execQuarterAwake_inv c q, List.forall_mem_nil _⟩
theorem State.deviceEvents_keepInv (s : State) : ∀ f ∈ s.deviceEvents, KeepsInv f := by
  unfold State.deviceEvents
  simp only [List.forall_mem_append, List.forall_mem_flatMap, List.forall_mem_map, List.forall_mem_cons]
  refine ⟨⟨⟨⟨⟨⟨⟨⟨⟨⟨⟨?cmds, ?treqs⟩, ?flits⟩, ?teams⟩, ?queues⟩, ?launches⟩, ?dies⟩, ?columns⟩, ?slices⟩, ?clusters⟩, ?cores⟩, ?device⟩
  case cmds =>
    exact fun r _ => ⟨execEngineFire_inv r.1, execEngineComplete_inv r.1, execPublishFlip_inv r.1, execLaunchEnqueue_inv r.1, List.forall_mem_nil _⟩
  case treqs =>
    exact fun r _ => ⟨execTupleDeposit_inv r.1, execTupleMatch_inv r.1, execTupleRetry_inv r.1, execTupleCancel_inv r.1, execTupleTimeout_inv r.1,
      execTsFull_inv r.1, List.forall_mem_nil _⟩
  case flits => exact fun r _ => ⟨execGtFlitArrival_inv r.1, execGtFlitAck_inv r.1, List.forall_mem_nil _⟩
  case teams => exact fun r _ => ⟨execPhaseComplete_inv r.1, execPhaseWatchRegister_inv r.1, execTeamSave_inv r.1, List.forall_mem_nil _⟩
  case queues => exact fun r _ => ⟨execLaunchQueueRefetch_inv r.1, execLaunchRecordRead_inv r.1, List.forall_mem_nil _⟩
  case launches => exact fun r _ => ⟨execLaunchActivation_inv r.1, execLaunchCompletion_inv r.1, List.forall_mem_nil _⟩
  case dies =>
    exact fun r _ => ⟨⟨⟨execRasterBatch_inv r.1, execFrameClose_inv r.1, List.forall_mem_nil _⟩, fun e _ => execClassifyTile_inv r.1 e⟩,
      fun b _ => ⟨execBinWaveClose_inv r.1 b.1, execBinflushTimeout_inv r.1 b.1, List.forall_mem_nil _⟩⟩
  case columns => exact fun r _ => execColumnEviction_inv (r.1 / 2 ^ 41) (r.1 % 2 ^ 41)
  case slices => exact fun r _ => execL2Eviction_inv r.1
  case clusters =>
    exact fun r _ => ⟨⟨⟨⟨fun x _ => execClusterCacheEviction_inv r.1 x.1, fun x _ => execRedirectedRead_inv r.1 x.1⟩,
      fun t _ => execPageWalk_inv r.1 (BitVec.ofNat 64 t.base)⟩, fun w _ => execPageWalk_inv r.1 (BitVec.ofNat 64 w.2)⟩,
      fun m _ => execGddr7Fill_inv m.line⟩
  case cores => exact fun r _ => execCounterMirrorRefresh_inv r.1
  case device =>
    exact ⟨execPlacementDecision_inv, execVacateComplete_inv, execTimeSliceExpiry_inv, execTlbinvComplete_inv, execCkptComplete_inv,
      execBootokTimeout_inv, List.forall_mem_nil _⟩

theorem State.candidates_keepInv (s : State) : ∀ f ∈ s.candidates, KeepsInv f := by
  unfold State.candidates
  exact List.forall_mem_append.2 ⟨List.forall_mem_append.2 ⟨List.forall_mem_append.2 ⟨List.forall_mem_map.2 fun a _ t => t.agentTurn_inv a,
    List.forall_mem_flatMap.2 fun r _ => waveEvents_keepInv _ r.2⟩, List.forall_mem_flatMap.2 fun r _ => streamEvents_keepInv r.1 r.2⟩,
    s.deviceEvents_keepInv⟩
/-- What the device does of its own choice keeps the invariant. -/
theorem State.autoTurn_keepInv {s : State} {f : State → Out} (h : s.autoTurn = some f) : KeepsInv f :=
  s.candidates_keepInv f (List.mem_of_getElem? h)

/-! ### Reset and step -/

/-- Settles O59: the tables and the stores of the reset state are empty lists. -/
theorem resetInv : Obligations.ResetInv := by
  unfold Obligations.ResetInv
  intro m
  have hempty : ∀ st ∈ [m.home, m.dram, m.scratch, m.rows, m.chip, m.acc], st = [] := by simp [m, State.reset, MemSys.reset]
  refine ⟨rfl, fun st hst => ⟨hempty st hst, fun a => ?_⟩, rfl, rfl, rfl, rfl, rfl, rfl, rfl, rfl, rfl, rfl⟩
  rw [hempty st hst]
  rfl

/-- Settles O60: the turn of the agenda and the device's own choice keep the invariant, and so do the ck before them and the end of the turn. -/
theorem stepKeepsInv : Obligations.StepKeepsInv := by
  unfold Obligations.StepKeepsInv
  intro s s' hs hstep
  have hbegun (rest : List Turn) : (s.begun rest).Inv := s.begun_inv rest hs
  unfold step at hstep
  split at hstep
  next t rest _ => exact State.settle_inv _ _ (hbegun rest) (State.turn_inv _ t (hbegun rest)) s' hstep
  next =>
    split at hstep
    next f hf => exact State.settle_inv _ _ (hbegun []) (State.autoTurn_keepInv hf _ (hbegun [])) s' hstep
    next => exact OutInv.next (s.tick_inv hs) s' hstep

end Sys2Proof.Machine
end

section
/-! SUPPORT. The traps of the vector memory words (R121, R332), and the proof of O27. -/

namespace Sys2Proof.Machine

/-- A lane whose check fails. -/
def failsCheck (chk : Nat → Except XErr Place) (l : Nat) : Bool := match chk l with | .error _ => true | .ok _ => false

section
variable (va : Nat → W64) (chk : Nat → Except XErr Place)

theorem failures_cons_error {l : Nat} (ls : List Nat) {e : XErr} (h : chk l = .error e) :
    failures ((l :: ls).map (fun l => (l, va l, chk l))) = (l, va l, e) :: failures (ls.map (fun l => (l, va l, chk l))) :=
  List.filterMap_cons_some (by dsimp only; rw [h])
theorem failures_cons_ok {l : Nat} (ls : List Nat) {p : Place} (h : chk l = .ok p) :
    failures ((l :: ls).map (fun l => (l, va l, chk l))) = failures (ls.map (fun l => (l, va l, chk l))) :=
  List.filterMap_cons_none (by dsimp only; rw [h])
/-- The lanes of a word's failures are those whose checks fail, in their order. -/
theorem failures_lanes (ls : List Nat) : (failures (ls.map (fun l => (l, va l, chk l)))).map (fun b => b.1) = ls.filter (failsCheck chk) := by
  induction ls with
  | nil => rfl
  | cons l ls ih =>
    cases h : chk l with
    | error e => rw [failures_cons_error va chk ls h, List.filter_cons_of_pos (by unfold failsCheck; rw [h]), List.map_cons, ih]
    | ok p => rw [failures_cons_ok va chk ls h, List.filter_cons_of_neg (by unfold failsCheck; rw [h]; exact Bool.false_ne_true), ih]
theorem mem_failures {ls : List Nat} {b : Nat × W64 × XErr} (h : b ∈ failures (ls.map (fun l => (l, va l, chk l)))) :
    b.2.1 = va b.1 ∧ chk b.1 = .error b.2.2 := by
  obtain ⟨x, hx, hb⟩ := List.mem_filterMap.1 h
  obtain ⟨l, -, rfl⟩ := List.mem_map.1 hx
  dsimp only at hb
  cases hc : chk l with
  | error e => rw [hc] at hb; cases hb; exact ⟨rfl, hc⟩
  | ok p => rw [hc] at hb; cases hb
end

/-- A word with failing lanes traps for the lowest of them, and names them all (R332). -/
theorem lanesTrap_failures {ls : List Nat} {va : Nat → W64} {chk : Nat → Except XErr Place} {l0 : Nat} {e : XErr}
    (hl : (ls.filter (failsCheck chk)).head? = some l0) (he : chk l0 = .error e) :
    lanesTrap (failures (ls.map (fun l => (l, va l, chk l))))
      = some { cause := e.cause, sub := e.sub, level := e.level, eaddr := va l0, fm := maskOf (ls.filter (failsCheck chk)) } := by
  have hlanes := failures_lanes va chk ls
  cases hf : failures (ls.map (fun l => (l, va l, chk l))) with
  | nil => rw [hf] at hlanes; rw [← hlanes] at hl; cases hl
  | cons b bs =>
    obtain ⟨l, a, e'⟩ := b
    obtain ⟨ha, he'⟩ := mem_failures va chk (hf ▸ List.mem_cons_self)
    rw [hf] at hlanes
    rw [← hlanes] at hl ⊢
    obtain rfl : l = l0 := Option.some.inj hl
    obtain rfl : a = va l := ha
    obtain rfl : e = e' := Except.error.inj (he.symm.trans he')
    rfl

section
variable {s : State} {c k : Nat} {w : Wave} {f : FmtM} {p : MemPlan}

theorem State.issueVec_of_range (hr : w.regRange (p.regs ++ voffRegs f p.a64) = true) : s.issueVec c k w f p = s.trapAt c k w w.regRangeTrap := by
  unfold State.issueVec
  rw [if_pos hr]
/-- A failing lane keeps every access of the word from being made. -/
theorem State.issueVec_of_fails (hr : w.regRange (p.regs ++ voffRegs f p.a64) = false) (hc : w.count p.path < 63) {l0 : Nat} {e : XErr}
    (hl : ((w.memLanes p.intent).filter (failsCheck (fun l => s.check c w p.lvl p.intent l (w.laneAddr f p.a64 l) p.n))).head? = some l0)
    (he : s.check c w p.lvl p.intent l0 (w.laneAddr f p.a64 l0) p.n = .error e) :
    s.issueVec c k w f p = (s.touchAll c p.lvl ((w.memLanes p.intent).map (w.laneAddr f p.a64))).trapAt c k w
      { cause := e.cause, sub := e.sub, level := e.level, eaddr := w.laneAddr f p.a64 l0
        fm := maskOf ((w.memLanes p.intent).filter (failsCheck (fun l => s.check c w p.lvl p.intent l (w.laneAddr f p.a64 l) p.n))) } := by
  have hfree : w.full p.path = false := decide_eq_false (Nat.not_le.2 hc)
  unfold State.issueVec
  rw [hr, hfree]
  dsimp only
  rw [lanesTrap_failures hl he, List.map_map]
  rfl
end

/-- Settles O27: each word is one issue of its plan, which traps for its registers first and then for its lanes. -/
theorem memoryChecksTrap : Obligations.MemoryChecksTrap := by
  unfold Obligations.MemoryChecksTrap
  intro s c k w f hr size d traps moves n cn
  have traps_of {i : Instr} {p : MemPlan} (he : i.wf = true → exec i s = .next (s.issueVec c k w f p)) :
      traps i p.lvl p.path p.a64 p.n p.regs p.intent := by
    intro hi
    rw [← w.memLanes_eq]
    exact ⟨fun hrange => (he hi).trans (congrArg _ (State.issueVec_of_range hrange)),
      fun hrange hcount l0 e hl hfail => (he hi).trans (congrArg _ (State.issueVec_of_fails hrange hcount hl hfail))⟩
  refine ⟨?ldl, ?stl, ?lds, ?sts, ?ldc, ?stc, ?ldp, ?stp, ?ldg, ?stg, ?atom, ?red, ?acas⟩
  case ldl => exact traps_of fun hi => (exec_ldl s f).trans (sysWord_eq hr hi _)
  case stl => exact traps_of fun hi => (exec_stl s f).trans (sysWord_eq hr hi _)
  case lds => exact traps_of fun hi => (exec_lds s f).trans (sysWord_eq hr hi _)
  case sts => exact traps_of fun hi => (exec_sts s f).trans (sysWord_eq hr hi _)
  case ldc => exact traps_of fun hi => (exec_ldc s f).trans (sysWord_eq hr hi _)
  case stc => exact traps_of fun hi => (exec_stc s f).trans (sysWord_eq hr hi _)
  case ldp => exact traps_of fun hi => (exec_ldp s f).trans (sysWord_eq hr hi _)
  case stp => exact traps_of fun hi => (exec_stp s f).trans (sysWord_eq hr hi _)
  case ldg => exact traps_of fun hi => (exec_ldg s f).trans (sysWord_eq hr hi _)
  case stg => exact traps_of fun hi => (exec_stg s f).trans (sysWord_eq hr hi _)
  case atom => exact traps_of fun hi => (exec_atom s f).trans (sysWord_eq hr hi _)
  case red => exact traps_of fun hi => (exec_red s f).trans (sysWord_eq hr hi _)
  case acas => exact traps_of fun hi => (exec_acas s f).trans (sysWord_eq hr hi _)

end Sys2Proof.Machine
end

section
/-! SUPPORT. The scalar, queue and tile words at issue (R315, R318, R320–R322), and the proof of O29. -/

namespace Sys2Proof.Machine

/-! ### Queues of a team (R373, R374) -/

theorem Team.queue_setQueue (t : Team) (q n : Nat) (x : SQueue) : (t.setQueue q x).queue n = if n = q then x else t.queue n := Tbl.getD_put ..
@[simp] theorem Team.queue_setQueue_self (t : Team) (q : Nat) (x : SQueue) : (t.setQueue q x).queue q = x := (t.queue_setQueue q q x).trans (if_pos rfl)

/-! ### The scalar words (R315) -/

section
variable {s : State} {c k : Nat} {w : Wave} {f : FmtM}

/-- A scalar word whose check passes puts its one access in flight. -/
theorem State.issueScalar_of_ok {path : Path} (hc : w.count path < 63) {n : Nat} {i : Intent} {p : Place}
    (hp : s.check c w .glob i 0 (w.wordBase f) n = .ok p) (lost : Bool) (op : AccOp) (ret : Ret) :
    s.issueScalar c k w f path n i lost op ret = ((if lost then s.idemLost w.team else s).touchTlb (clusterOf c) (w.wordBase f)).issueReq c k w.done
      path w.curWord f.sem.toNat f.scope.toNat [⟨0, w.wordBase f, p.pa, n, .glob, p.kind, p.buf, op, false, 0, false, 0⟩] ret 0 := by
  have hfree : w.full path = false := decide_eq_false (Nat.not_le.2 hc)
  unfold State.issueScalar
  rw [hfree]
  dsimp only
  rw [hp]
  rfl
theorem fn_mod_eight_of_sld (h : (Instr.sld f).wf) : f.fn.toNat % 8 = f.fn.toNat := by
  simp only [wf_sld, mSld, Bool.and_eq_true, decide_eq_true_eq] at h; omega
theorem fn_mod_eight_of_sst (h : (Instr.sst f).wf) : f.fn.toNat % 8 = f.fn.toNat := by
  simp only [wf_sst, mSst, Bool.and_eq_true, decide_eq_true_eq] at h; omega
end

/-! ### LDQ (R318) -/

section
variable {s : State} {c k : Nat} {w : Wave} {f : FmtM} {x : Team}

/-- An LDQ with a lane takes the queue's next entry, which becomes READY with its data. -/
theorem exec_ldq_of_ok (hr : s.runs c k w) (hi : (Instr.ldq f).wf) (hx : s.team? w.team = some x)
    (hrange : w.regRange (voffRegs f (f.fn.getLsbD 3)) = false) (hc : w.count .gl < 63) (hl : w.lanes ≠ [])
    (hpush : (x.queue f.data.toNat).mayPush (.wave c k) = true) {pl : Nat → Place}
    (hok : ∀ l ∈ w.lanes, s.check c w .glob .read l (w.laneAddr f (f.fn.getLsbD 3) l) (sizeBytes (f.fn.toNat % 8)) = .ok (pl l)) :
    exec (.ldq f) s = .next (((s.touchAll c .glob (w.lanes.map (w.laneAddr f (f.fn.getLsbD 3)))).setTeam w.team
      (x.setQueue f.data.toNat ((x.queue f.data.toNat).take (.wave c k) ⟨false, []⟩))).issueReq c k w.done .gl w.curWord 0 0
      (w.lanes.map (fun l => ⟨l, w.laneAddr f (f.fn.getLsbD 3) l, (pl l).pa, sizeBytes (f.fn.toNat % 8), .glob, (pl l).kind, (pl l).buf, .read,
        false, 0, false, 0⟩))
      (.queue f.data.toNat ((x.queue f.data.toNat).head + (x.queue f.data.toNat).entries.length) (f.fn.toNat % 8) 0 w.mask) 0) := by
  have hfree : w.full .gl = false := decide_eq_false (Nat.not_le.2 hc)
  have hsome (g : Nat → Access) : (w.lanes.map g).isEmpty = false := by simpa using hl
  refine ((exec_ldq s f).trans (sysWord_eq hr hi _)).trans ?_
  dsimp only
  rw [hx]
  dsimp only
  rw [hrange, hfree, failures_of_ok hok, placesOf_of_ok hok, hpush]
  dsimp only [lanesTrap]
  rw [List.map_map, List.map_map, hsome]
  rfl
end

/-! ### TLD and TST (R320–R322) -/

section
variable {s : State} {c k : Nat} {w : Wave} {f : FmtM} {ps vs : List Access}

theorem exec_tld_of_ok (hr : s.runs c k w) (hi : (Instr.tld f).wf) (hrange : w.regRange (tileRegs f) = false) (hc : w.count .gl < 63)
    (hok : s.tileCheck c w (w.wordBase f) (tileBytes f) (if f.fn.getLsbD 3 then some (w.readS64 (f.base.toNat + 2)) else none) .read .read = .ok (ps, vs)) :
    exec (.tld f) s = .next ((s.touchAll c .glob ((ps ++ vs).map (fun a => a.va))).issueReq c k w.done .gl w.curWord f.sem.toNat f.scope.toNat
      (vs ++ ps ++ vs) (.tile f.data.toNat (tileBytes f) (f.fn.getLsbD 3)) 0) := by
  have hfree : w.full .gl = false := decide_eq_false (Nat.not_le.2 hc)
  refine ((exec_tld s f).trans (sysWord_eq hr hi _)).trans ?_
  dsimp only
  rw [hrange, hfree, hok]
  rfl
theorem exec_tst_of_ok (hr : s.runs c k w) (hi : (Instr.tst f).wf) (hrange : w.regRange (tileRegs f) = false) (hc : w.count .gs < 63)
    (hok : s.tileCheck c w (w.wordBase f) (tileBytes f) (if f.fn.getLsbD 3 then some (w.readS64 (f.base.toNat + 2)) else none) .write .write = .ok (ps, vs)) :
    exec (.tst f) s = .next (((s.idemLost w.team).touchAll c .glob ((ps ++ vs).map (fun a => a.va))).issueReq c k w.done .gs w.curWord f.sem.toNat
      f.scope.toNat (vs.map (fun a => { a with op := .atom 13 1 }) ++ ps.map (fun a => { a with op := .write (w.tilePiece f.data.toNat a.lane) })
        ++ vs.map (fun a => { a with op := .atom 13 1 })) .none (if f.fn.getLsbD 3 then aonPhase else 0)) := by
  have hfree : w.full .gs = false := decide_eq_false (Nat.not_le.2 hc)
  refine ((exec_tst s f).trans (sysWord_eq hr hi _)).trans ?_
  dsimp only
  rw [hrange, hfree, hok]
  rfl
end

/-- Settles O29: each word ends with one request, whose accesses are those its checks named. -/
theorem scalarTileAndQueueLoads : Obligations.ScalarTileAndQueueLoads := by
  unfold Obligations.ScalarTileAndQueueLoads
  intro s c k w f hr hw size d va goes
  have goes_of (u : State) {p : Path} {sem scope phase : Nat} {accs : List Access} {ret : Ret} {walked : State} (hm : u.mem = walked.mem) :
      goes (u.issueReq c k w.done p w.curWord sem scope accs ret phase) ⟨u.nextId, p, w.curWord, sem, scope, false, accs, ret, phase, []⟩ p walked :=
    ⟨_, State.wave?_setWave_self .., congrArg (· ++ _) (Wave.done_reqs hw), rfl, w.done_s hw, w.done_v hw, rfl, rfl, hm⟩
  refine ⟨fun hi hc p hp => ?sld, fun hi hc p hp => ?sst, fun x hi hx hrange hc hl hpush pl hok => ?ldq, fun ps vs hi hrange hc hok => ?tld,
    fun ps vs hi hrange hc hok => ?tst⟩
  case sld =>
    have hsize : size = f.fn.toNat := fn_mod_eight_of_sld hi
    rw [hsize] at hp ⊢
    exact ⟨_, _, ((exec_sld s f).trans (sysWord_eq hr hi _)).trans (congrArg _ (State.issueScalar_of_ok hc hp false _ _)), goes_of _ rfl, rfl, rfl⟩
  case sst =>
    have hsize : size = f.fn.toNat := fn_mod_eight_of_sst hi
    rw [hsize] at hp ⊢
    exact ⟨_, _, ((exec_sst s f).trans (sysWord_eq hr hi _)).trans (congrArg _ (State.issueScalar_of_ok hc hp true _ _)), goes_of _ rfl, rfl, rfl⟩
  case ldq =>
    refine ⟨_, _, _, exec_ldq_of_ok hr hi hx hrange hc hl hpush hok, goes_of _ rfl, rfl, State.team?_setTeam_self .., ?_, ?_⟩
    · rw [Team.queue_setQueue_self]; rfl
    · rw [Team.queue_setQueue_self]; rfl
  case tld => exact ⟨_, _, exec_tld_of_ok hr hi hrange hc hok, goes_of _ rfl, rfl, rfl⟩
  case tst =>
    refine ⟨_, _, exec_tst_of_ok hr hi hrange hc hok, goes_of _ rfl, rfl, ?_, fun a ha => ?_, fun a ha => ?_⟩
    · simp only [List.length_append, List.length_map]; omega
    · exact List.mem_append_left _ (List.mem_append_right _ (List.mem_map_of_mem ha))
    · exact List.mem_append_right _ (List.mem_map_of_mem ha)

end Sys2Proof.Machine
end

section
/-! SUPPORT. A trap record whose fields do not fit ESTAT (R437), and the refutation of O19. -/

namespace Sys2Proof.Machine

/-- A wave inside a handler, on a device whose trap table lies at 0x200 of a readable page of zeros, so that every cause says STOP. -/
def Wave.inHandler : Wave := { Wave.fresh 0 with estat := 0x8000 }
def State.stopTable : State :=
  { State.reset with
    waves := [(waveKey 0 0, Wave.inHandler)], win := { Window.reset with tvbase := 0x200 }
    clusters := [(0, { Cluster.empty with tlb := [⟨0, 0, 0, 0x4B⟩] })], fred := { Fred.reset with stage := 7 } }

/-- The field of a word number 128 lies at INTRAP, and carries out of it. -/
theorem State.stopTable_takeTrap :
    ((State.stopTable.takeTrap 0 0 Wave.inHandler { cause := 0x13, fm := 0 } 0 true 128).wave? 0 0).map (fun w => w.estat.getLsbD 17) = some false := by
  decide +kernel

/-- Refutes O19: the statement does not bound the word number and the level of the record as O18 does. ESTAT is the sum of its fields, so the
word number 128, which is 2^15 in its place, carries INTRAP away, and the trap inside a handler stops without DOUBLE. -/
theorem not_trapStops : ¬ Obligations.TrapStops := by
  unfold Obligations.TrapStops
  intro h
  have hstop : State.stopTable.vectorOf 0 0x13 = .stop := by decide +kernel
  obtain ⟨w', hw', -, -, -, -, -, -, hdouble⟩ :=
    h State.stopTable 0 0 Wave.inHandler { cause := 0x13, fm := 0 } 0 true 128 rfl rfl (by decide) (.inl hstop)
  have h17 : w'.estat.getLsbD 17 = true := hdouble (by rw [hstop]; exact Vector.noConfusion) (by decide)
  have hcarry := State.stopTable_takeTrap
  rw [hw', Option.map_some, h17] at hcarry
  cases hcarry

end Sys2Proof.Machine
end

section
/-! SUPPORT. ERET and BRK (R447, R448), and the proof of O24. -/

namespace Sys2Proof.Machine

/-- Clearing INTRAP leaves the other bits, so the field below it (R437). -/
theorem getLsbD_estatClr_of_ne (e : W32) {i : Nat} (hi : i ≠ 15) : (estatClr e 15).getLsbD i = e.getLsbD i := by
  have hbit : (BitVec.ofNat 32 (2 ^ 15)).getLsbD i = false := by
    rw [BitVec.getLsbD_ofNat, Nat.testBit_two_pow_of_ne hi.symm, Bool.and_false]
  by_cases h : i < 32
  · unfold estatClr
    rw [BitVec.getLsbD_and, BitVec.getLsbD_not, hbit, decide_eq_true h]
    simp
  · rw [BitVec.getLsbD_of_ge _ _ (Nat.le_of_not_lt h), BitVec.getLsbD_of_ge _ _ (Nat.le_of_not_lt h)]
theorem word_estatClr (e : W32) : (estatClr e 15).toNat / 256 % 16 = (e.extractLsb' 8 4).toNat := by
  have h : (estatClr e 15).extractLsb' 8 4 = e.extractLsb' 8 4 := BitVec.eq_of_getLsbD_eq fun i hi => by
    rw [BitVec.getLsbD_extractLsb', BitVec.getLsbD_extractLsb', getLsbD_estatClr_of_ne e (by omega)]
  rw [← h, toNat_extractLsb']
  rfl

/-- ERET leaves the registers of its wave, and of the rest of it INTRAP and the arrival that stood for the trap alone are changed (R447). -/
theorem Wave.eret_same {w : Wave} (hw : w.wins = []) : w.eret.bare = { w with estat := estatClr w.estat 15, standsTrap := none }.bare ∧ w.eret.s = w.s ∧ w.eret.v = w.v := by
  have hc : ({ w with estat := estatClr w.estat 15 } : Wave).closeWins = { w with estat := estatClr w.estat 15 } := Wave.closeWins_of_none hw
  unfold Wave.eret
  dsimp only
  split
  all_goals
    unfold Wave.goTo
    rw [hc]
    exact ⟨rfl, rfl, rfl⟩
theorem Wave.eret_spot_word {w : Wave} (h : w.estat.getLsbD 18 = true) :
    w.eret.spot = (w.epc - BitVec.ofNat 64 (8 * ((w.estat.extractLsb' 8 4).toNat + 1)), none, 0) ∧ w.eret.eretWord = some (w.estat.extractLsb' 8 4).toNat := by
  unfold Wave.eret
  dsimp only
  rw [getLsbD_estatClr_of_ne _ (by decide), if_pos h, word_estatClr]
  exact ⟨rfl, rfl⟩
theorem Wave.eret_spot_header {w : Wave} (h : w.estat.getLsbD 18 = false) : w.eret.spot = (w.epc, none, 0) ∧ w.eret.eretWord = none := by
  unfold Wave.eret
  dsimp only
  rw [getLsbD_estatClr_of_ne _ (by decide), if_neg (Bool.eq_false_iff.1 h)]
  exact ⟨rfl, rfl⟩

/-- Settles O24: ERET is a return from the record, and BRK a trap at the fall-through header. -/
theorem returnAndBreakpoint : Obligations.ReturnAndBreakpoint := by
  unfold Obligations.ReturnAndBreakpoint
  intro s c k w cl f hr hw hcl
  refine ⟨fun hi => ?eret, fun hi => ?brk⟩
  case eret =>
    obtain ⟨hbare, hs, hv⟩ := Wave.eret_same hw
    refine ⟨w.eret, ?_, hbare, hs, hv, ?_⟩
    · rw [exec_eret, execEret, sysWord_eq hr hi, Wave.tickWins_of_none hw]
    · split
      next h => exact Wave.eret_spot_word h
      next h => exact Wave.eret_spot_header (Bool.eq_false_iff.2 h)
  case brk =>
    have hsub : f.imm.toNat % 256 = f.imm.toNat := by
      simp only [wf_brk, Bool.and_eq_true, decide_eq_true_eq] at hi
      exact Nat.mod_eq_of_lt hi.2
    rw [exec_brk, execBrk, sysWord_eq hr hi, hsub, Wave.wordAddr_of_clause hcl, Wave.fallAddr_of_clause hcl, Wave.trapMask, Wave.closeWins_of_none hw]
    rfl

end Sys2Proof.Machine
end

section
/-! SUPPORT. The counters and the time (R449, R482, R484, R486), and the proof of O25. -/

namespace Sys2Proof.Machine

theorem Wave.memQuiet_eq {w : Wave} (hw : w.wins = []) : w.memQuiet = !w.reqs.any (fun q => pathMemory q.path) := by
  simp [Wave.memQuiet, hw, List.not_any_eq_all_not]

section
variable (s : State) (c : Nat) (w : Wave) (sa : Nat) {p : Nat} (hp : p < 8)
include hp

/-- The first identifiers name the wave's own path counters (R143, R482). -/
theorem State.counterRead_path : s.counterRead c w p sa = some (BitVec.ofNat 64 (w.count (Path.ofCode p))) := by
  unfold State.counterRead
  rw [Nat.div_eq_of_lt (by omega : p < 4096), Nat.mod_eq_of_lt (by omega : p < 4096)]
  rfl
/-- The core's programmable counters (R484). -/
theorem State.counterRead_pmc : s.counterRead c w (0x1000 + p) sa = some (Tbl.getD (s.core c).pmc p Pmc.zero).val := by
  unfold State.counterRead
  rw [show (0x1000 + p) / 4096 = 1 by omega, show (0x1000 + p) % 4096 = p by omega]
  exact if_pos hp
end

section
variable {s : State} {c k : Nat} {w : Wave} {f : FmtY} (hr : s.runs c k w) (hw : w.wins = [])
include hr hw

/-- CNTRD of a counter that is there notes what it read in the mirror of its core (R481, R482). -/
theorem exec_cntrd_some (hi : (Instr.cntrd f).wf) {x : W64} (hx : s.counterRead c w f.imm.toNat f.sa.toNat = some x) :
    ∃ s' t, exec (.cntrd f) s = .next t ∧ { s' with cores := s.cores } = s ∧ WaveWrote s' t c k w
      [(f.sd.toNat, x.extractLsb' 0 32), (f.sd.toNat + 1, x.extractLsb' 32 32), (126, 1)] [] w.done.spot := by
  have hwrote (u : State) := Wave.wrote_done u c k w [(f.sd.toNat, x.extractLsb' 0 32), (f.sd.toNat + 1, x.extractLsb' 32 32), (126, 1)] [] hw (by simp)
  have he := (exec_cntrd s f).trans (sysWord_eq hr hi _)
  dsimp only at he
  rw [hx] at he
  dsimp only at he
  split at he
  · exact ⟨_, _, he, by rfl, hwrote _⟩
  · exact ⟨s, _, he, rfl, hwrote s⟩
theorem ends_cntrd_none (hi : (Instr.cntrd f).wf) (hx : s.counterRead c w f.imm.toNat f.sa.toNat = none) :
    Ends (.cntrd f) s c k w [(f.sd.toNat, 0), (f.sd.toNat + 1, 0), (126, 0)] [] := by
  have he := (exec_cntrd s f).trans (sysWord_eq hr hi _)
  dsimp only at he
  rw [hx] at he
  exact ⟨_, he, Wave.wrote_done s c k w [(f.sd.toNat, 0), (f.sd.toNat + 1, 0), (126, 0)] [] hw (by simp)⟩
/-- ISYNC of a wave without a memory access ends with its core's instruction cache empty (R449). -/
theorem exec_isync_of_quiet (hi : (Instr.isync f).wf) (hq : w.memQuiet = true) : ∃ t w', exec (.isync f) s = .next t ∧ t.wave? c k = some w'
    ∧ w'.spot = w.done.spot ∧ w'.s = w.s ∧ w'.v = w.v ∧ (t.core c).icache = [] := by
  have he := (exec_isync s f).trans (sysWord_eq hr hi _)
  dsimp only at he
  rw [hq] at he
  rw [Bool.not_true, if_neg Bool.false_ne_true] at he
  let u := ((s.releaseFor c k false 3).sweepFor c k (fun l => l.uo) true).sweepFor c k (fun l => !l.uo) true
  have hrel : s.Arrived (s.releaseFor c k false 3) c k := State.Arrived.releaseFor s c k false 3
  have hsweeps : s.Arrived u c k := (hrel.trans (State.Arrived.sweepFor _ c k _ true)).trans (State.Arrived.sweepFor _ c k _ true)
  have hu : s.Arrived (u.setCore c { u.core c with icache := [] }) c k := hsweeps.trans (State.Arrived.of_waves (State.setCore_waves ..))
  obtain ⟨w', hw', hspot, hs, hv, -⟩ := hu.doneWave hr.2 hw
  refine ⟨_, w', he, hw', hspot, hs, hv, ?_⟩
  rw [State.doneWave, State.core_of_cores (State.updWave_cores ..), State.core_setCore_self]
end

/-- Settles O25, a word at a time. -/
theorem countersAndTime : Obligations.CountersAndTime := by
  unfold Obligations.CountersAndTime
  intro s c k w f hr hw d pair v
  refine ⟨fun hi => ?cntrd, fun p hp => s.counterRead_path c w f.sa.toNat hp, rfl, fun p hp => s.counterRead_pmc c w f.sa.toNat hp, fun hi => ?cntcfg,
    fun hi => ?time, fun hi => ?isync⟩
  case cntrd =>
    split
    next x hx => exact exec_cntrd_some hr hw hi hx
    next hx => exact ends_cntrd_none hr hw hi hx
  case cntcfg =>
    have he := (exec_cntcfg s f).trans (sysWord_eq hr hi _)
    dsimp only at he
    rw [Wave.protTrap_of_none hw] at he
    split
    next h =>
      rw [if_neg (not_or.2 ⟨not_not.2 h.1, Nat.not_lt.2 h.2⟩)] at he
      exact ⟨_, he, Wave.wrote_done _ c k w [] [] hw (by simp)⟩
    next h => rw [he, if_pos ((not_and_or.1 h).imp id Nat.lt_of_not_le)]
  case time =>
    exact ⟨_, (exec_time s f).trans (sysWord_eq hr hi _), Wave.wrote_done s c k w (pair (BitVec.ofNat 64 (s.time / 17))) [] hw (by simp)⟩
  case isync =>
    split
    next h =>
      have he := (exec_isync s f).trans (sysWord_eq hr hi _)
      dsimp only at he
      rw [Wave.memQuiet_eq hw, h] at he
      obtain ⟨p, b, hb⟩ := Wave.blockAt_pipe_block hw s.time 1 0
      exact ⟨_, he.trans (congrArg (fun u => Host.Outcome.next (s.setWave c k u)) hb), rfl, rfl, rfl, rfl⟩
    next h => exact exec_isync_of_quiet hr hw hi (by rw [Wave.memQuiet_eq hw, Bool.eq_false_iff.2 h]; rfl)

end Sys2Proof.Machine
end

section
/-! SUPPORT. What the caches, the home slices and the translation of an address leave as it was: the commands and requests, the
queues, the channels, the tuples and the stores beside the homes. -/

namespace Sys2Proof.Machine

/-- The device beside its memory fabric: what no operation of the caches, the home slices or the TLBs changes. -/
structure Aside where
  rest : State
  core : Nat → Core
  slice : Nat → Slice
  die : Nat → Die

def State.aside (s : State) : Aside where
  rest := { s with
    waves := [], cores := [], clusters := [], slices := [], dies := [], counters := [], walked := [], lack := none,
    mem := { s.mem.besideHomes with cols := [] }, win := { s.win with reports := [], vectors := [] } }
  core c := { s.core c with pmc := [] }
  slice h := { s.slice h with seq := 0, reads := [] }
  die d := { s.die d with tlb := [], walks := [] }

/-! ### What two states of one aside share -/

namespace Aside
variable {s t : State} (h : t.aside = s.aside)
include h

theorem cmds : t.cmds = s.cmds := congrArg (fun a => a.rest.cmds) h
theorem treqs : t.treqs = s.treqs := congrArg (fun a => a.rest.treqs) h
theorem flits : t.flits = s.flits := congrArg (fun a => a.rest.flits) h
theorem teams : t.teams = s.teams := congrArg (fun a => a.rest.teams) h
theorem groups : t.groups = s.groups := congrArg (fun a => a.rest.groups) h
theorem launches : t.launches = s.launches := congrArg (fun a => a.rest.launches) h
theorem lqs : t.lqs = s.lqs := congrArg (fun a => a.rest.lqs) h
theorem buffers : t.buffers = s.buffers := congrArg (fun a => a.rest.buffers) h
theorem nextId : t.nextId = s.nextId := congrArg (fun a => a.rest.nextId) h
theorem ck : t.ck = s.ck := congrArg (fun a => a.rest.ck) h
theorem fred : t.fred = s.fred := congrArg (fun a => a.rest.fred) h
theorem scratch : t.mem.scratch = s.mem.scratch := congrArg (fun a => a.rest.mem.scratch) h
theorem rows : t.mem.rows = s.mem.rows := congrArg (fun a => a.rest.mem.rows) h
theorem chip : t.mem.chip = s.mem.chip := congrArg (fun a => a.rest.mem.chip) h
theorem acc : t.mem.acc = s.mem.acc := congrArg (fun a => a.rest.mem.acc) h
theorem ctxid : t.win.ctxid = s.win.ctxid := congrArg (fun a => a.rest.win.ctxid) h
theorem chains (c : Nat) : (t.core c).chains = (s.core c).chains := congrArg (fun a => (a.core c).chains) h
theorem tuples (n : Nat) : (t.slice n).tuples = (s.slice n).tuples := congrArg (fun a => (a.slice n).tuples) h
theorem watches (n : Nat) : (t.slice n).watches = (s.slice n).watches := congrArg (fun a => (a.slice n).watches) h
theorem depStamp (n : Nat) : (t.slice n).depStamp = (s.slice n).depStamp := congrArg (fun a => (a.slice n).depStamp) h
theorem parkStamp (n : Nat) : (t.slice n).parkStamp = (s.slice n).parkStamp := congrArg (fun a => (a.slice n).parkStamp) h
theorem rasterQ (d : Nat) : (t.die d).rasterQ = (s.die d).rasterQ := congrArg (fun a => (a.die d).rasterQ) h

end Aside

/-! ### The pieces an operation is made of -/

section
variable (s : State)

@[simp] theorem State.setCluster_aside (c : Nat) (x : Cluster) : (s.setCluster c x).aside = s.aside := rfl
@[simp] theorem State.count_aside (dom inst idx n : Nat) : (s.count dom inst idx n).aside = s.aside := rfl
@[simp] theorem State.setWave_aside (c k : Nat) (w : Wave) : (s.setWave c k w).aside = s.aside := rfl
@[simp] theorem State.updWave_aside (c k : Nat) (f : Wave → Wave) : (s.updWave c k f).aside = s.aside := rfl
@[simp] theorem State.errorReport_aside (code : Nat) : (s.errorReport code).aside = s.aside := rfl
@[simp] theorem State.setCol_aside (c l : Nat) (x : ColLine) : (s.setCol c l x).aside = s.aside := rfl
@[simp] theorem State.dropCol_aside (c l : Nat) : (s.dropCol c l).aside = s.aside := rfl
theorem State.setMem_aside {m : MemSys} (h : { m.besideHomes with cols := [] } = { s.mem.besideHomes with cols := [] }) :
    ({ s with mem := m } : State).aside = s.aside := by
  unfold State.aside
  congr 1
  exact congrArg (fun m' => { s.aside.rest with mem := m' }) h
theorem State.setSlice_aside {n : Nat} {x : Slice} (h : { x with seq := 0, reads := [] } = { s.slice n with seq := 0, reads := [] }) :
    (s.setSlice n x).aside = s.aside := by
  unfold State.aside
  congr 1
  funext m
  rw [State.slice_setSlice]
  split
  next e => rw [e]; exact h
  next => rfl
theorem State.setDie_aside {d : Nat} {x : Die} (h : { x with tlb := [], walks := [] } = { s.die d with tlb := [], walks := [] }) :
    (s.setDie d x).aside = s.aside := by
  unfold State.aside
  congr 1
  funext m
  rw [State.die_setDie]
  split
  next e => rw [e]; exact h
  next => rfl
theorem State.foldl_aside {α : Type} {f : State → α → State} (h : ∀ u a, (f u a).aside = u.aside) (l : List α) : (l.foldl f s).aside = s.aside :=
  foldl_same State.aside h l s
@[simp] theorem State.pmcCount_aside (core ev n team : Nat) : (s.pmcCount core ev n team).aside = s.aside := by
  unfold State.pmcCount
  dsimp only; split
  · unfold State.aside
    congr 1
    funext m
    rw [State.core_setCore]
    split
    next e => rw [e]
    next => rfl
  · rfl

/-! ### The home slices -/

@[simp] theorem State.l2Evict_aside (line : Nat) : (s.l2Evict line).aside = s.aside := by
  unfold State.l2Evict
  split
  · split <;> rfl
  · rfl
@[simp] theorem State.sliceTrim_aside (n spare : Nat) : (s.sliceTrim n spare).aside = s.aside :=
  State.sliceTrim_same State.aside State.l2Evict_aside s n spare
@[simp] theorem State.needLoop_aside (c : Option Nat) (line : Nat) : (s.needLoop c line).aside = s.aside := by
  unfold State.needLoop
  split <;> rfl
@[simp] theorem State.fill_aside (line : Nat) : (s.fill line).aside = s.aside := by
  unfold State.fill
  split
  · rfl
  · extract_lets s₁ s₂
    have h₁ : s₁.aside = s.aside := by unfold s₁; split <;> rfl
    have h₂ : s₂.aside = s₁.aside := State.sliceTrim_aside s₁ _ _
    exact (State.count_aside ..).trans ((State.setMem_aside s₂ rfl).trans (h₂.trans h₁))
@[simp] theorem State.dropCopy_aside (c line : Nat) : (s.dropCopy c line).aside = s.aside := by
  unfold State.dropCopy
  dsimp only; split
  · split <;> rfl
  · rfl
@[simp] theorem State.dropReplicas_aside (line : Nat) : (s.dropReplicas line).aside = s.aside := by
  unfold State.dropReplicas
  refine (State.foldl_aside _ (fun u c => ?_) _).trans ?_
  · dsimp only; split <;> rfl
  · split <;> rfl
theorem State.combine_aside (unit : Nat) (p : Partial) : (s.combine unit p).aside = s.aside := rfl
@[simp] theorem State.bumpSeq_aside (line : Nat) : (s.bumpSeq line).aside = s.aside := State.setSlice_aside s rfl
@[simp] theorem State.recallFrom_aside (line : Nat) (cs : List Nat) : (s.recallFrom line cs).aside = s.aside := by
  unfold State.recallFrom
  split
  · rfl
  · extract_lets s₁ words s₂ s₃
    have h₁ : s₁.aside = s.aside := by simp [s₁]
    have h₂ : s₂.aside = s₁.aside := State.foldl_aside s₁ (fun u w => by
      dsimp only; split
      · rfl
      · exact (State.bumpSeq_aside _ _).trans (State.foldl_aside u (fun v (up : Nat × Partial) => State.combine_aside v up.1 up.2) _)) _
    have h₃ : s₃.aside = s₂.aside := State.foldl_aside s₂ (fun u c => State.dropCopy_aside u c line) _
    split <;> exact h₃.trans (h₂.trans h₁)
@[simp] theorem State.recall_aside (line : Nat) : (s.recall line).aside = s.aside := State.recallFrom_aside s line _
@[simp] theorem State.homeTouch_aside (line : Nat) : (s.homeTouch line).aside = s.aside := by simp [State.homeTouch]
@[simp] theorem State.dropOthers_aside (line : Nat) (writer : Option Nat) : (s.dropOthers line writer).aside = s.aside := by
  unfold State.dropOthers
  extract_lets s₁ s₂
  have h₁ : s₁.aside = s.aside := State.foldl_aside s (fun u c => State.dropCopy_aside u c line) _
  have h₂ : s₂.aside = s₁.aside := by unfold s₂; split <;> rfl
  rw [State.dropReplicas_aside, h₂, h₁]
@[simp] theorem State.grantOwned_aside (c line : Nat) : (s.grantOwned c line).aside = s.aside := by
  unfold State.grantOwned
  dsimp only; split <;> rfl
@[simp] theorem State.homeWriteCells_aside (line : Nat) (cs : List Host.Cell) (writer : Option Nat) :
    (s.homeWriteCells line cs writer).aside = s.aside := by
  unfold State.homeWriteCells
  have h₁ : ((((s.needLoop writer line).recall line).dropOthers line writer).fill line).aside = s.aside := by simp
  dsimp only
  rw [State.bumpSeq_aside]
  split <;> exact (State.setMem_aside _ rfl).trans h₁
@[simp] theorem State.homeWriteBytes_aside (pa : Nat) (bs : List Byte) (writer : Option Nat) : (s.homeWriteBytes pa bs writer).aside = s.aside := by
  unfold State.homeWriteBytes
  split
  · rfl
  · exact State.foldl_aside s (fun u l => State.homeWriteCells_aside u l _ writer) _
@[simp] theorem State.setPoison_aside (line : Nat) : (s.setPoison line).aside = s.aside := by
  unfold State.setPoison
  extract_lets s₁ h n
  have h₁ : s₁.aside = s.aside := State.fill_aside s line
  split
  · exact h₁
  · split
    · exact h₁
    · split <;> exact h₁

/-! ### The column caches -/

@[simp] theorem State.colClean_aside (core line : Nat) : (s.colClean core line).aside = s.aside := by
  unfold State.colClean
  split
  · split
    · rfl
    · extract_lets cl s₁ s₂
      have h₂ : s₂.aside = s.aside := by simp [s₂, s₁]
      split
      · simpa [State.countErr] using h₂
      · exact h₂
  · rfl
@[simp] theorem State.colEvict_aside (core line : Nat) : (s.colEvict core line).aside = s.aside := by simp [State.colEvict]
@[simp] theorem State.colEvictOne_aside (core : Nat) : (s.colEvictOne core).aside = s.aside := by
  unfold State.colEvictOne
  dsimp only; split
  · simp
  · rfl
@[simp] theorem State.evictForRows_aside (core : Nat) : (s.evictForRows core).aside = s.aside := by
  unfold State.evictForRows
  refine (State.foldl_aside _ (fun u _ => State.colEvictOne_aside u core) _).trans (State.foldl_aside s (fun u l => ?_) _)
  split
  · simp
  · rfl
@[simp] theorem State.colSweep_aside (core : Nat) (p : ColLine → Bool) (inv : Bool) : (s.colSweep core p inv).aside = s.aside := by
  refine State.foldl_aside s (fun u l => ?_) _
  split
  · split
    · split <;> simp
    · rfl
  · rfl
@[simp] theorem State.columnAcquire_aside (paired : Bool) (scope core : Nat) : (s.columnAcquire paired scope core).aside = s.aside := by
  unfold State.columnAcquire
  split
  · simp
  · rfl
@[simp] theorem State.releaseFor_aside (core slot : Nat) (paired : Bool) (scope : Nat) : (s.releaseFor core slot paired scope).aside = s.aside := by
  unfold State.releaseFor State.columnRelease State.tagLast
  split
  · split <;> simp
  · rfl

/-! ### The walks of a translation -/

@[simp] theorem State.commitWalk_aside (va : W64) : (s.commitWalk va).aside = s.aside := by
  unfold State.commitWalk
  split
  · exact State.foldl_aside s (fun u l => State.homeTouch_aside u l) _
  · rfl
@[simp] theorem State.noteWalk_aside (t : TlbEntry) : (s.noteWalk t).aside = s.aside := by
  unfold State.noteWalk
  split <;> rfl
@[simp] theorem State.endWalk_aside (d : Nat) (va : W64) : (s.endWalk d va).aside = s.aside := by
  unfold State.endWalk
  dsimp only; split
  · split
    · simp
    · rw [State.noteWalk_aside]
      refine (State.setDie_aside _ ?_).trans (State.commitWalk_aside s va)
      rfl
  · simp
@[simp] theorem State.walkFill_aside (d : Nat) (va : W64) : (s.walkFill d va).aside = s.aside := by
  unfold State.walkFill
  dsimp only; split
  · refine Eq.trans ?_ (State.endWalk_aside s d va)
    unfold State.leaveWalk
    exact State.setDie_aside _ rfl
  · split
    · simp
    · rfl
@[simp] theorem State.touchShared_aside (d : Nat) (va : W64) : (s.touchShared d va).aside = s.aside := by
  unfold State.touchShared
  split
  · rfl
  · split <;> simp
@[simp] theorem State.takeLeaf_aside (cl : Nat) (va : W64) : (s.takeLeaf cl va).aside = s.aside := by
  unfold State.takeLeaf
  split <;> rfl
@[simp] theorem State.touchTlb_aside (cl : Nat) (va : W64) : (s.touchTlb cl va).aside = s.aside := by
  unfold State.touchTlb
  split
  · rfl
  · split <;> simp

end
end Sys2Proof.Machine
end

section
/-! SUPPORT. How the words of a wave end: the wave and the state after a word that goes on or waits. -/

namespace Sys2Proof.Machine

/-! ### A word that goes on -/

/-- The wave after a word's writes: where it stands, and what its registers read. -/
structure Wave.Wrote (w w' : Wave) (ss : List (Nat × W32)) (vs : List (Nat × Nat × W32)) : Prop where
  spot : w'.spot = w.done.spot
  rawS : ∀ r, w'.rawS r = w.sAfter ss r
  rawV : ∀ n l, l < 96 → w'.rawV n l = w.vAfter vs n l

theorem Wave.wrote_writes {w : Wave} (hw : w.wins = []) (ss : List (Nat × W32)) {vs : List (Nat × Nat × W32)} (hv : ∀ x ∈ vs, x.2.1 < 128) :
    w.Wrote ((w.writeVs vs).writeSs ss).done ss vs := by
  obtain ⟨w', he, -, hspot, hs, hV⟩ := Wave.wrote_done State.reset 0 0 w ss vs hw hv
  have hw' := congrArg (fun t : State => t.wave? 0 0) he
  rw [State.wave?_setWave_self, State.wave?_setWave_self] at hw'
  obtain rfl := Option.some.inj hw'
  exact ⟨hspot, hs, hV⟩
theorem Wave.wrote_writeS {w : Wave} (hw : w.wins = []) (r : Nat) (x : W32) : w.Wrote (w.writeS r x).done [(r, x)] [] :=
  Wave.wrote_writes hw [(r, x)] (List.forall_mem_nil _)
theorem Wave.wrote_nothing {w : Wave} (hw : w.wins = []) : w.Wrote w.done [] [] := Wave.wrote_writes hw [] (List.forall_mem_nil _)
/-- The writes of one value in each active lane. -/
theorem Wave.wrote_each {w : Wave} (hw : w.wins = []) (d : Nat) (g : Nat → W32) : w.Wrote (w.writeVs (w.each d g)).done [] (w.each d g) := by
  refine Wave.wrote_writes hw [] fun x hx => ?_
  obtain ⟨l, hl, rfl⟩ := List.mem_map.1 hx
  exact lt_trans (Wave.lanes_lt hl) (by decide)
/-- What the writes of one value in each active lane leave in an active lane. -/
theorem Wave.vAfter_each (w : Wave) {d l : Nat} (g : Nat → W32) (hl : l ∈ w.lanes) : w.vAfter (w.each d g) d l = g l := by
  unfold Wave.vAfter Wave.each
  cases hf : ((w.lanes.map (fun l => (d, l, g l))).reverse.find? (fun x => x.1 == d && x.2.1 == l)) with
  | none =>
    have := List.find?_eq_none.1 hf (d, l, g l) (List.mem_reverse.2 (List.mem_map_of_mem hl))
    simp at this
  | some y =>
    obtain ⟨l', -, rfl⟩ := List.mem_map.1 (List.mem_reverse.1 (List.mem_of_find?_eq_some hf))
    have := List.find?_some hf
    simp only [beq_self_eq_true, Bool.true_and, beq_iff_eq] at this
    rw [this]

section
variable {i : Instr} {s t : State} {c k : Nat} {w w' : Wave} {ss : List (Nat × W32)} {vs : List (Nat × Nat × W32)}

theorem goesOn_of_wrote {P : State → Wave → Prop} (hwrote : w.Wrote w' ss vs) (he : exec i s = .next t) (ht : t.wave? c k = some w') (hP : P t w') :
    GoesOn i s c k w ss vs P := ⟨t, w', he, ht, hwrote.spot, hwrote.rawS, hwrote.rawV, hP⟩

/-! ### A word that waits -/

theorem Wave.blockAt_waits (w : Wave) (now stage wake : Nat) : (w.blockAt now stage wake).block ≠ .none := by
  unfold Wave.blockAt
  dsimp only; split <;> exact Block.noConfusion
theorem waits_of_blockAt {P : State → Prop} (hw : w.wins = []) {now stage wake : Nat} (he : exec i s = .next t)
    (ht : t.wave? c k = some (w.blockAt now stage wake)) (hP : P t) : Waits i s c k w P := by
  obtain ⟨p, b, hblock⟩ := Wave.blockAt_pipe_block hw now stage wake
  exact ⟨t, _, he, ht, by rw [hblock]; rfl, w.blockAt_waits now stage wake, by rw [hblock], by rw [hblock], hP⟩
end

/-! ### Agents in line (R360, R374) -/

theorem notMem_leaveQ (q : List Agent) (a : Agent) : a ∉ leaveQ q a := by simp [leaveQ]
theorem firstOf_of_head? {q : List Agent} {a : Agent} (h : q.head? = some a) : firstOf q a = true := by
  cases q with
  | nil => exact absurd h nofun
  | cons b q => exact decide_eq_true (Option.some.inj h)

end Sys2Proof.Machine
end

section
/-! SUPPORT. The stream queue words (R373, R374), and the proof of O38. -/

namespace Sys2Proof.Machine

/-! ### The data of an entry (R374) -/

/-- A table filled with the values of some keys. -/
theorem Tbl.getD_fill {α : Type} [DecidableEq α] (d : α) (g : Nat → α) (l : List Nat) (t : Tbl α) (j : Nat) :
    Tbl.getD (l.foldl (fun t a => Tbl.put t a d (g a)) t) j d = if j ∈ l then g j else Tbl.getD t j d := by
  induction l generalizing t with
  | nil => rfl
  | cons a l ih =>
    rw [List.foldl_cons, ih, Tbl.getD_put]
    by_cases hl : j ∈ l
    · rw [if_pos hl, if_pos (List.mem_cons_of_mem a hl)]
    · rw [if_neg hl]
      by_cases ha : j = a
      · rw [if_pos ha, if_pos (ha ▸ List.mem_cons_self), ha]
      · rw [if_neg ha, if_neg fun h => (List.mem_cons.1 h).elim ha hl]

/-- What an SQPUSH appends: the values of its register in the active lanes. -/
def Wave.queueEntry (w : Wave) (n : Nat) : SQEntry := ⟨true, w.lanes.foldl (fun d l => Tbl.put d l 0 (w.readV n l)) []⟩
theorem Wave.getD_queueEntry (w : Wave) (n l : Nat) : Tbl.getD (w.queueEntry n).data l 0 = if l ∈ w.lanes then w.readV n l else 0 :=
  Tbl.getD_fill 0 (fun l => w.readV n l) w.lanes [] l

@[simp] theorem SQueue.waitPush_entries (q : SQueue) (a : Agent) : (q.waitPush a).entries = q.entries := by
  unfold SQueue.waitPush; split <;> rfl
theorem SQueue.mem_waitPush (q : SQueue) (a : Agent) : a ∈ (q.waitPush a).pushWait := by
  unfold SQueue.waitPush
  split
  · assumption
  · exact List.mem_append_right _ (List.mem_singleton_self a)

/-! ### What the steps of SQPUSH and SQPOP do -/

section
variable {s : State} {c k : Nat} {w : Wave} {f : FmtQ} {x : Team}

theorem State.sqpushStep_range (hx : s.team? w.team = some x) (h : w.regRange [f.qd.toNat] = true) :
    s.sqpushStep f c k w = s.trapAt c k w w.regRangeTrap := by
  unfold State.sqpushStep; rw [hx]; exact if_pos h
theorem State.sqpopStep_range (hx : s.team? w.team = some x) (h : w.regRange [f.qd.toNat] = true) :
    s.sqpopStep f c k w = s.trapAt c k w w.regRangeTrap := by
  unfold State.sqpopStep; rw [hx]; exact if_pos h
theorem State.sqpushStep_takes (hx : s.team? w.team = some x) (h : w.regRange [f.qd.toNat] = false)
    (hq : (x.queue f.id.toNat).mayPush (.wave c k) = true) : s.sqpushStep f c k w = (s.setTeam w.team
      (x.setQueue f.id.toNat ((x.queue f.id.toNat).take (.wave c k) (w.queueEntry f.qd.toNat)))).setWave c k w.done := by
  unfold State.sqpushStep; rw [hx]; dsimp only; rw [h, hq]; rfl
theorem State.sqpushStep_waits (hx : s.team? w.team = some x) (h : w.regRange [f.qd.toNat] = false)
    (hq : ¬(x.queue f.id.toNat).mayPush (.wave c k) = true) : s.sqpushStep f c k w = (s.setTeam w.team
      (x.setQueue f.id.toNat ((x.queue f.id.toNat).waitPush (.wave c k)))).setWave c k (w.blockAt s.time 1 0) := by
  unfold State.sqpushStep; rw [hx]; dsimp only; rw [h, if_neg hq]; rfl
theorem State.sqpopStep_takes (hx : s.team? w.team = some x) (h : w.regRange [f.qd.toNat] = false) {e : SQEntry} {rest : List SQEntry}
    (he : (x.queue f.id.toNat).entries = e :: rest) (hready : e.ready = true) (hfirst : firstOf (x.queue f.id.toNat).popWait (.wave c k) = true) :
    s.sqpopStep f c k w = (s.setTeam w.team (x.setQueue f.id.toNat { x.queue f.id.toNat with
        head := (x.queue f.id.toNat).head + 1, entries := rest, popWait := leaveQ (x.queue f.id.toNat).popWait (.wave c k) })).setWave c k
      (w.writeVs (w.each f.qd.toNat (fun l => Tbl.getD e.data l 0))).done := by
  unfold State.sqpopStep; rw [hx]; dsimp only; rw [h, he]; dsimp only; rw [hready, hfirst]; rfl
theorem State.sqpopStep_waits (hx : s.team? w.team = some x) (h : w.regRange [f.qd.toNat] = false)
    (he : (x.queue f.id.toNat).entries = [] ∨ ∃ e, (x.queue f.id.toNat).entries.head? = some e ∧ e.ready = false) :
    s.sqpopStep f c k w = (s.setTeam w.team (x.setQueue f.id.toNat { x.queue f.id.toNat with
        popWait := joinQ (x.queue f.id.toNat).popWait (.wave c k) })).setWave c k (w.blockAt s.time 1 0) := by
  unfold State.sqpopStep; rw [hx]; dsimp only; rw [h]
  cases hq : (x.queue f.id.toNat).entries with
  | nil => rfl
  | cons e rest =>
    rw [hq] at he
    obtain he | ⟨e', he, hready⟩ := he
    · exact absurd he nofun
    · obtain rfl := Option.some.inj he
      dsimp only; rw [hready]; rfl
end

/-- Settles O38: each word by what its step does. -/
theorem streamQueueWords : Obligations.StreamQueueWords := by
  unfold Obligations.StreamQueueWords
  intro s c k w f x hr hw hx q
  have hpush (hi : (Instr.sqpush f).wf) : exec (.sqpush f) s = .next (s.sqpushStep f c k w) := (exec_sqpush s f).trans (sysWord_eq hr hi _)
  have hpop (hi : (Instr.sqpop f).wf) : exec (.sqpop f) s = .next (s.sqpopStep f c k w) := (exec_sqpop s f).trans (sysWord_eq hr hi _)
  refine ⟨fun i hmem hi h => ?range, fun hi h => ?push, fun e rest hi h he hready hfirst => ?pop, fun hi h he => ?popWaits⟩
  case range =>
    obtain rfl | rfl : i = .sqpush f ∨ i = .sqpop f := by simpa using hmem
    · rw [hpush hi, State.sqpushStep_range hx h]
    · rw [hpop hi, State.sqpopStep_range hx h]
  case push =>
    split
    next hq =>
      exact goesOn_of_wrote (Wave.wrote_nothing hw) ((hpush hi).trans (congrArg _ (State.sqpushStep_takes hx h hq))) (State.wave?_setWave_self ..)
        ⟨rfl, _, w.queueEntry f.qd.toNat, State.team?_setTeam_self .., rfl, by rw [Team.queue_setQueue_self]; rfl, w.getD_queueEntry _⟩
    next hq =>
      exact waits_of_blockAt hw ((hpush hi).trans (congrArg _ (State.sqpushStep_waits hx h hq))) (State.wave?_setWave_self ..)
        ⟨_, State.team?_setTeam_self .., by rw [Team.queue_setQueue_self, SQueue.waitPush_entries],
          by rw [Team.queue_setQueue_self]; exact SQueue.mem_waitPush ..⟩
  case pop =>
    refine goesOn_of_wrote (Wave.wrote_each hw _ _) ((hpop hi).trans (congrArg _ (State.sqpopStep_takes hx h he hready ?_)))
      (State.wave?_setWave_self ..) ⟨rfl, _, State.team?_setTeam_self .., ?_, ?_⟩
    · rw [hfirst]; rfl
    · rw [Team.queue_setQueue_self]
    · rw [Team.queue_setQueue_self]
  case popWaits =>
    exact waits_of_blockAt hw ((hpop hi).trans (congrArg _ (State.sqpopStep_waits hx h he))) (State.wave?_setWave_self ..)
      ⟨_, State.team?_setTeam_self .., by rw [Team.queue_setQueue_self]⟩

end Sys2Proof.Machine
end

section
/-! SUPPORT. The channel words that may wait (R360), and the proof of O37. -/

namespace Sys2Proof.Machine

section
variable {s : State} {c k : Nat} {w : Wave} {f : FmtE} {x : Team}

theorem State.chan_of_team {team : Nat} (hx : s.team? team = some x) (n : Nat) : s.chan team n = x.chan n := by
  unfold State.chan; rw [hx]
theorem State.chan_updChan_self {team : Nat} (hx : s.team? team = some x) (n : Nat) (g : Chan → Chan) :
    (s.updChan team n g).chan team n = g (x.chan n) := by
  rw [State.chan_updChan hx, if_pos rfl, State.chan_of_team hx]

/-! ### What the steps of CHRES and CHACQ do -/

theorem State.chresStep_traps (hx : s.team? w.team = some x) {e : Trap} (h : chanCheck w (x.chan f.ch.toNat) (w.eCountOf f) true = some e) :
    s.chresStep f c k w = (s.updChan w.team f.ch.toNat (fun y => { y with resWait := leaveQ y.resWait (.wave c k) })).trapAt c k w e := by
  unfold State.chresStep; dsimp only; rw [State.chan_of_team hx, h]
theorem State.chacqStep_traps (hx : s.team? w.team = some x) {e : Trap} (h : chanCheck w (x.chan f.ch.toNat) (w.eCountOf f) true = some e) :
    s.chacqStep f c k w = (s.updChan w.team f.ch.toNat (fun y => { y with acqWait := leaveQ y.acqWait (.wave c k) })).trapAt c k w e := by
  unfold State.chacqStep; dsimp only; rw [State.chan_of_team hx, h]

theorem State.chresStep_goes (hx : s.team? w.team = some x) (h : chanCheck w (x.chan f.ch.toNat) (w.eCountOf f) true = none)
    (hn : w.eCountOf f = 0 ∨ firstOf (x.chan f.ch.toNat).resWait (.wave c k) = true ∧ w.eCountOf f ≤ (x.chan f.ch.toNat).room) :
    s.chresStep f c k w = (s.updChan w.team f.ch.toNat (fun y => { y.reserve (w.eCountOf f) with resWait := leaveQ y.resWait (.wave c k) })).setWave
      c k (w.writeS f.desc.toNat (x.chan f.ch.toNat).res).done := by
  unfold State.chresStep; dsimp only; rw [State.chan_of_team hx, h]; exact if_pos hn
theorem State.chresStep_waits (hx : s.team? w.team = some x) (h : chanCheck w (x.chan f.ch.toNat) (w.eCountOf f) true = none)
    (hn : ¬(w.eCountOf f = 0 ∨ firstOf (x.chan f.ch.toNat).resWait (.wave c k) = true ∧ w.eCountOf f ≤ (x.chan f.ch.toNat).room)) :
    s.chresStep f c k w = (s.updChan w.team f.ch.toNat (fun y => { y with resWait := joinQ y.resWait (.wave c k) })).setWave
      c k (w.blockAt s.time 1 0) := by
  unfold State.chresStep; dsimp only; rw [State.chan_of_team hx, h]; exact if_neg hn
theorem State.chacqStep_goes (hx : s.team? w.team = some x) (h : chanCheck w (x.chan f.ch.toNat) (w.eCountOf f) true = none)
    (hn : w.eCountOf f = 0 ∨ firstOf (x.chan f.ch.toNat).acqWait (.wave c k) = true ∧ w.eCountOf f ≤ (x.chan f.ch.toNat).avail) :
    s.chacqStep f c k w = ((s.updChan w.team f.ch.toNat (fun y => { y with
      acq := y.acq + BitVec.ofNat 32 (w.eCountOf f), acqWait := leaveQ y.acqWait (.wave c k) })).setWave
      c k (w.writeS f.desc.toNat (x.chan f.ch.toNat).acq).done).columnAcquire (s.paired w.team) 1 c := by
  unfold State.chacqStep; dsimp only; rw [State.chan_of_team hx, h]; exact if_pos hn
theorem State.chacqStep_waits (hx : s.team? w.team = some x) (h : chanCheck w (x.chan f.ch.toNat) (w.eCountOf f) true = none)
    (hn : ¬(w.eCountOf f = 0 ∨ firstOf (x.chan f.ch.toNat).acqWait (.wave c k) = true ∧ w.eCountOf f ≤ (x.chan f.ch.toNat).avail)) :
    s.chacqStep f c k w = (s.updChan w.team f.ch.toNat (fun y => { y with acqWait := joinQ y.acqWait (.wave c k) })).setWave
      c k (w.blockAt s.time 1 0) := by
  unfold State.chacqStep; dsimp only; rw [State.chan_of_team hx, h]; exact if_neg hn

/-- A channel read behind a word that changes it and, in the end, its wave. -/
theorem State.chan_setWave (c k team n : Nat) (w' : Wave) : (s.setWave c k w').chan team n = s.chan team n := rfl
theorem State.chan_columnAcquire (paired : Bool) (scope core team n : Nat) : (s.columnAcquire paired scope core).chan team n = s.chan team n := by
  unfold State.chan; rw [State.team?_of_teams (State.columnAcquire_teams ..)]
theorem State.wave?_columnAcquire (paired : Bool) (scope core : Nat) : (s.columnAcquire paired scope core).wave? c k = s.wave? c k :=
  State.wave?_of_waves (State.columnAcquire_waves ..) c k
/-- CHACQ is an acquire at its end: its wave and the channel stand as before it. -/
theorem State.wave?_acquired (w' : Wave) (paired : Bool) (scope core : Nat) :
    ((s.setWave c k w').columnAcquire paired scope core).wave? c k = some w' :=
  (State.wave?_columnAcquire ..).trans (State.wave?_setWave_self ..)
theorem State.chan_acquired (w' : Wave) (paired : Bool) (scope core team n : Nat) :
    ((s.setWave c k w').columnAcquire paired scope core).chan team n = s.chan team n := State.chan_columnAcquire ..

/-! ### A blocked word that is served -/

theorem execChannelWaitServed_chres (hs : s.wave? c k = some w) (hm : w.mayServe = true) (hd : decodeWord w.curWord = .ok (.chres f)) :
    exec (.channelWaitServed (.wave c k)) s = .next (s.chresStep f c k w) := by
  rw [exec_channelWaitServed]; unfold execChannelWaitServed; dsimp only; rw [hs]; dsimp only; rw [hm, hd]; rfl
theorem execChannelWaitServed_chacq (hs : s.wave? c k = some w) (hm : w.mayServe = true) (hd : decodeWord w.curWord = .ok (.chacq f)) :
    exec (.channelWaitServed (.wave c k)) s = .next (s.chacqStep f c k w) := by
  rw [exec_channelWaitServed]; unfold execChannelWaitServed; dsimp only; rw [hs]; dsimp only; rw [hm, hd]; rfl
theorem execStreamQueueWaitServed_sqpush {f : FmtQ} (hs : s.wave? c k = some w) (hm : w.mayServe = true)
    (hd : decodeWord w.curWord = .ok (.sqpush f)) : exec (.streamQueueWaitServed (.wave c k)) s = .next (s.sqpushStep f c k w) := by
  rw [exec_streamQueueWaitServed]; unfold execStreamQueueWaitServed; dsimp only; rw [hs]; dsimp only; rw [hm, hd]; rfl
theorem execStreamQueueWaitServed_sqpop {f : FmtQ} (hs : s.wave? c k = some w) (hm : w.mayServe = true)
    (hd : decodeWord w.curWord = .ok (.sqpop f)) : exec (.streamQueueWaitServed (.wave c k)) s = .next (s.sqpopStep f c k w) := by
  rw [exec_streamQueueWaitServed]; unfold execStreamQueueWaitServed; dsimp only; rw [hs]; dsimp only; rw [hm, hd]; rfl
end

/-- Settles O37: a blocked word that is served does the step of its word. -/
theorem waitingWordsServed : Obligations.WaitingWordsServed := by
  unfold Obligations.WaitingWordsServed
  intro s c k w x hs hx hm hw serves
  refine ⟨fun f hd hc hfirst hn => ?chres, fun f hd hc hfirst hn => ?chacq, fun f hd h hq => ?sqpush, fun f e rest hd h he hready hfirst => ?sqpop⟩
  case chres =>
    have hstep := State.chresStep_goes hx hc (.inr ⟨firstOf_of_head? hfirst, hn⟩)
    have hwrote := Wave.wrote_writeS hw f.desc.toNat (x.chan f.ch.toNat).res
    refine ⟨_, _, (execChannelWaitServed_chres hs hm hd).trans (congrArg _ hstep), State.wave?_setWave_self .., hwrote.spot, hwrote.rawS, ?_, ?_⟩
    · rw [State.chan_setWave, State.chan_updChan_self hx]; rfl
    · rw [State.chan_setWave, State.chan_updChan_self hx]; exact notMem_leaveQ _ _
  case chacq =>
    have hstep := State.chacqStep_goes hx hc (.inr ⟨firstOf_of_head? hfirst, hn⟩)
    have hwrote := Wave.wrote_writeS hw f.desc.toNat (x.chan f.ch.toNat).acq
    refine ⟨_, _, (execChannelWaitServed_chacq hs hm hd).trans (congrArg _ hstep), State.wave?_acquired .., hwrote.spot, hwrote.rawS, ?_, ?_⟩
    · rw [State.chan_acquired, State.chan_updChan_self hx]
    · rw [State.chan_acquired, State.chan_updChan_self hx]; exact notMem_leaveQ _ _
  case sqpush =>
    have hstep := State.sqpushStep_takes hx h hq
    exact ⟨_, _, (execStreamQueueWaitServed_sqpush hs hm hd).trans (congrArg _ hstep), State.wave?_setWave_self .., rfl, w.done_s hw, w.done_v hw,
      _, w.queueEntry f.qd.toNat, State.team?_setTeam_self .., by rw [Team.queue_setQueue_self]; rfl, rfl⟩
  case sqpop =>
    have hstep := State.sqpopStep_takes hx h he hready (firstOf_of_head? hfirst)
    have hwrote := Wave.wrote_each hw f.qd.toNat (fun l => Tbl.getD e.data l 0)
    exact ⟨_, _, (execStreamQueueWaitServed_sqpop hs hm hd).trans (congrArg _ hstep), State.wave?_setWave_self .., hwrote.spot,
      fun l hl => (hwrote.rawV _ _ (Wave.lanes_lt hl)).trans (w.vAfter_each _ hl), _, State.team?_setTeam_self .., by rw [Team.queue_setQueue_self]⟩

end Sys2Proof.Machine
end

section
/-! SUPPORT. CHDEF, CHCOM, CHREL and CHQRY (R355–R361), and the proof of O36. -/

namespace Sys2Proof.Machine

section
variable {s : State} {c k : Nat} {w : Wave} {f : FmtE} {x : Team}

/-- A word that ends in place leaves a wave that has done it. -/
theorem State.wave?_doneWave (hs : s.wave? c k = some w) : (s.doneWave c k).wave? c k = some w.done := by
  rw [State.doneWave_eq hs, State.wave?_setWave_self]
theorem State.chan_doneWave (team n : Nat) : (s.doneWave c k).chan team n = s.chan team n := rfl

/-! ### CHDEF (R356) -/

/-- The channel a CHDEF defines: the words that wait on it keep their places. -/
def Chan.waitingAs (y old : Chan) (row0 : Nat) : Chan := { y with row0 := row0, acqWait := old.acqWait, resWait := old.resWait }

/-- Column rows taken for a channel write their lines back and become zero: neither the waves, the teams nor a scratchpad change. -/
def State.takeRows (s : State) (core a n : Nat) : State := (s.evictForRows core).storeClear .rows a n
theorem State.takeRows_teams (core a n : Nat) : (s.takeRows core a n).teams = s.teams := by simp [State.takeRows]
theorem State.storeClear_rows_scratch (a n : Nat) : (s.storeClear .rows a n).mem.scratch = s.mem.scratch := by
  unfold State.storeClear State.freshCode
  dsimp only; split <;> rfl
theorem State.takeRows_scratch (core a n : Nat) : (s.takeRows core a n).mem.scratch = s.mem.scratch :=
  (State.storeClear_rows_scratch ..).trans (Aside.scratch (State.evictForRows_aside s core))

/-- CHDEF of a valid descriptor on a channel that is not in use, where its rows fit. -/
theorem exec_chdef_of_ok (hr : s.runs c k w) (hi : (Instr.chdef f).wf) (hx : s.team? w.team = some x) (hacq : w.acquiring = false)
    {b : List Byte} {y : Chan} (hb : s.descriptor w (w.readS64 f.desc.toNat) 32 32 = .ok b) (hy : x.chanFrom b = some y)
    (hbusy : s.chanBusy w.team f.ch.toNat (x.chan f.ch.toNat) = false)
    (hfit : 0 < y.back → y.cap * rowsOf y.esize + rowTotal ((s.setTeam w.team (x.setChan f.ch.toNat Chan.undef)).rowsHeld (x.backCore y)) ≤ 1536
      ∧ s.slotLine (x.backCore y) (y.cap * rowsOf y.esize
        + rowTotal ((s.setTeam w.team (x.setChan f.ch.toNat Chan.undef)).rowsHeld (x.backCore y))) ≤ 32) :
    ∃ r0, ∃ u : State, exec (.chdef f) s = .next (u.setWave c k w.done) ∧ u.mem.scratch = s.mem.scratch
      ∧ u.team? w.team = some (x.setChan f.ch.toNat (y.waitingAs (x.chan f.ch.toNat) r0)) := by
  have he := (exec_chdef s f).trans (sysWord_eq hr hi _)
  dsimp only at he
  rw [hx] at he
  dsimp only at he
  rw [hacq, hb] at he
  dsimp only at he
  rw [hy] at he
  dsimp only at he
  by_cases hback : y.back = 0
  · have hcol : decide (0 < y.back) = false := decide_eq_false (Nat.not_lt.2 hback.le)
    simp only [hcol, hbusy, Bool.false_and, Bool.false_eq_true, if_false] at he
    rw [if_pos hback] at he
    exact ⟨y.row0, _, he, rfl, State.team?_setTeam_self ..⟩
  · obtain ⟨hrows, hslots⟩ := hfit (Nat.pos_of_ne_zero hback)
    simp only [Nat.not_lt.2 hrows, Nat.not_lt.2 hslots, hbusy, hback, decide_false, Bool.and_false, Bool.false_eq_true, if_false] at he
    exact ⟨_, _, he, State.takeRows_scratch .., (State.team?_of_teams (State.takeRows_teams ..) _).trans (State.team?_setTeam_self ..)⟩

/-! ### CHRES and CHACQ with no word in line (R360) -/

theorem Chan.with_leaveQ_resWait {ch : Chan} (h : ch.resWait = []) (n : Nat) (a : Agent) :
    { ch.reserve n with resWait := leaveQ ch.resWait a } = { ch with res := ch.res + BitVec.ofNat 32 n } := by
  cases ch; cases h; rfl
theorem Chan.with_leaveQ_acqWait {ch : Chan} (h : ch.acqWait = []) (n : Nat) (a : Agent) :
    { ch with acq := ch.acq + BitVec.ofNat 32 n, acqWait := leaveQ ch.acqWait a } = { ch with acq := ch.acq + BitVec.ofNat 32 n } := by
  cases ch; cases h; rfl

/-! ### CHCOM and CHREL (R360, R361) -/

theorem anyMarked_iff (is marked : List Nat) : is.any (fun i => decide (i ∈ marked)) = true ↔ ∃ j ∈ is, j ∈ marked := by
  simp [List.any_eq_true]

section
variable {ch : Chan}

theorem exec_chcom_traps (hr : s.runs c k w) (hi : (Instr.chcom f).wf) (hx : s.team? w.team = some x) {e : Trap}
    (hc : chanCheck w (x.chan f.ch.toNat) (w.eCountOf f) false = some e) : exec (.chcom f) s = .next (s.trapAt c k w e) := by
  have he := (exec_chcom s f).trans (sysWord_eq hr hi _)
  dsimp only at he
  rwa [State.chan_of_team hx, hc] at he
theorem exec_chrel_traps (hr : s.runs c k w) (hi : (Instr.chrel f).wf) (hx : s.team? w.team = some x) {e : Trap}
    (hc : chanCheck w (x.chan f.ch.toNat) (w.eCountOf f) false = some e) : exec (.chrel f) s = .next (s.trapAt c k w e) := by
  have he := (exec_chrel s f).trans (sysWord_eq hr hi _)
  dsimp only at he
  rwa [State.chan_of_team hx, hc] at he

/-- CHCOM past its check: out of order it traps, and it waits for the wave's accesses. -/
theorem exec_chcom_checked (hr : s.runs c k w) (hi : (Instr.chcom f).wf) (hch : s.chan w.team f.ch.toNat = ch)
    (hc : chanCheck w ch (w.eCountOf f) false = none) :
    exec (.chcom f) s = .next (if w.eCountOf f ≠ 0 ∧ (span ch.res ch.com < span (w.readS f.desc.toNat) ch.com + w.eCountOf f
        ∨ ∃ j ∈ indices (w.readS f.desc.toNat) (w.eCountOf f), j ∈ ch.committed) then s.trapAt c k w (w.boundsTrap 0x26)
      else if !w.memQuiet then s.setWave c k (w.blockAt s.time 0 0)
      else ((s.releaseFor c k (s.paired w.team) 1).updChan w.team f.ch.toNat (fun y => y.commit (w.readS f.desc.toNat) (w.eCountOf f))).doneWave
        c k) := by
  have he := (exec_chcom s f).trans (sysWord_eq hr hi _)
  dsimp only at he
  rw [hch, hc] at he
  simpa only [anyMarked_iff] using he
theorem exec_chrel_checked (hr : s.runs c k w) (hi : (Instr.chrel f).wf) (hch : s.chan w.team f.ch.toNat = ch)
    (hc : chanCheck w ch (w.eCountOf f) false = none) :
    exec (.chrel f) s = .next (if w.eCountOf f ≠ 0 ∧ (span ch.acq ch.rel < span (w.readS f.desc.toNat) ch.rel + w.eCountOf f
        ∨ ∃ j ∈ indices (w.readS f.desc.toNat) (w.eCountOf f), j ∈ ch.released) then s.trapAt c k w (w.boundsTrap 0x26)
      else (s.updChan w.team f.ch.toNat (fun y => y.release (w.readS f.desc.toNat) (w.eCountOf f))).doneWave c k) := by
  have he := (exec_chrel s f).trans (sysWord_eq hr hi _)
  dsimp only at he
  rw [hch, hc] at he
  simpa only [anyMarked_iff] using he

/-- The commit of a CHCOM, behind its release at team scope. -/
theorem goesOn_committed {i : Instr} (hs : s.wave? c k = some w) (hw : w.wins = []) (hx : s.team? w.team = some x) (paired : Bool) (n : Nat)
    (g : Chan → Chan) (he : exec i s = .next (((s.releaseFor c k paired 1).updChan w.team n g).doneWave c k)) :
    GoesOn i s c k w [] [] (fun t _ => t.chan w.team n = g (x.chan n)) := by
  have hrel := (State.Arrived.releaseFor s c k paired 1 : s.Arrived _ c k)
  obtain ⟨tag, l, hwave⟩ := hrel w hs
  have hx' : (s.releaseFor c k paired 1).team? w.team = some x := (State.team?_of_teams (State.releaseFor_teams ..) _).trans hx
  let v : Wave := { w with acktag := tag, arrivals := l }
  have hv : v.wins = [] := hw
  exact goesOn_of_wave he (State.wave?_doneWave hwave) (Wave.done_spot_congr w v hw hv rfl rfl rfl) (v.done_s hv) (v.done_v hv) (v.done_beats hv)
    ((State.chan_doneWave ..).trans (State.chan_updChan_self hx' _ _))

/-! ### CHQRY (R360) -/

theorem exec_chqry_of_runs (hr : s.runs c k w) (hi : (Instr.chqry f).wf) (hch : s.chan w.team f.ch.toNat = ch) :
    exec (.chqry f) s = .next (s.setWave c k (w.writeS f.desc.toNat (if ch.defd = false then 0 else if f.fn = 0 then BitVec.ofNat 32 ch.avail
      else if f.fn = 1 then BitVec.ofNat 32 ch.room else if f.fn = 2 then ch.com else ch.rel)).done) := by
  have he := (exec_chqry s f).trans (sysWord_eq hr hi _)
  dsimp only at he
  rw [hch] at he
  refine he.trans (congrArg (fun v => Host.Outcome.next (s.setWave c k (w.writeS f.desc.toNat v).done)) ?_)
  cases ch.defd
  · rfl
  · by_cases h0 : f.fn = 0
    · rw [h0]; rfl
    by_cases h1 : f.fn = 1
    · rw [h1]; rfl
    by_cases h2 : f.fn = 2
    · rw [h2]; rfl
    rw [if_neg h0, if_neg h1, if_neg h2]
    simp only [Bool.not_true, Bool.false_eq_true, Bool.true_eq_false, if_false]
    split
    next h => exact absurd (BitVec.eq_of_toNat_eq h) h0
    next h => exact absurd (BitVec.eq_of_toNat_eq h) h1
    next h => exact absurd (BitVec.eq_of_toNat_eq h) h2
    next => rfl
end
end

/-- Settles O36, a word at a time. -/
theorem channelWords : Obligations.ChannelWords := by
  unfold Obligations.ChannelWords
  intro s c k w f x hr hw hx n ch a chan
  have hs : s.wave? c k = some w := hr.2
  have hchan : s.chan w.team f.ch.toNat = ch := State.chan_of_team hx _
  have hres (hi : (Instr.chres f).wf) : exec (.chres f) s = .next (s.chresStep f c k w) := (exec_chres s f).trans (sysWord_eq hr hi _)
  have hacq (hi : (Instr.chacq f).wf) : exec (.chacq f) s = .next (s.chacqStep f c k w) := (exec_chacq s f).trans (sysWord_eq hr hi _)
  refine ⟨fun hi ha => ?chdefWaits, fun b y hi ha hb hy hbusy hfit => ?chdef, fun i waits e hmem hi hc hrw haw => ?traps, fun hi hc hfirst => ?chres,
    fun hi hc hfirst => ?chacq, fun hi hc => ?chcom, fun hi hc => ?chrel, fun hi => ?chqry⟩
  case chdefWaits =>
    have he := (exec_chdef s f).trans (sysWord_eq hr hi _)
    dsimp only at he
    rw [hx] at he
    dsimp only at he
    rwa [ha] at he
  case chdef =>
    obtain ⟨r0, u, he, hscratch, hu⟩ := exec_chdef_of_ok hr hi hx ha hb hy hbusy fun h => hfit.resolve_left h.ne'
    refine goesOn_of_wrote (Wave.wrote_nothing hw) he (State.wave?_setWave_self ..) ⟨r0, ?_, hscratch⟩
    exact (State.chan_of_team hu _).trans (Tbl.getD_put_self ..)
  case traps =>
    simp only [List.mem_cons, Prod.mk.injEq, List.not_mem_nil, or_false] at hmem
    obtain ⟨rfl, rfl⟩ | ⟨rfl, rfl⟩ | ⟨rfl, rfl⟩ | ⟨rfl, rfl⟩ := hmem
    · exact ⟨_, (hres hi).trans (congrArg _ (State.chresStep_traps hx hc)), rfl⟩
    · exact ⟨_, (hacq hi).trans (congrArg _ (State.chacqStep_traps hx hc)), rfl⟩
    · exact ⟨s, exec_chcom_traps hr hi hx hc, rfl⟩
    · exact ⟨s, exec_chrel_traps hr hi hx hc, rfl⟩
  case chres =>
    have hfirst' : firstOf ch.resWait (.wave c k) = true := by rw [hfirst]; rfl
    split
    next hn =>
      have hstep : s.chresStep f c k w = _ := State.chresStep_goes hx hc (hn.imp_right fun h => ⟨hfirst', h⟩)
      refine goesOn_of_wrote (Wave.wrote_writeS hw _ _) ((hres hi).trans (congrArg _ hstep)) (State.wave?_setWave_self ..) ⟨?_, rfl⟩
      refine (State.chan_setWave ..).trans ((State.chan_updChan_self hx _ _).trans ?_)
      exact Chan.with_leaveQ_resWait hfirst _ _
    next hn =>
      have hstep : s.chresStep f c k w = _ := State.chresStep_waits hx hc fun h => hn (h.imp_right And.right)
      refine waits_of_blockAt hw ((hres hi).trans (congrArg _ hstep)) (State.wave?_setWave_self ..) ?_
      refine (State.chan_setWave ..).trans ((State.chan_updChan_self hx _ _).trans ?_)
      rw [show (x.chan f.ch.toNat).resWait = [] from hfirst]; rfl
  case chacq =>
    have hfirst' : firstOf ch.acqWait (.wave c k) = true := by rw [hfirst]; rfl
    split
    next hn =>
      have hstep : s.chacqStep f c k w = _ := State.chacqStep_goes hx hc (hn.imp_right fun h => ⟨hfirst', h⟩)
      refine goesOn_of_wrote (Wave.wrote_writeS hw _ _) ((hacq hi).trans (congrArg _ hstep)) (State.wave?_acquired ..) ?_
      exact (State.chan_acquired ..).trans ((State.chan_updChan_self hx _ _).trans (Chan.with_leaveQ_acqWait hfirst _ _))
    next hn =>
      have hstep : s.chacqStep f c k w = _ := State.chacqStep_waits hx hc fun h => hn (h.imp_right And.right)
      refine waits_of_blockAt hw ((hacq hi).trans (congrArg _ hstep)) (State.wave?_setWave_self ..) ?_
      refine (State.chan_setWave ..).trans ((State.chan_updChan_self hx _ _).trans ?_)
      rw [show (x.chan f.ch.toNat).acqWait = [] from hfirst]; rfl
  case chcom =>
    have he := exec_chcom_checked hr hi hchan hc
    split
    next hbad => rwa [if_pos hbad] at he
    next hok =>
      rw [if_neg hok] at he
      split
      next hquiet =>
        rw [hquiet] at he
        exact goesOn_committed hs hw hx _ _ _ he
      next hbusy =>
        rw [Bool.eq_false_iff.2 hbusy] at he
        exact waits_of_blockAt hw he (State.wave?_setWave_self ..) hchan
  case chrel =>
    have he := exec_chrel_checked hr hi hchan hc
    split
    next hbad => rwa [if_pos hbad] at he
    next hok =>
      rw [if_neg hok] at he
      refine goesOn_of_wrote (Wave.wrote_nothing hw) he (State.wave?_doneWave hs) ⟨?_, State.doneWave_mem ..⟩
      exact (State.chan_doneWave ..).trans (State.chan_updChan_self hx _ _)
  case chqry =>
    exact goesOn_of_wrote (Wave.wrote_writeS hw _ _) (exec_chqry_of_runs hr hi hchan) (State.wave?_setWave_self ..) ⟨rfl, rfl⟩

end Sys2Proof.Machine
end

section
/-! SUPPORT. Barriers and the words BARR, BARW and BARRW (R465–R469), and the proof of O34. -/

namespace Sys2Proof.Machine

/-! ### An arrival (R467) -/

theorem Barrier.complete_of_awaiting (n : Nat) {b : Barrier} (h : ¬(0 < b.arrived ∧ b.members ≤ b.arrived)) : Barrier.complete n b = b := by
  cases n with
  | zero => rfl
  | succ n => exact if_neg h
theorem Tbl.get?_eq_of_set {α : Type} (t : Tbl α) (n : Nat) (x d : α) : Tbl.getD (Tbl.set t n x) n d = x := by
  unfold Tbl.getD; rw [Tbl.get?_set_self]; rfl

section
variable {b : Barrier} {m : Nat}

/-- An arrival that is not early counts, and completes the phase where it is the last. -/
theorem Barrier.arrive_counts (h : (b.member m).last ≠ b.gen ∨ (b.member m).ever = false) :
    b.arrive m = some (Barrier.complete 4 { b with arrived := b.arrived + 1, mem := Tbl.set b.mem m ⟨b.gen, (b.member m).early, true⟩ }) := by
  unfold Barrier.arrive
  exact if_pos (h.imp_right fun h => by rw [h]; rfl)
theorem Barrier.arrive_awaiting (h : (b.member m).last ≠ b.gen ∨ (b.member m).ever = false) (hn : b.arrived + 1 < b.members) :
    ∃ b', b.arrive m = some b' ∧ b'.gen = b.gen ∧ b'.arrived = b.arrived + 1 ∧ b'.members = b.members ∧ b'.waitOver m = false := by
  refine ⟨_, (Barrier.arrive_counts h).trans (congrArg some (Barrier.complete_of_awaiting 4 fun h => ?_)), rfl, rfl, rfl, ?_⟩
  · exact absurd h.2 (Nat.not_le.2 hn)
  · unfold Barrier.waitOver Barrier.member
    dsimp only
    rw [Tbl.get?_eq_of_set]
    simp

/-- A member that holds no early arrival has none by its row. -/
theorem Barrier.member_early (h : ∀ r ∈ b.mem, r.2.early = false) : (b.member m).early = false := by
  unfold Barrier.member Tbl.getD
  cases hr : Tbl.get? b.mem m with
  | none => rfl
  | some x => exact h _ (Tbl.mem_of_get? hr)
/-- A phase whose last arrival has come, with none held early, is complete: the next one is open, and no arrival of it has come. -/
theorem Barrier.complete_last (n : Nat) (hall : b.arrived = b.members) (hpos : 0 < b.arrived) (h : ∀ r ∈ b.mem, r.2.early = false) :
    Barrier.complete (n + 1) b = { b with gen := (b.gen + 1) % 2 ^ 16, arrived := 0 } := by
  have hheld : b.mem.filter (fun r => r.2.early) = [] := List.filter_eq_nil_iff.2 fun r hr => by rw [h r hr]; decide
  have hmem : List.map (fun r => (r.1, if r.2.early then { r.2 with early := false, last := (b.gen + 1) % 2 ^ 16 } else r.2)) b.mem = b.mem := by
    conv_rhs => rw [← List.map_id b.mem]
    exact List.map_congr_left fun r hr => by rw [h r hr]; rfl
  unfold Barrier.complete
  dsimp only
  rw [if_pos ⟨hpos, hall.ge⟩, hheld, hmem]
  exact Barrier.complete_of_awaiting n fun h => absurd h.1 (Nat.lt_irrefl 0)
theorem Barrier.arrive_last (h : (b.member m).last ≠ b.gen ∨ (b.member m).ever = false) (hn : b.arrived + 1 = b.members)
    (hearly : ∀ r ∈ b.mem, r.2.early = false) :
    ∃ b', b.arrive m = some b' ∧ b'.gen = (b.gen + 1) % 2 ^ 16 ∧ b'.arrived = 0 ∧ b'.waitOver m = true := by
  refine ⟨_, (Barrier.arrive_counts h).trans (congrArg some (Barrier.complete_last 3 hn (Nat.succ_pos _) fun r hr => ?_)), rfl, rfl, ?_⟩
  · obtain rfl | hr := Tbl.mem_set hr
    · exact Barrier.member_early hearly
    · exact hearly r hr
  · unfold Barrier.waitOver Barrier.member
    dsimp only
    rw [Tbl.get?_eq_of_set]
    have hgen : b.gen ≠ (b.gen + 1) % 65536 := by omega
    simp [hgen]
/-- A second arrival is held early, and a third must stall. -/
theorem Barrier.arrive_early (hl : (b.member m).last = b.gen) (he : (b.member m).ever = true) :
    if (b.member m).early then b.arrive m = none
    else ∃ b', b.arrive m = some b' ∧ (b'.member m).early = true ∧ b'.arrived = b.arrived ∧ b'.gen = b.gen := by
  unfold Barrier.arrive
  dsimp only
  have hcounted : ¬((b.member m).last ≠ b.gen ∨ (!(b.member m).ever) = true) := by rw [he]; exact fun h => h.elim (· hl) nofun
  rw [if_neg hcounted]
  cases hearly : (b.member m).early with
  | true => rfl
  | false =>
    refine ⟨_, rfl, ?_, rfl, rfl⟩
    unfold Barrier.member
    dsimp only
    rw [Tbl.get?_eq_of_set]
end

/-! ### The barrier a name reaches (R465) -/

section
variable {s t : State} {team lvl id : Nat} {b b' : Barrier}

theorem State.barrier?_one (s : State) (team id : Nat) :
    s.barrier? team 1 id = (s.team? team).bind (fun t => (Tbl.get? s.groups t.group).bind (fun g => Tbl.get? g.cb id)) := by
  unfold State.barrier?; cases s.team? team <;> rfl
theorem State.barrier?_two (s : State) (team n id : Nat) :
    s.barrier? team (n + 2) id = (s.team? team).bind (fun t => (s.launch? t.launch).bind (fun l => Tbl.get? l.gb id)) := by
  unfold State.barrier?; cases s.team? team <;> rfl
theorem State.barrier?_of_aside (h : t.aside = s.aside) (team lvl id : Nat) : t.barrier? team lvl id = s.barrier? team lvl id := by
  have hteam := State.team?_of_teams (Aside.teams h) team
  have hlaunch (n : Nat) : t.launch? n = s.launch? n := congrArg (Tbl.get? · n) (Aside.launches h)
  match lvl with
  | 0 => rw [State.barrier?_zero, State.barrier?_zero, hteam]
  | 1 => rw [State.barrier?_one, State.barrier?_one, hteam, Aside.groups h]
  | n + 2 => rw [State.barrier?_two, State.barrier?_two, hteam]; simp only [hlaunch]
theorem State.memberId_of_teams (h : t.teams = s.teams) (team lvl n : Nat) : t.memberId team lvl n = s.memberId team lvl n := by
  unfold State.memberId; rw [State.team?_of_teams h]
/-- A barrier, set, is what its name reaches. -/
theorem State.barrier?_setBarrier_of_some (h : s.barrier? team lvl id = some b) : (s.setBarrier team lvl id b').barrier? team lvl id = some b' := by
  match lvl with
  | 0 => exact State.barrier?_setBarrier h b'
  | 1 =>
    rw [State.barrier?_one] at h
    obtain ⟨x, hx, h⟩ := Option.bind_eq_some_iff.1 h
    obtain ⟨g, hg, -⟩ := Option.bind_eq_some_iff.1 h
    have e : s.setBarrier team 1 id b' = { s with groups := Tbl.upd s.groups x.group (fun g => { g with cb := Tbl.set g.cb id b' }) } := by
      unfold State.setBarrier; rw [hx]; rfl
    rw [e, State.barrier?_one]
    refine Option.bind_eq_some_iff.2 ⟨x, hx, Option.bind_eq_some_iff.2 ⟨{ g with cb := Tbl.set g.cb id b' }, ?_, Tbl.get?_set_self ..⟩⟩
    exact (Tbl.get?_upd ..).trans (by rw [if_pos rfl, hg]; rfl)
  | n + 2 =>
    rw [State.barrier?_two] at h
    obtain ⟨x, hx, h⟩ := Option.bind_eq_some_iff.1 h
    obtain ⟨l, hl, -⟩ := Option.bind_eq_some_iff.1 h
    have e : s.setBarrier team (n + 2) id b' = s.updLaunch x.launch (fun l => { l with gb := Tbl.set l.gb id b' }) := by
      unfold State.setBarrier; rw [hx]; rfl
    rw [e, State.barrier?_two]
    refine Option.bind_eq_some_iff.2 ⟨x, hx, Option.bind_eq_some_iff.2 ⟨{ l with gb := Tbl.set l.gb id b' }, ?_, Tbl.get?_set_self ..⟩⟩
    rw [State.launch?_updLaunch, if_pos rfl, hl]; rfl

/-- IDEM_LOST is no part of a team's place at a barrier. -/
theorem State.barrier?_idemLost (h : s.barrier? team lvl id = some b) : (s.idemLost team).barrier? team lvl id = some b := by
  match lvl with
  | 0 =>
    rw [State.barrier?_zero] at h ⊢
    obtain ⟨x, hx, h⟩ := Option.bind_eq_some_iff.1 h
    rw [State.team?_idemLost hx]; exact h
  | 1 =>
    rw [State.barrier?_one] at h ⊢
    obtain ⟨x, hx, h⟩ := Option.bind_eq_some_iff.1 h
    rw [State.team?_idemLost hx]; exact h
  | n + 2 =>
    rw [State.barrier?_two] at h ⊢
    obtain ⟨x, hx, h⟩ := Option.bind_eq_some_iff.1 h
    rw [State.team?_idemLost hx]; exact h
theorem State.memberId_idemLost {x : Team} (hx : s.team? team = some x) (k : Nat) : (s.idemLost team).memberId team lvl k = s.memberId team lvl k := by
  unfold State.memberId; rw [State.team?_idemLost hx, hx]
theorem State.team?_of_barrier? (h : s.barrier? team lvl id = some b) : ∃ x, s.team? team = some x := by
  unfold State.barrier? at h
  cases hx : s.team? team with
  | none => rw [hx] at h; exact absurd h nofun
  | some x => exact ⟨x, rfl⟩
end

/-! ### A queued arrival that counts (R467) -/

/-- The rows a table's filter keeps once a row it takes has been set among rows it drops. -/
theorem Tbl.filter_set_of_none {α : Type} {p : Nat × α → Bool} {t : Tbl α} {n : Nat} {x : α} (ht : ∀ r ∈ t, p r = false) (hp : p (n, x) = true) :
    (Tbl.set t n x).filter p = [(n, x)] := by
  induction t with
  | nil => simp [Tbl.set, hp]
  | cons a t ih =>
    obtain ⟨k, v⟩ := a
    have ha := ht _ List.mem_cons_self
    have ht' : ∀ r ∈ t, p r = false := fun r hr => ht r (List.mem_cons_of_mem _ hr)
    have hnil : t.filter p = [] := List.filter_eq_nil_iff.2 fun r hr => by rw [ht' r hr]; decide
    unfold Tbl.set
    split
    next e => subst e; rw [List.filter_cons_of_pos hp, hnil]
    next =>
      split
      · rw [List.filter_cons_of_pos hp, List.filter_cons_of_neg (by simpa using ha), hnil]
      · rw [List.filter_cons_of_neg (by simpa using ha), ih ht']

section
variable {s : State} {c k : Nat} {w : Wave} {a : Arrival} {b b' : Barrier}

/-- The one arrival a wave has queued counts at its barrier, once nothing the wave has accessed is still in flight. -/
theorem State.flushArrivals_one (hs : s.wave? c k = some w) (ha : w.arrivals = [a]) (hq : ∀ q ∈ w.reqs, pathMemory q.path = false)
    (hb : s.barrier? w.team a.lvl a.id = some b) (hb' : b.arrive (s.memberId w.team a.lvl w.idx) = some b') :
    (State.flushArrivals 1 s c k).barrier? w.team a.lvl a.id = some b' := by
  have hany : w.reqs.any (fun q => pathMemory q.path && decide (q.id < a.after)) = false :=
    List.any_eq_false.2 fun q h => by rw [hq q h]; exact Bool.false_ne_true
  have hrel : (s.releaseFor c k (s.paired w.team) (barrierScope a.lvl)).barrier? w.team a.lvl a.id = some b :=
    (State.barrier?_of_aside (State.releaseFor_aside ..) ..).trans hb
  unfold State.flushArrivals State.arriveNow
  rw [hs]
  dsimp only
  rw [ha]
  dsimp only
  rw [hany, hb]
  dsimp only
  rw [hb']
  exact (State.barrier?_of_aside ((State.updWave_aside ..).trans (State.pmcCount_aside ..)) ..).trans (State.barrier?_setBarrier_of_some hrel)
/-- The arrival of the one wave that has queued any. -/
theorem State.flushAll_one (hall : ∀ r ∈ s.waves, r.2.arrivals = []) {u : State} (hu : u.waves = s.waves) (ha : w.arrivals = [a])
    (hq : ∀ q ∈ w.reqs, pathMemory q.path = false) (hb : u.barrier? w.team a.lvl a.id = some b)
    (hb' : b.arrive (u.memberId w.team a.lvl w.idx) = some b') : (u.setWave c k w).flushAll.barrier? w.team a.lvl a.id = some b' := by
  have hone : (u.setWave c k w).waves.filter (fun r => !r.2.arrivals.isEmpty) = [(waveKey c k, w)] := by
    refine Tbl.filter_set_of_none (fun r hr => ?_) (by rw [ha]; rfl)
    rw [hall r (hu ▸ hr)]; rfl
  have hkey : (u.setWave c k w).wave? (waveKey c k / 32) (waveKey c k % 32) = some w := by
    unfold State.wave? waveKey
    rw [Nat.div_add_mod']
    exact State.wave?_setWave_self ..
  unfold State.flushAll
  rw [hone, List.foldl_cons, List.foldl_nil, ha]
  exact State.flushArrivals_one hkey ha hq ((State.barrier?_of_aside (State.setWave_aside ..) ..).trans hb)
    ((congrArg _ (State.memberId_of_teams rfl ..)).trans hb')
end

/-! ### The words (R467) -/

/-- `v` is `w` at the same word, with the same registers: what an arrival or the mark of one leaves. -/
structure Wave.SameWord (w v : Wave) : Prop where
  wins : v.wins = w.wins
  clause : v.clause = w.clause
  widx : v.widx = w.widx
  pc : v.pc = w.pc
  scalars : v.s = w.s
  vectors : v.v = w.v
  beats : v.beats = w.beats

theorem Wave.SameWord.trans {w v u : Wave} (h : w.SameWord v) (h' : v.SameWord u) : w.SameWord u :=
  ⟨h'.wins.trans h.wins, h'.clause.trans h.clause, h'.widx.trans h.widx, h'.pc.trans h.pc, h'.scalars.trans h.scalars, h'.vectors.trans h.vectors,
    h'.beats.trans h.beats⟩

section
variable {i : Instr} {s t u : State} {c k lvl id : Nat} {w v : Wave}

/-- A word whose wave has changed in no more than that goes on. -/
theorem goesOn_of_sameWord {P : State → Wave → Prop} (hw : w.wins = []) (hv : w.SameWord v) (he : exec i s = .next t) (ht : t.wave? c k = some v.done)
    (hP : P t v.done) : GoesOn i s c k w [] [] P := by
  have hvw : v.wins = [] := hv.wins.trans hw
  exact goesOn_of_wave he ht (Wave.done_spot_congr w v hw hvw hv.clause hv.widx hv.pc) ((v.done_s hvw).trans hv.scalars) ((v.done_v hvw).trans hv.vectors)
    ((v.done_beats hvw).trans hv.beats) hP
/-- A wait at a barrier: it ends with the wave's word, or blocks. -/
theorem State.barrierWait_eq (hv : u.flushAll.wave? c k = some v) : u.barrierWait c k lvl id = if u.flushAll.waitOver v lvl id
    then (u.flushAll.columnAcquire (u.flushAll.paired v.team) (barrierScope lvl) c).doneWave c k
    else u.flushAll.setWave c k (v.blockAt u.flushAll.time 1 0) := by
  unfold State.barrierWait; dsimp only; rw [hv]
theorem goesOn_or_blocks (hw : w.wins = []) (hsame : w.SameWord v) (hv : u.flushAll.wave? c k = some v)
    (he : exec i s = .next (u.barrierWait c k lvl id)) :
    if u.flushAll.waitOver v lvl id then GoesOn i s c k w [] [] (fun _ _ => True)
    else exec i s = .next (u.flushAll.setWave c k (v.blockAt u.flushAll.time 1 0)) := by
  rw [State.barrierWait_eq hv] at he
  split
  next h =>
    rw [if_pos h] at he
    exact goesOn_of_sameWord hw hsame he (State.wave?_doneWave ((State.wave?_columnAcquire ..).trans hv)) trivial
  next h => rwa [if_neg h] at he

/-- The wave behind an arrival: its queue and ACKTAG have changed at most. -/
theorem State.Arrived.sameWord (h : s.Arrived t c k) (hs : s.wave? c k = some w) (ht : t.wave? c k = some v) : w.SameWord v := by
  obtain ⟨x, l, hv⟩ := h w hs
  obtain rfl := Option.some.inj (ht.symm.trans hv)
  exact ⟨rfl, rfl, rfl, rfl, rfl, rfl, rfl⟩
theorem State.arriveWord_eq_none (s : State) (c k : Nat) (w : Wave) (lvl id : Nat) :
    s.arriveWord c k w lvl id = none ↔ 2 ≤ s.openArrivals w lvl id := by
  unfold State.arriveWord
  split
  next h => exact ⟨fun _ => h, fun _ => rfl⟩
  next h => exact ⟨nofun, fun h' => absurd h' h⟩
theorem State.arriveWord_arrived (hs : s.wave? c k = some w) (h : s.arriveWord c k w lvl id = some t) : s.Arrived t c k := by
  unfold State.arriveWord at h
  split at h
  · exact absurd h nofun
  · obtain rfl := Option.some.inj h
    refine State.Arrived.trans (fun w' hw' => ?_) (State.Arrived.flushAll _)
    obtain rfl := Option.some.inj (hs.symm.trans hw')
    exact ⟨w.acktag, _, State.wave?_setWave_self ..⟩
/-- The arrival of a word whose wave has nothing in flight, where no wave has an arrival queued, counts at once. -/
theorem State.arriveWord_counts (hs : s.wave? c k = some w) (hopen : s.openArrivals w lvl id < 2) (hall : ∀ r ∈ s.waves, r.2.arrivals = [])
    (hq : ∀ q ∈ w.reqs, pathMemory q.path = false) {b b' : Barrier} (hb : s.barrier? w.team lvl id = some b)
    (hb' : b.arrive (s.memberId w.team lvl w.idx) = some b') :
    ∃ u, s.arriveWord c k w lvl id = some u ∧ u.barrier? w.team lvl id = some b' := by
  have hnone : w.arrivals = [] := hall _ (Tbl.mem_of_get? hs)
  obtain ⟨x, hx⟩ := State.team?_of_barrier? hb
  unfold State.arriveWord
  rw [if_neg (Nat.not_le.2 hopen)]
  refine ⟨_, rfl, ?_⟩
  rw [hnone]
  split
  next => exact State.flushAll_one (w := { w with arrivals := [⟨lvl, id, _⟩] }) (a := ⟨lvl, id, _⟩) hall rfl rfl hq hb hb'
  next =>
    exact State.flushAll_one (w := { w with arrivals := [⟨lvl, id, _⟩] }) (a := ⟨lvl, id, _⟩) hall rfl rfl hq (State.barrier?_idemLost hb)
      ((congrArg _ (State.memberId_idemLost hx _)).trans hb')
end

/-- Settles O34: the arithmetic of an arrival, then each word by its arrival and its wait. -/
theorem barriers : Obligations.Barriers := by
  unfold Obligations.Barriers
  refine ⟨fun b m => ⟨fun h => ⟨Barrier.arrive_awaiting h, Barrier.arrive_last h⟩, Barrier.arrive_early⟩, ?_⟩
  intro s c k w f hr hw lvl id goesOn
  have hs : s.wave? c k = some w := hr.2
  have hbarr (hi : (Instr.barr f).wf) := (exec_barr s f).trans (sysWord_eq hr hi _)
  have hbarw (hi : (Instr.barw f).wf) := (exec_barw s f).trans (sysWord_eq hr hi _)
  have hbarrw (hi : (Instr.barrw f).wf) := (exec_barrw s f).trans (sysWord_eq hr hi _)
  refine ⟨fun i hmem hi hlevel => ?prot, fun hi hlevel => ?barr, fun b b' hi hlevel hopen hall hq hb hb' => ?counts, fun v hi hlevel hv => ?barw,
    fun u v hi hlevel hu hv => ?barrw⟩
  case prot =>
    simp only [List.mem_cons, List.not_mem_nil, or_false] at hmem
    obtain rfl | rfl | rfl := hmem
    · exact (hbarr hi).trans (congrArg _ (if_pos (by rw [hlevel]; rfl)))
    · exact (hbarw hi).trans (congrArg _ (if_pos (by rw [hlevel]; rfl)))
    · exact (hbarrw hi).trans (congrArg _ (if_pos (by rw [hlevel]; rfl)))
  case barr =>
    have he := (hbarr hi).trans (congrArg _ (if_neg (by rw [hlevel]; exact Bool.false_ne_true)))
    cases ha : s.arriveWord c k w lvl id with
    | none =>
      rw [ha] at he
      rw [if_pos ((State.arriveWord_eq_none ..).1 ha)]
      exact he
    | some u =>
      rw [ha] at he
      rw [if_neg fun h => by rw [(State.arriveWord_eq_none ..).2 h] at ha; exact absurd ha nofun]
      obtain ⟨x, l, hv⟩ := State.arriveWord_arrived hs ha w hs
      exact goesOn_of_sameWord hw (State.Arrived.sameWord (State.arriveWord_arrived hs ha) hs hv) he (State.wave?_doneWave hv) trivial
  case counts =>
    have he := (hbarr hi).trans (congrArg _ (if_neg (by rw [hlevel]; exact Bool.false_ne_true)))
    obtain ⟨u, hu, hbu⟩ := State.arriveWord_counts hs hopen hall (fun q h => by simpa using List.all_eq_true.1 hq q h) hb hb'
    rw [show s.arriveWord c k w f.lvl.toNat f.id.toNat = some u from hu] at he
    exact ⟨_, he, hbu⟩
  case barw =>
    have he := (hbarw hi).trans (congrArg _ (if_neg (by rw [hlevel]; exact Bool.false_ne_true)))
    exact goesOn_or_blocks hw (State.Arrived.sameWord (State.Arrived.flushAll s) hs hv) hv he
  case barrw =>
    have he := (hbarrw hi).trans (congrArg _ (if_neg (by rw [hlevel]; exact Bool.false_ne_true)))
    split at hu
    next hstands =>
      rw [if_pos hstands] at he
      subst hu
      have hmark : w.SameWord { w with stands := none } := ⟨rfl, rfl, rfl, rfl, rfl, rfl, rfl⟩
      exact goesOn_or_blocks hw (hmark.trans (State.Arrived.sameWord (State.Arrived.flushAll _) (State.wave?_setWave_self ..) hv)) hv he
    next hstands =>
      rw [if_neg hstands, show s.arriveWord c k w f.lvl.toNat f.id.toNat = some u from hu] at he
      exact goesOn_or_blocks hw (State.Arrived.sameWord ((State.arriveWord_arrived hs hu).trans (State.Arrived.flushAll u)) hs hv) hv he

end Sys2Proof.Machine
end

section
/-! SUPPORT. Phases (R471–R479): PHBEG, PHWAIT, the watch and the completion, and the proof of O35. -/

namespace Sys2Proof.Machine

/-! ### The fields of a header (R474) -/

theorem ofBytes_lt (bs : List Byte) : ofBytes bs < 256 ^ bs.length := by
  induction bs with
  | nil => exact Nat.one_pos
  | cons b bs ih =>
    have hb : b.toNat < 256 := b.isLt
    show b.toNat + 256 * ofBytes bs < 256 ^ (bs.length + 1)
    rw [Nat.pow_succ]
    omega
theorem fieldOf_lt (b : List Byte) (off n : Nat) : fieldOf b off n < 256 ^ n :=
  lt_of_lt_of_le (ofBytes_lt _) (Nat.pow_le_pow_right (by decide) (List.length_take_le ..))
/-- An eight-byte field is the word it makes. -/
theorem ofNat_fieldOf_eq_zero (b : List Byte) (off : Nat) : BitVec.ofNat 64 (fieldOf b off 8) = 0 ↔ fieldOf b off 8 = 0 := by
  have hlt : fieldOf b off 8 < 2 ^ 64 := fieldOf_lt b off 8
  rw [← BitVec.toNat_inj, BitVec.toNat_ofNat, Nat.mod_eq_of_lt hlt]
  rfl
theorem Wave.trapMask_of_none {w : Wave} (hw : w.wins = []) : w.trapMask = w.mask := by
  unfold Wave.trapMask; rw [Wave.closeWins_of_none hw]

/-! ### The watch of a team (R476) -/

/-- A slice without the watches of a team. -/
def Slice.unwatched (q : Slice) (team : Nat) : Slice := { q with watches := q.watches.filter (fun x => !decide (x.2.2 = team)) }
theorem State.slice_dropWatch (s : State) (team h : Nat) : (s.dropWatch team).slice h = (s.slice h).unwatched team := by
  refine (congrArg (Option.getD · Slice.empty) (Tbl.get?_map (fun q : Slice => q.unwatched team) s.slices h)).trans ?_
  unfold State.slice Tbl.getD
  cases Tbl.get? s.slices h <;> rfl
theorem Slice.unwatched_watches (q : Slice) (team : Nat) : ∀ y ∈ (q.unwatched team).watches, y.2.2 ≠ team := fun y hy => by
  simpa using (List.mem_filter.1 hy).2

/-! ### The words (R474, R476) -/

/-- The phase a header opens. -/
def Phase.opens (p : Phase) (lvl : Nat) (b : List Byte) (watch : Option (Nat × W64)) : Phase :=
  { phn := (p.phn + 1) % 2 ^ 16, opened := true, ever := true, lvl := lvl, broken := false,
    cgt := Tbl.put (Tbl.put [] 0 0 (fieldOf b 0 4)) 1 0 (fieldOf b 4 4), cen := Tbl.put (Tbl.put [] 0 0 (fieldOf b 8 2)) 1 0 (fieldOf b 10 2),
    cts := fieldOf b 12 2, watch := watch, watchSeen := false }
theorem Phase.opens_counts (p : Phase) (lvl : Nat) (b : List Byte) (watch : Option (Nat × W64)) :
    Tbl.getD (p.opens lvl b watch).cgt 0 0 = fieldOf b 0 4 ∧ Tbl.getD (p.opens lvl b watch).cgt 1 0 = fieldOf b 4 4
      ∧ Tbl.getD (p.opens lvl b watch).cen 0 0 = fieldOf b 8 2 ∧ Tbl.getD (p.opens lvl b watch).cen 1 0 = fieldOf b 10 2 := by
  simp [Phase.opens, Tbl.getD_put]

section
variable {s : State} {c k : Nat} {w : Wave} {f : FmtQ} {x : Team}

/-- What PHBEG does to the device before it opens the phase: the earlier watch goes, and a watched bag is walked to. -/
def State.phaseBegun (s : State) (c team ts : Nat) (bag : W64) : State :=
  if ts = 0 then s.dropWatch team else (s.dropWatch team).touchTlb (clusterOf c) bag
theorem State.phaseBegun_aside (c team ts : Nat) (bag : W64) : (s.phaseBegun c team ts bag).aside = (s.dropWatch team).aside := by
  unfold State.phaseBegun
  split
  · rfl
  · exact State.touchTlb_aside ..
theorem State.phaseBegun_team? (c team ts n : Nat) (bag : W64) : (s.phaseBegun c team ts bag).team? n = s.team? n :=
  State.team?_of_teams (Aside.teams (State.phaseBegun_aside ..)) n
theorem State.phaseBegun_watches (c team ts h : Nat) (bag : W64) : ∀ y ∈ ((s.phaseBegun c team ts bag).slice h).watches, y.2.2 ≠ team := by
  rw [Aside.watches (State.phaseBegun_aside ..), State.slice_dropWatch]
  exact Slice.unwatched_watches _ _
theorem State.phaseBegun_mem (c team ts : Nat) (bag : W64) :
    (s.phaseBegun c team ts bag).mem = (if ts = 0 then s else (s.dropWatch team).touchTlb (clusterOf c) bag).mem := by
  unfold State.phaseBegun
  split <;> rfl
/-- PHBEG of a header that passes its checks. -/
theorem exec_phbeg_of_ok (hr : s.runs c k w) (hi : (Instr.phbeg f).wf) (hx : s.team? w.team = some x) (hacq : w.acquiring = false)
    {b : List Byte} (hb : s.teamBytes w x (w.z f.sa) 32 = b) (hal : w.z f.sa % 32 = 0) (hfit : x.fits (w.z f.sa) 32 = true)
    (hlevel : s.levelOk w f.lvl.toNat = true) (hopen : x.phase.opened = true → x.phase.broken = true) (hzero : zeroField b 14 2 = true)
    (hpair : x.paired = true ∨ fieldOf b 4 4 = 0 ∧ fieldOf b 10 2 = 0)
    (hts : if fieldOf b 12 2 = 0 then fieldOf b 16 8 = 0 ∧ fieldOf b 24 8 = 0 else fieldOf b 16 8 ≠ 0 ∧
      ∃ y, s.translate (clusterOf c) (BitVec.ofNat 64 (fieldOf b 16 8)) .read = .ok y ∧ y.kind = .ts) :
    ∃ watch, exec (.phbeg f) s = .next (((if f.lvl.toNat = 0 then s.phaseBegun c w.team (fieldOf b 12 2) (BitVec.ofNat 64 (fieldOf b 16 8))
      else (s.phaseBegun c w.team (fieldOf b 12 2) (BitVec.ofNat 64 (fieldOf b 16 8))).idemLost w.team).updTeam w.team
        (fun t => { t with phase := t.phase.opens f.lvl.toNat b watch })).setWave c k w.done) := by
  have he := (exec_phbeg s f).trans (sysWord_eq hr hi _)
  have hstill : (x.phase.opened && !x.phase.broken) = false := by
    cases ho : x.phase.opened with
    | false => rfl
    | true => rw [hopen ho]; rfl
  have hcounts : (!x.paired && (decide (fieldOf b 4 4 ≠ 0) || decide (fieldOf b 10 2 ≠ 0))) = false := by
    rcases hpair with h | ⟨h4, h10⟩
    · rw [h]; rfl
    · rw [h4, h10]; exact Bool.and_false _
  dsimp only at he
  rw [hx] at he
  dsimp only at he
  rw [hb, hacq, hfit, hlevel, hstill, hzero, hcounts] at he
  have hbag := ofNat_fieldOf_eq_zero b 16
  have htag := ofNat_fieldOf_eq_zero b 24
  by_cases h0 : fieldOf b 12 2 = 0
  · rw [if_pos h0] at hts
    have hC : (!(decide (BitVec.ofNat 64 (fieldOf b 16 8) = 0) == decide (fieldOf b 12 2 = 0))) = false := by
      rw [decide_eq_true (hbag.2 hts.1), decide_eq_true h0]; rfl
    have hD : (decide (fieldOf b 12 2 = 0) && !decide (BitVec.ofNat 64 (fieldOf b 24 8) = 0)) = false := by
      rw [decide_eq_true (htag.2 hts.2)]; exact Bool.and_false _
    rw [hC, hD, if_neg (not_not_intro hal)] at he
    simp only [if_pos h0] at he
    exact ⟨none, he.trans (by unfold State.phaseBegun; rw [if_pos h0]; rfl)⟩
  · rw [if_neg h0] at hts
    obtain ⟨h16, y, hy, hkind⟩ := hts
    have hC : (!(decide (BitVec.ofNat 64 (fieldOf b 16 8) = 0) == decide (fieldOf b 12 2 = 0))) = false := by
      rw [decide_eq_false (mt hbag.1 h16), decide_eq_false h0]; rfl
    have hD : (decide (fieldOf b 12 2 = 0) && !decide (BitVec.ofNat 64 (fieldOf b 24 8) = 0)) = false := by
      rw [decide_eq_false h0]; rfl
    rw [hC, hD, if_neg (not_not_intro hal), hy] at he
    simp only [if_neg h0, if_pos hkind] at he
    exact ⟨some (y.pa / 4096, BitVec.ofNat 64 (fieldOf b 24 8)), he.trans (by unfold State.phaseBegun; rw [if_neg h0]; rfl)⟩
end

section
variable {s : State} {c k : Nat} {w : Wave} {f : FmtQ} {x : Team}

/-- A phase opened behind what PHBEG does first. -/
theorem goesOn_phaseOpened {i : Instr} (hw : w.wins = []) (hx : s.team? w.team = some x) {b : List Byte} {bag : W64} {watch : Option (Nat × W64)}
    {lvl : Nat} (he : exec i s = .next (((if lvl = 0 then s.phaseBegun c w.team (fieldOf b 12 2) bag
      else (s.phaseBegun c w.team (fieldOf b 12 2) bag).idemLost w.team).updTeam w.team
        (fun t => { t with phase := t.phase.opens lvl b watch })).setWave c k w.done)) :
    GoesOn i s c k w [] [] (fun t _ => ∃ x', t.team? w.team = some x' ∧ x'.phase = x.phase.opens lvl b watch
      ∧ (∀ h, ∀ y ∈ (t.slice h).watches, y.2.2 ≠ w.team)
      ∧ t.mem = (if fieldOf b 12 2 = 0 then s else (s.dropWatch w.team).touchTlb (clusterOf c) bag).mem) := by
  have hteam := (State.phaseBegun_team? c w.team (fieldOf b 12 2) w.team bag).trans hx
  have hwatches (h : Nat) := State.phaseBegun_watches (s := s) c w.team (fieldOf b 12 2) h bag
  have hmem := State.phaseBegun_mem (s := s) c w.team (fieldOf b 12 2) bag
  generalize s.phaseBegun c w.team (fieldOf b 12 2) bag = u at he hteam hwatches hmem
  split at he
  · have hx' : (u.updTeam w.team (fun t => { t with phase := t.phase.opens lvl b watch })).team? w.team
        = some { x with phase := x.phase.opens lvl b watch } := by rw [State.team?_updTeam, if_pos rfl, hteam]; rfl
    exact goesOn_of_wrote (Wave.wrote_nothing hw) he (State.wave?_setWave_self ..) ⟨_, hx', rfl, hwatches, hmem⟩
  · have hx' : ((u.idemLost w.team).updTeam w.team (fun t => { t with phase := t.phase.opens lvl b watch })).team? w.team
        = some { x with idemLost := true, phase := x.phase.opens lvl b watch } := by
      rw [State.team?_updTeam, if_pos rfl, State.team?_idemLost hteam]; rfl
    exact goesOn_of_wrote (Wave.wrote_nothing hw) he (State.wave?_setWave_self ..) ⟨_, hx', rfl, hwatches, hmem⟩

theorem exec_phwait_of_team (hr : s.runs c k w) (hi : (Instr.phwait f).wf) (hx : s.team? w.team = some x) :
    exec (.phwait f) s = .next (if x.phase.broken then s.trapAt c k w { cause := 0x10, sub := 0x04, fm := w.trapMask }
      else if x.phase.opened then s.setWave c k (w.blockAt s.time 1 0)
      else (s.columnAcquire x.paired 3 c).doneWave c k) := by
  have he := (exec_phwait s f).trans (sysWord_eq hr hi _)
  rwa [hx] at he
end

/-! ### The watch and the completion (R474, R476) -/

section
variable {s : State} {team : Nat} {x : Team}

theorem exec_phaseWatchRegister_of_watch (hx : s.team? team = some x) {g : Nat} {tag : W64} (hwatch : x.phase.watch = some (g, tag))
    (hseen : x.phase.watchSeen = false) : exec (.phaseWatchRegister team) s = .next
      ((s.setSlice (s.tupleHome g tag) { s.slice (s.tupleHome g tag) with
          watches := (s.slice (s.tupleHome g tag)).watches ++ [(g, tag, team)] }).setTeam team { x with phase := { x.phase with watchSeen := true } }) := by
  rw [exec_phaseWatchRegister]; unfold execPhaseWatchRegister; rw [hx]; dsimp only; rw [hwatch]; dsimp only; rw [hseen]; rfl
theorem exec_phaseComplete_of_high (hx : s.team? team = some x) (hopen : x.phase.opened = true) (hbroken : x.phase.broken = false)
    (hseen : x.phase.watch = none ∨ x.phase.watchSeen = true)
    (hhigh : ∀ n ∈ s.levelTeams team x, ∀ y, s.team? n = some y → ∀ pos < (if y.paired then 2 else 1), s.lineHigh n y pos x.phase.phn = true) :
    exec (.phaseComplete team) s = .next ((s.dropWatch team).setTeam team { x with phase := { x.phase with opened := false, watch := none } }) := by
  have hwatch : (x.phase.watch.isNone || x.phase.watchSeen) = true := by
    rcases hseen with h | h <;> rw [h]
    · rfl
    · exact Bool.or_true _
  have hall : (s.levelTeams team x).all (fun id => match s.team? id with
      | some y => (List.range (if y.paired then 2 else 1)).all (fun pos => s.lineHigh id y pos x.phase.phn)
      | none => true) = true := by
    refine List.all_eq_true.2 fun n hn => ?_
    cases hy : s.team? n with
    | none => rfl
    | some y => exact List.all_eq_true.2 fun pos hpos => hhigh n hn y hy pos (List.mem_range.1 hpos)
  rw [exec_phaseComplete]
  unfold execPhaseComplete
  rw [hx]
  exact if_pos (by rw [hopen, hbroken, hwatch]; exact hall)
end

/-- Settles O35: the words, then the watch and the completion. -/
theorem phaseWords : Obligations.PhaseWords := by
  unfold Obligations.PhaseWords
  intro s c k w f x hr hw hx off b bag
  refine ⟨fun hi hacq => ?waits, fun hi hacq hal hfit hlevel hopen hzero hpair hts => ?begins, fun hi hbroken => ?broken, fun hi hbroken => ?wait,
    fun g tag hwatch hseen => ?watch, fun hopen hbroken hseen hhigh => ?completes⟩
  case waits =>
    have he := (exec_phbeg s f).trans (sysWord_eq hr hi _)
    dsimp only at he
    rw [hx] at he
    dsimp only at he
    rwa [hacq] at he
  case begins =>
    obtain ⟨watch, he⟩ := exec_phbeg_of_ok hr hi hx hacq rfl hal hfit hlevel hopen hzero hpair hts
    obtain ⟨t, w', hexec, hwave, hspot, hs, hv, x', hx', hphase, hwatches, hmem⟩ := goesOn_phaseOpened hw hx he
    obtain ⟨hgt0, hgt1, hen0, hen1⟩ := x.phase.opens_counts f.lvl.toNat b watch
    refine ⟨t, w', hexec, hwave, hspot, hs, hv, x', hx', ?_⟩
    rw [hphase]
    exact ⟨rfl, rfl, rfl, rfl, hgt0, hgt1, hen0, hen1, rfl, hwatches, hmem⟩
  case broken => rw [exec_phwait_of_team hr hi hx, hbroken, Wave.trapMask_of_none hw]; rfl
  case wait =>
    have he := exec_phwait_of_team hr hi hx
    rw [hbroken] at he
    cases hopen : x.phase.opened with
    | true => rwa [hopen] at he
    | false =>
      rw [hopen] at he
      exact goesOn_of_wrote (Wave.wrote_nothing hw) he (State.wave?_doneWave ((State.wave?_columnAcquire ..).trans hr.2)) trivial
  case watch =>
    refine ⟨_, _, exec_phaseWatchRegister_of_watch hx hwatch hseen, State.team?_setTeam_self .., rfl, ?_, rfl⟩
    rw [State.slice_of_slices (State.setTeam_slices ..), State.slice_setSlice_self]
    exact List.mem_append_right _ (List.mem_singleton_self _)
  case completes =>
    exact ⟨_, _, exec_phaseComplete_of_high hx hopen hbroken hseen hhigh, State.team?_setTeam_self .., rfl, rfl, rfl, rfl, rfl⟩

end Sys2Proof.Machine
end

section
/-! SUPPORT. The issue of an engine command (R362–R372, R377, R379), and the proof of O39. -/

namespace Sys2Proof.Machine

/-! ### The issue of a command (R363) -/

section
variable {i : Instr} {s u : State} {c k : Nat} {w : Wave} {cmd : Cmd} {chans : List Nat} {act lost : Bool} {sem : Nat}

theorem State.engHeld_of_cmds (h : u.cmds = s.cmds) (team : Nat) : u.engHeld team = s.engHeld team := by unfold State.engHeld; rw [h]

/-- With no room for it, or its counter full, an EN word waits. -/
theorem State.issueCmd_waits (h : w.full .en = true ∨ 1280 ≤ u.engHeld w.team) : ∃ pipe, u.issueCmd c k w cmd chans act lost sem
    = u.setWave c k { w.blockAt u.time 0 0 with pipe := pipe } := by
  unfold State.issueCmd
  split
  next => exact ⟨none, rfl⟩
  next hheld =>
    rw [if_pos (h.resolve_right fun hh => hheld (decide_eq_true hh))]
    exact ⟨_, rfl⟩
theorem waits_of_issueCmd (hw : w.wins = []) (h : w.full .en = true ∨ 1280 ≤ u.engHeld w.team)
    (he : exec i s = .next (u.issueCmd c k w cmd chans act lost sem)) : Waits i s c k w (fun t => t.cmds = u.cmds) := by
  obtain ⟨pipe, hissue⟩ := State.issueCmd_waits (cmd := cmd) (chans := chans) (act := act) (lost := lost) (sem := sem) (c := c) (k := k) h
  obtain ⟨p, b, hblock⟩ := Wave.blockAt_pipe_block hw u.time 0 0
  refine ⟨_, { w.blockAt u.time 0 0 with pipe := pipe }, he.trans (congrArg _ hissue), State.wave?_setWave_self .., ?_, w.blockAt_waits u.time 0 0, ?_, ?_, rfl⟩
  · rw [hblock]; rfl
  · rw [hblock]
  · rw [hblock]

/-- The pending action a command takes: the wave's, where the word takes one and it is not its stream's. -/
def Wave.pendingFor (w : Wave) (act : Bool) : Option Ecpl := if act then w.ecpl.bind (fun e => if e.stream then none else some e) else none
/-- A wave whose pending action goes with its command. -/
def Wave.unpend (w : Wave) (e : Option Ecpl) : Wave := if e.isSome then { w with ecpl := none } else w
theorem Wave.sameWord_unpend (w : Wave) (e : Option Ecpl) : w.SameWord (w.unpend e) := by
  unfold Wave.unpend; split <;> exact ⟨rfl, rfl, rfl, rfl, rfl, rfl, rfl⟩
theorem Wave.unpend_reqs (w : Wave) (e : Option Ecpl) : (w.unpend e).reqs = w.reqs := by unfold Wave.unpend; split <;> rfl
/-- The command's number joins the queues of the channels it names. -/
def State.joinQueues (s : State) (team : Nat) (chans : List Nat) (id : Nat) : State :=
  chans.foldl (fun s n => s.updChan team n (fun x => { x with queue := x.queue ++ [id] })) s
theorem State.joinQueues_mem (s : State) (team : Nat) (chans : List Nat) (id : Nat) : (s.joinQueues team chans id).mem = s.mem :=
  foldl_same State.mem (fun u _ => State.updTeam_mem u team _) chans s
theorem State.issueCmd_goes (h : ¬(w.full .en = true ∨ 1280 ≤ u.engHeld w.team)) : ∃ (e : Option Ecpl) (v : State) (r : Ret),
    v.mem = u.mem ∧ Tbl.get? v.cmds u.nextId = some { cmd with ecpl := e }
      ∧ u.issueCmd c k w cmd chans act lost sem = v.issueReq c k (w.unpend e).done .en (w.unpend e).curWord sem 3 [] r 0 := by
  unfold State.issueCmd
  rw [if_neg fun hh => h (.inr (of_decide_eq_true hh)), if_neg fun hh => h (.inl hh)]
  let e := w.pendingFor act
  let v := (if lost then u.idemLost (w.unpend e).team else u).joinQueues (w.unpend e).team chans u.nextId
  refine ⟨e, { v with cmds := Tbl.set v.cmds u.nextId { cmd with ecpl := e }, nextId := u.nextId + 1 }, _, ?_, Tbl.get?_set_self .., rfl⟩
  refine (State.joinQueues_mem ..).trans ?_
  split
  · exact State.idemLost_mem ..
  · rfl

/-- A wave with one more request of a path counts one more. -/
theorem Wave.count_append (w : Wave) (p : Path) {q : Req} (hp : q.path = p) (hphase : q.phase ≠ orderOnly) :
    ({ w with reqs := w.reqs ++ [q] } : Wave).count p = w.count p + 1 := by
  simp [Wave.count, hp, hphase]
theorem Wave.count_of_reqs {w v : Wave} (h : v.reqs = w.reqs) (p : Path) : v.count p = w.count p := by unfold Wave.count; rw [h]
theorem goesOn_of_issueCmd (hw : w.wins = []) (h : ¬(w.full .en = true ∨ 1280 ≤ u.engHeld w.team))
    (he : exec i s = .next (u.issueCmd c k w cmd chans act lost sem)) :
    GoesOn i s c k w [] [] (fun t w' => w'.count .en = w.count .en + 1 ∧ t.mem = u.mem
      ∧ ∃ e, Tbl.get? t.cmds u.nextId = some { cmd with ecpl := e }) := by
  obtain ⟨e, v, r, hmem, hget, hissue⟩ :=
    State.issueCmd_goes (cmd := cmd) (chans := chans) (act := act) (lost := lost) (sem := sem) (c := c) (k := k) h
  have hsame := w.sameWord_unpend e
  have hwins : (w.unpend e).wins = [] := hsame.wins.trans hw
  refine goesOn_of_wave (he.trans (congrArg _ hissue)) (State.wave?_setWave_self ..)
    (Wave.done_spot_congr w _ hw hwins hsame.clause hsame.widx hsame.pc) (((w.unpend e).done_s hwins).trans hsame.scalars)
    (((w.unpend e).done_v hwins).trans hsame.vectors) (((w.unpend e).done_beats hwins).trans hsame.beats) ⟨?_, hmem, e, hget⟩
  refine (Wave.count_append _ .en rfl (show (0 : Nat) ≠ orderOnly by decide)).trans (congrArg (· + 1) (Wave.count_of_reqs ?_ .en))
  exact (Wave.done_reqs hwins).trans (w.unpend_reqs e)

/-- A word that issues a command: it waits for room, or goes on with the command under its EN counter. -/
theorem issues_of_issueCmd {P : Cmd → Prop} (hw : w.wins = []) (hu : u.aside = s.aside)
    (he : exec i s = .next (u.issueCmd c k w cmd chans act lost sem)) (hagent : cmd.agent = .wave c k) (hteam : cmd.team = w.team)
    (hword : cmd.word = w.wordAddr) (hstage : cmd.stage = .issued) (hP : ∀ e, P { cmd with ecpl := e }) :
    if w.full .en ∨ 1280 ≤ s.engHeld w.team then Waits i s c k w (fun t => t.cmds = s.cmds)
    else GoesOn i s c k w [] [] (fun t w' => w'.count .en = w.count .en + 1 ∧ t.mem = u.mem ∧ ∃ m, Tbl.get? t.cmds s.nextId = some m
      ∧ m.agent = .wave c k ∧ m.team = w.team ∧ m.word = w.wordAddr ∧ m.stage = .issued ∧ P m) := by
  rw [← Aside.cmds hu, ← Aside.nextId hu, ← State.engHeld_of_cmds (Aside.cmds hu)]
  split
  next h => exact waits_of_issueCmd hw h he
  next h =>
    obtain ⟨t, w', hexec, hwave, hspot, hs, hv, hcount, hmem, e, hget⟩ := goesOn_of_issueCmd hw h he
    exact ⟨t, w', hexec, hwave, hspot, hs, hv, hcount, hmem, _, hget, hagent, hteam, hword, hstage, hP e⟩
end

section
variable {i : Instr} {s : State} {c k : Nat} {w : Wave}

/-- A word that sets its wave's pending action goes on (R372). -/
theorem goesOn_of_pending (hw : w.wins = []) {e : Ecpl} (he : exec i s = .next ((s.idemLost w.team).setWave c k { w with ecpl := some e }.done)) :
    GoesOn i s c k w [] [] (fun t w' => t.mem = s.mem ∧ w'.ecpl = some e) := by
  have hsame : w.SameWord { w with ecpl := some e } := ⟨rfl, rfl, rfl, rfl, rfl, rfl, rfl⟩
  exact goesOn_of_sameWord hw hsame he (State.wave?_setWave_self ..)
    ⟨State.idemLost_mem s w.team, congrArg Wave.ecpl (Wave.done_bare { w with ecpl := some e } hw)⟩
end

/-! ### The words (R366–R372, R377, R379) -/

theorem lt_of_opCode {n : Nat} {o : OpCode} (h : opCode n = some o) : n < 64 := by
  unfold opCode at h
  split at h <;> simp_all

theorem engWord_waits {i : Instr} {s : State} {c k : Nat} {w : Wave} (hr : s.runs c k w) (hi : i.wf = true) (hacq : w.acquiring = true)
    (g : Nat → Nat → Wave → State) : engWord i s g = .next (s.setWave c k (w.blockAt s.time 0 0)) :=
  (sysWord_eq hr hi _).trans (congrArg _ (if_pos hacq))
theorem engWord_eq {i : Instr} {s : State} {c k : Nat} {w : Wave} (hr : s.runs c k w) (hi : i.wf = true) (hacq : w.acquiring = false)
    (g : Nat → Nat → Wave → State) : engWord i s g = .next (g c k w) :=
  (sysWord_eq hr hi _).trans (congrArg _ (if_neg (by rw [hacq]; exact Bool.false_ne_true)))
theorem engChan_of_ok (w : Wave) {ch : Chan} {ok : Bool} (hd : ch.defd = true) (hok : ok = true) : engChan w ch ok = none := by
  unfold engChan; rw [hd, hok]; rfl

/-- Settles O39, a word at a time. -/
theorem engineWordsIssue : Obligations.EngineWordsIssue := by
  unfold Obligations.EngineWordsIssue
  intro s c k w f g x hr hw hx n ch va qa issues
  have hchan (m : Nat) : s.chan w.team m = x.chan m := State.chan_of_team hx m
  refine ⟨fun i hmem hi hacq => ?waits, fun b o hacq hb hi hok hconv hfmt ho hpasses hd hsize hn => ?cpyin,
    fun b hacq hb hi hok hns h2 hs2 hst2 hd hsize hn => ?cpyout, fun b hacq hb hi hok hns hs hs2 => ?cpyg,
    fun b d hacq hb hi hz hd hdesc hform h1 h64 hpart hidx => ?idxwalk, fun b d hacq hb hi hz hdesc hin hout hsize hn hn2 => ?gather,
    fun b y hi hb hy hkind => ?publish, fun b hacq hb hi => ?ecplDep, fun hi => ?ecplArr, fun y hi hal hen hy hkind => ?launch,
    fun y hi hal hsel hmin hy hkind => ?rsub⟩
  case waits =>
    simp only [List.mem_cons, List.not_mem_nil, or_false] at hmem
    obtain rfl | rfl | rfl | rfl | rfl | rfl := hmem
    · exact engWord_waits hr hi hacq _
    · exact engWord_waits hr hi hacq _
    · exact engWord_waits hr hi hacq _
    · exact engWord_waits hr hi hacq _
    · exact engWord_waits hr hi hacq _
    · exact engWord_waits hr hi hacq _
  case cpyin =>
    have he := (exec_cpyin s f).trans (engWord_eq hr hi hacq _)
    have hnot2 : decide (2 ≤ (copyDesc b).conv) = false := decide_eq_false (Nat.not_le.2 hconv)
    have hnot64 : decide (64 ≤ (copyDesc b).fmtc) = false := decide_eq_false (Nat.not_le.2 (lt_of_opCode ho))
    have hplain : (!decide ((copyDesc b).conv = 1) && !decide ((copyDesc b).fmtc = 0)) = false := by
      by_cases h1 : (copyDesc b).conv = 1
      · rw [decide_eq_true h1]; rfl
      · rw [decide_eq_true (hfmt (by omega))]; exact Bool.and_false _
    have hone : (decide ((copyDesc b).conv = 1) && !decide (o.passes = 1)) = false := by
      by_cases h1 : (copyDesc b).conv = 1
      · rw [decide_eq_true (hpasses h1)]; exact Bool.and_false _
      · rw [decide_eq_false h1]; rfl
    have hfits : (if decide ((copyDesc b).conv = 1) then decide ((copyDesc b).total = o.slab) && decide (ch.esize = 4096)
        else decide ((copyDesc b).total = ch.esize)) = true := by
      split at hsize
      next h1 => rw [decide_eq_true h1, decide_eq_true hsize.1, decide_eq_true hsize.2]; rfl
      next h1 => rw [decide_eq_false h1, decide_eq_true hsize]; rfl
    dsimp only at he
    rw [show s.descriptor w (w.readS64 f.desc.toNat) 64 64 = .ok b from hb, hchan] at he
    dsimp only at he
    rw [hok, hnot2, hnot64, hplain, ho] at he
    dsimp only at he
    rw [hone, engChan_of_ok w hd hfits, if_neg (Nat.not_lt.2 hn)] at he
    exact issues_of_issueCmd hw rfl he rfl rfl rfl rfl fun _ => ⟨rfl, rfl, rfl⟩
  case cpyout =>
    have he := (exec_cpyout s f).trans (engWord_eq hr hi hacq _)
    dsimp only at he
    rw [show s.descriptor w (w.readS64 f.desc.toNat) 64 64 = .ok b from hb, hchan] at he
    dsimp only at he
    rw [hok, hns, h2, hs2, hst2, engChan_of_ok w hd (decide_eq_true hsize), if_neg (Nat.not_lt.2 hn)] at he
    exact issues_of_issueCmd hw rfl he rfl rfl rfl rfl fun _ => ⟨rfl, rfl, rfl⟩
  case cpyg =>
    have he := (exec_cpyg s f).trans (engWord_eq hr hi hacq _)
    dsimp only at he
    rw [show s.descriptor w (w.readS64 f.desc.toNat) 64 64 = .ok b from hb] at he
    dsimp only at he
    rw [hok, hns, hs, hs2] at he
    exact issues_of_issueCmd hw rfl he rfl rfl rfl rfl fun _ => rfl
  case idxwalk =>
    have he := (exec_idxwalk s f).trans (engWord_eq hr hi hacq _)
    dsimp only at he
    rw [show s.descriptor w (w.readS64 f.desc.toNat) 64 64 = .ok b from hb, hchan] at he
    dsimp only at he
    have hnotForm : decide (2 ≤ d.form) = false := decide_eq_false (Nat.not_le.2 hform)
    have hnot0 : decide (d.parts = 0) = false := decide_eq_false (Nat.ne_of_gt h1)
    have hnot64 : decide (64 < d.parts) = false := decide_eq_false (Nat.not_lt.2 h64)
    have hnotPart : decide (d.parts ≤ d.part) = false := decide_eq_false (Nat.not_le.2 hpart)
    have hflat : (decide (d.form = 1) && !decide (d.idx = 0)) = false := by
      by_cases h : d.form = 1
      · rw [decide_eq_true (hidx h)]; exact Bool.and_false _
      · rw [decide_eq_false h]; rfl
    subst hdesc
    rw [hz, hnotForm, hnot0, hnot64, hnotPart, hflat, engChan_of_ok w hd rfl] at he
    exact issues_of_issueCmd hw rfl he rfl rfl rfl rfl fun _ => ⟨rfl, rfl⟩
  case gather =>
    have he := (exec_gather s f).trans (engWord_eq hr hi hacq _)
    subst hdesc
    dsimp only at he
    rw [show s.descriptor w (w.readS64 f.desc.toNat) 64 64 = .ok b from hb, hchan, hchan] at he
    dsimp only at he
    rw [hz, hin, engChan_of_ok w hout (decide_eq_true hsize)] at he
    simp only [Bool.not_true, Bool.false_eq_true, if_false] at he
    rw [if_neg fun h => h.elim (Nat.not_lt.2 hn) (Nat.not_lt.2 hn2)] at he
    exact issues_of_issueCmd hw rfl he rfl rfl rfl rfl fun _ => ⟨rfl, rfl, rfl, rfl⟩
  case publish =>
    have he := (exec_publish s f).trans (sysWord_eq hr hi _)
    dsimp only at he
    rw [show s.bufferAt (w.readS64 f.desc.toNat) = some b from hb] at he
    dsimp only at he
    rw [show s.translate (clusterOf c) (w.readS64 f.desc.toNat) .read = .ok y from hy] at he
    dsimp only at he
    rw [if_neg hkind] at he
    exact issues_of_issueCmd hw (State.touchTlb_aside ..) he rfl rfl rfl rfl fun _ => ⟨_, rfl⟩
  case ecplDep =>
    have he := (exec_ecplDep s f).trans (engWord_eq hr hi hacq _)
    rw [show s.descriptor w (w.readS64 f.desc.toNat) 64 64 = .ok b from hb] at he
    exact goesOn_of_pending hw he
  case ecplArr => exact goesOn_of_pending hw ((exec_ecplArr s f).trans (sysWord_eq hr hi _))
  case launch =>
    have he := (exec_launch s g).trans (sysWord_eq hr hi _)
    rw [if_neg (not_not_intro hal), hen, show s.translate (clusterOf c) (w.readS64 g.sa.toNat) .read = .ok y from hy] at he
    dsimp only at he
    rw [if_neg hkind] at he
    exact issues_of_issueCmd hw (State.touchTlb_aside ..) he rfl rfl rfl rfl fun _ => rfl
  case rsub =>
    have he := (exec_rsub s g).trans (sysWord_eq hr hi _)
    have hrel : (!g.imm.getLsbD 2 && !decide (g.imm.toNat % 4 = 0)) = false := by
      cases habs : g.imm.getLsbD 2 with
      | true => rfl
      | false => rw [decide_eq_true (hsel habs)]; rfl
    have hdie : (s.minimal && !decide ((if g.imm.getLsbD 2 then g.imm.toNat % 4 else dieOfCore c) = 0)) = false := by
      cases hm : s.minimal with
      | false => rfl
      | true => rw [decide_eq_true (hmin hm)]; rfl
    rw [if_neg (not_not_intro hal)] at he
    dsimp only at he
    rw [hrel, hdie, show s.translate (clusterOf c) (w.readS64 g.sa.toNat) .read = .ok y from hy] at he
    dsimp only at he
    rw [if_neg hkind] at he
    exact issues_of_issueCmd hw (State.touchTlb_aside ..) he rfl rfl rfl rfl fun _ => rfl

end Sys2Proof.Machine
end

section
/-! SUPPORT. The tuple words (R390–R397), and the proof of O40. -/

namespace Sys2Proof.Machine

/-! ### The request of a tuple word (R390, R394) -/

section
variable {i : Instr} {s : State} {c k : Nat} {w : Wave} {f : FmtT} {op : TOp}

/-- The request a tuple word sends, once its block and its space have passed their checks. -/
def State.tupleRequest (s : State) (c k : Nat) (w : Wave) (f : FmtT) (op : TOp) (b : List Byte) (bag : Nat) (uniq : Bool) : TReq :=
  { op := op, agent := .wave c k, team := w.team, word := w.wordAddr, bag := bag, uniq := uniq,
    slice := s.tupleHome bag ((wordsOf (if op = .dep then 8 else 16) b).getD 0 0), data := wordsOf (if op = .dep then 8 else 16) b,
    block := w.z f.blk, sd := f.sd.toNat, deadline := if f.imm = 0 then none else some (s.ck + 256 * f.imm.toNat), timedOut := false,
    cancelled := false, stage := .travelling, got := [], gotBad := false, fault := 0 }
theorem State.tupleReq_of_ok {b : List Byte} {bag : Nat} {uniq : Bool}
    (hb : s.descriptor w (BitVec.ofNat 64 (w.z f.blk)) 64 (if op = .dep then 64 else 192) = .ok b)
    (hbag : s.spaceOf c (w.readS64 f.space.toNat) (if op = .cpy ∨ op = .cpyn then .read else .write) = .ok (bag, uniq)) :
    s.tupleReq c k w f op = .ok (s.tupleRequest c k w f op b bag uniq) := by
  unfold State.tupleReq
  simp only [decide_eq_true_eq]
  rw [hb, hbag]
  rfl
/-- The state in which a request leaves: the team has lost idempotence, and its space's page has been walked to. -/
def State.tupleWalked (s : State) (c : Nat) (w : Wave) (f : FmtT) : State :=
  (s.idemLost w.team).touchTlb (clusterOf c) (w.readS64 f.space.toNat)
theorem State.tupleWalked_nextId (s : State) (c : Nat) (w : Wave) (f : FmtT) : (s.tupleWalked c w f).nextId = s.nextId := by
  have h : (s.tupleWalked c w f).aside = (s.idemLost w.team).aside := State.touchTlb_aside ..
  exact (Aside.nextId h : _ = (s.idemLost w.team).nextId)

/-! ### The words that go on (R394) -/

theorem State.tupleL_acquiring (hacq : w.acquiring = true) : s.tupleL c k w f op = s.setWave c k (w.blockAt s.time 0 0) := if_pos hacq
theorem State.tupleL_full (hacq : w.acquiring = false) {t : TReq} (ht : s.tupleReq c k w f op = .ok t) (hfull : w.full .ts = true) :
    s.tupleL c k w f op = s.setWave c k (w.blockAt s.time 0 0) := by
  unfold State.tupleL; rw [hacq, ht]; exact if_pos hfull
theorem State.tupleL_sends (hacq : w.acquiring = false) {t : TReq} (ht : s.tupleReq c k w f op = .ok t) (hfull : w.full .ts = false) :
    s.tupleL c k w f op = ((s.tupleWalked c w f).sendTuple t).issueReq c k w.done .ts w.curWord
      (if decide (op = .dep) then 2 else 0) 3 [] (.tuple s.nextId f.sd.toNat (decide (op = .dep)) none) 0 := by
  unfold State.tupleL; rw [hacq, ht]; dsimp only; rw [hfull]; rfl
theorem goesOn_of_sent (hw : w.wins = []) (hacq : w.acquiring = false) {t : TReq} (ht : s.tupleReq c k w f op = .ok t)
    (he : exec i s = .next (s.tupleL c k w f op)) :
    if w.full .ts then Waits i s c k w (fun t => t.treqs = s.treqs)
    else GoesOn i s c k w [] [] (fun u w' => w'.count .ts = w.count .ts + 1 ∧ u.mem = (s.tupleWalked c w f).mem
      ∧ Tbl.get? u.treqs s.nextId = some t) := by
  split
  next hfull => exact waits_of_blockAt hw (he.trans (congrArg _ (State.tupleL_full hacq ht hfull))) (State.wave?_setWave_self ..) rfl
  next hfull =>
    refine goesOn_of_wave (he.trans (congrArg _ (State.tupleL_sends hacq ht (Bool.eq_false_iff.2 hfull)))) (State.wave?_setWave_self ..) rfl
      (w.done_s hw) (w.done_v hw) (w.done_beats hw) ⟨?_, rfl, ?_⟩
    · refine (Wave.count_append _ .ts rfl ?_).trans (congrArg (· + 1) (Wave.count_of_reqs (Wave.done_reqs hw) .ts))
      exact (by decide : (0 : Nat) ≠ orderOnly)
    · rw [← s.tupleWalked_nextId c w f]; exact Tbl.get?_set_self ..

/-! ### The words that wait (R394, R397) -/

theorem State.tupleB_acquiring (hnone : w.treq = none) (hacq : w.acquiring = true) :
    s.tupleB c k w f op = s.setWave c k (w.blockAt s.time 0 0) := by
  unfold State.tupleB; rw [hnone]; exact if_pos hacq
theorem State.tupleB_sends (hnone : w.treq = none) (hacq : w.acquiring = false) {t : TReq} (ht : s.tupleReq c k w f op = .ok t) :
    s.tupleB c k w f op = ((s.tupleWalked c w f).sendTuple t).setWave c k { w.blockAt s.time 1 0 with treq := some s.nextId } := by
  unfold State.tupleB; rw [hnone]; dsimp only; rw [hacq, ht]; rfl
theorem waits_of_sent (hw : w.wins = []) (hnone : w.treq = none) (hacq : w.acquiring = false) {t : TReq} (ht : s.tupleReq c k w f op = .ok t)
    (he : exec i s = .next (s.tupleB c k w f op)) :
    Waits i s c k w (fun u => (u.wave? c k).bind (fun w' => w'.treq) = some s.nextId ∧ u.mem = (s.tupleWalked c w f).mem
      ∧ Tbl.get? u.treqs s.nextId = some t) := by
  obtain ⟨p, b, hblock⟩ := Wave.blockAt_pipe_block hw s.time 1 0
  refine ⟨_, { w.blockAt s.time 1 0 with treq := some s.nextId }, he.trans (congrArg _ (State.tupleB_sends hnone hacq ht)),
    State.wave?_setWave_self .., ?_, w.blockAt_waits s.time 1 0, ?_, ?_, ?_, rfl, ?_⟩
  · rw [hblock]; rfl
  · rw [hblock]
  · rw [hblock]
  · rw [State.wave?_setWave_self]; rfl
  · rw [← s.tupleWalked_nextId c w f]; exact Tbl.get?_set_self ..
end

/-! ### A received tuple (R313, R394) -/

/-- A register that a return writes, with no later word having written it, holds what a word's write leaves there. -/
theorem Wave.writeS_s (w : Wave) (r : Nat) (x : W32) : (w.writeS r x).s = if w.discards r then w.s else Tbl.put w.s r 0 x := by
  unfold Wave.writeS; split <;> rfl
theorem Wave.retS_eq {w : Wave} {q : Req} (hq : q.clob = []) (r : Nat) (x : W32) :
    ∃ badW, w.retS q r x = { w with s := (w.writeS r x).s, badW := badW } := by
  unfold Wave.retS
  rw [Wave.writeS_s]
  split
  next => exact ⟨w.badW, rfl⟩
  next => exact ⟨_, if_neg (by rw [hq]; exact fun h => List.not_mem_nil h.1)⟩
theorem Wave.writeS_s_congr {w v : Wave} (hs : v.s = w.s) (hb : v.beats = w.beats) (r : Nat) (x : W32) : (v.writeS r x).s = (w.writeS r x).s := by
  rw [Wave.writeS_s, Wave.writeS_s, hs]; unfold Wave.discards; rw [hb]

/-- What the delivery of a match word's end writes to its wave: the status, and SCC. -/
def Wave.takeStatus (w : Wave) (q : Req) (sd st : Nat) : Wave :=
  (if sd = 127 then w else w.retS q sd (BitVec.ofNat 32 st)).retS q 126 (if st = 0 then 1 else 0)
theorem Wave.takeStatus_eq {q : Req} (hq : q.clob = []) (w : Wave) (sd st : Nat) : ∃ badW, w.takeStatus q sd st
    = { w with s := (w.writeSs [(sd, BitVec.ofNat 32 st), (126, if st = 0 then 1 else 0)]).s, badW := badW } := by
  have hsd : (if sd = 127 then w else w.retS q sd (BitVec.ofNat 32 st)) = w.retS q sd (BitVec.ofNat 32 st) := by
    split
    next h => rw [h]; rfl
    next => rfl
  unfold Wave.takeStatus
  rw [hsd]
  obtain ⟨b1, h1⟩ := Wave.retS_eq (w := w) hq sd (BitVec.ofNat 32 st)
  obtain ⟨b2, h2⟩ := Wave.retS_eq (w := w.retS q sd (BitVec.ofNat 32 st)) hq 126 (if st = 0 then 1 else 0)
  refine ⟨b2, h2.trans ?_⟩
  rw [h1]
  have hs := Wave.writeS_s_congr (w := w.writeS sd (BitVec.ofNat 32 st)) (v := { w with s := (w.writeS sd (BitVec.ofNat 32 st)).s, badW := b1 })
    rfl (w.writeS_beats sd (BitVec.ofNat 32 st)).symm 126 (if st = 0 then 1 else 0)
  rw [hs]
  rfl

section
variable {s u : State} {c k : Nat} {w : Wave} {t : TReq} {x : Team} {st : Nat}

/-- Bytes written to a store are read back. -/
theorem State.read_storeWrite_scratch (s : State) (a : Nat) (bs : List Byte) {j : Nat} (hj : j < bs.length) :
    Mem.read (s.storeWrite .scratch a bs).mem.scratch (a + j) = bs.getD j 0 := by
  have hnodup : (((List.range bs.length).map (fun i => (a + i, bs.getD i 0))).map Prod.fst).Nodup := by
    rw [List.map_map]
    exact List.nodup_range.map fun _ _ h => Nat.add_left_cancel h
  exact Mem.read_overlay_of_mem _ hnodup (c := (a + j, bs.getD j 0)) (List.mem_map.2 ⟨j, List.mem_range.2 hj, rfl⟩)
theorem State.storeWrite_treqs (s : State) (st : Store) (a : Nat) (bs : List Byte) : (s.storeWrite st a bs).treqs = s.treqs := by
  unfold State.storeWrite State.freshCode
  dsimp only; split <;> rfl
theorem flatMap_bytesOf_length (l : List W64) : (l.flatMap (fun y : W64 => bytesOf 8 y.toNat)).length = 8 * l.length := by
  simp [List.length_flatMap, Nat.mul_comm]

/-- The delivery of a match word's end without an error: its status to the wave, a received tuple to the block, with an acquire. -/
theorem State.deliverTuple_of_match {q : Req} (hop : t.op ≠ .dep) (hst : t.status = some st) (hbad : t.gotBad = false)
    (hx : u.team? t.team = some x) : u.deliverTuple c k q t
      = if st = 0 then (((u.updWave c k (fun w => w.takeStatus q t.sd st)).spadWrite x (t.block + 0x80)
          (t.got.flatMap (fun y : W64 => bytesOf 8 y.toNat))).columnAcquire
          (((u.updWave c k (fun w => w.takeStatus q t.sd st)).spadWrite x (t.block + 0x80)
            (t.got.flatMap (fun y : W64 => bytesOf 8 y.toNat))).paired t.team) 3 c)
        else u.updWave c k (fun w => w.takeStatus q t.sd st) := by
  have hx' : (u.updWave c k (fun w => w.takeStatus q t.sd st)).team? t.team = some x := hx
  unfold State.deliverTuple
  rw [hst, hbad, decide_eq_false hop]
  dsimp only [Option.getD_some]
  simp only [Bool.false_eq_true, if_false]
  rw [show (u.updWave c k (fun w => (if t.sd = 127 then w else w.retS q t.sd (BitVec.ofNat 32 st)).retS q 126 (if st = 0 then 1 else 0)))
    = u.updWave c k (fun w => w.takeStatus q t.sd st) from rfl, hx']
/-- What a delivered match word leaves: its wave with the status, the requests in flight, and a received tuple in the block. -/
theorem State.deliverTuple_leaves {q : Req} (hw : u.wave? c k = some w) (hop : t.op ≠ .dep) (hst : t.status = some st)
    (hbad : t.gotBad = false) (hx : u.team? t.team = some x) : (u.deliverTuple c k q t).treqs = u.treqs
      ∧ (u.deliverTuple c k q t).wave? c k = some (w.takeStatus q t.sd st)
      ∧ (st = 0 → ∀ j < 64, t.got.length = 8 → Mem.read (u.deliverTuple c k q t).mem.scratch (scratchKey x.core (x.p + (t.block + 0x80)) + j)
          = (t.got.flatMap (fun (y : W64) => bytesOf 8 y.toNat)).getD j 0) := by
  have hstatus : (u.updWave c k (fun w => w.takeStatus q t.sd st)).wave? c k = some (w.takeStatus q t.sd st) := by
    rw [State.wave?_updWave_self, hw]; rfl
  rw [State.deliverTuple_of_match hop hst hbad hx]
  split
  next =>
    refine ⟨?_, ?_, fun _ j hj hlen => ?_⟩
    · rw [Aside.treqs (State.columnAcquire_aside ..)]; exact State.storeWrite_treqs ..
    · rw [State.wave?_columnAcquire]; exact (State.wave?_of_waves (State.spadWrite_waves ..) c k).trans hstatus
    · rw [Aside.scratch (State.columnAcquire_aside ..)]
      exact State.read_storeWrite_scratch _ _ _ (by rw [flatMap_bytesOf_length, hlen]; exact hj)
  next h0 => exact ⟨rfl, hstatus, fun h => absurd h h0⟩

/-- A park that the slice has ended: its wave goes on after the word, with the status and the tuple. -/
theorem State.servedPark_of_match {r : Nat} (hs : s.wave? c k = some w) (hr : w.treq = some r) (ht : Tbl.get? s.treqs r = some t)
    (hst : t.status = some st) (hop : t.op ≠ .dep) (hteam : s.team? t.team = some x) (hbad : t.gotBad = false)
    (hready : s.blockReady w.reqs t = true) : ∃ (v : State) (badW : List Nat), s.servedPark c k w = some v ∧ v.treqs = Tbl.del s.treqs r
      ∧ v.wave? c k = some { w with
          s := (w.writeSs [(t.sd, BitVec.ofNat 32 st), (126, if st = 0 then 1 else 0)]).s, badW := badW, treq := none }.done
      ∧ (st = 0 → ∀ j < 64, t.got.length = 8 → Mem.read v.mem.scratch (scratchKey x.core (x.p + (t.block + 0x80)) + j)
          = (t.got.flatMap (fun (y : W64) => bytesOf 8 y.toNat)).getD j 0) := by
  let q : Req := ⟨0, .ts, w.curWord, 0, 0, true, [], .none, 0, []⟩
  let u : State := { s with treqs := Tbl.del s.treqs r }
  obtain ⟨badW, hstatus⟩ := Wave.takeStatus_eq (q := q) rfl w t.sd st
  obtain ⟨htreqs, hwave, hbytes⟩ := State.deliverTuple_leaves (u := u) (c := c) (k := k) (q := q) hs hop hst hbad hteam
  refine ⟨((u.deliverTuple c k q t).updWave c k (fun w => { w with treq := none })).updWave c k Wave.done, badW, ?_, htreqs, ?_, hbytes⟩
  · unfold State.servedPark
    rw [hr, Option.bind_some, ht, Option.bind_some, hst, hready]
    rfl
  · rw [State.wave?_updWave_self, State.wave?_updWave_self, hwave, hstatus]; rfl
end

section
variable {i : Instr} {s : State} {c k : Nat} {w : Wave} {f : FmtT} {x : Team}

/-- A wave whose scalar registers have taken writes beside its mark of errors and its park. -/
theorem Wave.wrote_of_scalars {w v : Wave} (hw : w.wins = []) (ss : List (Nat × W32)) {badW : List Nat}
    (hv : v = { w with s := (w.writeSs ss).s, badW := badW, treq := none }) : w.Wrote v.done ss [] := by
  have hS := Wave.writeSs_same ss w
  have hvw : v.wins = [] := by rw [hv]; exact hw
  have hbeats : v.beats = w.beats := by rw [hv]
  refine ⟨?_, fun r => ?_, fun n l _ => ?_⟩
  · exact Wave.done_spot_congr w v hw hvw (by rw [hv]) (by rw [hv]) (by rw [hv])
  · rw [← Wave.rawS_writeSs]
    unfold Wave.rawS
    rw [Wave.done_s v hvw, Wave.done_beats v hvw, hbeats, hS.beats, hv]
  · show v.done.rawV n l = w.rawV n l
    unfold Wave.rawV
    rw [Wave.done_v v hvw, hv]

/-! ### TSCAN (R395) -/

/-- What a TSCAN makes of the request it names. -/
def TReq.scanned (t : TReq) : TReq :=
  if t.timedOut || !t.open then t else { t with cancelled := true, stage := if t.retrying then .ended 2 else t.stage }
theorem TReq.scanned_cases (t : TReq) : if t.open = true ∧ t.timedOut = false
    then t.scanned.cancelled = true ∧ t.scanned.stage = (if t.retrying then .ended 2 else t.stage) else t.scanned = t := by
  unfold TReq.scanned
  cases t.open <;> cases t.timedOut <;> simp
/-- TSCAN writes whether the wave it names has a request. -/
theorem Wave.scan_writes (w : Wave) (sd : BitVec 7) (y : W32) : (if sd = 127 then w else w.writeS sd.toNat y) = w.writeS sd.toNat y := by
  split
  next h => rw [h]; rfl
  next => rfl
theorem exec_tscan_absent (hr : s.runs c k w) (hi : (Instr.tscan f).wf) (hx : s.team? w.team = some x) (hidx : x.waves ≤ w.z f.blk) :
    exec (.tscan f) s = .next (s.trapAt c k w (w.protTrap 0)) := by
  have he := (exec_tscan s f).trans (sysWord_eq hr hi _)
  rw [hx] at he
  dsimp only at he
  rwa [decide_eq_false (Nat.not_lt.2 hidx)] at he
theorem exec_tscan_found (hr : s.runs c k w) (hi : (Instr.tscan f).wf) (hx : s.team? w.team = some x) (hidx : w.z f.blk < x.waves)
    {c2 k2 : Nat} {w2 : Wave} (hfind : (s.teamWaves w.team).find? (fun y => decide (y.2.2.idx = w.z f.blk)) = some (c2, k2, w2)) :
    exec (.tscan f) s = .next ((match w2.treq with
        | some r => (s.idemLost w.team).updTreq r TReq.scanned
        | none => s.idemLost w.team).updWave c k (fun w => (w.writeS f.sd.toNat
          (if (match w2.treq with | some r => (Tbl.get? s.treqs r).isSome | none => false) then 1 else 0)).done)) := by
  have he := (exec_tscan s f).trans (sysWord_eq hr hi _)
  rw [hx] at he
  dsimp only at he
  rw [decide_eq_true hidx, show (s.idemLost w.team).teamWaves w.team = s.teamWaves w.team from rfl, hfind] at he
  simp only [Wave.scan_writes] at he
  exact he
theorem State.wave?_scanned {u : State} (hs : s.wave? c k = some w) (hu : u.waves = s.waves) (g : Wave → Wave) :
    (u.updWave c k g).wave? c k = some (g w) := by
  rw [State.wave?_updWave_self, State.wave?_of_waves hu, hs]; rfl
end

/-- Settles O40, a word at a time. -/
theorem tupleWords : Obligations.TupleWords := by
  unfold Obligations.TupleWords
  intro s c k w f x hr hw hx asks sent walked
  have hs : s.wave? c k = some w := hr.2
  have hdep (hi : (Instr.tsdep f).wf) : exec (.tsdep f) s = .next (s.tupleL c k w f .dep) := (exec_tsdep s f).trans (sysWord_eq hr hi _)
  have hcpyn (hi : (Instr.tscpyn f).wf) : exec (.tscpyn f) s = .next (s.tupleL c k w f .cpyn) := (exec_tscpyn s f).trans (sysWord_eq hr hi _)
  have htaken (hi : (Instr.tstaken f).wf) : exec (.tstaken f) s = .next (s.tupleL c k w f .taken) := (exec_tstaken s f).trans (sysWord_eq hr hi _)
  have hcpy (hi : (Instr.tscpy f).wf) : exec (.tscpy f) s = .next (s.tupleB c k w f .cpy) := (exec_tscpy s f).trans (sysWord_eq hr hi _)
  have htake (hi : (Instr.tstake f).wf) : exec (.tstake f) s = .next (s.tupleB c k w f .take) := (exec_tstake s f).trans (sysWord_eq hr hi _)
  have hsent {op : TOp} {b : List Byte} {bag : Nat} {uniq : Bool} {t : State}
      (h : Tbl.get? t.treqs s.nextId = some (s.tupleRequest c k w f op b bag uniq)) : sent op b bag uniq t :=
    ⟨_, h, rfl, rfl, rfl, rfl, rfl, rfl, rfl, rfl, rfl⟩
  refine ⟨fun i hmem hi hacq hnone => ?acquiring, fun i op b bag uniq hacq hmem hi hask => ?goes, fun i op b bag uniq hacq hmem hi hnone hask => ?waits,
    fun i r t st hmem hi hreq ht hst hop hteam hbad hready => ?served, fun hi hidx => exec_tscan_absent hr hi hx hidx,
    fun r t c2 k2 w2 hi hidx hfind hreq ht => ?scanned, fun c2 k2 w2 hi hidx hfind hnone => ?unparked⟩
  case acquiring =>
    simp only [List.mem_cons, List.not_mem_nil, or_false] at hmem
    obtain rfl | rfl | rfl | rfl | rfl := hmem
    · rw [hdep hi, State.tupleL_acquiring hacq]
    · rw [hcpyn hi, State.tupleL_acquiring hacq]
    · rw [htaken hi, State.tupleL_acquiring hacq]
    · rw [hcpy hi, State.tupleB_acquiring hnone hacq]
    · rw [htake hi, State.tupleB_acquiring hnone hacq]
  case goes =>
    obtain ⟨hb, hbag⟩ := hask
    have he : exec i s = .next (s.tupleL c k w f op) := by
      simp only [List.mem_cons, Prod.mk.injEq, List.not_mem_nil, or_false] at hmem
      obtain ⟨rfl, rfl⟩ | ⟨rfl, rfl⟩ | ⟨rfl, rfl⟩ := hmem
      · exact hdep hi
      · exact hcpyn hi
      · exact htaken hi
    have hgoes := goesOn_of_sent hw hacq (State.tupleReq_of_ok hb hbag) he
    split
    next hfull => rwa [if_pos hfull] at hgoes
    next hfull =>
      rw [if_neg hfull] at hgoes
      obtain ⟨t, w', hexec, hwave, hspot, hS, hV, hcount, hmem', hget⟩ := hgoes
      exact ⟨t, w', hexec, hwave, hspot, hS, hV, hcount, hmem', hsent hget⟩
  case waits =>
    obtain ⟨hb, hbag⟩ := hask
    have he : exec i s = .next (s.tupleB c k w f op) := by
      simp only [List.mem_cons, Prod.mk.injEq, List.not_mem_nil, or_false] at hmem
      obtain ⟨rfl, rfl⟩ | ⟨rfl, rfl⟩ := hmem
      · exact hcpy hi
      · exact htake hi
    obtain ⟨t, w', hexec, hwave, hspot, hblock, hS, hV, htreq, hmem', hget⟩ := waits_of_sent hw hnone hacq (State.tupleReq_of_ok hb hbag) he
    exact ⟨t, w', hexec, hwave, hspot, hblock, hS, hV, htreq, hmem', hsent hget⟩
  case served =>
    obtain ⟨v, badW, hpark, htreqs, hwave, hbytes⟩ := State.servedPark_of_match hs hreq ht hst hop (hteam ▸ hx) hbad hready
    have hB (op : TOp) : s.tupleB c k w f op = v := by unfold State.tupleB; rw [hreq]; dsimp only; rw [hpark]
    have he : exec i s = .next v := by
      simp only [List.mem_cons, List.not_mem_nil, or_false] at hmem
      obtain rfl | rfl := hmem
      · rw [hcpy hi, hB]
      · rw [htake hi, hB]
    have hwins : ({ w with s := (w.writeSs [(t.sd, BitVec.ofNat 32 st), (126, if st = 0 then 1 else 0)]).s, badW := badW, treq := none } : Wave).wins
      = [] := hw
    refine goesOn_of_wrote (Wave.wrote_of_scalars hw _ rfl) he hwave ⟨congrArg Wave.treq (Wave.done_bare _ hwins), ?_, hbytes⟩
    rw [htreqs, Tbl.get?_del, if_pos rfl]
  case scanned =>
    have he := exec_tscan_found hr hi hx hidx hfind
    rw [hreq] at he
    simp only [ht, Option.isSome_some, if_true] at he
    refine goesOn_of_wrote (Wave.wrote_writeS hw _ _) he (State.wave?_scanned hs rfl _) ⟨State.idemLost_mem s w.team, t.scanned, ?_, t.scanned_cases⟩
    exact (Tbl.get?_upd ..).trans (by rw [if_pos rfl, show (s.idemLost w.team).treqs = s.treqs from rfl, ht]; rfl)
  case unparked =>
    have he := exec_tscan_found hr hi hx hidx hfind
    rw [hnone] at he
    exact goesOn_of_wrote (Wave.wrote_writeS hw _ _) he (State.wave?_scanned hs rfl _) ⟨State.idemLost_mem s w.team, rfl⟩

end Sys2Proof.Machine
end

section
/-! SUPPORT. The Gear train words (R406–R411, R415), and the proof of O41. -/

namespace Sys2Proof.Machine

/-! ### How a Gear train word ends -/

/-- Where a stream stands: its next word's address, its clause and the word in it. -/
def Stream.place (m : Stream) : W64 × Option Clause × Nat := (m.mpc, m.clause, m.widx)

section
variable {i : Instr} {s t u : State} {c : Nat} {m m' : Stream}

/-- A word whose stream goes on to the next. -/
theorem goes_of_setStream {P : State → Stream → Prop} (he : exec i s = .next (u.setStream c m')) (hplace : m'.place = m.done.place) (hm : m'.m = m.m)
    (hP : P (u.setStream c m') m') : ∃ t m', exec i s = .next t ∧ t.stream? c = some m'
      ∧ (m'.mpc, m'.clause, m'.widx) = (m.done.mpc, m.done.clause, m.done.widx) ∧ m'.m = m.m ∧ P t m' :=
  ⟨_, m', he, State.stream?_setStream_self .., hplace, hm, hP⟩
theorem goes_of_done {P : State → Stream → Prop} (he : exec i s = .next (u.setStream c m.done)) (hP : P (u.setStream c m.done) m.done) :
    ∃ t m', exec i s = .next t ∧ t.stream? c = some m' ∧ (m'.mpc, m'.clause, m'.widx) = (m.done.mpc, m.done.clause, m.done.widx) ∧ m'.m = m.m ∧ P t m' :=
  goes_of_setStream he rfl m.done_m hP
/-- A word whose stream blocks where it stands. -/
theorem waits_of_blockStream {P : Stream → Prop} {check : Option Nat} {stage : Nat} (he : exec i s = .next (u.blockStream c { m with check := check } stage))
    (hP : ∀ b, P { m with check := check, block := b }) : ∃ t m', exec i s = .next t ∧ t.stream? c = some m' ∧ m'.block ≠ .none
      ∧ (m'.mpc, m'.clause, m'.widx) = (m.mpc, m.clause, m.widx) ∧ m'.xferQ = m.xferQ ∧ P m' := by
  refine ⟨_, _, he, State.stream?_setStream_self .., ?_, rfl, rfl, hP _⟩
  dsimp only; split <;> exact Block.noConfusion
theorem waits_of_blocks {stage : Nat} (he : exec i s = .next (u.blockStream c m stage)) : ∃ t m', exec i s = .next t ∧ t.stream? c = some m'
      ∧ m'.block ≠ .none ∧ (m'.mpc, m'.clause, m'.widx) = (m.mpc, m.clause, m.widx) ∧ m'.xferQ = m.xferQ ∧ True :=
  waits_of_blockStream (check := m.check) he fun _ => trivial
end

/-! ### Chains (R406) -/

theorem State.chain_setChain_self (s : State) (c k : Nat) (x : Chain) : (s.setChain c k x).chain c k = x := by
  rw [State.chain_setChain, if_pos ⟨rfl, rfl⟩]
theorem Chain.configurable_iff (x : Chain) : x.configurable = true ↔ x.state = .free ∨ x.state = .broken := by
  unfold Chain.configurable; rw [Bool.or_eq_true, decide_eq_true_eq, decide_eq_true_eq]

/-- Settles O41, a word at a time. -/
theorem gearTrainWords : Obligations.GearTrainWords := by
  unfold Obligations.GearTrainWords
  intro s c m f y hr hy k x r goes waits free
  refine ⟨fun team core hi hp hfree hdest => ?send, fun hi hp hfree => ?sendTaken, fun hi => ?dest, fun hi hstate => ?rsv, fun hi hdest hres => ?rsvNone,
    fun hi hstate hcheck => ?asks, fun hi hstate hcheck => ?answered, fun hi => ⟨fun hstate hrem hpoison => ?drained, fun hstate hrem => ?drains⟩,
    fun hi hbroken => ?phase, fun hi hstate hopen => ?relWaits, fun hi hrel => ?rel⟩
  case send =>
    have he := (exec_gtcfgSend s f).trans (seqWord_eq hr hi _)
    have hconf : (!x.configurable) = false := by rw [x.configurable_iff.2 hfree]; rfl
    dsimp only at he
    rw [if_neg (Nat.not_le.2 hp), hconf, hdest] at he
    dsimp only at he
    split
    next hself => rwa [if_pos hself] at he
    next hself =>
      rw [if_neg hself] at he
      exact goes_of_done he ⟨rfl, State.chain_setChain_self ..⟩
  case sendTaken =>
    have he := (exec_gtcfgSend s f).trans (seqWord_eq hr hi _)
    have hconf : (!x.configurable) = true := by rw [Bool.eq_false_iff.2 (mt x.configurable_iff.1 hfree)]; rfl
    dsimp only at he
    rwa [if_neg (Nat.not_le.2 hp), hconf] at he
  case dest =>
    have he := (exec_gtcfgDest s f).trans (seqWord_eq hr hi _)
    dsimp only at he
    split
    next hfree =>
      rw [show (!(s.chain c f.chain.toNat).configurable) = false by rw [(Chain.configurable_iff _).2 hfree]; rfl] at he
      exact goes_of_done he ⟨rfl, State.chain_setChain_self ..⟩
    next hfree =>
      rwa [show (!(s.chain c f.chain.toNat).configurable) = true by rw [Bool.eq_false_iff.2 (mt (Chain.configurable_iff _).1 hfree)]; rfl] at he
  case rsv =>
    intro n rows need
    have he := (exec_gtrsv s f).trans (seqWord_eq hr hi _)
    have hopen : ¬(x.state = .reserved ∧ x.remain ≠ 0) := fun ⟨hres, hrem⟩ => hstate.elim (fun h => by rw [h] at hres; exact absurd hres nofun) (fun h => hrem h.2)
    have hkind : ¬(x.state ≠ .dest ∧ x.state ≠ .reserved) := fun ⟨hd, hres⟩ => hstate.elim hd (fun h => hres h.1)
    dsimp only at he
    rw [if_neg hopen, if_neg hkind] at he
    split
    next hbad => rwa [if_pos hbad] at he
    next hbad =>
      rw [if_neg hbad] at he
      exact goes_of_done he ⟨rfl, State.chain_setChain_self ..⟩
  case rsvNone =>
    have he := (exec_gtrsv s f).trans (seqWord_eq hr hi _)
    dsimp only at he
    rwa [if_neg fun h => hres h.1, if_pos ⟨hdest, hres⟩] at he
  case asks =>
    have he := (exec_gtsend s f).trans (seqWord_eq hr hi _)
    dsimp only at he
    rw [if_neg (not_not_intro (show ((s.idemLost m.team).chain c f.chain.toNat).state = .send from hstate)), hcheck] at he
    exact waits_of_blockStream (check := some 0) he fun _ => rfl
  case answered =>
    have he := (exec_gtsend s f).trans (seqWord_eq hr hi _)
    dsimp only at he
    rw [if_neg (not_not_intro (show ((s.idemLost m.team).chain c f.chain.toNat).state = .send from hstate)), hcheck] at he
    split
    next hfull =>
      rw [show m.xferFull = true from decide_eq_true hfull] at he
      exact waits_of_blockStream (check := m.check) he fun _ => hcheck
    next hfull =>
      rw [show m.xferFull = false from decide_eq_false hfull] at he
      have hdone : ({ m with check := none } : Stream).done = { m.done with check := none } :=
        Stream.done_update (fun m => { m with check := none }) (fun _ _ _ _ _ => rfl) m
      refine goes_of_setStream he ?_ ?_ ⟨rfl, ?_, _, rfl, rfl, rfl, rfl, rfl, rfl⟩
      · rw [hdone]; rfl
      · rw [hdone]; exact m.done_m
      · rw [hdone]
  case drained =>
    have he := (exec_gtdrain s f).trans (seqWord_eq hr hi _)
    dsimp only at he
    rw [hstate] at he
    dsimp only at he
    rw [if_neg (not_not_intro hrem), hpoison] at he
    exact goes_of_done he rfl
  case drains =>
    have he := (exec_gtdrain s f).trans (seqWord_eq hr hi _)
    dsimp only at he
    rw [hstate] at he
    dsimp only at he
    rw [if_pos hrem] at he
    exact waits_of_blocks he
  case phase =>
    have he := (exec_gtdrainPhase s f).trans (seqWord_eq hr hi _)
    dsimp only at he
    rw [State.team?_idemLost hy] at he
    dsimp only at he
    rw [hbroken] at he
    split
    next hwait =>
      rw [hwait.1, decide_eq_false hwait.2] at he
      exact waits_of_blocks he
    next hwait =>
      have hover : (!y.phase.opened || decide (Tbl.getD y.phase.cgt m.pos 0 = 0)) = true := by
        cases hopen : y.phase.opened with
        | false => rfl
        | true => rw [decide_eq_true (not_not.1 fun h => hwait ⟨hopen, h⟩)]; rfl
      rw [hover] at he
      exact goes_of_done he (State.idemLost_mem s m.team)
  case relWaits =>
    have he := (exec_gtrel s f).trans (seqWord_eq hr hi _)
    have hany : (m.xferQ.any (fun q => decide (q.op = 0xDA) && decide (q.chain = f.chain.toNat))
        || (s.idemLost m.team).flits.any (fun r => decide (r.2.sender = m.team) && decide (r.2.spos = m.pos) && decide (r.2.chain = f.chain.toNat))) = true := by
      rw [Bool.or_eq_true, List.any_eq_true, List.any_eq_true]
      refine hopen.imp (fun ⟨q, hq, hop, hk⟩ => ⟨q, hq, ?_⟩) (fun ⟨a, ha, hsender, hpos, hk⟩ => ⟨a, ha, ?_⟩)
      · rw [decide_eq_true hop, decide_eq_true hk]; rfl
      · rw [decide_eq_true hsender, decide_eq_true hpos, decide_eq_true hk]; rfl
    dsimp only at he
    rw [if_pos (show ((s.idemLost m.team).chain c f.chain.toNat).state = .send from hstate), hany] at he
    exact waits_of_blocks he
  case rel =>
    have he := (exec_gtrel s f).trans (seqWord_eq hr hi _)
    dsimp only at he
    by_cases hstate : x.state = .send
    · obtain ⟨hqueue, hflits, hgone, hother⟩ := hrel hstate
      have hany : (m.xferQ.any (fun q => decide (q.op = 0xDA) && decide (q.chain = f.chain.toNat))
          || (s.idemLost m.team).flits.any (fun r => decide (r.2.sender = m.team) && decide (r.2.spos = m.pos) && decide (r.2.chain = f.chain.toNat)))
          = false := by
        rw [Bool.or_eq_false_iff, List.any_eq_false, List.any_eq_false]
        refine ⟨fun q hq h => ?_, fun a ha h => ?_⟩
        · simp only [Bool.and_eq_true, decide_eq_true_eq] at h
          exact hqueue q hq h.1 h.2
        · simp only [Bool.and_eq_true, decide_eq_true_eq] at h
          exact hflits a ha h.1.1 h.1.2 h.2
      rw [if_pos (show ((s.idemLost m.team).chain c f.chain.toNat).state = .send from hstate), hany,
        show ((s.idemLost m.team).chain c f.chain.toNat).refusedGone = false from hgone,
        show ((s.idemLost m.team).chain c f.chain.toNat).refusedOther = false from hother] at he
      exact goes_of_done he ⟨State.idemLost_mem s m.team, State.chain_setChain_self ..⟩
    · rw [if_neg (show ¬((s.idemLost m.team).chain c f.chain.toNat).state = .send from hstate)] at he
      exact goes_of_done he ⟨State.idemLost_mem s m.team, State.chain_setChain_self ..⟩

end Sys2Proof.Machine
end

section
/-! SUPPORT. The Gear train's flits (R405, R410–R413), and the proof of O48. -/

namespace Sys2Proof.Machine

/-! ### What a flit at its destination leaves as it was -/

/-- An arrival changes the saved teams alone, its own team and a counter of an event, or a counter. -/
theorem State.phaseArrive_cases (s : State) (team pos : Nat) (it : PhaseItem) :
    (∃ sv, s.phaseArrive team pos it = { s with saved := sv })
    ∨ (∃ x core, s.phaseArrive team pos it = (s.setTeam team x).pmcCount core 0x1F 1 team)
    ∨ (∃ core, s.phaseArrive team pos it = s.count 1 core 0x11 1) := by
  unfold State.phaseArrive
  cases s.team? team with
  | none =>
    refine .inl ?_
    dsimp only
    split
    · exact ⟨_, rfl⟩
    · exact ⟨s.saved, rfl⟩
  | some t =>
    exact .inr ((ite_eq_or_eq _ _ _).imp (fun h => ⟨_, _, h⟩) (fun h => ⟨_, h⟩))
@[simp] theorem State.phaseArrive_mem (s : State) (team pos : Nat) (it : PhaseItem) : (s.phaseArrive team pos it).mem = s.mem := by
  obtain ⟨sv, h⟩ | ⟨x, core, h⟩ | ⟨core, h⟩ := s.phaseArrive_cases team pos it <;> rw [h]
  · exact State.pmcCount_mem ..
  · rfl
theorem State.chain_of_aside {s t : State} (h : t.aside = s.aside) (c k : Nat) : t.chain c k = s.chain c k := by
  unfold State.chain; rw [Aside.chains h c]
@[simp] theorem State.chain_phaseArrive (s : State) (team pos : Nat) (it : PhaseItem) (c k : Nat) :
    (s.phaseArrive team pos it).chain c k = s.chain c k := by
  obtain ⟨sv, h⟩ | ⟨x, core, h⟩ | ⟨core, h⟩ := s.phaseArrive_cases team pos it <;> rw [h]
  · rfl
  · exact State.chain_of_aside (State.pmcCount_aside ..) c k
  · rfl
@[simp] theorem State.chain_answerFlit (s : State) (n : Nat) (fl : Flit) (a c k : Nat) : (s.answerFlit n fl a).chain c k = s.chain c k := rfl
theorem State.flit?_answerFlit (s : State) (n : Nat) (fl : Flit) (a : Nat) :
    Tbl.get? (s.answerFlit n fl a).flits n = some { fl with answer := some a } := Tbl.get?_set_self ..

/-! ### A sorted chain whose words before the reservation still run -/

theorem State.settleChain_of_closed (s : State) (c k : Nat) (h : s.chainOpen c (s.chain c k) = false) : s.settleChain c k = s := by
  unfold State.settleChain
  exact if_pos (.inr (.inr (by rw [h]; rfl)))

/-! ### Whether a flit is taken (R411–R413) -/

section
variable (s : State) (fl : Flit)

/-- A flit whose destination team was vacated from the core, or whose reservation is BROKEN. -/
def State.flitGone : Prop := s.vacatedFrom fl.dst fl.team = true ∨ (s.holdsTeam fl.dst fl.team = true ∧ (s.chain fl.dst fl.chain).state = .broken)
/-- A flit for a reserved row that awaits one more. -/
def State.flitGood : Prop :=
  let x := s.chain fl.dst fl.chain
  s.holdsTeam fl.dst fl.team = true ∧ x.state = .reserved ∧ x.row0 ≤ fl.row ∧ fl.row ≤ x.row0 + x.nrow ∧ Tbl.getD x.arrived fl.row 0 < x.count

theorem State.flitGone_iff : (s.vacatedFrom fl.dst fl.team || (s.holdsTeam fl.dst fl.team && decide ((s.chain fl.dst fl.chain).state = .broken))) = true
    ↔ s.flitGone fl := by
  rw [Bool.or_eq_true, Bool.and_eq_true, decide_eq_true_eq]; rfl
/-- The test that refuses a flit is the negation of `flitGood`. -/
theorem State.flitRefused_iff : (((!s.holdsTeam fl.dst fl.team) = true ∨ (s.chain fl.dst fl.chain).state ≠ .reserved ∨ fl.row < (s.chain fl.dst fl.chain).row0
    ∨ (s.chain fl.dst fl.chain).row0 + (s.chain fl.dst fl.chain).nrow < fl.row
    ∨ (s.chain fl.dst fl.chain).count ≤ Tbl.getD (s.chain fl.dst fl.chain).arrived fl.row 0)) ↔ ¬s.flitGood fl := by
  unfold State.flitGood
  rw [Bool.not_eq_true', ← Bool.not_eq_true, not_and_or, not_and_or, not_and_or, not_and_or, Nat.not_le, Nat.not_le, Nat.not_lt]
/-- A vacated core holds no such team, and a BROKEN entry is no reservation. -/
theorem State.not_flitGone_of_good (h : s.flitGood fl) : ¬s.flitGone fl := by
  obtain ⟨hholds, hstate, -⟩ := h
  rintro (hvacated | ⟨-, hbroken⟩)
  · unfold State.vacatedFrom at hvacated
    rw [hholds] at hvacated
    exact absurd hvacated nofun
  · rw [hstate] at hbroken
    exact absurd hbroken nofun
end

/-! ### The acknowledgement (R410, R411) -/

theorem Chain.refused_of_send {x : Chain} (h : x.state = .send) (a : Nat) : x.refused a =
    { x with refusedGone := x.refusedGone || decide (a = 1), refusedOther := x.refusedOther || decide (a = 2) } :=
  if_neg (not_not_intro h)

/-- Settles O48, an event at a time. -/
theorem gearTrainEvents : Obligations.GearTrainEvents := by
  unfold Obligations.GearTrainEvents
  intro s
  refine ⟨fun c m cl f hm hcheck hcl hword => ?check, fun n fl hfl hans hfirst => ?arrival, fun n fl a hfl hans => ?ack⟩
  case check =>
    intro x y a
    change execGtCheckAnswer c s = _
    simp only [execGtCheckAnswer, hm, hcheck, hcl, hword, Bool.or_eq_true, Bool.not_eq_true', decide_eq_true_eq]
    rfl
  case arrival =>
    intro x got holds gone answered good
    have hearlier : s.flits.any (fun r => decide (r.1 < n) && r.2.answer.isNone && decide (r.2.sender = fl.sender)
        && decide (r.2.spos = fl.spos) && decide (r.2.chain = fl.chain) && decide (r.2.dst = fl.dst)) = false := by
      rw [List.any_eq_false]
      intro r hr h
      simp only [Bool.and_eq_true, decide_eq_true_eq, Option.isNone_iff_eq_none] at h
      obtain ⟨⟨⟨⟨⟨hn, hnone⟩, hsender⟩, hpos⟩, hk⟩, hdst⟩ := h
      exact hfirst r hr hn hnone hsender hpos hk hdst
    have he : exec (.gtFlitArrival n) s = execGtFlitArrival n s := rfl
    unfold execGtFlitArrival at he
    rw [hfl] at he
    dsimp only at he
    rw [hearlier, show (fl.answer.isSome || false) = false by rw [hans]; rfl, if_neg Bool.false_ne_true] at he
    refine ⟨fun hgone => ?refusedGone, fun hgone hgood => ?refusedOther, fun hgood hsort hopen => ?waits, fun hgood hsort hbad hopen => ?added,
      fun hgood hsort hbad hopen => ?held⟩
    case refusedGone =>
      rw [if_pos ((s.flitGone_iff fl).2 hgone)] at he
      exact ⟨_, he, State.flit?_answerFlit .., by simp⟩
    case refusedOther =>
      rw [if_neg (mt (s.flitGone_iff fl).1 hgone), if_pos ((s.flitRefused_iff fl).2 hgood)] at he
      exact ⟨_, he, State.flit?_answerFlit .., by simp⟩
    all_goals rw [if_neg (mt (s.flitGone_iff fl).1 (s.not_flitGone_of_good fl hgood)), if_neg (fun h => (s.flitRefused_iff fl).1 h hgood)] at he
    case waits =>
      rwa [if_neg (Bool.eq_false_iff.1 hsort), if_pos (by rw [hopen]; rfl)] at he
    case added =>
      rw [if_neg (Bool.eq_false_iff.1 hsort), if_neg (by rw [hopen]; exact Bool.false_ne_true), hbad, if_neg Bool.false_ne_true] at he
      refine ⟨_, he, State.flit?_answerFlit .., ?_, ?_⟩
      · rw [State.answerFlit_mem, State.phaseArrive_mem, if_neg Bool.false_ne_true, State.setChain_mem, State.pmcCount_mem]
      · rw [State.chain_answerFlit, State.chain_phaseArrive, if_neg Bool.false_ne_true, State.chain_setChain_self]
    case held =>
      rw [if_pos hsort, hbad, if_neg Bool.false_ne_true, State.settleChain_of_closed _ _ _ (by rw [State.chain_setChain_self]; exact hopen)] at he
      exact ⟨_, he, State.flit?_answerFlit .., rfl, by rw [State.chain_answerFlit, State.chain_setChain_self]⟩
  case ack =>
    have he : exec (.gtFlitAck n) s = execGtFlitAck n s := rfl
    unfold execGtFlitAck at he
    rw [hfl] at he
    dsimp only at he
    rw [hans] at he
    dsimp only at he
    have hdel : Tbl.get? (Tbl.del s.flits n) n = none := by rw [Tbl.get?_del, if_pos rfl]
    cases hteam : s.team? fl.sender with
    | some x =>
      rw [show State.team? { s with flits := Tbl.del s.flits n } fl.sender = some x from hteam] at he
      refine ⟨_, he, hdel, rfl, fun x' hx' => ?_, fun _ h => absurd h nofun⟩
      obtain rfl := Option.some.inj hx'
      exact fun hsend => (State.chain_setChain_self ..).trans (Chain.refused_of_send hsend a)
    | none =>
      rw [show State.team? { s with flits := Tbl.del s.flits n } fl.sender = none from hteam] at he
      dsimp only at he
      cases hsaved : Tbl.get? s.saved fl.sender with
      | none =>
        rw [hsaved] at he
        exact ⟨_, he, hdel, rfl, fun _ h => absurd h nofun, fun _ _ h => absurd h nofun⟩
      | some x =>
        rw [hsaved] at he
        refine ⟨_, he, hdel, rfl, fun _ h => absurd h nofun, fun x' _ hx' => ⟨_, Tbl.get?_set_self .., ?_⟩⟩
        obtain rfl := Option.some.inj hx'
        exact ⟨rfl, List.length_map ..⟩

end Sys2Proof.Machine
end

section
/-! SUPPORT. Tuples at their home slice (R390–R402), and the proof of O49. -/

namespace Sys2Proof.Machine

/-! ### The requests that wait at a slice (R397, R400) -/

/-- A row no filter takes, before as after, may change. -/
theorem Tbl.filter_set_of_neither {α : Type} {p : Nat × α → Bool} {t : Tbl α} {n : Nat} {x : α} (hx : p (n, x) = false)
    (hold : ∀ v, Tbl.get? t n = some v → p (n, v) = false) : (Tbl.set t n x).filter p = t.filter p := by
  induction t with
  | nil => exact (List.filter_cons_of_neg (Bool.eq_false_iff.1 hx)).trans rfl
  | cons a t ih =>
    obtain ⟨k, v⟩ := a
    unfold Tbl.set
    by_cases hk : n = k
    · subst hk
      rw [if_pos rfl, List.filter_cons_of_neg (Bool.eq_false_iff.1 hx),
        List.filter_cons_of_neg (Bool.eq_false_iff.1 (hold v (if_pos rfl)))]
    · rw [if_neg hk]
      split
      · rw [List.filter_cons_of_neg (Bool.eq_false_iff.1 hx)]
      · rw [List.filter_cons, List.filter_cons, ih fun v' hv' => hold v' ((if_neg hk).trans hv')]

/-- A fold whose every step gives an element gives one. -/
theorem foldl_isSome {α β : Type} {f : Option β → α → Option β} (hf : ∀ b a, (f b a).isSome = true) {l : List α} (hl : l ≠ []) (b : Option β) :
    (l.foldl f b).isSome = true := by
  obtain ⟨l, a, rfl⟩ := (List.eq_nil_or_concat l).resolve_left hl
  rw [List.concat_eq_append, List.foldl_concat]
  exact hf _ _

section
variable (s : State)

/-- No request is parked at a slice. -/
theorem State.parked_eq_nil_iff (h : Nat) : s.parked h = [] ↔ ∀ r ∈ s.treqs, r.2.slice = h → r.2.parkStamp = none := by
  have hiff : s.treqs.filter (fun r => decide (r.2.slice = h) && r.2.parkStamp.isSome) = []
      ↔ ∀ r ∈ s.treqs, r.2.slice = h → r.2.parkStamp = none := by
    simp only [List.filter_eq_nil_iff, Bool.and_eq_true, decide_eq_true_eq, not_and, Bool.not_eq_true, Option.isSome_eq_false_iff, Option.isNone_iff_eq_none]
  rw [← hiff]
  unfold State.parked
  generalize s.treqs.filter (fun r => decide (r.2.slice = h) && r.2.parkStamp.isSome) = ps
  refine ⟨fun hnil => ?_, fun hnil => by rw [hnil]; rfl⟩
  by_contra hps
  obtain ⟨a, ps, rfl⟩ := List.exists_cons_of_ne_nil hps
  dsimp only at hnil
  rw [List.length_cons, List.range_succ, List.foldl_concat] at hnil
  generalize (List.range ps.length).foldl _ _ = acc at hnil
  split at hnil
  next => exact absurd hnil (List.append_ne_nil_of_right_ne_nil acc (List.cons_ne_nil _ _))
  next hnone =>
    rw [hnil, show (a :: ps).filter (fun r => !([] : List (Nat × TReq)).any fun a => decide (a.1 = r.1)) = a :: ps from
      List.filter_eq_self.2 fun _ _ => rfl] at hnone
    refine Option.isSome_iff_ne_none.1 (foldl_isSome (fun b r => ?_) (List.cons_ne_nil a ps) none) hnone
    cases b with
    | none => rfl
    | some x => dsimp only; split <;> rfl

/-- The deposit that has waited longest is one that waits at the slice. -/
theorem State.nextWaiting_spec {h r : Nat} {t : TReq} (hn : s.nextWaiting h = some (r, t)) : t.slice = h ∧ ∃ n, t.stage = .waitingFull n := by
  unfold State.nextWaiting at hn
  obtain ⟨x, hx, hrt⟩ := Option.map_eq_some_iff.1 hn
  obtain rfl : x.2.1 = t := congrArg Prod.snd hrt
  revert hx
  refine List.foldlRecOn (motive := fun b => b = some x → x.2.1.slice = h ∧ ∃ n, x.2.1.stage = .waitingFull n) _ _ nofun fun b hb a ha hx => ?_
  obtain ⟨-, ha⟩ := List.mem_filter.1 ha
  have hslice : a.2.slice = h := of_decide_eq_true (Bool.and_eq_true_iff.1 ha).1
  split at hx
  next n hstage =>
    obtain rfl := Option.some.inj hx
    exact ⟨hslice, n, hstage⟩
  next n y hstage =>
    split at hx
    · obtain rfl := Option.some.inj hx
      exact ⟨hslice, n, hstage⟩
    · exact hb hx
  next => exact hb hx
/-- A change of a request that waits neither before nor after it. -/
theorem State.nextWaiting_updTreq {r : Nat} {t : TReq} {g : TReq → TReq} (ht : Tbl.get? s.treqs r = some t) (hold : ∀ n, t.stage ≠ .waitingFull n)
    (hnew : ∀ n, (g t).stage ≠ .waitingFull n) (h : Nat) : (s.updTreq r g).nextWaiting h = s.nextWaiting h := by
  unfold State.nextWaiting State.updTreq Tbl.upd
  rw [ht]
  dsimp only
  rw [Tbl.filter_set_of_neither]
  · rw [Bool.and_eq_false_iff]
    right
    split
    next n hs => exact absurd hs (hnew n)
    next => rfl
  · intro v hv
    obtain rfl := Option.some.inj (ht.symm.trans hv)
    rw [Bool.and_eq_false_iff]
    right
    split
    next n hs => exact absurd hs (hold n)
    next => rfl
theorem State.nextWaiting_of_treqs {u : State} (hu : u.treqs = s.treqs) (hck : u.ck = s.ck) (h : Nat) : u.nextWaiting h = s.nextWaiting h := by
  unfold State.nextWaiting
  rw [hu, hck]
theorem State.parked_of_treqs {u : State} (hu : u.treqs = s.treqs) (h : Nat) : u.parked h = s.parked h := by
  unfold State.parked
  rw [hu]
/-- A request that is not parked after its change parks nothing. -/
theorem State.parked_updTreq {r : Nat} {t : TReq} {g : TReq → TReq} {h : Nat} (hp : s.parked h = []) (ht : Tbl.get? s.treqs r = some t)
    (hnew : (g t).parkStamp = none) : (s.updTreq r g).parked h = [] := by
  rw [State.parked_eq_nil_iff] at hp ⊢
  intro x hx hslice
  unfold State.updTreq Tbl.upd at hx
  rw [ht] at hx
  obtain rfl | hx := Tbl.mem_set hx
  · exact hnew
  · exact hp x hx hslice

/-! ### A request's end at the slice (R394) -/

@[simp] theorem State.endTreq_aside (r : Nat) (t : TReq) (status : Nat) (g : TReq → TReq) :
    (s.endTreq r t status g).aside = (s.updTreq r (fun t => { g t with stage := .ended status })).aside := by
  unfold State.endTreq
  dsimp only
  split
  · rfl
  · exact State.updWave_aside ..
theorem State.serveTuple_aside (r : Nat) (t : TReq) (words : List W64) (bad : Bool) :
    (s.serveTuple r t words bad).aside = (s.updTreq r (fun t => { t with got := words, gotBad := bad, stage := .ended 0 })).aside :=
  (State.pmcCount_aside ..).trans ((State.count_aside ..).trans (State.endTreq_aside ..))
theorem State.treq?_endTreq {r : Nat} {t x : TReq} (hx : Tbl.get? s.treqs r = some x) (status : Nat) (g : TReq → TReq) :
    Tbl.get? (s.endTreq r t status g).treqs r = some { g x with stage := .ended status } := by
  rw [Aside.treqs (State.endTreq_aside s r t status g), Tbl.get?_updTreq, if_pos rfl, hx]; rfl
theorem State.tuples_endTreq (r : Nat) (t : TReq) (status : Nat) (g : TReq → TReq) (h : Nat) :
    ((s.endTreq r t status g).slice h).tuples = (s.slice h).tuples := Aside.tuples (State.endTreq_aside s r t status g) h

/-! ### A deposit's end (R364, R396) -/

theorem State.endDeposit_of_dep {t : TReq} (h : t.op = .dep) (r status fault : Nat) :
    s.endDeposit r t status fault = s.endTreq r t status (fun t => { t with fault := fault }) := by
  unfold State.endDeposit; rw [h]
/-- The end of an ECPL's deposit without a fault ends its command. -/
theorem State.endDeposit_of_ecpl {t : TReq} {n : Nat} (h : t.op = .ecpl n) (r : Nat) : s.endDeposit r t 0 0 =
    { s with treqs := Tbl.del s.treqs r, cmds := Tbl.upd s.cmds n (fun c => { c with stage := .done }) }.pmcCount t.agent.core 0x20 1 t.team := by
  unfold State.endDeposit; rw [h]; exact if_pos rfl

/-! ### A tuple is stored (R19, R390, R396) -/

/-- The tuple of a deposit at the end of its slice's. -/
def State.storeTuple (t : TReq) : State :=
  let q := s.slice t.slice
  ((s.setSlice t.slice { q with
      depStamp := q.depStamp + 1, tuples := q.tuples ++ [(⟨t.bag, t.uniq, q.depStamp, t.data, []⟩ : Tuple)] }).sliceTrim t.slice 0).count 3 t.slice 0x30 1
theorem State.storeTuple_aside (t : TReq) : (s.storeTuple t).aside = (s.setSlice t.slice { s.slice t.slice with
    depStamp := (s.slice t.slice).depStamp + 1
    tuples := (s.slice t.slice).tuples ++ [(⟨t.bag, t.uniq, (s.slice t.slice).depStamp, t.data, []⟩ : Tuple)] }).aside :=
  (State.count_aside ..).trans (State.sliceTrim_aside ..)
theorem State.tuples_storeTuple (t : TReq) : ((s.storeTuple t).slice t.slice).tuples =
    (s.slice t.slice).tuples ++ [(⟨t.bag, t.uniq, (s.slice t.slice).depStamp, t.data, []⟩ : Tuple)] := by
  rw [Aside.tuples (s.storeTuple_aside t), State.slice_setSlice_self]
theorem State.treqs_storeTuple (t : TReq) : (s.storeTuple t).treqs = s.treqs := (Aside.treqs (s.storeTuple_aside t) :)
theorem State.sliceTrim_of_fits {h spare : Nat} (hfits : (s.sliceLines h).length + spare ≤ s.sliceRoom h) : s.sliceTrim h spare = s := by
  unfold State.sliceTrim
  rw [Nat.sub_eq_zero_of_le hfits]; rfl
/-- A tuple takes at most a line of its slice's 16 MiB. -/
theorem State.storeTuple_mem {t : TReq} (hfits : (s.sliceLines t.slice).length + 1 ≤ s.sliceRoom t.slice) : (s.storeTuple t).mem = s.mem := by
  unfold State.storeTuple
  dsimp only
  rw [State.sliceTrim_of_fits]
  · rfl
  · unfold State.sliceRoom at hfits ⊢
    rw [State.slice_setSlice_self]
    change (s.sliceLines t.slice).length + 0 ≤ 131072 - 24 * (s.tiles.filter _).length - (((s.slice t.slice).tuples ++ [_]).length + 1) / 2
      - (s.mem.replicas.filter _).length
    rw [List.length_append, List.length_singleton]
    omega
/-- No phase watches the bag of a slice without watches (R474). -/
theorem State.watchDeposit_of_none {h : Nat} (hw : (s.slice h).watches = []) (bag : Nat) (tag : W64) : s.watchDeposit h bag tag = s := by
  unfold State.watchDeposit; rw [hw]; rfl
/-- With no request parked and no watch at the slice a deposit is stored and ends. -/
theorem State.depositSteps_of_idle {t : TReq} (hp : s.parked t.slice = []) (hw : (s.slice t.slice).watches = []) (r : Nat) :
    s.depositSteps r t = (s.storeTuple t).endDeposit r t 0 0 := by
  have hwatch : ((s.storeTuple t).slice t.slice).watches = [] := by
    rw [Aside.watches (s.storeTuple_aside t), State.slice_setSlice_self]; exact hw
  unfold State.depositSteps
  dsimp only
  rw [hp]
  exact congrArg (fun u => u.endDeposit r t 0 0) (State.watchDeposit_of_none _ hwatch ..)

/-! ### Room at a slice (R400) -/

theorem State.makeRoomAt_of_none {h : Nat} (hn : s.nextWaiting h = none) : s.makeRoomAt h = s := by
  unfold State.makeRoomAt
  cases s.treqs.length with
  | zero => rfl
  | succ n =>
    unfold State.roomAt
    rw [hn]
    exact ite_self s
theorem State.roomAt_of_full {h : Nat} (hfull : 65536 ≤ (s.slice h).tuples.length) (n : Nat) : State.roomAt n s h = s := by
  cases n with
  | zero => rfl
  | succ n => exact if_pos hfull
theorem State.duplicate_of_plain {t : TReq} (hu : t.uniq = false) : s.duplicate t = false := by
  unfold State.duplicate; rw [hu]; rfl
/-- The deposit that waits longest takes the last place. -/
theorem State.makeRoomAt_of_last {h r : Nat} {t : TReq} (hn : s.nextWaiting h = some (r, t)) (hlen : (s.slice h).tuples.length = 65535)
    (hop : t.op = .dep) (huniq : t.uniq = false) (hp : s.parked h = []) (hw : (s.slice h).watches = []) (htreqs : 0 < s.treqs.length) :
    s.makeRoomAt h = (s.storeTuple t).endTreq r t 0 (fun t => { t with fault := 0 }) := by
  obtain ⟨rfl, -⟩ := s.nextWaiting_spec hn
  have hsteps : s.depositSteps r t = (s.storeTuple t).endTreq r t 0 (fun t => { t with fault := 0 }) :=
    (s.depositSteps_of_idle hp hw r).trans (State.endDeposit_of_dep _ hop r 0 0)
  unfold State.makeRoomAt
  obtain ⟨n, hlength⟩ := Nat.exists_eq_succ_of_ne_zero htreqs.ne'
  rw [hlength]
  unfold State.roomAt
  rw [if_neg (by omega), hn]
  dsimp only
  rw [s.duplicate_of_plain huniq, if_neg Bool.false_ne_true, hsteps, State.roomAt_of_full]
  rw [State.tuples_endTreq, s.tuples_storeTuple, List.length_append, hlen]
  rfl

/-! ### A deposit at its slice (R396, R400) -/

theorem State.depositAt_of_room {t : TReq} (hu : t.uniq = false) (hlen : (s.slice t.slice).tuples.length < 65536) (r : Nat) :
    s.depositAt r t = s.depositSteps r t := by
  unfold State.depositAt
  dsimp only
  rw [s.duplicate_of_plain hu, if_neg Bool.false_ne_true, decide_eq_false (Nat.not_le.2 hlen), Bool.false_and, if_neg Bool.false_ne_true]
/-- No parked take waits for what a deposit to a full slice brings. -/
theorem State.depositAt_of_full {t : TReq} (hu : t.uniq = false) (hp : s.parked t.slice = []) (hlen : 65536 ≤ (s.slice t.slice).tuples.length)
    (r : Nat) : s.depositAt r t = s.updTreq r (fun t => { t with stage := .waitingFull s.ck }) := by
  unfold State.depositAt
  dsimp only
  rw [s.duplicate_of_plain hu, if_neg Bool.false_ne_true, hp, decide_eq_true hlen]
  rfl

/-! ### A request arrives (R390, R394, R396, R402) -/

/-- A slice without a bad tag reads a bag as it is. -/
theorem State.readBag_of_good {h : Nat} (hgood : ∀ x ∈ (s.slice h).tuples, 0 ∉ x.bad) (bag : Nat) : s.readBag h bag = s := by
  have hdrop : s.dropBadTags h bag = s := by
    unfold State.dropBadTags
    dsimp only
    rw [List.filter_eq_nil_iff.2 fun x hx h => hgood x hx (of_decide_eq_true (Bool.and_eq_true_iff.1 h).2)]
    rfl
  unfold State.readBag
  dsimp only
  rw [hdrop]
  exact if_neg (Nat.lt_irrefl _)
/-- The slice without the tuple a take is served with. -/
def State.takeTuple (t : TReq) (x : Tuple) : State :=
  if t.op = .take ∨ t.op = .taken then
    s.setSlice t.slice { s.slice t.slice with tuples := (s.slice t.slice).tuples.filter (fun y => !decide (y.stamp = x.stamp)) }
  else s
theorem State.treqs_takeTuple (t : TReq) (x : Tuple) : (s.takeTuple t x).treqs = s.treqs := by unfold State.takeTuple; split <;> rfl
theorem State.ck_takeTuple (t : TReq) (x : Tuple) : (s.takeTuple t x).ck = s.ck := by unfold State.takeTuple; split <;> rfl
theorem State.tuples_takeTuple (t : TReq) (x : Tuple) : ((s.takeTuple t x).slice t.slice).tuples =
    if t.op = .take ∨ t.op = .taken then (s.slice t.slice).tuples.filter (fun y => !decide (y.stamp = x.stamp)) else (s.slice t.slice).tuples := by
  unfold State.takeTuple
  split
  · rw [State.slice_setSlice_self]
  · rfl
theorem State.watches_takeTuple (t : TReq) (x : Tuple) : ((s.takeTuple t x).slice t.slice).watches = (s.slice t.slice).watches := by
  unfold State.takeTuple
  split
  · rw [State.slice_setSlice_self]
  · rfl
theorem State.depStamp_takeTuple (t : TReq) (x : Tuple) : ((s.takeTuple t x).slice t.slice).depStamp = (s.slice t.slice).depStamp := by
  unfold State.takeTuple
  split
  · rw [State.slice_setSlice_self]
  · rfl
end

section
variable {s s1 : State} {r : Nat} {t : TReq} (ht : Tbl.get? s.treqs r = some t) (hstage : t.stage = .travelling) (hflow : s.flowFirst r t = true)
  (hsend : s.tupleMaySend r t = some s1) (hgood : ∀ x ∈ (s1.slice t.slice).tuples, 0 ∉ x.bad)
include ht hstage hflow hsend hgood

theorem tupleDeposit_arrives (hop : t.op.deposit = true) : exec (.tupleDeposit r) s = .next (s1.depositAt r t) := by
  rw [exec_tupleDeposit]
  unfold execTupleDeposit
  simp only [ht, hop, hstage, hsend, hflow, Bool.not_true, Bool.false_eq_true, if_false, if_true, State.readBag_of_good s1 hgood]
theorem tupleMatch_serves (hop : t.op.deposit = false) {x : Tuple}
    (hfind : (s1.slice t.slice).tuples.find? (fun x => decide (x.bag = t.bag) && fitsPattern x.read t.data) = some x) :
    exec (.tupleMatch r) s = .next (((s1.takeTuple t x).serveTuple r t x.read (!x.bad.isEmpty)).makeRoomAt t.slice) := by
  rw [exec_tupleMatch]
  unfold execTupleMatch
  simp only [ht, hop, hstage, hsend, hflow, Bool.not_true, decide_true, Bool.or_false, Bool.false_eq_true, if_false, State.readBag_of_good s1 hgood, hfind]
  rfl
theorem tupleMatch_finds_none (hop : t.op.deposit = false)
    (hfind : (s1.slice t.slice).tuples.find? (fun x => decide (x.bag = t.bag) && fitsPattern x.read t.data) = none) :
    exec (.tupleMatch r) s = .next (if t.op = .cpyn ∨ t.op = .taken then s1.endTreq r t 1 id else s1.parkTuple r t) := by
  rw [exec_tupleMatch]
  unfold execTupleMatch
  simp only [ht, hop, hstage, hsend, hflow, Bool.not_true, decide_true, Bool.or_false, Bool.false_eq_true, if_false, State.readBag_of_good s1 hgood, hfind]
  split <;> rfl
end

/-- What is left of a request served with a tuple, before its slice makes room. -/
theorem State.serveTuple_leaves {s1 : State} {r : Nat} {t : TReq} {x : Tuple} (ht : Tbl.get? s1.treqs r = some t) (hstage : t.stage = .travelling) :
    let u := (s1.takeTuple t x).serveTuple r t x.read (!x.bad.isEmpty)
    u.treqs = Tbl.set s1.treqs r { t with stage := .ended 0, got := x.read, gotBad := !x.bad.isEmpty }
    ∧ u.nextWaiting t.slice = s1.nextWaiting t.slice ∧ (s1.parked t.slice = [] → u.parked t.slice = [])
    ∧ (u.slice t.slice).tuples = ((s1.takeTuple t x).slice t.slice).tuples ∧ (u.slice t.slice).watches = (s1.slice t.slice).watches
    ∧ (u.slice t.slice).depStamp = (s1.slice t.slice).depStamp := by
  intro u
  have hu := (s1.takeTuple t x).serveTuple_aside r t x.read (!x.bad.isEmpty)
  have ht' : Tbl.get? (s1.takeTuple t x).treqs r = some t := by rw [s1.treqs_takeTuple]; exact ht
  refine ⟨?_, ?_, fun hp => ?_, Aside.tuples hu _, (Aside.watches hu _).trans (s1.watches_takeTuple t x),
    (Aside.depStamp hu _).trans (s1.depStamp_takeTuple t x)⟩
  · rw [Aside.treqs hu]
    unfold State.updTreq Tbl.upd
    rw [ht', s1.treqs_takeTuple]
  · rw [State.nextWaiting_of_treqs _ (Aside.treqs hu) (Aside.ck hu), State.nextWaiting_updTreq _ ht' (fun n h => ?_) (fun n h => TStage.noConfusion h),
      State.nextWaiting_of_treqs _ (s1.treqs_takeTuple t x) (s1.ck_takeTuple t x)]
    rw [hstage] at h
    exact nomatch h
  · rw [State.parked_of_treqs _ (Aside.treqs hu)]
    exact State.parked_updTreq _ ((State.parked_of_treqs _ (s1.treqs_takeTuple t x) _).trans hp) ht' rfl

/-- What is left of a request that fits no tuple and blocks. -/
theorem State.parkTuple_leaves {s : State} {r : Nat} {t : TReq} (ht : Tbl.get? s.treqs r = some t) :
    Tbl.get? (s.parkTuple r t).treqs r = some { t with
      stage := if (s.parked t.slice).length < 4096 then .parked (s.slice t.slice).parkStamp
        else if t.cancelled then .ended 2 else if t.timedOut then .ended 3 else .retrying s.ck }
    ∧ ((s.parkTuple r t).slice t.slice).tuples = (s.slice t.slice).tuples := by
  unfold State.parkTuple
  dsimp only
  by_cases hfull : 4096 ≤ (s.parked t.slice).length
  · rw [if_pos hfull, if_neg (Nat.not_lt.2 hfull)]
    exact ⟨by rw [Tbl.get?_updTreq, if_pos rfl, show Tbl.get? (s.count 3 t.slice 0x33 1).treqs r = some t from ht]; rfl, rfl⟩
  · rw [if_neg hfull, if_pos (Nat.not_le.1 hfull)]
    constructor
    · rw [Aside.treqs (State.pmcCount_aside ..)]
      refine (Tbl.get?_updTreq ..).trans ?_
      rw [if_pos rfl, show Tbl.get? (s.setSlice t.slice _).treqs r = some t from ht]
      rfl
    · rw [Aside.tuples (State.pmcCount_aside ..)]
      change ((s.setSlice t.slice _).slice t.slice).tuples = _
      rw [State.slice_setSlice_self]
/-- An event that does no more than change its request. -/
theorem leaves_of_updTreq {s : State} {r : Nat} {t : TReq} {i : Instr} {g : TReq → TReq} (ht : Tbl.get? s.treqs r = some t)
    (he : exec i s = .next (s.updTreq r g)) : ∃ s', exec i s = .next s' ∧ Tbl.get? s'.treqs r = some (g t) ∧ s'.mem = s.mem :=
  ⟨_, he, by rw [Tbl.get?_updTreq, if_pos rfl, ht]; rfl, rfl⟩

/-- Settles O49, an event at a time. -/
theorem tupleEvents : Obligations.TupleEvents := by
  unfold Obligations.TupleEvents
  intro s r t ht h now
  refine ⟨?arrives, fun since hstage => ?retry, fun hgone hstage => ?cancel, fun d hd hopen hcancel => ?timeout, fun since hop hstage => ?tsFull⟩
  case arrives =>
    intro s1 hstage hflow hsend ht1 hgood fits
    refine ⟨fun hop huniq hp hw hlen => ?dep, fun n hop huniq hp hw hlen => ?ecpl, fun hop huniq hp hlen => ?full, ?found, fun hop hfind => ?unmatched⟩
    case dep =>
      have he := tupleDeposit_arrives ht hstage hflow hsend hgood (by rw [hop]; rfl)
      rw [s1.depositAt_of_room huniq hlen, s1.depositSteps_of_idle hp hw, State.endDeposit_of_dep _ hop] at he
      refine ⟨_, he, State.treq?_endTreq _ (by rw [s1.treqs_storeTuple]; exact ht1) .., ?_, fun hfits => ?_⟩
      · rw [State.tuples_endTreq, s1.tuples_storeTuple, huniq]
      · rw [State.endTreq_mem, s1.storeTuple_mem hfits]
    case ecpl =>
      have he := tupleDeposit_arrives ht hstage hflow hsend hgood (by rw [hop]; rfl)
      rw [s1.depositAt_of_room huniq hlen, s1.depositSteps_of_idle hp hw, State.endDeposit_of_ecpl _ hop] at he
      have ha := State.pmcCount_aside { s1.storeTuple t with
        treqs := Tbl.del (s1.storeTuple t).treqs r, cmds := Tbl.upd (s1.storeTuple t).cmds n (fun c => { c with stage := .done }) } t.agent.core 0x20 1 t.team
      refine ⟨_, he, ?_, ?_, fun hfits => ?_, ?_⟩
      · rw [Aside.treqs ha, Tbl.get?_del, if_pos rfl]
      · rw [Aside.tuples ha]
        exact (s1.tuples_storeTuple t).trans (by rw [huniq])
      · rw [State.pmcCount_mem]
        exact s1.storeTuple_mem hfits
      · rw [Aside.cmds ha, Tbl.get?_upd, if_pos rfl, Aside.cmds (s1.storeTuple_aside t)]
        rfl
    case full =>
      have he := tupleDeposit_arrives ht hstage hflow hsend hgood hop
      rw [s1.depositAt_of_full huniq hp hlen] at he
      exact ⟨_, he, (Tbl.get?_updTreq ..).trans (by rw [if_pos rfl, ht1]; rfl), rfl, rfl⟩
    case found =>
      intro x hop hfind rest
      have he := tupleMatch_serves ht hstage hflow hsend hgood hop hfind
      obtain ⟨htreqs, hnext', hp', htuples, hw', hstamp⟩ := State.serveTuple_leaves (x := x) ht1 hstage
      refine ⟨fun hnone => ?served, fun r2 t2 hnext ht2 hop2 huniq2 htake hlen hp hw => ?room⟩
      case served =>
        rw [State.makeRoomAt_of_none _ (hnext'.trans hnone)] at he
        exact ⟨_, he, (congrArg (Tbl.get? · r) htreqs).trans (Tbl.get?_set_self ..), htuples.trans (s1.tuples_takeTuple t x)⟩
      case room =>
        obtain ⟨hslice, n, hwaits⟩ := s1.nextWaiting_spec hnext
        have hrest := htuples.trans ((s1.tuples_takeTuple t x).trans (if_pos htake))
        have hr2 : r2 ≠ r := by
          rintro rfl
          obtain rfl := Option.some.inj (ht1.symm.trans ht2)
          rw [hstage] at hwaits
          exact nomatch hwaits
        generalize (s1.takeTuple t x).serveTuple r t x.read (!x.bad.isEmpty) = u at he htreqs hnext' hp' hw' hstamp hrest
        have ht2' : Tbl.get? u.treqs r2 = some t2 := by rw [htreqs, Tbl.get?_set_ne _ _ hr2]; exact ht2
        rw [u.makeRoomAt_of_last (hnext'.trans hnext) (by rw [hrest]; exact hlen) hop2 huniq2 (hp' hp) (hw'.trans hw)
          (List.length_pos_of_mem (Tbl.mem_of_get? ht2'))] at he
        refine ⟨_, he, State.treq?_endTreq _ (by rw [u.treqs_storeTuple]; exact ht2') .., ?_⟩
        rw [State.tuples_endTreq, show h = t2.slice from hslice.symm, u.tuples_storeTuple, hslice, hrest, hstamp, huniq2]
    case unmatched =>
      have he := tupleMatch_finds_none ht hstage hflow hsend hgood hop hfind
      split at he
      next hends =>
        exact ⟨_, _, he, State.treq?_endTreq s1 ht1 1 id, s1.tuples_endTreq .., by rw [if_pos hends]; rfl⟩
      next hparks =>
        obtain ⟨hreq, htuples⟩ := State.parkTuple_leaves ht1
        exact ⟨_, _, he, hreq, htuples, by rw [if_neg hparks]⟩
  case retry =>
    have he : exec (.tupleRetry r) s = execTupleRetry r s := rfl
    unfold execTupleRetry at he
    simp only [ht, hstage] at he
    split
    next hdue => exact leaves_of_updTreq ht (he.trans (if_pos hdue))
    next hdue => rwa [if_neg hdue] at he
  case cancel =>
    have he : exec (.tupleCancel r) s = execTupleCancel r s := rfl
    unfold execTupleCancel at he
    rw [ht] at he
    refine leaves_of_updTreq ht (he.trans (if_pos ?_))
    rw [Bool.and_eq_true, Bool.or_eq_true, Bool.or_eq_true]
    exact ⟨hgone, hstage⟩
  case timeout =>
    have he : exec (.tupleTimeout r) s = execTupleTimeout r s := rfl
    unfold execTupleTimeout at he
    simp only [ht, hd] at he
    split
    next hdue => exact leaves_of_updTreq ht (he.trans (if_pos ⟨hdue, hopen, by rw [hcancel]; rfl⟩))
    next hdue => rwa [if_neg fun h => hdue h.1] at he
  case tsFull =>
    have he : exec (.tsFull r) s = execTsFull r s := rfl
    unfold execTsFull at he
    simp only [ht, hstage] at he
    split
    next hdue =>
      rw [if_pos hdue, State.endDeposit_of_dep _ hop] at he
      exact ⟨_, he, State.treq?_endTreq _ (show Tbl.get? (s.count 3 t.slice 0x35 1).treqs r = some t from ht) .., State.endTreq_mem ..⟩
    next hdue => rwa [if_neg hdue] at he

end Sys2Proof.Machine
end

section
/-! SUPPORT. Engine commands and LAUNCH (R362–R377), and the proof of O46. -/

namespace Sys2Proof.Machine

section
variable (s : State)

/-! ### The end of a command (R364, R365) -/

@[simp] theorem State.deferSaved_buffers (c k team : Nat) (r : PendRec) : (s.deferSaved c k team r).buffers = s.buffers := by
  unfold State.deferSaved
  split
  · rfl
  · split
    · rfl
    · split
      · rfl
      · split <;> rfl
@[simp] theorem State.pendFault_buffers (c k : Nat) (r : PendRec) : (s.pendFault c k r).buffers = s.buffers := by
  unfold State.pendFault
  split
  · rfl
  · split <;> rfl
@[simp] theorem State.deferTo_buffers (a : Agent) (team : Nat) (r : PendRec) : (s.deferTo a team r).buffers = s.buffers := by
  unfold State.deferTo
  split
  · split
    · split
      · split
        · rfl
        · exact State.pendFault_buffers ..
      · exact State.deferSaved_buffers ..
    · exact State.deferSaved_buffers ..
  · rfl
/-- A command that ends with a fault, or without a completion action, is done; its fault goes to its wave, and its channels stay. -/
theorem State.finishCmd_done (id : Nat) {c : Cmd} (hecpl : c.ecpl = none) (fault : Option PendRec) :
    ∃ u : State, s.finishCmd id c fault = { u with cmds := Tbl.set u.cmds id { c with stage := .done, tags := 0, ecpl := none } }
      ∧ u.teams = s.teams ∧ u.buffers = s.buffers ∧ (fault = none → u.aside = s.aside ∧ u.waves = s.waves) := by
  have hcount : (if c.kind.engine then s.pmcCount c.agent.core 0x15 1 c.team else s).aside = s.aside := by
    split
    · exact State.pmcCount_aside ..
    · rfl
  have hwaves : (if c.kind.engine then s.pmcCount c.agent.core 0x15 1 c.team else s).waves = s.waves := by
    split
    · exact State.pmcCount_waves ..
    · rfl
  unfold State.finishCmd
  dsimp only
  cases fault with
  | some r => exact ⟨_, rfl, (State.deferTo_teams ..).trans (Aside.teams hcount), (State.deferTo_buffers ..).trans (Aside.buffers hcount), nofun⟩
  | none => rw [hecpl]; exact ⟨_, rfl, Aside.teams hcount, Aside.buffers hcount, fun _ => ⟨hcount, hwaves⟩⟩

/-! ### Tags (R26) -/

theorem State.choose_succ_le (idx n : Nat) : 1 + s.choose idx n ≤ max 1 n := by
  obtain rfl | hn := Nat.eq_zero_or_pos n
  · exact Nat.le_refl 1
  · have := s.choose_lt idx hn; omega

/-- A fold that counts its steps. -/
theorem foldl_counts {α β : Type} {f : β → α → β} {g : β → Nat} (h : ∀ b a, g (f b a) = g b + 1) (l : List α) (b : β) :
    g (l.foldl f b) = g b + l.length := by
  induction l generalizing b with
  | nil => rfl
  | cons a l ih => rw [List.foldl_cons, ih, h, List.length_cons, Nat.add_assoc, Nat.add_comm 1]

theorem State.wantsTag_of_held {c : Cmd} (h : c.tags ≠ 0) : s.wantsTag c = false := by
  unfold State.wantsTag; rw [decide_eq_false h]; rfl
/-- A command without a completion action that is no IDXWALK needs no translation after it fired. -/
theorem Cmd.translates_of_plain {c : Cmd} (hecpl : c.ecpl = none) (hkind : ∀ d, c.kind ≠ .idxwalk d) : c.translates = false := by
  unfold Cmd.translates
  rw [hecpl]
  split
  next d h => exact absurd h (hkind d)
  next => rfl

/-! ### What the engines' accesses leave as it was -/

@[simp] theorem State.engWrite_aside (core : Nat) (ps : List EngPage) (va : W64) (bs : List Byte) : (s.engWrite core ps va bs).aside = s.aside := by
  unfold State.engWrite
  exact foldl_pred (P := fun r : State × Nat => r.1.aside = s.aside)
    (fun r p hr => ((State.homeWriteBytes_aside ..).trans (State.colEvict_aside ..)).trans hr) _ rfl
theorem State.engReads_teams (core : Nat) (ps : List EngPage) (ranges : List (W64 × Nat)) : (s.engReads core ps ranges).s.teams = s.teams := by
  unfold State.engReads
  refine foldl_pred (P := fun r : EngRead => r.s.teams = s.teams) (fun r p hr => ?_) _ ?_
  · exact (State.engRead_teams ..).trans hr
  · rfl
/-- Inputs without an error in the stores are taken as they are. -/
theorem State.takeInputs_of_good (hgood : s.mem.bad = []) (c : Cmd) (n : Nat) : s.takeInputs c n = (s, none) := by
  unfold State.takeInputs
  split
  · rfl
  · refine if_neg (Bool.eq_false_iff.1 (List.any_eq_false.2 fun e _ h => ?_))
    unfold State.elemBad State.badIn at h
    rw [hgood] at h
    exact nomatch h
theorem State.cpyoutWork_of_good (hgood : s.mem.bad = []) (c : Cmd) (d : CopyDesc) :
    (s.cpyoutWork c d).2 = none ∧ (s.cpyoutWork c d).1.aside = s.aside := by
  unfold State.cpyoutWork
  rw [s.takeInputs_of_good hgood]
  exact ⟨rfl, State.foldl_aside _ (fun u e => State.foldl_aside u (fun v r => State.engWrite_aside v ..) _) _⟩
/-- A CPYIN makes as many elements as its word says, and its reads leave the teams. -/
theorem State.cpyinElems_leaves (c : Cmd) (d : CopyDesc) (layb : Bool) :
    (s.cpyinElems c d layb).1.teams = s.teams ∧ (s.cpyinElems c d layb).2.1.length = c.n := by
  unfold State.cpyinElems
  extract_lets core r
  have hteams : r.1.teams = s.teams := by
    refine foldl_pred (P := fun r : State × List (List Byte) × Option W64 => r.1.teams = s.teams) (fun r e hr => (State.engReads_teams ..).trans hr) _ ?_
    rfl
  have hlength : r.2.1.length = c.n := by
    refine (foldl_counts (g := fun r : State × List (List Byte) × Option W64 => r.2.1.length) (fun r e => List.length_append) _ _).trans ?_
    exact (Nat.zero_add _).trans List.length_range
  split
  · exact ⟨hteams, List.length_replicate⟩
  · split
    · exact ⟨hteams, hlength⟩
    · split
      · exact ⟨hteams, hlength⟩
      · refine ⟨?_, ?_⟩
        · dsimp only; split
          · exact hteams
          · exact hteams
        · dsimp only
          rw [List.length_map, List.length_map, hlength]
theorem State.chan_putOutputs {x : Team} {c : Cmd} (hx : s.team? c.team = some x) (elems : List (List Byte)) :
    (s.putOutputs c elems).chan c.team c.ch = (x.chan c.ch).commit (BitVec.ofNat 32 c.outFirst) elems.length := by
  unfold State.putOutputs
  rw [hx]
  refine State.chan_updChan_self ?_ _ _
  exact (State.team?_of_teams (foldl_same State.teams (fun u e => State.elemWrite_teams u ..) _ _) _).trans hx

/-! ### A command fires (R363) -/

theorem State.chan_of_teams {t : State} (h : t.teams = s.teams) (team n : Nat) : t.chan team n = s.chan team n := by
  unfold State.chan; rw [State.team?_of_teams h]

theorem State.cmd?_fireCmd (id : Nat) (c : Cmd) (reads writes : List (W64 × Nat)) :
    (Tbl.get? (s.fireCmd id c reads writes).cmds id).map (fun c => c.stage) = some .fired := by
  unfold State.fireCmd
  dsimp only
  rw [Tbl.get?_set_self]; rfl
/-- The request behind a wave's command goes first (R59, R316). -/
theorem State.cmdMaySend_of_req {id c k : Nat} {m : Cmd} {w : Wave} {q : Req} (ha : m.agent = .wave c k) (hw : s.wave? c k = some w)
    (hq : w.reqs.find? (fun q => q.isCmd id) = some q) : s.cmdMaySend id m = if w.maySend q then some (s.sendReq c k w q) else none := by
  unfold State.cmdMaySend
  simp only [ha, hw, hq]

/-! ### The lines of a launch queue (R375, R376) -/

@[simp] theorem State.ctlRead_aside (q : Nat) : (s.ctlRead q).aside = s.aside := by
  unfold State.ctlRead State.homeRead
  split
  · exact State.homeTouch_aside ..
  · rfl
@[simp] theorem State.devWrite_aside (pa : Nat) (bs : List Byte) : (s.devWrite pa bs).aside = s.aside := by
  unfold State.devWrite
  split
  · exact State.homeWriteBytes_aside ..
  · rfl
theorem State.devWrite_home {pa : Nat} (h : s.backed pa = true) (bs : List Byte) {j : Nat} (hj : j < bs.length) :
    Mem.read (s.devWrite pa bs).mem.home (pa + j) = bs.getD j 0 := by
  unfold State.devWrite
  rw [if_pos h, s.homeWriteBytes_home pa bs none j hj]
theorem State.backed_of_fred {t : State} (h : t.fred = s.fred) (pa : Nat) : t.backed pa = s.backed pa := by
  unfold State.backed State.minimal; rw [h]
theorem State.lq_of_aside {t : State} (h : t.aside = s.aside) (q : Nat) : t.lq q = s.lq q := State.lq_of_lqs (Aside.lqs h) q
@[simp] theorem State.knowSeqno_cmds (id : Nat) (c : Cmd) (n : Nat) : (s.knowSeqno id c n).cmds = s.cmds := by
  unfold State.knowSeqno
  split <;> rfl
theorem State.ctlWrite_cmds (q off x : Nat) : (s.ctlWrite q off x).cmds = s.cmds := by
  unfold State.ctlWrite
  dsimp only [State.setLq]
  exact Aside.cmds (State.devWrite_aside ..)
end

/-! ### Completion and PUBLISH (R364, R371) -/

section
variable {s : State} {id : Nat} {m : Cmd} (hm : Tbl.get? s.cmds id = some m)
include hm

theorem engineComplete_cpyout {d : CopyDesc} {x : Team} (hfired : m.stage = .fired) (htags : m.tags ≠ 0) (hkind : m.kind = .cpyout d)
    (hfault : m.fault = none) (hecpl : m.ecpl = none) (hx : s.team? m.team = some x) (hgood : s.mem.bad = []) :
    ∃ t, exec (.engineComplete id) s = .next t ∧ (Tbl.get? t.cmds id).map (fun c => c.stage) = some .done
      ∧ t.chan m.team m.ch = ((x.chan m.ch).consume m.n).leave id
      ∧ t.mem.scratch = s.mem.scratch ∧ t.mem.rows = s.mem.rows ∧ t.waves = s.waves := by
  have he : exec (.engineComplete id) s = execEngineComplete id s := rfl
  unfold execEngineComplete at he
  rw [hm] at he
  dsimp only at he
  rw [hfired, m.translates_of_plain hecpl (by rw [hkind]; nofun), if_neg (by simp), s.wantsTag_of_held htags, if_neg Bool.false_ne_true, hkind, hfault] at he
  dsimp only [Option.isSome_none] at he
  rw [if_neg Bool.false_ne_true] at he
  obtain ⟨hwork, haside⟩ := s.cpyoutWork_of_good hgood m d
  have hteam : (s.cpyoutWork m d).1.team? m.team = some x := (State.team?_of_teams (State.cpyoutWork_teams ..) _).trans hx
  obtain ⟨u, hu, huteams, -, hkeep⟩ := State.finishCmd_done ((s.cpyoutWork m d).1.freeInputs m.team m.ch id m.n false) id hecpl (s.cpyoutWork m d).2
  obtain ⟨huaside, huwaves⟩ := hkeep hwork
  rw [hu] at he
  refine ⟨_, he, congrArg (Option.map _) (Tbl.get?_set_self ..), ?_, ?_, ?_, ?_⟩
  · exact (State.chan_of_teams _ huteams ..).trans (State.chan_updChan_self hteam _ _)
  · exact (Aside.scratch huaside).trans (Aside.scratch haside :)
  · exact (Aside.rows huaside).trans (Aside.rows haside :)
  · exact huwaves.trans (State.cpyoutWork_waves ..)
theorem engineComplete_cpyin {d : CopyDesc} {layb : Bool} {x : Team} (hfired : m.stage = .fired) (htags : m.tags ≠ 0) (hkind : m.kind = .cpyin d layb)
    (hfault : m.fault = none) (hecpl : m.ecpl = none) (hx : s.team? m.team = some x) :
    ∃ t, exec (.engineComplete id) s = .next t ∧ (Tbl.get? t.cmds id).map (fun c => c.stage) = some .done
      ∧ t.chan m.team m.ch = (x.chan m.ch).commit (BitVec.ofNat 32 m.outFirst) m.n := by
  have he : exec (.engineComplete id) s = execEngineComplete id s := rfl
  unfold execEngineComplete at he
  rw [hm] at he
  dsimp only at he
  rw [hfired, m.translates_of_plain hecpl (by rw [hkind]; nofun), if_neg (by simp), s.wantsTag_of_held htags, if_neg Bool.false_ne_true, hkind, hfault] at he
  dsimp only [Option.isSome_none] at he
  rw [if_neg Bool.false_ne_true] at he
  obtain ⟨hteams, hlength⟩ := s.cpyinElems_leaves m d layb
  obtain ⟨u, hu, huteams, -, -⟩ := State.finishCmd_done ((s.cpyinElems m d layb).1.putOutputs m (s.cpyinElems m d layb).2.1) id hecpl
    (s.cpyinElems m d layb).2.2
  rw [hu] at he
  refine ⟨_, he, congrArg (Option.map _) (Tbl.get?_set_self ..), ?_⟩
  rw [← hlength]
  exact (State.chan_of_teams _ huteams ..).trans (State.chan_putOutputs _ ((State.team?_of_teams hteams _).trans hx) _)
section
variable {b : Nat} {ws : List Nat} (hissued : m.stage = .issued) (hkind : m.kind = .publish b ws) (hready : s.publishReady m.team ws = true)
include hissued hkind hready

/-- A PUBLISH whose entry is invalid ends with its fault. -/
theorem publishFlip_fails (hecpl : m.ecpl = none) (hfails : (s.buffer b).valid = false ∨ m.progress = 1) :
    ∃ t, exec (.publishFlip id) s = .next t ∧ t.buffers = s.buffers ∧ (Tbl.get? t.cmds id).map (fun c => c.stage) = some .done := by
  have he : exec (.publishFlip id) s = execPublishFlip id s := rfl
  unfold execPublishFlip at he
  simp only [hm, hkind, hissued, hready] at he
  obtain ⟨u, hu, -, hbuffers, -⟩ := s.finishCmd_done id hecpl (some ⟨0x06, deferStat 2 0 0, BitVec.ofNat 64 ((m.rpages.headD ⟨0, 0⟩).vp * 4096)⟩)
  rw [if_neg (by simp), if_pos (by simpa using hfails), hu] at he
  exact ⟨_, he, hbuffers, congrArg (Option.map _) (Tbl.get?_set_self ..)⟩

section
variable (hvalid : (s.buffer b).valid = true) (hprogress : m.progress ≠ 1)
include hvalid hprogress

theorem publishFlip_waits (hsend : s.cmdMaySend id m = none) : exec (.publishFlip id) s = .next s := by
  have he : exec (.publishFlip id) s = execPublishFlip id s := rfl
  unfold execPublishFlip at he
  simp only [hm, hkind, hissued, hready, hvalid, hprogress, hsend] at he
  rwa [if_neg (by simp), if_neg (by simp)] at he
theorem publishFlip_flips {v : State} (hecpl : m.ecpl = none) (hsend : s.cmdMaySend id m = some v) :
    ∃ t, exec (.publishFlip id) s = .next t ∧ t.buffer b = { s.buffer b with cur := !(s.buffer b).cur }
      ∧ (Tbl.get? t.cmds id).map (fun c => c.stage) = some .done := by
  have he : exec (.publishFlip id) s = execPublishFlip id s := rfl
  unfold execPublishFlip at he
  simp only [hm, hkind, hissued, hready, hprogress, hsend] at he
  obtain ⟨u, hu, -, hbuffers, -⟩ := State.finishCmd_done { v with
    buffers := Tbl.put v.buffers b Buffer.invalid { s.buffer b with cur := !(s.buffer b).cur } } id hecpl none
  rw [if_neg (by simp), if_neg (by simp [hvalid]), hu] at he
  refine ⟨_, he, ?_, congrArg (Option.map _) (Tbl.get?_set_self ..)⟩
  exact (congrArg (fun l => Tbl.getD l b Buffer.invalid) hbuffers).trans (Tbl.getD_put_self ..)
end
end
end

/-- The bytes of a record as LAUNCH writes them: its SEQNO word is zero (R377). -/
def launchRecord (b : List Byte) : List Byte := b.take 0x3C ++ [0, 0, 0, 0] ++ b.drop 0x40
theorem launchRecord_length {b : List Byte} (hb : b.length = 256) : (launchRecord b).length = 256 := by
  simp [launchRecord, hb]
theorem launchRecord_getD {b : List Byte} (hb : b.length = 256) {j : Nat} (hj : j < 256) :
    (launchRecord b).getD j 0 = if 0x3C ≤ j ∧ j < 0x40 then 0 else b.getD j 0 := by
  unfold launchRecord
  have hlen : (b.take 0x3C).length = 0x3C := by rw [List.length_take, hb]; rfl
  by_cases hlo : j < 0x3C
  · rw [List.append_assoc, List.getD_append _ _ _ _ (by rw [hlen]; exact hlo), if_neg (by omega), List.getD_eq_getElem?_getD, List.getElem?_take_of_lt hlo,
      List.getD_eq_getElem?_getD]
  · by_cases hmid : j < 0x40
    · rw [List.append_assoc, List.getD_append_right _ _ _ _ (by omega), hlen, List.getD_append _ _ _ _ (by simp; omega), if_pos (by omega)]
      exact (List.getD_replicate (n := 4) (x := (0 : Byte)) (by omega))
    · have hlen4 : (b.take 0x3C ++ [0, 0, 0, 0]).length = 0x40 := by rw [List.length_append, hlen]; rfl
      rw [List.getD_append_right _ _ _ _ (by omega), hlen4, if_neg (by omega), List.getD_eq_getElem?_getD, List.getElem?_drop,
        List.getD_eq_getElem?_getD, Nat.add_sub_cancel' (by omega)]

/-- A LAUNCH whose number is known writes its record at its slot. -/
def State.recordWrite (s : State) (id : Nat) (m : Cmd) (q n : Nat) : State :=
  State.devWrite { s.ctlRead q with cmds := Tbl.set (s.ctlRead q).cmds id { m with progress := 1 } } ((s.lq q).slot n) (launchRecord m.recBytes)
/-- A LAUNCH whose record stands raises TAIL past it. -/
def State.raiseTail (s : State) (id : Nat) (m : Cmd) (q n : Nat) : State :=
  let r := s.ctlRead q
  State.ctlWrite { r.setLq q { s.lq q with kids := n :: (s.lq q).kids } with cmds := Tbl.set r.cmds id { m with stage := .done } } q 8 ((n + 1) % 2 ^ 64)

section
variable {s : State} {id : Nat} {m : Cmd} {q n : Nat}

theorem State.cmd?_recordWrite : Tbl.get? (s.recordWrite id m q n).cmds id = some { m with progress := 1 } := by
  unfold State.recordWrite
  rw [Aside.cmds (State.devWrite_aside ..)]
  exact Tbl.get?_set_self ..
theorem State.recordWrite_home (hbacked : s.backed ((s.lq q).slot n) = true) (hlen : m.recBytes.length = 256) {j : Nat} (hj : j < 256) :
    Mem.read (s.recordWrite id m q n).mem.home ((s.lq q).slot n + j) = if 0x3C ≤ j ∧ j < 0x40 then 0 else m.recBytes.getD j 0 := by
  refine (State.devWrite_home _ ?_ _ (by rw [launchRecord_length hlen]; exact hj)).trans (launchRecord_getD hlen hj)
  exact (State.backed_of_fred s (Aside.fred (s.ctlRead_aside q)) _).trans hbacked
theorem State.stage_raiseTail : (Tbl.get? (s.raiseTail id m q n).cmds id).map (fun c => c.stage) = some .done := by
  unfold State.raiseTail
  rw [State.ctlWrite_cmds]
  exact congrArg (Option.map _) (Tbl.get?_set_self ..)
theorem State.fresh_raiseTail : ((s.raiseTail id m q n).lq q).fresh = false := by
  unfold State.raiseTail State.ctlWrite
  exact congrArg LQueue.fresh (State.lq_setLq_self ..)

/-- A LAUNCH that has its number writes the record while there is room, then raises TAIL in its turn (R376). -/
theorem launchEnqueue_of_fired {va : W64} {sd : Nat} (hm : Tbl.get? s.cmds id = some m) (hfired : m.stage = .fired) (hkind : m.kind = .launch q va sd)
    (hn : m.seqno = some n) : exec (.launchEnqueue id) s =
      if m.progress = 0 then
        if (n + 2 ^ 64 - (s.ctlRead q).ctlWord q 0x10) % 2 ^ 64 < (s.lq q).size.toNat then .next (s.recordWrite id m q n) else .next (s.ctlRead q)
      else if (s.ctlRead q).ctlWord q 8 = n then .next (s.raiseTail id m q n)
      else .next (s.ctlRead q) := by
  have hlq : (s.ctlRead q).lq q = s.lq q := State.lq_of_aside s (s.ctlRead_aside q) q
  cases m
  subst hfired hkind hn
  change execLaunchEnqueue id s = _
  unfold execLaunchEnqueue
  rw [hm]
  dsimp only [Option.getD_some]
  rw [hlq]
  rfl
end

/-- Settles O46, an event at a time. -/
theorem engineEvents : Obligations.EngineEvents := by
  unfold Obligations.EngineEvents
  intro s id m hm stage stays fires ch
  refine ⟨fun hissued hwait => ?waits, fun hissued hordered hruns hteam => ?fires, fun hfired hctx hwants => ?tags,
    fun d x hfired htags hkind hfault hecpl hx hgood => ?cpyout, fun d layb x hfired htags hkind hfault hecpl hx => ?cpyin,
    fun b ws hissued hkind hecpl => ?publish, fun qu va sd c k w q hissued hkind ha hw hq => ?reserve, fun qu va sd n hfired hkind hn => ?launch⟩
  case waits =>
    have he : exec (.engineFire id) s = execEngineFire id s := rfl
    unfold execEngineFire at he
    rw [hm] at he
    refine he.trans (if_pos (.inr (hwait.imp (fun h => ?_) (fun h => ?_)))) <;> rw [h] <;> rfl
  case fires =>
    obtain ⟨x, hx⟩ := Option.isSome_iff_exists.1 hteam
    have he : exec (.engineFire id) s = execEngineFire id s := rfl
    unfold execEngineFire at he
    rw [hm] at he
    dsimp only at he
    rw [hissued, hordered, hruns, if_neg (by simp)] at he
    have hteams : (s.cmdRelease id m).teams = s.teams := State.cmdRelease_teams ..
    have hchan (c : Cmd) (reads writes : List (W64 × Nat)) (n : Nat) : ((s.cmdRelease id m).fireCmd id c reads writes).chan m.team n = s.chan m.team n :=
      State.chan_of_teams s ((State.fireCmd_teams ..).trans hteams) ..
    refine ⟨fun d hkind => ?copies, fun d layb hkind => ?copiesIn, fun d hkind => ?copiesOut, fun d hkind => ?walks⟩
    all_goals rw [hkind] at he; dsimp only at he
    case copies => exact ⟨_, he, State.cmd?_fireCmd .., State.fireCmd_waves .., (State.fireCmd_teams ..).trans hteams⟩
    case copiesIn =>
      split
      next hready =>
        rw [if_pos (Bool.and_eq_true_iff.2 hready)] at he
        refine ⟨_, he, State.cmd?_fireCmd .., State.fireCmd_waves _ id .., ?_⟩
        refine (State.chan_updChan_self ((State.team?_of_teams ((State.fireCmd_teams ..).trans hteams) _).trans hx) _ _).trans ?_
        rw [← State.chan_of_team hx]
      next hready => rwa [if_neg (mt Bool.and_eq_true_iff.1 hready)] at he
    case copiesOut =>
      split
      next hready =>
        rw [if_pos (Bool.and_eq_true_iff.2 hready)] at he
        exact ⟨_, he, State.cmd?_fireCmd .., State.fireCmd_waves .., hchan ..⟩
      next hready => rwa [if_neg (mt Bool.and_eq_true_iff.1 hready)] at he
    case walks =>
      split
      next hready =>
        rw [if_pos (Bool.and_eq_true_iff.2 hready)] at he
        refine ⟨_, he, congrArg (Option.map _) (Tbl.get?_set_self ..), rfl, ?_, rfl⟩
        refine (State.chan_updChan_self (x := x) ?_ _ _).trans ?_
        · exact (State.team?_of_teams hteams _).trans hx
        · rw [← State.chan_of_team hx]
      next hready => rwa [if_neg (mt Bool.and_eq_true_iff.1 hready)] at he
  case tags =>
    have he : exec (.engineComplete id) s = execEngineComplete id s := rfl
    unfold execEngineComplete at he
    rw [hm] at he
    dsimp only at he
    have hruns : (m.translates && !s.ctxRuns m.team) = false := by
      rw [Bool.and_eq_false_iff]
      exact hctx.imp_right (fun h => by rw [h]; rfl)
    rw [hfired, hruns, if_neg (by simp), hwants, if_pos rfl] at he
    unfold State.takeTag at he
    split
    next hfree =>
      rw [if_pos hfree] at he
      exact ⟨_, Nat.le_add_right .., s.choose_succ_le .., he⟩
    next hfree => rwa [if_neg hfree] at he
  case cpyout => exact engineComplete_cpyout hm hfired htags hkind hfault hecpl hx hgood
  case cpyin => exact engineComplete_cpyin hm hfired htags hkind hfault hecpl hx
  case publish =>
    split
    next hready =>
      refine ⟨publishFlip_fails hm hissued hkind hready hecpl, fun c k w q hvalid hprogress ha hw hq => ?_⟩
      have hmay := s.cmdMaySend_of_req ha hw hq
      split
      next hsend => exact publishFlip_flips hm hissued hkind hready hvalid hprogress hecpl (hmay.trans (if_pos hsend))
      next hsend => exact publishFlip_waits hm hissued hkind hready hvalid hprogress (hmay.trans (if_neg hsend))
    next hready =>
      have he : exec (.publishFlip id) s = execPublishFlip id s := rfl
      unfold execPublishFlip at he
      simp only [hm, hkind] at he
      exact he.trans (if_pos (.inr (by rw [Bool.eq_false_iff.2 hready]; rfl)))
  case reserve =>
    have he : exec (.launchEnqueue id) s = execLaunchEnqueue id s := rfl
    unfold execLaunchEnqueue at he
    rw [hm] at he
    dsimp only at he
    rw [hkind, hissued] at he
    dsimp only at he
    rw [s.cmdMaySend_of_req ha hw hq] at he
    split
    next hsend =>
      rw [if_pos hsend] at he
      dsimp only at he
      refine ⟨_, _, he, (congrArg (Tbl.get? · id) (State.knowSeqno_cmds ..)).trans (Tbl.get?_set_self ..), rfl, rfl, hkind.symm, fun hsent hrec => ?_⟩
      have hcons : m.recBytes.isEmpty = false := by rwa [List.isEmpty_eq_false_iff]
      rw [hcons, if_neg Bool.false_ne_true, show s.sendReq c k w q = s from if_pos hsent, hkind]
    next hsend => rwa [if_neg hsend] at he
  case launch =>
    have he := launchEnqueue_of_fired hm hfired hkind hn
    dsimp only
    generalize (s.ctlRead qu).ctlWord qu 8 = tail at he ⊢
    refine ⟨fun hfirst hroom => ?writes, fun hfirst hfull => ?full, fun hwritten => ?raises⟩
    case writes =>
      rw [if_pos hfirst, if_pos hroom] at he
      exact ⟨_, he, State.cmd?_recordWrite .., fun hbacked hlen j hj => State.recordWrite_home hbacked hlen hj⟩
    case full => rwa [if_pos hfirst, if_neg (Nat.not_lt.2 hfull)] at he
    case raises =>
      rw [if_neg (by rw [hwritten]; exact Nat.one_ne_zero)] at he
      split
      next hturn =>
        rw [if_pos hturn] at he
        exact ⟨_, he, State.stage_raiseTail .., State.fresh_raiseTail ..⟩
      next hturn => rwa [if_neg hturn] at he

end Sys2Proof.Machine
end

section
/-! SUPPORT. Raster batches, frames, classification and bin waves (R378–R385, R427), and the proof of O52. -/

namespace Sys2Proof.Machine

/-! ### The raster queue and the closed tiles of the dies: which operations leave them -/

/-- What waits at a die's raster units and classify engines. -/
def Die.queues (x : Die) : List Batch × List Nat := (x.rasterQ, x.closedOrder)
def State.queues (s : State) (d : Nat) : List Batch × List Nat := (s.die d).queues

section
variable (s : State)

theorem State.queues_of_aside {t : State} (h : t.aside = s.aside) : t.queues = s.queues :=
  funext fun d => congrArg (fun a => (a.die d).queues) h
theorem State.rasterQ_of_queues {s t : State} (h : t.queues = s.queues) (d : Nat) : (t.die d).rasterQ = (s.die d).rasterQ :=
  congrArg (fun q => (q d).1) h
theorem State.closedOrder_of_queues {s t : State} (h : t.queues = s.queues) (d : Nat) : (t.die d).closedOrder = (s.die d).closedOrder :=
  congrArg (fun q => (q d).2) h
theorem State.queues_setDie {d : Nat} {x : Die} (h : x.queues = (s.die d).queues) : (s.setDie d x).queues = s.queues := by
  funext e
  unfold State.queues
  rw [State.die_setDie]
  split
  next he => rw [h, he]
  next => rfl
theorem State.queues_pmcCount (core ev n team : Nat) : (s.pmcCount core ev n team).queues = s.queues :=
  s.queues_of_aside (State.pmcCount_aside ..)
theorem State.queues_homeReadBytes (c : Option Nat) (pa n : Nat) : (s.homeReadBytes c pa n).1.queues = s.queues :=
  KeptByFabric.homeReadBytes (P := fun t => t.queues = s.queues) ⟨fun _ _ h => h, fun _ _ h => h, fun _ _ _ _ h => h, fun _ h => h, fun _ h => h⟩ rfl c pa n
theorem State.queues_storeWrite (st : Store) (a : Nat) (bs : List Byte) : (s.storeWrite st a bs).queues = s.queues := by
  unfold State.storeWrite State.freshCode
  dsimp only; split <;> rfl

/-! #### The end of a command -/

theorem State.queues_deferSaved (c k team : Nat) (r : PendRec) : (s.deferSaved c k team r).queues = s.queues := by
  unfold State.deferSaved
  split
  · rfl
  · split
    · rfl
    · split
      · rfl
      · split <;> rfl
theorem State.queues_deferTo (a : Agent) (team : Nat) (r : PendRec) : (s.deferTo a team r).queues = s.queues := by
  unfold State.deferTo State.pendFault
  split
  · split
    · split
      · split
        · rfl
        · split
          · rfl
          · split <;> rfl
      · exact State.queues_deferSaved ..
    · exact State.queues_deferSaved ..
  · rfl
theorem State.queues_phaseArrive (team pos : Nat) (it : PhaseItem) : (s.phaseArrive team pos it).queues = s.queues := by
  obtain ⟨sv, h⟩ | ⟨x, core, h⟩ | ⟨core, h⟩ := s.phaseArrive_cases team pos it <;> rw [h]
  · rfl
  · exact State.queues_pmcCount ..
  · rfl
theorem State.queues_columnRelease (paired : Bool) (scope core : Nat) : (s.columnRelease paired scope core).queues = s.queues := by
  unfold State.columnRelease
  split
  · exact State.queues_of_aside _ (State.colSweep_aside ..)
  · rfl
theorem State.queues_runEcpl (a : Agent) (team : Nat) (e : Ecpl) (cmd : Nat) : (s.runEcpl a team e cmd).1.queues = s.queues := by
  unfold State.runEcpl
  extract_lets core u pos
  have hu : u.queues = s.queues := s.queues_columnRelease ..
  have htouch : (u.touchTlb (clusterOf core) e.space).queues = s.queues := (State.queues_of_aside _ (State.touchTlb_aside ..)).trans hu
  split
  · exact (State.queues_pmcCount ..).trans ((State.queues_phaseArrive ..).trans hu)
  · split
    · exact (State.queues_deferTo ..).trans htouch
    · exact htouch
theorem State.queues_finishCmd (id : Nat) (c : Cmd) (fault : Option PendRec) : (s.finishCmd id c fault).queues = s.queues := by
  have hcount : (if c.kind.engine then s.pmcCount c.agent.core 0x15 1 c.team else s).queues = s.queues := by
    split
    · exact State.queues_pmcCount ..
    · rfl
  unfold State.finishCmd
  refine Eq.trans ?_ hcount
  dsimp only
  split
  · exact State.queues_deferTo ..
  · split
    · rfl
    · exact State.queues_runEcpl ..

/-! #### The tiles of a frame (R427) -/

/-- What waits at the dies with their bins, and the launches. -/
def Die.work (x : Die) : (List Batch × List Nat) × Tbl (List BinEntry) := (x.queues, x.bins)
def State.work (s : State) : (Nat → (List Batch × List Nat) × Tbl (List BinEntry)) × Tbl Launch := (fun d => (s.die d).work, s.launches)
theorem State.queues_of_work {t : State} (h : t.work = s.work) : t.queues = s.queues := congrArg (fun w => fun d => (w.1 d).1) h
theorem State.launches_of_work {t : State} (h : t.work = s.work) : t.launches = s.launches := congrArg Prod.snd h
theorem State.bins_of_work {t : State} (h : t.work = s.work) (d : Nat) : (t.die d).bins = (s.die d).bins := congrArg (fun w => (w.1 d).2) h
theorem State.work_setTile (n : Nat) (x : Tile) : (s.setTile n x).work = s.work := rfl
theorem State.work_setFrames (d : Nat) (fs : List Frame) : (s.setDie d { s.die d with frames := fs }).work = s.work := by
  unfold State.work
  rw [Prod.mk.injEq]
  refine ⟨funext fun e => ?_, rfl⟩
  rw [State.die_setDie]
  split
  next he => rw [he]; rfl
  next => rfl
/-- The slots of a retired frame become free and its CLOSE may complete. -/
theorem State.work_retireFrame (die : Nat) (frame : W64) : (s.retireFrame die frame).work = s.work := by
  unfold State.retireFrame
  extract_lets ts d s₁ s₂
  split
  · have h₁ : s₁.work = s.work := foldl_same State.work (fun u t => u.work_setTile t Tile.free) ts s
    have hd : d = s₁.die die :=
      (State.die_of_dies (foldl_same (·.dies) (fun u t => u.setTile_dies t Tile.free) ts s) die).symm
    have h₂ : s₂.work = s₁.work := by
      unfold s₂
      rw [hd]
      exact s₁.work_setFrames die _
    refine Eq.trans (foldl_same State.work (fun u f => ?_) _ _) (h₂.trans h₁)
    split <;> rfl
  · rfl
theorem State.work_unrefTile (n : Nat) : (s.unrefTile n).work = s.work := by
  unfold State.unrefTile
  dsimp only; split
  · exact State.work_retireFrame ..
  · rfl
theorem State.work_classified (n : Nat) : (s.classified n).work = s.work := by
  unfold State.classified
  dsimp only; split
  · exact State.work_unrefTile ..
  · rfl
theorem State.work_classifiedAll (es : List BinEntry) : (s.classifiedAll es).work = s.work :=
  foldl_same State.work (fun u n => u.work_classified n) _ _

/-! #### Bins (R381, R385) -/

theorem State.queues_binPut (die m : Nat) (e : BinEntry) : (State.binPut die m s e).queues = s.queues := by
  unfold State.binPut
  dsimp only; split
  · exact s.queues_setDie rfl
  · exact (State.queues_storeWrite ..).trans (s.queues_setDie rfl)
theorem State.queues_binAppend (die m : Nat) (es : List BinEntry) : (s.binAppend die m es).queues = s.queues := by
  unfold State.binAppend
  split
  · rfl
  · exact foldl_same State.queues (fun u e => u.queues_binPut die m e) es s
theorem State.queues_appendGroups (die slot n : Nat) : (State.appendGroups die slot n s).queues = s.queues := by
  induction n generalizing s with
  | zero => rfl
  | succ n ih =>
    unfold State.appendGroups
    dsimp only; split
    · exact State.queues_of_work _ (State.work_classified ..)
    · split
      · exact (ih _).trans (State.queues_binAppend ..)
      · rfl
end

/-! #### Reads of a die's units, and what they raster (R379, R380, R382) -/

section
variable (r : DRead) (die : Nat)

theorem DRead.queues_read (va : W64) (n : Nat) : (r.read die va n).1.s.queues = r.s.queues := by
  unfold DRead.read
  refine foldl_pred (P := fun y : DRead × List Byte => y.1.s.queues = r.s.queues) (fun y p hy => ?_) _ rfl
  have htouch : (y.1.s.touchShared die p.1).queues = r.s.queues := (State.queues_of_aside _ (State.touchShared_aside ..)).trans hy
  dsimp only; split
  · exact hy
  · split
    · exact htouch
    · split
      · exact htouch
      · dsimp only; split
        · exact (State.queues_homeReadBytes ..).trans htouch
        · exact (State.queues_homeReadBytes ..).trans htouch
theorem DRead.queues_refuse (ok : Bool) (va : W64) (sub : Nat) : (r.refuse ok va sub).s.queues = r.s.queues := by
  unfold DRead.refuse
  split <;> rfl
theorem DRead.queues_frame (va : W64) : (r.frame die va).1.s.queues = r.s.queues := (DRead.queues_refuse ..).trans (r.queues_read die va 64)
theorem DRead.queues_vert (idxAt : W64) (vbase : W32) (base : W64) (stride : Nat) : (r.vert die idxAt vbase base stride).1.s.queues = r.s.queues :=
  (DRead.queues_read ..).trans (r.queues_read ..)
theorem State.queues_freshPix (s : State) (slot p : Nat) (x : Pix) : (s.freshPix slot p x).queues = s.queues := by
  unfold State.freshPix
  extract_lets t half s₁ s₂
  have h₁ : s₁.queues = s.queues := by unfold s₁; split <;> rfl
  exact h₁
theorem State.queues_rasterTile (s : State) (slot : Nat) (id : W64) (v0 v1 v2 : Vert) : (s.rasterTile slot id v0 v1 v2).queues = s.queues := by
  unfold State.rasterTile
  extract_lets t lo hi x0 x1 y0 y1 ps
  split
  · rfl
  · refine foldl_same State.queues (fun u p => ?_) _ _
    split
    · rfl
    · extract_lets key depth u₁ p' old seen
      split
      · rfl
      · split
        · rfl
        · exact State.queues_freshPix ..
theorem DRead.queues_rasterCluster (inst : W64) (tiles : List Nat) (id at_ : W64) : (r.rasterCluster die inst tiles id at_).s.queues = r.s.queues := by
  unfold DRead.rasterCluster
  extract_lets r₁ ea e r₂ qa q r₃ va v r₄
  have h₁ : r₁.s.queues = r.s.queues := r.queues_refuse ..
  have he : e.1.s.queues = r.s.queues := (r₁.queues_read ..).trans h₁
  clear_value r₁ e
  have h₂ : r₂.s.queues = r.s.queues := (e.1.queues_refuse ..).trans he
  clear_value r₂
  have h₃ : r₃.s.queues = r.s.queues := (q.1.queues_refuse ..).trans ((r₂.queues_read ..).trans h₂)
  have h₄ : r₄.s.queues = r.s.queues := (v.1.queues_refuse ..).trans ((r₃.queues_read ..).trans h₃)
  clear_value r₄
  split
  · exact h₁
  split
  · exact h₂
  split
  · exact h₄
  refine foldl_pred (P := fun y : DRead => y.s.queues = r.s.queues) (fun y t hy => ?_) _ h₄
  extract_lets vert a b c s₁ src
  have hvert (z : DRead) (i : Nat) : (vert z i).1.s.queues = z.s.queues := z.queues_vert ..
  clear_value vert
  have hc : c.1.s.queues = r.s.queues := (hvert b.1 2).trans ((hvert a.1 1).trans ((hvert y 0).trans hy))
  clear_value c
  split
  · exact hc
  split
  · exact (foldl_same State.queues (fun u slot => u.queues_rasterTile ..) _ _).trans hc
  · exact hc
theorem State.queues_tileGroups (s : State) (slot : Nat) : (s.tileGroups die slot).1.queues = s.queues := by
  unfold State.tileGroups
  extract_lets t lost s₁ fr draws ps keys info blocks image
  have h₁ : s₁.queues = s.queues := by unfold s₁; split <;> rfl
  have hinfo : info.1.queues = s.queues := by
    refine foldl_pred (P := fun y : State × List ClusterInfo => y.1.queues = s.queues) (fun y k hy => ?_) _ ((DRead.queues_frame ..).trans h₁)
    extract_lets id ea e ok q ds draw
    have he : e.1.s.queues = s.queues := (DRead.queues_read ..).trans hy
    split
    · exact (DRead.queues_read ..).trans he
    · exact he
  exact foldl_pred (P := fun y : State × List ((Nat × Nat) × Nat) => y.1.queues = s.queues) (fun y b hy => (DRead.queues_read ..).trans hy) _ hinfo
end

/-! ### A batch (R379, R380) -/

/-- The oldest batch of the running context leaves its die's queue. -/
theorem rasterBatch_leaves {s : State} {die : Nat} {b : Batch} {rest : List Batch} (hq : ((s.admitAll die).die die).rasterQ = b :: rest)
    (hctx : b.ctx = (s.admitAll die).win.ctxid) : ∃ t, execRasterBatch die s = .next t ∧ (t.die die).rasterQ = rest := by
  unfold execRasterBatch
  generalize s.admitAll die = u at hq hctx ⊢
  extract_lets u' d
  have hd : d.rasterQ = b :: rest := hq
  rw [hd]
  dsimp -zeta only
  rw [if_neg (not_not_intro hctx)]
  extract_lets v team fr tiles r
  have hv : (v.die die).rasterQ = rest := congrArg Die.rasterQ (State.die_setDie_self ..)
  have hfr : fr.1.s.queues = v.queues := DRead.queues_frame ..
  have hr : r.s.queues = v.queues := by
    refine foldl_pred (P := fun y : DRead => y.s.queues = v.queues) (fun y i hy => ?_) _ hfr
    extract_lets x id z q
    have hx : x.1.s.queues = v.queues := (DRead.queues_read ..).trans hy
    clear_value x
    have hz : z.s.queues = v.queues := (DRead.queues_rasterCluster ..).trans hx
    clear_value z
    split
    · exact hy
    · refine (State.queues_setDie z.s ?_).trans hz
      rfl
  have hend (t : State) (ht : t.queues = r.s.queues) : (t.die die).rasterQ = rest := (State.rasterQ_of_queues (ht.trans hr) die).trans hv
  clear_value r
  split
  · exact ⟨_, rfl, hend _ rfl⟩
  · refine ⟨_, rfl, hend _ ?_⟩
    split
    · rfl
    · exact State.queues_finishCmd ..

/-- The oldest batch waits while its context does not run. -/
theorem rasterBatch_waits {s : State} {die : Nat} {b : Batch} {rest : List Batch} (hq : ((s.admitAll die).die die).rasterQ = b :: rest)
    (hctx : b.ctx ≠ (s.admitAll die).win.ctxid) : execRasterBatch die s = .next (s.admitAll die) := by
  unfold execRasterBatch
  generalize s.admitAll die = u at hq hctx ⊢
  extract_lets u' d
  have hd : d.rasterQ = b :: rest := hq
  rw [hd]
  exact if_pos hctx

/-! ### A frame closes (R380, R427) -/

/-- A row stays when another is written, or is the one that the write replaces. -/
theorem Tbl.mem_set_of_mem {α : Type} {t : Tbl α} {n : Nat} {x : α} {r : Nat × α} (h : r ∈ t) : r ∈ Tbl.set t n x ∨ (r.1 = n ∧ Tbl.get? t n = some r.2) := by
  induction t with
  | nil => exact absurd h List.not_mem_nil
  | cons a t ih =>
    obtain ⟨k, v⟩ := a
    unfold Tbl.set
    by_cases hk : n = k
    · subst hk
      rw [if_pos rfl]
      obtain rfl | h := List.mem_cons.1 h
      · exact .inr ⟨rfl, if_pos rfl⟩
      · exact .inl (List.mem_cons_of_mem _ h)
    · rw [if_neg hk]
      split
      · exact .inl (List.mem_cons_of_mem _ h)
      · obtain rfl | h := List.mem_cons.1 h
        · exact .inl List.mem_cons_self
        · exact (ih h).imp (List.mem_cons_of_mem _) (fun ⟨hn, hv⟩ => ⟨hn, (if_neg hk).trans hv⟩)

theorem Tbl.put_of_ne {α : Type} [DecidableEq α] {d x : α} (h : x ≠ d) (t : Tbl α) (n : Nat) : Tbl.put t n d x = Tbl.set t n x := if_neg h

/-- A tile closes. -/
def State.closeTile (s : State) (n : Nat) : State := s.setTile n { s.tile n with state := .closed }
section
variable (s : State)

theorem State.closeTile_tiles (n : Nat) : (s.closeTile n).tiles = Tbl.set s.tiles n { s.tile n with state := .closed } := by
  have hne : ({ s.tile n with state := .closed } : Tile) ≠ Tile.free := fun h => absurd (congrArg Tile.state h) nofun
  exact Tbl.put_of_ne hne ..
theorem State.tile_closeTile (n k : Nat) : (s.closeTile n).tile k = if k = n then { s.tile n with state := .closed } else s.tile k :=
  State.tile_setTile ..
theorem State.closed_closeTile {k : Nat} (h : (s.tile k).state = .closed) (n : Nat) : ((s.closeTile n).tile k).state = .closed := by
  rw [State.tile_closeTile]
  split
  · rfl
  · exact h
/-- Closing a tile takes none out of a frame. -/
theorem State.frameTiles_closeTile {die k : Nat} {frame : W64} (h : k ∈ s.frameTiles die frame) (n : Nat) : k ∈ (s.closeTile n).frameTiles die frame := by
  obtain ⟨r, hr, rfl⟩ := List.mem_map.1 h
  obtain ⟨hrow, hkeep⟩ := List.mem_filter.1 hr
  rw [Bool.and_eq_true, Bool.and_eq_true, decide_eq_true_eq, decide_eq_true_eq] at hkeep
  obtain ⟨⟨hdie, hframe⟩, hstate⟩ := hkeep
  obtain hstay | ⟨hn, hget⟩ := Tbl.mem_set_of_mem (n := n) (x := { s.tile n with state := .closed }) hrow
  · refine List.mem_map.2 ⟨r, List.mem_filter.2 ⟨?_, (List.mem_filter.1 hr).2⟩, rfl⟩
    rw [State.closeTile_tiles]
    exact hstay
  · have htile : s.tile n = r.2 := by unfold State.tile Tbl.getD; rw [hget]; rfl
    refine List.mem_map.2 ⟨(n, { s.tile n with state := .closed }), List.mem_filter.2 ⟨?_, ?_⟩, hn.symm⟩
    · rw [State.closeTile_tiles]
      exact Tbl.mem_of_get? (Tbl.get?_set_self ..)
    · rw [htile, Bool.and_eq_true, Bool.and_eq_true, decide_eq_true_eq, decide_eq_true_eq]
      exact ⟨⟨hn ▸ hdie, hframe⟩, rfl⟩
/-- Once the tiles of a list have closed they are closed, and no frame has lost a tile. -/
theorem State.closeTiles_leaves (ts : List Nat) (die : Nat) (frame : W64) :
    (∀ n ∈ ts, ((ts.foldl State.closeTile s).tile n).state = .closed)
    ∧ ∀ n ∈ s.frameTiles die frame, n ∈ (ts.foldl State.closeTile s).frameTiles die frame := by
  induction ts generalizing s with
  | nil => exact ⟨fun _ h => absurd h List.not_mem_nil, fun _ h => h⟩
  | cons k ts ih =>
    rw [List.foldl_cons]
    obtain ⟨hclosed, hkeep⟩ := ih (s.closeTile k)
    refine ⟨fun n hn => ?_, fun n hn => hkeep n (s.frameTiles_closeTile hn k)⟩
    obtain rfl | hn := List.mem_cons.1 hn
    · refine foldl_pred (P := fun u : State => (u.tile n).state = .closed) (fun u k hu => u.closed_closeTile hu k) ts ?_
      rw [State.tile_closeTile, if_pos rfl]
    · exact hclosed n hn
/-- A frame with a tile that is not RETIRED stays. -/
theorem State.retireFrame_of_live {die n : Nat} {frame : W64} (hn : n ∈ s.frameTiles die frame) (hlive : (s.tile n).state ≠ .retired) :
    s.retireFrame die frame = s := by
  unfold State.retireFrame
  exact if_neg fun h => hlive (of_decide_eq_true (List.all_eq_true.1 h n hn))
end

/-- The tiles of a frame close, in the order of their slots. -/
def State.closeFrame (s : State) (die : Nat) (f : Frame) : State :=
  ((s.frameTiles die f.desc).foldl State.closeTile s).setDie die { s.die die with
    closedOrder := (s.die die).closedOrder ++ s.frameTiles die f.desc
    frames := (s.die die).frames.map (fun g => if g.desc = f.desc then { g with closed := true } else g) }
theorem frameClose_closes {s : State} {die : Nat} {f : Frame}
    (hf : (s.die die).frames.find? (fun f => f.closing && !f.closed && !(s.die die).rasterQ.any (fun b => decide (b.frame = f.desc))) = some f)
    (htiles : s.frameTiles die f.desc ≠ []) : exec (.frameClose die) s = .next (s.closeFrame die f) := by
  obtain ⟨n, hn⟩ := List.exists_mem_of_ne_nil _ htiles
  obtain ⟨hclosed, hkeep⟩ := s.closeTiles_leaves (s.frameTiles die f.desc) die f.desc
  have hlive : (s.closeFrame die f).retireFrame die f.desc = s.closeFrame die f := by
    refine State.retireFrame_of_live _ (n := n) (hkeep n hn) ?_
    rw [show ((s.closeFrame die f).tile n).state = .closed from hclosed n hn]
    exact nofun
  have he : exec (.frameClose die) s = .next ((s.closeFrame die f).retireFrame die f.desc) := by
    change execFrameClose die s = _
    unfold execFrameClose
    extract_lets d
    rw [hf]
    rfl
  rw [he, hlive]

/-! ### A classify engine takes a tile (R382, R383) -/

/-- The state with a tile out of the closed ones, and then with its groups ready (R382). -/
def State.withoutClosed (s : State) (die n : Nat) : State :=
  s.setDie die { s.die die with closedOrder := (s.die die).closedOrder.filter (fun t => !decide (t = n)) }
def State.shadeTile (s : State) (die n : Nat) : State :=
  let g := s.tileGroups die n
  State.appendGroups die n (g.2.length + 1) (g.1.setTile n { g.1.tile n with state := .shading, refs := 1, cls := false, todo := g.2 })
theorem State.queues_shadeTile (s : State) (die n : Nat) : (s.shadeTile die n).queues = s.queues := by
  have hg := s.queues_tileGroups die n
  unfold State.shadeTile
  generalize s.tileGroups die n = g at hg ⊢
  exact (State.queues_appendGroups ..).trans hg
/-- The tile that an engine takes leaves the closed ones. -/
theorem classifyTile_takes {s : State} {die e n : Nat} (hmine : s.tiles.find? (fun r => decide (dieOfTile r.1 = die) && decide (tileEngine r.1 = e)
      && decide (r.2.state = .shading) && !r.2.todo.isEmpty) = none)
    (hnext : (s.die die).closedOrder.find? (fun t => decide (tileEngine t = e)) = some n)
    (hctx : ∀ f, (s.die die).frames.find? (fun f => decide (f.desc = (s.tile n).frame)) = some f → f.ctx = s.win.ctxid) :
    exec (.classifyTile die e) s = .next ((s.withoutClosed die n).shadeTile die n) := by
  change execClassifyTile die e s = _
  unfold execClassifyTile
  extract_lets d mine
  have hd : d.closedOrder.find? (fun t => decide (tileEngine t = e)) = some n := hnext
  have hm : mine = none := hmine
  rw [hm, hd]
  dsimp -zeta only
  extract_lets frame ctx
  have hrun : ctx = s.win.ctxid := by
    unfold ctx
    split
    next f hf => exact hctx f hf
    next => rfl
  exact if_neg (not_not_intro hrun)

/-! ### A bin wave closes (R384, R385) -/

/-- The launch of a closed wave has one pending team more, and its bin the entries left over. -/
theorem State.closeBinWave_leaves (s : State) (die m l : Nat) (x : Launch) (f : Forming) :
    (s.closeBinWave die m l x f).launch? l = some { x with
      binNext := (x.binNext + 1) % 2 ^ 32, binTeams := x.binTeams ++ [⟨x.binNext, die, m, f.lanes, f.tiles⟩] }
    ∧ Tbl.getD ((s.closeBinWave die m l x f).die die).bins m [] = f.rest := by
  unfold State.closeBinWave
  extract_lets d taken bad s₁ s₂ s₃ s₄
  have hwork : ((s₄.count 4 die 4 1).classifiedAll taken).work = s₄.work := State.work_classifiedAll ..
  have hdies : s₄.dies = s₂.dies := by
    change s₃.dies = s₂.dies
    exact foldl_same (·.dies) (fun u t => u.setTile_dies t _) f.tiles s₂
  constructor
  · rw [State.launch?_of_launches (State.launches_of_work _ hwork), State.launch?_setLaunch_self]
  · rw [State.bins_of_work _ hwork, State.die_of_dies hdies, State.die_setDie_self]
    dsimp only
    split
    next hnone => rw [Tbl.getD, Tbl.get?_del, if_pos rfl, List.isEmpty_iff.1 hnone]; rfl
    next => exact Tbl.get?_eq_of_set ..

/-- Settles O52, an event at a time. -/
theorem rasterAndBinEvents : Obligations.RasterAndBinEvents := by
  unfold Obligations.RasterAndBinEvents
  intro s die
  refine ⟨fun b rest hq => ?batch, fun f hf htiles => ?close, fun e n hmine hnext hctx => ?classify, fun m l x f hforming => ?waveClose,
    fun m l x f e es hforming hbin => ?timeout⟩
  case batch =>
    split
    next hctx => exact rasterBatch_leaves hq hctx
    next hctx =>
      exact rasterBatch_waits hq hctx
  case close =>
    obtain ⟨hclosed, hkeep⟩ := s.closeTiles_leaves (s.frameTiles die f.desc) die f.desc
    refine ⟨_, frameClose_closes hf htiles, ?_, hclosed, ?_, ?_⟩
    · exact congrArg Die.closedOrder (State.die_setDie_self ..)
    · exact foldl_same (f := State.closeTile) State.pix (fun u n => rfl) (s.frameTiles die f.desc) s
    · exact foldl_same (f := State.closeTile) State.mem (fun u n => rfl) (s.frameTiles die f.desc) s
  case classify =>
    refine ⟨_, classifyTile_takes hmine hnext hctx, ?_⟩
    rw [State.closedOrder_of_queues (State.queues_shadeTile _ die n), State.withoutClosed, State.die_setDie_self]
  case waveClose =>
    intro closes
    have he : exec (.binWaveClose die m) s = execBinWaveClose die m s := rfl
    unfold execBinWaveClose at he
    rw [hforming] at he
    dsimp only at he
    obtain ⟨hlaunch, hbins⟩ := s.closeBinWave_leaves die m l x f
    split
    next hfull =>
      rw [if_pos (by simpa using hfull)] at he
      exact ⟨_, _, he, hlaunch, rfl, rfl, hbins⟩
    next hfull => rwa [if_neg (by simpa using hfull)] at he
  case timeout =>
    have he : exec (.binflushTimeout die m) s = execBinflushTimeout die m s := rfl
    unfold execBinflushTimeout at he
    simp only [hforming, hbin] at he
    obtain ⟨hlaunch, hbins⟩ := s.closeBinWave_leaves die m l x f
    split
    next hdue => exact ⟨_, _, he.trans (if_pos hdue), hlaunch, rfl, hbins⟩
    next hdue => exact he.trans (if_neg hdue)

end Sys2Proof.Machine
end
